-- ==== Sys2Proof/Word.lean ====
section
/-! DEFINITION. Word types and their plainest arithmetic (R4: bit 0 is the least significant bit, multi-byte
quantities are little-endian). -/

namespace Sys2Proof

/-- An 8-bit byte. -/
abbrev Byte := BitVec 8

/-- A 32-bit word: a register, an FP32 lane, an instruction word. -/
abbrev Word := BitVec 32

/-- A 64-bit word: a scalar register. -/
abbrev DWord := BitVec 64

end Sys2Proof
end

