-- ==== Sys2Proof/Syntax.lean ====
section
/-! DEFINITION. The commands of the module: one constructor per row of the opcode table, with the operands that
the row's event brings from outside the state. -/

namespace Sys2Proof

/-- Who makes an access: the host through PF0 (`host`) or PF1 (`pf1`), a virtual function, Curator, a core of a site, a remote device,
or the JTAG port (R274, R310, R413, R430). -/
inductive Agent where
  | host
  | pf1
  | vf (k : Nat)
  | curator
  | core (tile core : Nat)
  | remote (device : Nat)
  | tap
deriving DecidableEq, Repr

/-- The engines of R187. -/
inductive Engine where
  | fetch
  | compute
  | drain
deriving DecidableEq, Repr

/-- What the fetch at a core's pc delivered: the instruction's bits, the lower word in [31:0]; the same after a parity error in the L1I word
at the given byte distance from pc, which is refetched (R230); or an uncorrectable error in that word (R154, R230). -/
inductive Fetched where
  | word (w : BitVec 64)
  | refetched (offset : Nat) (w : BitVec 64)
  | ecc (offset : Nat)
deriving DecidableEq, Repr

/-- The commands. -/
inductive Instr where
  /-- A group 0x00 register-register integer instruction writes its result to d. (R160) -/
  | aluRegisterOp (tile core : Nat) (fetched : Fetched)
  /-- An immediate instruction of groups 0x01 to 0x07 computes from sa and the immediate. (R161) -/
  | immediateOp (tile core : Nat) (fetched : Fetched)
  /-- A group 0x08 load-immediate, in its LI, LI.S, LI.Z or LI.H form, writes a constant to d. (R161) -/
  | li (tile core : Nat) (fetched : Fetched)
  /-- A group 0x09 multiply, divide or remainder instruction writes its result to d. (R162) -/
  | mulDiv (tile core : Nat) (fetched : Fetched)
  /-- A group 0x0D count, byte-swap or extend instruction writes its result to d. (R163) -/
  | bitOp (tile core : Nat) (fetched : Fetched)
  /-- A compare of two registers writes predicate pd under comb. (R164) -/
  | cmp (tile core : Nat) (fetched : Fetched)
  /-- A compare of a register with an immediate writes predicate pd under comb. (R164) -/
  | cmpi (tile core : Nat) (fetched : Fetched)
  /-- PAND, POR, PXOR, PANDN, PGET or PSET operates on the predicate registers. (R165) -/
  | predicateOp (tile core : Nat) (fetched : Fetched)
  /-- A relative branch sets pc to pc plus four times the offset. (R166) -/
  | br (tile core : Nat) (fetched : Fetched)
  /-- A branch-and-link writes the return address to d and branches. (R166) -/
  | brl (tile core : Nat) (fetched : Fetched)
  /-- A register jump computes its target, links, and jumps. (R166) -/
  | jr (tile core : Nat) (fetched : Fetched)
  /-- NOP does nothing except advance pc. (R167) -/
  | nop (tile core : Nat) (fetched : Fetched)
  /-- END stops issue, and the core goes ENDING and then STOPPED. (R167) -/
  | endOp (tile core : Nat) (fetched : Fetched)
  /-- WFE clears a set event flag, or makes the core WAITING until the flag is set or the timeout is reached. (R167) -/
  | wfe (tile core : Nat) (fetched : Fetched)
  /-- The core's TIME reaches the WFE timeout, and the waiting core continues. (R167) -/
  | wfeTimeout (tile core : Nat)
  /-- A load reads memory along the path that R169 gives for its address. (R168) -/
  | ld (tile core : Nat) (fetched : Fetched)
  /-- A store posts a write along the path that R169 gives for its address. (R168) -/
  | st (tile core : Nat) (fetched : Fetched)
  /-- The response to an outstanding load, AMO or store arrives and completes the access. (R177) -/
  | memoryResponseArrival (tile core id : Nat) (corr uncorr : List Nat)
  /-- An atomic read-modify-write is performed at the own vitrine, the MI tile or the L2. (R171) -/
  | amo (tile core : Nat) (fetched : Fetched)
  /-- FENCE holds later memory instructions until every earlier access of the core has completed. (R172) -/
  | fence (tile core : Nat) (fetched : Fetched)
  /-- FENCE.I fences and then discards the L1I of the scalar core. (R172) -/
  | fenceI (tile core : Nat) (fetched : Fetched)
  /-- CLEAN writes a dirty cache line to memory and keeps it valid. (R172) -/
  | clean (tile core : Nat) (fetched : Fetched)
  /-- INVAL discards a cache line without writing it back. (R172) -/
  | inval (tile core : Nat) (fetched : Fetched)
  /-- FLUSH cleans a cache line and then invalidates it. (R172) -/
  | flush (tile core : Nat) (fetched : Fetched)
  /-- CSRR reads one register of the own tile CSR space. (R175) -/
  | csrr (tile core : Nat) (fetched : Fetched)
  /-- CSRW writes one register of the own tile CSR space and returns its old value. (R175) -/
  | csrw (tile core : Nat) (fetched : Fetched)
  /-- CSRS sets bits of one own tile CSR indivisibly. (R175) -/
  | csrs (tile core : Nat) (fetched : Fetched)
  /-- CSRC clears bits of one own tile CSR indivisibly. (R175) -/
  | csrc (tile core : Nat) (fetched : Fetched)
  /-- RDTIME returns the core's site copy of TIME. (R176) -/
  | rdtime (tile core : Nat) (fetched : Fetched)
  /-- RDCORE returns the source number of the core. (R176) -/
  | rdcore (tile core : Nat) (fetched : Fetched)
  /-- TRAP raises TRAP_U or TRAP_S. (R176) -/
  | trap (tile core : Nat) (fetched : Fetched)
  /-- BREAK raises BREAK, or halts a core under debug control. (R176) -/
  | breakOp (tile core : Nat) (fetched : Fetched)
  /-- TRET returns from a trap, restoring pc, mode and ien. (R183) -/
  | tret (tile core : Nat) (fetched : Fetched)
  /-- IDLE makes the scalar core WAITING until an enabled interrupt is pending. (R176) -/
  | idle (tile core : Nat) (fetched : Fetched)
  /-- SVGET reads a supervisor register. (R176) -/
  | svget (tile core : Nat) (fetched : Fetched)
  /-- SVSET writes a supervisor register, with effect from the next instruction. (R182) -/
  | svset (tile core : Nat) (fetched : Fetched)
  /-- SVSWAP exchanges a supervisor register with an s register. (R176) -/
  | svswap (tile core : Nat) (fetched : Fetched)
  /-- XLINV discards cached translations of one address, of one space tag, or all of them. (R237) -/
  | xlinv (tile core : Nat) (fetched : Fetched)
  /-- Once outstanding work completes after an exception or refusal, the core becomes FAULTED and the exception is recorded. (R180) -/
  | coreFaulted (tile core : Nat)
  /-- The core's TIME reaches SV_TIMER, and the timer interrupt becomes pending. (R182) -/
  | svTimerExpiry (tile core : Nat)
  /-- An enabled pending interrupt is taken at an instruction boundary. (R184) -/
  | interruptTaken (tile core : Nat)
  /-- A TILE_START start command loads pc and s1 and makes a STOPPED or FAULTED core RUNNING. (R153) -/
  | start (agent : Agent) (tile core : Nat)
  /-- A TILE_START stop command ends issue, and the core is ENDING until its issued work completes. (R153) -/
  | stop (agent : Agent) (tile core : Nat)
  /-- A TILE_START wake command sets the core's event flag. (R153) -/
  | wake (agent : Agent) (tile core : Nat)
  /-- An ENDING core becomes STOPPED once its queues are empty and its issued work has completed. (R192) -/
  | coreStopped (tile core : Nat)
  /-- A write to the program store window is accepted only while core 0 is stopped, faulted or halted. (R154) -/
  | programStoreWrite (agent : Agent) (tile index : Nat) (value : BitVec 32)
  /-- TK.SET replaces a token counter's value once earlier stores have completed. (R190) -/
  | tkSet (tile core : Nat) (fetched : Fetched)
  /-- TK.ADD adds to a token counter, saturating at 255. (R190) -/
  | tkAdd (tile core : Nat) (fetched : Fetched)
  /-- TK.TAKE waits until a counter covers n and then takes n. (R190) -/
  | tkTake (tile core : Nat) (fetched : Fetched)
  /-- TK.READ returns a token counter's value. (R190) -/
  | tkRead (tile core : Nat) (fetched : Fetched)
  /-- ENG.WAIT holds the sequencer until the selected engines are empty and complete. (R191) -/
  | engWait (tile core : Nat) (fetched : Fetched)
  /-- ENG.NOTIFY arms a one-time event on the ENG.WAIT condition. (R191) -/
  | engNotify (tile core : Nat) (fetched : Fetched)
  /-- TD.SET writes a descriptor from two s registers. (R195) -/
  | tdSet (tile core : Nat) (fetched : Fetched)
  /-- TD.GETLO reads the low 64 bits of a descriptor. (R195) -/
  | tdGetlo (tile core : Nat) (fetched : Fetched)
  /-- TD.GETHI reads the high 64 bits of a descriptor. (R195) -/
  | tdGethi (tile core : Nat) (fetched : Fetched)
  /-- TD.ADDR replaces the address field of a descriptor. (R195) -/
  | tdAddr (tile core : Nat) (fetched : Fetched)
  /-- AH.SET writes an accumulator handle. (R195) -/
  | ahSet (tile core : Nat) (fetched : Fetched)
  /-- AH.GET reads an accumulator handle. (R195) -/
  | ahGet (tile core : Nat) (fetched : Fetched)
  /-- A matrix operation is dispatched to the Compute engine queue. (R197) -/
  | mm (tile core : Nat) (fetched : Fetched)
  /-- A codebook load is dispatched to the Compute engine. (R200) -/
  | cbLoad (tile core : Nat) (fetched : Fetched)
  /-- A drain instruction is dispatched to the Drain engine. (R201) -/
  | dr (tile core : Nat) (fetched : Fetched)
  /-- ACC.SCALE multiplies rows of the region of the oldest completion by their row-table factors. (R123) -/
  | accScale (tile core : Nat) (fetched : Fetched)
  /-- SM.INIT sets softmax row-table entries to (−∞, +0, 1.0). (R202) -/
  | smInit (tile core : Nat) (fetched : Fetched)
  /-- SM.STORE writes row-table entries to the vitrine. (R202) -/
  | smStore (tile core : Nat) (fetched : Fetched)
  /-- SM.LOAD reads row-table entries from the vitrine, with c = 1.0. (R202) -/
  | smLoad (tile core : Nat) (fetched : Fetched)
  /-- STEP.CLOSE closes a statistics slot with a merged amax from a scalar register. (R97) -/
  | stepClose (tile core : Nat) (fetched : Fetched)
  /-- ACC.DROP takes the oldest completion and clears its rows' taken bits without reading them. (R202) -/
  | accDrop (tile core : Nat) (fetched : Fetched)
  /-- ACT.LOAD reads, flushes, checks and loads an activation table. (R117) -/
  | actLoad (tile core : Nat) (fetched : Fetched)
  /-- A Fetch transfer from a device physical address into the vitrine is dispatched. (R203) -/
  | fxLoad (tile core : Nat) (fetched : Fetched)
  /-- A Fetch transfer from the vitrine to a device physical address is dispatched. (R203) -/
  | fxStore (tile core : Nat) (fetched : Fetched)
  /-- A remote read from a window into the vitrine is dispatched. (R203) -/
  | fxWload (tile core : Nat) (fetched : Fetched)
  /-- A remote write from the vitrine into a window is dispatched. (R203) -/
  | fxWstore (tile core : Nat) (fetched : Fetched)
  /-- A 32 B descriptor message is dispatched for sending. (R204) -/
  | msgDesc (tile core : Nat) (fetched : Fetched)
  /-- A data message of up to 4 KiB is dispatched for sending. (R204) -/
  | msgData (tile core : Nat) (fetched : Fetched)
  /-- A concord contribution is dispatched for sending. (R204) -/
  | msgConc (tile core : Nat) (fetched : Fetched)
  /-- A token message is dispatched for sending. (R204) -/
  | msgToken (tile core : Nat) (fetched : Fetched)
  /-- A doorbell message is dispatched for sending. (R204) -/
  | msgDoorbell (tile core : Nat) (fetched : Fetched)
  /-- QCNT returns the number of entries waiting in a receive queue. (R206) -/
  | qcnt (tile core : Nat) (fetched : Fetched)
  /-- QHEAD returns the location of a queue's head entry. (R206) -/
  | qhead (tile core : Nat) (fetched : Fetched)
  /-- QPOP releases a queue's head entry. (R206) -/
  | qpop (tile core : Nat) (fetched : Fetched)
  /-- QNOTIFY turns arrival notification of a queue on or off. (R206) -/
  | qnotify (tile core : Nat) (fetched : Fetched)
  /-- A group 0x20 FP32 lane arithmetic or compare instruction executes. (R208) -/
  | vectorFp32 (tile core : Nat) (fetched : Fetched)
  /-- A group 0x21 BF16 pair arithmetic or compare instruction executes. (R208) -/
  | vectorBf16 (tile core : Nat) (fetched : Fetched)
  /-- A group 0x22 32-bit integer lane instruction executes. (R208) -/
  | vectorInteger (tile core : Nat) (fetched : Fetched)
  /-- A lane movement or reduction instruction of group 0x24 executes. (R209) -/
  | laneMove (tile core : Nat) (fetched : Fetched)
  /-- VQ converts FP32 lanes to a packed format and counts into a statistics slot. (R210) -/
  | vq (tile core : Nat) (fetched : Fetched)
  /-- VX expands packed elements to FP32 lanes. (R210) -/
  | vx (tile core : Nat) (fetched : Fetched)
  /-- VCVT.I2F converts signed integer lanes to FP32. (R210) -/
  | vcvtI2f (tile core : Nat) (fetched : Fetched)
  /-- VCVT.F2I converts FP32 lanes to saturated signed integers. (R210) -/
  | vcvtF2i (tile core : Nat) (fetched : Fetched)
  /-- A group 0x27 special function applies to FP32 lanes in a V-tile. (R224) -/
  | specialFunction (tile core : Nat) (fetched : Fetched)
  /-- VLD loads lanes from vitrine lines. (R212) -/
  | vld (tile core : Nat) (fetched : Fetched)
  /-- VST stores lanes to vitrine lines. (R212) -/
  | vst (tile core : Nat) (fetched : Fetched)
  /-- VLD.C loads lanes from a block column. (R212) -/
  | vldC (tile core : Nat) (fetched : Fetched)
  /-- VST.C stores lanes to a block column. (R212) -/
  | vstC (tile core : Nat) (fetched : Fetched)
  /-- VGATHER reads cells at lane offsets in scattered accesses. (R221) -/
  | vgather (tile core : Nat) (fetched : Fetched)
  /-- VSCATTER writes lanes to cells at lane offsets in scattered accesses. (R221) -/
  | vscatter (tile core : Nat) (fetched : Fetched)
  /-- VSCATTER.ADD reads, adds and writes back cells, holding their banks. (R222) -/
  | vscatterAdd (tile core : Nat) (fetched : Fetched)
  /-- The read data of a VSCATTER.ADD access arrives, and its summed write is presented on port 2. (R222) -/
  | vscatterAddWrite (tile : Nat)
  /-- VSORT sorts key and payload pairs in descending key order. (R214) -/
  | vsort (tile core : Nat) (fetched : Fetched)
  /-- VTOPK merges two sorted pair sets and keeps the first L pairs. (R214) -/
  | vtopk (tile core : Nat) (fetched : Fetched)
  /-- An engine takes its queue head once its token wait and its engine conditions are met. (R187) -/
  | engineIssue (tile : Nat) (engine : Engine) (corr uncorr : List Nat)
  /-- An engine instruction completes in issue order and signals its token counter. (R187) -/
  | engineComplete (tile : Nat) (engine : Engine)
  /-- A pass starts at its computed start cycle, carrying a swap tag if it reloads. (R52) -/
  | passStart (tile : Nat)
  /-- The loader writes a staged block row into the shadow plinths at its anchor cycle. (R51) -/
  | stationaryRowWrite (tile : Nat)
  /-- The loader reads a block row from the vitrine into staging once the previous block's row has been written. (R53) -/
  | loaderRowRead (tile : Nat)
  /-- The feeder presents a stream read while it holds fewer than eight units. (R137) -/
  | streamUnitRead (tile : Nat)
  /-- An initialising commit waits for its accumulator row to be released, then takes the row and writes it. (R58) -/
  | initialisingCommit (tile : Nat)
  /-- A chunk's last commit posts a completion to its handle, or defers it under hold. (R198) -/
  | chunkCompletion (tile : Nat)
  /-- A codebook load takes effect after earlier matrix instructions have formed their last terms. (R81) -/
  | codebookTakesEffect (tile : Nat)
  /-- A drain's last write completes, and its statistics enter the slot. (R126) -/
  | drainComplete (tile : Nat)
  /-- A close written to QUANT_CTL_Qn closes the step with QUANT_MERGE_Qn. (R97) -/
  | quantClose (agent : Agent) (tile slot : Nat)
  /-- A clear written to QUANT_CTL_Qn clears the slot's counts and history and keeps its scale. (R101) -/
  | quantClear (agent : Agent) (tile slot : Nat)
  /-- A presented vitrine request is accepted in order of wait count, or refused on a conflict. (R138) -/
  | vitRequestAccept (tile : Nat) (corr uncorr : List Nat)
  /-- An accepted vitrine access delivers its data, or reports its write complete, six cycles after acceptance. (R139) -/
  | vitAccessComplete (tile : Nat)
  /-- A corrected cell is written back in the first cycle its bank is free. (R141) -/
  | eccWriteback (tile cell : Nat)
  /-- An open command opens a closed segment, or starts initialising an off one. (R145) -/
  | segOpen (agent : Agent) (tile segment : Nat)
  /-- A close command makes an open segment draining. (R145) -/
  | segClose (agent : Agent) (tile segment : Nat)
  /-- An off command starts powering off a closed segment. (R145) -/
  | segOff (agent : Agent) (tile segment : Nat)
  /-- Six cycles after a close, a draining segment becomes closed. (R144) -/
  | segDrainEnd (tile segment : Nat)
  /-- Sixty-four cycles after the off command, the segment becomes off. (R144) -/
  | segPowerOffEnd (tile segment : Nat)
  /-- An initialising segment becomes open after 4,352 cycles, zeroed. (R144) -/
  | segInitEnd (tile segment : Nat)
  /-- A write to S_L2_CFG starts a change of the local ways while every core is stopped. (R233) -/
  | sL2CfgWrite (agent : Agent) (tile : Nat) (value : BitVec 32)
  /-- The L2 finishes writing back and zeroing the changed ways and clears busy. (R233) -/
  | l2ReconfigDone (tile : Nat)
  /-- An MI tile reads and decodes a DRAM block and delivers plaintext or all ones. (R250) -/
  | dramRead (request : Nat) (flips : List (Nat × BitVec 8)) (die : Option Nat)
  /-- An MI tile accepts a whole-block DRAM write and completes it on acceptance. (R246) -/
  | dramWrite (request : Nat)
  /-- A partial write or AMO reads, merges and writes a block indivisibly, or is dropped. (R247) -/
  | dramPartialWrite (request : Nat) (flips : List (Nat × BitVec 8)) (die : Option Nat)
  /-- A corrected block is rewritten when its bank next has no request. (R250) -/
  | dramCorrectedRewrite (stack off : Nat)
  /-- The rebuild has rewritten every block of the stack in failed-die encoding. The operand is the stack with the offset that the rebuild has
  reached. (R251) -/
  | rebuildComplete (reached : Nat × Nat)
  /-- An MI tile copies a failing row into a spare row, for what a read found or for what patrol did. (R257) -/
  | rowRetire (stack channel bank row die : Nat) (read : Bool)
  /-- After the copy, the bank's remap switches to the spare, and waiting accesses proceed. (R257) -/
  | rowRemapSwitch (stack channel bank row : Nat)
  /-- Patrol scrub reads and decodes the next block of the tile's channels. (R254) -/
  | patrolRead (tile channel : Nat) (flips : List (Nat × BitVec 8)) (die : Option Nat)
  /-- The stack is refreshed at the interval of its temperature state. (R253) -/
  | refresh (stack : Nat)
  /-- The hottest stack sensor crosses a threshold, and the refresh state changes. The readings are in sixteenths of a degree. (R253) -/
  | stackTempChange (stack : Nat) (temps : Int × Int × Int × Int)
  /-- Curator starts a zeroing scrub of a placement unit under a new key set. (R255) -/
  | zeroingScrubStart (unit : Nat)
  /-- The unit's last block is written, and its addresses stop completing CLOSED. (R255) -/
  | zeroingScrubEnd (unit : Nat)
  /-- An interface divides an access into pieces, translates windows, chooses targets and injects the packets. (R271) -/
  | packetInject (origin : Nat)
  /-- A packet header reaches a router, which forwards it, ejects it, or answers UNREACH. (R263) -/
  | routerHop (router out flit : Nat)
  /-- A destination checks an arriving packet in order and performs it or answers it. (R274) -/
  | packetReceive (packet : Nat)
  /-- An entry is published in the cycle after its last write completes. (R278) -/
  | queueEntryPublish (tile queue : Nat)
  /-- A message waiting on a full queue is placed once an entry is freed. (R293) -/
  | queuedMessagePlaced (tile : Nat)
  /-- A COMPL or RDATA answer reaches its source, which combines piece answers. (R273) -/
  | completionReceive (packet : Nat)
  /-- An open command reopens a closed queue with its accession advanced and its ring empty. (R279) -/
  | queueOpen (agent : Agent) (tile queue : Nat)
  /-- A close command closes an open queue. (R279) -/
  | queueClose (agent : Agent) (tile queue : Nat)
  /-- An open command on NET_WIN_CMD is broadcast to open a window with its accession advanced. (R283) -/
  | windowOpen (agent : Agent) (tile window : Nat)
  /-- A close command on NET_WIN_CMD is broadcast to close a window. (R283) -/
  | windowClose (agent : Agent) (tile window : Nat)
  /-- A copy of the window table applies a broadcast window command on receipt. (R283) -/
  | windowCommandApply (copy cmd : Nat)
  /-- Every copy has applied the command, and busy returns to 0. (R283) -/
  | windowBusyClear (tile : Nat)
  /-- A concord unit adds or buffers one contribution in the current or next round. (R288) -/
  | concContribution (tile : Nat)
  /-- A completed round's results are written to CONC_DEST. (R291) -/
  | concDelivery (tile slot : Nat) (uncorr : List Nat)
  /-- Once every delivery write is answered, the notification is sent and the next round becomes current. (R291) -/
  | concNotify (tile slot : Nat)
  /-- A write to CONC_CFG_n changes the slot shape when the slot is empty and fits. (R292) -/
  | concCfgWrite (agent : Agent) (tile slot : Nat) (value : BitVec 32)
  /-- A member arrives at a BARRIER context. (R298) -/
  | snArrive (agent : Agent) (tile context : Nat)
  /-- A member sets its FLAG, ANY or ALL input. (R301) -/
  | snSet (agent : Agent) (tile context : Nat)
  /-- A member clears its FLAG, ANY or ALL input. (R301) -/
  | snClear (agent : Agent) (tile context : Nat)
  /-- An op of 3 written to NET_SYNC_CTX_c does nothing beyond the shared checks. (R301) -/
  | snNoOperation (agent : Agent) (tile context : Nat)
  /-- Every member and down port has arrived, and the round is released or an arrival is sent up. (R299) -/
  | barrierRelease (context : Nat)
  /-- A cross-device barrier arrival frame is received on a down port. (R299) -/
  | barArrive (port context round : Nat)
  /-- A cross-device barrier release frame is received from the up port. (R299) -/
  | barRelease (port context round : Nat)
  /-- A network wait exceeds NET_STALL_LIMIT and is reported once. (R294) -/
  | netStall (tile port vc : Nat)
  /-- An engine, sequencer, array or ENDING wait exceeds ENG_STALL_LIMIT and is reported once. (R217) -/
  | engineStall (tile : Nat)
  /-- Curator's broadcast write is delivered once to every live site of a kind. (R297) -/
  | cnBroadcast (kind offset : Nat) (value : BitVec 32)
  /-- A FAB_CTL load command copies the staged image into the shadow slot for validation. (R304) -/
  | load (agent : Agent)
  /-- A FAB_CTL cancel command disarms an armed swap before its count. (R318) -/
  | cancel (agent : Agent)
  /-- A FAB_CTL discard command empties an unarmed shadow. (R304) -/
  | discard (agent : Agent)
  /-- Validation ends, and the shadow becomes VALID or REFUSED. (R316) -/
  | imageValidationDone
  /-- A write of FAB_SWAP_AT_HI arms the shadow for a swap count if every check passes. (R317) -/
  | arm (agent : Agent) (hi : BitVec 32)
  /-- At T − 1 µs, Curator samples whether each changing partition is quiesced. (R321) -/
  | quiesceSample
  /-- At the swap count, every unit takes the shadow tables, and non-carried partitions are reset. (R320) -/
  | swap
  /-- The swap ends within 10 µs, with result DONE. (R320) -/
  | swapEnd
  /-- A FAB_CLAIM claim requests an unowned resource. (R322) -/
  | claim (agent : Agent) (kind index : Nat)
  /-- A FAB_CLAIM release frees a resource held by the claimant's claim. (R322) -/
  | release (agent : Agent) (kind index : Nat)
  /-- Curator publishes a catalogue into the other buffer, at least 1 ms after the previous publication. (R42) -/
  | cataloguePublish
  /-- A CAT_HOLD_CTL hold request withdraws a site from placement. (R33) -/
  | hold (agent : Agent) (tile : Nat)
  /-- A CAT_HOLD_CTL release request returns a held site to its underlying status. (R33) -/
  | holdRelease (agent : Agent) (tile : Nat)
  /-- A write of CLK_OP_SWITCH_AT_HI, or a cap decision, schedules an operating point switch. (R328) -/
  | opSwitchRequest (agent : Agent) (hi : BitVec 32)
  /-- At S − 1 µs, a raise checks that every rail has settled, or fails with VFAIL. (R328) -/
  | raiseCheck (readings : List Nat)
  /-- At count S, every running wing stops its clock and loads the new divider. (R328) -/
  | opSwitch
  /-- At S + 64, every wing restarts its clock at the new point. (R328) -/
  | opSwitchRestart
  /-- At S + 1 µs after a lower, the rails begin ramping to the new settings. (R328) -/
  | lowerRampStart
  /-- The rails have settled, and settling returns to 0. (R328) -/
  | settlingEnd
  /-- A reference clock is lost, with the consequences for its domain. (R325) -/
  | refclkLoss (ref : Nat)
  /-- A lost reference has met its requirements for 10 ms and is present again. (R457) -/
  | refclkReturn (ref : Nat)
  /-- A seam crossing's pointer separation leaves 2 to 6 entries. The link comes with whether the crossing sends W or N. (R332) -/
  | seamAlarm (link : Nat × Bool) (cn : Bool) (separation : Nat)
  /-- The time base adds 0 or 2 in place of 1 on one CLKT cycle. (R334) -/
  | timeSlew
  /-- A master or relaying follower drives TSYNC_OUT at a multiple of 2^20. (R336) -/
  | syncPulseOut
  /-- A rising edge on TSYNC_IN is captured and measured by a pin follower. (R336) -/
  | tsyncInEdge
  /-- A master receives TIME_REQ and answers with TIME_RESP. (R336) -/
  | timeReq (port t1 : Nat)
  /-- A follower receives TIME_RESP, computes the offset, and slews or steps. (R337) -/
  | timeResp (port t1 t2 t3 : Nat)
  /-- No pulse or frame arrives for four periods, so locked clears. (R337) -/
  | syncSourceLost
  /-- A write of TIM_SYNC_CTL sets the device's time role. (R335) -/
  | timSyncCtlWrite (agent : Agent) (value : BitVec 32)
  /-- The pin function's owner schedules one TSYNC_OUT pulse. (R338) -/
  | timPulseAtWrite (agent : Agent) (hi : BitVec 32)
  /-- TIME reaches the scheduled count, and the pulse is driven. (R338) -/
  | scheduledPulse
  /-- A write of TIM_TIMER_CMP_n_HI arms a device timer. (R339) -/
  | timerArm (agent : Agent) (timer : Nat) (hi : BitVec 32)
  /-- The time base reaches the compare count, and the timer performs its wake or token action. (R339) -/
  | timerFire (timer : Nat)
  /-- A PWR_WING_CTL on command powers an off wing up under inrush tokens. (R347) -/
  | wingOn (agent : Agent) (wing : Nat)
  /-- A PWR_WING_CTL off command stops, clamps and powers down an unused wing. (R347) -/
  | wingOff (agent : Agent) (wing : Nat)
  /-- At a cap step with enough headroom, a waiting wing's inrush tokens are granted and its ramp starts. (R348) -/
  | inrushGrant
  /-- After the ramp and its 20 µs settling, the wing's clock starts and its seams align. (R348) -/
  | wingClockStart (wing : Nat)
  /-- The tokens return 1 ms after the wing's clock starts. (R348) -/
  | inrushRelease (wing : Nat)
  /-- The in-service wing sequence ends, isolation is released, and results are published: the sites that failed and those repaired, then the stacks
  that failed and the failed wires. (R388) -/
  | wingPowerUpDone (wing : Nat) (sites : List Nat × List Nat) (others : List Nat × List (Nat × Nat × Nat × Nat)) (bist : Nat)
  /-- Every 4 µs, the estimate is formed and the cap sets the skip level or requests a point switch. (R357) -/
  | capStep (raw : List (Nat × Nat × Nat))
  /-- Every 10 ms of an episode, a status record is written. (R362) -/
  | throttleStatus
  /-- Every 1 ms, Curator refits each group's gain and offset. (R355) -/
  | calibration (measured : List Nat)
  /-- A wing rail's overcurrent or undervoltage stops and isolates the wing permanently. (R349) -/
  | railTrip (wing amps mv : Nat)
  /-- A shared rail fault or VIN48 undervoltage shuts every output except VAON. (R350) -/
  | stageTrip (rail : Nat)
  /-- A wing sensor reads below setting minus droop_mv, and pulse skipping begins. (R352) -/
  | droopOnset (wing mv : Nat)
  /-- Skipping ends 64 cycles after every sensor has recovered. (R352) -/
  | droopEnd (wing : Nat)
  /-- A write of rearm restarts a wing's lowest-voltage record. (R351) -/
  | vminRearm (agent : Agent) (wing : Nat)
  /-- A connect write attaches VBRING to an off wing while BRING_EN is asserted. (R346) -/
  | vbringConnect (agent : Agent) (wing : Nat) (bringEn : Bool) (railMv : Nat)
  /-- Writing connect to 0 opens the VBRING switches. The agent comes with the wing field that it writes. (R346) -/
  | vbringDisconnect (write : Agent × Nat)
  /-- VBRING current above 150 A for 10 µs opens the switches and sets fault. (R346) -/
  | vbringOvercurrent (amps : Nat)
  /-- Deasserting BRING_EN opens the VBRING switches within 10 µs. (R346) -/
  | bringEnDeassert
  /-- Hourly, Curator reads the ageing monitors and raises a wing's trim if the margin is short. (R353) -/
  | ageingCheck (wing : Nat) (short : Bool)
  /-- The junction sensors are read every 100 µs and compared with warn. (R363) -/
  | thermalSample (wing : Nat) (temp : Int)
  /-- Every 1 ms, Curator lowers or raises the thermal cap. (R365) -/
  | thermalCapAdjust
  /-- A wing reaches 115 °C, and all its tiles skip 12 of every 16 pulses. (R366) -/
  | thermalEmergency (wing : Nat)
  /-- The wing falls below 110 °C, and the emergency ends. (R366) -/
  | emergencyEnd (wing : Nat)
  /-- A sensor at 125 °C shuts down the stage through comparators and latches the trip. (R367) -/
  | thermalTrip (wing sensor : Nat) (temp : Int)
  /-- Standby power is applied, and Curator enters S0 for a cold start. (R382) -/
  | vaux5Apply
  /-- VAUX5 falls below 4.5 V for 20 µs, and all state is lost. (R462) -/
  | vaux5Loss
  /-- VIN48 is applied or removed while the stage holds only VAON. (R462) -/
  | vin48Change (applied : Bool)
  /-- Running firmware does not report alive within 5 s, and the ROM tries the other slot. (R372) -/
  | fwAliveTimeout
  /-- S0 is left, and rails, TIME, wings, clocks, seams and routers come up. (R373) -/
  | stageS1 (deadWings : List (Nat × Nat × Nat)) (wires : List (Nat × Nat × Nat × Nat)) (deadRouters : List Nat)
  /-- SRAM BIST, DRAM training and test, and zeroing run. The sites are those that failed, and the soft repairs. (R375) -/
  | stageS2 (sites : List Nat × List (Nat × Nat × Bool)) (withdrawn : List Nat) (retired : List (BitVec 64)) (failedDies : List (Nat × Nat))
  /-- Fabric link training runs, and PCIe offers its full function. (R371) -/
  | stageS3
  /-- Logic BIST and constant broadcast run, and the catalogue is published. (R378) -/
  | stageS4 (repaired deadSites crcDead : List Nat)
  /-- The start completes, and the device is ready with no image active. (R379) -/
  | stageS5
  /-- MOD_RESET_N held low for 10 µs resets every domain except the always-on domain. (R383) -/
  | modReset (lowNs : Nat)
  /-- A module reset command to CUR_RESET_CMD resets the module. (R383) -/
  | moduleResetCommand (agent : Agent)
  /-- A restart command to CUR_RESET_CMD resets Curator alone. (R384) -/
  | curatorRestart (agent : Agent)
  /-- Curator's watchdog expires after 2 s without service and restarts Curator. (R382) -/
  | watchdogRestart (idleMs : Nat)
  /-- A write of go to TILE_RESET resets one site. (R386) -/
  | tileReset (agent : Agent) (tile : Nat)
  /-- The tile reset completes, and busy clears. (R386) -/
  | tileResetDone (tile : Nat)
  /-- A write to CUR_PART_RESET schedules a partition reset at count P. (R387) -/
  | partitionReset (agent : Agent) (partition : Nat)
  /-- At P, every site of the partition takes the partition-reset changes. (R387) -/
  | partitionResetAtP
  /-- Every site has completed, and busy returns to 0. (R387) -/
  | partitionResetDone
  /-- A site's TIME passes its test period, and the site becomes due. (R390) -/
  | iftDue (tile : Nat)
  /-- A site passes its period plus max_defer, and it becomes overdue with one record. (R393) -/
  | iftOverdue (tile : Nat)
  /-- A write to CUR_IFT_GRANT opens or ends a partition's test window. (R391) -/
  | iftGrant (agent : Agent) (partition ms : Nat)
  /-- Curator starts the test of an eligible due site. (R391) -/
  | iftStart (tile : Nat)
  /-- A test ends with pass, repair or failure. (R392) -/
  | iftEnd (tile outcome : Nat)
  /-- Every 10 ms, Curator reads the TILE_STATE of each live site. (R443) -/
  | cnPoll (tile : Nat)
  /-- A poll unanswered for 1 ms is retried, and a second silence marks the site dead. (R443) -/
  | cnPollTimeout (tile : Nat)
  /-- A port starts a training attempt of six steps. (R398) -/
  | portTraining (port : Nat)
  /-- A training step times out and ends the training with its reason. What was found: the good lanes, and whether authentication failed. (R398) -/
  | trainingStepTimeout (port step : Nat) (found : Nat × Bool)
  /-- The first frames authenticate, and the port becomes UP. (R398) -/
  | portUp (port : Nat) (lanes maxWidth low high serial : Nat) (enc auth : Bool)
  /-- A port not UP and not DISABLED repeats training every 10 s after S3. (R398) -/
  | trainingRetry (port : Nat)
  /-- A port change that has held for 10 s is published as a PORT record. (R400) -/
  | portStatePublish (port : Nat)
  /-- A link frame is received, checked, and its packets, acks and credits accepted or discarded. (R404) -/
  | frameReceive (port : Nat) (frame plain : List (BitVec 8)) (tagOk : Bool) (corr uncorr : Nat)
  /-- A received NAK makes the sender replay every unacknowledged frame. (R404) -/
  | nak (port ack : Nat)
  /-- No ack advance for 4 µs makes the sender replay. (R404) -/
  | ackTimeout (port : Nat)
  /-- A port goes DOWN, discarding and answering its packets UNREACH. (R405) -/
  | portDown (port : Nat)
  /-- A sender's frame count reaches 2^32, and it moves to the next key epoch. (R407) -/
  | keyEpochAdvance (port : Nat)
  /-- A PEER_ID frame updates the port's peer identity. (R408) -/
  | peerId (port deviceId : Nat) (valid : Bool)
  /-- A PEER_ID_REQ frame asks for a PEER_ID in reply. (R408) -/
  | peerIdReq (port : Nat)
  /-- A retrain command retrains an UP port. (R409) -/
  | retrain (agent : Agent) (port : Nat)
  /-- A disable command takes a port DISABLED. (R409) -/
  | disable (agent : Agent) (port : Nat)
  /-- An enable command starts training of a DISABLED port. (R409) -/
  | enable (agent : Agent) (port : Nat)
  /-- A host memory request is performed as a BN or CN access with its function's rights. (R412) -/
  | pcieMemoryRequest (write : Bool) (addr len : Nat) (data : List (BitVec 8)) (stream : Option Nat)
  /-- When VLINK comes up or goes off, the endpoint retrains its width and rate. (R410) -/
  | hostLinkRetrain (width rate : Nat)
  /-- PERST_N resets the PCIe endpoint, its keys and its channels. (R419) -/
  | perstN (low : Bool)
  /-- The host link goes down by surprise, and the copy channels stop. (R419) -/
  | surpriseDown
  /-- An FN_MSG_CMD of kind TOKEN sends a token from the host attachment. (R414) -/
  | fnMsgToken (fn : Nat)
  /-- An FN_MSG_CMD of kind DOORBELL sends a doorbell. (R414) -/
  | fnMsgDoorbell (fn : Nat)
  /-- An FN_MSG_CMD of kind DESC sends a descriptor message. (R414) -/
  | fnMsgDesc (fn : Nat)
  /-- An enabled channel reads its next descriptor and starts the transfer. (R415) -/
  | copyDescriptorStart (fn channel : Nat) (desc : BitVec 256) (descOk : Bool) (data : List (BitVec 8)) (hostErr : List Nat)
  /-- A transfer completes, its status is written, HEAD advances, and the vector is raised. (R415) -/
  | copyDescriptorComplete (fn channel : Nat)
  /-- A reset written to FN_CHc_CFG clears HEAD, TAIL and the status of a disabled channel. (R425) -/
  | channelReset (fn channel : Nat)
  /-- A write raises vector 4–31 of PF1 or a VF. (R416) -/
  | hstMsixRaise (agent : Agent) (fn vector : Nat)
  /-- A write of go submits the mailbox request. (R420) -/
  | mailboxGo (agent : Agent)
  /-- Returns the mailbox, ROM and firmware versions. (R421) -/
  | getVersion
  /-- Returns the serial, the part number and CAT_GEN. (R421) -/
  | getIdentity
  /-- Writes firmware bytes into the staging area of the slot not running. (R421) -/
  | fwWrite (flashErr : Bool)
  /-- Verifies the staged slot and makes it a candidate. (R421) -/
  | fwCommit (flashErr : Bool)
  /-- Verifies the staged slot and boots it at once. (R421) -/
  | recoveryBoot (flashErr : Bool)
  /-- Runs the CN self-test and scan test of the connected wing. (R389) -/
  | vbringTest (failed : List Nat)
  /-- A mailbox request completes, state reads DONE, and vector 0 is raised. (R420) -/
  | mailboxComplete
  /-- An MCTP message arrives over SMBus or PCIe VDM and is served by type. (R422) -/
  | mctpMessage (pcie : Bool) (kind : Nat) (body : List (BitVec 8))
  /-- An SPDM request returns the signed measurements. (R427) -/
  | getMeasurements (indices : List Nat) (nonce : List (BitVec 8))
  /-- IDE_KM installs a stream key set in a secured session. (R417) -/
  | ideKmKeyInstall (stream : Nat)
  /-- An integrity failure stops a stream and puts its TDIs in ERROR. (R417) -/
  | ideIntegrityFailure (stream : Nat)
  /-- TDISP LOCK_INTERFACE locks a bound VF's TDI. (R418) -/
  | lockInterface (vf stream : Nat)
  /-- TDISP STOP_INTERFACE returns a TDI to CONFIG_UNLOCKED after the required scrub. (R418) -/
  | stopInterface (vf : Nat)
  /-- A write binds a VF to a partition while its TDI is CONFIG_UNLOCKED. (R418) -/
  | hstVfBindWrite (agent : Agent) (vf : Nat) (value : BitVec 32)
  /-- SEC_SCRUB_CTL cmd 1 scrubs every site and region block of a quiesced partition. (R434) -/
  | scrubPartition (agent : Agent) (partition : Nat)
  /-- SEC_SCRUB_CTL cmd 2 scrubs the unassigned sites and uncovered placement units. (R434) -/
  | scrubIdle (agent : Agent)
  /-- A site's scrub completes within 100 µs. (R435) -/
  | siteScrubEnd (tile : Nat)
  /-- The last site and unit finish, the partition's bit clears, and SCRUB_DONE is recorded. (R436) -/
  | scrubDone (partition : Nat)
  /-- A write tests a partition's checkpoint-fence conditions. (R444) -/
  | secFenceCheck (agent : Agent) (partition : Nat)
  /-- A DBG_CORE_CMD attach puts a core under debug control. (R431) -/
  | attach (agent : Agent) (tile core : Nat)
  /-- A halt stops a debug-controlled core once its work has completed. (R431) -/
  | halt (agent : Agent) (tile core : Nat)
  /-- A resume runs a HALTED core at pc. (R431) -/
  | resume (agent : Agent) (tile core : Nat)
  /-- A step issues one instruction of a HALTED core. (R431) -/
  | step (agent : Agent) (tile core : Nat)
  /-- A detach releases a core from debug control. (R431) -/
  | detach (agent : Agent) (tile core : Nat)
  /-- A DBG_ACC_CMD read reads device memory or a HALTED core's registers. (R449) -/
  | debugRead (agent : Agent) (space : Nat)
  /-- A DBG_ACC_CMD write writes device memory or a HALTED core's registers. (R449) -/
  | debugWrite (agent : Agent) (space : Nat)
  /-- A TAP instruction is loaded, and any other than BYPASS and IDCODE sets the tap bit. (R430) -/
  | tapInstruction (instr : Nat) (resetLow : Bool)
  /-- Arming a trace buffer restarts its recording at record 0. (R433) -/
  | traceArm (agent : Agent) (buffer tile classes : Nat)
  /-- An armed counter bank samples its eight words every period. (R433) -/
  | counterBankSample (bank : Nat)
  /-- Each minute, Curator sums corrected errors and marks sites above threshold degraded. (R438) -/
  | eccRateCheck (internal : List (Nat × Nat))
  /-- Both twins' copies of an access arrive, and their CRCs are compared before it is sent once. (R440) -/
  | pairedAccessCompare (lead : Nat)
  /-- A write of FLT_LOG_HEAD consumes records when its value is in range. (R447) -/
  | fltLogHeadWrite (agent : Agent) (value : BitVec 32)
  /-- A write to a register with no row of its own sets its fields under their access codes. (R6) -/
  | registerWrite (agent : Agent) (address : Nat) (value : BitVec 32)
  /-- A port-path follower sends a TIME_REQ to its master once every 2^20 counts. (R336) -/
  | timeSyncExchange
  /-- Each tile cycle the wing's 64 voltage sensors are sampled, updating PWR_VMIN_Wn and moving between 8-of-16 and 12-of-16 droop skipping. (R351) -/
  | voltageSensorSample (wing : Nat) (readings : List Nat)
  /-- Each hour with VIN48 applied, hours_since_cold in CUR_BOOT_CTL increments. (R381) -/
  | hoursSinceColdTick
  /-- The PCIe host link trains up after PERST_N or a surprise down, and stopped copy channels report LINK_DOWN. (R419) -/
  | hostLinkUp (width rate : Nat)
  /-- A PCIe configuration request reaches a function, which enables SR-IOV VFs, programs BARs, or answers with Request Retry Status within 100 ms of PERST_N release. (R411) -/
  | pcieConfigRequest (fn op reg value sinceRelease : Nat)
  /-- A TDISP START_INTERFACE request moves a CONFIG_LOCKED TDI to RUN. (R418) -/
  | startInterface (vf : Nat)
  /-- An SPDM key-exchange request over DOE or MCTP sets up the secured session that IDE_KM needs. (R423) -/
  | keyExchange (body : List (BitVec 8))
  /-- TRST_N held low for at least 1 µs resets the TAP. (R455) -/
  | tapReset (lowNs : Nat)
  /-- A sync-network change reaches a member site 40 to 90 ns later and updates that member's view of the FLAG, ANY or ALL value. (R298) -/
  | snWavefrontArrival (context tile : Nat)
deriving DecidableEq, Repr

end Sys2Proof
end

