-- ==== Sys2Proof/Decode.lean ====
section
/-! DEFINITION. The commands that words spell. The opcode table gives the bits of no row: no word spells a command. -/

namespace Sys2Proof

/-- The command that the table's bits spell: none, for a table without bits. -/
def decodeTableWord (_nbits _w : Nat) : Option Instr := none

end Sys2Proof
end

