-- ==== Sys2Proof/Machine/Map.lean ====
section
/-! DEFINITION. Sparse data in one canonical form: a list of (key, value) pairs whose keys rise strictly and in
which no value equals what an unlisted key reads as. Registers, sites, vitrine bytes, program words, DRAM blocks
and tables are held so; an unlisted key reads as the default that the reader names. -/

namespace Sys2Proof.Machine.Map

/-- The value at key k; an unlisted key reads as `d k`. -/
def get {α : Type} (d : Nat → α) : List (Nat × α) → Nat → α
  | [], k => d k
  | (j, v) :: m, k => if j = k then v else get d m k

/-- Take out every entry at key k. -/
def erase {α : Type} (k : Nat) : List (Nat × α) → List (Nat × α)
  | [] => []
  | (j, v) :: m => if j = k then erase k m else (j, v) :: erase k m

/-- Put (k, v) before the first entry with a larger key. -/
def insert {α : Type} (k : Nat) (v : α) : List (Nat × α) → List (Nat × α)
  | [] => [(k, v)]
  | (j, w) :: m => if k < j then (k, v) :: (j, w) :: m else (j, w) :: insert k v m

/-- Write v at key k, keeping the canonical form: a value equal to the default takes no entry. -/
def set {α : Type} [DecidableEq α] (d : Nat → α) (m : List (Nat × α)) (k : Nat) (v : α) : List (Nat × α) :=
  if v = d k then erase k m else insert k v (erase k m)

/-- Change the value at key k. -/
def modify {α : Type} [DecidableEq α] (d : Nat → α) (m : List (Nat × α)) (k : Nat) (f : α → α) : List (Nat × α) :=
  set d m k (f (get d m k))

/-- Every key of the list is at least b and the keys rise strictly. -/
def risingFrom {α : Type} : Nat → List (Nat × α) → Bool
  | _, [] => true
  | b, (j, _) :: m => decide (b ≤ j) && risingFrom (j + 1) m

/-- No entry holds its key's default. -/
def noDefault {α : Type} [DecidableEq α] (d : Nat → α) (m : List (Nat × α)) : Bool :=
  m.all fun e => decide (e.2 ≠ d e.1)

/-- The canonical form. -/
def wf {α : Type} [DecidableEq α] (d : Nat → α) (m : List (Nat × α)) : Bool :=
  risingFrom 0 m && noDefault d m

/-- Write the values vs at the keys k, k + 1, and so on. -/
def setAll {α : Type} [DecidableEq α] (d : Nat → α) (m : List (Nat × α)) (k : Nat) : List α → List (Nat × α)
  | [] => m
  | v :: vs => setAll d (set d m k v) (k + 1) vs

/-- The n values at the keys k, k + 1, and so on. -/
def getRange {α : Type} (d : Nat → α) (m : List (Nat × α)) (k : Nat) : Nat → List α
  | 0 => []
  | n + 1 => get d m k :: getRange d m (k + 1) n

/-- Take out every entry whose key lies in [lo, hi): those keys read as the default again. -/
def clearRange {α : Type} (lo hi : Nat) (m : List (Nat × α)) : List (Nat × α) :=
  m.filter fun e => e.1 < lo || hi ≤ e.1

end Sys2Proof.Machine.Map
end

