-- ==== Sys2Proof/Config.lean ====
section
/-! DEFINITION. What one module fixes at manufacture, the functions whose value the spec leaves to a published
algorithm, and the free values. Every constant here is opaque: no proof can see its value, so a statement that
holds of the model holds whatever the module's fuses, keys and free values are. -/

namespace Sys2Proof.Config

/-- The free values: value number n stands for one value that the spec leaves open. The model reads a fresh one
by applying this to `State.freeCtr` (log entry 2). -/
opaque freeValue : Nat → BitVec 64

/-- SHA-384 (R41, R314, R427). -/
opaque sha384 : List (BitVec 8) → BitVec 384

/-- ECDSA P-384 verification of a signature over a digest under a public key (R314, R372). -/
opaque ecdsaVerify : (key sig : List (BitVec 8)) → (digest : BitVec 384) → Bool

/-- The signature that the device identity key makes over a response and the requester's nonce (R427). -/
opaque identitySign : List (BitVec 8) → List (BitVec 8)

/-- SHA-384 of the operator's image-signing key, fixed in fuses; `none` when unprogrammed (R314, R426). -/
opaque imageKeyHash : Option (BitVec 384)

/-- The module serial number, as attested (R35). -/
opaque serial : BitVec 64

/-- What GET_VERSION and GET_IDENTITY answer (R421) as bytes, which the spec does not lay out: from the mailbox and ROM versions and the
version and security version of both slots; from the serial, the part number and CAT_GEN. -/
opaque versionPayload : List Nat → List (BitVec 8)
opaque identityPayload : (serial : Nat) → (part : List (BitVec 8)) → (gen : Nat) → List (BitVec 8)

/-- The version, the security version and whether the signature verifies of firmware bytes by offset, whose layout the spec leaves to
Nildarvo (R372, R421). -/
opaque firmware : List (Nat × BitVec 8) → Nat × Nat × Bool

/-- SHA-384 of Curator's ROM with the firmware verification key (R427). -/
opaque romDigest : BitVec 384

/-- The DMTF measurement block of an index and a value; the answers to SPDM, MCTP control and PLDM requests, the last from the sensors'
values; and the TDISP interface report from its items (R418, R422, R423, R427). -/
opaque measurementBlock : Nat → List (BitVec 8) → List (BitVec 8)
opaque spdmAnswer : List (BitVec 8) → List (BitVec 8)
opaque controlAnswer : List (BitVec 8) → List (BitVec 8)
opaque pldmAnswer : List (BitVec 8) → List Nat → List (BitVec 8)
opaque interfaceReport : List (List Nat) → List (BitVec 8)

/-- A word of a function's PCIe configuration space that the spec leaves to the PCIe specification: function page, byte offset (R411). -/
opaque pcieConfig : Nat → Nat → BitVec 32

/-- The ROM version that GET_VERSION reports (R421). -/
opaque romVersion : BitVec 16

/-- The fused trim table entry, index wing * 16 + operating point (R39). -/
opaque fusedTrim : Nat → BitVec 16

/-- The amount by which a site's copy of TIME differs from the time base, reduced to -2 .. 2 by the reader (R333). -/
opaque siteSkew : Nat → Nat

/-- The default route table that Curator chooses while no image is active: the number of the build, router, target, entry (R262). -/
opaque defaultRoute : Nat → Nat → Nat → Nat

/-- Results of the special functions whose accuracy alone the spec bounds, on an ordinary FP32 operand: function
code and operand (R224). -/
opaque specialFunction : Nat → BitVec 32 → BitVec 32

/-- The device-unique memory key (R249). -/
opaque memoryKey : BitVec 256

/-- The counter-mode KDF of NIST SP 800-108 with AES-256-CMAC: key, label and context give 96 bytes, the first in bits [7:0] (R249). -/
opaque kdfCmac : (key : BitVec 256) → (label context : List (BitVec 8)) → BitVec 768

/-- AES-256-XTS of one data unit of 64 bytes: the keys K1 and K2 and the tweak give the permutation that encrypts; its inverse decrypts
(R248). -/
opaque xts : (keys : BitVec 512) → (tweak : Nat) → Equiv.Perm (BitVec 512)

/-- The first 8 bytes of AES-256-CMAC under a key over 64 bytes of ciphertext and a block number as 8 bytes (R248). -/
opaque cmac64 : (key : BitVec 256) → (cipher : BitVec 512) → (block : Nat) → BitVec 64

/-- AES-256-GCM of a frame under a port's session key: port, key epoch, frame count, header bytes and the 224 bytes of plaintext give the 240
bytes of the body as sent (R406, R407). -/
opaque linkSeal : (port epoch count : Nat) → (header plain : List (BitVec 8)) → List (BitVec 8)

end Sys2Proof.Config
end

