-- ==== Sys2Proof/Machine/Numeric.lean ====
section
/-! DEFINITION. Numbers: exact values, rounding to FP32 (R102), the stored formats (R75-R79), expansion to E8M7 (R73,
R74, R82, R88, R89), group trees (R103-R105), the pair accumulator (R106, R107), the exponential (R120), the output
conversion (R93, R94) and the lane arithmetic of the vector groups. -/

namespace Sys2Proof.Machine.Num

/-- A decoded number: NaN, an infinity, or a sign with the magnitude of a finite value. -/
inductive Val where
  | nan
  | inf (neg : Bool)
  | fin (neg : Bool) (x : Rat)
deriving DecidableEq, Repr

/-- 2^e. -/
def pow2 : Int → Rat
  | .ofNat n => ((2 ^ n : Nat) : Rat)
  | .negSucc n => mkRat 1 (2 ^ (n + 1))

/-- floor(log2 x) of a positive x. -/
def log2 (x : Rat) : Int :=
  let e : Int := (x.num.toNat.log2 : Int) - (x.den.log2 : Int)
  if x < pow2 e then e - 1 else e

/-- A nonnegative x to the nearest integer, ties to even. -/
def rne (x : Rat) : Nat :=
  let n := x.num.toNat
  let q := n / x.den
  let r := n % x.den
  if 2 * r < x.den then q else if 2 * r > x.den then q + 1 else if q % 2 = 0 then q else q + 1

/-- A nonnegative x to p significant bits, nearest with ties to even, exponent unbounded. -/
def roundBits (p : Nat) (x : Rat) : Rat :=
  if x = 0 then 0 else
  let u := pow2 (log2 x - p + 1)
  (rne (x / u) : Rat) * u

/-- The value as a rational with sign; NaN and infinities read as 0. -/
def Val.toRat : Val → Rat
  | .fin n x => if n then -x else x
  | _ => 0

/-- The finite value of a rational; `z` is the sign of an exact zero. -/
def ofRat (z : Bool) (x : Rat) : Val := if x = 0 then .fin z 0 else .fin (decide (x < 0)) (if x < 0 then -x else x)

/-! ### FP32 (R102) -/

/-- The canonical NaN. -/
def nan32 : BitVec 32 := 0x7FC00000

/-- Decode a code with e exponent bits, f fraction bits and a bias as R77 gives, before the special codes. -/
def decodeFloat (e f bias : Nat) (w : Nat) : Bool × Rat :=
  let frac := w % 2 ^ f
  let ex := w / 2 ^ f % 2 ^ e
  let neg := decide (w / 2 ^ (e + f) % 2 = 1)
  if ex = 0 then (neg, (frac : Rat) * pow2 (1 - (bias : Int) - f))
  else (neg, ((2 ^ f + frac : Nat) : Rat) * pow2 ((ex : Int) - bias - f))

/-- FP32 bits to a value. -/
def of32 (w : BitVec 32) : Val :=
  let n := w.toNat
  if n / 2 ^ 23 % 256 = 255 then (if n % 2 ^ 23 = 0 then .inf (decide (n / 2 ^ 31 = 1)) else .nan)
  else let d := decodeFloat 8 23 127 n; .fin d.1 d.2

/-- The bits of sign, exponent field and fraction. -/
def pack (neg : Bool) (e f ex frac : Nat) : Nat := neg.toNat * 2 ^ (e + f) + ex * 2 ^ f + frac

/-- Encode a magnitude that is 0 or a normal number of the format (exactly representable). -/
def encodeNormal (neg : Bool) (e f bias : Nat) (x : Rat) : Nat :=
  if x = 0 then pack neg e f 0 0 else
  let l := log2 x
  let m := (x / pow2 (l - f)).num.toNat
  pack neg e f (l + bias).toNat (m - 2 ^ f)

/-- R102: round a sign and an exact magnitude to FP32; an overflow is an infinity, an underflow a zero of the sign. -/
def round32Mag (neg : Bool) (x : Rat) : BitVec 32 :=
  let r := roundBits 24 x
  if r ≥ pow2 128 then BitVec.ofNat 32 (pack neg 8 23 255 0)
  else if r < pow2 (-126) then BitVec.ofNat 32 (pack neg 8 23 0 0)
  else BitVec.ofNat 32 (encodeNormal neg 8 23 127 r)

/-- R102: round a value to FP32. -/
def round32 : Val → BitVec 32
  | .nan => nan32
  | .inf n => BitVec.ofNat 32 (pack n 8 23 255 0)
  | .fin n x => round32Mag n x

/-- The exact sum with the signs of zero of R102. -/
def vadd : Val → Val → Val
  | .nan, _ => .nan
  | _, .nan => .nan
  | .inf a, .inf b => if a = b then .inf a else .nan
  | .inf a, _ => .inf a
  | _, .inf b => .inf b
  | .fin a x, .fin b y => ofRat (a && b) ((Val.fin a x).toRat + (Val.fin b y).toRat)

/-- The negation. -/
def vneg : Val → Val
  | .nan => .nan
  | .inf n => .inf (!n)
  | .fin n x => .fin (!n) x

/-- The exact product. -/
def vmul : Val → Val → Val
  | .nan, _ => .nan
  | _, .nan => .nan
  | .inf a, .inf b => .inf (a ^^ b)
  | .inf a, .fin b y => if y = 0 then .nan else .inf (a ^^ b)
  | .fin a x, .inf b => if x = 0 then .nan else .inf (a ^^ b)
  | .fin a x, .fin b y => .fin (a ^^ b) (x * y)

/-- The exact quotient. -/
def vdiv : Val → Val → Val
  | .nan, _ => .nan
  | _, .nan => .nan
  | .inf _, .inf _ => .nan
  | .inf a, .fin b _ => .inf (a ^^ b)
  | .fin a _, .inf b => .fin (a ^^ b) 0
  | .fin a x, .fin b y => if y = 0 then (if x = 0 then .nan else .inf (a ^^ b)) else .fin (a ^^ b) (x / y)

/-- FP32 operations, each rounded once. -/
def fadd (a b : BitVec 32) : BitVec 32 := round32 (vadd (of32 a) (of32 b))
def fsub (a b : BitVec 32) : BitVec 32 := round32 (vadd (of32 a) (vneg (of32 b)))
def fmul (a b : BitVec 32) : BitVec 32 := round32 (vmul (of32 a) (of32 b))
def fdiv (a b : BitVec 32) : BitVec 32 := round32 (vdiv (of32 a) (of32 b))

/-- a * b + c with one rounding. -/
def ffma (a b c : BitVec 32) : BitVec 32 := round32 (vadd (vmul (of32 a) (of32 b)) (of32 c))

/-- The order key of a value that is not NaN: a rank for the infinities, the value, and the zero's sign (R67: -0 below
+0). -/
def vlt : Val → Val → Bool
  | .nan, _ => false
  | _, .nan => false
  | .inf a, .inf b => a && !b
  | .inf a, .fin _ _ => a
  | .fin _ _, .inf b => !b
  | .fin a x, .fin b y =>
    if x = 0 ∧ y = 0 then a && !b else decide ((Val.fin a x).toRat < (Val.fin b y).toRat)

/-- R67, R208: minimum and maximum; NaN if either is NaN; -0 below +0. -/
def vmin (a b : Val) : Val := if a = .nan ∨ b = .nan then .nan else if vlt b a then b else a
def vmax (a b : Val) : Val := if a = .nan ∨ b = .nan then .nan else if vlt a b then b else a

/-- Numeric equality: -0 equals +0, NaN equals nothing. -/
def veq : Val → Val → Bool
  | .inf a, .inf b => a == b
  | .fin a x, .fin b y => decide ((Val.fin a x).toRat = (Val.fin b y).toRat)
  | _, _ => false

/-- Numeric less-than: -0 is not below +0, NaN compares false. -/
def vltNum (a b : Val) : Bool := vlt a b && !veq a b

/-- Minimum and maximum of FP32 words, rounded under R102. -/
def fmin (a b : BitVec 32) : BitVec 32 := round32 (vmin (of32 a) (of32 b))
def fmax (a b : BitVec 32) : BitVec 32 := round32 (vmax (of32 a) (of32 b))

/-- Positive normal FP32 (R87). -/
def isPosNormal (w : BitVec 32) : Bool := let e := w.toNat / 2 ^ 23; 0 < e && e < 255

/-- A finite FP32 word. -/
def isFinite (w : BitVec 32) : Bool := w.toNat / 2 ^ 23 % 256 != 255

/-- A subnormal word becomes a zero of its sign (R117, R224). -/
def flushSub (w : BitVec 32) : BitVec 32 := if w.toNat / 2 ^ 23 % 256 = 0 then w &&& 0x80000000 else w

/-! ### Formats (R75-R79) -/

/-- R75: element width in bits, 0 for a reserved code. -/
def width (fmt : Nat) : Nat :=
  match fmt with
  | 0x01 => 16 | 0x02 => 16 | 0x03 => 32 | 0x04 => 8 | 0x05 => 8 | 0x08 => 8 | 0x09 => 8
  | 0x0A => 6 | 0x0B => 6 | 0x0C => 4 | 0x0D => 4 | 0x0E => 4 | 0x10 => 4 | 0x11 => 1
  | _ => 0

/-- R77-R79: the exact value of a code; CB4 and BIN1 have none here. -/
def decode (fmt w : Nat) : Val :=
  match fmt with
  | 0x01 => if w / 128 % 256 = 255 then (if w % 128 = 0 then .inf (decide (w / 2 ^ 15 = 1)) else .nan)
            else let d := decodeFloat 8 7 127 w; .fin d.1 d.2
  | 0x02 => if w / 1024 % 32 = 31 then (if w % 1024 = 0 then .inf (decide (w / 2 ^ 15 = 1)) else .nan)
            else let d := decodeFloat 5 10 15 w; .fin d.1 d.2
  | 0x03 => of32 (BitVec.ofNat 32 w)
  | 0x04 => ofRat false ((BitVec.ofNat 8 w).toInt : Rat)
  | 0x05 => .fin false (w : Rat)
  | 0x08 => if w % 128 = 0x7F then .nan else let d := decodeFloat 4 3 7 w; .fin d.1 d.2
  | 0x09 => if w / 4 % 32 = 31 then (if w % 4 = 0 then .inf (decide (w / 128 = 1)) else .nan)
            else let d := decodeFloat 5 2 15 w; .fin d.1 d.2
  | 0x0A => let d := decodeFloat 3 2 3 w; .fin d.1 d.2
  | 0x0B => let d := decodeFloat 2 3 1 w; .fin d.1 d.2
  | 0x0C => let d := decodeFloat 2 1 1 w; .fin d.1 d.2
  | 0x0D => ofRat false ((BitVec.ofNat 4 w).toInt : Rat)
  | 0x0E => .fin false (w : Rat)
  | _ => .nan

/-! ### E8M7 and expansion (R73, R74) -/

/-- E8M7 bits to a value. -/
def of16 (w : BitVec 16) : Val := decode 0x01 w.toNat

/-- An expanded element with the events that its expansion counts. -/
structure Exp where
  v : BitVec 16
  flush : Bool
  ovf : Bool
deriving DecidableEq, Repr

/-- R74: a value of at most 8 significant bits to E8M7: below 2^-126 it becomes a zero (a flush), above the largest
finite value an infinity (an overflow). -/
def toE8M7 : Val → Exp
  | .nan => { v := 0x7FC0, flush := false, ovf := false }
  | .inf n => { v := BitVec.ofNat 16 (pack n 8 7 255 0), flush := false, ovf := false }
  | .fin n x =>
    if x = 0 then { v := BitVec.ofNat 16 (pack n 8 7 0 0), flush := false, ovf := false }
    else if x < pow2 (-126) then { v := BitVec.ofNat 16 (pack n 8 7 0 0), flush := true, ovf := false }
    else if x ≥ pow2 128 then { v := BitVec.ofNat 16 (pack n 8 7 255 0), flush := false, ovf := true }
    else { v := BitVec.ofNat 16 (encodeNormal n 8 7 127 x), flush := false, ovf := false }

/-- R81: an entry of a codebook made canonical. -/
def canonE8M7 (w : BitVec 16) : BitVec 16 :=
  let n := w.toNat
  if n / 128 % 256 = 0 then BitVec.ofNat 16 (n / 2 ^ 15 * 2 ^ 15)
  else if n / 128 % 256 = 255 ∧ n % 128 ≠ 0 then 0x7FC0 else w

/-- A block scale (R85, R88, R89). -/
inductive Scale where
  | none
  | ue8 (code : Nat)
  | e4m3 (code : Nat)
deriving DecidableEq, Repr

/-- R88, R89: a value under its block scale, exact. -/
def Scale.apply (sc : Scale) (v : Val) : Val :=
  match sc with
  | .none => v
  | .ue8 c => if c = 255 then .nan else
      match v with
      | .fin n x => .fin n (x * pow2 ((c : Int) - 127))
      | w => w
  | .e4m3 c => vmul v (decode 0x08 c)

/-- R74 before a scale: a nonzero value below 2^-126 expands to a zero of its sign (a subnormal BF16 code). -/
def flushVal : Val → Val
  | .fin n x => if x < pow2 (-126) then .fin n 0 else .fin n x
  | v => v

/-- R74, R80, R90: the expansion of a stored code under a codebook and a block scale. -/
def expand (fmt w : Nat) (cb : List (BitVec 16)) (sc : Scale) : Exp :=
  let v := if fmt = 0x10 then of16 (cb.getD w 0) else decode fmt w
  let pre := flushVal v
  let e := toE8M7 (sc.apply pre)
  { e with flush := e.flush || decide (pre ≠ v) }

/-- R82: part i of a value, `none` for a null part; the flag says that R74 flushed it. -/
def part (v : Val) (i : Nat) : Option (BitVec 16) × Bool :=
  match v with
  | .fin n x =>
    if x = 0 ∨ x < pow2 (-126) then
      (if i = 0 then (some (BitVec.ofNat 16 (pack n 8 7 0 0)), decide (x ≠ 0)) else (none, false))
    else
      let q := log2 x - 23
      let s := (x / pow2 q).num.toNat
      let p : Rat :=
        if i = 0 then ((s / 65536 : Nat) : Rat) * pow2 (q + 16)
        else if i = 1 then ((s / 256 % 256 : Nat) : Rat) * pow2 (q + 8)
        else ((s % 256 : Nat) : Rat) * pow2 q
      if p = 0 then (none, false)
      else if p < pow2 (-126) then (none, true)
      else (some (toE8M7 (.fin n p)).v, false)
  | w => if i = 0 then (some (toE8M7 w).v, false) else (none, false)

/-- R83: the (stream part, stationary part) of sub-pass sp. -/
def subPass (count sp : Nat) : Nat × Nat :=
  if count = 1 then (0, 0) else
  match sp with
  | 0 => (0, 0) | 1 => (0, 1) | 2 => (1, 0) | 3 => (0, 2) | 4 => (1, 1) | _ => (2, 0)

/-! ### Terms and group reductions (R65, R67, R103-R107) -/

/-- The verbs of R65. -/
inductive Verb where
  | mac | sad | ssd | minplus | maxplus | eqcount | xnorpop | maxmul
deriving DecidableEq, Repr

/-- R65: the verb of a code. -/
def verbOf : Nat → Option Verb
  | 0 => some .mac | 1 => some .sad | 2 => some .ssd | 3 => some .minplus | 4 => some .maxplus
  | 5 => some .eqcount | 6 => some .xnorpop | 7 => some .maxmul
  | _ => none

/-- The verbs whose reduction is a minimum or maximum. -/
def Verb.order : Verb → Bool
  | .minplus => true | .maxplus => true | .maxmul => true | _ => false

/-- The identity of a verb (R65). -/
def Verb.identity : Verb → BitVec 32
  | .minplus => 0x7F800000 | .maxplus => 0xFF800000 | .maxmul => 0xFF800000 | _ => 0

/-- R67: the rounded difference of SAD and SSD. -/
def diff8 (a b : Val) : Val :=
  match vadd a (vneg b) with
  | .fin n x =>
    let r := roundBits 8 x
    if r ≥ pow2 128 then .inf n else if r < pow2 (-126) then .fin n 0 else .fin n r
  | v => v

/-- The number of agreeing bits of two 16-bit words, of the low n bits. -/
def agree (n : Nat) (a b : BitVec 16) : Nat :=
  ((List.range n).filter fun i => a.getLsbD i == b.getLsbD i).length

/-- R65, R67: the term of a verb from expanded elements; the flag says that the term was flushed to a zero (R92). -/
def term (v : Verb) (a b : BitVec 16) : Val × Bool :=
  let x := of16 a; let y := of16 b
  match v with
  | .mac => (vmul x y, false)
  | .sad => (match diff8 x y with | .fin _ m => .fin false m | .inf _ => .inf false | .nan => .nan, false)
  | .ssd => (let d := diff8 x y; (vmul d d, false))
  | .minplus => ord (vadd x y)
  | .maxplus => ord (vadd x y)
  | .maxmul => ord (vmul x y)
  | .eqcount => (.fin false (if veq x y then 1 else 0), false)
  | .xnorpop => (.fin false (agree 16 a b : Nat), false)
where
  /-- The term rounded under R102; a flush is counted. -/
  ord (e : Val) : Val × Bool :=
    let r := of32 (round32 e)
    (r, match e, r with
        | .fin _ m, .fin _ q => decide (m ≠ 0 ∧ q = 0)
        | _, _ => false)

/-- R103, R104: the result of a group of finite terms in the tree, the number of terms that truncation changed, and the
exact tree sum. -/
def treeSum (ts : List Val) : Rat × Nat :=
  let mags := ts.filterMap fun t => match t with
    | .fin _ x => if x = 0 then none else some (log2 x)
    | _ => none
  match mags with
  | [] => (0, 0)
  | e :: es =>
    let emax := es.foldl max e
    let u := pow2 (emax - 42)
    ts.foldl (fun acc t => match t with
      | .fin n x =>
        let q : Rat := ((x / u).floor : Rat) * u
        (acc.1 + (if n then -q else q), acc.2 + (if q = x then 0 else 1))
      | _ => acc) (0, 0)

/-- What one group gives: the result, the terms lost below the tree and whether the rounding left the FP32 range. -/
structure Group where
  r : BitVec 32
  lost : Nat
  range : Bool
deriving DecidableEq, Repr

/-- R104, R105: the group tree sum rounded to FP32. -/
def groupSum (ts : List Val) : Group :=
  if ts.contains .nan || (ts.contains (.inf true) && ts.contains (.inf false)) then { r := nan32, lost := 0, range := false }
  else if ts.contains (.inf false) then { r := 0x7F800000, lost := 0, range := false }
  else if ts.contains (.inf true) then { r := 0xFF800000, lost := 0, range := false }
  else if ts.all fun t => match t with | .fin _ x => decide (x = 0) | _ => false then
    { r := if ts.all (fun t => match t with | .fin n _ => n | _ => false) then 0x80000000 else 0, lost := 0, range := false }
  else
    let s := treeSum ts
    let v := ofRat false s.1
    let r := round32 v
    { r := r, lost := s.2,
      range := match of32 r with
        | .inf _ => true
        | .fin _ q => decide (q = 0 ∧ s.1 ≠ 0)
        | .nan => false }

/-- R65: the group reduction of an order verb. -/
def groupOrder (v : Verb) (ts : List Val) : BitVec 32 :=
  match ts with
  | [] => v.identity
  | t :: rest => round32 (rest.foldl (fun a b => if v = .minplus then vmin a b else vmax a b) t)

/-- A pair accumulator (R106). -/
structure Pair where
  hi : BitVec 32
  err : BitVec 32
deriving DecidableEq, Repr

/-- The pair (+0, +0). -/
def Pair.zero : Pair := { hi := 0, err := 0 }

/-- R106, R107: the compensated addition of a group result. -/
def Pair.add (p : Pair) (s : BitVec 32) : Pair :=
  let t := fadd p.hi s
  if !isFinite p.hi || !isFinite s || !isFinite t then { hi := t, err := 0 }
  else
    let z := fsub t p.hi
    let w := fsub t z
    let e := fadd (fsub p.hi w) (fsub s z)
    { hi := t, err := fadd p.err e }

/-- R65: the chain reduction of one group. On the NaN pair of an uncorrectable accumulator an additive verb gives (NaN, +0) by R107, and an
order verb, which leaves err alone, keeps NaN there (DESIGN CHOICE, log entry 88). -/
def Pair.chain (v : Verb) (p : Pair) (g : BitVec 32) : Pair :=
  if v.order then { p with hi := round32 (if v = .minplus then vmin (of32 p.hi) (of32 g) else vmax (of32 p.hi) (of32 g)) }
  else p.add g

/-! ### The exponential (R120) -/

/-- Search of the integer square root: the largest r below 2^n with r * r ≤ x. -/
def isqrt (x : Nat) : Nat → Nat → Nat
  | 0, r => r
  | n + 1, r => let c := r + 2 ^ n; if c * c ≤ x then isqrt x n c else isqrt x n r

/-- 2^(1/2^(k)) scaled by 2^120, by k square roots, from 2. -/
def rootTwo : Nat → Nat
  | 0 => 2 * 2 ^ 120
  | k + 1 => isqrt (rootTwo k * 2 ^ 120) 122 0

/-- 2^(j / 256) scaled by 2^120, below the exact value by less than 2^-100 of it: the product of the roots at the set bits
of j. -/
def expScaled (j : Nat) : Nat :=
  (List.range 8).foldl (fun acc b => if j.testBit b then acc * rootTwo (8 - b) / 2 ^ 120 else acc) (2 ^ 120)

/-- R120: tab[j] = round_fp32(2^(j / 256)). No 2^(j / 256) but j = 0 is near a rounding boundary at 24 bits, so the scaled
value rounds as the exact one does (log entry 7). -/
def expTab (j : Nat) : BitVec 32 := round32Mag false (mkRat (expScaled j) (2 ^ 120))

/-- R120: the drain's exponential. -/
def exp2t (y : BitVec 32) : BitVec 32 :=
  match of32 y with
  | .nan => nan32
  | .inf true => 0
  | .inf false => 0x7F800000
  | .fin n x =>
    let v := (Val.fin n x).toRat
    if v ≥ 128 then 0x7F800000 else
    -- every result below 2^-151 is flushed, so the scale by 2^i need not be formed
    if v < -1000 then 0 else
    let i := v.floor
    let f := v - i
    let j := (f * 256).floor
    let r := f - (j : Rat) / 256
    let q := round32Mag false (r * (of32 0x3F317218).toRat)
    let p := fmul (expTab j.toNat) (fadd 0x3F800000 q)
    round32 (vmul (of32 p) (.fin false (pow2 i)))

/-! ### Output conversion (R93, R94) -/

/-- R97, R94: the largest finite value of an output format. -/
def fmax? (fmt : Nat) : Rat :=
  match fmt with
  | 0x01 => (2 - pow2 (-7)) * pow2 127
  | 0x02 => 65504
  | 0x03 => (2 - pow2 (-23)) * pow2 127
  | 0x04 => 127 | 0x05 => 255 | 0x08 => 448 | 0x09 => 57344 | 0x0A => 28 | 0x0B => mkRat 15 2 | 0x0C => 6
  | 0x0D => 7 | 0x0E => 15
  | _ => 0

/-- Exponent bits, fraction bits and bias of a floating-point format; none for an integer format. -/
def floatShape (fmt : Nat) : Option (Nat × Nat × Nat) :=
  match fmt with
  | 0x01 => some (8, 7, 127) | 0x02 => some (5, 10, 15) | 0x03 => some (8, 23, 127)
  | 0x08 => some (4, 3, 7) | 0x09 => some (5, 2, 15) | 0x0A => some (3, 2, 3) | 0x0B => some (2, 3, 1)
  | 0x0C => some (2, 1, 1)
  | _ => none

/-- What R93 counts a value as, beside an element. -/
inductive QClass where
  | plain | clipped | uflow | nonfin
deriving DecidableEq, Repr

/-- The code of a magnitude, exactly representable in the format, with a sign. -/
def encodeFloat (e f bias : Nat) (neg : Bool) (x : Rat) : Nat :=
  if x = 0 then pack neg e f 0 0
  else if x < pow2 (1 - (bias : Int)) then pack neg e f 0 (x / pow2 (1 - (bias : Int) - f)).num.toNat
  else encodeNormal neg e f bias x

/-- A magnitude rounded to a format's precision, the exponent unbounded above; below the smallest normal the spacing of
the subnormals holds, except in BF16 and FP32. -/
def roundFmt (fmt f bias : Nat) (x : Rat) : Rat :=
  if x = 0 then 0 else
  let l := log2 x
  let l := if fmt = 0x01 ∨ fmt = 0x03 then l else max l (1 - (bias : Int))
  let u := pow2 (l - f)
  (rne (x / u) : Rat) * u

/-- The code of the largest finite value of a sign; a negative one is 0 in an unsigned format. INT8 and INT4 take the
most negative value that R94's fmax reaches only as a rounded result, so saturation is to the format's range. -/
def satCode (fmt : Nat) (neg : Bool) : Nat :=
  match floatShape fmt with
  | some (e, f, b) => encodeFloat e f b neg (fmax? fmt)
  | none =>
    match fmt, neg with
    | 0x04, false => 127 | 0x04, true => 0x80
    | 0x05, false => 255
    | 0x0D, false => 7 | 0x0D, true => 0x8
    | 0x0E, false => 15
    | _, _ => 0

/-- The code of a zero with a sign: the sign is kept in floating-point formats. -/
def zeroCode (fmt : Nat) (neg : Bool) : Nat :=
  match floatShape fmt with
  | some (e, f, _) => pack neg e f 0 0
  | none => 0

/-- R93: convert an FP32 value with a divisor. -/
def quantise (fmt : Nat) (v d : BitVec 32) : Nat × QClass :=
  match of32 v with
  | .nan =>
    (match fmt with | 0x08 => 0x7F | 0x09 => 0x7E | 0x02 => 0x7E00 | 0x01 => 0x7FC0 | 0x03 => 0x7FC00000 | _ => 0, .nonfin)
  | .inf n =>
    (match fmt with
      | 0x09 => pack n 5 2 31 0 | 0x02 => pack n 5 10 31 0 | 0x01 => pack n 8 7 255 0 | 0x03 => pack n 8 23 255 0
      | _ => satCode fmt n, .nonfin)
  | .fin n x =>
    if x = 0 then (zeroCode fmt n, .plain) else
    match of32 d with
    | .fin dn y =>
      if y = 0 then (satCode fmt n, .clipped) else
      let neg := n ^^ dn
      let q := x / y
      match floatShape fmt with
      | some (e, f, b) =>
        let r := roundFmt fmt f b q
        if r > fmax? fmt then (satCode fmt neg, .clipped)
        else if r = 0 ∨ ((fmt = 0x01 ∨ fmt = 0x03) ∧ r < pow2 (-126)) then (zeroCode fmt n, .uflow)
        else (encodeFloat e f b neg r, .plain)
      | none =>
        let r := rne q
        let lim : Nat := if neg then (match fmt with | 0x04 => 128 | 0x0D => 8 | _ => 0) else (fmax? fmt).num.toNat
        if r = 0 then (0, .uflow)
        else if r > lim then (satCode fmt neg, .clipped)
        else (if neg then 2 ^ width fmt - r else r, .plain)
    | _ => (zeroCode fmt n, .uflow)

/-- The 256 codes of E4M3 that are positive and finite, in ascending order of value. -/
def e4m3Codes : List Nat := (List.range 0x7E).map (· + 1)

/-- A block scale with whether it saturated (R94): the code and the FP32 value. -/
structure BlockScale where
  code : Nat
  value : Rat
  sat : Bool
deriving DecidableEq, Repr

/-- R94 steps 1 and 2: the block scale for the largest finite magnitude bm, tensor scale t and format. -/
def blockScale (sfmt fmt : Nat) (bm t : Rat) : BlockScale :=
  if bm = 0 then { code := if sfmt = 1 then 0x7F else 0x38, value := 1, sat := false }
  else
    let need := bm / (t * fmax? fmt)
    if sfmt = 1 then
      let l := log2 need
      let e := if pow2 l = need then l else l + 1
      if e > 127 then { code := 254, value := pow2 127, sat := true }
      else if e < -127 then { code := 0, value := pow2 (-127), sat := false }
      else { code := (e + 127).toNat, value := pow2 e, sat := false }
    else
      match e4m3Codes.find? fun c => decide (need ≤ (decodeFloat 4 3 7 c).2) with
      | some c => { code := c, value := (decodeFloat 4 3 7 c).2, sat := false }
      | none => { code := 0x7E, value := 448, sat := true }

/-! ### Vector lanes (R208-R210, R225) -/

/-- R208: round a value to BF16 with the range rules of R102. -/
def roundBf16 : Val → BitVec 16
  | .nan => 0x7FC0
  | .inf n => BitVec.ofNat 16 (pack n 8 7 255 0)
  | .fin n x =>
    let r := roundBits 8 x
    if r ≥ pow2 128 then BitVec.ofNat 16 (pack n 8 7 255 0)
    else if r < pow2 (-126) then BitVec.ofNat 16 (pack n 8 7 0 0)
    else BitVec.ofNat 16 (encodeNormal n 8 7 127 r)

/-- R210: FP32 to a signed integer, nearest even; out of range saturates; NaN gives 0. -/
def toI32 (w : BitVec 32) : BitVec 32 :=
  match of32 w with
  | .nan => 0
  | .inf n => if n then 0x80000000 else 0x7FFFFFFF
  | .fin n x =>
    let r := rne x
    if n then (if r > 2 ^ 31 then 0x80000000 else BitVec.ofInt 32 (-(r : Int)))
    else if r ≥ 2 ^ 31 then 0x7FFFFFFF else BitVec.ofNat 32 r

/-- R210: a signed integer to FP32. -/
def ofI32 (w : BitVec 32) : BitVec 32 := round32 (ofRat false (w.toInt : Rat))

end Sys2Proof.Machine.Num
end

