-- ==== Sys2Proof/Machine/State.lean ====
section
/-! DEFINITION. The state of the module: every register, table, buffer, queue, counter, mode and pin that the spec
names, as plain data. Registers are held in sparse lists keyed by the addresses of Machine/Regs.lean; a key that is
not listed holds its reset value. Operations over this data are in Machine/Ops.lean and the family files. -/

namespace Sys2Proof.Machine

/-- The reasons for which the model stops. No meaning of this model stops (see NOTES.md, Stops): the type has one
constructor so that a later sitting can name one. -/
inductive Fault where
  /-- Raised by no meaning; safe, since a stop forbids nothing that the spec allows. -/
  | unused
deriving DecidableEq, Repr

/-- The reasons for which the model refuses a command. -/
inductive Refusal where
  /-- The row has no meaning yet; raised by the dispatch alone; safe. -/
  | notModelled (mnemonic : String)
deriving DecidableEq, Repr

/-- One in-field record of the catalogue (R40). -/
structure CatRecord where
  time : Nat
  code : Nat
  target : Nat
  origin : Nat
  old : Nat
  new : Nat
  detail : Nat
deriving DecidableEq, Repr

/-- The tables of a catalogue (R34-R40), sparse over a module in which everything is good: `sites` maps a TileID
to its 16-bit entry, `ports` a port to its 32-bit entry, `trims`, `wings` likewise; `usable` and `dieFailed` map a
stack to its usable MiB and its failed dies; `seams` lists the failed seam-link bits, `retired` the retired rows. -/
structure CatTables where
  sites : List (Nat × Nat)
  ports : List (Nat × Nat)
  usable : List (Nat × Nat)
  dieFailed : List (Nat × Nat)
  trims : List (Nat × Nat)
  wings : List (Nat × Nat)
  seams : List Nat
  retired : List Nat
  records : List CatRecord
deriving DecidableEq, Repr

/-- A published catalogue: the tables with the header values of R35 that publication fixed. -/
structure CatPub where
  tables : CatTables
  gen : Nat
  flags : Nat
deriving DecidableEq, Repr

/-- Curator's catalogue keeping (R30-R43): the current tables, the underlying status of held sites, the two buffers,
the changes waiting for publication, the TIME of the last publication and the values that the last BELOW_GUARANTEE
record carried. -/
structure Cat where
  tables : CatTables
  underlying : List (Nat × Nat)
  bufA : Option CatPub
  bufB : Option CatPub
  dirty : Bool
  dirtyDead : Bool
  lastPub : Option Nat
  lastBelow : Option (List Nat)
deriving DecidableEq, Repr

/-- One firmware slot of the SPI NOR (R372). -/
structure FwSlot where
  version : Nat
  secVersion : Nat
  signed : Bool
  digest : Nat
deriving DecidableEq, Repr

/-- The fuses (R31, R372, R406, R426): the manufacturing test's site entries that differ from good, its retired rows, its failed
seam links and dead wings, the minimum firmware security version, and whether the fleet link key is present. -/
structure Fuses where
  sites : List (Nat × Nat)
  retired : List Nat
  seams : List Nat
  deadWings : List Nat
  minSec : Nat
  linkKey : Bool
deriving DecidableEq, Repr

/-- What the SPI NOR flash holds (R31, R372, R375, R376, R381): two firmware slots, the staging area of the slot that is
not running, two copies of the stored catalogue each with the underlying status of held sites, the hours since
the last completed cold start, the rows, as retired-row entries, for which the next cold start is to borrow (R257), and the soft repairs
that each site's SRAM got at the last cold start. -/
structure Flash where
  slotA : FwSlot
  slotB : FwSlot
  staged : List (Nat × BitVec 8)
  storedA : Option (CatTables × List (Nat × Nat))
  storedB : Option (CatTables × List (Nat × Nat))
  hours : Nat
  pendingRows : List Nat
  softRepairs : List (Nat × Nat)
deriving DecidableEq, Repr

/-- Pins of the module and its inputs (R345, R452, R455, R462): the levels the board drives and the latches behind the
levels the module drives. `faultLatched` holds FAULT_N low and `tripLatched` THERMTRIP_N; `tsyncOutUntil` is the
count up to which TSYNC_OUT is high. -/
structure Pins where
  vaux5 : Bool
  vin48 : Bool
  perstN : Bool
  bringEn : Bool
  faultLatched : Bool
  tripLatched : Bool
  stageTripped : Bool
  tsyncOutUntil : Nat
deriving DecidableEq, Repr

/-- Curator and the course of a start (R371-R384). -/
structure Cur where
  running : Bool
  slotsRefused : List Nat
  afterVaux : Bool
  reachedS5 : Bool
  tripSince : Bool
  infieldLostSinceCold : Bool
  starts : Nat
  restarting : Bool
  resetAtP : Option (Nat × Nat)
  resetSites : List Nat
  resetOutside : Bool
  windows : List (Nat × Nat)
  tests : List (Nat × Nat)
  testRetry : List Nat
deriving DecidableEq, Repr

/-- Operating point switching (R326-R330): the count, target and kind of the pending switch, when the rails will have
settled, and the end of the switch window. -/
structure Clk where
  switchAt : Nat
  target : Nat
  raise : Bool
  lower : Bool
  checked : Bool
  settledAt : Nat
  settleStart : Option Nat
  window : Option Nat
  capDoneAt : Option Nat
  byCap : Bool
  oscillator : Bool
deriving DecidableEq, Repr

/-- Time alignment (R334-R339): the CLKT cycles since CLKT started, by which slews and sync periods are spaced, the cycle of the last slew,
the counts left to slew, the measurements in a row within 20 ns, and the cycle of the last one. -/
structure Tim where
  cycles : Nat
  lastSlew : Nat
  slewLeft : Int
  lockCount : Nat
  lastSync : Nat
  pulseAt : Option Nat
deriving DecidableEq, Repr

/-- A wing's power state beyond its registers (R344-R352): the pulse position counter, its fraction of a cycle in
twentieths, the clock pulses since the clock started, the droop level in force, the cycle after which droop skipping may end, emergency, the waiting
power-up request, the count at which its ramp began, its clock start and the tokens to return. -/
structure WingPower where
  cycle : Nat
  phase : Nat
  pulses : Nat
  droop : Nat
  recovered : Option Nat
  emergency : Bool
  requestAt : Option Nat
  rampAt : Option Nat
  clockAt : Option Nat
  tokensUntil : Option Nat
  inService : Bool
  clamped : Bool
  ageingAt : Option Nat
  monitorsAt : Option Nat
deriving DecidableEq, Repr

/-- One pair of a group's calibration: mean raw estimate and measured power (R355). -/
structure CalPair where
  x : Rat
  y : Rat
deriving DecidableEq, Repr

/-- A group of the power estimate (R354, R355): gain, offset, the last 32 pairs and the raw estimates of the running
millisecond. -/
structure PwrGroup where
  gain : Rat
  offset : Rat
  pairs : List CalPair
  raws : List Rat
deriving DecidableEq, Repr

/-- The cap and the throttle episode (R354-R366). -/
structure Pwr where
  groups : List (Nat × PwrGroup)
  estimates : List Rat
  raiseOk : Nat
  skipSteps : Nat
  tcap : Rat
  warnArmed : Bool
  unheld : Bool
  begin : Option Nat
  lastRecord : Nat
  clearSteps : Nat
  estSum : Rat
  estCount : Nat
  skipMax : Nat
  lostSum : Rat
  lastStep : Nat
  modeSkip : Bool
  toTarget : Bool
  calAt : Nat
  tcapAt : Nat
  tempSeen : List Nat
deriving DecidableEq, Repr

/-- The bytes of one fabric image (R305); a byte that is not listed is 0. -/
structure Image where
  length : Nat
  bytes : List (Nat × BitVec 8)
deriving DecidableEq, Repr

/-- The image slots, the armed count and the run-time claims (R303, R317, R322): `claims` maps kind * 256 + index to
claimant + 1, `claimResults` an agent's number to its last result; `carried` holds the
partitions that the last swap carried. -/
structure Fab where
  active : Option Image
  shadow : Option Image
  loading : Option (Image × Bool)
  swapAt : Nat
  sampled : Bool
  carried : List Nat
  claims : List (Nat × Nat)
  claimResults : List (Nat × Nat)
deriving DecidableEq, Repr

/-- The CTRL and TIME frames that the module sends on a port (R408), with their arguments. -/
inductive CtrlFrame where
  | timeReq (t1 : Nat)
  | timeResp (t1 t2 t3 : Nat)
  | barArrive (context round : Nat)
  | barRelease (context round : Nat)
  | peerId (deviceId : Nat) (valid : Bool) (serial : Nat)
  | peerIdReq
deriving DecidableEq, Repr

/-- One fault record of the ring (R445). -/
structure FaultRec where
  time : Nat
  source : Nat
  code : Nat
  event : Bool
  partition : Option Nat
  seq : Nat
  start : Nat
  detail : List Nat
deriving DecidableEq, Repr
/-- A packet header (R269). -/
structure Hdr where
  dev : Nat
  tile : Nat
  queue : Nat
  acc : Nat
  win : Nat
  kind : Nat
  version : Nat
  len : Nat
  status : Nat
  xlated : Bool
  tag : Nat
  src : Nat
  mask : Nat
  addr : Nat
  arg : Nat
deriving DecidableEq, Repr

/-- Who waits for the answer to an access: a core, a piece of a Fetch transfer, an engine message, a concord slot's delivery or
notification, the ingress of a port for a remote sender, a function's message port, a host request, a part of a copy channel's transfer, or
a debug access. -/
inductive NetUser where
  | core (tile core id : Nat)
  | xfer (tile id piece : Nat)
  | msg (tile id : Nat)
  | concWrite (tile slot : Nat)
  | concNote (tile slot : Nat)
  | ingress (port : Nat) (hdr : Hdr)
  | fn (fn : Nat)
  | host (id : Nat)
  | copy (fn ch id part : Nat)
  | debug
  | fill (tile addr : Nat)
  | spill (tile addr : Nat)
  | fetch (tile core addr : Nat)
deriving DecidableEq, Repr

/-- An access that waits at an interface for injection (R271): the interface (a TileID, 4096 + p for the ingress of port p, 5000
for the host attachment, 5001 for Curator), the agent whose rights it has, its header before division, its payload and its user. In a paired
partition an access is ready once it was compared with its twin's, whose user then waits for the same answer (R440). -/
structure NetReq where
  origin : Nat
  agent : Agent
  hdr : Hdr
  data : List (BitVec 8)
  user : NetUser
  ready : Bool
  twin : Option NetUser
deriving DecidableEq, Repr

/-- An access whose pieces are in the network (R273): the pieces not yet answered, the worst status so far, and for a read the
bytes that came back, by offset. -/
structure Join where
  id : Nat
  user : NetUser
  twin : Option NetUser
  read : Bool
  len : Nat
  left : Nat
  status : Nat
  data : List (Nat × BitVec 8)
deriving DecidableEq, Repr

/-- A request that is not yet answered: source number and tag, the join, and the offsets of its bytes in the access. -/
structure Wait where
  src : Nat
  tag : Nat
  join : Nat
  offs : List (Nat × Nat)
deriving DecidableEq, Repr

/-- A packet in the BN: its target; the router that its header has reached, or is to enter at; its stage (0 in the routers, 1 at the
interface or edge of its destination, 2 waiting there for a free queue entry); the count since which it waits there, and whether that was
reported; whether its payload carries an uncorrectable flit error; the port whose ingress split the window access that it is a piece of, or an
answer to a piece of (R273); the router input at which it enters (router * 8 + input); the route entry in force when its header reached its
router (R263); and how many of its flits have entered the network and have reached the destination. -/
structure Packet where
  id : Nat
  hdr : Hdr
  data : List (BitVec 8)
  agent : Agent
  target : Nat
  router : Nat
  stage : Nat
  since : Nat
  bad : Bool
  reported : Bool
  back : Option Nat
  source : Nat
  entry : Nat
  sent : Nat
  got : Nat
deriving DecidableEq, Repr

/-- R260: the buffer of one VC at a router input: its flits in order (packet and flit number), the count since which the first of them has
not advanced, and whether that wait was reported (R294). -/
structure InBuf where
  flits : List (Nat × Nat)
  since : Nat
  reported : Bool
deriving DecidableEq, Repr

/-- An empty buffer. -/
def InBuf.empty : InBuf := { flits := [], since := 0, reported := false }

/-- R331, R332: one direction of a seam crossing. Its write pointer is the sending wing's count of clock pulses and its read pointer the
receiving wing's count less `off`. `entries` are the FIFO's entries that hold a flit, under the pulse that wrote each - every other entry is
empty - and `held` the flits that skipped pulses left to the router. -/
structure Seam where
  off : Int
  entries : List (Nat × Nat × Nat)
  held : List (Nat × Nat)
deriving DecidableEq, Repr

/-- A crossing between wings whose clocks have made the same number of pulses, aligned at a separation of 4. -/
def Seam.start : Seam := { off := 4, entries := [], held := [] }

/-- R260: what an output of a router sent last: its VC, the pulse of the clock in which, and how many flits it has sent in that pulse. -/
structure OutTurn where
  vc : Nat
  pulse : Nat
  sent : Nat
deriving DecidableEq, Repr

/-- An output that has sent nothing: VC 0 is first. -/
def OutTurn.start : OutTurn := { vc := 3, pulse := 0, sent := 0 }

/-- R262: what the default route table was built from: how often one was built, the dead sites and the failed seam links. -/
structure RouteBase where
  builds : Nat
  dead : List Nat
  failed : List Nat
deriving DecidableEq, Repr

/-- An access that a destination performs in parts: its packet, the parts outstanding, the worst status, the bytes read, and for a
message the queue and ring slot of its entry and whether the ring was emptied meanwhile. -/
structure Serve where
  id : Nat
  pkt : Packet
  tile : Nat
  left : Nat
  status : Nat
  data : List (Nat × BitVec 8)
  entry : Option (Nat × Nat)
  lost : Bool
deriving DecidableEq, Repr

/-- An entry of a receive queue: its ring slot, the access that writes it, and its state (0 being written, 1 written, 2
published). -/
structure QEnt where
  slot : Nat
  serve : Nat
  state : Nat
deriving DecidableEq, Repr

/-- A contributor's buffer of a deterministic concord round (R290). -/
structure ConcBuf where
  src : Nat
  taken : Nat
  vals : List (Nat × BitVec 64)
deriving DecidableEq, Repr

/-- A half of a concord slot: the element-contributions taken, the sums (arrival mode) and the buffers (deterministic mode). -/
structure ConcHalf where
  taken : Nat
  vals : List (Nat × BitVec 64)
  bufs : List ConcBuf
deriving DecidableEq, Repr

/-- An empty half. -/
def ConcHalf.empty : ConcHalf := { taken := 0, vals := [], bufs := [] }

/-- A stored DRAM block (R241, R248-R250): its 64 bytes of ciphertext, its 16 sidecar bytes, and what it was written under: the
security domain and the epoch of its key set, and its address divided by 64. -/
structure DBlock where
  data : BitVec 512
  side : List (BitVec 8)
  key : Nat × Nat × Nat
deriving DecidableEq, Repr

/-- A block access at an MI tile (R246): its stack and offset, its kind (0 read, 1 whole write, 2 partial write, 3 AMO), the access it
is part of, the byte offset of its data in that access, its bytes by offset in the block, the AMO's operation, width,
operand and compare value, the partition that makes it, the window that a write through one names, and the accesses of its channel accepted later that were served before it. -/
structure MiReq where
  id : Nat
  tile : Nat
  serve : Nat
  stack : Nat
  off : Nat
  addr : Nat
  kind : Nat
  pos : Nat
  from_ : Nat
  count : Nat
  bytes : List (Nat × BitVec 8)
  amo : Option (Nat × Bool × BitVec 64 × BitVec 64)
  part : Option Nat
  win : Option Nat
  passed : Nat
deriving DecidableEq, Repr

/-- A broadcast window command (R283): from which tile, the window, its new state and accession, and the copies that have not
applied it (a TileID, or 3072 + p for the ingress of port p). -/
structure WinCmd where
  id : Nat
  tile : Nat
  win : Nat
  state : Nat
  acc : Nat
  left : List Nat
deriving DecidableEq, Repr

/-- A sync context (R298, R299): the members whose arrival is pending, each with the count of its arrival, the inputs that are set, the value, the round, the down
ports whose arrival has come, and whether an arrival was sent up. -/
structure SnCtx where
  arrived : List (Nat × Nat)
  inputs : List Nat
  value : Bool
  round : Nat
  downs : List Nat
  sentUp : Bool
deriving DecidableEq, Repr

/-- A context in round 0 with nothing pending. -/
def SnCtx.start : SnCtx :=
  { arrived := [], inputs := [], value := false, round := 0, downs := [], sentUp := false }

/-- A change on its way to a member: the release of a round, or a value. -/
structure SnWave where
  ctx : Nat
  tile : Nat
  release : Bool
  value : Bool
  since : Nat
deriving DecidableEq, Repr

/-- A row under copy into a spare row (R257): stack, channel, bank, row, the spare 0-15, the die whose cells failed, and its start. -/
structure RowCopy where
  stack : Nat
  channel : Nat
  bank : Nat
  row : Nat
  spare : Nat
  die : Nat
  since : Nat
deriving DecidableEq, Repr

/-- The bulk network: accesses that wait for injection, accesses in progress, packets in flight in the order of their injection; the
routers' input buffers by (router * 8 + input) * 4 + VC, where inputs 0 to 3 are N, E, S and W, 4 the interface and 5 the edge; the packet
that holds an output's VC and the input that it comes from, by (router * 8 + output) * 4 + VC, and the input that this VC served last; what an
output sent last, by router * 8 + output; the seam crossings, by 2 * (336 * CN + link) + (1 for W and N); what the default route
table was built from; the accesses at destinations, packets handed to link ports, and the next number of each kind; `snHeld` the sync
operations that one twin of a pair has made (tile, context, operation); `broken` the leads of pairs that a mismatch broke (R441). -/
structure Net where
  outbox : List NetReq
  joins : List Join
  waits : List Wait
  packets : List Packet
  bufs : List (Nat × InBuf)
  holds : List (Nat × Option (Nat × Nat))
  lastIn : List (Nat × Nat)
  turns : List (Nat × OutTurn)
  seams : List (Nat × Seam)
  routes : RouteBase
  serves : List Serve
  mi : List MiReq
  portOut : List (Nat × Packet)
  nextId : Nat
  tag : Nat
  windows : List (Nat × (Nat × Nat))
  winCmds : List WinCmd
  sn : List (Nat × SnCtx)
  waves : List SnWave
  snHeld : List (Nat × Nat × Nat)
  broken : List Nat
deriving DecidableEq, Repr

/-- No packet in flight. -/
def Net.start : Net :=
  { outbox := [], joins := [], waits := [], packets := [], bufs := [], holds := [], lastIn := [], turns := [], seams := [],
    routes := { builds := 0, dead := [], failed := [] }, serves := [], mi := [], portOut := [], nextId := 0, tag := 0,
    windows := [], winCmds := [], sn := [], waves := [],
    snHeld := [], broken := [] }

/-- The stacks: stored blocks by stack * 2^29 + block of the stack offset; the start whose S2 zeroed every band last (0: none) and the
epochs of the units then; the key under which a band was zeroed since (placement unit, domain, epoch), or none where its stack was lost, by stack
* 32 + band; by placement unit, how often a zeroing scrub has raised its epoch; corrected blocks that wait to be rewritten; the rows in
which a read needed two or more bytes corrected; the rows in which patrol found corrected blocks, with its pass; the rows under copy; the
rows that a spare or a borrowed row replaces (R256); how far the rebuild of a stack has come (R251); the uncorrectable reads of the last
millisecond (stack, offset, address, count of TIME); the position, the pass and the start of the pass of patrol by channel (stack * 32 +
channel); the units under a zeroing scrub; and the count of the last refresh by stack. -/
structure Dram where
  blocks : List (Nat × DBlock)
  zeroedAt : Nat
  zeroedEpochs : List (Nat × Nat)
  bandKeys : List (Nat × (Nat × Nat × Nat))
  epochs : List (Nat × Nat)
  rewrites : List (Nat × Nat)
  wide : List Nat
  suspects : List (Nat × Nat)
  copies : List RowCopy
  remaps : List (Nat × Nat)
  rebuilt : List (Nat × Nat)
  recent : List (Nat × Nat × Nat × Nat)
  patrol : List (Nat × Nat)
  passes : List (Nat × Nat)
  patrolAt : List (Nat × Nat)
  zeroing : List Nat
  refreshed : List (Nat × Nat)
deriving DecidableEq, Repr

/-- Empty stacks. -/
def Dram.start : Dram :=
  { blocks := [], zeroedAt := 0, zeroedEpochs := [], bandKeys := [], epochs := [], rewrites := [], wide := [], suspects := [], copies := [],
    remaps := [], rebuilt := [], recent := [], patrol := [], passes := [], patrolAt := [], zeroing := [], refreshed := [] }

/-- A cache line of 64 B (R227): its physical address, its bytes and whether it is dirty. -/
structure CLine where
  addr : Nat
  data : BitVec 512
  dirty : Bool
deriving DecidableEq, Repr

/-- A cached translation (R237): virtual page at the level of its leaf, space tag, and the leaf entry. -/
structure Tlb where
  vpn : Nat
  level : Nat
  space : Nat
  leaf : BitVec 64
deriving DecidableEq, Repr

/-- The caches and TLBs of a scalar core, most recent first. -/
structure SCache where
  l1d : List CLine
  l1i : List CLine
  itlb : List Tlb
  dtlb : List Tlb
  tlb2 : List Tlb
deriving DecidableEq, Repr

/-- Empty caches. -/
def SCache.empty : SCache := { l1d := [], l1i := [], itlb := [], dtlb := [], tlb2 := [] }


/-- A record of a trace buffer (R433). -/
structure TraceRec where
  time : Nat
  source : Nat
  event : Nat
  data : Nat
deriving DecidableEq, Repr

/-- Debug control (R431, R433): the cores under it (tile * 4 + core), the core last named in DBG_CORE_CMD, the cores that a halt or a step
command has yet to bring to HALTED, the steps that await their instruction, those whose instruction has issued, the records of the trace buffers, and the counts
at which the counter banks sample next. -/
structure Dbg where
  attached : List Nat
  named : Option Nat
  halting : List Nat
  awaiting : List Nat
  steps : List Nat
  trace : List (Nat × List TraceRec)
  nextSample : List (Nat × Nat)
deriving DecidableEq, Repr

/-- No core under debug control. -/
def Dbg.start : Dbg := { attached := [], named := none, halting := [], awaiting := [], steps := [], trace := [], nextSample := [] }
/-- An engine instruction in a queue, with what dispatch captured (R186): the word, its pc, the values of the s
registers it names in the order of its fields, its descriptors and its handle. `core` is the dispatching core and `seq` its place in
program order. -/
structure EngInstr where
  seq : Nat
  word : BitVec 64
  pc : Nat
  core : Nat
  sv : List (BitVec 64)
  tv : List (BitVec 128)
  av : BitVec 32
deriving DecidableEq, Repr

/-- An instruction that an engine has issued and that has not signalled its completion (R187), with the CRC-64 over the bytes that a
drain of a pair has written (R440). -/
structure EngIssued where
  id : Nat
  instr : EngInstr
  done : Bool
  crc : BitVec 64
deriving DecidableEq, Repr

/-- A scale record (R85). -/
structure ScaleRec where
  tensor : BitVec 32
  fmt : Nat
  block : Nat
  codebook : Nat
  stride : Nat
  base : Nat
deriving DecidableEq, Repr

/-- A matrix instruction that the Compute engine issued: its fields, logical sizes, descriptors and scale records by
sub-problem, the common factor of R91, the array cycle of its issue and the number of the next pass to schedule. -/
structure MmRec where
  id : Nat
  handle : Nat
  verb : Num.Verb
  fold : Nat
  g : Nat
  add : Bool
  hold : Bool
  paired : Bool
  m : Nat
  k : Nat
  n : Nat
  base : Nat
  r : Nat
  ts : BitVec 32
  streams : List (BitVec 128)
  stats : List (BitVec 128)
  sRecs : List ScaleRec
  bRecs : List ScaleRec
  issuedAt : Nat
  next : Nat
deriving DecidableEq, Repr

/-- A slot in the array: for each line of the slot, for each sub-problem, the expanded elements along K as they entered (`none` is a padding
or null element), and the stationary elements that it met in the cells it has reached, by cell (32 * row + column). -/
structure SlotData where
  slot : Nat
  lines : List (List (List (Option (BitVec 16))))
  met : List (Nat × Option (BitVec 16))
deriving DecidableEq, Repr

/-- A pass in the array (R47-R52): its place in the fold, its anchor and start, the slots that entered, the rows of its
block that the loader has written, and the slots in the array. `held` says that the pending limit holds it back. -/
structure Pass where
  id : Nat
  mm : MmRec
  nb : Nat
  ch : Nat
  kp : Nat
  sp : Nat
  reload : Bool
  lines : Nat
  slots : Nat
  anchor : Nat
  start : Nat
  entered : Nat
  wrote : Nat
  units : List SlotData
  held : Bool
deriving DecidableEq, Repr

/-- A stream unit, or the block rows of one loader access, on its way: its pass, the slot or first row, the rows it brings,
the accesses outstanding, the bytes that arrived, and whether the unit crosses a line and has paid the freeze cycle of
R54. -/
structure Arriving where
  pass : Nat
  index : Nat
  span : Nat
  pieces : Nat
  got : List (Nat × BitVec 8)
  crossing : Bool
  paid : Bool
deriving DecidableEq, Repr

/-- The array of an M-tile: its cycle count, whether it is busy in this tile cycle, the passes scheduled or in flight and
the instruction being cut into passes, the columns committed in this array cycle (pass and column), the units at or on
the way to the feeder, the block-scale bytes at the feeder (pass and byte), the staged rows, the plinth registers of the cells (1024 * register + 32 * row + column; `none` is a padding or null
element), the select bits (32 * row + column), whether the tags have moved in this array cycle, the first cycles at which a further pass may
start with and without a reload, and the first anchor that the last tag allows (R51, R52). -/
structure Arr where
  cycle : Nat
  busy : Bool
  passes : List Pass
  mm : Option MmRec
  nextId : Nat
  committed : List (Nat × Nat)
  feeder : List Arriving
  scaleBytes : List (Nat × Nat × BitVec 8)
  staging : List Arriving
  plinths : List (Nat × Option (BitVec 16))
  select : BitVec 1024
  moved : Bool
  rows : List Nat
  freeReload : Nat
  freePlain : Nat
  freeAnchor : Nat
deriving DecidableEq, Repr

/-- A completion that a chunk posted to its handle (R198). -/
structure Completion where
  base : Nat
  r : Nat
  ch : Nat
  nb : Nat
  lines : Nat
  fold : Nat
  verb : Num.Verb
  m : Nat
  n : Nat
  ts : BitVec 32
deriving DecidableEq, Repr

/-- A row of the softmax row table (R119). -/
structure RowEntry where
  m : BitVec 32
  l : BitVec 32
  c : BitVec 32
deriving DecidableEq, Repr

/-- An entry after SM.INIT or a reset: (-infinity, +0, 1.0). -/
def RowEntry.init : RowEntry := { m := 0xFF800000, l := 0, c := 0x3F800000 }

/-- A row in the drain pipeline: the region line, its age in drain cycles and the values it carries. -/
structure DRow where
  line : Nat
  row : Nat
  age : Nat
  pairs : List Num.Pair
  vals : List (BitVec 32)
  entry : RowEntry
  factor : BitVec 32
deriving DecidableEq, Repr

/-- The counts of R96 that one instruction gathered. -/
structure QCounts where
  count : Nat
  clip : Nat
  uflow : Nat
  nonfin : Nat
  sat : Nat
  amax : BitVec 32
deriving DecidableEq, Repr

/-- The window of R98 and the raises of the running step. -/
structure QWin where
  count : Nat
  clip : Nat
  amax : BitVec 32
  raises : Nat
deriving DecidableEq, Repr

/-- An operation of the Drain engine in work (R126): the completion it took, the rows it works on and how many it has begun,
the rows in the pipeline, the tensor scale of R95 for each sub-problem, the gathered block-scale bytes, its counts, the reads outstanding and
the bytes they brought, the writes outstanding, and whether the tensor scale has been written. -/
structure DrainOp where
  id : Nat
  instr : EngInstr
  comp : Option Completion
  rows : Nat
  next : Nat
  flight : List DRow
  scales : List (BitVec 32)
  gather : List (Nat × Nat × BitVec 8)
  counts : QCounts
  reads : Nat
  got : List (Nat × BitVec 8)
  writes : Nat
  tailSent : Bool
  closed : Bool
  started : Bool
deriving DecidableEq, Repr

/-- The user of a vitrine access (R136, R220), in the internal order of its port. -/
inductive VitUser where
  | stream (pass slot piece : Nat)
  | scale (pass line : Nat)
  | row (pass j piece : Nat)
  | drainRead (op piece : Nat)
  | codebook (id : Nat)
  | drainWrite (op : Nat)
  | core (id piece : Nat)
  | vector (id piece : Nat)
  | fetch (id piece : Nat)
  | bn (id piece : Nat)
  | gather (id piece : Nat)
  | drainTail (op : Nat)
  | scatter (id piece : Nat)
  | addRead (id piece : Nat)
  | addWrite (id piece : Nat)
deriving DecidableEq, Repr

/-- A vitrine request (R137, R138): its port, the cells it uses in the order in which a read delivers them, the bytes a
write stores (byte offset and value), the bits of a byte that a write covers only in part, the operation of an AMO (code, width, operand and compare value), and its wait
count. -/
structure VitReq where
  port : Nat
  user : VitUser
  write : Bool
  cells : List Nat
  data : List (Nat × BitVec 8)
  masks : List (Nat × BitVec 8)
  amo : Option (Nat × Bool × BitVec 64 × BitVec 64)
  wait : Nat
deriving DecidableEq, Repr

/-- An access that was accepted or answered CLOSED: the cycle in which it completes, its status (0 OK, 2 CLOSED), and what
it delivers, cell after cell, with the old value of an AMO. -/
structure VitFly where
  req : VitReq
  done : Nat
  status : Nat
  data : List (BitVec 32)
deriving DecidableEq, Repr

/-- A row of a Fetch transfer in work: its number, its stage (1 far read, 2 vitrine writes, 3 vitrine reads, 4 far write), the vitrine
accesses outstanding and the bytes gathered, by offset in the row. -/
structure XferRow where
  row : Nat
  stage : Nat
  left : Nat
  got : List (Nat × BitVec 8)
deriving DecidableEq, Repr

/-- A transfer or message that the Fetch engine works on (R187, R203, R204): its instruction, its rows and the bytes of a row, the next row
to present, and the rows in work. A message has one row. -/
structure Xfer where
  id : Nat
  instr : EngInstr
  rows : Nat
  rb : Nat
  next : Nat
  work : List XferRow
deriving DecidableEq, Repr

/-- A memory access of a core that is outstanding (R169, R170): 0 load, 1 store, 2 AMO, 3 message of an S-tile core, 4 vector, 5 a FENCE that
waits for the accesses before it (R172); its destination register, size, address, path (0 own vitrine, 1 BN, 2 CN, 3 none, 4 the caches, 5 own
window beyond the local memory), the pieces it was divided into and what they delivered, a stored value or an AMO's operand, and the response
that arrived, as a status and a value. A message whose payload is being read has 1 piece and its parts yet to be read in `lanes`. -/
structure MemAcc where
  id : Nat
  kind : Nat
  dest : Nat
  size : Nat
  signed : Bool
  addr : Nat
  path : Nat
  pieces : Nat
  got : List (Nat × List (BitVec 32))
  value : BitVec 64
  arrived : Option (Nat × BitVec 64)
  pc : Nat
  op : Nat
  data : List (BitVec 8)
  lanes : List (Nat × Nat)
  buffered : Bool
deriving DecidableEq, Repr

/-- An exception or refusal that waits for outstanding work (R180, R216). -/
structure ExcRec where
  cause : Nat
  pc : Nat
  val : Nat
  core : Nat
  seq : Nat
deriving DecidableEq, Repr

/-- A bank of a segment that is held (R138, R140, R222): through a tile cycle for a merge write, or until a
VSCATTER.ADD's write is accepted. -/
structure Hold where
  bank : Nat
  through : Option Nat
  owner : Nat
deriving DecidableEq, Repr

/-- The state of an executor (R149, R182) and what it has in progress: the exception that waits for outstanding work
(R180), the WFE timeout, the accesses outstanding and whether it stands at a vector entry (R183). `wait` is 1 while the core waits in WFE and
2 in IDLE; `engExc` is the refusal of an engine (R216). -/
structure Core where
  s : List (Nat × BitVec 64)
  pc : Nat
  p : BitVec 8
  v : List (Nat × BitVec 32)
  t : List (Nat × BitVec 128)
  a : List (Nat × BitVec 32)
  sv : List (Nat × BitVec 64)
  exc : Option ExcRec
  wait : Nat
  timeout : Option Nat
  accesses : List MemAcc
  nextAccess : Nat
  atVector : Bool
  issuable : Nat
  engExc : Option ExcRec
  cache : SCache
  fetchBuf : List (Nat × Option (Nat × List (BitVec 8)))
deriving DecidableEq, Repr

/-- A core in its reset state: registers 0 and p0 = 1. -/
def Core.reset : Core :=
  { s := [], pc := 0, p := 1, v := [], t := [], a := [], sv := [], exc := none, wait := 0, timeout := none, accesses := [],
    nextAccess := 0, atVector := false, issuable := 0, engExc := none, cache := .empty, fetchBuf := [] }

/-- One site (R12, R149): its tile registers and state. `waits` lists the waits of R217 that go on, as kind, the TIME they began and
whether they were reported: 0 to 2 the head of the Fetch, Compute and Drain queue, 3 the sequencer, 4 the frozen array, 5 + c core
c ENDING. -/
structure Site where
  regs : List (Nat × BitVec 32)
  hiLatch : List (Nat × BitVec 32)
  loHeld : List (Nat × BitVec 32)
  cycle : Nat
  prog : List (Nat × BitVec 32)
  cores : List (Nat × Core)
  vit : List (Nat × BitVec 8)
  vitBad : List Nat
  segEnd : List (Nat × Nat)
  reqs : List VitReq
  fly : List VitFly
  banks : List Nat
  holds : List Hold
  ports : List Nat
  bnTurn : Bool
  writebacks : List (Nat × BitVec 32)
  fetchQ : List EngInstr
  computeQ : List EngInstr
  drainQ : List EngInstr
  fetchOn : List EngIssued
  computeOn : List EngIssued
  drainOn : List EngIssued
  nextEng : Nat
  arr : Arr
  acc : List (Nat × Num.Pair)
  accBad : List Nat
  taken : List Nat
  posted : List (Nat × Completion)
  rowTab : List (Nat × RowEntry)
  books : List (Nat × BitVec 16)
  acts : List (Nat × BitVec 32)
  drains : List DrainOp
  bookLoads : List (Nat × Nat × Nat × List (BitVec 32))
  qwin : List (Nat × QWin)
  qcsr : List (Nat × BitVec 32)
  qvec : List (Nat × QCounts)
  tokIn : List (Nat × Nat)
  tokOut : List (Nat × Nat)
  notify : Option Nat
  scaling : List (Nat × Nat)
  xfers : List Xfer
  rings : List (Nat × List QEnt)
  ringNext : List (Nat × Nat)
  qnotify : List (Nat × Nat)
  conc : List (Nat × ConcHalf)
  concIn : List Packet
  concLeft : List (Nat × Nat)
  l2 : List CLine
  l2End : Option Nat
  fills : List (Nat × Option (Nat × BitVec 512))
  spills : List Nat
  stalls : List (Nat × Nat)
  waits : List (Nat × Nat × Bool)
deriving DecidableEq, Repr

/-- An idle array. -/
def Arr.idle : Arr :=
  { cycle := 0, busy := false, passes := [], mm := none, nextId := 0, committed := [], feeder := [], scaleBytes := [],
    staging := [], plinths := [], select := 0, moved := false, rows := [], freeReload := 0, freePlain := 0, freeAnchor := 0 }

/-- A site in its reset state. -/
def Site.reset : Site :=
  { regs := [], hiLatch := [], loHeld := [], cycle := 0, prog := [], cores := [], vit := [], vitBad := [], segEnd := [], reqs := [],
    fly := [], banks := [], holds := [], ports := [], bnTurn := false, writebacks := [], fetchQ := [], computeQ := [], drainQ := [],
    fetchOn := [], computeOn := [], drainOn := [], nextEng := 0, arr := .idle, acc := [], accBad := [], taken := [],
    posted := [], rowTab := [], books := [], acts := [], drains := [], bookLoads := [], qwin := [], qcsr := [],
    qvec := [], tokIn := [], tokOut := [], notify := none, scaling := [], xfers := [], rings := [], ringNext := [], qnotify := [], conc := [], concIn := [],
    concLeft := [], l2 := [], l2End := none, fills := [], spills := [], stalls := [], waits := [] }


/-- A scrub in progress (R434): the partition (none for the idle resources), its sites and placement units, how many of each it began
with, and its start. -/
structure ScrubJob where
  part : Option Nat
  sites : List Nat
  units : List Nat
  nSites : Nat
  nUnits : Nat
  since : Nat
deriving DecidableEq, Repr

/-- Curator's keeping for security and faults (R434-R444): the custodian domains of sites and placement units, the scrubs in progress,
the sites whose scrub has begun and those that wait for a test to end, the last fence result of each agent, the corrected
errors of each site minute by minute (newest first) with the sums last read, the count of the last check, and the sites whose polls are unanswered with the count at which. -/
structure Sec where
  siteDomain : List (Nat × Nat)
  unitDomain : List (Nat × Nat)
  jobs : List ScrubJob
  sites : List Nat
  waiting : List Nat
  fences : List (Nat × Nat)
  ecc : List (List (Nat × Nat))
  eccLast : List (Nat × Nat)
  eccAt : Nat
  silent : List (Nat × Nat)
deriving DecidableEq, Repr

/-- Every custodian domain is 0 after a start (R434). -/
def Sec.start : Sec :=
  { siteDomain := [], unitDomain := [], jobs := [], sites := [], waiting := [], fences := [], ecc := [], eccLast := [], eccAt := 0,
    silent := [] }

/-- A numbered frame as it was sent (R402, R404): its type (1 DATA, 2 CTRL), number, the field `first`, its body, and how often it was
replayed. -/
structure TxFrame where
  kind : Nat
  seq : Nat
  first : Nat
  body : List (BitVec 8)
  replays : Nat
deriving DecidableEq, Repr

/-- A Wyldex port (R396-R408) beyond its registers. Sending: the next number, the frames not yet acknowledged (oldest first), the numbers of those
that wait to be replayed, the packets whose last frame is not acknowledged with that frame's number, the packet that is being sent with
its bytes that no frame carries yet, the credit held for each VC in bytes, the 256 bytes last sent, the key epoch with the frame count under it,
the counts at which frames were replayed and the count of the last advance of ack. Receiving: the next number expected, whether a NAK is
out, whether an ack is to be sent, the bytes of a packet that has not all arrived, the bytes passed to the BN whose credit is not yet
returned, for each VC, the peer's key epoch, and the counts at which tags failed. Training: when the running one began, when the next may
begin, the attempts of S3, the retrains that failed in a row, how many counted trainings the catalogue already holds, and when the state
last changed, while that is not published. -/
structure Port where
  nextSeq : Nat
  replay : List TxFrame
  resend : List Nat
  sent : List (Packet × Nat)
  current : Option Packet
  partial_ : List (BitVec 8)
  credit : List Nat
  wire : List (BitVec 8)
  epoch : Nat
  frames : Nat
  replayAt : List Nat
  ackAt : Nat
  expect : Nat
  nakOut : Bool
  ackDue : Bool
  rx : List (BitVec 8)
  owed : List Nat
  rxEpoch : Nat
  authAt : List Nat
  trainAt : Option Nat
  nextTry : Nat
  tries : Nat
  failed : Nat
  counted : Nat
  changed : Option Nat
  policy : Nat
deriving DecidableEq, Repr

/-- A port before its first training; each VC of the peer's ingress holds 96 KiB (R403). -/
def Port.start : Port :=
  { nextSeq := 0, replay := [], resend := [], sent := [], current := none, partial_ := [], credit := [98304, 98304, 98304, 98304],
    wire := [], epoch := 0, frames := 0, replayAt := [], ackAt := 0, expect := 0, nakOut := false, ackDue := false, rx := [],
    owed := [0, 0, 0, 0], rxEpoch := 0, authAt := [], trainAt := none, nextTry := 0, tries := 0, failed := 0, counted := 0,
    changed := none, policy := 0 }

/-- A copy descriptor in progress (R415): its number, ring index, device and host address, length, whether it raises its vector, its direction, the parts
of the transfer that are not yet answered, its status so far (0x80 while no part met anything else) and the bytes read for a transfer to
the host, by offset. -/
structure CopyJob where
  id : Nat
  index : Nat
  dev : Nat
  host : Nat
  length : Nat
  irq : Bool
  toHost : Bool
  left : Nat
  status : Nat
  data : List (Nat × BitVec 8)
deriving DecidableEq, Repr

/-- What a host request returned: its number, the PCIe outcome (0 successful completion, 1 Unsupported Request, 2 Request Retry
Status) and the data of a read. -/
structure HostDone where
  id : Nat
  outcome : Nat
  data : List (BitVec 8)
deriving DecidableEq, Repr

/-- A host memory request in the networks: its number, the function, the device physical address, its length, and whether it reads. -/
structure HostReq where
  id : Nat
  fn : Nat
  addr : Nat
  len : Nat
  read : Bool
deriving DecidableEq, Repr

/-- The PCIe endpoint, the mailbox and the management protocols (R410-R423): the VFs that SR-IOV enables, the BARs (function * 8 + BAR), the requests in progress and what was returned, the words written to host memory
(function, address, bytes), the descriptors of copy channels (function * 4 + channel), the request and response areas of the mailbox, the requester
and VBRING test in progress, whether a secured SPDM session stands, the IDE streams with keys and the VF each is bound to, the TDIs that wait for a scrub, and
the answers of the management protocols. -/
structure Hst where
  numVfs : Nat
  bars : List (Nat × Nat)
  nextId : Nat
  reqs : List HostReq
  done : List HostDone
  writes : List (Nat × Nat × List (BitVec 8))
  chans : List (Nat × List CopyJob)
  mbxReq : List (Nat × BitVec 32)
  mbxRsp : List (Nat × BitVec 32)
  mbxWork : Option (List (BitVec 8))
  session : Bool
  streams : List (Nat × Nat)
  stopped : List Nat
  unlocking : List Nat
  answers : List (Nat × List (BitVec 8))
  tap : Nat
deriving DecidableEq, Repr

/-- The endpoint after PERST_N. -/
def Hst.start : Hst :=
  { numVfs := 0, bars := [], nextId := 0, reqs := [], done := [], writes := [], chans := [], mbxReq := [], mbxRsp := [],
    mbxWork := none, session := false, streams := [], stopped := [], unlocking := [], answers := [], tap := 0 }

/-- The whole module. `pending` is the queue of waiting commands, first in, first out; `freeCtr` counts the free values
that were read (both are the model's own). `loHeld` holds, for a _LO register written since its pair was last acted on, the value that the
pair still acts with (R7); `wires` the spare wires in use in a direction of a seam link, by `wireKey` (R24). -/
structure State where
  pending : List Instr
  freeCtr : Nat
  time : Nat
  timeRunning : Bool
  regs : List (Nat × BitVec 32)
  hiLatch : List (Nat × BitVec 32)
  loHeld : List (Nat × BitVec 32)
  wires : List (Nat × Nat)
  sites : List (Nat × Site)
  cat : Cat
  fuses : Fuses
  flash : Flash
  pins : Pins
  cur : Cur
  clk : Clk
  tim : Tim
  wings : List (Nat × WingPower)
  pwr : Pwr
  fab : Fab
  faults : List (Nat × FaultRec)
  msix : List (Nat × Nat)
  ctrlOut : List (Nat × CtrlFrame)
  viol : List (Nat × (Nat × Nat))
  net : Net
  dram : Dram
  dbg : Dbg
  sec : Sec
  ports : List (Nat × Port)
  hst : Hst
deriving DecidableEq, Repr

/-- No entry of any table differs from a module in which everything is good. -/
def CatTables.empty : CatTables :=
  { sites := [], ports := [], usable := [], dieFailed := [], trims := [], wings := [], seams := [], retired := [],
    records := [] }

/-- A wing whose rail is off. -/
def WingPower.off : WingPower :=
  { cycle := 0, phase := 0, pulses := 0, droop := 0, recovered := none, emergency := false, requestAt := none, rampAt := none,
    clockAt := none, tokensUntil := none, inService := false, clamped := true, ageingAt := none,
    monitorsAt := none }

/-- A wing whose rail went off keeps only when Curator last read its ageing monitors and raised its trim (R353). -/
def WingPower.lost (x : WingPower) : WingPower := { WingPower.off with ageingAt := x.ageingAt, monitorsAt := x.monitorsAt }

/-- A group before any calibration: gain 1.0 and offset 0 (R355). -/
def PwrGroup.start : PwrGroup := { gain := 1, offset := 0, pairs := [], raws := [] }

/-- Curator's catalogue keeping before the first publication. -/
def Cat.start : Cat :=
  { tables := .empty, underlying := [], bufA := none, bufB := none, dirty := false, dirtyDead := false, lastPub := none,
    lastBelow := none }

/-- The cap at a start: thermal cap 5,000 W, no episode (R365). -/
def Pwr.start : Pwr :=
  { groups := [], estimates := [], raiseOk := 0, skipSteps := 16, tcap := 5000, warnArmed := true, unheld := false,
    begin := none, lastRecord := 0, clearSteps := 0, estSum := 0, estCount := 0, skipMax := 0, lostSum := 0,
    lastStep := 0, modeSkip := false, toTarget := false, calAt := 0, tcapAt := 0, tempSeen := [] }

/-- No switch pending. -/
def Clk.start : Clk :=
  { switchAt := 0, target := 4, raise := false, lower := false, checked := false, settledAt := 0, settleStart := none,
    window := none, capDoneAt := none, byCap := false, oscillator := false }

/-- No role, no pulse. -/
def Tim.start : Tim := { cycles := 5000, lastSlew := 0, slewLeft := 0, lockCount := 0, lastSync := 0, pulseAt := none }

/-- Both slots empty, no claim. -/
def Fab.start : Fab :=
  { active := none, shadow := none, loading := none, swapAt := 0, sampled := false, carried := [], claims := [], claimResults := [] }

/-- The module right after VAUX5 was applied (R371, R382): stage S0, every register at its reset value, the wing rails
off, TIME not started, Curator running firmware slot A (log entry 3 names the values that the spec leaves open). -/
def State.reset : State :=
  { pending := [], freeCtr := 0, time := 0, timeRunning := false,
    -- fw_version of CUR_BOOT_STATUS; sys_ok, pcie_ok and lnk_ok of CLK_REF_STATUS: every reference is present
    regs := [(0x0, 0x100), (0x100020, 0x7)], hiLatch := [], loHeld := [], wires := [], sites := [], cat := .start,
    fuses := { sites := [], retired := [], seams := [], deadWings := [], minSec := 0, linkKey := true },
    flash := { slotA := { version := 1, secVersion := 0, signed := true, digest := 0 },
               slotB := { version := 0, secVersion := 0, signed := false, digest := 0 },
               staged := [], storedA := some (.empty, []), storedB := some (.empty, []), hours := 0, pendingRows := [],
               softRepairs := [] },
    pins := { vaux5 := true, vin48 := true, perstN := true, bringEn := false,
              faultLatched := false, tripLatched := false, stageTripped := false, tsyncOutUntil := 0 },
    cur := { running := true, slotsRefused := [], afterVaux := true, reachedS5 := false, tripSince := false,
             infieldLostSinceCold := false, starts := 0, restarting := false, resetAtP := none, resetSites := [], resetOutside := false,
             windows := [], tests := [], testRetry := [] },
    clk := .start, tim := .start, wings := [], pwr := .start, fab := .start, faults := [], msix := [], ctrlOut := [], viol := [],
    net := .start, dram := .start, dbg := .start, sec := .start, ports := [], hst := .start }

end Sys2Proof.Machine
end

