-- ==== Sys2Proof/Machine/Image.lean ====
section
/-! DEFINITION. Reading the fabric image (R305-R313): little-endian fields at the offsets of the layout, and what the
active image says of sites, partitions, regions, routes and resources. -/

namespace Sys2Proof.Machine

/-- The little-endian number in a list of bytes (R4). -/
def leNat : List (BitVec 8) → Nat
  | [] => 0
  | b :: bs => b.toNat + 256 * leNat bs

/-- The n low bytes of a number, little-endian (R4). -/
def leBytes : Nat → Nat → List (BitVec 8)
  | 0, _ => []
  | n + 1, v => BitVec.ofNat 8 v :: leBytes n (v / 256)

/-- The bits [hi:lo] of a number. -/
def bitsOf (v hi lo : Nat) : Nat := (v >>> lo) % 2 ^ (hi - lo + 1)

/-- Byte o of the image; 0 where nothing is listed. -/
def Image.byte (m : Image) (o : Nat) : BitVec 8 := Map.get (fun _ => 0) m.bytes o

/-- The n-byte little-endian field at offset o. -/
def Image.field (m : Image) (n o : Nat) : Nat := leNat (Map.getRange (fun _ => 0) m.bytes o n)

def Image.u8 (m : Image) (o : Nat) : Nat := m.field 1 o
def Image.u16 (m : Image) (o : Nat) : Nat := m.field 2 o
def Image.u32 (m : Image) (o : Nat) : Nat := m.field 4 o
def Image.u64 (m : Image) (o : Nat) : Nat := m.field 8 o

/-- R305: the header's device_id, serial and sig_off. -/
def Image.deviceId (m : Image) : Nat := m.u16 0x0E
def Image.serial (m : Image) : Nat := m.u64 0x10
def Image.sigOff (m : Image) : Nat := m.u32 0x48

/-- R306: offset of directory entry k. -/
def Image.dirEntry (k : Nat) : Nat := 0x80 + 16 * k

/-- R306: the directory entry of a section type, if one of the twelve names it. -/
def Image.findSection (m : Image) (type : Nat) : Option Nat :=
  ((List.range 12).map Image.dirEntry).find? fun e => m.u16 e == type

/-- R306: offset of the section of a type; 0 when it is absent. -/
def Image.secOff (m : Image) (type : Nat) : Nat :=
  match m.findSection type with
  | some e => m.u32 (e + 4)
  | none => 0

/-- R306: length of the section of a type; 0 when it is absent. -/
def Image.secLen (m : Image) (type : Nat) : Nat :=
  match m.findSection type with
  | some e => m.u32 (e + 8)
  | none => 0

/-- R307: the offsets of the partition records. -/
def Image.partRecs (m : Image) : List Nat :=
  (List.range (m.secLen 0x01 / 32)).map fun i => m.secOff 0x01 + 32 * i

/-- R307: the record of a partition number. -/
def Image.partRec (m : Image) (p : Nat) : Option Nat := m.partRecs.find? fun o => m.u8 o == p

/-- R307: the partition numbers of the image. -/
def Image.partitions (m : Image) : List Nat := m.partRecs.map fun o => m.u8 o

/-- R307: a field of a partition's record, 0 for an absent partition. -/
def Image.partField (m : Image) (n off p : Nat) : Nat :=
  match m.partRec p with
  | some o => m.field n (o + off)
  | none => 0

def Image.partClass (m : Image) (p : Nat) : Nat := m.partField 1 0x01 p
def Image.partDomain (m : Image) (p : Nat) : Nat := m.partField 1 0x02 p
def Image.partCarry (m : Image) (p : Nat) : Bool := bitsOf (m.partField 1 0x03 p) 0 0 == 1
def Image.partPaired (m : Image) (p : Nat) : Bool := bitsOf (m.partField 1 0x03 p) 1 1 == 1
def Image.partRights (m : Image) (p : Nat) : Nat := m.partField 2 0x04 p
def Image.peerFirst (m : Image) (p : Nat) : Nat := m.partField 2 0x08 p
def Image.peerLast (m : Image) (p : Nat) : Nat := m.partField 2 0x0A p

/-- R308: the site entry of a TileID. -/
def Image.siteEntry (m : Image) (t : Nat) : Nat := m.u32 (m.secOff 0x02 + 4 * t)

/-- R308: the partition of a site; none for 0xFF. -/
def Image.sitePart (m : Image) (t : Nat) : Option Nat :=
  let p := bitsOf (m.siteEntry t) 7 0
  if t < 3072 && p != 0xFF then some p else none

/-- R308: the twin of a paired site. -/
def Image.twin (m : Image) (t : Nat) : Option Nat :=
  let e := m.siteEntry t
  if bitsOf e 28 28 == 1 then some (bitsOf e 27 16) else none

/-- R308: the sites of a partition, in ascending TileID. -/
def Image.sitesOf (m : Image) (p : Nat) : List Nat := (List.range 3072).filter fun t => m.sitePart t == some p

/-- R263, R306: the route entry of a router for a target, a 4-bit value. -/
def Image.route (m : Image) (router target : Nat) : Nat :=
  let b := m.u8 (m.secOff 0x03 + 1568 * router + target / 2)
  if target % 2 == 0 then b % 16 else b / 16

/-- R309: a tract record. -/
def Image.tract (m : Image) (t : Nat) : Nat := m.u32 (m.secOff 0x09 + 4 * t)

/-- R310: one region record. -/
structure Region where
  base : Nat
  pages : Nat
  owner : Nat
  rights : Nat
deriving DecidableEq, Repr

/-- R310: the region records in order. -/
def Image.regions (m : Image) : List Region :=
  (List.range (m.secLen 0x0A / 16)).map fun i =>
    let o := m.secOff 0x0A + 16 * i
    { base := m.u64 o, pages := m.u32 (o + 8), owner := m.u8 (o + 0xC), rights := m.u8 (o + 0xD) }

/-- R310: does the region hold the address? -/
def Region.holds (r : Region) (a : Nat) : Bool := r.base ≤ a && a < r.base + 4096 * r.pages

/-- R310: the regions that hold an address. -/
def Image.regionsAt (m : Image) (a : Nat) : List Region := m.regions.filter fun r => r.holds a

/-- R310: has the owner the right (bit 0 read, bit 1 write) at the address? -/
def Image.regionRight (m : Image) (owner a : Nat) (write : Bool) : Bool :=
  (m.regionsAt a).any fun r => r.owner == owner && bitsOf r.rights (if write then 1 else 0) (if write then 1 else 0) == 1

/-- R311: the partition that holds a port. -/
def Image.portPart (m : Image) (p : Nat) : Option Nat :=
  let b := m.u8 (m.secOff 0x0B + p)
  if b == 0xFF then none else some b

/-- R313: the owner that the image gives a resource; none when it is unowned. -/
def Image.resourceOwner (m : Image) (kind index : Nat) : Option Nat :=
  let os := (List.range (m.secLen 0x0C / 4)).map fun i => m.secOff 0x0C + 4 * i
  match os.find? fun o => m.u8 o == kind && m.u8 (o + 1) == index with
  | some o => if m.u8 (o + 2) == 0xFF then none else some (m.u8 (o + 2))
  | none => none

end Sys2Proof.Machine
end

