-- ==== Sys2Proof/Machine/Regs.lean ====
section
/-! DEFINITION. The register map of the spec: the offset, the fields, the access code (R6) and the reset value
of every register that the chapters describe (R3, R32, R71, R92, R101, R128, R130, R147, R152, R217, R233, R238,
R258, R280, R283, R292, R301, R302, R323, R341, R342, R368-R370, R394, R395, R409, R424, R425, R448-R450).
A device register's key is its offset from 0x0300_0000_0000; a tile register's key is its offset in the tile CSR
space; a register of PCIe function f's page (R425) has key 0x1000_0000 + 0x1000 * f + offset, a key of the model. -/

namespace Sys2Proof.Machine

/-- The access codes of R6. -/
inductive Access where
  | ro | rw | wo | w1c | w1s | rsv
deriving DecidableEq, Repr

/-- One field of a register's table: bits, access code, reset value, and the ranges of values it defines (R8);
an empty list of ranges means that every value is defined. -/
structure Field where
  hi : Nat
  lo : Nat
  acc : Access
  reset : Nat
  legal : List (Nat × Nat)
deriving DecidableEq, Repr

/-- A register or an array of registers: first key, two strides with their counts, fields. -/
structure RegDef where
  base : Nat
  stride : Nat
  count : Nat
  stride2 : Nat
  count2 : Nat
  fields : List Field
deriving DecidableEq, Repr

/-- Format codes that R75 allows as outputs. -/
def outputFormats : List (Nat × Nat) := [(1, 5), (8, 14)]

namespace R

/-- Catalogue state (R32). -/
def CAT_STATUS : Nat := 0x700000
/-- Offset of the current catalogue buffer within block CAT (R32). -/
def CAT_BASE : Nat := 0x700004
/-- Length of the current catalogue (R32). -/
def CAT_SIZE : Nat := 0x700008
/-- Publication sequence (R32). -/
def CAT_GEN : Nat := 0x70000c
/-- SHA-384 digest of the current catalogue (R32). -/
def CAT_DIGEST (n : Nat) : Nat := 0x700010 + 0x4 * n
/-- Operator hold and release request (R32). -/
def CAT_HOLD_CTL : Nat := 0x700040
/-- State of the last accepted hold request (R32). -/
def CAT_HOLD_RESULT : Nat := 0x700044
/-- Array counter control (R71). -/
def ENG_ARR_CTL : Nat := 0x300
/-- Array cycles in which a slot of work entered (R71). -/
def ENG_ARR_ACTIVE_LO : Nat := 0x308
/-- Array cycles in which a slot of work entered (R71). -/
def ENG_ARR_ACTIVE_HI : Nat := 0x30c
/-- Void array cycles (R71). -/
def ENG_ARR_VOID_LO : Nat := 0x310
/-- Void array cycles (R71). -/
def ENG_ARR_VOID_HI : Nat := 0x314
/-- Freeze cycles attributed to STREAM_EMPTY (R71). -/
def ENG_ARR_FRZ_STREAM : Nat := 0x318
/-- Freeze cycles attributed to STAT_NOT_READY (R71). -/
def ENG_ARR_FRZ_STAT : Nat := 0x31c
/-- Freeze cycles attributed to ACC_BACKPRESSURE (R71). -/
def ENG_ARR_FRZ_ACC : Nat := 0x320
/-- Stationary blocks loaded (R71). -/
def ENG_ARR_RELOADS : Nat := 0x324
/-- Current array state (R71). -/
def ENG_ARR_STATE : Nat := 0x328
/-- Expansion flushes (R92). -/
def ENG_EXP_FLUSH : Nat := 0x340
/-- Expansion overflows (R92). -/
def ENG_EXP_OVF : Nat := 0x344
/-- Term flushes of the order verbs (R92). -/
def ENG_TERM_FLUSH : Nat := 0x348
/-- Narrow flags of the 64 codebooks (R92). -/
def ENG_CB_NARROW_LO : Nat := 0x350
/-- Narrow flags of the 64 codebooks (R92). -/
def ENG_CB_NARROW_HI : Nat := 0x354
/-- Slot control (R101). -/
def QUANT_CTL (n : Nat) : Nat := 0x400 + 0x80 * n
/-- Tensor scale for the next drain (R101). -/
def QUANT_SCALE (n : Nat) : Nat := 0x404 + 0x80 * n
/-- Auto-scale margin (R101). -/
def QUANT_MARGIN (n : Nat) : Nat := 0x408 + 0x80 * n
/-- Early-raise threshold (R101). -/
def QUANT_THRESH (n : Nat) : Nat := 0x40c + 0x80 * n
/-- Elements converted in this step (R101). -/
def QUANT_STAT_COUNT_LO (n : Nat) : Nat := 0x410 + 0x80 * n
/-- Elements converted in this step (R101). -/
def QUANT_STAT_COUNT_HI (n : Nat) : Nat := 0x414 + 0x80 * n
/-- Clipped elements in this step (R101). -/
def QUANT_STAT_CLIP_LO (n : Nat) : Nat := 0x418 + 0x80 * n
/-- Clipped elements in this step (R101). -/
def QUANT_STAT_CLIP_HI (n : Nat) : Nat := 0x41c + 0x80 * n
/-- Underflows in this step (R101). -/
def QUANT_STAT_UFLOW (n : Nat) : Nat := 0x420 + 0x80 * n
/-- Nonfinite inputs in this step (R101). -/
def QUANT_STAT_NONFIN (n : Nat) : Nat := 0x424 + 0x80 * n
/-- Saturated block scales in this step (R101). -/
def QUANT_STAT_SCALE_SAT (n : Nat) : Nat := 0x428 + 0x80 * n
/-- Step amax (R101). -/
def QUANT_STAT_AMAX (n : Nat) : Nat := 0x42c + 0x80 * n
/-- Amax of the last closed step (R101). -/
def QUANT_STAT_LAST_AMAX (n : Nat) : Nat := 0x430 + 0x80 * n
/-- Clipped share and raises of the last closed step (R101). -/
def QUANT_STAT_LAST_SHARE (n : Nat) : Nat := 0x434 + 0x80 * n
/-- Steps closed (R101). -/
def QUANT_STAT_STEPS (n : Nat) : Nat := 0x438 + 0x80 * n
/-- Merged amax for a CSR close (R101). -/
def QUANT_MERGE (n : Nat) : Nat := 0x43c + 0x80 * n
/-- Amax history (R101). -/
def QUANT_HIST (n : Nat) (i : Nat) : Nat := 0x440 + 0x80 * n + 0x4 * i
/-- Terms truncated in group trees (R128). -/
def ENG_TREE_LOSS : Nat := 0x358
/-- Group results out of FP32 range (R128). -/
def ENG_GROUP_RANGE : Nat := 0x35c
/-- Rows drained (R128). -/
def ENG_DRN_ROWS_LO : Nat := 0x360
/-- Rows drained (R128). -/
def ENG_DRN_ROWS_HI : Nat := 0x364
/-- Drain cycles held for the write port (R128). -/
def ENG_DRN_STALL : Nat := 0x368
/-- Corrected accumulator errors (R128). -/
def ENG_ACC_ECC : Nat := 0x36c
/-- Tile capabilities (R130). -/
def TILE_CAP : Nat := 0x4
/-- Segment command (R147). -/
def VIT_SEG_CTL : Nat := 0x800
/-- Segment states (R147). -/
def VIT_SEG_STATE : Nat := 0x804
/-- Corrected cell errors (R147). -/
def VIT_ECC_CORR : Nat := 0x808
/-- Uncorrectable cell errors (R147). -/
def VIT_ECC_UNCORR : Nat := 0x80c
/-- Offset of the last uncorrectable cell (R147). -/
def VIT_ECC_ADDR : Nat := 0x810
/-- Refused cycles of port n (R147). -/
def VIT_REFUSED (n : Nat) : Nat := 0x820 + 0x4 * n
/-- Site and device identity (R152). -/
def TILE_ID : Nat := 0x0
/-- State of each core (R152). -/
def TILE_STATE : Nat := 0x8
/-- Core command (R152). -/
def TILE_START : Nat := 0xc
/-- Entry pc for the next start (R152). -/
def TILE_ENTRY_LO : Nat := 0x10
/-- Entry pc for the next start (R152). -/
def TILE_ENTRY_HI : Nat := 0x14
/-- Argument placed in s1 at the next start (R152). -/
def TILE_ARG_LO : Nat := 0x18
/-- Argument placed in s1 at the next start (R152). -/
def TILE_ARG_HI : Nat := 0x1c
/-- Exception that last made a core FAULTED (R152). -/
def TILE_EXC_CAUSE : Nat := 0x20
/-- pc of that exception (R152). -/
def TILE_EXC_PC_LO : Nat := 0x28
/-- pc of that exception (R152). -/
def TILE_EXC_PC_HI : Nat := 0x2c
/-- Value of that exception (R152). -/
def TILE_EXC_VAL_LO : Nat := 0x30
/-- Value of that exception (R152). -/
def TILE_EXC_VAL_HI : Nat := 0x34
/-- Engine states and sticky events (R217). -/
def ENG_STATUS : Nat := 0x100
/-- Queue occupancy (R217). -/
def ENG_QUEUE : Nat := 0x104
/-- Token counters (R217). -/
def ENG_TOKEN (n : Nat) : Nat := 0x108 + 0x4 * n
/-- Stall report threshold (R217). -/
def ENG_STALL_LIMIT : Nat := 0x118
/-- First completion that was not OK (R217). -/
def ENG_XFER_STATUS : Nat := 0x11c
/-- pc of that instruction (R217). -/
def ENG_XFER_PC_LO : Nat := 0x120
/-- pc of that instruction (R217). -/
def ENG_XFER_PC_HI : Nat := 0x124
/-- Completions by status (R217). -/
def ENG_XFER_STALE : Nat := 0x128
/-- Completions by status (R217). -/
def ENG_XFER_CLOSED : Nat := 0x12c
/-- Completions by status (R217). -/
def ENG_XFER_UNREACH : Nat := 0x130
/-- Posted completions per handle (R217). -/
def ENG_ACC_PENDING : Nat := 0x134
/-- Division of the L2 (R233). -/
def S_L2_CFG : Nat := 0xa00
/-- External interrupt enables of core n (R238). -/
def S_EXT_EN (n : Nat) : Nat := 0xa10 + 0x4 * n
/-- External interrupt causes of core n (R238). -/
def S_EXT_PEND (n : Nat) : Nat := 0xa20 + 0x4 * n
/-- Corrected cache errors (R238). -/
def S_CACHE_ECC_CORR : Nat := 0xa30
/-- Uncorrectable cache errors (R238). -/
def S_CACHE_ECC_UNCORR : Nat := 0xa34
/-- Physical address of the last uncorrectable word (R238). -/
def S_CACHE_ECC_ADDR_LO : Nat := 0xa38
/-- Physical address of the last uncorrectable word (R238). -/
def S_CACHE_ECC_ADDR_HI : Nat := 0xa3c
/-- Patrol scrub control (R258). -/
def MEM_CTL : Nat := 0x600000
/-- State of stack n (R258). -/
def MEM_STK_STATE (n : Nat) : Nat := 0x600100 + 0x40 * n
/-- Temperature of stack n (R258). -/
def MEM_STK_TEMP (n : Nat) : Nat := 0x600104 + 0x40 * n
/-- Corrected reads (R258). -/
def MEM_STK_CORR (n : Nat) : Nat := 0x600108 + 0x40 * n
/-- Uncorrectable reads (R258). -/
def MEM_STK_UNCORR (n : Nat) : Nat := 0x60010c + 0x40 * n
/-- Integrity failures (R258). -/
def MEM_STK_MACFAIL (n : Nat) : Nat := 0x600110 + 0x40 * n
/-- Dropped partial writes and AMOs (R258). -/
def MEM_STK_DROP (n : Nat) : Nat := 0x600114 + 0x40 * n
/-- Last failed block (R258). -/
def MEM_STK_ERR_ADDR_LO (n : Nat) : Nat := 0x600118 + 0x40 * n
/-- Last failed block (R258). -/
def MEM_STK_ERR_ADDR_HI (n : Nat) : Nat := 0x60011c + 0x40 * n
/-- Capacity of stack n (R258). -/
def MEM_STK_USABLE (n : Nat) : Nat := 0x600120 + 0x40 * n
/-- Queue command (R280). -/
def NET_Q_CTL : Nat := 0xc10
/-- State of queue n (R280). -/
def NET_Q_STATE (n : Nat) : Nat := 0x1000 + 0x8 * n
/-- Drops at queue n (R280). -/
def NET_Q_DROP (n : Nat) : Nat := 0x1004 + 0x8 * n
/-- Window command (R283). -/
def NET_WIN_CMD : Nat := 0xc18
/-- State of the last window command from this tile (R283). -/
def NET_WIN_STATUS : Nat := 0xc1c
/-- Slot shape (R292). -/
def CONC_CFG (n : Nat) : Nat := 0xe00 + 0x20 * n
/-- Storage given by the image (R292). -/
def CONC_ALLOC (n : Nat) : Nat := 0xe04 + 0x20 * n
/-- Result address (R292). -/
def CONC_DEST_LO (n : Nat) : Nat := 0xe08 + 0x20 * n
/-- Result address (R292). -/
def CONC_DEST_HI (n : Nat) : Nat := 0xe0c + 0x20 * n
/-- Notification after delivery (R292). -/
def CONC_NOTIFY (n : Nat) : Nat := 0xe10 + 0x20 * n
/-- Slot state (R292). -/
def CONC_STATE (n : Nat) : Nat := 0xe14 + 0x20 * n
/-- Site view of context c (R301). -/
def NET_SYNC_CTX (n : Nat) : Nat := 0x1400 + 0x4 * n
/-- Sticky network events (R302). -/
def NET_STATUS : Nat := 0xc00
/-- Network stall report threshold (R302). -/
def NET_STALL_LIMIT : Nat := 0xc04
/-- Corrected flit errors (R302). -/
def NET_FLIT_CORR : Nat := 0xc08
/-- Uncorrectable flit errors (R302). -/
def NET_FLIT_UNCORR : Nat := 0xc0c
/-- UNREACH answers made at this site (R302). -/
def NET_UNREACH_SENT : Nat := 0xc14
/-- STALE answers made at this site (R302). -/
def NET_DROP_STALE : Nat := 0xc20
/-- CLOSED answers made at this site (R302). -/
def NET_DROP_CLOSED : Nat := 0xc24
/-- Last stall found at this site (R302). -/
def NET_STALL_WHERE : Nat := 0xc28
/-- Answers dropped at this site (R302). -/
def NET_COMPL_LOST : Nat := 0xc2c
/-- Shadow command (R323). -/
def FAB_CTL : Nat := 0x800000
/-- Staging address (R323). -/
def FAB_SHADOW_BASE : Nat := 0x800004
/-- Staged length (R323). -/
def FAB_SHADOW_SIZE : Nat := 0x800008
/-- Swap count (R323). -/
def FAB_SWAP_AT_LO : Nat := 0x800010
/-- Swap count (R323). -/
def FAB_SWAP_AT_HI : Nat := 0x800014
/-- Slot state and last outcome (R323). -/
def FAB_STATUS : Nat := 0x800018
/-- First validation error (R323). -/
def FAB_ERROR : Nat := 0x80001c
/-- Serial of the active image (R323). -/
def FAB_ACTIVE_SERIAL_LO : Nat := 0x800020
/-- Serial of the active image (R323). -/
def FAB_ACTIVE_SERIAL_HI : Nat := 0x800024
/-- Serial of the shadow image (R323). -/
def FAB_SHADOW_SERIAL_LO : Nat := 0x800028
/-- Serial of the shadow image (R323). -/
def FAB_SHADOW_SERIAL_HI : Nat := 0x80002c
/-- Count of the last swap (R323). -/
def FAB_LAST_SWAP_LO : Nat := 0x800030
/-- Count of the last swap (R323). -/
def FAB_LAST_SWAP_HI : Nat := 0x800034
/-- Run-time claim (R323). -/
def FAB_CLAIM : Nat := 0x800040
/-- Result of the last claim from this agent (R323). -/
def FAB_CLAIM_RESULT : Nat := 0x800044
/-- Requested operating point (R341). -/
def CLK_OP_TARGET : Nat := 0x100000
/-- Switch count (R341). -/
def CLK_OP_SWITCH_AT_LO : Nat := 0x100008
/-- Switch count (R341). -/
def CLK_OP_SWITCH_AT_HI : Nat := 0x10000c
/-- Operating point state (R341). -/
def CLK_OP_STATUS : Nat := 0x100010
/-- Count of the last switch (R341). -/
def CLK_OP_LAST_LO : Nat := 0x100018
/-- Count of the last switch (R341). -/
def CLK_OP_LAST_HI : Nat := 0x10001c
/-- Reference clocks (R341). -/
def CLK_REF_STATUS : Nat := 0x100020
/-- Seam crossing phase alarms (R341). -/
def CLK_SEAM_ALARM : Nat := 0x100024
/-- Wing clocks running (R341). -/
def CLK_WING_RUN : Nat := 0x100028
/-- Device time (R342). -/
def TIME_NOW_LO : Nat := 0x900000
/-- Device time (R342). -/
def TIME_NOW_HI : Nat := 0x900004
/-- Time role (R342). -/
def TIM_SYNC_CTL : Nat := 0x900010
/-- Time alignment (R342). -/
def TIM_SYNC_STATUS : Nat := 0x900014
/-- Pin path delay (R342). -/
def TIM_PIN_DELAY : Nat := 0x900018
/-- Count of the last TSYNC_IN edge (R342). -/
def TIM_CAPTURE_LO : Nat := 0x900020
/-- Count of the last TSYNC_IN edge (R342). -/
def TIM_CAPTURE_HI : Nat := 0x900024
/-- One TSYNC_OUT pulse (R342). -/
def TIM_PULSE_AT_LO : Nat := 0x900028
/-- One TSYNC_OUT pulse (R342). -/
def TIM_PULSE_AT_HI : Nat := 0x90002c
/-- Compare count of timer n (R342). -/
def TIM_TIMER_CMP_LO (n : Nat) : Nat := 0x900100 + 0x10 * n
/-- Compare count of timer n (R342). -/
def TIM_TIMER_CMP_HI (n : Nat) : Nat := 0x900104 + 0x10 * n
/-- Action of timer n (R342). -/
def TIM_TIMER_CTL (n : Nat) : Nat := 0x900108 + 0x10 * n
/-- Module input power cap (R368). -/
def PWR_CAP_W : Nat := 0x200000
/-- Module power estimate (R368). -/
def PWR_EST_W : Nat := 0x200004
/-- Measured module input (R368). -/
def PWR_MEAS_W : Nat := 0x200008
/-- Cap guard (R368). -/
def PWR_CAP_CTL : Nat := 0x20000c
/-- Cap state (R368). -/
def PWR_STATUS : Nat := 0x200010
/-- Thermal cap (R368). -/
def PWR_TCAP_W : Nat := 0x200014
/-- Wing power command (R368). -/
def PWR_WING_CTL : Nat := 0x200020
/-- Wing power state (R368). -/
def PWR_WING_STATUS : Nat := 0x200024
/-- VBRING connection (R368). -/
def PWR_BRING_CTL : Nat := 0x200030
/-- VBRING state (R368). -/
def PWR_BRING_STATUS : Nat := 0x200034
/-- Droop threshold (R368). -/
def PWR_DROOP_CTL : Nat := 0x200038
/-- Time throttled (R368). -/
def PWR_THR_TIME_LO : Nat := 0x200040
/-- Time throttled (R368). -/
def PWR_THR_TIME_HI : Nat := 0x200044
/-- Time lost to cap skipping (R368). -/
def PWR_THR_LOST_LO : Nat := 0x200048
/-- Time lost to cap skipping (R368). -/
def PWR_THR_LOST_HI : Nat := 0x20004c
/-- Lowest voltage seen (R369). -/
def PWR_VMIN (n : Nat) : Nat := 0x200100 + 0x20 * n
/-- TIME of that reading (R369). -/
def PWR_VMIN_TS_LO (n : Nat) : Nat := 0x200104 + 0x20 * n
/-- TIME of that reading (R369). -/
def PWR_VMIN_TS_HI (n : Nat) : Nat := 0x200108 + 0x20 * n
/-- Rail state (R369). -/
def PWR_RAIL (n : Nat) : Nat := 0x20010c + 0x20 * n
/-- Calibration (R369). -/
def PWR_CAL (n : Nat) : Nat := 0x200110 + 0x20 * n
/-- Group estimate and measurement (R369). -/
def PWR_EST (n : Nat) : Nat := 0x200114 + 0x20 * n
/-- Droop episodes (R369). -/
def PWR_DROOP (n : Nat) : Nat := 0x200118 + 0x20 * n
/-- Hardware trip record (R370). -/
def THM_TRIP_STATUS : Nat := 0x201000
/-- TIME of the trip (R370). -/
def THM_TRIP_TIME_LO : Nat := 0x201004
/-- TIME of the trip (R370). -/
def THM_TRIP_TIME_HI : Nat := 0x201008
/-- Thermal thresholds (R370). -/
def THM_CTL : Nat := 0x201010
/-- Thermal state (R370). -/
def THM_STATUS : Nat := 0x201014
/-- Junction temperature of wing n (R370). -/
def THM (n : Nat) : Nat := 0x201100 + 0x4 * n
/-- Start state (R394). -/
def CUR_BOOT_STATUS : Nat := 0x0
/-- Start kind request (R394). -/
def CUR_BOOT_CTL : Nat := 0x4
/-- Module and Curator reset (R394). -/
def CUR_RESET_CMD : Nat := 0x8
/-- Partition reset request (R394). -/
def CUR_PART_RESET : Nat := 0xc
/-- Partition reset state (R394). -/
def CUR_PART_RESET_STATUS : Nat := 0x10
/-- In-field test schedule (R394). -/
def CUR_IFT_CTL : Nat := 0x20
/-- Test window (R394). -/
def CUR_IFT_GRANT : Nat := 0x24
/-- In-field test counts (R394). -/
def CUR_IFT_STATUS : Nat := 0x28
/-- Tile reset (R395). -/
def TILE_RESET : Nat := 0x24
/-- In-field test state (R395). -/
def TILE_IFT_STATUS : Nat := 0x40
/-- TIME of the last passed test (R395). -/
def TILE_IFT_LAST_LO : Nat := 0x48
/-- TIME of the last passed test (R395). -/
def TILE_IFT_LAST_HI : Nat := 0x4c
/-- Link policy (R409). -/
def LNK_CTL : Nat := 0x300000
/-- Link key state (R409). -/
def LNK_STATUS : Nat := 0x300004
/-- Port command (R409). -/
def LNK_PORT_CTL (n : Nat) : Nat := 0x301000 + 0x40 * n
/-- Port state (R409). -/
def LNK_PORT_STATUS (n : Nat) : Nat := 0x301004 + 0x40 * n
/-- Lane test result (R409). -/
def LNK_PORT_LANES (n : Nat) : Nat := 0x301008 + 0x40 * n
/-- Peer module serial (R409). -/
def LNK_PORT_PEER_LO (n : Nat) : Nat := 0x301010 + 0x40 * n
/-- Peer module serial (R409). -/
def LNK_PORT_PEER_HI (n : Nat) : Nat := 0x301014 + 0x40 * n
/-- Peer identity (R409). -/
def LNK_PORT_PEER_ID (n : Nat) : Nat := 0x301018 + 0x40 * n
/-- Port counters (R409). -/
def LNK_PORT_REPLAY (n : Nat) : Nat := 0x30101c + 0x40 * n
/-- Port counters (R409). -/
def LNK_PORT_FEC_CORR (n : Nat) : Nat := 0x301020 + 0x40 * n
/-- Port counters (R409). -/
def LNK_PORT_FEC_UNCORR (n : Nat) : Nat := 0x301024 + 0x40 * n
/-- Port counters (R409). -/
def LNK_PORT_AUTH_FAIL (n : Nat) : Nat := 0x301028 + 0x40 * n
/-- Port counters (R409). -/
def LNK_PORT_RETRAINS (n : Nat) : Nat := 0x30102c + 0x40 * n
/-- Port counters (R409). -/
def LNK_PORT_DROPPED (n : Nat) : Nat := 0x301030 + 0x40 * n
/-- Mailbox interface version (R424). -/
def HST_MBX_VERSION : Nat := 0x400000
/-- Mailbox command (R424). -/
def HST_MBX_CTL : Nat := 0x400004
/-- Mailbox state (R424). -/
def HST_MBX_STATUS : Nat := 0x400008
/-- Host link state (R424). -/
def HST_LINK_STATUS : Nat := 0x400010
/-- Last PF0 access that was not OK (R424). -/
def HST_ERR : Nat := 0x400014
/-- Raise a function vector (R424). -/
def HST_MSIX_RAISE : Nat := 0x400040
/-- Binding of VF k (R424). -/
def HST_VF_BIND (n : Nat) : Nat := 0x400100 + 0x4 * n
/-- Aperture position (R425). -/
def FN_APER_BASE (n : Nat) : Nat := 0x10000000 + 0x1000 * n
/-- Last access of this function that was not OK (R425). -/
def FN_ERR (n : Nat) : Nat := 0x10000004 + 0x1000 * n
/-- Its device physical address (R425). -/
def FN_ERR_ADDR_LO (n : Nat) : Nat := 0x10000008 + 0x1000 * n
/-- Its device physical address (R425). -/
def FN_ERR_ADDR_HI (n : Nat) : Nat := 0x1000000c + 0x1000 * n
/-- Message destination (R425). -/
def FN_MSG_DEST_LO (n : Nat) : Nat := 0x10000010 + 0x1000 * n
/-- Message destination (R425). -/
def FN_MSG_DEST_HI (n : Nat) : Nat := 0x10000014 + 0x1000 * n
/-- Message payload (R425). -/
def FN_MSG_DATA (n : Nat) (i : Nat) : Nat := 0x10000020 + 0x1000 * n + 0x4 * i
/-- Send (R425). -/
def FN_MSG_CMD (n : Nat) : Nat := 0x10000040 + 0x1000 * n
/-- Send state (R425). -/
def FN_MSG_STATUS (n : Nat) : Nat := 0x10000044 + 0x1000 * n
/-- Ring base (R425). -/
def FN_CH_RING_LO (n : Nat) (i : Nat) : Nat := 0x10000100 + 0x1000 * n + 0x20 * i
/-- Ring base (R425). -/
def FN_CH_RING_HI (n : Nat) (i : Nat) : Nat := 0x10000104 + 0x1000 * n + 0x20 * i
/-- Channel control (R425). -/
def FN_CH_CFG (n : Nat) (i : Nat) : Nat := 0x10000108 + 0x1000 * n + 0x20 * i
/-- Host producer index (R425). -/
def FN_CH_TAIL (n : Nat) (i : Nat) : Nat := 0x1000010c + 0x1000 * n + 0x20 * i
/-- Device consumer index (R425). -/
def FN_CH_HEAD (n : Nat) (i : Nat) : Nat := 0x10000110 + 0x1000 * n + 0x20 * i
/-- Channel state (R425). -/
def FN_CH_STATUS (n : Nat) (i : Nat) : Nat := 0x10000114 + 0x1000 * n + 0x20 * i
/-- Error policy (R448). -/
def SEC_CTL : Nat := 0x500000
/-- Corrected-error threshold (R448). -/
def SEC_ECC_THRESH : Nat := 0x500004
/-- Debug use since the last cold start (R448). -/
def SEC_DEBUG_SEEN : Nat := 0x500008
/-- TIME of the first debug use (R448). -/
def SEC_DEBUG_TIME_LO : Nat := 0x50000c
/-- TIME of the first debug use (R448). -/
def SEC_DEBUG_TIME_HI : Nat := 0x500010
/-- Scrub command (R448). -/
def SEC_SCRUB_CTL : Nat := 0x500020
/-- Scrub progress (R448). -/
def SEC_SCRUB_STATUS : Nat := 0x500024
/-- Partitions scrubbing (R448). -/
def SEC_SCRUBBING (n : Nat) : Nat := 0x500040 + 0x4 * n
/-- Failed partitions (R448). -/
def SEC_PART_FAILED (n : Nat) : Nat := 0x500060 + 0x4 * n
/-- Fence test (R448). -/
def SEC_FENCE_CHECK : Nat := 0x500080
/-- Result of the last fence test from this agent (R448). -/
def SEC_FENCE_RESULT : Nat := 0x500084
/-- Violations by the host and remote devices (R448). -/
def SEC_VIOL_EXT : Nat := 0x500088
/-- Violations by this site (R448). -/
def VIOL_COUNT : Nat := 0x50
/-- Debug control of one core (R449). -/
def DBG_CORE_CMD : Nat := 0xa00000
/-- State of the core last named (R449). -/
def DBG_CORE_STATUS : Nat := 0xa00004
/-- Debug access address (R449). -/
def DBG_ACC_ADDR_LO : Nat := 0xa00010
/-- Debug access address (R449). -/
def DBG_ACC_ADDR_HI : Nat := 0xa00014
/-- Debug access data (R449). -/
def DBG_ACC_DATA : Nat := 0xa00018
/-- Debug access (R449). -/
def DBG_ACC_CMD : Nat := 0xa0001c
/-- Trace buffer n (R449). -/
def DBG_TRACE_CTL (n : Nat) : Nat := 0xa00100 + 0x4 * n
/-- Counter bank n (R449). -/
def DBG_CNT_CTL (n : Nat) : Nat := 0xa01000 + 0x80 * n
/-- Word i sampled by bank n (R449). -/
def DBG_CNT_SEL (n : Nat) (i : Nat) : Nat := 0xa01004 + 0x80 * n + 0x4 * i
/-- Sampled word i of bank n (R449). -/
def DBG_CNT_VAL (n : Nat) (i : Nat) : Nat := 0xa01024 + 0x80 * n + 0x4 * i
/-- TIME of the last sample of bank n (R449). -/
def DBG_CNT_TIME_LO (n : Nat) : Nat := 0xa01048 + 0x80 * n
/-- TIME of the last sample of bank n (R449). -/
def DBG_CNT_TIME_HI (n : Nat) : Nat := 0xa0104c + 0x80 * n
/-- Records consumed (R450). -/
def FLT_LOG_HEAD : Nat := 0xb00000
/-- Records written (R450). -/
def FLT_LOG_TAIL : Nat := 0xb00004
/-- Records overwritten unread (R450). -/
def FLT_LOG_LOST : Nat := 0xb00008

end R

/-- Device registers and function-page registers, part 0. -/
def devRegDefs0 : List RegDef := [
  -- CAT_STATUS, R32
  ⟨0x700000, 0x0, 1, 0x0, 1, [⟨4, 4, .ro, 0, []⟩, ⟨3, 3, .ro, 0, []⟩, ⟨2, 2, .ro, 0, []⟩, ⟨1, 1, .ro, 0, []⟩, ⟨0, 0, .ro, 0, []⟩]⟩,
  -- CAT_BASE, R32
  ⟨0x700004, 0x0, 1, 0x0, 1, [⟨31, 0, .ro, 0, []⟩]⟩,
  -- CAT_SIZE, R32
  ⟨0x700008, 0x0, 1, 0x0, 1, [⟨31, 0, .ro, 0, []⟩]⟩,
  -- CAT_GEN, R32
  ⟨0x70000c, 0x0, 1, 0x0, 1, [⟨31, 0, .ro, 0, []⟩]⟩,
  -- CAT_DIGEST, R32
  ⟨0x700010, 0x4, 12, 0x0, 1, [⟨31, 0, .ro, 0, []⟩]⟩,
  -- CAT_HOLD_CTL, R32
  ⟨0x700040, 0x0, 1, 0x0, 1, [⟨16, 16, .wo, 0, []⟩, ⟨11, 0, .wo, 0, []⟩]⟩,
  -- CAT_HOLD_RESULT, R32
  ⟨0x700044, 0x0, 1, 0x0, 1, [⟨8, 8, .w1c, 0, []⟩, ⟨1, 0, .ro, 0, []⟩]⟩,
  -- MEM_CTL, R258
  ⟨0x600000, 0x0, 1, 0x0, 1, [⟨8, 8, .rw, 1, []⟩, ⟨7, 0, .rw, 0x18, [(6, 168)]⟩]⟩,
  -- MEM_STK_STATE, R258
  ⟨0x600100, 0x40, 32, 0x0, 1, [⟨18, 18, .ro, 0, []⟩, ⟨17, 16, .ro, 0, []⟩, ⟨15, 8, .ro, 0, []⟩, ⟨3, 2, .ro, 0, []⟩, ⟨0, 0, .ro, 0, []⟩]⟩,
  -- MEM_STK_TEMP, R258
  ⟨0x600104, 0x40, 32, 0x0, 1, [⟨31, 16, .ro, 0, []⟩, ⟨15, 0, .ro, 0, []⟩]⟩,
  -- MEM_STK_CORR, R258
  ⟨0x600108, 0x40, 32, 0x0, 1, [⟨31, 0, .ro, 0, []⟩]⟩,
  -- MEM_STK_UNCORR, R258
  ⟨0x60010c, 0x40, 32, 0x0, 1, [⟨31, 0, .ro, 0, []⟩]⟩,
  -- MEM_STK_MACFAIL, R258
  ⟨0x600110, 0x40, 32, 0x0, 1, [⟨31, 0, .ro, 0, []⟩]⟩,
  -- MEM_STK_DROP, R258
  ⟨0x600114, 0x40, 32, 0x0, 1, [⟨31, 0, .ro, 0, []⟩]⟩,
  -- MEM_STK_ERR_ADDR_LO, R258
  ⟨0x600118, 0x40, 32, 0x0, 1, [⟨31, 0, .ro, 0, []⟩]⟩,
  -- MEM_STK_ERR_ADDR_HI, R258
  ⟨0x60011c, 0x40, 32, 0x0, 1, [⟨31, 31, .ro, 0, []⟩, ⟨7, 0, .ro, 0, []⟩]⟩,
  -- MEM_STK_USABLE, R258
  ⟨0x600120, 0x40, 32, 0x0, 1, [⟨31, 16, .ro, 0, []⟩, ⟨15, 0, .ro, 0x8000, []⟩]⟩,
  -- FAB_CTL, R323
  ⟨0x800000, 0x0, 1, 0x0, 1, [⟨1, 0, .wo, 0, []⟩]⟩,
  -- FAB_SHADOW_BASE, R323
  ⟨0x800004, 0x0, 1, 0x0, 1, [⟨31, 0, .rw, 0, []⟩]⟩,
  -- FAB_SHADOW_SIZE, R323
  ⟨0x800008, 0x0, 1, 0x0, 1, [⟨31, 0, .rw, 0, []⟩]⟩,
  -- FAB_SWAP_AT_LO, R323
  ⟨0x800010, 0x0, 1, 0x0, 1, [⟨31, 0, .rw, 0, []⟩]⟩,
  -- FAB_SWAP_AT_HI, R323
  ⟨0x800014, 0x0, 1, 0x0, 1, [⟨31, 0, .rw, 0, []⟩]⟩,
  -- FAB_STATUS, R323
  ⟨0x800018, 0x0, 1, 0x0, 1, [⟨23, 16, .ro, 0, []⟩, ⟨8, 8, .w1c, 0, []⟩, ⟨7, 7, .w1c, 0, []⟩, ⟨6, 6, .ro, 0, []⟩, ⟨5, 5, .ro, 0, []⟩, ⟨4, 4, .ro, 0, []⟩, ⟨1, 0, .ro, 0, []⟩]⟩,
  -- FAB_ERROR, R323
  ⟨0x80001c, 0x0, 1, 0x0, 1, [⟨31, 16, .ro, 0, []⟩, ⟨15, 8, .ro, 0, []⟩, ⟨7, 0, .ro, 0, []⟩]⟩,
  -- FAB_ACTIVE_SERIAL_LO, R323
  ⟨0x800020, 0x0, 1, 0x0, 1, [⟨31, 0, .ro, 0, []⟩]⟩,
  -- FAB_ACTIVE_SERIAL_HI, R323
  ⟨0x800024, 0x0, 1, 0x0, 1, [⟨31, 0, .ro, 0, []⟩]⟩,
  -- FAB_SHADOW_SERIAL_LO, R323
  ⟨0x800028, 0x0, 1, 0x0, 1, [⟨31, 0, .ro, 0, []⟩]⟩,
  -- FAB_SHADOW_SERIAL_HI, R323
  ⟨0x80002c, 0x0, 1, 0x0, 1, [⟨31, 0, .ro, 0, []⟩]⟩,
  -- FAB_LAST_SWAP_LO, R323
  ⟨0x800030, 0x0, 1, 0x0, 1, [⟨31, 0, .ro, 0, []⟩]⟩,
  -- FAB_LAST_SWAP_HI, R323
  ⟨0x800034, 0x0, 1, 0x0, 1, [⟨31, 0, .ro, 0, []⟩]⟩]

/-- Device registers and function-page registers, part 1. -/
def devRegDefs1 : List RegDef := [
  -- FAB_CLAIM, R323
  ⟨0x800040, 0x0, 1, 0x0, 1, [⟨16, 16, .wo, 0, []⟩, ⟨15, 8, .wo, 0, []⟩, ⟨2, 0, .wo, 0, []⟩]⟩,
  -- FAB_CLAIM_RESULT, R323
  ⟨0x800044, 0x0, 1, 0x0, 1, [⟨1, 0, .ro, 0, []⟩]⟩,
  -- CLK_OP_TARGET, R341
  ⟨0x100000, 0x0, 1, 0x0, 1, [⟨3, 0, .rw, 4, []⟩]⟩,
  -- CLK_OP_SWITCH_AT_LO, R341
  ⟨0x100008, 0x0, 1, 0x0, 1, [⟨31, 0, .rw, 0, []⟩]⟩,
  -- CLK_OP_SWITCH_AT_HI, R341
  ⟨0x10000c, 0x0, 1, 0x0, 1, [⟨31, 0, .rw, 0, []⟩]⟩,
  -- CLK_OP_STATUS, R341
  ⟨0x100010, 0x0, 1, 0x0, 1, [⟨23, 20, .ro, 0, []⟩, ⟨16, 16, .w1c, 0, []⟩, ⟨13, 13, .ro, 0, []⟩, ⟨12, 12, .ro, 0, []⟩, ⟨11, 11, .ro, 0, []⟩, ⟨7, 4, .ro, 4, []⟩, ⟨3, 0, .ro, 4, []⟩]⟩,
  -- CLK_OP_LAST_LO, R341
  ⟨0x100018, 0x0, 1, 0x0, 1, [⟨31, 0, .ro, 0, []⟩]⟩,
  -- CLK_OP_LAST_HI, R341
  ⟨0x10001c, 0x0, 1, 0x0, 1, [⟨31, 0, .ro, 0, []⟩]⟩,
  -- CLK_REF_STATUS, R341
  ⟨0x100020, 0x0, 1, 0x0, 1, [⟨5, 5, .w1c, 0, []⟩, ⟨4, 4, .w1c, 0, []⟩, ⟨3, 3, .w1c, 0, []⟩, ⟨2, 2, .ro, 0, []⟩, ⟨1, 1, .ro, 0, []⟩, ⟨0, 0, .ro, 0, []⟩]⟩,
  -- CLK_SEAM_ALARM, R341
  ⟨0x100024, 0x0, 1, 0x0, 1, [⟨31, 16, .ro, 0, []⟩, ⟨9, 9, .ro, 0, []⟩, ⟨8, 0, .ro, 0, []⟩]⟩,
  -- CLK_WING_RUN, R341
  ⟨0x100028, 0x0, 1, 0x0, 1, [⟨15, 0, .ro, 0, []⟩]⟩,
  -- TIME_NOW_LO, R342
  ⟨0x900000, 0x0, 1, 0x0, 1, [⟨31, 0, .ro, 0, []⟩]⟩,
  -- TIME_NOW_HI, R342
  ⟨0x900004, 0x0, 1, 0x0, 1, [⟨31, 0, .ro, 0, []⟩]⟩,
  -- TIM_SYNC_CTL, R342
  ⟨0x900010, 0x0, 1, 0x0, 1, [⟨12, 12, .rw, 0, []⟩, ⟨11, 7, .rw, 0, []⟩, ⟨6, 6, .rw, 0, []⟩, ⟨1, 0, .rw, 0, [(0, 2)]⟩]⟩,
  -- TIM_SYNC_STATUS, R342
  ⟨0x900014, 0x0, 1, 0x0, 1, [⟨31, 16, .ro, 0, []⟩, ⟨4, 4, .w1c, 0, []⟩, ⟨3, 3, .w1c, 0, []⟩, ⟨2, 2, .w1c, 0, []⟩, ⟨1, 1, .ro, 0, []⟩]⟩,
  -- TIM_PIN_DELAY, R342
  ⟨0x900018, 0x0, 1, 0x0, 1, [⟨15, 0, .rw, 0, []⟩]⟩,
  -- TIM_CAPTURE_LO, R342
  ⟨0x900020, 0x0, 1, 0x0, 1, [⟨31, 0, .ro, 0, []⟩]⟩,
  -- TIM_CAPTURE_HI, R342
  ⟨0x900024, 0x0, 1, 0x0, 1, [⟨31, 0, .ro, 0, []⟩]⟩,
  -- TIM_PULSE_AT_LO, R342
  ⟨0x900028, 0x0, 1, 0x0, 1, [⟨31, 0, .rw, 0, []⟩]⟩,
  -- TIM_PULSE_AT_HI, R342
  ⟨0x90002c, 0x0, 1, 0x0, 1, [⟨31, 0, .rw, 0, []⟩]⟩,
  -- TIM_TIMER_CMP_LO, R342
  ⟨0x900100, 0x10, 32, 0x0, 1, [⟨31, 0, .rw, 0, []⟩]⟩,
  -- TIM_TIMER_CMP_HI, R342
  ⟨0x900104, 0x10, 32, 0x0, 1, [⟨31, 0, .rw, 0, []⟩]⟩,
  -- TIM_TIMER_CTL, R342
  ⟨0x900108, 0x10, 32, 0x0, 1, [⟨31, 31, .w1c, 0, []⟩, ⟨30, 30, .ro, 0, []⟩, ⟨29, 28, .rw, 0, [(0, 2)]⟩, ⟨27, 26, .rw, 0, []⟩, ⟨25, 22, .rw, 0, []⟩, ⟨21, 21, .w1c, 0, []⟩, ⟨11, 0, .rw, 0, []⟩]⟩,
  -- PWR_CAP_W, R368
  ⟨0x200000, 0x0, 1, 0x0, 1, [⟨15, 0, .rw, 0x1388, [(1500, 5000)]⟩]⟩,
  -- PWR_EST_W, R368
  ⟨0x200004, 0x0, 1, 0x0, 1, [⟨15, 0, .ro, 0, []⟩]⟩,
  -- PWR_MEAS_W, R368
  ⟨0x200008, 0x0, 1, 0x0, 1, [⟨15, 0, .ro, 0, []⟩]⟩,
  -- PWR_CAP_CTL, R368
  ⟨0x20000c, 0x0, 1, 0x0, 1, [⟨11, 0, .rw, 0x64, [(0, 500)]⟩]⟩,
  -- PWR_STATUS, R368
  ⟨0x200010, 0x0, 1, 0x0, 1, [⟨20, 20, .w1c, 0, []⟩, ⟨19, 19, .w1c, 0, []⟩, ⟨18, 18, .ro, 0, []⟩, ⟨17, 17, .ro, 0, []⟩, ⟨16, 16, .ro, 1, []⟩, ⟨7, 4, .ro, 0, []⟩]⟩,
  -- PWR_TCAP_W, R368
  ⟨0x200014, 0x0, 1, 0x0, 1, [⟨15, 0, .ro, 0x1388, []⟩]⟩,
  -- PWR_WING_CTL, R368
  ⟨0x200020, 0x0, 1, 0x0, 1, [⟨17, 16, .wo, 0, [(0, 2)]⟩, ⟨3, 0, .wo, 0, []⟩]⟩]

/-- Device registers and function-page registers, part 2. -/
def devRegDefs2 : List RegDef := [
  -- PWR_WING_STATUS, R368
  ⟨0x200024, 0x0, 1, 0x0, 1, [⟨31, 24, .ro, 0, []⟩, ⟨20, 20, .ro, 0, []⟩, ⟨19, 16, .ro, 0, []⟩, ⟨15, 0, .ro, 0, []⟩]⟩,
  -- PWR_BRING_CTL, R368
  ⟨0x200030, 0x0, 1, 0x0, 1, [⟨8, 8, .rw, 0, []⟩, ⟨3, 0, .rw, 0, []⟩]⟩,
  -- PWR_BRING_STATUS, R368
  ⟨0x200034, 0x0, 1, 0x0, 1, [⟨31, 16, .ro, 0, []⟩, ⟨2, 2, .w1c, 0, []⟩, ⟨1, 1, .ro, 0, []⟩, ⟨0, 0, .ro, 0, []⟩]⟩,
  -- PWR_DROOP_CTL, R368
  ⟨0x200038, 0x0, 1, 0x0, 1, [⟨7, 0, .rw, 0x28, [(20, 80)]⟩]⟩,
  -- PWR_THR_TIME_LO, R368
  ⟨0x200040, 0x0, 1, 0x0, 1, [⟨31, 0, .ro, 0, []⟩]⟩,
  -- PWR_THR_TIME_HI, R368
  ⟨0x200044, 0x0, 1, 0x0, 1, [⟨31, 0, .ro, 0, []⟩]⟩,
  -- PWR_THR_LOST_LO, R368
  ⟨0x200048, 0x0, 1, 0x0, 1, [⟨31, 0, .ro, 0, []⟩]⟩,
  -- PWR_THR_LOST_HI, R368
  ⟨0x20004c, 0x0, 1, 0x0, 1, [⟨31, 0, .ro, 0, []⟩]⟩,
  -- PWR_VMIN, R369
  ⟨0x200100, 0x20, 16, 0x0, 1, [⟨31, 31, .wo, 0, []⟩, ⟨21, 16, .ro, 0, []⟩, ⟨9, 0, .ro, 0x3ff, []⟩]⟩,
  -- PWR_VMIN_TS_LO, R369
  ⟨0x200104, 0x20, 16, 0x0, 1, [⟨31, 0, .ro, 0, []⟩]⟩,
  -- PWR_VMIN_TS_HI, R369
  ⟨0x200108, 0x20, 16, 0x0, 1, [⟨31, 0, .ro, 0, []⟩]⟩,
  -- PWR_RAIL, R369
  ⟨0x20010c, 0x20, 16, 0x0, 1, [⟨31, 30, .ro, 0, []⟩, ⟨29, 16, .ro, 0, []⟩, ⟨9, 0, .ro, 0, []⟩]⟩,
  -- PWR_CAL, R369
  ⟨0x200110, 0x20, 17, 0x0, 1, [⟨31, 16, .ro, 0x4000, []⟩, ⟨15, 0, .ro, 0, []⟩]⟩,
  -- PWR_EST, R369
  ⟨0x200114, 0x20, 17, 0x0, 1, [⟨31, 16, .ro, 0, []⟩, ⟨15, 0, .ro, 0, []⟩]⟩,
  -- PWR_DROOP, R369
  ⟨0x200118, 0x20, 16, 0x0, 1, [⟨31, 0, .ro, 0, []⟩]⟩,
  -- THM_TRIP_STATUS, R370
  ⟨0x201000, 0x0, 1, 0x0, 1, [⟨31, 31, .w1c, 0, []⟩, ⟨12, 8, .ro, 0, []⟩, ⟨3, 0, .ro, 0, []⟩]⟩,
  -- THM_TRIP_TIME_LO, R370
  ⟨0x201004, 0x0, 1, 0x0, 1, [⟨31, 0, .ro, 0, []⟩]⟩,
  -- THM_TRIP_TIME_HI, R370
  ⟨0x201008, 0x0, 1, 0x0, 1, [⟨31, 0, .ro, 0, []⟩]⟩,
  -- THM_CTL, R370
  ⟨0x201010, 0x0, 1, 0x0, 1, [⟨15, 8, .rw, 0x5f, [(60, 105)]⟩, ⟨7, 0, .rw, 0x69, [(85, 105)]⟩]⟩,
  -- THM_STATUS, R370
  ⟨0x201014, 0x0, 1, 0x0, 1, [⟨3, 3, .w1c, 0, []⟩, ⟨2, 2, .w1c, 0, []⟩, ⟨1, 1, .ro, 0, []⟩, ⟨0, 0, .ro, 0, []⟩]⟩,
  -- THM, R370
  ⟨0x201100, 0x4, 16, 0x0, 1, [⟨31, 16, .ro, 0, []⟩, ⟨15, 0, .ro, 0, []⟩]⟩,
  -- CUR_BOOT_STATUS, R394
  ⟨0x0, 0x0, 1, 0x0, 1, [⟨31, 28, .ro, 0, []⟩, ⟨27, 24, .ro, 0, []⟩, ⟨23, 8, .ro, 0, []⟩, ⟨7, 7, .ro, 0, []⟩, ⟨6, 6, .ro, 0, []⟩, ⟨2, 0, .ro, 0, []⟩]⟩,
  -- CUR_BOOT_CTL, R394
  ⟨0x4, 0x0, 1, 0x0, 1, [⟨31, 16, .ro, 0, []⟩, ⟨0, 0, .rw, 0, []⟩]⟩,
  -- CUR_RESET_CMD, R394
  ⟨0x8, 0x0, 1, 0x0, 1, [⟨1, 0, .wo, 0, [(0, 2)]⟩]⟩,
  -- CUR_PART_RESET, R394
  ⟨0xc, 0x0, 1, 0x0, 1, [⟨7, 0, .wo, 0, []⟩]⟩,
  -- CUR_PART_RESET_STATUS, R394
  ⟨0x10, 0x0, 1, 0x0, 1, [⟨31, 31, .ro, 0, []⟩, ⟨30, 30, .w1c, 0, []⟩, ⟨7, 0, .ro, 0, []⟩]⟩,
  -- CUR_IFT_CTL, R394
  ⟨0x20, 0x0, 1, 0x0, 1, [⟨31, 31, .rw, 1, []⟩, ⟨15, 8, .rw, 0x48, [(0, 72)]⟩, ⟨7, 0, .rw, 0x18, [(1, 168)]⟩]⟩,
  -- CUR_IFT_GRANT, R394
  ⟨0x24, 0x0, 1, 0x0, 1, [⟨31, 24, .wo, 0, []⟩, ⟨23, 0, .wo, 0, []⟩]⟩,
  -- CUR_IFT_STATUS, R394
  ⟨0x28, 0x0, 1, 0x0, 1, [⟨31, 31, .w1c, 0, []⟩, ⟨30, 19, .ro, 0, []⟩, ⟨18, 7, .ro, 0, []⟩, ⟨6, 0, .ro, 0, []⟩]⟩,
  -- LNK_CTL, R409
  ⟨0x300000, 0x0, 1, 0x0, 1, [⟨3, 2, .rw, 2, [(1, 2)]⟩, ⟨0, 0, .rw, 0, []⟩]⟩]

/-- Device registers and function-page registers, part 3. -/
def devRegDefs3 : List RegDef := [
  -- LNK_STATUS, R409
  ⟨0x300004, 0x0, 1, 0x0, 1, [⟨0, 0, .ro, 0, []⟩]⟩,
  -- LNK_PORT_CTL, R409
  ⟨0x301000, 0x40, 32, 0x0, 1, [⟨16, 16, .w1c, 0, []⟩, ⟨9, 8, .rw, 0, [(0, 2)]⟩, ⟨1, 0, .wo, 0, []⟩]⟩,
  -- LNK_PORT_STATUS, R409
  ⟨0x301004, 0x40, 32, 0x0, 1, [⟨31, 28, .ro, 0, []⟩, ⟨27, 24, .ro, 0, []⟩, ⟨22, 20, .ro, 0, []⟩, ⟨19, 18, .ro, 0, []⟩, ⟨17, 17, .ro, 0, []⟩, ⟨16, 9, .ro, 0, []⟩, ⟨8, 0, .ro, 0, []⟩]⟩,
  -- LNK_PORT_LANES, R409
  ⟨0x301008, 0x40, 32, 0x0, 1, [⟨8, 0, .ro, 0, []⟩]⟩,
  -- LNK_PORT_PEER_LO, R409
  ⟨0x301010, 0x40, 32, 0x0, 1, [⟨31, 0, .ro, 0, []⟩]⟩,
  -- LNK_PORT_PEER_HI, R409
  ⟨0x301014, 0x40, 32, 0x0, 1, [⟨31, 0, .ro, 0, []⟩]⟩,
  -- LNK_PORT_PEER_ID, R409
  ⟨0x301018, 0x40, 32, 0x0, 1, [⟨31, 31, .ro, 0, []⟩, ⟨15, 0, .ro, 0, []⟩]⟩,
  -- LNK_PORT_REPLAY, R409
  ⟨0x30101c, 0x40, 32, 0x0, 1, [⟨31, 0, .ro, 0, []⟩]⟩,
  -- LNK_PORT_FEC_CORR, R409
  ⟨0x301020, 0x40, 32, 0x0, 1, [⟨31, 0, .ro, 0, []⟩]⟩,
  -- LNK_PORT_FEC_UNCORR, R409
  ⟨0x301024, 0x40, 32, 0x0, 1, [⟨31, 0, .ro, 0, []⟩]⟩,
  -- LNK_PORT_AUTH_FAIL, R409
  ⟨0x301028, 0x40, 32, 0x0, 1, [⟨31, 0, .ro, 0, []⟩]⟩,
  -- LNK_PORT_RETRAINS, R409
  ⟨0x30102c, 0x40, 32, 0x0, 1, [⟨31, 0, .ro, 0, []⟩]⟩,
  -- LNK_PORT_DROPPED, R409
  ⟨0x301030, 0x40, 32, 0x0, 1, [⟨31, 0, .ro, 0, []⟩]⟩,
  -- HST_MBX_VERSION, R424
  ⟨0x400000, 0x0, 1, 0x0, 1, [⟨15, 0, .ro, 1, []⟩]⟩,
  -- HST_MBX_CTL, R424
  ⟨0x400004, 0x0, 1, 0x0, 1, [⟨0, 0, .wo, 0, []⟩]⟩,
  -- HST_MBX_STATUS, R424
  ⟨0x400008, 0x0, 1, 0x0, 1, [⟨31, 16, .ro, 0, []⟩, ⟨9, 9, .ro, 0, []⟩, ⟨8, 8, .w1c, 0, []⟩, ⟨1, 0, .ro, 0, []⟩]⟩,
  -- HST_LINK_STATUS, R424
  ⟨0x400010, 0x0, 1, 0x0, 1, [⟨11, 11, .w1c, 0, []⟩, ⟨10, 10, .ro, 0, []⟩, ⟨9, 9, .ro, 0, []⟩, ⟨8, 8, .ro, 0, []⟩, ⟨7, 4, .ro, 0, []⟩, ⟨3, 0, .ro, 0, []⟩]⟩,
  -- HST_ERR, R424
  ⟨0x400014, 0x0, 1, 0x0, 1, [⟨31, 31, .w1c, 0, []⟩, ⟨25, 24, .ro, 0, []⟩, ⟨23, 0, .ro, 0, []⟩]⟩,
  -- HST_MSIX_RAISE, R424
  ⟨0x400040, 0x0, 1, 0x0, 1, [⟨31, 31, .w1c, 0, []⟩, ⟨13, 8, .wo, 0, []⟩, ⟨4, 0, .wo, 0, []⟩]⟩,
  -- HST_VF_BIND, R424
  ⟨0x400100, 0x4, 64, 0x0, 1, [⟨31, 31, .rw, 0, []⟩, ⟨30, 30, .w1c, 0, []⟩, ⟨29, 28, .ro, 0, []⟩, ⟨7, 0, .rw, 0, []⟩]⟩,
  -- FN_APER_BASE, R425
  ⟨0x10000000, 0x1000, 64, 0x0, 1, [⟨5, 0, .rw, 0, []⟩]⟩,
  -- FN_ERR, R425
  ⟨0x10000004, 0x1000, 64, 0x0, 1, [⟨31, 31, .w1c, 0, []⟩, ⟨1, 0, .ro, 0, []⟩]⟩,
  -- FN_ERR_ADDR_LO, R425
  ⟨0x10000008, 0x1000, 64, 0x0, 1, [⟨31, 0, .ro, 0, []⟩]⟩,
  -- FN_ERR_ADDR_HI, R425
  ⟨0x1000000c, 0x1000, 64, 0x0, 1, [⟨31, 0, .ro, 0, []⟩]⟩,
  -- FN_MSG_DEST_LO, R425
  ⟨0x10000010, 0x1000, 64, 0x0, 1, [⟨31, 0, .rw, 0, []⟩]⟩,
  -- FN_MSG_DEST_HI, R425
  ⟨0x10000014, 0x1000, 64, 0x0, 1, [⟨31, 0, .rw, 0, []⟩]⟩,
  -- FN_MSG_DATA, R425
  ⟨0x10000020, 0x1000, 64, 0x4, 8, [⟨31, 0, .rw, 0, []⟩]⟩,
  -- FN_MSG_CMD, R425
  ⟨0x10000040, 0x1000, 64, 0x0, 1, [⟨1, 0, .wo, 0, [(0, 2)]⟩]⟩,
  -- FN_MSG_STATUS, R425
  ⟨0x10000044, 0x1000, 64, 0x0, 1, [⟨31, 31, .ro, 0, []⟩, ⟨30, 30, .w1c, 0, []⟩, ⟨1, 0, .ro, 0, []⟩]⟩,
  -- FN_CH_RING_LO, R425
  ⟨0x10000100, 0x1000, 64, 0x20, 4, [⟨31, 0, .rw, 0, []⟩]⟩]

/-- Device registers and function-page registers, part 4. -/
def devRegDefs4 : List RegDef := [
  -- FN_CH_RING_HI, R425
  ⟨0x10000104, 0x1000, 64, 0x20, 4, [⟨31, 0, .rw, 0, []⟩]⟩,
  -- FN_CH_CFG, R425
  ⟨0x10000108, 0x1000, 64, 0x20, 4, [⟨31, 31, .rw, 0, []⟩, ⟨30, 30, .wo, 0, []⟩, ⟨3, 0, .rw, 4, [(4, 12)]⟩]⟩,
  -- FN_CH_TAIL, R425
  ⟨0x1000010c, 0x1000, 64, 0x20, 4, [⟨11, 0, .rw, 0, []⟩]⟩,
  -- FN_CH_HEAD, R425
  ⟨0x10000110, 0x1000, 64, 0x20, 4, [⟨11, 0, .ro, 0, []⟩]⟩,
  -- FN_CH_STATUS, R425
  ⟨0x10000114, 0x1000, 64, 0x20, 4, [⟨31, 31, .ro, 0, []⟩, ⟨30, 30, .ro, 0, []⟩, ⟨7, 0, .ro, 0, []⟩]⟩,
  -- SEC_CTL, R448
  ⟨0x500000, 0x0, 1, 0x0, 1, [⟨0, 0, .rw, 1, []⟩]⟩,
  -- SEC_ECC_THRESH, R448
  ⟨0x500004, 0x0, 1, 0x0, 1, [⟨31, 0, .rw, 0x3e8, []⟩]⟩,
  -- SEC_DEBUG_SEEN, R448
  ⟨0x500008, 0x0, 1, 0x0, 1, [⟨3, 3, .ro, 0, []⟩, ⟨2, 2, .ro, 0, []⟩, ⟨1, 1, .ro, 0, []⟩, ⟨0, 0, .ro, 0, []⟩]⟩,
  -- SEC_DEBUG_TIME_LO, R448
  ⟨0x50000c, 0x0, 1, 0x0, 1, [⟨31, 0, .ro, 0, []⟩]⟩,
  -- SEC_DEBUG_TIME_HI, R448
  ⟨0x500010, 0x0, 1, 0x0, 1, [⟨31, 0, .ro, 0, []⟩]⟩,
  -- SEC_SCRUB_CTL, R448
  ⟨0x500020, 0x0, 1, 0x0, 1, [⟨31, 31, .w1c, 0, []⟩, ⟨17, 16, .wo, 0, [(0, 2)]⟩, ⟨7, 0, .wo, 0, []⟩]⟩,
  -- SEC_SCRUB_STATUS, R448
  ⟨0x500024, 0x0, 1, 0x0, 1, [⟨31, 16, .ro, 0, []⟩, ⟨11, 0, .ro, 0, []⟩]⟩,
  -- SEC_SCRUBBING, R448
  ⟨0x500040, 0x4, 8, 0x0, 1, [⟨31, 0, .ro, 0, []⟩]⟩,
  -- SEC_PART_FAILED, R448
  ⟨0x500060, 0x4, 8, 0x0, 1, [⟨31, 0, .ro, 0, []⟩]⟩,
  -- SEC_FENCE_CHECK, R448
  ⟨0x500080, 0x0, 1, 0x0, 1, [⟨7, 0, .wo, 0, []⟩]⟩,
  -- SEC_FENCE_RESULT, R448
  ⟨0x500084, 0x0, 1, 0x0, 1, [⟨31, 31, .ro, 0, []⟩, ⟨2, 0, .ro, 0, []⟩]⟩,
  -- SEC_VIOL_EXT, R448
  ⟨0x500088, 0x0, 1, 0x0, 1, [⟨31, 0, .ro, 0, []⟩]⟩,
  -- DBG_CORE_CMD, R449
  ⟨0xa00000, 0x0, 1, 0x0, 1, [⟨27, 16, .wo, 0, []⟩, ⟨13, 12, .wo, 0, []⟩, ⟨2, 0, .wo, 0, [(0, 5)]⟩]⟩,
  -- DBG_CORE_STATUS, R449
  ⟨0xa00004, 0x0, 1, 0x0, 1, [⟨31, 31, .w1c, 0, []⟩, ⟨3, 3, .ro, 0, []⟩, ⟨2, 0, .ro, 0, []⟩]⟩,
  -- DBG_ACC_ADDR_LO, R449
  ⟨0xa00010, 0x0, 1, 0x0, 1, [⟨31, 0, .rw, 0, []⟩]⟩,
  -- DBG_ACC_ADDR_HI, R449
  ⟨0xa00014, 0x0, 1, 0x0, 1, [⟨31, 0, .rw, 0, []⟩]⟩,
  -- DBG_ACC_DATA, R449
  ⟨0xa00018, 0x0, 1, 0x0, 1, [⟨31, 0, .rw, 0, []⟩]⟩,
  -- DBG_ACC_CMD, R449
  ⟨0xa0001c, 0x0, 1, 0x0, 1, [⟨31, 31, .ro, 0, []⟩, ⟨30, 30, .w1c, 0, []⟩, ⟨9, 8, .wo, 0, [(0, 1)]⟩, ⟨1, 0, .wo, 0, [(0, 2)]⟩]⟩,
  -- DBG_TRACE_CTL, R449
  ⟨0xa00100, 0x4, 8, 0x0, 1, [⟨31, 31, .rw, 0, []⟩, ⟨30, 30, .ro, 0, []⟩, ⟨29, 17, .ro, 0, []⟩, ⟨16, 5, .rw, 0, []⟩, ⟨4, 4, .w1c, 0, []⟩, ⟨3, 0, .rw, 0, []⟩]⟩,
  -- DBG_CNT_CTL, R449
  ⟨0xa01000, 0x80, 64, 0x0, 1, [⟨31, 31, .rw, 0, []⟩, ⟨28, 28, .w1c, 0, []⟩, ⟨27, 16, .rw, 0, []⟩, ⟨15, 0, .rw, 0, []⟩]⟩,
  -- DBG_CNT_SEL, R449
  ⟨0xa01004, 0x80, 64, 0x4, 8, [⟨19, 0, .rw, 0, []⟩]⟩,
  -- DBG_CNT_VAL, R449
  ⟨0xa01024, 0x80, 64, 0x4, 8, [⟨31, 0, .ro, 0, []⟩]⟩,
  -- DBG_CNT_TIME_LO, R449
  ⟨0xa01048, 0x80, 64, 0x0, 1, [⟨31, 0, .ro, 0, []⟩]⟩,
  -- DBG_CNT_TIME_HI, R449
  ⟨0xa0104c, 0x80, 64, 0x0, 1, [⟨31, 0, .ro, 0, []⟩]⟩,
  -- FLT_LOG_HEAD, R450
  ⟨0xb00000, 0x0, 1, 0x0, 1, [⟨31, 0, .rw, 0, []⟩]⟩]

/-- Device registers and function-page registers, part 5. -/
def devRegDefs5 : List RegDef := [
  -- FLT_LOG_TAIL, R450
  ⟨0xb00004, 0x0, 1, 0x0, 1, [⟨31, 0, .ro, 0, []⟩]⟩,
  -- FLT_LOG_LOST, R450
  ⟨0xb00008, 0x0, 1, 0x0, 1, [⟨31, 0, .ro, 0, []⟩]⟩]

/-- Device registers and function-page registers. -/
def devRegDefs : List RegDef := devRegDefs0 ++ devRegDefs1 ++ devRegDefs2 ++ devRegDefs3 ++ devRegDefs4 ++ devRegDefs5

/-- Tile registers, part 0. -/
def tileRegDefs0 : List RegDef := [
  -- ENG_ARR_CTL, R71
  ⟨0x300, 0x0, 1, 0x0, 1, [⟨1, 1, .wo, 0, []⟩, ⟨0, 0, .rw, 1, []⟩]⟩,
  -- ENG_ARR_ACTIVE_LO, R71
  ⟨0x308, 0x0, 1, 0x0, 1, [⟨31, 0, .ro, 0, []⟩]⟩,
  -- ENG_ARR_ACTIVE_HI, R71
  ⟨0x30c, 0x0, 1, 0x0, 1, [⟨31, 0, .ro, 0, []⟩]⟩,
  -- ENG_ARR_VOID_LO, R71
  ⟨0x310, 0x0, 1, 0x0, 1, [⟨31, 0, .ro, 0, []⟩]⟩,
  -- ENG_ARR_VOID_HI, R71
  ⟨0x314, 0x0, 1, 0x0, 1, [⟨31, 0, .ro, 0, []⟩]⟩,
  -- ENG_ARR_FRZ_STREAM, R71
  ⟨0x318, 0x0, 1, 0x0, 1, [⟨31, 0, .ro, 0, []⟩]⟩,
  -- ENG_ARR_FRZ_STAT, R71
  ⟨0x31c, 0x0, 1, 0x0, 1, [⟨31, 0, .ro, 0, []⟩]⟩,
  -- ENG_ARR_FRZ_ACC, R71
  ⟨0x320, 0x0, 1, 0x0, 1, [⟨31, 0, .ro, 0, []⟩]⟩,
  -- ENG_ARR_RELOADS, R71
  ⟨0x324, 0x0, 1, 0x0, 1, [⟨31, 0, .ro, 0, []⟩]⟩,
  -- ENG_ARR_STATE, R71
  ⟨0x328, 0x0, 1, 0x0, 1, [⟨10, 10, .ro, 0, []⟩, ⟨9, 8, .ro, 0, []⟩, ⟨7, 4, .ro, 0, []⟩, ⟨3, 2, .ro, 0, []⟩, ⟨1, 1, .ro, 0, []⟩, ⟨0, 0, .ro, 0, []⟩]⟩,
  -- ENG_EXP_FLUSH, R92
  ⟨0x340, 0x0, 1, 0x0, 1, [⟨31, 0, .ro, 0, []⟩]⟩,
  -- ENG_EXP_OVF, R92
  ⟨0x344, 0x0, 1, 0x0, 1, [⟨31, 0, .ro, 0, []⟩]⟩,
  -- ENG_TERM_FLUSH, R92
  ⟨0x348, 0x0, 1, 0x0, 1, [⟨31, 0, .ro, 0, []⟩]⟩,
  -- ENG_CB_NARROW_LO, R92
  ⟨0x350, 0x0, 1, 0x0, 1, [⟨31, 0, .ro, 0xffffffff, []⟩]⟩,
  -- ENG_CB_NARROW_HI, R92
  ⟨0x354, 0x0, 1, 0x0, 1, [⟨31, 0, .ro, 0xffffffff, []⟩]⟩,
  -- QUANT_CTL, R101
  ⟨0x400, 0x80, 8, 0x0, 1, [⟨14, 14, .wo, 0, []⟩, ⟨13, 13, .wo, 0, []⟩, ⟨12, 11, .rw, 0, [(0, 2)]⟩, ⟨10, 6, .rw, 8, outputFormats⟩, ⟨5, 5, .rw, 0, []⟩, ⟨4, 1, .rw, 0, []⟩, ⟨0, 0, .rw, 0, []⟩]⟩,
  -- QUANT_SCALE, R101
  ⟨0x404, 0x80, 8, 0x0, 1, [⟨31, 0, .rw, 0x3f800000, [(0x00800000, 0x7F7FFFFF)]⟩]⟩,
  -- QUANT_MARGIN, R101
  ⟨0x408, 0x80, 8, 0x0, 1, [⟨31, 0, .rw, 0x3f800000, [(1065353216, 0x47800000)]⟩]⟩,
  -- QUANT_THRESH, R101
  ⟨0x40c, 0x80, 8, 0x0, 1, [⟨15, 0, .rw, 0, []⟩]⟩,
  -- QUANT_STAT_COUNT_LO, R101
  ⟨0x410, 0x80, 8, 0x0, 1, [⟨31, 0, .ro, 0, []⟩]⟩,
  -- QUANT_STAT_COUNT_HI, R101
  ⟨0x414, 0x80, 8, 0x0, 1, [⟨31, 0, .ro, 0, []⟩]⟩,
  -- QUANT_STAT_CLIP_LO, R101
  ⟨0x418, 0x80, 8, 0x0, 1, [⟨31, 0, .ro, 0, []⟩]⟩,
  -- QUANT_STAT_CLIP_HI, R101
  ⟨0x41c, 0x80, 8, 0x0, 1, [⟨31, 0, .ro, 0, []⟩]⟩,
  -- QUANT_STAT_UFLOW, R101
  ⟨0x420, 0x80, 8, 0x0, 1, [⟨31, 0, .ro, 0, []⟩]⟩,
  -- QUANT_STAT_NONFIN, R101
  ⟨0x424, 0x80, 8, 0x0, 1, [⟨31, 0, .ro, 0, []⟩]⟩,
  -- QUANT_STAT_SCALE_SAT, R101
  ⟨0x428, 0x80, 8, 0x0, 1, [⟨31, 0, .ro, 0, []⟩]⟩,
  -- QUANT_STAT_AMAX, R101
  ⟨0x42c, 0x80, 8, 0x0, 1, [⟨31, 0, .ro, 0, []⟩]⟩,
  -- QUANT_STAT_LAST_AMAX, R101
  ⟨0x430, 0x80, 8, 0x0, 1, [⟨31, 0, .ro, 0, []⟩]⟩,
  -- QUANT_STAT_LAST_SHARE, R101
  ⟨0x434, 0x80, 8, 0x0, 1, [⟨31, 16, .ro, 0, []⟩, ⟨15, 0, .ro, 0, []⟩]⟩,
  -- QUANT_STAT_STEPS, R101
  ⟨0x438, 0x80, 8, 0x0, 1, [⟨31, 0, .ro, 0, []⟩]⟩]

/-- Tile registers, part 1. -/
def tileRegDefs1 : List RegDef := [
  -- QUANT_MERGE, R101
  ⟨0x43c, 0x80, 8, 0x0, 1, [⟨31, 0, .rw, 0, [(0, 0x7f7fffff), (2147483648, 0x80000000)]⟩]⟩,
  -- QUANT_HIST, R101
  ⟨0x440, 0x80, 8, 0x4, 16, [⟨31, 0, .ro, 0, []⟩]⟩,
  -- ENG_TREE_LOSS, R128
  ⟨0x358, 0x0, 1, 0x0, 1, [⟨31, 0, .ro, 0, []⟩]⟩,
  -- ENG_GROUP_RANGE, R128
  ⟨0x35c, 0x0, 1, 0x0, 1, [⟨31, 0, .ro, 0, []⟩]⟩,
  -- ENG_DRN_ROWS_LO, R128
  ⟨0x360, 0x0, 1, 0x0, 1, [⟨31, 0, .ro, 0, []⟩]⟩,
  -- ENG_DRN_ROWS_HI, R128
  ⟨0x364, 0x0, 1, 0x0, 1, [⟨31, 0, .ro, 0, []⟩]⟩,
  -- ENG_DRN_STALL, R128
  ⟨0x368, 0x0, 1, 0x0, 1, [⟨31, 0, .ro, 0, []⟩]⟩,
  -- ENG_ACC_ECC, R128
  ⟨0x36c, 0x0, 1, 0x0, 1, [⟨31, 0, .ro, 0, []⟩]⟩,
  -- TILE_CAP, R130
  ⟨0x4, 0x0, 1, 0x0, 1, [⟨31, 28, .ro, 0, []⟩, ⟨27, 24, .ro, 0, []⟩, ⟨23, 20, .ro, 0, []⟩, ⟨19, 16, .ro, 0, []⟩, ⟨15, 12, .ro, 0, []⟩, ⟨11, 8, .ro, 0, []⟩, ⟨7, 4, .ro, 0, []⟩]⟩,
  -- VIT_SEG_CTL, R147
  ⟨0x800, 0x0, 1, 0x0, 1, [⟨5, 4, .wo, 0, [(0, 2)]⟩, ⟨2, 0, .wo, 0, []⟩]⟩,
  -- VIT_SEG_STATE, R147
  ⟨0x804, 0x0, 1, 0x0, 1, [⟨24, 24, .w1c, 0, []⟩, ⟨23, 0, .ro, 0, []⟩]⟩,
  -- VIT_ECC_CORR, R147
  ⟨0x808, 0x0, 1, 0x0, 1, [⟨31, 0, .ro, 0, []⟩]⟩,
  -- VIT_ECC_UNCORR, R147
  ⟨0x80c, 0x0, 1, 0x0, 1, [⟨31, 0, .ro, 0, []⟩]⟩,
  -- VIT_ECC_ADDR, R147
  ⟨0x810, 0x0, 1, 0x0, 1, [⟨21, 2, .ro, 0, []⟩]⟩,
  -- VIT_REFUSED, R147
  ⟨0x820, 0x4, 4, 0x0, 1, [⟨31, 0, .ro, 0, []⟩]⟩,
  -- TILE_ID, R152
  ⟨0x0, 0x0, 1, 0x0, 1, [⟨31, 16, .ro, 0, []⟩, ⟨11, 0, .ro, 0, []⟩]⟩,
  -- TILE_STATE, R152
  ⟨0x8, 0x0, 1, 0x0, 1, [⟨17, 17, .w1c, 0, []⟩, ⟨16, 16, .w1c, 0, []⟩, ⟨15, 0, .ro, 0, []⟩]⟩,
  -- TILE_START, R152
  ⟨0xc, 0x0, 1, 0x0, 1, [⟨9, 8, .wo, 0, []⟩, ⟨1, 0, .wo, 0, []⟩]⟩,
  -- TILE_ENTRY_LO, R152
  ⟨0x10, 0x0, 1, 0x0, 1, [⟨31, 0, .rw, 0, []⟩]⟩,
  -- TILE_ENTRY_HI, R152
  ⟨0x14, 0x0, 1, 0x0, 1, [⟨31, 0, .rw, 0, []⟩]⟩,
  -- TILE_ARG_LO, R152
  ⟨0x18, 0x0, 1, 0x0, 1, [⟨31, 0, .rw, 0, []⟩]⟩,
  -- TILE_ARG_HI, R152
  ⟨0x1c, 0x0, 1, 0x0, 1, [⟨31, 0, .rw, 0, []⟩]⟩,
  -- TILE_EXC_CAUSE, R152
  ⟨0x20, 0x0, 1, 0x0, 1, [⟨9, 8, .ro, 0, []⟩, ⟨5, 0, .ro, 0, []⟩]⟩,
  -- TILE_EXC_PC_LO, R152
  ⟨0x28, 0x0, 1, 0x0, 1, [⟨31, 0, .ro, 0, []⟩]⟩,
  -- TILE_EXC_PC_HI, R152
  ⟨0x2c, 0x0, 1, 0x0, 1, [⟨31, 0, .ro, 0, []⟩]⟩,
  -- TILE_EXC_VAL_LO, R152
  ⟨0x30, 0x0, 1, 0x0, 1, [⟨31, 0, .ro, 0, []⟩]⟩,
  -- TILE_EXC_VAL_HI, R152
  ⟨0x34, 0x0, 1, 0x0, 1, [⟨31, 0, .ro, 0, []⟩]⟩,
  -- ENG_STATUS, R217
  ⟨0x100, 0x0, 1, 0x0, 1, [⟨13, 13, .w1c, 0, []⟩, ⟨12, 12, .w1c, 0, []⟩, ⟨11, 11, .w1c, 0, []⟩, ⟨10, 10, .w1c, 0, []⟩, ⟨9, 8, .ro, 0, []⟩, ⟨6, 6, .ro, 0, []⟩, ⟨5, 4, .ro, 0, []⟩, ⟨3, 2, .ro, 0, []⟩, ⟨1, 0, .ro, 0, []⟩]⟩,
  -- ENG_QUEUE, R217
  ⟨0x104, 0x0, 1, 0x0, 1, [⟨30, 24, .ro, 0, []⟩, ⟨21, 16, .ro, 0, []⟩, ⟨13, 8, .ro, 0, []⟩]⟩,
  -- ENG_TOKEN, R217
  ⟨0x108, 0x4, 4, 0x0, 1, [⟨31, 0, .ro, 0, []⟩]⟩]

/-- Tile registers, part 2. -/
def tileRegDefs2 : List RegDef := [
  -- ENG_STALL_LIMIT, R217
  ⟨0x118, 0x0, 1, 0x0, 1, [⟨31, 0, .rw, 0x5f5e100, []⟩]⟩,
  -- ENG_XFER_STATUS, R217
  ⟨0x11c, 0x0, 1, 0x0, 1, [⟨9, 8, .ro, 0, []⟩, ⟨5, 4, .ro, 0, []⟩, ⟨1, 0, .ro, 0, []⟩]⟩,
  -- ENG_XFER_PC_LO, R217
  ⟨0x120, 0x0, 1, 0x0, 1, [⟨31, 0, .ro, 0, []⟩]⟩,
  -- ENG_XFER_PC_HI, R217
  ⟨0x124, 0x0, 1, 0x0, 1, [⟨31, 0, .ro, 0, []⟩]⟩,
  -- ENG_XFER_STALE, R217
  ⟨0x128, 0x0, 1, 0x0, 1, [⟨31, 0, .ro, 0, []⟩]⟩,
  -- ENG_XFER_CLOSED, R217
  ⟨0x12c, 0x0, 1, 0x0, 1, [⟨31, 0, .ro, 0, []⟩]⟩,
  -- ENG_XFER_UNREACH, R217
  ⟨0x130, 0x0, 1, 0x0, 1, [⟨31, 0, .ro, 0, []⟩]⟩,
  -- ENG_ACC_PENDING, R217
  ⟨0x134, 0x0, 1, 0x0, 1, [⟨23, 0, .ro, 0, []⟩]⟩,
  -- S_L2_CFG, R233
  ⟨0xa00, 0x0, 1, 0x0, 1, [⟨17, 17, .ro, 0, []⟩, ⟨16, 16, .w1c, 0, []⟩, ⟨4, 0, .rw, 0, [(0, 16)]⟩]⟩,
  -- S_EXT_EN, R238
  ⟨0xa10, 0x4, 4, 0x0, 1, [⟨2, 2, .rw, 0, []⟩, ⟨1, 1, .rw, 0, []⟩, ⟨0, 0, .rw, 0, []⟩]⟩,
  -- S_EXT_PEND, R238
  ⟨0xa20, 0x4, 4, 0x0, 1, [⟨2, 2, .w1c, 0, []⟩, ⟨1, 1, .w1c, 0, []⟩, ⟨0, 0, .w1c, 0, []⟩]⟩,
  -- S_CACHE_ECC_CORR, R238
  ⟨0xa30, 0x0, 1, 0x0, 1, [⟨31, 0, .ro, 0, []⟩]⟩,
  -- S_CACHE_ECC_UNCORR, R238
  ⟨0xa34, 0x0, 1, 0x0, 1, [⟨31, 0, .ro, 0, []⟩]⟩,
  -- S_CACHE_ECC_ADDR_LO, R238
  ⟨0xa38, 0x0, 1, 0x0, 1, [⟨31, 0, .ro, 0, []⟩]⟩,
  -- S_CACHE_ECC_ADDR_HI, R238
  ⟨0xa3c, 0x0, 1, 0x0, 1, [⟨31, 0, .ro, 0, []⟩]⟩,
  -- NET_Q_CTL, R280
  ⟨0xc10, 0x0, 1, 0x0, 1, [⟨9, 8, .wo, 0, [(0, 1)]⟩, ⟨5, 0, .wo, 0, []⟩]⟩,
  -- NET_Q_STATE, R280
  ⟨0x1000, 0x8, 64, 0x0, 1, [⟨31, 30, .ro, 0, []⟩, ⟨29, 20, .ro, 0, []⟩, ⟨11, 0, .ro, 0, []⟩]⟩,
  -- NET_Q_DROP, R280
  ⟨0x1004, 0x8, 64, 0x0, 1, [⟨31, 16, .ro, 0, []⟩, ⟨15, 0, .ro, 0, []⟩]⟩,
  -- NET_WIN_CMD, R283
  ⟨0xc18, 0x0, 1, 0x0, 1, [⟨17, 16, .wo, 0, [(0, 1)]⟩, ⟨7, 0, .wo, 0, []⟩]⟩,
  -- NET_WIN_STATUS, R283
  ⟨0xc1c, 0x0, 1, 0x0, 1, [⟨31, 31, .ro, 0, []⟩, ⟨30, 30, .w1c, 0, []⟩]⟩,
  -- CONC_CFG, R292
  ⟨0xe00, 0x20, 16, 0x0, 1, [⟨31, 31, .rw, 0, []⟩, ⟨30, 29, .rw, 0, []⟩, ⟨28, 28, .rw, 0, []⟩, ⟨25, 16, .rw, 0, []⟩, ⟨15, 0, .rw, 0, []⟩]⟩,
  -- CONC_ALLOC, R292
  ⟨0xe04, 0x20, 16, 0x0, 1, [⟨31, 16, .ro, 0, []⟩, ⟨15, 0, .ro, 0, []⟩]⟩,
  -- CONC_DEST_LO, R292
  ⟨0xe08, 0x20, 16, 0x0, 1, [⟨31, 0, .rw, 0, []⟩]⟩,
  -- CONC_DEST_HI, R292
  ⟨0xe0c, 0x20, 16, 0x0, 1, [⟨15, 0, .rw, 0, []⟩]⟩,
  -- CONC_NOTIFY, R292
  ⟨0xe10, 0x20, 16, 0x0, 1, [⟨31, 30, .rw, 0, [(0, 2)]⟩, ⟨29, 18, .rw, 0, []⟩, ⟨17, 14, .rw, 0, []⟩]⟩,
  -- CONC_STATE, R292
  ⟨0xe14, 0x20, 16, 0x0, 1, [⟨31, 31, .w1c, 0, []⟩, ⟨30, 30, .w1c, 0, []⟩, ⟨29, 28, .ro, 0, []⟩, ⟨27, 18, .ro, 0, []⟩]⟩,
  -- NET_SYNC_CTX, R301
  ⟨0x1400, 0x4, 256, 0x0, 1, [⟨31, 31, .ro, 0, []⟩, ⟨30, 28, .ro, 0, []⟩, ⟨27, 27, .ro, 0, []⟩, ⟨26, 26, .ro, 0, []⟩, ⟨25, 25, .ro, 0, []⟩, ⟨23, 16, .ro, 0, []⟩, ⟨1, 0, .wo, 0, []⟩]⟩,
  -- NET_STATUS, R302
  ⟨0xc00, 0x0, 1, 0x0, 1, [⟨4, 4, .w1c, 0, []⟩, ⟨3, 3, .w1c, 0, []⟩, ⟨2, 2, .w1c, 0, []⟩, ⟨1, 1, .w1c, 0, []⟩, ⟨0, 0, .w1c, 0, []⟩]⟩,
  -- NET_STALL_LIMIT, R302
  ⟨0xc04, 0x0, 1, 0x0, 1, [⟨31, 0, .rw, 0x5f5e100, []⟩]⟩,
  -- NET_FLIT_CORR, R302
  ⟨0xc08, 0x0, 1, 0x0, 1, [⟨31, 0, .ro, 0, []⟩]⟩]

/-- Tile registers, part 3. -/
def tileRegDefs3 : List RegDef := [
  -- NET_FLIT_UNCORR, R302
  ⟨0xc0c, 0x0, 1, 0x0, 1, [⟨31, 0, .ro, 0, []⟩]⟩,
  -- NET_UNREACH_SENT, R302
  ⟨0xc14, 0x0, 1, 0x0, 1, [⟨31, 0, .ro, 0, []⟩]⟩,
  -- NET_DROP_STALE, R302
  ⟨0xc20, 0x0, 1, 0x0, 1, [⟨31, 0, .ro, 0, []⟩]⟩,
  -- NET_DROP_CLOSED, R302
  ⟨0xc24, 0x0, 1, 0x0, 1, [⟨31, 0, .ro, 0, []⟩]⟩,
  -- NET_STALL_WHERE, R302
  ⟨0xc28, 0x0, 1, 0x0, 1, [⟨8, 6, .ro, 0, []⟩, ⟨5, 4, .ro, 0, []⟩]⟩,
  -- NET_COMPL_LOST, R302
  ⟨0xc2c, 0x0, 1, 0x0, 1, [⟨31, 0, .ro, 0, []⟩]⟩,
  -- TILE_RESET, R395
  ⟨0x24, 0x0, 1, 0x0, 1, [⟨31, 31, .ro, 0, []⟩, ⟨30, 30, .w1c, 0, []⟩, ⟨0, 0, .wo, 0, []⟩]⟩,
  -- TILE_IFT_STATUS, R395
  ⟨0x40, 0x0, 1, 0x0, 1, [⟨31, 30, .ro, 0, []⟩, ⟨29, 29, .ro, 0, []⟩]⟩,
  -- TILE_IFT_LAST_LO, R395
  ⟨0x48, 0x0, 1, 0x0, 1, [⟨31, 0, .ro, 0, []⟩]⟩,
  -- TILE_IFT_LAST_HI, R395
  ⟨0x4c, 0x0, 1, 0x0, 1, [⟨31, 0, .ro, 0, []⟩]⟩,
  -- VIOL_COUNT, R448
  ⟨0x50, 0x0, 1, 0x0, 1, [⟨31, 0, .ro, 0, []⟩]⟩]

/-- Tile registers. -/
def tileRegDefs : List RegDef := tileRegDefs0 ++ tileRegDefs1 ++ tileRegDefs2 ++ tileRegDefs3

/-- The _LO registers of the device pairs (R7). -/
def devPairs : List RegDef := [
  -- MEM_STK_ERR_ADDR_LO, R258
  ⟨0x600118, 0x40, 32, 0x0, 1, []⟩,
  -- FAB_SWAP_AT_LO, R323
  ⟨0x800010, 0x0, 1, 0x0, 1, []⟩,
  -- FAB_ACTIVE_SERIAL_LO, R323
  ⟨0x800020, 0x0, 1, 0x0, 1, []⟩,
  -- FAB_SHADOW_SERIAL_LO, R323
  ⟨0x800028, 0x0, 1, 0x0, 1, []⟩,
  -- FAB_LAST_SWAP_LO, R323
  ⟨0x800030, 0x0, 1, 0x0, 1, []⟩,
  -- CLK_OP_SWITCH_AT_LO, R341
  ⟨0x100008, 0x0, 1, 0x0, 1, []⟩,
  -- CLK_OP_LAST_LO, R341
  ⟨0x100018, 0x0, 1, 0x0, 1, []⟩,
  -- TIME_NOW_LO, R342
  ⟨0x900000, 0x0, 1, 0x0, 1, []⟩,
  -- TIM_CAPTURE_LO, R342
  ⟨0x900020, 0x0, 1, 0x0, 1, []⟩,
  -- TIM_PULSE_AT_LO, R342
  ⟨0x900028, 0x0, 1, 0x0, 1, []⟩,
  -- TIM_TIMER_CMP_LO, R342
  ⟨0x900100, 0x10, 32, 0x0, 1, []⟩,
  -- PWR_THR_TIME_LO, R368
  ⟨0x200040, 0x0, 1, 0x0, 1, []⟩,
  -- PWR_THR_LOST_LO, R368
  ⟨0x200048, 0x0, 1, 0x0, 1, []⟩,
  -- PWR_VMIN_TS_LO, R369
  ⟨0x200104, 0x20, 16, 0x0, 1, []⟩,
  -- THM_TRIP_TIME_LO, R370
  ⟨0x201004, 0x0, 1, 0x0, 1, []⟩,
  -- LNK_PORT_PEER_LO, R409
  ⟨0x301010, 0x40, 32, 0x0, 1, []⟩,
  -- FN_ERR_ADDR_LO, R425
  ⟨0x10000008, 0x1000, 64, 0x0, 1, []⟩,
  -- FN_MSG_DEST_LO, R425
  ⟨0x10000010, 0x1000, 64, 0x0, 1, []⟩,
  -- FN_CH_RING_LO, R425
  ⟨0x10000100, 0x1000, 64, 0x20, 4, []⟩,
  -- SEC_DEBUG_TIME_LO, R448
  ⟨0x50000c, 0x0, 1, 0x0, 1, []⟩,
  -- DBG_ACC_ADDR_LO, R449
  ⟨0xa00010, 0x0, 1, 0x0, 1, []⟩,
  -- DBG_CNT_TIME_LO, R449
  ⟨0xa01048, 0x80, 64, 0x0, 1, []⟩]

/-- The _LO registers of the tile pairs (R7). -/
def tilePairs : List RegDef := [
  -- ENG_ARR_ACTIVE_LO, R71
  ⟨0x308, 0x0, 1, 0x0, 1, []⟩,
  -- ENG_ARR_VOID_LO, R71
  ⟨0x310, 0x0, 1, 0x0, 1, []⟩,
  -- ENG_CB_NARROW_LO, R92
  ⟨0x350, 0x0, 1, 0x0, 1, []⟩,
  -- QUANT_STAT_COUNT_LO, R101
  ⟨0x410, 0x80, 8, 0x0, 1, []⟩,
  -- QUANT_STAT_CLIP_LO, R101
  ⟨0x418, 0x80, 8, 0x0, 1, []⟩,
  -- ENG_DRN_ROWS_LO, R128
  ⟨0x360, 0x0, 1, 0x0, 1, []⟩,
  -- TILE_ENTRY_LO, R152
  ⟨0x10, 0x0, 1, 0x0, 1, []⟩,
  -- TILE_ARG_LO, R152
  ⟨0x18, 0x0, 1, 0x0, 1, []⟩,
  -- TILE_EXC_PC_LO, R152
  ⟨0x28, 0x0, 1, 0x0, 1, []⟩,
  -- TILE_EXC_VAL_LO, R152
  ⟨0x30, 0x0, 1, 0x0, 1, []⟩,
  -- ENG_XFER_PC_LO, R217
  ⟨0x120, 0x0, 1, 0x0, 1, []⟩,
  -- S_CACHE_ECC_ADDR_LO, R238
  ⟨0xa38, 0x0, 1, 0x0, 1, []⟩,
  -- CONC_DEST_LO, R292
  ⟨0xe08, 0x20, 16, 0x0, 1, []⟩,
  -- TILE_IFT_LAST_LO, R395
  ⟨0x48, 0x0, 1, 0x0, 1, []⟩]

/-- Does the definition cover the key? -/
def RegDef.covers (d : RegDef) (a : Nat) : Bool :=
  (List.range d.count2).any fun j =>
    let b := d.base + d.stride2 * j
    b ≤ a && (if d.stride = 0 then a == b else (a - b) % d.stride == 0 && (a - b) / d.stride < d.count)

/-- The register at a key, if the spec gives one. -/
def findReg (ds : List RegDef) (a : Nat) : Option RegDef := ds.find? (·.covers a)

/-- The reset value that a register's field table gives. -/
def RegDef.resetValue (d : RegDef) : BitVec 32 :=
  d.fields.foldl (fun v f => v ||| BitVec.ofNat 32 (f.reset <<< f.lo)) 0

/-- The bits of field f of a word. -/
def Field.get (f : Field) (v : BitVec 32) : Nat := (v.toNat >>> f.lo) % 2 ^ (f.hi - f.lo + 1)

/-- The mask of field f. -/
def Field.mask (f : Field) : BitVec 32 := BitVec.ofNat 32 ((2 ^ (f.hi - f.lo + 1) - 1) <<< f.lo)

/-- Is the value one that the field's table defines (R8)? -/
def Field.defines (f : Field) (n : Nat) : Bool :=
  f.legal.isEmpty || f.legal.any fun r => r.1 ≤ n && n ≤ r.2

/-- R6 and R8: what a write of w does to one field of a register that holds v. -/
def Field.write (f : Field) (w v : BitVec 32) : BitVec 32 :=
  match f.acc with
  | .rw => if f.defines (f.get w) then (v &&& ~~~f.mask) ||| (w &&& f.mask) else v
  | .w1c => v &&& ~~~(w &&& f.mask)
  | .w1s => v ||| (w &&& f.mask)
  | .ro | .wo | .rsv => v

/-- R6: a write to a register sets each field under its access code. -/
def RegDef.write (d : RegDef) (w v : BitVec 32) : BitVec 32 := d.fields.foldl (fun v f => f.write w v) v

/-- R6: what a read returns of one field; a WO field and a reserved field read 0. -/
def Field.readMask (f : Field) : BitVec 32 :=
  match f.acc with
  | .wo | .rsv => 0
  | .ro | .rw | .w1c | .w1s => f.mask

/-- R6: the value a read returns of a register that holds v. -/
def RegDef.read (d : RegDef) (v : BitVec 32) : BitVec 32 :=
  v &&& d.fields.foldl (fun m f => m ||| f.readMask) 0

end Sys2Proof.Machine
end

