-- ==== Sys2Proof/Machine/Ops.lean ====
section
/-! DEFINITION. The named operations over the state that every family uses: register and field access (R4-R8), site
access and geometry (R20-R23), partitions and rights (R310, R322, R428), fault records (R445-R447), and the outcome
of a command. -/

namespace Sys2Proof.Machine

/-- The outcome of every meaning. -/
abbrev Result := Host.Outcome State Fault Refusal

/-- The bits [hi:lo] of a register value. -/
def getBits (v : BitVec 32) (hi lo : Nat) : Nat := (v.toNat >>> lo) % 2 ^ (hi - lo + 1)

/-- v with n, cut to the field's width, in bits [hi:lo]. -/
def putBits (v : BitVec 32) (hi lo n : Nat) : BitVec 32 :=
  let mask := BitVec.ofNat 32 ((2 ^ (hi - lo + 1) - 1) <<< lo)
  (v &&& ~~~mask) ||| (BitVec.ofNat 32 (n <<< lo) &&& mask)

/-- R402: the CRC-64 of ECMA-182, one bit at a time, most significant bit of a byte first, continued from c. -/
def crcBit (c : BitVec 64) (b : Bool) : BitVec 64 :=
  let top := c.getLsbD 63
  if top != b then (c <<< 1) ^^^ 0x42F0E1EBA9EA3693 else c <<< 1
def crcByte (c : BitVec 64) (b : BitVec 8) : BitVec 64 :=
  [7, 6, 5, 4, 3, 2, 1, 0].foldl (fun c i => crcBit c (b.getLsbD i)) c
def crc64 (c : BitVec 64) (l : List (BitVec 8)) : BitVec 64 := l.foldl crcByte c

/-! ### Device registers -/

/-- The reset value of a device register. -/
def devReset (a : Nat) : BitVec 32 :=
  match findReg devRegDefs a with
  | some d => d.resetValue
  | none => 0

/-- The value that a device register holds. -/
def State.reg (s : State) (a : Nat) : BitVec 32 := Map.get devReset s.regs a

/-- Set a device register. -/
def State.setReg (s : State) (a : Nat) (v : BitVec 32) : State := { s with regs := Map.set devReset s.regs a v }

/-- A field of a device register. -/
def State.fld (s : State) (a hi lo : Nat) : Nat := getBits (s.reg a) hi lo

/-- Set a field of a device register. -/
def State.setFld (s : State) (a hi lo n : Nat) : State := s.setReg a (putBits (s.reg a) hi lo n)

/-- One bit of a device register. -/
def State.bit (s : State) (a i : Nat) : Bool := (s.reg a).getLsbD i

/-- Set one bit of a device register. -/
def State.setBit (s : State) (a i : Nat) (b : Bool) : State := s.setFld a i i b.toNat

/-- The 64-bit value of a _LO/_HI pair (R7). -/
def State.reg64 (s : State) (lo : Nat) : Nat := (s.reg lo).toNat + 2 ^ 32 * (s.reg (lo + 4)).toNat

/-- Set a _LO/_HI pair. -/
def State.setReg64 (s : State) (lo n : Nat) : State :=
  (s.setReg lo (BitVec.ofNat 32 n)).setReg (lo + 4) (BitVec.ofNat 32 (n / 2 ^ 32))

/-- R7: what a write of register a does to the values that pairs act with: one of _LO leaves the pair with the value it had until _HI is
written. -/
def holdLo (pairs : List RegDef) (held : List (Nat × BitVec 32)) (a : Nat) (old : BitVec 32) : List (Nat × BitVec 32) :=
  if (findReg pairs a).isSome then (if held.any fun e => e.1 == a then held else Map.insert a old held)
  else if 4 ≤ a && (findReg pairs (a - 4)).isSome then Map.erase (a - 4) held
  else held

/-- R7: the device acts on the pair of a _HI register with the value most recently written to _LO. -/
def State.takeLo (s : State) (a : Nat) : State := { s with loHeld := holdLo devPairs s.loHeld a (s.reg a) }

/-- R7: the value that a pair acts with. -/
def State.acted64 (s : State) (lo : Nat) : Nat :=
  (Map.get (fun _ => s.reg lo) s.loHeld lo).toNat + 2 ^ 32 * (s.reg (lo + 4)).toNat

/-- R6, R8: a write of w to a device register sets its fields under their access codes. -/
def State.regWrite (s : State) (a : Nat) (w : BitVec 32) : State :=
  match findReg devRegDefs a with
  | some d => (s.takeLo a).setReg a (d.write w (s.reg a))
  | none => s

/-- Add n to a count that saturates at all ones. -/
def satAdd (v : BitVec 32) (n : Nat) : BitVec 32 := BitVec.ofNat 32 (min (v.toNat + n) 0xFFFFFFFF)

/-- Add to a saturating count of a device register. -/
def State.bump (s : State) (a n : Nat) : State := s.setReg a (satAdd (s.reg a) n)

/-! ### Geometry -/

/-- The four tile kinds with the codes of R36. -/
inductive TileKind where
  | m | v | s | mi
deriving DecidableEq, Repr

/-- R36: the kind code. -/
def TileKind.code : TileKind → Nat
  | .m => 0
  | .v => 1
  | .s => 2
  | .mi => 3

/-- R21: the TileID names a site. -/
def siteExists (t : Nat) : Bool := t < 3072

/-- R21: the wing of a site. -/
def wingOf (t : Nat) : Nat := t / 64 / 12 * 4 + t % 64 / 16

/-- R22: the kind of a site, from its wing-local column and row. -/
def kindOf (t : Nat) : TileKind :=
  let col := t % 64 % 16
  let row := t / 64 % 12
  if col == 7 || col == 8 then
    if row == 0 || row == 3 || row == 8 || row == 11 then .s else .v
  else if (row == 5 || row == 6) && (col == 3 || col == 4 || col == 11 || col == 12) then .mi
  else .m

/-- R20: the sites of a wing, in ascending TileID. -/
def wingSites (w : Nat) : List Nat :=
  (List.range 192).map fun i => (w / 4 * 12 + i / 16) * 64 + w % 4 * 16 + i % 16

/-- R23: the stack that an MI site serves and the first of its eight channels. -/
def miStack (t : Nat) : Nat × Nat :=
  let col := t % 64 % 16
  let row := t / 64 % 12
  (2 * wingOf t + (if col < 8 then 0 else 1), ((if row == 5 then 0 else 2) + (if col == 3 || col == 11 then 0 else 1)) * 8)

/-- R23: the MI site that serves a channel of a stack. -/
def miSite (stack channel : Nat) : Nat :=
  let w := stack / 2
  let q := channel / 8
  let col := (if stack % 2 == 0 then 3 else 11) + q % 2
  let row := 5 + q / 2
  (w / 4 * 12 + row) * 64 + w % 4 * 16 + col

/-- R153: the number of cores of a site of a kind. -/
def TileKind.cores : TileKind → Nat
  | .m => 1
  | .v => 1
  | .s => 4
  | .mi => 0

/-! ### Sites and tile registers -/

/-- A site. -/
def State.site (s : State) (t : Nat) : Site := Map.get (fun _ => Site.reset) s.sites t

/-- Replace a site. -/
def State.setSite (s : State) (t : Nat) (x : Site) : State := { s with sites := Map.set (fun _ => Site.reset) s.sites t x }

/-- Change a site. -/
def State.modSite (s : State) (t : Nat) (f : Site → Site) : State := s.setSite t (f (s.site t))

/-- R130: the reset value of TILE_CAP by kind. -/
def tileCap (k : TileKind) : Nat :=
  match k with
  | .m => 0x0A555A30
  | .v => 0x19006020
  | .s => 0x20000000
  | .mi => 0x30000000

/-- R147: the reset value of VIT_SEG_STATE by kind. -/
def segReset (k : TileKind) : Nat :=
  match k with
  | .m => 0
  | .v => 0x00FFF000
  | .s => 0x00FFFFFF
  | .mi => 0x00FFFFFF

/-- R152: the reset value of TILE_STATE's core field by kind. -/
def tileStateReset (k : TileKind) : Nat :=
  match k with
  | .m => 0x7770
  | .v => 0x7770
  | .s => 0
  | .mi => 0x7777

/-- The reset value of a tile register of site t. -/
def tileReset (t a : Nat) : BitVec 32 :=
  if a = R.TILE_CAP then BitVec.ofNat 32 (tileCap (kindOf t))
  else if a = R.VIT_SEG_STATE then BitVec.ofNat 32 (segReset (kindOf t))
  else if a = R.TILE_STATE then BitVec.ofNat 32 (tileStateReset (kindOf t))
  else match findReg tileRegDefs a with
    | some d => d.resetValue
    | none => 0

/-- The value that a tile register holds. -/
def State.treg (s : State) (t a : Nat) : BitVec 32 := Map.get (tileReset t) (s.site t).regs a

/-- Set a tile register. -/
def State.setTreg (s : State) (t a : Nat) (v : BitVec 32) : State :=
  s.modSite t fun x => { x with regs := Map.set (tileReset t) x.regs a v }

/-- A field of a tile register. -/
def State.tfld (s : State) (t a hi lo : Nat) : Nat := getBits (s.treg t a) hi lo

/-- Set a field of a tile register. -/
def State.setTfld (s : State) (t a hi lo n : Nat) : State := s.setTreg t a (putBits (s.treg t a) hi lo n)

/-- One bit of a tile register. -/
def State.tbit (s : State) (t a i : Nat) : Bool := (s.treg t a).getLsbD i

/-- Set one bit of a tile register. -/
def State.setTbit (s : State) (t a i : Nat) (b : Bool) : State := s.setTfld t a i i b.toNat

/-- R7: `State.takeLo` and `State.acted64` for the pairs of a site. -/
def State.takeTlo (s : State) (t a : Nat) : State :=
  s.modSite t fun x => { x with loHeld := holdLo tilePairs x.loHeld a (s.treg t a) }
def State.tacted64 (s : State) (t lo : Nat) : Nat :=
  (Map.get (fun _ => s.treg t lo) (s.site t).loHeld lo).toNat + 2 ^ 32 * (s.treg t (lo + 4)).toNat

/-- R6, R8: a write of w to a tile register sets its fields under their access codes. -/
def State.tregWrite (s : State) (t a : Nat) (w : BitVec 32) : State :=
  match findReg tileRegDefs a with
  | some d => (s.takeTlo t a).setTreg t a (d.write w (s.treg t a))
  | none => s

/-- The 64-bit value of a _LO/_HI pair of tile registers. -/
def State.treg64 (s : State) (t lo : Nat) : Nat := (s.treg t lo).toNat + 2 ^ 32 * (s.treg t (lo + 4)).toNat

/-- Set a _LO/_HI pair of tile registers. -/
def State.setTreg64 (s : State) (t lo n : Nat) : State :=
  (s.setTreg t lo (BitVec.ofNat 32 n)).setTreg t (lo + 4) (BitVec.ofNat 32 (n / 2 ^ 32))

/-- Add to a saturating count of a tile register. -/
def State.tbump (s : State) (t a n : Nat) : State := s.setTreg t a (satAdd (s.treg t a) n)

/-- Add to a 64-bit count of tile registers, modulo 2^64. -/
def State.tbump64 (s : State) (t lo n : Nat) : State := s.setTreg64 t lo ((s.treg64 t lo + n) % 2 ^ 64)

/-! ### Free values -/

/-- A fresh free value (log entry 2). -/
def State.free (s : State) : BitVec 64 := Config.freeValue s.freeCtr

/-- The state once a free value was read. -/
def State.freed (s : State) : State := { s with freeCtr := s.freeCtr + 1 }

/-! ### Partitions, owners and rights -/

/-- The partition of the active image that holds a site. -/
def State.partOf (s : State) (t : Nat) : Option Nat := s.fab.active.bind fun m => m.sitePart t

/-- The DeviceID: the active image's, 0 while none is active. -/
def State.deviceId (s : State) : Nat :=
  match s.fab.active with
  | some m => m.deviceId
  | none => 0

/-- R269: a source number {DeviceID, TileID, unit}. -/
def State.sourceOf (s : State) (t unit : Nat) : Nat := 65536 * s.deviceId + t * 16 + unit

/-- R322, R307: the owner number of an agent: its partition, 0xFE for the host; none for an agent that owns nothing. -/
def State.ownerOf (s : State) : Agent → Option Nat
  | .host => some 0xFE
  | .pf1 => some 0xFE
  | .vf k => if s.bit (R.HST_VF_BIND k) 31 then some (s.fld (R.HST_VF_BIND k) 7 0) else none
  | .core t _ => s.partOf t
  | .curator => none
  | .remote _ => none
  | .tap => none

/-- R412: a partition bound to a VF whose TDI is CONFIG_LOCKED or RUN is locked; after PERST_N it stays so until its scrub has ended (R418). -/
def State.locked (s : State) (p : Nat) : Bool :=
  (List.range 64).any fun k => k != 0 && s.fld (R.HST_VF_BIND k) 7 0 == p &&
    (s.fld (R.HST_VF_BIND k) 29 28 == 1 || s.fld (R.HST_VF_BIND k) 29 28 == 2)

/-- R413: the partition to which a VF is bound, if it is in the active image. -/
def State.vfPart (s : State) (k : Nat) : Option Nat :=
  match s.fab.active, s.ownerOf (.vf k) with
  | some m, some p => if m.partitions.contains p then some p else none
  | _, _ => none

/-- R413, R430: a VF that is not bound, or whose partition is absent, reaches nothing; nor does the TAP while it holds BYPASS or IDCODE. -/
def State.vfOut (s : State) (a : Agent) : Bool :=
  match a with
  | .vf k => (s.vfPart k).isNone
  | .tap => s.hst.tap < 2
  | _ => false

/-- R310, R413, R430: may the agent write the device CSR block? -/
def State.mayWriteBlock (s : State) (a : Agent) (block : Nat) : Bool :=
  match a with
  | .host => true
  | .pf1 => true
  | .curator => true
  | .tap => true
  | .remote _ => false
  | .vf k =>
    match s.fab.active, s.vfPart k with
    | some m, some p => (m.partRights p).testBit block
    | _, _ => false
  | .core t _ =>
    match s.fab.active, s.partOf t with
    | some m, some p => (m.partRights p).testBit block
    | _, _ => false

/-- R322: the holder of a resource by a run-time claim. -/
def State.claimHolder (s : State) (kind index : Nat) : Option Nat :=
  match Map.get (fun _ => 0) s.fab.claims (kind * 256 + index) with
  | 0 => none
  | n + 1 => some n

/-- R300: the offset of the record of a sync context, and its owner byte. -/
def Image.ctxOff (m : Image) (c : Nat) : Nat := m.secOff 0x08 + 400 * c

def Image.ctxOwner (m : Image) (c : Nat) : Option Nat :=
  let o := m.u8 (m.ctxOff c + 1)
  if o == 0xFF then none else some o

/-- R313, R322: the owner that the active image gives a resource; kind 5 is a sync context. -/
def State.imageOwner (s : State) (kind index : Nat) : Option Nat :=
  s.fab.active.bind fun m => if kind == 5 then m.ctxOwner index else m.resourceOwner kind index

/-- R338: TIM_SYNC_CTL uses a pin function: TSYNC_OUT (0) for a master or a relaying follower, TSYNC_IN (1) for a
follower whose source is the pin. -/
def State.pinInUse (s : State) (index : Nat) : Bool :=
  let role := s.fld R.TIM_SYNC_CTL 1 0
  if index == 0 then role == 1 || (role == 2 && s.bit R.TIM_SYNC_CTL 12)
  else index == 1 && role == 2 && !s.bit R.TIM_SYNC_CTL 6

/-- R313, R322, R338: the owner of a resource, by the image or by a claim; a pin in use by TIM_SYNC_CTL counts as held by a
claim of the host. -/
def State.owner (s : State) (kind index : Nat) : Option Nat :=
  if kind == 4 && s.pinInUse index then some 0xFE else
  match s.imageOwner kind index with
  | some o => some o
  | none => s.claimHolder kind index

/-- Is the agent the owner of the resource? -/
def State.owns (s : State) (a : Agent) (kind index : Nat) : Bool :=
  match s.ownerOf a, s.owner kind index with
  | some x, some y => x == y
  | _, _ => false

/-! ### Fault records -/

/-- R445: the source number of Curator's own findings. -/
def State.curatorSource (s : State) : Nat := s.sourceOf 0xBDF 15

/-- The record that ring slot holds; a slot never written reads as zeros. -/
def FaultRec.blank : FaultRec :=
  { time := 0, source := 0, code := 0, event := false, partition := none, seq := 0, start := 0, detail := [] }

/-- R446: the codes whose records are events. -/
def isEventCode (c : Nat) : Bool :=
  [0x02, 0x03, 0x04, 0x06, 0x07, 0x08, 0x17, 0x18, 0x19, 0x20, 0x21, 0x22, 0x23, 0x24, 0x25, 0x26, 0x30, 0x31, 0x33,
    0x35, 0x36, 0x40, 0x41, 0x50].contains c

/-- R416, R446: raise a vector of a PCIe function (0 PF0, 1 PF1, 1 + k VF k); while the link is down the message is lost (R419). -/
def State.raiseVector (s : State) (fn vec : Nat) : State :=
  if s.bit R.HST_LINK_STATUS 8 then { s with msix := s.msix ++ [(fn, vec)] } else s

/-- R264: the two sites at which a port (0-31) joins the BN; 32 stands for the host attachment. -/
def attachSites (p : Nat) : Nat × Nat :=
  if p < 8 then (8 * p + 3, 8 * p + 4)
  else if p < 16 then ((6 * (p - 8) + 2) * 64 + 63, (6 * (p - 8) + 3) * 64 + 63)
  else if p < 24 then (47 * 64 + 8 * (p - 16) + 3, 47 * 64 + 8 * (p - 16) + 4)
  else if p < 32 then ((6 * (p - 24) + 2) * 64, (6 * (p - 24) + 3) * 64)
  else (47 * 64 + 31, 47 * 64 + 32)

/-- R264: the site at which traffic from an attachment enters the BN. -/
def entrySite (p dstTile : Nat) : Nat := if dstTile % 2 == 0 then (attachSites p).1 else (attachSites p).2

/-- R333: the copy of TIME that a site keeps, within 2 counts of the time base (log entry 5). -/
def State.siteTime (s : State) (t : Nat) : Nat := s.time + Config.siteSkew t % 5 - 2

/-- R408: the copy of TIME by which a port stamps frames: that of its first attachment site (log entry 123). -/
def State.portTime (s : State) (p : Nat) : Nat := s.siteTime (entrySite p 0)

/-- R340: the count that an event of a source is stamped with: its site's copy of TIME; the time base for Curator and what it finds, whose
source numbers carry unit 15 of TileID 0xBDF. -/
def State.stamp (s : State) (source : Nat) : Nat :=
  let t := source / 16 % 4096
  if t < 3072 && source % 16 < 14 then s.siteTime t else s.time

/-- R447: write one record: a full ring first drops its oldest record and counts it as lost; then the record is
written whole and FLT_LOG_TAIL advances. An event raises PF0 vector 1 (R446). -/
def State.fault (s : State) (code source : Nat) (partition : Option Nat) (detail : List Nat) : State :=
  let tail := (s.reg R.FLT_LOG_TAIL).toNat
  let head := (s.reg R.FLT_LOG_HEAD).toNat
  let s := if (tail + 2 ^ 32 - head) % 2 ^ 32 ≥ 4096
    then (s.setReg R.FLT_LOG_HEAD (BitVec.ofNat 32 (head + 1))).bump R.FLT_LOG_LOST 1 else s
  let r : FaultRec :=
    { time := s.stamp source, source := source, code := code, event := isEventCode code, partition := partition,
      seq := tail, start := s.cur.starts, detail := detail }
  let s := { s with faults := Map.set (fun _ => FaultRec.blank) s.faults (tail % 4096) r }
  let s := s.setReg R.FLT_LOG_TAIL (BitVec.ofNat 32 (tail + 1))
  if isEventCode code then s.raiseVector 0 1 else s

/-- A record of Curator's own finding. -/
def State.curFault (s : State) (code : Nat) (detail : List Nat) : State := s.fault code s.curatorSource none detail

/-- R445: the detail of a number as n little-endian bytes. -/
def le (n v : Nat) : List Nat := (leBytes n v).map (·.toNat)

/-! ### Violations (R428, R429) -/

/-- R269, R264: the source number of an agent; the host attachment is unit 14 of 0xBDF and Curator unit 15. -/
def State.agentSource (s : State) : Agent → Nat
  | .host => s.sourceOf 0xBDF 14
  | .pf1 => s.sourceOf 0xBDF 14
  | .vf _ => s.sourceOf 0xBDF 14
  | .curator => s.curatorSource
  | .core t c => s.sourceOf t c
  | .remote d => 65536 * d
  | .tap => s.curatorSource

/-- R429: count one violation by the agent, in VIOL_COUNT of a local site and in SEC_VIOL_EXT for the host and remote
devices, and write at most one VIOLATION record for each source in any 1 ms, with the number suppressed before it. -/
def State.violation (s : State) (a : Agent) (address kind target : Nat) : State :=
  let s := match a with
    | .core t _ => s.tbump t R.VIOL_COUNT 1
    | _ => s.bump R.SEC_VIOL_EXT 1
  let src := s.agentSource a
  let last := Map.get (fun _ => (0, 0)) s.viol src
  if last.1 == 0 || last.1 - 1 + 1000000 ≤ s.time then
    let s := s.fault 0x05 src (s.ownerOf a) (le 8 address ++ le 1 kind ++ le 2 target ++ le 4 last.2)
    { s with viol := Map.set (fun _ => (0, 0)) s.viol src (s.time + 1, 0) }
  else { s with viol := Map.set (fun _ => (0, 0)) s.viol src (last.1, last.2 + 1) }

/-! ### Outcomes -/

/-- A write to a device register by an agent (R310, R428): with the rights it has its effect; without them it is
ignored and counted as a violation. No register answers without VAUX5 or while Curator restarts (R384). -/
def State.devWrite (s : State) (a : Agent) (address : Nat) (effect : State) : Result :=
  .next (if !s.pins.vaux5 || s.vfOut a then s
    else if !s.mayWriteBlock a (address / 0x100000) then s.violation a (0x030000000000 + address) 9 0
    else if s.cur.restarting then s else effect)

/-- R310, R413, R430: may the agent reach the tile CSRs of site t? A core always reaches those of its own tile (R175); PF0 reaches the
device CSR blocks alone. -/
def State.mayReachTile (s : State) (a : Agent) (t : Nat) : Bool :=
  match a with
  | .host => false
  | .pf1 => match s.partOf t with
    | some p => !s.locked p
    | none => true
  | .curator => true
  | .tap => true
  | .remote _ => false
  | .vf k => (s.vfPart k).isSome && s.partOf t == s.vfPart k
  | .core u _ => u == t || ((s.partOf u).isSome && s.partOf u == s.partOf t)

/-- The device physical address of a tile CSR. -/
def tileCsrAddress (t off : Nat) : Nat := 0x020000000000 + 2 ^ 20 * t + off

/-- The command acts when its condition holds; otherwise it has no effect (log entry 1). -/
def State.when (s : State) (c : Bool) (t : State) : Result := .next (if c then t else s)

/-- A write of a register that an agent may write whatever csr_rights grants: a rule of that register says who may. It is dropped where Curator
has no supply or restarts (R384), and where the agent is a VF that is not bound (R413). -/
def State.openWrite (s : State) (a : Agent) (effect : State) : Result := s.when (s.pins.vaux5 && !s.cur.restarting && !s.vfOut a) effect

end Sys2Proof.Machine
end

