-- ==== Sys2Proof/Machine/Catalogue.lean ====
section
/-! DEFINITION. The catalogue (chapter 02): site status and its transitions (R29, R30), in-field records (R40),
the catalogue's bytes (R34-R39), publication (R41-R43), hold and release (R33). -/

namespace Sys2Proof.Machine

/-! ### Entries -/

/-- R36: the site entry before any change: kind, good, reason none, no repair. -/
def siteEntryReset (t : Nat) : Nat := (kindOf t).code

/-- The catalogue entry of a site. -/
def CatTables.site (c : CatTables) (t : Nat) : Nat := Map.get siteEntryReset c.sites t

/-- R29, R36: the status bits of a site entry: 0 good, 1 dead, 2 degraded, 3 held. -/
def entryStatus (e : Nat) : Nat := bitsOf e 5 4

/-- R36: a site entry from its parts. -/
def mkEntry (repairs reason status kind : Nat) : Nat := min repairs 255 * 256 + reason * 64 + status * 16 + kind

/-- R36: an entry with a new status and reason; the repair count never decreases (R30). -/
def withStatus (e status reason : Nat) : Nat := mkEntry (e / 256) reason status (e % 16)

def State.siteStatus (s : State) (t : Nat) : Nat := entryStatus (s.cat.tables.site t)

/-- The site is not dead. -/
def State.live (s : State) (t : Nat) : Bool := siteExists t && s.siteStatus t != 1

/-- R39: the wing entry marks the wing dead. -/
def State.wingDead (s : State) (w : Nat) : Bool := bitsOf (Map.get (fun _ => 0) s.cat.tables.wings w) 1 0 == 1

/-- R39: fused_mv and ageing_mv of a trim entry. -/
def trimReset (i : Nat) : Nat := (Config.fusedTrim i).toNat
def State.trim (s : State) (w p : Nat) : Nat := Map.get trimReset s.cat.tables.trims (w * 16 + p)

/-- R38: usable MiB of a stack: 32,768 less retirement. -/
def State.usableMib (s : State) (k : Nat) : Nat := Map.get (fun _ => 32768) s.cat.tables.usable k

/-- R41: a swap is armed. -/
def State.armed (s : State) : Bool := s.bit R.FAB_STATUS 5

/-! ### Records (R40) -/

/-- R40: add one record; a full list drops old records into a TRUNCATED record. -/
def addRecord (now : Nat) (rs : List CatRecord) (r : CatRecord) : List CatRecord :=
  if rs.length < 4096 then rs ++ [r]
  else match rs with
    | t :: _ :: rest =>
      if t.code == 7 then
        { t with new := min (t.new + 1) 0xFFFFFFFF, time := now } :: rest ++ [r]
      else
        { time := now, code := 7, target := 0, origin := 0, old := 0, new := 2, detail := 0 } :: rest ++ [r]
    | _ => rs ++ [r]

/-- R34: a retired-row entry is added; the list holds at most 12,288. -/
def addRetired (rs : List Nat) (e : Nat) : List Nat := if rs.length < 12288 then rs ++ [e] else rs

/-- Mark that the tables hold an unpublished change; a change that marks nothing dead waits while a swap is armed and
keeps update_deferred at 1 (R42). -/
def State.catDirty (s : State) (dead : Bool) : State :=
  let s := { s with cat := { s.cat with dirty := true, dirtyDead := s.cat.dirtyDead || dead } }
  if s.armed && !s.cat.dirtyDead then s.setBit R.CAT_STATUS 4 true else s

/-- Change a site's entry, with its SITE record; an unchanged entry receives no record. -/
def State.setEntry (s : State) (t e origin detail : Nat) : State :=
  let old := s.cat.tables.site t
  if e == old then s
  else
    let tb := s.cat.tables
    let r : CatRecord := { time := s.time, code := 1, target := t, origin := origin, old := old, new := e, detail := detail }
    let tb := { tb with sites := Map.set siteEntryReset tb.sites t e, records := addRecord s.time tb.records r }
    ({ s with cat := { s.cat with tables := tb } }).catDirty (entryStatus e == 1)

/-- R30: a site that a test, a merge or a runtime fault finds dead becomes dead at once, held or not. -/
def State.markSiteDead (s : State) (t reason origin detail : Nat) : State :=
  if s.siteStatus t == 1 then s
  else (s.setEntry t (withStatus (s.cat.tables.site t) 1 reason) origin detail)

/-- R30: Curator keeps the underlying status of a held site in the stored record, beside the catalogue. -/
def State.keepUnderlying (s : State) (u : List (Nat × Nat)) : State :=
  { s with cat := { s.cat with underlying := u },
           flash := { s.flash with storedA := s.flash.storedA.map fun c => (c.1, u), storedB := s.flash.storedB.map fun c => (c.1, u) } }

/-- R30: good to degraded; for a held site the underlying status changes, and with it the stored record. -/
def State.markDegraded (s : State) (t reason origin detail : Nat) : State :=
  match s.siteStatus t with
  | 0 => s.setEntry t (withStatus (s.cat.tables.site t) 2 reason) origin detail
  | 3 => s.keepUnderlying (Map.set (fun _ => 0) s.cat.underlying t 2)
  | _ => s

/-- R36: count one repair, saturating at 255. -/
def State.countRepair (s : State) (t origin : Nat) : State :=
  let e := s.cat.tables.site t
  s.setEntry t (mkEntry (e / 256 + 1) (bitsOf e 7 6) (entryStatus e) (e % 16)) origin 0

/-- R40, R349: a wing becomes dead: one WING record, then one SITE record for each site whose entry changes. -/
def State.markWingDead (s : State) (w origin detail : Nat) : State :=
  let tb := s.cat.tables
  let old := Map.get (fun _ => 0) tb.wings w
  let new := old / 4 * 4 + 1
  let r : CatRecord := { time := s.time, code := 4, target := w, origin := origin, old := old, new := new, detail := detail }
  let tb := { tb with wings := Map.set (fun _ => 0) tb.wings w new, records := addRecord s.time tb.records r }
  let s := ({ s with cat := { s.cat with tables := tb } }).catDirty true
  (wingSites w).foldl (fun s t => s.setEntry t (withStatus (s.cat.tables.site t) 1 3) origin detail) s

/-! ### Publication (R41-R43) -/

/-- The catalogue's header digest field is at 0x40. -/
def catLength (c : CatTables) : Nat := 0x1D70 + 8 * c.retired.length + 32 * c.records.length

/-- Entries of a kind that are not dead, in the given sites. -/
def goodCount (c : CatTables) (k : TileKind) (sites : List Nat) : Nat :=
  (sites.filter fun t => kindOf t == k && entryStatus (c.site t) != 1).length

def allSites : List Nat := List.range 3072

/-- R38: retired-row entries of one stack. -/
def retiredOf (c : CatTables) (k : Nat) : Nat := (c.retired.filter fun e => bitsOf e 63 59 == k).length

/-- R35: the header without its digest, as (offset, size, value). -/
def catHeader (p : CatPub) (length : Nat) : List (Nat × Nat × Nat) :=
  let c := p.tables
  [(0x00, 4, 0x31544143), (0x04, 2, 1), (0x06, 2, 128), (0x08, 4, length), (0x0C, 4, p.gen),
   (0x10, 8, Config.serial.toNat), (0x18, 1, 64), (0x19, 1, 48), (0x1A, 1, 4), (0x1B, 1, 4),
   (0x1C, 4, 0x80), (0x20, 4, 0x1880), (0x24, 4, 0x1900), (0x28, 4, 0x1B00), (0x2C, 4, 0x1D00), (0x30, 4, 0x1D40),
   (0x34, 4, 0x1D70), (0x38, 2, c.retired.length), (0x3A, 2, c.records.length),
   (0x3C, 4, 0x1D70 + 8 * c.retired.length),
   (0x70, 2, goodCount c .m allSites), (0x72, 2, goodCount c .v allSites), (0x74, 2, goodCount c .s allSites),
   (0x76, 2, goodCount c .mi allSites), (0x78, 4, p.flags), (0x7C, 4, 0)]

/-- R40: the 32 bytes of a record. -/
def CatRecord.bytes (r : CatRecord) : List (BitVec 8) :=
  leBytes 8 r.detail ++ leBytes 4 r.new ++ leBytes 4 r.old ++ leBytes 2 0 ++ leBytes 2 r.origin ++ leBytes 2 r.target ++
    leBytes 2 r.code ++ leBytes 8 r.time

/-- R39: byte b of the seam-link bitmap. -/
def seamByte (seams : List Nat) (b : Nat) : BitVec 8 :=
  BitVec.ofNat 8 ((List.range 8).foldl (fun v i => if seams.contains (8 * b + i) then v + 2 ^ i else v) 0)

/-- R34-R40: the catalogue's bytes, the digest field zero. -/
def CatPub.bytes (p : CatPub) : List (BitVec 8) :=
  let c := p.tables
  let header := (catHeader p (catLength c)).foldl
    (fun m x => Map.setAll (fun _ => (0 : BitVec 8)) m x.1 (leBytes x.2.1 x.2.2)) []
  Map.getRange (fun _ => 0) header 0 128 ++
  (allSites.flatMap fun t => leBytes 2 (c.site t)) ++
  ((List.range 32).flatMap fun i => leBytes 4 (Map.get (fun _ => 0) c.ports i)) ++
  ((List.range 32).flatMap fun i =>
    leBytes 4 (Map.get (fun _ => 32768) c.usable i) ++ leBytes 4 (retiredOf c i) ++
    leBytes 1 (Map.get (fun _ => 0) c.dieFailed i) ++ leBytes 7 0) ++
  ((List.range 256).flatMap fun i => leBytes 2 (Map.get trimReset c.trims i)) ++
  ((List.range 16).flatMap fun i => leBytes 4 (Map.get (fun _ => 0) c.wings i)) ++
  ((List.range 48).map fun b => seamByte c.seams b) ++
  (c.retired.flatMap fun e => leBytes 8 e) ++ (c.records.flatMap CatRecord.bytes)

/-- R41: the digest of the length bytes with the digest field taken as zero. -/
def CatPub.digest (p : CatPub) : BitVec 384 := Config.sha384 p.bytes

/-- R32: the digest words, word i holding digest bytes 4i to 4i + 3 little-endian; the digest's byte 0 is its most
significant. -/
def digestWord (d : BitVec 384) (i : Nat) : BitVec 32 :=
  let byte (j : Nat) : Nat := (d.toNat >>> (8 * (47 - j))) % 256
  BitVec.ofNat 32 (byte (4 * i) + 256 * (byte (4 * i + 1) + 256 * (byte (4 * i + 2) + 256 * byte (4 * i + 3))))

/-- The published catalogue that CAT_BASE names. -/
def State.published (s : State) : Option CatPub :=
  if (s.reg R.CAT_BASE).toNat == 0x80000 then s.cat.bufA
  else if (s.reg R.CAT_BASE).toNat == 0xC0000 then s.cat.bufB else none

/-- R315: CAT_DIGEST as its twelve words. -/
def State.catDigest (s : State) : List (BitVec 32) := (List.range 12).map fun i => s.reg (R.CAT_DIGEST i)

/-- R43: the counts that below_guarantee weighs and BELOW_GUARANTEE records carry. -/
def guaranteeCounts (c : CatTables) : List Nat :=
  [goodCount c .m allSites, goodCount c .v allSites, goodCount c .s allSites, goodCount c .mi allSites,
   ((List.range 32).map fun k => Map.get (fun _ => 32768) c.usable k).sum]

/-- R43: the catalogue falls short of a guarantee. -/
def belowGuarantee (c : CatTables) : Bool :=
  let n := guaranteeCounts c
  !(2432 ≤ n.getD 0 0 && 240 ≤ n.getD 1 0 && 120 ≤ n.getD 2 0 && n.getD 3 0 == 128 && 1044480 ≤ n.getD 4 0 &&
    (List.range 16).all fun w =>
      148 ≤ goodCount c .m (wingSites w) && 14 ≤ goodCount c .v (wingSites w) &&
      bitsOf (Map.get (fun _ => 0) c.wings w) 1 0 == 0)

/-- R43: the event record at a publication at which below_guarantee becomes 1 or its counts changed. -/
def State.guaranteeRecord (s : State) (below : Bool) : State :=
  let n := guaranteeCounts s.cat.tables
  if below then
    if s.cat.lastBelow == some n then s
    else
      let s := s.curFault 0x36 (le 2 (n.getD 0 0) ++ le 2 (n.getD 1 0) ++ le 2 (n.getD 2 0) ++ le 2 (n.getD 3 0) ++
        le 4 (n.getD 4 0))
      { s with cat := { s.cat with lastBelow := some n } }
  else { s with cat := { s.cat with lastBelow := none } }

/-- R262: the dead sites and the failed seam links of the catalogue in force. -/
def State.deadSites (s : State) : List Nat := allSites.filter fun t => s.siteStatus t == 1 || s.wingDead (wingOf t)

/-- R262: the default route table is built from the catalogue. -/
def State.buildRoutes (s : State) : State :=
  let r : RouteBase := { builds := s.net.routes.builds + 1, dead := s.deadSites, failed := s.cat.tables.seams }
  { s with net := { s.net with routes := r } }

/-- R262: a publication that marks a site, a wing or a seam link dead rebuilds the default route table. -/
def State.rebuildRoutes (s : State) : State :=
  let old := s.net.routes
  if s.deadSites.all old.dead.contains && s.cat.tables.seams.all old.failed.contains then s else s.buildRoutes

/-! ### Rail settings (R39, R344, R353) -/

/-- R343, R369: the state field of PWR_RAIL_Wn: 0 off, 1 ramping, 2 on, 3 tripped. -/
def State.railState (s : State) (w : Nat) : Nat := s.fld (R.PWR_RAIL w) 31 30

def allWings : List Nat := List.range 16

/-- The wings whose rails are on. -/
def State.wingsOn (s : State) : List Nat := allWings.filter fun w => s.railState w == 2

/-- R353: the trim entry in force: that of the published catalogue, or of the start's own tables before the first publication. -/
def State.trimInForce (s : State) (w p : Nat) : Nat :=
  match s.published with
  | some c => Map.get trimReset c.tables.trims (w * 16 + p)
  | none => s.trim w p

/-- R344: a wing's setting at a point: min(900, fused_mv + ageing_mv). -/
def State.setting (s : State) (w p : Nat) : Nat :=
  let e := s.trimInForce w p
  min 900 (bitsOf e 9 0 + bitsOf e 15 10)

/-- R326: the point in force. -/
def State.point (s : State) : Nat := s.fld R.CLK_OP_STATUS 3 0

/-- R328: the point whose settings the rails hold or ramp to: the target of a raise that is pending, else the point in force. -/
def State.railPoint (s : State) : Nat := if s.bit R.CLK_OP_STATUS 11 && s.clk.raise then s.clk.target else s.point

/-- Set the rail setting of some wings to their settings at point p. -/
def State.setRails (s : State) (ws : List Nat) (p : Nat) : State :=
  ws.foldl (fun s w => s.setFld (R.PWR_RAIL w) 9 0 (s.setting w p)) s

/-- Set the rail setting of every running wing to its setting at point p. -/
def State.rampTo (s : State) (p : Nat) : State := s.setRails s.wingsOn p

/-- R348: the wings whose rails are ramping up. -/
def State.wingsRamping (s : State) : List Nat := allWings.filter fun w => s.railState w == 1

/-- R344, R348, R353: the rails move to settings that have changed; those that a lower has still to move wait for its ramp. -/
def State.moveRails (s : State) : State :=
  (if s.clk.settleStart.isSome then s else s.rampTo s.railPoint).setRails s.wingsRamping s.railPoint

/-- R41-R43: publish the whole current catalogue into the other buffer. -/
def State.publish (s : State) : State :=
  let below := belowGuarantee s.cat.tables
  let s := s.setBit R.CAT_STATUS 2 below
  let s := s.setBit R.CAT_STATUS 0 true
  let s := s.setBit R.CAT_STATUS 4 false
  let gen := (s.reg R.CAT_GEN).toNat + 2
  let flags := (s.bit R.CAT_STATUS 1).toNat + 2 * below.toNat + 4 * (s.bit R.CAT_STATUS 3).toNat
  let p : CatPub := { tables := s.cat.tables, gen := gen, flags := flags }
  let toA := (s.reg R.CAT_BASE).toNat != 0x80000
  let s := if toA then { s with cat := { s.cat with bufA := some p } } else { s with cat := { s.cat with bufB := some p } }
  let s := s.setReg R.CAT_BASE (if toA then 0x80000 else 0xC0000)
  let s := s.setReg R.CAT_SIZE (BitVec.ofNat 32 (catLength p.tables))
  let s := s.setReg R.CAT_GEN (BitVec.ofNat 32 gen)
  let s := (List.range 12).foldl (fun s i => s.setReg (R.CAT_DIGEST i) (digestWord p.digest i)) s
  let stored := some (s.cat.tables, s.cat.underlying)
  let s := { s with flash := { s.flash with storedA := stored, storedB := stored } }
  let s := { s with cat := { s.cat with dirty := false, dirtyDead := false, lastPub := some s.time } }
  let s := (s.guaranteeRecord below).rebuildRoutes.moveRails
  if s.fld R.CAT_HOLD_RESULT 1 0 == 1 then s.setFld R.CAT_HOLD_RESULT 1 0 2 else s

/-- R41: at least 1 ms since the previous publication. -/
def State.pubSpacing (s : State) : Bool :=
  match s.cat.lastPub with
  | some t => t + 1000000 ≤ s.time
  | none => true

/-- R318: an armed swap ends with a result and leaves the shadow valid and unarmed; the changes that waited for it wait no longer (R42). -/
def State.disarm (s : State) (result : Nat) : State :=
  ((s.setBit R.FAB_STATUS 5 false).setFld R.FAB_STATUS 23 16 result).setBit R.CAT_STATUS 4 false

/-- CATALOGUE_PUBLISH (R42): changes that mark nothing dead wait while a swap is armed; a dead marking is published as
soon as the spacing allows and, at or before the swap count, cancels the armed swap. -/
def execCataloguePublish (s : State) : Result :=
  if s.cat.dirty && s.bit R.CAT_STATUS 0 && s.pubSpacing && !s.cur.restarting then
    if !s.armed then .next s.publish
    else if s.cat.dirtyDead then
      .next (if s.time ≤ s.fab.swapAt then s.publish.disarm 3 else s.publish)
    else .next (s.setBit R.CAT_STATUS 4 true)
  else .next s

/-- R33: the request is accepted unless one is PENDING. A released site keeps reason 0b11, degraded or good (DESIGN CHOICE, log entry 77). -/
def State.holdRequest (s : State) (t : Nat) (hold : Bool) : State :=
  if s.fld R.CAT_HOLD_RESULT 1 0 == 1 then s.setBit R.CAT_HOLD_RESULT 8 true
  else if !siteExists t || s.siteStatus t == 1 || (hold && s.siteStatus t == 3) || (!hold && s.siteStatus t != 3) then
    s.setFld R.CAT_HOLD_RESULT 1 0 3
  else
    let e := s.cat.tables.site t
    let s := s.setFld R.CAT_HOLD_RESULT 1 0 1
    if hold then
      let s := { s with cat := { s.cat with underlying := Map.set (fun _ => 0) s.cat.underlying t (entryStatus e) } }
      s.setEntry t (withStatus e 3 3) 4 0
    else
      let u := Map.get (fun _ => 0) s.cat.underlying t
      let s := { s with cat := { s.cat with underlying := Map.erase t s.cat.underlying } }
      s.setEntry t (withStatus e u 3) 4 0

/-- HOLD (R33). -/
def execHold (a : Agent) (t : Nat) (s : State) : Result := s.devWrite a R.CAT_HOLD_CTL (s.holdRequest t true)

/-- HOLD_RELEASE (R33). -/
def execHoldRelease (a : Agent) (t : Nat) (s : State) : Result := s.devWrite a R.CAT_HOLD_CTL (s.holdRequest t false)

end Sys2Proof.Machine
end

