-- ==== Sys2Proof/Machine/Clocks.lean ====
section
/-! DEFINITION. Reference clocks, operating points and seam alignment (R324-R332, R341, R457). -/

namespace Sys2Proof.Machine

/-! ### Wings and rails -/

/-- A wing's power state. -/
def State.wing (s : State) (w : Nat) : WingPower := Map.get (fun _ => WingPower.off) s.wings w

/-- Change a wing's power state. -/
def State.modWing (s : State) (w : Nat) (f : WingPower → WingPower) : State :=
  { s with wings := Map.modify (fun _ => WingPower.off) s.wings w f }

/-- R25: the wing's rail is on and its seams are not clamped: its routers carry traffic. -/
def State.wingUp (s : State) (w : Nat) : Bool := s.railState w == 2 && !(s.wing w).clamped

/-- R341: CLKWw is running. -/
def State.wingRuns (s : State) (w : Nat) : Bool := s.bit R.CLK_WING_RUN w

/-- The longest move in mV of any running rail between its present setting and point p. -/
def State.rampSpan (s : State) (p : Nat) : Nat :=
  (s.wingsOn.map fun w => max (s.setting w p) (s.fld (R.PWR_RAIL w) 9 0) - min (s.setting w p) (s.fld (R.PWR_RAIL w) 9 0)).foldl max 0

/-- R328: rails move at 25 mV per microsecond, starting 1 microsecond after the origin, and settle for 4 microseconds. -/
def rampEndAt (origin span : Nat) : Nat := origin + 1000 + (1000 * span + 24) / 25 + 4000

/-! ### Seam crossings (R331, R332) -/

/-- R39: the two sites that a seam link joins, the western or northern one first. -/
def seamSites (link : Nat) : Nat × Nat :=
  if link < 144 then
    let t := link % 48 * 64 + link / 48 * 16 + 15
    (t, t + 1)
  else
    let t := ((link - 144) / 64 * 12 + 11) * 64 + (link - 144) % 64
    (t, t + 64)

/-- The number of one direction of a crossing of the BN or the CN. -/
def seamKey (cn : Bool) (link : Nat) (back : Bool) : Nat := 2 * (336 * cn.toNat + link) + back.toNat

/-- The site that sends over a crossing, and the site that receives. -/
def seamEnds (k : Nat) : Nat × Nat :=
  let e := seamSites (k / 2 % 336)
  if k % 2 == 0 then e else (e.2, e.1)

def State.seam (s : State) (k : Nat) : Seam := Map.get (fun _ => Seam.start) s.net.seams k
def State.modSeam (s : State) (k : Nat) (f : Seam → Seam) : State :=
  { s with net := { s.net with seams := Map.modify (fun _ => Seam.start) s.net.seams k f } }

/-- R331: how far the write pointer of a crossing is ahead when its read pointer needs no offset: both count ungated clock pulses. -/
def State.pulseLead (s : State) (k : Nat) : Int :=
  ((s.wing (wingOf (seamEnds k).1)).pulses : Int) - (s.wing (wingOf (seamEnds k).2)).pulses

/-- R332: the entries between the read pointer and the write pointer of a crossing. -/
def State.separation (s : State) (k : Nat) : Int := s.pulseLead k + (s.seam k).off

/-- R332: set the read pointer of a crossing so many entries behind its write pointer. -/
def State.placePointer (s : State) (k n : Nat) : State := s.modSeam k fun m => { m with off := n - s.pulseLead k }

/-- Both wings of a crossing run. -/
def State.seamRuns (s : State) (k : Nat) : Bool := s.wingRuns (wingOf (seamEnds k).1) && s.wingRuns (wingOf (seamEnds k).2)

/-- R332: the crossings that touch a wing of some kind are aligned: the read pointer stands 4 entries behind the write pointer. -/
def State.alignSeams (s : State) (touched : Nat → Bool) : State :=
  ((List.range 1344).filter fun k => touched (wingOf (seamEnds k).1) || touched (wingOf (seamEnds k).2)).foldl
    (fun s k => s.placePointer k 4) s

/-! ### The scheduled switch (R328) -/

/-- R328: a request at count S to a point from a source (0 software, 1 cap): refused with BUSY or LEAD, otherwise armed;
a raise ramps the rails at once. -/
def State.requestSwitch (s : State) (at_ target source : Nat) : State :=
  if s.bit R.CLK_OP_STATUS 11 || s.bit R.CLK_OP_STATUS 12 then
    (s.setBit R.CLK_OP_STATUS 16 true).setFld R.CLK_OP_STATUS 23 20 2
  else if at_ < s.time + 20000 then
    (s.setBit R.CLK_OP_STATUS 16 true).setFld R.CLK_OP_STATUS 23 20 3
  else
    let cur := s.point
    let s := s.setBit R.CLK_OP_STATUS 11 true
    let s := s.setFld R.CLK_OP_STATUS 7 4 target
    let s := s.setBit R.CLK_OP_STATUS 13 (source == 1)
    let raise := target < cur
    let settled := rampEndAt s.time (s.rampSpan target)
    let s := { s with clk := { s.clk with switchAt := at_, target := target, raise := raise, lower := cur < target,
                                          checked := false, settledAt := settled } }
    if raise then (s.rampTo target).setBit R.CLK_OP_STATUS 12 true else s

/-- OP_SWITCH_REQUEST (R328): a write of CLK_OP_SWITCH_AT_HI. -/
def execOpSwitchRequest (a : Agent) (hi : BitVec 32) (s : State) : Result :=
  let t := (s.takeLo R.CLK_OP_SWITCH_AT_HI).setReg R.CLK_OP_SWITCH_AT_HI hi
  s.devWrite a R.CLK_OP_SWITCH_AT_HI (t.requestSwitch (t.reg64 R.CLK_OP_SWITCH_AT_LO) (t.fld R.CLK_OP_TARGET 3 0) 0)

/-- R328, R330: the running wings whose rail reads more than 10 mV from its setting for the target. -/
def State.outOfRange (s : State) (readings : List Nat) : List Nat :=
  s.wingsOn.filter fun w =>
    let r := readings.getD w 0
    let v := s.setting w s.clk.target
    r + 10 < v || v + 10 < r

/-- The mask of a list of bit numbers below 64. -/
def maskOf (ws : List Nat) : Nat := (List.range 64).foldl (fun m w => if ws.contains w then m + 2 ^ w else m) 0

/-- RAISE_CHECK (R328): at S - 1 microsecond a raise goes on only with every rail within 10 mV; otherwise VFAIL: no switch,
the rails return to the settings of the current point, and a record is written. -/
def execRaiseCheck (readings : List Nat) (s : State) : Result :=
  if s.bit R.CLK_OP_STATUS 11 && s.clk.raise && !s.clk.checked && s.clk.switchAt ≤ s.time + 1000 && s.time < s.clk.switchAt then
    if (s.outOfRange readings).isEmpty then .next { s with clk := { s.clk with checked := true } }
    else
      let bad := s.outOfRange readings
      let t := s.rampTo s.point
      let t := ((t.setBit R.CLK_OP_STATUS 11 false).setBit R.CLK_OP_STATUS 12 true).setFld R.CLK_OP_STATUS 23 20 4
      let t := { t with clk := { t.clk with raise := false, checked := false, settledAt := rampEndAt s.time (s.rampSpan s.point) } }
      .next (t.curFault 0x25 (le 1 s.clk.target ++ le 2 (maskOf bad)))
  else .next s

/-- R328: the copy of TIME that a wing's clock goes by: that of its first site (log entry 115). -/
def State.wingTime (s : State) (w : Nat) : Nat := s.siteTime ((wingSites w).headD 0)

/-- R328: a switch is due for a wing: pending, at or past its count, and checked if it is a raise. -/
def State.switchDue (s : State) (w : Nat) : Bool :=
  s.bit R.CLK_OP_STATUS 11 && s.clk.switchAt ≤ s.wingTime w && (!s.clk.raise || s.clk.checked)

/-- R328: the switch is complete: current takes the target, pending returns to 0, result reads DONE. -/
def State.switchDone (s : State) : State :=
  let cap := s.bit R.CLK_OP_STATUS 13
  let s := s.setFld R.CLK_OP_STATUS 3 0 s.clk.target
  let s := s.setBit R.CLK_OP_STATUS 11 false
  let s := s.setFld R.CLK_OP_STATUS 23 20 1
  let s := s.setReg64 R.CLK_OP_LAST_LO s.clk.switchAt
  { s with clk := { s.clk with raise := false, checked := false, window := none, byCap := cap,
                                      capDoneAt := if cap then some s.time else s.clk.capDoneAt } }

/-- OP_SWITCH (R328): every wing whose own copy of TIME has come to count S stops its clock and loads the target's divider; a switch to the same
point has no window and is done. -/
def execOpSwitch (s : State) : Result :=
  let due := allWings.filter s.switchDue
  let stop := due.foldl (fun s w => s.setBit R.CLK_WING_RUN w false) { s with clk := { s.clk with window := some (s.clk.switchAt + 64) } }
  s.when (!due.isEmpty) (if s.clk.target == s.point then s.switchDone else stop)

/-- The wings that run outside a window: rail on, clock started and not stopped by a lost reference. -/
def State.clockedWings (s : State) : List Nat := s.wingsOn.filter fun w => (s.wing w).clockAt.isSome

/-- OP_SWITCH_RESTART (R328, R332, R352): at S + 64 every wing restarts on the same count with its divider phase and pulse
positions reset and its seam crossings aligned; a rail that is ramping up takes the new point's setting (R348), and a lower has its
rails to ramp. -/
def execOpSwitchRestart (s : State) : Result :=
  match s.clk.window with
  | none => .next s
  | some e =>
    let lower := s.clk.lower
    let at_ := s.clk.switchAt
    let u := s.switchDone.setFld R.CLK_WING_RUN 15 0 (maskOf s.clockedWings)
    let u := s.clockedWings.foldl (fun s w => s.modWing w fun x => { x with cycle := 0, phase := 0 }) u
    let u := (u.setRails u.wingsRamping u.point).alignSeams fun _ => true
    s.when (e ≤ s.time && s.fld R.CLK_WING_RUN 15 0 == 0)
      { u with clk := { u.clk with lower := false, settleStart := if lower then some (at_ + 1000) else none } }

/-- LOWER_RAMP_START (R328): at S + 1 microsecond after a lower, the rails begin ramping to the settings of the new point, or of a raise that
was requested meanwhile. -/
def execLowerRampStart (s : State) : Result :=
  match s.clk.settleStart with
  | none => .next s
  | some t0 =>
    let span := s.rampSpan s.railPoint
    let raising := s.bit R.CLK_OP_STATUS 11 && s.clk.raise
    let done := max (if raising then s.clk.settledAt else 0) (t0 + min 16000 ((1000 * span + 24) / 25 + 4000))
    let u := (s.rampTo s.railPoint).setBit R.CLK_OP_STATUS 12 true
    s.when (t0 ≤ s.time) { u with clk := { u.clk with settleStart := none, settledAt := done } }

/-- SETTLING_END (R328): the rails have settled, and settling returns to 0. -/
def execSettlingEnd (s : State) : Result :=
  s.when (s.bit R.CLK_OP_STATUS 12 && s.clk.settleStart.isNone && s.clk.settledAt ≤ s.time)
    (s.setBit R.CLK_OP_STATUS 12 false)

/-! ### References (R325, R457) -/

/-- R345: FAULT_N is driven low and stays low until a module reset. -/
def State.assertFault (s : State) : State := { s with pins := { s.pins with faultLatched := true } }

/-- R380: a start in progress stops and records its error. -/
def State.startFails (s : State) (error : Nat) : State :=
  if s.fld R.CUR_BOOT_STATUS 2 0 < 5 && !s.cur.restarting then s.assertFault.setFld R.CUR_BOOT_STATUS 31 28 error else s

/-- R337: a follower loses lock. -/
def State.unlock (s : State) : State := (s.setBit R.TIM_SYNC_STATUS 1 false).setBit R.TIM_SYNC_STATUS 3 true

/-- R325: REFCLK_SYS is lost: CLKT moves to the internal oscillator, a follower unlocks, every wing clock stops and FAULT_N
asserts. -/
def State.sysLost (s : State) : State :=
  let s := { s with clk := { s.clk with oscillator := true }, cur := { s.cur with tripSince := true } }
  let s := if s.fld R.TIM_SYNC_CTL 1 0 == 2 then s.unlock else s
  let s := s.setFld R.CLK_WING_RUN 15 0 0
  let s := allWings.foldl (fun s w => s.modWing w fun x => { x with clockAt := none }) s
  s.assertFault

/-- R341, R446: the loss of a reference is shown in CLK_REF_STATUS and recorded. -/
def State.refLost (s : State) (ref : Nat) : State :=
  let s := (s.setBit R.CLK_REF_STATUS ref false).setBit R.CLK_REF_STATUS (3 + ref) true
  s.curFault 0x26 (le 4 (s.reg R.CLK_REF_STATUS).toNat)

/-- REFCLK_RETURN (R457): the reference is present again. -/
def execRefclkReturn (ref : Nat) (s : State) : Result :=
  s.when (ref < 3 && !s.bit R.CLK_REF_STATUS ref) (s.setBit R.CLK_REF_STATUS ref true)

/-- R332: is the separation outside 2 to 6 entries? -/
def separationBad (n : Int) : Bool := n < 2 || 6 < n

/-- SEAM_ALARM (R332, R341): between two alignments the phase of a crossing's clocks moves so far that its separation leaves 2 to 6 of the
FIFO's 8 entries: the alarm is counted and recorded. The crossing is that of a link, the one that sends W or N where the second part is true. -/
def execSeamAlarm (link : Nat × Bool) (cn : Bool) (separation : Nat) (s : State) : Result :=
  let k := seamKey cn (link.1 % 336) link.2
  let n := min (s.fld R.CLK_SEAM_ALARM 31 16 + 1) 0xFFFF
  let t := s.placePointer k separation
  let t := t.setReg R.CLK_SEAM_ALARM (BitVec.ofNat 32 (65536 * n + cn.toNat * 512 + link.1 % 336))
  s.when (link.1 < 336 && separationBad separation && separation ≤ 8 && !separationBad (s.separation k) && s.seamRuns k)
    (t.curFault 0x27 (le 4 (t.reg R.CLK_SEAM_ALARM).toNat))

end Sys2Proof.Machine
end

