-- ==== Sys2Proof/Machine/Failure.lean ====
section
/-! DEFINITION. Failing partitions and errors that no correction mends (R439, R442). -/

namespace Sys2Proof.Machine

/-- R442, R446: a partition fails: its bit is set and one PART_FAILED record is written for the cause, a fault code, with the TIME of the
record of that cause. -/
def State.partFailAt (s : State) (p cause at_ : Nat) : State :=
  (s.setBit (R.SEC_PART_FAILED (p / 32)) (p % 32) true).fault 0x07 s.curatorSource (some p) (le 2 cause ++ le 8 at_)

/-- R442: a partition fails for a cause that Curator records now. -/
def State.partFail (s : State) (p cause : Nat) : State := s.partFailAt p cause (s.stamp s.curatorSource)

/-- R439: an uncorrectable error found by an access of a partition: its own record, and the partition fails while
SEC_CTL.fail_on_uncorr is 1. -/
def State.uncorrectable (s : State) (source : Nat) (part : Option Nat) (code : Nat) (detail : List Nat) : State :=
  let at_ := s.stamp source
  let s := s.fault code source part detail
  match part with
  | some p => if s.bit R.SEC_CTL 0 then s.partFailAt p code at_ else s
  | none => s

end Sys2Proof.Machine
end

