-- ==== Sys2Proof/Machine/Pair.lean ====
section
/-! DEFINITION. Pairs of twins (R308, R440) and how a write from an agent reaches a site's registers (R297, R310, R428, R440). -/

namespace Sys2Proof.Machine

/-- The twin of a site of a partition with paired redundancy (R308, R440), and whether the site is the lead. -/
def State.twin (s : State) (t : Nat) : Option Nat :=
  match s.fab.active, s.partOf t with
  | some m, some p => if m.partPaired p then m.twin t else none
  | _, _ => none
def State.isLead (s : State) (t : Nat) : Bool :=
  match s.twin t with
  | some u => t < u
  | none => true

/-- R440: a command that reaches the lead of a pair applies to both twins. -/
def State.both (s : State) (t : Nat) (f : State → Nat → State) : State :=
  match s.twin t with
  | some u => f (f s t) u
  | none => f s t

/-- The agent is a core of the site or of its twin. -/
def State.inside (s : State) (a : Agent) (t : Nat) : Bool :=
  match a with
  | .core u _ => u == t || s.twin t == some u
  | _ => false

/-- R440: from outside a pair only its lead is addressable; Curator and debug reach every site (R430). -/
def State.addressable (s : State) (a : Agent) (t : Nat) : Bool := s.isLead t || s.inside a t || a == .curator || a == .tap

/-- R297: the CN reaches a site: it exists, is live, and its wing is up. A core always reaches its own tile's registers (R175). -/
def State.siteReached (s : State) (a : Agent) (t : Nat) : Bool :=
  match a with
  | .core u _ => u == t || (s.live t && s.wingUp (wingOf t))
  | _ => s.live t && s.wingUp (wingOf t)

/-- R440: a write from outside a pair applies to both twins; a twin's own write applies to itself. -/
def State.applied (s : State) (a : Agent) (t : Nat) (f : State → Nat → State) : State :=
  if s.inside a t then f s t else s.both t f

/-- A write to a tile register by an agent (R297, R310, R428). -/
def State.tileWrite (s : State) (a : Agent) (t off : Nat) (effect : State → Nat → State) : Result :=
  .next (if s.vfOut a then s
    else if !s.mayReachTile a t then s.violation a (tileCsrAddress t off) 9 t
    else if s.siteReached a t && s.addressable a t then s.applied a t effect
    else s)

end Sys2Proof.Machine
end

