-- ==== Sys2Proof/Machine/Vitrine.lean ====
section
/-! DEFINITION. The vitrine of M- and V-tiles (R129-R147): banks and ports, the acceptance of requests, the fixed
pipeline, error correction, and segment power. What a completed access delivers to its user is in the users' files. -/

namespace Sys2Proof.Machine

/-- R129: the bytes of a vitrine. -/
def vitSize (t : Nat) : Nat :=
  match kindOf t with
  | .m => 4194304
  | .v => 2097152
  | _ => 0

/-- R129: the segments of a vitrine. -/
def vitSegs (t : Nat) : Nat :=
  match kindOf t with
  | .m => 8
  | .v => 4
  | _ => 0

/-- R131, R133: the segment and the bank of cell c, the cell at byte offset 4 * c. -/
def cellSeg (c : Nat) : Nat := c / 131072
def cellBank (c : Nat) : Nat := (c / 32 % 32 + c % 32) % 32

/-- A bank of a segment as one number; accesses conflict on it (R138). -/
def cellKey (c : Nat) : Nat := cellSeg c * 32 + cellBank c

/-- The bytes of a vitrine. -/
def Site.vitByte (x : Site) (o : Nat) : BitVec 8 := Map.get (fun _ => 0) x.vit o
def Site.setVitByte (x : Site) (o : Nat) (b : BitVec 8) : Site := { x with vit := Map.set (fun _ => 0) x.vit o b }

/-- The little-endian word of four bytes, and back. -/
def wordOfBytes (l : List (BitVec 8)) : BitVec 32 := BitVec.ofNat 32 (leNat l)
def bytesOfWord (w : BitVec 32) : List (BitVec 8) := leBytes 4 w.toNat

/-- The stored word of a cell. -/
def Site.cell (x : Site) (c : Nat) : BitVec 32 := wordOfBytes (Map.getRange (fun _ => 0) x.vit (4 * c) 4)

/-- R142: what a read of a cell delivers. -/
def Site.readCell (x : Site) (c : Nat) : BitVec 32 := if x.vitBad.contains c then 0xFFFFFFFF else x.cell c

/-- The cells that the bytes o .. o + n - 1 touch. -/
def cellsOf (o n : Nat) : List Nat := if n = 0 then [] else (List.range ((o + n - 1) / 4 - o / 4 + 1)).map (· + o / 4)

/-- A row access as a read of n bytes from o (within one line). -/
def readReq (port : Nat) (user : VitUser) (o n : Nat) : VitReq :=
  { port := port, user := user, write := false, cells := cellsOf o n, data := [], masks := [], amo := none, wait := 0 }

/-- A write of bytes from o (within one line). -/
def writeReq (port : Nat) (user : VitUser) (data : List (Nat × BitVec 8)) : VitReq :=
  { port := port, user := user, write := true, cells := (data.map fun d => d.1 / 4).eraseDups, data := data, masks := [], amo := none,
    wait := 0 }

/-- R137: a byte range cut at the 128 B lines. -/
def splitLines : Nat → Nat → Nat → List (Nat × Nat)
  | 0, _, _ => []
  | fuel + 1, o, n =>
    if n = 0 then [] else
    let k := min n (128 - o % 128)
    (o, k) :: splitLines fuel (o + k) (n - k)

/-- The pieces of n bytes from o. -/
def linePieces (o n : Nat) : List (Nat × Nat) := splitLines (n / 128 + 2) o n

/-- The bytes that cells read as words deliver for the range o .. o + n - 1. -/
def bytesFrom (o n : Nat) (words : List (BitVec 32)) : List (BitVec 8) :=
  ((words.flatMap bytesOfWord).drop (o % 4)).take n

/-- R144: the state code of a segment. -/
def State.segState (s : State) (t seg : Nat) : Nat := s.tfld t R.VIT_SEG_STATE (3 * seg + 2) (3 * seg)
def State.setSeg (s : State) (t seg v : Nat) : State := s.setTfld t R.VIT_SEG_STATE (3 * seg + 2) (3 * seg) v

/-- Set the cycle at which a segment's transient state ends. -/
def State.setSegEnd (s : State) (t seg at_ : Nat) : State :=
  s.modSite t fun x => { x with segEnd := Map.set (fun _ => 0) x.segEnd seg at_ }

/-- Present a request. -/
def State.present (s : State) (t : Nat) (r : VitReq) : State := s.modSite t fun x => { x with reqs := x.reqs ++ [r] }

/-! ### Ports (R136, R220) -/

/-- The internal order of a port's users. The accesses of one sequencer, a vector load or store among them, keep their program order (R170),
in which they are presented. -/
def VitUser.rank : VitUser → Nat
  | .stream .. => 0
  | .scale .. => 0
  | .row .. => 1
  | .drainRead _ p => if p < 1000 then 2 else 3
  | .codebook _ => 3
  | .drainWrite _ => 0
  | .core .. => 0
  | .vector .. => 0
  | .fetch .. => 2
  | .bn .. => 0
  | .gather .. => 0
  | .drainTail _ => 0
  | .scatter .. => 0
  | .addRead .. => 0
  | .addWrite .. => 0

/-- The BN interface's requests, on port 3. -/
def VitUser.isBn : VitUser → Bool
  | .bn .. => true
  | _ => false

/-- The first request of the lowest rank. -/
def firstByRank (rs : List VitReq) : Option VitReq :=
  rs.foldl (fun acc r => match acc with
    | none => some r
    | some q => if r.user.rank < q.user.rank then some r else some q) none

/-- R222: the gather port waits with a read that uses a bank held for the VSCATTER.ADD of an earlier instruction. -/
def Site.heldBack (x : Site) (r : VitReq) : Bool :=
  let other (id : Nat) : Bool := r.cells.any fun c => x.holds.any fun h => h.through.isNone && h.owner != id && h.bank == cellKey c
  match r.user with
  | .gather id _ => other id
  | .addRead id _ => other id
  | _ => false

/-- R136, R138, R221: the request that a port presents: one that was refused stays presented; otherwise its users in their order, each in the
order of its requests; on port 3 the BN interface and the tile side alternate while both wait. -/
def Site.presents (x : Site) (port : Nat) : Option VitReq :=
  let rs := x.reqs.filter fun r => r.port == port
  let bn := rs.find? fun r => r.user.isBn
  let tile := firstByRank (rs.filter fun r => !r.user.isBn)
  let next := match bn, tile with
    | some b, some t => if x.bnTurn then some b else some t
    | some b, none => some b
    | none, r => r
  match rs.find? fun r => 0 < r.wait with
  | some r => some r
  | none => next.filter fun r => !x.heldBack r

/-- R138: the presented request that is considered next in this tile cycle: the longest refused first, then by port. -/
def Site.nextReq (x : Site) : Option VitReq :=
  ([0, 1, 2, 3].filter fun p => !x.ports.contains p).foldl (fun acc p =>
    match acc, x.presents p with
    | none, r => r
    | some a, some r => if a.wait < r.wait then some r else some a
    | a, none => a) none

/-- Take a request off the list. -/
def Site.dropReq (x : Site) (r : VitReq) : Site := { x with reqs := x.reqs.erase r }

/-- R138: the request uses a bank that an access of this cycle uses or that is held. A VSCATTER.ADD's write does not meet its
own hold. -/
def Site.conflicts (x : Site) (r : VitReq) : Bool :=
  let own := match r.user with
    | .addWrite i _ => some i
    | _ => none
  r.cells.any fun c => x.banks.contains (cellKey c) ||
    x.holds.any fun h => h.bank == cellKey c && (match h.through with | some n => x.cycle ≤ n | none => own != some h.owner)

/-- The bytes of a cell that a write covers whole. -/
def covered (r : VitReq) (c : Nat) : Nat :=
  (r.data.filter fun d => d.1 / 4 == c && !(r.masks.any fun m => m.1 == d.1)).length

/-- R140: the cells that a write covers only in part; every cell of an AMO counts as one. -/
def partialCells (r : VitReq) : List Nat := if r.amo.isSome then r.cells else r.cells.filter fun c => covered r c < 4

/-- R171: the new value of an AMO of w bits. -/
def amoResult (op w : Nat) (old b d : Nat) : Nat :=
  let m := 2 ^ w
  let o := old % m
  let v := b % m
  let sg (n : Nat) : Int := if n < m / 2 then n else (n : Int) - m
  match op with
  | 0 => v
  | 1 => (o + v) % m
  | 2 => o &&& v
  | 3 => o ||| v
  | 4 => o ^^^ v
  | 5 => if sg o ≤ sg v then o else v
  | 6 => if sg o ≤ sg v then v else o
  | 7 => min o v
  | 8 => max o v
  | _ => if o = d % m then v else o

/-- Store bytes; a cell covered whole leaves the uncorrectable state, and a pending write-back of the cell is dropped
(R141, R142). -/
def Site.storeBytes (x : Site) (data masks : List (Nat × BitVec 8)) : Site :=
  let cells := (data.map fun d => d.1 / 4).eraseDups
  let whole := cells.filter fun c =>
    (data.filter fun d => d.1 / 4 == c && !(masks.any fun m => m.1 == d.1)).length == 4
  let y := data.foldl (fun (y : Site) d =>
    let m := Map.get (fun _ => 0xFF) masks d.1
    y.setVitByte d.1 ((d.2 &&& m) ||| (y.vitByte d.1 &&& ~~~m))) x
  { y with vitBad := y.vitBad.filter fun c => !whole.contains c,
           writebacks := y.writebacks.filter fun e => !cells.contains e.1 }

/-- The first byte of an access by its cells and width. -/
def amoBytes (r : VitReq) : Nat := match r.cells with | c :: _ => 4 * c | [] => 0

/-- R141, R142: the errors that a read of cells finds: counts, the address of the last uncorrectable cell, its fault
records and the write-backs of corrected cells. -/
def State.readErrors (s : State) (t : Nat) (cells corr uncorr : List Nat) : State :=
  let s := s.modSite t fun x => { x with vitBad := x.vitBad ++ (uncorr.filter fun c => cells.contains c && !x.vitBad.contains c) }
  let bad := (s.site t).vitBad
  cells.foldl (fun s c =>
    if bad.contains c then
      let s := (s.tbump t R.VIT_ECC_UNCORR 1).setTreg t R.VIT_ECC_ADDR (BitVec.ofNat 32 (4 * c))
      s.uncorrectable (s.sourceOf t 0) (s.partOf t) 0x10 (le 4 (4 * c))
    else if corr.contains c then
      (s.tbump t R.VIT_ECC_CORR 1).modSite t fun x => { x with writebacks := x.writebacks ++ [(c, x.cell c)] }
    else s) s

/-- The cells that a request reads: those of a read or an AMO, and those that a merge write covers in part (R140). -/
def VitReq.readCells (r : VitReq) : List Nat := if r.write && r.amo.isNone then partialCells r else r.cells

/-- The hold of a VSCATTER.ADD on the banks of a write ends (R222). -/
def Site.release (x : Site) (r : VitReq) : Site :=
  match r.user with
  | .addWrite i _ => { x with holds := x.holds.filter fun h => !(h.through.isNone && h.owner == i && (r.cells.map cellKey).contains h.bank) }
  | _ => x

/-- R222: the read of a VSCATTER.ADD brings its data at a + 6, and its write is presented at a + 7. -/
def VitReq.latency (r : VitReq) : Nat :=
  match r.user with
  | .addRead .. => 7
  | _ => 6

/-- What the accepted access delivers: the cells it read. An AMO with an uncorrectable cell delivers all ones (R171). -/
def Site.delivers (x : Site) (r : VitReq) : List (BitVec 32) :=
  if r.amo.isSome && r.cells.any x.vitBad.contains then r.cells.map fun _ => 0xFFFFFFFF else r.cells.map x.readCell

/-- R138-R142, R146: the presented request r is accepted, refused on a conflict, or answered CLOSED. `corr` and `uncorr` are the
cells in which the read finds a correctable or an uncorrectable error. -/
def State.considerReq (s : State) (t : Nat) (r : VitReq) (corr uncorr : List Nat) : State :=
  let x := s.site t
  let closed := match r.cells with
    | c :: _ => s.segState t (cellSeg c) != 0
    | [] => false
  let taken (x : Site) : Site :=
    { x.dropReq r with ports := r.port :: x.ports, bnTurn := if r.port == 3 then !r.user.isBn else x.bnTurn }
  if closed then
    s.modSite t fun x =>
      { (taken x).release r with fly := x.fly ++ [{ req := r, done := x.cycle + 6, status := 2, data := r.cells.map fun _ => 0 }] }
  else if x.conflicts r then
    (s.setTreg t (R.VIT_REFUSED r.port) (s.treg t (R.VIT_REFUSED r.port) + 1)).modSite t fun x =>
      { x with reqs := x.reqs.map (fun q => if q = r then { q with wait := q.wait + 1 } else q), ports := r.port :: x.ports }
  else
    (s.readErrors t r.readCells corr uncorr).modSite t fun x =>
      let y := { taken x with fly := x.fly ++ [{ req := r, done := x.cycle + r.latency, status := 0, data := x.delivers r }],
                              banks := r.cells.map cellKey ++ x.banks }
      let y := if r.write then { y with holds := y.holds ++ (partialCells r).map fun c =>
        { bank := cellKey c, through := some (x.cycle + 1), owner := 0 } } else y
      match r.amo, r.user with
      | some (op, wide, b, d), _ =>
        if r.cells.any x.vitBad.contains then y else
        let n := if wide then 8 else 4
        let o := amoBytes r
        let cur := leNat (Map.getRange (fun _ => 0) x.vit o n)
        let new := leBytes n (amoResult op (8 * n) cur b.toNat d.toNat)
        y.storeBytes (((List.range n).map (· + o)).zip new) []
      | none, .addRead i _ =>
        { y with holds := y.holds ++ r.cells.map fun c => { bank := cellKey c, through := none, owner := i } }
      | none, _ => if r.write then (y.storeBytes r.data r.masks).release r else y

/-- VIT_REQUEST_ACCEPT (R138): the next presented request of the site's tile cycle is considered. -/
def execVitRequestAccept (t : Nat) (corr uncorr : List Nat) (s : State) : Result :=
  match (s.site t).nextReq with
  | some r => .next (s.considerReq t r corr uncorr)
  | none => .next s

/-- The rest of a tile cycle's arbitration. -/
def State.arbitrate (s : State) (t : Nat) : State :=
  let one (s : State) : State := match (s.site t).nextReq with
    | some r => s.considerReq t r [] []
    | none => s
  one (one (one (one s)))

/-- R140, R141: no accepted access uses the bank of a cell in this cycle, and no merge write its second cycle. -/
def Site.bankFree (x : Site) (c : Nat) : Bool :=
  !x.banks.contains (cellKey c) &&
    !(x.holds.any fun h => h.bank == cellKey c && (match h.through with | some n => decide (x.cycle ≤ n) | none => false))

/-- ECC_WRITEBACK (R141): the corrected value of a cell is written back in the first cycle in which no accepted access uses
its bank. -/
def execEccWriteback (t c : Nat) (s : State) : Result :=
  let x := s.site t
  s.when (x.writebacks.any (fun e => e.1 == c) && x.bankFree c)
    (s.modSite t fun x => { x with writebacks := x.writebacks.filter fun e => e.1 != c })

/-! ### Segments (R144, R145) -/

/-- R145: an ignored command. -/
def State.badSegCmd (s : State) (t : Nat) : State := s.setTbit t R.VIT_SEG_STATE 24 true

/-- R145: an open command. A closed segment becomes open in the next cycle. -/
def State.segOpen (s : State) (t seg : Nat) : State :=
  match s.segState t seg with
  | 2 => s.setSegEnd t seg ((s.site t).cycle + 1)
  | 4 => (s.setSeg t seg 5).setSegEnd t seg ((s.site t).cycle + 4352)
  | 0 => s
  | 5 => s
  | _ => s.badSegCmd t

/-- R145: a close command. -/
def State.segClose (s : State) (t seg : Nat) : State :=
  match s.segState t seg with
  | 0 => (s.setSeg t seg 1).setSegEnd t seg ((s.site t).cycle + 6)
  | 1 => s
  | 2 => s
  | 3 => s
  | 4 => s
  | _ => s.badSegCmd t

/-- R145: an off command. -/
def State.segOff (s : State) (t seg : Nat) : State :=
  match s.segState t seg with
  | 2 => (s.setSeg t seg 3).setSegEnd t seg ((s.site t).cycle + 64)
  | 3 => s
  | 4 => s
  | _ => s.badSegCmd t

/-- R145, R147: a command word written to VIT_SEG_CTL. -/
def State.segCommand (s : State) (t cmd seg : Nat) : State :=
  if vitSize t == 0 then s.badSegCmd t else
  match cmd with
  | 0 => s.segOpen t seg
  | 1 => s.segClose t seg
  | 2 => s.segOff t seg
  | _ => s.badSegCmd t

/-- SEG_OPEN, SEG_CLOSE, SEG_OFF (R145). -/
def execSegOpen (a : Agent) (t seg : Nat) (s : State) : Result := s.tileWrite a t R.VIT_SEG_CTL fun s t => s.segCommand t 0 (seg % 8)
def execSegClose (a : Agent) (t seg : Nat) (s : State) : Result := s.tileWrite a t R.VIT_SEG_CTL fun s t => s.segCommand t 1 (seg % 8)
def execSegOff (a : Agent) (t seg : Nat) (s : State) : Result := s.tileWrite a t R.VIT_SEG_CTL fun s t => s.segCommand t 2 (seg % 8)

/-- The transient state of a segment is over. -/
def State.segDue (s : State) (t seg state : Nat) : Bool :=
  let e := Map.get (fun _ => 0) (s.site t).segEnd seg
  s.segState t seg == state && e != 0 && e ≤ (s.site t).cycle

/-- R144: the contents of a segment are gone; every cell reads 0 once it is open again. -/
def State.clearSeg (s : State) (t seg : Nat) : State :=
  s.modSite t fun x => { x with vit := Map.clearRange (524288 * seg) (524288 * (seg + 1)) x.vit,
                                vitBad := x.vitBad.filter fun c => cellSeg c != seg }

/-- SEG_DRAIN_END (R144): six cycles after a close, the segment is closed. -/
def execSegDrainEnd (t seg : Nat) (s : State) : Result :=
  s.when (s.segDue t seg 1) ((s.setSeg t seg 2).setSegEnd t seg 0)

/-- SEG_POWER_OFF_END (R144): the segment is off and its contents are lost. -/
def execSegPowerOffEnd (t seg : Nat) (s : State) : Result :=
  s.when (s.segDue t seg 3) (((s.setSeg t seg 4).setSegEnd t seg 0).clearSeg t seg)

/-- SEG_INIT_END (R144): the segment is open and every word is 0. -/
def execSegInitEnd (t seg : Nat) (s : State) : Result :=
  s.when (s.segDue t seg 5) (((s.setSeg t seg 0).setSegEnd t seg 0).clearSeg t seg)

/-- The segment events that are due at the start of a tile cycle. -/
def State.segTick (s : State) (t : Nat) : State :=
  (s.site t).segEnd.foldl (fun s e =>
    let seg := e.1
    if s.segDue t seg 1 || s.segDue t seg 3 || s.segDue t seg 5 || s.segDue t seg 2 then
      let st := s.segState t seg
      let s := (s.setSeg t seg (if st == 1 then 2 else if st == 3 then 4 else 0)).setSegEnd t seg 0
      if st == 3 || st == 5 then s.clearSeg t seg else s
    else s) s

/-- The vitrine's part of the change from one tile cycle to the next: nothing is accepted yet, holds of past cycles end, and
corrected cells whose bank was free are written back (R141). -/
def Site.nextCycle (x : Site) : Site :=
  { x with cycle := x.cycle + 1, ports := [], banks := [],
           holds := x.holds.filter (fun h => match h.through with | some n => x.cycle < n | none => true),
           writebacks := x.writebacks.filter (fun e => !x.bankFree e.1), tokIn := [], tokOut := [],
           arr := { x.arr with rows := [] } }

/-- R145: the segments whose open command took effect in the cycle before are open. -/
def State.segReopen (s : State) (t : Nat) : State :=
  (s.site t).segEnd.foldl (fun s e => if s.segDue t e.1 2 then (s.setSeg t e.1 0).setSegEnd t e.1 0 else s) s

end Sys2Proof.Machine
end

