-- ==== Sys2Proof/Machine/Operands.lean ====
section
/-! DEFINITION. Operand forms: descriptors, handles and scale records (R85, R86, R193-R196), the token field (R188) and the
fold of a matrix instruction (R60-R62, R69). -/

namespace Sys2Proof.Machine

/-- The bits [hi:lo] of a number. -/
abbrev fieldOf (n hi lo : Nat) : Nat := n / 2 ^ lo % 2 ^ (hi - lo + 1)

/-! ### Descriptors (R193, R194) -/

/-- A descriptor's fields. -/
structure Desc where
  addr : Nat
  rows : Nat
  cols : Nat
  fmt : Nat
  layout : Nat
  tr : Bool
  stride : Nat
  scalePtr : Nat
  scaled : Bool
  zero : Nat
deriving DecidableEq, Repr

/-- R193: the fields of a descriptor word. -/
def desc (w : BitVec 128) : Desc :=
  let n := w.toNat
  { addr := fieldOf n 21 0, rows := 65536 * fieldOf n 112 107 + fieldOf n 37 22 + 1, cols := fieldOf n 59 38 + 1,
    fmt := fieldOf n 64 60, layout := fieldOf n 66 65, tr := decide (fieldOf n 67 67 = 1), stride := fieldOf n 87 68,
    scalePtr := fieldOf n 105 88 * 16, scaled := decide (fieldOf n 106 106 = 1), zero := fieldOf n 127 113 }

/-- R194: the bit position of stored element (r, c) of width w in layouts 0 and 1. -/
def Desc.bitPos (d : Desc) (w r c : Nat) : Nat :=
  if d.layout = 0 then 8 * (d.addr + r * d.stride) + c * w
  else 8 * ((d.addr / 4096 + r / 32 * d.stride + c * w / 1024) * 4096 + r % 32 * 128) + c * w % 1024

/-- R194: the bit position of the element at logical row i and column j. -/
def Desc.logPos (d : Desc) (w i j : Nat) : Nat := if d.tr then d.bitPos w j i else d.bitPos w i j

/-- The width in bits of an element of a format in memory; BIN1 elements are bits. -/
def Desc.width (d : Desc) : Nat := Num.width d.fmt

/-- The last stored row and column. -/
def Desc.storedRows (d : Desc) : Nat := if d.tr then d.cols else d.rows
def Desc.storedCols (d : Desc) : Nat := if d.tr then d.rows else d.cols

/-- Every byte of every element of width w lies inside a vitrine of `size` bytes, in layouts 0 and 1: the last row and, in
layout 1, the last block column are the farthest. -/
def Desc.inside (d : Desc) (w size : Nat) : Bool :=
  let r := d.storedRows - 1
  let c := d.storedCols - 1
  let last := if d.layout = 0 then d.bitPos w r c + w - 1
    else
      -- the farthest block row of the last stripe, and of the stripe before it
      max (d.bitPos w r c) (if r < 32 then 0 else d.bitPos w (r / 32 * 32 - 1) c) + w - 1
  decide (last / 8 < size)

/-! ### Scale records (R85-R87) -/

/-- The record that a descriptor names, read from the vitrine; the defaults of R85 where it names none. -/
def Site.scaleRec (x : Site) (d : Desc) : ScaleRec :=
  if !d.scaled then { tensor := 0x3F800000, fmt := 0, block := 0, codebook := 0, stride := 0, base := 0 }
  else
    let o := d.scalePtr
    let b (i : Nat) : Nat := (bytesOfWord (x.readCell ((o + i) / 4)) |>.getD ((o + i) % 4) 0).toNat
    { tensor := x.readCell (o / 4), fmt := b 4, block := b 5, codebook := b 6, stride := (x.readCell (o / 4 + 2)).toNat,
      base := o + 16 }

/-- The block size B of a record. -/
def ScaleRec.size (r : ScaleRec) : Nat := 16 * 2 ^ r.block

/-- R86: the byte of the scale of block kb for index i. -/
def ScaleRec.at_ (r : ScaleRec) (kb i : Nat) : Nat := r.base + kb * r.stride + i

/-- R85: the descriptor names a record. -/
def ScaleRec.named (r : ScaleRec) : Bool := r.base != 0

/-- R60: the scale arrangement of an operand: whether it has a record, the scale format, and the block code where it counts. -/
def ScaleRec.arrangement (r : ScaleRec) : Bool × Nat × Nat := (r.named, r.fmt, if r.fmt == 0 then 0 else r.block)

/-- R87: what every record must keep; `need` is the least stride, and `narrow` the narrow flag of the named codebook. -/
def ScaleRec.bad (r : ScaleRec) (fmt need : Nat) (narrow : Bool) : Bool :=
  !Num.isPosNormal r.tensor || 2 < r.fmt || (r.fmt != 0 && 2 < r.block) || (fmt == 0x10 && 63 < r.codebook) ||
  (r.named && (r.stride % 4 != 0 || r.stride < need)) ||
  (r.fmt != 0 && [0x02, 0x03, 0x11].contains fmt) ||
  (r.fmt == 2 && ([0x01, 0x04, 0x05].contains fmt || (fmt == 0x10 && !narrow)))

/-- R84: paired-eligible. -/
def pairedEligible (fmt : Nat) (r : ScaleRec) (narrow : Bool) : Bool :=
  ((0x08 ≤ fmt && fmt ≤ 0x0E) || (fmt == 0x10 && narrow)) && r.fmt ≤ 1

/-! ### The fold (R60-R62, R69) -/

/-- R61: sub-problems, pass depth in rows, and column block. -/
def foldSubs (fold : Nat) : Nat := match fold with | 0 => 1 | 1 => 2 | 2 => 2 | _ => 4
def foldDepth (fold : Nat) : Nat := if fold == 1 || fold == 3 then 16 else 32
def foldBlock (fold : Nat) : Nat := if fold == 2 || fold == 3 then 16 else 32

/-- R61: the lines of a chunk. -/
def foldChunk (fold r : Nat) : Nat := if fold == 1 || fold == 3 then r / 2 else r

/-- R61: elements of K per row: 16 bits of BIN1 make one row element. -/
def perRow (fmt : Nat) : Nat := if fmt == 0x11 then 16 else 1

/-- Ceiling division. -/
def ceilDiv (a b : Nat) : Nat := (a + b - 1) / b

/-- The stream format of an instruction. -/
def MmRec.streamFmt (i : MmRec) : Nat := (desc (i.streams.getD 0 0)).fmt
def MmRec.statFmt (i : MmRec) : Nat := (desc (i.stats.getD 0 0)).fmt

/-- R82, R83: the number of sub-passes, by the wider operand of a MAC. -/
def subCount (a b : Nat) : Nat := if a == 3 || b == 3 then 6 else if a == 2 || b == 2 then 3 else 1
def MmRec.subs (i : MmRec) : Nat := subCount i.streamFmt i.statFmt

/-- R62: the counts of the pass order. -/
def MmRec.nbCount (i : MmRec) : Nat := ceilDiv i.n (foldBlock i.fold)
def MmRec.chunk (i : MmRec) : Nat := foldChunk i.fold i.r
def MmRec.chCount (i : MmRec) : Nat := ceilDiv i.m i.chunk
def MmRec.depthK (i : MmRec) : Nat := foldDepth i.fold * perRow i.streamFmt
def MmRec.kpCount (i : MmRec) : Nat := ceilDiv i.k i.depthK
def MmRec.passes (i : MmRec) : Nat := i.nbCount * i.chCount * i.kpCount * i.subs

/-- R62: pass number p as (nb, ch, kp, sp). -/
def MmRec.coords (i : MmRec) (p : Nat) : Nat × Nat × Nat × Nat :=
  let a := p / i.subs
  let b := a / i.kpCount
  (b / i.chCount, b % i.chCount, a % i.kpCount, p % i.subs)

/-- R47: lines per slot, slots of a pass of n lines. -/
def MmRec.perSlot (i : MmRec) : Nat := if i.paired then 2 else 1
def MmRec.slotsOf (i : MmRec) (n : Nat) : Nat := ceilDiv n i.perSlot
def MmRec.linesOf (i : MmRec) (ch : Nat) : Nat := min i.chunk (i.m - ch * i.chunk)

/-- R69: elements of a slot per line: one per row in f and kh, two in nh and q. -/
def unitElems (fold : Nat) : Nat := if fold == 2 || fold == 3 then 64 else 32
def unitBits (fold fmt lines : Nat) : Nat := unitElems fold * lines * (if fmt == 0x11 then 16 else Num.width fmt)

/-- R69: the bytes of a stream unit. -/
def MmRec.unitBytes (i : MmRec) : Nat := unitBits i.fold i.streamFmt i.perSlot / 8

/-! ### Tokens (R188, R189) -/

/-- The token field of an engine instruction. -/
def EngInstr.bits (i : EngInstr) (hi lo : Nat) : Nat := fieldOf i.word.toNat hi lo
def EngInstr.we (i : EngInstr) : Bool := i.bits 63 63 == 1
def EngInstr.wk (i : EngInstr) : Nat := i.bits 62 59
def EngInstr.se (i : EngInstr) : Bool := i.bits 58 58 == 1
def EngInstr.sk (i : EngInstr) : Nat := i.bits 57 54
def EngInstr.group (i : EngInstr) : Nat := i.bits 6 1

/-- R217: counter k of a tile. -/
def State.token (s : State) (t k : Nat) : Nat := s.tfld t (R.ENG_TOKEN (k / 4)) (8 * (k % 4) + 7) (8 * (k % 4))
def State.setToken (s : State) (t k v : Nat) : State := s.setTfld t (R.ENG_TOKEN (k / 4)) (8 * (k % 4) + 7) (8 * (k % 4)) v

/-- R189: the counter after its increments; a sum above 255 becomes 255 and sets tok_sat. -/
def State.satToken (s : State) (t k v : Nat) : State :=
  if 255 < v then (s.setToken t k 255).setTbit t R.ENG_STATUS 12 true else s.setToken t k v

/-- What a list of changes of counters adds up to for counter k. -/
def tokSum (l : List (Nat × Nat)) (k : Nat) : Nat := ((l.filter fun e => e.1 == k).map (·.2)).foldl (· + ·) 0

/-- R189: the increments and the takes of counter k in this tile cycle. -/
def State.tokIn (s : State) (t k : Nat) : Nat := tokSum (s.site t).tokIn k
def State.tokOut (s : State) (t k : Nat) : Nat := tokSum (s.site t).tokOut k

/-- R189: an increment. It is added before the takes of its tile cycle. -/
def State.addToken (s : State) (t k n : Nat) : State :=
  let out := s.tokOut t k
  let v := s.token t k + out + n
  let s := s.modSite t fun x => { x with tokIn := x.tokIn ++ [(k, n)] }
  if 255 < v then (s.setToken t k (255 - out)).setTbit t R.ENG_STATUS 12 true else s.setToken t k (v - out)

/-- R189: TK.SET replaces the value, and every increment of its tile cycle is added to the new one. -/
def State.replaceToken (s : State) (t k n : Nat) : State := s.satToken t k (n + s.tokIn t k)

/-- R189: take n from a counter. -/
def State.takeToken (s : State) (t k n : Nat) : State :=
  (s.modSite t fun x => { x with tokOut := x.tokOut ++ [(k, n)] }).setToken t k (s.token t k - n)

end Sys2Proof.Machine
end

