-- ==== Sys2Proof/Machine/Quant.lean ====
section
/-! DEFINITION. The statistics slots (R96-R101): counts, windows, closes, early raises, and CSR writes at boundaries. -/

namespace Sys2Proof.Machine

/-- A slot's window and raises at rest. -/
def QWin.empty : QWin := { count := 0, clip := 0, amax := 0, raises := 0 }

/-- No counts. -/
def QCounts.zero : QCounts := { count := 0, clip := 0, uflow := 0, nonfin := 0, sat := 0, amax := 0 }

/-- The magnitude bits of an FP32 word; for finite words they order as the magnitudes do. -/
def absBits (w : BitVec 32) : BitVec 32 := w &&& 0x7FFFFFFF

/-- The larger of two nonnegative finite FP32 words. -/
def maxBits (a b : BitVec 32) : BitVec 32 := if a.toNat < b.toNat then b else a

/-- R96: one converted value. -/
def QCounts.one (c : QCounts) (v : BitVec 32) (k : Num.QClass) : QCounts :=
  { count := c.count + 1, clip := c.clip + (if k = .clipped then 1 else 0), uflow := c.uflow + (if k = .uflow then 1 else 0),
    nonfin := c.nonfin + (if k = .nonfin then 1 else 0), sat := c.sat,
    amax := if Num.isFinite v then maxBits c.amax (absBits v) else c.amax }

/-- A slot's window. -/
def State.qwin (s : State) (t q : Nat) : QWin := Map.get (fun _ => QWin.empty) (s.site t).qwin q
def State.setQwin (s : State) (t q : Nat) (w : QWin) : State :=
  s.modSite t fun x => { x with qwin := Map.set (fun _ => QWin.empty) x.qwin q w }

/-- Fields of QUANT_CTL_Qn. -/
def State.qauto (s : State) (t q : Nat) : Bool := s.tbit t (R.QUANT_CTL q) 0
def State.qfmt (s : State) (t q : Nat) : Nat := s.tfld t (R.QUANT_CTL q) 10 6
def State.qthresh (s : State) (t q : Nat) : Nat := s.tfld t (R.QUANT_THRESH q) 15 0

/-- R97: f. -/
def State.qreach (s : State) (t q : Nat) : Rat :=
  Num.fmax? (s.qfmt t q) * (if s.tfld t (R.QUANT_CTL q) 12 11 == 2 then 448 else 1)

/-- The value of a finite FP32 word. -/
def ratOf (w : BitVec 32) : Rat := (Num.of32 w).toRat

/-- R97: rnd, with the exponent unbounded. -/
def State.qround (s : State) (t q : Nat) (x : Rat) : Rat :=
  if s.tbit t (R.QUANT_CTL q) 5 then
    let l := Num.log2 x
    if Num.pow2 l = x then x else Num.pow2 (l + 1)
  else Num.roundBits 24 x

/-- R97: clamp, as FP32. -/
def clampScale (x : Rat) : BitVec 32 := Num.round32Mag false (min (max x (Num.pow2 (-126))) (Num.pow2 127))

/-- R97: a slot of BF16 or FP32 never changes its scale. -/
def State.qscales (s : State) (t q : Nat) : Bool := !([1, 3].contains (s.qfmt t q))

/-- R96, R98: counts enter a slot, and its window in auto-scale mode with a threshold. Counts made while either is off never enter the
window, which is kept as it is meanwhile (DESIGN CHOICE, log entry 90). -/
def State.qcount (s : State) (t q : Nat) (c : QCounts) : State :=
  let s := s.tbump64 t (R.QUANT_STAT_COUNT_LO q) c.count
  let s := s.tbump64 t (R.QUANT_STAT_CLIP_LO q) c.clip
  let s := s.tbump t (R.QUANT_STAT_UFLOW q) c.uflow
  let s := s.tbump t (R.QUANT_STAT_NONFIN q) c.nonfin
  let s := s.tbump t (R.QUANT_STAT_SCALE_SAT q) c.sat
  let s := s.setTreg t (R.QUANT_STAT_AMAX q) (maxBits (s.treg t (R.QUANT_STAT_AMAX q)) c.amax)
  if s.qauto t q && s.qthresh t q != 0 then
    let w := s.qwin t q
    s.setQwin t q { w with count := w.count + c.count, clip := w.clip + c.clip, amax := maxBits w.amax c.amax }
  else s

/-- R98: the check at the end of a drain that counted into the slot. -/
def State.qcheck (s : State) (t q : Nat) : State :=
  let w := s.qwin t q
  let th := s.qthresh t q
  if s.qauto t q && th != 0 && 1024 ≤ w.count && th * w.count < 65536 * w.clip then
    let s := s.setQwin t q { QWin.empty with raises := w.raises + 1 }
    if s.qscales t q then
      s.setTreg t (R.QUANT_SCALE q)
        (clampScale (max (2 * ratOf (s.treg t (R.QUANT_SCALE q)))
          (s.qround t q (ratOf w.amax * ratOf (s.treg t (R.QUANT_MARGIN q)) / s.qreach t q))))
    else s
  else s

/-- Clear the step counts and the window. -/
def State.qclearStep (s : State) (t q : Nat) : State :=
  let s := [R.QUANT_STAT_COUNT_LO q, R.QUANT_STAT_COUNT_HI q, R.QUANT_STAT_CLIP_LO q, R.QUANT_STAT_CLIP_HI q,
    R.QUANT_STAT_UFLOW q, R.QUANT_STAT_NONFIN q, R.QUANT_STAT_SCALE_SAT q, R.QUANT_STAT_AMAX q].foldl
      (fun s a => s.setTreg t a 0) s
  s.setQwin t q .empty

/-- R97: a close with a merged amax. -/
def State.qclose (s : State) (t q : Nat) (merge : BitVec 32) : State :=
  let count := s.treg64 t (R.QUANT_STAT_COUNT_LO q)
  let clip := s.treg64 t (R.QUANT_STAT_CLIP_LO q)
  let a := maxBits (s.treg t (R.QUANT_STAT_AMAX q)) merge
  let s := s.setTreg t (R.QUANT_MERGE q) 0
  let s := if 0 < count || a != 0 then
      (List.range 16).foldl (fun (u : State) i =>
        u.setTreg t (R.QUANT_HIST q i) (if i = 0 then a else s.treg t (R.QUANT_HIST q (i - 1)))) s
    else s
  let s := s.setTreg t (R.QUANT_STAT_LAST_AMAX q) a
  let share := if 0 < count then min 65535 (65536 * clip / count) else 0
  let s := s.setTreg t (R.QUANT_STAT_LAST_SHARE q) (BitVec.ofNat 32 (min 65535 (s.qwin t q).raises * 65536 + share))
  let h := (List.range (s.tfld t (R.QUANT_CTL q) 4 1 + 1)).foldl (fun m i => maxBits m (s.treg t (R.QUANT_HIST q i))) 0
  let s := if s.qauto t q && h != 0 && s.qscales t q then
      s.setTreg t (R.QUANT_SCALE q)
        (clampScale (s.qround t q (ratOf h * ratOf (s.treg t (R.QUANT_MARGIN q)) / s.qreach t q)))
    else s
  let s := s.qclearStep t q
  s.setTreg t (R.QUANT_STAT_STEPS q) (s.treg t (R.QUANT_STAT_STEPS q) + 1)

/-- R101: clear of QUANT_CTL_Qn; QUANT_SCALE_Qn is kept. -/
def State.qclear (s : State) (t q : Nat) : State :=
  let s := s.qclearStep t q
  let s := (List.range 16).foldl (fun (s : State) i => s.setTreg t (R.QUANT_HIST q i) 0) s
  ((s.setTreg t (R.QUANT_STAT_LAST_AMAX q) 0).setTreg t (R.QUANT_STAT_LAST_SHARE q) 0).setTreg t (R.QUANT_STAT_STEPS q) 0

/-- R101: a write to a slot register, as it takes effect at a boundary. The word 0x80000000 is no value 'not negative': QUANT_MERGE_Qn then
keeps its value (DESIGN CHOICE, log entry 92). -/
def State.qwrite (s : State) (t off : Nat) (w : BitVec 32) : State :=
  let q := (off - 0x400) / 0x80
  match (off - 0x400) % 0x80 with
  | 0x00 =>
    let s := s.tregWrite t off w
    let s := if w.getLsbD 13 then s.qclose t q (s.treg t (R.QUANT_MERGE q)) else s
    if w.getLsbD 14 then s.qclear t q else s
  | 0x04 => if Num.isPosNormal w then s.setTreg t off w else s
  | 0x08 => if 0x3F800000 ≤ w.toNat && w.toNat ≤ 0x47800000 then s.setTreg t off w else s
  | 0x3C => if w.toNat < 0x7F800000 then s.setTreg t off w else s
  | _ => s.tregWrite t off w

/-- R99: the Drain engine is idle: it has nothing in work. An instruction that still waits at the head of its queue leaves it idle
(DESIGN CHOICE, log entry 91). -/
def Site.drainIdle (x : Site) : Bool := x.drains.isEmpty

/-- R96, R99: the counts of a vector conversion enter its slot at once while the Drain engine is idle, and at the next boundary otherwise
(log entry 93). -/
def State.qcountVector (s : State) (t q : Nat) (c : QCounts) : State :=
  if (s.site t).drainIdle then s.qcount t q c else s.modSite t fun x => { x with qvec := x.qvec ++ [(q, c)] }

/-- R99: a CSR write to a slot: at once while the Drain engine is idle, at the next boundary otherwise. -/
def State.quantCsr (s : State) (t off : Nat) (w : BitVec 32) : State :=
  if (s.site t).drainIdle then s.qwrite t off w
  else s.modSite t fun x => { x with qcsr := x.qcsr ++ [(off, w)] }

/-- R99: what a boundary lets take effect: the counts of vector conversions, then the CSR writes in their order of arrival. -/
def State.qboundary (s : State) (t : Nat) : State :=
  let vs := (s.site t).qvec
  let ws := (s.site t).qcsr
  let s := s.modSite t fun x => { x with qvec := [], qcsr := [] }
  ws.foldl (fun s e => s.qwrite t e.1 e.2) (vs.foldl (fun s e => s.qcount t e.1 e.2) s)

/-- QUANT_CLOSE (R97): close = 1 is written to QUANT_CTL_Qn, its settings kept. -/
def execQuantClose (a : Agent) (t q : Nat) (s : State) : Result :=
  s.tileWrite a t (R.QUANT_CTL (q % 8))
    fun s t => s.quantCsr t (R.QUANT_CTL (q % 8)) (putBits (s.treg t (R.QUANT_CTL (q % 8))) 14 13 1)

/-- QUANT_CLEAR (R101): clear = 1 is written to QUANT_CTL_Qn, its settings kept. -/
def execQuantClear (a : Agent) (t q : Nat) (s : State) : Result :=
  s.tileWrite a t (R.QUANT_CTL (q % 8))
    fun s t => s.quantCsr t (R.QUANT_CTL (q % 8)) (putBits (s.treg t (R.QUANT_CTL (q % 8))) 14 13 2)

end Sys2Proof.Machine
end

