-- ==== Sys2Proof/Machine/Array.lean ====
section
/-! DEFINITION. The matrix array of an M-tile (R44-R72): scheduling of passes, the feeder and the loader, array cycles with
freezes, void cycles and idle, commits into the accumulator buffer, and chunk completions. -/

namespace Sys2Proof.Machine

/-- The array of a site. -/
def State.arr (s : State) (t : Nat) : Arr := (s.site t).arr
def State.modArr (s : State) (t : Nat) (f : Arr → Arr) : State := s.modSite t fun x => { x with arr := f x.arr }

/-- R71, R92, R128: counters count only while enable is 1. -/
def State.arrCount (s : State) (t a n : Nat) : State := if s.tbit t R.ENG_ARR_CTL 0 && n != 0 then s.tbump t a n else s
def State.arrCount64 (s : State) (t a n : Nat) : State := if s.tbit t R.ENG_ARR_CTL 0 then s.tbump64 t a n else s

/-! ### Geometry of a pass (R61, R64, R86) -/

/-- The first K index of array row r of a sub-problem, and the first N index of the pass. -/
def Pass.kAt (p : Pass) (r : Nat) : Nat := p.kp * p.mm.depthK + r * perRow p.mm.streamFmt
def Pass.n0 (p : Pass) : Nat := p.nb * foldBlock p.mm.fold

/-- K positions of row r that are not padding. -/
def Pass.kValid (p : Pass) (r : Nat) : Nat := min (perRow p.mm.streamFmt) (p.mm.k - p.kAt r)

/-- Column c of a sub-problem is not padding. -/
def Pass.colValid (p : Pass) (c : Nat) : Bool := p.n0 + c < p.mm.n

/-- R61: the sub-problem of block row j and column n. -/
def subAt (fold j n : Nat) : Nat :=
  match fold with
  | 0 => 0
  | 1 => j / 16
  | 2 => n / 16
  | _ => 2 * (j / 16) + n / 16

/-- The row of its sub-problem that block row j is. -/
def rowIn (fold j : Nat) : Nat := j % foldDepth fold

/-- The sub-problems whose cells lie in block row j. -/
def subsOfRow (fold j : Nat) : List Nat :=
  match fold with
  | 0 => [0]
  | 1 => [j / 16]
  | 2 => [0, 1]
  | _ => [2 * (j / 16), 2 * (j / 16) + 1]

/-- R83: which part of the stream and of the stationary operand a sub-pass uses. -/
def Pass.parts (p : Pass) : Nat × Nat := Num.subPass p.mm.subs p.sp

/-- The bytes that an element of w bits at a bit position touches. -/
def elemBytes (bit w : Nat) : List Nat := (List.range ((bit + w - 1) / 8 - bit / 8 + 1)).map (· + bit / 8)

/-- Insert into an ascending list without repeats. -/
def insertAsc (n : Nat) : List Nat → List Nat
  | [] => [n]
  | m :: l => if n < m then n :: m :: l else if n = m then m :: l else m :: insertAsc n l

/-- The row accesses that cover an ascending list of bytes: a byte joins the access before it when it lies in the same
line. -/
def coverLines (bs : List Nat) : List (Nat × Nat) :=
  (bs.foldl (fun acc b => match acc with
    | (o, n) :: rest => if o / 128 = b / 128 then (o, b - o + 1) :: rest else (b, 1) :: (o, n) :: rest
    | [] => [(b, 1)]) []).reverse

/-- The value of w bits at a bit position among bytes that arrived. -/
def bitsFrom (got : List (Nat × BitVec 8)) (bit w : Nat) : Nat :=
  let bs := elemBytes bit w
  let n := leNat (bs.map fun o => Map.get (fun _ => 0) got o)
  n / 2 ^ (bit % 8) % 2 ^ w

/-! ### Stream units (R69, R76, R86, R137) -/

/-- The bit position of the element of line h of slot c, sub-problem u, row r; for layout 2 the unit's order is sub-problem, line,
K. -/
def Pass.streamBit (p : Pass) (c h u r : Nat) : Nat :=
  let i := p.mm
  let d := desc (i.streams.getD 0 0)
  let w := if d.fmt == 0x11 then 16 else Num.width d.fmt
  if d.layout = 2 then
    let slot := p.ch * i.chunk / i.perSlot + c
    8 * (d.addr + p.kp * d.stride + slot * i.unitBytes) + ((u * i.perSlot + h) * foldDepth i.fold + r) * w
  else d.bitPos d.width (p.ch * i.chunk + c * i.perSlot + h) (p.kAt r)

/-- The lines of slot c that hold a line of the chunk. -/
def Pass.slotLines (p : Pass) (c : Nat) : List Nat :=
  (List.range p.mm.perSlot).filter fun h => c * p.mm.perSlot + h < p.lines

/-- The bytes that a slot reads. -/
def Pass.unitBytesOf (p : Pass) (c : Nat) : List Nat :=
  let i := p.mm
  let d := desc (i.streams.getD 0 0)
  if d.layout = 2 then
    let o := d.addr + p.kp * d.stride + (p.ch * i.chunk / i.perSlot + c) * i.unitBytes
    (List.range i.unitBytes).map (· + o)
  else
    let w := if d.fmt == 0x11 then 16 else d.width
    ((p.slotLines c).flatMap fun h => ((List.range 32).filter fun r => p.kValid r != 0).flatMap fun r =>
      elemBytes (p.streamBit c h 0 r) w).foldl (fun l b => insertAsc b l) []

/-- The bytes of the block scales that slot c needs: by line, sub-problem and block index. -/
def Pass.scaleNeeds (p : Pass) (c : Nat) : List Nat :=
  let i := p.mm
  (((p.slotLines c).flatMap fun h => (List.range (foldSubs i.fold)).flatMap fun u =>
    let rec_ := i.sRecs.getD u (i.sRecs.getD 0 { tensor := 0, fmt := 0, block := 0, codebook := 0, stride := 0, base := 0 })
    if rec_.fmt = 0 then [] else
      (((List.range (foldDepth i.fold)).filter fun r => p.kValid r != 0).map fun r => p.kAt r / rec_.size).eraseDups.map fun kb =>
        rec_.at_ kb (p.ch * i.chunk + c * i.perSlot + h)).eraseDups)

/-- A scale byte that arrived at the feeder for a pass. -/
def Arr.scaleByte (a : Arr) (pass o : Nat) : Option (BitVec 8) :=
  (a.scaleBytes.find? fun e => e.1 == pass && e.2.1 == o).map fun e => e.2.2

/-- The unit of slot c of a pass is at the feeder with the scales it needs. -/
def Arr.unitReady (a : Arr) (p : Pass) (c : Nat) : Bool :=
  (a.feeder.any fun u => u.pass == p.id && u.index == c && u.pieces == 0) &&
  (p.scaleNeeds c).all fun o => (a.scaleByte p.id o).isSome

/-- The pass and slot whose unit the feeder reads next. -/
def Arr.nextUnit (a : Arr) : Option (Pass × Nat) :=
  a.passes.findSome? fun p =>
    let c := p.entered + (a.feeder.filter fun u => u.pass == p.id).length
    if c < p.slots then some (p, c) else none

/-- R137: the feeder may present a read: it holds fewer than eight units, and no read of its own waits. -/
def Site.feederReady (x : Site) : Bool :=
  x.arr.feeder.length < 8 && !(x.reqs.any fun r => r.port == 0)

/-- Present the read of the next stream unit, and the reads of block-scale lines that it lacks. -/
def State.feederRead (s : State) (t : Nat) : State :=
  let x := s.site t
  match x.arr.nextUnit with
  | none => s
  | some (p, c) =>
    if !x.feederReady then s else
    let cover := coverLines (p.unitBytesOf c)
    let u : Arriving :=
      { pass := p.id, index := c, span := 1, pieces := cover.length, got := [], crossing := 1 < cover.length, paid := false }
    let lines := ((p.scaleNeeds c).filter fun o =>
      (x.arr.scaleByte p.id o).isNone && !(x.reqs.any fun r => r.user == .scale p.id (o / 128)) &&
        !(x.fly.any fun r => r.req.user == .scale p.id (o / 128))).map (· / 128) |>.eraseDups
    let s := s.modArr t fun a => { a with feeder := a.feeder ++ [u] }
    let s := (List.range cover.length).foldl (fun s k =>
      let e := cover.getD k (0, 0)
      s.present t (readReq 0 (.stream p.id c k) e.1 e.2)) s
    lines.foldl (fun s l => s.present t (readReq 1 (.scale p.id l) (128 * l) 128)) s

/-- STREAM_UNIT_READ (R137). -/
def execStreamUnitRead (t : Nat) (s : State) : Result := .next (s.feederRead t)

/-! ### Block rows (R53, R135) -/

/-- The descriptor of a sub-problem's stationary operand. -/
def Pass.stat (p : Pass) (u : Nat) : Desc := desc (p.mm.stats.getD u 0)

/-- Block rows that one access brings: one, or the rows of a cell column in N-major layout. -/
def Pass.rowSpan (p : Pass) : Nat :=
  let d := p.stat 0
  if d.tr then 32 / (if d.fmt == 0x11 then 16 else d.width) else 1

/-- The bytes of sub-problem u's elements in block row j: the stored bits of its valid columns (K-major). -/
def Pass.rowBytes (p : Pass) (u j : Nat) : List Nat :=
  let d := p.stat u
  let r := rowIn p.mm.fold j
  ((List.range (p.kValid r)).flatMap fun kk =>
    ((List.range (foldBlock p.mm.fold)).filter fun c => p.colValid c).flatMap fun c =>
      elemBytes (d.logPos d.width (p.kAt r + kk) (p.n0 + c)) d.width).foldl (fun l b => insertAsc b l) []

/-- The scale record of a stationary operand. -/
def Pass.statRec (p : Pass) (u : Nat) : ScaleRec :=
  p.mm.bRecs.getD u { tensor := 0, fmt := 0, block := 0, codebook := 0, stride := 0, base := 0 }

/-- The accesses that bring the rows of block row j: row accesses, a column access in N-major layout, and the scales of the
row's columns. -/
def Pass.rowReads (p : Pass) (j : Nat) : List VitReq :=
  let fold := p.mm.fold
  let r := rowIn fold j
  if p.kValid r = 0 then [] else
  ((subsOfRow fold j).flatMap fun u =>
    let d := p.stat u
    let n := ((List.range (foldBlock fold)).filter fun c => p.colValid c).length
    let reads := if d.tr then
        [{ port := 1, user := VitUser.row p.id j 0, write := false, data := [], masks := [], amo := none, wait := 0,
           cells := (List.range n).map fun c => d.logPos d.width (p.kAt r) (p.n0 + c) / 32 }]
      else (coverLines (p.rowBytes u j)).map fun e => readReq 1 (.row p.id j 0) e.1 e.2
    let rec_ := p.statRec u
    let scales := if rec_.fmt = 0 then [] else
      (linePieces (rec_.at_ (p.kAt r / rec_.size) p.n0) n).map fun e => readReq 1 (.row p.id j 0) e.1 e.2
    reads ++ scales)

/-- Row j of a pass is staged; a padding row needs no access. -/
def Arr.staged (a : Arr) (p : Pass) (j : Nat) : Option Arriving :=
  a.staging.find? fun u => u.pass == p.id && u.index ≤ j && j < u.index + u.span && u.pieces == 0
def Arr.rowReady (a : Arr) (p : Pass) (j : Nat) : Bool := p.kValid (rowIn p.mm.fold j) == 0 || (a.staged p j).isSome

/-- The next row access of the loader: the first reloading pass with a row not asked for. -/
def Arr.nextRow (a : Arr) : Option (Pass × Nat) :=
  a.passes.findSome? fun p =>
    if !p.reload then none else
    ((List.range 32).find? fun j =>
      j % p.rowSpan == 0 && p.kValid (rowIn p.mm.fold j) != 0 && p.wrote ≤ j &&
        !(a.staging.any fun u => u.pass == p.id && u.index == j)).map fun j => (p, j)

/-- R53: every row that the access stages has been written from the previous block. -/
def Arr.rowFree (a : Arr) (p : Pass) (j : Nat) : Bool :=
  match (a.passes.filter fun q => q.reload && q.id < p.id).getLast? with
  | some q => j + p.rowSpan ≤ q.wrote
  | none => true

/-- The loader presents the reads of its next block row. -/
def State.loaderRead (s : State) (t : Nat) : State :=
  match (s.arr t).nextRow with
  | none => s
  | some (p, j) =>
    if !((s.arr t).rowFree p j) then s else
    let reads := p.rowReads j
    let u : Arriving :=
      { pass := p.id, index := j, span := p.rowSpan, pieces := reads.length, got := [], crossing := false, paid := false }
    let s := s.modArr t fun a => { a with staging := a.staging ++ [u] }
    reads.foldl (fun s r => s.present t r) s

/-- LOADER_ROW_READ (R53). -/
def execLoaderRowRead (t : Nat) (s : State) : Result := .next (s.loaderRead t)

/-- A read of the feeder or loader arrived. -/
def arrive (l : List Arriving) (pass index : Nat) (bs : List (Nat × BitVec 8)) : List Arriving :=
  l.map fun u => if u.pass == pass && u.index == index then { u with pieces := u.pieces - 1, got := u.got ++ bs } else u

/-! ### Expansion (R74, R80, R82, R90, R92) -/

/-- An element as a cell takes it: `none` is null, with the flush and overflow events. -/
structure Elem where
  v : Option (BitVec 16)
  flush : Nat
  ovf : Nat
deriving DecidableEq, Repr

/-- The codebook entries of a site. -/
def Site.book (x : Site) (cb : Nat) : List (BitVec 16) := Map.getRange (fun _ => 0) x.books (16 * cb) 16

/-- R82, R92: the part of an element that a sub-pass expands. -/
def expandPart (split : Bool) (i fmt raw : Nat) (cb : List (BitVec 16)) (sc : Num.Scale) : Elem :=
  if fmt == 0x11 then { v := some (BitVec.ofNat 16 raw), flush := 0, ovf := 0 }
  else if split && (fmt == 2 || fmt == 3) then
    let q := Num.part (Num.decode fmt raw) i
    { v := q.1, flush := q.2.toNat, ovf := 0 }
  else if split && i != 0 then { v := none, flush := 0, ovf := 0 }
  else
    let e := Num.expand fmt raw cb sc
    { v := some e.v, flush := e.flush.toNat, ovf := e.ovf.toNat }

/-- The scale that a record's byte spells. -/
def ScaleRec.scale (r : ScaleRec) (b : BitVec 8) : Num.Scale :=
  match r.fmt with
  | 1 => .ue8 b.toNat
  | 2 => .e4m3 b.toNat
  | _ => .none

/-- The expanded elements of slot c, and the flushes and overflows of their expansion. -/
def Site.expandSlot (x : Site) (p : Pass) (c : Nat) : SlotData × Nat × Nat :=
  let i := p.mm
  let split := 1 < i.subs
  let got := ((x.arr.feeder.find? fun u => u.pass == p.id && u.index == c).map (·.got)).getD []
  let fmt := i.streamFmt
  let w := if fmt == 0x11 then 16 else Num.width fmt
  let elems := (p.slotLines c).map fun h => (List.range (foldSubs i.fold)).map fun u =>
    (List.range (foldDepth i.fold)).map fun r =>
      if p.kValid r = 0 then ({ v := none, flush := 0, ovf := 0 } : Elem) else
      let rec_ := i.sRecs.getD u { tensor := 0, fmt := 0, block := 0, codebook := 0, stride := 0, base := 0 }
      let raw := bitsFrom got (p.streamBit c h u r) w
      let sc := if rec_.fmt = 0 then .none else
        rec_.scale ((x.arr.scaleByte p.id (rec_.at_ (p.kAt r / rec_.size) (p.ch * i.chunk + c * i.perSlot + h))).getD 0)
      expandPart split p.parts.1 fmt raw (x.book rec_.codebook) sc
  let all := (elems.flatMap id).flatMap id
  ({ slot := c, lines := elems.map fun l => l.map fun u => u.map (·.v), met := [] },
    (all.map (·.flush)).foldl (· + ·) 0, (all.map (·.ovf)).foldl (· + ·) 0)

/-- The expanded elements of block row j by column, and the flushes and overflows. -/
def Site.expandRow (x : Site) (p : Pass) (j : Nat) : List (Option (BitVec 16)) × Nat × Nat :=
  let i := p.mm
  let fold := i.fold
  let split := 1 < i.subs
  let r := rowIn fold j
  let got := ((x.arr.staged p j).map (·.got)).getD []
  let elems := (List.range 32).map fun n =>
    let u := subAt fold j n
    let c := n % foldBlock fold
    if p.kValid r = 0 || !p.colValid c then ({ v := none, flush := 0, ovf := 0 } : Elem) else
    let d := p.stat u
    let rec_ := p.statRec u
    let raw := if d.fmt == 0x11 then
        (List.range (p.kValid r)).foldl (fun acc kk => acc + bitsFrom got (d.logPos 1 (p.kAt r + kk) (p.n0 + c)) 1 * 2 ^ kk) 0
      else bitsFrom got (d.logPos d.width (p.kAt r) (p.n0 + c)) d.width
    let sc := if rec_.fmt = 0 then .none else
      rec_.scale (Map.get (fun _ => 0) got (rec_.at_ (p.kAt r / rec_.size) (p.n0 + c)))
    expandPart split p.parts.2 d.fmt raw (x.book rec_.codebook) sc
  (elems.map (·.v), (elems.map (·.flush)).foldl (· + ·) 0, (elems.map (·.ovf)).foldl (· + ·) 0)

/-! ### Array cycles (R46-R58) -/

/-- R61: the accumulator row of line `line` of a chunk in half `half` of the array rows. -/
def MmRec.accRow (i : MmRec) (line half : Nat) : Nat := i.base + line + half * (i.r / 2)

/-- The halves of the array rows that reduce separately: two in kh and q. -/
def halves (fold : Nat) : List Nat := if fold == 1 || fold == 3 then [0, 1] else [0]

/-- R58: the rows that slot c of a pass takes with an initialising commit. -/
def Pass.initRows (p : Pass) (c : Nat) : List Nat :=
  if p.mm.add || p.kp != 0 || p.sp != 0 then [] else
  (p.slotLines c).flatMap fun h => (halves p.mm.fold).map fun half => p.mm.accRow (c * p.mm.perSlot + h) half

/-- The slot whose column n commits at array cycle T (R48). -/
def Pass.commitSlot (p : Pass) (cycle n : Nat) : Option Nat :=
  if p.start + n + 36 ≤ cycle && cycle - (p.start + n + 36) < p.slots then some (cycle - (p.start + n + 36)) else none

/-- The causes of a freeze, with the codes of ENG_ARR_STATE. -/
inductive Freeze where
  | none | stream | stat | acc
deriving DecidableEq, Repr

/-- The pass whose slot is due to enter at the current array cycle. -/
def Arr.entering (a : Arr) : Option Pass :=
  a.passes.find? fun p => !p.held && p.entered < p.slots && p.start + p.entered == a.cycle

/-- The pass and row that the loader writes at the current array cycle. -/
def Arr.loading (a : Arr) : Option (Pass × Nat) :=
  a.passes.findSome? fun p =>
    if p.reload && !p.held && p.wrote < 32 && a.cycle == p.anchor + p.wrote then some (p, p.wrote) else none

/-! ### Plinths and tags (R45, R48, R49) -/

/-- The cells (row, column) that a slot or tag reaches k cycles after it reached cell (0, 0). -/
def wavefront (k : Nat) : List (Nat × Nat) := ((List.range 32).filter fun r => r ≤ k && k < r + 32).map fun r => (r, k - r)

/-- R45: the active plinth register of a cell, and its element. -/
def Arr.selected (a : Arr) (cell : Nat) : Nat := (a.select.getLsbD cell).toNat
def Arr.active (a : Arr) (cell : Nat) : Option (BitVec 16) := Map.get (fun _ => none) a.plinths (1024 * a.selected cell + cell)

/-- R49: a cell that the tag reaches inverts its select bit. -/
def Arr.invert (a : Arr) (cell : Nat) : Arr := { a with select := a.select ^^^ (1#1024 <<< cell) }

/-- R49: the tags in flight move one step on, once in an array cycle. The tag of a pass that starts reaches cell (0, 0) as its slot enters. -/
def Arr.moveTags (a : Arr) : Arr :=
  if a.moved then a else
  let cells := (a.passes.filter fun p => p.reload && p.entered != 0 && p.start < a.cycle).flatMap fun p => wavefront (a.cycle - p.start)
  { cells.foldl (fun a e => a.invert (32 * e.1 + e.2)) a with moved := true }

/-- R45, R51: the elements of a block row are written into the shadow registers of an array row. -/
def Arr.load (a : Arr) (j : Nat) (row : List (Option (BitVec 16))) : Arr :=
  (List.range 32).foldl (fun a n =>
    { a with plinths := Map.set (fun _ => none) a.plinths (1024 * (1 - a.selected (32 * j + n)) + 32 * j + n) (row.getD n none) }) a

/-- R48: each slot meets the active elements of the cells that it has reached, and leaves with its last commit. -/
def Arr.meet (a : Arr) : Arr :=
  { a with passes := a.passes.map fun p =>
      { p with units := (p.units.filter fun u => a.cycle < p.start + u.slot + 67).map fun u =>
          { u with met := u.met ++ (wavefront (a.cycle - (p.start + u.slot))).map fun e => (32 * e.1 + e.2, a.active (32 * e.1 + e.2)) } } }

/-- R54, R56: the freeze condition of the array cycle that is due. -/
def Site.freeze (x : Site) : Freeze :=
  let a := x.arr
  if !a.busy then .none else
  let blocked := a.passes.any fun p => match p.commitSlot a.cycle 0 with
    | some c => !(a.committed.contains (p.id, 0)) && (p.initRows c).any fun r => x.taken.contains r
    | none => false
  if blocked then .acc else
  let late := match a.loading with
    | some (p, j) => !a.rowReady p j
    | none => false
  if late then .stat else
  match a.entering with
  | some p =>
    let toll := a.feeder.any fun u => u.pass == p.id && u.index == p.entered && u.crossing && !u.paid
    if toll || !a.unitReady p p.entered then .stream else .none
  | none => .none

/-- A term of one cell: padding and null elements give the verb's identity; a zero operand of MAC whose other operand is
finite is gated to +0 (R59, R104). -/
def cellTerm (v : Num.Verb) (bits : Nat) (a b : Option (BitVec 16)) : Num.Val × Bool :=
  match a, b with
  | some x, some y =>
    match v with
    | .xnorpop => (.fin false (Num.agree bits x y : Nat), false)
    | .mac =>
      let p := Num.term .mac x y
      (match p.1 with | .fin _ m => if m = 0 then .fin false 0 else p.1 | w => w, false)
    | _ => Num.term v x y
  | _, _ => (Num.of32 v.identity, false)

/-- What a column's reduction over one pass gives: the pair, and the terms lost, group results out of range and flushed
terms that it counts. -/
structure Reduced where
  pair : Num.Pair
  lost : Nat
  range : Nat
  flush : Nat
deriving DecidableEq, Repr

/-- R65: the chain over the groups of a pass. -/
def reduce (v : Num.Verb) (g : Nat) : Nat → List (Num.Val × Bool) → Reduced → Reduced
  | 0, _, acc => acc
  | n + 1, ts, acc =>
    let head := ts.take g
    let vals := head.map (·.1)
    let fl := (head.filter (·.2)).length
    let next := if v.order then
        { acc with pair := acc.pair.chain v (Num.groupOrder v vals), flush := acc.flush + fl }
      else
        let q := Num.groupSum vals
        { pair := acc.pair.chain v q.r, lost := acc.lost + q.lost, range := acc.range + q.range.toNat, flush := acc.flush + fl }
    reduce v g n (ts.drop g) next

/-- The pair of accumulator row r, column n. -/
def Site.pair (x : Site) (r n : Nat) : Num.Pair := Map.get (fun _ => Num.Pair.zero) x.acc (r * 32 + n)
def Site.setPair (x : Site) (r n : Nat) (p : Num.Pair) : Site :=
  { x with acc := Map.set (fun _ => Num.Pair.zero) x.acc (r * 32 + n) p, accBad := x.accBad.filter fun i => i != r * 32 + n }

/-- The pair that a read takes: NaN in both words where it is uncorrectable (R110). -/
def nanPair : Num.Pair := { hi := Num.nan32, err := Num.nan32 }

/-- R110: a read of a pair of the buffer as it stands in x; an uncorrectable pair found by the read is recorded. -/
def State.accRead (s : State) (x : Site) (t r n : Nat) : Num.Pair × State :=
  if x.accBad.contains (r * 32 + n) then
    (nanPair, s.uncorrectable (s.sourceOf t 0) (s.partOf t) 0x11 (le 2 r ++ le 1 n))
  else (x.pair r n, s)

/-- One commit: line h and half `half` of slot c in column n (R48, R65). An initialising commit takes its row. -/
def State.commitLine (s : State) (t : Nat) (p : Pass) (c h half n : Nat) : State :=
  let i := p.mm
  let row := i.accRow (c * i.perSlot + h) half
  let depth := foldDepth i.fold
  let u := subAt i.fold (half * 16) n
  let d := (p.units.find? fun d => d.slot == c).getD { slot := c, lines := [], met := [] }
  let elems := (d.lines.getD h []).getD u []
  let terms := (List.range depth).map fun r =>
    cellTerm i.verb (p.kValid r) (elems.getD r none) (Map.get (fun _ => none) d.met (32 * (half * 16 + r) + n))
  let first := p.kp == 0 && p.sp == 0
  let init := first && !i.add
  let from_ := if init then (({ hi := i.verb.identity, err := 0 } : Num.Pair), s) else s.accRead (s.site t) t row n
  let q := reduce i.verb i.g (depth / i.g) terms { pair := from_.1, lost := 0, range := 0, flush := 0 }
  let s := from_.2.modSite t fun x =>
    let x := x.setPair row n q.pair
    if init && n == 0 then { x with taken := if x.taken.contains row then x.taken else row :: x.taken } else x
  let s := s.arrCount t R.ENG_TREE_LOSS q.lost
  let s := s.arrCount t R.ENG_GROUP_RANGE q.range
  s.arrCount t R.ENG_TERM_FLUSH q.flush

/-- R113: a commit that falls between ACC.SCALE's read and write-back of a row sets acc_collide; the rows committed in a tile cycle are kept
for the read of that cycle. -/
def State.collide (s : State) (t row : Nat) : State :=
  let s := s.modArr t fun a => { a with rows := if a.rows.contains row then a.rows else row :: a.rows }
  if (s.site t).scaling.any (fun e => e.1 == row) then s.setTbit t R.ENG_STATUS 11 true else s

/-- The commits of column n that are due for a pass. -/
def State.commitColumn (s : State) (t : Nat) (p : Pass) (n : Nat) : State :=
  let a := s.arr t
  match p.commitSlot a.cycle n with
  | none => s
  | some c =>
    if a.committed.contains (p.id, n) then s else
    let s := s.modArr t fun a => { a with committed := (p.id, n) :: a.committed }
    if !p.colValid (n % foldBlock p.mm.fold) then s else
    (p.slotLines c).foldl (fun s h => (halves p.mm.fold).foldl (fun s half =>
      (s.commitLine t p c h half n).collide t (p.mm.accRow (c * p.mm.perSlot + h) half)) s) s

/-- Every commit of a pass that is due. -/
def State.commitPass (s : State) (t : Nat) (p : Pass) : State := (List.range 32).foldl (fun s n => s.commitColumn t p n) s

/-- Replace a pass. -/
def Arr.setPass (a : Arr) (p : Pass) : Arr := { a with passes := a.passes.map fun q => if q.id == p.id then p else q }

/-- A slot enters: its unit is expanded and leaves the feeder; slot 0 starts the pass (R49, R71). -/
def State.enterSlot (s : State) (t : Nat) (p : Pass) : State :=
  let x := s.site t
  let c := p.entered
  let e := x.expandSlot p c
  let s := s.modArr t fun a =>
    let a := a.setPass { p with entered := c + 1, units := p.units ++ [e.1] }
    let a := if c == 0 && p.reload then a.invert 0 else a
    { a with feeder := a.feeder.filter (fun u => !(u.pass == p.id && u.index == c)),
             scaleBytes := if c + 1 == p.slots then a.scaleBytes.filter (fun b => b.1 != p.id) else a.scaleBytes }
  let s := (s.arrCount t R.ENG_EXP_FLUSH e.2.1).arrCount t R.ENG_EXP_OVF e.2.2
  if c != 0 then s else
  let s := if p.reload && s.tbit t R.ENG_ARR_CTL 0 then s.setTreg t R.ENG_ARR_RELOADS (s.treg t R.ENG_ARR_RELOADS + 1) else s
  let verb := match p.mm.verb with
    | .mac => 0 | .sad => 1 | .ssd => 2 | .minplus => 3 | .maxplus => 4 | .eqcount => 5 | .xnorpop => 6 | .maxmul => 7
  s.setTfld t R.ENG_ARR_STATE 10 4 (p.mm.paired.toNat * 64 + p.mm.fold * 16 + verb)

/-- The loader writes a row into the shadow registers; a staged access all of whose rows are written leaves staging. -/
def State.writeRow (s : State) (t : Nat) (p : Pass) (j : Nat) : State :=
  let x := s.site t
  let e := x.expandRow p j
  let s := s.modArr t fun a =>
    let a := (a.moveTags.load j e.1).setPass { p with wrote := j + 1 }
    { a with staging := a.staging.filter fun u => !(u.pass == p.id && u.index + u.span == j + 1) }
  (s.arrCount t R.ENG_EXP_FLUSH e.2.1).arrCount t R.ENG_EXP_OVF e.2.2

/-- The completions posted to a handle. -/
def Site.postedTo (x : Site) (h : Nat) : List Completion := (x.posted.filter fun e => e.1 == h).map (·.2)

/-- R52, R51: the anchor and start of a pass that may be issued from cycle i. -/
def place (a : Arr) (p : Pass) (i : Nat) : Pass :=
  if p.reload then
    let l := max a.freeAnchor i
    { p with anchor := l, start := max a.freeReload (l + 1) }
  else { p with anchor := 0, start := max a.freePlain i }

/-- The bounds that a placed pass leaves for the next one. -/
def Arr.after (a : Arr) (p : Pass) : Arr :=
  { a with freeReload := p.start + max p.slots 32, freePlain := p.start + p.slots,
           freeAnchor := if p.reload then p.start + 31 else a.freeAnchor }

/-- The pass ends a chunk. -/
def Pass.last (p : Pass) : Bool := p.kp + 1 == p.mm.kpCount && p.sp + 1 == p.mm.subs

/-- R198: the completions that a handle holds, and those of chunks whose last pass has started, which will be posted to it (log entry
81). -/
def Site.owedTo (x : Site) (h : Nat) : Nat :=
  (x.postedTo h).length + (x.arr.passes.filter fun q => q.mm.handle == h && q.last && !q.mm.hold && q.entered != 0).length

/-- R198: the pending limit holds back the first pass of a chunk. -/
def Site.limited (x : Site) (p : Pass) : Bool := p.kp == 0 && p.sp == 0 && 4 ≤ x.owedTo p.mm.handle

/-- The next pass of the issued instruction, placed after the last one. -/
def Arr.scheduleOne (a : Arr) : Arr :=
  match a.mm with
  | none => a
  | some i =>
    let c := i.coords i.next
    let d := i.coords (i.next - 1)
    let reload := i.next == 0 || 1 < i.subs || c.1 != d.1 || c.2.2.1 != d.2.2.1
    let p : Pass :=
      { id := a.nextId, mm := i, nb := c.1, ch := c.2.1, kp := c.2.2.1, sp := c.2.2.2, reload := reload,
        lines := i.linesOf c.2.1, slots := i.slotsOf (i.linesOf c.2.1), anchor := 0, start := 0, entered := 0, wrote := 0,
        units := [], held := false }
    let p := place a p (if i.next == 0 then i.issuedAt else 0)
    let a := a.after p
    { a with passes := a.passes ++ [p], nextId := a.nextId + 1,
             mm := if i.next + 1 < i.passes then some { i with next := i.next + 1 } else none }

/-- R51, R53: passes are placed until two have not started and two blocks are not written: the block whose rows are being written and the
next one, whose rows may be read. -/
def Arr.scheduleUp : Nat → Arr → Arr
  | 0, a => a
  | n + 1, a =>
    if a.mm.isNone || (2 ≤ (a.passes.filter fun p => p.entered == 0).length && 2 ≤ (a.passes.filter fun p => p.reload && p.wrote < 32).length)
    then a else Arr.scheduleUp n a.scheduleOne
def Arr.schedule (a : Arr) : Arr := a.scheduleUp ((a.mm.map fun i => i.passes - i.next).getD 0)

/-- R198: while the limit holds back the first pass that has not started, that pass and those behind it are not issued; in
the first array cycle in which the limit allows it they are placed from that cycle. -/
def Site.hold (x : Site) : Site :=
  let a := x.arr
  match a.passes.find? fun p => p.entered == 0 with
  | none => x
  | some p =>
    let started := a.passes.filter fun q => q.id < p.id
    let rest := a.passes.filter fun q => p.id ≤ q.id
    if x.limited p then
      if p.held || (p.reload && p.anchor ≤ a.cycle) || p.start ≤ a.cycle then
        { x with arr := { a with passes := started ++ rest.map fun q => { q with held := true } } }
      else x
    else if p.held then
      let base := started.foldl (fun (b : Arr) q => b.after q) { a with freeReload := 0, freePlain := 0, freeAnchor := 0 }
      let f := rest.foldl (fun (acc : Arr × List Pass) q =>
        let q := { place acc.1 q a.cycle with held := false }
        (acc.1.after q, acc.2 ++ [q])) (base, [])
      { x with arr := { f.1 with passes := started ++ f.2 } }
    else x

/-- R57: the array is not idle: a slot or a commit is in flight, or a pass is issued. -/
def Arr.working (a : Arr) : Bool := a.passes.any fun p => p.entered != 0 || !p.held

/-- R62, R198: a pass's last commit is made: the pass leaves the array, and the last pass of a chunk posts its completion
unless the instruction holds it back. -/
def State.retire (s : State) (t : Nat) (p : Pass) : State :=
  let i := p.mm
  let s := s.modArr t fun a => { a with passes := a.passes.filter fun q => q.id != p.id }
  if p.last && !i.hold then
    s.modSite t fun x => { x with posted := x.posted ++ [(i.handle,
      { base := i.base, r := i.r, ch := p.ch, nb := p.nb, lines := p.lines, fold := i.fold, verb := i.verb, m := i.m,
        n := i.n, ts := i.ts })] }
  else s

/-- R48: the array cycle of a pass's last commit. -/
def Pass.end_ (p : Pass) : Nat := p.start + p.slots + 66

/-- PASS_START (R49, R52): at its start cycle, slot 0 of the next pass enters with its tag. -/
def execPassStart (t : Nat) (s : State) : Result :=
  match (s.arr t).entering with
  | some p => s.when ((s.arr t).busy && p.entered == 0 && (s.site t).freeze == .none) (s.enterSlot t p)
  | none => .next s

/-- STATIONARY_ROW_WRITE (R51): the loader writes the staged row that is due in this array cycle. -/
def execStationaryRowWrite (t : Nat) (s : State) : Result :=
  match (s.arr t).loading with
  | some (p, j) => s.when ((s.arr t).busy && (s.site t).freeze == .none) (s.writeRow t p j)
  | none => .next s

/-- INITIALISING_COMMIT (R58, R112): the initialising commits due in this array cycle take their rows and write them; while a
row is not released they wait. -/
def execInitialisingCommit (t : Nat) (s : State) : Result :=
  let a := s.arr t
  s.when (a.busy && (s.site t).freeze == .none)
    (a.passes.foldl (fun s p => match p.commitSlot a.cycle 0 with
      | some c => if (p.initRows c).isEmpty then s else s.commitColumn t p 0
      | none => s) s)

/-- CHUNK_COMPLETION (R62, R198): the last commit of a pass that ends a chunk is due; it is made, and the completion is
posted or held back. -/
def execChunkCompletion (t : Nat) (s : State) : Result :=
  let a := s.arr t
  match a.passes.find? fun p => p.end_ == a.cycle && p.last with
  | some p => s.when (a.busy && (s.site t).freeze == .none) ((s.commitPass t p).retire t p)
  | none => .next s

/-- One array cycle without a freeze: commits, the tags' step and the loader's write, a slot's entry, the cells' terms, retirement. -/
def State.arrayCycle (s : State) (t : Nat) : State :=
  let s := (((s.arr t).passes).foldl (fun s p => s.commitPass t p) s).modArr t Arr.moveTags
  let s := match (s.arr t).loading with
    | some (p, j) => s.writeRow t p j
    | none => s
  let a := s.arr t
  let entered := a.entering.isSome || a.passes.any fun p => p.entered != 0 && p.start + p.entered == a.cycle + 1
  let s := match a.entering with
    | some p => s.enterSlot t p
    | none => s
  let s := s.modArr t Arr.meet
  let s := ((s.arr t).passes.filter fun p => p.end_ ≤ a.cycle).foldl (fun s p => s.retire t p) s
  let s := s.arrCount64 t (if entered then R.ENG_ARR_ACTIVE_LO else R.ENG_ARR_VOID_LO) 1
  s.modArr t fun a => { a with cycle := a.cycle + 1, committed := [], moved := false }

/-- R54: the crossing toll of the unit that is due is paid in this tile cycle. -/
def Arr.payToll (a : Arr) : Arr :=
  match a.entering with
  | some p => { a with feeder := a.feeder.map fun u =>
      if u.pass == p.id && u.index == p.entered && u.crossing then { u with paid := true } else u }
  | none => a

/-- The array's part of one tile clock cycle (R46, R54-R57, R72). -/
def State.arrayTick (s : State) (t : Nat) : State :=
  let s := s.modSite t Site.hold
  let s := match (s.site t).freeze with
    | .none => if (s.arr t).busy then s.arrayCycle t else s
    | .acc => (s.arrCount t R.ENG_ARR_FRZ_ACC 1).modArr t Arr.payToll
    | .stat => (s.arrCount t R.ENG_ARR_FRZ_STAT 1).modArr t Arr.payToll
    | .stream => (s.arrCount t R.ENG_ARR_FRZ_STREAM 1).modArr t Arr.payToll
  s.modArr t fun a => let a := a.schedule; { a with busy := a.working }

end Sys2Proof.Machine
end

