-- ==== Sys2Proof/Machine/Codec.lean ====
section
/-! DEFINITION. How a DRAM block is stored (R248-R251): the field GF(2^8) and the Reed-Solomon code over it, the key sets, the ciphertext,
the integrity MAC, the sidecar in both encodings, and decoding. The algorithms that the spec names by a standard alone are opaque. -/

namespace Sys2Proof.Machine

/-! ### The field (R250) -/

/-- Twice an element, modulo x^8 + x^4 + x^3 + x^2 + 1. -/
def gfDouble (a : BitVec 8) : BitVec 8 := if a.getLsbD 7 then (a <<< 1) ^^^ 0x1D else a <<< 1

/-- The product. -/
def gfMul (a b : BitVec 8) : BitVec 8 :=
  (List.range 8).foldr (fun i r => gfDouble r ^^^ if b.getLsbD i then a else 0) 0

/-- A power of α = 0x02. -/
def gfPow (n : Nat) : BitVec 8 := (List.range (n % 255)).foldl (fun a _ => gfDouble a) 1

/-- The inverse, a^254: the product of a^2, a^4, ..., a^128. -/
def gfInv (a : BitVec 8) : BitVec 8 :=
  ((List.range 7).foldl (fun (p : BitVec 8 × BitVec 8) _ => (gfMul p.1 p.1, gfMul p.2 (gfMul p.1 p.1))) (a, 1)).2

/-- Polynomials as coefficient lists, lowest first: sum, product, value. -/
def polyAdd : List (BitVec 8) → List (BitVec 8) → List (BitVec 8)
  | [], q => q
  | p, [] => p
  | a :: p, b :: q => (a ^^^ b) :: polyAdd p q
def polyMul (p q : List (BitVec 8)) : List (BitVec 8) := p.foldr (fun c r => polyAdd (q.map (gfMul c)) (0 :: r)) []
def polyEval (p : List (BitVec 8)) (x : BitVec 8) : BitVec 8 := p.foldr (fun c r => c ^^^ gfMul r x) 0

/-! ### The code (R250): 64 data symbols and 16 checks -/

/-- The generator polynomial, the product of x + α^k for k = 0 .. 15: its coefficients below x^16, highest first. -/
def rsGenerator : List (BitVec 8) :=
  (((List.range 16).foldl (fun p k => polyMul p [gfPow k, 1]) [1]).take 16).reverse

/-- The checks c_0 .. c_15 of data symbols d_0 ..: the remainder of d(x) x^16. -/
def rsChecks (d : List (BitVec 8)) : List (BitVec 8) :=
  d.foldl (fun r b =>
    let f := b ^^^ r.headD 0
    List.zipWith (· ^^^ ·) (r.drop 1 ++ [0]) (rsGenerator.map (gfMul f))) (List.replicate 16 0)

/-- The locator of position i of the 80. -/
def rsLocator (i : Nat) : BitVec 8 := gfPow (79 - i)

/-- C(α^k). -/
def rsSyndrome (w : List (BitVec 8)) (k : Nat) : BitVec 8 := w.foldl (fun r b => gfMul r (gfPow k) ^^^ b) 0

/-- The shortest recurrence of a sequence (Berlekamp and Massey): its length and its polynomial. -/
def shortest (t : List (BitVec 8)) : Nat × List (BitVec 8) :=
  let at_ (l : List (BitVec 8)) (i : Nat) : BitVec 8 := l.getD i 0
  let r := (List.range t.length).foldl (fun (q : Nat × List (BitVec 8) × List (BitVec 8) × BitVec 8) n =>
    let len := q.1
    let c := q.2.1
    let old := 0 :: q.2.2.1
    let d := (List.range (len + 1)).foldl (fun x i => x ^^^ gfMul (at_ c i) (at_ t (n - i))) 0
    if d == 0 then (len, c, old, q.2.2.2)
    else
      let new := polyAdd c (old.map (gfMul (gfMul d (gfInv q.2.2.2))))
      if 2 * len ≤ n then (n + 1 - len, new, c, d) else (len, new, old, q.2.2.2)) (0, [1], [1], 1)
  (r.1, r.2.1)

/-- The codeword that agrees with a word but at the erased positions and at up to (16 - erasures) / 2 others; none when there is none. -/
def rsDecode (w : List (BitVec 8)) (erased : List Nat) : Option (List (BitVec 8)) :=
  let synd := (List.range 16).map (rsSyndrome w)
  let gam := erased.foldl (fun p i => polyMul p [1, rsLocator i]) [1]
  let lam := shortest (((polyMul synd gam).take 16).drop erased.length)
  let found := (List.range 80).filter fun i => !erased.contains i && polyEval lam.2 (gfInv (rsLocator i)) == 0
  let psi := polyMul gam lam.2
  let omega := (polyMul synd psi).take 16
  let slope := (List.range psi.length).map fun j => if j % 2 == 0 then psi.getD (j + 1) 0 else 0
  let value (i : Nat) : BitVec 8 :=
    let y := gfInv (rsLocator i)
    gfMul (rsLocator i) (gfMul (polyEval omega y) (gfInv (polyEval slope y)))
  let places := erased ++ found
  let v := (List.range 80).map fun i => w.getD i 0 ^^^ if places.contains i then value i else 0
  if 2 * lam.1 + erased.length ≤ 16 && found.length == lam.1 && (List.range 16).all (fun k => rsSyndrome v k == 0) then some v else none

/-! ### Keys, ciphertext and MAC (R248, R249) -/

/-- R249: the output of the KDF for a security domain and an epoch. -/
def keySet (domain epoch : Nat) : BitVec 768 :=
  Config.kdfCmac Config.memoryKey [0x44, 0x56, 0x4D, 0x45, 0x4D]
    (BitVec.ofNat 8 domain :: (List.range 4).map fun i => BitVec.ofNat 8 (epoch / 2 ^ (8 * i)))

/-- What a block is written or read under: security domain, epoch, device physical address divided by 64. -/
abbrev BlockKey := Nat × Nat × Nat

/-- R248: the cipher of a block under K1 and K2, and the byte j of its MAC under KM. -/
def cipherOf (k : BlockKey) : Equiv.Perm (BitVec 512) := Config.xts ((keySet k.1 k.2.1).extractLsb' 0 512) k.2.2
def macByte (k : BlockKey) (c : BitVec 512) (j : Nat) : BitVec 8 :=
  (Config.cmac64 ((keySet k.1 k.2.1).extractLsb' 512 256) c k.2.2).extractLsb' (8 * j) 8

/-- The bytes of a block and a block of bytes. -/
def bytesOf512 (v : BitVec 512) : List (BitVec 8) := (List.range 64).map fun i => v.extractLsb' (8 * i) 8
def byte512 (v : BitVec 512) (i : Nat) : BitVec 8 := v.extractLsb' (8 * i) 8
def of512 (l : List (BitVec 8)) : BitVec 512 := BitVec.ofNat 512 (leNat l)

/-- R251: the die beside a failed die, whose sidecar byte carries its check alone. -/
def besideDie (f : Nat) : Nat := (f + 1) % 8

/-- R250: the sidecar of a ciphertext: byte 2j is c_j, byte 2j + 1 is c_(8+j) with the MAC byte added, but in failed-die encoding beside the
failed die. -/
def sidecar (k : BlockKey) (die : Option Nat) (c : BitVec 512) : List (BitVec 8) :=
  let ck := rsChecks (bytesOf512 c)
  (List.range 8).flatMap fun j =>
    [ck.getD j 0, ck.getD (8 + j) 0 ^^^ if die.map besideDie == some j then 0 else macByte k c j]

/-- R248, R250: the stored form of 64 plaintext bytes. -/
def encodeBlock (k : BlockKey) (die : Option Nat) (v : BitVec 512) : DBlock :=
  let c := cipherOf k v
  { data := c, side := sidecar k die c, key := k }

/-! ### Decoding (R250, R251) -/

/-- What decoding gives: 0 good, 1 corrected, 2 uncorrectable, 3 mac_failure; the ciphertext; the bytes that were corrected. -/
structure Decoded where
  result : Nat
  cipher : BitVec 512
  fixed : Nat
deriving DecidableEq, Repr

/-- A byte of the sidecar. -/
def DBlock.sideByte (b : DBlock) (i : Nat) : BitVec 8 := b.side.getD i 0

/-- R250: the MAC byte of die j agrees with the ciphertext c and the check symbol that decoding gave. A block that was written under another key set
or address fails (R249, log entry 98). -/
def DBlock.macOk (b : DBlock) (k : BlockKey) (c : BitVec 512) (j : Nat) (check : BitVec 8) : Bool :=
  b.key == k && (b.sideByte (2 * j + 1) ^^^ check) == macByte k c j

/-- The checks c_0 .. c_7 as the sidecar holds them. -/
def DBlock.checks (b : DBlock) : List (BitVec 8) := (List.range 8).map fun j => b.sideByte (2 * j)

/-- R250: the codeword with c_8 .. c_15 erased: a word without an error is its own. -/
def DBlock.corrected (b : DBlock) : Option (List (BitVec 8)) :=
  let d := bytesOf512 b.data
  let ck := rsChecks d
  if ck.take 8 == b.checks then some (d ++ ck)
  else rsDecode (d ++ b.checks ++ List.replicate 8 0) ((List.range 8).map (· + 72))

/-- R250: decoding in normal encoding. -/
def decodeNormal (b : DBlock) (k : BlockKey) : Decoded :=
  match b.corrected with
  | none => { result := 2, cipher := b.data, fixed := 0 }
  | some w =>
    let c := of512 (w.take 64)
    let fixed := ((List.range 72).filter fun i => w.getD i 0 != (bytesOf512 b.data ++ b.checks).getD i 0).length
    let bad := ((List.range 8).filter fun j => !b.macOk k c j (w.getD (72 + j) 0)).length
    if bad == 0 then { result := if fixed == 0 then 0 else 1, cipher := c, fixed := fixed }
    else if bad == 1 then { result := 1, cipher := c, fixed := fixed + 1 }
    else { result := 3, cipher := c, fixed := 0 }

/-- The positions of the ten symbols of a die. -/
def dieSymbols (f : Nat) : List Nat := (List.range 8).map (· + 8 * f) ++ [64 + f, 72 + f]

/-- R251: decoding in failed-die encoding, die f failed. -/
def decodeFailed (b : DBlock) (k : BlockKey) (f : Nat) : Decoded :=
  let g := besideDie f
  let others := (List.range 8).filter fun j => j != f && j != g
  let d := bytesOf512 b.data
  let ck := rsChecks d
  let plain := ((List.range 8).all fun j => j == f || ck.getD j 0 == b.sideByte (2 * j)) && ck.getD (8 + g) 0 == b.sideByte (2 * g + 1)
  let high := (List.range 8).map fun j => if j == g then b.sideByte (2 * g + 1) else 0
  let w := if plain then some (d ++ ck) else rsDecode (d ++ b.checks ++ high) (dieSymbols f ++ others.map (· + 72))
  match w with
  | none => { result := 2, cipher := b.data, fixed := 0 }
  | some w =>
    let c := of512 (w.take 64)
    if others.all fun j => b.macOk k c j (w.getD (72 + j) 0) then { result := 0, cipher := c, fixed := 0 }
    else { result := 2, cipher := b.data, fixed := 0 }

/-- R251: the trial of die f on a block in normal encoding: the ciphertexts of the values of sidecar byte 2f + 1 whose seven other MAC bytes
agree. -/
def dieTrial (b : DBlock) (k : BlockKey) (f : Nat) : List (BitVec 512) :=
  let others := (List.range 8).filter (· != f)
  (List.range 256).filterMap fun v =>
    let high := (List.range 8).map fun j => if j == f then BitVec.ofNat 8 v else 0
    match rsDecode (bytesOf512 b.data ++ b.checks ++ high)
        ((dieSymbols f).take 9 ++ others.map (· + 72)) with
    | none => none
    | some w =>
      let c := of512 (w.take 64)
      if others.all fun j => b.macOk k c j (w.getD (72 + j) 0) then some c else none

/-- R251: decoding by the trial until a block is rebuilt: one candidate is the block, none or several are uncorrectable. -/
def decodeTrial (b : DBlock) (k : BlockKey) (f : Nat) : Decoded :=
  match dieTrial b k f with
  | [c] => { result := 0, cipher := c, fixed := 0 }
  | _ => { result := 2, cipher := b.data, fixed := 0 }

/-- R251: the first die for which every block of a list has exactly one candidate. -/
def findDie (l : List (DBlock × BlockKey)) : Option Nat :=
  (List.range 8).find? fun f => l.all fun e => (dieTrial e.1 e.2 f).length == 1

/-- The cells of a block change: each entry is a byte of the 80, the 64 data bytes first, and the bits that flip. -/
def DBlock.disturb (b : DBlock) (flips : List (Nat × BitVec 8)) : DBlock :=
  flips.foldl (fun b e =>
    if e.1 < 64 then { b with data := b.data ^^^ BitVec.shiftLeft (BitVec.zeroExtend 512 e.2) (8 * e.1) }
    else { b with side := (List.range b.side.length).map fun i => if i + 64 == e.1 then b.sideByte i ^^^ e.2 else b.sideByte i }) b

end Sys2Proof.Machine
end

