-- ==== Sys2Proof/Machine/Time.lean ====
section
/-! DEFINITION. TIME, its adjustment and alignment, and the TSYNC pins (R333-R338, R342). Device timers are in
Machine/Wings.lean. -/

namespace Sys2Proof.Machine

/-- 2^20, the sync period in TIME counts (R336). -/
def syncPeriod : Nat := 1048576

/-- R335: the role: 0 standalone, 1 master, 2 follower. -/
def State.role (s : State) : Nat := s.fld R.TIM_SYNC_CTL 1 0

/-- Two's complement in n bits. -/
def twos (n : Nat) (v : Int) : Nat := (v % (2 ^ n : Int)).toNat

/-- R334: step TIME by an offset and record the old and new values. -/
def State.stepTime (s : State) (off : Int) : State :=
  let new := twos 64 ((s.time : Int) - off)
  let old := s.time
  let s := { s with time := new }
  (s.setBit R.TIM_SYNC_STATUS 2 true).curFault 0x32 (le 8 old ++ le 8 new)

/-- R342: the offset field holds the offset in ns, saturating at ±32,767; half a count is rounded either way (log entry 6). -/
def State.showOffset (s : State) (off2 : Int) : State :=
  let ns : Int := off2 / 2 + (if off2 % 2 == 0 then 0 else ((s.free.toNat % 2 : Nat) : Int))
  let sat := max (-32767) (min 32767 ns)
  (s.setFld R.TIM_SYNC_STATUS 31 16 (twos 16 sat)).freed

/-- R337: a follower handles one measured offset, given in half counts; while Curator restarts it holds its last slew (R384). -/
def State.measured (s : State) (off2 : Int) : State :=
  if s.cur.restarting then { s with tim := { s.tim with lastSync := s.tim.cycles } } else
  let s := s.showOffset off2
  let s := { s with tim := { s.tim with lastSync := s.tim.cycles } }
  let big := 2000 < off2 ∨ off2 < -2000
  if big ∧ s.fab.active.isNone then
    let s := s.stepTime (off2 / 2)
    { s with tim := { s.tim with lockCount := 0, slewLeft := 0 } }
  else
    let s := { s with tim := { s.tim with slewLeft := off2 / 2 } }
    if big then
      let s := { s with tim := { s.tim with lockCount := 0 } }
      s.unlock.curFault 0x33 (le 4 (twos 32 (off2 / 2)))
    else if -40 ≤ off2 ∧ off2 ≤ 40 then
      let n := s.tim.lockCount + 1
      let s := { s with tim := { s.tim with lockCount := n } }
      if 4 ≤ n then s.setBit R.TIM_SYNC_STATUS 1 true else s
    else { s with tim := { s.tim with lockCount := 0 } }

/-- TIME_SLEW (R334): the time base adds 0 or 2 in place of 1, on at most one CLKT cycle in 5,000, and only by a follower
with an offset left to correct. -/
def execTimeSlew (s : State) : Result :=
  if s.timeRunning && s.role == 2 && s.tim.slewLeft != 0 && s.tim.lastSlew + 5000 ≤ s.tim.cycles then
    if 0 < s.tim.slewLeft then
      .next { s with tim := { s.tim with slewLeft := s.tim.slewLeft - 1, lastSlew := s.tim.cycles, cycles := s.tim.cycles + 1 } }
    else
      .next { s with time := (s.time + 2) % 2 ^ 64, tim := { s.tim with slewLeft := s.tim.slewLeft + 1, lastSlew := s.tim.cycles, cycles := s.tim.cycles + 1 } }
  else .next s

/-- Drive TSYNC_OUT high for 100 ns. -/
def State.pulse (s : State) : State := { s with pins := { s.pins with tsyncOutUntil := s.time + 100 } }

/-- SYNC_PULSE_OUT (R336): a master, or a follower with relay = 1, pulses at every multiple of 2^20. -/
def execSyncPulseOut (s : State) : Result :=
  s.when (s.timeRunning && s.pinInUse 0 && s.time % syncPeriod == 0) s.pulse

/-- R336: the offset of an edge at count c: c - TIM_PIN_DELAY less the nearest multiple of 2^20. -/
def pinOffset (c delay : Nat) : Int :=
  let x : Int := (c : Int) - (delay : Int)
  let m := (x + (syncPeriod / 2 : Nat)) / (syncPeriod : Int) * (syncPeriod : Int)
  x - m

/-- TSYNC_IN_EDGE (R336, R338): the edge's count is latched; a follower whose source is the pin measures it. -/
def execTsyncInEdge (s : State) : Result :=
  if s.timeRunning then
    let t := s.setReg64 R.TIM_CAPTURE_LO s.time
    .next (if s.pinInUse 1 then t.measured (2 * pinOffset s.time (s.fld R.TIM_PIN_DELAY 15 0)) else t)
  else .next s

/-- TIME_REQ (R336, R408): the device answers from its own TIME, as the port's copy shows it. -/
def execTimeReq (port t1 : Nat) (s : State) : Result :=
  s.when s.timeRunning { s with ctrlOut := s.ctrlOut ++ [(port, .timeResp t1 (s.portTime port) (s.portTime port))] }

/-- R336: twice the offset ((t4 - t3) - (t2 - t1)) / 2. -/
def portOffset2 (t1 t2 t3 t4 : Nat) : Int := ((t4 : Int) - t3) - ((t2 : Int) - t1)

/-- R335: the follower's source is this port. -/
def State.followsPort (s : State) (port : Nat) : Bool :=
  s.role == 2 && s.bit R.TIM_SYNC_CTL 6 && s.fld R.TIM_SYNC_CTL 11 7 == port

/-- TIME_RESP (R336, R337): the follower of this port computes the offset, and slews or steps. -/
def execTimeResp (port t1 t2 t3 : Nat) (s : State) : Result :=
  s.when (s.timeRunning && s.followsPort port) (s.measured (portOffset2 t1 t2 t3 (s.portTime port)))

/-- TIME_SYNC_EXCHANGE (R336): once every 2^20 counts a port-path follower sends a TIME_REQ to its master. -/
def execTimeSyncExchange (s : State) : Result :=
  s.when (s.timeRunning && s.role == 2 && s.bit R.TIM_SYNC_CTL 6 && s.time % syncPeriod == 0)
    { s with ctrlOut := s.ctrlOut ++ [(s.fld R.TIM_SYNC_CTL 11 7, .timeReq s.time)] }

/-- SYNC_SOURCE_LOST (R337): no pulse or frame for four periods clears locked and sets unlock. -/
def execSyncSourceLost (s : State) : Result :=
  if s.role == 2 && !s.cur.restarting && s.tim.lastSync + 4 * syncPeriod ≤ s.tim.cycles then
    let s := s.unlock
    .next { s with tim := { s.tim with lockCount := 0 } }
  else .next s

/-- R338: a role write would use a pin that a partition holds. -/
def State.roleTakesHeldPin (s : State) (w : BitVec 32) : Bool :=
  let t := s.regWrite R.TIM_SYNC_CTL w
  [0, 1].any fun i => t.pinInUse i &&
    match s.owner 4 i with
    | some o => o != 0xFE
    | none => false

/-- R337: a new role or source starts with no measurement made: the periods without one count from here, and a device that is no follower is
not locked (log entry 116). -/
def State.setRole (s : State) (w : BitVec 32) : State :=
  let u := s.regWrite R.TIM_SYNC_CTL w
  if u.reg R.TIM_SYNC_CTL == s.reg R.TIM_SYNC_CTL then u
  else
    let u := { u with tim := { u.tim with lockCount := 0, slewLeft := 0, lastSync := u.tim.cycles } }
    if u.role == 2 then u else u.setBit R.TIM_SYNC_STATUS 1 false

/-- TIM_SYNC_CTL_WRITE (R335, R338): sets the device's time role; a role that would use a pin held by a partition is ignored
and sets reject. -/
def execTimSyncCtlWrite (a : Agent) (w : BitVec 32) (s : State) : Result :=
  s.devWrite a R.TIM_SYNC_CTL
    (if s.roleTakesHeldPin w then s.setBit R.TIM_SYNC_STATUS 4 true else s.setRole w)

/-- TIM_PULSE_AT_WRITE (R338): the owner of pin function 0 schedules one pulse; another agent's write is ignored and sets
reject; while TIM_SYNC_CTL uses the pin the write is ignored. -/
def execTimPulseAtWrite (a : Agent) (hi : BitVec 32) (s : State) : Result :=
  let u := (s.takeLo R.TIM_PULSE_AT_HI).setReg R.TIM_PULSE_AT_HI hi
  s.openWrite a
    (if !s.owns a 4 0 then s.setBit R.TIM_SYNC_STATUS 4 true
    else if s.pinInUse 0 then s
    else { u with tim := { u.tim with pulseAt := some (u.reg64 R.TIM_PULSE_AT_LO) } })

/-- SCHEDULED_PULSE (R338): TIME reaches the scheduled count, and the pulse is driven. -/
def execScheduledPulse (s : State) : Result :=
  match s.tim.pulseAt with
  | some t =>
    if t ≤ s.time then
      let s := s.pulse
      .next { s with tim := { s.tim with pulseAt := none } }
    else .next s
  | none => .next s

end Sys2Proof.Machine
end

