-- ==== Sys2Proof/Machine/Power.lean ====
section
/-! DEFINITION. The estimate, the cap, throttle records, droop, the lowest-voltage record, ageing, thermal capping and
VBRING (R343-R366, R368-R370). Powering a wing on and off and the trips are in Machine/Wings.lean. -/

namespace Sys2Proof.Machine

/-! ### Small quantities -/

/-- A quantity shown in a field of whole units (W, 1/65,536); a fraction is rounded either way (log entry 6). -/
def State.watts (s : State) (q : Rat) (bits : Nat) : Nat :=
  let n := q.floor.toNat + (if q.den == 1 then 0 else s.free.toNat % 2)
  min n (2 ^ bits - 1)

/-- R356: the active image holds a LATENCY partition, which selects skip mode. -/
def State.skipMode (s : State) : Bool :=
  match s.fab.active with
  | some m => m.partitions.any fun p => m.partClass p == 1
  | none => false

/-- R356: the effective cap. -/
def State.effectiveCap (s : State) : Rat := min (s.fld R.PWR_CAP_W 15 0 : Rat) s.pwr.tcap

def State.guardW (s : State) : Rat := (s.fld R.PWR_CAP_CTL 11 0 : Rat)

/-- A temperature field: two's complement in 1/16 degree. -/
def signed16 (n : Nat) : Int := if n < 32768 then n else (n : Int) - 65536

/-- R363: the junction temperature of a wing, in 1/16 degree. -/
def State.wingTemp (s : State) (w : Nat) : Int := signed16 (s.fld (R.THM w) 15 0)

/-- The hottest junction. -/
def State.hottest (s : State) : Int := allWings.foldl (fun m w => max m (s.wingTemp w)) (s.wingTemp 0)

/-- R366: some wing is in emergency. -/
def State.anyEmergency (s : State) : Bool := allWings.any fun w => (s.wing w).emergency

/-- R348: wings whose request waits, in ascending number, and those that wait longer than 1 ms. -/
def State.waiting (s : State) : List Nat := allWings.filter fun w => (s.wing w).requestAt.isSome
def State.waitingLong (s : State) : Nat :=
  (allWings.filter fun w => match (s.wing w).requestAt with
    | some t => t + 1000000 < s.time
    | none => false).length

/-! ### The estimate (R354, R355) -/

/-- The three parts of a group's estimate in W: skippable dynamic, other dynamic, leakage. -/
structure Parts where
  skippable : Rat
  other : Rat
  leak : Rat
deriving DecidableEq, Repr

def State.group (s : State) (n : Nat) : PwrGroup := Map.get (fun _ => PwrGroup.start) s.pwr.groups n

/-- A group's raw parts in W, given in mW. -/
def rawParts (raw : List (Nat × Nat × Nat)) (n : Nat) : Parts :=
  let r := raw.getD n (0, 0, 0)
  { skippable := r.1 / 1000, other := r.2.1 / 1000, leak := r.2.2 / 1000 }

/-- R354: the calibrated parts: g times the raw parts, the offset assigned to leakage. -/
def calibrated (g : PwrGroup) (x : Parts) : Parts :=
  { skippable := g.gain * x.skippable, other := g.gain * x.other, leak := g.gain * x.leak + g.offset }

def Parts.total (p : Parts) : Rat := p.skippable + p.other + p.leak

def sumRat (l : List Rat) : Rat := l.foldl (· + ·) 0

def groups17 : List Nat := List.range 17

/-- R354: the calibrated parts of the seventeen groups. -/
def State.parts (s : State) (raw : List (Nat × Nat × Nat)) : List Parts :=
  groups17.map fun n => calibrated (s.group n) (rawParts raw n)

/-- R354: E, the module estimate. -/
def estimate (ps : List Parts) : Rat := sumRat (ps.map Parts.total)

/-- R357: D, the skippable dynamic power. -/
def skippable (ps : List Parts) : Rat := sumRat (ps.map Parts.skippable)

/-! ### Skip mode (R357) -/

/-- R357: the least level in 0 .. 15 that holds the limit, or 15. -/
def leastLevel (f2 d0 limit : Rat) : Nat :=
  ((List.range 16).find? fun (k : Nat) => f2 + d0 * (16 - (k : Rat)) / 16 ≤ limit).getD 15

/-- R357: the skippable power unskipped. -/
def unskipped (d : Rat) (level : Nat) : Rat := d * 16 / (16 - (level : Rat))

/-- The cap skip level in force. -/
def State.skip (s : State) : Nat := s.fld R.PWR_STATUS 7 4

/-- R357: one step of skip mode; a rise takes effect at once, a release one level every 16 steps. -/
def State.skipStep (s : State) (e d : Rat) : State :=
  let lv := s.skip
  let d0 := unskipped d lv
  let f2 := e - d + 200 * (s.waitingLong : Rat)
  let new := leastLevel f2 d0 (s.effectiveCap - s.guardW)
  let steps := min (s.pwr.skipSteps + 1) 16
  if lv < new then { s.setFld R.PWR_STATUS 7 4 new with pwr := { s.pwr with skipSteps := 0 } }
  else if new < lv && 16 ≤ steps then { s.setFld R.PWR_STATUS 7 4 (lv - 1) with pwr := { s.pwr with skipSteps := 0 } }
  else { s with pwr := { s.pwr with skipSteps := steps } }

/-- R360: skip mode is unheld, d0 being the skippable power unskipped. -/
def State.skipUnheld (s : State) (e d d0 : Rat) : Bool :=
  (s.skip == 15 || d == 0) && s.effectiveCap - s.guardW < e - d + d0 / 16

/-! ### Point mode (R358) -/

/-- R326: the frequency of a point in units of 50 MHz. -/
def pointFreq (p : Nat) : Nat := 30 - p

/-- R358: the predicted power at point q. -/
def State.predict (s : State) (ps : List Parts) (q : Nat) : Rat :=
  let p := s.point
  let dyn (w : Nat) : Rat := let x := ps.getD w ⟨0, 0, 0⟩; x.skippable + x.other
  let scaled (w : Nat) : Rat :=
    dyn w * ((pointFreq q : Rat) * (s.setting w q : Rat) ^ 2) / ((pointFreq p : Rat) * (s.setting w p : Rat) ^ 2)
  estimate ps - sumRat (allWings.map dyn) + sumRat (allWings.map scaled) + 200 * (s.waitingLong : Rat)

/-- R327, R358: the fastest point slower than the current one, and no faster than CLK_OP_TARGET, that the cap holds, or P15. -/
def State.slowerPoint (s : State) (ps : List Parts) : Nat :=
  ((List.range 16).find? fun (q : Nat) => s.point < q && s.fld R.CLK_OP_TARGET 3 0 ≤ q && s.predict ps q ≤ s.effectiveCap - s.guardW).getD 15

/-- R358: the mean of the last 16 estimates, once there are 16. -/
def mean16 (es : List Rat) : Option Rat := if es.length == 16 then some (sumRat es / 16) else none

/-- R358: no switch is pending or settling. -/
def State.switchIdle (s : State) : Bool := !s.bit R.CLK_OP_STATUS 11 && !s.bit R.CLK_OP_STATUS 12

/-- R358: one step of point mode. -/
def State.pointStep (s : State) (ps : List Parts) : State :=
  let cur := s.point
  let target := s.fld R.CLK_OP_TARGET 3 0
  let load := (mean16 s.pwr.estimates).map (· + 200 * (s.waitingLong : Rat))
  let canRaise := 0 < cur && s.predict ps (cur - 1) ≤ s.effectiveCap - 2 * s.guardW
  let ok := if canRaise then min (s.pwr.raiseOk + 1) 250 else 0
  let s := { s with pwr := { s.pwr with raiseOk := ok } }
  let overCap := match load with
    | some m => decide (s.effectiveCap < m)
    | none => false
  if !s.switchIdle then s
  else if overCap && cur < 15 then s.requestSwitch (s.time + 21000) (s.slowerPoint ps) 1
  else if target < cur && 250 ≤ ok && s.clk.capDoneAt.all fun c => decide (c + 1000000 ≤ s.time) then
    s.requestSwitch (s.time + 21000) (cur - 1) 1
  else s

/-- R360: point mode is unheld. -/
def State.pointUnheld (s : State) (ps : List Parts) : Bool :=
  s.point == 15 && s.effectiveCap - s.guardW < s.predict ps 15

/-! ### Throttle episodes (R362) -/

/-- R359, R362: the point in force was chosen by the cap and is slower than CLK_OP_TARGET. -/
def State.capPoint (s : State) : Bool := s.fld R.CLK_OP_TARGET 3 0 < s.point && s.clk.byCap

/-- R365: the thermal cap is below PWR_CAP_W. -/
def State.thermalLimit (s : State) : Bool := s.pwr.tcap < (s.fld R.PWR_CAP_W 15 0 : Rat)

/-- R362: a condition of a throttle episode holds. -/
def State.throttling (s : State) : Bool := 0 < s.skip || s.capPoint || s.thermalLimit || s.anyEmergency

/-- R362: the cause byte. -/
def State.throttleCause (s : State) : Nat :=
  (decide (0 < s.skip)).toNat + 2 * s.capPoint.toNat + 4 * s.thermalLimit.toNat + 8 * s.anyEmergency.toNat +
    16 * s.pwr.unheld.toNat

/-- R362: the 40-byte detail of a throttle record. -/
def State.throttleDetail (s : State) : List Nat :=
  let n : Rat := max 1 (s.pwr.estCount : Rat)
  le 1 s.throttleCause ++ le 1 s.skip ++ le 1 s.pwr.skipMax ++ le 1 s.point ++ le 2 (s.watts (s.pwr.estSum / n) 16) ++
  le 2 (s.watts s.effectiveCap 16) ++ le 2 (twos 16 s.hottest) ++ le 2 (s.watts (s.pwr.lostSum / n * 65536) 16) ++
  le 4 (s.time - s.pwr.lastRecord) ++ le 8 (s.pwr.begin.getD s.time) ++ le 8 0

/-- R362: write a throttle record and start the next interval. -/
def State.throttleRecord (s : State) (code : Nat) : State :=
  let s := s.curFault code s.throttleDetail
  { s.freed with pwr := { s.pwr with lastRecord := s.time, estSum := 0, estCount := 0, skipMax := s.skip, lostSum := 0 } }

/-- R362: an episode begins at the first step with a condition and ends after 250 consecutive steps with none. -/
def State.episodeStep (s : State) (e : Rat) : State :=
  let s := { s with pwr := { s.pwr with estSum := s.pwr.estSum + e, estCount := s.pwr.estCount + 1,
                                        skipMax := max s.pwr.skipMax s.skip, lostSum := s.pwr.lostSum + (s.skip : Rat) / 16 } }
  match s.pwr.begin with
  | none =>
    if s.throttling then
      let s := { s with pwr := { s.pwr with begin := some s.time, lastRecord := s.time, clearSteps := 0,
                                            estSum := e, estCount := 1, skipMax := s.skip, lostSum := (s.skip : Rat) / 16 } }
      (s.setBit R.PWR_STATUS 17 true).throttleRecord 0x28
    else s
  | some _ =>
    let s := s.setReg64 R.PWR_THR_TIME_LO (s.reg64 R.PWR_THR_TIME_LO + 4000)
    if s.throttling then { s with pwr := { s.pwr with clearSteps := 0 } }
    else if s.pwr.clearSteps + 1 < 250 then { s with pwr := { s.pwr with clearSteps := s.pwr.clearSteps + 1 } }
    else
      let s := (s.throttleRecord 0x2A).setBit R.PWR_STATUS 17 false
      { s with pwr := { s.pwr with begin := none, clearSteps := 0 } }

/-- R360: the cap is unheld: the flag is set and one record is written per episode. -/
def State.unheldStep (s : State) (now : Bool) : State :=
  if now then
    let s := s.setBit R.PWR_STATUS 19 true
    if s.pwr.unheld then s
    else
      let s := { s with pwr := { s.pwr with unheld := true } }
      s.curFault 0x23 s.throttleDetail
  else { s with pwr := { s.pwr with unheld := false } }

/-- R359: the mode is settled at a step: leaving skip mode clears the level; entering it asks for CLK_OP_TARGET, once no other switch is
pending or settling. -/
def State.modeStep (s : State) : State :=
  let skip := s.skipMode
  let was := s.pwr.modeSkip
  let ask := skip && (!was || s.pwr.toTarget)
  let s := { s.setBit R.PWR_STATUS 16 (!skip) with
             pwr := { s.pwr with modeSkip := skip, toTarget := ask && !s.switchIdle, raiseOk := if skip then 0 else s.pwr.raiseOk } }
  if was && !skip then s.setFld R.PWR_STATUS 7 4 0
  else if ask && s.switchIdle && s.capPoint then s.requestSwitch (s.time + 21000) (s.fld R.CLK_OP_TARGET 3 0) 1
  else s

/-- CAP_STEP (R354, R356-R362): every 4 microseconds the estimate is formed and the cap acts on it. -/
def execCapStep (raw : List (Nat × Nat × Nat)) (s : State) : Result :=
  if s.timeRunning && s.pwr.lastStep + 4000 ≤ s.time then
    let ps := s.parts raw
    let e := estimate ps
    let d := skippable ps
    let s := { s with pwr := { s.pwr with lastStep := s.time, estimates := (s.pwr.estimates ++ [e]).drop ((s.pwr.estimates.length + 1) - 16) } }
    let s := groups17.foldl (fun s n =>
      let g := s.group n
      let s := { s with pwr := { s.pwr with groups := Map.set (fun _ => PwrGroup.start) s.pwr.groups n
                                                        { g with raws := g.raws ++ [(rawParts raw n).total] } } }
      s.setFld (R.PWR_EST n) 15 0 (s.watts (ps.getD n ⟨0, 0, 0⟩).total 16)) s
    let s := (s.setFld R.PWR_EST_W 15 0 (s.watts e 16)).freed
    let s := s.modeStep
    let d0 := unskipped d s.skip
    let s := if s.skipMode then s.skipStep e d else s.pointStep ps
    let s := s.unheldStep (if s.skipMode then s.skipUnheld e d d0 else s.pointUnheld ps)
    let s := s.setReg64 R.PWR_THR_LOST_LO (s.reg64 R.PWR_THR_LOST_LO + 250 * s.skip)
    .next (s.episodeStep e)
  else .next s

/-- THROTTLE_STATUS (R362): every 10 ms of an episode a status record is written, at a step of the cap. -/
def execThrottleStatus (s : State) : Result :=
  s.when (s.pwr.begin.isSome && s.pwr.lastStep == s.time && s.pwr.lastRecord + 10000000 ≤ s.time) (s.throttleRecord 0x29)

/-! ### Calibration (R355) -/

def meanRat (l : List Rat) : Rat := if l.isEmpty then 0 else sumRat l / (l.length : Rat)

/-- R355: least squares over the pairs, with the gain limited to 0.80-1.25; without enough spread the gain is kept. -/
def fit (g : PwrGroup) : PwrGroup :=
  let xs := g.pairs.map CalPair.x
  let ys := g.pairs.map CalPair.y
  let mx := meanRat xs
  let my := meanRat ys
  let hi := xs.foldl max (xs.headD 0)
  let lo := xs.foldl min (xs.headD 0)
  if mx / 20 ≤ hi - lo && lo < hi then
    let sxy := sumRat (g.pairs.map fun p => (p.x - mx) * (p.y - my))
    let sxx := sumRat (g.pairs.map fun p => (p.x - mx) * (p.x - mx))
    let gain := sxy / sxx
    { g with gain := max (4 / 5) (min (5 / 4) gain), offset := my - gain * mx }
  else { g with offset := my - g.gain * mx }

/-- R355: one group takes the pair of the millisecond. -/
def calibrateGroup (g : PwrGroup) (y : Rat) : PwrGroup :=
  let ps := g.pairs ++ [⟨meanRat g.raws, y⟩]
  let g := { g with pairs := ps.drop (ps.length - 32), raws := [] }
  if g.pairs.length == 32 then fit g else g

/-- CALIBRATION (R355): every 1 ms each group is refitted; a Curator restart holds g and o (R384). -/
def execCalibration (measured : List Nat) (s : State) : Result :=
  if s.timeRunning && !s.cur.restarting && s.pwr.calAt + 1000000 ≤ s.time then
    let s := { s with pwr := { s.pwr with calAt := s.time } }
    let s := groups17.foldl (fun s n =>
      let g := calibrateGroup (s.group n) (measured.getD n 0 : Rat)
      let s := { s with pwr := { s.pwr with groups := Map.set (fun _ => PwrGroup.start) s.pwr.groups n g } }
      let s := s.setFld (R.PWR_EST n) 31 16 (measured.getD n 0)
      let s := s.setFld (R.PWR_CAL n) 31 16 (s.watts (g.gain * 16384) 16)
      (s.setFld (R.PWR_CAL n) 15 0 (twos 16 (g.offset.floor + (if g.offset.den == 1 then 0 else ((s.free.toNat % 2 : Nat) : Int))))).freed) s
    .next (s.setFld R.PWR_MEAS_W 15 0 measured.sum)
  else .next s

/-! ### Droop and the lowest voltage (R351, R352) -/

/-- R352: the droop threshold in mV. -/
def State.droopMv (s : State) : Nat := s.fld R.PWR_DROOP_CTL 7 0

/-- R352: the level that a lowest reading calls for: 12 beyond twice the threshold, 8 beyond the threshold. -/
def State.droopFor (s : State) (w mv : Nat) : Nat :=
  let v := s.fld (R.PWR_RAIL w) 9 0
  if mv + 2 * s.droopMv < v then 12 else if mv + s.droopMv < v then 8 else 0

/-- DROOP_ONSET (R352): a sensor reads more than droop_mv below the setting: skipping begins and the episode is counted. -/
def execDroopOnset (w mv : Nat) (s : State) : Result :=
  if s.railState w == 2 && s.droopFor w mv != 0 && (s.wing w).droop == 0 then
    let lv := s.droopFor w mv
    .next ((s.modWing w fun x => { x with droop := lv, recovered := none }).bump (R.PWR_DROOP w) 1)
  else .next s

/-- DROOP_END (R352): skipping ends 64 cycles after every sensor has recovered. -/
def execDroopEnd (w : Nat) (s : State) : Result :=
  match (s.wing w).recovered with
  | some c => s.when ((s.wing w).droop != 0 && c + 64 ≤ (s.wing w).pulses) (s.modWing w fun x => { x with droop := 0, recovered := none })
  | none => .next s

/-- R351: the lowest of the readings with the number of its sensor, the lowest number on a tie. -/
def lowestReading : List Nat → Option (Nat × Nat)
  | [] => none
  | r :: rs => match lowestReading rs with
    | none => some (0, r)
    | some (i, v) => if r ≤ v then some (0, r) else some (i + 1, v)

/-- VOLTAGE_SENSOR_SAMPLE (R351, R352): the record keeps the lowest reading; a drooping wing moves between 8 and 12 of 16 and
notes when every sensor has recovered. -/
def execVoltageSensorSample (w : Nat) (readings : List Nat) (s : State) : Result :=
  match lowestReading readings with
  | none => .next s
  | some (i, v) =>
    if s.railState w == 2 || s.railState w == 1 then
      let s := if v < s.fld (R.PWR_VMIN w) 9 0 then
          (((s.setFld (R.PWR_VMIN w) 9 0 v).setFld (R.PWR_VMIN w) 21 16 i).setReg64 (R.PWR_VMIN_TS_LO w) s.time)
        else s
      let lv := s.droopFor w v
      let x := s.wing w
      if x.droop == 0 then .next s
      else if lv != 0 then .next (s.modWing w fun x => { x with droop := lv, recovered := none })
      else if x.recovered.isNone then .next (s.modWing w fun x => { x with droop := 8, recovered := some x.pulses })
      else .next s
    else .next s

/-- VMIN_REARM (R351): restarts the wing's record. -/
def execVminRearm (a : Agent) (w : Nat) (s : State) : Result :=
  s.devWrite a (R.PWR_VMIN w)
    (if w < 16 then ((s.setFld (R.PWR_VMIN w) 9 0 0x3FF).setFld (R.PWR_VMIN w) 21 16 0).setReg64 (R.PWR_VMIN_TS_LO w) 0 else s)

/-! ### VBRING (R346) -/

/-- R346: VBRING is connected to the wing. -/
def State.vbringOn (s : State) (w : Nat) : Bool := s.bit R.PWR_BRING_STATUS 0 && s.fld R.PWR_BRING_CTL 3 0 == w

/-- R346: a refused connect, and an overcurrent, set fault. -/
def State.bringFault (s : State) : State := s.setBit R.PWR_BRING_STATUS 2 true

/-- VBRING_CONNECT (R346): connects VBRING to a wing whose output is off with its rail below 0.1 V while BRING_EN is asserted;
otherwise the write is ignored and sets fault. -/
def execVbringConnect (a : Agent) (w : Nat) (bringEn : Bool) (railMv : Nat) (s : State) : Result :=
  let s := { s.setBit R.PWR_BRING_STATUS 1 bringEn with pins := { s.pins with bringEn := bringEn } }
  s.devWrite a R.PWR_BRING_CTL
    (if s.bit R.PWR_BRING_CTL 8 then (if s.fld R.PWR_BRING_CTL 3 0 == w then s else s.bringFault)
     else if bringEn && w < 16 && (s.railState w == 0 || s.railState w == 3) && railMv < 100 then
       ((s.setFld R.PWR_BRING_CTL 3 0 w).setBit R.PWR_BRING_CTL 8 true).setBit R.PWR_BRING_STATUS 0 true
     else s.bringFault)

/-- R346: the switches open. -/
def State.openBring (s : State) : State :=
  ((s.setBit R.PWR_BRING_CTL 8 false).setBit R.PWR_BRING_STATUS 0 false).setFld R.PWR_BRING_STATUS 31 16 0

/-- VBRING_DISCONNECT (R346): writing connect to 0, with any wing, opens the switches (log entry 119). The write is an agent's, with its
wing field. -/
def execVbringDisconnect (write : Agent × Nat) (s : State) : Result :=
  s.devWrite write.1 R.PWR_BRING_CTL (s.setFld R.PWR_BRING_CTL 3 0 write.2).openBring

/-- VBRING_OVERCURRENT (R346): above 150 A for 10 microseconds the switches open and fault is set. -/
def execVbringOvercurrent (amps : Nat) (s : State) : Result :=
  s.when (s.bit R.PWR_BRING_STATUS 0 && 150 < amps) s.openBring.bringFault

/-- BRING_EN_DEASSERT (R346, R455): the switches open. -/
def execBringEnDeassert (s : State) : Result :=
  let s := { s.openBring.setBit R.PWR_BRING_STATUS 1 false with pins := { s.pins with bringEn := false } }
  .next s

/-! ### Ageing (R353) -/

/-- Hours in TIME counts. -/
def hourCounts : Nat := 3600000000000

/-- R353: raise ageing_mv by 5 in the 16 trim entries of a wing, with TRIM records of origin 5. -/
def State.raiseTrim (s : State) (w : Nat) : State :=
  (List.range 16).foldl (fun s p =>
    let old := s.trim w p
    let new := old % 1024 + 1024 * min 40 (bitsOf old 15 10 + 5)
    let tb := s.cat.tables
    let r : CatRecord := { time := s.time, code := 6, target := w * 16 + p, origin := 5, old := old, new := new, detail := 0 }
    let tb := { tb with trims := Map.set trimReset tb.trims (w * 16 + p) new, records := addRecord s.time tb.records r }
    ({ s with cat := { s.cat with tables := tb } }).catDirty false) s

/-- AGEING_CHECK (R353): hourly, a wing whose monitors report too little margin is raised, at most once in 24 h and never
above 40 mV; at the limit AGEING_LIMIT is recorded. -/
def execAgeingCheck (w : Nat) (short : Bool) (s : State) : Result :=
  let lastRaise := (s.wing w).ageingAt
  let recent := match lastRaise with
    | some t => decide (s.time < t + 24 * hourCounts)
    | none => false
  let due := match (s.wing w).monitorsAt with
    | some t => decide (t + hourCounts ≤ s.time)
    | none => true
  let u := s.modWing w fun x => { x with monitorsAt := some s.time }
  let v := if !short then u
    else if 40 ≤ bitsOf (s.trim w s.point) 15 10 then u.curFault 0x24 (le 1 w)
    else if recent then u
    else (u.raiseTrim w).modWing w fun x => { x with ageingAt := some s.time }
  s.when (w < 16 && s.railState w == 2 && due && !s.cur.restarting) v

/-! ### Thermal (R363-R366) -/

/-- R363: every wing has fallen 3 degrees below warn. -/
def State.belowWarn (s : State) : Bool :=
  allWings.all fun w => s.wingTemp w < ((s.fld R.THM_CTL 15 8 : Int) - 3) * 16

/-- THERMAL_SAMPLE (R363): the hottest sensor of a wing, in 1/16 degree, and its peak; the first wing to reach warn sets
warn_seen and raises an event. -/
def execThermalSample (w : Nat) (temp : Int) (s : State) : Result :=
  if w < 16 then
    let fresh := !s.pwr.tempSeen.contains w
    let s := { s with pwr := { s.pwr with tempSeen := if fresh then w :: s.pwr.tempSeen else s.pwr.tempSeen } }
    let peak := signed16 (s.fld (R.THM w) 31 16)
    let s := s.setFld (R.THM w) 15 0 (twos 16 temp)
    let s := s.setFld (R.THM w) 31 16 (twos 16 (if fresh then temp else max peak temp))
    let s := if s.belowWarn then { s with pwr := { s.pwr with warnArmed := true } } else s
    if (s.fld R.THM_CTL 15 8 : Int) * 16 ≤ temp && s.pwr.warnArmed then
      let s := { s with pwr := { s.pwr with warnArmed := false } }
      .next ((s.setBit R.THM_STATUS 2 true).raiseVector 0 1)
    else .next s
  else .next s

/-- R253: the temperature state of a stack: 0 normal, 1 hot, 2 over. -/
def State.stackTemp (s : State) (k : Nat) : Nat := s.fld (R.MEM_STK_STATE k) 3 2

/-- R365: hot. -/
def State.hot (s : State) : Bool :=
  (allWings.any fun w => (s.fld R.THM_CTL 7 0 : Int) * 16 ≤ s.wingTemp w) || (List.range 32).any fun k => s.stackTemp k == 2

/-- R365: cool. -/
def State.cool (s : State) : Bool :=
  (allWings.all fun w => s.wingTemp w < ((s.fld R.THM_CTL 7 0 : Int) - 3) * 16) &&
    (List.range 32).all fun k => s.stackTemp k == 0

/-- R365: the thermal cap after one adjustment, E being the estimate. -/
def State.tcapNext (s : State) (e : Rat) : Rat :=
  if s.hot then max 1500 (98 / 100 * min s.pwr.tcap e)
  else if s.cool then min 5000 (101 / 100 * s.pwr.tcap)
  else s.pwr.tcap

/-- THERMAL_CAP_ADJUST (R365): every 1 ms Curator lowers or raises the thermal cap; a Curator restart holds it (R384). -/
def execThermalCapAdjust (s : State) : Result :=
  let e := s.pwr.estimates.getLastD 0
  let u := { s with pwr := { s.pwr with tcap := s.tcapNext e, tcapAt := s.time } }
  s.when (s.timeRunning && !s.cur.restarting && s.pwr.tcapAt + 1000000 ≤ s.time) (u.setFld R.PWR_TCAP_W 15 0 (u.watts u.pwr.tcap 16)).freed

/-- THERMAL_EMERGENCY (R366): a wing reaches 115 degrees. -/
def execThermalEmergency (w : Nat) (s : State) : Result :=
  if w < 16 && 115 * 16 ≤ s.wingTemp w && !(s.wing w).emergency then
    let s := s.modWing w fun x => { x with emergency := true }
    let s := (s.setBit R.THM_STATUS 1 true).setBit R.THM_STATUS 3 true
    .next (s.curFault 0x22 (le 1 w ++ le 2 (twos 16 (s.wingTemp w))))
  else .next s

/-- EMERGENCY_END (R366): the wing falls below 110 degrees. -/
def execEmergencyEnd (w : Nat) (s : State) : Result :=
  if s.wingTemp w < 110 * 16 && (s.wing w).emergency then
    let s := s.modWing w fun x => { x with emergency := false }
    .next (s.setBit R.THM_STATUS 1 s.anyEmergency)
  else .next s

/-! ### Pulse skipping (R352, R357, R359, R366) -/

/-- R352: the rank of each pulse position: a level s skips the positions whose rank is below s. -/
def skipOrder : List Nat := [0, 8, 4, 12, 2, 10, 6, 14, 1, 9, 5, 13, 3, 11, 7, 15]

/-- R352: a skip level skips pulse position i. -/
def skipsPulse (level i : Nat) : Bool := (skipOrder.take level).contains (i % 16)

/-- R357, R359: the tile belongs to a THROUGHPUT partition. -/
def State.throughputTile (s : State) (t : Nat) : Bool :=
  match s.fab.active, s.partOf t with
  | some m, some p => m.partClass p == 0
  | _, _ => false

/-- R352: the level of a tile is the highest of those it is subject to. -/
def State.tileLevel (s : State) (t : Nat) : Nat :=
  let x := s.wing (wingOf t)
  max x.droop (max (if x.emergency then 12 else 0) (if s.throughputTile t then s.skip else 0))

/-- R352: the level of a wing's routers: droop alone. -/
def State.routerLevel (s : State) (w : Nat) : Nat := (s.wing w).droop

end Sys2Proof.Machine
end

