-- ==== Sys2Proof/Machine/Placement.lean ====
section
/-! DEFINITION. DRAM placement (R242, R243, R309), the mesh (R20, R264) and route entries (R262, R263, R266). -/

namespace Sys2Proof.Machine

/-- 1 GiB, the size of a tract and of a band (R242). -/
def gib : Nat := 2 ^ 30

/-- R242: the bytes of the DRAM range. -/
def dramSize : Nat := 2 ^ 40

/-! ### Placement -/

/-- R242: the role of a tract: `(1, stack, band)` local, `(2, 0, band)` interleaved, `(0, 0, 0)` unmapped. While no image is
active every tract is local, tract t in stack t div 32, band t mod 32. -/
def tractRole (img : Option Image) (t : Nat) : Nat × Nat × Nat :=
  match img with
  | none => (1, t / 32, t % 32)
  | some m =>
    let r := m.tract t
    let role := bitsOf r 31 30
    if role == 1 then (1, bitsOf r 29 25, bitsOf r 24 20)
    else if role == 2 then (2, 0, bitsOf r 24 20) else (0, 0, 0)

/-- R242: the stack and the stack offset of a DRAM address. -/
def placeOf (img : Option Image) (a : Nat) : Option (Nat × Nat) :=
  if dramSize ≤ a then none
  else
    let r := tractRole img (a / gib)
    if r.1 == 1 then some (r.2.1, gib * r.2.2 + a % gib)
    else if r.1 == 2 then
      let u := a % 2 ^ 35 / 4096
      some (u % 32, gib * r.2.2 + 4096 * (u / 32) + a % 4096)
    else none

/-- R243: channel, bank and row of a stack offset. -/
def channelOf (o : Nat) : Nat := bitsOf o 10 6 ^^^ bitsOf o 20 16
def bankOf (o : Nat) : Nat := bitsOf o 20 16
def rowOf (o : Nat) : Nat := bitsOf o 34 21

/-- R242: the placement unit of a tract: a local tract t is unit t, an interleaved group g is unit 1024 + g. -/
def unitOfTract (img : Option Image) (t : Nat) : Option Nat :=
  let r := tractRole img t
  if r.1 == 1 then some t else if r.1 == 2 then some (1024 + t / 32) else none

/-- R242: the placement units of an image. -/
def unitsOf (img : Option Image) : List Nat := ((List.range 1024).filterMap fun t => unitOfTract img t).eraseDups

/-- R242: the address range of a unit. -/
def unitBase (u : Nat) : Nat := if u < 1024 then gib * u else 2 ^ 35 * (u - 1024)
def unitSize (u : Nat) : Nat := if u < 1024 then gib else 2 ^ 35

/-- R310: the domain of an owner: the partition's, 0 for the host. -/
def Image.ownerDomain (m : Image) (owner : Nat) : Nat := if owner == 0xFE then 0 else m.partDomain owner

/-- R310: the security domain of a unit: that of the regions placed in it; 0 when no region is. -/
def unitDomain (img : Option Image) (u : Nat) : Nat :=
  match img with
  | none => 0
  | some m =>
    match m.regions.find? fun r => r.base < unitBase u + unitSize u && unitBase u < r.base + 4096 * r.pages with
    | some r => m.ownerDomain r.owner
    | none => 0

/-- R434: a region of the image lies in the unit. -/
def unitCovered (img : Option Image) (u : Nat) : Bool :=
  match img with
  | none => false
  | some m => m.regions.any fun r => r.base < unitBase u + unitSize u && unitBase u < r.base + 4096 * r.pages

/-! ### The mesh -/

/-- R263: the neighbour of a site in a direction 0 N, 1 E, 2 S, 3 W; none off the grid. -/
def neighbour (t d : Nat) : Option Nat :=
  let x := t % 64
  let y := t / 64
  if d == 0 then (if y == 0 then none else some (t - 64))
  else if d == 1 then (if x == 63 then none else some (t + 1))
  else if d == 2 then (if y == 47 then none else some (t + 64))
  else if d == 3 then (if x == 0 then none else some (t - 1))
  else none

/-- R39: the seam-link bit of the link from a site in a direction, if it crosses a seam. -/
def seamLink (t d : Nat) : Option Nat :=
  let x := t % 64
  let y := t / 64
  if d == 1 && x % 16 == 15 && x < 63 then some (x / 16 * 48 + y)
  else if d == 3 && x % 16 == 0 && 0 < x then some ((x / 16 - 1) * 48 + y)
  else if d == 2 && y % 12 == 11 && y < 47 then some (144 + y / 12 * 64 + x)
  else if d == 0 && y % 12 == 0 && 0 < y then some (144 + (y / 12 - 1) * 64 + x)
  else none

/-- R262: the attachment number of a route target: a port, or 32 for the host; none for a site or a reserved target. -/
def targetAttach (target : Nat) : Option Nat :=
  if 3072 ≤ target && target < 3104 then some (target - 3072) else if target == 3104 then some 32 else none

/-! ### Conditions on route tables (R266) -/

def allTargets : List Nat := List.range 3136

/-- R266: the conditions on the entry of one router and target, where `dead` says that nothing may be sent to a router, `failed` that a seam
link is failed and `barred` that every router's entry of a target is UNREACH. -/
def entryFits (dead failed barred : Nat → Bool) (route : Nat → Nat → Nat) (r target : Nat) : Bool :=
  let e := route r target
  if barred target then e == 6
  else if e < 4 then
    match neighbour r e with
    | none => false
    | some n => !dead n && (match seamLink r e with
      | some i => !failed i
      | none => true)
  else if e == 4 then r == target
  else if e == 5 then
    match targetAttach target with
    | some p => r == (attachSites p).1 || r == (attachSites p).2
    | none => false
  else e == 6

/-- R266: following the entries reaches the target within the fuel. -/
def routeReaches (route : Nat → Nat → Nat) (target : Nat) : Nat → Nat → Bool
  | 0, _ => false
  | n + 1, r =>
    match route r target with
    | 4 => r == target
    | 5 => (targetAttach target).isSome
    | e => match neighbour r e with
      | some r' => if e < 4 then routeReaches route target n r' else false
      | none => false

/-- R266: the directed links, router * 4 + direction. -/
def allLinks : List Nat := List.range 12288

/-- R266: does some router's entry send traffic that arrived on link a out on link b? -/
def routeArc (route : Nat → Nat → Nat) (a b : Nat) : Bool :=
  match neighbour (a / 4) (a % 4) with
  | some r => b / 4 == r && allTargets.any fun t => route (a / 4) t == a % 4 && route r t == b % 4
  | none => false

/-- R266: the links reachable from a set of links by at most n rounds of arcs. -/
def linkClosure (route : Nat → Nat → Nat) : Nat → List Nat → List Nat
  | 0, ls => ls
  | n + 1, ls => linkClosure route n (allLinks.filter fun b => ls.contains b || ls.any fun a => routeArc route a b)

/-- R316: the routers whose entries form an arc between two links on a common cycle. -/
def cycleRouters (route : Nat → Nat → Nat) : List Nat :=
  allSites.filter fun r => allLinks.any fun b => b / 4 == r && allLinks.any fun a =>
    routeArc route a b && (linkClosure route 12288 [b]).contains a

/-! ### The default route table (R262) -/

/-- The site that a target leads to, in the default table: a live site, or a live site of the host attachment. -/
def RouteBase.dest (b : RouteBase) (target : Nat) : Option Nat :=
  if target < 3072 then (if b.dead.contains target then none else some target)
  else if target == 3104 then [(attachSites 32).1, (attachSites 32).2].find? fun t => !b.dead.contains t else none

/-- The neighbour that a working link leads to. -/
def RouteBase.link (b : RouteBase) (r d : Nat) : Option Nat :=
  (neighbour r d).filter fun n => !b.dead.contains n && (seamLink r d).all fun i => !b.failed.contains i

/-- Sites joined to a tree, each with the direction to its parent, after so many rounds of growth. -/
def RouteBase.grow (b : RouteBase) : Nat → List (Nat × Nat) → List (Nat × Nat)
  | 0, tree => tree
  | n + 1, tree =>
    b.grow n ((tree.flatMap fun e => [0, 1, 2, 3].filterMap fun d => (b.link e.1 d).map fun m => (m, (d + 2) % 4)).foldl
      (fun tree e => if tree.any fun f => f.1 == e.1 then tree else tree ++ [e]) tree)

/-- A tree of the live sites, from a live site near the centre of the die. -/
def RouteBase.tree (b : RouteBase) : List (Nat × Nat) :=
  match (allSites.map fun i => (i + 24 * 64 + 32) % 3072).find? fun t => !b.dead.contains t with
  | some root => b.grow 3072 [(root, 7)]
  | none => []

/-- The sites from a site to the root of the tree. -/
def pathUp (tree : List (Nat × Nat)) : Nat → Nat → List Nat
  | 0, t => [t]
  | n + 1, t =>
    match (tree.find? fun e => e.1 == t).bind fun e => neighbour t e.2 with
    | some p => t :: pathUp tree n p
    | none => [t]

/-- The table that routes along the tree: down where the destination hangs below the router, else up. -/
def RouteBase.treeRoute (b : RouteBase) (r target : Nat) : Nat :=
  match b.dest target with
  | none => 6
  | some t =>
    if r == t then (if target < 3072 then 4 else 5)
    else
      let tree := b.tree
      let path := pathUp tree 3072 t
      if path.contains r then
        let child := (path.takeWhile (· != r)).getLastD r
        ([0, 1, 2, 3].find? fun d => neighbour r d == some child).getD 6
      else match tree.find? fun e => e.1 == r with
        | some e => if e.2 < 4 then e.2 else 6
        | none => 6

/-- R262: a default table meets R266 and leads from every live site to every live site and to the host attachment. -/
def RouteBase.meets (b : RouteBase) (route : Nat → Nat → Nat) : Bool :=
  let live := allSites.filter fun t => !b.dead.contains t
  let barred (t : Nat) : Bool := (b.dest t).isNone
  let mine (r t : Nat) : Nat := if b.dead.contains r then 6 else route r t
  (live.all fun r => allTargets.all fun t =>
    entryFits b.dead.contains b.failed.contains barred route r t && (barred t || routeReaches route t 256 r)) &&
    (cycleRouters mine).isEmpty

/-- R262: the default table: Curator's choice at each build, a free value of the model where it meets the rule, else the routes of a tree. -/
def RouteBase.entry (b : RouteBase) (r target : Nat) : Nat :=
  if (b.dest target).isNone then 6
  else if b.meets (Config.defaultRoute b.builds) then Config.defaultRoute b.builds r target else b.treeRoute r target

/-- R262: the route entry in force: the active image's, or the default table's while none is active. -/
def State.routeEntry (s : State) (router target : Nat) : Nat :=
  match s.fab.active with
  | some m => m.route router target
  | none => s.net.routes.entry router target

/-- R37: the catalogue shows the port trained. -/
def State.portTrained (s : State) (p : Nat) : Bool := bitsOf (Map.get (fun _ => 0) s.cat.tables.ports p) 2 0 != 0

end Sys2Proof.Machine
end

