-- ==== Sys2Proof/Machine/DramCore.lean ====
section
/-! DEFINITION. The address map (R3, R13, R133, R232), and the stored blocks of the stacks: keys, decoding, errors and the
identification of a failed die (R242-R251). -/

namespace Sys2Proof.Machine

/-! ### The address map -/

/-- Where a device physical address leads (R169): a stack and its offset, an unmapped or withdrawn DRAM address, a tile's window, a
tile CSR, a device CSR, or nothing. -/
inductive Place where
  | dram (stack off : Nat)
  | lost
  | window (tile off : Nat)
  | tileCsr (tile off : Nat)
  | devCsr (off : Nat)
  | nowhere
deriving DecidableEq, Repr

/-- R244: the stack is reachable and the offset is not withdrawn (R256). -/
def State.stackOk (s : State) (stack off : Nat) : Bool :=
  s.wingUp (stack / 2) && s.fld (R.MEM_STK_STATE stack) 17 16 != 2 && s.fld (R.MEM_STK_USABLE stack) 15 0 != 0 &&
  rowOf off < 16384 - s.fld (R.MEM_STK_USABLE stack) 31 16

/-- The place of an address. -/
def State.place (s : State) (a : Nat) : Place :=
  if a < dramSize then
    match placeOf s.fab.active a with
    | some (k, o) => if s.stackOk k o then .dram k o else .lost
    | none => .lost
  else if a < 0x010000000000 then .nowhere
  else if a < 0x010000000000 + 3072 * 2 ^ 22 then .window ((a - 0x010000000000) / 2 ^ 22) (a % 2 ^ 22)
  else if a < 0x020000000000 then .nowhere
  else if a < 0x020000000000 + 3072 * 2 ^ 20 then .tileCsr ((a - 0x020000000000) / 2 ^ 20) (a % 2 ^ 20)
  else if a < 0x030000000000 then .nowhere
  else if a < 0x030000000000 + 12 * 2 ^ 20 then .devCsr (a - 0x030000000000)
  else .nowhere

/-! ### Keys (R249) -/

/-- The epoch of a placement unit, of 32 bits: it rises at every start and at every zeroing scrub of the unit. -/
def State.epoch (s : State) (u : Nat) : Nat := (s.cur.starts + Map.get (fun _ => 0) s.dram.epochs u) % 2 ^ 32

/-- A unit, its security domain and its epoch: what names the key set of the unit. -/
def State.keyOfUnit (s : State) (u : Nat) : Nat × Nat × Nat := (u, unitDomain s.fab.active u, s.epoch u)

/-- What the block at an address is written and read under. -/
def State.keyOf (s : State) (a : Nat) : BlockKey :=
  match unitOfTract s.fab.active (a / gib) with
  | some u => (unitDomain s.fab.active u, s.epoch u, a / 64)
  | none => (0, 0, a / 64)

/-- R377: the key set under which S2 zeroed a band, numbered stack * 32 + band: that of the unit of the default placement. -/
def Dram.bandDefault (d : Dram) (b : Nat) : Nat × Nat × Nat := (b, 0, (d.zeroedAt + Map.get (fun _ => 0) d.zeroedEpochs b) % 2 ^ 32)

/-- The key set under which the unlisted blocks of a band were zeroed. -/
def State.bandKey (s : State) (stack band : Nat) : Nat × Nat × Nat :=
  Map.get s.dram.bandDefault s.dram.bandKeys (stack * 32 + band)

/-- R242: the address in a placement unit of a stack offset. -/
def unitAddr (u stack off : Nat) : Nat :=
  if u < 1024 then gib * u + off % gib else 2 ^ 35 * (u - 1024) + 4096 * (off % gib / 4096 * 32 + stack) + off % 4096

/-- The number of a stored block. -/
def blockKey (stack off : Nat) : Nat := 2 ^ 29 * stack + off / 64

/-- R251: the failed die of a stack. -/
def State.failedDie (s : State) (stack : Nat) : Nat :=
  ((List.range 8).find? fun i => s.bit (R.MEM_STK_STATE stack) (8 + i)).getD 0

/-- R251: the rebuild of a stack has not reached a block yet. -/
def State.notRebuilt (s : State) (stack off : Nat) : Bool :=
  s.bit (R.MEM_STK_STATE stack) 18 && Map.get (fun _ => 0) s.dram.rebuilt stack ≤ off

/-- R251: the failed die for which a block is stored in failed-die encoding. -/
def State.encDie (s : State) (stack off : Nat) : Option Nat :=
  if s.fld (R.MEM_STK_STATE stack) 17 16 == 1 && !s.notRebuilt stack off then some (s.failedDie stack) else none

/-- What an unlisted block holds: zeros under the key set of its band's zeroing. -/
def State.blockDefault (s : State) (k : Nat) : DBlock :=
  let stack := k / 2 ^ 29
  let off := k % 2 ^ 29 * 64
  let b := s.bandKey stack (off / gib)
  encodeBlock (b.2.1, b.2.2, unitAddr b.1 stack off / 64) (s.encDie stack off) 0

/-- The stored block at a stack offset, and its replacement. -/
def State.block (s : State) (stack off : Nat) : DBlock := Map.get s.blockDefault s.dram.blocks (blockKey stack off)
def State.setBlock (s : State) (stack off : Nat) (b : DBlock) : State :=
  { s with dram := { s.dram with blocks := Map.set s.blockDefault s.dram.blocks (blockKey stack off) b } }

/-- The cells of a block change (log entry 99): a byte of the 80 and the bits that flip. -/
def State.disturb (s : State) (stack off : Nat) (flips : List (Nat × BitVec 8)) : State :=
  if flips.isEmpty then s else s.setBlock stack off ((s.block stack off).disturb flips)

/-- R436: a partition is scrubbing. -/
def State.scrubbing (s : State) (p : Nat) : Bool := s.bit (R.SEC_SCRUBBING (p / 32)) (p % 32)

/-- R255, R436: an access to the address completes CLOSED: its unit is under a zeroing scrub, or it lies in a region of a
partition that is scrubbing. -/
def State.dramClosed (s : State) (a : Nat) : Bool :=
  (match unitOfTract s.fab.active (a / gib) with
    | some u => s.dram.zeroing.contains u
    | none => false) ||
  (match s.fab.active with
    | some m => (m.regionsAt a).any fun r => r.owner < 254 && s.scrubbing r.owner
    | none => false)

/-! ### Decoding (R250, R251) -/

/-- R250, R251: a read of a block. -/
def State.decodeBlock (s : State) (stack off addr : Nat) : Decoded :=
  let b := s.block stack off
  let k := s.keyOf addr
  if s.fld (R.MEM_STK_STATE stack) 17 16 != 1 then decodeNormal b k
  else if s.notRebuilt stack off then decodeTrial b k (s.failedDie stack)
  else decodeFailed b k (s.failedDie stack)

/-- 64 bytes of 0xFF. -/
def allOnes512 : BitVec 512 := BitVec.allOnes 512

/-- What a read delivers: the plaintext, or ones. -/
def State.delivered (s : State) (addr : Nat) (d : Decoded) : BitVec 512 :=
  if d.result < 2 then (cipherOf (s.keyOf addr)).symm d.cipher else allOnes512

/-- A row of a bank as one number, and the row of a stack offset. -/
def rowKey (stack channel bank row : Nat) : Nat := 16384 * ((stack * 32 + channel) * 32 + bank) + row
def rowKeyOf (stack off : Nat) : Nat := rowKey stack (channelOf off) (bankOf off) (rowOf off)

/-- R251: a die of a stack is found failed: the state, the catalogue and the DIE_FAILED record. -/
def State.dieFails (s : State) (stack die : Nat) : State :=
  let a := R.MEM_STK_STATE stack
  if s.bit a (8 + die) then s else
  let second := s.fld a 15 8 != 0
  let s := s.setBit a (8 + die) true
  let s := if second then ((s.setFld a 17 16 2).setBit a 18 false).setFld (R.MEM_STK_USABLE stack) 15 0 0
    else { ((s.setFld a 17 16 1).setBit a 18 true) with dram := { s.dram with rebuilt := Map.erase stack s.dram.rebuilt } }
  let tb := s.cat.tables
  let failed := Map.get (fun _ => 0) tb.dieFailed stack ||| 2 ^ die
  let usable := if second then Map.set (fun _ => 32768) tb.usable stack 0 else tb.usable
  let s := { s with cat := { s.cat with tables := { tb with dieFailed := Map.set (fun _ => 0) tb.dieFailed stack failed, usable := usable } } }
  (s.catDirty false).curFault 0x18 (le 1 stack ++ le 1 die ++ le 1 (s.fld a 17 16))

/-- The uncorrectable reads of a stack in the last millisecond. -/
def State.recentBad (s : State) (stack : Nat) : List (Nat × Nat × Nat × Nat) :=
  s.dram.recent.filter fun e => e.1 == stack && s.time < e.2.2.2 + 1000000

/-- R251: the die that the test of 16 uncorrectable reads finds. While a die is failed already the spec gives no test, and what the tiles find comes with
the command (log entry 100). -/
def State.testDies (s : State) (stack : Nat) (found : Option Nat) : Option Nat :=
  let l := s.recentBad stack
  if l.length < 16 then none
  else if s.fld (R.MEM_STK_STATE stack) 17 16 == 0 then findDie (l.map fun e => (s.block stack e.2.1, s.keyOf e.2.2.1))
  else found.map (· % 8)

/-- R250, R251, R257, R439: what a read with a result counts, by an access of a partition; `found` is a second failed die. -/
def State.accountRead (s : State) (stack off addr : Nat) (d : Decoded) (part : Option Nat) (found : Option Nat) : State :=
  match d.result with
  | 0 => s
  | 1 =>
    let s := s.bump (R.MEM_STK_CORR stack) 1
    let k := rowKeyOf stack off
    let wide := if 2 ≤ d.fixed && !s.dram.wide.contains k then s.dram.wide ++ [k] else s.dram.wide
    { s with dram := { s.dram with rewrites := Map.set (fun _ => 0) s.dram.rewrites (blockKey stack off) 1, wide := wide } }
  | o =>
    let kind := if o == 2 then 0 else 1
    let s := s.bump (if o == 2 then R.MEM_STK_UNCORR stack else R.MEM_STK_MACFAIL stack) 1
    let s := s.setReg (R.MEM_STK_ERR_ADDR_LO stack) (BitVec.ofNat 32 (addr / 64 * 64))
    let s := s.setReg (R.MEM_STK_ERR_ADDR_HI stack) (BitVec.ofNat 32 (2 ^ 31 * kind + addr / 2 ^ 32))
    let s := s.uncorrectable (s.sourceOf (miSite stack (channelOf off)) 0) part 0x13 (le 8 (addr / 64 * 64) ++ le 1 kind)
    if o == 2 then
      let old := s.dram.recent.filter fun e => s.time < e.2.2.2 + 1000000
      let s := { s with dram := { s.dram with recent := old ++ [(stack, off / 64 * 64, addr / 64 * 64, s.time)] } }
      match s.testDies stack found with
      | some f => { s.dieFails stack f with dram := { (s.dieFails stack f).dram with recent := old.filter fun e => e.1 != stack } }
      | none => s
    else s

/-- Write a whole block under the key set in force (R248); a pending corrected rewrite of it is dropped (R250). -/
def State.writeBlock (s : State) (stack off addr : Nat) (data : BitVec 512) : State :=
  let s := s.setBlock stack off (encodeBlock (s.keyOf addr) (s.encDie stack off) data)
  { s with dram := { s.dram with rewrites := Map.erase (blockKey stack off) s.dram.rewrites } }

/-- R250, R257: a block that decodes is rewritten corrected; any other stays as stored. -/
def State.rewriteBlock (s : State) (stack off addr : Nat) : State :=
  let d := s.decodeBlock stack off addr
  if d.result < 2 then s.writeBlock stack off addr (s.delivered addr d) else s

/-- Replace byte i of a block. -/
def setByte512 (v : BitVec 512) (i : Nat) (b : BitVec 8) : BitVec 512 :=
  let m : BitVec 512 := BitVec.ofNat 512 (255 * 2 ^ (8 * i))
  (v &&& ~~~m) ||| BitVec.ofNat 512 (b.toNat * 2 ^ (8 * i))

/-- Replace bytes of a block, by offset. -/
def setBytes512 (v : BitVec 512) (bs : List (Nat × BitVec 8)) : BitVec 512 := bs.foldl (fun v e => setByte512 v (e.1 % 64) e.2) v

end Sys2Proof.Machine
end

