-- ==== Sys2Proof/Machine/Rights.lean ====
section
/-! DEFINITION. The rights of an agent at an address (R310, R413, R428), events and reports that every unit makes (R207, R217,
R238), and the cores of a site. -/

namespace Sys2Proof.Machine

/-- The rights of a partition in DRAM and at windows (R310). -/
def State.partMayReach (s : State) (p : Nat) (a : Nat) (write : Bool) : Bool :=
  match s.place a with
  | .window t _ => s.partOf t == some p
  | .tileCsr t _ => s.partOf t == some p
  | .devCsr o => match s.fab.active with
    | some m => (m.partRights p).testBit (o / 0x100000)
    | none => false
  | _ => match s.fab.active with
    | some m => m.regionRight p a write
    | none => false

/-- R428: has the agent the right to read or write at the address? An address that leads nowhere is no violation: it completes
UNREACH. -/
def State.mayReach (s : State) (a : Agent) (addr : Nat) (write : Bool) : Bool :=
  if dramSize ≤ addr && s.place addr == .nowhere then true else
  match a with
  | .curator => true
  | .tap => true
  | .remote _ => false
  | .core t _ => match s.partOf t with
    | some p => s.partMayReach p addr write
    | none => false
  | .vf k => match s.vfPart k with
    | some p => s.partMayReach p addr write
    | none => false
  | .host => match s.place addr with
    | .devCsr _ => true
    | _ => false
  | .pf1 => match s.place addr with
    | .devCsr _ => true
    | .window t _ => match s.partOf t with
      | some p => !s.locked p
      | none => true
    | .tileCsr t _ => match s.partOf t with
      | some p => !s.locked p
      | none => true
    | _ => match s.fab.active with
      | none => true
      | some m => (m.regionsAt addr).any fun r => r.owner == 0xFE || (r.owner != 0xFF && !s.locked r.owner)

/-! ### CSR accesses of another size -/

/-- R5, R446: an access of another size, or an unaligned one, adds a record from the accessing core, or from Curator for any other agent. -/
def State.csrAccess (s : State) (a : Agent) (addr size : Nat) (write : Bool) : State :=
  match a with
  | .core t c => s.fault 0x01 (s.sourceOf t c) (s.partOf t) (le 8 addr ++ le 1 size ++ le 1 write.toNat)
  | _ => s.curFault 0x01 (le 8 addr ++ le 1 size ++ le 1 write.toNat)

/-! ### Cores -/

/-- Core c of site t. -/
def State.core (s : State) (t c : Nat) : Core := Map.get (fun _ => Core.reset) (s.site t).cores c
def State.modCore (s : State) (t c : Nat) (f : Core → Core) : State :=
  s.modSite t fun x => { x with cores := Map.modify (fun _ => Core.reset) x.cores c f }

/-- R152: the state of core c: 0 STOPPED, 1 RUNNING, 2 WAITING, 3 ENDING, 4 FAULTED, 5 HALTED, 7 ABSENT. -/
def State.coreState (s : State) (t c : Nat) : Nat := s.tfld t R.TILE_STATE (4 * c + 2) (4 * c)

/-- R433: an event of class k at a site goes into every armed trace buffer that names the site and the class; a full buffer stops. -/
def State.traceEvent (s : State) (t unit k data : Nat) : State :=
  (List.range 8).foldl (fun s n =>
    let a := R.DBG_TRACE_CTL n
    if s.bit a 31 && !s.bit a 30 && s.fld a 16 5 == t && s.bit a k then
      let r : TraceRec := { time := s.siteTime t, source := s.sourceOf t unit, event := k, data := data }
      let d := { s.dbg with trace := Map.set (fun _ => []) s.dbg.trace n (Map.get (fun _ => []) s.dbg.trace n ++ [r]) }
      let count := s.fld a 29 17 + 1
      ({ s with dbg := d }.setFld a 29 17 count).setBit a 30 (count == 4096)
    else s) s

/-- A core changes its state (R152, R433). -/
def State.setCoreState (s : State) (t c v : Nat) : State :=
  let s' := s.setTfld t R.TILE_STATE (4 * c + 2) (4 * c) v
  if s.coreState t c == v then s' else s'.traceEvent t c 3 (2 ^ 14 * c + v)

/-- R152: the event flag of core c. -/
def State.event (s : State) (t c : Nat) : Bool := s.tbit t R.TILE_STATE (4 * c + 3)

/-- R207, R238: a source sets the event flag; at an S-tile it also sets the event cause. A core that waits in WFE goes on once the
flag is 1: the flag is cleared and the core runs on after the WFE, at which its pc stands meanwhile (R167). -/
def State.setEvent (s : State) (t c : Nat) : State :=
  if s.coreState t c == 7 then s else
  let s := if kindOf t = .s then s.setTbit t (R.S_EXT_PEND c) 0 true else s
  if s.coreState t c == 2 && (s.core t c).wait == 1 then
    ((s.setTbit t R.TILE_STATE (4 * c + 3) false).setCoreState t c 1).modCore t c fun k =>
      { k with wait := 0, timeout := none, pc := (k.pc + 4) % 2 ^ 64 }
  else s.setTbit t R.TILE_STATE (4 * c + 3) true

/-- R217, R238: a completion other than OK is reported: the sticky bit with the first status, core, source and pc, and the counts. -/
def State.reportStatus (s : State) (t core source pc status : Nat) : State :=
  if status == 0 then s else
  let s := s.tbump t (if status == 1 then R.ENG_XFER_STALE else if status == 2 then R.ENG_XFER_CLOSED else R.ENG_XFER_UNREACH) 1
  let s := if s.tbit t R.ENG_STATUS 13 then s else
    ((s.setTbit t R.ENG_STATUS 13 true).setTreg t R.ENG_XFER_STATUS
      (BitVec.ofNat 32 (core * 256 + source * 16 + status))).setTreg64 t R.ENG_XFER_PC_LO pc
  if kindOf t = .s then s.setTbit t (R.S_EXT_PEND core) 2 true else s

end Sys2Proof.Machine
end

