-- ==== Sys2Proof/Machine/Endpoint.lean ====
section
/-! DEFINITION. How a unit hands an access to its network interface (R271), and what comes back from the networks to the host attachment (R412, R415, R419): the answers to host requests, to the parts
of copy transfers, to message ports and to debug accesses. Function page 0 is PF1's and page k that of VF k. -/

namespace Sys2Proof.Machine

/-! ### Accesses that leave a unit for the network -/

/-- Change the network. -/
def State.modNet (s : State) (f : Net → Net) : State := { s with net := f s.net }

/-- A header of zeros with message format 1. -/
def Hdr.blank : Hdr :=
  { dev := 0, tile := 0, queue := 0, acc := 0, win := 0, kind := 0, version := 1, len := 0, status := 0, xlated := false,
    tag := 0, src := 0, mask := 0, addr := 0, arg := 0 }

/-- Hand an access to the interface of a site; in a paired partition it first waits for its twin's (R440). -/
def State.post (s : State) (origin : Nat) (agent : Agent) (h : Hdr) (data : List (BitVec 8)) (u : NetUser) : State :=
  let ready := 3072 ≤ origin || (s.twin origin).isNone
  let r : NetReq := { origin := origin, agent := agent, hdr := h, data := data, user := u, ready := ready, twin := none }
  s.modNet fun n => { n with outbox := n.outbox ++ [r] }

/-! ### Answers at the host attachment -/

def State.modHst (s : State) (f : Hst → Hst) : State := { s with hst := f s.hst }

/-- R424: the PCIe link is up. -/
def State.hostUp (s : State) : Bool := s.bit R.HST_LINK_STATUS 8

/-- R412, R425: the first access of a function that was not OK since its latch was cleared. -/
def State.fnErr (s : State) (f addr status : Nat) : State :=
  if s.bit (R.FN_ERR f) 31 then s
  else (s.setReg (R.FN_ERR f) (BitVec.ofNat 32 (2 ^ 31 + status))).setReg64 (R.FN_ERR_ADDR_LO f) addr

/-- R412, R424: the same for PF0; the address is an offset in BAR2. -/
def State.hstErr (s : State) (offset status : Nat) : State :=
  if s.bit R.HST_ERR 31 then s
  else s.setReg R.HST_ERR (BitVec.ofNat 32 (2 ^ 31 + 2 ^ 24 * status + offset % 2 ^ 24))

/-- n bytes of all ones. -/
def ones (n : Nat) : List (BitVec 8) := List.replicate n 0xFF

/-- R412: the answer to a host request: a read that completes other than OK returns all ones, and the status is latched. -/
def State.hostDone (s : State) (id status : Nat) (data : List (BitVec 8)) : Option State :=
  match s.hst.reqs.find? fun r => r.id == id with
  | none => none
  | some r =>
    let s := s.modHst fun h => { h with reqs := h.reqs.filter fun q => q.id != id }
    let s := if status == 0 then s else s.fnErr r.fn r.addr status
    some (if r.read then
      s.modHst fun h => { h with done := h.done ++ [{ id := id, outcome := 0, data := if status == 0 then data else ones r.len }] }
    else s)

/-- A copy channel: its descriptors in progress, in ring order. -/
def chanKey (f c : Nat) : Nat := f * 4 + c
def State.chan (s : State) (f c : Nat) : List CopyJob := Map.get (fun _ => []) s.hst.chans (chanKey f c)
def State.setChan (s : State) (f c : Nat) (l : List CopyJob) : State :=
  s.modHst fun h => { h with chans := Map.set (fun _ => []) h.chans (chanKey f c) l }

/-- R415: the status that a descriptor gets for a completion code. -/
def copyStatus (status : Nat) : Nat := if status == 0 then 0x80 else if status == 3 then 0x82 else 0x81

/-- R412, R415: the answer to one part of a transfer, which begins at offset `part`. -/
def State.copyDone (s : State) (f c id part status : Nat) (data : List (BitVec 8)) : Option State :=
  let js := s.chan f c
  if !(js.any fun j => j.id == id) then none else
  let s := match js.find? fun j => j.id == id with
    | some j => if status == 0 then s else s.fnErr f (j.dev + part) status
    | none => s
  some (s.setChan f c (js.map fun j =>
    if j.id != id then j
    else { j with left := j.left - 1, status := if j.status == 0x80 then copyStatus status else j.status,
                  data := if status == 0 then j.data ++ ((List.range data.length).map (· + part)).zip data else j.data }))

/-- R449: the answer to a debug access: a read's word is held in DBG_ACC_DATA, and a completion other than OK sets error; what the
register then holds is a free value. -/
def State.debugDone (s : State) (status : Nat) (data : List (BitVec 8)) : State :=
  let s := s.setBit R.DBG_ACC_CMD 31 false
  if status == 0 then (if data.isEmpty then s else s.setReg R.DBG_ACC_DATA (BitVec.ofNat 32 (leNat data)))
  else
    let s := s.setBit R.DBG_ACC_CMD 30 true
    if s.bit R.DBG_ACC_CMD 0 then (s.setReg R.DBG_ACC_DATA (s.free.extractLsb' 0 32)).freed else s

end Sys2Proof.Machine
end

