-- ==== Sys2Proof/Machine/Cache.lean ====
section
/-! DEFINITION. The caches, the local memory and the address translation of an S-tile (R226-R237). Fills and write-backs between
the L2 and the stacks are packets of the BN; an access waits while its line is on its way. -/

namespace Sys2Proof.Machine

/-- R232: the ways of the L2 used as local memory, and its bytes. -/
def State.localWays (s : State) (t : Nat) : Nat := min 16 (s.tfld t R.S_L2_CFG 4 0)
def State.localBytes (s : State) (t : Nat) : Nat := 131072 * s.localWays t

/-- R233: a change of the local ways is in progress. -/
def State.l2Busy (s : State) (t : Nat) : Bool := s.tbit t R.S_L2_CFG 17

/-- The device physical address of offset o of a site's window. -/
def windowAddr (t o : Nat) : Nat := 0x010000000000 + 2 ^ 22 * t + o

/-- The offset of an address in the local memory of a site, when it lies there. -/
def State.localOff (s : State) (t a : Nat) : Option Nat :=
  let b := windowAddr t 0
  if b ≤ a && a < b + s.localBytes t then some (a - b) else none

/-- R227: the sets of a cache. -/
def l1Set (a : Nat) : Nat := a / 64 % 256
def l2Set (a : Nat) : Nat := a / 64 % 2048

/-- Take a line out of a cache, or put it first. -/
def dropLine (ls : List CLine) (a : Nat) : List CLine := ls.filter fun l => l.addr != a
def findLine (ls : List CLine) (a : Nat) : Option CLine := ls.find? fun l => l.addr == a

/-- The line of a set that is beyond its ways: the one used longest ago. -/
def victim (ls : List CLine) (set : Nat → Nat) (k ways : Nat) : Option CLine :=
  ((ls.filter fun l => set l.addr == k).drop ways).head?

/-- R230: a word that an uncorrectable error marked, by its physical address divided by 8. -/
def State.wordBad (s : State) (t w : Nat) : Bool := (s.site t).vitBad.contains w

/-- R230: the words of a line as they are written back or delivered: all ones where marked. -/
def State.lineOut (s : State) (t a : Nat) (v : BitVec 512) : BitVec 512 :=
  (List.range 8).foldl (fun v i =>
    if s.wordBad t (a / 8 + i) then setBytes512 v ((List.range 8).map fun j => (8 * i + j, 0xFF)) else v) v

/-- A line of local memory, and its replacement. -/
def State.localLine (s : State) (t o : Nat) : BitVec 512 := of512 (Map.getRange (fun _ => 0) (s.site t).vit (o / 64 * 64) 64)
def State.setLocalLine (s : State) (t o : Nat) (v : BitVec 512) : State :=
  s.modSite t fun x => { x with vit := Map.setAll (fun _ => 0) x.vit (o / 64 * 64) (bytesOf512 v) }

/-- R14, R227: a line of DRAM is asked for over the BN, unless it is on its way already or its write-back is. The access that needs it was checked
against its rights (R428). -/
def State.askLine (s : State) (t c a : Nat) : State :=
  if ((s.site t).fills.any fun f => f.1 == a) || (s.site t).spills.contains a then s else
  let h : Hdr := { Hdr.blank with dev := s.deviceId, kind := 8, len := 64, src := s.sourceOf t c, addr := a }
  (s.modSite t fun x => { x with fills := x.fills ++ [(a, none)] }).post t (.core t c) h [] (.fill t a)

/-- R229, R230: a dirty line leaves for DRAM over the BN; its marked words go out as all ones. -/
def State.spill (s : State) (t : Nat) (l : CLine) : State :=
  if !l.dirty then s else
  let h : Hdr := { Hdr.blank with dev := s.deviceId, kind := 9, len := 64, src := s.sourceOf t 0, addr := l.addr }
  (s.modSite t fun x => { x with spills := x.spills ++ [l.addr] }).post t (.core t 0) h (bytesOf512 (s.lineOut t l.addr l.data))
    (.spill t l.addr)

/-- R230: the words of a line that is no longer held lose their marks (log entry 95). -/
def State.unmark (s : State) (t a : Nat) : State :=
  s.modSite t fun x => { x with vitBad := x.vitBad.filter fun w => w / 8 != a / 64 }

/-- The cores of an S-tile. -/
def cores4 : List Nat := [0, 1, 2, 3]

/-- Put newer data into the level below the L1Ds: the L2 line or the local memory. -/
def State.lower (s : State) (t : Nat) (l : CLine) : State :=
  match s.localOff t l.addr with
  | some o => s.setLocalLine t o l.data
  | none => s.modSite t fun x =>
    { x with l2 := x.l2.map fun m => if m.addr == l.addr then { m with data := l.data, dirty := true } else m }

/-- R229: what a dirty L1D copy of a line holds goes to the level below; the copies stay and are clean. -/
def State.syncLine (s : State) (t a : Nat) : State :=
  cores4.foldl (fun s c =>
    match findLine (s.core t c).cache.l1d a with
    | some l => if l.dirty then
        (s.lower t l).modCore t c fun k => { k with cache := { k.cache with
          l1d := k.cache.l1d.map fun m => if m.addr == a then { m with dirty := false } else m } }
      else s
    | none => s) s

/-- Discard the copies of a line in the L1Ds of some cores, and in every L1I when `code` holds. -/
def State.discardL1 (s : State) (t a : Nat) (cs : List Nat) (code : Bool) : State :=
  cores4.foldl (fun s c => s.modCore t c fun k => { k with cache := { k.cache with
    l1d := if cs.contains c then dropLine k.cache.l1d a else k.cache.l1d,
    l1i := if code then dropLine k.cache.l1i a else k.cache.l1i } }) s

/-- R227: the L2 holds at most `ways` lines of a set; a line that leaves is written back when dirty and leaves every L1. -/
def State.l2Evict (s : State) (t k ways : Nat) : State :=
  match victim (s.site t).l2 l2Set k ways with
  | none => s
  | some l =>
    let s := s.syncLine t l.addr
    let l := (findLine (s.site t).l2 l.addr).getD l
    let s := ((s.spill t l).discardL1 t l.addr cores4 true).unmark t l.addr
    s.modSite t fun x => { x with l2 := dropLine x.l2 l.addr }

/-- The L2 or the local memory holds a line, so that an L1 may (R227). -/
def State.l2Holds (s : State) (t a : Nat) : Bool := (s.localOff t a).isSome || (findLine (s.site t).l2 a).isSome

/-- A line at the L2 for core c: its status and bytes, or none while it is on its way from DRAM or the L2 is busy (R233). With 16 local
ways nothing of DRAM stays (R232). -/
def State.l2Line (s : State) (t c a : Nat) : Option (Nat × BitVec 512) × State :=
  if s.l2Busy t then (none, s) else
  match s.localOff t a with
  | some o => (some (0, s.localLine t o), s)
  | none =>
    match findLine (s.site t).l2 a with
    | some l => (some (0, l.data), s.modSite t fun x => { x with l2 := l :: dropLine x.l2 a })
    | none =>
      match (s.site t).fills.find? fun f => f.1 == a && f.2.isSome with
      | some (_, some (st, v)) =>
        let s := s.modSite t fun x => { x with fills := x.fills.filter fun f => f.1 != a }
        (some (st, v), if st != 0 || s.localWays t == 16 then s else
          (s.modSite t fun x => { x with l2 := { addr := a, data := v, dirty := false } :: x.l2 }).l2Evict t (l2Set a) (16 - s.localWays t))
      | _ => (none, s.askLine t c a)

/-- A line in the L1D of core c, first in its set: its status and the line, or none while it is on its way. The L1D writes back what it
replaces. -/
def State.l1Line (s : State) (t c a : Nat) : Option (Nat × CLine) × State :=
  match findLine (s.core t c).cache.l1d a with
  | some l =>
    (some (0, l), s.modCore t c fun k => { k with cache := { k.cache with l1d := l :: dropLine k.cache.l1d a } })
  | none =>
    let r := (s.syncLine t a).l2Line t c a
    match r.1 with
    | none => (none, r.2)
    | some (st, v) =>
      let l : CLine := { addr := a, data := v, dirty := false }
      if st != 0 || !r.2.l2Holds t a then (some (st, l), r.2) else
      let s := r.2.modCore t c fun k => { k with cache := { k.cache with l1d := l :: k.cache.l1d } }
      match victim (s.core t c).cache.l1d l1Set (l1Set a) 4 with
      | none => (some (0, l), s)
      | some v =>
        let s := if v.dirty then s.lower t v else s
        (some (0, l), s.modCore t c fun k => { k with cache := { k.cache with l1d := dropLine k.cache.l1d v.addr } })

/-- R230: a line holds data that no level below has: it is local memory, or dirty in the L2 or in the L1D of any core. -/
def State.lineDirty (s : State) (t a : Nat) : Bool :=
  (s.localOff t a).isSome || ((findLine (s.site t).l2 a).any (·.dirty)) ||
  cores4.any fun c => (findLine (s.core t c).cache.l1d a).any (·.dirty)

/-- R230: errors that an access of core c finds in the words of a line that is held. A word is corrected, marked, or refetched with its line. -/
def State.cacheErrors (s : State) (t c a : Nat) (corr uncorr : List Nat) : State :=
  if s.l2Busy t || !s.l2Holds t a then s else
  let words := (List.range 8).map (· + a / 8)
  let dirty := s.lineDirty t a
  words.foldl (fun s w =>
    if uncorr.contains w && !s.wordBad t w then
      if dirty then
        let s := (s.tbump t R.S_CACHE_ECC_UNCORR 1).setTreg64 t R.S_CACHE_ECC_ADDR_LO (8 * w)
        let s := cores4.foldl (fun s c => s.setTbit t (R.S_EXT_PEND c) 1 true) s
        let s := s.modSite t fun x => { x with vitBad := x.vitBad ++ [w] }
        s.uncorrectable (s.sourceOf t c) (s.partOf t) 0x12 (le 8 (8 * w))
      else
        let s := s.discardL1 t a cores4 true
        (s.modSite t fun x => { x with l2 := dropLine x.l2 a }).tbump t R.S_CACHE_ECC_CORR 1
    else if corr.contains w then s.tbump t R.S_CACHE_ECC_CORR 1 else s) s

/-- R227-R230: a cached load of n bytes (within a line): its status and bytes, or none while the line is on its way. -/
def State.cacheLoad (s : State) (t c addr n : Nat) (corr uncorr : List Nat) : Option (Nat × List (BitVec 8)) × State :=
  let a := addr / 64 * 64
  let r := (s.cacheErrors t c a corr uncorr).l1Line t c a
  match r.1 with
  | none => (none, r.2)
  | some (st, l) =>
    let v := r.2.lineOut t a l.data
    (some (st, (List.range n).map fun i => if st == 0 then byte512 v (addr % 64 + i) else 0), r.2)

/-- R227-R230: a cached store of bytes (within a line): its status, or none while the line is on its way. Marked words that it covers whole
lose their mark. -/
def State.cacheStore (s : State) (t c addr : Nat) (bs : List (BitVec 8)) : Option Nat × State :=
  let a := addr / 64 * 64
  let r := s.l1Line t c a
  match r.1 with
  | none => (none, r.2)
  | some (st, l) =>
    if st != 0 then (some st, r.2) else
    let s := r.2.discardL1 t a (cores4.filter (· != c)) false
    let v := setBytes512 l.data (((List.range bs.length).map (· + addr % 64)).zip bs)
    let s := s.modCore t c fun k => { k with cache := { k.cache with
      l1d := k.cache.l1d.map fun m => if m.addr == a then { m with data := v, dirty := true } else m } }
    let whole (w : Nat) : Bool := addr ≤ 8 * w && 8 * w + 8 ≤ addr + bs.length
    (some 0, s.modSite t fun x => { x with vitBad := x.vitBad.filter fun w => !whole w })

/-- R171, R230: an AMO in the caches: its status and the old value, or none while the line is on its way. A marked word returns all ones and is
not written. -/
def State.cacheAmo (s : State) (t c addr op : Nat) (wide : Bool) (b d : BitVec 64) (corr uncorr : List Nat) :
    Option (Nat × Nat) × State :=
  let n := if wide then 8 else 4
  let r := s.cacheLoad t c addr n corr uncorr
  match r.1 with
  | none => (none, r.2)
  | some (st, l) =>
    if st != 0 then (some (st, 0), r.2) else
    if r.2.wordBad t (addr / 8) then (some (0, 2 ^ (8 * n) - 1), r.2) else
    let old := leNat l
    let w := r.2.cacheStore t c addr (leBytes n (amoResult op (8 * n) old b.toNat d.toNat))
    (w.1.map fun st => (st, old), w.2)

/-- R229: a read of local memory over the BN sees the latest store; a write or AMO from there invalidates every L1D copy of its line
before it completes. -/
def State.localRead (s : State) (t o n : Nat) : List (BitVec 8) × State :=
  let lines := (List.range ((o + n - 1) / 64 - o / 64 + 1)).map fun i => windowAddr t ((o / 64 + i) * 64)
  let s := lines.foldl (fun s a => s.syncLine t a) s
  let b (i : Nat) : BitVec 8 := if s.wordBad t (windowAddr t i / 8) then 0xFF else (s.site t).vitByte i
  ((List.range n).map fun i => b (o + i), s)
def State.localWrite (s : State) (t o : Nat) (bs : List (BitVec 8)) : State :=
  let n := bs.length
  let lines := (List.range ((o + n - 1) / 64 - o / 64 + 1)).map fun i => windowAddr t ((o / 64 + i) * 64)
  let s := lines.foldl (fun s a => (s.syncLine t a).discardL1 t a cores4 false) s
  let whole (w : Nat) : Bool := windowAddr t o ≤ 8 * w && 8 * w + 8 ≤ windowAddr t o + n
  s.modSite t fun x => { x with vit := Map.setAll (fun _ => 0) x.vit o bs, vitBad := x.vitBad.filter fun w => !whole w }
def State.localAmo (s : State) (t o op : Nat) (wide : Bool) (b d : Nat) : Nat × State :=
  let n := if wide then 8 else 4
  let r := s.localRead t o n
  if r.2.wordBad t (windowAddr t o / 8) then (2 ^ (8 * n) - 1, r.2) else
  let old := leNat r.1
  (old, r.2.localWrite t o (leBytes n (amoResult op (8 * n) old b d)))

/-! ### Line operations (R172, R229) -/

/-- CLEAN: a dirty line is written to memory and stays valid; in local memory it is written back there. -/
def State.clean (s : State) (t a : Nat) : State :=
  let s := s.syncLine t a
  match s.localOff t a with
  | some _ => s
  | none =>
    match findLine (s.site t).l2 a with
    | some l => (s.spill t l).modSite t fun x =>
      { x with l2 := x.l2.map fun m => if m.addr == a then { m with dirty := false } else m }
    | none => s

/-- INVAL: the line is discarded without writing; in local memory only the L1D copy of the core is. -/
def State.inval (s : State) (t c a : Nat) : State :=
  match s.localOff t a with
  | some _ => s.discardL1 t a [c] false
  | none =>
    let s := (s.discardL1 t a cores4 true).unmark t a
    s.modSite t fun x => { x with l2 := dropLine x.l2 a }

/-! ### Translation (R234-R237) -/

/-- The fields of a table entry (R235). -/
def pteType (e : BitVec 64) : Nat := fieldOf' e 62 61
where fieldOf' (e : BitVec 64) (hi lo : Nat) : Nat := e.toNat / 2 ^ lo % 2 ^ (hi - lo + 1)
def pteFrame (e : BitVec 64) : Nat := e.toNat / 2 ^ 24 % 2 ^ 36
def pteRights (e : BitVec 64) (sup : Bool) : Nat := if sup then e.toNat / 8 % 8 else e.toNat % 8

/-- R235: bits that must be 0. -/
def pteClear (e : BitVec 64) : Bool :=
  !e.getLsbD 60 && e.toNat / 2 ^ 11 % 32 == 0 && !e.getLsbD 6 && (pteType e != 0 || e.toNat % 2048 == 0)

/-- R236: the leaf grants write without read. -/
def pteOdd (e : BitVec 64) : Bool :=
  let odd (r : Nat) : Bool := r / 2 % 2 == 1 && r % 2 == 0
  odd (pteRights e true) || odd (pteRights e false)

/-- The kinds of an access: 0 fetch, 1 load, 2 store, 3 AMO. -/
abbrev AccKind := Nat

/-- R236: the leaf's rights lack what the access needs. -/
def pteDenied (e : BitVec 64) (sup : Bool) (k : AccKind) : Bool :=
  let r := pteRights e sup
  match k with
  | 0 => r / 4 % 2 == 0
  | 1 => r % 2 == 0
  | 2 => r / 2 % 2 == 0
  | _ => r % 2 == 0 || r / 2 % 2 == 0

/-- R236: the exception of an access kind; `cleanOnly` says that clean = 1 is its only fault. -/
def pageCause (k : AccKind) (cleanOnly : Bool) : Nat :=
  match k with
  | 0 => 11
  | 1 => 12
  | 2 => 13
  | _ => if cleanOnly then 13 else 12

/-- The result of a translation: a physical address with its cache bit, the cause of a page fault, or that a table entry is on its way. -/
inductive Xlate where
  | ok (pa : Nat) (cache : Bool)
  | fault (cause : Nat)
  | wait
deriving DecidableEq, Repr

/-- One table entry, read through the L2 as a cacheable access, or none while it is on its way; a table outside DRAM and local memory faults
(R234). -/
def State.readPte (s : State) (t c a : Nat) : Option (Option (BitVec 64)) × State :=
  let ok := match s.place a with
    | .dram _ _ => true
    | .lost => true
    | .window u _ => u == t && (s.localOff t a).isSome
    | _ => false
  if !ok then (some none, s) else
  if !s.mayReach (.core t c) a false then (some (some 0), s.violation (.core t c) a 8 t) else
  let l := a / 64 * 64
  let r := (s.syncLine t l).l2Line t c l
  match r.1 with
  | none => (none, r.2)
  | some (st, v) =>
    let w := r.2.lineOut t l v
    (some (some (if st == 0 then w.extractLsb' (8 * (a % 64)) 64 else 0)), r.2)

/-- The walk from a level downward: the leaf and its level, no leaf, or none while an entry is on its way. -/
def State.walk (s : State) (t c va table : Nat) : Nat → Option (Option (BitVec 64 × Nat)) × State
  | 0 => (some none, s)
  | n + 1 =>
    let r := s.readPte t c (4096 * table + va / 2 ^ (12 + 9 * n) % 512 * 8)
    match r.1 with
    | none => (none, r.2)
    | some none => (some none, r.2)
    | some (some e) =>
      if !e.getLsbD 63 || 1 < pteType e || !pteClear e then (some none, r.2)
      else if pteType e == 1 then
        if n == 3 || pteFrame e % 2 ^ (9 * n) != 0 || pteOdd e then (some none, r.2) else (some (some (e, n)), r.2)
      else if n == 0 then (some none, r.2)
      else r.2.walk t c va (pteFrame e) n

/-- R237: a cached translation matches a virtual address and a space tag. -/
def Tlb.matches (x : Tlb) (va space : Nat) : Bool :=
  x.vpn == va / 2 ^ (12 + 9 * x.level) && (x.space == space || x.leaf.getLsbD 8)

/-- Put a translation first in a TLB of n entries. -/
def tlbPut (l : List Tlb) (e : Tlb) (n : Nat) : List Tlb := (e :: l.filter fun x => x != e).take n

/-- The supervisor register n of a core with its reset value (R182). -/
def svReset (n : Nat) : BitVec 64 := if n == 0 || n == 1 then 2 else if n == 10 then BitVec.allOnes 64 else 0
def Core.svReg (k : Core) (n : Nat) : BitVec 64 := Map.get svReset k.sv n
def Core.setSv (k : Core) (n : Nat) (v : BitVec 64) : Core := { k with sv := Map.set svReset k.sv n v }

/-- R181: the core is in supervisor mode. -/
def Core.supervisor (k : Core) : Bool := (k.svReg 0).getLsbD 1

/-- The physical address that a leaf gives. -/
def Tlb.target (x : Tlb) (va : Nat) : Nat := 4096 * pteFrame x.leaf + va % 2 ^ (12 + 9 * x.level)

/-- R234-R237: translation of a virtual address for an access. A cached translation serves unless the access is a store or AMO that meets
its clean bit: then the walk reads the entry again. -/
def State.translate (s : State) (t c va : Nat) (k : AccKind) : Xlate × State :=
  let core := s.core t c
  let xl := core.svReg 11
  if !xl.getLsbD 0 then (.ok va true, s) else
  if 2 ^ 48 ≤ va then (.fault (pageCause k false), s) else
  let space := xl.toNat / 2 ^ 16 % 4096
  let sup := core.supervisor
  let first := if k == 0 then core.cache.itlb else core.cache.dtlb
  let put (s : State) (e : Tlb) : State := s.modCore t c fun q => { q with cache :=
    { q.cache with itlb := if k == 0 then tlbPut q.cache.itlb e 32 else q.cache.itlb,
                   dtlb := if k == 0 then q.cache.dtlb else tlbPut q.cache.dtlb e 32, tlb2 := tlbPut q.cache.tlb2 e 1024 } }
  let use (s : State) (e : Tlb) : Xlate × State :=
    let writes := k == 2 || k == 3
    if e.leaf.getLsbD 10 || pteDenied e.leaf sup k then (.fault (pageCause k false), s)
    else if writes && e.leaf.getLsbD 9 then (.fault (pageCause k true), s)
    else (.ok (e.target va) (e.leaf.getLsbD 7), put s e)
  let hit := ((first ++ core.cache.tlb2).find? fun e => e.matches va space)
  match hit with
  | some e => if (k == 2 || k == 3) && e.leaf.getLsbD 9 && !pteDenied e.leaf sup k then walkNow s use va space xl else use s e
  | none => walkNow s use va space xl
where
  walkNow (s : State) (use : State → Tlb → Xlate × State) (va space : Nat) (xl : BitVec 64) : Xlate × State :=
    let r := s.walk t c va (xl.toNat / 2 ^ 28) 4
    match r.1 with
    | none => (.wait, r.2)
    | some none => (.fault (pageCause k false), r.2)
    | some (some (e, n)) => use r.2 { vpn := va / 2 ^ (12 + 9 * n), level := n, space := space, leaf := e }

/-- XLINV (R176, R237): discard the cached translations that a predicate names. -/
def State.xlinv (s : State) (t c : Nat) (gone : Tlb → Bool) : State :=
  s.modCore t c fun k => { k with cache := { k.cache with
    itlb := k.cache.itlb.filter fun e => !gone e, dtlb := k.cache.dtlb.filter fun e => !gone e,
    tlb2 := k.cache.tlb2.filter fun e => !gone e } }

/-! ### The division of the L2 (R233) -/

/-- R233: the lines of DRAM beyond the ways that remain for caching are written back and discarded. -/
def State.l2Shrink (s : State) (t ways : Nat) : State :=
  (s.site t).l2.foldl (fun s l => s.l2Evict t (l2Set l.addr) (16 - ways)) s

/-- R233: a write to S_L2_CFG. A write that names a reserved value leaves the field unchanged. -/
def State.l2Cfg (s : State) (t : Nat) (w : BitVec 32) : State :=
  let s := if w.getLsbD 16 then s.setTbit t R.S_L2_CFG 16 false else s
  let ways := getBits w 4 0
  if kindOf t ≠ .s then s else
  if cores4.any (fun c => ! [0, 4, 5].contains (s.coreState t c)) || s.l2Busy t then s.setTbit t R.S_L2_CFG 16 true
  else if 16 < ways || ways == s.localWays t then s
  else ((s.setTbit t R.S_L2_CFG 17 true).modSite t fun x => { x with l2End := some ways }).l2Shrink t ways

/-- S_L2_CFG_WRITE (R233). -/
def execSL2CfgWrite (a : Agent) (t : Nat) (w : BitVec 32) (s : State) : Result := s.tileWrite a t R.S_L2_CFG fun s t => s.l2Cfg t w

/-- The division takes effect: new local memory reads 0, and local memory in ways that return to caching is lost. -/
def State.l2Reconfig (s : State) (t ways : Nat) : State :=
  let old := s.localBytes t
  let new := 131072 * ways
  -- the upper ways are local: local memory keeps its lower offsets, and its dirty L1D copies of what is lost go with it
  let s := if new < old then
      cores4.foldl (fun s c => s.modCore t c fun k => { k with cache := { k.cache with
        l1d := k.cache.l1d.filter (fun l => !(windowAddr t new ≤ l.addr && l.addr < windowAddr t old)),
        l1i := k.cache.l1i.filter (fun l => !(windowAddr t new ≤ l.addr && l.addr < windowAddr t old)) } }) s
    else s
  let s := s.setTfld t R.S_L2_CFG 4 0 ways
  let s := s.modSite t fun x =>
    { x with vit := Map.clearRange (min old new) (max old new) x.vit, l2End := none,
             vitBad := x.vitBad.filter fun w => !(windowAddr t (min old new) ≤ 8 * w && 8 * w < windowAddr t (max old new)) }
  s.setTbit t R.S_L2_CFG 17 false

/-- L2_RECONFIG_DONE (R233): the lines written back have reached DRAM. -/
def execL2ReconfigDone (t : Nat) (s : State) : Result :=
  match (s.site t).l2End with
  | some ways => s.when (s.l2Busy t && (s.site t).spills.isEmpty) (s.l2Reconfig t ways)
  | none => .next s

/-- R231: a scrub discards every line without writing it back, every translation, and the local memory. -/
def State.scrubCaches (s : State) (t : Nat) : State :=
  let s := cores4.foldl (fun s c => s.modCore t c fun k => { k with cache := .empty }) s
  let s := s.modSite t fun x => { x with l2 := [], vit := [], vitBad := [], l2End := none, fills := [], spills := [] }
  (s.setTfld t R.S_L2_CFG 4 0 0).setTbit t R.S_L2_CFG 17 false

end Sys2Proof.Machine
end

