-- ==== Sys2Proof/Machine/Drain.lean ====
section
/-! DEFINITION. The Drain engine (R113-R128, R201, R202): refusals at issue, the six-stage pipeline row by row, online
softmax, quantisation and writes, pair mode, ACC.SCALE, the row-table and table loads, and completion with the slot
boundary of R99. -/

namespace Sys2Proof.Machine

/-! ### Fields (R201, R202) -/

/-- A DR, by its group; every other instruction of the Drain engine is of group 0x32. -/
def EngInstr.isDr (i : EngInstr) : Bool := i.group == 0x31

/-- The operation code of group 0x32. -/
def EngInstr.aop (i : EngInstr) : Nat := i.bits 53 50

/-- Fields of a DR. -/
def EngInstr.td (i : EngInstr) : Nat := i.bits 53 50
def EngInstr.handle (i : EngInstr) : Nat := i.bits 49 47
def EngInstr.pair (i : EngInstr) : Bool := i.bits 46 46 == 1
def EngInstr.rel (i : EngInstr) : Bool := i.bits 45 45 == 1
def EngInstr.sm (i : EngInstr) : Nat := i.bits 44 43
def EngInstr.mask (i : EngInstr) : Nat := i.bits 42 41
def EngInstr.act (i : EngInstr) : Nat := i.bits 40 38
def EngInstr.qen (i : EngInstr) : Bool := i.bits 37 37 == 1
def EngInstr.q (i : EngInstr) : Nat := i.bits 36 34
def EngInstr.sbias (i : EngInstr) : Nat := i.bits 33 29

/-- The captured register values: bias offset, positions, parameters. -/
def EngInstr.bias (i : EngInstr) : Nat := (i.sv.getD 0 0).toNat
def EngInstr.qbase (i : EngInstr) : Nat := fieldOf (i.sv.getD 1 0).toNat 21 0
def EngInstr.kbase (i : EngInstr) : Nat := fieldOf (i.sv.getD 1 0).toNat 43 22
def EngInstr.wlen (i : EngInstr) : Nat := fieldOf (i.sv.getD 2 0).toNat 21 0
def EngInstr.sbase (i : EngInstr) : Nat := if i.isDr then fieldOf (i.sv.getD 2 0).toNat 31 22 else i.bits 46 37
def EngInstr.sl (i : EngInstr) : BitVec 32 := BitVec.ofNat 32 (fieldOf (i.sv.getD 2 0).toNat 63 32)
def EngInstr.cnt (i : EngInstr) : Nat := i.bits 36 27
def EngInstr.sx (i : EngInstr) : Nat := (i.sv.getD 0 0).toNat

/-- The slot of STEP.CLOSE and the table of ACT.LOAD. -/
def EngInstr.aq (i : EngInstr) : Nat := i.bits 21 19

/-- The lowest reason of those that hold (R216). -/
def firstReason (l : List (Nat × Bool)) : Option Nat := (l.find? (·.2)).map (·.1)

/-- Rows that a drain reads: the chunk's lines for each half of the array rows (R113). -/
def Completion.rows (c : Completion) : Nat := c.lines * (halves c.fold).length

/-- The line and half of the r-th row of a drain, and its accumulator row. -/
def Completion.lineOf (c : Completion) (r : Nat) : Nat × Nat := (r % c.lines, r / c.lines)
def Completion.accRow (c : Completion) (line half : Nat) : Nat := c.base + line + half * (c.r / 2)

/-- The narrow flag of a codebook. -/
def State.narrow (s : State) (t cb : Nat) : Bool :=
  if cb < 32 then s.tbit t R.ENG_CB_NARROW_LO cb else s.tbit t R.ENG_CB_NARROW_HI (cb - 32)

/-- The element width in memory of a DR's output: 64 bits in pair mode (R201). -/
def EngInstr.outWidth (i : EngInstr) (d : Desc) : Nat := if i.pair then 64 else d.width

/-- The last byte of the block scales of an operand of n indices and k elements along the blocks. -/
def ScaleRec.inside (r : ScaleRec) (d : Desc) (k n size : Nat) : Bool :=
  !d.scaled || (d.scalePtr + 16 ≤ size && (r.fmt == 0 || r.at_ ((k - 1) / r.size) (n - 1) < size))

/-- R87 for an output record. -/
def outRecBad (r : ScaleRec) (d : Desc) (fold : Nat) : Bool :=
  r.bad d.fmt d.rows true || [0x10, 0x11].contains d.fmt ||
  (r.fmt != 0 && ([0x01, 0x02, 0x03].contains d.fmt || r.block == 2 || (r.block == 1 && (fold == 2 || fold == 3)))) ||
  (r.fmt == 2 && [0x04, 0x05].contains d.fmt)

/-- R201, R216: why a DR is refused with the completion it would take. -/
def State.drRefusal (s : State) (t : Nat) (i : EngInstr) (c : Completion) : Option Nat :=
  let x := s.site t
  let size := vitSize t
  let subs := foldSubs c.fold
  let beyond := 15 < i.td + subs - 1
  let ds := ((List.range (min subs (16 - i.td))).map fun u => desc (i.tv.getD u 0))
  let recs := ds.map fun d => x.scaleRec d
  let pairs := ds.zip recs
  firstReason
    [(2, ds.any fun d => Num.width d.fmt == 0),
     (4, pairs.any (fun e => outRecBad e.2 e.1 c.fold) || (i.pair && (ds.any (fun d => d.fmt != 3) || i.qen || i.sm != 0))),
     (6, beyond || ds.any fun d => d.rows != c.m || d.cols != c.n),
     (8, ds.any fun d => 2 ≤ d.layout || (d.tr && (d.layout != 1 || i.outWidth d != 32)) ||
        (d.layout == 1 && d.addr % 4096 != 0)),
     (9, pairs.any (fun e => !(e.1.inside (i.outWidth e.1) size) || !(e.2.inside e.1 e.1.cols e.1.rows size)) ||
        (i.sbias != 0 && (i.bias % 4 != 0 || size < i.bias + 128))),
     (10, i.sm == 3 || i.mask == 3 || (i.sm != 0 && 2 ≤ c.fold) ||
        (i.sm != 0 && (1023 < i.sbase + (c.accRow (c.lines - 1) ((halves c.fold).length - 1) - c.base) ||
          !Num.isPosNormal i.sl)) || (i.mask == 2 && i.wlen == 0)),
     (11, 5 ≤ i.act),
     (14, i.bits 18 11 != 0 || ds.any fun d => d.zero != 0)]

/-- R202, R216: why an operation of group 0x32 is refused; ACC.SCALE and ACC.DROP with the completion they would take. -/
def accRefusal (t : Nat) (i : EngInstr) (c : Option Completion) : Option Nat :=
  let size := vitSize t
  let op := i.aop
  let cnt := i.cnt + 1
  let v := BitVec.ofNat 32 i.sx
  let zeros : Bool :=
    (! [0, 5].contains op && i.handle != 0) || (! [0, 1, 2, 3].contains op && i.bits 46 37 != 0) ||
    (! [0, 1, 2, 3].contains op && i.cnt != 0) || (! [2, 3, 4, 6].contains op && i.bits 26 22 != 0) ||
    (! [4, 6].contains op && i.aq != 0)
  firstReason
    [(5, op == 0 && (match c with | some c => c.r < cnt | none => false)),
     (9, ([2, 3].contains op && (i.sx % 8 != 0 || size < i.sx + 8 * cnt)) || (op == 6 && (i.sx % 8 != 0 || size < i.sx + 1040))),
     (10, [0, 1, 2, 3].contains op && 1023 < i.bits 46 37 + i.cnt),
     (11, (op == 4 && 0x7F800000 ≤ v.toNat) || (op == 6 && (i.aq == 0 || 4 < i.aq))),
     (14, 7 ≤ op || i.bits 18 11 != 0 || zeros)]

/-! ### The row table and the activation tables (R117, R119-R122) -/

/-- A row-table entry. -/
def Site.entry (x : Site) (n : Nat) : RowEntry := Map.get (fun _ => RowEntry.init) x.rowTab n
def Site.setEntry (x : Site) (n : Nat) (e : RowEntry) : Site := { x with rowTab := Map.set (fun _ => RowEntry.init) x.rowTab n e }

/-- Word w of activation table k (1-4). -/
def Site.actWord (x : Site) (k w : Nat) : BitVec 32 := Map.get (fun _ => 0) x.acts (k * 260 + w)

/-- R117: the index of the largest breakpoint at or below v, or 0. -/
def actIndex (x : Site) (k : Nat) (v : Num.Val) : Nat :=
  (List.range 64).foldl (fun best i => if Num.vltNum v (Num.of32 (x.actWord k (4 + 4 * i))) then best else i) 0

/-- R117: act(v). -/
def Site.activate (x : Site) (k : Nat) (v : BitVec 32) : BitVec 32 :=
  match Num.of32 v with
  | .nan => Num.nan32
  | .inf true => x.actWord k 0
  | .inf false => x.actWord k 1
  | w =>
    let i := actIndex x k w
    let c (j : Nat) := x.actWord k (4 + 4 * i + j)
    let u := Num.fsub v (c 0)
    Num.ffma (Num.fadd (Num.fmul (c 3) u) (c 2)) u (c 1)

/-- R118: a position is masked. -/
def masked (mode q k wlen : Nat) : Bool :=
  mode != 0 && (4194303 < q || 4194303 < k || q < k || (mode == 2 && k + wlen ≤ q))

/-- R121: the softmax update of one row: the entry and the values. -/
def softmaxUpdate (e : RowEntry) (sl : BitVec 32) (xs : List (BitVec 32)) : RowEntry × List (BitVec 32) :=
  let bm := match xs with
    | [] => 0xFF800000
    | a :: l => l.foldl Num.fmax a
  let mn := Num.fmax e.m bm
  if mn = 0xFF800000 then ({ e with c := 0x3F800000 }, xs.map fun _ => 0)
  else
    let c := Num.exp2t (Num.fmul (Num.fsub e.m mn) sl)
    let p := xs.map fun v => Num.exp2t (Num.fmul (Num.fsub v mn) sl)
    let sp := match p with
      | [] => 0
      | a :: l => l.foldl Num.fadd a
    ({ m := mn, l := Num.fadd (Num.fmul e.l c) sp, c := c }, p)

/-- R122: normalisation by the row's entry. -/
def softmaxNormal (e : RowEntry) (xs : List (BitVec 32)) : List (BitVec 32) :=
  if absBits e.l = 0 then xs.map fun _ => 0 else xs.map fun v => Num.fdiv v e.l

/-! ### Rows (R115, R125) -/

/-- The bias value of a column, from the bytes read. -/
def DrainOp.biasOf (o : DrainOp) (n : Nat) : BitVec 32 :=
  wordOfBytes ((List.range 4).map fun k => Map.get (fun _ => 0) o.got (o.instr.bias + 4 * n + k))

/-- The accumulator columns of a chunk that hold outputs. -/
def Completion.cols (c : Completion) : List Nat :=
  (List.range 32).filter fun n => c.nb * foldBlock c.fold + n % foldBlock c.fold < c.n

/-- Stages 1 to 4 and the mask on column n of a row. -/
def Site.stages (x : Site) (o : DrainOp) (c : Completion) (line n : Nat) (p : Num.Pair) : BitVec 32 :=
  let i := o.instr
  let v := if c.verb.order then p.hi else Num.fadd p.hi p.err
  let v := Num.fmul v c.ts
  let v := if i.sbias != 0 then Num.fadd v (o.biasOf n) else v
  let v := if i.act != 0 then x.activate i.act v else v
  if masked i.mask (i.qbase + line) (i.kbase + c.nb * 32 + n) i.wlen then 0xFF800000 else v

/-- A row is read: its pairs are taken as they stand in x, before the commits of the tile cycle (R113), and stages 1 to 4 and the mask are
formed. -/
def State.readRow (s : State) (x : Site) (t : Nat) (o : DrainOp) (c : Completion) : DRow × State :=
  let lh := c.lineOf o.next
  let row := c.accRow lh.1 lh.2
  let r := (List.range 32).foldl (fun (acc : List Num.Pair × State) n =>
    let q := acc.2.accRead x t row n
    (acc.1 ++ [q.1], q.2)) ([], s)
  let x := s.site t
  let vals := if o.instr.pair then [] else c.cols.map fun n => x.stages o c lh.1 n (r.1.getD n .zero)
  ({ line := o.next, row := row, age := 0, pairs := r.1, vals := vals, entry := .init, factor := 0 }, r.2)

/-- The conversion of one block of a row: the block-scale byte to gather, the codes, and the counts (R94). -/
def convertBlock (rec_ : ScaleRec) (fmt : Nat) (tensor : BitVec 32) (vs : List (BitVec 32)) (k : QCounts) :
    Option Nat × List Nat × QCounts :=
  let bs := if rec_.fmt = 0 then none else
    some (Num.blockScale rec_.fmt fmt
      (vs.foldl (fun m v => if Num.isFinite v then max m (ratOf (absBits v)) else m) 0) (ratOf tensor))
  let d := match bs with
    | some b => Num.round32Mag false (ratOf tensor * b.value)
    | none => tensor
  let k := match bs with
    | some b => if b.sat then { k with sat := k.sat + 1 } else k
    | none => k
  let r := vs.foldl (fun (acc : List Nat × QCounts) v =>
    let q := Num.quantise fmt v d
    (acc.1 ++ [q.1], acc.2.one v q.2)) ([], k)
  (bs.map (·.code), r.1, r.2)

/-- Cut a list into pieces of n. -/
def chunks {α : Type} (n : Nat) : Nat → List α → List (List α)
  | 0, _ => []
  | fuel + 1, l => if l.isEmpty then [] else l.take n :: chunks n fuel (l.drop n)

/-- The bytes and masks that elements at bit positions store. -/
def packBits (es : List (Nat × Nat × Nat)) : List (Nat × BitVec 8) × List (Nat × BitVec 8) :=
  let bits := es.flatMap fun e => (List.range e.2.1).map fun k => (e.1 + k, e.2.2.testBit k)
  let bytes := bits.foldl (fun (l : List Nat) b => insertAsc (b.1 / 8) l) []
  let val (o : Nat) (f : Nat × Bool → Bool) : BitVec 8 :=
    BitVec.ofNat 8 ((bits.filter fun b => b.1 / 8 == o).foldl (fun a b => if f b then a ||| 2 ^ (b.1 % 8) else a) 0)
  (bytes.map fun o => (o, val o (·.2)),
   (bytes.map fun o => (o, val o fun _ => true)).filter fun m => m.2 != 0xFF)

/-- Writes of bytes as accesses: one for each line, or one column access of whole cells. -/
def writeAccesses (port : Nat) (user : VitUser) (column : Bool) (data masks : List (Nat × BitVec 8)) : List VitReq :=
  if column then [writeReq port user data]
  else ((data.map fun d => d.1 / 128).eraseDups).map fun l =>
    { writeReq port user (data.filter fun d => d.1 / 128 == l) with masks := masks.filter fun m => m.1 / 128 == l }

/-- Stage 6 of one row: its write requests, the block-scale bytes it adds, each with the number of its block index, and the counts
(R93-R95, R124, R125). The fields of the output record are read as they stand at the row's stage 6 (DESIGN CHOICE, log entry 89). -/
def Site.rowWrites (x : Site) (o : DrainOp) (c : Completion) (r : DRow) : List VitReq × List (Nat × Nat × BitVec 8) × QCounts :=
  let i := o.instr
  let lh := c.lineOf r.line
  (subsOfRow c.fold (lh.2 * 16)).foldl (fun acc u =>
    let d := desc (i.tv.getD u 0)
    let rec_ := x.scaleRec d
    let outRow := c.ch * foldChunk c.fold c.r + lh.1
    let outCol (n : Nat) : Nat := c.nb * foldBlock c.fold + n % foldBlock c.fold
    let ns := c.cols.filter fun n => subAt c.fold (lh.2 * 16) n == u
    if i.pair then
      let es := ns.map fun n =>
        let p := r.pairs.getD n .zero
        let hi := Num.fmul p.hi c.ts
        let err := Num.fmul p.err c.ts
        (d.logPos 64 outRow (outCol n), 64, hi.toNat + 2 ^ 32 * err.toNat)
      let b := packBits es
      (acc.1 ++ writeAccesses 2 (.drainWrite o.id) false b.1 b.2, acc.2.1, acc.2.2)
    else
      let vs := ns.map fun n => r.vals.getD (c.cols.idxOf n) 0
      let blocks := chunks (if rec_.fmt = 0 then 32 else rec_.size) 33 (ns.zip vs)
      let q := blocks.foldl (fun (a : List (Nat × Nat × Nat) × List (Nat × Nat × BitVec 8) × QCounts) blk =>
        let k := convertBlock rec_ d.fmt (o.scales.getD u 0x3F800000) (blk.map (·.2)) a.2.2
        let codes := (blk.map (·.1)).zip k.2.1
        let es := codes.map fun e => (d.logPos d.width outRow (outCol e.1), d.width, e.2)
        let sc := match k.1, blk with
          | some code, e :: _ =>
            [(4 * (outCol e.1 / rec_.size) + u, rec_.at_ (outCol e.1 / rec_.size) outRow, BitVec.ofNat 8 code)]
          | _, _ => []
        (a.1 ++ es, a.2.1 ++ sc, k.2.2)) ([], [], acc.2.2)
      let b := packBits q.1
      (acc.1 ++ writeAccesses 2 (.drainWrite o.id) d.tr b.1 b.2, acc.2.1 ++ q.2.1, q.2.2)) ([], [], o.counts)

/-! ### The pipeline (R126, R127) -/

/-- Replace an operation. -/
def State.setDrain (s : State) (t : Nat) (o : DrainOp) : State :=
  s.modSite t fun x => { x with drains := x.drains.map fun p => if p.id == o.id then o else p }

/-- R124: the gathered bytes of one block index as accesses, one for each line. -/
def gatherWrites (id : Nat) (g : List (Nat × BitVec 8)) : List VitReq :=
  writeAccesses 2 (.drainWrite id) false
    ((g.foldl (fun (l : List Nat) b => insertAsc b.1 l) []).map fun a => (a, Map.get (fun _ => 0) g a)) []

/-- R124: the block-scale bytes to write once a row has added its own: those of a block index whose line of 128 B is full, or of all with the
last row of the sub-problem; and the bytes that stay gathered. -/
def gatherDue (id : Nat) (g : List (Nat × Nat × BitVec 8)) (last : Bool) : List VitReq × List (Nat × Nat × BitVec 8) :=
  (g.map (·.1)).eraseDups.foldl (fun acc k =>
    let mine := g.filter fun e => e.1 == k
    if last || mine.any fun e => e.2.1 % 128 == 127 then (acc.1 ++ gatherWrites id (mine.map (·.2)), acc.2)
    else (acc.1, acc.2 ++ mine)) ([], [])

/-- Present writes of an operation, and count them as outstanding; the CRC-64 over its bytes goes on (R440). -/
def State.drainPresent (s : State) (t : Nat) (o : DrainOp) (ws : List VitReq) : State :=
  let bytes := ws.flatMap fun r => r.data.map (·.2)
  let s := s.modSite t fun x => { x with drainOn := x.drainOn.map fun e =>
    if e.id == o.id then { e with crc := crc64 e.crc bytes } else e }
  ws.foldl (fun s r => s.present t r) (s.setDrain t { o with writes := o.writes + ws.length })

/-- What a row does as it reaches an age. -/
def State.rowAge (s : State) (t : Nat) (id : Nat) (r : DRow) : State :=
  match (s.site t).drains.find? fun o => o.id == id with
  | none => s
  | some o =>
    let i := o.instr
    match o.comp with
    | none => s
    | some c =>
      let put (s : State) (o : DrainOp) (r : DRow) : State := s.setDrain t { o with flight := o.flight ++ [r] }
      if i.isDr then
        match r.age with
        | 1 =>
          let s := if i.rel then s.modSite t fun x => { x with taken := x.taken.filter fun n => n != r.row } else s
          put s o r
        | 8 =>
          if i.sm == 0 then put s o r else
          let e := (s.site t).entry (i.sbase + (r.row - c.base))
          if i.sm == 1 then
            let q := softmaxUpdate e i.sl r.vals
            put s o { r with entry := q.1, vals := q.2 }
          else put s o { r with vals := softmaxNormal e r.vals }
        | 13 =>
          let s := if i.sm == 1 then s.modSite t fun x => x.setEntry (i.sbase + (r.row - c.base)) r.entry else s
          put s o r
        | 17 =>
          -- a gathered access goes right ahead of the row's own write, so that T follows the last row write (log entry 85)
          let q := (s.site t).rowWrites o c r
          let g := gatherDue o.id (o.gather ++ q.2.1) ((c.lineOf r.line).1 + 1 == c.lines)
          s.drainPresent t { o with gather := g.2, counts := q.2.2 } (g.1 ++ q.1)
        | _ => put s o r
      else
        -- ACC.SCALE writes a row back six cycles after its read
        if r.age == 6 then
          let s := (List.range 32).foldl (fun s n =>
            let p := r.pairs.getD n .zero
            let hi := Num.fmul p.hi r.factor
            let err := if Num.isFinite p.hi && Num.isFinite hi then Num.fmul p.err r.factor else 0
            s.modSite t fun x => x.setPair r.row n { hi := hi, err := err }) s
          s.modSite t fun x => { x with scaling := x.scaling.filter fun e => e.1 != r.row }
        else put s o r

/-- R126: the operations that overlap: a DR and an ACC.SCALE. -/
def EngInstr.overlaps (i : EngInstr) : Bool := i.isDr || i.aop == 0

/-- R126: an operation may start after those before it: a DR or an ACC.SCALE once they have read their rows and its own bias has arrived, and
any other operation once they have completed. -/
def mayStart (before : List DrainOp) (o : DrainOp) : Bool :=
  if o.instr.overlaps then o.reads == 0 && before.all fun p => p.instr.overlaps && p.next == p.rows
  else before.isEmpty

/-- R95: the tensor scales that a DR takes at its first read, one for each output descriptor. -/
def State.takeScales (s : State) (t : Nat) (i : EngInstr) (c : Completion) : List (BitVec 32) :=
  (List.range (foldSubs c.fold)).map fun u =>
    if i.qen then s.treg t (R.QUANT_SCALE i.q) else ((s.site t).scaleRec (desc (i.tv.getD u 0))).tensor

/-- One row is read by a DR or an ACC.SCALE, from the buffer as it stands in x. ACC.SCALE takes its entry's c with the read (DESIGN CHOICE, log
entry 87); a commit of its read cycle is a collision (R113). -/
def State.drainRead (s : State) (x : Site) (t : Nat) (o : DrainOp) (c : Completion) : State :=
  let s := s.arrCount64 t R.ENG_DRN_ROWS_LO 1
  if o.instr.isDr then
    let o := if o.next == 0 then { o with scales := s.takeScales t o.instr c } else o
    let q := s.readRow x t o c
    q.2.setDrain t { o with next := o.next + 1, flight := o.flight ++ [q.1] }
  else
    let row := c.base + o.next
    let s := if (s.arr t).rows.contains row then s.setTbit t R.ENG_STATUS 11 true else s
    let r := (List.range 32).foldl (fun (acc : List Num.Pair × State) n =>
      let q := acc.2.accRead x t row n
      (acc.1 ++ [q.1], q.2)) ([], s)
    let f := ((s.site t).entry (o.instr.sbase + o.next)).c
    let s := r.2.modSite t fun x => { x with scaling := x.scaling ++ [(row, x.cycle)] }
    s.setDrain t { o with next := o.next + 1,
                          flight := o.flight ++ [{ line := o.next, row := row, age := 0, pairs := r.1, vals := [],
                                                   entry := .init, factor := f }] }

/-- The words of row-table entries as stored bytes. -/
def entryBytes (o : Nat) (e : RowEntry) : List (Nat × BitVec 8) :=
  ((List.range 8).map (· + o)).zip (bytesOfWord e.m ++ bytesOfWord e.l)

/-- R117: the words of a table as read, subnormals flushed. -/
def DrainOp.tableWord (o : DrainOp) (w : Nat) : BitVec 32 :=
  Num.flushSub (wordOfBytes ((List.range 4).map fun k => Map.get (fun _ => 0) o.got (o.instr.sx + 4 * w + k)))

/-- R117: the breakpoints are finite and strictly ascending. -/
def DrainOp.tableOk (o : DrainOp) : Bool :=
  ((List.range 64).all fun i => Num.isFinite (o.tableWord (4 + 4 * i))) &&
  (List.range 63).all fun i => Num.vltNum (Num.of32 (o.tableWord (4 + 4 * i))) (Num.of32 (o.tableWord (8 + 4 * i)))

/-- One cycle of an operation of R202 other than ACC.SCALE. -/
def State.otherCycle (s : State) (t : Nat) (o : DrainOp) : State :=
  let i := o.instr
  match i.aop with
  | 1 =>
    if o.next < o.rows then
      (s.modSite t fun x => x.setEntry (i.sbase + o.next) .init).setDrain t { o with next := o.next + 1 }
    else s
  | 2 =>
    if o.next < o.rows then
      let a := i.sx + 8 * o.next
      let g := o.gather ++ (entryBytes a ((s.site t).entry (i.sbase + o.next))).map fun b => (0, b)
      let o1 := { o with next := o.next + 1, gather := g }
      if o.next + 1 == o.rows || (a + 8) % 128 == 0 then
        s.drainPresent t { o1 with gather := [] } (gatherWrites o.id (g.map (·.2)))
      else s.setDrain t o1
    else s
  | 3 =>
    -- each entry was set as its data arrived
    if o.reads == 0 && o.next < o.rows then s.setDrain t { o with next := o.rows } else s
  | 4 =>
    -- R99: the CSR writes since the boundary before go first
    if o.closed then s
    else ((s.qboundary t).qclose t i.aq (BitVec.ofNat 32 i.sx)).setDrain t { o with closed := true, next := o.rows }
  | 5 =>
    match o.comp with
    | some c =>
      if o.next < o.rows then
        (s.modSite t fun x => { x with taken := x.taken.filter fun r => r != c.base + o.next }).setDrain t
          { o with next := o.next + 1 }
      else s
    | none => s
  | _ =>
    if o.reads == 0 && o.next < o.rows then
      let s := if o.tableOk then
          s.modSite t fun x => { x with acts := (List.range 260).foldl (fun m w =>
            Map.set (fun _ => 0) m (i.aq * 260 + w) (o.tableWord w)) x.acts }
        else s
      s.setDrain t { o with next := o.rows, closed := !o.tableOk }
    else s

/-- R119, R126: SM.LOAD sets the entries whose bytes an access brought. -/
def State.loadEntries (s : State) (t : Nat) (o : DrainOp) (bytes : List (Nat × BitVec 8)) : State :=
  let w (k : Nat) : BitVec 32 := wordOfBytes ((List.range 4).map fun b => Map.get (fun _ => 0) bytes (k + b))
  ((List.range (o.instr.cnt + 1)).filter fun n => bytes.any fun b => b.1 == o.instr.sx + 8 * n).foldl (fun s n =>
    let a := o.instr.sx + 8 * n
    s.modSite t fun x => x.setEntry (o.instr.sbase + n) { m := w a, l := w (a + 4), c := 0x3F800000 }) s

/-- Data of a read of an operation arrives. -/
def State.drainArrive (s : State) (t op : Nat) (bytes : List (Nat × BitVec 8)) : State :=
  match (s.site t).drains.find? fun o => o.id == op with
  | none => s
  | some o =>
    let s := if !o.instr.isDr && o.instr.aop == 3 then s.loadEntries t o bytes else s
    s.setDrain t { o with reads := o.reads - 1, got := o.got ++ bytes }

/-- R95, R126: after its last row write request, a DR whose descriptor names a record writes T into the record. A pair-mode drain, which skips
the stages that use the record, writes none (DESIGN CHOICE, log entry 86). -/
def State.drainTail (s : State) (t : Nat) (o : DrainOp) : State :=
  if !o.instr.isDr || o.tailSent || o.next != o.rows || !o.flight.isEmpty then s else
  match o.comp with
  | none => s
  | some c =>
    let ds := if o.instr.pair then [] else
      ((List.range (foldSubs c.fold)).map fun u => (u, desc (o.instr.tv.getD u 0))).filter fun e => e.2.scaled
    let ws := ds.map fun e =>
      writeReq 2 (.drainTail o.id)
        (((List.range 4).map (· + e.2.scalePtr)).zip (bytesOfWord (o.scales.getD e.1 0x3F800000)))
    s.drainPresent t { o with tailSent := true } ws

/-- The rows in the pipeline of an operation grow older by one cycle. -/
def State.ageRows (s : State) (t : Nat) (o : DrainOp) : State :=
  o.flight.foldl (fun s r => s.rowAge t o.id { r with age := r.age + 1 }) (s.setDrain t { o with flight := [] })

/-- One cycle of the operation with number id; x is the site before the tile cycle's commits. -/
def State.drainCycle (s : State) (x : Site) (t id : Nat) : State :=
  match (s.site t).drains.find? fun o => o.id == id with
  | none => s
  | some o =>
    if o.instr.overlaps then
      let s := s.ageRows t o
      let s := match (s.site t).drains.find? fun o => o.id == id with
        | some o => (match o.comp with
          | some c => if o.started && o.next < o.rows then s.drainRead x t o c else s
          | none => s)
        | none => s
      match (s.site t).drains.find? fun o => o.id == id with
      | some o => s.drainTail t o
      | none => s
    else if o.started then s.otherCycle t o else s

/-- A write of the Drain engine's pipeline, and the write of T that follows a drain's rows. -/
def VitReq.isRowWrite (r : VitReq) : Bool :=
  match r.user with
  | .drainWrite _ => true
  | _ => false
def VitReq.isTail (r : VitReq) : Bool :=
  match r.user with
  | .drainTail _ => true
  | _ => false

/-- R127: a write request made for this tile cycle was not accepted in it: a bank refused it, or the port took a write of T instead. -/
def Site.drainRefused (x : Site) : Bool :=
  let waiting := x.reqs.filter fun r => r.isRowWrite || r.isTail
  (waiting.any fun r => 0 < r.wait) ||
    (waiting.any VitReq.isRowWrite &&
      ((match waiting with | r :: _ => r.isTail | [] => false) || x.fly.any fun f => f.req.isTail && f.done == x.cycle + 6))

/-- R127: the Drain engine's part of a tile cycle, after the arbitration: a write request that was refused holds the pipeline and is counted; a
further access of a row holds it without a count (R126); a write of T that waits its turn holds nothing. -/
def State.drainTick (s : State) (x : Site) (t : Nat) : State :=
  if (s.site t).drainRefused then s.arrCount t R.ENG_DRN_STALL 1
  else if (s.site t).reqs.any VitReq.isRowWrite then s
  else ((s.site t).drains.map (·.id)).foldl (fun s id => s.drainCycle x t id) s

/-! ### Completion (R99, R126) -/

/-- The operation has done everything. -/
def DrainOp.finished (o : DrainOp) : Bool :=
  o.next == o.rows && o.flight.isEmpty && o.writes == 0 && o.reads == 0 && (!o.instr.isDr || o.tailSent)

/-- An operation completes at a boundary: a drain's counts enter its slot and are checked, then the CSR writes since the
previous boundary take effect (R99). -/
def State.drainDone (s : State) (t : Nat) (o : DrainOp) : State :=
  let s := s.modSite t fun x =>
    { x with drains := x.drains.filter (fun p => p.id != o.id),
             drainOn := x.drainOn.map fun e => if e.id == o.id then { e with done := true } else e }
  let s := if o.instr.isDr && o.instr.qen then (s.qcount t o.instr.q o.counts).qcheck t o.instr.q else s
  s.qboundary t

/-- R126: the operations that end with this tile cycle complete, in queue order. -/
def State.drainFinish (s : State) (t : Nat) : State :=
  (s.site t).drains.foldl (fun s p =>
    match (s.site t).drains with
    | o :: _ => if o.id == p.id && o.finished && !(o.instr.aop == 6 && !o.instr.isDr && o.closed) then s.drainDone t o else s
    | [] => s) s

/-- DRAIN_COMPLETE (R126): the oldest operation of the Drain engine completes once its last write is complete. -/
def execDrainComplete (t : Nat) (s : State) : Result :=
  match (s.site t).drains with
  | o :: _ => s.when (o.finished && !(o.instr.aop == 6 && !o.instr.isDr && o.closed)) (s.drainDone t o)
  | [] => .next s

/-! ### Issue -/

/-- The oldest completion of a handle is taken (R198, R201). -/
def Site.takePosted (x : Site) (h : Nat) : Site :=
  let go := x.posted.foldl (fun (acc : Bool × List (Nat × Completion)) e =>
    if !acc.1 && e.1 == h then (true, acc.2) else (acc.1, acc.2 ++ [e])) (false, [])
  { x with posted := go.2 }

/-- The reads of an operation: a DR's bias, presented at its issue, and row-table entries or an activation table, presented at its start. -/
def EngInstr.startReads (i : EngInstr) (id : Nat) : List VitReq :=
  let reads (base o n : Nat) : List VitReq := (linePieces o n).map fun e => readReq 1 (.drainRead id base) e.1 e.2
  if i.isDr then (if i.sbias != 0 then reads 0 i.bias 128 else [])
  else match i.aop with
    | 3 => reads 0 i.sx (8 * (i.cnt + 1))
    | 6 => reads 1000 i.sx 1040
    | _ => []

/-- The completion that an operation takes. -/
def EngInstr.takes (i : EngInstr) : Bool := i.isDr || i.aop == 0 || i.aop == 5

/-- An instruction of the Drain engine begins, once issued and not refused. -/
def State.drainBegin (s : State) (t : Nat) (id : Nat) (i : EngInstr) : State :=
  let x := s.site t
  let comp := if i.takes then (x.postedTo i.handle).head? else none
  let rows := match comp with
    | some c => if i.isDr then c.rows else if i.aop == 0 then i.cnt + 1 else c.r
    | none => if i.aop == 4 || i.aop == 6 then 1 else i.cnt + 1
  let reads := i.startReads id
  let o : DrainOp :=
    { id := id, instr := i, comp := comp, rows := rows, next := 0, flight := [], scales := [], gather := [],
      counts := .zero, reads := reads.length, got := [], writes := 0, tailSent := false, closed := false, started := false }
  let s := s.modSite t fun x =>
    { (if comp.isSome then x.takePosted i.handle else x) with drains := x.drains ++ [o] }
  if i.isDr then reads.foldl (fun s r => s.present t r) s else s

/-- R126: the first operation that has not started begins in this tile cycle, if those before it let it; `ended` is the operation that has
completed in this cycle, and only a DR or an ACC.SCALE starts in the cycle in which another one of them completes. -/
def State.drainStart (s : State) (t : Nat) (ended : Option DrainOp) : State :=
  let ops := (s.site t).drains
  match ops.find? fun o => !o.started with
  | none => s
  | some o =>
    let clear := match ended with
      | some e => e.instr.overlaps && o.instr.overlaps
      | none => true
    if clear && mayStart (ops.filter (·.started)) o then
      let s := s.setDrain t { o with started := true }
      if o.instr.isDr then s else (o.instr.startReads o.id).foldl (fun s r => s.present t r) s
    else s

end Sys2Proof.Machine
end

