-- ==== Sys2Proof/Machine/Compute.lean ====
section
/-! DEFINITION. The Compute engine (R60-R66, R81, R91, R197-R200): refusals of MM and CB.LOAD, the issue of a matrix
instruction to the array, the release of its operands, and codebook loads. -/

namespace Sys2Proof.Machine

/-- Fields of MM (R197). -/
def EngInstr.mta (i : EngInstr) : Nat := i.bits 53 50
def EngInstr.mtb (i : EngInstr) : Nat := i.bits 49 46
def EngInstr.ma (i : EngInstr) : Nat := i.bits 45 43
def EngInstr.mverb (i : EngInstr) : Nat := i.bits 42 39
def EngInstr.mfold (i : EngInstr) : Nat := i.bits 38 37
def EngInstr.mg (i : EngInstr) : Nat := i.bits 36 35
def EngInstr.madd (i : EngInstr) : Bool := i.bits 34 34 == 1
def EngInstr.mhold (i : EngInstr) : Bool := i.bits 33 33 == 1

/-- The stream and stationary descriptors that dispatch captured: four of each at most. -/
def EngInstr.streams (i : EngInstr) : List (BitVec 128) := i.tv.take 4
def EngInstr.stats (i : EngInstr) : List (BitVec 128) := i.tv.drop 4

/-- R196: the region of a handle. -/
def handleBase (a : BitVec 32) : Nat := fieldOf a.toNat 9 0
def handleRows (a : BitVec 32) : Nat := fieldOf a.toNat 20 10

/-- R111: a handle names a valid region. -/
def handleOk (a : BitVec 32) : Bool :=
  let r := handleRows a
  fieldOf a.toNat 31 21 == 0 && r % 2 == 0 && 2 ≤ r && r ≤ 1024 && handleBase a + r ≤ 1024

/-- R65: the verb takes the two formats. -/
def verbFormats (v a b : Nat) : Bool :=
  match v with
  | 0 => a != 0x11 && b != 0x11
  | 6 => a == 0x11 && b == 0x11
  | _ => !([0x02, 0x03, 0x11].contains a) && !([0x02, 0x03, 0x11].contains b)

/-- R65: the verb has a paired mode. -/
def verbPaired (v : Nat) : Bool := v == 0 || v == 5 || v == 7

/-- The descriptors of the sub-problems. -/
def EngInstr.sDescs (i : EngInstr) : List Desc := ((i.streams.take (foldSubs i.mfold))).map desc
def EngInstr.bDescs (i : EngInstr) : List Desc := ((i.stats.take (foldSubs i.mfold))).map desc

/-- R66: an instruction runs in paired mode. -/
def State.mmPaired (s : State) (t : Nat) (i : EngInstr) : Bool :=
  let x := s.site t
  let ok (d : Desc) : Bool := let r := x.scaleRec d; pairedEligible d.fmt r (s.narrow t (r.codebook % 64))
  verbPaired i.mverb && (i.mfold == 0 || i.mfold == 2) && i.sDescs.all ok && i.bDescs.all ok &&
    (match i.sDescs with | d :: _ => d.layout == 2 | [] => false)

/-- The record that Compute makes of an MM at its issue (R91, R197). The tensor scales of R91 are those of sub-problem 0, where the records of
the others differ too (DESIGN CHOICE, log entry 83). -/
def State.mmRecord (s : State) (t id : Nat) (i : EngInstr) : MmRec :=
  let x := s.site t
  let sd := i.sDescs.getD 0 (desc 0)
  let bd := i.bDescs.getD 0 (desc 0)
  let sr := i.sDescs.map fun d => x.scaleRec d
  let br := i.bDescs.map fun d => x.scaleRec d
  let one (l : List ScaleRec) : BitVec 32 := match l with | r :: _ => r.tensor | [] => 0x3F800000
  { id := id, handle := i.ma, verb := (Num.verbOf i.mverb).getD .mac, fold := i.mfold, g := 4 * 2 ^ i.mg, add := i.madd,
    hold := i.mhold, paired := s.mmPaired t i, m := sd.rows, k := sd.cols, n := bd.cols, base := handleBase i.av,
    r := handleRows i.av, ts := Num.fmul (one sr) (one br), streams := i.streams.take (foldSubs i.mfold),
    stats := i.stats.take (foldSubs i.mfold), sRecs := sr, bRecs := br, issuedAt := x.arr.cycle, next := 0 }

/-- The last byte of the stream operand lies inside the vitrine. -/
def MmRec.streamInside (i : MmRec) (size : Nat) : Bool :=
  let d := desc (i.streams.getD 0 0)
  if d.layout == 2 then
    d.addr + (i.kpCount - 1) * d.stride + ceilDiv i.m i.perSlot * i.unitBytes ≤ size
  else d.inside d.width size

/-- R197, R216: why an MM is refused; sub-problems whose scale arrangements differ (R60) are refused as shapes that disagree (log entry 82). -/
def State.mmRefusal (s : State) (t : Nat) (i : EngInstr) : Option Nat :=
  let size := vitSize t
  let r := s.mmRecord t 0 i
  let sds := i.sDescs
  let bds := i.bDescs
  let fa := r.streamFmt
  let fb := r.statFmt
  let halfK := r.fold == 1 || r.fold == 3
  let halfN := r.fold == 2 || r.fold == 3
  let shape (d e : Desc) : Bool := d.rows == e.rows && d.cols == e.cols && d.fmt == e.fmt
  let chunked := r.r == 0 || 1 < r.chCount || 1 < r.nbCount
  let arranged (l : List ScaleRec) : Bool := l.all fun q => q.arrangement == (l.getD 0 q).arrangement
  let narrow (q : ScaleRec) : Bool := s.narrow t (q.codebook % 64)
  firstReason
    [(1, 65536 < r.m || 4194304 < r.k || 65536 < r.n || (halfK && foldDepth r.fold * perRow fa < r.k) ||
        (halfN && 16 < r.n) || i.mg == 3),
     (2, 8 ≤ i.mverb || Num.width fa == 0 || Num.width fb == 0 || !(verbFormats i.mverb fa fb)),
     (3, 128 < r.unitBytes),
     (4, ((sds.zip r.sRecs).any fun e => e.2.bad e.1.fmt e.1.rows (narrow e.2)) ||
         (bds.zip r.bRecs).any fun e => e.2.bad e.1.fmt e.1.cols (narrow e.2)),
     (5, !(handleOk i.av)),
     (6, (bds.any fun d => d.rows != r.k) || (sds.any fun d => !(shape d (sds.getD 0 d))) ||
         (bds.any fun d => !(shape d (bds.getD 0 d))) || !(arranged r.sRecs) || !(arranged r.bRecs)),
     (7, (i.madd || i.mhold) && chunked),
     (8, (match sds with
           | d :: _ => !(d.layout == 2 || (d.layout == 0 && !d.tr && r.fold == 0))
           | [] => true) ||
         bds.any fun d => 2 ≤ d.layout || (d.tr && (d.layout != 1 || [0x0A, 0x0B].contains d.fmt)) ||
           (d.layout == 1 && d.addr % 4096 != 0)),
     (9, !(r.streamInside size) || (bds.any fun d => !(d.inside d.width size)) ||
         ((sds.zip r.sRecs).any fun e => !(e.2.inside e.1 e.1.cols e.1.rows size)) ||
         (bds.zip r.bRecs).any fun e => !(e.2.inside e.1 e.1.rows e.1.cols size)),
     (14, i.bits 32 11 != 0 || (sds.any fun d => d.zero != 0) || bds.any fun d => d.zero != 0)]

/-- R199, R187: the array takes a further MM: it is idle, or the last pass of the instruction before has started, and no
codebook load is under way. -/
def Site.computeFree (x : Site) : Bool :=
  x.arr.mm.isNone && (x.arr.passes.all fun p => p.entered != 0) && x.bookLoads.isEmpty

/-- R198: the pending limit allows an MM on its handle. -/
def Site.pendingOk (x : Site) (i : EngInstr) : Bool := x.owedTo i.ma < 4

/-- An MM is issued to the array. -/
def State.mmBegin (s : State) (t id : Nat) (i : EngInstr) : State :=
  let r := s.mmRecord t id i
  s.modArr t fun a => ({ a with mm := some r } : Arr).schedule

/-- R187: the operands of an issued MM are released: its last stream unit, row and scale have been read. -/
def Site.mmReleased (x : Site) (id : Nat) : Bool :=
  let a := x.arr
  (match a.mm with | some i => i.id != id | none => true) &&
  ((a.passes.filter fun p => p.mm.id == id).all fun p =>
    (let mine := a.feeder.filter fun u => u.pass == p.id
     p.entered + mine.length == p.slots && (mine.all fun u => u.pieces == 0) &&
     ((List.range mine.length).all fun k => a.unitReady p (p.entered + k))) &&
    (!p.reload || (List.range 32).all fun j => j < p.wrote || a.rowReady p j))

/-! ### Codebooks (R80, R81, R200) -/

/-- Fields of CB.LOAD. -/
def EngInstr.cb (i : EngInstr) : Nat := i.bits 53 48

/-- R200, R216: why a CB.LOAD is refused. -/
def cbRefusal (t : Nat) (i : EngInstr) : Option Nat :=
  firstReason [(9, i.sx % 32 != 0 || vitSize t < i.sx + 32), (14, i.bits 42 11 != 0)]

/-- A CB.LOAD presents its read; the entry holds its number, codebook, the cycle and its data. -/
def State.cbBegin (s : State) (t id : Nat) (i : EngInstr) : State :=
  (s.modSite t fun x => { x with bookLoads := x.bookLoads ++ [(id, i.cb, x.arr.nextId, [])] }).present t
    (readReq 1 (.codebook id) i.sx 32)

/-- R81: every earlier matrix instruction has formed its last term: at s + slots + 61, in the cycle after. -/
def Site.termsFormed (x : Site) : Bool :=
  (match x.arr.mm with | some _ => false | none => true) &&
  x.arr.passes.all fun p => p.start + p.slots + 61 < x.arr.cycle && p.entered == p.slots

/-- The codebook of the oldest load is written, made canonical, and its narrow flag set; the load completes. -/
def State.cbWrite (s : State) (t : Nat) (e : Nat × Nat × Nat × List (BitVec 32)) : State :=
  let entries := e.2.2.2.flatMap fun w => [Num.canonE8M7 (w.extractLsb' 0 16), Num.canonE8M7 (w.extractLsb' 16 16)]
  let narrow := entries.all fun v => v.toNat % 16 == 0
  let cb := e.2.1
  let s := s.setTbit t (if cb < 32 then R.ENG_CB_NARROW_LO else R.ENG_CB_NARROW_HI) (cb % 32) narrow
  s.modSite t fun x =>
    { x with books := Map.setAll (fun _ => 0) x.books (16 * cb) entries,
             bookLoads := x.bookLoads.drop 1,
             computeOn := x.computeOn.map fun o => if o.id == e.1 then { o with done := true } else o }

/-- The oldest codebook load may take effect. -/
def Site.cbDue (x : Site) : Option (Nat × Nat × Nat × List (BitVec 32)) :=
  match x.bookLoads with
  | e :: _ => if e.2.2.2.length == 8 && x.termsFormed then some e else none
  | [] => none

/-- CODEBOOK_TAKES_EFFECT (R81). -/
def execCodebookTakesEffect (t : Nat) (s : State) : Result :=
  match (s.site t).cbDue with
  | some e => .next (s.cbWrite t e)
  | none => .next s

end Sys2Proof.Machine
end

