-- ==== Sys2Proof/Machine/Net.lean ====
section
/-! DEFINITION. The bulk network's packets (R268-R273): headers, kinds, division into pieces, injection with the rights check and
window translation (R271, R282, R284, R285, R428), and answers (R272, R273, R275). -/

namespace Sys2Proof.Machine

/-- R269: the header as a 256-bit number, and its 32 bytes. -/
def Hdr.bits (h : Hdr) : Nat :=
  h.arg % 2 ^ 20 + 2 ^ 20 * (h.addr % 2 ^ 48) + 2 ^ 68 * (h.mask % 2 ^ 64) + 2 ^ 132 * (h.src % 2 ^ 32) + 2 ^ 164 * (h.tag % 2 ^ 16) +
  2 ^ 180 * h.xlated.toNat + 2 ^ 181 * (h.status % 4) + 2 ^ 183 * (h.len % 2 ^ 13) + 2 ^ 196 * (h.version % 16) +
  2 ^ 200 * (h.kind % 16) + 2 ^ 204 * (h.win % 256) + 2 ^ 212 * (h.acc % 1024) + 2 ^ 222 * (h.queue % 64) +
  2 ^ 228 * (h.tile % 4096) + 2 ^ 240 * (h.dev % 65536)
def Hdr.bytes (h : Hdr) : List (BitVec 8) := leBytes 32 h.bits

/-- R269: the header that 32 bytes hold. -/
def hdrOf (l : List (BitVec 8)) : Hdr :=
  let n := leNat l
  { arg := fieldN n 19 0, addr := fieldN n 67 20, mask := fieldN n 131 68, src := fieldN n 163 132, tag := fieldN n 179 164,
    xlated := fieldN n 180 180 == 1, status := fieldN n 182 181, len := fieldN n 195 183, version := fieldN n 199 196,
    kind := fieldN n 203 200, win := fieldN n 211 204, acc := fieldN n 221 212, queue := fieldN n 227 222,
    tile := fieldN n 239 228, dev := fieldN n 255 240 }
where fieldN (n hi lo : Nat) : Nat := n / 2 ^ lo % 2 ^ (hi - lo + 1)

/-- R270: the VC of a kind. -/
def vcOf (kind : Nat) : Nat :=
  match kind with
  | 1 => 2 | 2 => 2 | 3 => 3 | 4 => 2 | 5 => 2 | 6 => 2 | 7 => 2 | 8 => 0 | 9 => 0 | 10 => 0 | _ => 1

/-- R270: answered by RDATA. -/
def readKind (kind : Nat) : Bool := kind == 7 || kind == 8 || kind == 10

/-- The parts of a source number. -/
def srcDev (n : Nat) : Nat := n / 65536 % 65536
def srcTile (n : Nat) : Nat := n / 16 % 4096
def srcUnit (n : Nat) : Nat := n % 16

/-- R273: the first of UNREACH, CLOSED, STALE and OK is the largest code. -/
def worst (a b : Nat) : Nat := max a b

/-! ### Division (R271) -/

/-- A piece: the destination tile (none: it completes with the status given), its address, mask and length, and the offsets of its
bytes in the access. -/
structure Piece where
  tile : Nat
  status : Nat
  addr : Nat
  mask : Nat
  len : Nat
  offs : List (Nat × Nat)
deriving DecidableEq, Repr

/-- The address ranges of an access cut at multiples of 4 KiB. -/
def splitUnits : Nat → Nat → Nat → List (Nat × Nat)
  | 0, _, _ => []
  | fuel + 1, a, n =>
    if n == 0 then [] else
    let k := min n (4096 - a % 4096)
    (a, k) :: splitUnits fuel (a + k) (n - k)

/-- The MI site that serves an address of DRAM. -/
def miOf (k o : Nat) : Nat := miSite k (channelOf o)

/-- The pieces of a range within one 4 KiB unit of DRAM that starts at unit address `ua`, stack offset `uo`: the part of a block at its
start and end, and the whole blocks of each MI tile. -/
def dramPieces (k ua uo a n base : Nat) : List Piece :=
  let part (x m : Nat) : Piece :=
    { tile := miOf k (uo + (x - ua)), status := 0, addr := x, mask := 0, len := m, offs := [(x - a + base, m)] }
  let endA := a + n
  let headEnd := min endA (ceil64 a)
  let wholeEnd := max headEnd (endA / 64 * 64)
  let head := if a < headEnd then [part a (headEnd - a)] else []
  let tail := if wholeEnd < endA then [part wholeEnd (endA - wholeEnd)] else []
  let blocks := ((List.range 64).map fun i => ua + 64 * i).filter fun x => headEnd ≤ x && x + 64 ≤ wholeEnd
  let sites := (blocks.map fun x => miOf k (uo + (x - ua))).eraseDups
  let whole := sites.map fun m =>
    let bs := blocks.filter fun x => miOf k (uo + (x - ua)) == m
    { tile := m, status := 0, addr := ua, mask := bs.foldl (fun q x => q + 2 ^ ((x - ua) / 64)) 0, len := 64 * bs.length,
      offs := bs.map fun x => (x - a + base, 64) : Piece }
  head ++ whole ++ tail
where ceil64 (x : Nat) : Nat := (x + 63) / 64 * 64

/-- R271: the pieces of the bytes a .. a + n - 1; an AMO is one piece. -/
def State.piecesOf (s : State) (a n : Nat) (amo : Bool) : List Piece :=
  let one (x m base : Nat) (t st : Nat) : Piece := { tile := t, status := st, addr := x, mask := 0, len := m, offs := [(base, m)] }
  (splitUnits (n / 4096 + 2) a n).flatMap fun e =>
    match s.place e.1 with
    | .dram k o =>
      if amo then [one e.1 e.2 (e.1 - a) (miOf k o) 0]
      else dramPieces k (e.1 / 4096 * 4096) (o / 4096 * 4096) e.1 e.2 (e.1 - a)
    | .window t _ => [one e.1 e.2 (e.1 - a) t 0]
    | _ => [one e.1 e.2 (e.1 - a) 0 3]

/-! ### Windows and admission (R281-R284) -/

/-- R281: a window record of the image. -/
def Image.winRec (m : Image) (w : Nat) : Nat := m.field 16 (m.secOff 0x05 + 16 * w)
def winState (r : Nat) : Nat := bitsOf r 127 126
def winAcc (r : Nat) : Nat := bitsOf r 125 116
def winW (r : Nat) : Bool := bitsOf r 115 115 == 1
def winR (r : Nat) : Bool := bitsOf r 114 114 == 1
def winOwner (r : Nat) : Nat := bitsOf r 113 106
def winSize (r : Nat) : Nat := bitsOf r 93 64 + 1
def winBase (r : Nat) : Nat := bitsOf r 47 0

/-- The record of a window in the active image; 0 while there is none. -/
def State.winRec (s : State) (w : Nat) : Nat :=
  match s.fab.active with
  | some m => m.winRec w
  | none => 0

/-- R283: a window's state and accession as the copy at a site (a TileID, or 3072 + p for the ingress of port p) holds them: those that
every copy has, with the commands that this copy has applied. -/
def State.winAt (s : State) (copy w : Nat) : Nat × Nat :=
  let base := Map.get (fun _ => (0, 0)) s.net.windows w
  s.net.winCmds.foldl (fun v c => if c.win == w && !c.left.contains copy then (c.state, c.acc) else v) base

/-- R284: a destination partition admits the source of a packet; `self` says that the source is the destination site. -/
def State.admits (s : State) (part : Option Nat) (src : Nat) (agent : Agent) (self : Bool) : Bool :=
  if self then true else
  match part, s.fab.active with
  | some p, some m =>
    if srcDev src != s.deviceId then m.peerFirst p ≤ srcDev src && srcDev src ≤ m.peerLast p
    else match agent with
      | .curator => true
      | .tap => true
      | .host => false
      | .pf1 => !s.locked p
      | .vf k => s.vfPart k == some p
      | .core t _ => match s.partOf t with
        | some q => m.partDomain q == m.partDomain p
        | none => false
      | .remote _ => false
  | _, _ => agent == .curator || (agent == .pf1 && srcDev src == s.deviceId)

/-- The agent that a violation by a packet is counted against (R429). -/
def State.offender (s : State) (src : Nat) (agent : Agent) : Agent :=
  if srcDev src != s.deviceId then .remote (srcDev src) else agent

/-! ### Remote routes (R285) -/

/-- R285: a record of the remote route table. -/
def Image.remoteRec (m : Image) (i : Nat) : Nat := m.u64 (m.secOff 0x04 + 8 * i)

/-- A port carries packets while it is UP or RETRAINING (R405, R409). -/
def State.portUp (s : State) (p : Nat) : Bool := s.fld (R.LNK_PORT_STATUS p) 31 28 == 3 || s.fld (R.LNK_PORT_STATUS p) 31 28 == 4

/-- R285: the port for a destination on another device, if a range holds it and the port is trained. -/
def State.remotePort (s : State) (dev tile win : Nat) : Option Nat :=
  match s.fab.active with
  | none => none
  | some m =>
    let rs := ((List.range 64).map m.remoteRec).filter fun r => bitsOf r 0 0 == 1 && bitsOf r 63 48 ≤ dev && dev ≤ bitsOf r 47 32
    match rs.head? with
    | none => none
    | some r =>
      let n := bitsOf r 31 30 + 1
      let i := (dev + tile + win) % n
      let p := if i == 0 then bitsOf r 14 10 else if i == 1 then bitsOf r 19 15 else if i == 2 then bitsOf r 24 20 else bitsOf r 29 25
      if s.portUp p then some p else none
/-! ### Answers to users (R273) -/

/-- The bytes of an access from its pieces by offset; a byte that no piece brought is 0. -/
def assemble (data : List (Nat × BitVec 8)) (n : Nat) : List (BitVec 8) :=
  (List.range n).map fun i => match data.find? fun e => e.1 == i with | some e => e.2 | none => 0

/-- Change the row of a transfer. -/
def State.modXfer (s : State) (t id row : Nat) (f : XferRow → XferRow) : State :=
  s.modSite t fun x => { x with xfers := x.xfers.map fun q =>
    if q.id == id then { q with work := q.work.map fun w => if w.row == row then f w else w } else q }

/-- The instruction of a transfer. -/
def State.xfer (s : State) (t id : Nat) : Option Xfer := (s.site t).xfers.find? fun q => q.id == id

/-- The site at which answers for the host are dropped (R264, R419). -/
def hostSite : Nat := (attachSites 32).1

/-- R275: an answer that cannot be delivered is dropped and counted at the site that drops it. -/
def State.answerLost (s : State) (t : Nat) : State := (s.tbump t R.NET_COMPL_LOST 1).setTbit t R.NET_STATUS 2 true

/-- A finished access is given to its user; the answer to work that a reset discarded is dropped and counted (R386). -/
def State.netDone (s : State) (u : NetUser) (status : Nat) (data : List (BitVec 8)) : State :=
  match u with
  | .core t c id =>
    if !((s.core t c).accesses.any fun a => a.id == id) then s.answerLost t else s.modCore t c fun k => { k with accesses := k.accesses.map fun a =>
      if a.id == id then { a with arrived := some (status, BitVec.ofNat 64 (leNat data)), data := if a.kind == 3 then a.data ++ data else a.data }
      else a }
  | .xfer t id row =>
    if (s.xfer t id).isNone then s.answerLost t else
    let s := match s.xfer t id with
      | some q => s.reportStatus t q.instr.core 1 q.instr.pc status
      | none => s
    s.modXfer t id row fun w => if w.stage == 1 then { w with stage := 5, got := ((List.range data.length)).zip data }
      else { w with stage := 6 }
  | .msg t id =>
    if (s.xfer t id).isNone then s.answerLost t else
    let s := match s.xfer t id with
      | some q => s.reportStatus t q.instr.core 2 q.instr.pc status
      | none => s
    s.modXfer t id 0 fun w => { w with stage := 6 }
  | .concWrite t slot =>
    if Map.get (fun _ => 0) (s.site t).concLeft slot == 0 then s.answerLost t else
    let s := if status == 0 then s else
      (s.setTbit t (R.CONC_STATE slot) 31 true).fault 0x15 (s.sourceOf t 2) (s.partOf t) (le 1 slot ++ le 1 0)
    s.modSite t fun x => { x with concLeft := Map.set (fun _ => 0) x.concLeft slot (Map.get (fun _ => 0) x.concLeft slot - 1) }
  | .concNote _ _ => s
  | .ingress _ _ => s
  | .fn f => (s.setBit (R.FN_MSG_STATUS f) 31 false).setFld (R.FN_MSG_STATUS f) 1 0 status
  | .host id => if s.hostUp then (s.hostDone id status data).getD (s.answerLost hostSite) else s.answerLost hostSite
  | .copy f c id part => if s.hostUp then (s.copyDone f c id part status data).getD (s.answerLost hostSite) else s.answerLost hostSite
  | .debug => s.debugDone status data
  | .fill t a =>
    if !((s.site t).fills.any fun f => f.1 == a) then s.answerLost t else
    s.modSite t fun x => { x with fills := x.fills.map fun f => if f.1 == a then (a, some (status, of512 data)) else f }
  | .spill t a =>
    if !(s.site t).spills.contains a then s.answerLost t else
    let s := s.modSite t fun x => { x with spills := x.spills.erase a }
    cores4.foldl (fun s c => s.modCore t c fun k => { k with accesses := k.accesses.map fun b =>
      if b.path == 6 && b.addr == a && b.arrived.isNone then { b with arrived := some (status, 0) } else b }) s
  | .fetch t c b =>
    if !((s.core t c).fetchBuf.any fun e => e.1 == b) then s.answerLost t else
    s.modCore t c fun k => { k with fetchBuf := k.fetchBuf.map fun e => if e.1 == b then (b, some (status, data)) else e }

/-! ### Packets -/

/-- A number not used before. -/
def State.fresh (s : State) : Nat := s.net.nextId

/-- The router inputs that are no links: the interface of the site, and its edge attachment (R264). -/
def ifaceIn : Nat := 4
def edgeIn : Nat := 5

/-- A packet that waits at the input `port` of a router. -/
def Packet.new (id since : Nat) (h : Hdr) (data : List (BitVec 8)) (agent : Agent) (target router port : Nat) (back : Option Nat) : Packet :=
  { id := id, hdr := h, data := data, agent := agent, target := target, router := router, stage := 0, since := since, bad := false,
    reported := false, back := back, source := router * 8 + port, entry := 0, sent := 0, got := 0 }

/-- An interface, or an edge attachment, presents a packet to its router, if the router's wing carries traffic. -/
def State.launch (s : State) (h : Hdr) (data : List (BitVec 8)) (agent : Agent) (target router port : Nat) (back : Option Nat) : State :=
  if s.wingUp (wingOf router) then
    s.modNet fun n => { n with packets := n.packets ++ [Packet.new s.fresh s.time h data agent target router port back],
                               nextId := n.nextId + 1 }
  else s

/-- The route target of an answer to a source (R262, R285); none where no route leads there. -/
def State.answerTarget (s : State) (src : Nat) : Option Nat :=
  if srcDev src == s.deviceId then
    if srcTile src == 0xBDF && 14 ≤ srcUnit src then some 3104
    else if srcTile src < 3072 then some (srcTile src) else none
  else (s.remotePort (srcDev src) (srcTile src) 0).map (3072 + ·)

/-- The length that a read request asks for. -/
def Packet.asked (p : Packet) : Nat := if p.hdr.kind == 10 then (if p.hdr.arg % 64 / 32 == 1 then 8 else 4) else p.hdr.len

/-- R273, R275: the answer to a packet, made at site t and injected at a router. -/
def State.answer (s : State) (p : Packet) (t status : Nat) (data : List (BitVec 8)) : State :=
  let read := readKind p.hdr.kind
  let body := if read then (if status == 0 then data else List.replicate p.asked 0) else []
  let h : Hdr :=
    { Hdr.blank with dev := srcDev p.hdr.src, tile := srcTile p.hdr.src, kind := if read then 11 else 12, len := body.length,
                     status := status, tag := p.hdr.tag, src := s.sourceOf t (srcUnit p.hdr.src) }
  match p.back with
  | some k => s.launch h body p.agent (3072 + k) t ifaceIn p.back
  | none => match s.answerTarget p.hdr.src with
    | some g => s.launch h body p.agent g t ifaceIn none
    | none => s.answerLost t

/-- R275: a router or interface finds that a packet cannot be delivered: a request is answered UNREACH from there, an answer is lost. -/
def State.unreach (s : State) (p : Packet) (t : Nat) : State :=
  if vcOf p.hdr.kind == 1 then s.answerLost t else (s.tbump t R.NET_UNREACH_SENT 1).answer p t 3 []

/-- A buffer, and a crossing, without the flits of some packets. -/
def InBuf.without (b : InBuf) (gone : Nat → Bool) : InBuf := { b with flits := b.flits.filter fun f => !gone f.1 }
def Seam.without (m : Seam) (gone : Nat → Bool) : Seam :=
  { m with entries := m.entries.filter fun f => !gone f.2.1, held := m.held.filter fun f => !gone f.1 }

/-- Take packets out of the network, with every flit of them and the outputs that they hold. -/
def Net.without (n : Net) (gone : Nat → Bool) : Net :=
  { n with packets := n.packets.filter fun q => !gone q.id
           bufs := (n.bufs.map fun e => (e.1, e.2.without gone)).filter fun e => !e.2.flits.isEmpty
           holds := n.holds.filter fun e => e.2.all fun h => !gone h.1
           seams := (n.seams.map fun e => (e.1, e.2.without gone)).filter fun e => e.2 != Seam.start }
def State.remove (s : State) (p : Packet) : State := s.modNet fun n => n.without (· == p.id)

/-- Fold the answer of one piece into its access; the last one completes it. -/
def State.joinPiece (s : State) (id status : Nat) (data : List (Nat × BitVec 8)) : State :=
  match s.net.joins.find? fun j => j.id == id with
  | none => s
  | some j =>
    let j := { j with left := j.left - 1, status := worst j.status status, data := j.data ++ data }
    if j.left == 0 then
      let s := s.modNet fun n => { n with joins := n.joins.filter fun k => k.id != id }
      let bytes := if j.read then assemble j.data j.len else []
      let s := match j.user with
        | .ingress p h =>
          -- an RDATA of a combined access carries zeros only for its failed pieces (R273); the answer enters where R264 says
          let site := entrySite p (srcTile h.src)
          let hd : Hdr :=
            { Hdr.blank with dev := srcDev h.src, tile := srcTile h.src, kind := if readKind h.kind then 11 else 12,
                             len := bytes.length, status := j.status, tag := h.tag, src := s.sourceOf site (srcUnit h.src) }
          match s.answerTarget h.src with
          | some g => s.launch hd bytes (.remote (srcDev h.src)) g site edgeIn none
          | none => s.answerLost site
        | u => s.netDone u j.status bytes
      match j.twin with
      | some u => s.netDone u j.status bytes
      | none => s
    else s.modNet fun n => { n with joins := n.joins.map fun k => if k.id == id then j else k }

/-! ### Injection -/

/-- Where an interface stands: the site at which its counts are kept, and the router at which its packets for a tile enter. -/
def originSite (o dst : Nat) : Nat :=
  if o < 3072 then o else if 4096 ≤ o && o < 4128 then entrySite (o - 4096) dst else entrySite 32 dst

/-- The copy of the window table at an interface. -/
def originCopy (o : Nat) : Nat := if 4096 ≤ o && o < 4128 then 3072 + (o - 4096) else if o < 3072 then o else hostSite

/-- The bytes of a piece. -/
def sliceOf (data : List (BitVec 8)) (offs : List (Nat × Nat)) : List (BitVec 8) :=
  offs.flatMap fun e => (data.drop e.1).take e.2

/-- The zeros that a dropped or failed piece contributes need no entry: an offset without data reads as 0. A piece that has no router to
enter at, its wing being isolated, is UNREACH. -/
def State.sendPiece (s : State) (r : NetReq) (join : Nat) (p : Piece) (h : Hdr) (target : Nat) : State :=
  if !s.wingUp (wingOf (originSite r.origin h.tile)) then s.joinPiece join 3 [] else
  let tag := s.net.tag
  -- the operands of an MAMO are no bytes of the access
  let data := if h.kind == 10 then r.data else sliceOf r.data p.offs
  let n := if readKind h.kind then (if h.kind == 10 then data.length else p.len) else data.length
  let h := { h with tag := tag, len := n }
  let s := s.modNet fun n => { n with tag := (tag + 1) % 65536, waits := n.waits ++ [{ src := h.src, tag := tag, join := join, offs := p.offs }] }
  let s := if r.origin < 3072 then s.traceEvent r.origin (srcUnit h.src) 1 (2 ^ 12 * h.kind + h.tile) else s
  s.launch h data r.agent target (originSite r.origin h.tile) (if r.origin < 3072 then ifaceIn else edgeIn) (if 4096 ≤ r.origin && r.origin < 4128 then some (r.origin - 4096) else none)

/-- R428: a violation found at injection. -/
def State.violate (s : State) (r : NetReq) (addr tile : Nat) : State := s.violation (s.offender r.hdr.src r.agent) addr r.hdr.kind tile

/-- One piece of a memory access, or of a window access after translation; `right` says what may be read and written (R282, R428). -/
def State.injectPiece (s : State) (r : NetReq) (join : Nat) (right : Nat → Bool → Bool) (p : Piece) : State :=
  let write := r.hdr.kind != 8 && r.hdr.kind != 7
  let site := originSite r.origin 0
  if !right p.addr write then (s.violate r p.addr p.tile).joinPiece join 0 []
  else if p.status != 0 then (s.tbump site R.NET_UNREACH_SENT 1).joinPiece join p.status []
  else s.sendPiece r join p { r.hdr with dev := s.deviceId, tile := p.tile, addr := p.addr, mask := p.mask } p.tile

/-- The outcome of translating a window access (R282): a status with nothing sent, a violation, or the physical address. -/
inductive WinXlate where
  | status (n : Nat)
  | violation
  | ok (addr : Nat)
deriving DecidableEq, Repr

/-- R282. -/
def State.translateWindow (s : State) (copy : Nat) (h : Hdr) (agent : Agent) : WinXlate :=
  let rec_ := s.winRec h.win
  let cur := s.winAt copy h.win
  if winState rec_ == 0 then .status 2
  else if !s.admits (some (winOwner rec_)) h.src agent false then .violation
  else if h.acc != cur.2 then .status 1
  else if cur.1 != 1 then .status 2
  else if winSize rec_ < h.addr + h.len || !(if h.kind == 6 then winW rec_ else winR rec_) then .violation
  else .ok (winBase rec_ + h.addr)

/-- R428: the rights of a memory access are checked where it is injected; a fill's were where the access that needs it left. -/
def NetUser.checked (u : NetUser) : Bool :=
  match u with
  | .fill _ _ => false
  | _ => true

/-- R282: a window access is performed with the rights of the window's owner. -/
def State.ownerReach (s : State) (w a : Nat) (write : Bool) : Bool :=
  dramSize ≤ a && s.place a == .nowhere || s.partMayReach (winOwner (s.winRec w)) a write

/-- R286: what a port ingress passes on as it came. -/
def State.ingressLaunch (s : State) (p : Nat) (h : Hdr) (data : List (BitVec 8)) : State :=
  let site := entrySite p h.tile
  let agent := Agent.remote (srcDev h.src)
  if vcOf h.kind == 1 then
    match s.answerTarget (65536 * h.dev + h.tile * 16 + srcUnit h.src) with
    | some g => s.launch h data agent g site edgeIn none
    | none => s.answerLost site
  else s.launch h data agent h.tile site edgeIn none

/-- The port at whose ingress a packet of no window kind waits. -/
def NetReq.passing (r : NetReq) : Option Nat :=
  match r.user with
  | .ingress p _ => if r.hdr.kind == 6 || r.hdr.kind == 7 then none else some p
  | _ => none

/-- R271: an interface injects an access: it divides it, checks rights or translates the window, chooses targets and sends the packets. -/
def State.inject (s : State) (r : NetReq) : State :=
  let s := s.modNet fun n => { n with outbox := n.outbox.erase r }
  let join := s.fresh
  let h := r.hdr
  let site := originSite r.origin 0
  let remote := h.dev != s.deviceId
  let start (s : State) (n : Nat) : State :=
    let j : Join :=
      { id := join, user := r.user, twin := r.twin, read := readKind h.kind, len := h.len, left := n, status := 0, data := [] }
    s.modNet fun m => { m with nextId := m.nextId + 1, joins := m.joins ++ [j] }
  let memory (s : State) (a : Nat) (right : Nat → Bool → Bool) (r : NetReq) : State :=
    let ps := s.piecesOf a h.len (h.kind == 10)
    ps.foldl (fun s p => s.injectPiece r join right p) (start s ps.length)
  match r.passing with
  | some p => s.ingressLaunch p h r.data
  | none =>
  if 8 ≤ h.kind && h.kind ≤ 10 then memory s h.addr (fun a w => !r.user.checked || s.mayReach r.agent a w) r
  else if remote then
    -- a window access to another device leaves in pieces within 4 KiB units of the window
    let ps := if h.kind == 6 || h.kind == 7 then (splitUnits (h.len / 4096 + 2) h.addr h.len) else [(h.addr, r.data.length)]
    ps.foldl (fun s e =>
      let p : Piece := { tile := h.tile, status := 0, addr := e.1, mask := 0, len := e.2, offs := [(e.1 - h.addr, e.2)] }
      match s.remotePort h.dev h.tile h.win with
      | some port => s.sendPiece r join p { h with addr := e.1 } (3072 + port)
      | none => (s.tbump site R.NET_UNREACH_SENT 1).joinPiece join 3 []) (start s ps.length)
  else if h.kind == 6 || h.kind == 7 then
    match s.translateWindow (originCopy r.origin) h r.agent with
    | .status 1 => ((start s 1).tbump site R.NET_DROP_STALE 1).joinPiece join 1 []
    | .status n => ((start s 1).tbump site R.NET_DROP_CLOSED 1).joinPiece join n []
    | .violation => ((start s 1).violate r h.addr site).joinPiece join 0 []
    | .ok a => memory s a (s.ownerReach h.win) { r with hdr := { h with xlated := true } }
  else
    let p : Piece := { tile := h.tile, status := 0, addr := h.addr, mask := 0, len := r.data.length, offs := [(0, r.data.length)] }
    let s := start s 1
    if h.tile < 3072 then s.sendPiece r join p h h.tile
    else (s.tbump site R.NET_UNREACH_SENT 1).joinPiece join 3 []

/-- R329: the clock of the router at which an access enters runs, unless its wing is isolated. -/
def State.entryRuns (s : State) (r : NetReq) : Bool :=
  let w := wingOf (originSite r.origin r.hdr.tile)
  s.wingRuns w || !s.wingUp w

/-- Element i of a list of four counts, and its change. -/
def at4 (l : List Nat) (i : Nat) : Nat := l.getD i 0
def mod4 (l : List Nat) (i : Nat) (f : Nat → Nat) : List Nat := (List.range 4).map fun k => if k == i then f (at4 l k) else at4 l k

/-- R403: the ingress of a port owes credit for bytes of a VC that left it. -/
def State.owe (s : State) (p vc n : Nat) : State :=
  { s with ports := Map.modify (fun _ => Port.start) s.ports p fun q => { q with owed := mod4 q.owed vc (· + n) } }

/-- R403: a packet that leaves the ingress of a port returns its credit. -/
def State.credit (s : State) (r : NetReq) : State :=
  match r.user with
  | .ingress p h => s.owe p (vcOf h.kind) (32 + r.data.length)
  | _ => s

/-- PACKET_INJECT (R271): the interface `origin` injects the access that has waited longest there. -/
def execPacketInject (origin : Nat) (s : State) : Result :=
  match s.net.outbox.find? fun r => r.origin == origin with
  | some r => s.when (r.ready && s.entryRuns r) ((s.inject r).credit r)
  | none => .next s

/-! ### What has arrived -/

/-- R268: the flits of a packet. -/
def Packet.flits (p : Packet) : Nat := (32 + p.data.length + 63) / 64

/-- The packet waits whole at the interface or edge of its destination, whose clock runs (R329). -/
def State.arrived (s : State) (p : Packet) : Bool :=
  p.stage == 1 && p.got == p.flits && (s.wingRuns (wingOf p.router) || 3072 ≤ p.target)

/-- Change a packet in place. -/
def State.setPacket (s : State) (p : Packet) : State :=
  s.modNet fun n => { n with packets := n.packets.map fun q => if q.id == p.id then p else q }

/-- COMPLETION_RECEIVE (R273): an answer reaches its source, which takes the piece into its access. An answer whose payload carries
an uncorrectable error brings the bytes as marked: the access completes UNREACH (R295). -/
def execCompletionReceive (pkt : Nat) (s : State) : Result :=
  match s.net.packets.find? fun p => p.id == pkt with
  | none => .next s
  | some p =>
    let src := 65536 * p.hdr.dev + p.hdr.tile * 16 + srcUnit p.hdr.src
    match s.net.waits.find? fun w => w.src == src && w.tag == p.hdr.tag with
    | some w =>
      let offs := w.offs.flatMap fun e => (List.range e.2).map (· + e.1)
      let status := if p.bad then 3 else p.hdr.status
      let data := if status == 0 || p.hdr.kind == 11 && !p.bad then offs.zip p.data else []
      let t := ((s.remove p).modNet fun n => { n with waits := n.waits.erase w }).joinPiece w.join status data
      s.when (s.arrived p && vcOf p.hdr.kind == 1) t
    | none => s.when (s.arrived p && vcOf p.hdr.kind == 1) ((s.remove p).answerLost p.router)

end Sys2Proof.Machine
end

