-- ==== Sys2Proof/Machine/Control.lean ====
section
/-! DEFINITION. Starting, stopping and waking cores (R153, R205), the program store (R154), and the times at which a site takes no start
and no message (R233, R320, R386, R391, R436). -/

namespace Sys2Proof.Machine

/-- R436: the partition of a site is scrubbing. -/
def State.siteScrubbing (s : State) (t : Nat) : Bool :=
  match s.partOf t with
  | some p => s.scrubbing p
  | none => false

/-- R320: a swap is in progress and the site is of a partition, of the new image or of the outgoing one, that is not carried. -/
def State.swappingSite (s : State) (t : Nat) : Bool :=
  s.bit R.FAB_STATUS 6 && match s.partOf t with
    | some p => !s.fab.carried.contains p
    | none => (s.fab.shadow.bind fun m => m.sitePart t).isSome

/-- R386, R391: the site is in a tile reset or under test. -/
def State.siteBusy (s : State) (t : Nat) : Bool := s.tbit t R.TILE_RESET 31 || s.tfld t R.TILE_IFT_STATUS 31 30 == 2

/-- A start command to the site is ignored. A site that belongs to no partition holds its sequencers stopped (R16, R17). -/
def State.noStart (s : State) (t : Nat) : Bool :=
  s.siteBusy t || s.siteScrubbing t || s.swappingSite t || (kindOf t = .s && s.l2Busy t) || (s.partOf t).isNone

/-- R153: an ignored command. -/
def State.startReject (s : State) (t : Nat) : State := s.setTbit t R.TILE_STATE 16 true

/-- R150: write an s register; s0 keeps reading 0. -/
def Core.setS (k : Core) (r : Nat) (v : BitVec 64) : Core := if r % 32 == 0 then k else { k with s := Map.set (fun _ => 0) k.s (r % 32) v }
def Core.getS (k : Core) (r : Nat) : BitVec 64 := if r % 32 == 0 then 0 else Map.get (fun _ => 0) k.s (r % 32)

/-- R431: what a halt or a step of the core had yet to do is off. -/
def State.dbgForget (s : State) (k : Nat) : State :=
  let d := s.dbg
  { s with dbg := { d with halting := d.halting.filter (· != k), awaiting := d.awaiting.filter (· != k), steps := d.steps.filter (· != k) } }

/-- R153: the core starts at TILE_ENTRY with TILE_ARG in s1. -/
def State.startCore (s : State) (t c : Nat) : State :=
  let s := s.dbgForget (t * 4 + c)
  let pc := s.tacted64 t R.TILE_ENTRY_LO
  let arg := BitVec.ofNat 64 (s.tacted64 t R.TILE_ARG_LO)
  let s := s.modCore t c fun k =>
    let k := { (k.setS 1 arg) with pc := pc, exc := none, engExc := none, wait := 0, timeout := none, atVector := false,
                                   issuable := (s.site t).cycle + 1 }
    if kindOf t = .s then ((k.setSv 0 2).setSv 1 2).setSv 11 (k.svReg 11 &&& ~~~1) else k
  (s.setTbit t R.TILE_STATE (4 * c + 3) false).setCoreState t c 1

/-- R153: a start command. -/
def State.cmdStart (s : State) (t c : Nat) : State :=
  let st := s.coreState t c
  if (st == 0 || st == 4) && !s.noStart t then s.startCore t c else s.startReject t

/-- R153: a stop command. -/
def State.cmdStop (s : State) (t c : Nat) : State :=
  let st := s.coreState t c
  if st == 1 || st == 2 then (s.setCoreState t c 3).modCore t c fun k => { k with wait := 0, timeout := none }
  else if st == 7 then s.startReject t else s

/-- R153: a wake command. -/
def State.cmdWake (s : State) (t c : Nat) : State := if s.coreState t c == 7 then s.startReject t else s.setEvent t c

/-- R153: a word written to TILE_START. -/
def State.tileStart (s : State) (t : Nat) (w : BitVec 32) : State :=
  let c := getBits w 1 0
  match getBits w 9 8 with
  | 1 => s.cmdStart t c
  | 2 => s.cmdStop t c
  | 3 => s.cmdWake t c
  | _ => s

/-- START, STOP, WAKE (R153): the command is written to TILE_START. -/
def execStart (a : Agent) (t c : Nat) (s : State) : Result := s.tileWrite a t R.TILE_START fun s t => s.cmdStart t (c % 4)
def execStop (a : Agent) (t c : Nat) (s : State) : Result := s.tileWrite a t R.TILE_START fun s t => s.cmdStop t (c % 4)
def execWake (a : Agent) (t c : Nat) (s : State) : Result := s.tileWrite a t R.TILE_START fun s t => s.cmdWake t (c % 4)

/-- R205: what a doorbell does at core 0: started, woken, or CLOSED. -/
def State.doorbell (s : State) (t v : Nat) : Option State :=
  let st := s.coreState t 0
  if st == 0 || st == 4 then
    let s := s.setTreg64 t R.TILE_ARG_LO v
    some (if s.noStart t then s.startReject t else s.startCore t 0)
  else if st == 1 || st == 2 then some (s.setEvent t 0)
  else none

/-! ### The program store (R154) -/

/-- The word at word index i of the store. -/
def State.progWord (s : State) (t i : Nat) : BitVec 32 := Map.get (fun _ => 0) (s.site t).prog i

/-- R154: a write of a word to the store. -/
def State.progWrite (s : State) (t i : Nat) (w : BitVec 32) : State :=
  if kindOf t = .s || kindOf t = .mi then s
  else if [0, 4, 5].contains (s.coreState t 0) then
    s.modSite t fun x => { x with prog := Map.set (fun _ => 0) x.prog (i % 32768) w }
  else s.setTbit t R.TILE_STATE 17 true

/-- PROGRAM_STORE_WRITE (R154): word `index` of the store window. -/
def execProgramStoreWrite (a : Agent) (t index : Nat) (w : BitVec 32) (s : State) : Result :=
  s.tileWrite a t (0x80000 + 4 * index) fun s t => s.progWrite t index w

end Sys2Proof.Machine
end

