-- ==== Sys2Proof/Machine/Validate.lean ====
section
/-! DEFINITION. Image validation (R316) in the order of its table, and the carry conditions (R319, R267). -/

namespace Sys2Proof.Machine

/-- The first failure of validation: code, section and index (R316). -/
structure ImageError where
  code : Nat
  section_ : Nat
  index : Nat
deriving DecidableEq, Repr

/-- A check that fails with an error when its condition is false. -/
def ensure (ok : Bool) (code section_ index : Nat) : Option ImageError :=
  if ok then none else some ⟨code, section_, index⟩

/-- The first failure of a list of checks. -/
def firstError : List (Option ImageError) → Option ImageError
  | [] => none
  | none :: l => firstError l
  | some e :: _ => some e

/-- All n bytes from offset o are zero. -/
def Image.zeros (m : Image) (o n : Nat) : Bool := (Map.getRange (fun _ => 0) m.bytes o n).all (· == 0)

/-! ### Format, signature and binding -/

/-- R306: the length that a section type must have; none for a list of records. -/
def sectionLengthOk (type len : Nat) : Bool :=
  match type with
  | 0x01 => len % 32 == 0 && 1 ≤ len / 32 && len / 32 ≤ 254
  | 0x02 => len == 12288
  | 0x03 => len == 4816896
  | 0x04 => len == 512
  | 0x05 => len == 4096
  | 0x06 => len == 1572864
  | 0x07 => len == 1572864
  | 0x08 => len == 102400
  | 0x09 => len == 4096
  | 0x0A => len % 16 == 0 && len / 16 ≤ 4096
  | 0x0B => len == 32
  | 0x0C => len % 4 == 0 && len / 4 ≤ 1024
  | _ => false

/-- R305, R306: header, directory and signature block. -/
def Image.formatOk (m : Image) : Bool :=
  let dir := (List.range 12).map Image.dirEntry
  m.u32 0 == 0x31424146 && m.u16 4 == 1 && m.u16 6 == 128 && m.u32 8 == m.length && m.length ≤ 8388608 &&
  m.u16 0x0C == 12 && m.sigOff + 256 == m.length && m.zeros 0x50 48 &&
  ((List.range 12).all fun k => (dir.filter fun e => m.u16 e == k + 1).length == 1) &&
  (dir.all fun e => m.zeros (e + 2) 2 && m.zeros (e + 12) 4 && m.u32 (e + 4) % 64 == 0 && 0x140 ≤ m.u32 (e + 4) &&
    m.u32 (e + 4) + m.u32 (e + 8) ≤ m.sigOff && sectionLengthOk (m.u16 e) (m.u32 (e + 8))) &&
  (dir.all fun e => dir.all fun f => e == f || m.u32 (e + 4) + m.u32 (e + 8) ≤ m.u32 (f + 4) ||
    m.u32 (f + 4) + m.u32 (f + 8) ≤ m.u32 (e + 4)) &&
  m.zeros (m.sigOff + 97) 31 && m.zeros (m.sigOff + 224) 32

/-- R314: the key's hash is the fused one and the signature verifies over bytes 0 to sig_off - 1. -/
def Image.signatureOk (m : Image) : Bool :=
  let key := Map.getRange (fun _ => 0) m.bytes m.sigOff 97
  let sig := Map.getRange (fun _ => 0) m.bytes (m.sigOff + 128) 96
  match Config.imageKeyHash with
  | none => false
  | some h => Config.sha384 key == h && Config.ecdsaVerify key sig (Config.sha384 (Map.getRange (fun _ => 0) m.bytes 0 m.sigOff))

/-- R315: the catalogue digest that the image carries, as twelve words. -/
def Image.catDigest (m : Image) : List (BitVec 32) := (List.range 12).map fun i => BitVec.ofNat 32 (m.u32 (0x18 + 4 * i))

/-- R315: the image is bound to the catalogue in force. -/
def State.bindingOk (s : State) (m : Image) : Bool := m.catDigest == s.catDigest

/-! ### Partitions and sites -/

/-- R307: one partition record. -/
def Image.partOk (m : Image) (o : Nat) : Bool :=
  m.u8 o ≤ 253 && m.u8 (o + 1) ≤ 1 && 1 ≤ m.u8 (o + 2) && m.u8 (o + 3) < 4 && m.u16 (o + 4) < 4096 && m.zeros (o + 6) 2 &&
  m.u16 (o + 8) ≤ m.u16 (o + 0xA) && 1 ≤ m.u32 (o + 0xC)

/-- R307: records are valid, unique and ascending. -/
def Image.partErrors (m : Image) : Option ImageError :=
  firstError ((List.range m.partRecs.length).map fun i =>
    ensure (m.partOk (m.partRecs.getD i 0) && (i == 0 || m.u8 (m.partRecs.getD (i - 1) 0) < m.u8 (m.partRecs.getD i 0))) 5 0x01 i)

/-- R308: the twin rule of a site of partition p. -/
def Image.twinOk (m : Image) (t p : Nat) : Bool :=
  if m.partPaired p && (kindOf t == .m || kindOf t == .v) then
    match m.twin t with
    | some w => w != t && kindOf w == kindOf t && m.sitePart w == some p && m.twin w == some t
    | none => false
  else (m.twin t).isNone

/-- R21, R308, R316: one site entry; no entry names a TileID beyond the grid. -/
def State.siteEntryOk (s : State) (m : Image) (t : Nat) : Bool :=
  let e := m.siteEntry t
  bitsOf e 31 29 == 0 && bitsOf e 15 8 == 0 && bitsOf e 27 16 < 3072 &&
  match m.sitePart t with
  | none => (m.twin t).isNone
  | some p => (m.partRec p).isSome && s.siteStatus t != 1 && s.siteStatus t != 3 && kindOf t != .mi && m.twinOk t p

/-- R316: SITES, then each partition's count of entries. -/
def State.siteErrors (s : State) (m : Image) : Option ImageError :=
  firstError ((allSites.map fun t => ensure (s.siteEntryOk m t) 6 0x02 t) ++
    (m.partitions.map fun p => ensure ((m.sitesOf p).length == m.partField 4 0x0C p) 6 0x01 p))

/-! ### Routes -/

/-- R266: a router, site or wing that a link may not lead into. -/
def State.deadEnd (s : State) (t : Nat) : Bool := s.siteStatus t == 1 || s.wingDead (wingOf t)

/-- R266: the entry must be UNREACH at every router: a dead site, an untrained port, a reserved target. -/
def State.mustBeUnreach (s : State) (target : Nat) : Bool :=
  if target < 3072 then s.siteStatus target == 1
  else if target < 3104 then !s.portTrained (target - 3072) else target != 3104

/-- R266: the conditions on a single entry. -/
def State.entryOk (s : State) (m : Image) (r target : Nat) : Bool :=
  entryFits s.deadEnd s.cat.tables.seams.contains s.mustBeUnreach m.route r target

/-- R306: an image's route tables; that of a dead site is ignored. -/
def State.liveRoute (s : State) (m : Image) (r target : Nat) : Nat := if s.siteStatus r == 1 then 6 else m.route r target

/-- R319: both images hold the partition with carry = 1. -/
def bothCarry (old new : Image) (p : Nat) : Bool :=
  (old.partRec p).isSome && (new.partRec p).isSome && old.partCarry p && new.partCarry p

/-- R267: the sites that hold a partition's regions: the MI sites of the stacks they are placed in. -/
def Image.regionSites (m : Image) (p : Nat) : List Nat :=
  ((m.regions.filter fun r => r.owner == p).flatMap fun r =>
    (List.range r.pages).flatMap fun k =>
      match placeOf (some m) (r.base + 4096 * k) with
      | some (st, _) => (List.range 4).map fun c => miSite st (8 * c)
      | none => []).eraseDups

/-- R267: the targets whose entries must be the same in both images. -/
def Image.carriedTargets (m : Image) (p : Nat) : List Nat :=
  m.sitesOf p ++ m.regionSites p ++ ((List.range 32).filter fun q => m.portPart q == some p).map (3072 + ·) ++ [3104]

/-- R267: a router's entries for the targets of the carried partitions are the same in both images; a dead site's table is ignored. -/
def State.carriedRoutesOk (s : State) (m : Image) (r : Nat) : Bool :=
  match s.fab.active with
  | none => true
  | some old => (old.partitions.filter fun p => bothCarry old m p).all fun p =>
      (old.carriedTargets p ++ m.carriedTargets p).all fun t => s.liveRoute old r t == s.liveRoute m r t

/-- R316: the three passes over ROUTES, then R267's comparison with the active image. -/
def State.routeErrors (s : State) (m : Image) : Option ImageError :=
  let liveSites := allSites.filter fun t => s.siteStatus t != 1
  let targets := allTargets.filter fun t => !s.mustBeUnreach t
  firstError ((liveSites.map fun r => ensure (allTargets.all fun t => s.entryOk m r t) 7 0x03 r) ++
    (liveSites.map fun r => ensure (targets.all fun t => routeReaches m.route t 256 r) 7 0x03 r) ++
    [match cycleRouters (s.liveRoute m) with
     | [] => none
     | r :: _ => some ⟨7, 0x03, r⟩] ++
    (liveSites.map fun r => ensure (s.carriedRoutesOk m r) 7 0x03 r))

/-! ### Remote routes, windows, queues -/

/-- R285: a remote route record. -/
def Image.remote (m : Image) (i : Nat) : Nat := m.u64 (m.secOff 0x04 + 8 * i)

/-- R285: the valid record of lowest index whose range contains a DeviceID. -/
def Image.remoteFor (m : Image) (dev : Nat) : Option Nat :=
  (List.range 64).find? fun i =>
    let r := m.remote i
    bitsOf r 0 0 == 1 && bitsOf r 63 48 ≤ dev && dev ≤ bitsOf r 47 32

/-- R285: port number i of a record. -/
def remotePort (r i : Nat) : Nat := bitsOf r (14 + 5 * i) (10 + 5 * i)

/-- R285: the ports of a record. -/
def remotePorts (r : Nat) : List Nat := (List.range (bitsOf r 31 30 + 1)).map (remotePort r)

/-- R311: for every peer of every partition, the record that carries its traffic names only ports the partition holds. -/
def Image.portRuleBreaks (m : Image) (i : Nat) : Bool :=
  m.partitions.any fun p =>
    (List.range (m.peerLast p + 1 - m.peerFirst p)).any fun k =>
      let dev := m.peerFirst p + k
      dev != m.deviceId && m.remoteFor dev == some i && (remotePorts (m.remote i)).any fun q => m.portPart q != some p

def Image.remoteErrors (m : Image) : Option ImageError :=
  firstError ((List.range 64).map fun i =>
    let r := m.remote i
    ensure (bitsOf r 9 1 == 0 && (bitsOf r 0 0 == 0 || (bitsOf r 63 48 ≤ bitsOf r 47 32 && !m.portRuleBreaks i))) 8 0x04 i)

/-- R129, R232: the bytes of a site's vitrine, or of an S-tile's window. -/
def windowBytes (k : TileKind) : Nat :=
  match k with
  | .m => 4194304
  | .v => 2097152
  | .s => 2097152
  | .mi => 0

/-- R169: the first address of the vitrine and S-tile windows, and a site's window. -/
def vitBase : Nat := 0x010000000000
def siteWindow (t : Nat) : Nat := vitBase + 4194304 * t

/-- R310: a partition's DRAM grant covers the range with the right. -/
def Image.regionCovers (m : Image) (p base size : Nat) (write : Bool) : Bool :=
  (List.range ((base + size - 1) / 4096 + 1 - base / 4096)).all fun k => m.regionRight p ((base / 4096 + k) * 4096) write

/-- R281: the range lies in regions of the partition, whatever their rights. -/
def Image.regionHolds (m : Image) (p base size : Nat) : Bool :=
  (List.range ((base + size - 1) / 4096 + 1 - base / 4096)).all fun k =>
    (m.regionsAt ((base / 4096 + k) * 4096)).any fun r => r.owner == p

/-- R281: the range lies in one vitrine or S-tile window of a tile of the partition. -/
def Image.inTileWindow (m : Image) (p base size : Nat) : Bool :=
  let t := (base - vitBase) / 4194304
  vitBase ≤ base && t < 3072 && m.sitePart t == some p && base + size ≤ siteWindow t + windowBytes (kindOf t)

/-- R281: a window record: low and high 64-bit halves. -/
def Image.winLo (m : Image) (w : Nat) : Nat := m.u64 (m.secOff 0x05 + 16 * w)
def Image.winHi (m : Image) (w : Nat) : Nat := m.u64 (m.secOff 0x05 + 16 * w + 8)
def Image.winState (m : Image) (w : Nat) : Nat := bitsOf (m.winHi w) 63 62
def Image.winAccession (m : Image) (w : Nat) : Nat := bitsOf (m.winHi w) 61 52
def Image.winW (m : Image) (w : Nat) : Bool := bitsOf (m.winHi w) 51 51 == 1
def Image.winR (m : Image) (w : Nat) : Bool := bitsOf (m.winHi w) 50 50 == 1
def Image.winOwner (m : Image) (w : Nat) : Nat := bitsOf (m.winHi w) 49 42
def Image.winSize (m : Image) (w : Nat) : Nat := bitsOf (m.winHi w) 29 0 + 1
def Image.winBase (m : Image) (w : Nat) : Nat := bitsOf (m.winLo w) 47 0

/-- R281, R316: one window record; an undefined window's record keeps its required zeros too. -/
def Image.windowOk (m : Image) (w : Nat) : Bool :=
  bitsOf (m.winHi w) 41 30 == 0 && bitsOf (m.winLo w) 63 48 == 0 &&
  (m.winState w == 0 ||
  (m.winState w != 3 && m.winSize w % 64 == 0 && m.winBase w % 64 == 0 && (m.partRec (m.winOwner w)).isSome &&
    ((m.winBase w + m.winSize w ≤ dramSize && m.regionHolds (m.winOwner w) (m.winBase w) (m.winSize w)) ||
      m.inTileWindow (m.winOwner w) (m.winBase w) (m.winSize w))))

def Image.windowErrors (m : Image) : Option ImageError :=
  firstError ((List.range 256).map fun w => ensure (m.windowOk w) 9 0x05 w)

/-- R277: a queue record. -/
def Image.queueRec (m : Image) (t q : Nat) : Nat := m.u64 (m.secOff 0x06 + 512 * t + 8 * q)
def qRecState (r : Nat) : Nat := bitsOf r 63 62
def qAccession (r : Nat) : Nat := bitsOf r 61 52
def qLines (r : Nat) : Nat := bitsOf r 51 46
def qSlots (r : Nat) : Nat := bitsOf r 45 35 + 1
def qCloseOnEnd (r : Nat) : Bool := bitsOf r 34 34 == 1
def qReader (r : Nat) : Nat := bitsOf r 33 32
def qBase (r : Nat) : Nat := bitsOf r 31 0
def qBytes (r : Nat) : Nat := qLines r * 128 * qSlots r

/-- R277, R316: one queue record of a site. -/
def Image.queueOk (m : Image) (t q : Nat) : Bool :=
  let r := m.queueRec t q
  qRecState r == 0 ||
  (qRecState r != 3 && (m.sitePart t).isSome && qReader r < (kindOf t).cores && 1 ≤ qLines r && qLines r ≤ 33 &&
    qBase r % 128 == 0 && qBase r + qBytes r ≤ windowBytes (kindOf t) &&
    (List.range q).all fun k =>
      let o := m.queueRec t k
      qRecState o == 0 || qBase r + qBytes r ≤ qBase o || qBase o + qBytes o ≤ qBase r)

def Image.queueErrors (m : Image) : Option ImageError :=
  firstError (allSites.map fun t => ensure ((List.range 64).all fun q => m.queueOk t q) 10 0x06 t)

/-! ### Concord, sync, placement, regions, ports, resources -/

/-- R312: offset of a concord record. -/
def Image.concOff (m : Image) (t n : Nat) : Nat := m.secOff 0x07 + 512 * t + 32 * n

/-- R287: the elements that a CONC_CFG value needs: 2E in arrival mode, 2CE in deterministic mode. -/
def concNeed (cfg : Nat) : Nat :=
  let e := bitsOf cfg 25 16 + 1
  let c := bitsOf cfg 15 0
  if c == 0 then 0 else if bitsOf cfg 31 31 == 1 then 2 * c * e else 2 * e

/-- R312: one concord record of an M- or V-site of a partition. -/
def Image.concOk (m : Image) (t n p : Nat) : Bool :=
  let o := m.concOff t n
  let cfg := m.u32 o
  let size := m.u16 (o + 6)
  let base := m.u16 (o + 4)
  let dest := m.u64 (o + 8)
  let notify := m.u32 (o + 0x10)
  m.u16 (o + 0x14) < 1024 && m.zeros (o + 0x16) 10 && dest < 2 ^ 48 &&
  base + size ≤ 32768 && concNeed cfg ≤ size &&
  ((List.range n).all fun k =>
    let b := m.u16 (m.concOff t k + 4)
    let z := m.u16 (m.concOff t k + 6)
    base + size ≤ b || b + z ≤ base) &&
  (m.regionRight p dest true || m.inTileWindow p dest 1) &&
  (bitsOf notify 31 30 == 0 || (bitsOf notify 29 18 < 3072 && m.sitePart (bitsOf notify 29 18) == some p))

def Image.concErrors (m : Image) : Option ImageError :=
  firstError (allSites.map fun t =>
    ensure (match m.sitePart t with
      | some p => if kindOf t == .m || kindOf t == .v then (List.range 16).all fun n => m.concOk t n p
        else m.zeros (m.concOff t 0) 512
      | none => m.zeros (m.concOff t 0) 512) 11 0x07 t)

/-- R300: fields of a sync context record. -/
def Image.ctxKind (m : Image) (c : Nat) : Nat := m.u8 (m.ctxOff c)
def Image.ctxUp (m : Image) (c : Nat) : Option Nat := let p := m.u8 (m.ctxOff c + 2); if p == 0xFF then none else some p
def Image.ctxFlagSrc (m : Image) (c : Nat) : Nat := m.u16 (m.ctxOff c + 4)
def Image.ctxDown (m : Image) (c : Nat) : Nat := m.u32 (m.ctxOff c + 8)
def Image.ctxMember (m : Image) (c t : Nat) : Bool := t < 3072 && (m.u8 (m.ctxOff c + 16 + t / 8)).testBit (t % 8)
def Image.ctxMembers (m : Image) (c : Nat) : List Nat := allSites.filter fun t => m.ctxMember c t

/-- R21, R300, R316: one context record; an unused context's record keeps the table's values too. -/
def State.ctxOk (s : State) (m : Image) (c : Nat) : Bool :=
  let k := m.ctxKind c
  let owner := m.u8 (m.ctxOff c + 1)
  (k ≤ 4 && m.zeros (m.ctxOff c + 3) 1 && m.zeros (m.ctxOff c + 6) 2 && m.zeros (m.ctxOff c + 0xC) 4 && m.ctxFlagSrc c < 3072 &&
    (owner == 0xFF || (m.partRec owner).isSome) &&
    (k == 1 || ((m.ctxUp c).isNone && m.ctxDown c == 0)) &&
    ((m.ctxMembers c).all fun t => s.siteStatus t != 1 && m.sitePart t == some owner) &&
    (k != 2 || m.ctxMember c (m.ctxFlagSrc c)) &&
    (match m.ctxUp c with
      | some p => p < 32 && m.portPart p == some owner
      | none => true) &&
    (List.range 32).all fun p => !(m.ctxDown c).testBit p || m.portPart p == some owner)

def State.ctxErrors (s : State) (m : Image) : Option ImageError :=
  firstError ((List.range 256).map fun c => ensure (s.ctxOk m c) 12 0x08 c)

/-- R242: a stack is withdrawn or its wing is dead. -/
def State.stackGone (s : State) (k : Nat) : Bool := s.usableMib k == 0 || s.wingDead (k / 2)

/-- R242, R309, R316: one tract record. -/
def State.tractOk (s : State) (m : Image) (t : Nat) : Bool :=
  let r := m.tract t
  let role := bitsOf r 31 30
  bitsOf r 19 0 == 0 && role != 3 && (role == 1 || bitsOf r 29 25 == 0) &&
  (role != 2 || ((List.range 32).all fun k => m.tract (t / 32 * 32 + k) == r) && (List.range 32).all fun k => !s.stackGone k) &&
  (role != 1 || !s.stackGone (bitsOf r 29 25)) &&
  -- one band of one stack has one role
  (role == 0 || (List.range t).all fun u =>
    let q := m.tract u
    let b := bitsOf q 31 30
    b == 0 || bitsOf q 24 20 != bitsOf r 24 20 || (b == 2 && role == 2 && u / 32 == t / 32) ||
      (b == 1 && role == 1 && bitsOf q 29 25 != bitsOf r 29 25))

def State.placementErrors (s : State) (m : Image) : Option ImageError :=
  firstError ((List.range 1024).map fun t => ensure (s.tractOk m t) 13 0x09 t)

/-- R256: the offset is withdrawn. -/
def State.withdrawn (s : State) (stack o : Nat) : Bool :=
  let d := (32768 - s.usableMib stack) / 2
  s.usableMib stack == 0 || 16384 - d ≤ rowOf o

/-- R310, R316: one region record. -/
def State.regionOk (s : State) (m : Image) (i : Nat) : Bool :=
  let o := m.secOff 0x0A + 16 * i
  let rs := m.regions
  match rs[i]? with
  | none => false
  | some r =>
    r.base % 4096 == 0 && r.base < 2 ^ 40 && 1 ≤ r.pages && r.base + 4096 * r.pages ≤ dramSize && r.rights < 4 &&
    m.zeros (o + 0xE) 2 && (r.owner == 0xFE || (m.partRec r.owner).isSome) &&
    ((List.range r.pages).all fun k =>
      match placeOf (some m) (r.base + 4096 * k) with
      | some (st, off) => !s.withdrawn st off
      | none => false) &&
    (rs.take i).all fun q =>
      m.ownerDomain q.owner == m.ownerDomain r.owner ||
      ((unitsOf (some m)).all fun u =>
        !((r.base < unitBase u + unitSize u && unitBase u < r.base + 4096 * r.pages) &&
          (q.base < unitBase u + unitSize u && unitBase u < q.base + 4096 * q.pages)))

def State.regionErrors (s : State) (m : Image) : Option ImageError :=
  firstError ((List.range m.regions.length).map fun i => ensure (s.regionOk m i) 14 0x0A i)

def Image.portErrors (m : Image) : Option ImageError :=
  firstError ((List.range 32).map fun p =>
    ensure (match m.portPart p with
      | some q => (m.partRec q).isSome
      | none => true) 15 0x0B p)

/-- R313: the indices of a kind. -/
def resourceCount (kind : Nat) : Nat :=
  match kind with
  | 1 => 8
  | 2 => 64
  | 3 => 32
  | 4 => 2
  | _ => 0

def Image.resourceErrors (m : Image) : Option ImageError :=
  firstError ((List.range (m.secLen 0x0C / 4)).map fun i =>
    let o := m.secOff 0x0C + 4 * i
    let owner := m.u8 (o + 2)
    ensure (m.u8 (o + 1) < resourceCount (m.u8 o) && m.u8 (o + 3) == 0 &&
      (owner == 0xFE || owner == 0xFF || (m.partRec owner).isSome) &&
      (List.range i).all fun k => m.u16 (m.secOff 0x0C + 4 * k) != m.u16 o) 16 0x0C i)

/-- R316: validation of a loaded image, in the order of the table; `staged` says that every staging read completed OK. -/
def State.validate (s : State) (m : Image) (staged : Bool) : Option ImageError :=
  firstError [ensure (staged && (s.reg R.FAB_SHADOW_SIZE).toNat == m.u32 8) 1 0 0xFFFF,
    ensure m.formatOk 2 0 0xFFFF, ensure m.signatureOk 3 0 0xFFFF, ensure (s.bindingOk m) 4 0 0xFFFF,
    m.partErrors, s.siteErrors m, s.routeErrors m, m.remoteErrors, m.windowErrors, m.queueErrors, m.concErrors,
    s.ctxErrors m, s.placementErrors m, s.regionErrors m, m.portErrors, m.resourceErrors]

/-! ### Carry (R319, R267) -/

/-- R319: the first section in which a carried partition differs between the two images. -/
def State.carryDiffers (s : State) (old new : Image) (p : Nat) : Option Nat :=
  let same {α : Type} [DecidableEq α] (f : Image → α) : Bool := decide (f old = f new)
  let myRegions (m : Image) : List (Nat × Nat × Nat) := (m.regions.filter fun r => r.owner == p).map fun r => (r.base, r.pages, r.rights)
  let tracts (m : Image) : List (Nat × Nat) :=
    ((m.regions.filter fun r => r.owner == p).flatMap fun r =>
      (List.range ((r.base + 4096 * r.pages - 1) / gib + 1 - r.base / gib)).map fun k => (r.base / gib + k, m.tract (r.base / gib + k)))
  let checks : List (Bool × Nat) :=
    [(same fun m => (m.partDomain p, m.partRights p, m.peerFirst p, m.peerLast p, m.partPaired p), 0x01),
     (same fun m => (m.sitesOf p).map fun t => (t, m.siteEntry t), 0x02),
     (same (fun m => allSites.map fun r => (m.carriedTargets p).map fun t => s.liveRoute m r t), 0x03),
     (same fun m => ((List.range 256).filter fun w => m.winState w != 0 && m.winOwner w == p).map fun w => (w, m.winLo w, m.winHi w), 0x05),
     (same fun m => (m.sitesOf p).map fun t => (List.range 64).map fun q => m.queueRec t q, 0x06),
     (same fun m => (m.sitesOf p).map fun t => (List.range 64).map fun k => m.u64 (m.concOff t 0 + 8 * k), 0x07),
     (same fun m => ((List.range 256).filter fun c => m.ctxOwner c == some p).map fun c => (c, (List.range 50).map fun k => m.u64 (m.ctxOff c + 8 * k)), 0x08),
     (same tracts, 0x09), (same myRegions, 0x0A),
     (same fun m => (List.range 32).map fun q => m.portPart q == some p, 0x0B)]
  (checks.find? fun c => !c.1).map (·.2)

/-- R317, R319: the first carried partition that differs, with the section; device_id must agree too. -/
def State.carryFailure (s : State) (old new : Image) : Option (Nat × Nat) :=
  let ps := old.partitions.filter fun p => bothCarry old new p
  match ps.findSome? fun p => (s.carryDiffers old new p).map fun x => (p, x) with
  | some e => some e
  | none => if !ps.isEmpty && old.deviceId != new.deviceId then some (ps.headD 0, 0) else none

/-- R319: the partition is carried from the old image to the new one. -/
def State.carried (s : State) (old : Option Image) (new : Image) (p : Nat) : Bool :=
  match old with
  | some m => bothCarry m new p && (s.carryDiffers m new p).isNone && m.deviceId == new.deviceId
  | none => false

end Sys2Proof.Machine
end

