-- ==== Sys2Proof/Machine/Receive.lean ====
section
/-! DEFINITION. What a destination does with a packet (R274): memory accesses, tokens and doorbells (R205), receive queues
(R277-R280, R293). -/

namespace Sys2Proof.Machine

/-! ### Receive queues -/

/-- R277: the queue record of a site in the active image. -/
def State.queueRec (s : State) (t q : Nat) : Nat :=
  match s.fab.active with
  | some m => m.queueRec t q
  | none => 0

/-- R280: the state and accession of a queue. -/
def State.qState (s : State) (t q : Nat) : Nat := s.tfld t (R.NET_Q_STATE q) 31 30
def State.qAcc (s : State) (t q : Nat) : Nat := s.tfld t (R.NET_Q_STATE q) 29 20

/-- The entries of a queue in ring order. -/
def Site.ring (x : Site) (q : Nat) : List QEnt := Map.get (fun _ => []) x.rings q
def State.setRing (s : State) (t q : Nat) (l : List QEnt) : State :=
  let s := s.modSite t fun x => { x with rings := Map.set (fun _ => []) x.rings q l }
  s.setTfld t (R.NET_Q_STATE q) 11 0 (l.filter fun e => e.state == 2).length

/-- A 16-bit count that saturates (R280). -/
def State.qDrop (s : State) (t q hi lo : Nat) : State :=
  s.setTfld t (R.NET_Q_DROP q) hi lo (min 0xFFFF (s.tfld t (R.NET_Q_DROP q) hi lo + 1))

/-- R278: the slot for a new entry: the one after the last, that no entry uses. -/
def State.newSlot (s : State) (t q n : Nat) : Option Nat :=
  let x := s.site t
  let used := (x.ring q).map (·.slot)
  let first := Map.get (fun _ => 0) x.ringNext q
  (((List.range n).map fun i => (first + i) % n).filter fun k => !used.contains k).head?

/-- Count an answer of a status at a site (R302). -/
def State.countStatus (s : State) (t status : Nat) : State :=
  match status with
  | 1 => s.tbump t R.NET_DROP_STALE 1
  | 2 => s.tbump t R.NET_DROP_CLOSED 1
  | _ => s

/-- The access writes an entry of queue q of site t. -/
def Serve.entryOf (v : Serve) (t q : Nat) : Bool := v.tile == t && (match v.entry with | some e => e.1 == q | none => false)

/-- R279: the ring becomes empty; an entry that is not published is lost, and its message answered CLOSED once it is written. -/
def State.emptyRing (s : State) (t q : Nat) : State :=
  let mine := s.net.serves.filter fun v => v.entryOf t q && v.left == 0
  let s := s.modNet fun n => { n with serves :=
    (n.serves.filter fun v => !(v.entryOf t q && v.left == 0)).map fun v => if v.entryOf t q then { v with lost := true } else v }
  let s := mine.foldl (fun s v => (s.countStatus t 2).answer v.pkt t 2 []) s
  (s.setRing t q []).modSite t fun x => { x with ringNext := Map.set (fun _ => 0) x.ringNext q 0 }

/-- R279: close. -/
def State.queueClose (s : State) (t q : Nat) : State := s.setTfld t (R.NET_Q_STATE q) 31 30 2

/-- R279: open: the next accession, an empty ring, and the drop counts cleared. -/
def State.queueOpen (s : State) (t q : Nat) : State :=
  let acc := (s.qAcc t q + 1) % 1024
  (((s.emptyRing t q).setTfld t (R.NET_Q_STATE q) 31 30 1).setTfld t (R.NET_Q_STATE q) 29 20 acc).setTreg t (R.NET_Q_DROP q) 0

/-- R280: a command written to NET_Q_CTL; one that does not apply is ignored and sets q_bad_cmd. -/
def State.queueCmd (s : State) (t cmd q : Nat) : State :=
  let st := s.qState t q
  if cmd == 0 && st == 2 then s.queueOpen t q
  else if cmd == 1 && st == 1 then s.queueClose t q
  else s.setTbit t R.NET_STATUS 3 true

/-- QUEUE_OPEN, QUEUE_CLOSE (R279). -/
def execQueueOpen (a : Agent) (t q : Nat) (s : State) : Result :=
  s.tileWrite a t R.NET_Q_CTL fun s t => s.queueCmd t 0 (q % 64)
def execQueueClose (a : Agent) (t q : Nat) (s : State) : Result :=
  s.tileWrite a t R.NET_Q_CTL fun s t => s.queueCmd t 1 (q % 64)

/-- R279: the queues whose reader core ended close. -/
def State.readerEnds (s : State) (t c : Nat) : State :=
  (List.range 64).foldl (fun s q =>
    let r := s.queueRec t q
    if s.qState t q == 1 && qCloseOnEnd r && qReader r == c then s.queueClose t q else s) s

/-! ### Accesses at a destination -/

/-- Answer a packet at its destination and take it out of the network. -/
def State.refuse (s : State) (p : Packet) (t status : Nat) : State := ((s.remove p).countStatus t status).answer p t status []

/-- The vitrine accesses of a packet that writes bytes from offset o, or reads n bytes. -/
def vitWrites (id o : Nat) (data : List (BitVec 8)) : List VitReq :=
  (linePieces o data.length).map fun e =>
    writeReq 3 (.bn id (e.1 - o)) (((List.range e.2).map (· + e.1)).zip ((data.drop (e.1 - o)).take e.2))
def vitReads (id o n : Nat) : List VitReq := (linePieces o n).map fun e => readReq 3 (.bn id (e.1 - o)) e.1 e.2

/-- R137: a line access lies in one segment; the accesses of a packet at a site with a vitrine. -/
def State.serveVit (s : State) (p : Packet) (tiles : List Nat) (entry : Option (Nat × Nat)) (rs : Nat → List VitReq) : State :=
  let id := s.fresh
  let v : Serve :=
    { id := id, pkt := p, tile := p.router, left := ((tiles.map fun _ => (rs id).length).foldl (· + ·) 0), status := 0, data := [],
      entry := entry, lost := false }
  let s := (s.remove p).modNet fun n => { n with nextId := n.nextId + 1, serves := n.serves ++ [v] }
  tiles.foldl (fun s t => (rs id).foldl (fun s r => s.present t r) s) s

/-- R171, R270: the operation, width and operands of an MAMO packet: its code in arg [4:0], wide in arg [5], the operand and then the
compare value in its payload. -/
def Packet.amoParts (p : Packet) : Nat × Bool × BitVec 64 × BitVec 64 :=
  (p.hdr.arg % 32, p.hdr.arg / 32 % 2 == 1, BitVec.ofNat 64 (leNat (p.data.take 8)), BitVec.ofNat 64 (leNat (p.data.drop 8)))

/-- A memory access at a site with a vitrine (R136-R146). -/
def State.vitAccess (s : State) (p : Packet) (tiles : List Nat) (o : Nat) : State :=
  match p.hdr.kind with
  | 8 => s.serveVit p [p.router] none fun id => vitReads id o p.hdr.len
  | 7 => s.serveVit p [p.router] none fun id => vitReads id o p.hdr.len
  | 10 =>
    let m := p.amoParts
    s.serveVit p tiles none fun id =>
      [{ port := 3, user := .bn id 0, write := true, cells := cellsOf o (if m.2.1 then 8 else 4), data := [], masks := [],
         amo := some m, wait := 0 }]
  | _ => s.serveVit p tiles none fun id => vitWrites id o p.data

/-- R232: a memory access at an S-tile's window: beyond the local memory it is CLOSED. -/
def State.localAccess (s : State) (p : Packet) (t o : Nat) : State :=
  if s.localBytes t < o + p.asked && readKind p.hdr.kind || s.localBytes t < o + p.data.length && !readKind p.hdr.kind then
    s.refuse p t 2
  else
    let s := s.remove p
    match p.hdr.kind with
    | 10 =>
      let m := p.amoParts
      let r := s.localAmo t o m.1 m.2.1 m.2.2.1.toNat m.2.2.2.toNat
      r.2.answer p t 0 (leBytes (if m.2.1 then 8 else 4) r.1)
    | 8 => let r := s.localRead t o p.hdr.len; r.2.answer p t 0 r.1
    | 7 => let r := s.localRead t o p.hdr.len; r.2.answer p t 0 r.1
    | _ => (s.localWrite t o p.data).answer p t 0 []

/-- The blocks that a packet to DRAM names: block address, first byte, bytes, place of its data in the packet (R271). -/
def Packet.blocks (p : Packet) : List (Nat × Nat × Nat × Nat) :=
  if p.hdr.mask == 0 then
    [(p.hdr.addr / 64 * 64, p.hdr.addr % 64, if readKind p.hdr.kind then p.asked else p.data.length, 0)]
  else
    let bs := (List.range 64).filter fun i => p.hdr.mask.testBit i
    ((List.range bs.length).zip bs).map fun e => (p.hdr.addr + 64 * e.2, 0, 64, 64 * e.1)

/-- R244, R246, R255: a packet at an MI tile becomes one access for each of its blocks. A write reports completion as it is accepted. -/
def State.dramAccess (s : State) (p : Packet) (t : Nat) : State :=
  match s.place p.hdr.addr with
  | .dram k o =>
    if s.dramClosed p.hdr.addr then s.refuse p t 2
    else
      let id := s.fresh
      let bs := p.blocks
      let v : Serve := { id := id, pkt := p, tile := t, left := bs.length, status := 0, data := [], entry := none, lost := false }
      let reads := readKind p.hdr.kind
      let req (b : Nat × Nat × Nat × Nat) (n : Nat) : MiReq :=
        { id := n, tile := t, serve := id, stack := k, off := o / 4096 * 4096 + b.1 % 4096, addr := b.1,
          kind := if p.hdr.kind == 10 then 3 else if readKind p.hdr.kind then 0 else if b.2.2.1 == 64 then 1 else 2,
          pos := b.2.2.2, from_ := b.2.1, count := b.2.2.1,
          bytes := ((List.range b.2.2.1).map (· + b.2.1)).zip ((p.data.drop b.2.2.2).take b.2.2.1),
          amo := if p.hdr.kind == 10 then some p.amoParts else none, part := (s.ownerOf p.agent).filter (· < 254),
          win := if p.hdr.kind == 6 then some p.hdr.win else none, passed := 0 }
      let s := (s.remove p).modNet fun n =>
        { n with nextId := n.nextId + 1 + bs.length, serves := if reads then n.serves ++ [v] else n.serves,
                 mi := n.mi ++ ((List.range bs.length).zip bs).map fun e => req e.2 (id + 1 + e.1) }
      if reads then s else s.answer p t 0 []
  | _ => (s.remove p).unreach p t

/-- R273, R278: the access is over once its parts are: it is answered, and a message's entry awaits its publication, or is freed where a
segment was not open or the ring was emptied. -/
def State.serveDone (s : State) (v : Serve) : State :=
  let s := s.modNet fun n => { n with serves := n.serves.filter fun w => w.id != v.id }
  let t := v.tile
  match v.entry with
  | some (q, slot) =>
    let tiles := t :: (s.twin t).toList
    if v.lost then (s.countStatus t 2).answer v.pkt t 2 []
    else if v.status != 0 then
      let s := tiles.foldl (fun s t => (s.setRing t q ((s.site t).ring q |>.filter fun e => e.serve != v.id)).qDrop t q 31 16) s
      (s.countStatus t 2).answer v.pkt t 2 []
    else
      tiles.foldl (fun s t => s.setRing t q (((s.site t).ring q).map fun e =>
        if e.serve == v.id && e.slot == slot then { e with state := 1 } else e)) s |>.modNet fun n => { n with serves := n.serves ++ [v] }
  | none =>
    let n := v.pkt.asked
    let data := if readKind v.pkt.hdr.kind then (assemble v.data n) else []
    (s.countStatus t v.status).answer v.pkt t v.status data

/-- A part of an access at a destination is done: its status and, for a read, its bytes by offset. -/
def State.servePart (s : State) (id status : Nat) (data : List (Nat × BitVec 8)) : State :=
  match s.net.serves.find? fun v => v.id == id with
  | none => s
  | some v =>
    let v := { v with left := v.left - 1, status := worst v.status status, data := v.data ++ data }
    if v.left == 0 then s.serveDone v
    else s.modNet fun n => { n with serves := n.serves.map fun w => if w.id == id then v else w }

/-! ### Messages -/

/-- R278, R293: a DESC or DATA takes a slot of its queue and its entry is written; none when the ring is full, or the L2 that
holds it is busy (R233). -/
def State.placeEntry (s : State) (p : Packet) (t : Nat) : Option State :=
  let q := p.hdr.queue
  let r := s.queueRec t q
  if kindOf t = .s && s.l2Busy t then none else
  match s.newSlot t q (qSlots r) with
  | none => none
  | some slot =>
    let tiles := t :: (s.twin t).toList
    let o := qBase r + slot * qLines r * 128
    let bytes := p.hdr.bytes ++ p.data
    let id := s.fresh
    let add (s : State) (t : Nat) : State :=
      (s.setRing t q ((s.site t).ring q ++ [{ slot := slot, serve := id, state := 0 }])).modSite t fun x =>
        { x with ringNext := Map.set (fun _ => 0) x.ringNext q ((slot + 1) % qSlots r) }
    if kindOf t = .s then
      let s := add s t
      let v : Serve := { id := id, pkt := p, tile := t, left := 1, status := 0, data := [], entry := some (q, slot), lost := false }
      let s := (s.remove p).modNet fun n => { n with nextId := n.nextId + 1, serves := n.serves ++ [v] }
      if s.localBytes t < o + bytes.length then some (s.servePart id 2 []) else some ((s.localWrite t o bytes).servePart id 0 [])
    else
      some ((tiles.foldl add s).serveVit p tiles (some (q, slot)) fun id => vitWrites id o bytes)

/-- R293: a message of the tile waits for a free entry; the interface takes no other VC 2 packet until it is placed. -/
def Net.waiting (n : Net) (t : Nat) : Option Packet := n.packets.find? fun p => p.router == t && p.stage == 2

/-- R274 steps 3 to 7 for DESC and DATA. -/
def State.receiveMessage (s : State) (p : Packet) (t : Nat) : State :=
  let q := p.hdr.queue
  let st := s.qState t q
  let r := s.queueRec t q
  if s.siteBusy t || s.siteScrubbing t || s.swappingSite t then s.refuse p t 2
  else if st == 0 then s.refuse p t 2
  else if p.hdr.acc != s.qAcc t q then (s.qDrop t q 15 0).refuse p t 1
  else if st != 1 then (s.qDrop t q 31 16).refuse p t 2
  else if qLines r * 128 < 32 + p.data.length then (s.qDrop t q 31 16).refuse p t 2
  else match s.placeEntry p t with
    | some s => s
    | none => s.setPacket { p with stage := 2, since := s.time, reported := false }

/-- R287, R312: the address form of a concord packet is checked by the slot's unit; here it joins the unit's arrivals. -/
def State.receiveConc (s : State) (p : Packet) (t : Nat) : State :=
  if s.siteBusy t || s.siteScrubbing t || s.swappingSite t then s.refuse p t 2
  else (s.remove p).both t fun s u => s.modSite u fun x => { x with concIn := x.concIn ++ [{ p with reported := u != t }] }

/-- The interface of a site can hold the kind (R274 step 1). -/
def canHold (k : TileKind) (kind : Nat) : Bool :=
  match kind with
  | 4 => k = .m || k = .v
  | 3 => k = .m || k = .v
  | 1 => k != .mi
  | 2 => k != .mi
  | _ => true

/-- R274: a memory access, or a window access whose checks passed, is performed; at an L2 that is busy it waits (R233). -/
def State.perform (s : State) (p : Packet) (t : Nat) : State :=
  if s.swappingSite t || s.siteScrubbing t then s.refuse p t 2 else
  match kindOf t with
  | .mi => match s.place p.hdr.addr with
    | .window _ _ => s.refuse p t 2
    | _ => s.dramAccess p t
  | .s => if s.l2Busy t then s else s.localAccess p t (p.hdr.addr % 2 ^ 22)
  | _ => s.vitAccess p (t :: (s.twin t).toList) (p.hdr.addr % 2 ^ 22)

/-- R205, R274: a token or doorbell at a site that can hold it. -/
def State.receiveSignal (s : State) (p : Packet) (t : Nat) : State :=
  if s.swappingSite t || s.siteScrubbing t then s.refuse p t 2
  else if p.hdr.kind == 4 then
    ((s.remove p).both t fun s t => s.addToken t (p.hdr.arg / 2 ^ 12 % 16) (p.hdr.arg / 16 % 256)).answer p t 0 []
  else
    let v := leNat p.data
    match s.doorbell t v with
    | some u =>
      let u := match s.twin t with
        | some w => (u.doorbell w v).getD u
        | none => u
      (u.remove p).answer p t 0 []
    | none => s.refuse p t 2

/-- R264, R284: the source is the site itself, and neither the host nor Curator, whose packets carry units 14 and 15 of TileID 0xBDF. -/
def State.ownSite (s : State) (src t : Nat) : Bool := srcDev src == s.deviceId && srcTile src == t && !(srcTile src == 0xBDF && 14 ≤ srcUnit src)

/-- R274: the checks in their order; while a swap is in progress a site that it does not carry answers CLOSED before any other (R320). -/
def State.receive (s : State) (p : Packet) (t : Nat) : State :=
  let k := p.hdr.kind
  let window := k == 6 || k == 7
  let winRec := s.winRec p.hdr.win
  let admitted :=
    if window then s.admits (some (winOwner winRec)) p.hdr.src p.agent false
    else s.admits (s.partOf t) p.hdr.src p.agent (s.ownSite p.hdr.src t)
  if !s.live t || p.hdr.version != 1 || p.bad || !(s.isLead t || (srcDev p.hdr.src == s.deviceId && s.twin t == some (srcTile p.hdr.src))) then
    (s.remove p).unreach p t
  else if !canHold (kindOf t) k || s.swappingSite t then s.refuse p t 2
  else if 8 ≤ k then s.perform p t
  else if !admitted && !(window && winState winRec == 0) then
    ((s.violation (s.offender p.hdr.src p.agent) p.hdr.addr k t).remove p).answer p t 0 (List.replicate p.asked 0)
  else if k == 1 || k == 2 then s.receiveMessage p t
  else if k == 3 then s.receiveConc p t
  else if window then
    let w := s.winAt t p.hdr.win
    if winState winRec == 0 then s.refuse p t 2
    else if p.hdr.acc != w.2 then s.refuse p t 1
    else if w.1 != 1 then s.refuse p t 2
    else s.perform p t
  else s.receiveSignal p t

/-- PACKET_RECEIVE (R274): a request or message that reached its destination's interface, which holds one packet of a VC at a time. -/
def execPacketReceive (pkt : Nat) (s : State) : Result :=
  match s.net.packets.find? fun p => p.id == pkt with
  | none => .next s
  | some p =>
    s.when (s.arrived p && p.target < 3072 && vcOf p.hdr.kind != 1) (s.receive p p.router)

/-- R274, R293: the checks of a message that waits, made again: it is placed, or answered where its queue no longer takes it; none while the queue
is still full. -/
def State.retry (s : State) (p : Packet) (t : Nat) : Option State :=
  let u := s.receive p t
  if u.net.packets.any fun q => q.id == p.id && q.stage == 2 then none else some u

/-- QUEUED_MESSAGE_PLACED (R293): the message that waits at the interface is placed once an entry is free; one whose queue has closed meanwhile
is answered by R274. -/
def execQueuedMessagePlaced (t : Nat) (s : State) : Result :=
  match s.net.waiting t with
  | none => .next s
  | some p => s.when (s.wingRuns (wingOf t)) ((s.retry p t).getD s)

/-- R206, R207: the arrival in a queue sets the event flag of the core that QNOTIFY named. -/
def State.arrival (s : State) (t q : Nat) : State :=
  match Map.get (fun _ => 0) (s.site t).qnotify q with
  | 0 => s
  | c + 1 => s.setEvent t c

/-- R278: the first written entry of a queue in arrival order, with every earlier entry published. -/
def Site.toPublish (x : Site) (q : Nat) : Option QEnt := match (x.ring q).find? fun e => e.state != 2 with
  | some e => if e.state == 1 then some e else none
  | none => none

/-- QUEUE_ENTRY_PUBLISH (R278): the entry is published in arrival order, and its message answered OK. -/
def execQueueEntryPublish (t q : Nat) (s : State) : Result :=
  match (s.site t).toPublish q with
  | none => .next s
  | some e =>
    let tiles := t :: (s.twin t).toList
    let s' := tiles.foldl (fun s t =>
      (s.setRing t q (((s.site t).ring q).map fun f => if f.serve == e.serve then { f with state := 2 } else f)).arrival t q) s
    let u := match s.net.serves.find? fun v => v.id == e.serve with
      | some v => (s'.modNet fun n => { n with serves := n.serves.filter fun w => w.id != v.id }).answer v.pkt t 0 []
      | none => s'
    s.when (s.wingRuns (wingOf t)) u

/-- R206: QPOP: the head entry is freed, if it is published. -/
def State.qpop (s : State) (t q : Nat) : State :=
  match (s.site t).ring q with
  | e :: rest => if e.state == 2 then s.setRing t q rest else s
  | [] => s

/-- R206: the location of the head entry. -/
def State.qhead (s : State) (t q : Nat) : BitVec 64 :=
  match (s.site t).ring q with
  | e :: _ =>
    let r := s.queueRec t q
    let o := qBase r + e.slot * qLines r * 128
    if e.state == 2 then BitVec.ofNat 64 (if kindOf t = .s then windowAddr t o else o) else BitVec.allOnes 64
  | [] => BitVec.allOnes 64

end Sys2Proof.Machine
end

