-- ==== Sys2Proof/Machine/Concord.lean ====
section
/-! DEFINITION. Concord slots (R287-R292). -/

namespace Sys2Proof.Machine

/-! ### Slots -/

def State.concC (s : State) (t n : Nat) : Nat := s.tfld t (R.CONC_CFG n) 15 0
def State.concE (s : State) (t n : Nat) : Nat := s.tfld t (R.CONC_CFG n) 25 16 + 1
def State.concForm (s : State) (t n : Nat) : Nat := s.tfld t (R.CONC_CFG n) 30 29
def State.concDet (s : State) (t n : Nat) : Bool := s.tbit t (R.CONC_CFG n) 31
def State.concAcc (s : State) (t n : Nat) : Nat := s.tfld t (R.CONC_STATE n) 27 18
def State.concState (s : State) (t n : Nat) : Nat := s.tfld t (R.CONC_STATE n) 29 28

/-- R288: the bytes of an element. -/
def concSize (form : Nat) : Nat := if form == 0 || form == 3 then 8 else 4

/-- The half of a slot that a round of an accession uses (R287). -/
def concKey (n acc : Nat) : Nat := n * 2 + acc % 2
def State.concHalf (s : State) (t n acc : Nat) : ConcHalf := Map.get (fun _ => ConcHalf.empty) (s.site t).conc (concKey n acc)
def State.setConcHalf (s : State) (t n acc : Nat) (h : ConcHalf) : State :=
  s.modSite t fun x => { x with conc := Map.set (fun _ => ConcHalf.empty) x.conc (concKey n acc) h }

/-- A pair as it is held: hi in the low word, err in the high word. -/
def pairOf (v : BitVec 64) : Num.Pair := { hi := v.extractLsb' 0 32, err := v.extractLsb' 32 32 }
def ofPair (p : Num.Pair) : BitVec 64 := p.err ++ p.hi

/-- R289: one contribution x to an element v. -/
def concAdd (form : Nat) (v x : BitVec 64) : BitVec 64 :=
  match form with
  | 0 =>
    let p := (pairOf v).add (pairOf x).hi
    ofPair { p with err := Num.fadd p.err (pairOf x).err }
  | 1 => ofPair ((pairOf v).add (x.extractLsb' 0 32))
  | 2 => (0 : BitVec 32) ++ (v.extractLsb' 0 32 + x.extractLsb' 0 32)
  | _ => v + x

/-- The value of an element in a sparse list; unlisted elements are the identity. -/
def concVal (l : List (Nat × BitVec 64)) (i : Nat) : BitVec 64 := Map.get (fun _ => 0) l i

/-- The elements of a payload. -/
def concElems (form : Nat) (data : List (BitVec 8)) : List (BitVec 64) :=
  (List.range (data.length / concSize form)).map fun i =>
    BitVec.ofNat 64 (leNat ((data.drop (i * concSize form)).take (concSize form)))

/-- R289: arrival mode: each contribution is added when it is taken. -/
def ConcHalf.arrive (h : ConcHalf) (form f : Nat) (es : List (BitVec 64)) : ConcHalf :=
  { h with taken := h.taken + es.length,
           vals := ((List.range es.length).zip es).foldl (fun l e =>
             Map.set (fun _ => 0) l (f + e.1) (concAdd form (concVal l (f + e.1)) e.2)) h.vals }

/-- R290: deterministic mode: the contribution goes to its source's buffer; none when a further source finds no buffer. An element
that a source sends twice is held as the later one. -/
def ConcHalf.buffer (h : ConcHalf) (c src f : Nat) (es : List (BitVec 64)) : Option ConcHalf :=
  let put (b : ConcBuf) : ConcBuf :=
    { b with taken := b.taken + es.length,
             vals := ((List.range es.length).zip es).foldl (fun l e => Map.set (fun _ => 0) l (f + e.1) e.2) b.vals }
  if h.bufs.any (fun b => b.src == src) then
    some { h with taken := h.taken + es.length, bufs := h.bufs.map fun b => if b.src == src then put b else b }
  else if h.bufs.length < c then
    some { h with taken := h.taken + es.length, bufs := h.bufs ++ [put { src := src, taken := 0, vals := [] }] }
  else none

/-- R288-R290: a concord message is taken: its status, and the state with its contribution. -/
def State.concTake (s : State) (p : Packet) (t : Nat) : Nat × State :=
  let n := p.hdr.queue % 16
  let form := s.concForm t n
  let e := s.concE t n
  let c := s.concC t n
  let f := p.hdr.arg / 1024 % 1024
  let acc := s.concAcc t n
  let size := concSize form
  if s.treg t (R.CONC_ALLOC n) == 0 || 16 ≤ p.hdr.queue then (2, s)
  else if p.hdr.acc != acc && p.hdr.acc != (acc + 1) % 1024 then (1, s)
  else if c == 0 || p.data.length % size != 0 || e < f + p.data.length / size then (2, s)
  else
    let h := s.concHalf t n p.hdr.acc
    let es := concElems form p.data
    if s.concDet t n then
      match h.buffer c p.hdr.src f es with
      | some h => (0, s.setConcHalf t n p.hdr.acc h)
      | none => (2, s.setTbit t (R.CONC_STATE n) 31 true)
    else (0, s.setConcHalf t n p.hdr.acc (h.arrive form f es))

/-- CONC_CONTRIBUTION (R288): the unit takes the message that arrived first, and answers it. A message mirrored from the lead of a
pair is not answered again. -/
def execConcContribution (t : Nat) (s : State) : Result :=
  match (s.site t).concIn with
  | [] => .next s
  | p :: rest =>
    let r := (s.modSite t fun x => { x with concIn := rest }).concTake p t
    s.when (s.wingRuns (wingOf t)) (if p.reported then r.2 else (r.2.countStatus t r.1).answer p t r.1 [])

/-- R289, R290: the round is complete once it has taken as many element-contributions; one that carries the count past completes it too. -/
def State.concComplete (s : State) (t n : Nat) : Bool :=
  let h := s.concHalf t n (s.concAcc t n)
  let c := s.concC t n
  let e := s.concE t n
  c != 0 && (if s.concDet t n then h.bufs.length == c && h.bufs.all (fun b => e ≤ b.taken) else c * e ≤ h.taken)

/-- Insert a buffer in ascending source number. -/
def insertBuf (b : ConcBuf) : List ConcBuf → List ConcBuf
  | [] => [b]
  | a :: l => if b.src < a.src then b :: a :: l else a :: insertBuf b l

/-- R289, R290: element i of a complete round. -/
def State.concElem (s : State) (t n i : Nat) : BitVec 64 :=
  let h := s.concHalf t n (s.concAcc t n)
  if s.concDet t n then
    (h.bufs.foldl (fun l b => insertBuf b l) []).foldl (fun v b => concAdd (s.concForm t n) v (concVal b.vals i)) 0
  else concVal h.vals i

/-- R291: the bytes of an element as delivered. -/
def concOut (form : Nat) (pairs : Bool) (v : BitVec 64) : List (BitVec 8) :=
  match form with
  | 2 => leBytes 4 v.toNat
  | 3 => leBytes 8 v.toNat
  | _ => if pairs then leBytes 8 v.toNat else leBytes 4 (Num.fadd (pairOf v).hi (pairOf v).err).toNat

/-- CONC_DELIVERY (R291): the results of the complete round are written to CONC_DEST in ascending element order. `uncorr` are the elements
whose storage has an uncorrectable error: they are delivered as all ones, recorded, and fail the partition under R439. -/
def execConcDelivery (t n : Nat) (uncorr : List Nat) (s : State) : Result :=
  let n := n % 16
  let e := s.concE t n
  let form := s.concForm t n
  let pairs := s.tbit t (R.CONC_CFG n) 28
  let bytes := (List.range e).flatMap fun i =>
    let b := concOut form pairs (s.concElem t n i)
    if uncorr.contains i then b.map fun _ => 0xFF else b
  let dest := s.tacted64 t (R.CONC_DEST_LO n)
  let bad := uncorr.any fun i => i < e
  let u := if bad then s.uncorrectable (s.sourceOf t 2) (s.partOf t) 0x15 (le 1 n ++ le 1 1) else s
  let u := (u.setTfld t (R.CONC_STATE n) 29 28 2).modSite t fun x => { x with concLeft := Map.set (fun _ => 0) x.concLeft n 1 }
  let h : Hdr := { Hdr.blank with dev := s.deviceId, kind := 9, len := bytes.length, src := s.sourceOf t 2, addr := dest }
  s.when (s.wingRuns (wingOf t) && s.concState t n == 1 && s.concComplete t n) (u.post t (.core t 2) h bytes (.concWrite t n))

/-- CONC_NOTIFY (R291): every delivery write is answered: the notification is sent and the next round becomes current. -/
def execConcNotify (t n : Nat) (s : State) : Result :=
  let n := n % 16
  let acc := s.concAcc t n
  let r := s.treg t (R.CONC_NOTIFY n)
  let tile := getBits r 29 18
  let base : Hdr := { Hdr.blank with dev := s.deviceId, tile := tile, src := s.sourceOf t 2 }
  let u := match getBits r 31 30 with
    | 1 => s.post t (.core t 2) { base with kind := 4, arg := 2 ^ 12 * getBits r 17 14 + 16 } [] (.concNote t n)
    | 2 => s.post t (.core t 2) { base with kind := 5, len := 8 } (leBytes 8 (n + 16 * acc)) (.concNote t n)
    | _ => s
  let u := ((u.setConcHalf t n acc .empty).setTfld t (R.CONC_STATE n) 29 28 1).setTfld t (R.CONC_STATE n) 27 18 ((acc + 1) % 1024)
  s.when (s.wingRuns (wingOf t) && s.concState t n == 2 && Map.get (fun _ => 0) (s.site t).concLeft n == 0) u

/-- R292: a write to CONC_CFG_n: it acts while neither round holds a contribution and the storage fits. -/
def State.concCfg (s : State) (t n : Nat) (w : BitVec 32) : State :=
  let e := getBits w 25 16 + 1
  let c := getBits w 15 0
  let need := if w.getLsbD 31 then 2 * c * e else 2 * e
  let acc := s.concAcc t n
  let busy := (s.concHalf t n acc).taken != 0 || (s.concHalf t n (acc + 1)).taken != 0 || s.concState t n == 2
  if busy || getBits (s.treg t (R.CONC_ALLOC n)) 31 16 < need then s.setTbit t (R.CONC_STATE n) 30 true
  else (s.tregWrite t (R.CONC_CFG n) w).setTfld t (R.CONC_STATE n) 29 28 (if c == 0 then 0 else 1)

/-- CONC_CFG_WRITE (R292). -/
def execConcCfgWrite (a : Agent) (t n : Nat) (w : BitVec 32) (s : State) : Result :=
  s.tileWrite a t (R.CONC_CFG (n % 16)) fun s t => s.concCfg t (n % 16) w

/-- R292: a tile or partition reset clears both rounds and keeps the shape and the accession. -/
def State.concReset (s : State) (t : Nat) : State :=
  let s := s.modSite t fun x => { x with conc := [], concIn := [], concLeft := [] }
  (List.range 16).foldl (fun s n => s.setTfld t (R.CONC_STATE n) 29 28 (if s.concC t n == 0 then 0 else 1)) s

end Sys2Proof.Machine
end

