-- ==== Sys2Proof/Machine/Flags.lean ====
section
/-! DEFINITION. Predicates: the conditions that set them and how a result combines with what a predicate held (R164). The hardware has no
other condition flags: a predicate register is the only place where a comparison leaves its result. -/

namespace Sys2Proof.Machine

/-- R164: the condition. -/
def compares (cond : Nat) (a b : BitVec 64) : Bool :=
  match cond with
  | 0 => a == b
  | 1 => a != b
  | 2 => a.toInt < b.toInt
  | 3 => b.toInt ≤ a.toInt
  | 4 => a.toNat < b.toNat
  | 5 => b.toNat ≤ a.toNat
  | 6 => a &&& b != 0
  | _ => a &&& b == 0

/-- R164: how the result combines with pd. -/
def combine (comb : Nat) (p r : Bool) : Bool :=
  match comb with
  | 0 => r
  | 1 => p && r
  | _ => p || r

end Sys2Proof.Machine
end

