-- ==== Sys2Proof/Machine/Sync.lean ====
section
/-! DEFINITION. Window commands (R283) and the sync network (R298-R301). -/

namespace Sys2Proof.Machine

/-! ### Window commands -/

/-- The copies of the window table: every live site and the ingress of every port. -/
def State.winCopies (s : State) : List Nat := (allSites.filter fun t => s.live t && s.wingUp (wingOf t)) ++ (List.range 32).map (3072 + ·)

/-- The state and accession of a window once every accepted command has been applied. -/
def State.winLast (s : State) (w : Nat) : Nat × Nat :=
  s.net.winCmds.foldl (fun v c => if c.win == w then (c.state, c.acc) else v) (Map.get (fun _ => (0, 0)) s.net.windows w)

/-- R283: a command written to NET_WIN_CMD of a tile. -/
def State.winCmd (s : State) (t cmd w : Nat) : State :=
  let r := s.winRec w
  let cur := s.winLast w
  let ok := !s.tbit t R.NET_WIN_STATUS 31 && winState r != 0 && s.partOf t == some (winOwner r) &&
    ((cmd == 0 && cur.1 == 2) || (cmd == 1 && cur.1 == 1))
  if !ok then s.setTbit t R.NET_WIN_STATUS 30 true
  else
    let c : WinCmd :=
      { id := s.fresh, tile := t, win := w, state := if cmd == 0 then 1 else 2, acc := if cmd == 0 then (cur.2 + 1) % 1024 else cur.2,
        left := s.winCopies }
    (s.setTbit t R.NET_WIN_STATUS 31 true).modNet fun n => { n with nextId := n.nextId + 1, winCmds := n.winCmds ++ [c] }

/-- R283, R440: a command written to NET_WIN_CMD; a command of a pair is given, as the lead's, once both twins have written it. -/
def State.winWrite (s : State) (t cmd w : Nat) : State :=
  match s.twin t with
  | none => s.winCmd t cmd w
  | some u =>
    if s.net.snHeld.contains (u, 256 + w, cmd) then
      (s.modNet fun n => { n with snHeld := n.snHeld.erase (u, 256 + w, cmd) }).winCmd (min t u) cmd w
    else s.modNet fun n => { n with snHeld := n.snHeld ++ [(t, 256 + w, cmd)] }

/-- WINDOW_OPEN, WINDOW_CLOSE (R283). -/
def execWindowOpen (a : Agent) (t w : Nat) (s : State) : Result := s.tileWrite a t R.NET_WIN_CMD fun s t => s.winWrite t 0 (w % 256)
def execWindowClose (a : Agent) (t w : Nat) (s : State) : Result := s.tileWrite a t R.NET_WIN_CMD fun s t => s.winWrite t 1 (w % 256)

/-- WINDOW_COMMAND_APPLY (R283): the copy at a site (a TileID, or 3072 + p for a port) applies a command on receipt; the commands of one
window in their order. -/
def execWindowCommandApply (copy cmd : Nat) (s : State) : Result :=
  match s.net.winCmds.find? fun c => c.id == cmd with
  | none => .next s
  | some c =>
    let earlier := (s.net.winCmds.takeWhile fun d => d.id != cmd).any fun d => d.win == c.win && d.left.contains copy
    s.when (!earlier) (s.modNet fun n => { n with winCmds := n.winCmds.map fun d =>
      if d.id == cmd then { d with left := d.left.filter (· != copy) } else d })

/-- R283: a write through a window that a destination accepted may still change the window's memory. -/
def Net.windowWrites (n : Net) (w : Nat) : Bool :=
  (n.serves.any fun v => v.pkt.hdr.kind == 6 && v.pkt.hdr.win == w) || n.mi.any fun r => r.win == some w

/-- WINDOW_BUSY_CLEAR (R283): every copy has applied the command of the tile, and after a close no write can change the memory any more. -/
def execWindowBusyClear (t : Nat) (s : State) : Result :=
  match s.net.winCmds.find? fun c => c.tile == t with
  | none => .next s
  | some c =>
    let earlier := (s.net.winCmds.takeWhile fun d => d.id != c.id).any fun d => d.win == c.win
    let applied := c.left.all fun k => k < 3072 && !s.live k
    s.when (applied && !earlier && !(c.state == 2 && s.net.windowWrites c.win)) ((s.setTbit t R.NET_WIN_STATUS 31 false).modNet fun n =>
      { n with winCmds := n.winCmds.filter (fun d => d.id != c.id),
               windows := Map.set (fun _ => (0, 0)) n.windows c.win (c.state, c.acc) })

/-! ### The sync network -/

/-- R300: the down ports of a context record. -/
def Image.ctxDowns (m : Image) (c : Nat) : List Nat := (List.range 32).filter fun p => (m.u32 (m.ctxOff c + 8)).testBit p

def State.snCtx (s : State) (c : Nat) : SnCtx := Map.get (fun _ => SnCtx.start) s.net.sn c
def State.setSn (s : State) (c : Nat) (x : SnCtx) : State := s.modNet fun n => { n with sn := Map.set (fun _ => SnCtx.start) n.sn c x }

/-- A change starts for every member (R298). -/
def State.sendWaves (s : State) (m : Image) (c : Nat) (release value : Bool) : State :=
  let ws := (m.ctxMembers c).map fun t => ({ ctx := c, tile := t, release := release, value := value, since := s.time } : SnWave)
  s.modNet fun n => { n with waves := n.waves ++ ws }

/-- R301: an ignored operation. -/
def State.snReject (s : State) (t : Nat) : State := s.setTbit t R.NET_STATUS 4 true

/-- R298: a new value of a FLAG, ANY or ALL context, sent to its members when it differs. -/
def State.snValue (s : State) (m : Image) (c : Nat) (x : SnCtx) (v : Bool) : State :=
  if v == x.value then s.setSn c x else (s.setSn c { x with value := v }).sendWaves m c false v

/-- R301: a member sets or clears its input. -/
def State.snInput (s : State) (m : Image) (c t : Nat) (on : Bool) : State :=
  let x := s.snCtx c
  match m.ctxKind c with
  | 2 => if m.ctxFlagSrc c == t then s.snValue m c x on else s.snReject t
  | 3 =>
    let ins := if on then t :: x.inputs.filter (· != t) else x.inputs.filter (· != t)
    (s.setTbit t (R.NET_SYNC_CTX c) 26 on).snValue m c { x with inputs := ins } (!ins.isEmpty)
  | 4 =>
    let ins := if on then t :: x.inputs.filter (· != t) else x.inputs.filter (· != t)
    (s.setTbit t (R.NET_SYNC_CTX c) 26 on).snValue m c { x with inputs := ins } ((m.ctxMembers c).all ins.contains)
  | _ => s.snReject t

/-- R301: the operation of a member. -/
def State.snOp (s : State) (t c op : Nat) : State :=
  match s.fab.active with
  | none => s.snReject t
  | some m =>
    if !m.ctxMember c t || m.ctxKind c == 0 then s.snReject t
    else match op with
    | 0 =>
      if m.ctxKind c != 1 || s.tbit t (R.NET_SYNC_CTX c) 27 then s.snReject t
      else
        let x := s.snCtx c
        (s.setTbit t (R.NET_SYNC_CTX c) 27 true).setSn c { x with arrived := x.arrived ++ [(t, s.time)] }
    | 1 => s.snInput m c t true
    | 2 => s.snInput m c t false
    | _ => s

/-- R301, R440: an operation written to NET_SYNC_CTX_c; an operation of a pair is performed, as the lead's, once both twins have made it. -/
def State.snWrite (s : State) (t c op : Nat) : State :=
  match s.twin t with
  | none => s.snOp t c op
  | some u =>
    if s.net.snHeld.contains (u, c, op) then
      (s.modNet fun n => { n with snHeld := n.snHeld.erase (u, c, op) }).snOp (min t u) c op
    else s.modNet fun n => { n with snHeld := n.snHeld ++ [(t, c, op)] }

/-- SN_ARRIVE (R298), SN_SET, SN_CLEAR, SN_NO_OPERATION (R301). -/
def execSnArrive (a : Agent) (t c : Nat) (s : State) : Result := s.tileWrite a t (R.NET_SYNC_CTX (c % 256)) fun s t => s.snWrite t (c % 256) 0
def execSnSet (a : Agent) (t c : Nat) (s : State) : Result := s.tileWrite a t (R.NET_SYNC_CTX (c % 256)) fun s t => s.snWrite t (c % 256) 1
def execSnClear (a : Agent) (t c : Nat) (s : State) : Result := s.tileWrite a t (R.NET_SYNC_CTX (c % 256)) fun s t => s.snWrite t (c % 256) 2
def execSnNoOperation (a : Agent) (t c : Nat) (s : State) : Result :=
  s.tileWrite a t (R.NET_SYNC_CTX (c % 256)) fun s t => s.snWrite t (c % 256) 3

/-- SN_WAVEFRONT_ARRIVAL (R298): a change reaches a member, not before 40 ns after it was made. -/
def execSnWavefrontArrival (c t : Nat) (s : State) : Result :=
  match s.net.waves.find? fun w => w.ctx == c && w.tile == t with
  | none => .next s
  | some w =>
    let u := s.modNet fun n => { n with waves := n.waves.erase w }
    let u := if w.release then
        (u.setTbit t (R.NET_SYNC_CTX c) 27 false).setTfld t (R.NET_SYNC_CTX c) 23 16 (u.tfld t (R.NET_SYNC_CTX c) 23 16 + 1)
      else u.setTbit t (R.NET_SYNC_CTX c) 25 w.value
    s.when (w.since + 40 ≤ s.time) u

/-- A CTRL frame waits on a port (R408). -/
def State.sendCtrl (s : State) (port : Nat) (f : CtrlFrame) : State := { s with ctrlOut := s.ctrlOut ++ [(port, f)] }

/-- R294: the wait of a site's sync arrival is over; another is another episode. -/
def State.endStall (s : State) (t c : Nat) : State := s.modSite t fun x => { x with stalls := x.stalls.filter (· != (6, c)) }

/-- R298, R299: the round is released: to every member, and down every down port. -/
def State.release (s : State) (m : Image) (c : Nat) : State :=
  let x := s.snCtx c
  let s := (m.ctxDowns c).foldl (fun s p => s.sendCtrl p (.barRelease c x.round)) s
  let s := (x.arrived.map (·.1)).foldl (fun s t => s.endStall t c) s
  (s.setSn c { x with arrived := [], downs := [], sentUp := false, round := (x.round + 1) % 256 }).sendWaves m c true false

/-- R299: every member and every down port has arrived. -/
def State.allArrived (s : State) (m : Image) (c : Nat) : Bool :=
  let x := s.snCtx c
  (m.ctxMembers c).all (x.arrived.map (·.1)).contains && (m.ctxDowns c).all x.downs.contains

/-- BARRIER_RELEASE (R299): the device's part of the round is complete: it is released, or an arrival is sent up. -/
def execBarrierRelease (c : Nat) (s : State) : Result :=
  match s.fab.active with
  | none => .next s
  | some m =>
    let x := s.snCtx c
    let u := match m.ctxUp c with
      | none => s.release m c
      | some p => if x.sentUp then s else (s.sendCtrl p (.barArrive c x.round)).setSn c { x with sentUp := true }
    s.when (m.ctxKind c == 1 && s.allArrived m c) u

/-- R299: an arrival frame on a down port. -/
def State.barArrive (s : State) (port c round : Nat) : State :=
  match s.fab.active with
  | none => s
  | some m =>
    let x := s.snCtx c
    if m.ctxKind c == 1 && (m.ctxDowns c).contains port && round == x.round && !x.downs.contains port then
      s.setSn c { x with downs := x.downs ++ [port] }
    else s

/-- R299: a release frame from the up port. -/
def State.barRelease (s : State) (port c round : Nat) : State :=
  match s.fab.active with
  | none => s
  | some m =>
    let x := s.snCtx c
    if m.ctxKind c == 1 && m.ctxUp c == some port && x.sentUp && round == x.round then s.release m c else s

/-- BAR_ARRIVE, BAR_RELEASE (R299). -/
def execBarArrive (port c round : Nat) (s : State) : Result := .next (s.barArrive port c round)
def execBarRelease (port c round : Nat) (s : State) : Result := .next (s.barRelease port c round)

/-- R300: a partition reset sets a context to round 0, with nothing pending. -/
def State.snReset (s : State) (c : Nat) : State :=
  let s := s.modNet fun n => { n with sn := Map.erase c n.sn, waves := n.waves.filter (fun w => w.ctx != c),
                                      snHeld := n.snHeld.filter fun h => h.2.1 != c }
  match s.fab.active with
  | none => s
  | some m => (m.ctxMembers c).foldl (fun s t => (s.setTreg t (R.NET_SYNC_CTX c) 0).endStall t c) s

end Sys2Proof.Machine
end

