-- ==== Sys2Proof/Machine/Dram.lean ====
section
/-! DEFINITION. The MI tiles at work (R246-R257): block accesses, corrected rewrites, rebuild, row retirement, patrol and zeroing scrubs,
refresh and stack temperature. What becomes of a block's cells between two looks at them comes with the command. -/

namespace Sys2Proof.Machine

/-- Change the stacks. -/
def State.modDram (s : State) (f : Dram → Dram) : State := { s with dram := f s.dram }

/-- The stack offset of block n of a channel, in ascending order. -/
def channelBlock (channel n : Nat) : Nat :=
  let bank := n / 32 % 32
  2 ^ 21 * (n / 1024) + 2 ^ 16 * bank + 2 ^ 11 * (n % 32) + (channel ^^^ bank) * 64

/-- The address that the placement in force gives a stack offset. -/
def State.addressAt (s : State) (stack off : Nat) : Option Nat :=
  let band := off / gib
  let find (t : Nat) : Option Nat :=
    let r := tractRole s.fab.active t
    if r.1 == 1 && r.2.1 == stack && r.2.2 == band then some (gib * t + off % gib)
    else if r.1 == 2 && t % 32 == 0 && r.2.2 == band then
      some (gib * t + 4096 * (off % gib / 4096 * 32 + stack) + off % 4096) else none
  (List.range 1024).findSome? find

/-- R257: the row of an access is under copy. -/
def State.rowCopying (s : State) (stack off : Nat) : Bool :=
  s.dram.copies.any fun c => rowKey c.stack c.channel c.bank c.row == rowKeyOf stack off

/-- R246: the access may be served now: no earlier one to its block waits, its row is not under copy, and no earlier one of its channel
has been passed 64 times. -/
def State.miReady (s : State) (r : MiReq) : Bool :=
  let before := s.net.mi.takeWhile fun q => q.id != r.id
  !(before.any fun q => q.stack == r.stack && (q.off / 64 == r.off / 64 ||
    (channelOf q.off == channelOf r.off && 64 ≤ q.passed))) && !s.rowCopying r.stack r.off

/-- Take an access off the list; the earlier ones of its channel have been passed. -/
def State.miTake (s : State) (r : MiReq) : State :=
  let before := s.net.mi.takeWhile fun q => q.id != r.id
  let after := (s.net.mi.dropWhile fun q => q.id != r.id).drop 1
  s.modNet fun n => { n with mi := (before.map fun q =>
    if q.stack == r.stack && channelOf q.off == channelOf r.off then { q with passed := q.passed + 1 } else q) ++ after }

/-- The bytes of a read access at their offsets in the packet. -/
def MiReq.readBytes (r : MiReq) (v : BitVec 512) : List (Nat × BitVec 8) :=
  (List.range r.count).map fun i => (r.pos + i, byte512 v (r.from_ + i))

/-- R244, R255: the status of an access as it is served: its stack or offset may have been withdrawn, and a zeroing scrub may have begun, since it
was accepted. -/
def State.miStatus (s : State) (r : MiReq) : Nat :=
  if !s.stackOk r.stack r.off then 3 else if s.dramClosed r.addr then 2 else 0

/-- DRAM_READ (R250): `flips` are the cells of the block that have changed since it was last looked at. -/
def execDramRead (req : Nat) (flips : List (Nat × BitVec 8)) (die : Option Nat) (s : State) : Result :=
  match s.net.mi.find? fun r => r.id == req with
  | none => .next s
  | some r =>
    let s1 := s.disturb r.stack r.off flips
    let d := s1.decodeBlock r.stack r.off r.addr
    let u := ((s1.accountRead r.stack r.off r.addr d r.part die).miTake r).servePart r.serve 0 (r.readBytes (s1.delivered r.addr d))
    s.when (r.kind == 0 && s.miReady r) (if s.miStatus r == 0 then u else (s.miTake r).servePart r.serve (s.miStatus r) [])

/-- DRAM_WRITE (R246, R247): a write of a whole block, which reported completion when it was accepted, replaces the block in any state. -/
def execDramWrite (req : Nat) (s : State) : Result :=
  match s.net.mi.find? fun r => r.id == req with
  | none => .next s
  | some r =>
    s.when (r.kind == 1 && s.miReady r)
      (if s.miStatus r == 0 then (s.writeBlock r.stack r.off r.addr (setBytes512 0 r.bytes)).miTake r else s.miTake r)

/-- R247: a partial write or an AMO that met a bad block is dropped. -/
def State.dramDrop (s : State) (r : MiReq) : State :=
  (s.bump (R.MEM_STK_DROP r.stack) 1).fault 0x14 (s.sourceOf r.tile 0) r.part (le 8 (r.addr / 64 * 64))

/-- DRAM_PARTIAL_WRITE (R246, R247): read, decode, merge, encode and write as one sequence, or dropped. A partial write reported completion
when it was accepted; an AMO answers with what it read. -/
def execDramPartialWrite (req : Nat) (flips : List (Nat × BitVec 8)) (die : Option Nat) (s : State) : Result :=
  match s.net.mi.find? fun r => r.id == req with
  | none => .next s
  | some r =>
    let s1 := s.disturb r.stack r.off flips
    let d := s1.decodeBlock r.stack r.off r.addr
    let v := s1.delivered r.addr d
    let u := (s1.accountRead r.stack r.off r.addr d r.part die).miTake r
    let t :=
      if 2 ≤ d.result then
        let ones := (List.range 8).map fun i => (i, (0xFF : BitVec 8))
        if r.kind == 3 then (u.dramDrop r).servePart r.serve 0 ones else u.dramDrop r
      else match r.amo with
        | some m =>
          let n := if m.2.1 then 8 else 4
          let old := leNat ((List.range n).map fun i => byte512 v (r.from_ + i))
          let new := leBytes n (amoResult m.1 (8 * n) old m.2.2.1.toNat m.2.2.2.toNat)
          let w := setBytes512 v (((List.range n).map (· + r.from_)).zip new)
          (u.writeBlock r.stack r.off r.addr w).servePart r.serve 0 ((List.range n).zip (leBytes n old))
        | none => u.writeBlock r.stack r.off r.addr (setBytes512 v r.bytes)
    s.when ((r.kind == 2 || r.kind == 3) && s.miReady r)
      (if s.miStatus r == 0 then t else if r.kind == 3 then (s.miTake r).servePart r.serve (s.miStatus r) [] else s.miTake r)

/-- DRAM_CORRECTED_REWRITE (R250): the block is rewritten corrected while its bank has no request. -/
def execDramCorrectedRewrite (stack off : Nat) (s : State) : Result :=
  let busy := s.net.mi.any fun r => r.stack == stack && channelOf r.off == channelOf off && bankOf r.off == bankOf off
  let u := match s.addressAt stack off with
    | some a => s.rewriteBlock stack off a
    | none => s
  s.when (Map.get (fun _ => 0) s.dram.rewrites (blockKey stack off) == 1 && !busy)
    (u.modDram fun d => { d with rewrites := Map.erase (blockKey stack off) d.rewrites })

/-- R251: the rebuild of a stack has come to an offset: the blocks before it are rewritten in failed-die encoding; one that has no candidate, or
several, stays as stored. -/
def State.rebuildTo (s : State) (stack upTo : Nat) : State :=
  let from_ := Map.get (fun _ => 0) s.dram.rebuilt stack
  let here := s.dram.blocks.filter fun e => blockKey stack from_ ≤ e.1 && e.1 < blockKey stack upTo
  let u := s.modDram fun d => { d with rebuilt := Map.set (fun _ => 0) d.rebuilt stack upTo }
  let u := if upTo == 2 ^ 35 then u.setBit (R.MEM_STK_STATE stack) 18 false else u
  here.foldl (fun u e =>
    let off := e.1 % 2 ^ 29 * 64
    match s.addressAt stack off with
    | none => u.setBlock stack off e.2
    | some a =>
      let d := s.decodeBlock stack off a
      u.setBlock stack off (if d.result < 2 then encodeBlock (s.keyOf a) (u.encDie stack off) (s.delivered a d) else e.2)) u

/-- REBUILD_COMPLETE (R251): the rebuild of a stack, which goes on in ascending stack offset, has reached an offset; at the stack's end it is
complete. -/
def execRebuildComplete (reached : Nat × Nat) (s : State) : Result :=
  let stack := reached.1
  let upTo := reached.2
  s.when (stack < 32 && s.bit (R.MEM_STK_STATE stack) 18 && upTo % 64 == 0 && upTo ≤ 2 ^ 35 && Map.get (fun _ => 0) s.dram.rebuilt stack < upTo)
    (s.rebuildTo stack upTo)

/-! ### Row retirement (R256, R257) -/

/-- R38: a retired-row entry of one row. -/
def retiredEntry (stack channel die bank row : Nat) : Nat :=
  2 ^ 59 * stack + 2 ^ 54 * channel + 2 ^ 51 * die + 2 ^ 46 * bank + 2 ^ 28 * row

/-- R256: the lowest spare row of a bank that no row uses and no copy fills; a remap names spare i as row 16,384 + i. -/
def State.freeSpare (s : State) (stack channel bank : Nat) : Option Nat :=
  let k := rowKey stack channel bank 0
  (List.range 16).find? fun i =>
    !(s.dram.remaps.any fun e => e.1 / 16384 == k / 16384 && e.2 == 16384 + i) &&
    !(s.dram.copies.any fun c => rowKey c.stack c.channel c.bank 0 == k && c.spare == i)

/-- R243: the stack offset of block n of a row. -/
def rowBlock (channel bank row n : Nat) : Nat := 2 ^ 21 * row + 2 ^ 16 * bank + 2 ^ 11 * n + (channel ^^^ bank) * 64

/-- ROW_RETIRE (R257): a read of the row needed two or more bytes corrected (`read`), or patrol found corrected blocks in it in two passes:
the copy into a spare starts; without a spare the row is recorded as pending. No row of a stack is retired during a zeroing scrub there. -/
def execRowRetire (stack channel bank row die : Nat) (read : Bool) (s : State) : Result :=
  let k := rowKey stack channel bank row
  let due := if read then s.dram.wide.contains k else 2 ^ 20 ≤ Map.get (fun _ => 0) s.dram.suspects k
  let free := !s.dram.copies.any fun c => rowKey c.stack c.channel c.bank c.row == k
  let e := retiredEntry stack channel (die % 8) bank row
  let noted := s.flash.pendingRows.any fun r => rowKey (bitsOf r 63 59) (bitsOf r 58 54) (bitsOf r 50 46) (bitsOf r 45 28) == k
  let u := match s.freeSpare stack channel bank with
    | some i =>
      s.modDram fun d => { d with copies := d.copies ++
        [{ stack := stack, channel := channel, bank := bank, row := row, spare := i, die := die, since := s.time }] }
    | none => { s with flash := { s.flash with pendingRows := if noted then s.flash.pendingRows else s.flash.pendingRows ++ [e] } }
  s.when (due && free && !s.bit (R.MEM_STK_STATE stack) 0 && stack < 32 && channel < 32 && bank < 32 && row < 16384) u

/-- R257: the 32 blocks of a row are copied: those that decode are rewritten corrected, the others as stored. -/
def State.copyRow (s : State) (c : RowCopy) : State :=
  (List.range 32).foldl (fun s n =>
    let off := rowBlock c.channel c.bank c.row n
    match s.addressAt c.stack off with
    | some a => s.rewriteBlock c.stack off a
    | none => s) s

/-- ROW_REMAP_SWITCH (R257): the remap switches to the spare; the catalogue gets the retired-row entry and a RETIRE record. -/
def execRowRemapSwitch (stack channel bank row : Nat) (s : State) : Result :=
  match s.dram.copies.find? fun c => rowKey c.stack c.channel c.bank c.row == rowKey stack channel bank row with
  | none => .next s
  | some c =>
    let k := rowKey stack channel bank row
    let e := retiredEntry c.stack c.channel (c.die % 8) c.bank c.row
    let s := (s.copyRow c).modDram fun d =>
      { d with copies := d.copies.erase c, suspects := Map.erase k d.suspects, wide := d.wide.filter (· != k),
               remaps := Map.set (fun _ => 0) d.remaps k (16384 + c.spare),
               rewrites := d.rewrites.filter fun w => rowKeyOf (w.1 / 2 ^ 29) (w.1 % 2 ^ 29 * 64) != k }
    let tb := s.cat.tables
    let r : CatRecord := { time := s.time, code := 3, target := c.stack, origin := 3, old := 0, new := 0, detail := e }
    .next (({ s with cat := { s.cat with tables :=
      { tb with retired := addRetired tb.retired e, records := addRecord s.time tb.records r } } }).catDirty false)

/-! ### Patrol (R254) -/

/-- R254: the period of patrol in TIME counts. -/
def State.patrolPeriod (s : State) : Nat := s.fld R.MEM_CTL 7 0 * 3600000000000

/-- R254: patrol may read block n of a channel: a pass starts once per period, and goes on while the channel has nothing waiting, or when it would
otherwise not finish within the period. -/
def State.patrolDue (s : State) (stack ch n : Nat) : Bool :=
  let since := s.time - Map.get (fun _ => 0) s.dram.patrolAt (stack * 32 + ch)
  let idle := !(s.net.mi.any fun r => r.stack == stack && channelOf r.off == ch)
  if n == 0 then Map.get (fun _ => 0) s.dram.passes (stack * 32 + ch) == 0 || s.patrolPeriod ≤ since
  else idle || n * s.patrolPeriod ≤ since * 2 ^ 24

/-- PATROL_READ (R254): the next block of a channel is read, decoded, and acted on; blocks of units under a zeroing scrub are skipped, and
a band that no tract names has no key set to decode under (log entry 101). -/
def execPatrolRead (t channel : Nat) (flips : List (Nat × BitVec 8)) (die : Option Nat) (s : State) : Result :=
  let stack := (miStack t).1
  let ch := (miStack t).2 + channel % 8
  let key := stack * 32 + ch
  let n := Map.get (fun _ => 0) s.dram.patrol key
  let pass := Map.get (fun _ => 0) s.dram.passes key
  let off := channelBlock ch n
  let step (s : State) : State := s.modDram fun d =>
    { d with patrol := Map.set (fun _ => 0) d.patrol key ((n + 1) % 2 ^ 24),
             patrolAt := if n == 0 then Map.set (fun _ => 0) d.patrolAt key s.time else d.patrolAt,
             passes := if n + 1 == 2 ^ 24 then Map.set (fun _ => 0) d.passes key (pass + 1) else d.passes }
  let look (s : State) : State :=
    match s.addressAt stack off with
    | none => s
    | some a =>
      if s.dramClosed a || !s.stackOk stack off then s else
      let s := s.disturb stack off flips
      let d := s.decodeBlock stack off a
      let s := s.accountRead stack off a d none die
      if d.result == 1 then
        -- the pass, plus 2^20 once a second pass has found the row
        let old := Map.get (fun _ => 0) s.dram.suspects (rowKeyOf stack off)
        let new := if old == 0 then pass + 1 else if old % 2 ^ 20 == pass + 1 then old else 2 ^ 20 + pass + 1
        s.modDram fun d => { d with suspects := Map.set (fun _ => 0) d.suspects (rowKeyOf stack off) new }
      else s
  s.when (kindOf t = .mi && s.bit R.MEM_CTL 8 && s.patrolDue stack ch n) (step (look s))

/-! ### Refresh and temperature (R253) -/

/-- The refresh interval of a temperature state in ns. -/
def refreshInterval (temp : Nat) : Nat := if temp == 0 then 32000000 else if temp == 1 then 16000000 else 8000000

/-- REFRESH (R253). -/
def execRefresh (stack : Nat) (s : State) : Result :=
  let last := Map.get (fun _ => 0) s.dram.refreshed stack
  s.when (stack < 32 && last + refreshInterval (s.stackTemp stack) ≤ s.time)
    (s.modDram fun d => { d with refreshed := Map.set (fun _ => 0) d.refreshed stack s.time })

/-- R253: the temperature state after a reading in 1/16 degree. -/
def nextTemp (state : Nat) (t : Int) : Nat :=
  if 95 * 16 ≤ t then 2
  else if state == 2 && 92 * 16 ≤ t then 2
  else if 85 * 16 ≤ t then 1
  else if state != 0 && 82 * 16 ≤ t then 1
  else 0

/-- R241: the hottest of the four sensors of a stack, at dies 0, 2, 5 and 7. -/
def hottest (t0 t2 t5 t7 : Int) : Int := max (max t0 t2) (max t5 t7)

/-- STACK_TEMP_CHANGE (R241, R253, R258): a reading of the stack's four sensors, of dies 0, 2, 5 and 7; the hottest governs. -/
def execStackTempChange (stack : Nat) (temps : Int × Int × Int × Int) (s : State) : Result :=
  let t := hottest temps.1 temps.2.1 temps.2.2.1 temps.2.2.2
  let old := s.stackTemp stack
  let new := nextTemp old t
  let peak := signed16 (s.fld (R.MEM_STK_TEMP stack) 31 16)
  let u := s.setFld (R.MEM_STK_TEMP stack) 15 0 (twos 16 t)
  let u := if peak < t then u.setFld (R.MEM_STK_TEMP stack) 31 16 (twos 16 t) else u
  let u := u.setFld (R.MEM_STK_STATE stack) 3 2 new
  let u := if new == 2 && old != 2 then u.fault 0x19 (u.sourceOf (miSite stack 0) 0) none (le 1 stack ++ le 2 (twos 16 t)) else u
  s.when (stack < 32) u

/-! ### Zeroing scrubs (R255) -/

/-- The stacks and bands of a placement unit. -/
def State.unitBands (s : State) (u : Nat) : List (Nat × Nat) :=
  if u < 1024 then
    let r := tractRole s.fab.active u
    [(r.2.1, r.2.2)]
  else
    let r := tractRole s.fab.active ((u - 1024) * 32)
    (List.range 32).map fun k => (k, r.2.2)

/-- R249: the epoch of a unit rises. -/
def State.newEpoch (s : State) (u : Nat) : State :=
  s.modDram fun d => { d with epochs := Map.set (fun _ => 0) d.epochs u (Map.get (fun _ => 0) d.epochs u + 1) }

/-- R249, R255: a zeroing scrub of a unit starts, or starts again from its first block, under a new epoch. -/
def State.zeroStart (s : State) (u : Nat) : State :=
  let s := (s.newEpoch u).modDram fun d => { d with zeroing := if d.zeroing.contains u then d.zeroing else d.zeroing ++ [u] }
  (s.unitBands u).foldl (fun s b => s.setBit (R.MEM_STK_STATE b.1) 0 true) s

/-- A band reads as zeros under a key. -/
def State.zeroBand (s : State) (stack band : Nat) (key : Nat × Nat × Nat) : State :=
  s.modDram fun d =>
    let lo := 2 ^ 29 * stack + 2 ^ 24 * band
    { d with bandKeys := Map.set d.bandDefault d.bandKeys (stack * 32 + band) key,
             blocks := Map.clearRange lo (lo + 2 ^ 24) d.blocks, rewrites := Map.clearRange lo (lo + 2 ^ 24) d.rewrites }

/-- R255: the unit's last block is written. -/
def State.zeroEnd (s : State) (u : Nat) : State :=
  let bands := s.unitBands u
  let s := bands.foldl (fun s b => s.zeroBand b.1 b.2 (s.keyOfUnit u)) s
  let s := s.modDram fun d => { d with zeroing := d.zeroing.filter (· != u) }
  bands.foldl (fun s b =>
    if s.dram.zeroing.any fun v => (s.unitBands v).any fun c => c.1 == b.1 then s else s.setBit (R.MEM_STK_STATE b.1) 0 false) s

/-- ZEROING_SCRUB_START (R255): Curator starts a scrub of a unit of the placement in force. -/
def execZeroingScrubStart (unit : Nat) (s : State) : Result :=
  s.when ((unitsOf s.fab.active).contains unit && !s.dram.zeroing.contains unit) (s.zeroStart unit)

/-- ZEROING_SCRUB_END (R255). -/
def execZeroingScrubEnd (unit : Nat) (s : State) : Result := s.when (s.dram.zeroing.contains unit) (s.zeroEnd unit)

end Sys2Proof.Machine
end

