-- ==== Sys2Proof/Machine/Fetch.lean ====
section
/-! DEFINITION. The Fetch engine (R187, R203, R204): the fields of transfers and messages, why they are refused, and the
course of a transfer row by row between the vitrine and the network. -/

namespace Sys2Proof.Machine

/-! ### Fields -/

/-- A message, by its group; a transfer otherwise. -/
def EngInstr.isMsg (i : EngInstr) : Bool := i.group == 0x3C
def EngInstr.fop (i : EngInstr) : Nat := i.bits 53 51
def EngInstr.lw (i : EngInstr) : Nat := i.bits 40 31
def EngInstr.ssField (i : EngInstr) : Nat := i.bits 45 41

/-- The captured far address and pitch of a transfer. -/
def EngInstr.far (i : EngInstr) : Nat := (i.sv.getD 0 0).toNat
def EngInstr.pitch (i : EngInstr) : Nat := (i.sv.getD 1 0).toNat

/-- R204: the destination register, and the payload offset or doorbell value. -/
def EngInstr.dest (i : EngInstr) : Nat := (i.sv.getD 0 0).toNat
def EngInstr.payAt (i : EngInstr) : Nat := (i.sv.getD 1 0).toNat

/-- R203: the byte length of a row. -/
def Desc.rowBytes (d : Desc) : Nat := (d.cols * d.width + 7) / 8

/-- R203: every vitrine byte of a transfer lies inside. -/
def Desc.fxInside (d : Desc) (size : Nat) : Bool := if d.tr then d.inside 32 size else ({ d with cols := d.rowBytes }).inside 8 size

/-- R203: the n bytes from a lie in DRAM, or in the windows of vitrines and S-tiles. -/
def farOk (a n : Nat) : Bool := a + n ≤ dramSize || (0x010000000000 ≤ a && a + n ≤ 0x010000000000 + 3072 * 2 ^ 22)

/-- R203: where row r of a transfer starts on the far side. -/
def EngInstr.farRow (i : EngInstr) (r : Nat) : Nat := (i.far + r * i.pitch) % 2 ^ 64

/-- R203, R216: why a transfer is refused. -/
def fxRefusal (t : Nat) (i : EngInstr) : Option Nat :=
  let d := desc (i.tv.getD 0 0)
  let rb := d.rowBytes
  let phys := i.fop < 2
  firstReason
    [(2, d.width == 0),
     (8, 2 ≤ d.layout || (d.tr && (d.layout != 1 || d.width != 32)) || (d.layout == 1 && d.addr % 4096 != 0)),
     (9, !(d.fxInside (vitSize t))),
     (12, i.far % 4 != 0 || i.pitch % 4 != 0 || rb % 4 != 0 ||
        (phys && !((List.range d.rows).all fun r => farOk (i.farRow r) rb))),
     (14, 4 ≤ i.fop || i.bits 36 11 != 0 || d.zero != 0)]

/-- R204: the bytes of a message's payload in the vitrine; a descriptor is 32 B. -/
def EngInstr.payLen (i : EngInstr) : Nat := if i.fop == 0 then 32 else if i.fop < 3 then 4 * (i.lw + 1) else 0

/-- R204, R216: why a message is refused. -/
def msgRefusal (t : Nat) (i : EngInstr) : Option Nat :=
  firstReason
    [(9, i.fop < 3 && (i.payAt % 4 != 0 || vitSize t < i.payAt + i.payLen)),
     (13, (i.fop == 0 && i.lw != 7) || (i.fop == 3 && (i.lw != 0 || i.ssField != 0))),
     (14, 5 ≤ i.fop || i.bits 30 11 != 0)]

/-! ### Headers -/

/-- R203, R269: the header of row r of a transfer. -/
def State.fxHeader (s : State) (t : Nat) (i : EngInstr) (r rb : Nat) : Hdr :=
  let a := i.farRow r
  let src := s.sourceOf t 1
  match i.fop with
  | 0 => { Hdr.blank with dev := s.deviceId, kind := 8, len := rb, src := src, addr := a }
  | 1 => { Hdr.blank with dev := s.deviceId, kind := 9, len := rb, src := src, addr := a }
  | n => { Hdr.blank with dev := fieldOf a 63 48, win := fieldOf a 47 40, acc := fieldOf a 39 30, addr := fieldOf a 29 0,
                          kind := if n == 2 then 7 else 6, len := rb, src := src }

/-- R204, R269, R270: the header of a message of operation op for the destination register d. -/
def msgHeader (op d src len : Nat) : Hdr :=
  let queued := op < 3
  { Hdr.blank with dev := fieldOf d 63 48, tile := fieldOf d 47 36, queue := if queued then fieldOf d 35 30 else 0,
                   acc := if queued then fieldOf d 29 20 else 0, kind := op + 1, len := len, src := src,
                   arg := if op == 2 || op == 3 then fieldOf d 19 0 else 0 }

/-! ### The course of a transfer -/

/-- R194, R203: the vitrine bytes of row r in the order of the far side. -/
def fxBytes (d : Desc) (r rb : Nat) : List Nat :=
  (List.range rb).map fun k => if d.tr then d.logPos 32 r (k / 4) / 8 + k % 4 else d.bitPos 8 r k / 8

/-- The reads or writes of bytes at offsets, as row accesses within lines or one column access of whole cells. -/
def fxReads (id r : Nat) (column : Bool) (os : List Nat) : List VitReq :=
  if column then [{ readReq 3 (.fetch id r) 0 0 with cells := (os.map (· / 4)).eraseDups }]
  else ((os.map (· / 128)).eraseDups).map fun l =>
    { readReq 3 (.fetch id r) 0 0 with cells := ((os.filter fun o => o / 128 == l).map (· / 4)).eraseDups }

/-- Column accesses of a transfer take at most the 32 rows of a block. -/
def fxColumns (os : List Nat) : List (List Nat) := chunks 128 (os.length / 128 + 1) os

/-- Replace a transfer. -/
def State.setXfer (s : State) (t : Nat) (q : Xfer) : State :=
  s.modSite t fun x => { x with xfers := x.xfers.map fun p => if p.id == q.id then q else p }

/-- The bytes of a row that were read, in far order. -/
def XferRow.bytes (w : XferRow) (os : List Nat) : List (BitVec 8) := os.map fun o => Map.get (fun _ => 0) w.got o

/-- Present row r of a transfer: its far read, or its vitrine reads; a message's payload read, or the message itself. -/
def State.presentRow (s : State) (t : Nat) (q : Xfer) (r : Nat) : State :=
  let i := q.instr
  let add (s : State) (stage left : Nat) : State :=
    s.setXfer t { q with next := r + 1, work := q.work ++ [{ row := r, stage := stage, left := left, got := [] }] }
  if i.isMsg then
    if i.fop < 3 then
      let os := (List.range i.payLen).map (· + i.payAt)
      let rs := fxReads q.id r false os
      rs.foldl (fun s v => s.present t v) (add s 3 rs.length)
    else
      let data := if i.fop == 4 then leBytes 8 i.payAt else []
      (add s 4 0).post t (.core t i.core) (msgHeader i.fop i.dest (s.sourceOf t 1) data.length) data (.msg t q.id)
  else if i.fop % 2 == 0 then
    (add s 1 0).post t (.core t i.core) (s.fxHeader t i r q.rb) [] (.xfer t q.id r)
  else
    let d := desc (i.tv.getD 0 0)
    let os := fxBytes d r q.rb
    let rs := if d.tr then (fxColumns os).flatMap fun c => fxReads q.id r true c else fxReads q.id r false os
    rs.foldl (fun s v => s.present t v) (add s 3 rs.length)

/-- A row in work goes on: arrived far data is written to the vitrine, gathered bytes go to the far side, and a finished row is
dropped. -/
def State.stepRow (s : State) (t : Nat) (q : Xfer) (w : XferRow) : State :=
  let i := q.instr
  let d := desc (i.tv.getD 0 0)
  let put (s : State) (w : XferRow) : State := s.modXfer t q.id w.row fun _ => w
  let drop (s : State) : State :=
    s.modSite t fun x => { x with xfers := x.xfers.map fun p =>
      if p.id == q.id then { p with work := p.work.filter fun v => v.row != w.row } else p }
  match w.stage with
  | 5 =>
    let data := (fxBytes d w.row q.rb).zip (w.bytes (List.range q.rb))
    let ws := if d.tr then ((fxColumns (data.map (·.1))).map fun c => (data.filter fun e => c.contains e.1)).flatMap fun b =>
        writeAccesses 3 (.fetch q.id w.row) true b []
      else writeAccesses 3 (.fetch q.id w.row) false data []
    ws.foldl (fun s v => s.present t v) (put s { w with stage := 2, left := ws.length, got := [] })
  | 2 => if w.left == 0 then drop s else s
  | 3 =>
    if w.left != 0 then s
    else if i.isMsg then
      let data := w.bytes ((List.range i.payLen).map (· + i.payAt))
      (put s { w with stage := 4, got := [] }).post t (.core t i.core) (msgHeader i.fop i.dest (s.sourceOf t 1) data.length) data
        (.msg t q.id)
    else
      (put s { w with stage := 4, got := [] }).post t (.core t i.core) (s.fxHeader t i w.row q.rb) (w.bytes (fxBytes d w.row q.rb))
        (.xfer t q.id w.row)
  | 6 => drop s
  | _ => s

/-- A vitrine access of a transfer's row is complete. -/
def State.fetchArrive (s : State) (t id row : Nat) (write : Bool) (data : List (Nat × BitVec 8)) : State :=
  s.modXfer t id row fun w => { w with left := w.left - 1, got := if write then w.got else w.got ++ data }

/-- An issued transfer or message begins. -/
def State.fetchBegin (s : State) (t id : Nat) (i : EngInstr) : State :=
  let d := desc (i.tv.getD 0 0)
  let q : Xfer := { id := id, instr := i, rows := if i.isMsg then 1 else d.rows, rb := if i.isMsg then 0 else d.rowBytes, next := 0, work := [] }
  s.modSite t fun x => { x with xfers := x.xfers ++ [q] }

/-- R187: the previous instruction has presented its last request to the bulk network; a row whose vitrine reads are not back has not. -/
def Site.fetchFree (x : Site) : Bool := x.xfers.all fun q => q.next == q.rows && q.work.all fun w => w.stage != 3

/-- The Fetch engine's part of a tile cycle: rows in work go on, finished transfers complete, and the first transfer with rows left
presents its next. -/
def State.fetchTick (s : State) (t : Nat) : State :=
  let s := (s.site t).xfers.foldl (fun s q => q.work.foldl (fun s w => s.stepRow t q w) s) s
  let s := s.modSite t fun x =>
    let beyond (q : Xfer) : Bool := q.next == q.rows && q.work.isEmpty
    let ids := (x.xfers.filter beyond).map (·.id)
    { x with xfers := x.xfers.filter fun q => !beyond q,
             fetchOn := x.fetchOn.map fun e => if ids.contains e.id then { e with done := true } else e }
  match (s.site t).xfers.find? fun q => q.next < q.rows with
  | some q => s.presentRow t q q.next
  | none => s

end Sys2Proof.Machine
end

