-- ==== Sys2Proof/Machine/Engines.lean ====
section
/-! DEFINITION. Dispatch, issue, refusal and completion of engine instructions (R186-R192, R198, R216), token waits, the
notification of R191, stall reports (R217), and the derived fields of the engine registers. -/

namespace Sys2Proof.Machine

/-! ### Queues -/

/-- R187: the queue of an engine and its depth. -/
def Site.queue (x : Site) : Engine → List EngInstr
  | .fetch => x.fetchQ
  | .compute => x.computeQ
  | .drain => x.drainQ
def engineDepth : Engine → Nat
  | .fetch => 64
  | .compute => 32
  | .drain => 32
def Site.setQueue (x : Site) (e : Engine) (q : List EngInstr) : Site :=
  match e with
  | .fetch => { x with fetchQ := q }
  | .compute => { x with computeQ := q }
  | .drain => { x with drainQ := q }

/-- The instructions of an engine that were issued and have not signalled completion. -/
def Site.issued (x : Site) : Engine → List EngIssued
  | .fetch => x.fetchOn
  | .compute => x.computeOn
  | .drain => x.drainOn
def Site.setIssued (x : Site) (e : Engine) (q : List EngIssued) : Site :=
  match e with
  | .fetch => { x with fetchOn := q }
  | .compute => { x with computeOn := q }
  | .drain => { x with drainOn := q }

def allEngines : List Engine := [.fetch, .compute, .drain]
def engineNumber : Engine → Nat
  | .fetch => 0
  | .compute => 1
  | .drain => 2

/-- R191: an engine's queue is empty and its last instruction has completed. -/
def Site.engineIdle (x : Site) (e : Engine) : Bool := (x.queue e).isEmpty && (x.issued e).isEmpty

/-- Every engine is idle. -/
def Site.enginesIdle (x : Site) : Bool := allEngines.all x.engineIdle

/-- R186: dispatch places an instruction at the tail of its queue. -/
def State.dispatch (s : State) (t : Nat) (e : Engine) (i : EngInstr) : State :=
  s.modSite t fun x => x.setQueue e (x.queue e ++ [i])

/-! ### Issue conditions (R187, R188, R198) -/

/-- R187: the engine can take the instruction, apart from its token. -/
def Site.engineFree (x : Site) (e : Engine) (i : EngInstr) : Bool :=
  match e with
  | .fetch => x.fetchFree
  | .compute => if i.group == 0x30 then x.computeFree && x.pendingOk i else true
  | .drain => !i.takes || !(x.postedTo i.handle).isEmpty

/-- R189: the engines that take from a counter before engine e in a tile cycle, or before the sequencer, and whose heads would. -/
def Site.takesAhead (x : Site) (e : Option Engine) (k : Nat) : Nat :=
  let before : List Engine := match e with
    | some .fetch => []
    | some .compute => [.fetch]
    | some .drain => [.fetch, .compute]
    | none => allEngines
  (before.filter fun f => match x.queue f with
    | i :: _ => i.we && i.wk == k && x.engineFree f i
    | [] => false).length

/-- R188, R189: the token wait of an engine's head is met. -/
def State.tokenMet (s : State) (t : Nat) (e : Engine) (i : EngInstr) : Bool :=
  !i.we || (s.site t).takesAhead (some e) i.wk < s.token t i.wk

/-- Why the engine refuses the instruction at issue (R197-R204, R216). -/
def State.refusal (s : State) (t : Nat) (e : Engine) (i : EngInstr) : Option Nat :=
  match e with
  | .fetch => if i.isMsg then msgRefusal t i else fxRefusal t i
  | .compute => if i.group == 0x30 then s.mmRefusal t i else cbRefusal t i
  | .drain =>
    let c := if i.takes then ((s.site t).postedTo i.handle).head? else none
    if i.isDr then (match c with | some c => s.drRefusal t i c | none => none) else accRefusal t i c

/-- R216: the exception of a refusal. -/
def refusalCause (e : Engine) (i : EngInstr) : Nat :=
  match e with
  | .compute => 17
  | .drain => 18
  | .fetch => if i.isMsg then 20 else 19

/-- R216: a refused instruction is discarded, every entry that has not issued is discarded, and the core is ENDING until issued work
completes; of several refusals the earliest in program order stands (R180). -/
def State.refuseEngine (s : State) (t : Nat) (e : Engine) (i : EngInstr) (reason : Nat) : State :=
  let r : ExcRec := { cause := refusalCause e i, pc := i.pc, val := reason, core := i.core, seq := i.seq }
  let s := s.modSite t fun x => { x with fetchQ := [], computeQ := [], drainQ := [] }
  let s := s.setCoreState t i.core 3
  s.modCore t i.core fun k =>
    { k with wait := 0, timeout := none,
             engExc := match k.engExc with
               | some q => if q.seq ≤ r.seq then some q else some r
               | none => some r }

/-- An instruction begins in its engine. -/
def State.engineBegin (s : State) (t id : Nat) (e : Engine) (i : EngInstr) : State :=
  match e with
  | .fetch => s.fetchBegin t id i
  | .compute => if i.group == 0x30 then s.mmBegin t id i else s.cbBegin t id i
  | .drain => s.drainBegin t id i

/-- R433: the engine and queue position of a class 0 event. -/
def engineEvent (e : Engine) (pos : Nat) : Nat := 2 ^ 14 * engineNumber e + pos % 2 ^ 14

/-- R187: the engine takes the instruction at the head of its queue. -/
def State.takeHead (s : State) (t : Nat) (e : Engine) (i : EngInstr) : State :=
  let s := s.modSite t fun x => x.setQueue e ((x.queue e).drop 1)
  let s := if i.we then s.takeToken t i.wk 1 else s
  match s.refusal t e i with
  | some reason => s.refuseEngine t e i reason
  | none =>
    let id := (s.site t).nextEng
    let s := s.modSite t fun x =>
      let o : EngIssued := { id := id, instr := i, done := false, crc := 0 }
      ({ x with nextEng := id + 1 } : Site).setIssued e (x.issued e ++ [o])
    (s.engineBegin t id e i).traceEvent t 0 0 (engineEvent e 0)

/-- The engine takes the head of its queue, if it has one and its conditions hold. -/
def State.issueHead (s : State) (t : Nat) (e : Engine) : State :=
  match (s.site t).queue e with
  | [] => s
  | i :: _ => if s.tokenMet t e i && (s.site t).engineFree e i then s.takeHead t e i else s

/-- R187, R189, R216: in one tile cycle each engine may take its head, in the order of R189; a refusal by one does not keep the others from
theirs. -/
def State.issueHeads (s : State) (t : Nat) : State :=
  let heads := allEngines.flatMap fun e => ((s.site t).queue e).head?.toList.map fun i => (e, i)
  heads.foldl (fun s h =>
    if (!h.2.we || 1 ≤ s.token t h.2.wk) && (s.site t).engineFree h.1 h.2 then s.takeHead t h.1 h.2 else s) s

/-- Accumulator errors found meanwhile (R110, R128): corrected pairs are counted, uncorrectable ones marked. -/
def State.accErrors (s : State) (t : Nat) (corr uncorr : List Nat) : State :=
  let s := s.arrCount t R.ENG_ACC_ECC (corr.filter fun i => !(s.site t).accBad.contains i).length
  s.modSite t fun x => { x with accBad := x.accBad ++ uncorr.filter fun i => i < 32768 && !x.accBad.contains i }

/-- ENGINE_ISSUE (R187): the engine takes its head. `corr` and `uncorr` are the accumulator pairs (row * 32 + column) in which an error
has arisen since the last issue. -/
def execEngineIssue (t : Nat) (e : Engine) (corr uncorr : List Nat) (s : State) : Result :=
  .next ((if kindOf t = .m then s.accErrors t corr uncorr else s).issueHead t e)

/-! ### Completion (R187-R189, R440, R441) -/

/-- R441: a mismatch breaks the pair: the record, the failure of the partition, and both sites overdue for test. -/
def State.breakPair (s : State) (t : Nat) (a b : BitVec 64) : State :=
  match s.twin t with
  | none => s
  | some u =>
    let lead := min t u
    let s := s.modNet fun n => { n with broken := if n.broken.contains lead then n.broken else n.broken ++ [lead] }
    let s := s.fault 0x06 s.curatorSource (s.partOf t) (le 2 lead ++ le 2 (max t u) ++ le 8 a.toNat ++ le 8 b.toNat)
    let s := match s.partOf t with
      | some p => s.partFail p 0x06
      | none => s
    [t, u].foldl (fun s v => (s.setTbit v R.TILE_IFT_STATUS 29 true).setTfld v R.TILE_IFT_STATUS 31 30 1) s

/-- R441: the pair of a site is broken. -/
def State.pairBroken (s : State) (t : Nat) : Bool :=
  match s.twin t with
  | some u => s.net.broken.contains (min t u)
  | none => false

/-- R187, R188: the oldest instruction of an engine signals its completion. -/
def State.signal (s : State) (t : Nat) (e : Engine) (o : EngIssued) (token : Bool) : State :=
  let s := s.modSite t fun x => x.setIssued e (x.issued e).tail
  (if token && o.instr.se then s.addToken t o.instr.sk 1 else s).traceEvent t 0 0 (engineEvent e 0)

/-- The oldest instruction of an engine completes, once it is done; a drain of a pair completes with its twin's, compared by the CRC-64 of
their bytes. -/
def State.completeHead (s : State) (t : Nat) (e : Engine) : State :=
  match (s.site t).issued e with
  | [] => s
  | o :: _ =>
    if !o.done then s else
    match s.twin t with
    | none => s.signal t e o true
    | some u =>
      if e != .drain || !o.instr.isDr then s.signal t e o true
      else if s.pairBroken t then s.signal t e o false
      else match (s.site u).drainOn with
        | p :: _ =>
          if !p.done then s
          else if o.crc == p.crc then (s.signal t e o true).signal u e p true
          else ((s.breakPair t (if t < u then o.crc else p.crc) (if t < u then p.crc else o.crc)).signal t e o false).signal u e p false
        | [] => s

/-- R187: an MM whose operands are released is done. -/
def State.releaseMm (s : State) (t : Nat) : State :=
  s.modSite t fun x => { x with computeOn := x.computeOn.map fun o =>
    if o.instr.group == 0x30 && x.mmReleased o.id then { o with done := true } else o }

/-- R191: a met notification sets core 0's event flag once. -/
def State.notifyMet (s : State) (t : Nat) : State :=
  match (s.site t).notify with
  | none => s
  | some m =>
    let x := s.site t
    if allEngines.all (fun e => !(m.testBit (engineNumber e)) || x.engineIdle e) then
      (s.modSite t fun x => { x with notify := none }).setEvent t 0
    else s

/-- R117, R202, R216: an activation table that breaks its rule refuses its ACT.LOAD once its bytes are read. -/
def State.refuseTable (s : State) (t : Nat) : State :=
  match (s.site t).drains with
  | o :: _ =>
    if !o.instr.isDr && o.instr.aop == 6 && o.closed && o.finished then
      let s := s.modSite t fun x =>
        { x with drains := x.drains.filter (fun p => p.id != o.id), drainOn := x.drainOn.filter fun p => p.id != o.id }
      (s.refuseEngine t .drain o.instr 11).qboundary t
    else s
  | [] => s

/-- ENGINE_COMPLETE (R187): the oldest instruction of the engine that has done its work signals its completion. -/
def execEngineComplete (t : Nat) (e : Engine) (s : State) : Result :=
  let s := if e = .drain then s.refuseTable t else if e = .compute then s.releaseMm t else s
  .next ((s.completeHead t e).notifyMet t)

/-- The engines' part of a tile cycle: completions, then the takes of Fetch, Compute and Drain (R189). -/
def State.engineTick (s : State) (t : Nat) : State :=
  if (kindOf t).cores == 0 || kindOf t = .s then s else
  let s := (s.refuseTable t).releaseMm t
  let ended := match (s.site t).drains with
    | o :: _ => if o.finished then some o else none
    | [] => none
  let s := match ended with
    | some o => s.drainDone t o
    | none => s
  let s := match (s.site t).cbDue with
    | some e => s.cbWrite t e
    | none => s
  let s := allEngines.foldl (fun s e => s.completeHead t e) s
  let s := (s.issueHeads t).drainStart t ended
  s.notifyMet t

/-! ### Derived fields (R72, R217) -/

/-- R72: the array is frozen in this cycle. -/
def Site.frozen (x : Site) : Bool := x.arr.busy && x.freeze != .none

/-- R217: what the head of an engine's queue waits for: 0 nothing, 2 a token, 3 the engine's own condition. -/
def State.headWait (s : State) (t : Nat) (e : Engine) : Nat :=
  let x := s.site t
  match x.queue e with
  | [] => 0
  | i :: _ => if !s.tokenMet t e i then 2 else if !x.engineFree e i then 3 else 0

/-- R217: an engine's field of ENG_STATUS. -/
def State.engineField (s : State) (t : Nat) (e : Engine) : Nat :=
  let x := s.site t
  if (x.queue e).isEmpty && (x.issued e).isEmpty then 0 else
  let w := s.headWait t e
  if w == 0 then 1 else w

/-- The instruction that the program store of an M- or V-tile holds at a core's pc. -/
def State.storeInsn (s : State) (t pc : Nat) : Nat :=
  let w (k : Nat) : Nat := (Map.get (fun _ => 0) (s.site t).prog k).toNat
  let lo := w (pc / 4)
  if lo % 2 == 1 then lo + 2 ^ 32 * w (pc / 4 + 1) else lo

/-- R186: the engine of an instruction of a group, if it is an engine instruction. -/
def engineOf (group : Nat) : Option Engine :=
  match group with
  | 0x30 => some .compute
  | 0x33 => some .compute
  | 0x31 => some .drain
  | 0x32 => some .drain
  | 0x38 => some .fetch
  | 0x3C => some .fetch
  | _ => none

/-- R191: the ENG.WAIT condition for a mask. -/
def Site.engWaitMet (x : Site) (mask : Nat) : Bool := allEngines.all fun e => !(mask.testBit (engineNumber e)) || x.engineIdle e

/-- R217: what the sequencer waits for at its pc: 1 at dispatch on a full queue, 2 in TK.TAKE or ENG.WAIT. -/
def State.seqWait (s : State) (t : Nat) : Nat :=
  if s.coreState t 0 != 1 then 0 else
  let x := s.site t
  let k := s.core t 0
  let n := s.storeInsn t k.pc
  let group := fieldOf n 6 1
  let guard := (fieldOf n 9 7 == 0 || k.p.toNat.testBit (fieldOf n 9 7)) != (n.testBit 10)
  if !guard then 0 else
  match engineOf group with
  | some e => if engineDepth e ≤ (x.queue e).length then 1 else 0
  | none =>
    if group == 0x39 && fieldOf n 31 28 == 2 then (if s.token t (fieldOf n 19 16) < fieldOf n 27 20 then 2 else 0)
    else if group == 0x3A && fieldOf n 31 28 == 0 then (if x.engWaitMet (fieldOf n 13 11) then 0 else 2)
    else 0

/-- R217: ENG_STATUS as it reads, with its derived fields; in a V-tile the Compute, Drain and array fields read 0 (R219), and in an
S-tile only nonok is implemented. -/
def State.engStatus (s : State) (t : Nat) : BitVec 32 :=
  let w := s.treg t R.ENG_STATUS
  match kindOf t with
  | .s => w &&& 0x2000
  | .mi => 0
  | .v => putBits (putBits w 1 0 (s.engineField t .fetch)) 9 8 (s.seqWait t)
  | .m => putBits (putBits (putBits (putBits (putBits w 1 0 (s.engineField t .fetch)) 3 2 (s.engineField t .compute)) 5 4
      (s.engineField t .drain)) 6 6 (s.site t).frozen.toNat) 9 8 (s.seqWait t)

/-- R217: ENG_QUEUE as it reads. -/
def State.engQueue (s : State) (t : Nat) : BitVec 32 :=
  let x := s.site t
  BitVec.ofNat 32 (2 ^ 24 * x.fetchQ.length + 2 ^ 16 * x.computeQ.length + 2 ^ 8 * x.drainQ.length)

/-- R217: ENG_ACC_PENDING as it reads. -/
def State.accPending (s : State) (t : Nat) : BitVec 32 :=
  BitVec.ofNat 32 ((List.range 8).foldl (fun n h => n + ((s.site t).postedTo h).length * 2 ^ (3 * h)) 0)

/-- R72: ENG_ARR_STATE as it reads. -/
def State.arrState (s : State) (t : Nat) : BitVec 32 :=
  let x := s.site t
  let cause := match x.freeze with
    | .none => 0
    | .stream => 1
    | .stat => 2
    | .acc => 3
  let busy := x.arr.busy
  putBits (s.treg t R.ENG_ARR_STATE) 3 0 (if busy then 1 + (if x.frozen then 2 + 4 * cause else 0) else 0)

/-! ### Stalls (R217) -/

/-- The waits of a site that a stall report can name: an engine's head and the sequencer's instruction by their own numbers, so that each is
an episode of its own. -/
def State.waitsNow (s : State) (t : Nat) : List Nat :=
  let x := s.site t
  (allEngines.filter fun e => s.headWait t e != 0).map (fun e =>
      engineNumber e + 16 * (((x.queue e).head?.map (·.seq)).getD 0 + 1)) ++
    (if s.seqWait t != 0 then [3 + 16 * ((s.core t 0).pc + 1)] else []) ++ (if x.frozen then [4] else []) ++
    ((List.range 4).filter fun c => s.coreState t c == 3).map (· + 5)

/-- The list of waits follows what waits now; a wait that goes on keeps the TIME at which it began. -/
def State.trackWaits (s : State) (t : Nat) : State :=
  let now := s.waitsNow t
  let old := (s.site t).waits
  let ws := now.map fun k => (old.find? fun w => w.1 == k).getD (k, s.time, false)
  s.modSite t fun x => { x with waits := ws }

/-- ENGINE_STALL (R217): a wait at the site has lasted longer than ENG_STALL_LIMIT: the episode sets stall once and is recorded. -/
def execEngineStall (t : Nat) (s : State) : Result :=
  let s := s.trackWaits t
  let limit := (s.treg t R.ENG_STALL_LIMIT).toNat
  match (s.site t).waits.find? (fun w => !w.2.2 && limit < s.time - w.2.1) with
  | some w =>
    let s' := s.modSite t fun x => { x with waits := x.waits.map fun v => if v.1 == w.1 then (v.1, v.2.1, true) else v }
    let s' := if kindOf t = .s then s' else s'.setTbit t R.ENG_STATUS 10 true
    s.when (limit != 0 && kindOf t != .mi)
      (s'.fault 0x03 (s.sourceOf t 0) (s.partOf t) (le 4 (s'.engStatus t).toNat ++ le 4 (s'.engQueue t).toNat))
  | none => .next s

end Sys2Proof.Machine
end

