-- ==== Sys2Proof/Machine/Encoding.lean ====
section
/-! DEFINITION. The instruction word (R155-R159): its fields, and the words that are illegal at an executor (R148, R157,
R160-R176, R185, R190, R191, R195, R204, R206, R208-R214). A word is a number; the upper word of a 64-bit instruction stands in bits
[63:32], and a 32-bit instruction has zeros there. -/

namespace Sys2Proof.Machine

/-- The fields of the formats of R158. -/
def insnGroup (n : Nat) : Nat := fieldOf n 6 1
def insnLong (n : Nat) : Bool := n % 2 == 1
def insnBytes (n : Nat) : Nat := if insnLong n then 8 else 4
def fnOf (n : Nat) : Nat := fieldOf n 31 26
def sbOf (n : Nat) : Nat := fieldOf n 25 21
def saOf (n : Nat) : Nat := fieldOf n 20 16
def dOf (n : Nat) : Nat := fieldOf n 15 11
def upperOf (n : Nat) : Nat := n / 2 ^ 32
def lowerOf (n : Nat) : Nat := n % 2 ^ 32

/-- A field of w bits sign-extended to 64. -/
def sext (w v : Nat) : BitVec 64 := (BitVec.ofNat w v).signExtend 64

/-- R156: the guard: predicate number and polarity, and whether the combination is reserved. -/
def guardOk (n : Nat) (p : BitVec 8) : Bool := (fieldOf n 9 7 == 0 || p.getLsbD (fieldOf n 9 7)) != n.testBit 10
def guardReserved (n : Nat) : Bool := fieldOf n 9 7 == 0 && n.testBit 10

/-- R148, R185: the executor accepts the group. -/
def groupOk (k : TileKind) (g : Nat) : Bool :=
  let common := g ≤ 0x0D || (0x10 ≤ g && g ≤ 0x12) || g == 0x14 || (0x18 ≤ g && g ≤ 0x1B) || (0x3C ≤ g && g ≤ 0x3F)
  let vector := [0x20, 0x21, 0x22, 0x24, 0x26, 0x28].contains g
  let engine := 0x38 ≤ g && g ≤ 0x3B
  match k with
  | .m => common || vector || engine || (0x30 ≤ g && g ≤ 0x33)
  | .v => common || vector || engine || [0x27, 0x29, 0x2A].contains g
  | .s => common
  | .mi => false

/-- R210: the element width of a packed format, and whether VQ and VX take it. -/
def vqFormat (f : Nat) : Bool := [0x01, 0x02, 0x04, 0x05].contains f || (0x08 ≤ f && f ≤ 0x0E)
def vxFormat (f : Nat) : Bool := [0x04, 0x05].contains f || (0x08 ≤ f && f ≤ 0x0E)

/-- R157: an illegal field in a group that has a form of this length; `k` is the executor. Engine instructions of M- and V-tiles are
checked by their engines. -/
def illegalFields (k : TileKind) (n : Nat) : Bool :=
  let long := insnLong n
  let fn := fnOf n
  let sb := sbOf n
  let sa := saOf n
  let d := dOf n
  let short := long
  let op4 := fieldOf n 31 28
  match insnGroup n with
  | 0x00 => short || fn == 0 || 17 < fn
  | 0x05 => short || fieldOf n 31 27 != 0
  | 0x06 => short || fieldOf n 31 27 != 0
  | 0x07 => short || fieldOf n 31 27 != 0
  | 0x08 => long && (2 < fieldOf n 31 21 || (fieldOf n 31 21 != 2 && sa != 0))
  | 0x09 => short || 7 < fn
  | 0x0A => short || fieldOf n 31 30 != 0 || 7 < fieldOf n 24 21 || fieldOf n 15 14 == 3
  | 0x0B => (long && fieldOf n 31 25 != 0) || 7 < fieldOf n 24 21 || fieldOf n 15 14 == 3
  | 0x0C =>
    let pb := fieldOf n 23 21
    short || 5 < op4 || fieldOf n 27 24 != 0 ||
      (if op4 < 4 then 7 < sa || 7 < d else if op4 == 4 then pb != 0 || sa != 0 else pb != 0 || d != 0)
  | 0x0D => short || 9 < fn || sb != 0
  | 0x10 => d != 0 || (long && fieldOf n 31 16 != 0)
  | 0x11 => long && fieldOf n 31 16 != 0
  | 0x12 => short
  | 0x14 => short || 2 < fn || sb != 0 || d != 0 || (fn != 2 && sa != 0)
  | 0x18 => fieldOf n 31 29 == 7 || (long && fieldOf n 28 21 != 0)
  | 0x19 => 3 < fieldOf n 31 29 || (long && fieldOf n 28 21 != 0)
  | 0x1A => short || 9 < fieldOf n 31 27
  | 0x1B => short || 4 < fieldOf n 31 27 || fieldOf n 26 21 != 0 || d != 0 || (fieldOf n 31 27 < 2 && sa != 0)
  | 0x20 => short || 10 < fn || ((fn == 6 || fn == 7) && sb != 0)
  | 0x21 => short || 10 < fn || ((fn == 6 || fn == 7) && sb != 0)
  | 0x22 => short || 16 < fn
  | 0x24 => short || 7 < fn
  | 0x26 =>
    let op := fieldOf n 31 30
    let fmt := fieldOf n 29 25
    let part := fieldOf n 24 21
    !long || fieldOf n 59 32 != 0 ||
      (if op < 2 then !(if op == 0 then vqFormat fmt else vxFormat fmt) || 32 < (part + 1) * Num.width fmt
       else fmt != 0 || part != 0 || n.testBit 63)
  | 0x27 => short || 6 < fn || sb != 0
  | 0x28 => short || 3 < fieldOf n 31 29
  | 0x29 => short || 2 < fn
  | 0x2A => short || 1 < fn || d % 2 == 1 || (fn == 1 && sa % 2 == 1)
  | 0x39 =>
    let m := fieldOf n 27 20
    short || 3 < op4 || (if op4 == 3 then m != 0 else d != 0 || (op4 != 0 && m == 0))
  | 0x3A => short || 1 < op4 || fieldOf n 27 14 != 0
  | 0x3B => short || 5 < op4 || fieldOf n 23 21 != 0 || (4 ≤ op4 && (k = .v || n.testBit 27)) ||
      (if op4 == 0 then false else if op4 == 3 || op4 == 4 then d != 0 else sa != 0)
  | 0x3C =>
    let op := fieldOf n 53 51
    -- R157: an S-tile core checks what the Fetch engine checks elsewhere
    !long || (k = .s && (4 < op || fieldOf n 30 11 != 0 || (op == 0 && fieldOf n 40 31 != 7) ||
      (op == 3 && (fieldOf n 45 41 != 0 || fieldOf n 40 31 != 0))))
  | 0x3D => short || 3 < op4 || fieldOf n 18 16 != 0 ||
      (if op4 < 2 then fieldOf n 21 19 != 0 else if op4 == 2 then fieldOf n 21 19 != 0 || d != 0 else d != 0)
  | 0x3E => long && (fieldOf n 29 21 != 0 || fieldOf n 63 52 != 0 || fieldOf n 33 32 != 0)
  | 0x3F => short || fn == 0 || 10 < fn || (k != .s && 4 < fn) || ((fn == 7 || fn == 8 || fn == 9) && 11 < sb) ||
      (fn == 8 && d != 0) || (fn == 10 && 2 < d)
  | g =>
    if 0x01 ≤ g && g ≤ 0x04 then long && fieldOf n 31 21 != 0
    else if 0x30 ≤ g && g ≤ 0x33 || g == 0x38 then !long
    else true

/-- R157: the word is illegal at the executor. -/
def illegal (k : TileKind) (n : Nat) : Bool := guardReserved n || !(groupOk k (insnGroup n)) || illegalFields k n

end Sys2Proof.Machine
end

