-- ==== Sys2Proof/Machine/Interrupts.lean ====
section
/-! DEFINITION. Interrupts of scalar cores (R182, R184, R238), cores under debug control (R431), and what brings a waiting or halting core
to its next state. -/

namespace Sys2Proof.Machine

/-! ### Interrupts -/

/-- R182, R238: SV_IRQ_PEND: tmr while the core's TIME has reached SV_TIMER, ext by S_EXT_PEND and S_EXT_EN, self as written. -/
def State.irqPend (s : State) (t c : Nat) : BitVec 64 :=
  let k := s.core t c
  let tmr := (k.svReg 10).toNat ≤ s.siteTime t
  let ext := (s.treg t (R.S_EXT_PEND c) &&& s.treg t (R.S_EXT_EN c)) != 0
  BitVec.ofNat 64 ((if tmr then 1 else 0) + (if ext then 2 else 0)) ||| (k.svReg 9 &&& 4)

/-- R184: the interrupts that are pending and enabled. -/
def State.irqEnabled (s : State) (t c : Nat) : BitVec 64 := s.irqPend t c &&& (s.core t c).svReg 8

/-- R184: an interrupt is taken at the next instruction boundary of the core. -/
def State.irqDue (s : State) (t c : Nat) : Bool :=
  kindOf t = .s && s.irqEnabled t c != 0 && (!(s.core t c).supervisor || ((s.core t c).svReg 0).getLsbD 0)

/-- R184: its code: timer before external before self. -/
def irqCode (e : BitVec 64) : Nat := if e.getLsbD 0 then 0 else if e.getLsbD 1 then 1 else 2

/-! ### Debug control -/

/-- A core as one number. -/
def coreId (t c : Nat) : Nat := t * 4 + c

/-- R431: the core is under debug control. -/
def State.attached (s : State) (t c : Nat) : Bool := s.dbg.attached.contains (coreId t c)

/-- A halt, or a step whose instruction has issued, is still to bring the core to HALTED. -/
def State.halting (s : State) (t c : Nat) : Bool := s.dbg.halting.contains (coreId t c)
def State.stepping (s : State) (t c : Nat) : Bool := s.dbg.steps.contains (coreId t c)

/-- R431: the instruction of a step has issued. -/
def State.stepIssued (s : State) (t c : Nat) : State :=
  if s.dbg.awaiting.contains (coreId t c) then
    { s with dbg := { s.dbg with awaiting := s.dbg.awaiting.filter (· != coreId t c), steps := s.dbg.steps ++ [coreId t c] } }
  else s

/-- R431: the core becomes HALTED. -/
def State.halted (s : State) (t c : Nat) : State :=
  ((s.dbgForget (coreId t c)).setCoreState t c 5).modCore t c fun k => { k with wait := 0, timeout := none }

/-- A core goes on by itself: IDLE ends while an enabled interrupt is pending (R176, R184), a halting core whose accesses have completed is
HALTED, and a stepped core is once its instruction has completed (R431). -/
def State.settle (s : State) (t c : Nat) : State :=
  let st := s.coreState t c
  let k := s.core t c
  let s := if st == 2 && k.wait == 2 && s.irqEnabled t c != 0 then
      (s.setCoreState t c 1).modCore t c fun k => { k with wait := 0, pc := (k.pc + 4) % 2 ^ 64 }
    else s
  let st := s.coreState t c
  if !k.accesses.isEmpty then s
  else if s.halting t c && (st == 1 || st == 2) then s.halted t c
  else if s.stepping t c && st == 1 then s.halted t c
  else s

/-- Every core of a site. -/
def State.settleSite (s : State) (t : Nat) : State := (List.range (kindOf t).cores).foldl (fun s c => s.settle t c) s

end Sys2Proof.Machine
end

