-- ==== Sys2Proof/Machine/Router.lean ====
section
/-! DEFINITION. The routers of the bulk network: input buffers, credits and outputs (R260), route entries (R263), seam crossings (R331), flit
errors (R295) and stalls (R294). -/

namespace Sys2Proof.Machine

/-! ### Input buffers -/

/-- The number of a VC of a router's input, or of an output. -/
def vcKey (r port v : Nat) : Nat := (r * 8 + port) * 4 + v

def Net.buf (n : Net) (k : Nat) : InBuf := Map.get (fun _ => InBuf.empty) n.bufs k
def State.setBuf (s : State) (k : Nat) (b : InBuf) : State :=
  s.modNet fun n => { n with bufs := Map.set (fun _ => InBuf.empty) n.bufs k b }

/-- A packet in the network by its number. -/
def Net.packet (n : Net) (id : Nat) : Option Packet := n.packets.find? fun p => p.id == id

/-- The crossing over which a router's output leads, if it leads over a seam. -/
def bnSeam (r d : Nat) : Option Nat := (seamLink r d).map fun i => seamKey false i (d == 0 || d == 3)

/-- The direction in which a crossing leads. -/
def seamDir (k : Nat) : Nat := if k / 2 % 336 < 144 then (if k % 2 == 0 then 1 else 3) else (if k % 2 == 0 then 2 else 0)

/-- The flits of a VC that are on their way over a crossing. -/
def State.crossing (s : State) (k v : Nat) : Nat :=
  let m := s.seam k
  (((m.entries.map (·.2.1)) ++ m.held.map (·.1)).filter fun id => (s.net.packet id).any fun p => vcOf p.hdr.kind == v).length

/-- R260: a router's input has room for a flit of a VC; flits on their way over a seam have taken their credit. -/
def State.hasRoom (s : State) (r port v : Nat) (seam : Option Nat) : Bool :=
  (s.net.buf (vcKey r port v)).flits.length + (match seam with | some k => s.crossing k v | none => 0) < 16

/-- A flit reaches an input of a router; the entry that a header finds in force there is that of its whole packet (R263). -/
def State.arriveFlit (s : State) (r port : Nat) (f : Nat × Nat) : State :=
  match s.net.packet f.1 with
  | none => s
  | some p =>
    let k := vcKey r port (vcOf p.hdr.kind)
    let b := s.net.buf k
    let s := s.setBuf k { b with flits := b.flits ++ [f], since := if b.flits.isEmpty then s.time else b.since }
    if f.2 == 0 then s.setPacket { p with router := r, entry := s.routeEntry r p.target } else s

/-- The interface or the edge of a router gives a VC's input the next flits of the packets that wait there, in their order, as far as there is
room. -/
def State.fillInput (s : State) (r port v : Nat) : Nat → State
  | 0 => s
  | n + 1 =>
    match s.net.packets.find? fun p => p.source == r * 8 + port && vcOf p.hdr.kind == v && p.sent < p.flits with
    | none => s
    | some p =>
      if s.hasRoom r port v none then
        ((s.setPacket { p with sent := p.sent + 1 }).arriveFlit r port (p.id, p.sent)).fillInput r port v n
      else s

/-- R329: an input takes flits from its interface and its edge while the router's clock runs. -/
def State.fillInputs (s : State) (r : Nat) : State :=
  [ifaceIn, edgeIn].foldl (fun s i => [0, 1, 2, 3].foldl (fun s v => s.fillInput r i v 16) s) s

/-- The first flit of an input leaves it. -/
def State.takeFlit (s : State) (k : Nat) : State :=
  let fs := (s.net.buf k).flits.drop 1
  s.setBuf k (if fs.isEmpty then InBuf.empty else { flits := fs, since := s.time, reported := false })

/-! ### Outputs (R260) -/

/-- The outputs of a router: 0 N, 1 E, 2 S, 3 W, 4 the interface, 5 the edge, and 6 for the packets that it answers UNREACH. -/
def Packet.wants (p : Packet) (o : Nat) : Bool := if o == 6 then 6 ≤ p.entry else p.entry == o

/-- The first flit of an input, with its packet. -/
def State.frontOf (s : State) (r i v : Nat) : Option (Packet × Nat) :=
  match (s.net.buf (vcKey r i v)).flits with
  | f :: _ => (s.net.packet f.1).map fun p => (p, f.2)
  | [] => none

/-- R260: the flit that a VC of an output sends next, with its input: the packet that holds it goes on, else the inputs are served
round-robin. -/
def State.nextFlit (s : State) (r o v : Nat) : Option (Nat × Packet × Nat) :=
  match Map.get (fun _ => none) s.net.holds (vcKey r o v) with
  | some h => ((s.frontOf r h.2 v).filter fun f => f.1.id == h.1).map fun f => (h.2, f)
  | none =>
    let last := Map.get (fun _ => 5) s.net.lastIn (vcKey r o v)
    ((List.range 6).map fun k => (last + 1 + k) % 6).findSome? fun i =>
      ((s.frontOf r i v).filter fun f => f.2 == 0 && f.1.wants o).map fun f => (i, f)

/-- R275: the next router in a direction, where one carries traffic. -/
def State.nextRouter (s : State) (r d : Nat) : Option Nat := (neighbour r d).filter fun n => s.wingUp (wingOf n)

/-- The port whose queue an edge serves, if the packet leaves the device there. -/
def Packet.leaves (p : Packet) : Option Nat :=
  match targetAttach p.target with
  | some k => if k < 32 && p.back != some k then some k else none
  | none => none

/-- R260, R293: the place to which an output leads can take a flit: a router input with a credit, an interface or edge that holds no other
packet of the VC, a port that has no packet of the VC left. -/
def State.canSend (s : State) (r o v : Nat) (p : Packet) (flit : Nat) : Bool :=
  if o < 4 then
    match s.nextRouter r o with
    | some n =>
      let seam := bnSeam r o
      s.hasRoom n ((o + 2) % 4) v seam && (match seam with
        | some k => !((s.seam k).entries.any fun e => e.1 == (s.wing (wingOf r)).pulses)
        | none => true)
    | none => true
  else if o == 6 || 0 < flit then true
  else
    !(s.net.packets.any fun q => q.stage != 0 && q.router == r && vcOf q.hdr.kind == v) &&
      (match p.leaves with
       | some k => !(s.net.portOut.any fun e => e.1 == k && vcOf e.2.hdr.kind == v)
       | none => true)

/-- R260: the flits that an output sends in one cycle: one, or four on a link with an MI tile at one end. -/
def outRate (r o : Nat) : Nat := if kindOf r = .mi || (neighbour r o).any fun n => kindOf n = .mi then 4 else 1

/-- An output has sent a flit of a VC. -/
def OutTurn.next (t : OutTurn) (v pulse : Nat) : OutTurn :=
  { vc := v, pulse := pulse, sent := if t.pulse == pulse then t.sent + 1 else 1 }

/-- R260: the VC from which an output sends next, with its flit: round-robin over those that have a flit and a credit. -/
def State.outputTurn (s : State) (r o : Nat) : Option (Nat × Nat × Packet × Nat) :=
  let last := Map.get (fun _ => OutTurn.start) s.net.turns (r * 8 + o)
  if last.pulse == (s.wing (wingOf r)).pulses && outRate r o ≤ last.sent then none
  else ((List.range 4).map fun k => (last.vc + 1 + k) % 4).findSome? fun v =>
    ((s.nextFlit r o v).filter fun f => s.canSend r o v f.2.1 f.2.2).map fun f => (v, f)

/-- A flit reaches the interface or the edge of a router; the last one of a packet that leaves by a port hands it to the port. -/
def State.arriveOut (s : State) (r : Nat) (p : Packet) (flit : Nat) : State :=
  let p := if flit == 0 then { p with stage := 1, since := s.time, reported := false } else p
  let q := { p with got := p.got + 1 }
  match p.leaves with
  | some k =>
    if !s.portUp k then (s.remove p).unreach p r
    else if q.got == q.flits then (s.remove p).modNet fun n => { n with portOut := n.portOut ++ [(k, { q with since := s.time })] }
    else s.setPacket q
  | none =>
    let s := s.setPacket q
    if flit == 0 && p.target < 3072 then s.traceEvent r 0 2 (2 ^ 12 * p.hdr.kind + srcTile p.hdr.src) else s

/-- R260, R263, R275, R331: an output sends a flit: to the next router, over a seam where one lies between, to the interface, to the edge; or
the packet is answered UNREACH. -/
def State.sendFlit (s : State) (r o v i : Nat) (p : Packet) (flit : Nat) : State :=
  let hold := if flit + 1 == p.flits then none else some (p.id, i)
  let s := (s.takeFlit (vcKey r i v)).modNet fun n =>
    { n with holds := Map.set (fun _ => none) n.holds (vcKey r o v) hold, lastIn := Map.set (fun _ => 5) n.lastIn (vcKey r o v) i,
             turns := Map.modify (fun _ => OutTurn.start) n.turns (r * 8 + o) fun t => t.next v (s.wing (wingOf r)).pulses }
  if o < 4 then
    match s.nextRouter r o with
    | some n =>
      match bnSeam r o with
      | some k => s.modSeam k fun m => { m with entries := m.entries ++ [((s.wing (wingOf r)).pulses, p.id, flit)] }
      | none => s.arriveFlit n ((o + 2) % 4) (p.id, flit)
    | none => (s.remove p).unreach p r
  else if o == 6 then (s.remove p).unreach p r
  else s.arriveOut r p flit

/-! ### Flit errors (R295) -/

/-- A single-bit error in a flit at a router input is corrected and counted. -/
def State.flitCorrected (s : State) (t : Nat) : State := s.tbump t R.NET_FLIT_CORR 1

/-- An uncorrectable flit error found at site t, in the header or the payload of a packet. -/
def State.flitUncorr (s : State) (p : Packet) (t port : Nat) (header : Bool) : State :=
  let s := (s.tbump t R.NET_FLIT_UNCORR 1).setTbit t R.NET_STATUS 1 true
  if header then (s.remove p).fault 0x16 (s.sourceOf t 0) none (le 1 0 ++ le 1 port ++ le 1 (vcOf p.hdr.kind) ++ le 1 1)
  else (s.setPacket { p with bad := true }).uncorrectable (s.sourceOf t 0) (s.partOf (srcTile p.hdr.src)) 0x16
    (le 1 0 ++ le 1 port ++ le 1 (vcOf p.hdr.kind) ++ le 1 0)

/-- The router's clock runs and its pulse is not skipped (R329, R331). -/
def State.routerRuns (s : State) (r : Nat) : Bool :=
  s.wingUp (wingOf r) && s.wingRuns (wingOf r) && !skipsPulse (s.routerLevel (wingOf r)) (s.wing (wingOf r)).cycle

/-- An output of a router sends the flit whose turn it is. `flit` says what that flit shows at its input: 0 nothing, 1 a corrected error, else
an uncorrectable one. -/
def State.outputSends (s : State) (r o flit : Nat) : State :=
  match s.outputTurn r o with
  | none => s
  | some (v, i, p, k) =>
    match flit with
    | 0 => s.sendFlit r o v i p k
    | 1 => (s.flitCorrected r).sendFlit r o v i p k
    | _ => if k == 0 then s.flitUncorr p r i true else (s.flitUncorr p r i false).sendFlit r o v i { p with bad := true } k

/-- ROUTER_HOP (R260, R263, R295): an output of a router sends one flit. -/
def execRouterHop (router out flit : Nat) (s : State) : Result :=
  s.when (router < 3072 && out < 7 && s.routerRuns router) ((s.fillInputs router).outputSends router out flit)

/-! ### Seam crossings (R331) -/

/-- R331: a pulse of the receiving wing's clock reads a crossing: what the read pointer has come to goes to the router, behind what was held;
the router takes one flit in a pulse that is not skipped. -/
def State.readSeam (s : State) (k : Nat) : State :=
  let m := s.seam k
  let t := (seamEnds k).2
  let x := s.wing (wingOf t)
  let due (e : Nat × Nat × Nat) : Bool := (e.1 : Int) + m.off ≤ x.pulses
  let queue := m.held ++ (m.entries.filter due).map (·.2)
  let s := s.modSeam k fun m => { m with entries := m.entries.filter fun e => !due e }
  if skipsPulse (s.routerLevel (wingOf t)) x.cycle then s.modSeam k fun m => { m with held := queue }
  else match queue with
    | f :: rest => (s.modSeam k fun m => { m with held := rest }).arriveFlit t ((seamDir k + 2) % 4) f
    | [] => s

/-- The crossings that lead into a wing and hold a flit. -/
def State.seamsInto (s : State) (w : Nat) : List Nat :=
  (s.net.seams.filter fun e => wingOf (seamEnds e.1).2 == w && !(e.2.entries.isEmpty && e.2.held.isEmpty)).map (·.1)

/-! ### Stalls (R294) -/

/-- NET_STALL_LIMIT of a site is exceeded by a wait since a count. -/
def State.stalled (s : State) (t since : Nat) : Bool :=
  let limit := (s.treg t R.NET_STALL_LIMIT).toNat
  limit != 0 && limit < s.time - since

/-- Report a stall at a site: port and VC. -/
def State.netStall (s : State) (t port vc : Nat) : State :=
  let s := (s.setTbit t R.NET_STATUS 0 true).setTreg t R.NET_STALL_WHERE (BitVec.ofNat 32 (port * 64 + vc * 16))
  s.fault 0x04 (s.sourceOf t 0) none (le 4 (port * 64 + vc * 16))

/-- A packet waits at the interface (port 4) or the edge (port 5) of a router, and is not reported. -/
def Packet.waitsAt (p : Packet) (t port vc : Nat) : Bool :=
  p.router == t && vcOf p.hdr.kind == vc && !p.reported && p.stage != 0 && (port == if p.target < 3072 then 4 else 5)

/-- R294: a head flit at a router input, or a packet at an interface or an edge, has waited beyond the limit: it is reported once. -/
def State.packetStall (s : State) (t port vc : Nat) : Option State :=
  let k := vcKey t port vc
  let b := s.net.buf k
  if !b.flits.isEmpty && !b.reported && s.stalled t b.since then some (s.setBuf k { b with reported := true })
  else match s.net.packets.find? fun p => p.waitsAt t port vc && s.stalled t p.since with
    | some p => some (s.setPacket { p with reported := true })
    | none =>
      match s.net.portOut.find? fun e => e.2.waitsAt t port vc && s.stalled t e.2.since with
      | some e => some (s.modNet fun n => { n with portOut := n.portOut.map fun f => if f == e then (f.1, { f.2 with reported := true }) else f })
      | none => none

/-- R294: a sync arrival of a site that has waited beyond its limit and is not reported: its context. -/
def State.syncStall (s : State) (t : Nat) : Option Nat :=
  (s.net.sn.find? fun c => (c.2.arrived.any fun a => a.1 == t && s.stalled t a.2) && !(s.site t).stalls.contains (6, c.1)).map (·.1)

/-- NET_STALL (R294): a head that has not advanced, or a sync arrival (port 6), has waited beyond the limit of the site. -/
def execNetStall (t port vc : Nat) (s : State) : Result :=
  if port == 6 then
    match s.syncStall t with
    | some c => .next ((s.netStall t 6 0).modSite t fun x => { x with stalls := x.stalls ++ [(6, c)] })
    | none => .next s
  else match s.packetStall t port vc with
    | some u => .next (u.netStall t port vc)
    | none => .next s

end Sys2Proof.Machine
end

