-- ==== Sys2Proof/Machine/Tile.lean ====
section
/-! DEFINITION. One tile clock cycle of a site (R46, R136-R142, R187, R220-R223): completed vitrine accesses reach their users, then the
engines, the array and the drain do their part; and one count of TIME (R331, R341, R352). -/

namespace Sys2Proof.Machine

/-! ### What a completed access delivers -/

/-- The bytes that an access delivers, by vitrine offset. -/
def VitFly.bytes (f : VitFly) : List (Nat × BitVec 8) :=
  (f.req.cells.zip f.data).flatMap fun e => ((List.range 4).map (· + 4 * e.1)).zip (bytesOfWord e.2)

/-- The mark in a core access's data that some piece of it was answered CLOSED. -/
def closedMark : Nat := 2 ^ 40

/-- A piece of a core's own vitrine access is complete; the last one is its response. -/
def State.accessPiece (s : State) (t id : Nat) (status : Nat) (words : List (Nat × BitVec 32)) : State :=
  s.modCore t 0 fun k => { k with accesses := k.accesses.map fun a =>
    if a.id != id then a else
    let got := a.got ++ (words.map fun e => (e.1, [e.2])) ++ (if status == 0 then [] else [(closedMark, [])])
    let a := { a with got := got, pieces := a.pieces - 1 }
    if a.pieces == 0 then { a with arrived := some (if got.any fun e => e.1 == closedMark then 2 else 0, 0) } else a }

/-- R217: an engine's vitrine access met a closed segment. -/
def State.engineClosed (s : State) (t status : Nat) (i : Option EngInstr) : State :=
  match i with
  | some i => s.reportStatus t i.core 3 i.pc status
  | none => s

/-- The issued instruction with a number. -/
def Site.instrOf (x : Site) (id : Nat) : Option EngInstr :=
  ((x.fetchOn ++ x.computeOn ++ x.drainOn).find? fun o => o.id == id).map (·.instr)

/-- The matrix instruction of a pass. -/
def Site.passInstr (x : Site) (pass : Nat) : Option EngInstr :=
  (x.arr.passes.find? fun p => p.id == pass).bind fun p => x.instrOf p.mm.id

/-- R213, R221: the division of lanes into scattered accesses; a VGATHER's lanes of one cell share its read. -/
def scatterSplit (gather : Bool) : Nat → List (Nat × Nat) → List (List (Nat × Nat))
  | 0, _ => []
  | fuel + 1, pending =>
    match pending with
    | [] => []
    | first :: rest =>
      let seg := cellSeg first.2
      let go := rest.foldl (fun (acc : List (Nat × Nat) × List (Nat × Nat)) l =>
        let used := acc.1.map (·.2)
        if cellSeg l.2 == seg && ((gather && used.contains l.2) || !((used.map cellBank).contains (cellBank l.2))) then
          (acc.1 ++ [l], acc.2)
        else (acc.1, acc.2 ++ [l])) ([first], [])
      go.1 :: scatterSplit gather fuel go.2

/-- The lane value that a scattering instruction captured. -/
def MemAcc.laneValue (a : MemAcc) (lane : Nat) : BitVec 32 := wordOfBytes ((a.data.drop (4 * lane)).take 4)

/-- R222: the data of a VSCATTER.ADD access arrived: the sums are formed under R102 and their write is presented on port 2. -/
def State.addWrite (s : State) (t id piece : Nat) (f : VitFly) : State :=
  match (s.core t 0).accesses.find? fun a => a.id == id with
  | none => s
  | some a =>
    if f.status != 0 then s.accessPiece t id f.status [] else
    let lanes := (scatterSplit false 65 a.lanes).getD piece []
    let data := (f.req.cells.zip f.data).flatMap fun e =>
      match lanes.find? fun l => l.2 == e.1 with
      | some l => ((List.range 4).map (· + 4 * e.1)).zip (bytesOfWord (Num.fadd e.2 (a.laneValue l.1)))
      | none => []
    s.present t (writeReq 2 (.addWrite id piece) data)

/-- What a completed access delivers to its user. -/
def State.deliver (s : State) (t : Nat) (f : VitFly) : State :=
  let bytes := f.bytes
  let x := s.site t
  match f.req.user with
  | .stream p c _ => (s.engineClosed t f.status (x.passInstr p)).modArr t fun a => { a with feeder := arrive a.feeder p c bytes }
  | .scale p _ => (s.engineClosed t f.status (x.passInstr p)).modArr t fun a =>
      { a with scaleBytes := a.scaleBytes ++ bytes.map fun b => (p, b.1, b.2) }
  | .row p j _ => (s.engineClosed t f.status (x.passInstr p)).modArr t fun a => { a with staging := arrive a.staging p j bytes }
  | .drainRead op _ => (s.engineClosed t f.status (x.instrOf op)).drainArrive t op bytes
  | .codebook id => (s.engineClosed t f.status (x.instrOf id)).modSite t fun x => { x with bookLoads := x.bookLoads.map fun e =>
      if e.1 == id then (e.1, e.2.1, e.2.2.1, f.data) else e }
  | .drainWrite op => (s.engineClosed t f.status (x.instrOf op)).modSite t fun x => { x with drains := x.drains.map fun o =>
      if o.id == op then { o with writes := o.writes - 1 } else o }
  | .drainTail op => (s.engineClosed t f.status (x.instrOf op)).modSite t fun x => { x with drains := x.drains.map fun o =>
      if o.id == op then { o with writes := o.writes - 1 } else o }
  | .core id _ => s.accessPiece t id f.status (f.req.cells.zip f.data)
  | .vector id _ => s.accessPiece t id f.status (f.req.cells.zip f.data)
  | .gather id _ => s.accessPiece t id f.status (f.req.cells.zip f.data)
  | .scatter id _ => s.accessPiece t id f.status []
  | .addRead id piece => s.addWrite t id piece f
  | .addWrite id _ => s.accessPiece t id f.status []
  | .fetch id row => (s.engineClosed t f.status (x.instrOf id)).fetchArrive t id row f.req.write bytes
  | .bn id _ =>
    match s.net.serves.find? fun v => v.id == id with
    | none => s
    | some v =>
      let o := v.pkt.hdr.addr % 2 ^ 22
      let data := if v.entry.isSome then [] else
        (bytes.filter fun b => o ≤ b.1).map fun b => (b.1 - o, b.2)
      s.servePart id f.status data

/-- R139: the accesses of a site that complete by this tile cycle reach their users. -/
def State.deliverDue (s : State) (t : Nat) : State :=
  let x := s.site t
  let due := x.fly.filter fun f => f.done ≤ x.cycle
  let s := s.modSite t fun x => { x with fly := x.fly.filter fun f => !(f.done ≤ x.cycle) }
  due.foldl (fun s f => s.deliver t f) s

/-- The oldest access of a site that is due and that a predicate names. -/
def Site.dueFly (x : Site) (p : VitFly → Bool) : Option VitFly := x.fly.find? fun f => f.done ≤ x.cycle && p f

/-- An access is taken from the pipeline and delivered. -/
def State.deliverOne (s : State) (t : Nat) (f : VitFly) : State :=
  (s.modSite t fun x => { x with fly := x.fly.erase f }).deliver t f

/-- VIT_ACCESS_COMPLETE (R139, R142, R146): six cycles after its acceptance, the oldest access completes and reaches its user. -/
def execVitAccessComplete (t : Nat) (s : State) : Result :=
  match (s.site t).dueFly fun _ => true with
  | some f => .next (s.deliverOne t f)
  | none => .next s

/-- R222: the access reads for a VSCATTER.ADD, whose summed write follows. -/
def VitFly.addsUp (f : VitFly) : Bool :=
  match f.req.user with
  | .addRead .. => true
  | _ => false

/-- VSCATTER_ADD_WRITE (R222): the read data of a VSCATTER.ADD access arrives and its summed write is presented. -/
def execVscatterAddWrite (t : Nat) (s : State) : Result :=
  match (s.site t).dueFly VitFly.addsUp with
  | some f => .next (s.deliverOne t f)
  | none => .next s

/-! ### A tile cycle -/

/-- One tile cycle of an M- or V-tile: a drain reads the accumulators as they stand before the cycle's commits (R113). -/
def State.tileCycle (s : State) (t : Nat) : State :=
  let s := (((s.deliverDue t).segTick t).engineTick t).fetchTick t
  let before := s.site t
  let s := (((s.arrayTick t).feederRead t).loaderRead t).arbitrate t
  let s := (((s.drainTick before t).drainFinish t).trackWaits t).settleSite t
  (s.modSite t Site.nextCycle).segReopen t

/-- One tile cycle of any site. -/
def State.siteCycle (s : State) (t : Nat) : State :=
  match kindOf t with
  | .m => s.tileCycle t
  | .v => s.tileCycle t
  | .s => ((s.trackWaits t).settleSite t).modSite t Site.nextCycle
  | .mi => s.modSite t Site.nextCycle

/-- R17: a tile that belongs to no partition is clock-gated; its vitrine port still finishes what the network asks of it (log entry 80). -/
def State.clocked (s : State) (t : Nat) : Bool :=
  let x := s.site t
  (s.partOf t).isSome || !x.reqs.isEmpty || !x.fly.isEmpty || !x.writebacks.isEmpty || !x.segEnd.isEmpty

/-- R17, R331, R341, R352: one pulse position of a wing's clock: the crossings into it are read, and its clocked sites take the cycle unless
their level skips it. -/
def State.wingCycle (s : State) (w : Nat) : State :=
  let i := (s.wing w).cycle
  let s := (s.seamsInto w).foldl (fun s k => s.readSeam k) s
  let s := (s.sites.map (·.1)).foldl (fun s t =>
    if wingOf t == w && s.live t && s.clocked t && !skipsPulse (s.tileLevel t) i then s.siteCycle t else s) s
  s.modWing w fun x => { x with cycle := x.cycle + 1, pulses := x.pulses + 1 }

/-- R327, R341: a wing's clock runs at 30 - p tenths of two pulses a count at operating point p. -/
def State.wingTick (s : State) (w : Nat) : State :=
  if !s.wingRuns w then s else
  let n := (s.wing w).phase + (30 - s.point)
  let s := s.modWing w fun x => { x with phase := n % 20 }
  (List.range (n / 20)).foldl (fun s _ => s.wingCycle w) s

/-- One count of TIME passes (log entry 4): the wing clocks advance, then TIME counts once it runs (R331). -/
def State.tick (s : State) : State :=
  let s := allWings.foldl (fun s w => s.wingTick w) s
  if s.timeRunning then { s with time := (s.time + 1) % 2 ^ 64, tim := { s.tim with cycles := s.tim.cycles + 1 } } else s

end Sys2Proof.Machine
end

