-- ==== Sys2Proof/Machine/Issue.lean ====
section
/-! DEFINITION. How a core issues an instruction: the fetch and its exceptions (R154, R166, R178, R179, R229, R230), the guard
(R156), waiting for outstanding accesses (R177), taking an exception and returning from one (R180, R183), and the one operation through
which every instruction of a core goes. -/

namespace Sys2Proof.Machine

/-! ### Registers -/

/-- R150: s and p registers as an instruction reads and writes them. -/
def Core.pred (k : Core) (i : Nat) : Bool := i % 8 == 0 || k.p.getLsbD (i % 8)
def Core.setPred (k : Core) (i : Nat) (b : Bool) : Core :=
  if i % 8 == 0 then k else { k with p := if b then k.p ||| (1 <<< (i % 8)) else k.p &&& ~~~((1 : BitVec 8) <<< (i % 8)) }

/-- Set an s register of a core. -/
def State.setS (s : State) (t c r : Nat) (v : BitVec 64) : State := s.modCore t c fun k => k.setS r v

/-! ### Exceptions (R178-R180, R183) -/

/-- R183: take a trap: kind 0 an exception, 1 an interrupt. -/
def State.trap (s : State) (t c kind code pc val : Nat) : State :=
  s.modCore t c fun k =>
    let sup := k.supervisor
    let ien := (k.svReg 0).getLsbD 0
    let off := (if kind == 0 then 0 else 0x200) + if sup then 0x100 else 0
    let saved := BitVec.ofNat 64 (sup.toNat * 2 + ien.toNat)
    let base := (k.svReg 2).toNat / 4096 * 4096
    let k := k.setSv 3 (BitVec.ofNat 64 (pc / 4 * 4))
    let k := (k.setSv 4 (BitVec.ofNat 64 (kind * 256 + code))).setSv 5 (BitVec.ofNat 64 val)
    let k := (k.setSv 1 saved).setSv 0 2
    { k with pc := base + off, atVector := true }

/-- R180: the core is ENDING until outstanding work completes, and then FAULTED with this exception. -/
def State.toFault (s : State) (t c cause pc val : Nat) : State :=
  (s.setCoreState t c 3).modCore t c fun k =>
    let r : ExcRec := { cause := cause, pc := pc, val := val, core := c, seq := k.nextAccess }
    { k with exc := some r, wait := 0, timeout := none }

/-- R180, R183: an exception of the instruction at pc: a scalar core traps, unless it stands at a vector entry; every other core goes
FAULTED. -/
def State.takeException (s : State) (t c cause pc val : Nat) : State :=
  if kindOf t = .s && !(s.core t c).atVector then s.trap t c 0 cause pc val else s.toFault t c cause pc val

/-- R183: TRET. -/
def State.trapReturn (s : State) (t c : Nat) : State :=
  s.modCore t c fun k =>
    let saved := k.svReg 1
    { (k.setSv 0 (saved &&& 3)) with pc := (k.svReg 3).toNat / 4 * 4 }

/-! ### Fetch -/

/-- A line through the L1I (R227, R229): its status and bytes, or none while it is on its way. -/
def State.codeLine (s : State) (t c pa : Nat) : Option (Nat × BitVec 512) × State :=
  let a := pa / 64 * 64
  match findLine (s.core t c).cache.l1i a with
  | some l => (some (0, l.data), s.modCore t c fun k => { k with cache := { k.cache with l1i := l :: dropLine k.cache.l1i a } })
  | none =>
    let r := (s.syncLine t a).l2Line t c a
    match r.1 with
    | none => (none, r.2)
    | some (st, v) =>
      if st != 0 || !r.2.l2Holds t a then (some (st, v), r.2) else
      let s := r.2.modCore t c fun k => { k with cache := { k.cache with l1i := { addr := a, data := v, dirty := false } :: k.cache.l1i } }
      match victim (s.core t c).cache.l1i l1Set (l1Set a) 4 with
      | none => (some (0, v), s)
      | some l => (some (0, v), s.modCore t c fun k => { k with cache := { k.cache with l1i := dropLine k.cache.l1i l.addr } })

/-- What a fetch gives; `wait` while the word is on its way. -/
inductive FetchRes where
  | word (w : Nat) (s : State)
  | exc (cause val : Nat) (s : State)
  | wait (s : State)
  | other

/-- R228: the block of 16 B at b is asked for over the BN. The fetch keeps the block before it, so that an instruction may span the two (log
entry 96). -/
def State.askFetch (s : State) (t c b : Nat) : State :=
  let h : Hdr := { Hdr.blank with dev := s.deviceId, kind := 8, len := 16, src := s.sourceOf t c, addr := b }
  let keep (l : List (Nat × Option (Nat × List (BitVec 8)))) :=
    l.filter (·.2.isNone) ++ (l.filter (·.2.isSome)).getLast?.toList ++ [(b, none)]
  (s.modCore t c fun k => { k with fetchBuf := keep k.fetchBuf }).post t (.core t c) h [] (.fetch t c b)

/-- R173, R228, R232: a word of an uncached address, at virtual address va, or none while its block is on its way. A block of a CSR range is an
access of another size than a word (R5), and one of the own window lies beyond the local memory. -/
def State.uncachedWord (s : State) (t c va pa : Nat) : Option Nat × State :=
  let b := pa / 16 * 16
  match (s.core t c).fetchBuf.find? fun e => e.1 == b with
  | some (_, some (st, l)) => (some (if st == 0 then leNat ((l.drop (pa % 16)).take 4) else 0), s.reportStatus t c 0 va st)
  | some (_, none) => (none, s)
  | none =>
    let csr (reached : Bool) : Option Nat × State :=
      (some 0, if reached then s.csrAccess (.core t c) b 16 false else s.reportStatus t c 0 va 3)
    match s.place pa with
    | .tileCsr u _ => csr (s.siteReached (.core t c) u && s.addressable (.core t c) u)
    | .devCsr _ => csr (!s.cur.restarting)
    | .window u _ => if u == t then (some 0, s.reportStatus t c 0 va 2) else (none, s.askFetch t c b)
    | .nowhere => (some 0, s.reportStatus t c 0 va 3)
    | _ => (none, s.askFetch t c b)

/-- R227-R230: one word of a cacheable address: `ecc` says that the L2's word is uncorrectable, `parity` that the L1I's has a parity
error. -/
def State.cachedWord (s : State) (t c va pa : Nat) (ecc parity : Bool) : FetchRes :=
  let a := pa / 64 * 64
  let held := (findLine (s.core t c).cache.l1i a).isSome
  let s := if parity && held then
      (s.modCore t c fun k => { k with cache := { k.cache with l1i := dropLine k.cache.l1i a } }).tbump t R.S_CACHE_ECC_CORR 1
    else s
  let hit := held && !parity
  let s := if ecc && !hit then s.cacheErrors t c a [] [pa / 8] else s
  if !hit && s.wordBad t (pa / 8) then .exc 5 va s
  else
    let r := s.codeLine t c pa
    match r.1 with
    | none => .wait r.2
    | some (st, v) =>
      .word (if st == 0 then leNat ((List.range 4).map fun i => byte512 v (pa % 64 + i)) else 0) (r.2.reportStatus t c 0 va st)

/-- One word at virtual address va of a scalar core. -/
def State.fetchScalar (s : State) (t c va : Nat) (ecc parity : Bool) : FetchRes :=
  let x := s.translate t c va 0
  let s := x.2
  match x.1 with
  | .fault cause => .exc cause va s
  | .wait => .wait s
  | .ok pa cache =>
    if !(s.mayReach (.core t c) pa false) then .word 0 (s.violation (.core t c) pa 8 t)
    else
      let cached := match s.place pa with
        | .dram _ _ => cache && s.localWays t < 16
        | .lost => cache && s.localWays t < 16
        | .window u _ => u == t && (s.localOff t pa).isSome
        | _ => false
      if cached then s.cachedWord t c va pa ecc parity
      else
        let r := s.uncachedWord t c va pa
        match r.1 with
        | some w => .word w r.2
        | none => .wait r.2

/-- One word of the program store (R154, R166). -/
def State.fetchStore (s : State) (t pc : Nat) (ecc : Bool) : FetchRes :=
  if 0x20000 ≤ pc then .exc 4 pc s
  else if ecc then .exc 5 pc s
  else .word (Map.get (fun _ => 0) (s.site t).prog (pc / 4)).toNat s

/-- The instruction at the core's pc, in the order of R179. Where the words that stand there are not those that the command names, it is
`other`. -/
def State.fetch (s : State) (t c : Nat) (f : Fetched) : FetchRes :=
  let pc := (s.core t c).pc
  let eccAt (o : Nat) : Bool := match f with
    | .ecc k => k == o
    | _ => false
  let parityAt (o : Nat) : Bool := match f with
    | .refetched k _ => k == o
    | _ => false
  let one (s : State) (a o : Nat) : FetchRes :=
    if kindOf t = .s then s.fetchScalar t c a (eccAt o) (parityAt o) else s.fetchStore t a (eccAt o)
  if pc % 4 != 0 then .exc 3 pc s
  else match one s pc 0 with
    | .word lo s =>
      let whole (n : Nat) (s : State) : FetchRes := match f with
        | .word w => if w.toNat == n then .word n s else .other
        | .refetched _ w => if w.toNat == n then .word n s else .other
        | .ecc _ => .other
      if lo % 2 == 0 then whole lo s
      else match one s ((pc + 4) % 2 ^ 64) 4 with
        | .word hi s => whole (lo + 2 ^ 32 * hi) s
        | r => r
    | r => r

/-! ### Issue -/

/-- What an instruction does once it issues: the next instruction, a jump, a core that no longer runs on, or an exception; or it waits for a
table entry that its translation reads (R234). -/
inductive Ran where
  | next (s : State)
  | wait (s : State)
  | jump (s : State) (pc : Nat)
  | stay (s : State)
  | exc (s : State) (cause val : Nat)

/-- An instruction of a core: the words it covers, the registers it reads or writes (an s register by its number, a v register by
32 + its number), what else it waits for, and what it does. Its functions take the site, the core and the word. -/
structure CoreOp where
  accept : Nat → Bool
  touch : Nat → List Nat
  ready : State → Nat → Nat → Nat → Bool
  run : State → Nat → Nat → Nat → Ran

/-- R177: a register awaits the result of an outstanding access. -/
def Core.awaits (k : Core) (r : Nat) : Bool := r != 0 && k.accesses.any fun a => a.dest == r

/-- The site lets its cores run: it is live and clocked, and neither in a reset, a test, a swap nor a scrub. -/
def State.siteRuns (s : State) (t : Nat) : Bool :=
  s.live t && s.wingRuns (wingOf t) && !s.siteBusy t && !s.swappingSite t && !s.siteScrubbing t

/-- The core may issue its next instruction. -/
def State.mayIssue (s : State) (t c : Nat) : Bool :=
  let k := s.core t c
  c < (kindOf t).cores && s.siteRuns t && s.coreState t c == 1 && k.exc.isNone && k.engExc.isNone && k.issuable ≤ (s.site t).cycle &&
    !s.halting t c && !s.stepping t c && !s.irqDue t c

/-- R155: the pc after a word. -/
def nextPc (pc n : Nat) : Nat := (pc + insnBytes n) % 2 ^ 64

/-- An instruction whose word is fetched: illegal words raise ILLEGAL, a false guard passes over it, and otherwise it waits for what it
needs and then does its work. -/
def State.runWord (s : State) (t c : Nat) (op : CoreOp) (n : Nat) : Option State :=
  let k := s.core t c
  let pc := k.pc
  let go (s : State) (pc : Nat) : State := s.modCore t c fun k => { k with pc := pc, atVector := false }
  if illegal (kindOf t) n then some (s.takeException t c 1 pc (lowerOf n))
  else if !op.accept n then none
  else if !guardOk n k.p then some (go s (nextPc pc n))
  else if (op.touch n).any k.awaits || !op.ready s t c n then none
  else match op.run s t c n with
    | .next s => some (go s (nextPc pc n))
    | .wait _ => none
    | .jump s a => some (go s a)
    | .stay s => some (s.modCore t c fun k => { k with atVector := false })
    | .exc s cause val => some (s.takeException t c cause pc val)

/-- R234: an instruction that could issue but for a table entry asks for the entry. -/
def State.askWord (s : State) (t c : Nat) (op : CoreOp) (n : Nat) : Option State :=
  let k := s.core t c
  if illegal (kindOf t) n || !op.accept n || !guardOk n k.p || (op.touch n).any k.awaits || !op.ready s t c n then none
  else match op.run s t c n with
    | .wait u => some u
    | _ => none

/-- The instruction at the core's pc is fetched and issues as `op`; while its words or its translation are on their way they are asked for. The command has no effect while it may not, or where another
instruction stands there. -/
def State.issue (s : State) (t c : Nat) (f : Fetched) (op : CoreOp) : Result :=
  let s1 := s.settle t c
  if !s1.mayIssue t c then .next s else
  match s1.fetch t c f with
  | .other => .next s
  | .wait s2 => .next s2
  | .exc cause val s2 => .next ((s2.takeException t c cause (s1.core t c).pc val).stepIssued t c)
  | .word n s2 => match s2.runWord t c op n with
    | some s3 => .next (s3.stepIssued t c)
    | none => .next ((s2.askWord t c op n).getD s)

/-- An instruction that waits for nothing but its registers. -/
def always : State → Nat → Nat → Nat → Bool := fun _ _ _ _ => true

/-- R181: a supervisor instruction in user mode. -/
def State.userMode (s : State) (t c : Nat) : Bool := kindOf t = .s && !(s.core t c).supervisor

/-! ### FAULTED, STOPPED, interrupts -/

/-- No access of the core and no work of its engines is outstanding. -/
def State.workDone (s : State) (t c : Nat) : Bool := (s.core t c).accesses.isEmpty && (s.site t).enginesIdle

/-- R180: the exception that is recorded: a refusal of an engine is earlier in program order. -/
def Core.recorded (k : Core) : Option ExcRec :=
  match k.engExc with
  | some r => some r
  | none => k.exc

/-- CORE_FAULTED (R180): outstanding work is complete; the exception is recorded, the core is FAULTED, and the queues it reads close
where they are set to (R279). -/
def execCoreFaulted (t c : Nat) (s : State) : Result :=
  match (s.core t c).recorded with
  | none => .next s
  | some r =>
    let s' := s.setTreg t R.TILE_EXC_CAUSE (BitVec.ofNat 32 (r.core * 256 + r.cause))
    let s' := (s'.setTreg64 t R.TILE_EXC_PC_LO r.pc).setTreg64 t R.TILE_EXC_VAL_LO r.val
    let s' := ((s'.setCoreState t c 4).modCore t c fun k => { k with exc := none, engExc := none }).readerEnds t c
    s.when (s.coreState t c == 3 && s.workDone t c)
      (s'.fault 0x02 (s.sourceOf t c) (s.partOf t) (le 1 r.core ++ le 1 r.cause ++ le 8 r.pc ++ le 8 r.val))

/-- CORE_STOPPED (R153, R192): an ENDING core with nothing outstanding is STOPPED, and the queues it reads close where they are set to
(R279). -/
def execCoreStopped (t c : Nat) (s : State) : Result :=
  s.when (s.coreState t c == 3 && (s.core t c).recorded.isNone && s.workDone t c)
    ((s.setCoreState t c 0).readerEnds t c)

/-- INTERRUPT_TAKEN (R184): an enabled interrupt is taken at the instruction boundary. -/
def execInterruptTaken (t c : Nat) (s : State) : Result :=
  let s1 := s.settle t c
  let k := s1.core t c
  s.when (c < 4 && s1.siteRuns t && s1.irqDue t c && s1.coreState t c == 1 && !s1.halting t c && k.exc.isNone)
    (s1.trap t c 1 (irqCode (s1.irqEnabled t c)) k.pc 0)

/-- SV_TIMER_EXPIRY (R182): the core's TIME has reached SV_TIMER; the interrupt is pending, and an IDLE that waits for it ends. -/
def execSvTimerExpiry (t c : Nat) (s : State) : Result :=
  s.when (kindOf t = .s && c < 4 && (s.irqPend t c).getLsbD 0) (s.settle t c)

/-- WFE_TIMEOUT (R167): the core's TIME has reached the timeout of its WFE; it goes on after it. -/
def execWfeTimeout (t c : Nat) (s : State) : Result :=
  let k := s.core t c
  let s' := (s.setTbit t R.TILE_STATE (4 * c + 3) false).setCoreState t c 1
  s.when (s.coreState t c == 2 && k.wait == 1 && (match k.timeout with | some n => n ≤ s.siteTime t | none => false))
    (s'.modCore t c fun k => { k with wait := 0, timeout := none, pc := (k.pc + 4) % 2 ^ 64 })

end Sys2Proof.Machine
end

