-- ==== Sys2Proof/Machine/Scalar.lean ====
section
/-! DEFINITION. Scalar integer operations, predicates and branches (R160-R167): groups 0x00 to 0x14. -/

namespace Sys2Proof.Machine

/-- The value of an s register of a core. -/
def State.sreg (s : State) (t c r : Nat) : BitVec 64 := (s.core t c).getS r

/-- An instruction of a group that writes one s register from a function of the core. -/
def writesD (group : Nat) (value : Core → Nat → BitVec 64) : CoreOp :=
  { accept := fun n => insnGroup n == group, touch := fun n => [saOf n, sbOf n, dOf n], ready := always,
    run := fun s t c n => .next (s.setS t c (dOf n) (value (s.core t c) n)) }

/-- Signed minimum and maximum. -/
def smin (a b : BitVec 64) : BitVec 64 := if a.toInt ≤ b.toInt then a else b
def smax (a b : BitVec 64) : BitVec 64 := if a.toInt ≤ b.toInt then b else a

/-- The low 32 bits, sign-extended. -/
def sextw (v : BitVec 64) : BitVec 64 := (v.extractLsb' 0 32).signExtend 64

/-- R160: the function of group 0x00. -/
def alu (fn : Nat) (a b : BitVec 64) : BitVec 64 :=
  match fn with
  | 1 => a + b
  | 2 => a - b
  | 3 => a &&& b
  | 4 => a ||| b
  | 5 => a ^^^ b
  | 6 => a &&& ~~~b
  | 7 => a <<< (b.toNat % 64)
  | 8 => a >>> (b.toNat % 64)
  | 9 => a.sshiftRight (b.toNat % 64)
  | 10 => smin a b
  | 11 => smax a b
  | 12 => if a.toNat ≤ b.toNat then a else b
  | 13 => if a.toNat ≤ b.toNat then b else a
  | 14 => if a.toInt < b.toInt then 1 else 0
  | 15 => if a.toNat < b.toNat then 1 else 0
  | 16 => sextw (a + b)
  | _ => sextw (a - b)

def aluOp : CoreOp := writesD 0x00 fun k n => alu (fnOf n) (k.getS (saOf n)) (k.getS (sbOf n))

/-- ALU_REGISTER_OP (R160). -/
def execAluRegisterOp (t c : Nat) (f : Fetched) (s : State) : Result := s.issue t c f aluOp

/-- R159, R161: the immediate of groups 0x01 to 0x04. -/
def immOf (n : Nat) : BitVec 64 := if insnLong n then sext 32 (upperOf n) else sext 11 (fieldOf n 31 21)

/-- R161: the function of groups 0x01 to 0x07. -/
def aluImm (group : Nat) (a imm : BitVec 64) : BitVec 64 :=
  match group with
  | 1 => a + imm
  | 2 => a &&& imm
  | 3 => a ||| imm
  | 4 => a ^^^ imm
  | 5 => a <<< (imm.toNat % 64)
  | 6 => a >>> (imm.toNat % 64)
  | _ => a.sshiftRight (imm.toNat % 64)

def immOp : CoreOp :=
  { accept := fun n => 0x01 ≤ insnGroup n && insnGroup n ≤ 0x07, touch := fun n => [saOf n, dOf n], ready := always,
    run := fun s t c n => .next (s.setS t c (dOf n) (aluImm (insnGroup n) (s.sreg t c (saOf n)) (immOf n))) }

/-- IMMEDIATE_OP (R161). -/
def execImmediateOp (t c : Nat) (f : Fetched) (s : State) : Result := s.issue t c f immOp

/-- R161: the constant of group 0x08. -/
def liValue (n : Nat) (a : BitVec 64) : BitVec 64 :=
  if !insnLong n then sext 16 (fieldOf n 31 16)
  else match fieldOf n 31 21 with
    | 0 => sext 32 (upperOf n)
    | 1 => BitVec.ofNat 64 (upperOf n)
    | _ => BitVec.ofNat 64 (2 ^ 32 * upperOf n + a.toNat % 2 ^ 32)

def liOp : CoreOp :=
  { accept := fun n => insnGroup n == 0x08, touch := fun n => if insnLong n then [saOf n, dOf n] else [dOf n], ready := always,
    run := fun s t c n => .next (s.setS t c (dOf n) (liValue n (s.sreg t c (saOf n)))) }

/-- LI (R161). -/
def execLi (t c : Nat) (f : Fetched) (s : State) : Result := s.issue t c f liOp

/-- R162: the function of group 0x09. -/
def mulDiv (fn : Nat) (a b : BitVec 64) : BitVec 64 :=
  match fn with
  | 0 => a * b
  | 1 => BitVec.ofInt 64 (a.toInt * b.toInt / 2 ^ 64)
  | 2 => BitVec.ofNat 64 (a.toNat * b.toNat / 2 ^ 64)
  | 3 => sextw (a * b)
  | 4 => if b = 0 then BitVec.allOnes 64 else BitVec.ofInt 64 (a.toInt.tdiv b.toInt)
  | 5 => if b = 0 then BitVec.allOnes 64 else BitVec.ofNat 64 (a.toNat / b.toNat)
  | 6 => if b = 0 then a else BitVec.ofInt 64 (a.toInt.tmod b.toInt)
  | _ => if b = 0 then a else BitVec.ofNat 64 (a.toNat % b.toNat)

def mulDivOp : CoreOp := writesD 0x09 fun k n => mulDiv (fnOf n) (k.getS (saOf n)) (k.getS (sbOf n))

/-- MUL_DIV (R162). -/
def execMulDiv (t c : Nat) (f : Fetched) (s : State) : Result := s.issue t c f mulDivOp

/-- The bits of a value that are set, from the least significant. -/
def bitsSet (a : BitVec 64) : List Nat := (List.range 64).filter fun i => a.getLsbD i

/-- R163: the function of group 0x0D. -/
def bitFn (fn : Nat) (a : BitVec 64) : BitVec 64 :=
  match fn with
  | 0 => BitVec.ofNat 64 (match (bitsSet a).getLast? with | some i => 63 - i | none => 64)
  | 1 => BitVec.ofNat 64 (match (bitsSet a).head? with | some i => i | none => 64)
  | 2 => BitVec.ofNat 64 (bitsSet a).length
  | 3 => BitVec.ofNat 64 (leNat (leBytes 8 a.toNat).reverse)
  | 4 => (a.extractLsb' 0 8).signExtend 64
  | 5 => (a.extractLsb' 0 16).signExtend 64
  | 6 => sextw a
  | 7 => (a.extractLsb' 0 8).zeroExtend 64
  | 8 => (a.extractLsb' 0 16).zeroExtend 64
  | _ => (a.extractLsb' 0 32).zeroExtend 64

def bitOp : CoreOp := writesD 0x0D fun k n => bitFn (fnOf n) (k.getS (saOf n))

/-- BIT_OP (R163). -/
def execBitOp (t c : Nat) (f : Fetched) (s : State) : Result := s.issue t c f bitOp

/-! ### Predicates (R164, R165) -/

/-- A compare with another value. -/
def State.compareWith (s : State) (t c n : Nat) (other : BitVec 64) : State :=
  s.modCore t c fun k =>
    let pd := fieldOf n 13 11
    k.setPred pd (combine (fieldOf n 15 14) (k.pred pd) (compares (fieldOf n 24 21) (k.getS (saOf n)) other))

def cmpOp : CoreOp :=
  { accept := fun n => insnGroup n == 0x0A, touch := fun n => [saOf n, fieldOf n 29 25], ready := always,
    run := fun s t c n => .next (s.compareWith t c n (s.sreg t c (fieldOf n 29 25))) }

/-- CMP (R164). -/
def execCmp (t c : Nat) (f : Fetched) (s : State) : Result := s.issue t c f cmpOp

def cmpiOp : CoreOp :=
  { accept := fun n => insnGroup n == 0x0B, touch := fun n => [saOf n], ready := always,
    run := fun s t c n => .next (s.compareWith t c n (if insnLong n then sext 32 (upperOf n) else sext 7 (fieldOf n 31 25))) }

/-- CMPI (R164). -/
def execCmpi (t c : Nat) (f : Fetched) (s : State) : Result := s.issue t c f cmpiOp

/-- The predicates as a mask: bit i is p_i. -/
def Core.predMask (k : Core) : Nat := (List.range 8).foldl (fun m i => m + (if k.pred i then 2 ^ i else 0)) 0

/-- R165. -/
def State.predicateOp (s : State) (t c n : Nat) : State :=
  s.modCore t c fun k =>
    let x := saOf n
    let y := dOf n
    let a := k.pred x
    let b := k.pred (fieldOf n 23 21)
    match fieldOf n 31 28 with
    | 0 => k.setPred y (a && b)
    | 1 => k.setPred y (a || b)
    | 2 => k.setPred y (a != b)
    | 3 => k.setPred y (a && !b)
    | 4 => k.setS y (BitVec.ofNat 64 k.predMask)
    | _ =>
      let v := k.getS x
      (List.range 8).foldl (fun k i => k.setPred i (v.getLsbD i)) k

def predicateCoreOp : CoreOp :=
  { accept := fun n => insnGroup n == 0x0C,
    touch := fun n => match fieldOf n 31 28 with | 4 => [dOf n] | 5 => [saOf n] | _ => [],
    ready := always, run := fun s t c n => .next (s.predicateOp t c n) }

/-- PREDICATE_OP (R165). -/
def execPredicateOp (t c : Nat) (f : Fetched) (s : State) : Result := s.issue t c f predicateCoreOp

/-! ### Branches (R166) -/

/-- The target of a relative branch. -/
def branchTarget (pc n : Nat) : Nat :=
  let off := if insnLong n then sext 32 (upperOf n) else sext 16 (fieldOf n 31 16)
  (BitVec.ofNat 64 pc + 4 * off).toNat

def brOp : CoreOp :=
  { accept := fun n => insnGroup n == 0x10, touch := fun _ => [], ready := always,
    run := fun s t c n => .jump s (branchTarget (s.core t c).pc n) }

/-- BR (R166). -/
def execBr (t c : Nat) (f : Fetched) (s : State) : Result := s.issue t c f brOp

def brlOp : CoreOp :=
  { accept := fun n => insnGroup n == 0x11, touch := fun n => [dOf n], ready := always,
    run := fun s t c n =>
      let pc := (s.core t c).pc
      .jump (s.setS t c (dOf n) (BitVec.ofNat 64 (nextPc pc n))) (branchTarget pc n) }

/-- BRL (R166). -/
def execBrl (t c : Nat) (f : Fetched) (s : State) : Result := s.issue t c f brlOp

def jrOp : CoreOp :=
  { accept := fun n => insnGroup n == 0x12, touch := fun n => [saOf n, dOf n], ready := always,
    run := fun s t c n =>
      let target := (s.sreg t c (saOf n) + 4 * sext 11 (fieldOf n 31 21)).toNat
      if target % 4 != 0 then .exc s 3 target
      else .jump (s.setS t c (dOf n) (BitVec.ofNat 64 (nextPc (s.core t c).pc n))) target }

/-- JR (R166). -/
def execJr (t c : Nat) (f : Fetched) (s : State) : Result := s.issue t c f jrOp

/-! ### Control (R167) -/

/-- An instruction of group 0x14. -/
def controlOp (fn : Nat) (touch : Nat → List Nat) (run : State → Nat → Nat → Nat → Ran) : CoreOp :=
  { accept := fun n => insnGroup n == 0x14 && fnOf n == fn, touch := touch, ready := always, run := run }

def nopOp : CoreOp := controlOp 0 (fun _ => []) fun s _ _ _ => .next s

/-- NOP (R167). -/
def execNop (t c : Nat) (f : Fetched) (s : State) : Result := s.issue t c f nopOp

def endCoreOp : CoreOp := controlOp 1 (fun _ => []) fun s t c n =>
  if s.userMode t c then .exc s 2 (lowerOf n) else .stay (s.setCoreState t c 3)

/-- END (R167). -/
def execEnd (t c : Nat) (f : Fetched) (s : State) : Result := s.issue t c f endCoreOp

/-- R167: WFE goes on with a set flag, which it clears, and otherwise makes the core WAITING at its pc. -/
def wfeOp : CoreOp := controlOp 2 (fun n => [saOf n]) fun s t c n =>
  if s.event t c then .next (s.setTbit t R.TILE_STATE (4 * c + 3) false)
  else
    let limit := if saOf n == 0 then none else some (s.sreg t c (saOf n)).toNat
    .stay ((s.setCoreState t c 2).modCore t c fun k => { k with wait := 1, timeout := limit })

/-- WFE (R167). -/
def execWfe (t c : Nat) (f : Fetched) (s : State) : Result := s.issue t c f wfeOp

end Sys2Proof.Machine
end

