-- ==== Sys2Proof/Machine/EngineOps.lean ====
section
/-! DEFINITION. The instructions by which a sequencer directs its engines (R186, R190, R191, R195, R197, R200-R203, R206): dispatch,
tokens, engine control, descriptors and handles, and the receive queues. -/

namespace Sys2Proof.Machine

/-! ### Dispatch (R186) -/

/-- A descriptor register and a handle of a core. -/
def Core.tReg (k : Core) (i : Nat) : BitVec 128 := if i < 16 then Map.get (fun _ => 0) k.t i else 0
def Core.aReg (k : Core) (i : Nat) : BitVec 32 := Map.get (fun _ => 0) k.a (i % 8)

/-- The instruction as dispatch captures it, from the numbers of the s and t registers that it names. -/
def Core.capture (k : Core) (c n : Nat) (ss ts : List Nat) : EngInstr :=
  { seq := k.nextAccess, word := BitVec.ofNat 64 n, pc := k.pc, core := c, sv := ss.map k.getS, tv := ts.map k.tReg,
    av := k.aReg (fieldOf n 45 43) }

/-- A dispatched instruction: the words it covers, its engine, the s and t registers it names, and whether its descriptor numbers run
beyond t15 (R216). -/
def engineCoreOp (accept : Nat → Bool) (e : Engine) (ss ts : Nat → List Nat) (beyond : Nat → Bool) : CoreOp :=
  { accept := accept, touch := ss,
    ready := fun s t _ n => beyond n || ((s.site t).queue e).length < engineDepth e,
    run := fun s t c n =>
      if beyond n then .exc s 16 (lowerOf n) else
      let i := (s.core t c).capture c n (ss n) (ts n)
      .next ((s.modCore t c fun k => { k with nextAccess := k.nextAccess + 1 }).dispatch t e i) }

/-- n consecutive registers. -/
def from_ (a n : Nat) : List Nat := (List.range n).map (· + a)

/-- R197: MM, with the descriptors of four sub-problems. -/
def mmOp : CoreOp :=
  engineCoreOp (fun n => insnGroup n == 0x30) .compute (fun _ => []) (fun n => from_ (fieldOf n 53 50) 4 ++ from_ (fieldOf n 49 46) 4)
    (fun n => 16 < max (fieldOf n 53 50) (fieldOf n 49 46) + foldSubs (fieldOf n 38 37))
def execMm (t c : Nat) (f : Fetched) (s : State) : Result := s.issue t c f mmOp

/-- R200: CB.LOAD. -/
def cbLoadOp : CoreOp :=
  engineCoreOp (fun n => insnGroup n == 0x33) .compute (fun n => [fieldOf n 47 43]) (fun _ => []) (fun _ => false)
def execCbLoad (t c : Nat) (f : Fetched) (s : State) : Result := s.issue t c f cbLoadOp

/-- R201: DR, with its bias, position and parameter registers. -/
def drOp : CoreOp :=
  engineCoreOp (fun n => insnGroup n == 0x31) .drain (fun n => [fieldOf n 33 29, fieldOf n 28 24, fieldOf n 23 19])
    (fun n => from_ (fieldOf n 53 50) 4) (fun _ => false)
def execDr (t c : Nat) (f : Fetched) (s : State) : Result := s.issue t c f drOp

/-- R202: an operation of group 0x32; a reserved one is dispatched by any row, and refused by the engine. -/
def accOp (op : Nat) : CoreOp :=
  engineCoreOp (fun n => insnGroup n == 0x32 && (fieldOf n 53 50 == op || 7 ≤ fieldOf n 53 50)) .drain (fun n => [fieldOf n 26 22])
    (fun _ => []) (fun _ => false)
def execAccScale (t c : Nat) (f : Fetched) (s : State) : Result := s.issue t c f (accOp 0)
def execSmInit (t c : Nat) (f : Fetched) (s : State) : Result := s.issue t c f (accOp 1)
def execSmStore (t c : Nat) (f : Fetched) (s : State) : Result := s.issue t c f (accOp 2)
def execSmLoad (t c : Nat) (f : Fetched) (s : State) : Result := s.issue t c f (accOp 3)
def execStepClose (t c : Nat) (f : Fetched) (s : State) : Result := s.issue t c f (accOp 4)
def execAccDrop (t c : Nat) (f : Fetched) (s : State) : Result := s.issue t c f (accOp 5)
def execActLoad (t c : Nat) (f : Fetched) (s : State) : Result := s.issue t c f (accOp 6)

/-- R203: a Fetch transfer; a reserved operation is dispatched by any row, and refused by the engine. -/
def fxOp (op : Nat) : CoreOp :=
  engineCoreOp (fun n => insnGroup n == 0x38 && (fieldOf n 53 51 == op || 4 ≤ fieldOf n 53 51)) .fetch
    (fun n => [fieldOf n 46 42, fieldOf n 41 37]) (fun n => [fieldOf n 50 47]) (fun _ => false)
def execFxLoad (t c : Nat) (f : Fetched) (s : State) : Result := s.issue t c f (fxOp 0)
def execFxStore (t c : Nat) (f : Fetched) (s : State) : Result := s.issue t c f (fxOp 1)
def execFxWload (t c : Nat) (f : Fetched) (s : State) : Result := s.issue t c f (fxOp 2)
def execFxWstore (t c : Nat) (f : Fetched) (s : State) : Result := s.issue t c f (fxOp 3)

/-! ### Tokens and engine control (R189-R191) -/

/-- A store or AMO of the core is outstanding. -/
def MemAcc.stores (a : MemAcc) : Bool := a.kind == 1 || a.kind == 2 || (a.kind == 4 && a.dest == 0)
def Core.storing (k : Core) : Bool := k.accesses.any MemAcc.stores

/-- The counter and amount of a token operation. -/
def tokK (n : Nat) : Nat := fieldOf n 19 16
def tokN (n : Nat) : Nat := fieldOf n 27 20

/-- An operation of a group whose code is in bits [31:28]. -/
def codedOp (group op : Nat) (touch : Nat → List Nat) (ready : State → Nat → Nat → Nat → Bool) (run : State → Nat → Nat → Nat → Ran) :
    CoreOp :=
  { accept := fun n => insnGroup n == group && fieldOf n 31 28 == op, touch := touch, ready := ready, run := run }

/-- R190: TK.SET and TK.ADD wait for earlier stores. -/
def storesDone (s : State) (t c _n : Nat) : Bool := !(s.core t c).storing

/-- R189, R190: TK.SET comes before the takes of its tile cycle: once its counter was taken from, it waits for the next. -/
def tkSetOp : CoreOp :=
  codedOp 0x39 0 (fun _ => []) (fun s t c n => storesDone s t c n && s.tokOut t (tokK n) == 0)
    fun s t _ n => .next (s.replaceToken t (tokK n) (tokN n))
def tkAddOp : CoreOp := codedOp 0x39 1 (fun _ => []) storesDone fun s t _ n => .next (s.addToken t (tokK n) (tokN n))
def tkTakeOp : CoreOp :=
  codedOp 0x39 2 (fun _ => []) (fun s t _ n => tokN n + (s.site t).takesAhead none (tokK n) ≤ s.token t (tokK n)) fun s t _ n => .next (s.takeToken t (tokK n) (tokN n))
def tkReadOp : CoreOp :=
  codedOp 0x39 3 (fun n => [dOf n]) always fun s t c n => .next (s.setS t c (dOf n) (BitVec.ofNat 64 (s.token t (tokK n))))

/-- TK_SET, TK_ADD, TK_TAKE, TK_READ (R190). -/
def execTkSet (t c : Nat) (f : Fetched) (s : State) : Result := s.issue t c f tkSetOp
def execTkAdd (t c : Nat) (f : Fetched) (s : State) : Result := s.issue t c f tkAddOp
def execTkTake (t c : Nat) (f : Fetched) (s : State) : Result := s.issue t c f tkTakeOp
def execTkRead (t c : Nat) (f : Fetched) (s : State) : Result := s.issue t c f tkReadOp

def engMask (n : Nat) : Nat := fieldOf n 13 11
def engWaitOp : CoreOp :=
  codedOp 0x3A 0 (fun _ => []) (fun s t _ n => (s.site t).engWaitMet (engMask n)) fun s _ _ _ => .next s
def engNotifyOp : CoreOp :=
  codedOp 0x3A 1 (fun _ => []) always fun s t _ n => .next ((s.modSite t fun x => { x with notify := some (engMask n) }).notifyMet t)

/-- ENG_WAIT, ENG_NOTIFY (R191). -/
def execEngWait (t c : Nat) (f : Fetched) (s : State) : Result := s.issue t c f engWaitOp
def execEngNotify (t c : Nat) (f : Fetched) (s : State) : Result := s.issue t c f engNotifyOp

/-! ### Descriptors and handles (R195) -/

def State.setT (s : State) (t c i : Nat) (v : BitVec 128) : State :=
  s.modCore t c fun k => { k with t := Map.set (fun _ => 0) k.t i v }
def tdT (n : Nat) : Nat := fieldOf n 27 24
def ahA (n : Nat) : Nat := fieldOf n 26 24

def tdSetOp : CoreOp := codedOp 0x3B 0 (fun n => [saOf n, dOf n]) always fun s t c n =>
  .next (s.setT t c (tdT n) (s.sreg t c (dOf n) ++ s.sreg t c (saOf n)))
def tdGetloOp : CoreOp := codedOp 0x3B 1 (fun n => [dOf n]) always fun s t c n =>
  .next (s.setS t c (dOf n) (((s.core t c).tReg (tdT n)).extractLsb' 0 64))
def tdGethiOp : CoreOp := codedOp 0x3B 2 (fun n => [dOf n]) always fun s t c n =>
  .next (s.setS t c (dOf n) (((s.core t c).tReg (tdT n)).extractLsb' 64 64))
def tdAddrOp : CoreOp := codedOp 0x3B 3 (fun n => [saOf n]) always fun s t c n =>
  let v := (s.core t c).tReg (tdT n)
  .next (s.setT t c (tdT n) (v.extractLsb' 22 106 ++ (s.sreg t c (saOf n)).extractLsb' 0 22))
def ahSetOp : CoreOp := codedOp 0x3B 4 (fun n => [saOf n]) always fun s t c n =>
  let v := (s.sreg t c (saOf n)).extractLsb' 0 32
  .next (s.modCore t c fun k => { k with a := Map.set (fun _ => 0) k.a (ahA n) v })
def ahGetOp : CoreOp := codedOp 0x3B 5 (fun n => [dOf n]) always fun s t c n =>
  .next (s.setS t c (dOf n) (((s.core t c).aReg (ahA n)).zeroExtend 64))

/-- TD_SET, TD_GETLO, TD_GETHI, TD_ADDR, AH_SET, AH_GET (R195). -/
def execTdSet (t c : Nat) (f : Fetched) (s : State) : Result := s.issue t c f tdSetOp
def execTdGetlo (t c : Nat) (f : Fetched) (s : State) : Result := s.issue t c f tdGetloOp
def execTdGethi (t c : Nat) (f : Fetched) (s : State) : Result := s.issue t c f tdGethiOp
def execTdAddr (t c : Nat) (f : Fetched) (s : State) : Result := s.issue t c f tdAddrOp
def execAhSet (t c : Nat) (f : Fetched) (s : State) : Result := s.issue t c f ahSetOp
def execAhGet (t c : Nat) (f : Fetched) (s : State) : Result := s.issue t c f ahGetOp

/-! ### Receive queues (R206) -/

def qOf (n : Nat) : Nat := fieldOf n 27 22

/-- R206: the published entries of a queue. -/
def State.qCount (s : State) (t q : Nat) : Nat := (((s.site t).ring q).filter fun e => e.state == 2).length

def qcntOp : CoreOp := codedOp 0x3D 0 (fun n => [dOf n]) always fun s t c n =>
  .next (s.setS t c (dOf n) (BitVec.ofNat 64 (s.qCount t (qOf n))))
def qheadOp : CoreOp := codedOp 0x3D 1 (fun n => [dOf n]) always fun s t c n => .next (s.setS t c (dOf n) (s.qhead t (qOf n)))
def qpopOp : CoreOp := codedOp 0x3D 2 (fun _ => []) always fun s t _ n => .next (s.qpop t (qOf n))
def qnotifyOp : CoreOp := codedOp 0x3D 3 (fun _ => []) always fun s t _ n =>
  let v := if n.testBit 21 then fieldOf n 20 19 + 1 else 0
  .next (if s.qState t (qOf n) == 0 then s
    else s.modSite t fun x => { x with qnotify := Map.set (fun _ => 0) x.qnotify (qOf n) v })

/-- QCNT, QHEAD, QPOP, QNOTIFY (R206). -/
def execQcnt (t c : Nat) (f : Fetched) (s : State) : Result := s.issue t c f qcntOp
def execQhead (t c : Nat) (f : Fetched) (s : State) : Result := s.issue t c f qheadOp
def execQpop (t c : Nat) (f : Fetched) (s : State) : Result := s.issue t c f qpopOp
def execQnotify (t c : Nat) (f : Fetched) (s : State) : Result := s.issue t c f qnotifyOp

end Sys2Proof.Machine
end

