-- ==== Sys2Proof/Machine/Reset.lean ====
section
/-! DEFINITION. Tile and partition resets (R385-R387), the checkpoint fence (R321, R444), scrubs (R434-R436) and what they change at a
site. -/

namespace Sys2Proof.Machine

/-! ### What a reset changes at a site (R385) -/

/-- The NET registers of R302. -/
def netRegs : List Nat :=
  [R.NET_STATUS, R.NET_STALL_LIMIT, R.NET_FLIT_CORR, R.NET_FLIT_UNCORR, R.NET_UNREACH_SENT, R.NET_DROP_STALE, R.NET_DROP_CLOSED,
   R.NET_STALL_WHERE, R.NET_COMPL_LOST]

/-- R385: a tile register keeps its value in a reset: `net` says that the reset takes in the NET registers. DESIGN CHOICE, log entry 84:
VIT_ECC_ADDR is among those that a reset clears. -/
def keptByReset (net : Bool) (a : Nat) : Bool :=
  if a < 0x100 then ! [R.TILE_START, R.TILE_ENTRY_LO, R.TILE_ENTRY_HI, R.TILE_ARG_LO, R.TILE_ARG_HI].contains a
  else if a < 0x800 then false
  else if a < 0xA00 then a == R.VIT_SEG_STATE
  else if a < 0xC00 then a == R.S_L2_CFG
  else !(net && netRegs.contains a)

/-- R149: a core in its reset state; its caches are kept (R231). -/
def Core.cleared (k : Core) : Core := { Core.reset with cache := k.cache, nextAccess := k.nextAccess }

/-- R143, R385: a site's work is discarded: queues, issued instructions, passes, completions, the accumulators and the row table,
codebooks, statistics windows, and the requests of its own units that were not accepted. -/
def Site.cleared (x : Site) (net : Bool) : Site :=
  { x with
    regs := (x.regs.filter fun e => keptByReset net e.1), cores := x.cores.map fun e => (e.1, e.2.cleared), hiLatch := [],
    loHeld := (x.loHeld.filter fun e => keptByReset net e.1), bnTurn := false,
    reqs := (x.reqs.filter fun r => r.user.isBn), fly := (x.fly.filter fun f => f.req.user.isBn),
    holds := (x.holds.filter fun h => h.through.isSome),
    fetchQ := [], computeQ := [], drainQ := [], fetchOn := [], computeOn := [], drainOn := [],
    arr := { Arr.idle with cycle := x.arr.cycle, nextId := x.arr.nextId, plinths := x.arr.plinths, select := x.arr.select }, acc := [], accBad := [], taken := [], posted := [],
    rowTab := [], books := [], drains := [], bookLoads := [], qwin := [], qcsr := [], qvec := [], tokIn := [], tokOut := [], notify := none, scaling := [], xfers := [],
    qnotify := [], fills := [], stalls := [], waits := [] }

/-- R385: every core STOPPED with its event flag 0. -/
def State.stopCores (s : State) (t : Nat) : State :=
  let s := (List.range (kindOf t).cores).foldl (fun s c => s.setCoreState t c 0) s
  let s := (List.range (kindOf t).cores).foldl (fun s c => s.dbgForget (coreId t c)) s
  s.setTfld t R.TILE_STATE 15 0 (tileStateReset (kindOf t))

/-- R279: every queue that is defined closes, its ring emptied and its accession kept. -/
def State.closeQueues (s : State) (t : Nat) : State :=
  (List.range 64).foldl (fun s q => if s.qState t q == 0 then s else (s.emptyRing t q).queueClose t q) s

/-- The concord messages that wait at the unit of a site are answered CLOSED. -/
def State.dropConc (s : State) (t : Nat) : State :=
  (s.site t).concIn.foldl (fun s p => if p.reported then s else (s.countStatus t 2).answer p t 2 []) s

/-- R385: the changes of a tile reset (`net` true) or of a partition reset at a site. -/
def State.resetSite (s : State) (t : Nat) (net : Bool) : State :=
  let s := ((s.dropConc t).closeQueues t).concReset t
  let s := s.stopCores t
  (s.modSite t fun x => x.cleared net).setTbit t R.VIT_SEG_STATE 24 false

/-! ### Tile reset (R386) -/

/-- A reset begins at a site: it is busy until TILE_RESET_DONE. -/
def State.resetBegin (s : State) (t : Nat) (net : Bool) : State := (s.resetSite t net).setTbit t R.TILE_RESET 31 true

/-- R386: a write of go = 1. -/
def State.tileReset (s : State) (t : Nat) : State :=
  if s.siteBusy t || kindOf t = .mi then s.setTbit t R.TILE_RESET 30 true else s.resetBegin t true

/-- TILE_RESET (R386): the host, Curator, or a site of the same partition resets one site. -/
def execTileReset (a : Agent) (t : Nat) (s : State) : Result := s.tileWrite a t R.TILE_RESET State.tileReset

/-- TILE_RESET_DONE (R386): the reset completes within 1,200 tile cycles, and busy clears. -/
def execTileResetDone (t : Nat) (s : State) : Result := s.when (s.tbit t R.TILE_RESET 31) (s.setTbit t R.TILE_RESET 31 false)

/-! ### Windows, timers and TDIs of a partition -/

/-- R283, R385: a window closes at every copy, as by a close command; commands on their way leave it closed. -/
def State.closeWindow (s : State) (w : Nat) : State :=
  let cur := s.winLast w
  if cur.1 != 1 then s else
  s.modNet fun n =>
    { n with windows := Map.set (fun _ => (0, 0)) n.windows w (2, cur.2),
             winCmds := n.winCmds.map fun c => if c.win == w then { c with state := 2, acc := cur.2 } else c }

/-- The windows that a partition owns in the active image. -/
def State.windowsOf (s : State) (p : Nat) : List Nat :=
  (List.range 256).filter fun w => winState (s.winRec w) != 0 && winOwner (s.winRec w) == p

/-- R339: a timer is disarmed. -/
def State.disarmTimer (s : State) (n : Nat) : State := s.setBit (R.TIM_TIMER_CTL n) 30 false

/-- R418: the state of a VF's TDI: 0 CONFIG_UNLOCKED, 1 CONFIG_LOCKED, 2 RUN, 3 ERROR. -/
def State.tdi (s : State) (k : Nat) : Nat := s.fld (R.HST_VF_BIND k) 29 28
def State.setTdi (s : State) (k v : Nat) : State := s.setFld (R.HST_VF_BIND k) 29 28 v

/-- The VFs bound to a partition. -/
def State.vfsOf (s : State) (p : Nat) : List Nat :=
  (List.range 64).filter fun k => k != 0 && s.bit (R.HST_VF_BIND k) 31 && s.fld (R.HST_VF_BIND k) 7 0 == p

/-- R418: the locked TDIs of a partition enter ERROR. -/
def State.tdiErrors (s : State) (p : Nat) : State :=
  (s.vfsOf p).foldl (fun s k => if s.tdi k == 1 || s.tdi k == 2 then s.setTdi k 3 else s) s

/-! ### Partition reset (R387) -/

/-- R387: a write to CUR_PART_RESET from an agent that may write the register. -/
def State.partReset (s : State) (a : Agent) (p : Nat) : State :=
  let there := match s.fab.active with
    | some m => m.partitions.contains p
    | none => false
  let from_ := match a with
    | .host => true
    | .pf1 => true
    | .core t _ => s.partOf t == some p
    | .vf k => s.vfPart k == some p
    | _ => false
  if !there || !from_ || s.bit R.CUR_PART_RESET_STATUS 31 || s.bit R.FAB_STATUS 6 || s.scrubbing p then
    s.setBit R.CUR_PART_RESET_STATUS 30 true
  else
    let outside := match a with
      | .core _ _ => false
      | _ => true
    -- Curator chooses P: at least 4 us ahead and early enough for the 20 us of step 3, a free value (log entry 18)
    let at_ := s.time + 4000 + s.free.toNat % 14000
    let c := { s.cur with resetAtP := some (p, at_), resetSites := [], resetOutside := outside }
    (({ s with cur := c }.freed).setFld R.CUR_PART_RESET_STATUS 7 0 p).setBit R.CUR_PART_RESET_STATUS 31 true

/-- PARTITION_RESET (R387). -/
def execPartitionReset (a : Agent) (p : Nat) (s : State) : Result := s.devWrite a R.CUR_PART_RESET (s.partReset a (p % 256))

/-- R441: a partition that is reset, or that a swap does not carry, has no broken pair (log entry 45). -/
def State.mendPairs (s : State) (p : Nat) : State :=
  s.modNet fun n => { n with broken := n.broken.filter fun t => s.partOf t != some p }

/-- R385: the partition-level changes. -/
def State.resetPartition (s : State) (p : Nat) : State :=
  let s := (s.windowsOf p).foldl (fun s w => s.closeWindow w) s
  let s := match s.fab.active with
    | some m => (List.range 256).foldl (fun (s : State) c => if m.ctxOwner c == some p && m.ctxKind c != 0 then s.snReset c else s) s
    | none => s
  let s := (List.range 32).foldl (fun s n => if s.owner 3 n == some p then s.disarmTimer n else s) s
  let s := s.mendPairs p
  s.setBit (R.SEC_PART_FAILED (p / 32)) (p % 32) false

/-- The sites of a partition of the active image. -/
def State.sitesOf (s : State) (p : Nat) : List Nat :=
  match s.fab.active with
  | some m => m.sitesOf p
  | none => []

/-- PARTITION_RESET_AT_P (R387, R393): at P every site of the partition is reset, but for one under test, and the partition-level
changes take effect. -/
def execPartitionResetAtP (s : State) : Result :=
  match s.cur.resetAtP with
  | none => .next s
  | some (p, at_) =>
    let ts := (s.sitesOf p).filter fun t => s.tfld t R.TILE_IFT_STATUS 31 30 != 2
    let u := ts.foldl (fun s t => s.resetBegin t false) s
    let u := u.resetPartition p
    let u := if s.cur.resetOutside then u.tdiErrors p else u
    let c := { u.cur with resetAtP := none, resetSites := ts }
    s.when (at_ ≤ s.time) { u with cur := c }

/-- PARTITION_RESET_DONE (R387): every site has completed. -/
def execPartitionResetDone (s : State) : Result :=
  let c := { s.cur with resetSites := [] }
  s.when (s.bit R.CUR_PART_RESET_STATUS 31 && s.cur.resetAtP.isNone && s.cur.resetSites.all fun t => !s.tbit t R.TILE_RESET 31)
    ({ s with cur := c }.setBit R.CUR_PART_RESET_STATUS 31 false)

/-! ### Quiescence and fences (R321, R444) -/

/-- R321: the cores of a site, but for one that is excluded, are STOPPED or FAULTED. -/
def State.coresQuiet (s : State) (t : Nat) (except : Option (Nat × Nat)) : Bool :=
  (List.range (kindOf t).cores).all fun c => except == some (t, c) || [0, 4, 7].contains (s.coreState t c)

/-- R321: the engine queues of a site are empty. -/
def Site.queuesEmpty (x : Site) : Bool := x.fetchQ.isEmpty && x.computeQ.isEmpty && x.drainQ.isEmpty

/-- R321: a request of the site is outstanding: an access of a core, issued engine work, or an access in the networks. The write of
SEC_FENCE_CHECK by which a core asks is not one of them. -/
def State.outstanding (s : State) (t : Nat) (except : Option (Nat × Nat)) : Bool :=
  let x := s.site t
  let own (c : Nat) (a : MemAcc) : Bool := except == some (t, c) && a.addr == 0x030000000000 + R.SEC_FENCE_CHECK
  (x.cores.any fun e => e.2.accesses.any fun a => !own e.1 a) || !x.fetchOn.isEmpty || !x.computeOn.isEmpty || !x.drainOn.isEmpty ||
  (s.net.outbox.any fun r => r.origin == t) || (s.net.waits.any fun w => srcDev w.src == s.deviceId && srcTile w.src == t)

/-- R321: a concord round of the site holds a contribution. -/
def Site.concHolds (x : Site) : Bool := x.conc.any fun e => e.2.taken != 0

/-- R321, R444: the first condition that fails, as SEC_FENCE_RESULT names it; 0 when the partition is at a fence. -/
def State.fence (s : State) (p : Nat) (except : Option (Nat × Nat)) : Nat :=
  let there := match s.fab.active with
    | some m => m.partitions.contains p
    | none => false
  let ts := s.sitesOf p
  if !there then 5
  else if !(ts.all fun t => s.coresQuiet t except) then 1
  else if !(ts.all fun t => (s.site t).queuesEmpty) then 2
  else if ts.any fun t => s.outstanding t except then 3
  else if ts.any fun t => (s.site t).concHolds then 4
  else 0

/-- R448: the agents that have a fence result of their own. -/
def State.fenceAgent (s : State) (a : Agent) : Nat :=
  match a with
  | .curator => 0x100
  | .tap => 0x101
  | .remote _ => 0x102
  | a => (s.ownerOf a).getD 0xFF

/-- SEC_FENCE_CHECK (R444): the conditions are tested; a core of the partition that writes the register is left out of the first one. -/
def execSecFenceCheck (a : Agent) (p : Nat) (s : State) : Result :=
  let except := match a with
    | .core t c => some (t, c)
    | _ => none
  let r := s.fence (p % 256) except
  let x := { s.sec with fences := Map.set (fun _ => 0) s.sec.fences (s.fenceAgent a) (2 ^ 31 + r) }
  s.devWrite a R.SEC_FENCE_CHECK { s with sec := x }

/-! ### Image records at a site -/

/-- R279, R320: a queue takes its record of the active image; `acc` overrides the accession (R435). -/
def State.installQueue (s : State) (t q : Nat) (acc : Option Nat) : State :=
  let r := s.queueRec t q
  let a := match acc with
    | some a => if qRecState r == 0 then 0 else a
    | none => qAccession r
  ((s.emptyRing t q).setTreg t (R.NET_Q_STATE q) (BitVec.ofNat 32 (2 ^ 30 * qRecState r + 2 ^ 20 * (a % 1024)))).setTreg t (R.NET_Q_DROP q) 0

/-- R292, R312: a concord slot takes its record of the active image. -/
def State.installSlot (s : State) (m : Image) (t n : Nat) (acc : Option Nat) : State :=
  let o := m.concOff t n
  let cfg := m.u32 o
  let a := match acc with
    | some a => if cfg == 0 then 0 else a
    | none => m.u16 (o + 0x14)
  let s := (s.setTreg t (R.CONC_CFG n) (BitVec.ofNat 32 cfg)).setTreg t (R.CONC_ALLOC n) (BitVec.ofNat 32 (m.u32 (o + 4)))
  let s := s.modSite t fun x => { x with loHeld := Map.erase (R.CONC_DEST_LO n) x.loHeld }
  let s := (s.setTreg64 t (R.CONC_DEST_LO n) (m.u64 (o + 8))).setTreg t (R.CONC_NOTIFY n) (BitVec.ofNat 32 (m.u32 (o + 0x10)))
  s.setTreg t (R.CONC_STATE n) (BitVec.ofNat 32 (2 ^ 18 * (a % 1024) + (if cfg % 65536 == 0 then 0 else 2 ^ 28)))

/-- R320: a site that is in no carried partition takes the records of the active image. -/
def State.installSite (s : State) (t : Nat) : State :=
  let s := (List.range 64).foldl (fun s q => s.installQueue t q none) s
  let s := s.modSite t fun x => { x with conc := [], concLeft := [] }
  match s.fab.active with
  | some m => if kindOf t = .m || kindOf t = .v then (List.range 16).foldl (fun s n => s.installSlot m t n none) s else s
  | none => s

/-- R435: at the end of a scrub each queue and slot takes its record with the accession one above its value at the start. -/
def State.reinstallSite (s : State) (t : Nat) : State :=
  let s := (List.range 64).foldl (fun s q => s.installQueue t q (some (s.qAcc t q + 1))) s
  match s.fab.active with
  | some m => if kindOf t = .m || kindOf t = .v then
      (List.range 16).foldl (fun s n => s.installSlot m t n (some (s.concAcc t n + 1))) s else s
  | none => s

/-- A window takes its record of the active image; `acc` overrides the accession. -/
def State.installWindow (s : State) (w : Nat) (acc : Option Nat) : State :=
  let r := s.winRec w
  let a := if winState r == 0 then 0 else acc.getD (winAcc r)
  let gone := s.net.winCmds.filter fun c => c.win == w
  let s := gone.foldl (fun s c => s.setTbit c.tile R.NET_WIN_STATUS 31 false) s
  s.modNet fun n => { n with windows := Map.set (fun _ => (0, 0)) n.windows w (winState r, a % 1024),
                             winCmds := n.winCmds.filter fun c => c.win != w }

/-! ### Scrubs (R434-R436) -/

def State.modSec (s : State) (f : Sec → Sec) : State := { s with sec := f s.sec }

/-- R143, R435: the scrub of a site sets its state; its queues and slots stay closed until the end. -/
def State.scrubBegin (s : State) (t : Nat) : State :=
  let kept := [R.TILE_EXC_CAUSE, R.TILE_EXC_PC_LO, R.TILE_EXC_PC_HI, R.TILE_EXC_VAL_LO, R.TILE_EXC_VAL_HI]
  let s := (s.resetSite t false).scrubCaches t
  let s := s.modSite t fun x =>
    { x with regs := (x.regs.filter fun e => !kept.contains e.1 && e.1 != R.VIT_SEG_STATE), prog := [], vit := [], vitBad := [],
             segEnd := [], acts := [], writebacks := [], rings := [] }
  let s := (List.range 16).foldl (fun s n => s.setTfld t (R.CONC_STATE n) 29 28 0) s
  s.modSec fun x => { x with sites := if x.sites.contains t then x.sites else x.sites ++ [t], waiting := x.waiting.filter (· != t) }

/-- R435: the scrub of a site starts now, or when its in-field test ends. -/
def State.scrubSite (s : State) (t : Nat) : State :=
  if s.tfld t R.TILE_IFT_STATUS 31 30 == 2 then s.modSec fun x => { x with waiting := x.waiting ++ [t] } else s.scrubBegin t

/-- R435: the placement units that lie wholly within the regions of a partition. -/
def Image.unitWithin (m : Image) (p u : Nat) : Bool :=
  m.regionCovers p (unitBase u) (unitSize u) false || m.regionCovers p (unitBase u) (unitSize u) true

/-- R435: every other stored block of a partition's regions becomes zero under its unit's key set; a block that is not stored reads as
zeros already. -/
def State.zeroBlocks (s : State) (m : Image) (p : Nat) (units : List Nat) : State :=
  s.dram.blocks.foldl (fun s e =>
    let stack := e.1 / 2 ^ 29
    let off := e.1 % 2 ^ 29 * 64
    match s.addressAt stack off with
    | some a =>
      let mine := (m.regionsAt a).any fun r => r.owner == p
      let whole := match unitOfTract s.fab.active (a / gib) with
        | some u => units.contains u
        | none => false
      if mine && !whole then s.writeBlock stack off a 0 else s
    | none => s) s

/-- The units that hold a region of a partition. -/
def Image.unitsOfPart (m : Image) (p : Nat) : List Nat :=
  (unitsOf (some m)).filter fun u => m.regions.any fun r =>
    r.owner == p && r.base < unitBase u + unitSize u && unitBase u < r.base + 4096 * r.pages

/-- R436: a scrub is in progress: its sites and units are kept until SCRUB_DONE. -/
def State.openJob (s : State) (part : Option Nat) (sites units : List Nat) : State :=
  if sites.isEmpty && units.isEmpty then s else
  let j : ScrubJob :=
    { part := part, sites := sites, units := units, nSites := sites.length, nUnits := units.length, since := s.time }
  let s := s.modSec fun x => { x with jobs := x.jobs ++ [j] }
  match part with
  | some p => s.setBit (R.SEC_SCRUBBING (p / 32)) (p % 32) true
  | none => s

/-- R434, R435: a scrub of a partition: its sites, the units within its regions, the other blocks of its regions, and its windows. -/
def State.scrubPartition (s : State) (p : Nat) : State :=
  match s.fab.active with
  | none => s
  | some m =>
    let sites := (m.sitesOf p).filter s.live
    let units := (m.unitsOfPart p).filter (m.unitWithin p)
    let s := (s.windowsOf p).foldl (fun s w => s.closeWindow w) s
    let s := sites.foldl (fun s t => s.scrubSite t) s
    let s := units.foldl (fun s u => s.zeroStart u) s
    (s.zeroBlocks m p units).openJob (some p) sites units

/-- R434: a scrub command is ignored. -/
def State.scrubReject (s : State) : State := s.setBit R.SEC_SCRUB_CTL 31 true

/-- No swap is armed or in progress. -/
def State.noSwap (s : State) : Bool := !s.armed && !s.bit R.FAB_STATUS 6

/-- A scrub command comes from the host. -/
def fromHost : Agent → Bool
  | .host => true
  | .pf1 => true
  | _ => false

/-- R434: cmd 1. -/
def State.scrubPartCmd (s : State) (a : Agent) (p : Nat) : State :=
  if fromHost a && s.fence p none == 0 && s.noSwap && !s.scrubbing p then s.scrubPartition p else s.scrubReject

/-- SCRUB_PARTITION (R434). -/
def execScrubPartition (a : Agent) (p : Nat) (s : State) : Result := s.devWrite a R.SEC_SCRUB_CTL (s.scrubPartCmd a (p % 256))

/-- R434: cmd 2: every site in no partition, and every unit that no region covers. -/
def State.scrubIdleCmd (s : State) (a : Agent) : State :=
  if fromHost a && s.noSwap then
    let sites := allSites.filter fun t => (s.partOf t).isNone && s.live t && kindOf t != .mi
    let units := (unitsOf s.fab.active).filter fun u => !unitCovered s.fab.active u
    let s := sites.foldl (fun s t => s.scrubSite t) s
    let s := units.foldl (fun s u => s.zeroStart u) s
    s.openJob none sites units
  else s.scrubReject

/-- SCRUB_IDLE (R434). -/
def execScrubIdle (a : Agent) (s : State) : Result := s.devWrite a R.SEC_SCRUB_CTL (s.scrubIdleCmd a)

/-- SITE_SCRUB_END (R435): the scrub of a site completes within 100 us, and its queues and slots take their records. -/
def execSiteScrubEnd (t : Nat) (s : State) : Result :=
  s.when (s.sec.sites.contains t) ((s.reinstallSite t).modSec fun x => { x with sites := x.sites.filter (· != t) })

/-- R436: every site and unit of a scrub has finished. -/
def State.jobDone (s : State) (j : ScrubJob) : Bool :=
  (j.sites.all fun t => !s.sec.sites.contains t && !s.sec.waiting.contains t) && j.units.all fun u => !s.dram.zeroing.contains u

/-- R418, R435: the end of a partition's scrub: its bit clears, its windows take their records, and the TDIs that waited become
CONFIG_UNLOCKED. -/
def State.jobEnd (s : State) (p : Nat) : State :=
  let s := s.setBit (R.SEC_SCRUBBING (p / 32)) (p % 32) false
  let s := (s.windowsOf p).foldl (fun s w => s.installWindow w (some ((s.winLast w).2 + 1))) s
  -- a binding that PERST_N cleared is gone with it
  s.hst.unlocking.foldl (fun s k =>
    if s.fld (R.HST_VF_BIND k) 7 0 == p then
      let h := { s.hst with unlocking := s.hst.unlocking.filter (· != k) }
      let s := { s with hst := h }
      if s.bit (R.HST_VF_BIND k) 31 then s.setTdi k 0 else s.setReg (R.HST_VF_BIND k) 0
    else s) s

/-- SCRUB_DONE (R436): the last site and unit of the scrub of a partition (255: of the idle resources) have finished. -/
def execScrubDone (p : Nat) (s : State) : Result :=
  let key : Option Nat := if p == 255 then none else some p
  match s.sec.jobs.find? fun j => j.part == key with
  | none => .next s
  | some j =>
    let u := s.modSec fun x => { x with jobs := x.jobs.erase j }
    let more := u.sec.jobs.any fun j => j.part == key
    let u := match key with
      | some p => if more then u else u.jobEnd p
      | none => u
    let u := u.fault 0x51 u.curatorSource key (le 2 j.nSites ++ le 2 j.nUnits ++ le 4 ((s.time - j.since) / 1000))
    s.when (s.jobDone j) u

end Sys2Proof.Machine
end

