-- ==== Sys2Proof/Machine/Fabric.lean ====
section
/-! DEFINITION. The two image slots (R303, R304), arming (R317, R318), the swap (R319-R321, R434) and claims (R322). -/

namespace Sys2Proof.Machine

def State.modFab (s : State) (f : Fab → Fab) : State := { s with fab := f s.fab }

/-- R303: the state of the shadow slot: 0 EMPTY, 1 LOADING, 2 VALID, 3 REFUSED. -/
def State.shadowState (s : State) : Nat := s.fld R.FAB_STATUS 1 0
def State.swapping (s : State) : Bool := s.bit R.FAB_STATUS 6

/-- R304, R318: a command is ignored. -/
def State.cmdReject (s : State) : State := s.setBit R.FAB_STATUS 8 true

/-- The start stage (R371). -/
def State.stage (s : State) : Nat := s.fld R.CUR_BOOT_STATUS 2 0

/-! ### Load, discard, cancel -/

/-- R304: one block of the staged image as Curator reads it: whether the read completed OK, and its bytes. A block outside the host's
regions reads as zeros (R428). -/
def State.stagedBlock (s : State) (a : Nat) : Bool × List (BitVec 8) :=
  let allowed := match s.fab.active with
    | some m => m.regionRight 0xFE a false
    | none => true
  if !allowed then (true, List.replicate 64 0) else
  match s.place a with
  | .dram k o =>
    if s.dramClosed a then (false, List.replicate 64 0)
    else (true, bytesOf512 (s.delivered a (s.decodeBlock k o a)))
  | _ => (false, List.replicate 64 0)

/-- R304: Curator copies the staged bytes into its own store. -/
def State.staged (s : State) : Image × Bool :=
  let base := 65536 * (s.reg R.FAB_SHADOW_BASE).toNat
  let size := (s.reg R.FAB_SHADOW_SIZE).toNat
  let blocks := (List.range ((size + 63) / 64)).map fun i => s.stagedBlock (base + 64 * i)
  let bytes := (blocks.flatMap (·.2)).take size
  ({ length := size, bytes := ((List.range size).zip bytes).filter fun e => e.2 != 0 }, blocks.all (·.1))

/-- R304, R371: a load command. -/
def State.load (s : State) : State :=
  if s.shadowState == 1 || s.armed || s.swapping || s.stage != 5 then s.cmdReject
  else
    let img := s.staged
    let s := s.modFab fun f => { f with shadow := none, loading := some img }
    (s.setFld R.FAB_STATUS 1 0 1).setReg64 R.FAB_SHADOW_SERIAL_LO 0

/-- LOAD (R304). -/
def execLoad (a : Agent) (s : State) : Result := s.devWrite a R.FAB_CTL s.load

/-- R304: the discard command. -/
def State.discard (s : State) : State :=
  if s.shadowState == 1 || s.armed then s.cmdReject
  else ((s.modFab fun f => { f with shadow := none }).setFld R.FAB_STATUS 1 0 0).setReg64 R.FAB_SHADOW_SERIAL_LO 0

/-- DISCARD (R304). -/
def execDiscard (a : Agent) (s : State) : Result := s.devWrite a R.FAB_CTL s.discard

/-- R318: the cancel command: before the swap count it disarms with result CANCELLED. -/
def State.cancel (s : State) : State := if s.armed && s.time < s.fab.swapAt then s.disarm 2 else s.cmdReject

/-- CANCEL (R318). -/
def execCancel (a : Agent) (s : State) : Result := s.devWrite a R.FAB_CTL s.cancel

/-- IMAGE_VALIDATION_DONE (R316): the loaded image becomes VALID, or REFUSED with its first error. -/
def execImageValidationDone (s : State) : Result :=
  match s.fab.loading with
  | none => .next s
  | some (img, ok) =>
    match s.validate img ok with
    | none =>
      let s := s.modFab fun f => { f with loading := none, shadow := some img }
      .next (((s.setFld R.FAB_STATUS 1 0 2).setReg R.FAB_ERROR 0).setReg64 R.FAB_SHADOW_SERIAL_LO img.serial)
    | some e =>
      let s := s.modFab fun f => { f with loading := none }
      .next ((s.setFld R.FAB_STATUS 1 0 3).setReg R.FAB_ERROR (BitVec.ofNat 32 (65536 * e.index + e.section_ * 256 + e.code)))

/-! ### Arming (R317) -/

/-- R347: the image uses a wing: a site of it lies in a partition, a tract is mapped to one of its stacks, or a router of it leads traffic
for a target outside the wing. -/
def Image.usesWing (m : Image) (w : Nat) : Bool :=
  ((wingSites w).any fun t => (m.sitePart t).isSome) ||
  ((List.range 1024).any fun t =>
    let r := tractRole (some m) t
    r.1 == 2 || (r.1 == 1 && r.2.1 / 2 == w)) ||
  ((wingSites w).any fun t => allTargets.any fun g => m.route t g < 6 && !(g < 3072 && wingOf g == w))

/-- R317: a resource that the shadow assigns to an owner is held by a run-time claim of another owner. -/
def State.claimClash (s : State) (m : Image) : Bool :=
  s.fab.claims.any fun e =>
    let kind := e.1 / 256
    let o := if kind == 5 then m.ctxOwner (e.1 % 256) else m.resourceOwner kind (e.1 % 256)
    match o with
    | some p => p + 1 != e.2
    | none => false

/-- R317: the checks of arming, in order: the result code of the first failure, with FAB_ERROR's value for ARM_CARRY. -/
def State.armFailure (s : State) (at_ : Nat) : Option (Nat × Option Nat) :=
  match s.fab.shadow with
  | none => some (4, none)
  | some m =>
    if s.shadowState != 2 || s.armed || s.swapping then some (4, none)
    else if allWings.any fun w => s.railState w == 0 && m.usesWing w then some (4, none)
    else if at_ < s.time + 50000 then some (5, none)
    else if !s.bindingOk m then some (6, none)
    else match s.fab.active.bind fun old => s.carryFailure old m with
      | some (p, sec) => some (7, some (65536 * p + sec * 256))
      | none => if s.claimClash m then some (8, none) else none

/-- R392, R393: a test ends at once and leaves the site in its tile-reset state, still due; a scrub that waited for it starts. -/
def State.abortTest (s : State) (t : Nat) : State :=
  let c := { s.cur with tests := s.cur.tests.filter fun e => e.1 != t }
  let s := { s with cur := c }.setTfld t R.TILE_IFT_STATUS 31 30 1
  if s.sec.waiting.contains t then s.scrubBegin t else s

/-- R393: arming aborts the tests of sites that the shadow places in a partition other than a carried one that holds them. -/
def State.armAborts (s : State) (m : Image) : State :=
  s.cur.tests.foldl (fun s e =>
    match m.sitePart e.1 with
    | some p => if s.carried s.fab.active m p && s.partOf e.1 == some p then s else s.abortTest e.1
    | none => s) s

/-- R317: a write of FAB_SWAP_AT_HI. -/
def State.arm (s : State) (hi : BitVec 32) : State :=
  let s := (s.takeLo R.FAB_SWAP_AT_HI).setReg R.FAB_SWAP_AT_HI hi
  let at_ := s.reg64 R.FAB_SWAP_AT_LO
  match s.armFailure at_ with
  | some (code, err) =>
    let s := s.setFld R.FAB_STATUS 23 16 code
    match err with
    | some v => s.setReg R.FAB_ERROR (BitVec.ofNat 32 v)
    | none => s
  | none =>
    let s := (s.modFab fun f => { f with swapAt := at_, sampled := false }).setBit R.FAB_STATUS 5 true
    let s := s.setBit R.CAT_STATUS 4 (s.cat.dirty && !s.cat.dirtyDead)
    match s.fab.shadow with
    | some m => s.armAborts m
    | none => s

/-- ARM (R317). -/
def execArm (a : Agent) (hi : BitVec 32) (s : State) : Result := s.devWrite a R.FAB_SWAP_AT_HI (s.arm hi)

/-! ### The swap (R319-R321) -/

/-- R321: the partitions of the outgoing image that are not carried are sampled; one that is not quiesced sets unquiesced and a record. -/
def State.quiesceSample (s : State) : State :=
  match s.fab.active, s.fab.shadow with
  | some old, some new =>
    let s := (old.partitions.filter fun p => !s.carried (some old) new p).foldl (fun s p =>
      if s.fence p none == 0 then s
      else (s.setBit R.FAB_STATUS 7 true).fault 0x50 s.curatorSource (some p) []) s
    s.modFab fun f => { f with sampled := true }
  | _, _ => s.modFab fun f => { f with sampled := true }

/-- QUIESCE_SAMPLE (R321): at T - 1 us. -/
def execQuiesceSample (s : State) : Result :=
  s.when (s.armed && !s.fab.sampled && s.fab.swapAt ≤ s.time + 1000) s.quiesceSample

/-- R320: the partitions that the swap carries. -/
def State.carriedParts (s : State) (old : Option Image) (new : Image) : List Nat := new.partitions.filter fun p => s.carried old new p

/-- R434: the units of the new image whose domain or placement differs from the old image's. -/
def changedUnits (old : Option Image) (new : Image) : List Nat :=
  let bands (img : Option Image) (u : Nat) : List (Nat × Nat × Nat) :=
    if u < 1024 then [tractRole img u] else (List.range 32).map fun i => tractRole img ((u - 1024) * 32 + i)
  (unitsOf (some new)).filter fun u => bands old u != bands (some new) u || unitDomain old u != unitDomain (some new) u

/-- R320: what the swap does before the tables change: sites of the outgoing image that are in no carried partition are reset, sync contexts
and timers and claims that are not carried are cleared, and the TDIs of such partitions enter ERROR. -/
def State.swapOut (s : State) (keep : List Nat) : State :=
  match s.fab.active with
  | none => s
  | some old =>
    let gone := old.partitions.filter fun p => !keep.contains p
    let sites := allSites.filter fun t => match old.sitePart t with
      | some p => !keep.contains p
      | none => false
    let s := sites.foldl (fun s t => if s.tfld t R.TILE_IFT_STATUS 31 30 == 2 then s else s.resetBegin t false) s
    let s := (List.range 256).foldl (fun (s : State) c => match old.ctxOwner c with
      | some p => if keep.contains p then s else s.snReset c
      | none => s.snReset c) s
    let s := (List.range 32).foldl (fun s n => match s.owner 3 n with
      | some p => if gone.contains p then s.disarmTimer n else s
      | none => s) s
    gone.foldl (fun s p =>
      ((s.mendPairs p).tdiErrors p).setBit (R.SEC_PART_FAILED (p / 32)) (p % 32) false) s

/-- R320: the claims of partitions that are not carried are released. -/
def keptClaims (keep : List Nat) (claims : List (Nat × Nat)) : List (Nat × Nat) :=
  claims.filter fun e => e.2 == 0xFF || keep.contains (e.2 - 1)

/-- R320: the records of the new image at every site and window that is not carried. -/
def State.swapIn (s : State) (old : Option Image) (new : Image) (keep : List Nat) : State :=
  let mine (img : Option Image) (t : Nat) : Bool := match img.bind fun m => m.sitePart t with
    | some _ => true
    | none => false
  let sites := allSites.filter fun t => (mine old t || mine (some new) t) && !(match new.sitePart t with
    | some p => keep.contains p
    | none => false)
  let s := sites.foldl (fun s t => s.installSite t) s
  (List.range 256).foldl (fun s w =>
    if winState (s.winRec w) != 0 && keep.contains (winOwner (s.winRec w)) then s else s.installWindow w none) s

/-- R434: the scrubs at T: sites that enter a partition of another domain, and units that change; then each partition's scrub is opened. -/
def State.swapScrub (s : State) (old : Option Image) (new : Image) : State :=
  let enters := allSites.filter fun t => match new.sitePart t with
    | some p => new.partDomain p != Map.get (fun _ => 0) s.sec.siteDomain t
    | none => false
  let s := enters.foldl (fun s t => match new.sitePart t with
    | some p => (s.scrubSite t).modSec fun x => { x with siteDomain := Map.set (fun _ => 0) x.siteDomain t (new.partDomain p) }
    | none => s) s
  let units := unitsOf (some new)
  let s := s.modDram fun d => { d with zeroing := d.zeroing.filter units.contains }
  let s := (List.range 32).foldl (fun s k =>
    s.setBit (R.MEM_STK_STATE k) 0 (s.dram.zeroing.any fun u => (s.unitBands u).any fun b => b.1 == k)) s
  let s := (changedUnits old new).foldl (fun s u => s.zeroStart u) s
  let s := units.foldl (fun s u => if unitCovered (some new) u then
      s.modSec fun x => { x with unitDomain := Map.set (fun _ => 0) x.unitDomain u (unitDomain (some new) u) } else s) s
  let s := (List.range 8).foldl (fun s i => s.setReg (R.SEC_SCRUBBING i) 0) s
  let s := s.modSec fun x => { x with jobs := x.jobs.filter fun j => j.part.isNone }
  new.partitions.foldl (fun s p =>
    let busy := (new.sitesOf p).filter fun t => s.sec.sites.contains t || s.sec.waiting.contains t
    s.openJob (some p) busy ((new.unitsOfPart p).filter s.dram.zeroing.contains)) s

/-- R408: a PEER_ID frame waits on every port that is UP. -/
def State.sendPeerIds (s : State) : State :=
  (List.range 32).foldl (fun s p =>
    if s.portUp p then s.sendCtrl p (.peerId s.deviceId s.fab.active.isSome ((s.fab.active.map Image.serial).getD 0)) else s) s

/-- R320: the swap at count T. -/
def State.swap (s : State) (new : Image) : State :=
  let s := if s.fab.sampled then s else s.quiesceSample
  let old := s.fab.active
  let keep := s.carriedParts old new
  let s := s.swapOut keep
  let s := s.modFab fun f =>
    { f with active := some new, shadow := old, carried := keep, claims := keptClaims keep f.claims }
  let c := { s.cur with windows := s.cur.windows.filter fun e => keep.contains e.1 }
  let s := { s with cur := c }
  let s := (s.swapIn old new keep).swapScrub old new
  let s := (((s.setBit R.FAB_STATUS 5 false).setBit R.FAB_STATUS 6 true).setBit R.FAB_STATUS 4 true).setBit R.CAT_STATUS 4 false
  let s := s.setFld R.FAB_STATUS 1 0 (if old.isSome then 2 else 0)
  let s := (s.setReg64 R.FAB_ACTIVE_SERIAL_LO new.serial).setReg64 R.FAB_SHADOW_SERIAL_LO ((old.map Image.serial).getD 0)
  s.sendPeerIds

/-- SWAP (R320, R315, R42): at the swap count the slots exchange, unless the binding fails. -/
def execSwap (s : State) : Result :=
  match s.fab.shadow with
  | none => .next s
  | some new => s.when (s.armed && s.fab.swapAt ≤ s.time) (if s.bindingOk new then s.swap new else s.disarm 3)

/-- SWAP_END (R320): the swap ends within 10 us of T. -/
def execSwapEnd (s : State) : Result :=
  s.when s.swapping (((s.setBit R.FAB_STATUS 6 false).setReg64 R.FAB_LAST_SWAP_LO s.fab.swapAt).setFld R.FAB_STATUS 23 16 1)

/-! ### Claims (R322) -/

/-- R322: kind and index are defined. -/
def claimable (kind index : Nat) : Bool := if kind == 5 then index < 256 else index < resourceCount kind

/-- R322: the owner that an armed shadow gives a resource. -/
def State.armedOwner (s : State) (kind index : Nat) : Option Nat :=
  if !s.armed then none else
  s.fab.shadow.bind fun m => if kind == 5 then m.ctxOwner index else m.resourceOwner kind index

/-- R322: the result of a claim (0 OK, 1 BUSY, 2 INVALID). -/
def State.claimResult (s : State) (who kind index : Nat) : Nat :=
  if !claimable kind index then 2
  else match s.owner kind index with
    | some o => if o == who then 0 else 1
    | none => match s.armedOwner kind index with
      | some o => if o == who then 0 else 1
      | none => 0

def State.setClaimResult (s : State) (who r : Nat) : State :=
  s.modFab fun f => { f with claimResults := Map.set (fun _ => 0) f.claimResults who r }

/-- R322: a claim by an owner number; a resource that the claimant already owns is left as it is. -/
def State.claim (s : State) (who kind index : Nat) : State :=
  let r := s.claimResult who kind index
  let s := if r == 0 && (s.owner kind index).isNone then
      s.modFab fun f => { f with claims := Map.set (fun _ => 0) f.claims (kind * 256 + index) (who + 1) } else s
  s.setClaimResult who r

/-- R322: a release; a resource that the image assigns cannot be released. -/
def State.releaseClaim (s : State) (who kind index : Nat) : State :=
  if claimable kind index && (s.imageOwner kind index).isNone && s.claimHolder kind index == some who then
    (s.modFab fun f => { f with claims := Map.erase (kind * 256 + index) f.claims }).setClaimResult who 0
  else s.setClaimResult who 2

/-- R322: who writes FAB_CLAIM; a write by an agent that owns nothing is ignored. -/
def State.byClaimant (s : State) (a : Agent) (f : Nat → State) : State :=
  match s.ownerOf a with
  | some w => f w
  | none => s

/-- CLAIM (R322). -/
def execClaim (a : Agent) (kind index : Nat) (s : State) : Result :=
  s.openWrite a (s.byClaimant a fun w => s.claim w (kind % 8) (index % 256))

/-- RELEASE (R322). -/
def execRelease (a : Agent) (kind index : Nat) (s : State) : Result :=
  s.openWrite a (s.byClaimant a fun w => s.releaseClaim w (kind % 8) (index % 256))

end Sys2Proof.Machine
end

