-- ==== Sys2Proof/Machine/Wings.lean ====
section
/-! DEFINITION. Powering wings on and off (R347, R348, R388), rail faults (R349), the trips that shut the stage down (R350, R367), and
device timers (R339). -/

namespace Sys2Proof.Machine

/-! ### What is lost with a wing (R13, R347) -/

/-- R347: an ignored PWR_WING_CTL command. -/
def State.wingReject (s : State) : State := s.setBit R.PWR_STATUS 20 true

/-- R13: a packet that the lost wing held: the access it belongs to completes UNREACH; a request from another device is answered so where
its answers leave. -/
def State.lostPacket (s : State) (p : Packet) : State :=
  let answer := vcOf p.hdr.kind == 1
  let src := if answer then p.hdr.dev * 65536 + p.hdr.tile * 16 + srcUnit p.hdr.src else p.hdr.src
  match s.net.waits.find? fun w => w.src == src && w.tag == p.hdr.tag with
  | some w => (s.modNet fun n => { n with waits := n.waits.erase w }).joinPiece w.join 3 []
  | none =>
    match s.answerTarget p.hdr.src with
    | some g => if answer || g < 3072 || 3104 ≤ g then s else s.answer p (entrySite (g - 3072) 0) 3 []
    | none => s

/-- The user of an access is a unit of a site in the wing. -/
def NetUser.inWing (u : NetUser) (w : Nat) : Bool :=
  match u with
  | .core t _ _ => wingOf t == w
  | .xfer t _ _ => wingOf t == w
  | .msg t _ => wingOf t == w
  | .concWrite t _ => wingOf t == w
  | .concNote t _ => wingOf t == w
  | _ => false

/-- R13: some part of a packet is in a wing: its header, flits that have not entered, a flit in a router or on its way over one of its seams. -/
def Net.inWing (n : Net) (w : Nat) (p : Packet) : Bool :=
  let has (fs : List (Nat × Nat)) : Bool := fs.any fun f => f.1 == p.id
  wingOf p.router == w || (wingOf (p.source / 8) == w && p.sent < p.flits) ||
  (n.bufs.any fun e => wingOf (e.1 / 32) == w && has e.2.flits) ||
  n.seams.any fun e => (wingOf (seamEnds e.1).1 == w || wingOf (seamEnds e.1).2 == w) && (has e.2.held || has (e.2.entries.map (·.2)))

/-- R13: the network loses what the wing held: its units' own accesses are gone, and every other access with a part there completes
UNREACH. -/
def State.loseNet (s : State) (w : Nat) : State :=
  let here (t : Nat) : Bool := wingOf t == w
  let mine := s.net.joins.filter fun j => j.user.inWing w
  let s := s.modNet fun n =>
    { n with outbox := (n.outbox.filter fun r => !(r.origin < 3072 && here r.origin)),
             joins := (n.joins.filter fun j => !j.user.inWing w),
             waits := (n.waits.filter fun x => !(mine.any fun j => j.id == x.join)),
             winCmds := n.winCmds.map fun c => { c with left := c.left.filter fun t => !(t < 3072 && here t) } }
  let packets := s.net.packets.filter fun p => s.net.inWing w p
  let serves := s.net.serves.filter fun v => here v.tile
  let adds := (s.sites.filter fun e => here e.1).flatMap fun e => e.2.concIn
  let s := s.modNet fun n =>
    { n.without (fun id => packets.any fun p => p.id == id) with
             serves := (n.serves.filter fun v => !here v.tile), mi := n.mi.filter fun r => !here r.tile }
  let s := packets.foldl (fun s p => s.lostPacket p) s
  let s := adds.foldl (fun s p => s.lostPacket p) s
  serves.foldl (fun s v => s.lostPacket v.pkt) s

/-- R13: a stack loses its contents: every band reads under no key until it is zeroed. -/
def State.loseStack (s : State) (k : Nat) : State :=
  let lo := 2 ^ 29 * k
  let hi := 2 ^ 29 * (k + 1)
  s.modDram fun d =>
    { d with blocks := Map.clearRange lo hi d.blocks, rewrites := Map.clearRange lo hi d.rewrites,
             suspects := (d.suspects.filter fun e => e.1 / 2 ^ 29 != k), copies := (d.copies.filter fun c => c.stack != k),
             bandKeys := (List.range 32).foldl (fun m b => Map.set d.bandDefault m (k * 32 + b) (2 ^ 20, 0, 0)) d.bandKeys }

/-- R13, R25, R347: the wing's clock stops, its seams are clamped, and the contents of its sites and stacks are lost. -/
def State.loseWing (s : State) (w : Nat) : State :=
  let s := s.setBit R.CLK_WING_RUN w false
  let s := s.setBit R.PWR_WING_STATUS w false
  let s := s.modWing w WingPower.lost
  let s := s.cur.tests.foldl (fun s e => if wingOf e.1 == w then s.abortTest e.1 else s) s
  let s := s.loseNet w
  let s := { s with sites := s.sites.filter fun e => wingOf e.1 != w }
  (s.loseStack (2 * w)).loseStack (2 * w + 1)

/-- R369: a rail goes off (state 0) or trips (3): PWR_RAIL_Wn keeps its setting and the last current measured, a free value (log entry 118). -/
def State.railOff (s : State) (w state : Nat) : State :=
  let s := if s.railState w == 1 || s.railState w == 2 then (s.setFld (R.PWR_RAIL w) 29 16 (s.free.toNat % 2 ^ 14)).freed else s
  s.setFld (R.PWR_RAIL w) 31 30 state

/-! ### Off and on (R347) -/

/-- R347: the active image, the default placement while there is none, or a VALID shadow uses the wing. -/
def State.wingUsed (s : State) (w : Nat) : Bool :=
  (match s.fab.active with
    | some m => m.usesWing w
    | none => true) ||
  (match s.fab.shadow with
    | some m => s.shadowState == 2 && m.usesWing w
    | none => false)

/-- R347: an off command. -/
def State.wingOff (s : State) (w : Nat) : State :=
  if s.wingDead w || s.railState w != 2 || s.vbringOn w || s.swapping || s.wingUsed w then s.wingReject
  else (s.loseWing w).railOff w 0

/-- WING_OFF (R347). -/
def execWingOff (a : Agent) (wing : Nat) (s : State) : Result := s.devWrite a R.PWR_WING_CTL (s.wingOff (wing % 16))

/-- R347, R348: an on command requests inrush tokens. -/
def State.wingOn (s : State) (w : Nat) : State :=
  if s.wingDead w || s.railState w != 0 || s.vbringOn w || (s.wing w).requestAt.isSome then s.wingReject
  else s.modWing w fun x => { x with requestAt := some s.time, inService := true }

/-- WING_ON (R347). -/
def execWingOn (a : Agent) (wing : Nat) (s : State) : Result := s.devWrite a R.PWR_WING_CTL (s.wingOn (wing % 16))

/-! ### Inrush tokens (R348) -/

/-- R348: the inrush tokens held. -/
def State.tokens (s : State) : Nat := s.fld R.PWR_WING_STATUS 31 24
def State.setTokens (s : State) (n : Nat) : State := s.setFld R.PWR_WING_STATUS 31 24 n

/-- R348: the headroom at a step, E being the last estimate. -/
def State.headroom (s : State) : Rat := s.effectiveCap - s.pwr.estimates.getLastD 0 - s.guardW - 50 * (s.tokens : Rat)

/-- R348: a wing is ramping. -/
def State.ramping (s : State) : Bool := s.bit R.PWR_WING_STATUS 20

/-- R348: the ramp of a wing begins. -/
def State.rampStart (s : State) (w : Nat) : State :=
  let s := s.setTokens (s.tokens + 4)
  let s := (s.setBit R.PWR_WING_STATUS 20 true).setFld R.PWR_WING_STATUS 19 16 w
  let s := (s.setFld (R.PWR_RAIL w) 31 30 1).setFld (R.PWR_RAIL w) 9 0 (s.setting w s.railPoint)
  s.modWing w fun x => { x with requestAt := none, rampAt := some s.time }

/-- INRUSH_GRANT (R348): at a step of the cap with a headroom of 200 W the lowest waiting wing is granted its tokens, one at a time. -/
def execInrushGrant (s : State) : Result :=
  match s.waiting with
  | w :: _ => s.when (s.timeRunning && s.pwr.lastStep == s.time && !s.ramping && 200 ≤ s.headroom) (s.rampStart w)
  | [] => .next s

/-- R348: the count at which a ramp has reached its setting at the point in force, at 1 mV per microsecond, and settled for 20 us. -/
def State.rampDue (s : State) (w at_ : Nat) : Nat := at_ + 1000 * s.setting w s.railPoint + 20000

/-- R326, R332, R348: the wing's clock starts at the point in force, its rail at the settings that the other rails hold or ramp to. -/
def State.wingStarts (s : State) (w : Nat) : State :=
  let s := ((s.setFld (R.PWR_RAIL w) 31 30 2).setFld (R.PWR_RAIL w) 9 0 (s.setting w s.railPoint)).setBit R.PWR_WING_STATUS w true
  let s := (s.setBit R.PWR_WING_STATUS 20 false).setFld R.PWR_WING_STATUS 19 16 0
  let s := s.setBit R.CLK_WING_RUN w true
  let s := s.modWing w fun x =>
    { x with rampAt := none, clockAt := some s.time, tokensUntil := some (s.time + 1000000), cycle := 0, phase := 0, pulses := 0 }
  s.alignSeams (· == w)

/-- WING_CLOCK_START (R348, R325): after the ramp the wing's clock starts, unless REFCLK_SYS is lost or a switch window is open. -/
def execWingClockStart (w : Nat) (s : State) : Result :=
  match (s.wing w).rampAt with
  | some at_ => s.when (w < 16 && s.railState w == 1 && s.rampDue w at_ ≤ s.time && s.clk.window.isNone && !s.clk.oscillator) (s.wingStarts w)
  | none => .next s

/-- INRUSH_RELEASE (R348): the tokens return 1 ms after the clock started. -/
def execInrushRelease (w : Nat) (s : State) : Result :=
  match (s.wing w).tokensUntil with
  | some at_ => s.when (at_ ≤ s.time) ((s.setTokens (s.tokens - 4)).modWing w fun x => { x with tokensUntil := none })
  | none => .next s

/-! ### The end of a power-up in service (R388) -/

/-- R244, R258, R378: a stack is withdrawn whole, with its encoding and its depth as they were. -/
def State.withdrawStack (s : State) (k : Nat) : State :=
  let s := s.setFld (R.MEM_STK_USABLE k) 15 0 0
  let tb := s.cat.tables
  let tb := { tb with usable := Map.set (fun _ => 32768) tb.usable k 0 }
  ({ s with cat := { s.cat with tables := tb } }).catDirty false

/-- R378, R443: a start-up test finds a site dead: its entry, and a SITE_DEAD record of cause 4. -/
def State.startDead (s : State) (t : Nat) : State :=
  if s.siteStatus t == 1 then s
  else (s.markSiteDead t 2 1 s.time).curFault 0x08 (le 2 t ++ le 1 4)

/-- R249, R388: the units that have a band in a stack. -/
def State.unitsIn (s : State) (k : Nat) : List Nat :=
  (unitsOf s.fab.active).filter fun u => (s.unitBands u).any fun b => b.1 == k

/-- R388: the bands of a stack are zeroed under the keys in force. -/
def State.zeroStack (s : State) (k : Nat) : State :=
  (s.unitsIn k).foldl (fun s u => (s.unitBands u).foldl (fun s b => if b.1 == k then s.zeroBand k b.2 (s.keyOfUnit u) else s) s) s

/-- R249, R388: the bands of some stacks are zeroed under new epochs of their units (log entry 102). -/
def State.zeroStacks (s : State) (ks : List Nat) : State :=
  let s := ((ks.flatMap s.unitsIn).eraseDups).foldl (fun s u => s.newEpoch u) s
  ks.foldl (fun s k => s.zeroStack k) s

/-- R390: TILE_IFT_LAST of a site. -/
def State.tested (s : State) (t at_ : Nat) : State := s.setTreg64 t R.TILE_IFT_LAST_LO at_

/-! ### Rail faults (R349) -/

/-- R349, R442, R443: the partitions of the active image that hold a site of the wing. -/
def State.partsInWing (s : State) (w : Nat) : List Nat :=
  ((wingSites w).filterMap fun t => s.partOf t).eraseDups

/-- R349: a wing's rail trips: it is lost and dead for good, its sites are recorded, and the jobs on it fail. -/
def State.railTrip (s : State) (w amps mv : Nat) : State :=
  let parts := s.partsInWing w
  let wasRamping := s.railState w == 1
  let held := wasRamping || (s.wing w).tokensUntil.isSome
  let s := if held then s.setTokens (s.tokens - 4) else s
  let s := if wasRamping then (s.setBit R.PWR_WING_STATUS 20 false).setFld R.PWR_WING_STATUS 19 16 0 else s
  let s := s.loseWing w
  let s := (s.railOff w 3).setFld (R.PWR_RAIL w) 29 16 amps
  let at_ := s.time
  let s := s.curFault 0x20 (le 1 w ++ le 2 amps ++ le 2 mv)
  let newly := (wingSites w).filter fun t => s.siteStatus t != 1
  let s := s.markWingDead w 3 at_
  let s := (s.withdrawStack (2 * w)).withdrawStack (2 * w + 1)
  let s := newly.foldl (fun s t => s.curFault 0x08 (le 2 t ++ le 1 3)) s
  parts.foldl (fun s p => s.partFail p 0x20) s

/-- RAIL_TRIP (R349): a current above 480 A for 1 us, or while it is on and not ramping a lowest sensor below 0.52 V. -/
def execRailTrip (wing amps mv : Nat) (s : State) : Result :=
  s.when (wing < 16 && (s.railState wing == 1 || s.railState wing == 2) && (480 < amps || (s.railState wing == 2 && mv < 520)))
    (s.railTrip wing amps mv)

/-! ### The whole stage (R350, R367, R383) -/

/-- R396, R409: a port without VLINK is DOWN, unless it is DISABLED. -/
def State.portOff (s : State) (p : Nat) : State :=
  { s.setFld (R.LNK_PORT_STATUS p) 31 28 (if s.fld (R.LNK_PORT_STATUS p) 31 28 == 0 then 0 else 1) with
    ports := Map.erase p s.ports }

/-- The accesses of the host, its copy channels and its message ports that are in the networks. -/
def Net.hostUsers (n : Net) : List NetUser :=
  ((n.outbox.map (·.user)) ++ n.joins.map (·.user)).filter fun u =>
    match u with
    | .fn _ => true
    | .host _ => true
    | .copy .. => true
    | .debug => true
    | _ => false

/-- R350, R367, R383: every output except VAON is shut off: all wings, stacks, networks and ports are lost. -/
def State.stageOff (s : State) : State :=
  let s := allWings.foldl (fun s w => (s.modWing w WingPower.lost).railOff w 0) s
  let s := (s.setReg R.PWR_WING_STATUS 0).setFld R.CLK_WING_RUN 15 0 0
  let s := (List.range 32).foldl (fun s p => s.portOff p) s
  let s := (List.range 32).foldl (fun s k => s.loseStack k) s
  let users := s.net.hostUsers
  let s := { s with sites := [], net := { Net.start with nextId := s.net.nextId }, ctrlOut := [],
                    cur := { s.cur with tests := [], testRetry := [], windows := [] } }
  users.foldl (fun s u => s.netDone u 3 []) s

/-- R381: a trip of the stage calls for a cold start. -/
def State.tripped (s : State) : State := { s with cur := { s.cur with tripSince := true } }

/-- R350: the stage is on: some rail of it is held. -/
def State.stageOn (s : State) : Bool := s.timeRunning && s.pins.vin48 && !s.pins.stageTripped && !s.pins.tripLatched

/-- R345, R452: the pins that show the supplies. PWRGOOD is high while every rail that the stage is commanded to hold is at its setting and no
trip is latched; a rail that ramps is not (log entry 79). -/
def State.pwrgood (s : State) : Bool :=
  s.pins.vaux5 && s.pins.vin48 && !s.pins.stageTripped && !s.pins.tripLatched && allWings.all fun w => s.railState w != 1

/-- R345, R367, R452: FAULT_N and THERMTRIP_N are open-drain and active low. -/
def State.faultN (s : State) : Bool := !(s.pins.vaux5 && s.pins.faultLatched)
def State.thermtripN (s : State) : Bool := !(s.pins.vaux5 && s.pins.tripLatched)

/-- R422, R446: an event record lies between FLT_LOG_HEAD and FLT_LOG_TAIL. -/
def State.eventUnread (s : State) : Bool :=
  let head := (s.reg R.FLT_LOG_HEAD).toNat
  let n := ((s.reg R.FLT_LOG_TAIL).toNat + 2 ^ 32 - head) % 2 ^ 32
  (List.range 4096).any fun i => i < n && (Map.get (fun _ => FaultRec.blank) s.faults ((head + i) % 4096)).event

/-- R422, R452: SMB_ALERT_N, open-drain and active low, once Curator's firmware runs. -/
def State.smbAlertN (s : State) : Bool := !(s.pins.vaux5 && s.cur.running && s.eventUnread)

/-- R452, R455: TSYNC_OUT is driven from S1 on, and high for 100 ns at a pulse. -/
def State.tsyncOut (s : State) : Bool := s.pins.vaux5 && s.timeRunning && s.time < s.pins.tsyncOutUntil

/-- R453: MGMT_VREF is supplied while VAUX5 is; PRESENT_N is strapped to GND. -/
def State.mgmtVref (s : State) : Bool := s.pins.vaux5
def State.presentN (_ : State) : Bool := false

/-- R410, R419: the endpoint falls back to one lane at 8 GT/s when VLINK goes off. -/
def State.linkNarrow (s : State) : State :=
  if s.bit R.HST_LINK_STATUS 8 then
    ((s.setFld R.HST_LINK_STATUS 3 0 1).setFld R.HST_LINK_STATUS 7 4 (min 3 (s.fld R.HST_LINK_STATUS 7 4))).setBit R.HST_LINK_STATUS 9 false
  else s

/-- STAGE_TRIP (R350, R345, R380): a shared rail (0 VMEM_CORE, 1 VMEM_IO, 2 VLINK) fails, or VIN48 (3) falls below its minimum. -/
def execStageTrip (rail : Nat) (s : State) : Result :=
  let u := s.stageOff.tripped.linkNarrow
  let u := { u with pins := { u.pins with stageTripped := true, vin48 := u.pins.vin48 && rail != 3 } }
  s.when (rail < 4 && s.stageOn) ((u.assertFault.startFails 2).curFault 0x21 (le 1 rail))

/-- THERMAL_TRIP (R367): a sensor at 125 degrees or more: comparators shut the stage down and latch the trip. -/
def execThermalTrip (wing sensor : Nat) (temp : Int) (s : State) : Result :=
  let u := s.stageOff.tripped.linkNarrow
  let u := { u with pins := { u.pins with tripLatched := true } }
  let u := ((u.setBit R.THM_TRIP_STATUS 31 true).setFld R.THM_TRIP_STATUS 12 8 sensor).setFld R.THM_TRIP_STATUS 3 0 wing
  s.when (wing < 16 && sensor < 32 && 125 * 16 ≤ temp && s.stageOn)
    ((u.setReg64 R.THM_TRIP_TIME_LO s.time).assertFault.startFails 3)

/-! ### Device timers (R339) -/

/-- R339: the target site takes a timer's action. -/
def State.timerTarget (s : State) (owner t : Nat) : Bool := t < 3072 && (owner == 0xFE || s.partOf t == some owner)

/-- R339: the timer's action: a wake or a token at its target; a target that is not there is dropped with a record. -/
def State.timerAct (s : State) (n : Nat) : State :=
  let ctl := R.TIM_TIMER_CTL n
  let t := s.fld ctl 11 0
  let core := s.fld ctl 27 26
  let k := s.fld ctl 25 22
  let ok := match s.owner 3 n with
    | some o => s.timerTarget o t
    | none => false
  let drop := s.curFault 0x34 (le 1 n ++ le 2 t)
  match s.fld ctl 29 28 with
  | 1 =>
    if ok && core < (kindOf t).cores then (if s.wingUp (wingOf t) then s.both t fun s t => s.setEvent t core else s) else drop
  | 2 =>
    if ok && (kindOf t = .m || kindOf t = .v) then (if s.wingUp (wingOf t) then s.both t fun s t => s.addToken t k 1 else s) else drop
  | _ => s

/-- R339: the timer fires. -/
def State.timerFire (s : State) (n : Nat) : State :=
  ((s.setBit (R.TIM_TIMER_CTL n) 30 false).setBit (R.TIM_TIMER_CTL n) 31 true).timerAct n

/-- R339: a write of TIM_TIMER_CMP_n_HI arms the timer; a count already passed fires at once. -/
def State.timerArm (s : State) (n : Nat) (hi : BitVec 32) : State :=
  let s := ((s.takeLo (R.TIM_TIMER_CMP_HI n)).setReg (R.TIM_TIMER_CMP_HI n) hi).setBit (R.TIM_TIMER_CTL n) 30 true
  if s.timeRunning && s.reg64 (R.TIM_TIMER_CMP_LO n) ≤ s.time then s.timerFire n else s

/-- R338, R339: only the owner of a timer writes its registers; another agent's write sets reject. -/
def State.timerWrite (s : State) (a : Agent) (n : Nat) (u : State) : State :=
  if s.owns a 3 n then u else s.setBit (R.TIM_TIMER_CTL n) 21 true

/-- TIMER_ARM (R339). -/
def execTimerArm (a : Agent) (timer : Nat) (hi : BitVec 32) (s : State) : Result :=
  s.openWrite a (if timer < 32 then s.timerWrite a timer (s.timerArm timer hi) else s)

/-- TIMER_FIRE (R339): the time base has reached the count of an armed timer. -/
def execTimerFire (timer : Nat) (s : State) : Result :=
  s.when (timer < 32 && s.timeRunning && s.bit (R.TIM_TIMER_CTL timer) 30 && s.acted64 (R.TIM_TIMER_CMP_LO timer) ≤ s.time) (s.timerFire timer)

end Sys2Proof.Machine
end

