-- ==== Sys2Proof/Machine/Stages.lean ====
section
/-! DEFINITION. The start sequence (R371-R381), the reset sources (R382-R384) and the power inputs (R462). -/

namespace Sys2Proof.Machine

/-- Curator serves: it runs its firmware, is not restarting, and the start is complete. -/
def State.curatorUp (s : State) : Bool := s.stage == 5 && s.cur.running && !s.cur.restarting

/-! ### Firmware (R372) -/

def Flash.slot (f : Flash) (i : Nat) : FwSlot := if i == 0 then f.slotA else f.slotB

/-- R372: the ROM may run the slot. -/
def State.slotValid (s : State) (i : Nat) : Bool :=
  let f := s.flash.slot i
  f.signed && s.fuses.minSec ≤ f.secVersion && !s.cur.slotsRefused.contains i

/-- R372: the slot that the ROM runs: the valid one with the higher version, A on a tie. -/
def State.bootSlot (s : State) : Option Nat :=
  match s.slotValid 0, s.slotValid 1 with
  | true, true => some (if s.flash.slotA.version < s.flash.slotB.version then 1 else 0)
  | true, false => some 0
  | false, true => some 1
  | false, false => none

/-- R380: the error of the start. -/
def State.bootError (s : State) : Nat := s.fld R.CUR_BOOT_STATUS 31 28

/-- R372: the ROM runs a slot; with none valid it sets FW_NONE and asserts FAULT_N. -/
def State.bootFirmware (s : State) : State :=
  match s.bootSlot with
  | some i =>
    let s := { s with cur := { s.cur with running := true } }
    let s := if s.bootError == 1 then s.setFld R.CUR_BOOT_STATUS 31 28 0 else s
    (s.setBit R.CUR_BOOT_STATUS 7 (i == 1)).setFld R.CUR_BOOT_STATUS 23 8 (s.flash.slot i).version
  | none =>
    let s := { s with cur := { s.cur with running := false } }
    ((s.setFld R.CUR_BOOT_STATUS 31 28 1).setFld R.CUR_BOOT_STATUS 23 7 0).assertFault

/-- The slot that the running firmware came from. -/
def State.runningSlot (s : State) : Nat := s.fld R.CUR_BOOT_STATUS 7 7

/-- FW_ALIVE_TIMEOUT (R372): running firmware has not reported alive within 5 s of its boot: the ROM tries the other slot. -/
def execFwAliveTimeout (s : State) : Result :=
  let u := { s with cur := { s.cur with slotsRefused := s.cur.slotsRefused ++ [s.runningSlot] } }
  s.when (s.pins.vaux5 && s.stage == 0 && s.cur.running) u.bootFirmware

/-! ### Resets of the module (R382, R383, R462) -/

/-- R370, R394, R432, R447, R410: the registers that a module reset keeps: always-on registers, the fault ring's, the reference inputs' and
the endpoint's. -/
def keptByModuleReset (a : Nat) : Bool :=
  [R.CUR_BOOT_CTL, R.CLK_REF_STATUS, R.THM_TRIP_STATUS, R.THM_TRIP_TIME_LO, R.THM_TRIP_TIME_HI, R.SEC_DEBUG_SEEN, R.SEC_DEBUG_TIME_LO,
    R.SEC_DEBUG_TIME_HI, R.FLT_LOG_HEAD, R.FLT_LOG_TAIL, R.FLT_LOG_LOST, R.HST_LINK_STATUS, R.HST_ERR].contains a || 0x10000000 ≤ a

/-- R383: a module reset: every domain but the always-on domain returns to its reset state, the trips and FAULT_N are released, and Curator
boots from ROM. -/
def State.moduleReset (s : State) : State :=
  let s := s.stageOff.linkNarrow
  let n := State.reset
  let u : State :=
    { n with
      pending := s.pending, freeCtr := s.freeCtr, fuses := s.fuses, flash := s.flash, msix := s.msix, faults := s.faults,
      regs := (s.regs.filter fun e => keptByModuleReset e.1),
      pins := { s.pins with faultLatched := false, tripLatched := false, stageTripped := false, tsyncOutUntil := 0 },
      cur := { n.cur with afterVaux := false, reachedS5 := s.cur.reachedS5, tripSince := s.cur.tripSince,
                          infieldLostSinceCold := s.cur.infieldLostSinceCold, starts := s.cur.starts },
      net := Net.start,
      hst := { s.hst with mbxReq := [], mbxRsp := [], mbxWork := none, session := false, unlocking := [] } }
  -- R341: a loss noted before the reset is not kept, the presence of the references is
  (u.setFld R.CLK_REF_STATUS 31 3 0).bootFirmware

/-- MOD_RESET (R383, R455): MOD_RESET_N held low; a pulse under 10 us is not taken. -/
def execModReset (lowNs : Nat) (s : State) : Result := s.when (s.pins.vaux5 && 10000 ≤ lowNs) s.moduleReset

/-- MODULE_RESET_COMMAND (R383, R394): cmd = 1 in CUR_RESET_CMD. -/
def execModuleResetCommand (a : Agent) (s : State) : Result := s.devWrite a R.CUR_RESET_CMD s.moduleReset

/-- VAUX5_LOSS (R462): all state is lost, with the always-on registers and the ring; the fuses and the SPI NOR keep theirs. -/
def execVaux5Loss (s : State) : Result :=
  let n := State.reset
  .next { n with
    pending := s.pending, freeCtr := s.freeCtr, fuses := s.fuses, flash := s.flash, regs := [],
    pins := { n.pins with vaux5 := false, vin48 := s.pins.vin48, perstN := s.pins.perstN, bringEn := s.pins.bringEn },
    cur := { n.cur with running := false } }

/-- VAUX5_APPLY (R382): everything takes its reset state, and Curator enters S0 for a cold start. -/
def execVaux5Apply (s : State) : Result :=
  let n := State.reset
  let u : State :=
    { n with
      pending := s.pending, freeCtr := s.freeCtr, fuses := s.fuses, flash := s.flash,
      pins := { n.pins with vin48 := s.pins.vin48, perstN := s.pins.perstN, bringEn := s.pins.bringEn } }
  let u := (u.setReg R.CUR_BOOT_STATUS 0).setFld R.CUR_BOOT_CTL 31 16 s.flash.hours
  s.when (!s.pins.vaux5) u.bootFirmware

/-- VIN48_CHANGE (R462): VIN48 is applied or removed while the stage holds only VAON. -/
def execVin48Change (applied : Bool) (s : State) : Result :=
  s.when (!s.stageOn) { s with pins := { s.pins with vin48 := applied } }

/-! ### Curator alone (R384) -/

/-- R384: Curator restarts: an armed swap is cancelled, tests are aborted and a request of the mailbox is lost; in a start that has not
reached S5 the start begins again from S0. -/
def State.restart (s : State) : State :=
  let s := if s.armed then s.disarm 2 else s
  let s := s.cur.tests.foldl (fun s e => s.abortTest e.1) s
  let again := s.stage == 5 || s.cur.restarting
  let s := { s with cur := { s.cur with restarting := again, slotsRefused := [] }, hst := { s.hst with mbxWork := none, session := false, unlocking := [] } }
  let s := (s.setFld R.HST_MBX_STATUS 1 0 0).modSec fun x => { x with silent := [] }
  (s.setFld R.CUR_BOOT_STATUS 2 0 0).bootFirmware

/-- CURATOR_RESTART (R384, R394): cmd = 2 in CUR_RESET_CMD. -/
def execCuratorRestart (a : Agent) (s : State) : Result := s.devWrite a R.CUR_RESET_CMD s.restart

/-- WATCHDOG_RESTART (R382): 2 s without service. -/
def execWatchdogRestart (idleMs : Nat) (s : State) : Result := s.when (s.pins.vaux5 && s.cur.running && 2000 ≤ idleMs) s.restart

/-! ### S1 (R373, R381) -/

/-- R381: the first condition of a warm start that fails; 0 for a warm start. -/
def State.coldReason (s : State) : Nat :=
  if s.cur.afterVaux then 1
  else if !s.bit R.CUR_BOOT_CTL 0 then 2
  else if !s.cur.reachedS5 then 3
  else if s.cur.tripSince then 4
  else if s.cur.infieldLostSinceCold then 5
  else if 2000 ≤ s.fld R.CUR_BOOT_CTL 31 16 then 6
  else 0

/-- This start is warm. -/
def State.warm (s : State) : Bool := s.bit R.CUR_BOOT_STATUS 6

/-- R31: the worst of two statuses, ordered good, degraded, dead. -/
def statusRank (n : Nat) : Nat := if n == 1 then 2 else if n == 2 then 1 else 0

/-- R31: a fused site entry is merged into the tables; a held site stays held with its underlying status merged, unless the fuses make
it dead. -/
def mergeSite (acc : CatTables × List (Nat × Nat)) (e : Nat × Nat) : CatTables × List (Nat × Nat) :=
  let old := acc.1.site e.1
  let f := e.2
  let repairs := max (old / 256) (f / 256)
  let status := entryStatus f
  let set (x : Nat) : CatTables := { acc.1 with sites := Map.set siteEntryReset acc.1.sites e.1 x }
  if entryStatus old == 3 && status != 1 then
    let u := Map.get (fun _ => 0) acc.2 e.1
    let v := if statusRank u < statusRank status then status else u
    (set (mkEntry repairs (bitsOf old 7 6) 3 (old % 16)), Map.set (fun _ => 0) acc.2 e.1 v)
  else if entryStatus old == 3 || statusRank (entryStatus old) < statusRank status then
    (set (mkEntry repairs (bitsOf f 7 6) status (old % 16)), Map.erase e.1 acc.2)
  else (set (mkEntry repairs (bitsOf old 7 6) (entryStatus old) (old % 16)), acc.2)

/-- R39: the entries of the sites of a wing that the fuses give as dead. -/
def deadWingSites (w : Nat) : List (Nat × Nat) := (wingSites w).map fun t => (t, mkEntry 0 3 1 (siteEntryReset t))

/-- R31: tables and underlying statuses merged with the fuses: statuses by the worst, repairs by the maximum, rows, links and wings by the
union. -/
def Fuses.merge (f : Fuses) (c : CatTables × List (Nat × Nat)) : CatTables × List (Nat × Nat) :=
  let m := (f.sites ++ f.deadWings.flatMap deadWingSites).foldl mergeSite c
  let wings := f.deadWings.foldl (fun t w => Map.set (fun _ => 0) t w (Map.get (fun _ => 0) t w / 4 * 4 + 1)) m.1.wings
  let retired := (f.retired.filter fun e => !m.1.retired.contains e).foldl addRetired m.1.retired
  ({ m.1 with retired := retired, wings := wings, seams := m.1.seams ++ f.seams.filter fun i => !m.1.seams.contains i }, m.2)

/-- R31: the stored record, from the first copy that passes its digest check. -/
def Flash.stored (f : Flash) : Option (CatTables × List (Nat × Nat)) :=
  match f.storedA with
  | some c => some c
  | none => f.storedB

/-- R31: the catalogue that the start begins with. -/
def State.startTables (s : State) : State :=
  match s.flash.stored with
  | some c =>
    let m := if s.warm then c else s.fuses.merge c
    { s with cat := { s.cat with tables := m.1, underlying := m.2 } }
  | none =>
    let m := s.fuses.merge (.empty, [])
    let s := { s with cat := { s.cat with tables := m.1, underlying := m.2 }, cur := { s.cur with infieldLostSinceCold := true } }
    (s.setBit R.CAT_STATUS 1 true).curFault 0x35 []

/-- R373: a wing's rail comes up at P4 and its clock starts. -/
def State.wingAtStart (s : State) (w : Nat) : State :=
  let s := (s.setFld (R.PWR_RAIL w) 31 30 2).setFld (R.PWR_RAIL w) 9 0 (s.setting w s.point)
  let s := (s.setBit R.PWR_WING_STATUS w true).setBit R.CLK_WING_RUN w true
  s.modWing w fun x => { x with clockAt := some s.time, clamped := false, pulses := 0 }

/-- The key of one direction of a seam link or crossing: network 0 BN, 1 CN, 2 SN; the link as R39 numbers seam links; its direction. -/
def wireKey (net link dir : Nat) : Nat := (net * 384 + link) * 2 + dir

/-- R24: the spare wires of one direction. -/
def spareWires (net : Nat) : Nat := if net == 0 then 8 else 2

/-- R24: the wires that a self-test finds failed, as (network, link, direction, wires), are replaced from the spares, as far as these go. -/
def wiresUsed (failed : List (Nat × Nat × Nat × Nat)) : List (Nat × Nat) :=
  failed.foldl (fun m e => Map.set (fun _ => 0) m (wireKey e.1 e.2.1 e.2.2.1) (if e.2.2.2 ≤ spareWires e.1 then e.2.2.2 else 0)) []

/-- R24: the BN seam links with more failed wires in a direction than it has spares. -/
def brokenSeams (failed : List (Nat × Nat × Nat × Nat)) : List Nat :=
  (failed.filterMap fun e => if e.1 == 0 && spareWires 0 < e.2.2.2 then some e.2.1 else none).eraseDups

/-- R39: the seam links on a boundary of a wing: 0 north, 1 east, 2 south, 3 west. -/
def boundaryLinks (w side : Nat) : List Nat :=
  let x := w % 4
  let y := w / 4
  match side with
  | 0 => if 0 < y then (List.range 16).map fun i => 144 + (y - 1) * 64 + 16 * x + i else []
  | 1 => if x < 3 then (List.range 12).map fun i => x * 48 + 12 * y + i else []
  | 2 => if y < 3 then (List.range 16).map fun i => 144 + y * 64 + 16 * x + i else []
  | _ => if 0 < x then (List.range 12).map fun i => (x - 1) * 48 + 12 * y + i else []

/-- R39: the most spare wires in use in a direction of any BN link of a boundary. -/
def State.boundarySpares (s : State) (w side : Nat) : Nat :=
  ((boundaryLinks w side).flatMap fun i => [0, 1].map fun d => Map.get (fun _ => 0) s.wires (wireKey 0 i d)).foldl max 0

/-- R39, R40: the wing entry takes the spare counts of this start's repair. -/
def State.noteSpares (s : State) (w : Nat) : State :=
  let tb := s.cat.tables
  let old := Map.get (fun _ => 0) tb.wings w
  let new := 2 ^ 20 * s.boundarySpares w 3 + 2 ^ 16 * s.boundarySpares w 2 + 2 ^ 12 * s.boundarySpares w 1 + 2 ^ 8 * s.boundarySpares w 0 +
    old % 256
  if new == old then s else
  let r : CatRecord := { time := s.time, code := 4, target := w, origin := 1, old := old, new := new, detail := 0 }
  let tb := { tb with wings := Map.set (fun _ => 0) tb.wings w new, records := addRecord s.time tb.records r }
  ({ s with cat := { s.cat with tables := tb } }).catDirty false

/-- R24, R40: a seam link fails its self-test. -/
def State.seamFails (s : State) (i : Nat) : State :=
  let tb := s.cat.tables
  if 336 ≤ i || tb.seams.contains i then s else
  let r : CatRecord := { time := s.time, code := 5, target := i, origin := 1, old := 0, new := 1, detail := 0 }
  let tb := { tb with seams := tb.seams ++ [i], records := addRecord s.time tb.records r }
  ({ s with cat := { s.cat with tables := tb } }).catDirty false

/-- R325, R371: S0 may be left. Once REFCLK_SYS has been lost, only after a module reset. -/
def State.leavesS0 (s : State) : Bool :=
  s.stage == 0 && !s.cur.restarting && s.cur.running && s.pins.vaux5 && s.pins.vin48 && s.bit R.CLK_REF_STATUS 0 && s.bootError == 0 &&
  !s.clk.oscillator && !s.pins.stageTripped && !s.pins.tripLatched

/-- R373: S1 fixes the start kind and TIME starts; every wing is to come up at P4, with no switch pending (R326). -/
def State.bootS1 (s : State) : State :=
  let reason := s.coldReason
  let s := { s with time := 0, timeRunning := true, sites := [],
                    cur := { s.cur with starts := s.cur.starts + 1, reachedS5 := false, infieldLostSinceCold := s.cur.infieldLostSinceCold && reason == 0 } }
  let s := ((s.setFld R.CUR_BOOT_STATUS 27 24 reason).setBit R.CUR_BOOT_STATUS 6 (reason == 0)).setFld R.CUR_BOOT_STATUS 2 0 1
  let s := if reason == 0 then s else ((s.setReg R.SEC_DEBUG_SEEN 0).setReg64 R.SEC_DEBUG_TIME_LO 0)
  let s := { s with cat := .start, pwr := .start }
  let s := s.setReg R.CLK_OP_STATUS 0x44
  { s with clk := { s.clk with window := none, raise := false, lower := false, checked := false, settleStart := none } }

/-- R373: the wings come up, or fail with the cause and the value that the command names. -/
def State.wingsS1 (s : State) (deadWings : List (Nat × Nat × Nat)) : State :=
  allWings.foldl (fun s w =>
    if s.wingDead w then s
    else
      let s := s.wingAtStart w
      match deadWings.find? fun e => e.1 == w with
      | some e => s.railTrip w e.2.1 e.2.2
      | none => s) s

/-- R373: seams are tested, with the wires found failed, and at a cold start the spares used are noted. -/
def State.seamsS1 (s : State) (wires : List (Nat × Nat × Nat × Nat)) (cold : Bool) : State :=
  let s := { s with wires := wiresUsed wires }
  let s := (brokenSeams wires).foldl (fun s i => s.seamFails i) s
  if cold then allWings.foldl (fun s w => s.noteSpares w) s else s

/-- R373: the work of S1: the start kind is fixed, TIME starts, the wings come up, seams and routers are tested. -/
def State.stageS1 (s : State) (deadWings : List (Nat × Nat × Nat)) (wires : List (Nat × Nat × Nat × Nat)) (deadRouters : List Nat) : State :=
  let cold := s.coldReason != 0
  let s := (s.bootS1.startTables.wingsS1 deadWings).seamsS1 wires cold
  let s := (deadRouters.filter fun t => t < 3072 && s.wingUp (wingOf t)).foldl (fun s t => s.startDead t) s
  let s := (s.alignSeams fun _ => true).buildRoutes
  if allSites.any fun t => s.live t && s.wingUp (wingOf t) then s else s.startFails 5

/-- STAGE_S1 (R371, R373). -/
def execStageS1 (deadWings : List (Nat × Nat × Nat)) (wires : List (Nat × Nat × Nat × Nat)) (deadRouters : List Nat) (s : State) : Result :=
  s.when s.leavesS0 (s.stageS1 deadWings wires deadRouters)

/-! ### S2 (R375-R377) -/

/-- R380: the start is under way with no error. -/
def State.inStage (s : State) (n : Nat) : Bool := s.stage == n && s.bootError == 0 && s.stageOn && s.cur.running && !s.cur.restarting

/-- R38, R40: a retired-row entry is added with its RETIRE record. -/
def State.retireRow (s : State) (e origin : Nat) : State :=
  let tb := s.cat.tables
  if tb.retired.contains e then s else
  let r : CatRecord :=
    { time := s.time, code := 3, target := bitsOf e 63 59, origin := origin, old := 0, new := 0, detail := e }
  let tb := { tb with retired := addRetired tb.retired e, records := addRecord s.time tb.records r }
  ({ s with cat := { s.cat with tables := tb } }).catDirty false

/-- The rows of a bank that are retired one by one, and whether it is retired whole. -/
def CatTables.rowsIn (c : CatTables) (stack channel bank : Nat) : Nat :=
  (c.retired.filter fun e => bitsOf e 63 59 == stack && bitsOf e 58 54 == channel && bitsOf e 50 46 == bank && bitsOf e 27 26 == 0).length
def CatTables.bankWhole (c : CatTables) (stack channel bank : Nat) : Bool :=
  c.retired.any fun e => bitsOf e 63 59 == stack && bitsOf e 58 54 == channel && bitsOf e 50 46 == bank && bitsOf e 27 26 == 1

def banks : List Nat := List.range 32

/-- The channels of a stack that have a retired row. -/
def CatTables.wornChannels (c : CatTables) (stack : Nat) : List Nat :=
  ((c.retired.filter fun e => bitsOf e 63 59 == stack).map fun e => bitsOf e 58 54).eraseDups

/-- R257: a bank that holds more than 64 retired rows is retired whole. -/
def State.retireBanks (s : State) : State :=
  (List.range 32).foldl (fun s k =>
    (s.cat.tables.wornChannels k).foldl (fun s ch =>
      banks.foldl (fun s b =>
        if 64 < s.cat.tables.rowsIn k ch b && !s.cat.tables.bankWhole k ch b then s.retireRow (retiredEntry k ch 0 b 0 + 2 ^ 26) 1 else s) s) s) s

/-- R256, R257: the rows borrowed in a bank: those beyond its 16 spares, and what it lends to banks of its channel that are retired
whole: 529 rows from each of the first 16 of the other banks and 528 from each of the rest. -/
def CatTables.borrowed (c : CatTables) (stack channel bank : Nat) : Nat :=
  let own := if c.bankWhole stack channel bank then 0 else c.rowsIn stack channel bank - 16
  let lent (w : Nat) : Nat := if (if bank < w then bank else bank - 1) < 16 then 529 else 528
  own + ((banks.filter fun w => w != bank && c.bankWhole stack channel w).map lent).sum

/-- R256: D of a stack. -/
def CatTables.depth (c : CatTables) (stack : Nat) : Nat :=
  min 16384 (((c.wornChannels stack).flatMap fun ch => banks.map fun b => c.borrowed stack ch b).foldl max 0)

/-- R256: the rows that replace the retired rows of a bank, each with its row key: the lowest unused spare, named as row 16,384 + i, and after the 16
spares the bank's highest row not yet borrowed. Which rows of the other banks replace those of a bank that is retired whole the spec does not say
(log entry 103). -/
def CatTables.bankRemaps (c : CatTables) (stack channel bank : Nat) : List (Nat × Nat) :=
  if c.bankWhole stack channel bank then [] else
  let rows := (c.retired.filter fun e =>
    bitsOf e 63 59 == stack && bitsOf e 58 54 == channel && bitsOf e 50 46 == bank && bitsOf e 27 26 == 0).map fun e => bitsOf e 45 28
  ((List.range rows.length).zip rows).map fun e =>
    (rowKey stack channel bank e.2, if e.1 < 16 then 16384 + e.1 else 16383 - (e.1 - 16))

/-- R256: the remaps of every bank. -/
def CatTables.remaps (c : CatTables) : List (Nat × Nat) :=
  (List.range 32).foldl (fun m k => (c.wornChannels k).foldl (fun m ch => banks.foldl (fun m b =>
    (c.bankRemaps k ch b).foldl (fun m e => Map.set (fun _ => 0) m e.1 e.2) m) m) m) []

/-- R256: the capacity of a stack after borrowing, R251: and its failed dies, found before any data is written. -/
def State.stackAtStart (s : State) (k : Nat) (dies : List Nat) : State :=
  let tb := s.cat.tables
  let d := tb.depth k
  let bad := (List.range 8).filter fun i => (Map.get (fun _ => 0) tb.dieFailed k).testBit i || dies.contains i
  let second := 2 ≤ bad.length
  let gone := !s.wingUp (k / 2) || second || Map.get (fun _ => 32768) tb.usable k == 0
  let usable := if gone then 0 else 32768 - 2 * d
  let tb := { tb with usable := Map.set (fun _ => 32768) tb.usable k usable, dieFailed := Map.set (fun _ => 0) tb.dieFailed k (maskOf bad) }
  let s := { s with cat := { s.cat with tables := tb } }
  let s := (s.setFld (R.MEM_STK_STATE k) 15 8 (maskOf bad)).setFld (R.MEM_STK_STATE k) 17 16 (if second then 2 else if bad.isEmpty then 0 else 1)
  (s.setFld (R.MEM_STK_USABLE k) 15 0 usable).setFld (R.MEM_STK_USABLE k) 31 16 d

/-- R26, R29, R31, R375: a cold BIST repairs a site's SRAM n times beyond its fused repairs; a macro left without a spare makes the site
degraded. The repair count is the maximum of fused, stored and this start's. -/
def State.softRepair (s : State) (t n : Nat) (full : Bool) : State :=
  let e := s.cat.tables.site t
  let fused := Map.get (fun _ => 0) s.fuses.sites t / 256
  let s := s.setEntry t (mkEntry (max (e / 256) (fused + n)) (bitsOf e 7 6) (entryStatus e) (e % 16)) 1 0
  let s := { s with flash := { s.flash with softRepairs := Map.set (fun _ => 0) s.flash.softRepairs t n } }
  if full then s.markDegraded t 2 1 0 else s

/-- R375-R377: the work of S2. A cold start repairs the SRAM of sites anew, each as (site, soft repairs, a macro has no spare left); a warm
start applies the stored repairs and runs no pattern test and no retention profiling. -/
def State.stageS2 (s : State) (deadSites withdrawn : List Nat) (repairs : List (Nat × Nat × Bool)) (retired : List (BitVec 64))
    (failedDies : List (Nat × Nat)) : State :=
  let s := (deadSites.filter fun t => t < 3072 && kindOf t != .mi).foldl (fun s t => s.startDead t) s
  let s := if s.warm then s else
    let here := repairs.filter fun e => e.1 < 3072 && kindOf e.1 != .mi && s.live e.1 && s.wingUp (wingOf e.1)
    let s := { s with flash := { s.flash with softRepairs := [] } }
    let s := here.foldl (fun s e => s.softRepair e.1 e.2.1 e.2.2) s
    let rows := s.flash.pendingRows ++ retired.map fun e => e.toNat / 2 ^ 28 * 2 ^ 28
    let s := (rows.foldl (fun s e => s.retireRow e 1) s).retireBanks
    { s with flash := { s.flash with pendingRows := [] } }
  let s := (List.range 32).foldl (fun s k =>
    s.stackAtStart k (if s.warm then [] else (failedDies.filter fun e => e.1 == k).map (·.2))) s
  let s := (withdrawn.filter (· < 32)).foldl (fun s k => s.withdrawStack k) s
  let d : Dram := { Dram.start with zeroedAt := s.cur.starts, zeroedEpochs := s.dram.epochs, epochs := s.dram.epochs,
                                    remaps := s.cat.tables.remaps }
  { s with dram := d }.setFld R.CUR_BOOT_STATUS 2 0 2

/-- STAGE_S2 (R375-R377). The sites are those that failed, and the repairs. -/
def execStageS2 (sites : List Nat × List (Nat × Nat × Bool)) (withdrawn : List Nat) (retired : List (BitVec 64))
    (failedDies : List (Nat × Nat)) (s : State) : Result :=
  s.when (s.inStage 1) (s.stageS2 sites.1 withdrawn sites.2 retired failedDies)

/-! ### S3 to S5 -/

def State.port (s : State) (p : Nat) : Port := Map.get (fun _ => Port.start) s.ports p
def State.modPort (s : State) (p : Nat) (f : Port → Port) : State := { s with ports := Map.modify (fun _ => Port.start) s.ports p f }
def allPorts : List Nat := List.range 32

/-- R409: the state of a port: 0 DISABLED, 1 DOWN, 2 TRAINING, 3 UP, 4 RETRAINING. -/
def State.portState (s : State) (p : Nat) : Nat := s.fld (R.LNK_PORT_STATUS p) 31 28
def State.setPortState (s : State) (p v : Nat) : State := s.setFld (R.LNK_PORT_STATUS p) 31 28 v

/-- STAGE_S3 (R371, R398): every port may begin its attempts, and the endpoint offers its full function. -/
def execStageS3 (s : State) : Result :=
  let u := allPorts.foldl (fun (s : State) p => (s.setPortState p 1).modPort p fun _ => { Port.start with nextTry := s.time }) s
  s.when (s.inStage 2) (u.setFld R.CUR_BOOT_STATUS 2 0 3)

/-- R398: S3 leaves once every port is UP or has made its five attempts. -/
def State.portsSettled (s : State) : Bool :=
  allPorts.all fun p => s.portState p == 3 || s.portState p == 0 || (s.portState p == 1 && 5 ≤ (s.port p).tries)

/-- R37: the catalogue entry of a port, from its last training; `fails` is the count of R37. -/
def State.portEntry (s : State) (p fails : Nat) : Nat :=
  let up := s.portUp p
  min 255 fails * 2 ^ 12 + s.fld (R.LNK_PORT_LANES p) 8 0 * 8 + (if up then s.fld (R.LNK_PORT_STATUS p) 22 20 else 0)

/-- R37, R40: the entry of a port as it now is, with the counted trainings that it does not hold yet. -/
def State.publishPort (s : State) (p origin : Nat) : State :=
  let tb := s.cat.tables
  let old := Map.get (fun _ => 0) tb.ports p
  let attempts := s.fld (R.LNK_PORT_STATUS p) 16 9
  let new := s.portEntry p (bitsOf old 19 12 + (attempts - (s.port p).counted))
  let r : CatRecord := { time := s.time, code := 2, target := p, origin := origin, old := old, new := new, detail := 0 }
  let s := s.modPort p fun q => { q with counted := attempts }
  if new == old then s else
  let tb := { tb with ports := Map.set (fun _ => 0) tb.ports p new, records := addRecord s.time tb.records r }
  ({ s with cat := { s.cat with tables := tb } }).catDirty false

/-- R31, R380, R400: the catalogue takes the result of S3. A warm start leaves the stored entries but for the loss of a port that is not
trained (log entry 78). -/
def State.portsAtStart (s : State) : State :=
  (allPorts.filter fun p => !s.warm || !s.portUp p).foldl (fun s p => s.publishPort p 1) s

/-- R378: the spare column of a site's array is used: the repair is counted, and the site, with no spare column left, is degraded. -/
def State.useSpare (s : State) (t origin : Nat) : State := (s.countRepair t origin).markDegraded t 2 origin 0

/-- R39, R388: the seam links and crossings on a boundary of a wing. -/
def wingLinks (w : Nat) : List Nat := (List.range 4).flatMap fun side => boundaryLinks w side

/-- The wings that share a boundary with a wing, itself among them. -/
def wingsAt (w : Nat) : List Nat := allWings.filter fun v => v == w || (wingLinks v).any (wingLinks w).contains

/-- R24, R39, R388: the self-test of a wing's seam links in service replaces failed wires from the spares; the entries of the wings on both sides
take the counts. -/
def State.testWingLinks (s : State) (w : Nat) (wires : List (Nat × Nat × Nat × Nat)) : State :=
  let here := wires.filter fun e => (wingLinks w).contains e.2.1
  let s := { s with wires := (wiresUsed here).foldl (fun m e => Map.set (fun _ => 0) m e.1 e.2) s.wires }
  (wingsAt w).foldl (fun s v => s.noteSpares v) ((brokenSeams here).foldl (fun s i => s.seamFails i) s)

/-- WING_POWER_UP_DONE (R388): isolation is released and the wing's routers carry traffic. Results are recorded as at a start: failed wires are
replaced, a repaired array uses its spare column, a site that failed its test is dead, each other takes the TIME of its test, and stacks that
failed are withdrawn. The sites are those that failed and those repaired; the others are the stacks that failed and the failed wires. -/
def execWingPowerUpDone (w : Nat) (sites : List Nat × List Nat) (others : List Nat × List (Nat × Nat × Nat × Nat)) (bist : Nat) (s : State) :
    Result :=
  let failed := sites.1
  let x := s.wing w
  let here := (wingSites w).filter s.live
  let bad := here.filter failed.contains
  let good := here.filter fun t => !failed.contains t && kindOf t != .mi
  let u := s.modWing w fun x => { x with inService := false, clamped := false }
  let u := u.testWingLinks w others.2
  let u := (good.filter fun t => sites.2.contains t && kindOf t = .m).foldl (fun s t => s.useSpare t 1) u
  let u := bad.foldl (fun s t => s.startDead t) u
  let u := good.foldl (fun s t => s.tested t bist) u
  let gone := [2 * w, 2 * w + 1].filter fun k => others.1.contains k || bad.any fun t => kindOf t = .mi && (miStack t).1 == k
  let u := gone.foldl (fun s k => s.withdrawStack k) u
  let u := u.zeroStacks [2 * w, 2 * w + 1]
  s.when (w < 16 && x.inService && s.railState w == 2 && x.clockAt.isSome && x.clockAt.getD 0 ≤ bist && bist ≤ s.time && s.curatorUp)
    (u.catDirty false)

/-- R378, R379: the work of S4: logic BIST, the constant sets, and the publication. -/
def State.stageS4 (s : State) (repaired deadSites crcDead : List Nat) : State :=
  let here (t : Nat) : Bool := t < 3072 && s.live t && s.wingUp (wingOf t)
  let s := (repaired.filter fun t => here t && kindOf t = .m).foldl (fun s t => s.useSpare t 1) s
  let bad := ((deadSites ++ crcDead).filter here).eraseDups
  let s := bad.foldl (fun s t => s.startDead t) s
  let s := (bad.filter fun t => kindOf t = .mi).foldl (fun s t => s.withdrawStack (miStack t).1) s
  let good := allSites.filter fun t => s.live t && s.wingUp (wingOf t) && kindOf t != .mi
  let s := good.foldl (fun s t => s.tested t s.time) s
  let s := s.portsAtStart.setBit R.CAT_STATUS 3 s.warm
  s.publish.setFld R.CUR_BOOT_STATUS 2 0 4

/-- STAGE_S4 (R378, R379). -/
def execStageS4 (repaired deadSites crcDead : List Nat) (s : State) : Result :=
  s.when (s.inStage 3 && s.portsSettled) (s.stageS4 repaired deadSites crcDead)

/-- R379, R381: a start completes; a cold one sets hours_since_cold to 0. -/
def State.startDone (s : State) : State :=
  let s := { s with cur := { s.cur with reachedS5 := true, tripSince := false } }
  let s := if s.warm then s else
    { s with flash := { s.flash with hours := 0 } }.setFld R.CUR_BOOT_CTL 31 16 0
  s.setFld R.CUR_BOOT_STATUS 2 0 5

/-- STAGE_S5 (R371, R379, R384): the start completes, or a Curator restart ends. -/
def execStageS5 (s : State) : Result :=
  if s.cur.restarting then
    let u := { s with cur := { s.cur with restarting := false } }
    s.when (s.stage == 0 && s.cur.running && s.pins.vaux5) (u.setFld R.CUR_BOOT_STATUS 2 0 5)
  else s.when (s.inStage 4) s.startDone

/-- HOURS_SINCE_COLD_TICK (R381): an hour with VIN48 applied has passed. -/
def execHoursSinceColdTick (s : State) : Result :=
  let n := min 65535 (s.flash.hours + 1)
  s.when (s.pins.vaux5 && s.pins.vin48) ({ s with flash := { s.flash with hours := n } }.setFld R.CUR_BOOT_CTL 31 16 n)

end Sys2Proof.Machine
end

