-- ==== Sys2Proof/Machine/Ift.lean ====
section
/-! DEFINITION. The in-field test (R390-R393) and Curator's polls of the sites (R443). -/

namespace Sys2Proof.Machine

/-! ### Due and overdue (R390, R393) -/

/-- R390: the site is one that in-field tests cover. -/
def State.testable (s : State) (t : Nat) : Bool := t < 3072 && kindOf t != .mi && s.live t && s.wingUp (wingOf t)

/-- R390: the count at which a site becomes due, and overdue. -/
def State.dueAt (s : State) (t : Nat) : Nat := s.treg64 t R.TILE_IFT_LAST_LO + s.fld R.CUR_IFT_CTL 7 0 * hourCounts
def State.overdueAt (s : State) (t : Nat) : Nat := s.dueAt t + s.fld R.CUR_IFT_CTL 15 8 * hourCounts

/-- R395: the state of a site's test: 0 idle, 1 due, 2 testing; and whether it is overdue. -/
def State.iftState (s : State) (t : Nat) : Nat := s.tfld t R.TILE_IFT_STATUS 31 30
def State.overdue (s : State) (t : Nat) : Bool := s.tbit t R.TILE_IFT_STATUS 29
def State.setIft (s : State) (t v : Nat) : State := s.setTfld t R.TILE_IFT_STATUS 31 30 v

/-- IFT_DUE (R390). -/
def execIftDue (tile : Nat) (s : State) : Result :=
  s.when (s.testable tile && s.curatorUp && s.dueAt tile ≤ s.time && s.iftState tile == 0) (s.setIft tile 1)

/-- IFT_OVERDUE (R390, R393): overdue is set and one record is written for the episode. -/
def execIftOverdue (tile : Nat) (s : State) : Result :=
  let u := if s.iftState tile == 0 then s.setIft tile 1 else s
  s.when (s.testable tile && s.curatorUp && s.overdueAt tile ≤ s.time && !s.overdue tile)
    ((u.setTbit tile R.TILE_IFT_STATUS 29 true).curFault 0x41 (le 2 tile))

/-! ### Windows (R391) -/

/-- R391: a partition's window opens for a number of milliseconds, or ends. -/
def State.grant (s : State) (p ms : Nat) : State :=
  let ws := s.cur.windows.filter fun e => e.1 != p
  { s with cur := { s.cur with windows := if ms == 0 then ws else ws ++ [(p, s.time + 1000000 * ms)] } }

/-- IFT_GRANT (R391): the host, or a site of the named partition, grants a window; a site's write that names another partition is ignored and
sets grant_reject. -/
def execIftGrant (a : Agent) (partition ms : Nat) (s : State) : Result :=
  let p := partition % 256
  let n := ms % 2 ^ 24
  match a with
  | .core t _ => s.openWrite a (if s.partOf t == some p then s.grant p n else s.setBit R.CUR_IFT_STATUS 31 true)
  | .vf k => s.devWrite a R.CUR_IFT_GRANT (if s.vfPart k == some p then s.grant p n else s.setBit R.CUR_IFT_STATUS 31 true)
  | _ => s.devWrite a R.CUR_IFT_GRANT (s.grant p n)

/-- R391: the site lies in a partition's open window with at least 40 ms left, and is at rest. -/
def State.windowReady (s : State) (t p : Nat) : Bool :=
  (s.cur.windows.any fun e => e.1 == p && s.time + 40000000 ≤ e.2) && s.coresQuiet t none && (s.site t).queuesEmpty &&
  !(s.site t).arr.busy && !s.outstanding t none

/-- R391: the tests in progress in a wing. -/
def State.testsIn (s : State) (w : Nat) : Nat := (s.cur.tests.filter fun e => wingOf e.1 == w).length

/-- R391: Curator may start the test of the site. -/
def State.eligible (s : State) (t : Nat) : Bool :=
  s.testable t && s.iftState t == 1 && s.bit R.CUR_IFT_CTL 31 && !s.swapping && s.pwr.begin.isNone && s.curatorUp &&
  (match s.partOf t with
    | none => !(s.armed && (s.fab.shadow.bind fun m => m.sitePart t).isSome)
    | some p => s.windowReady t p) &&
  s.testsIn (wingOf t) < 4

/-- R391: the site tested next: an overdue one first, each group in ascending TileID. -/
def State.nextTest (s : State) : Option Nat :=
  let c := allSites.filter s.eligible
  match c.find? s.overdue with
  | some t => some t
  | none => c.head?

/-! ### The test (R392) -/

/-- R392: an S-tile's dirty L1D lines are written back into the L2, and the L1 caches are empty after the test. -/
def State.flushL1 (s : State) (t : Nat) : State :=
  if kindOf t = .s then
    let s := cores4.foldl (fun s c => (s.core t c).cache.l1d.foldl (fun (s : State) l => s.syncLine t l.addr) s) s
    cores4.foldl (fun s c => s.modCore t c fun k => { k with cache := { k.cache with l1d := [], l1i := [] } }) s
  else s

/-- R392: a test starts: the site takes the changes of a tile reset. -/
def State.testBegin (s : State) (t : Nat) : State :=
  let s := (s.flushL1 t).resetSite t true
  let s := (s.modSite t fun x => { x with acts := [] }).setIft t 2
  { s with cur := { s.cur with tests := s.cur.tests ++ [(t, s.time)] } }

/-- IFT_START (R391, R392). -/
def execIftStart (tile : Nat) (s : State) : Result := s.when (s.nextTest == some tile) (s.testBegin tile)

/-- A test is over: the site is idle, and a scrub that waited for it starts. -/
def State.testOver (s : State) (t : Nat) : State :=
  let s := { s with cur := { s.cur with tests := (s.cur.tests.filter fun e => e.1 != t), testRetry := s.cur.testRetry.filter (· != t) } }
  let s := s.setIft t 0
  if s.sec.waiting.contains t then s.scrubBegin t else s

/-- R392: a test fails: IFT_FAIL, then the site is dead, and the job of its partition fails (R442). -/
def State.testFails (s : State) (t : Nat) : State :=
  let part := s.partOf t
  let s := s.curFault 0x40 (le 2 t)
  let s := (s.markSiteDead t 2 2 s.time).curFault 0x08 (le 2 t ++ le 1 2)
  match part with
  | some p => s.partFail p 0x08
  | none => s

/-- IFT_END (R392): the outcome is 0 pass, 1 an array fault within reach of an unused spare column, 2 any other failure. After a repair the
test runs once more. -/
def execIftEnd (tile outcome : Nat) (s : State) : Result :=
  match s.cur.tests.find? fun e => e.1 == tile with
  | none => .next s
  | some e =>
    if outcome == 0 then .next (((s.testOver tile).tested tile e.2).setTbit tile R.TILE_IFT_STATUS 29 false)
    else if outcome == 1 && kindOf tile = .m && !s.cur.testRetry.contains tile then
      let tests := s.cur.tests.map fun x => if x.1 == tile then (tile, s.time) else x
      let s := { s with cur := { s.cur with tests := tests, testRetry := s.cur.testRetry ++ [tile] } }
      .next (s.useSpare tile 2)
    else .next ((s.testOver tile).testFails tile)

/-! ### Polls (R443) -/

/-- CN_POLL (R443): the site answered. -/
def execCnPoll (tile : Nat) (s : State) : Result :=
  s.when s.curatorUp (s.modSec fun x => { x with silent := x.silent.filter fun e => e.1 != tile })

/-- R443: a site whose second poll is unanswered is dead with cause CN_LOST. -/
def State.cnLost (s : State) (t : Nat) : State :=
  let part := s.partOf t
  let s := s.modSec fun x => { x with silent := x.silent.filter fun e => e.1 != t }
  let s := (s.markSiteDead t 3 3 s.time).curFault 0x08 (le 2 t ++ le 1 1)
  match part with
  | some p => s.partFail p 0x08
  | none => s

/-- CN_POLL_TIMEOUT (R443): a poll is unanswered for 1 ms: it is retried once, and a second silence marks the site dead. -/
def execCnPollTimeout (tile : Nat) (s : State) : Result :=
  let u := match s.sec.silent.find? fun e => e.1 == tile with
    | none => s.modSec fun x => { x with silent := x.silent ++ [(tile, s.time)] }
    | some e => if e.2 + 1000000 ≤ s.time then s.cnLost tile else s
  s.when (tile < 3072 && s.live tile && s.wingUp (wingOf tile) && s.curatorUp) u

end Sys2Proof.Machine
end

