-- ==== Sys2Proof/Machine/Links.lean ====
section
/-! DEFINITION. The Wyldex ports (R396-R409): training, the link layer with its replay, encryption epochs, control and time frames, and what
a port's ingress does with packets (R286). -/

namespace Sys2Proof.Machine

/-! ### State of a port -/

def State.encOn (s : State) (p : Nat) : Bool := s.bit (R.LNK_PORT_STATUS p) 17
def State.agreed (s : State) (p : Nat) : Nat := s.fld (R.LNK_PORT_STATUS p) 19 18

/-- R407: the bytes of a body that carry data. -/
def State.bodyRoom (s : State) (p : Nat) : Nat := if s.encOn p then 224 else 240

/-- R436: the port is held by a partition that is scrubbing: it sends IDLE frames only. -/
def State.portHeld (s : State) (p : Nat) : Bool :=
  match s.fab.active.bind fun m => m.portPart p with
  | some q => s.scrubbing q
  | none => false

/-! ### Sending (R402-R404, R407) -/

/-- R402: the header of a frame that the port sends now. -/
def State.frameHeader (s : State) (p kind seq first : Nat) : Nat :=
  let q := s.port p
  let cr (i : Nat) : Nat := min 63 (at4 q.owed i / 256)
  2 ^ 60 * kind + 2 ^ 59 * (if s.encOn p then q.epoch % 2 else 0) + 2 ^ 44 * seq + 2 ^ 32 * ((q.expect + 4095) % 4096) + 2 ^ 24 * first +
    2 ^ 18 * cr 3 + 2 ^ 12 * cr 2 + 2 ^ 6 * cr 1 + cr 0

/-- Zeros up to a length. -/
def padTo (l : List (BitVec 8)) (n : Nat) : List (BitVec 8) := (l ++ List.replicate (n - l.length) 0).take n

/-- R402, R407: a frame goes on the wire: header, body - sealed under the sender's key when the port is encrypted, but for a NAK - and CRC. -/
def State.sendFrame (s : State) (p kind seq first : Nat) (body : List (BitVec 8)) : State :=
  let q := s.port p
  let header := leBytes 8 (s.frameHeader p kind seq first)
  let sealed := s.encOn p && kind != 3
  let b := if sealed then padTo (Config.linkSeal p q.epoch q.frames header (padTo body 224)) 240 else padTo body 240
  let sum := crc64 0 (header ++ b)
  let owed := q.owed.map fun n => n - 256 * min 63 (n / 256)
  s.modPort p fun q =>
    { q with wire := header ++ b ++ leBytes 8 sum.toNat, owed := owed, ackDue := false, frames := q.frames + sealed.toNat }

/-- R404: a new numbered frame is kept until acknowledged. -/
def State.sendNumbered (s : State) (p kind first : Nat) (body : List (BitVec 8)) : State :=
  let q := s.port p
  let f : TxFrame := { kind := kind, seq := q.nextSeq, first := first, body := body, replays := 0 }
  let s := s.sendFrame p kind q.nextSeq first body
  s.modPort p fun q =>
    { q with nextSeq := (q.nextSeq + 1) % 4096, replay := q.replay ++ [f], ackAt := if q.replay.isEmpty then s.time else q.ackAt }

/-- R270: the bytes that a packet puts on the link. -/
def Packet.linkBytes (p : Packet) : List (BitVec 8) := p.hdr.bytes ++ p.data

/-- R403: the packet that the port sends next: the first of its VC for which the port holds credit. -/
def State.nextPacket (s : State) (p : Nat) : Option Packet :=
  let mine := (s.net.portOut.filter fun e => e.1 == p).map (·.2)
  let heads := (List.range 4).filterMap fun v => mine.find? fun k => vcOf k.hdr.kind == v
  let ok := heads.filter fun k => k.linkBytes.length ≤ at4 (s.port p).credit (vcOf k.hdr.kind)
  mine.find? fun k => ok.any fun h => h.id == k.id

/-- A packet leaves the queue of the port and takes its credit. -/
def State.takePacket (s : State) (p : Nat) (k : Packet) : State :=
  let s := s.modNet fun n => { n with portOut := n.portOut.filter fun e => !(e.1 == p && e.2.id == k.id) }
  s.modPort p fun q =>
    { q with current := some k, partial_ := k.linkBytes, credit := mod4 q.credit (vcOf k.hdr.kind) fun c => c - k.linkBytes.length }

/-- R403: fill the body of a DATA frame: in version 1 a packet starts at byte 0 and the rest of its last frame is padding; in version 2
packets follow one another at multiples of 8 bytes. `first` is the offset of the first start in units of 8 bytes. -/
def State.fillBody (s : State) (p seq : Nat) : Nat → List (BitVec 8) → Nat → State × List (BitVec 8) × Nat
  | 0, body, first => (s, body, first)
  | fuel + 1, body, first =>
    let q := s.port p
    let room := s.bodyRoom p
    if room ≤ body.length then (s, body, first)
    else if !q.partial_.isEmpty then
      let n := room - body.length
      let body := body ++ q.partial_.take n
      let rest := q.partial_.drop n
      let s := s.modPort p fun q =>
        if rest.isEmpty then
          { q with partial_ := [], current := none, sent := q.sent ++ (q.current.toList.map fun k => (k, seq)) }
        else { q with partial_ := rest }
      s.fillBody p seq fuel (padTo body ((body.length + 7) / 8 * 8)) first
    else if s.agreed p == 1 && !body.isEmpty then (s, body, first)
    else match s.nextPacket p with
      | some k => (s.takePacket p k).fillBody p seq fuel body (if first == 0xFF then body.length / 8 else first)
      | none => (s, body, first)

/-- R408: the body of a CTRL or TIME frame, the time stamps taken as it is sent; and whether it is a CTRL frame. -/
def State.ctrlBody (s : State) (p : Nat) (f : CtrlFrame) : List (BitVec 8) × Bool :=
  match f with
  | .barArrive c r => (leBytes 1 1 ++ leBytes 1 c ++ leBytes 1 r, true)
  | .barRelease c r => (leBytes 1 2 ++ leBytes 1 c ++ leBytes 1 r, true)
  | .peerId d v n => (leBytes 1 3 ++ leBytes 2 d ++ leBytes 1 v.toNat ++ leBytes 8 n, true)
  | .peerIdReq => (leBytes 1 4, true)
  | .timeReq _ => (leBytes 1 1 ++ leBytes 8 (s.portTime p), false)
  | .timeResp t1 t2 _ => (leBytes 1 2 ++ leBytes 8 t1 ++ leBytes 8 t2 ++ leBytes 8 (s.portTime p), false)

/-- R408: the first control or time frame that waits on the port is sent. -/
def State.sendCtrlFrame (s : State) (p : Nat) (e : Nat × CtrlFrame) : State :=
  let b := s.ctrlBody p e.2
  let s := { s with ctrlOut := s.ctrlOut.erase e }
  if b.2 then s.sendNumbered p 2 0 b.1 else s.sendFrame p 4 (s.port p).nextSeq 0 b.1

/-! ### Retraining (R405, R409) -/

/-- R409: LNK_CTL as a training takes it at its start: its modes hold until the next one. -/
def State.linkPolicy (s : State) : Nat := (s.reg R.LNK_CTL).toNat

/-- R405: a port retrains, keeping its numbers, its replay buffer and its credits. -/
def State.retrain (s : State) (p : Nat) : State :=
  let s := (s.setPortState p 4).bump (R.LNK_PORT_RETRAINS p) 1
  s.modPort p fun q => { q with trainAt := some s.time, policy := s.linkPolicy, replayAt := [], resend := [] }

/-- R404, R405: one frame that waits to be replayed is sent again under a new count. -/
def State.replayOne (s : State) (p seq : Nat) : State :=
  let s := s.modPort p fun q => { q with resend := q.resend.drop 1 }
  match (s.port p).replay.find? fun f => f.seq == seq with
  | none => s
  | some f =>
    let s := (s.sendFrame p f.kind f.seq f.first f.body).bump (R.LNK_PORT_REPLAY p) 1
    let recent := ((s.port p).replayAt.filter fun t => s.time < t + 1000000) ++ [s.time]
    let s := s.modPort p fun q =>
      { q with replay := q.replay.map fun g => if g.seq == seq then { g with replays := g.replays + 1 } else g, replayAt := recent }
    if 8 ≤ f.replays + 1 || 1000 < recent.length then s.retrain p else s

/-- R403: an IDLE frame; one that would return nothing new is not kept on the wire. -/
def State.sendIdle (s : State) (p : Nat) : State :=
  if (s.port p).ackDue || (s.port p).owed.any fun n => 256 ≤ n then s.sendFrame p 0 (s.port p).nextSeq 0 [] else s

/-- R403, R404, R408: what an UP port sends in one count of TIME: a replayed frame, else a control frame, else data, else an IDLE frame. -/
def State.portTick (s : State) (p : Nat) : State :=
  let q := s.port p
  if s.portState p != 3 || (s.encOn p && 2 ^ 32 ≤ q.frames) then s
  else if s.portHeld p then s.sendIdle p
  else match q.resend with
    | seq :: _ => s.replayOne p seq
    | [] =>
      let free := q.replay.length < 1024
      match s.ctrlOut.find? fun e => e.1 == p && (free || !(s.ctrlBody p e.2).2) with
      | some e => s.sendCtrlFrame p e
      | none =>
        if free && (!q.partial_.isEmpty || (s.nextPacket p).isSome) then
          let r := s.fillBody p q.nextSeq 64 [] 0xFF
          r.1.sendNumbered p 1 r.2.2 r.2.1
        else s.sendIdle p

/-! ### Going down (R405) -/

/-- R405: a packet that a port discards: a request is answered UNREACH to its source, an answer is lost. -/
def State.discardPacket (s : State) (k : Packet) : State := s.unreach k k.router

/-- R405: a port goes DOWN: the packets that it holds are discarded, and LINK_DOWN is recorded unless it was DOWN already. `new` is its state, 1 DOWN or 0 DISABLED. -/
def State.portDown (s : State) (p reason new : Nat) : State :=
  let was := s.portState p
  let q := s.port p
  let ks := ((q.sent.map (·.1)) ++ q.current.toList) ++ (s.net.portOut.filter fun e => e.1 == p).map (·.2)
  let s := s.modNet fun n => { n with portOut := n.portOut.filter fun e => e.1 != p }
  let s := { s with ctrlOut := s.ctrlOut.filter fun e => e.1 != p }
  let st := R.LNK_PORT_STATUS p
  let s := ((s.setFld st 31 28 new).setFld st 27 24 reason).setFld st 22 17 0
  let s := s.setFld st 8 0 0
  let s := s.modPort p fun q =>
    { Port.start with nextTry := s.time + 10000000000, tries := q.tries, counted := q.counted, changed := some s.time }
  let s := ks.foldl (fun s k => s.discardPacket k) s
  if was == 1 then s else (s.bump (R.LNK_PORT_DROPPED p) ks.length).curFault 0x30 (le 1 p ++ le 1 reason ++ le 4 ks.length)

/-! ### Training (R397-R399) -/

/-- R397: the width code for a number of good lanes. -/
def widthCode (good : Nat) : Nat := if 8 ≤ good then 3 else if 4 ≤ good then 2 else if 2 ≤ good then 1 else 0

/-- R409: the width code that a max_width value allows: 0 x8, 1 x4, 2 x2. -/
def maxWidthCode (m : Nat) : Nat := if m == 0 then 3 else if m == 1 then 2 else 1

/-- R397: the lowest-numbered good lanes up to a width. -/
def lanesUsed (mask width : Nat) : Nat := maskOf (((List.range 9).filter mask.testBit).take (2 ^ width))

/-- R398: the attempt begins. -/
def State.trainBegin (s : State) (p : Nat) : State := (s.setPortState p 2).modPort p fun q => { q with trainAt := some s.time, policy := s.linkPolicy }

/-- R325, R396: the port logic has its clock and its rail. -/
def State.portPowered (s : State) : Bool := s.stageOn && s.bit R.CLK_REF_STATUS 2

/-- R398: a training ends with a reason; `counted` says that it counts. Attempts start 1 s apart in S3 and 10 s apart after it (log entry 124). -/
def State.trainFails (s : State) (p reason : Nat) (counted : Bool) : State :=
  let st := R.LNK_PORT_STATUS p
  let s := s.setFld st 27 24 reason
  let s := if counted then s.setFld st 16 9 (min 255 (s.fld st 16 9 + 1)) else s
  if s.portState p == 4 then
    let n := (s.port p).failed + 1
    if 5 ≤ n then s.portDown p 5 1 else s.modPort p fun q => { q with failed := n, trainAt := some s.time, policy := s.linkPolicy }
  else
    let wait := if s.stage == 3 then 1000000000 else 10000000000
    (s.setPortState p 1).modPort p fun q => { q with trainAt := none, tries := q.tries + 1, nextTry := q.trainAt.getD s.time + wait }

/-- PORT_TRAINING (R398): in S3 a port starts one of its five attempts. -/
def execPortTraining (port : Nat) (s : State) : Result :=
  s.when (port < 32 && s.portPowered && s.stage == 3 && s.portState port == 1 && (s.port port).tries < 5 && (s.port port).nextTry ≤ s.time)
    (s.trainBegin port)

/-- TRAINING_RETRY (R398): after S3 a port that is neither UP nor DISABLED repeats training every 10 s. -/
def execTrainingRetry (port : Nat) (s : State) : Result :=
  s.when (port < 32 && s.portPowered && (4 ≤ s.stage || s.cur.restarting) && s.portState port == 1 && (s.port port).nextTry ≤ s.time)
    (s.trainBegin port)

/-- R398: the reason of a step that timed out; step 4 fails with AUTH where the encryption modes differ. -/
def stepReason (step : Nat) (auth : Bool) : Option Nat :=
  match step with
  | 1 => some 1
  | 3 => some 2
  | 4 => some (if auth then 4 else 3)
  | 5 => some 4
  | _ => none

/-- R397: the number of good lanes of a lane test. -/
def goodLanes (lanes : Nat) : Nat := ((List.range 9).filter lanes.testBit).length

/-- R409: the lane test of a training. -/
def State.laneTest (s : State) (p lanes : Nat) : State := s.setReg (R.LNK_PORT_LANES p) (BitVec.ofNat 32 (lanes % 512))

/-- TRAINING_STEP_TIMEOUT (R398): a step other than 2, which ends with the taps it reached, ends the training; one that shows no signal on
any lane does not count. `found` is what the lane test of step 3 found - fewer than two good lanes where that step fails, at least two where
a later one does - and whether authentication failed. Step 1 has 10 ms, and a retrain begins at step 2. -/
def execTrainingStepTimeout (port step : Nat) (found : Nat × Bool) (s : State) : Result :=
  match stepReason step found.2 with
  | some r =>
    let lanes := found.1
    let fits := (step == 1 && (s.port port).trainAt.getD 0 + 10000000 ≤ s.time) || step != 1 && (step == 3) == decide (goodLanes lanes < 2)
    let u := if step == 1 then s else s.laneTest port lanes
    s.when (port < 32 && fits && (s.portState port == 2 || (s.portState port == 4 && step != 1)) && (s.port port).trainAt.isSome)
      (u.trainFails port r (step != 1))
  | none => .next s

/-- What the other end of a link sends in its capability exchange (R398, R399). -/
structure Peer where
  lanes : Nat
  maxWidth : Nat
  low : Nat
  high : Nat
  serial : Nat
  enc : Bool
deriving DecidableEq, Repr

/-- R399: the agreed version. -/
def State.agreeVersion (s : State) (p : Nat) (r : Peer) : Option Nat :=
  let mine := bitsOf (s.port p).policy 3 2
  let v := min mine r.high
  if 1 ≤ v && r.low ≤ v then some v else none

/-- R408, R409: a PEER_ID frame that names this device. -/
def State.peerIdFrame (s : State) : CtrlFrame := .peerId s.deviceId s.fab.active.isSome ((s.fab.active.map Image.serial).getD 0)

/-- R398, R405: the port is UP; after a first training its numbers start anew, after a retrain every unacknowledged frame is sent again. -/
def State.portIsUp (s : State) (p : Nat) (r : Peer) (version width : Nat) : State :=
  let again := s.portState p == 4
  let st := R.LNK_PORT_STATUS p
  let enc := (s.port p).policy.testBit 0
  let s := ((s.setFld st 31 28 3).setFld st 22 20 width).setFld st 19 18 version
  let s := (s.setBit st 17 enc).setFld st 8 0 (lanesUsed r.lanes width)
  let s := s.setReg64 (R.LNK_PORT_PEER_LO p) r.serial
  let s := s.modPort p fun q =>
    if again then
      { q with trainAt := none, failed := 0, epoch := 0, frames := 0, rxEpoch := 0, nakOut := false, ackAt := s.time,
               replay := q.replay.map fun f => { f with replays := 0 }, resend := q.replay.map (·.seq), changed := some s.time }
    else { Port.start with tries := q.tries, counted := q.counted, changed := some s.time }
  { s with ctrlOut := s.ctrlOut ++ [(p, s.peerIdFrame)] }

/-- PORT_UP (R397-R399, R406): the lane test and the capability exchange are complete and, with encryption, the first frames authenticate: the
port becomes UP at the width and version that both ends allow. An exchange that finds no common ground ends the training. -/
def execPortUp (port : Nat) (lanes maxWidth low high serial : Nat) (enc auth : Bool) (s : State) : Result :=
  let r : Peer := { lanes := lanes % 512, maxWidth := maxWidth, low := low, high := high, serial := serial, enc := enc }
  let good := goodLanes r.lanes
  let width := min (widthCode good) (min (maxWidthCode (s.fld (R.LNK_PORT_CTL port) 9 8)) (maxWidthCode r.maxWidth))
  let mine := (s.port port).policy.testBit 0
  let t := s.laneTest port r.lanes
  let u := if good < 2 then t.trainFails port 2 true
    else match s.agreeVersion port r with
      | none => t.trainFails port 3 true
      | some v =>
        if mine != r.enc || (mine && !s.fuses.linkKey) || (mine && !auth) then t.trainFails port 4 true else t.portIsUp port r v width
  s.when (port < 32 && s.portPowered && (s.portState port == 2 || s.portState port == 4) && (s.port port).trainAt.isSome) u

/-- PORT_STATE_PUBLISH (R400): a change that has held for 10 s becomes a PORT record of origin 3. -/
def execPortStatePublish (port : Nat) (s : State) : Result :=
  match (s.port port).changed with
  | none => .next s
  | some t =>
    let u := (s.publishPort port 3).modPort port fun q => { q with changed := none }
    s.when (port < 32 && s.curatorUp && t + 10000000000 ≤ s.time && s.portState port != 2 && s.portState port != 4) u

/-! ### Receiving (R404, R407) -/

/-- R404: frames up to a number are acknowledged. -/
def State.acked (s : State) (p ack : Nat) : State :=
  let q := s.port p
  if !(q.replay.any fun f => f.seq == ack) then s else
  let done := (q.replay.takeWhile fun f => f.seq != ack).map (·.seq) ++ [ack]
  s.modPort p fun q =>
    { q with replay := (q.replay.filter fun f => !done.contains f.seq), resend := (q.resend.filter fun n => !done.contains n),
             sent := (q.sent.filter fun e => !done.contains e.2), ackAt := s.time }

/-- R402, R403: credits that a header returns, of at most 96 KiB for each VC. -/
def State.credited (s : State) (p header : Nat) : State :=
  s.modPort p fun q => { q with credit := (List.range 4).map fun i => min 98304 (at4 q.credit i + 256 * bitsOf header (6 * i + 5) (6 * i)) }

/-- R404: every unacknowledged frame waits to be replayed, in order. -/
def State.replayAll (s : State) (p : Nat) : State :=
  s.modPort p fun q => { q with resend := q.replay.map (·.seq), ackAt := s.time }

/-- R404: a frame is discarded: one NAK is sent until a frame is received in order. -/
def State.discardFrame (s : State) (p : Nat) : State :=
  if (s.port p).nakOut || s.portHeld p then s
  else (s.modPort p fun q => { q with nakOut := true }).sendFrame p 3 (s.port p).nextSeq 0 []

/-- R269, R286: a packet that came over a port waits at its ingress, which injects what has come in order, or is answered UNREACH. -/
def State.ingress (s : State) (p : Nat) (k : Packet) : State :=
  let h := k.hdr
  let site := entrySite p h.tile
  if h.version != 1 || h.dev != s.deviceId || 0xC00 ≤ h.tile || h.kind == 8 || h.kind == 9 || h.kind == 10 then
    (s.owe p (vcOf h.kind) k.linkBytes.length).unreach k site
  else s.post (4096 + p) (.remote (srcDev h.src)) h k.data (.ingress p h)

/-- R269: the bytes of payload that follow a header. -/
def Hdr.payload (h : Hdr) : Nat := if h.kind == 7 || h.kind == 8 then 0 else h.len

/-- R403: the packets in a run of bytes that begins at a packet start, and what remains of an incomplete one. Zeros in place of a header
are padding; in version 1 what follows a packet is padding. -/
def unpack (v1 : Bool) : Nat → List (BitVec 8) → List Packet × List (BitVec 8)
  | 0, l => ([], l)
  | fuel + 1, l =>
    if l.length < 32 then ([], l)
    else if (l.take 32).all (· == 0) then ([], [])
    else
      let h := hdrOf l
      let n := 32 + h.payload
      if l.length < n then ([], l)
      else
        let k := Packet.new 0 0 h ((l.drop 32).take h.payload) (.remote (srcDev h.src)) 0 0 edgeIn none
        if v1 then ([k], [])
        else
          let r := unpack v1 fuel (l.drop ((n + 7) / 8 * 8))
          (k :: r.1, r.2)

/-- R403: the body of a DATA frame in order. -/
def State.takeData (s : State) (p first : Nat) (body : List (BitVec 8)) : State :=
  let q := s.port p
  let old := if first == 0 then [] else q.rx
  let run := if old.isEmpty then body.drop (8 * first) else old ++ body
  let r := unpack (s.agreed p == 1) 32 run
  let s := s.modPort p fun q => { q with rx := r.2 }
  r.1.foldl (fun s k => s.ingress p k) s

/-- A little-endian field of a body. -/
def bodyField (b : List (BitVec 8)) (o n : Nat) : Nat := leNat ((b.drop o).take n)

/-- R408: a PEER_ID frame updates the peer's identity. -/
def State.peerId (s : State) (p deviceId : Nat) (valid : Bool) : State :=
  s.setReg (R.LNK_PORT_PEER_ID p) (BitVec.ofNat 32 (2 ^ 31 * valid.toNat + deviceId % 65536))

/-- R408: the CTRL frames. -/
def State.takeCtrl (s : State) (p : Nat) (b : List (BitVec 8)) : State :=
  match bodyField b 0 1 with
  | 1 => s.barArrive p (bodyField b 1 1) (bodyField b 2 1)
  | 2 => s.barRelease p (bodyField b 1 1) (bodyField b 2 1)
  | 3 => s.peerId p (bodyField b 1 2) (bodyField b 3 1 % 2 == 1)
  | 4 => s.sendCtrl p s.peerIdFrame
  | _ => s

/-- R336, R408: the TIME frames. -/
def State.takeTime (s : State) (p : Nat) (b : List (BitVec 8)) : State :=
  match bodyField b 0 1 with
  | 1 => s.sendCtrl p (.timeResp (bodyField b 1 8) (s.portTime p) 0)
  | 2 => if s.followsPort p then s.measured (portOffset2 (bodyField b 1 8) (bodyField b 9 8) (bodyField b 17 8) (s.portTime p)) else s
  | _ => s

/-- R407: a frame's tag fails: it is counted and discarded, and four on one port within 1 s take it DOWN. -/
def State.tagFails (s : State) (p : Nat) : State :=
  let s := s.bump (R.LNK_PORT_AUTH_FAIL p) 1
  let recent := ((s.port p).authAt.filter fun t => s.time < t + 1000000000) ++ [s.time]
  let s := s.modPort p fun q => { q with authAt := recent }
  if 4 ≤ recent.length then (s.curFault 0x31 (le 1 p ++ le 4 recent.length)).portDown p 4 1 else s.discardFrame p

/-- R404, R407, R408: a frame that passed its CRC and its tag: one of any type whose number is not the next expected is discarded. -/
def State.takeFrame (s : State) (p header : Nat) (body : List (BitVec 8)) : State :=
  let kind := bitsOf header 63 60
  let good := (s.acked p (bitsOf header 43 32)).credited p header
  let inOrder := bitsOf header 55 44 == (s.port p).expect
  let step (u : State) : State :=
    u.modPort p fun q => { q with expect := (q.expect + 1) % 4096, nakOut := false, ackDue := true }
  let plain := good.modPort p fun q => { q with nakOut := false }
  if !inOrder then s.discardFrame p else
  match kind with
  | 0 => plain
  | 1 => (step good).takeData p (bitsOf header 31 24) body
  | 2 => (step good).takeCtrl p body
  | 3 => plain.replayAll p
  | 4 => plain.takeTime p body
  | _ => s

/-- FRAME_RECEIVE (R401, R402, R404, R407): the 256 bytes of a frame arrive; `plain` is what its body decrypts to and `tagOk` whether its tag
verifies, when the port is encrypted; `corr` and `uncorr` count the codewords that the FEC corrected and could not correct. -/
def execFrameReceive (port : Nat) (frame plain : List (BitVec 8)) (tagOk : Bool) (corr uncorr : Nat) (s : State) : Result :=
  let u := (s.bump (R.LNK_PORT_FEC_CORR port) corr).bump (R.LNK_PORT_FEC_UNCORR port) uncorr
  let header := leNat (frame.take 8)
  let enc := s.encOn port && bitsOf header 63 60 != 3
  let crcOk := frame.length == 256 && crc64 0 (frame.take 248) == BitVec.ofNat 64 (leNat (frame.drop 248))
  let u := if !crcOk then u.discardFrame port
    else if enc && !tagOk then u.tagFails port
    else
      let flip := enc && bitsOf header 59 59 != (u.port port).rxEpoch % 2
      let u := if flip then u.modPort port fun q => { q with rxEpoch := q.rxEpoch + 1 } else u
      u.takeFrame port header (if enc then padTo plain 224 else (frame.drop 8).take 240)
  s.when (port < 32 && s.portState port == 3) u

/-- NAK (R404): the peer received every frame up to `ack` in order and asks for the rest. -/
def execNak (port ack : Nat) (s : State) : Result :=
  s.when (port < 32 && s.portState port == 3) ((s.acked port (ack % 4096)).replayAll port)

/-- ACK_TIMEOUT (R404): ack has not advanced for 4 us. -/
def execAckTimeout (port : Nat) (s : State) : Result :=
  s.when (port < 32 && s.portState port == 3 && !(s.port port).replay.isEmpty && (s.port port).ackAt + 4000 ≤ s.time) (s.replayAll port)

/-- PORT_DOWN (R405, R407): a port that is not down goes DOWN for the loss of REFCLK_LNK, for tag failures, or for retrains that failed. -/
def execPortDown (port : Nat) (s : State) : Result :=
  let st := s.portState port
  let q := s.port port
  let reason := if !s.bit R.CLK_REF_STATUS 2 then 6 else if 5 ≤ q.failed then 5
    else if 4 ≤ (q.authAt.filter fun t => s.time < t + 1000000000).length then 4 else 0
  s.when (port < 32 && 2 ≤ st && st ≤ 4 && reason != 0) (s.portDown port reason 1)

/-- KEY_EPOCH_ADVANCE (R407): a sender whose count under its key has reached 2^32 moves to the next epoch. -/
def execKeyEpochAdvance (port : Nat) (s : State) : Result :=
  s.when (port < 32 && s.portState port == 3 && s.encOn port && 2 ^ 32 ≤ (s.port port).frames)
    (s.modPort port fun q => { q with epoch := q.epoch + 1, frames := 0 })

/-- PEER_ID (R408). -/
def execPeerId (port deviceId : Nat) (valid : Bool) (s : State) : Result :=
  s.when (port < 32 && s.portState port == 3) (s.peerId port deviceId valid)

/-- PEER_ID_REQ (R408). -/
def execPeerIdReq (port : Nat) (s : State) : Result :=
  s.when (port < 32 && s.portState port == 3) (s.sendCtrl port s.peerIdFrame)

/-! ### Commands (R409) -/

/-- R409: a port command is ignored. -/
def State.portReject (s : State) (p : Nat) : State := s.setBit (R.LNK_PORT_CTL p) 16 true

/-- RETRAIN (R409): an UP port retrains. -/
def execRetrain (a : Agent) (port : Nat) (s : State) : Result :=
  let p := port % 32
  s.devWrite a (R.LNK_PORT_CTL p) (if s.portState p == 3 then s.retrain p else s.portReject p)

/-- DISABLE (R405, R409): a port goes DOWN and stays DISABLED. -/
def execDisable (a : Agent) (port : Nat) (s : State) : Result :=
  let p := port % 32
  s.devWrite a (R.LNK_PORT_CTL p) (if s.portState p == 0 then s.portReject p else s.portDown p 7 0)

/-- ENABLE (R409): a DISABLED port starts a training at once; one without its rail or reference is DOWN. -/
def execEnable (a : Agent) (port : Nat) (s : State) : Result :=
  let p := port % 32
  s.devWrite a (R.LNK_PORT_CTL p) (if s.portState p != 0 then s.portReject p else if s.portPowered then s.trainBegin p else s.setPortState p 1)

/-! ### A count of TIME -/

/-- What every port sends in one count of TIME. -/
def State.portsTick (s : State) : State := allPorts.foldl (fun s p => s.portTick p) s

end Sys2Proof.Machine
end

