-- ==== Sys2Proof/Machine/CsrRead.lean ====
section
/-! DEFINITION. Reads of CSRs: which registers a site of each kind has, the values of registers that show other state, the pair latches
of R7, the arrays of blocks CAT, DBG and FLT (R34, R433, R447), accesses of other sizes (R5, R173), and how an access over the CN reaches its
register (R3, R297, R310, R384, R428). -/

namespace Sys2Proof.Machine

/-! ### Accesses that are no register access -/

/-- R5: a register access is an aligned word. -/
def wordAccess (addr size : Nat) : Bool := size == 4 && addr % 4 == 0

/-! ### Tile registers -/

/-- The registers that a site of a kind has (R101, R152, R217, R219, R233, R292). -/
def tileHas (k : TileKind) (off : Nat) : Bool :=
  if 0x10 ≤ off && off < 0x38 && off != R.TILE_RESET then k != .mi
  else if 0x100 ≤ off && off < 0x138 then
    match k with
    | .m => true
    | .v => off != R.ENG_ACC_PENDING
    | .s => off == R.ENG_STATUS || off == R.ENG_STALL_LIMIT || (R.ENG_XFER_STATUS ≤ off && off ≤ R.ENG_XFER_UNREACH)
    | .mi => false
  else if 0x300 ≤ off && off < 0x400 then k == .m
  else if 0x400 ≤ off && off < 0x800 then k == .m || k == .v
  else if 0xA00 ≤ off && off < 0xA40 then k == .s
  else if 0xE00 ≤ off && off < 0x1000 then k == .m || k == .v
  else true

/-- R301: the site's view of a context: its membership and the kind of the record, then what a member holds. -/
def State.syncView (s : State) (t c : Nat) : BitVec 32 :=
  match s.fab.active with
  | some m => putBits (if m.ctxMember c t then putBits (s.treg t (R.NET_SYNC_CTX c)) 31 31 1 else 0) 30 28 (m.ctxKind c)
  | none => 0

/-- R429: who is told a violation count. -/
def seesViolations (a : Agent) : Bool :=
  match a with
  | .host => true
  | .pf1 => true
  | .curator => true
  | .tap => true
  | .vf _ => false
  | .core _ _ => false
  | .remote _ => false

/-- The lead of the pair of a site (R440). -/
def State.leadOf (s : State) (t : Nat) : Nat :=
  match s.twin t with
  | some u => min t u
  | none => t

/-- The live value of a tile register, as agent a reads it. -/
def State.tileLive (s : State) (a : Agent) (t off : Nat) : BitVec 32 :=
  if !tileHas (kindOf t) off then 0
  else if off == R.TILE_ID then BitVec.ofNat 32 (65536 * s.deviceId + t)
  else if off == R.ENG_STATUS then s.engStatus t
  else if off == R.ENG_QUEUE then s.engQueue t
  else if off == R.ENG_ACC_PENDING then s.accPending t
  else if off == R.ENG_ARR_STATE then s.arrState t
  else if off == R.VIOL_COUNT then (if seesViolations a then s.treg t off else 0)
  else if off == R.NET_WIN_STATUS then s.treg (s.leadOf t) off
  else if 0x1000 ≤ off && off < 0x1200 && off % 8 == 0 then putBits (s.treg t off) 11 0 (s.qCount t ((off - 0x1000) / 8))
  else if 0x1400 ≤ off && off < 0x1800 then s.syncView (s.leadOf t) ((off - 0x1400) / 4)
  else if 0x80000 ≤ off && off < 0xA0000 then
    (if kindOf t = .m || kindOf t = .v then s.progWord t ((off - 0x80000) / 4) else 0)
  else match findReg tileRegDefs off with
    | some d => d.read (s.treg t off)
    | none => 0

/-- R7: a read of _LO latches _HI; the next read of _HI returns the latch. -/
def State.tileRead (s : State) (a : Agent) (t off : Nat) : BitVec 32 × State :=
  if (findReg tilePairs off).isSome then
    let hi := s.tileLive a t (off + 4)
    (s.tileLive a t off, s.modSite t fun x => { x with hiLatch := Map.insert (off + 4) hi (Map.erase (off + 4) x.hiLatch) })
  else match (s.site t).hiLatch.find? fun e => e.1 == off with
    | some e => (e.2, s.modSite t fun x => { x with hiLatch := Map.erase off x.hiLatch })
    | none => (s.tileLive a t off, s)

/-! ### Device registers -/

/-- R445: the 64 bytes of a record. -/
def FaultRec.bytes (r : FaultRec) : List Nat :=
  le 8 r.time ++ le 4 r.source ++ le 2 r.code ++ [r.event.toNat + (if r.partition.isSome then 2 else 0), r.partition.getD 0xFF] ++
  le 4 r.seq ++ le 4 r.start ++ (r.detail ++ List.replicate (40 - r.detail.length) 0)

/-- R433: the 16 bytes of a trace record. -/
def TraceRec.bytes (r : TraceRec) : List Nat := le 8 r.time ++ le 4 r.source ++ le 2 r.event ++ le 2 r.data

/-- The word at a byte offset of a list of bytes; 0 past its end. -/
def wordAt (l : List Nat) (o : Nat) : BitVec 32 :=
  BitVec.ofNat 32 (l.getD o 0 + 2 ^ 8 * l.getD (o + 1) 0 + 2 ^ 16 * l.getD (o + 2) 0 + 2 ^ 24 * l.getD (o + 3) 0)

/-- R447: the word of the fault ring at an offset from its start. -/
def State.faultWord (s : State) (o : Nat) : BitVec 32 :=
  match s.faults.find? fun e => e.1 == o / 64 with
  | some e => wordAt e.2.bytes (o % 64)
  | none => 0

/-- R433: the word of the trace buffers at an offset from the first one's start. -/
def State.traceWord (s : State) (o : Nat) : BitVec 32 :=
  match (Map.get (fun _ => []) s.dbg.trace (o / 65536))[o % 65536 / 16]? with
  | some r => wordAt r.bytes (o % 16)
  | none => 0

/-- R34, R41: the bytes of a published catalogue, digest included. -/
def CatPub.published (p : CatPub) : List (BitVec 8) :=
  let d := (List.range 48).map fun i => BitVec.ofNat 8 (p.digest.toNat >>> (8 * (47 - i)))
  let l := p.bytes
  l.take 0x40 ++ d ++ l.drop 0x70

/-- R32, R41: a word of a catalogue buffer; what lies beyond the catalogue, and in the buffer that CAT_BASE does not name, is a free value. -/
def State.catWord (s : State) (o : Nat) : BitVec 32 × State :=
  let named := (s.reg R.CAT_BASE).toNat == 0x80000 + o / 0x40000 * 0x40000
  let i := o % 0x40000
  match s.published with
  | some p =>
    if named && i < catLength p.tables then (wordAt ((p.published).map (·.toNat)) i, s) else (s.free.extractLsb' 0 32, s.freed)
  | none => (s.free.extractLsb' 0 32, s.freed)

/-- R395: how many sites are due or testing, and overdue. -/
def State.iftCount (s : State) (p : Nat → Bool) : Nat := (s.sites.filter fun e => p e.1).length

/-- R448: the sites and placement units that are scrubbing. -/
def State.scrubStatus (s : State) : BitVec 32 :=
  BitVec.ofNat 32 (65536 * s.dram.zeroing.length + (s.sec.sites.length + s.sec.waiting.length))

/-- R449: the state of the core last named, and whether it is under debug control. -/
def State.debugStatus (s : State) : BitVec 32 :=
  let w := s.reg R.DBG_CORE_STATUS
  match s.dbg.named with
  | some k => putBits (putBits w 2 0 (s.coreState (k / 4) (k % 4))) 3 3 (s.dbg.attached.contains k).toNat
  | none => w

/-- The live value of a device register, as agent a reads it. -/
def State.devLive (s : State) (a : Agent) (off : Nat) : BitVec 32 :=
  if off == R.TIME_NOW_LO then BitVec.ofNat 32 s.time
  else if off == R.TIME_NOW_HI then BitVec.ofNat 32 (s.time / 2 ^ 32)
  else if off == R.SEC_SCRUB_STATUS then s.scrubStatus
  else if off == R.SEC_FENCE_RESULT then BitVec.ofNat 32 (Map.get (fun _ => 0) s.sec.fences (s.fenceAgent a))
  else if off == R.FAB_CLAIM_RESULT then BitVec.ofNat 32 (match s.ownerOf a with
    | some w => Map.get (fun _ => 0) s.fab.claimResults w
    | none => 0)
  else if off == R.PWR_STATUS then putBits (s.reg off) 18 18 s.thermalLimit.toNat
  else if off == R.THM_STATUS then putBits (s.reg off) 0 0 s.thermalLimit.toNat
  else if off == R.LNK_STATUS then BitVec.ofNat 32 s.fuses.linkKey.toNat
  else if off == R.CUR_IFT_STATUS then
    putBits (putBits (putBits (s.reg off) 30 19 (s.iftCount fun t => s.overdue t)) 18 7 (s.iftCount fun t => s.iftState t == 1)) 6 0
      s.cur.tests.length
  else if off == R.DBG_CORE_STATUS then s.debugStatus
  else if off == R.TIM_CAPTURE_LO || off == R.TIM_CAPTURE_HI then (if s.owns a 4 1 then s.reg off else 0)
  else if off == R.SEC_VIOL_EXT then (if seesViolations a then s.reg off else 0)
  else if 0xB10000 ≤ off && off < 0xB50000 then s.faultWord (off - 0xB10000)
  else if 0xA80000 ≤ off && off < 0xB00000 then s.traceWord (off - 0xA80000)
  else if 0x401000 ≤ off && off < 0x402000 then Map.get (fun _ => 0) s.hst.mbxReq ((off - 0x401000) / 4)
  else if 0x402000 ≤ off && off < 0x403000 then Map.get (fun _ => 0) s.hst.mbxRsp ((off - 0x402000) / 4)
  else match findReg devRegDefs off with
    | some d => d.read (s.reg off)
    | none => 0

/-- R338: a read of TIM_CAPTURE by an agent that does not own pin function 1 sets reject. -/
def State.captureRead (s : State) (a : Agent) (off : Nat) : State :=
  if (off == R.TIM_CAPTURE_LO || off == R.TIM_CAPTURE_HI) && !s.owns a 4 1 then s.setBit R.TIM_SYNC_STATUS 4 true else s

/-- R346, R368, R369: the currents that are measured as they are read: a rail's while its output is on, VBRING's while it is connected; each is a
free value (log entry 118). -/
def State.measuredNow (s : State) (off : Nat) : Bool :=
  (off == R.PWR_BRING_STATUS && s.bit R.PWR_BRING_STATUS 0) ||
  allWings.any fun w => off == R.PWR_RAIL w && (s.railState w == 1 || s.railState w == 2)

/-- The current field of a register that measures one takes a free value. -/
def State.currentRead (s : State) (off : Nat) (v : BitVec 32) : BitVec 32 :=
  if off == R.PWR_BRING_STATUS then putBits v 31 16 (s.free.toNat % 2 ^ 16) else putBits v 29 16 (s.free.toNat % 2 ^ 14)

/-- R7: a read of a device register or of an array of a block. The latch of TIM_CAPTURE is its owner's alone (R338). -/
def State.devRead (s : State) (a : Agent) (off : Nat) : BitVec 32 × State :=
  if 0x780000 ≤ off && off < 0x800000 then s.catWord (off - 0x780000)
  else
    let v := s.devLive a off
    let s := s.captureRead a off
    if s.measuredNow off then (s.currentRead off v, s.freed)
    else if (off == R.TIM_CAPTURE_LO || off == R.TIM_CAPTURE_HI) && !s.owns a 4 1 then (0, s)
    else if (findReg devPairs off).isSome then
      (v, { s with hiLatch := Map.insert (off + 4) (s.devLive a (off + 4)) (Map.erase (off + 4) s.hiLatch) })
    else match s.hiLatch.find? fun e => e.1 == off with
      | some e => (e.2, { s with hiLatch := Map.erase off s.hiLatch })
      | none => (v, s)

/-! ### Reaching a register -/

/-- Where a CSR address leads: no right (the violation rule applies), nothing there or no answer (UNREACH), a tile register, or a device
register. -/
inductive CsrPlace where
  | denied (tile : Nat)
  | unreach
  | tile (t off : Nat)
  | dev (off : Nat)
deriving DecidableEq, Repr

/-- R371: while the module has not left S1, the host reaches the device CSR blocks alone. -/
def State.beforeS2 (s : State) : Bool := s.stage < 2 && !s.cur.restarting

/-- The outside agents that R371 holds off before S1 ends. -/
def State.heldOff (s : State) (a : Agent) : Bool :=
  match a with
  | .host => s.beforeS2
  | .pf1 => s.beforeS2
  | .vf _ => s.beforeS2
  | _ => false

/-- R297, R310, R371, R384, R413, R428, R440: the register that an access over the CN reaches. Rights are checked where the access enters;
each claimant reads its own FAB_CLAIM_RESULT whatever its rights (R323). -/
def State.csrPlace (s : State) (a : Agent) (addr : Nat) : CsrPlace :=
  if !s.pins.vaux5 || s.vfOut a then .unreach else
  match s.place addr with
  | .tileCsr t off =>
    if s.heldOff a then .unreach
    else if !s.mayReachTile a t then .denied t
    else if s.siteReached a t && s.addressable a t then .tile t off
    else .unreach
  | .devCsr off =>
    if !s.mayWriteBlock a (off / 0x100000) && !(off == R.FAB_CLAIM_RESULT && (s.ownerOf a).isSome) then .denied 0xBDF
    else if s.cur.restarting then .unreach
    else .dev off
  | _ => .unreach

/-- A read of a CSR by an agent: its status, its data, and the state after it. Only an aligned word has data (R5). -/
def State.csrRead (s : State) (a : Agent) (addr size : Nat) : Nat × BitVec 32 × State :=
  match s.csrPlace a addr with
  | .denied t => (0, 0, s.violation a addr 8 (if t == 0xBDF then 0 else t))
  | .unreach => (3, 0, s)
  | .tile t off =>
    if !wordAccess addr size then (0, 0, s.csrAccess a addr size false)
    else
      let r := s.tileRead a t off
      (0, r.1, r.2)
  | .dev off =>
    if !wordAccess addr size then (0, 0, s.csrAccess a addr size false)
    else
      let r := s.devRead a off
      (0, r.1, r.2)

end Sys2Proof.Machine
end

