-- ==== Sys2Proof/Machine/Debug.lean ====
section
/-! DEFINITION. Debug control of cores (R430-R432), trace buffers and counter banks (R433), the fault ring's head (R447), the check of
corrected-error rates (R438) and the comparison of the accesses of a pair (R440, R441). -/

namespace Sys2Proof.Machine

/-! ### SEC_DEBUG_SEEN (R432) -/

/-- R432, R446: the first event of a kind sets its bit, with a record; the first bit of all latches TIME. -/
def State.debugSeen (s : State) (i : Nat) : State :=
  if s.bit R.SEC_DEBUG_SEEN i then s else
  let s := if s.reg R.SEC_DEBUG_SEEN == 0 then s.setReg64 R.SEC_DEBUG_TIME_LO s.time else s
  let s := s.setBit R.SEC_DEBUG_SEEN i true
  s.curFault 0x52 (le 4 (s.reg R.SEC_DEBUG_SEEN).toNat)

/-- TAP_INSTRUCTION (R430, R432, R455): the TAP holds the instruction: 0 BYPASS, 1 IDCODE, 2 any other; the last kind sets the tap bit. EXTEST (3)
is accepted only while MOD_RESET_N is held low. -/
def execTapInstruction (instr : Nat) (resetLow : Bool) (s : State) : Result :=
  let i := min instr 3
  let u := s.modHst fun h => { h with tap := i }
  s.when (s.pins.vaux5 && (i != 3 || resetLow)) (if 2 ≤ i then u.debugSeen 0 else u)

/-- TAP_RESET (R455): TRST_N low for 1 us resets the TAP, whose instruction is then IDCODE. -/
def execTapReset (lowNs : Nat) (s : State) : Result := s.when (1000 ≤ lowNs) (s.modHst fun h => { h with tap := 1 })

/-! ### Cores under debug control (R431) -/

/-- R431: an ignored command. -/
def State.debugReject (s : State) : State := s.setBit R.DBG_CORE_STATUS 31 true

/-- The core exists at a site that the CN reaches. -/
def State.coreThere (s : State) (t c : Nat) : Bool :=
  t < 3072 && c < (kindOf t).cores && s.live t && s.wingUp (wingOf t)

/-- DBG_CORE_STATUS shows the core that a command names. -/
def State.nameCore (s : State) (t c : Nat) : State :=
  { s with dbg := { s.dbg with named := if t < 3072 then some (coreId t (c % 4)) else none } }

/-- R431, R432: attach. -/
def State.dbgAttach (s : State) (t c : Nat) : State :=
  let s := s.debugSeen 1
  if s.coreThere t c && !s.attached t c then { s with dbg := { s.dbg with attached := s.dbg.attached ++ [coreId t c] } }
  else s.debugReject

/-- R431: halt. -/
def State.dbgHalt (s : State) (t c : Nat) : State :=
  if s.coreThere t c && s.attached t c && (s.coreState t c == 1 || s.coreState t c == 2) then
    ({ s with dbg := { s.dbg with halting := s.dbg.halting.filter (· != coreId t c) ++ [coreId t c] } }).settle t c
  else s.debugReject

/-- R431: resume and step act on a HALTED core under debug control. -/
def State.dbgHalted (s : State) (t c : Nat) : Bool := s.coreThere t c && s.attached t c && s.coreState t c == 5

/-- R431: a HALTED core runs at its pc. -/
def State.dbgRun (s : State) (t c : Nat) : State :=
  (s.setCoreState t c 1).modCore t c fun k => { k with issuable := (s.site t).cycle + 1 }

/-- R431: resume. -/
def State.dbgResume (s : State) (t c : Nat) : State := if s.dbgHalted t c then s.dbgRun t c else s.debugReject

/-- R431: step: the core issues its next instruction, and is HALTED again once that has completed. -/
def State.dbgStep (s : State) (t c : Nat) : State :=
  if s.dbgHalted t c then
    (({ s with dbg := { s.dbg with awaiting := s.dbg.awaiting ++ [coreId t c] } }).setCoreState t c 1).modCore t c fun k =>
      { k with issuable := 0 }
  else s.debugReject

/-- R431: detach. -/
def State.dbgDetach (s : State) (t c : Nat) : State :=
  if s.coreThere t c && s.attached t c then
    let s := { s with dbg := { s.dbg with attached := s.dbg.attached.filter (· != coreId t c) } }.dbgForget (coreId t c)
    if s.coreState t c == 5 then s.dbgRun t c else s
  else s.debugReject

/-- R449: a word written to DBG_CORE_CMD. -/
def State.coreCmd (s : State) (cmd t c : Nat) : State :=
  let s := s.nameCore t c
  match cmd with
  | 0 => s
  | 1 => s.dbgAttach t c
  | 2 => s.dbgHalt t c
  | 3 => s.dbgResume t c
  | 4 => s.dbgStep t c
  | 5 => s.dbgDetach t c
  | _ => s.debugReject

/-- ATTACH, HALT, RESUME, STEP, DETACH (R431): the command is written to DBG_CORE_CMD. -/
def execAttach (a : Agent) (tile core : Nat) (s : State) : Result := s.devWrite a R.DBG_CORE_CMD (s.coreCmd 1 (tile % 4096) (core % 4))
def execHalt (a : Agent) (tile core : Nat) (s : State) : Result := s.devWrite a R.DBG_CORE_CMD (s.coreCmd 2 (tile % 4096) (core % 4))
def execResume (a : Agent) (tile core : Nat) (s : State) : Result := s.devWrite a R.DBG_CORE_CMD (s.coreCmd 3 (tile % 4096) (core % 4))
def execStep (a : Agent) (tile core : Nat) (s : State) : Result := s.devWrite a R.DBG_CORE_CMD (s.coreCmd 4 (tile % 4096) (core % 4))
def execDetach (a : Agent) (tile core : Nat) (s : State) : Result := s.devWrite a R.DBG_CORE_CMD (s.coreCmd 5 (tile % 4096) (core % 4))

/-! ### Trace buffers and counter banks (R433) -/

/-- R433: the owner of a resource may name the site: a partition its own sites, the host any. -/
def State.mayName (s : State) (a : Agent) (t : Nat) : Bool :=
  match s.ownerOf a with
  | some 0xFE => true
  | some p => s.partOf t == some p
  | none => false

/-- R432: a buffer or bank that the host owns is armed. -/
def State.armSeen (s : State) (a : Agent) (t : Nat) : State :=
  match s.ownerOf a with
  | some p => if p != 0xFE && s.partOf t == some p then s else s.debugSeen 3
  | none => s

/-- R433, R449: a write to DBG_TRACE_CTL_n. -/
def State.traceCtl (s : State) (a : Agent) (n : Nat) (w : BitVec 32) : State :=
  let r := R.DBG_TRACE_CTL n
  if !s.owns a 1 n || !s.mayName a (getBits w 16 5) then s.setBit r 4 true
  else
    let s := s.regWrite r w
    if w.getLsbD 31 then
      let s := { s with dbg := { s.dbg with trace := Map.erase n s.dbg.trace } }
      ((s.setBit r 30 false).setFld r 29 17 0).armSeen a (getBits w 16 5)
    else s

/-- TRACE_ARM (R433): buffer n is armed to record classes of events of a site, from record 0. -/
def execTraceArm (a : Agent) (n tile classes : Nat) (s : State) : Result :=
  s.devWrite a (R.DBG_TRACE_CTL (n % 8))
    (s.traceCtl a (n % 8) (BitVec.ofNat 32 (2 ^ 31 + tile % 4096 * 32 + classes % 16)))

/-- R433: the words that a bank samples are read as its owner may read them. -/
def State.bankReader (s : State) (n : Nat) : Agent := if s.owner 2 n == some 0xFE then .host else .remote 0

/-- R433: a sample: the eight words of the site, and its TIME. A site that the CN does not reach gives none. -/
def State.bankSample (s : State) (n : Nat) : State :=
  let t := s.fld (R.DBG_CNT_CTL n) 27 16
  if !(t < 3072 && s.live t && s.wingUp (wingOf t)) then s else
  let s := (List.range 8).foldl (fun s i =>
    let r := s.tileRead (s.bankReader n) t ((s.reg (R.DBG_CNT_SEL n i)).toNat % 2 ^ 20)
    r.2.setReg (R.DBG_CNT_VAL n i) r.1) s
  s.setReg64 (R.DBG_CNT_TIME_LO n) s.time

/-- The bank samples at count `at_` next; none: no more. -/
def State.setSample (s : State) (n : Nat) (at_ : Option Nat) : State :=
  let m := Map.erase n s.dbg.nextSample
  { s with dbg := { s.dbg with nextSample := match at_ with | some v => Map.insert n v m | none => m } }

/-- The sample period of a bank in counts of TIME. -/
def State.bankPeriod (s : State) (n : Nat) : Nat := 1000 * s.fld (R.DBG_CNT_CTL n) 15 0

/-- R433, R449: a write to a register of bank n. -/
def State.bankWrite (s : State) (a : Agent) (n off : Nat) (w : BitVec 32) : State :=
  let r := R.DBG_CNT_CTL n
  if off == r then
    if !s.owns a 2 n || !s.mayName a (getBits w 27 16) then s.setBit r 28 true
    else
      let s := s.regWrite r w
      if w.getLsbD 31 then
        let s := s.armSeen a (getBits w 27 16)
        if s.bankPeriod n == 0 then (s.setSample n none).bankSample n else s.setSample n (some (s.time + s.bankPeriod n))
      else s.setSample n none
  else if !s.owns a 2 n then s.setBit r 28 true
  else if off < r + 0x24 && w.toNat % 4 != 0 then s
  else s.regWrite off w

/-- COUNTER_BANK_SAMPLE (R433): the period of an armed bank has passed. -/
def execCounterBankSample (n : Nat) (s : State) : Result :=
  match s.dbg.nextSample.find? fun e => e.1 == n with
  | some e => s.when (n < 64 && s.bit (R.DBG_CNT_CTL n) 31 && e.2 ≤ s.time) ((s.bankSample n).setSample n (some (e.2 + s.bankPeriod n)))
  | none => .next s

/-! ### The fault ring (R447) -/

/-- R447: a write of FLT_LOG_HEAD. -/
def State.logHead (s : State) (v : BitVec 32) : State :=
  let tail := (s.reg R.FLT_LOG_TAIL).toNat
  if (tail + 2 ^ 32 - v.toNat) % 2 ^ 32 ≤ 4096 then s.setReg R.FLT_LOG_HEAD v else s

/-- FLT_LOG_HEAD_WRITE (R447). -/
def execFltLogHeadWrite (a : Agent) (v : BitVec 32) (s : State) : Result := s.devWrite a R.FLT_LOG_HEAD (s.logHead v)

/-! ### Corrected-error rates (R438) -/

/-- R438: the corrected errors that a site's registers count. -/
def State.corrected (s : State) (t : Nat) : Nat :=
  (s.treg t R.VIT_ECC_CORR).toNat + (s.treg t R.ENG_ACC_ECC).toNat + (s.treg t R.S_CACHE_ECC_CORR).toNat

/-- The rise of a site's sum in the last minute; a sum that a reset set back counts from 0. -/
def State.corrRise (s : State) (t : Nat) : Nat :=
  let last := Map.get (fun _ => 0) s.sec.eccLast t
  if last ≤ s.corrected t then s.corrected t - last else s.corrected t

/-- The sum over the window that the history covers. -/
def Sec.eccSum (x : Sec) (t : Nat) : Nat := (x.ecc.map fun m => Map.get (fun _ => 0) m t).sum

/-- R438, R29: a site above the threshold is degraded, with a record; its history begins again (log entry 46). -/
def State.rateCheck (s : State) (t : Nat) : State :=
  let sum := s.sec.eccSum t
  let limit := (s.reg R.SEC_ECC_THRESH).toNat
  if limit == 0 || sum ≤ limit then s else
  let s := (s.markDegraded t 3 3 0).fault 0x17 (s.sourceOf t 0) (s.partOf t) (le 4 sum)
  s.modSec fun x => { x with ecc := x.ecc.map fun m => Map.erase t m }

/-- ECC_RATE_CHECK (R438): once a minute; `internal` gives the corrections of a site's program store, concord and queue memories. -/
def execEccRateCheck (internal : List (Nat × Nat)) (s : State) : Result :=
  let ts := allSites.filter s.live
  let rise (t : Nat) : Nat := s.corrRise t + ((internal.filter fun e => e.1 == t).map (·.2)).sum
  let minute := ts.foldl (fun m t => Map.set (fun _ => 0) m t (rise t)) []
  let last := ts.foldl (fun m t => Map.set (fun _ => 0) m t (s.corrected t)) []
  let u := s.modSec fun x => { x with ecc := (minute :: x.ecc).take 1440, eccLast := last, eccAt := s.time }
  s.when (s.curatorUp && s.sec.eccAt + 60000000000 ≤ s.time) (ts.foldl (fun s t => s.rateCheck t) u)

/-! ### Accesses that leave a pair (R440, R441) -/

/-- R440: the CRC-64 over the header, its src left out, and the payload. -/
def NetReq.crc (r : NetReq) : BitVec 64 := crc64 0 ({ r.hdr with src := 0 }.bytes ++ r.data)

/-- The accesses that wait for their twins at an interface. -/
def Net.held (n : Net) (t : Nat) : List NetReq := n.outbox.filter fun r => r.origin == t && !r.ready

/-- R440: the oldest access of the lead whose counterpart from the same unit of the twin has arrived, with that counterpart. -/
def Net.heldPair (n : Net) (t u : Nat) : Option (NetReq × NetReq) :=
  (n.held t).findSome? fun a =>
    ((n.held u).find? fun b => srcUnit b.hdr.src == srcUnit a.hdr.src).map fun b => (a, b)

/-- Both accesses of a pair are answered UNREACH. -/
def State.heldUnreach (s : State) (r : NetReq) : State := (s.modNet fun n => { n with outbox := n.outbox.erase r }).netDone r.user 3 []

/-- PAIRED_ACCESS_COMPARE (R440, R441): the lead sends a matching access once, for both twins; a mismatch breaks the pair, and nothing more
leaves a broken one. -/
def execPairedAccessCompare (lead : Nat) (s : State) : Result :=
  match s.twin lead with
  | none => .next s
  | some u =>
    if s.pairBroken lead then .next ((s.net.held lead ++ s.net.held u).foldl (fun s r => s.heldUnreach r) s)
    else match s.net.heldPair lead u with
    | none => .next s
    | some (a, b) =>
      if a.crc == b.crc then
        s.when (lead < u) (s.modNet fun n => { n with outbox := (n.outbox.erase b).map fun r =>
          if r == a then { r with ready := true, twin := some b.user } else r })
      else s.when (lead < u) (((s.breakPair lead a.crc b.crc).heldUnreach a).heldUnreach b)

end Sys2Proof.Machine
end

