-- ==== Sys2Proof/Machine/Mailbox.lean ====
section
/-! DEFINITION. The host mailbox and its commands (R389, R420, R421), MCTP and SPDM (R417, R422, R423, R427), the TDISP states of VFs (R418),
and the vectors that software raises (R416). -/

namespace Sys2Proof.Machine

/-! ### Requests and responses (R420) -/

def opGetVersion : Nat := 0x0001
def opGetIdentity : Nat := 0x0002
def opFwWrite : Nat := 0x0010
def opFwCommit : Nat := 0x0011
def opRecoveryBoot : Nat := 0x0012
def opVbringTest : Nat := 0x0020

/-- R421: the commands. -/
def mailboxOps : List Nat := [opGetVersion, opGetIdentity, opFwWrite, opFwCommit, opRecoveryBoot, opVbringTest]

/-- A request's opcode, payload length and tag, and its payload. -/
def reqOp (l : List (BitVec 8)) : Nat := leNat (l.take 2)
def reqLen (l : List (BitVec 8)) : Nat := leNat ((l.drop 2).take 2)
def reqTag (l : List (BitVec 8)) : Nat := leNat ((l.drop 4).take 4)
def reqBody (l : List (BitVec 8)) : List (BitVec 8) := (l.drop 8).take (reqLen l)

/-- R420: a response: opcode and tag of the request, its own length, a result and a payload. -/
def response (req : List (BitVec 8)) (result : Nat) (payload : List (BitVec 8)) : List (BitVec 8) :=
  leBytes 2 (reqOp req) ++ leBytes 2 payload.length ++ leBytes 4 (reqTag req) ++ leBytes 4 result ++ payload

/-- The state of the mailbox: 0 IDLE, 1 BUSY, 2 DONE. -/
def State.mbxState (s : State) : Nat := s.fld R.HST_MBX_STATUS 1 0

/-- The mailbox answers: Curator has VAUX5 and is not restarting (R384). Without valid firmware the ROM serves it (R372). -/
def State.mailboxUp (s : State) : Bool := s.pins.vaux5 && !s.cur.restarting

/-- R420: a request is taken: source 0 PCIe, 1 MCTP. -/
def State.mailboxTake (s : State) (req : List (BitVec 8)) (source : Nat) : State :=
  ((s.setFld R.HST_MBX_STATUS 1 0 1).setFld R.HST_MBX_STATUS 9 9 source).modHst fun h => { h with mbxWork := some req }

/-- R424: the bytes of the request area. -/
def State.mailboxArea (s : State) : List (BitVec 8) :=
  (List.range 1024).flatMap fun i => leBytes 4 (Map.get (fun _ => (0 : BitVec 32)) s.hst.mbxReq i).toNat

/-- R420: a write of go. -/
def State.mailboxGo (s : State) (a : Agent) : State :=
  if a != .host || s.mbxState == 1 then s.setBit R.HST_MBX_STATUS 8 true
  else s.mailboxTake s.mailboxArea 0

/-- MAILBOX_GO (R420). -/
def execMailboxGo (a : Agent) (s : State) : Result := s.devWrite a R.HST_MBX_CTL (s.mailboxGo a)

/-- A word of the request area (0) or the response area (1) is written by PF0. -/
def State.mailboxWrite (s : State) (a : Agent) (area i : Nat) (w : BitVec 32) : State :=
  if a != .host then s
  else if area == 0 then s.modHst fun h => { h with mbxReq := Map.set (fun _ => 0) h.mbxReq i w }
  else s.modHst fun h => { h with mbxRsp := Map.set (fun _ => 0) h.mbxRsp i w }

/-- An answer on a management protocol: its MCTP message type and its bytes. -/
def State.mctpAnswer (s : State) (kind : Nat) (l : List (BitVec 8)) : State := s.modHst fun h => { h with answers := h.answers ++ [(kind, l)] }

/-- R420: the response lies at HST_MBX_RSP; MAILBOX_COMPLETE follows. -/
def State.mailboxAnswer (s : State) (req : List (BitVec 8)) (result : Nat) (payload : List (BitVec 8)) : State :=
  let r := response req result payload
  let s := if s.fld R.HST_MBX_STATUS 9 9 == 1 then s.mctpAnswer 0x7E r else s
  s.modHst fun h => { h with mbxWork := none,
                             mbxRsp := (List.range ((r.length + 3) / 4)).foldl (fun m i =>
                               Map.set (fun _ => 0) m i (BitVec.ofNat 32 (leNat ((r.drop (4 * i)).take 4)))) h.mbxRsp }

/-- The request in service, if it has the opcode. -/
def State.mailboxJob (s : State) (op : Nat) : Option (List (BitVec 8)) :=
  if !s.mailboxUp || s.mbxState != 1 then none else s.hst.mbxWork.bind fun r => if reqOp r == op then some r else none

/-- R421: a command without payload runs when it is allowed. -/
def State.plainCommand (s : State) (op : Nat) (allowed : Bool) (run : List (BitVec 8) → State) : Result :=
  match s.mailboxJob op with
  | none => .next s
  | some r => .next (if reqLen r != 0 then s.mailboxAnswer r 2 [] else if !allowed then s.mailboxAnswer r 3 [] else run r)

/-- GET_VERSION (R421). -/
def execGetVersion (s : State) : Result :=
  s.plainCommand opGetVersion true fun r => s.mailboxAnswer r 0
    (Config.versionPayload [(s.reg R.HST_MBX_VERSION).toNat, Config.romVersion.toNat, s.flash.slotA.version, s.flash.slotA.secVersion,
      s.flash.slotB.version, s.flash.slotB.secVersion])

/-- R421: the part number. -/
def partNumber : List (BitVec 8) := [0x44, 0x56, 0x31, 0x36, 0x34, 0x38]

/-- GET_IDENTITY (R421): the serial, "DV1648" and CAT_GEN. -/
def execGetIdentity (s : State) : Result :=
  s.plainCommand opGetIdentity true fun r =>
    s.mailboxAnswer r 0 (Config.identityPayload Config.serial.toNat partNumber (s.reg R.CAT_GEN).toNat)

/-! ### Firmware (R372, R421) -/

/-- R372: Curator stays in S0 with no valid firmware. -/
def State.fwNone (s : State) : Bool := s.stage == 0 && s.bootError == 1

/-- R421: where firmware may be written. -/
def State.fwAllowed (s : State) : Bool := s.fwNone || s.stage == 5

/-- R372: the slot that is not running; without running firmware, slot A (log entry 47). -/
def State.otherSlot (s : State) : Nat := if s.fwNone then 0 else 1 - s.runningSlot

/-- FW_WRITE (R421): an offset and up to 4,080 bytes go into the staging area; `flashErr` says that the flash failed. -/
def execFwWrite (flashErr : Bool) (s : State) : Result :=
  match s.mailboxJob opFwWrite with
  | none => .next s
  | some r =>
    if reqLen r < 4 || 4084 < reqLen r then .next (s.mailboxAnswer r 2 [])
    else if !s.fwAllowed then .next (s.mailboxAnswer r 3 [])
    else if flashErr then .next (s.mailboxAnswer r 6 [])
    else
      let at_ := leNat ((reqBody r).take 4)
      let f := { s.flash with staged := Map.setAll (fun _ => 0) s.flash.staged at_ ((reqBody r).drop 4) }
      .next ({ s with flash := f }.mailboxAnswer r 0 [])

/-- The staged bytes in order. -/
def Flash.image (f : Flash) : List (BitVec 8) := Map.getRange (fun _ => 0) f.staged 0 (f.staged.foldl (fun n e => max n (e.1 + 1)) 0)

/-- R372: the staged slot verifies: its signature holds and its security version is not below the minimum. -/
def State.stagedOk (s : State) : Bool :=
  let v := Config.firmware s.flash.staged
  v.2.2 && s.fuses.minSec ≤ v.2.1

/-- R421: the staged slot becomes a candidate for the ROM. -/
def State.fwCandidate (s : State) : State :=
  let v := Config.firmware s.flash.staged
  let slot : FwSlot := { version := v.1, secVersion := v.2.1, signed := true, digest := (Config.sha384 s.flash.image).toNat }
  let i := s.otherSlot
  let f := if i == 0 then { s.flash with slotA := slot, staged := [] } else { s.flash with slotB := slot, staged := [] }
  { s with flash := f, cur := { s.cur with slotsRefused := s.cur.slotsRefused.filter (· != i) } }

/-- R421: the outcome of FW_COMMIT and of the first part of RECOVERY_BOOT. -/
def State.fwCommit (s : State) (r : List (BitVec 8)) (flashErr : Bool) (boot : Bool) : State :=
  if flashErr then s.mailboxAnswer r 6 []
  else if !s.stagedOk then s.mailboxAnswer r 4 []
  else if boot then (s.fwCandidate.mailboxAnswer r 0 []).bootFirmware
  else s.fwCandidate.mailboxAnswer r 0 []

/-- FW_COMMIT (R421). -/
def execFwCommit (flashErr : Bool) (s : State) : Result :=
  s.plainCommand opFwCommit s.fwAllowed fun r => s.fwCommit r flashErr false

/-- RECOVERY_BOOT (R421): in S0 with FW_NONE the slot is committed and booted at once. -/
def execRecoveryBoot (flashErr : Bool) (s : State) : Result :=
  s.plainCommand opRecoveryBoot s.fwNone fun r => s.fwCommit r flashErr true

/-! ### The VBRING test (R389) -/

/-- R389: the failing sites of a test are reported and, for a wing that is not dead, merged into the catalogue. -/
def State.vbringFails (s : State) (w : Nat) (failed : List Nat) : State :=
  failed.foldl (fun s t =>
    let s := s.curFault 0x42 (le 1 0 ++ le 1 w ++ le 2 t)
    if s.wingDead w then s else s.markSiteDead t 2 1 s.time) s

/-- VBRING_TEST (R389): the CN self-test and scan test of every site of the connected wing; `failed` names those that fail. -/
def execVbringTest (failed : List Nat) (s : State) : Result :=
  let w := s.fld R.PWR_BRING_CTL 3 0
  let bad := (wingSites w).filter failed.contains
  s.plainCommand opVbringTest (s.stage == 5 && s.bit R.PWR_BRING_STATUS 0) fun r =>
    ((s.vbringFails w bad).curFault 0x42 (le 1 1 ++ le 1 w ++ le 2 192 ++ le 2 bad.length)).mailboxAnswer r 0 []

/-- MAILBOX_COMPLETE (R420): a request that was answered completes; one with no command of R421 is answered BAD_OPCODE. -/
def execMailboxComplete (s : State) : Result :=
  let s1 := match s.hst.mbxWork with
    | some r => s.mailboxAnswer r 1 []
    | none => s
  let ready := match s.hst.mbxWork with
    | some r => !mailboxOps.contains (reqOp r)
    | none => true
  let result := (Map.get (fun _ => 0) s1.hst.mbxRsp 2).toNat
  s.when (s.mailboxUp && s.mbxState == 1 && ready)
    (((s1.setFld R.HST_MBX_STATUS 31 16 result).setFld R.HST_MBX_STATUS 1 0 2).raiseVector 0 0)

/-! ### MCTP and SPDM (R422, R423, R427) -/

/-- R422: the numeric sensors of PLDM type 2: module input power, VIN48 in mV (a value that the module's own measurement gives, here free),
each wing junction temperature and each stack temperature. -/
def State.sensors (s : State) : List Nat :=
  [s.fld R.PWR_MEAS_W 15 0, s.free.toNat % 2 ^ 16] ++ ((List.range 16).map fun w => s.fld (R.THM w) 15 0) ++
  (List.range 32).map fun k => s.fld (R.MEM_STK_TEMP k) 15 0

/-- R420, R422: a mailbox request that arrives over MCTP. -/
def State.mctpMailbox (s : State) (req : List (BitVec 8)) : State :=
  if s.mbxState == 1 then s.mctpAnswer 0x7E (response req 5 []) else s.mailboxTake req 1

/-- MCTP_MESSAGE (R422): a message over SMBus, or over PCIe VDM while the host link is up, is served by its type; no other type is. -/
def execMctpMessage (pcie : Bool) (kind : Nat) (body : List (BitVec 8)) (s : State) : Result :=
  let u :=
    if kind == 0x00 then s.mctpAnswer 0x00 (Config.controlAnswer body)
    else if kind == 0x01 then s.freed.mctpAnswer 0x01 (Config.pldmAnswer body s.sensors)
    else if kind == 0x05 || kind == 0x06 then s.mctpAnswer kind (Config.spdmAnswer body)
    else if kind == 0x7E then s.mctpMailbox body
    else s
  s.when (s.mailboxUp && (!pcie || s.hostUp)) u

/-- R427: the value of a measurement. -/
def State.measurement (s : State) (i : Nat) : List (BitVec 8) :=
  let be (d : BitVec 384) : List (BitVec 8) := (List.range 48).map fun i => BitVec.ofNat 8 (d.toNat >>> (8 * (47 - i)))
  let slot := s.flash.slot s.runningSlot
  let image (m : Option Image) : List (BitVec 8) := match m with
    | some m => be (Config.sha384 (Map.getRange (fun _ => 0) m.bytes 0 m.sigOff))
    | none => List.replicate 48 0
  let word (a : Nat) : List (BitVec 8) := leBytes 4 (s.reg a).toNat
  match i with
  | 1 => be Config.romDigest
  | 2 => be (BitVec.ofNat 384 slot.digest) ++ leBytes 4 slot.version ++ leBytes 4 slot.secVersion
  | 3 => be (Config.sha384 (be (Config.imageKeyHash.getD 0) ++ [BitVec.ofNat 8 s.fuses.linkKey.toNat] ++ leBytes 4 s.fuses.minSec ++ partNumber))
  | 4 => (List.range 12).flatMap fun n => word (R.CAT_DIGEST n)
  | 5 => image s.fab.active
  | 6 => image (if s.shadowState == 2 then s.fab.shadow else none)
  | 7 => word R.SEC_DEBUG_SEEN ++ word R.SEC_DEBUG_TIME_LO ++ word R.SEC_DEBUG_TIME_HI
  | 8 => word R.LNK_CTL
  | _ => []

/-- GET_MEASUREMENTS (R423, R427): the measurements of R427 that the request names, signed over the requester's nonce. -/
def execGetMeasurements (indices : List Nat) (nonce : List (BitVec 8)) (s : State) : Result :=
  let blocks := (indices.filter fun i => 1 ≤ i && i ≤ 8).flatMap fun i => Config.measurementBlock i (s.measurement i)
  s.when s.mailboxUp (s.mctpAnswer 0x05 (blocks ++ Config.identitySign (blocks ++ nonce)))

/-- KEY_EXCHANGE (R423): a secured session stands. -/
def execKeyExchange (body : List (BitVec 8)) (s : State) : Result :=
  s.when s.mailboxUp ((s.mctpAnswer 0x05 (Config.spdmAnswer body)).modHst fun h => { h with session := true })

/-! ### IDE (R417) -/

/-- R417: stream 0 is the link stream, streams 1 to 8 the selective ones. -/
def streamExists (n : Nat) : Bool := n < 9

/-- IDE_KM_KEY_INSTALL (R417): a key set is installed for a stream in a secured session. -/
def execIdeKmKeyInstall (stream : Nat) (s : State) : Result :=
  s.when (s.hst.session && streamExists stream && s.mailboxUp)
    (s.modHst fun h => { h with streams := if h.streams.any (fun e => e.1 == stream) then h.streams else h.streams ++ [(stream, 0)],
                                stopped := h.stopped.filter (· != stream) })

/-- The VFs bound to a stream. -/
def State.streamVfs (s : State) (stream : Nat) : List Nat :=
  (s.hst.streams.filter fun e => e.1 == stream && e.2 != 0).map (·.2)

/-- The stream of a VF. -/
def State.streamOf (s : State) (k : Nat) : Option Nat := (s.hst.streams.find? fun e => e.2 == k).map (·.1)

/-- R418: a locked TDI enters ERROR. -/
def State.tdiError (s : State) (k : Nat) : State := if s.tdi k == 1 || s.tdi k == 2 then s.setTdi k 3 else s

/-- IDE_INTEGRITY_FAILURE (R417): the TLP is discarded, the stream stops, and every TDI bound to it enters ERROR. -/
def execIdeIntegrityFailure (stream : Nat) (s : State) : Result :=
  let u := s.modHst fun h => { h with stopped := h.stopped.filter (· != stream) ++ [stream] }
  s.when (s.hst.streams.any fun e => e.1 == stream) ((s.streamVfs stream).foldl (fun s k => s.tdiError k) u)

/-! ### TDISP (R418) -/

/-- R418, R424: a write of HST_VF_BIND_k. -/
def State.vfBind (s : State) (k : Nat) (w : BitVec 32) : State :=
  if s.tdi k != 0 then s.setBit (R.HST_VF_BIND k) 30 true else s.regWrite (R.HST_VF_BIND k) w

/-- HST_VF_BIND_WRITE (R418). -/
def execHstVfBindWrite (a : Agent) (k : Nat) (w : BitVec 32) (s : State) : Result :=
  s.devWrite a (R.HST_VF_BIND (k % 64)) (if k % 64 == 0 then s else s.vfBind (k % 64) w)

/-- R418: the four channels of a VF are idle. -/
def State.channelsIdle (s : State) (k : Nat) : Bool := (List.range 4).all fun c => (s.chan k c).isEmpty

/-- R411: the address of BAR0 or BAR2 of VF k: the VF BARs of SR-IOV lie one after the other from the address that PF1 holds for them. -/
def State.vfBar (s : State) (k bar : Nat) : Nat :=
  Map.get (fun _ => 0) s.hst.bars (65 * 8 + bar) + (k - 1) * (if bar == 0 then 2 ^ 36 else 2 ^ 16)

/-- R418: what the interface report of a VF lists: its BARs, the partition's number, class and domain, its regions, the serial of the
active image and CAT_DIGEST. -/
def State.reportItems (s : State) (k : Nat) : List (List Nat) :=
  match s.fab.active, s.vfPart k with
  | some m, some p =>
    [[s.vfBar k 0, 2 ^ 36, s.vfBar k 2, 2 ^ 16], [p, m.partClass p, m.partDomain p],
     ((m.regions.filter fun r => r.owner == p).flatMap fun r => [r.base, 4096 * r.pages]), [m.serial],
     s.catDigest.map (·.toNat)]
  | _, _ => []

/-- LOCK_INTERFACE (R418): accepted for a bound VF of a partition in the active image, its channels idle and a selective stream given. -/
def execLockInterface (k stream : Nat) (s : State) : Result :=
  let given := s.hst.streams.any fun e => e.1 == stream && (e.2 == 0 || e.2 == k)
  let u := s.modHst fun h => { h with streams := h.streams.map fun e => if e.1 == stream then (stream, k) else e }
  let u := (u.setTdi k 1).mctpAnswer 0x06 (Config.interfaceReport (s.reportItems k))
  s.when (1 ≤ k && k < 64 && s.hostUp && s.tdi k == 0 && (s.vfPart k).isSome && s.channelsIdle k && 1 ≤ stream && given &&
    !s.hst.stopped.contains stream) u

/-- START_INTERFACE (R418): CONFIG_LOCKED to RUN. -/
def execStartInterface (k : Nat) (s : State) : Result :=
  s.when (1 ≤ k && k < 64 && s.hostUp && s.tdi k == 1 && !s.hst.unlocking.contains k) (s.setTdi k 2)

/-- R418, R434: a TDI moves to CONFIG_UNLOCKED once its partition's scrub has ended; a partition that is in no image needs none. -/
def State.unlockTdi (s : State) (k : Nat) : State :=
  let s := s.modHst fun h => { h with streams := h.streams.map fun e => if e.2 == k then (e.1, 0) else e }
  match s.vfPart k with
  | some p => (s.scrubPartition p).modHst fun h => { h with unlocking := h.unlocking.filter (· != k) ++ [k] }
  | none => s.setTdi k 0

/-- STOP_INTERFACE (R418). -/
def execStopInterface (k : Nat) (s : State) : Result :=
  s.when (1 ≤ k && k < 64 && s.hostUp && s.tdi k != 0 && !s.hst.unlocking.contains k) (s.unlockTdi k)

/-! ### Vectors (R416) -/

/-- R416: who may raise a vector of function f (0 PF1, k VF k). -/
def State.mayRaise (s : State) (a : Agent) (f : Nat) : Bool :=
  match a with
  | .host => true
  | .pf1 => true
  | .core t _ => match s.partOf t, s.fab.active with
    | some p, some m =>
      if f == 0 then (m.partRights p).testBit 4 else s.bit (R.HST_VF_BIND f) 31 && s.fld (R.HST_VF_BIND f) 7 0 == p
    | _, _ => false
  | _ => false

/-- R416: a write of HST_MSIX_RAISE; a VF that is not enabled has no vectors. -/
def State.msixRaise (s : State) (a : Agent) (f vec : Nat) : State :=
  if vec < 4 || 31 < vec || !s.mayRaise a f then s.setBit R.HST_MSIX_RAISE 31 true
  else if f ≤ s.hst.numVfs then s.raiseVector (f + 1) vec else s

/-- HST_MSIX_RAISE (R416): the write is accepted whatever csr_rights grants. -/
def execHstMsixRaise (a : Agent) (f vec : Nat) (s : State) : Result :=
  s.openWrite a (s.msixRaise a (f % 64) (vec % 32))

end Sys2Proof.Machine
end

