-- ==== Sys2Proof/Machine/CsrWrite.lean ====
section
/-! DEFINITION. Writes of CSRs: what a word written to each register with an action of its own does (R6-R8), the registers that a rule opens
to agents without csr_rights (R322, R338, R339, R391, R416), broadcast writes (R297), and debug accesses (R430, R449). -/

namespace Sys2Proof.Machine

/-- The state that an outcome leaves. -/
def stateAfter (s : State) (r : Result) : State :=
  match r with
  | .next t => t
  | .fault _ => s
  | .refused _ => s

/-! ### Tile registers -/

/-- R71, R92, R128: a write of ENG_ARR_CTL: clear sets every ENG_ARR counter to 0, and with them the counters of expansion and of the drain. -/
def State.arrCtl (s : State) (t : Nat) (w : BitVec 32) : State :=
  let s := s.tregWrite t R.ENG_ARR_CTL w
  if w.getLsbD 1 then
    [R.ENG_ARR_ACTIVE_LO, R.ENG_ARR_ACTIVE_HI, R.ENG_ARR_VOID_LO, R.ENG_ARR_VOID_HI, R.ENG_ARR_FRZ_STREAM, R.ENG_ARR_FRZ_STAT,
      R.ENG_ARR_FRZ_ACC, R.ENG_ARR_RELOADS, R.ENG_EXP_FLUSH, R.ENG_EXP_OVF, R.ENG_TERM_FLUSH, R.ENG_TREE_LOSS, R.ENG_GROUP_RANGE,
      R.ENG_DRN_ROWS_LO, R.ENG_DRN_ROWS_HI, R.ENG_DRN_STALL, R.ENG_ACC_ECC].foldl (fun s a => s.setTreg t a 0) s
  else s

/-- A word written to a register of one site. -/
def State.tileStore (s : State) (t off : Nat) (w : BitVec 32) : State :=
  if 0x80000 ≤ off && off < 0xA0000 then s.progWrite t ((off - 0x80000) / 4) w
  else if !tileHas (kindOf t) off then s
  else if off == R.TILE_START then s.tileStart t w
  else if off == R.TILE_RESET then
    let s := s.tregWrite t off w
    if w.getLsbD 0 then s.tileReset t else s
  else if 0x400 ≤ off && off < 0x800 then s.quantCsr t off w
  else if off == R.VIT_SEG_CTL then s.segCommand t (getBits w 5 4) (getBits w 2 0)
  else if off == R.ENG_ARR_CTL then s.arrCtl t w
  else if off == R.S_L2_CFG then s.l2Cfg t w
  else if off == R.NET_Q_CTL then s.queueCmd t (getBits w 9 8) (getBits w 5 0)
  else if off == R.NET_WIN_CMD then s.winWrite t (getBits w 17 16) (getBits w 7 0)
  else if 0xE00 ≤ off && off < 0x1000 && off % 32 == 0 then s.concCfg t ((off - 0xE00) / 32) w
  else if 0x1400 ≤ off && off < 0x1800 then s.snWrite t ((off - 0x1400) / 4) (getBits w 1 0)
  else s.tregWrite t off w

/-! ### Device registers -/

/-- R338: a write of TIM_PULSE_AT_LO by the owner of pin function 0; while TIM_SYNC_CTL uses the pin it is ignored. -/
def State.pulseLo (s : State) (a : Agent) (w : BitVec 32) : State :=
  if !s.owns a 4 0 then s.setBit R.TIM_SYNC_STATUS 4 true
  else if s.pinInUse 0 then s else (s.takeLo R.TIM_PULSE_AT_LO).setReg R.TIM_PULSE_AT_LO w

/-- R339, R342: a write to a register of timer n. -/
def State.timerStore (s : State) (a : Agent) (n off : Nat) (w : BitVec 32) : State :=
  s.timerWrite a n (if off == R.TIM_TIMER_CMP_HI n then s.timerArm n w else s.regWrite off w)

/-- R346: a write of PWR_BRING_CTL. The rail of a wing whose output is off reads below 0.1 V. -/
def State.bringCtl (s : State) (a : Agent) (w : BitVec 32) : State :=
  if w.getLsbD 8 then stateAfter s (execVbringConnect a (getBits w 3 0) s.pins.bringEn 0 s)
  else stateAfter s (execVbringDisconnect (a, getBits w 3 0) s)

/-- R347, R368: a write of PWR_WING_CTL. -/
def State.wingCtl (s : State) (w : BitVec 32) : State :=
  match getBits w 17 16 with
  | 0 => s
  | 1 => s.wingOn (getBits w 3 0)
  | 2 => s.wingOff (getBits w 3 0)
  | _ => s.wingReject

/-- R304, R318, R323: a write of FAB_CTL. -/
def State.fabCtl (s : State) (w : BitVec 32) : State :=
  match getBits w 1 0 with
  | 1 => s.load
  | 2 => s.cancel
  | 3 => s.discard
  | _ => s

/-- R322, R323: a write of FAB_CLAIM. -/
def State.claimWrite (s : State) (a : Agent) (w : BitVec 32) : State :=
  s.byClaimant a fun who =>
    if w.getLsbD 16 then s.releaseClaim who (getBits w 2 0) (getBits w 15 8) else s.claim who (getBits w 2 0) (getBits w 15 8)

/-- R409: a write of LNK_PORTn_CTL. -/
def State.portCtl (s : State) (a : Agent) (p : Nat) (w : BitVec 32) : State :=
  let s := s.regWrite (R.LNK_PORT_CTL p) w
  match getBits w 1 0 with
  | 1 => stateAfter s (execRetrain a p s)
  | 2 => stateAfter s (execDisable a p s)
  | 3 => stateAfter s (execEnable a p s)
  | _ => s

/-- R434, R448: a write of SEC_SCRUB_CTL. -/
def State.scrubCtl (s : State) (a : Agent) (w : BitVec 32) : State :=
  let s := s.regWrite R.SEC_SCRUB_CTL w
  match getBits w 17 16 with
  | 0 => s
  | 1 => s.scrubPartCmd a (getBits w 7 0)
  | 2 => s.scrubIdleCmd a
  | _ => s.scrubReject

/-- R394: a write of CUR_RESET_CMD. -/
def State.resetCmd (s : State) (w : BitVec 32) : State :=
  match getBits w 1 0 with
  | 1 => s.moduleReset
  | 2 => s.restart
  | _ => s

/-- A word written to a device register by an agent that may write it; `acc` is what a word written to DBG_ACC_CMD does. DESIGN CHOICE, log
entry 97: a word written to HST_MSIX_RAISE with bit 31 set and bits [13:0] 0 clears reject and is no raise. -/
def State.devStore (s : State) (a : Agent) (off : Nat) (w : BitVec 32) (acc : State → BitVec 32 → State) : State :=
  if off == R.CUR_RESET_CMD then s.resetCmd w
  else if off == R.CUR_PART_RESET then s.partReset a (getBits w 7 0)
  else if off == R.CUR_IFT_GRANT then stateAfter s (execIftGrant a (getBits w 31 24) (getBits w 23 0) s)
  else if off == R.CLK_OP_SWITCH_AT_HI then stateAfter s (execOpSwitchRequest a w s)
  else if off == R.PWR_WING_CTL then s.wingCtl w
  else if off == R.PWR_BRING_CTL then s.bringCtl a w
  else if 0x200100 ≤ off && off < 0x200300 && off % 32 == 0 then
    (if w.getLsbD 31 then stateAfter s (execVminRearm a ((off - 0x200100) / 32) s) else s)
  else if 0x301000 ≤ off && off < 0x301800 && off % 64 == 0 then s.portCtl a ((off - 0x301000) / 64) w
  else if off == R.HST_MBX_CTL then (if w.getLsbD 0 then s.mailboxGo a else s)
  else if off == R.HST_MSIX_RAISE then
    let s := s.regWrite off w
    if w.getLsbD 31 && getBits w 13 0 == 0 then s else s.msixRaise a (getBits w 13 8) (getBits w 4 0)
  else if 0x400104 ≤ off && off < 0x400200 then s.vfBind ((off - 0x400100) / 4) w
  else if 0x401000 ≤ off && off < 0x402000 then s.mailboxWrite a 0 ((off - 0x401000) / 4) w
  else if 0x402000 ≤ off && off < 0x403000 then s.mailboxWrite a 1 ((off - 0x402000) / 4) w
  else if off == R.SEC_SCRUB_CTL then s.scrubCtl a w
  else if off == R.SEC_FENCE_CHECK then stateAfter s (execSecFenceCheck a (getBits w 7 0) s)
  else if off == R.CAT_HOLD_CTL then s.holdRequest (getBits w 11 0) (w.getLsbD 16)
  else if off == R.FAB_CTL then s.fabCtl w
  else if off == R.FAB_SWAP_AT_HI then s.arm w
  else if off == R.FAB_CLAIM then s.claimWrite a w
  else if off == R.TIM_SYNC_CTL then stateAfter s (execTimSyncCtlWrite a w s)
  else if off == R.TIM_PULSE_AT_LO then s.pulseLo a w
  else if off == R.TIM_PULSE_AT_HI then stateAfter s (execTimPulseAtWrite a w s)
  else if 0x900100 ≤ off && off < 0x900300 then s.timerStore a ((off - 0x900100) / 16) off w
  else if off == R.DBG_CORE_CMD then s.coreCmd (getBits w 2 0) (getBits w 27 16) (getBits w 13 12)
  else if off == R.DBG_ACC_CMD then acc s w
  else if 0xA00100 ≤ off && off < 0xA00120 then s.traceCtl a ((off - 0xA00100) / 4) w
  else if 0xA01000 ≤ off && off < 0xA03000 then s.bankWrite a ((off - 0xA01000) / 128) off w
  else if off == R.FLT_LOG_HEAD then s.logHead w
  else s.regWrite off w

/-- The registers that an agent may write whatever csr_rights grants: a rule of their own says who may. -/
def openRegister (a : Agent) (off : Nat) : Bool :=
  off == R.FAB_CLAIM || off == R.HST_MSIX_RAISE || off == R.TIM_PULSE_AT_LO || off == R.TIM_PULSE_AT_HI || (0x900100 ≤ off && off < 0x900300) ||
  (off == R.CUR_IFT_GRANT && match a with
    | .core _ _ => true
    | _ => false)

/-- Where a write leads. -/
def State.csrWritePlace (s : State) (a : Agent) (addr : Nat) : CsrPlace :=
  match s.place addr with
  | .devCsr off =>
    if openRegister a off && s.pins.vaux5 && !s.vfOut a then (if s.cur.restarting then .unreach else .dev off) else s.csrPlace a addr
  | _ => s.csrPlace a addr

/-- A write of a CSR: its status and the state after it (R5, R428). -/
def State.csrWriteWith (s : State) (a : Agent) (addr size : Nat) (w : BitVec 32) (acc : State → BitVec 32 → State) : Nat × State :=
  match s.csrWritePlace a addr with
  | .denied t => (0, s.violation a addr 9 (if t == 0xBDF then 0 else t))
  | .unreach => (3, s)
  | .tile t off =>
    if !wordAccess addr size then (0, s.csrAccess a addr size true) else (0, s.applied a t fun s t => s.tileStore t off w)
  | .dev off => if !wordAccess addr size then (0, s.csrAccess a addr size true) else (0, s.devStore a off w acc)

/-! ### Debug accesses (R430, R449) -/

/-- R449: the word of a HALTED core's registers at an index of space 1. -/
def Core.debugWord (k : Core) (i : Nat) : Option (BitVec 32) :=
  if i < 64 then
    let v := k.getS (i / 2)
    some (if i % 2 == 0 then v.extractLsb' 0 32 else v.extractLsb' 32 32)
  else if i == 64 then some (BitVec.ofNat 32 k.pc)
  else if i == 65 then some (BitVec.ofNat 32 (k.pc / 2 ^ 32))
  else if i == 66 then some (BitVec.ofNat 32 (k.predMask))
  else none

/-- R449: a write of a word of space 1. -/
def Core.debugSet (k : Core) (i : Nat) (w : BitVec 32) : Core :=
  if i < 64 then
    let v := k.getS (i / 2)
    k.setS (i / 2) (if i % 2 == 0 then v.extractLsb' 32 32 ++ w else w ++ v.extractLsb' 0 32)
  else if i == 64 then { k with pc := k.pc / 2 ^ 32 * 2 ^ 32 + w.toNat }
  else if i == 65 then { k with pc := 2 ^ 32 * w.toNat + k.pc % 2 ^ 32 }
  else if i == 66 then { k with p := w.extractLsb' 0 8 ||| 1 }
  else k

/-- R449: an access to the registers of the core last named, which must be HALTED. -/
def State.debugRegs (s : State) (write : Bool) (i : Nat) : State :=
  match s.dbg.named with
  | none => s.debugDone 3 []
  | some n =>
    let t := n / 4
    let c := n % 4
    match (s.core t c).debugWord i with
    | none => s.debugDone 3 []
    | some v =>
      if !s.coreThere t c || s.coreState t c != 5 then s.debugDone 3 []
      else if write then (s.modCore t c fun k => k.debugSet i (s.reg R.DBG_ACC_DATA)).debugDone 0 []
      else s.debugDone 0 (leBytes 4 v.toNat)

/-- R430, R449: an access to device memory or a CSR, with Curator's rights. -/
def State.debugMemory (s : State) (write : Bool) (addr : Nat) : State :=
  let v := s.reg R.DBG_ACC_DATA
  let csr := match s.place addr with
    | .tileCsr _ _ => true
    | .devCsr _ => true
    | _ => false
  if csr then
    if write then
      let r := s.csrWriteWith .curator addr 4 v fun s _ => s
      r.2.debugDone r.1 []
    else
      let r := s.csrRead .curator addr 4
      r.2.2.debugDone r.1 (leBytes 4 r.2.1.toNat)
  else
    let h : Hdr := { Hdr.blank with dev := s.deviceId, kind := if write then 9 else 8, len := 4, src := s.curatorSource, addr := addr }
    (s.setBit R.DBG_ACC_CMD 31 true).post 5001 .curator h (if write then leBytes 4 v.toNat else []) .debug

/-- R432, R449: a command to DBG_ACC_CMD; one that comes while an access is in progress is ignored (log entry 48). -/
def State.debugAccess (s : State) (op space : Nat) : State :=
  if s.bit R.DBG_ACC_CMD 31 then s else
  let s := (s.debugSeen 2).setFld R.DBG_ACC_CMD 1 0 op
  let addr := s.acted64 R.DBG_ACC_ADDR_LO
  if space == 0 then s.debugMemory (op == 2) addr else s.debugRegs (op == 2) addr

/-- R8, R449: a word written to DBG_ACC_CMD. -/
def State.accCmd (s : State) (w : BitVec 32) : State :=
  let s := s.regWrite R.DBG_ACC_CMD w
  let op := getBits w 1 0
  if (op == 1 || op == 2) && getBits w 9 8 < 2 then s.debugAccess op (getBits w 9 8) else s

/-- DEBUG_READ, DEBUG_WRITE (R449): the command is written to DBG_ACC_CMD for space 0 or 1; address and data are in their registers. -/
def execDebugRead (a : Agent) (space : Nat) (s : State) : Result :=
  s.devWrite a R.DBG_ACC_CMD (if space < 2 then s.debugAccess 1 space else s)
def execDebugWrite (a : Agent) (space : Nat) (s : State) : Result :=
  s.devWrite a R.DBG_ACC_CMD (if space < 2 then s.debugAccess 2 space else s)

/-! ### Writes over the CN -/

/-- A write of a CSR by an agent. -/
def State.csrWrite (s : State) (a : Agent) (addr size : Nat) (w : BitVec 32) : Nat × State := s.csrWriteWith a addr size w State.accCmd

/-- REGISTER_WRITE (R6): an aligned word is written to a register. -/
def execRegisterWrite (a : Agent) (address : Nat) (value : BitVec 32) (s : State) : Result := .next (s.csrWrite a address 4 value).2

/-- The sites that a broadcast reaches: every live one of the kind named whose wing is up. -/
def State.broadcastSites (s : State) (kind : Nat) : List Nat :=
  allSites.filter fun t => (kindOf t).code == kind && s.live t && s.wingUp (wingOf t)

/-- CN_BROADCAST (R297): Curator's write of a tile register at every live site of a kind (R36). -/
def execCnBroadcast (kind offset : Nat) (value : BitVec 32) (s : State) : Result :=
  s.when (s.pins.vaux5 && offset < 2 ^ 20 && offset % 4 == 0)
    ((s.broadcastSites kind).foldl (fun s t => s.tileStore t offset value) s)

end Sys2Proof.Machine
end

