-- ==== Sys2Proof/Machine/Host.lean ====
section
/-! DEFINITION. The PCIe endpoint (R410-R415, R419, R424, R425): its link, its functions and BARs, host memory requests, the message ports
and copy channels of function pages; and the loss of a reference clock (R325). Functions are numbered as their pages: 0 PF1, k VF k, and 64
PF0. -/

namespace Sys2Proof.Machine

/-! ### The link (R410, R419) -/

/-- R410: VLINK is on. -/
def State.vlinkOn (s : State) : Bool := s.stageOn

/-- R410: the widths and the rate codes to which the link trains. -/
def linkWidth (w : Nat) : Bool := [1, 2, 4, 8, 16].contains w
def linkRate (r : Nat) : Bool := 1 ≤ r && r ≤ 6

/-- R410, R424: the link is trained to a width and rate, one lane at up to 8 GT/s without VLINK. The field width has no code for 16
lanes: it then holds a free value. -/
def State.linkTrained (s : State) (width rate : Nat) : State :=
  let width := if s.vlinkOn then width else 1
  let rate := if s.vlinkOn then rate else min 3 rate
  let a := R.HST_LINK_STATUS
  let s := if width == 16 then (s.setFld a 3 0 (s.free.toNat % 16)).freed else s.setFld a 3 0 width
  (s.setFld a 7 4 rate).setBit a 9 (rate == 6)

/-- R415: the channels of a function that run or have a descriptor in progress. -/
def State.runningChannels (s : State) : List (Nat × Nat) :=
  ((List.range 64).flatMap fun f => (List.range 4).map fun c => (f, c)).filter fun e =>
    s.bit (R.FN_CH_CFG e.1 e.2) 31 || !(s.chan e.1 e.2).isEmpty

/-- R419: the copy channels stop: their transfers end where they are, and each shows LINK_DOWN, which a function can read once the link
has returned. -/
def State.stopChannels (s : State) : State :=
  s.runningChannels.foldl (fun s e =>
    ((s.setBit (R.FN_CH_STATUS e.1 e.2) 31 true).setBit (R.FN_CH_STATUS e.1 e.2) 30 false).setChan e.1 e.2 []) s

/-- The link is down: no host request waits for an answer any longer (R419). -/
def State.linkOff (s : State) : State := (s.setFld R.HST_LINK_STATUS 9 0 0).modHst fun h => { h with reqs := [] }

/-- R419: the link goes down other than by PERST_N. -/
def State.surpriseDown (s : State) : State :=
  if s.hostUp then (s.linkOff.setBit R.HST_LINK_STATUS 11 true).stopChannels else s

/-- HOST_LINK_UP (R410, R419): the link trains up, while PERST_N is released and REFCLK_PCIE is present. -/
def execHostLinkUp (width rate : Nat) (s : State) : Result :=
  s.when (s.pins.vaux5 && s.pins.perstN && s.bit R.CLK_REF_STATUS 1 && !s.hostUp && linkWidth width && linkRate rate)
    ((s.linkTrained width rate).setBit R.HST_LINK_STATUS 8 true)

/-- HOST_LINK_RETRAIN (R410): VLINK has come up or gone off; configuration, BARs and vectors are kept. -/
def execHostLinkRetrain (width rate : Nat) (s : State) : Result :=
  s.when (s.hostUp && linkWidth width && linkRate rate) (s.linkTrained width rate)

/-- SURPRISE_DOWN (R419). -/
def execSurpriseDown (s : State) : Result := .next s.surpriseDown

/-- R418, R424: PERST_N clears the binding of a VF; a TDI that is not CONFIG_UNLOCKED becomes so once its partition's scrub has ended. -/
def State.perstVf (s : State) (k : Nat) : State :=
  if s.tdi k == 0 then s.setReg (R.HST_VF_BIND k) 0 else
  match s.vfPart k with
  | some p => ((if s.hst.unlocking.contains k then s else s.scrubPartition p).modHst fun h =>
      { h with unlocking := h.unlocking.filter (· != k) ++ [k] }).setBit (R.HST_VF_BIND k) 31 false
  | none => if s.hst.unlocking.contains k then s.setBit (R.HST_VF_BIND k) 31 false else s.setReg (R.HST_VF_BIND k) 0

/-- What waits for the answer to a message of a function's page that PERST_N cleared: nobody, under a number that no request has. -/
def NetUser.afterPerst (id : Nat) (u : NetUser) : NetUser :=
  match u with
  | .fn _ => .host id
  | u => u

/-- R417-R419: PERST_N asserted. The link, the configuration, the BARs, the vectors not yet taken, the key sets, the function pages and the
channels are reset; the rest of the module runs on. -/
def State.perst (s : State) : State :=
  let s := { s with pins := { s.pins with perstN := false }, msix := [],
                    regs := s.regs.filter fun e => e.1 < 0x10000000, hiLatch := s.hiLatch.filter fun e => e.1 < 0x10000000,
                    loHeld := s.loHeld.filter fun e => e.1 < 0x10000000 }
  let s := (s.linkOff.setBit R.HST_LINK_STATUS 10 true).modNet fun n =>
    { n with outbox := n.outbox.map fun r => { r with user := r.user.afterPerst s.hst.nextId },
             joins := n.joins.map fun j => { j with user := j.user.afterPerst s.hst.nextId } }
  let s := s.modHst fun h =>
    { h with numVfs := 0, bars := [], nextId := h.nextId + 1, chans := [], streams := [], stopped := [] }
  ((List.range 63).map (· + 1)).foldl State.perstVf s

/-- PERST_N (R419): the pin is driven low, or released. -/
def execPerstN (low : Bool) (s : State) : Result :=
  let released := { s with pins := { s.pins with perstN := true } }.setBit R.HST_LINK_STATUS 10 false
  .next (if low then (if s.pins.perstN then s.perst else s) else if s.pins.perstN then s else released)

/-- REFCLK_LOSS (R325): reference 0 SYS, 1 PCIE or 2 LNK is lost. -/
def execRefclkLoss (ref : Nat) (s : State) : Result :=
  let l := s.refLost ref
  let u := match ref with
    | 0 => if s.stage == 0 then l.sysLost else l.sysLost.startFails 4
    | 1 => l.surpriseDown
    | _ => ((List.range 32).filter fun p => 2 ≤ s.portState p).foldl (fun s p => s.portDown p 6 1) l
  s.when (ref < 3 && s.pins.vaux5 && s.bit R.CLK_REF_STATUS ref) u

/-! ### Configuration (R411) -/

/-- The next number of a request, and the state in which it is taken. -/
def State.hostReply (s : State) (outcome : Nat) (data : List (BitVec 8)) : State :=
  s.modHst fun h => { h with nextId := h.nextId + 1, done := h.done ++ [{ id := h.nextId, outcome := outcome, data := data }] }

/-- R411: a function is present: PF0, PF1, and a VF that SR-IOV enables. -/
def State.fnPresent (s : State) (f : Nat) : Bool := f == 64 || f ≤ s.hst.numVfs

/-- R411: the device ID and the class of a function lie at offsets 2 and 10 of its configuration space; the other words are the PCIe
specification's. -/
def configWord (f reg : Nat) : BitVec 32 :=
  let w := Config.pcieConfig f reg
  if reg / 4 == 0 then putBits w 31 16 0x1648
  else if reg / 4 == 2 then putBits w 31 16 (if f == 64 then 0x0880 else 0x1200)
  else w

/-- R411: the BARs that configuration programs: BAR0 and BAR2 of PF0, PF1 and, as 65, of the VFs together. -/
def barKey (f bar : Nat) : Option Nat := if (f == 0 || f == 64 || f == 65) && (bar == 0 || bar == 2) then some (f * 8 + bar) else none

/-- A configuration request that is answered in full: 0 reads the word at `reg`, 1 enables `value` VFs, 2 programs BAR `reg` with the
address `value`. -/
def State.configDone (s : State) (f op reg value : Nat) : State :=
  match op with
  | 0 => if s.fnPresent f then s.hostReply 0 (leBytes 4 (configWord f reg).toNat) else s.hostReply 1 []
  | 1 => (if f == 0 && value < 64 then s.modHst fun h => { h with numVfs := value } else s).hostReply 0 []
  | 2 => (match barKey f reg with
    | some k => s.modHst fun h => { h with bars := Map.set (fun _ => 0) h.bars k value }
    | none => s).hostReply 0 []
  | _ => s.hostReply 0 []

/-- PCIE_CONFIG_REQUEST (R411, R455): answered with Request Retry Status until 100 ms after the release of PERST_N; `sinceRelease` is the time
since then in ns. -/
def execPcieConfigRequest (f op reg value sinceRelease : Nat) (s : State) : Result :=
  s.when s.hostUp (if sinceRelease < 100000000 then s.hostReply 2 [] else s.configDone f op reg value)

/-! ### Function pages (R414, R425) -/

/-- The agent that a function is. -/
def fnAgent (f : Nat) : Agent := if f == 64 then .host else if f == 0 then .pf1 else .vf f

/-- R424: the device CSR address of the blocks. -/
def devCsrBase : Nat := 0x030000000000

/-- A word of the page of function f; a reserved offset reads 0. -/
def State.pageRead (s : State) (f o : Nat) : BitVec 32 × State :=
  if o < 0x1000 then s.devRead (fnAgent f) (R.FN_APER_BASE f + o) else (0, s)

/-- R414: the operation of R204 that a kind of FN_MSG_CMD sends, and the bytes of its payload. -/
def fnMsgOp (kind : Nat) : Nat := if kind == 0 then 3 else if kind == 1 then 4 else 0
def State.fnMsgData (s : State) (f kind : Nat) : List (BitVec 8) :=
  let words (n : Nat) : List (BitVec 8) := (List.range n).flatMap fun i => leBytes 4 (s.reg (R.FN_MSG_DATA f i)).toNat
  if kind == 0 then [] else if kind == 1 then words 2 else words 8

/-- R414: a write of FN_MSG_CMD. A reserved kind counts as ignored (R8). -/
def State.fnMsg (s : State) (f kind : Nat) : State :=
  let st := R.FN_MSG_STATUS f
  if kind == 3 || s.bit st 31 then s.setBit st 30 true
  else
    let dest := s.acted64 (R.FN_MSG_DEST_LO f)
    let h := msgHeader (fnMsgOp kind) dest (s.agentSource (fnAgent f)) (s.fnMsgData f kind).length
    if h.dev != s.deviceId || s.vfOut (fnAgent f) then s.setFld st 1 0 3
    else (s.setBit st 31 true).post 5000 (fnAgent f) h (s.fnMsgData f kind) (.fn f)

/-- R425: a reset of a channel, accepted only while enable is 0. A transfer still in progress is dropped. -/
def State.chanReset (s : State) (f c : Nat) : State :=
  if s.bit (R.FN_CH_CFG f c) 31 then s
  else (((s.setReg (R.FN_CH_HEAD f c) 0).setReg (R.FN_CH_TAIL f c) 0).setReg (R.FN_CH_STATUS f c) 0).setChan f c []

/-- A word written to the page of function f. -/
def State.pageWrite (s : State) (f o : Nat) (w : BitVec 32) : State :=
  let c := (o - 0x100) / 0x20
  let a := R.FN_APER_BASE f + o
  if 0x1000 ≤ o then s
  else if o == 0x40 then s.fnMsg f (getBits w 1 0)
  else if 0x100 ≤ o && o < 0x180 && o % 0x20 == 0x08 then (if w.getLsbD 30 then s.chanReset f c else s).regWrite a w
  else if 0x100 ≤ o && o < 0x180 && o % 0x20 == 0 then (if getBits w 11 0 == 0 then s.regWrite a w else s)
  else s.regWrite a w

/-- A send written to FN_MSG_CMD by the function that owns the page. -/
def State.fnSend (s : State) (f kind : Nat) : Result := s.when (s.hostUp && f < 64 && s.fnPresent f) (s.fnMsg f kind)

/-- FN_MSG_TOKEN, FN_MSG_DOORBELL, FN_MSG_DESC (R414). -/
def execFnMsgToken (f : Nat) (s : State) : Result := s.fnSend f 0
def execFnMsgDoorbell (f : Nat) (s : State) : Result := s.fnSend f 1
def execFnMsgDesc (f : Nat) (s : State) : Result := s.fnSend f 2

/-- CHANNEL_RESET (R425): the reset bit is written to FN_CHc_CFG. -/
def execChannelReset (f c : Nat) (s : State) : Result :=
  s.when (s.hostUp && f < 64 && c < 4 && s.fnPresent f) (s.chanReset f c)

/-! ### Memory requests (R411-R413) -/

/-- R411: the BARs: function, BAR, base and size. -/
def State.barRanges (s : State) : List (Nat × Nat × Nat × Nat) :=
  let base (k : Nat) : Nat := Map.get (fun _ => 0) s.hst.bars k
  [(64, 0, base 512, 2 ^ 20), (64, 2, base 514, 2 ^ 24), (0, 0, base 0, 2 ^ 36), (0, 2, base 2, 2 ^ 16)] ++
  ((List.range s.hst.numVfs).flatMap fun i => [(i + 1, 0, s.vfBar (i + 1) 0, 2 ^ 36), (i + 1, 2, s.vfBar (i + 1) 2, 2 ^ 16)]).filter
    fun e => base (65 * 8 + e.2.1) != 0

/-- The function, the BAR and the offset that a host address names; a BAR that was not programmed names nothing. -/
def State.barHit (s : State) (addr : Nat) : Option (Nat × Nat × Nat) :=
  (s.barRanges.find? fun e => e.2.2.1 != 0 && e.2.2.1 ≤ addr && addr < e.2.2.1 + e.2.2.2).map fun e => (e.1, e.2.1, addr - e.2.2.1)

/-- R412: a request completed with a status: a read that is not OK returns all ones, and a write has no answer. -/
def State.hostEnd (s : State) (write : Bool) (len status : Nat) (data : List (BitVec 8)) : State :=
  if write then s.modHst fun h => { h with nextId := h.nextId + 1 } else s.hostReply 0 (if status == 0 then data else ones len)

/-- R412: a register read of `len` bytes brings its word, and zeros where the access is no aligned word (R5). -/
def wordBytes (len : Nat) (v : BitVec 32) : List (BitVec 8) := (leBytes 4 v.toNat ++ List.replicate len 0).take len

/-- R412: a CSR access with the rights of function f; `latch` keeps what was not OK. -/
def State.hostCsr (s : State) (f : Nat) (write : Bool) (addr len : Nat) (data : List (BitVec 8)) (latch : State → Nat → State) : State :=
  if write then
    let r := s.csrWrite (fnAgent f) addr len (BitVec.ofNat 32 (leNat data))
    (if r.1 == 0 then r.2 else latch r.2 r.1).hostEnd true len r.1 []
  else
    let r := s.csrRead (fnAgent f) addr len
    (if r.1 == 0 then r.2.2 else latch r.2.2 r.1).hostEnd false len r.1 (wordBytes len r.2.1)

/-- R411, R412: a request to the aperture of PF1 or a VF at a device physical address. -/
def State.hostMemory (s : State) (f : Nat) (write : Bool) (addr len : Nat) (data : List (BitVec 8)) : State :=
  let latch (s : State) (st : Nat) : State := s.fnErr f addr st
  if s.vfOut (fnAgent f) then (latch s 3).hostEnd write len 3 [] else
  match s.place addr with
  | .tileCsr _ _ => s.hostCsr f write addr len data latch
  | .devCsr _ => s.hostCsr f write addr len data latch
  | _ =>
    let id := s.hst.nextId
    let h : Hdr := { Hdr.blank with dev := s.deviceId, kind := if write then 9 else 8, len := len, src := s.agentSource (fnAgent f), addr := addr }
    let q : HostReq := { id := id, fn := f, addr := addr, len := len, read := !write }
    (s.modHst fun h => { h with nextId := id + 1, reqs := h.reqs ++ [q] }).post 5000 (fnAgent f) h (if write then data else []) (.host id)

/-- R425: a request to the page of function f. -/
def State.hostPage (s : State) (f : Nat) (write : Bool) (o len : Nat) (data : List (BitVec 8)) : State :=
  if !wordAccess o len then (s.csrAccess (fnAgent f) o len write).hostEnd write len 0 (List.replicate len 0)
  else if write then (s.pageWrite f o (BitVec.ofNat 32 (leNat data))).hostEnd true len 0 []
  else
    let r := s.pageRead f o
    r.2.hostEnd false len 0 (leBytes 4 r.1.toNat)

/-- R418: in RUN a request to a VF must arrive on its selective stream. -/
def State.unprotected (s : State) (f : Nat) (stream : Option Nat) : Bool :=
  f != 0 && f != 64 && s.tdi f == 2 && (stream != s.streamOf f || stream.isNone)

/-- R411: PF1 and the VFs serve memory requests from S3. -/
def State.servesMemory (s : State) (f : Nat) : Bool := f == 64 || 3 ≤ s.stage || s.cur.restarting

/-- A host memory request of `len` bytes at a host address, on an IDE stream or on none. -/
def State.hostRequest (s : State) (write : Bool) (addr len : Nat) (data : List (BitVec 8)) (stream : Option Nat) : State :=
  match s.barHit addr with
  | none => s.hostReply 1 []
  | some (f, bar, o) =>
    if !s.servesMemory f then s.hostReply 1 []
    else if s.unprotected f stream then (s.setTdi f 3).hostReply 1 []
    else if f == 64 then
      let off := if bar == 0 then 0x400000 + o else o
      s.hostCsr 64 write (devCsrBase + off) len data fun s st => s.hstErr off st
    else if bar == 2 then s.hostPage f write o len data
    else s.hostMemory f write (2 ^ 36 * s.fld (R.FN_APER_BASE f) 5 0 + o) len data

/-- PCIE_MEMORY_REQUEST (R412): a read of up to 4,096 bytes, or a write of up to 512 (R410), on a stream that has not stopped (R417). -/
def execPcieMemoryRequest (write : Bool) (addr len : Nat) (data : List (BitVec 8)) (stream : Option Nat) (s : State) : Result :=
  let flows := match stream with
    | some n => s.hst.streams.any (fun e => e.1 == n) && !s.hst.stopped.contains n
    | none => true
  s.when (s.hostUp && 0 < len && (if write then len ≤ 512 && data.length == len else len ≤ 4096) && flows)
    (s.hostRequest write addr len data stream)

/-! ### Copy channels (R415) -/

/-- R415: the fields of a descriptor. -/
def copyHost (d : Nat) : Nat := bitsOf d 255 192
def copyDev (d : Nat) : Nat := bitsOf d 191 128
def copyLen (d : Nat) : Nat := bitsOf d 127 96
def copyFence (d : Nat) : Bool := d.testBit 66
def copyIrq (d : Nat) : Bool := d.testBit 65
def copyOut (d : Nat) : Bool := d.testBit 64

/-- R415: a field outside its range. -/
def copyBad (d : Nat) : Bool :=
  2 ^ 48 ≤ copyDev d || copyLen d == 0 || 2 ^ 30 < copyLen d || bitsOf d 95 67 != 0 || bitsOf d 63 8 != 0

/-- The entries of a channel's ring, and the index of the next descriptor to start. -/
def State.ringSize (s : State) (f c : Nat) : Nat := 2 ^ s.fld (R.FN_CH_CFG f c) 3 0
def State.nextDesc (s : State) (f c : Nat) : Nat := (s.fld (R.FN_CH_HEAD f c) 11 0 + (s.chan f c).length) % s.ringSize f c

/-- R415, R419: the channel runs and TAIL shows a descriptor that it has not started. -/
def State.channelReady (s : State) (f c : Nat) : Bool :=
  s.hostUp && s.fnPresent f && s.bit (R.FN_CH_CFG f c) 31 && !s.bit (R.FN_CH_STATUS f c) 31 &&
  (s.chan f c).length < s.ringSize f c && s.nextDesc f c != s.fld (R.FN_CH_TAIL f c) 11 0 % s.ringSize f c

/-- R412, R415: one part of a transfer is handed to the host attachment. -/
def State.copyPart (s : State) (f c : Nat) (j : CopyJob) (data : List (BitVec 8)) (a n : Nat) : State :=
  let part := a - j.dev
  let h : Hdr :=
    { Hdr.blank with dev := s.deviceId, kind := if j.toHost then 8 else 9, len := n, src := s.agentSource (fnAgent f), addr := a }
  s.post 5000 (fnAgent f) h (if j.toHost then [] else (data.drop part).take n) (.copy f c j.id part)

/-- R415: the transfer of a descriptor begins: parts within 4 KiB units, without those whose host data came back with an error. -/
def State.copyStart (s : State) (f c d : Nat) (descOk : Bool) (data : List (BitVec 8)) (hostErr : List Nat) : State :=
  let id := s.hst.nextId
  let dead := if !descOk then 0x83 else if copyBad d then 0x84 else 0
  let parts := if dead != 0 || s.vfOut (fnAgent f) then [] else
    ((splitUnits (copyLen d / 4096 + 2) (copyDev d) (copyLen d)).zip (List.range (copyLen d / 4096 + 2))).filter fun e =>
      copyOut d || !hostErr.contains e.2
  let lost := !copyOut d && dead == 0 && !hostErr.isEmpty
  let j : CopyJob :=
    { id := id, index := s.nextDesc f c, dev := copyDev d, host := copyHost d, length := if dead != 0 then 0 else copyLen d,
      irq := descOk && copyIrq d, toHost := copyOut d, left := parts.length,
      status := if dead != 0 then dead else if s.vfOut (fnAgent f) then 0x82 else if lost then 0x83 else 0x80, data := [] }
  let s := if dead == 0 && s.vfOut (fnAgent f) then s.fnErr f (copyDev d) 3 else s
  let s := (s.modHst fun h => { h with nextId := id + 1 }).setChan f c (s.chan f c ++ [j])
  parts.foldl (fun s e => s.copyPart f c j data e.1.1 e.1.2) (s.setBit (R.FN_CH_STATUS f c) 30 true)

/-- COPY_DESCRIPTOR_START (R415): the channel reads the descriptor after the last one that it started. `desc` is what host memory holds there
(`descOk` false: the read came back with an error), `data` the bytes at its host address, of which the 4 KiB parts `hostErr` came back with an
error. -/
def execCopyDescriptorStart (f c : Nat) (desc : BitVec 256) (descOk : Bool) (data : List (BitVec 8)) (hostErr : List Nat) (s : State) : Result :=
  let d := desc.toNat
  s.when (f < 64 && c < 4 && s.channelReady f c && !(descOk && copyFence d && !(s.chan f c).isEmpty)) (s.copyStart f c d descOk data hostErr)

/-- R415: what a transfer to the host writes there: the bytes read, and all ones for a part that was not OK (R412). -/
def CopyJob.bytes (j : CopyJob) : List (BitVec 8) :=
  (List.range j.length).map fun i => match j.data.find? fun e => e.1 == i with
    | some e => e.2
    | none => 0xFF

/-- A write to host memory through a function's requester. -/
def State.hostWrite (s : State) (f addr : Nat) (l : List (BitVec 8)) : State := s.modHst fun h => { h with writes := h.writes ++ [(f, addr, l)] }

/-- R415: the oldest descriptor completes: its data and then its status are in host memory, HEAD advances, and its vector is raised. -/
def State.copyEnd (s : State) (f c : Nat) (j : CopyJob) (rest : List CopyJob) : State :=
  let s := if j.toHost && j.length != 0 then s.hostWrite f j.host j.bytes else s
  let s := s.hostWrite f (s.acted64 (R.FN_CH_RING_LO f c) + 32 * j.index) [BitVec.ofNat 8 j.status]
  let s := s.setFld (R.FN_CH_HEAD f c) 11 0 ((j.index + 1) % s.ringSize f c)
  let s := ((s.setFld (R.FN_CH_STATUS f c) 7 0 j.status).setBit (R.FN_CH_STATUS f c) 30 (!rest.isEmpty)).setChan f c rest
  if j.irq then s.raiseVector (f + 1) c else s

/-- COPY_DESCRIPTOR_COMPLETE (R415): descriptors of a channel complete in ring order. -/
def execCopyDescriptorComplete (f c : Nat) (s : State) : Result :=
  match s.chan f c with
  | [] => .next s
  | j :: rest => s.when (f < 64 && c < 4 && s.hostUp && j.left == 0) (s.copyEnd f c j rest)

end Sys2Proof.Machine
end

