-- ==== Sys2Proof/Machine/Special.lean ====
section
/-! DEFINITION. The special functions of V-tiles (R224, R225). VEXP2 and VEXP are exact functions of their input. Of the others the spec gives
the special inputs, the exact cases and a bound on the error: a result is Config.specialFunction of the input where that keeps the
bound, and otherwise the model's own approximation, which keeps it (log entry 8). -/

namespace Sys2Proof.Machine.Special

open Num

/-- The value of a word whose value is finite. -/
def finite (w : BitVec 32) : Option Rat :=
  match of32 w with
  | .fin n x => some (Val.fin n x).toRat
  | _ => none

/-- The function's own result where it keeps the bound, and the approximation where not. -/
def bounded (fn : Nat) (x approx : BitVec 32) (ok : Rat → Bool) : BitVec 32 :=
  let r := flushSub (Config.specialFunction fn x)
  match finite r with
  | some v => if ok v then r else approx
  | none => approx

/-- One unit in the last place of a normal value. -/
def ulp (y : Rat) : Rat := pow2 (log2 (if y < 0 then -y else y) - 23)

def absRat (y : Rat) : Rat := if y < 0 then -y else y

/-- A power of two. -/
def isPow2 (x : Rat) : Bool := decide (pow2 (log2 x) = x)

/-- log2 of a mantissa in [1, 2) scaled by 2^128, bit by bit: n bits of the fraction. -/
def logBits : Nat → Nat → Nat → Nat
  | 0, _, acc => acc
  | n + 1, m, acc =>
    let q := m * m / 2 ^ 128
    if 2 ^ 129 ≤ q then logBits n (q / 2) (2 * acc + 1) else logBits n q (2 * acc)

/-- log2(x) to 2^-80 for x > 0. -/
def logApprox (x : Rat) : Rat :=
  let e := log2 x
  let m := (x / pow2 e * 2 ^ 128).floor.toNat
  (e : Rat) + mkRat (logBits 84 m 0) (2 ^ 84)

/-- VLOG2. -/
def log2f (w : BitVec 32) : BitVec 32 :=
  match of32 w with
  | .nan => nan32
  | .inf n => if n then nan32 else 0x7F800000
  | .fin n x =>
    if x = 0 then 0xFF800000
    else if n then nan32
    else if isPow2 x then round32 (ofRat false (log2 x : Rat))
    else
      let y := logApprox x
      bounded 1 w (round32 (ofRat false y)) fun v =>
        decide (absRat (v - y) + pow2 (-80) ≤ pow2 (-21) * max 1 (absRat v))

/-- VRCP. -/
def rcp (w : BitVec 32) : BitVec 32 :=
  match of32 w with
  | .nan => nan32
  | .inf n => if n then 0x80000000 else 0
  | .fin n x =>
    if x = 0 then (if n then 0xFF800000 else 0x7F800000) else
    let y := (Val.fin n (1 / x)).toRat
    let exact := round32 (.fin n (1 / x))
    if isPow2 x || absRat y < pow2 (-126) then exact else bounded 2 w exact fun v => decide (absRat (v - y) ≤ ulp y)

/-- 1 / √x to 40 bits and more, for x > 0. -/
def rsqrtApprox (x : Rat) : Rat :=
  let k := (log2 x).natAbs + 64
  mkRat (Nat.sqrt (2 ^ (2 * k) * x.den / x.num.natAbs)) (2 ^ k)

/-- VRSQRT. -/
def rsqrt (w : BitVec 32) : BitVec 32 :=
  match of32 w with
  | .nan => nan32
  | .inf n => if n then nan32 else 0
  | .fin n x =>
    if x = 0 then (if n then 0xFF800000 else 0x7F800000)
    else if n then nan32
    else
      let y := rsqrtApprox x
      let r := round32 (ofRat false y)
      if isPow2 x && log2 x % 2 == 0 then round32 (ofRat false (pow2 (-(log2 x / 2))))
      else
        let u := ulp y
        bounded 3 w r fun v => decide (0 < v) && (decide (v ≤ u) || decide ((v - u) * (v - u) * x ≤ 1)) &&
          decide (1 ≤ (v + u) * (v + u) * x)

/-- π to 2^-120. -/
def pi : Rat := mkRat 0x3243F6A8885A308D313198A2E037073 (2 ^ 120)

/-- The Taylor terms of the sine from a term of degree d, with rounding of each term to 2^-110. -/
def taylor (x2 : Rat) : Nat → Nat → Rat → Rat
  | 0, _, _ => 0
  | n + 1, d, term => term + taylor x2 n (d + 2) (cut (-(term * x2) / (((d + 1) * (d + 2) : Nat) : Rat)))
where cut (x : Rat) : Rat := mkRat (x * 2 ^ 110).floor (2 ^ 110)

/-- sin(x) to 2^-80, for |x| at most 2^17. -/
def sinApprox (x : Rat) : Rat :=
  let k := (x / pi + 1 / 2).floor
  let r := x - (k : Rat) * pi
  let v := taylor (taylor.cut (r * r)) 16 1 (taylor.cut r)
  if k % 2 == 0 then v else -v

/-- VSIN and VCOS of an ordinary input: within 2^-21 up to 2^16, and within [-1, 1] beyond. -/
def wave (fn : Nat) (w : BitVec 32) (x : Rat) : BitVec 32 :=
  if absRat x ≤ 65536 then
    let y := sinApprox (if fn == 5 then x + pi / 2 else x)
    bounded fn w (round32 (ofRat false y)) fun v => decide (absRat (v - y) + pow2 (-80) ≤ pow2 (-21))
  else bounded fn w 0 fun v => decide (absRat v ≤ 1)

/-- VSIN (4) and VCOS (5). -/
def trig (fn : Nat) (w : BitVec 32) : BitVec 32 :=
  match of32 w with
  | .nan => nan32
  | .inf _ => nan32
  | .fin n x => if x = 0 then (if fn == 5 then 0x3F800000 else w) else wave fn w (Val.fin n x).toRat

/-- R211, R224: function fn of an FP32 lane; a subnormal input is a zero of its sign. -/
def apply (fn : Nat) (w : BitVec 32) : BitVec 32 :=
  let w := flushSub w
  match fn with
  | 0 => exp2t w
  | 1 => log2f w
  | 2 => rcp w
  | 3 => rsqrt w
  | 4 => trig 4 w
  | 5 => trig 5 w
  | _ => exp2t (fmul w 0x3FB8AA3B)

end Sys2Proof.Machine.Special
end

