-- ==== Sys2Proof/Machine/Vector.lean ====
section
/-! DEFINITION. The vector instructions (R208-R214, R218-R224): lane arithmetic, lane movement, conversion, special functions, vector
memory accesses, gather and scatter, and sorting. -/

namespace Sys2Proof.Machine

/-! ### Lanes -/

/-- R208: the lanes of a v register. -/
def lanesOf (t : Nat) : Nat := if kindOf t = .v then 64 else 32

/-- A lane, and a whole register. -/
def Core.lane (k : Core) (r i : Nat) : BitVec 32 := Map.get (fun _ => 0) k.v (r * 64 + i)
def Core.vreg (k : Core) (n r : Nat) : List (BitVec 32) := (List.range n).map fun i => k.lane r i
def Core.setVreg (k : Core) (r : Nat) (l : List (BitVec 32)) : Core := { k with v := Map.setAll (fun _ => 0) k.v (r * 64) l }

/-- The register number of v register r among the registers an instruction touches. -/
def vNum (r : Nat) : Nat := 32 + r

/-- A v register of a site's core, and its replacement. -/
def State.vreg (s : State) (t c r : Nat) : List (BitVec 32) := (s.core t c).vreg (lanesOf t) r
def State.setVreg (s : State) (t c r : Nat) (l : List (BitVec 32)) : State := s.modCore t c fun k => k.setVreg r l

/-- The three lists lane by lane. -/
def zip3 (a b d : List (BitVec 32)) (f : BitVec 32 → BitVec 32 → BitVec 32 → BitVec 32) : List (BitVec 32) :=
  ((a.zip b).zip d).map fun e => f e.1.1 e.1.2 e.2

/-- An instruction of a group that writes vd lane by lane from va, vb and vd. -/
def lanewise (group : Nat) (f : Nat → BitVec 32 → BitVec 32 → BitVec 32 → BitVec 32) : CoreOp :=
  { accept := fun n => insnGroup n == group, touch := fun n => [vNum (saOf n), vNum (sbOf n), vNum (dOf n)], ready := always,
    run := fun s t c n =>
      .next (s.setVreg t c (dOf n) (zip3 (s.vreg t c (saOf n)) (s.vreg t c (sbOf n)) (s.vreg t c (dOf n)) (f (fnOf n)))) }

/-- All ones where a comparison holds. -/
def flag32 (b : Bool) : BitVec 32 := if b then 0xFFFFFFFF else 0

/-- R208: group 0x20 on a lane: a, b and the old d. -/
def lane32 (fn : Nat) (a b d : BitVec 32) : BitVec 32 :=
  let x := Num.of32 a
  let y := Num.of32 b
  match fn with
  | 0 => Num.fadd a b
  | 1 => Num.fsub a b
  | 2 => Num.fmul a b
  | 3 => Num.ffma a b d
  | 4 => Num.fmin a b
  | 5 => Num.fmax a b
  | 6 => Num.round32 (match x with | .fin _ v => .fin false v | .inf _ => .inf false | .nan => .nan)
  | 7 => Num.round32 (Num.vneg x)
  | 8 => flag32 (Num.vltNum x y)
  | 9 => flag32 (Num.vltNum x y || Num.veq x y)
  | _ => flag32 (Num.veq x y)

def vectorFp32Op : CoreOp := lanewise 0x20 lane32

/-- VECTOR_FP32 (R208). -/
def execVectorFp32 (t c : Nat) (f : Fetched) (s : State) : Result := s.issue t c f vectorFp32Op

/-- R208: group 0x21 on an element. -/
def elem16 (fn : Nat) (a b d : BitVec 16) : BitVec 16 :=
  let x := Num.of16 a
  let y := Num.of16 b
  let flag (b : Bool) : BitVec 16 := if b then 0xFFFF else 0
  match fn with
  | 0 => Num.roundBf16 (Num.vadd x y)
  | 1 => Num.roundBf16 (Num.vadd x (Num.vneg y))
  | 2 => Num.roundBf16 (Num.vmul x y)
  | 3 => Num.roundBf16 (Num.vadd (Num.vmul x y) (Num.of16 d))
  | 4 => Num.roundBf16 (Num.vmin x y)
  | 5 => Num.roundBf16 (Num.vmax x y)
  | 6 => Num.roundBf16 (match x with | .fin _ v => .fin false v | .inf _ => .inf false | .nan => .nan)
  | 7 => Num.roundBf16 (Num.vneg x)
  | 8 => flag (Num.vltNum x y)
  | 9 => flag (Num.vltNum x y || Num.veq x y)
  | _ => flag (Num.veq x y)

/-- R208: a lane holds element 2l in [15:0] and element 2l + 1 in [31:16]. -/
def lanePair (fn : Nat) (a b d : BitVec 32) : BitVec 32 :=
  elem16 fn (a.extractLsb' 16 16) (b.extractLsb' 16 16) (d.extractLsb' 16 16) ++
    elem16 fn (a.extractLsb' 0 16) (b.extractLsb' 0 16) (d.extractLsb' 0 16)

def vectorBf16Op : CoreOp := lanewise 0x21 lanePair

/-- VECTOR_BF16 (R208). -/
def execVectorBf16 (t c : Nat) (f : Fetched) (s : State) : Result := s.issue t c f vectorBf16Op

/-- R208: group 0x22 on a lane. -/
def laneInt (fn : Nat) (a b d : BitVec 32) : BitVec 32 :=
  match fn with
  | 0 => a + b
  | 1 => a - b
  | 2 => a * b
  | 3 => a &&& b
  | 4 => a ||| b
  | 5 => a ^^^ b
  | 6 => a <<< (b.toNat % 32)
  | 7 => a >>> (b.toNat % 32)
  | 8 => a.sshiftRight (b.toNat % 32)
  | 9 => if a.toInt ≤ b.toInt then a else b
  | 10 => if a.toInt ≤ b.toInt then b else a
  | 11 => if a.toNat ≤ b.toNat then a else b
  | 12 => if a.toNat ≤ b.toNat then b else a
  | 13 => flag32 (a == b)
  | 14 => flag32 (a.toInt < b.toInt)
  | 15 => flag32 (a.toNat < b.toNat)
  | _ => (d &&& a) ||| (~~~d &&& b)

def vectorIntegerOp : CoreOp := lanewise 0x22 laneInt

/-- VECTOR_INTEGER (R208). -/
def execVectorInteger (t c : Nat) (f : Fetched) (s : State) : Result := s.issue t c f vectorIntegerOp

/-! ### Lane movement (R209) -/

/-- R209: the sums of adjacent pairs. -/
def pairSums : List (BitVec 32) → List (BitVec 32)
  | a :: b :: l => Num.fadd a b :: pairSums l
  | l => l

/-- R209: VRED.ADD over 2^n lanes. -/
def treeSums : Nat → List (BitVec 32) → List (BitVec 32)
  | 0, l => l
  | n + 1, l => treeSums n (pairSums l)

/-- R209: the registers that group 0x24 touches, by its function. -/
def laneTouch (n : Nat) : List Nat :=
  match fnOf n with
  | 0 => [saOf n, vNum (dOf n)]
  | 1 => [dOf n, vNum (saOf n), sbOf n]
  | 2 => [vNum (dOf n), saOf n, sbOf n]
  | 3 => [vNum (dOf n), vNum (saOf n), sbOf n]
  | 4 => [vNum (dOf n)]
  | _ => [dOf n, vNum (saOf n)]

/-- R209. -/
def State.laneMove (s : State) (t c n : Nat) : State :=
  let l := lanesOf t
  let k := s.core t c
  let d := dOf n
  let a := k.vreg l (saOf n)
  let at_ := (k.getS (sbOf n)).toNat % l
  let low (v : BitVec 64) : BitVec 32 := v.extractLsb' 0 32
  match fnOf n with
  | 0 => s.setVreg t c d (List.replicate l (low (k.getS (saOf n))))
  | 1 => s.setS t c d ((a.getD at_ 0).zeroExtend 64)
  | 2 => s.setVreg t c d ((k.vreg l d).set at_ (low (k.getS (saOf n))))
  | 3 => s.setVreg t c d (a.drop at_ ++ a.take at_)
  | 4 => s.setVreg t c d ((List.range l).map fun i => BitVec.ofNat 32 i)
  | 5 => s.setS t c d (((treeSums 6 a).headD 0).zeroExtend 64)
  | 6 => s.setS t c d ((match a with | [] => 0 | v :: r => r.foldl Num.fmax v : BitVec 32).zeroExtend 64)
  | _ => s.setS t c d (a.foldl (fun m v => m + v.signExtend 64) 0)

def laneMoveOp : CoreOp :=
  { accept := fun n => insnGroup n == 0x24, touch := laneTouch, ready := always, run := fun s t c n => .next (s.laneMove t c n) }

/-- LANE_MOVE (R209). -/
def execLaneMove (t c : Nat) (f : Fetched) (s : State) : Result := s.issue t c f laneMoveOp

/-! ### Conversion (R210) -/

def cvtFmt (n : Nat) : Nat := fieldOf n 29 25
def cvtPart (n : Nat) : Nat := fieldOf n 24 21
def cvtQen (n : Nat) : Bool := n.testBit 63
def cvtQ (n : Nat) : Nat := fieldOf n 62 60

/-- Elements of width w packed into words, the first in the lowest bits. -/
def packLanes (w : Nat) (es : List Nat) : List (BitVec 32) :=
  let n := es.foldr (fun e acc => e % 2 ^ w + 2 ^ w * acc) 0
  (List.range ((es.length * w + 31) / 32)).map fun i => BitVec.ofNat 32 (n / 2 ^ (32 * i))

/-- The elements of width w in words. -/
def unpackLanes (w count : Nat) (l : List (BitVec 32)) : List Nat :=
  let n := l.foldr (fun v acc => v.toNat + 2 ^ 32 * acc) 0
  (List.range count).map fun i => n / 2 ^ (w * i) % 2 ^ w

/-- R210: VQ: the lanes of va converted with d, packed into part p of vd; with qen = 1 they are counted into slot q. -/
def State.vq (s : State) (t c n : Nat) : State :=
  let l := lanesOf t
  let w := Num.width (cvtFmt n)
  let d := if cvtQen n then s.treg t (R.QUANT_SCALE (cvtQ n)) else 0x3F800000
  let a := s.vreg t c (saOf n)
  let qs := a.map fun v => Num.quantise (cvtFmt n) v d
  let words := packLanes w (qs.map (·.1))
  let old := s.vreg t c (dOf n)
  let at_ := cvtPart n * l * w / 32
  let s := s.setVreg t c (dOf n) (old.take at_ ++ words ++ old.drop (at_ + words.length))
  if cvtQen n then s.qcountVector t (cvtQ n) ((a.zip qs).foldl (fun (k : QCounts) e => k.one e.1 e.2.2) .zero) else s

/-- R210: VX. -/
def State.vx (s : State) (t c n : Nat) : State :=
  let l := lanesOf t
  let w := Num.width (cvtFmt n)
  let a := s.vreg t c (saOf n)
  let es := unpackLanes w l (a.drop (cvtPart n * l * w / 32))
  let vs := es.map fun e => Num.round32 (Num.decode (cvtFmt n) e)
  let vs := if cvtQen n then vs.map fun v => Num.fmul v (s.treg t (R.QUANT_SCALE (cvtQ n))) else vs
  s.setVreg t c (dOf n) vs

/-- An operation of group 0x26. -/
def cvtOp (op : Nat) (run : State → Nat → Nat → Nat → State) : CoreOp :=
  { accept := fun n => insnGroup n == 0x26 && fieldOf n 31 30 == op, touch := fun n => [vNum (saOf n), vNum (dOf n)], ready := always,
    run := fun s t c n => .next (run s t c n) }

def vqOp : CoreOp := cvtOp 0 fun s t c n => s.vq t c n
def vxOp : CoreOp := cvtOp 1 fun s t c n => s.vx t c n
def vcvtI2fOp : CoreOp := cvtOp 2 fun s t c n => s.setVreg t c (dOf n) ((s.vreg t c (saOf n)).map Num.ofI32)
def vcvtF2iOp : CoreOp := cvtOp 3 fun s t c n => s.setVreg t c (dOf n) ((s.vreg t c (saOf n)).map Num.toI32)

/-- VQ, VX, VCVT_I2F, VCVT_F2I (R210). -/
def execVq (t c : Nat) (f : Fetched) (s : State) : Result := s.issue t c f vqOp
def execVx (t c : Nat) (f : Fetched) (s : State) : Result := s.issue t c f vxOp
def execVcvtI2f (t c : Nat) (f : Fetched) (s : State) : Result := s.issue t c f vcvtI2fOp
def execVcvtF2i (t c : Nat) (f : Fetched) (s : State) : Result := s.issue t c f vcvtF2iOp

/-! ### Special functions (R211, R224) -/

def specialOp : CoreOp :=
  { accept := fun n => insnGroup n == 0x27, touch := fun n => [vNum (saOf n), vNum (dOf n)], ready := always,
    run := fun s t c n => .next (s.setVreg t c (dOf n) ((s.vreg t c (saOf n)).map (Special.apply (fnOf n)))) }

/-- SPECIAL_FUNCTION (R224). -/
def execSpecialFunction (t c : Nat) (f : Fetched) (s : State) : Result := s.issue t c f specialOp

/-! ### Vector memory (R212) -/

/-- The most accesses that a sequencer holds outstanding (R169). -/
def Core.accessFree (k : Core) : Bool := (k.accesses.filter fun a => a.kind != 5).length < 16

/-- No AMO and no FENCE of the core is outstanding (R171, R172). -/
def Core.amoFree (k : Core) : Bool := k.accesses.all fun a => a.kind != 2 && a.kind != 5

/-- A read of a VSCATTER.ADD, whose write follows. -/
def VitUser.adds : VitUser → Bool
  | .addRead .. => true
  | _ => false

/-- R223: every scattered access of an earlier instruction was accepted, its writes included. -/
def Site.scatterAccepted (x : Site) : Bool :=
  let scattered (u : VitUser) : Bool := match u with
    | .gather .. => true
    | .scatter .. => true
    | .addRead .. => true
    | .addWrite .. => true
    | _ => false
  (x.reqs.all fun r => !scattered r.user) && x.fly.all fun f => !f.req.user.adds

/-- R223: every earlier vitrine access of the sequencer was accepted. -/
def Site.ownAccepted (x : Site) : Bool := (x.fly.all fun f => !f.req.user.adds) && x.reqs.all fun r => match r.user with
  | .core .. => false
  | .vector .. => false
  | .gather .. => false
  | .scatter .. => false
  | .addRead .. => false
  | .addWrite .. => false
  | _ => true

/-- A new access of a core; its number is the core's next. -/
def Core.addAccess (k : Core) (a : MemAcc) : Core := { k with accesses := k.accesses ++ [a], nextAccess := k.nextAccess + 1 }

/-- An access record of kind `kind` for register `dest`, at an address and over a path. -/
def Core.newAccess (k : Core) (kind dest size addr path : Nat) : MemAcc :=
  { id := k.nextAccess, kind := kind, dest := dest, size := size, signed := false, addr := addr, path := path, pieces := 0, got := [],
    value := 0, arrived := none, pc := k.pc, op := 0, data := [], lanes := [], buffered := false }

/-- R212: the byte offset of each lane: consecutive for VLD and VST, down block columns for the column forms. -/
def vmemOffsets (l op a : Nat) : List Nat :=
  (List.range l).map fun i => if op < 2 then a + 4 * i else (a / 4096 + i / 32) * 4096 + i % 32 * 128 + a % 128

/-- R212: the address of a vector access. -/
def vmemAddr (k : Core) (n : Nat) : Nat :=
  (k.getS (saOf n) + sext 8 (fieldOf n 28 21) * (if fieldOf n 31 29 < 2 then 128 else 4096)).toNat

/-- R212: an address that breaks its alignment. -/
def vmemMisaligned (op a : Nat) : Bool := if op < 2 then a % 128 != 0 else a % 4 != 0 || 128 ≤ a % 4096

/-- R212, R220: the accesses of a vector load or store, one for each line or block column. -/
def vmemReqs (l op id : Nat) (os : List Nat) (vs : List (BitVec 32)) : List VitReq :=
  let store := op % 2 == 1
  (List.range (l / 32)).map fun p =>
    let mine := (os.drop (32 * p)).take 32
    if store then
      writeReq 3 (.vector id p) ((mine.zip ((vs.drop (32 * p)).take 32)).flatMap fun e =>
        ((List.range 4).map (· + e.1)).zip (bytesOfWord e.2))
    else { readReq 3 (.vector id p) 0 0 with cells := mine.map (· / 4) }

/-- R212. -/
def State.vmem (s : State) (t c n : Nat) : Ran :=
  let k := s.core t c
  let op := fieldOf n 31 29
  let a := vmemAddr k n
  let l := lanesOf t
  let os := vmemOffsets l op a
  if vmemMisaligned op a then .exc s 6 a
  else if os.any fun o => vitSize t < o + 4 then .exc s 7 a
  else
    let id := k.nextAccess
    let rs := vmemReqs l op id os (k.vreg l (dOf n))
    let dest := if op % 2 == 0 then vNum (dOf n) else 0
    let acc := { k.newAccess 4 dest 4 a 0 with pieces := rs.length, lanes := (List.range l).zip (os.map (· / 4)) }
    .next (rs.foldl (fun s r => s.present t r) (s.modCore t c fun k => k.addAccess acc))

/-- An operation of group 0x28. -/
def vmemOp (op : Nat) : CoreOp :=
  { accept := fun n => insnGroup n == 0x28 && fieldOf n 31 29 == op, touch := fun n => [saOf n, vNum (dOf n)],
    ready := fun s t c _ => (s.core t c).accessFree && (s.core t c).amoFree && (s.site t).scatterAccepted,
    run := fun s t c n => s.vmem t c n }

/-- VLD, VST, VLD_C, VST_C (R212). -/
def execVld (t c : Nat) (f : Fetched) (s : State) : Result := s.issue t c f (vmemOp 0)
def execVst (t c : Nat) (f : Fetched) (s : State) : Result := s.issue t c f (vmemOp 1)
def execVldC (t c : Nat) (f : Fetched) (s : State) : Result := s.issue t c f (vmemOp 2)
def execVstC (t c : Nat) (f : Fetched) (s : State) : Result := s.issue t c f (vmemOp 3)

/-! ### Gather and scatter (R213, R221-R223) -/

/-- R213: the lanes whose cell lies in the vitrine, with their cells. -/
def scatterLanes (t : Nat) (base : Nat) (offs : List (BitVec 32)) : List (Nat × Nat) :=
  (((List.range offs.length).zip offs).map fun e => (e.1, (base + 4 * e.2.toNat) % 2 ^ 64)).filter (fun e => e.2 + 4 ≤ vitSize t)
    |>.map fun e => (e.1, e.2 / 4)

/-- The accesses of a group 0x29 instruction. -/
def scatterReqs (fn id : Nat) (splits : List (List (Nat × Nat))) (vs : List (BitVec 32)) : List VitReq :=
  ((List.range splits.length).zip splits).map fun e =>
    let cells := (e.2.map (·.2)).eraseDups
    match fn with
    | 0 => { readReq 0 (.gather id e.1) 0 0 with cells := cells }
    | 1 => writeReq 2 (.scatter id e.1) (e.2.flatMap fun l => ((List.range 4).map (· + 4 * l.2)).zip (bytesOfWord (vs.getD l.1 0)))
    | _ => { readReq 0 (.addRead id e.1) 0 0 with cells := cells }

/-- R213. An instruction without a lane in the vitrine makes no access: a VGATHER then writes zeros at once. -/
def State.scatter (s : State) (t c n : Nat) : Ran :=
  let k := s.core t c
  let fn := fnOf n
  let base := (k.getS (sbOf n)).toNat
  let l := lanesOf t
  if base % 4 != 0 then .exc s 6 base else
  let lanes := scatterLanes t base (k.vreg l (saOf n))
  let vs := k.vreg l (dOf n)
  if lanes.isEmpty then .next (if fn == 0 then s.setVreg t c (dOf n) (List.replicate l 0) else s) else
  let rs := scatterReqs fn k.nextAccess (scatterSplit (fn == 0) 65 lanes) vs
  let acc := { k.newAccess 4 (if fn == 0 then vNum (dOf n) else 0) 4 base 0 with
               pieces := rs.length, lanes := lanes, data := vs.flatMap bytesOfWord }
  .next (rs.foldl (fun s r => s.present t r) (s.modCore t c fun k => k.addAccess acc))

/-- An operation of group 0x29. -/
def scatterOp (fn : Nat) : CoreOp :=
  { accept := fun n => insnGroup n == 0x29 && fnOf n == fn, touch := fun n => [sbOf n, vNum (saOf n), vNum (dOf n)],
    ready := fun s t c _ => (s.core t c).accessFree && (s.core t c).amoFree && (s.site t).ownAccepted,
    run := fun s t c n => s.scatter t c n }

/-- VGATHER, VSCATTER, VSCATTER_ADD (R213, R221, R222). -/
def execVgather (t c : Nat) (f : Fetched) (s : State) : Result := s.issue t c f (scatterOp 0)
def execVscatter (t c : Nat) (f : Fetched) (s : State) : Result := s.issue t c f (scatterOp 1)
def execVscatterAdd (t c : Nat) (f : Fetched) (s : State) : Result := s.issue t c f (scatterOp 2)

/-- A finished vector access: its lanes are written, in ascending lane order; a lane outside the vitrine and a closed piece give 0. -/
def State.vectorDone (s : State) (t c : Nat) (a : MemAcc) : State :=
  if a.dest == 0 then s else
  let word (cell : Nat) : BitVec 32 :=
    match a.got.find? fun e => e.1 == cell with
    | some e => e.2.headD 0
    | none => 0
  s.setVreg t c (a.dest - 32) ((List.range (lanesOf t)).map fun i =>
    match a.lanes.find? fun l => l.1 == i with
    | some l => word l.2
    | none => 0)

/-! ### Sorting (R214) -/

/-- R214: the order of keys: NaN lowest, then by value, -0 below +0. -/
def sortKey (w : BitVec 32) : Int :=
  let m := (w &&& 0x7FFFFFFF).toNat
  if 0x7F800000 < m then -(2 ^ 33 : Int) else if w.getLsbD 31 then -(m : Int) - 1 else m

/-- Insert a pair into a descending list, after the pairs of equal keys. -/
def insertDesc (p : BitVec 32 × BitVec 32) : List (BitVec 32 × BitVec 32) → List (BitVec 32 × BitVec 32)
  | [] => [p]
  | q :: l => if sortKey q.1 < sortKey p.1 then p :: q :: l else q :: insertDesc p l

/-- R214: VSORT's order. -/
def sortDesc (l : List (BitVec 32 × BitVec 32)) : List (BitVec 32 × BitVec 32) := l.foldl (fun acc p => insertDesc p acc) []

/-- The keys descend. -/
def descends : List (BitVec 32 × BitVec 32) → Bool
  | p :: q :: l => decide (sortKey q.1 ≤ sortKey p.1) && descends (q :: l)
  | _ => true

/-- R214: the merge of two descending lists, the first list's pairs before equal ones of the second. -/
def mergeDesc : Nat → List (BitVec 32 × BitVec 32) → List (BitVec 32 × BitVec 32) → List (BitVec 32 × BitVec 32)
  | 0, _, _ => []
  | _ + 1, [], b => b
  | _ + 1, a, [] => a
  | n + 1, p :: a, q :: b => if sortKey p.1 < sortKey q.1 then q :: mergeDesc n (p :: a) b else p :: mergeDesc n a (q :: b)

/-- The pairs of two registers. -/
def State.pairs (s : State) (t c k v : Nat) : List (BitVec 32 × BitVec 32) := (s.vreg t c k).zip (s.vreg t c v)

/-- Write keys and payloads. -/
def State.setPairs (s : State) (t c d : Nat) (l : List (BitVec 32 × BitVec 32)) : State :=
  (s.setVreg t c d (l.map (·.1))).setVreg t c (d + 1) (l.map (·.2))

def vsortOp : CoreOp :=
  { accept := fun n => insnGroup n == 0x2A && fnOf n == 0,
    touch := fun n => [vNum (saOf n), vNum (sbOf n), vNum (dOf n), vNum (dOf n + 1)], ready := always,
    run := fun s t c n => .next (s.setPairs t c (dOf n) (sortDesc (s.pairs t c (saOf n) (sbOf n)))) }

/-- VSORT (R214). -/
def execVsort (t c : Nat) (f : Fetched) (s : State) : Result := s.issue t c f vsortOp

/-- R214: VTOPK. Of operands that are not sorted the spec states no result: its lanes are then free values (log entry 9). -/
def State.vtopk (s : State) (t c n : Nat) : State :=
  let l := lanesOf t
  let a := s.pairs t c (dOf n) (dOf n + 1)
  let b := s.pairs t c (saOf n) (saOf n + 1)
  if descends a && descends b then s.setPairs t c (dOf n) ((mergeDesc (2 * l) a b).take l)
  else
    let free (i : Nat) : BitVec 32 := (Config.freeValue (s.freeCtr + i)).extractLsb' 0 32
    { s with freeCtr := s.freeCtr + 2 * l }.setPairs t c (dOf n) ((List.range l).map fun i => (free i, free (l + i)))

def vtopkOp : CoreOp :=
  { accept := fun n => insnGroup n == 0x2A && fnOf n == 1,
    touch := fun n => [vNum (saOf n), vNum (saOf n + 1), vNum (dOf n), vNum (dOf n + 1)], ready := always,
    run := fun s t c n => .next (s.vtopk t c n) }

/-- VTOPK (R214). -/
def execVtopk (t c : Nat) (f : Fetched) (s : State) : Result := s.issue t c f vtopkOp

end Sys2Proof.Machine
end

