-- ==== Sys2Proof/Machine/Memory.lean ====
section
/-! DEFINITION. Scalar memory instructions (R168-R174, R228, R232): addresses, the paths of accesses, loads, stores, AMOs, their responses,
fences and line operations. Cached accesses and CSR accesses are performed when their response arrives. -/

namespace Sys2Proof.Machine

/-! ### Addresses (R168, R169, R234) -/

/-- R168: the effective address of format M for an access of some bytes. -/
def memEa (k : Core) (n bytes : Nat) : Nat :=
  (k.getS (saOf n) + if insnLong n then sext 32 (upperOf n) else sext 8 (fieldOf n 28 21) * BitVec.ofNat 64 bytes).toNat

/-- What becomes of an effective address: an exception, a wait for a table entry, or a device physical address with its page's cache bit. -/
inductive EaRes where
  | exc (cause val : Nat)
  | wait
  | ok (pa : Nat) (cache : Bool)

/-- R169: an effective address with translation off. -/
def flatEa (ea : Nat) : EaRes := if 2 ^ 48 ≤ ea then .exc 7 ea else .ok ea true

/-- R169, R234: an effective address of a core, for an access of kind k (1 load, 2 store, 3 AMO). -/
def State.resolve (s : State) (t c ea bytes : Nat) (k : AccKind) : EaRes × State :=
  if ea % bytes != 0 then (.exc 6 ea, s)
  else if kindOf t = .s && ((s.core t c).svReg 11).getLsbD 0 then
    let x := s.translate t c ea k
    match x.1 with
    | .fault cause => (.exc cause ea, x.2)
    | .wait => (.wait, x.2)
    | .ok pa cache => (.ok pa cache, x.2)
  else (flatEa ea, s)

/-- R169, R228, R232: the path of an access: 0 the own vitrine, 1 the BN, 2 the CN, 3 nothing is there, 4 the caches, 5 the own window beyond the
local memory. With 16 local ways no DRAM is cached. -/
def State.pathOf (s : State) (t pa : Nat) (cache : Bool) : Nat :=
  match s.place pa with
  | .window u _ => if u != t then 1 else if kindOf t = .s then (if (s.localOff t pa).isSome then 4 else 5) else 0
  | .dram _ _ => if kindOf t = .s && cache && s.localWays t < 16 then 4 else 1
  | .lost => if kindOf t = .s && cache && s.localWays t < 16 then 4 else 1
  | .tileCsr _ _ => 2
  | .devCsr _ => 2
  | _ => 3

/-! ### Waiting at issue (R169-R171) -/

/-- The 8-byte granules of the bytes that an outstanding access stores to. -/
def MemAcc.granules (t : Nat) (a : MemAcc) : List Nat :=
  if a.kind == 1 || a.kind == 2 then [a.addr / 8]
  else if a.kind == 4 && a.dest == 0 then a.lanes.map fun l => windowAddr t (4 * l.2) / 8
  else []

/-- R170: no outstanding earlier store touches a granule of the bytes pa .. pa + n - 1. -/
def State.noOverlap (s : State) (t c pa n : Nat) : Bool :=
  (s.core t c).accesses.all fun a => (a.granules t).all fun g => g < pa / 8 || (pa + n - 1) / 8 < g

/-- R170: the CSR target of an access: a tile, or a device CSR block. -/
def State.csrTarget (s : State) (addr : Nat) : Nat :=
  match s.place addr with
  | .tileCsr t _ => t
  | .devCsr o => 4096 + o / 0x100000
  | _ => 0

/-- R170: the destination of an access over a network: a site over the BN, a CSR target over the CN. -/
def State.destOf (s : State) (path addr : Nat) : Nat :=
  if path == 2 then 8192 + s.csrTarget addr else
  match s.place addr with
  | .dram k o => miOf k o
  | .window t _ => t
  | _ => 8191

/-- R170: no store of the core that waits in the store buffer goes to the destination of this access. -/
def State.arrivesNext (s : State) (t c path addr : Nat) : Bool :=
  !((path == 1 || path == 2) && (s.core t c).accesses.any fun b => b.buffered && (b.path == 1 || b.path == 2) &&
    s.destOf b.path b.addr == s.destOf path addr)

/-- R240: the store buffer of a scalar core has one of its 8 entries free. -/
def State.storeFree (s : State) (t c : Nat) : Bool := ((s.core t c).accesses.filter (·.buffered)).length < 8

/-- R240: an access in the caches misses the L1D of its core. -/
def State.misses (s : State) (t c path pa : Nat) : Bool :=
  path == 4 && (findLine (s.core t c).cache.l1d (pa / 64 * 64)).isNone

/-- R240: at most 8 misses of a core are outstanding; a load or AMO that hits does not wait. -/
def State.missFree (s : State) (t c path pa : Nat) : Bool :=
  !s.misses t c path pa ||
  ((s.core t c).accesses.filter fun a => (a.kind == 0 || a.kind == 2) && s.misses t c a.path a.addr).length < 8

/-- R169, R171, R172: a memory instruction may issue: no AMO or FENCE is outstanding, and a sequencer has fewer than 16 accesses. -/
def State.memFree (s : State) (t c : Nat) : Bool := (s.core t c).amoFree && (kindOf t = .s || (s.core t c).accessFree)

/-- R223: an access to the own vitrine follows every scattered access of earlier instructions. -/
def State.vitFree (s : State) (t path : Nat) : Bool := path != 0 || (s.site t).scatterAccepted

/-- R170, R240: a scalar core has room for the access: a store in its buffer, any other among its misses and after its stores. -/
def State.roomFor (s : State) (t c path pa : Nat) (k : AccKind) : Bool :=
  kindOf t ≠ .s || if k == 2 then s.storeFree t c else s.missFree t c path pa && s.arrivesNext t c path pa

/-- A load, store or AMO of some bytes at ea may issue; `overlap` says that R170's granule rule holds for it. -/
def State.accessReady (s : State) (t c ea bytes : Nat) (k : AccKind) (overlap : Bool) : Bool :=
  s.memFree t c && match (s.resolve t c ea bytes k).1 with
    | .exc _ _ => true
    | .wait => true
    | .ok pa cache =>
      let path := s.pathOf t pa cache
      s.vitFree t path && (!overlap || s.noOverlap t c pa bytes) && s.roomFor t c path pa k

/-! ### Sending an access -/

/-- The packet kind of an access: MREAD, MWRITE or MAMO (R270). -/
def accKind (kind : Nat) : Nat := if kind == 0 then 8 else if kind == 1 then 9 else 10

/-- The response to an access is there. -/
def State.answered (s : State) (t c id status : Nat) : State :=
  s.modCore t c fun k => { k with accesses := k.accesses.map fun a => if a.id == id then { a with arrived := some (status, 0) } else a }

/-- R169, R171: the AMO operands of an access: operation, width, operand and compare value (the register d before the instruction). -/
def MemAcc.amo (a : MemAcc) : Nat × Bool × BitVec 64 × BitVec 64 :=
  (a.op, a.size == 8, BitVec.ofNat 64 (leNat (a.data.take 8)), BitVec.ofNat 64 (leNat (a.data.drop 8)))

/-- R136, R137, R171: an access at the own vitrine's port. -/
def vitrineAccess (a : MemAcc) : VitReq :=
  let o := a.addr % 2 ^ 22
  match a.kind with
  | 0 => readReq 3 (.core a.id 0) o a.size
  | 1 => writeReq 3 (.core a.id 0) (((List.range a.size).map (· + o)).zip a.data)
  | _ =>
    { port := 3, user := .core a.id 0, write := true, cells := cellsOf o a.size, data := [], masks := [], amo := some a.amo, wait := 0 }

/-- R269, R270: an access over the BN. An MAMO carries its operand and, for AMO.CAS, the compare value. -/
def State.bnAccess (s : State) (t c : Nat) (a : MemAcc) : State :=
  let arg := if a.kind == 2 then a.op + (if a.size == 8 then 32 else 0) else 0
  let h : Hdr :=
    { Hdr.blank with dev := s.deviceId, kind := accKind a.kind, len := a.size, src := s.sourceOf t c, addr := a.addr, arg := arg }
  s.post t (.core t c) h (if a.kind == 2 && a.op != 9 then a.data.take 8 else a.data) (.core t c a.id)

/-- R169, R428: the access leaves on its path. Over the BN and the CN its rights are checked where it is injected. -/
def State.sendAccess (s : State) (t c : Nat) (a : MemAcc) : State :=
  let inside := a.path == 0 || a.path == 4 || a.path == 5
  if inside && !s.mayReach (.core t c) a.addr (a.kind != 0) then
    (s.violation (.core t c) a.addr (accKind a.kind) t).answered t c a.id 0
  else match a.path with
  | 0 => s.present t (vitrineAccess a)
  | 1 => s.bnAccess t c a
  | 3 => s.answered t c a.id 3
  | 4 => if s.l2Busy t || s.l2Holds t (a.addr / 64 * 64) then s else s.askLine t c (a.addr / 64 * 64)
  | 5 => s.answered t c a.id 2
  | _ => s

/-- The access with a number. -/
def State.access (s : State) (t c id : Nat) : Option MemAcc := (s.core t c).accesses.find? fun a => a.id == id
def State.modAccess (s : State) (t c id : Nat) (f : MemAcc → MemAcc) : State :=
  s.modCore t c fun k => { k with accesses := k.accesses.map fun a => if a.id == id then f a else a }

/-- R240: the store that leaves the store buffer next. -/
def Core.oldestStore (k : Core) : Option MemAcc := k.accesses.find? (·.buffered)

/-- R240: stores leave the store buffer in program order: into the networks at once, into the caches when their line is there
(MEMORY_RESPONSE_ARRIVAL), which the stores behind wait for. -/
def State.retireStores (s : State) (t c : Nat) : Nat → State
  | 0 => s
  | n + 1 => match (s.core t c).oldestStore with
    | none => s
    | some a =>
      if a.path == 4 then (if a.arrived.isSome then s else s.sendAccess t c a)
      else ((s.modAccess t c a.id fun a => { a with buffered := false }).sendAccess t c a).retireStores t c n

/-- A load, store or AMO issues. -/
def State.startAccess (s : State) (t c ea bytes : Nat) (k : AccKind) (f : MemAcc → MemAcc) : Ran :=
  let x := s.resolve t c ea bytes k
  match x.1 with
  | .exc cause val => .exc x.2 cause val
  | .wait => .wait x.2
  | .ok pa cache =>
    let store := k == 2 && kindOf t = .s
    let a := f { (x.2.core t c).newAccess (k - 1) 0 bytes pa (x.2.pathOf t pa cache) with pieces := 1, buffered := store }
    let u := x.2.modCore t c fun q => q.addAccess a
    .next (if store then u.retireStores t c 8 else u.sendAccess t c a)

/-! ### LD, ST, AMO (R168, R171) -/

/-- R168: the bytes of a size code. -/
def sizeBytes (size : Nat) : Nat := 2 ^ (size % 4)

def ldBytes (n : Nat) : Nat := sizeBytes (fieldOf n 31 29)

def ldOp : CoreOp :=
  { accept := fun n => insnGroup n == 0x18, touch := fun n => [saOf n, dOf n],
    ready := fun s t c n => s.accessReady t c (memEa (s.core t c) n (ldBytes n)) (ldBytes n) 1 true,
    run := fun s t c n => s.startAccess t c (memEa (s.core t c) n (ldBytes n)) (ldBytes n) 1 fun a =>
      { a with dest := dOf n, signed := fieldOf n 31 29 < 4 } }

/-- LD (R168, R169). -/
def execLd (t c : Nat) (f : Fetched) (s : State) : Result := s.issue t c f ldOp

def stOp : CoreOp :=
  { accept := fun n => insnGroup n == 0x19, touch := fun n => [saOf n, dOf n],
    ready := fun s t c n => s.accessReady t c (memEa (s.core t c) n (ldBytes n)) (ldBytes n) 2 false,
    run := fun s t c n => s.startAccess t c (memEa (s.core t c) n (ldBytes n)) (ldBytes n) 2 fun a =>
      { a with data := leBytes (ldBytes n) (s.sreg t c (dOf n)).toNat } }

/-- ST (R168, R169). -/
def execSt (t c : Nat) (f : Fetched) (s : State) : Result := s.issue t c f stOp

def amoWide (n : Nat) : Nat := if n.testBit 26 then 8 else 4

def amoOp : CoreOp :=
  { accept := fun n => insnGroup n == 0x1A, touch := fun n => [saOf n, sbOf n, dOf n],
    ready := fun s t c n => (s.core t c).accesses.isEmpty && s.accessReady t c (s.sreg t c (saOf n)).toNat (amoWide n) 3 false,
    run := fun s t c n => s.startAccess t c (s.sreg t c (saOf n)).toNat (amoWide n) 3 fun a =>
      { a with dest := dOf n, signed := true, op := fieldOf n 31 27,
               data := leBytes 8 (s.sreg t c (sbOf n)).toNat ++ leBytes 8 (s.sreg t c (dOf n)).toNat } }

/-- AMO (R171). -/
def execAmo (t c : Nat) (f : Fetched) (s : State) : Result := s.issue t c f amoOp

/-! ### Responses (R168, R170, R174, R177) -/

/-- R168: the value of a load or AMO of some bytes. -/
def loadValue (size : Nat) (signed : Bool) (v : Nat) : BitVec 64 :=
  if signed then sext (8 * size) v else BitVec.ofNat 64 (v % 2 ^ (8 * size))

/-- The access is complete: it leaves, with a FENCE that waited for it alone; its status is reported, and its destination is written. -/
def State.finishAccess (s : State) (t c : Nat) (a : MemAcc) (status value : Nat) : State :=
  let s := s.modCore t c fun k =>
    { k with accesses := (k.accesses.filter fun b => b.id != a.id).dropWhile fun b => b.kind == 5 }
  let s := s.reportStatus t c (if a.kind == 3 then 2 else 0) a.pc status
  if a.kind == 0 || a.kind == 2 then s.setS t c a.dest (loadValue a.size a.signed (if status == 0 then value else 0))
  else if a.kind == 4 then s.vectorDone t c a
  else if a.buffered then s.retireStores t c 8
  else s

/-- What an access brought: from the own vitrine as whole cells, otherwise as its response holds it. -/
def MemAcc.brought (a : MemAcc) (v : BitVec 64) : Nat :=
  if a.path == 0 then leNat (bytesFrom (a.addr % 2 ^ 22) a.size (a.got.flatMap (·.2))) else v.toNat

/-- R227-R230: an access in the caches is performed: its status and value, or none while its line is on its way. -/
def State.cachedAccess (s : State) (t c : Nat) (a : MemAcc) (corr uncorr : List Nat) : Option (Nat × Nat) × State :=
  match a.kind with
  | 0 =>
    let r := s.cacheLoad t c a.addr a.size corr uncorr
    (r.1.map fun x => (x.1, leNat x.2), r.2)
  | 1 =>
    let r := s.cacheStore t c a.addr a.data
    (r.1.map fun st => (st, 0), r.2)
  | _ =>
    let m := a.amo
    s.cacheAmo t c a.addr m.1 m.2.1 m.2.2.1 m.2.2.2 corr uncorr

/-- R173: a CSR access is performed. An AMO is no register access (R5). -/
def State.csrPerform (s : State) (a : Agent) (m : MemAcc) : Nat × Nat × State :=
  match m.kind with
  | 0 =>
    let r := s.csrRead a m.addr m.size
    (r.1, r.2.1.toNat, r.2.2)
  | 1 =>
    let r := s.csrWrite a m.addr m.size (BitVec.ofNat 32 (leNat m.data))
    (r.1, 0, r.2)
  | _ => match s.csrPlace a m.addr with
    | .denied t => (0, 0, s.violation a m.addr 10 (if t == 0xBDF then 0 else t))
    | .unreach => (3, 0, s)
    | _ => (0, 0, s.csrAccess a m.addr m.size true)

/-- R170: accesses to one CSR target arrive in program order. -/
def State.csrTurn (s : State) (t c : Nat) (a : MemAcc) : Bool :=
  !((s.core t c).accesses.takeWhile fun b => b.id != a.id).any fun b => b.path == 2 && s.csrTarget b.addr == s.csrTarget a.addr

/-! ### Messages of S-tile cores (R204) -/

/-- R204: the message leaves with its payload. -/
def State.sendMessage (s : State) (t c : Nat) (a : MemAcc) : State :=
  (s.modAccess t c a.id fun a => { a with pieces := 0, arrived := none }).post t (.core t c)
    (msgHeader a.op a.value.toNat (s.sourceOf t c) a.data.length) a.data (.core t c a.id)

/-- R204: one part of a message's payload, n bytes at pa: the bytes and the state, or none when it is read through the caches or over the
BN. -/
def State.payloadPart (s : State) (t c : Nat) (a : MemAcc) (pa n path : Nat) : Option (List (BitVec 8) × State) :=
  let zeros := List.replicate n (0 : BitVec 8)
  if (path == 4 || path == 5) && !s.mayReach (.core t c) pa false then some (zeros, s.violation (.core t c) pa 8 t)
  else match path with
  | 2 =>
    let r := s.csrRead (.core t c) pa n
    some (wordBytes n r.2.1, r.2.2.reportStatus t c 0 a.pc r.1)
  | 3 => some (zeros, s.reportStatus t c 0 a.pc 3)
  | 5 => some (zeros, s.reportStatus t c 0 a.pc 2)
  | _ => none
where wordBytes (n : Nat) (v : BitVec 32) : List (BitVec 8) := (leBytes 4 v.toNat ++ List.replicate n 0).take n

/-- R204: the payload is read part by part, in the caches line by line, and then the message leaves. A part is its address, doubled, with its
cache bit, and its length; the parts that remain stand in the access, whose path says what it waits for. -/
def State.payloadNext (s : State) (t c id : Nat) : Nat → State
  | 0 => s
  | fuel + 1 => match s.access t c id with
    | none => s
    | some a => match a.lanes with
      | [] => s.sendMessage t c a
      | (code, n) :: rest =>
        let pa := code / 2
        let path := s.pathOf t pa (code % 2 == 1)
        let u := s.modAccess t c id fun a => { a with lanes := rest, arrived := none, path := 1 }
        match u.payloadPart t c a pa n path with
        | some (l, v) => (v.modAccess t c id fun a => { a with data := a.data ++ l }).payloadNext t c id fuel
        | none =>
          if path == 4 then
            let k := min n (64 - pa % 64)
            let r := s.cacheLoad t c pa k [] []
            match r.1 with
            | none => r.2.modAccess t c id fun a => { a with arrived := none, path := 4 }
            | some (st, l) =>
              ((r.2.reportStatus t c 0 a.pc st).modAccess t c id fun a =>
                { a with lanes := if n == k then rest else (code + 2 * k, n - k) :: rest, arrived := none,
                         data := a.data ++ l }).payloadNext t c id fuel
          else
            let h : Hdr := { Hdr.blank with dev := s.deviceId, kind := 8, len := n, src := s.sourceOf t c, addr := pa }
            u.post t (.core t c) h [] (.core t c id)

/-- The most parts that a payload of 4 KiB is read in. -/
def payloadParts : Nat := 80

/-- R240: a store in the caches is performed when it is the oldest of the store buffer. -/
def State.storeTurn (s : State) (t c : Nat) (a : MemAcc) : Bool := !a.buffered || (s.core t c).oldestStore.all fun b => b.id == a.id

/-- MEMORY_RESPONSE_ARRIVAL (R170, R174, R177): the response to access `id` of a core arrives; `corr` and `uncorr` are the cache words, by physical
address divided by 8, in which an access in the caches finds errors (R230). An access whose line is not there yet asks for it. -/
def execMemoryResponseArrival (t c id : Nat) (corr uncorr : List Nat) (s : State) : Result :=
  match s.access t c id with
  | none => .next s
  | some a =>
    match a.arrived with
    | some (status, v) =>
      .next (if a.kind == 3 && a.pieces == 1 then (s.reportStatus t c 0 a.pc status).payloadNext t c id payloadParts
        else s.finishAccess t c a status (a.brought v))
    | none =>
      if a.path == 4 then
        if a.kind == 3 then .next (s.payloadNext t c id payloadParts)
        else if s.l2Busy t || !s.storeTurn t c a then .next s
        else
          let r := s.cachedAccess t c a corr uncorr
          match r.1 with
          | none => .next r.2
          | some (status, v) => .next (r.2.finishAccess t c a status v)
      else
        let r := s.csrPerform (.core t c) a
        s.when (a.path == 2 && !a.buffered && s.csrTurn t c a) (r.2.2.finishAccess t c a r.1 r.2.1)

/-! ### FENCE and line operations (R172) -/

/-- An operation of group 0x1B. -/
def fenceKind (op : Nat) (ready : State → Nat → Nat → Nat → Bool) (run : State → Nat → Nat → Nat → Ran) : CoreOp :=
  { accept := fun n => insnGroup n == 0x1B && fieldOf n 31 27 == op, touch := fun n => if op < 2 then [] else [saOf n],
    ready := ready, run := run }

/-- R172: a FENCE holds back later memory instructions until the accesses before it have completed. -/
def State.holdMemory (s : State) (t c : Nat) : State :=
  if (s.core t c).accesses.isEmpty then s
  else s.modCore t c fun k => k.addAccess (k.newAccess 5 0 0 0 3)

/-- An operation that waits at issue until no access of the core is outstanding. -/
def quiet (s : State) (t c _n : Nat) : Bool := (s.core t c).accesses.isEmpty

def fenceOp : CoreOp := fenceKind 0 always fun s t c _ => .next (s.holdMemory t c)

/-- FENCE (R172). -/
def execFence (t c : Nat) (f : Fetched) (s : State) : Result := s.issue t c f fenceOp

def fenceIOp : CoreOp := fenceKind 1 quiet fun s t c _ =>
  .next (if kindOf t = .s then s.modCore t c fun k => { k with cache := { k.cache with l1i := [] }, fetchBuf := [] } else s)

/-- FENCE_I (R172, R229). -/
def execFenceI (t c : Nat) (f : Fetched) (s : State) : Result := s.issue t c f fenceIOp

/-- R172, R229: a line operation of a scalar core on the line of s[sa], translated as a load is; a tile sequencer has a FENCE. -/
def lineOp (op : Nat) (run : State → Nat → Nat → Nat → State) : CoreOp :=
  fenceKind op quiet fun s t c n =>
    if kindOf t ≠ .s then .next s
    else if op == 3 && s.userMode t c then .exc s 2 (lowerOf n)
    else
      let x := s.resolve t c (s.sreg t c (saOf n)).toNat 1 1
      match x.1 with
      | .exc cause val => .exc x.2 cause val
      | .wait => .wait x.2
      | .ok pa _ => .next (run x.2 t c (pa / 64 * 64))

/-- R172: CLEAN by a core; a write-back that leaves for DRAM is an access of the core, which completes when its completion returns (log entry
94). -/
def State.cleanBy (s : State) (t c a : Nat) : State :=
  let u := s.clean t a
  if (u.site t).spills == (s.site t).spills then u
  else u.modCore t c fun k => k.addAccess (k.newAccess 6 0 64 a 6)

/-- CLEAN, INVAL, FLUSH (R172). -/
def execClean (t c : Nat) (f : Fetched) (s : State) : Result := s.issue t c f (lineOp 2 fun s t c a => s.cleanBy t c a)
def execInval (t c : Nat) (f : Fetched) (s : State) : Result := s.issue t c f (lineOp 3 fun s t c a => s.inval t c a)
def execFlush (t c : Nat) (f : Fetched) (s : State) : Result :=
  s.issue t c f (lineOp 4 fun s t c a => (s.cleanBy t c a).inval t c a)

end Sys2Proof.Machine
end

