-- ==== Sys2Proof/Machine/System.lean ====
section
/-! DEFINITION. System instructions (R175, R176, R181-R183): the CSR port, time and identity, traps, supervisor registers and cached
translations; and the message instructions of every core (R204). -/

namespace Sys2Proof.Machine

/-! ### CSRX (R175) -/

/-- R159, R175: the byte offset in the tile's own CSR space. -/
def csrxOff (n : Nat) : Nat := if insnLong n then fieldOf n 51 32 else 4 * fieldOf n 29 21

/-- R175: the word that is written: none for CSRR. -/
def csrxNew (op : Nat) (old v : BitVec 32) : Option (BitVec 32) :=
  match op with
  | 0 => none
  | 1 => some v
  | 2 => some (old ||| v)
  | _ => some (old &&& ~~~v)

/-- R175: the read and the write, as one access at the tile's CSR port. A reset of the tile that it commands leaves nothing else behind. -/
def State.csrx (s : State) (t c n : Nat) : Ran :=
  if s.userMode t c then .exc s 2 (lowerOf n) else
  let off := csrxOff n
  let v := (s.sreg t c (saOf n)).extractLsb' 0 32
  let r := s.tileRead (.core t c) t off
  match csrxNew (fieldOf n 31 30) r.1 v with
  | none => .next (r.2.setS t c (dOf n) (r.1.zeroExtend 64))
  | some w =>
    let u := r.2.tileStore t off w
    if u.tbit t R.TILE_RESET 31 then .stay u else .next (u.setS t c (dOf n) (r.1.zeroExtend 64))

def csrxOp (op : Nat) : CoreOp :=
  { accept := fun n => insnGroup n == 0x3E && fieldOf n 31 30 == op, touch := fun n => [saOf n, dOf n], ready := always,
    run := fun s t c n => s.csrx t c n }

/-- CSRR, CSRW, CSRS, CSRC (R175). -/
def execCsrr (t c : Nat) (f : Fetched) (s : State) : Result := s.issue t c f (csrxOp 0)
def execCsrw (t c : Nat) (f : Fetched) (s : State) : Result := s.issue t c f (csrxOp 1)
def execCsrs (t c : Nat) (f : Fetched) (s : State) : Result := s.issue t c f (csrxOp 2)
def execCsrc (t c : Nat) (f : Fetched) (s : State) : Result := s.issue t c f (csrxOp 3)

/-! ### Group 0x3F (R176) -/

/-- An instruction of group 0x3F. -/
def sysOp (fn : Nat) (touch : Nat → List Nat) (run : State → Nat → Nat → Nat → Ran) : CoreOp :=
  { accept := fun n => insnGroup n == 0x3F && fnOf n == fn, touch := touch, ready := always, run := run }

/-- R181: an instruction that user mode may not execute. -/
def supOp (fn : Nat) (touch : Nat → List Nat) (run : State → Nat → Nat → Nat → Ran) : CoreOp :=
  sysOp fn touch fun s t c n => if s.userMode t c then .exc s 2 (lowerOf n) else run s t c n

def rdtimeOp : CoreOp := sysOp 1 (fun n => [dOf n]) fun s t c n => .next (s.setS t c (dOf n) (BitVec.ofNat 64 (s.siteTime t)))
def rdcoreOp : CoreOp := sysOp 2 (fun n => [dOf n]) fun s t c n => .next (s.setS t c (dOf n) (BitVec.ofNat 64 (s.sourceOf t c)))

/-- RDTIME, RDCORE (R176). -/
def execRdtime (t c : Nat) (f : Fetched) (s : State) : Result := s.issue t c f rdtimeOp
def execRdcore (t c : Nat) (f : Fetched) (s : State) : Result := s.issue t c f rdcoreOp

/-- R178: TRAP_S in supervisor mode, otherwise TRAP_U. -/
def trapOp : CoreOp := sysOp 3 (fun _ => []) fun s t c _ => .exc s (if kindOf t = .s && !s.userMode t c then 9 else 8) 0

/-- TRAP (R176, R178). -/
def execTrap (t c : Nat) (f : Fetched) (s : State) : Result := s.issue t c f trapOp

/-- R180: BREAK halts a core under debug control, once its accesses have completed. -/
def State.breakHalt (s : State) (t c : Nat) : State :=
  ({ s with dbg := { s.dbg with halting := s.dbg.halting.filter (· != coreId t c) ++ [coreId t c] } }).settle t c

def breakOp : CoreOp := sysOp 4 (fun _ => []) fun s t c _ => if s.attached t c then .stay (s.breakHalt t c) else .exc s 10 0

/-- BREAK (R176, R180). -/
def execBreak (t c : Nat) (f : Fetched) (s : State) : Result := s.issue t c f breakOp

def tretOp : CoreOp := supOp 5 (fun _ => []) fun s t c _ =>
  let u := s.trapReturn t c
  .jump u (u.core t c).pc

/-- TRET (R176, R183). -/
def execTret (t c : Nat) (f : Fetched) (s : State) : Result := s.issue t c f tretOp

def idleOp : CoreOp := supOp 6 (fun _ => []) fun s t c _ =>
  if s.irqEnabled t c != 0 then .next s
  else .stay ((s.setCoreState t c 2).modCore t c fun k => { k with wait := 2, timeout := none })

/-- IDLE (R176, R184). -/
def execIdle (t c : Nat) (f : Fetched) (s : State) : Result := s.issue t c f idleOp

/-! ### Supervisor registers (R182) -/

/-- The value of supervisor register n. -/
def State.svRead (s : State) (t c n : Nat) : BitVec 64 := if n == 9 then s.irqPend t c else (s.core t c).svReg n

/-- R182: the bits of supervisor register n that a write sets. -/
def svMask (n : Nat) : BitVec 64 :=
  match n with
  | 0 => 0x1
  | 1 => 0x3
  | 2 => 0xFFFFFFFFFFFFF000
  | 3 => 0xFFFFFFFFFFFFFFFC
  | 4 => 0x33F
  | 8 => 0x7
  | 9 => 0x4
  | 11 => 0xFFFFFFFFFFFF0001
  | _ => BitVec.allOnes 64

/-- R178, R182, R216: the codes of SV_CAUSE: those of the exceptions and of the interrupts. -/
def causeCode (n : Nat) : Bool := n < 14 || (16 ≤ n && n < 21)

/-- R8, R182: the bits of supervisor register n that a write of v sets: a reserved kind or code of SV_CAUSE leaves its field unchanged. -/
def svSets (n : Nat) (v : BitVec 64) : BitVec 64 :=
  if n == 4 then (if v.toNat / 256 % 4 < 2 then 0x300 else 0) ||| (if causeCode (v.toNat % 64) then 0x3F else 0) else svMask n

/-- R182: a write of supervisor register n. -/
def Core.svWrite (k : Core) (n : Nat) (v : BitVec 64) : Core :=
  let m := svSets n v
  k.setSv n ((k.svReg n &&& ~~~m) ||| (v &&& m))
def State.svWrite (s : State) (t c n : Nat) (v : BitVec 64) : State := s.modCore t c fun k => k.svWrite n v

def svgetOp : CoreOp := supOp 7 (fun n => [dOf n]) fun s t c n => .next (s.setS t c (dOf n) (s.svRead t c (sbOf n)))
def svsetOp : CoreOp := supOp 8 (fun n => [saOf n]) fun s t c n => .next (s.svWrite t c (sbOf n) (s.sreg t c (saOf n)))
def svswapOp : CoreOp := supOp 9 (fun n => [saOf n, dOf n]) fun s t c n =>
  .next ((s.svWrite t c (sbOf n) (s.sreg t c (saOf n))).setS t c (dOf n) (s.svRead t c (sbOf n)))

/-- SVGET, SVSET, SVSWAP (R176, R182). -/
def execSvget (t c : Nat) (f : Fetched) (s : State) : Result := s.issue t c f svgetOp
def execSvset (t c : Nat) (f : Fetched) (s : State) : Result := s.issue t c f svsetOp
def execSvswap (t c : Nat) (f : Fetched) (s : State) : Result := s.issue t c f svswapOp

/-- R176, R237: the translations that an XLINV discards: d 0 of an address in a space tag, and shared ones of that address; d 1 the non-shared of a
space tag; d 2 all. -/
def xlinvGone (d va space : Nat) (e : Tlb) : Bool :=
  let shared := e.leaf.getLsbD 8
  match d with
  | 0 => e.vpn == va / 2 ^ (12 + 9 * e.level) && (shared || e.space == space)
  | 1 => !shared && e.space == space
  | _ => true

def xlinvOp : CoreOp := supOp 10 (fun n => [saOf n, sbOf n]) fun s t c n =>
  .next (s.xlinv t c (xlinvGone (dOf n) (s.sreg t c (saOf n)).toNat ((s.sreg t c (sbOf n)).toNat % 4096)))

/-- XLINV (R176, R237). -/
def execXlinv (t c : Nat) (f : Fetched) (s : State) : Result := s.issue t c f xlinvOp

/-! ### Messages (R204) -/

def msgOpOf (n : Nat) : Nat := fieldOf n 53 51
def msgRegs (n : Nat) : List Nat := [fieldOf n 50 46, fieldOf n 45 41]

/-- R204: the bytes of a message's payload in memory. -/
def msgBytes (n : Nat) : Nat := if msgOpOf n < 3 then 4 * (fieldOf n 40 31 + 1) else 0

/-- The parts of n bytes at a virtual address, within pages of 4 KiB. -/
def pageParts (va n : Nat) : List (Nat × Nat) :=
  let k := min n (4096 - va % 4096)
  if n == 0 then [] else if n == k then [(va, n)] else [(va, k), (va + k, n - k)]

/-- R204: the payload's address translated as for a load, part by part: the first exception, or the parts as payloadNext takes them. -/
def State.msgParts (s : State) (t c : Nat) : List (Nat × Nat) → (EaRes ⊕ List (Nat × Nat)) × State
  | [] => (.inr [], s)
  | (va, n) :: l =>
    let x := s.resolve t c va 1 1
    match x.1 with
    | .exc cause val => (.inl (.exc cause val), x.2)
    | .wait => (.inl .wait, x.2)
    | .ok pa cache =>
      let r := x.2.msgParts t c l
      match r.1 with
      | .inl e => (.inl e, r.2)
      | .inr ps => (.inr ((2 * pa + cache.toNat, n) :: ps), r.2)

/-- R170: a message of an S-tile core may issue. -/
def State.msgReady (s : State) (t c n : Nat) : Bool :=
  s.memFree t c && match (s.msgParts t c (pageParts (s.sreg t c (fieldOf n 45 41)).toNat (msgBytes n))).1 with
    | .inl _ => true
    | .inr ps => ps.all fun p => s.noOverlap t c (p.1 / 2) p.2

/-- R204: a message of an S-tile core: a memory access that completes when its completion returns. -/
def State.scalarMsg (s : State) (t c n : Nat) : Ran :=
  if fieldOf n 63 54 != 0 then .exc s 16 (lowerOf n) else
  let op := msgOpOf n
  let value := s.sreg t c (fieldOf n 45 41)
  let x := s.msgParts t c (pageParts value.toNat (msgBytes n))
  match x.1 with
  | .inl (.exc cause val) => .exc x.2 cause val
  | .inl .wait => .wait x.2
  | .inl (.ok _ _) => .next x.2
  | .inr ps =>
    let a := { (x.2.core t c).newAccess 3 0 (msgBytes n) (((ps.map (·.1)).headD 0) / 2) 1 with
               pieces := 1, op := op, value := s.sreg t c (fieldOf n 50 46), lanes := ps,
               data := if op == 4 then leBytes 8 value.toNat else [] }
    .next ((x.2.modCore t c fun k => k.addAccess a).payloadNext t c a.id payloadParts)

/-- A message instruction: in M- and V-tiles it is dispatched to the Fetch engine; a reserved operation is dispatched by any row, and
refused by the engine. -/
def msgOp (op : Nat) : CoreOp :=
  let e := engineCoreOp (fun n => insnGroup n == 0x3C && (msgOpOf n == op || 5 ≤ msgOpOf n)) .fetch msgRegs (fun _ => []) (fun _ => false)
  { accept := e.accept, touch := e.touch,
    ready := fun s t c n => if kindOf t = .s then fieldOf n 63 54 != 0 || s.msgReady t c n else e.ready s t c n,
    run := fun s t c n => if kindOf t = .s then s.scalarMsg t c n else e.run s t c n }

/-- MSG_DESC, MSG_DATA, MSG_CONC, MSG_TOKEN, MSG_DOORBELL (R204). -/
def execMsgDesc (t c : Nat) (f : Fetched) (s : State) : Result := s.issue t c f (msgOp 0)
def execMsgData (t c : Nat) (f : Fetched) (s : State) : Result := s.issue t c f (msgOp 1)
def execMsgConc (t c : Nat) (f : Fetched) (s : State) : Result := s.issue t c f (msgOp 2)
def execMsgToken (t c : Nat) (f : Fetched) (s : State) : Result := s.issue t c f (msgOp 3)
def execMsgDoorbell (t c : Nat) (f : Fetched) (s : State) : Result := s.issue t c f (msgOp 4)

end Sys2Proof.Machine
end

