-- ==== Sys2Proof/Machine/Dispatch.lean ====
section
/-! DEFINITION. The one meaning of each command. -/

namespace Sys2Proof.Machine

/-- The effect of a command on everything but the queue of waiting commands. -/
def exec (i : Instr) (s : State) : Host.Outcome State Fault Refusal :=
  match i with
  | .aluRegisterOp tile core fetched => Sys2Proof.Machine.execAluRegisterOp tile core fetched s
  | .immediateOp tile core fetched => Sys2Proof.Machine.execImmediateOp tile core fetched s
  | .li tile core fetched => Sys2Proof.Machine.execLi tile core fetched s
  | .mulDiv tile core fetched => Sys2Proof.Machine.execMulDiv tile core fetched s
  | .bitOp tile core fetched => Sys2Proof.Machine.execBitOp tile core fetched s
  | .cmp tile core fetched => Sys2Proof.Machine.execCmp tile core fetched s
  | .cmpi tile core fetched => Sys2Proof.Machine.execCmpi tile core fetched s
  | .predicateOp tile core fetched => Sys2Proof.Machine.execPredicateOp tile core fetched s
  | .br tile core fetched => Sys2Proof.Machine.execBr tile core fetched s
  | .brl tile core fetched => Sys2Proof.Machine.execBrl tile core fetched s
  | .jr tile core fetched => Sys2Proof.Machine.execJr tile core fetched s
  | .nop tile core fetched => Sys2Proof.Machine.execNop tile core fetched s
  | .endOp tile core fetched => Sys2Proof.Machine.execEnd tile core fetched s
  | .wfe tile core fetched => Sys2Proof.Machine.execWfe tile core fetched s
  | .wfeTimeout tile core => Sys2Proof.Machine.execWfeTimeout tile core s
  | .ld tile core fetched => Sys2Proof.Machine.execLd tile core fetched s
  | .st tile core fetched => Sys2Proof.Machine.execSt tile core fetched s
  | .memoryResponseArrival tile core id corr uncorr => Sys2Proof.Machine.execMemoryResponseArrival tile core id corr uncorr s
  | .amo tile core fetched => Sys2Proof.Machine.execAmo tile core fetched s
  | .fence tile core fetched => Sys2Proof.Machine.execFence tile core fetched s
  | .fenceI tile core fetched => Sys2Proof.Machine.execFenceI tile core fetched s
  | .clean tile core fetched => Sys2Proof.Machine.execClean tile core fetched s
  | .inval tile core fetched => Sys2Proof.Machine.execInval tile core fetched s
  | .flush tile core fetched => Sys2Proof.Machine.execFlush tile core fetched s
  | .csrr tile core fetched => Sys2Proof.Machine.execCsrr tile core fetched s
  | .csrw tile core fetched => Sys2Proof.Machine.execCsrw tile core fetched s
  | .csrs tile core fetched => Sys2Proof.Machine.execCsrs tile core fetched s
  | .csrc tile core fetched => Sys2Proof.Machine.execCsrc tile core fetched s
  | .rdtime tile core fetched => Sys2Proof.Machine.execRdtime tile core fetched s
  | .rdcore tile core fetched => Sys2Proof.Machine.execRdcore tile core fetched s
  | .trap tile core fetched => Sys2Proof.Machine.execTrap tile core fetched s
  | .breakOp tile core fetched => Sys2Proof.Machine.execBreak tile core fetched s
  | .tret tile core fetched => Sys2Proof.Machine.execTret tile core fetched s
  | .idle tile core fetched => Sys2Proof.Machine.execIdle tile core fetched s
  | .svget tile core fetched => Sys2Proof.Machine.execSvget tile core fetched s
  | .svset tile core fetched => Sys2Proof.Machine.execSvset tile core fetched s
  | .svswap tile core fetched => Sys2Proof.Machine.execSvswap tile core fetched s
  | .xlinv tile core fetched => Sys2Proof.Machine.execXlinv tile core fetched s
  | .coreFaulted tile core => Sys2Proof.Machine.execCoreFaulted tile core s
  | .svTimerExpiry tile core => Sys2Proof.Machine.execSvTimerExpiry tile core s
  | .interruptTaken tile core => Sys2Proof.Machine.execInterruptTaken tile core s
  | .start agent tile core => Sys2Proof.Machine.execStart agent tile core s
  | .stop agent tile core => Sys2Proof.Machine.execStop agent tile core s
  | .wake agent tile core => Sys2Proof.Machine.execWake agent tile core s
  | .coreStopped tile core => Sys2Proof.Machine.execCoreStopped tile core s
  | .programStoreWrite agent tile index value => Sys2Proof.Machine.execProgramStoreWrite agent tile index value s
  | .tkSet tile core fetched => Sys2Proof.Machine.execTkSet tile core fetched s
  | .tkAdd tile core fetched => Sys2Proof.Machine.execTkAdd tile core fetched s
  | .tkTake tile core fetched => Sys2Proof.Machine.execTkTake tile core fetched s
  | .tkRead tile core fetched => Sys2Proof.Machine.execTkRead tile core fetched s
  | .engWait tile core fetched => Sys2Proof.Machine.execEngWait tile core fetched s
  | .engNotify tile core fetched => Sys2Proof.Machine.execEngNotify tile core fetched s
  | .tdSet tile core fetched => Sys2Proof.Machine.execTdSet tile core fetched s
  | .tdGetlo tile core fetched => Sys2Proof.Machine.execTdGetlo tile core fetched s
  | .tdGethi tile core fetched => Sys2Proof.Machine.execTdGethi tile core fetched s
  | .tdAddr tile core fetched => Sys2Proof.Machine.execTdAddr tile core fetched s
  | .ahSet tile core fetched => Sys2Proof.Machine.execAhSet tile core fetched s
  | .ahGet tile core fetched => Sys2Proof.Machine.execAhGet tile core fetched s
  | .mm tile core fetched => Sys2Proof.Machine.execMm tile core fetched s
  | .cbLoad tile core fetched => Sys2Proof.Machine.execCbLoad tile core fetched s
  | .dr tile core fetched => Sys2Proof.Machine.execDr tile core fetched s
  | .accScale tile core fetched => Sys2Proof.Machine.execAccScale tile core fetched s
  | .smInit tile core fetched => Sys2Proof.Machine.execSmInit tile core fetched s
  | .smStore tile core fetched => Sys2Proof.Machine.execSmStore tile core fetched s
  | .smLoad tile core fetched => Sys2Proof.Machine.execSmLoad tile core fetched s
  | .stepClose tile core fetched => Sys2Proof.Machine.execStepClose tile core fetched s
  | .accDrop tile core fetched => Sys2Proof.Machine.execAccDrop tile core fetched s
  | .actLoad tile core fetched => Sys2Proof.Machine.execActLoad tile core fetched s
  | .fxLoad tile core fetched => Sys2Proof.Machine.execFxLoad tile core fetched s
  | .fxStore tile core fetched => Sys2Proof.Machine.execFxStore tile core fetched s
  | .fxWload tile core fetched => Sys2Proof.Machine.execFxWload tile core fetched s
  | .fxWstore tile core fetched => Sys2Proof.Machine.execFxWstore tile core fetched s
  | .msgDesc tile core fetched => Sys2Proof.Machine.execMsgDesc tile core fetched s
  | .msgData tile core fetched => Sys2Proof.Machine.execMsgData tile core fetched s
  | .msgConc tile core fetched => Sys2Proof.Machine.execMsgConc tile core fetched s
  | .msgToken tile core fetched => Sys2Proof.Machine.execMsgToken tile core fetched s
  | .msgDoorbell tile core fetched => Sys2Proof.Machine.execMsgDoorbell tile core fetched s
  | .qcnt tile core fetched => Sys2Proof.Machine.execQcnt tile core fetched s
  | .qhead tile core fetched => Sys2Proof.Machine.execQhead tile core fetched s
  | .qpop tile core fetched => Sys2Proof.Machine.execQpop tile core fetched s
  | .qnotify tile core fetched => Sys2Proof.Machine.execQnotify tile core fetched s
  | .vectorFp32 tile core fetched => Sys2Proof.Machine.execVectorFp32 tile core fetched s
  | .vectorBf16 tile core fetched => Sys2Proof.Machine.execVectorBf16 tile core fetched s
  | .vectorInteger tile core fetched => Sys2Proof.Machine.execVectorInteger tile core fetched s
  | .laneMove tile core fetched => Sys2Proof.Machine.execLaneMove tile core fetched s
  | .vq tile core fetched => Sys2Proof.Machine.execVq tile core fetched s
  | .vx tile core fetched => Sys2Proof.Machine.execVx tile core fetched s
  | .vcvtI2f tile core fetched => Sys2Proof.Machine.execVcvtI2f tile core fetched s
  | .vcvtF2i tile core fetched => Sys2Proof.Machine.execVcvtF2i tile core fetched s
  | .specialFunction tile core fetched => Sys2Proof.Machine.execSpecialFunction tile core fetched s
  | .vld tile core fetched => Sys2Proof.Machine.execVld tile core fetched s
  | .vst tile core fetched => Sys2Proof.Machine.execVst tile core fetched s
  | .vldC tile core fetched => Sys2Proof.Machine.execVldC tile core fetched s
  | .vstC tile core fetched => Sys2Proof.Machine.execVstC tile core fetched s
  | .vgather tile core fetched => Sys2Proof.Machine.execVgather tile core fetched s
  | .vscatter tile core fetched => Sys2Proof.Machine.execVscatter tile core fetched s
  | .vscatterAdd tile core fetched => Sys2Proof.Machine.execVscatterAdd tile core fetched s
  | .vscatterAddWrite tile => Sys2Proof.Machine.execVscatterAddWrite tile s
  | .vsort tile core fetched => Sys2Proof.Machine.execVsort tile core fetched s
  | .vtopk tile core fetched => Sys2Proof.Machine.execVtopk tile core fetched s
  | .engineIssue tile engine corr uncorr => Sys2Proof.Machine.execEngineIssue tile engine corr uncorr s
  | .engineComplete tile engine => Sys2Proof.Machine.execEngineComplete tile engine s
  | .passStart tile => Sys2Proof.Machine.execPassStart tile s
  | .stationaryRowWrite tile => Sys2Proof.Machine.execStationaryRowWrite tile s
  | .loaderRowRead tile => Sys2Proof.Machine.execLoaderRowRead tile s
  | .streamUnitRead tile => Sys2Proof.Machine.execStreamUnitRead tile s
  | .initialisingCommit tile => Sys2Proof.Machine.execInitialisingCommit tile s
  | .chunkCompletion tile => Sys2Proof.Machine.execChunkCompletion tile s
  | .codebookTakesEffect tile => Sys2Proof.Machine.execCodebookTakesEffect tile s
  | .drainComplete tile => Sys2Proof.Machine.execDrainComplete tile s
  | .quantClose agent tile slot => Sys2Proof.Machine.execQuantClose agent tile slot s
  | .quantClear agent tile slot => Sys2Proof.Machine.execQuantClear agent tile slot s
  | .vitRequestAccept tile corr uncorr => Sys2Proof.Machine.execVitRequestAccept tile corr uncorr s
  | .vitAccessComplete tile => Sys2Proof.Machine.execVitAccessComplete tile s
  | .eccWriteback tile cell => Sys2Proof.Machine.execEccWriteback tile cell s
  | .segOpen agent tile segment => Sys2Proof.Machine.execSegOpen agent tile segment s
  | .segClose agent tile segment => Sys2Proof.Machine.execSegClose agent tile segment s
  | .segOff agent tile segment => Sys2Proof.Machine.execSegOff agent tile segment s
  | .segDrainEnd tile segment => Sys2Proof.Machine.execSegDrainEnd tile segment s
  | .segPowerOffEnd tile segment => Sys2Proof.Machine.execSegPowerOffEnd tile segment s
  | .segInitEnd tile segment => Sys2Proof.Machine.execSegInitEnd tile segment s
  | .sL2CfgWrite agent tile value => Sys2Proof.Machine.execSL2CfgWrite agent tile value s
  | .l2ReconfigDone tile => Sys2Proof.Machine.execL2ReconfigDone tile s
  | .dramRead request flips die => Sys2Proof.Machine.execDramRead request flips die s
  | .dramWrite request => Sys2Proof.Machine.execDramWrite request s
  | .dramPartialWrite request flips die => Sys2Proof.Machine.execDramPartialWrite request flips die s
  | .dramCorrectedRewrite stack off => Sys2Proof.Machine.execDramCorrectedRewrite stack off s
  | .rebuildComplete reached => Sys2Proof.Machine.execRebuildComplete reached s
  | .rowRetire stack channel bank row die read => Sys2Proof.Machine.execRowRetire stack channel bank row die read s
  | .rowRemapSwitch stack channel bank row => Sys2Proof.Machine.execRowRemapSwitch stack channel bank row s
  | .patrolRead tile channel flips die => Sys2Proof.Machine.execPatrolRead tile channel flips die s
  | .refresh stack => Sys2Proof.Machine.execRefresh stack s
  | .stackTempChange stack temps => Sys2Proof.Machine.execStackTempChange stack temps s
  | .zeroingScrubStart unit => Sys2Proof.Machine.execZeroingScrubStart unit s
  | .zeroingScrubEnd unit => Sys2Proof.Machine.execZeroingScrubEnd unit s
  | .packetInject origin => Sys2Proof.Machine.execPacketInject origin s
  | .routerHop router out flit => Sys2Proof.Machine.execRouterHop router out flit s
  | .packetReceive packet => Sys2Proof.Machine.execPacketReceive packet s
  | .queueEntryPublish tile queue => Sys2Proof.Machine.execQueueEntryPublish tile queue s
  | .queuedMessagePlaced tile => Sys2Proof.Machine.execQueuedMessagePlaced tile s
  | .completionReceive packet => Sys2Proof.Machine.execCompletionReceive packet s
  | .queueOpen agent tile queue => Sys2Proof.Machine.execQueueOpen agent tile queue s
  | .queueClose agent tile queue => Sys2Proof.Machine.execQueueClose agent tile queue s
  | .windowOpen agent tile window => Sys2Proof.Machine.execWindowOpen agent tile window s
  | .windowClose agent tile window => Sys2Proof.Machine.execWindowClose agent tile window s
  | .windowCommandApply copy cmd => Sys2Proof.Machine.execWindowCommandApply copy cmd s
  | .windowBusyClear tile => Sys2Proof.Machine.execWindowBusyClear tile s
  | .concContribution tile => Sys2Proof.Machine.execConcContribution tile s
  | .concDelivery tile slot uncorr => Sys2Proof.Machine.execConcDelivery tile slot uncorr s
  | .concNotify tile slot => Sys2Proof.Machine.execConcNotify tile slot s
  | .concCfgWrite agent tile slot value => Sys2Proof.Machine.execConcCfgWrite agent tile slot value s
  | .snArrive agent tile context => Sys2Proof.Machine.execSnArrive agent tile context s
  | .snSet agent tile context => Sys2Proof.Machine.execSnSet agent tile context s
  | .snClear agent tile context => Sys2Proof.Machine.execSnClear agent tile context s
  | .snNoOperation agent tile context => Sys2Proof.Machine.execSnNoOperation agent tile context s
  | .barrierRelease context => Sys2Proof.Machine.execBarrierRelease context s
  | .barArrive port context round => Sys2Proof.Machine.execBarArrive port context round s
  | .barRelease port context round => Sys2Proof.Machine.execBarRelease port context round s
  | .netStall tile port vc => Sys2Proof.Machine.execNetStall tile port vc s
  | .engineStall tile => Sys2Proof.Machine.execEngineStall tile s
  | .cnBroadcast kind offset value => Sys2Proof.Machine.execCnBroadcast kind offset value s
  | .load agent => Sys2Proof.Machine.execLoad agent s
  | .cancel agent => Sys2Proof.Machine.execCancel agent s
  | .discard agent => Sys2Proof.Machine.execDiscard agent s
  | .imageValidationDone => Sys2Proof.Machine.execImageValidationDone s
  | .arm agent hi => Sys2Proof.Machine.execArm agent hi s
  | .quiesceSample => Sys2Proof.Machine.execQuiesceSample s
  | .swap => Sys2Proof.Machine.execSwap s
  | .swapEnd => Sys2Proof.Machine.execSwapEnd s
  | .claim agent kind index => Sys2Proof.Machine.execClaim agent kind index s
  | .release agent kind index => Sys2Proof.Machine.execRelease agent kind index s
  | .cataloguePublish => Sys2Proof.Machine.execCataloguePublish s
  | .hold agent tile => Sys2Proof.Machine.execHold agent tile s
  | .holdRelease agent tile => Sys2Proof.Machine.execHoldRelease agent tile s
  | .opSwitchRequest agent hi => Sys2Proof.Machine.execOpSwitchRequest agent hi s
  | .raiseCheck readings => Sys2Proof.Machine.execRaiseCheck readings s
  | .opSwitch => Sys2Proof.Machine.execOpSwitch s
  | .opSwitchRestart => Sys2Proof.Machine.execOpSwitchRestart s
  | .lowerRampStart => Sys2Proof.Machine.execLowerRampStart s
  | .settlingEnd => Sys2Proof.Machine.execSettlingEnd s
  | .refclkLoss ref => Sys2Proof.Machine.execRefclkLoss ref s
  | .refclkReturn ref => Sys2Proof.Machine.execRefclkReturn ref s
  | .seamAlarm link cn separation => Sys2Proof.Machine.execSeamAlarm link cn separation s
  | .timeSlew => Sys2Proof.Machine.execTimeSlew s
  | .syncPulseOut => Sys2Proof.Machine.execSyncPulseOut s
  | .tsyncInEdge => Sys2Proof.Machine.execTsyncInEdge s
  | .timeReq port t1 => Sys2Proof.Machine.execTimeReq port t1 s
  | .timeResp port t1 t2 t3 => Sys2Proof.Machine.execTimeResp port t1 t2 t3 s
  | .syncSourceLost => Sys2Proof.Machine.execSyncSourceLost s
  | .timSyncCtlWrite agent value => Sys2Proof.Machine.execTimSyncCtlWrite agent value s
  | .timPulseAtWrite agent hi => Sys2Proof.Machine.execTimPulseAtWrite agent hi s
  | .scheduledPulse => Sys2Proof.Machine.execScheduledPulse s
  | .timerArm agent timer hi => Sys2Proof.Machine.execTimerArm agent timer hi s
  | .timerFire timer => Sys2Proof.Machine.execTimerFire timer s
  | .wingOn agent wing => Sys2Proof.Machine.execWingOn agent wing s
  | .wingOff agent wing => Sys2Proof.Machine.execWingOff agent wing s
  | .inrushGrant => Sys2Proof.Machine.execInrushGrant s
  | .wingClockStart wing => Sys2Proof.Machine.execWingClockStart wing s
  | .inrushRelease wing => Sys2Proof.Machine.execInrushRelease wing s
  | .wingPowerUpDone wing sites others bist => Sys2Proof.Machine.execWingPowerUpDone wing sites others bist s
  | .capStep raw => Sys2Proof.Machine.execCapStep raw s
  | .throttleStatus => Sys2Proof.Machine.execThrottleStatus s
  | .calibration measured => Sys2Proof.Machine.execCalibration measured s
  | .railTrip wing amps mv => Sys2Proof.Machine.execRailTrip wing amps mv s
  | .stageTrip rail => Sys2Proof.Machine.execStageTrip rail s
  | .droopOnset wing mv => Sys2Proof.Machine.execDroopOnset wing mv s
  | .droopEnd wing => Sys2Proof.Machine.execDroopEnd wing s
  | .vminRearm agent wing => Sys2Proof.Machine.execVminRearm agent wing s
  | .vbringConnect agent wing bringEn railMv => Sys2Proof.Machine.execVbringConnect agent wing bringEn railMv s
  | .vbringDisconnect write => Sys2Proof.Machine.execVbringDisconnect write s
  | .vbringOvercurrent amps => Sys2Proof.Machine.execVbringOvercurrent amps s
  | .bringEnDeassert => Sys2Proof.Machine.execBringEnDeassert s
  | .ageingCheck wing short => Sys2Proof.Machine.execAgeingCheck wing short s
  | .thermalSample wing temp => Sys2Proof.Machine.execThermalSample wing temp s
  | .thermalCapAdjust => Sys2Proof.Machine.execThermalCapAdjust s
  | .thermalEmergency wing => Sys2Proof.Machine.execThermalEmergency wing s
  | .emergencyEnd wing => Sys2Proof.Machine.execEmergencyEnd wing s
  | .thermalTrip wing sensor temp => Sys2Proof.Machine.execThermalTrip wing sensor temp s
  | .vaux5Apply => Sys2Proof.Machine.execVaux5Apply s
  | .vaux5Loss => Sys2Proof.Machine.execVaux5Loss s
  | .vin48Change applied => Sys2Proof.Machine.execVin48Change applied s
  | .fwAliveTimeout => Sys2Proof.Machine.execFwAliveTimeout s
  | .stageS1 deadWings wires deadRouters => Sys2Proof.Machine.execStageS1 deadWings wires deadRouters s
  | .stageS2 sites withdrawn retired failedDies => Sys2Proof.Machine.execStageS2 sites withdrawn retired failedDies s
  | .stageS3 => Sys2Proof.Machine.execStageS3 s
  | .stageS4 repaired deadSites crcDead => Sys2Proof.Machine.execStageS4 repaired deadSites crcDead s
  | .stageS5 => Sys2Proof.Machine.execStageS5 s
  | .modReset lowNs => Sys2Proof.Machine.execModReset lowNs s
  | .moduleResetCommand agent => Sys2Proof.Machine.execModuleResetCommand agent s
  | .curatorRestart agent => Sys2Proof.Machine.execCuratorRestart agent s
  | .watchdogRestart idleMs => Sys2Proof.Machine.execWatchdogRestart idleMs s
  | .tileReset agent tile => Sys2Proof.Machine.execTileReset agent tile s
  | .tileResetDone tile => Sys2Proof.Machine.execTileResetDone tile s
  | .partitionReset agent partition => Sys2Proof.Machine.execPartitionReset agent partition s
  | .partitionResetAtP => Sys2Proof.Machine.execPartitionResetAtP s
  | .partitionResetDone => Sys2Proof.Machine.execPartitionResetDone s
  | .iftDue tile => Sys2Proof.Machine.execIftDue tile s
  | .iftOverdue tile => Sys2Proof.Machine.execIftOverdue tile s
  | .iftGrant agent partition ms => Sys2Proof.Machine.execIftGrant agent partition ms s
  | .iftStart tile => Sys2Proof.Machine.execIftStart tile s
  | .iftEnd tile outcome => Sys2Proof.Machine.execIftEnd tile outcome s
  | .cnPoll tile => Sys2Proof.Machine.execCnPoll tile s
  | .cnPollTimeout tile => Sys2Proof.Machine.execCnPollTimeout tile s
  | .portTraining port => Sys2Proof.Machine.execPortTraining port s
  | .trainingStepTimeout port step found => Sys2Proof.Machine.execTrainingStepTimeout port step found s
  | .portUp port lanes maxWidth low high serial enc auth => Sys2Proof.Machine.execPortUp port lanes maxWidth low high serial enc auth s
  | .trainingRetry port => Sys2Proof.Machine.execTrainingRetry port s
  | .portStatePublish port => Sys2Proof.Machine.execPortStatePublish port s
  | .frameReceive port frame plain tagOk corr uncorr => Sys2Proof.Machine.execFrameReceive port frame plain tagOk corr uncorr s
  | .nak port ack => Sys2Proof.Machine.execNak port ack s
  | .ackTimeout port => Sys2Proof.Machine.execAckTimeout port s
  | .portDown port => Sys2Proof.Machine.execPortDown port s
  | .keyEpochAdvance port => Sys2Proof.Machine.execKeyEpochAdvance port s
  | .peerId port deviceId valid => Sys2Proof.Machine.execPeerId port deviceId valid s
  | .peerIdReq port => Sys2Proof.Machine.execPeerIdReq port s
  | .retrain agent port => Sys2Proof.Machine.execRetrain agent port s
  | .disable agent port => Sys2Proof.Machine.execDisable agent port s
  | .enable agent port => Sys2Proof.Machine.execEnable agent port s
  | .pcieMemoryRequest write addr len data stream => Sys2Proof.Machine.execPcieMemoryRequest write addr len data stream s
  | .hostLinkRetrain width rate => Sys2Proof.Machine.execHostLinkRetrain width rate s
  | .perstN low => Sys2Proof.Machine.execPerstN low s
  | .surpriseDown => Sys2Proof.Machine.execSurpriseDown s
  | .fnMsgToken fn => Sys2Proof.Machine.execFnMsgToken fn s
  | .fnMsgDoorbell fn => Sys2Proof.Machine.execFnMsgDoorbell fn s
  | .fnMsgDesc fn => Sys2Proof.Machine.execFnMsgDesc fn s
  | .copyDescriptorStart fn channel desc descOk data hostErr => Sys2Proof.Machine.execCopyDescriptorStart fn channel desc descOk data hostErr s
  | .copyDescriptorComplete fn channel => Sys2Proof.Machine.execCopyDescriptorComplete fn channel s
  | .channelReset fn channel => Sys2Proof.Machine.execChannelReset fn channel s
  | .hstMsixRaise agent fn vector => Sys2Proof.Machine.execHstMsixRaise agent fn vector s
  | .mailboxGo agent => Sys2Proof.Machine.execMailboxGo agent s
  | .getVersion => Sys2Proof.Machine.execGetVersion s
  | .getIdentity => Sys2Proof.Machine.execGetIdentity s
  | .fwWrite flashErr => Sys2Proof.Machine.execFwWrite flashErr s
  | .fwCommit flashErr => Sys2Proof.Machine.execFwCommit flashErr s
  | .recoveryBoot flashErr => Sys2Proof.Machine.execRecoveryBoot flashErr s
  | .vbringTest failed => Sys2Proof.Machine.execVbringTest failed s
  | .mailboxComplete => Sys2Proof.Machine.execMailboxComplete s
  | .mctpMessage pcie kind body => Sys2Proof.Machine.execMctpMessage pcie kind body s
  | .getMeasurements indices nonce => Sys2Proof.Machine.execGetMeasurements indices nonce s
  | .ideKmKeyInstall stream => Sys2Proof.Machine.execIdeKmKeyInstall stream s
  | .ideIntegrityFailure stream => Sys2Proof.Machine.execIdeIntegrityFailure stream s
  | .lockInterface vf stream => Sys2Proof.Machine.execLockInterface vf stream s
  | .stopInterface vf => Sys2Proof.Machine.execStopInterface vf s
  | .hstVfBindWrite agent vf value => Sys2Proof.Machine.execHstVfBindWrite agent vf value s
  | .scrubPartition agent partition => Sys2Proof.Machine.execScrubPartition agent partition s
  | .scrubIdle agent => Sys2Proof.Machine.execScrubIdle agent s
  | .siteScrubEnd tile => Sys2Proof.Machine.execSiteScrubEnd tile s
  | .scrubDone partition => Sys2Proof.Machine.execScrubDone partition s
  | .secFenceCheck agent partition => Sys2Proof.Machine.execSecFenceCheck agent partition s
  | .attach agent tile core => Sys2Proof.Machine.execAttach agent tile core s
  | .halt agent tile core => Sys2Proof.Machine.execHalt agent tile core s
  | .resume agent tile core => Sys2Proof.Machine.execResume agent tile core s
  | .step agent tile core => Sys2Proof.Machine.execStep agent tile core s
  | .detach agent tile core => Sys2Proof.Machine.execDetach agent tile core s
  | .debugRead agent space => Sys2Proof.Machine.execDebugRead agent space s
  | .debugWrite agent space => Sys2Proof.Machine.execDebugWrite agent space s
  | .tapInstruction instr resetLow => Sys2Proof.Machine.execTapInstruction instr resetLow s
  | .traceArm agent buffer tile classes => Sys2Proof.Machine.execTraceArm agent buffer tile classes s
  | .counterBankSample bank => Sys2Proof.Machine.execCounterBankSample bank s
  | .eccRateCheck internal => Sys2Proof.Machine.execEccRateCheck internal s
  | .pairedAccessCompare lead => Sys2Proof.Machine.execPairedAccessCompare lead s
  | .fltLogHeadWrite agent value => Sys2Proof.Machine.execFltLogHeadWrite agent value s
  | .registerWrite agent address value => Sys2Proof.Machine.execRegisterWrite agent address value s
  | .timeSyncExchange => Sys2Proof.Machine.execTimeSyncExchange s
  | .voltageSensorSample wing readings => Sys2Proof.Machine.execVoltageSensorSample wing readings s
  | .hoursSinceColdTick => Sys2Proof.Machine.execHoursSinceColdTick s
  | .hostLinkUp width rate => Sys2Proof.Machine.execHostLinkUp width rate s
  | .pcieConfigRequest fn op reg value sinceRelease => Sys2Proof.Machine.execPcieConfigRequest fn op reg value sinceRelease s
  | .startInterface vf => Sys2Proof.Machine.execStartInterface vf s
  | .keyExchange body => Sys2Proof.Machine.execKeyExchange body s
  | .tapReset lowNs => Sys2Proof.Machine.execTapReset lowNs s
  | .snWavefrontArrival context tile => Sys2Proof.Machine.execSnWavefrontArrival context tile s

end Sys2Proof.Machine
end

