-- ==== Sys2Proof/Machine/Tick.lean ====
section
/-! DEFINITION. What passes with time when no command waits (log entry 4). -/

namespace Sys2Proof.Machine

/-- One count of TIME: the wing clocks advance and TIME counts (R331), and each port sends what it has to send (R403). -/
def State.count (s : State) : State := s.tick.portsTick

end Sys2Proof.Machine
end

