-- ==== Sys2Proof/Safety.lean ====
section
/-! DEFINITION. The terms in which claims about runs are stated: what a safe run is, when an instruction of a core issues and how the machine goes
on after it, and when an agent's write reaches the register that it names. -/

namespace Sys2Proof.Machine

/-! ### Runs -/

/-- The outcome is a next state. -/
def Runs (r : Host.Outcome State Fault Refusal) : Prop := ∃ t, r = .next t

/-- The command answers the next state u. -/
def Does (c : Instr) (s u : State) : Prop := exec c s = .next u

/-- n steps from s, all of them to a next state. -/
def SafeFor : Nat → State → Prop
  | 0, _ => True
  | n + 1, s => ∃ t, step s = .next t ∧ SafeFor n t

/-! ### Instructions of cores -/

/-- The word n issues at core c of site t as an instruction that `op` describes: the core may issue (R153, R177, R431), the fetch delivers n (R154,
R166, R229), n is legal (R148, R157) and one of the instruction's words, its guard holds (R156), the registers that it reads or writes await no
access (R177), and what else it waits for is there. u is the state after the fetch. -/
structure Issues (s : State) (t c : Nat) (f : Fetched) (op : CoreOp) (n : Nat) (u : State) : Prop where
  may : (s.settle t c).mayIssue t c = true
  fetched : (s.settle t c).fetch t c f = .word n u
  legal : illegal (kindOf t) n = false
  covered : op.accept n = true
  guarded : guardOk n (u.core t c).p = true
  written : (op.touch n).any (u.core t c).awaits = false
  ready : op.ready u t c n = true

/-- The core goes on at pc. -/
def State.onward (u : State) (t c pc : Nat) : State := (u.modCore t c fun k => { k with pc := pc, atVector := false }).stepIssued t c

/-- The core stays at its pc. -/
def State.stays (u : State) (t c : Nat) : State := (u.modCore t c fun k => { k with atVector := false }).stepIssued t c

/-- The instruction at pc raises an exception. -/
def State.raises (u : State) (t c cause pc val : Nat) : State := (u.takeException t c cause pc val).stepIssued t c

/-- The instructions of cores: the site, the core and what its fetch delivers, and the words that the command covers with their work. Every other
command is none. -/
def coreInstr : Instr → Option (Nat × Nat × Fetched × CoreOp)
  | .aluRegisterOp t c f => some (t, c, f, aluOp)
  | .immediateOp t c f => some (t, c, f, immOp)
  | .li t c f => some (t, c, f, liOp)
  | .mulDiv t c f => some (t, c, f, mulDivOp)
  | .bitOp t c f => some (t, c, f, bitOp)
  | .cmp t c f => some (t, c, f, cmpOp)
  | .cmpi t c f => some (t, c, f, cmpiOp)
  | .predicateOp t c f => some (t, c, f, predicateCoreOp)
  | .br t c f => some (t, c, f, brOp)
  | .brl t c f => some (t, c, f, brlOp)
  | .jr t c f => some (t, c, f, jrOp)
  | .nop t c f => some (t, c, f, nopOp)
  | .endOp t c f => some (t, c, f, endCoreOp)
  | .wfe t c f => some (t, c, f, wfeOp)
  | .ld t c f => some (t, c, f, ldOp)
  | .st t c f => some (t, c, f, stOp)
  | .amo t c f => some (t, c, f, amoOp)
  | .fence t c f => some (t, c, f, fenceOp)
  | .fenceI t c f => some (t, c, f, fenceIOp)
  | .clean t c f => some (t, c, f, lineOp 2 fun s t c a => s.cleanBy t c a)
  | .inval t c f => some (t, c, f, lineOp 3 fun s t c a => s.inval t c a)
  | .flush t c f => some (t, c, f, lineOp 4 fun s t c a => (s.cleanBy t c a).inval t c a)
  | .csrr t c f => some (t, c, f, csrxOp 0)
  | .csrw t c f => some (t, c, f, csrxOp 1)
  | .csrs t c f => some (t, c, f, csrxOp 2)
  | .csrc t c f => some (t, c, f, csrxOp 3)
  | .rdtime t c f => some (t, c, f, rdtimeOp)
  | .rdcore t c f => some (t, c, f, rdcoreOp)
  | .trap t c f => some (t, c, f, trapOp)
  | .breakOp t c f => some (t, c, f, breakOp)
  | .tret t c f => some (t, c, f, tretOp)
  | .idle t c f => some (t, c, f, idleOp)
  | .svget t c f => some (t, c, f, svgetOp)
  | .svset t c f => some (t, c, f, svsetOp)
  | .svswap t c f => some (t, c, f, svswapOp)
  | .xlinv t c f => some (t, c, f, xlinvOp)
  | .tkSet t c f => some (t, c, f, tkSetOp)
  | .tkAdd t c f => some (t, c, f, tkAddOp)
  | .tkTake t c f => some (t, c, f, tkTakeOp)
  | .tkRead t c f => some (t, c, f, tkReadOp)
  | .engWait t c f => some (t, c, f, engWaitOp)
  | .engNotify t c f => some (t, c, f, engNotifyOp)
  | .tdSet t c f => some (t, c, f, tdSetOp)
  | .tdGetlo t c f => some (t, c, f, tdGetloOp)
  | .tdGethi t c f => some (t, c, f, tdGethiOp)
  | .tdAddr t c f => some (t, c, f, tdAddrOp)
  | .ahSet t c f => some (t, c, f, ahSetOp)
  | .ahGet t c f => some (t, c, f, ahGetOp)
  | .mm t c f => some (t, c, f, mmOp)
  | .cbLoad t c f => some (t, c, f, cbLoadOp)
  | .dr t c f => some (t, c, f, drOp)
  | .accScale t c f => some (t, c, f, accOp 0)
  | .smInit t c f => some (t, c, f, accOp 1)
  | .smStore t c f => some (t, c, f, accOp 2)
  | .smLoad t c f => some (t, c, f, accOp 3)
  | .stepClose t c f => some (t, c, f, accOp 4)
  | .accDrop t c f => some (t, c, f, accOp 5)
  | .actLoad t c f => some (t, c, f, accOp 6)
  | .fxLoad t c f => some (t, c, f, fxOp 0)
  | .fxStore t c f => some (t, c, f, fxOp 1)
  | .fxWload t c f => some (t, c, f, fxOp 2)
  | .fxWstore t c f => some (t, c, f, fxOp 3)
  | .msgDesc t c f => some (t, c, f, msgOp 0)
  | .msgData t c f => some (t, c, f, msgOp 1)
  | .msgConc t c f => some (t, c, f, msgOp 2)
  | .msgToken t c f => some (t, c, f, msgOp 3)
  | .msgDoorbell t c f => some (t, c, f, msgOp 4)
  | .qcnt t c f => some (t, c, f, qcntOp)
  | .qhead t c f => some (t, c, f, qheadOp)
  | .qpop t c f => some (t, c, f, qpopOp)
  | .qnotify t c f => some (t, c, f, qnotifyOp)
  | .vectorFp32 t c f => some (t, c, f, vectorFp32Op)
  | .vectorBf16 t c f => some (t, c, f, vectorBf16Op)
  | .vectorInteger t c f => some (t, c, f, vectorIntegerOp)
  | .laneMove t c f => some (t, c, f, laneMoveOp)
  | .vq t c f => some (t, c, f, vqOp)
  | .vx t c f => some (t, c, f, vxOp)
  | .vcvtI2f t c f => some (t, c, f, vcvtI2fOp)
  | .vcvtF2i t c f => some (t, c, f, vcvtF2iOp)
  | .specialFunction t c f => some (t, c, f, specialOp)
  | .vld t c f => some (t, c, f, vmemOp 0)
  | .vst t c f => some (t, c, f, vmemOp 1)
  | .vldC t c f => some (t, c, f, vmemOp 2)
  | .vstC t c f => some (t, c, f, vmemOp 3)
  | .vgather t c f => some (t, c, f, scatterOp 0)
  | .vscatter t c f => some (t, c, f, scatterOp 1)
  | .vscatterAdd t c f => some (t, c, f, scatterOp 2)
  | .vsort t c f => some (t, c, f, vsortOp)
  | .vtopk t c f => some (t, c, f, vtopkOp)
  | _ => none

/-- Once it issues, the command's instruction has the effect `eff` and the core goes on after the word. -/
def CompletesWith (i : Nat → Nat → Fetched → Instr) (op : CoreOp) (eff : State → Nat → Nat → Nat → State) : Prop :=
  ∀ (t c n : Nat) (f : Fetched) (s u : State), Issues s t c f op n u →
    exec (i t c f) s = .next ((eff u t c n).onward t c (nextPc (u.core t c).pc n))

/-- Once it issues, the command's instruction writes a value to its s register d, and the core goes on after the word. -/
def WritesD (i : Nat → Nat → Fetched → Instr) (op : CoreOp) (value : State → Nat → Nat → Nat → BitVec 64) : Prop :=
  CompletesWith i op fun u t c n => u.setS t c (dOf n) (value u t c n)

/-- Once it issues, the command's instruction writes lanes to its v register d, and the core goes on after the word. -/
def WritesV (i : Nat → Nat → Fetched → Instr) (op : CoreOp) (lanes : State → Nat → Nat → Nat → List (BitVec 32)) : Prop :=
  CompletesWith i op fun u t c n => u.setVreg t c (dOf n) (lanes u t c n)

/-- Once it issues, the command's instruction writes to its s register d a value that keeps the rule, and the core goes on after the word. -/
def WritesSuch (i : Nat → Nat → Fetched → Instr) (op : CoreOp) (rule : State → Nat → Nat → Nat → BitVec 64 → Prop) : Prop :=
  ∀ (t c n : Nat) (f : Fetched) (s u : State), Issues s t c f op n u →
    ∃ v, exec (i t c f) s = .next ((u.setS t c (dOf n) v).onward t c (nextPc (u.core t c).pc n)) ∧ rule u t c n v

/-- Once it issues, the command's instruction does what the rule says. -/
def OnIssue (i : Nat → Nat → Fetched → Instr) (op : CoreOp) (rule : State → Nat → Nat → Nat → Result → Prop) : Prop :=
  ∀ (t c n : Nat) (f : Fetched) (s u : State), Issues s t c f op n u → rule u t c n (exec (i t c f) s)

/-- R186: the instruction is at the tail of its engine's queue, with the values of the s and t registers that it names. -/
def State.dispatched (u : State) (t c n : Nat) (e : Engine) (ss ts : List Nat) : State :=
  (u.modCore t c fun k => { k with nextAccess := k.nextAccess + 1 }).dispatch t e ((u.core t c).capture c n ss ts)

/-- Once it issues, the command's instruction is dispatched to an engine, and the core goes on after the word. -/
def Dispatches (i : Nat → Nat → Fetched → Instr) (op : CoreOp) (e : Engine) (ss ts : Nat → List Nat) : Prop :=
  CompletesWith i op fun u t c n => u.dispatched t c n e (ss n) (ts n)

/-- A supervisor instruction in user mode raises PRIVILEGED with the lower word as its value (R178, R181). -/
def Privileged (i : Nat → Nat → Fetched → Instr) (op : CoreOp) : Prop :=
  ∀ (t c n : Nat) (f : Fetched) (s u : State), Issues s t c f op n u → u.userMode t c = true →
    exec (i t c f) s = .next (u.raises t c 2 (u.core t c).pc (lowerOf n))

/-! ### Writes of agents -/

/-- The agent's write reaches a device register and has its effect (R310, R384, R413). -/
def State.Granted (s : State) (a : Agent) (address : Nat) : Prop :=
  s.pins.vaux5 = true ∧ s.vfOut a = false ∧ s.mayWriteBlock a (address / 0x100000) = true ∧ s.cur.restarting = false

/-- The agent's write of a register that a rule of its own guards reaches it (R310, R384, R413). -/
def State.OpenTo (s : State) (a : Agent) : Prop := s.pins.vaux5 = true ∧ s.cur.restarting = false ∧ s.vfOut a = false

/-- The agent's write reaches a register of site t and has its effect (R297, R310, R413, R440). -/
def State.Reached (s : State) (a : Agent) (t : Nat) : Prop :=
  s.vfOut a = false ∧ s.mayReachTile a t = true ∧ s.siteReached a t = true ∧ s.addressable a t = true

end Sys2Proof.Machine
end

