-- ==== Sys2Proof/Certificates/Slice0/Obligations.lean ====
section
/-! DEFINITION. The statements for the provers: what the numbered rules of the specification and the other sections of the model say that the block does. -/

open Sys2Proof Sys2Proof.Machine

/-- For every command c and state s with c at the front of its queue, a step of s is exec of c on s with the queue's rest.
(spec/95_what_each_step_holds.md, spec/00_scope.md.) -/
def Obligations.StepTakesTheFrontCommand : Prop :=
    ∀ (c : Instr) (rest : List Instr) (s : State), s.pending = c :: rest → step s = exec c { s with pending := rest }

/-- With no command waiting, a step answers the state after one count: the model's own tick, a choice of the model that log entry 4 names.
(spec/13_clocks_and_time.md, R331.) -/
def Obligations.IdleStepCountsTime : Prop :=
    ∀ s : State, s.pending = [] → step s = .next s.count

/-- For each of the 312 commands, whatever its operands, and for every state, exec answers a next state: no command ends in a fault or a refusal.
(spec/95_what_each_step_holds.md.) -/
def Obligations.EveryCommandAnswers : Prop :=
    ∀ (i : Instr) (s : State), Runs (exec i s)

/-- For every state s, if a step of s answers s', then the fuses of s' are those of s (R426: no command changes what is fixed at manufacture), and its
queue is that of s without the front command. This holds for all 312 commands and for the tick. (R426, R27.) -/
def Obligations.StepsKeepQueueAndFuses : Prop :=
    ∀ s s' : State, step s = .next s' → s'.fuses = s.fuses ∧ s'.pending = s.pending.tail

/-- For every device and tile register of the table, every field and every bit i of it: a write of w to a register that holds v leaves an RO, RSV and WO
bit (a WO field holds no value), sets an RW bit to that of w where the field's table defines w's value (R8) and leaves it otherwise, clears a W1C
bit and sets a W1S bit where w has a 1; a read returns the bit, and 0 for WO and RSV. (R6, R8.) -/
def Obligations.RegistersFollowAccessCodes : Prop :=
    ∀ d ∈ devRegDefs ++ tileRegDefs, ∀ f ∈ d.fields, ∀ (w v : BitVec 32) (i : Nat), f.lo ≤ i → i ≤ f.hi →
    ((d.write w v).getLsbD i = match f.acc with
      | .rw => if f.defines (f.get w) then w.getLsbD i else v.getLsbD i
      | .w1c => v.getLsbD i && !w.getLsbD i
      | .w1s => v.getLsbD i || w.getLsbD i
      | .ro | .wo | .rsv => v.getLsbD i) ∧
    ((d.read v).getLsbD i = match f.acc with
      | .wo | .rsv => false
      | .ro | .rw | .w1c | .w1s => v.getLsbD i)

/-- At reset every s, v and t register and handle of every core is 0, pc is 0, p0 is 1 and p1 to p7 are 0, the supervisor registers hold the values of
R182 (SV_STATE and SV_SAVED 2, SV_TIMER all ones, the others 0), the event flags and the token counters are 0, TILE_STATE shows the cores of each
kind, the program store and vitrine hold zeros, and no command waits. For every core: s0 reads 0 and p0 reads 1 whatever was written to them; any
other s register or predicate reads what was written to it, and a write to one leaves all the others, the pc and the vector, descriptor and
supervisor registers unchanged. (R149, R152, R154, R182, R217, R150, R165.) -/
def Obligations.ResetAndScalarRegisters : Prop :=
    (State.reset.pending = [] ∧
     (∀ t c : Nat, let k := State.reset.core t c
       k.pc = 0 ∧ (∀ r, k.getS r = 0) ∧ (∀ i, k.pred i = decide (i % 8 = 0)) ∧ (∀ r i, k.lane r i = 0) ∧ (∀ i, k.tReg i = 0) ∧
       (∀ i, k.aReg i = 0) ∧
       (∀ n, n < 12 → (k.svReg n).toNat = if n = 0 ∨ n = 1 then 2 else if n = 10 then 2 ^ 64 - 1 else 0)) ∧
     (∀ t : Nat, (State.reset.treg t R.TILE_STATE).toNat =
       match kindOf t with | .m => 0x7770 | .v => 0x7770 | .s => 0 | .mi => 0x7777) ∧
     (∀ t c : Nat, c < 4 → State.reset.event t c = false) ∧ (∀ t k : Nat, k < 16 → State.reset.token t k = 0) ∧
     (∀ t i : Nat, State.reset.progWord t i = 0) ∧ (∀ t i : Nat, (State.reset.site t).readCell i = 0)) ∧
    (∀ (k : Core) (r q : Nat) (v : BitVec 64) (b : Bool), r < 32 → q < 8 →
     k.getS 0 = 0 ∧ k.pred 0 = true ∧ (k.setS r v).getS r = (if r = 0 then 0 else v) ∧
     (∀ r', r' < 32 → r' ≠ r → (k.setS r v).getS r' = k.getS r') ∧ k.setS r v = { k with s := (k.setS r v).s } ∧
     (k.setPred q b).pred q = (if q = 0 then true else b) ∧
     (∀ q', q' < 8 → q' ≠ q → (k.setPred q b).pred q' = k.pred q') ∧ k.setPred q b = { k with p := (k.setPred q b).p })

/-- For every instruction of a core: where it is fetched, is legal and the command names it, and its guard predicate equals its polarity bit, exec
answers the state after the fetch with the core's pc after the word (modulo 2^64); the trap-entry mark and a pending single step, which note that an
instruction issued, are the model's own. (R156.) -/
def Obligations.GuardedWordsPassOver : Prop :=
    ∀ (i : Instr) (t c n : Nat) (f : Fetched) (op : CoreOp) (s u : State), coreInstr i = some (t, c, f, op) →
    (s.settle t c).mayIssue t c = true → (s.settle t c).fetch t c f = .word n u → illegal (kindOf t) n = false → op.accept n = true →
    (u.core t c).pred (fieldOf n 9 7) = n.testBit 10 →
    exec i s = .next (u.onward t c (((u.core t c).pc + if n % 2 = 1 then 8 else 4) % 2 ^ 64))

/-- For every instruction of a core: where the core is STOPPED, WAITING, ENDING, FAULTED, HALTED or ABSENT once what it waits for has been looked at, or
its site is in a reset, the command has no effect. For every instruction of a core that may issue: a pc that is not a multiple of 4 raises
MISALIGNED_PC with the pc; in an M- or V-tile a pc at or above 0x2_0000 raises PC_RANGE with the pc, and an uncorrectable error in the first word
FETCH_ECC with its address. For every instruction of a core: where the fetched word is illegal on the site's kind, exec answers the state in which
exception 1 is raised at the pc, whose value is the lower word, whatever the guard and the operands. (R153, R167, R180, R386, R431, R154, R166,
R178, R179, R148, R157.) -/
def Obligations.ReasonsNotToIssue : Prop :=
    (∀ (i : Instr) (t c : Nat) (f : Fetched) (op : CoreOp) (s : State), coreInstr i = some (t, c, f, op) →
     ((s.settle t c).coreState t c ≠ 1 ∨ (s.settle t c).tbit t R.TILE_RESET 31 = true) → exec i s = .next s) ∧
    (∀ (i : Instr) (t c : Nat) (f : Fetched) (op : CoreOp) (s : State), coreInstr i = some (t, c, f, op) →
     (s.settle t c).mayIssue t c = true →
     let u := s.settle t c
     let pc := (u.core t c).pc
     (pc % 4 ≠ 0 → exec i s = .next (u.raises t c 3 pc pc)) ∧
     (pc % 4 = 0 → kindOf t ≠ .s → 0x20000 ≤ pc → exec i s = .next (u.raises t c 4 pc pc)) ∧
     (pc % 4 = 0 → kindOf t ≠ .s → pc < 0x20000 → f = .ecc 0 → exec i s = .next (u.raises t c 5 pc pc))) ∧
    (∀ (i : Instr) (t c n : Nat) (f : Fetched) (op : CoreOp) (s u : State), coreInstr i = some (t, c, f, op) →
     (s.settle t c).mayIssue t c = true → (s.settle t c).fetch t c f = .word n u → illegal (kindOf t) n = true →
     exec i s = .next (u.raises t c 1 (u.core t c).pc (n % 2 ^ 32)))

/-- For every core and every trap of kind 0 (exception) or 1 (interrupt): pc becomes the vector base plus 0x000 or 0x200, plus 0x100 when taken in
supervisor mode; SV_RETPC, SV_CAUSE, SV_FAULTVAL and SV_SAVED take the pc, the kind and code, the value, and the mode and ien; the core is in
supervisor mode with ien 0. TRET takes pc, mode and ien from SV_RETPC and SV_SAVED and leaves SV_SAVED. An exception of a scalar core is such a trap
unless the core stands at a vector entry. (R183.) -/
def Obligations.TrapEntry : Prop :=
    (∀ (s : State) (t c kind code pc val : Nat), kind < 2 → code < 64 → pc < 2 ^ 64 → pc % 4 = 0 →
      let k := s.core t c
      let k' := (s.trap t c kind code pc val).core t c
      k'.pc = (k.svReg 2).toNat / 4096 * 4096 + kind * 0x200 + (if k.supervisor then 0x100 else 0) ∧
      k'.svReg 3 = BitVec.ofNat 64 pc ∧ k'.svReg 4 = BitVec.ofNat 64 (kind * 256 + code) ∧ k'.svReg 5 = BitVec.ofNat 64 val ∧
      (k'.svReg 1).getLsbD 1 = k.supervisor ∧ (k'.svReg 1).getLsbD 0 = (k.svReg 0).getLsbD 0 ∧
      k'.supervisor = true ∧ (k'.svReg 0).getLsbD 0 = false ∧ ∀ r, k'.getS r = k.getS r) ∧
    (∀ (s : State) (t c : Nat),
      let k := s.core t c
      let k' := (s.trapReturn t c).core t c
      k'.pc = (k.svReg 3).toNat / 4 * 4 ∧ k'.supervisor = (k.svReg 1).getLsbD 1 ∧
      (k'.svReg 0).getLsbD 0 = (k.svReg 1).getLsbD 0 ∧ k'.svReg 1 = k.svReg 1) ∧
    (∀ (s : State) (t c cause pc val : Nat), kindOf t = .s → (s.core t c).atVector = false →
      s.takeException t c cause pc val = s.trap t c 0 cause pc val) ∧
    (∀ (s : State) (t c cause pc val : Nat), (kindOf t ≠ .s ∨ (s.core t c).atVector = true) →
      s.takeException t c cause pc val = s.toFault t c cause pc val)

/-- Wherever ALU_REGISTER_OP issues, exec answers the next state in which s[d] holds the value of R160 for the function of the word and the values a, b
of s[sa] and s[sb] (as unsigned or signed numbers), nothing else of the state after the fetch is changed, and the pc is that after the word. A write
to s0 is discarded (State.setS, ScalarRegisters). (R160.) -/
def Obligations.AluRegisterResults : Prop :=
    WritesSuch .aluRegisterOp aluOp fun u t c n v =>
    let a := u.sreg t c (saOf n)
    let b := u.sreg t c (sbOf n)
    let sh := b.toNat % 64
    (fnOf n = 1 → v.toNat = (a.toNat + b.toNat) % 2 ^ 64) ∧
    (fnOf n = 2 → v.toNat = (a.toNat + (2 ^ 64 - b.toNat)) % 2 ^ 64) ∧
    (fnOf n = 3 → ∀ i, v.getLsbD i = (a.getLsbD i && b.getLsbD i)) ∧
    (fnOf n = 4 → ∀ i, v.getLsbD i = (a.getLsbD i || b.getLsbD i)) ∧
    (fnOf n = 5 → ∀ i, v.getLsbD i = (a.getLsbD i != b.getLsbD i)) ∧
    (fnOf n = 6 → ∀ i, v.getLsbD i = (a.getLsbD i && !b.getLsbD i)) ∧
    (fnOf n = 7 → v.toNat = a.toNat * 2 ^ sh % 2 ^ 64) ∧
    (fnOf n = 8 → v.toNat = a.toNat / 2 ^ sh) ∧
    (fnOf n = 9 → v.toInt = a.toInt / 2 ^ sh) ∧
    (fnOf n = 10 → v.toInt = min a.toInt b.toInt) ∧
    (fnOf n = 11 → v.toInt = max a.toInt b.toInt) ∧
    (fnOf n = 12 → v.toNat = min a.toNat b.toNat) ∧
    (fnOf n = 13 → v.toNat = max a.toNat b.toNat) ∧
    (fnOf n = 14 → v.toNat = if a.toInt < b.toInt then 1 else 0) ∧
    (fnOf n = 15 → v.toNat = if a.toNat < b.toNat then 1 else 0) ∧
    (fnOf n = 16 → v.toInt = ((a.toNat + b.toNat : Nat) : Int).bmod (2 ^ 32)) ∧
    (fnOf n = 17 → v.toInt = ((a.toNat : Int) - (b.toNat : Int)).bmod (2 ^ 32)) ∧
    1 ≤ fnOf n ∧ fnOf n ≤ 17

/-- Wherever IMMEDIATE_OP or LI issues, exec answers the next state in which s[d] holds the value of R161 for the group and form of the word; the
immediate is imm11 sign-extended, or the upper word sign-extended in the 64-bit form. Bits [10:6] of imm11 are 0 in groups 0x05 to 0x07, and sa is 0
in LI.S and LI.Z, because another word is illegal. (R161.) -/
def Obligations.ImmediateResults : Prop :=
    WritesSuch .immediateOp immOp (fun u t c n v =>
    let a := u.sreg t c (saOf n)
    let imm : Int := if insnLong n then (upperOf n : Int).bmod (2 ^ 32) else (fieldOf n 31 21 : Int).bmod (2 ^ 11)
    let w := BitVec.ofInt 64 imm
    let sh := fieldOf n 26 21
    (insnGroup n = 1 → v.toInt = (a.toInt + imm).bmod (2 ^ 64)) ∧
    (insnGroup n = 2 → ∀ i, v.getLsbD i = (a.getLsbD i && w.getLsbD i)) ∧
    (insnGroup n = 3 → ∀ i, v.getLsbD i = (a.getLsbD i || w.getLsbD i)) ∧
    (insnGroup n = 4 → ∀ i, v.getLsbD i = (a.getLsbD i != w.getLsbD i)) ∧
    (insnGroup n = 5 → v.toNat = a.toNat * 2 ^ sh % 2 ^ 64) ∧
    (insnGroup n = 6 → v.toNat = a.toNat / 2 ^ sh) ∧
    (insnGroup n = 7 → v.toInt = a.toInt / 2 ^ sh) ∧
    1 ≤ insnGroup n ∧ insnGroup n ≤ 7 ∧ (5 ≤ insnGroup n → fieldOf n 31 27 = 0 ∧ insnLong n = false)) ∧
  WritesSuch .li liOp (fun u t c n v =>
    let a := u.sreg t c (saOf n)
    (insnLong n = false → v.toInt = (fieldOf n 31 16 : Int).bmod (2 ^ 16)) ∧
    (insnLong n = true → fieldOf n 31 21 = 0 → v.toInt = (upperOf n : Int).bmod (2 ^ 32) ∧ saOf n = 0) ∧
    (insnLong n = true → fieldOf n 31 21 = 1 → v.toNat = upperOf n % 2 ^ 64 ∧ saOf n = 0) ∧
    (insnLong n = true → fieldOf n 31 21 = 2 → v.toNat = (2 ^ 32 * upperOf n + a.toNat % 2 ^ 32) % 2 ^ 64) ∧
    (insnLong n = true → fieldOf n 31 21 ≤ 2))

/-- Wherever MUL_DIV issues, exec answers the next state in which s[d] holds the value of R162: the low or high half of the exact product, the quotient
truncated towards zero and its remainder, all ones and sa for a divisor of 0, and −2^63 and 0 for −2^63 by −1. Wherever BIT_OP issues, exec answers
the next state in which s[d] holds the value of R163: the number of leading zeros, trailing zeros (64 for 0) or set bits of sa, its bytes in reverse
order, or its low byte, half or word extended. sb is 0 in every legal word. (R162, R163.) -/
def Obligations.MulDivAndBitResults : Prop :=
    (WritesSuch .mulDiv mulDivOp fun u t c n v =>
     let a := u.sreg t c (saOf n)
     let b := u.sreg t c (sbOf n)
     (fnOf n = 0 → v.toNat = a.toNat * b.toNat % 2 ^ 64) ∧
     (fnOf n = 1 → v.toInt = a.toInt * b.toInt / 2 ^ 64) ∧
     (fnOf n = 2 → v.toNat = a.toNat * b.toNat / 2 ^ 64) ∧
     (fnOf n = 3 → v.toInt = ((a.toNat * b.toNat : Nat) : Int).bmod (2 ^ 32)) ∧
     (fnOf n = 4 → b.toNat ≠ 0 → ¬(a.toInt = -2 ^ 63 ∧ b.toInt = -1) → v.toInt = a.toInt.tdiv b.toInt) ∧
     (fnOf n = 4 → a.toInt = -2 ^ 63 → b.toInt = -1 → v.toInt = -2 ^ 63) ∧
     (fnOf n = 4 ∨ fnOf n = 5 → b.toNat = 0 → v.toNat = 2 ^ 64 - 1) ∧
     (fnOf n = 5 → b.toNat ≠ 0 → v.toNat = a.toNat / b.toNat) ∧
     (fnOf n = 6 → b.toNat ≠ 0 → v.toInt = a.toInt.tmod b.toInt) ∧
     (fnOf n = 6 ∨ fnOf n = 7 → b.toNat = 0 → v = a) ∧
     (fnOf n = 7 → b.toNat ≠ 0 → v.toNat = a.toNat % b.toNat) ∧
     fnOf n ≤ 7) ∧
    (WritesSuch .bitOp bitOp fun u t c n v =>
     let a := u.sreg t c (saOf n)
     (fnOf n = 0 ∨ fnOf n = 1 → a.toNat = 0 → v.toNat = 64) ∧
     (fnOf n = 0 → a.toNat ≠ 0 → v.toNat < 64 ∧ 2 ^ (63 - v.toNat) ≤ a.toNat ∧ a.toNat < 2 ^ (64 - v.toNat)) ∧
     (fnOf n = 1 → a.toNat ≠ 0 → v.toNat < 64 ∧ a.getLsbD v.toNat = true ∧ ∀ i, i < v.toNat → a.getLsbD i = false) ∧
     (fnOf n = 2 → v.toNat = ((List.range 64).filter fun i => a.getLsbD i).length) ∧
     (fnOf n = 3 → ∀ i, i < 8 → v.extractLsb' (8 * i) 8 = a.extractLsb' (8 * (7 - i)) 8) ∧
     (fnOf n = 4 → v.toInt = (a.toNat : Int).bmod (2 ^ 8)) ∧
     (fnOf n = 5 → v.toInt = (a.toNat : Int).bmod (2 ^ 16)) ∧
     (fnOf n = 6 → v.toInt = (a.toNat : Int).bmod (2 ^ 32)) ∧
     (fnOf n = 7 → v.toNat = a.toNat % 2 ^ 8) ∧
     (fnOf n = 8 → v.toNat = a.toNat % 2 ^ 16) ∧
     (fnOf n = 9 → v.toNat = a.toNat % 2 ^ 32) ∧
     fnOf n ≤ 9 ∧ sbOf n = 0)

/-- Wherever CMP or CMPI issues, exec answers the next state in which predicate pd holds r, pd and r, or pd or r by comb, where r is the condition of
R164 between s[sa] and s[sb] (bits [29:25]) or the immediate (7 bits, or the upper word, sign-extended); nothing else changes. p0 keeps reading 1.
(R164.) -/
def Obligations.Compares : Prop :=
    let other : State → Nat → Nat → Nat → BitVec 64 := fun u t c n =>
      if insnGroup n = 0x0A then u.sreg t c (fieldOf n 29 25)
      else BitVec.ofInt 64 (if insnLong n then (upperOf n : Int).bmod (2 ^ 32) else (fieldOf n 31 25 : Int).bmod (2 ^ 7))
    let rule : State → Nat → Nat → Nat → Result → Prop := fun u t c n x =>
      let a := u.sreg t c (saOf n)
      let b := other u t c n
      let pd := fieldOf n 13 11
      let old := (u.core t c).pred pd
      ∃ r : Bool,
        x = .next ((u.modCore t c fun k => k.setPred pd
          (match fieldOf n 15 14 with | 0 => r | 1 => old && r | _ => old || r)).onward t c (nextPc (u.core t c).pc n)) ∧
        (fieldOf n 24 21 = 0 → (r = true ↔ a = b)) ∧ (fieldOf n 24 21 = 1 → (r = true ↔ a ≠ b)) ∧
        (fieldOf n 24 21 = 2 → (r = true ↔ a.toInt < b.toInt)) ∧ (fieldOf n 24 21 = 3 → (r = true ↔ b.toInt ≤ a.toInt)) ∧
        (fieldOf n 24 21 = 4 → (r = true ↔ a.toNat < b.toNat)) ∧ (fieldOf n 24 21 = 5 → (r = true ↔ b.toNat ≤ a.toNat)) ∧
        (fieldOf n 24 21 = 6 → (r = true ↔ ∃ i, a.getLsbD i = true ∧ b.getLsbD i = true)) ∧
        (fieldOf n 24 21 = 7 → (r = true ↔ ¬∃ i, a.getLsbD i = true ∧ b.getLsbD i = true)) ∧
        fieldOf n 24 21 ≤ 7 ∧ fieldOf n 15 14 ≤ 2 ∧
        (∀ q, ((u.core t c).setPred pd (match fieldOf n 15 14 with | 0 => r | 1 => old && r | _ => old || r)).pred q =
          if q % 8 = 0 then true else if q % 8 = pd then (match fieldOf n 15 14 with | 0 => r | 1 => old && r | _ => old || r)
          else (u.core t c).pred q)
    OnIssue .cmp cmpOp rule ∧ OnIssue .cmpi cmpiOp rule

/-- Wherever PREDICATE_OP issues, exec answers the next state in which the core has, by the function of the word: pd set to the function of pa and pb;
s[y] set to the mask of the predicates; or p1 to p7 set to the bits of s[x], and nothing else changed. (R165.) -/
def Obligations.PredicateOps : Prop :=
    OnIssue .predicateOp predicateCoreOp fun u t c n x =>
    let k := u.core t c
    let op := fieldOf n 31 28
    let a := k.pred (saOf n)
    let b := k.pred (fieldOf n 23 21)
    ∃ k', x = .next ((u.modCore t c fun _ => k').onward t c (nextPc k.pc n)) ∧
      (op = 0 → k' = k.setPred (dOf n) (a && b)) ∧ (op = 1 → k' = k.setPred (dOf n) (a || b)) ∧
      (op = 2 → k' = k.setPred (dOf n) (a != b)) ∧ (op = 3 → k' = k.setPred (dOf n) (a && !b)) ∧
      (op = 4 → ∃ v : BitVec 64, k' = k.setS (dOf n) v ∧ ∀ i, v.getLsbD i = (decide (i < 8) && k.pred i)) ∧
      (op = 5 → k' = { k with p := k'.p } ∧ ∀ i, 1 ≤ i → i < 8 → k'.pred i = (k.getS (saOf n)).getLsbD i) ∧
      op ≤ 5 ∧ (op < 4 → saOf n < 8 ∧ dOf n < 8) ∧ (op = 4 → fieldOf n 23 21 = 0 ∧ saOf n = 0) ∧
      (op = 5 → fieldOf n 23 21 = 0 ∧ dOf n = 0)

/-- Wherever a branch issues: BR goes to pc + 4 × off modulo 2^64, off being 16 bits or the upper word sign-extended; BRL goes there too and writes the
address of the next instruction to s[d]; JR goes to s[sa] + 4 × imm11, with the link, if that is a multiple of 4, and otherwise raises MISALIGNED_PC
(3) at the JR with the target as its value and writes no register. (R166, R155, R178.) -/
def Obligations.Branches : Prop :=
    let off : Nat → Int := fun n => if insnLong n then (upperOf n : Int).bmod (2 ^ 32) else (fieldOf n 31 16 : Int).bmod (2 ^ 16)
    OnIssue .br brOp (fun u t c n x => ∃ target : Nat, target < 2 ^ 64 ∧
      ((target : Int) - ((u.core t c).pc + 4 * off n)) % 2 ^ 64 = 0 ∧ x = .next (u.onward t c target)) ∧
    OnIssue .brl brlOp (fun u t c n x => ∃ target : Nat, target < 2 ^ 64 ∧
      ((target : Int) - ((u.core t c).pc + 4 * off n)) % 2 ^ 64 = 0 ∧
      x = .next ((u.setS t c (dOf n) (BitVec.ofNat 64 (nextPc (u.core t c).pc n))).onward t c target)) ∧
    OnIssue .jr jrOp (fun u t c n x => ∃ target : Nat, target < 2 ^ 64 ∧
      ((target : Int) - ((u.sreg t c (saOf n)).toNat + 4 * (fieldOf n 31 21 : Int).bmod (2 ^ 11))) % 2 ^ 64 = 0 ∧
      (target % 4 = 0 → x = .next ((u.setS t c (dOf n) (BitVec.ofNat 64 (nextPc (u.core t c).pc n))).onward t c target)) ∧
      (target % 4 ≠ 0 → x = .next (u.raises t c 3 (u.core t c).pc target))) ∧
    ∀ pc n : Nat, pc + 8 < 2 ^ 64 → nextPc pc n = pc + if n % 2 = 1 then 8 else 4

/-- NOP does nothing; END makes the core ENDING and IDLE makes it WAITING unless an enabled interrupt is pending, and both raise PRIVILEGED in the user
mode of a scalar core; WFE clears a set event flag and goes on, or makes the core WAITING with the timeout that s[sa] gives; TRAP raises TRAP_U or
TRAP_S; BREAK raises BREAK, or halts an attached core. RDTIME and RDCORE write the site's copy of TIME and the source number to s[d]. In supervisor
mode TRET goes to SV_RETPC with mode and ien restored, SVGET reads register n, SVSET writes s[sa] to its writable bits, SVSWAP does both with the
old value read first, and XLINV discards the translations that its d names; in user mode each raises PRIVILEGED. (R153, R167, R176, R180, R181,
R184, R182, R183, R237.) -/
def Obligations.ControlAndSystemOps : Prop :=
    (CompletesWith .nop nopOp (fun u _ _ _ => u) ∧
     OnIssue .endOp endCoreOp (fun u t c n x =>
       (u.userMode t c = false → x = .next ((u.setCoreState t c 3).stays t c)) ∧
       (u.userMode t c = true → x = .next (u.raises t c 2 (u.core t c).pc (n % 2 ^ 32)))) ∧
     OnIssue .wfe wfeOp (fun u t c n x =>
       (u.event t c = true → x = .next ((u.setTbit t R.TILE_STATE (4 * c + 3) false).onward t c (nextPc (u.core t c).pc n))) ∧
       (u.event t c = false → x = .next (((u.setCoreState t c 2).modCore t c fun k =>
         { k with wait := 1, timeout := if saOf n = 0 then none else some (u.sreg t c (saOf n)).toNat }).stays t c))) ∧
     OnIssue .idle idleOp (fun u t c n x =>
       (u.userMode t c = true → x = .next (u.raises t c 2 (u.core t c).pc (n % 2 ^ 32))) ∧
       (u.userMode t c = false → u.irqEnabled t c ≠ 0 → x = .next (u.onward t c (nextPc (u.core t c).pc n))) ∧
       (u.userMode t c = false → u.irqEnabled t c = 0 →
         x = .next (((u.setCoreState t c 2).modCore t c fun k => { k with wait := 2, timeout := none }).stays t c))) ∧
     OnIssue .trap trapOp (fun u t c _ x =>
       (kindOf t = .s ∧ (u.core t c).supervisor = true → x = .next (u.raises t c 9 (u.core t c).pc 0)) ∧
       (¬(kindOf t = .s ∧ (u.core t c).supervisor = true) → x = .next (u.raises t c 8 (u.core t c).pc 0))) ∧
     OnIssue .breakOp breakOp (fun u t c _ x =>
       (u.attached t c = false → x = .next (u.raises t c 10 (u.core t c).pc 0)) ∧
       (u.attached t c = true → x = .next ((u.breakHalt t c).stays t c)))) ∧
    (WritesD .rdtime rdtimeOp (fun u t _ _ => BitVec.ofNat 64 (u.siteTime t)) ∧
     WritesD .rdcore rdcoreOp (fun u t c _ => BitVec.ofNat 64 (u.sourceOf t c)) ∧
     Privileged .tret tretOp ∧ Privileged .svget svgetOp ∧ Privileged .svset svsetOp ∧ Privileged .svswap svswapOp ∧
     Privileged .xlinv xlinvOp ∧
     OnIssue .tret tretOp (fun u t c _ x => u.userMode t c = false →
       x = .next ((u.trapReturn t c).onward t c ((u.trapReturn t c).core t c).pc)) ∧
     OnIssue .svget svgetOp (fun u t c n x => u.userMode t c = false →
       x = .next ((u.setS t c (dOf n) (if sbOf n = 9 then u.irqPend t c else (u.core t c).svReg (sbOf n))).onward t c
         (nextPc (u.core t c).pc n))) ∧
     OnIssue .svset svsetOp (fun u t c n x => u.userMode t c = false →
       x = .next ((u.svWrite t c (sbOf n) (u.sreg t c (saOf n))).onward t c (nextPc (u.core t c).pc n))) ∧
     OnIssue .svswap svswapOp (fun u t c n x => u.userMode t c = false →
       x = .next (((u.svWrite t c (sbOf n) (u.sreg t c (saOf n))).setS t c (dOf n)
         (if sbOf n = 9 then u.irqPend t c else (u.core t c).svReg (sbOf n))).onward t c (nextPc (u.core t c).pc n))) ∧
     OnIssue .xlinv xlinvOp (fun u t c n x => u.userMode t c = false →
       x = .next ((u.xlinv t c (xlinvGone (dOf n) (u.sreg t c (saOf n)).toNat ((u.sreg t c (sbOf n)).toNat % 4096))).onward t c
         (nextPc (u.core t c).pc n))))

/-- In user mode each raises PRIVILEGED. Otherwise CSRR writes the register's word to s[d]; CSRW, CSRS and CSRC also write s[sa], old | s[sa] or old &
~s[sa] to it, and, unless the write has begun a reset of the tile, s[d] takes the old word. (R175, R181.) -/
def Obligations.CsrAccesses : Prop :=
    let new : Nat → BitVec 32 → BitVec 32 → BitVec 32 := fun op old v => if op = 1 then v else if op = 2 then old ||| v else old &&& ~~~v
    let off : Nat → Nat := fun n => if insnLong n then fieldOf n 51 32 else 4 * fieldOf n 29 21
    let rule : Nat → State → Nat → Nat → Nat → Result → Prop := fun op u t c n x =>
      let r := u.tileRead (.core t c) t (off n)
      let w := r.2.tileStore t (off n) (new op r.1 ((u.sreg t c (saOf n)).extractLsb' 0 32))
      (u.userMode t c = true → x = .next (u.raises t c 2 (u.core t c).pc (n % 2 ^ 32))) ∧
      (u.userMode t c = false → op = 0 →
        x = .next ((r.2.setS t c (dOf n) (r.1.zeroExtend 64)).onward t c (nextPc (u.core t c).pc n))) ∧
      (u.userMode t c = false → op ≠ 0 → w.tbit t R.TILE_RESET 31 = false →
        x = .next ((w.setS t c (dOf n) (r.1.zeroExtend 64)).onward t c (nextPc (u.core t c).pc n))) ∧
      (u.userMode t c = false → op ≠ 0 → w.tbit t R.TILE_RESET 31 = true → x = .next (w.stays t c))
    OnIssue .csrr (csrxOp 0) (rule 0) ∧ OnIssue .csrw (csrxOp 1) (rule 1) ∧ OnIssue .csrs (csrxOp 2) (rule 2) ∧
    OnIssue .csrc (csrxOp 3) (rule 3)

/-- The effective address of LD and ST is s[sa] + off8 × bytes, or s[sa] + sext(off32), modulo 2^64, and that of AMO is s[sa]. Not a multiple of the
access size, it raises MISALIGNED_DATA (6) with the address; with an address translation off and any of bits [63:48] set, ADDRESS_RANGE (7);
otherwise, where it stands for a device physical address, the access joins the core's outstanding ones and is sent on its path. (R168, R169, R171,
R178.) -/
def Obligations.LoadsAndStores : Prop :=
    let rule : (Nat → Nat) → AccKind → (State → Nat → Nat → Nat → Nat) → (State → Nat → Nat → Nat → MemAcc → MemAcc) →
        State → Nat → Nat → Nat → Result → Prop := fun bytes kind address fill u t c n x =>
      let ea := address u t c n
      (ea % bytes n ≠ 0 → x = .next (u.raises t c 6 (u.core t c).pc ea)) ∧
      (ea % bytes n = 0 → ¬(kindOf t = .s ∧ ((u.core t c).svReg 11).getLsbD 0 = true) → 2 ^ 48 ≤ ea →
        x = .next (u.raises t c 7 (u.core t c).pc ea)) ∧
      (∀ pa cache v, u.resolve t c ea (bytes n) kind = (.ok pa cache, v) →
        let a := fill u t c n { (v.core t c).newAccess (kind - 1) 0 (bytes n) pa (v.pathOf t pa cache) with
          pieces := 1, buffered := kind == 2 && kindOf t = .s }
        let w := v.modCore t c fun q => q.addAccess a
        x = .next ((if kind = 2 ∧ kindOf t = .s then w.retireStores t c 8 else w.sendAccess t c a).onward t c (nextPc (u.core t c).pc n)))
    let bytes : Nat → Nat := fun n => 2 ^ (fieldOf n 31 29 % 4)
    let wide : Nat → Nat := fun n => if n.testBit 26 then 8 else 4
    let address : State → Nat → Nat → Nat → Nat := fun u t c n => (u.sreg t c (saOf n) + BitVec.ofInt 64
      (if insnLong n then (upperOf n : Int).bmod (2 ^ 32) else (fieldOf n 28 21 : Int).bmod (2 ^ 8) * bytes n)).toNat
    OnIssue .ld ldOp (rule bytes 1 address fun _ _ _ n a => { a with dest := dOf n, signed := fieldOf n 31 29 < 4 }) ∧
    OnIssue .st stOp (rule bytes 2 address fun u t c n a => { a with data := leBytes (bytes n) (u.sreg t c (dOf n)).toNat }) ∧
    OnIssue .amo amoOp (rule wide 3 (fun u t c n => (u.sreg t c (saOf n)).toNat) fun u t c n a =>
      { a with dest := dOf n, signed := true, op := fieldOf n 31 27,
               data := leBytes 8 (u.sreg t c (sbOf n)).toNat ++ leBytes 8 (u.sreg t c (dOf n)).toNat })

/-- Where a load (kind 0) or AMO (kind 2) of a core has its response over a network, the command answers a next state in which its destination register
holds the value, sign- or zero-extended from the access size, or 0 where the status is not OK; the access is no longer outstanding, and every other
s register keeps its value. (R168, R170, R171, R174, R177.) -/
def Obligations.ResponsesDeliver : Prop :=
    ∀ (s : State) (t c id : Nat) (corr uncorr : List Nat) (a : MemAcc) (status : Nat) (v : BitVec 64),
    s.access t c id = some a → (a.kind = 0 ∨ a.kind = 2) → a.path ≠ 0 → a.arrived = some (status, v) → 1 ≤ a.dest → a.dest < 32 →
    ∃ s', exec (.memoryResponseArrival t c id corr uncorr) s = .next s' ∧
      (status = 0 → a.signed = true → 1 ≤ a.size → a.size ≤ 8 →
        ((s'.core t c).getS a.dest).toInt = (v.toNat : Int).bmod (2 ^ (8 * a.size))) ∧
      (status = 0 → a.signed = false → a.size ≤ 8 → ((s'.core t c).getS a.dest).toNat = v.toNat % 2 ^ (8 * a.size)) ∧
      (status ≠ 0 → (s'.core t c).getS a.dest = 0) ∧
      (∀ r, r < 32 → r ≠ a.dest → (s'.core t c).getS r = (s.core t c).getS r) ∧
      s'.access t c id = none

/-- FENCE holds back later memory instructions while an access is outstanding; FENCE_I, whose core has none outstanding, empties the L1I of a scalar
core; CLEAN, INVAL and FLUSH act on the 64-byte line of s[sa] in the caches of a scalar core, translated as a load is, INVAL raising PRIVILEGED in
user mode, and have no other effect in a tile sequencer. (R172, R229, R181.) -/
def Obligations.FencesAndLines : Prop :=
    let line : Nat → (State → Nat → Nat → Nat → State) → State → Nat → Nat → Nat → Result → Prop := fun op act u t c n x =>
      (kindOf t ≠ .s → x = .next (u.onward t c (nextPc (u.core t c).pc n))) ∧
      (kindOf t = .s → op = 3 → u.userMode t c = true → x = .next (u.raises t c 2 (u.core t c).pc (n % 2 ^ 32))) ∧
      (kindOf t = .s → ¬(op = 3 ∧ u.userMode t c = true) →
        ∀ pa cache v, u.resolve t c (u.sreg t c (saOf n)).toNat 1 1 = (.ok pa cache, v) →
          x = .next ((act v t c (pa / 64 * 64)).onward t c (nextPc (u.core t c).pc n)))
    CompletesWith .fence fenceOp (fun u t c _ => if (u.core t c).accesses = [] then u
      else u.modCore t c fun k => k.addAccess (k.newAccess 5 0 0 0 3)) ∧
    OnIssue .fenceI fenceIOp (fun u t c n x => (u.core t c).accesses = [] ∧
      x = .next ((if kindOf t = .s then u.modCore t c fun k => { k with cache := { k.cache with l1i := [] }, fetchBuf := [] } else u).onward t c
        (nextPc (u.core t c).pc n))) ∧
    OnIssue .clean (lineOp 2 fun s t c a => s.cleanBy t c a) (line 2 fun s t c a => s.cleanBy t c a) ∧
    OnIssue .inval (lineOp 3 fun s t c a => s.inval t c a) (line 3 fun s t c a => s.inval t c a) ∧
    OnIssue .flush (lineOp 4 fun s t c a => (s.cleanBy t c a).inval t c a)
      (line 4 fun s t c a => (s.cleanBy t c a).inval t c a)

/-- TK.SET and TK.ADD issue only once every earlier store of the sequencer has completed, and set or raise counter k; TK.TAKE issues only while k ≥ n
and takes n; TK.READ writes k to s[d]; ENG.WAIT issues only when every selected engine's queue is empty and its last instruction complete, and does
nothing; ENG.NOTIFY arms its mask in place of an armed one, and when the condition holds core 0's event flag is set and the notification is no
longer armed. TD.SET writes s[sa] to t[63:0] and s[sb] to t[127:64]; TD.GETLO and TD.GETHI write the halves of t to s[d]; TD.ADDR replaces the addr
field [21:0] alone; AH.SET writes s[sa][31:0] to a handle, and AH.GET writes it, zero-extended, to s[d]. A register that was written reads back, and
the others keep their values. (R190, R191, R195.) -/
def Obligations.TokenAndDescriptorOps : Prop :=
    (let k : Nat → Nat := fun n => fieldOf n 19 16
     let m : Nat → Nat := fun n => fieldOf n 27 20
     let pc : State → Nat → Nat → Nat → Nat := fun u t c n => nextPc (u.core t c).pc n
     let idle : State → Nat → Nat → Prop := fun u t n => ∀ e ∈ allEngines, (fieldOf n 13 11).testBit (engineNumber e) = true →
       (u.site t).engineIdle e = true
     OnIssue .tkSet tkSetOp (fun u t c n x => (u.core t c).storing = false ∧ dOf n = 0 ∧ x = .next ((u.setToken t (k n) (m n)).onward t c (pc u t c n))) ∧
     OnIssue .tkAdd tkAddOp (fun u t c n x => (u.core t c).storing = false ∧ 1 ≤ m n ∧ dOf n = 0 ∧
       (u.token t (k n) + m n ≤ 255 → x = .next ((u.setToken t (k n) (u.token t (k n) + m n)).onward t c (pc u t c n))) ∧
       (255 < u.token t (k n) + m n →
         x = .next (((u.setToken t (k n) 255).setTbit t R.ENG_STATUS 12 true).onward t c (pc u t c n)))) ∧
     OnIssue .tkTake tkTakeOp (fun u t c n x => m n ≤ u.token t (k n) ∧ 1 ≤ m n ∧ dOf n = 0 ∧
       x = .next ((u.setToken t (k n) (u.token t (k n) - m n)).onward t c (pc u t c n))) ∧
     WritesSuch .tkRead tkReadOp (fun u t _ n v => v = BitVec.ofNat 64 (u.token t (k n)) ∧ m n = 0) ∧
     OnIssue .engWait engWaitOp (fun u t c n x => idle u t n ∧ x = .next (u.onward t c (pc u t c n))) ∧
     OnIssue .engNotify engNotifyOp (fun u t c n x => let v := u.modSite t fun y => { y with notify := some (fieldOf n 13 11) }
       (idle u t n → x = .next (((v.modSite t fun y => { y with notify := none }).setEvent t 0).onward t c (pc u t c n))) ∧
       (¬idle u t n → x = .next (v.onward t c (pc u t c n)))) ∧
     ∀ (s : State) (t j i v : Nat), j < 16 → i < 16 → v < 256 → (s.setToken t j v).token t i = if i = j then v else s.token t i) ∧
    (let t_ : Nat → Nat := fun n => fieldOf n 27 24
     CompletesWith .tdSet tdSetOp (fun u t c n => u.setT t c (t_ n) (u.sreg t c (dOf n) ++ u.sreg t c (saOf n))) ∧
     WritesSuch .tdGetlo tdGetloOp (fun u t c n v => v.toNat = ((u.core t c).tReg (t_ n)).toNat % 2 ^ 64 ∧ saOf n = 0) ∧
     WritesSuch .tdGethi tdGethiOp (fun u t c n v => v.toNat = ((u.core t c).tReg (t_ n)).toNat / 2 ^ 64 ∧ saOf n = 0) ∧
     OnIssue .tdAddr tdAddrOp (fun u t c n x => dOf n = 0 ∧ ∃ v, x = .next ((u.setT t c (t_ n) v).onward t c (nextPc (u.core t c).pc n)) ∧
       v.extractLsb' 0 22 = (u.sreg t c (saOf n)).extractLsb' 0 22 ∧
       v.extractLsb' 22 106 = ((u.core t c).tReg (t_ n)).extractLsb' 22 106) ∧
     OnIssue .ahSet ahSetOp (fun u t c n x => dOf n = 0 ∧ ∃ k', x = .next ((u.modCore t c fun _ => k').onward t c (nextPc (u.core t c).pc n)) ∧
       ∀ i, i < 8 → k'.aReg i = if i = fieldOf n 26 24 then (u.sreg t c (saOf n)).extractLsb' 0 32 else (u.core t c).aReg i) ∧
     WritesSuch .ahGet ahGetOp (fun u t c n v => v.toNat = ((u.core t c).aReg (fieldOf n 26 24)).toNat ∧ saOf n = 0) ∧
     ∀ (s : State) (t c i j : Nat) (v : BitVec 128), i < 16 → j < 16 →
       ((s.setT t c i v).core t c).tReg j = if j = i then v else (s.core t c).tReg j)

/-- QCNT writes the number of published entries of receive queue q to s[d]; QHEAD writes the location of a published head entry, a vitrine offset or, in
an S-tile, a physical address, and all ones where there is none; QPOP releases a published head entry and has no effect on an empty queue; QNOTIFY
makes arrivals in q set the event flag of its core or of none, and has no effect on a queue that the image does not define. An open of a closed
queue takes the next accession, empties its ring and clears its drop counts; a close of an open queue closes it; any other command changes no queue
and sets q_bad_cmd. A message that waits at the interface is placed once its queue has room: it no longer waits. The oldest entry whose payload is
in place is published at both twins: its state is 2, no other entry changes, and its message is no longer served. (R206, R274, R278, R279, R280,
R293.) -/
def Obligations.QueuesAndTheirReaders : Prop :=
    (let q : Nat → Nat := fun n => fieldOf n 27 22
     WritesD .qcnt qcntOp (fun u t _ n => BitVec.ofNat 64 (((u.site t).ring (q n)).filter fun e => e.state == 2).length) ∧
     OnIssue .qhead qheadOp (fun u t c n x => ∃ v, x = .next ((u.setS t c (dOf n) v).onward t c (nextPc (u.core t c).pc n)) ∧
       ((∀ e ∈ ((u.site t).ring (q n)).head?, e.state ≠ 2) → v = BitVec.allOnes 64) ∧
       (∀ e rest, (u.site t).ring (q n) = e :: rest → e.state = 2 →
         let o := qBase (u.queueRec t (q n)) + e.slot * qLines (u.queueRec t (q n)) * 128
         v = BitVec.ofNat 64 (if kindOf t = .s then windowAddr t o else o))) ∧
     OnIssue .qpop qpopOp (fun u t c n x =>
       ((∀ e ∈ ((u.site t).ring (q n)).head?, e.state ≠ 2) → x = .next (u.onward t c (nextPc (u.core t c).pc n))) ∧
       (∀ e rest, (u.site t).ring (q n) = e :: rest → e.state = 2 →
         x = .next ((u.setRing t (q n) rest).onward t c (nextPc (u.core t c).pc n)))) ∧
     OnIssue .qnotify qnotifyOp (fun u t c n x =>
       (u.qState t (q n) = 0 → x = .next (u.onward t c (nextPc (u.core t c).pc n))) ∧
       (u.qState t (q n) ≠ 0 → x = .next ((u.modSite t fun y => { y with
         qnotify := Map.set (fun _ => 0) y.qnotify (q n) (if n.testBit 21 then fieldOf n 20 19 + 1 else 0) }).onward t c (nextPc (u.core t c).pc n))))) ∧
    ((∀ (s : State) (a : Agent) (t q : Nat), s.Reached a t →
       Does (.queueOpen a t q) s (s.applied a t fun s t => s.queueCmd t 0 (q % 64)) ∧
       Does (.queueClose a t q) s (s.applied a t fun s t => s.queueCmd t 1 (q % 64))) ∧
     (∀ (s : State) (t q : Nat), q < 64 →
       let o := s.queueCmd t 0 q
       let c := s.queueCmd t 1 q
       (s.qState t q = 2 → o.qState t q = 1 ∧ o.qAcc t q = (s.qAcc t q + 1) % 1024 ∧ (o.site t).ring q = [] ∧ o.treg t (R.NET_Q_DROP q) = 0) ∧
       (s.qState t q = 1 → c.qState t q = 2 ∧ c.qAcc t q = s.qAcc t q) ∧
       (s.qState t q ≠ 2 → o = s.setTbit t R.NET_STATUS 3 true) ∧ (s.qState t q ≠ 1 → c = s.setTbit t R.NET_STATUS 3 true) ∧
       ∀ r, r < 64 → r ≠ q → o.qState t r = s.qState t r ∧ c.qState t r = s.qState t r) ∧
     (∀ (s : State) (t : Nat) (p : Packet), s.net.waiting t = some p → s.wingRuns (wingOf t) = true →
       ((s.receive p t).net.packets.any fun q => q.id == p.id && q.stage == 2) = false →
       ∃ u : State, Does (.queuedMessagePlaced t) s u ∧ u = s.receive p t ∧ ∀ q ∈ u.net.packets, q.id = p.id → q.stage ≠ 2) ∧
     (∀ (s : State) (t q : Nat) (e : QEnt), (s.site t).toPublish q = some e → s.wingRuns (wingOf t) = true →
       ∃ u : State, Does (.queueEntryPublish t q) s u ∧
         (∀ x, x = t ∨ s.twin t = some x → s.twin t ≠ some t →
           (u.site x).ring q = ((s.site x).ring q).map fun f => if f.serve = e.serve then { f with state := 2 } else f) ∧
         (∀ r, r ≠ q → (u.site t).ring r = (s.site t).ring r) ∧
         ∀ v, s.net.serves.find? (fun v => v.id == e.serve) = some v → ∀ w ∈ u.net.serves, w.id ≠ v.id))

/-- Once it issues, each of the sixteen instructions of groups 0x30 to 0x33 and 0x38 is put at the tail of its engine's queue with its word, the values
of the s and t registers that it names, and its handle, and the core goes on after the word. An MM whose descriptor numbers run beyond t15 raises
exception 16 with the lower word as its value. (R186, R197, R200, R201, R202, R203, R216.) -/
def Obligations.DispatchToEngines : Prop :=
    let span : Nat → Nat → List Nat := fun a k => (List.range k).map (· + a)
    let beyond : Nat → Prop := fun n => 16 < max (fieldOf n 53 50) (fieldOf n 49 46) + foldSubs (fieldOf n 38 37)
    OnIssue .mm mmOp (fun u t c n x =>
      (¬beyond n → x = .next ((u.dispatched t c n .compute [] (span (fieldOf n 53 50) 4 ++ span (fieldOf n 49 46) 4)).onward t c
        (nextPc (u.core t c).pc n))) ∧
      (beyond n → x = .next (u.raises t c 16 (u.core t c).pc (n % 2 ^ 32)))) ∧
    Dispatches .cbLoad cbLoadOp .compute (fun n => [fieldOf n 47 43]) (fun _ => []) ∧
    Dispatches .dr drOp .drain (fun n => [fieldOf n 33 29, fieldOf n 28 24, fieldOf n 23 19]) (fun n => span (fieldOf n 53 50) 4) ∧
    Dispatches .accScale (accOp 0) .drain (fun n => [fieldOf n 26 22]) (fun _ => []) ∧
    Dispatches .smInit (accOp 1) .drain (fun n => [fieldOf n 26 22]) (fun _ => []) ∧
    Dispatches .smStore (accOp 2) .drain (fun n => [fieldOf n 26 22]) (fun _ => []) ∧
    Dispatches .smLoad (accOp 3) .drain (fun n => [fieldOf n 26 22]) (fun _ => []) ∧
    Dispatches .stepClose (accOp 4) .drain (fun n => [fieldOf n 26 22]) (fun _ => []) ∧
    Dispatches .accDrop (accOp 5) .drain (fun n => [fieldOf n 26 22]) (fun _ => []) ∧
    Dispatches .actLoad (accOp 6) .drain (fun n => [fieldOf n 26 22]) (fun _ => []) ∧
    Dispatches .fxLoad (fxOp 0) .fetch (fun n => [fieldOf n 46 42, fieldOf n 41 37]) (fun n => [fieldOf n 50 47]) ∧
    Dispatches .fxStore (fxOp 1) .fetch (fun n => [fieldOf n 46 42, fieldOf n 41 37]) (fun n => [fieldOf n 50 47]) ∧
    Dispatches .fxWload (fxOp 2) .fetch (fun n => [fieldOf n 46 42, fieldOf n 41 37]) (fun n => [fieldOf n 50 47]) ∧
    Dispatches .fxWstore (fxOp 3) .fetch (fun n => [fieldOf n 46 42, fieldOf n 41 37]) (fun n => [fieldOf n 50 47])

/-- In an M- or V-tile each message instruction is dispatched to the Fetch engine with s[50:46] and s[45:41]. In an S-tile it joins the core's
outstanding accesses, with the bytes of its payload that are still to be read, and the core goes on; bits [63:54] not 0 raise exception 16. (R204,
R186, R170.) -/
def Obligations.MessagesLeave : Prop :=
    let rule : Nat → State → Nat → Nat → Nat → Result → Prop := fun op u t c n x =>
      (kindOf t ≠ .s → x = .next ((u.dispatched t c n .fetch [fieldOf n 50 46, fieldOf n 45 41] []).onward t c
        (nextPc (u.core t c).pc n))) ∧
      (kindOf t = .s → fieldOf n 63 54 ≠ 0 → x = .next (u.raises t c 16 (u.core t c).pc (n % 2 ^ 32))) ∧
      (kindOf t = .s → fieldOf n 63 54 = 0 → ∀ ps v,
        u.msgParts t c (pageParts (u.sreg t c (fieldOf n 45 41)).toNat (msgBytes n)) = (.inr ps, v) →
        let a := { (v.core t c).newAccess 3 0 (msgBytes n) ((ps.map (·.1)).headD 0 / 2) 1 with
                   pieces := 1, op := op, value := u.sreg t c (fieldOf n 50 46), lanes := ps,
                   data := if op = 4 then leBytes 8 (u.sreg t c (fieldOf n 45 41)).toNat else [] }
        x = .next (((v.modCore t c fun k => k.addAccess a).payloadNext t c a.id payloadParts).onward t c (nextPc (u.core t c).pc n)))
    OnIssue .msgDesc (msgOp 0) (rule 0) ∧ OnIssue .msgData (msgOp 1) (rule 1) ∧ OnIssue .msgConc (msgOp 2) (rule 2) ∧
    OnIssue .msgToken (msgOp 3) (rule 3) ∧ OnIssue .msgDoorbell (msgOp 4) (rule 4)

/-- Wherever VECTOR_INTEGER issues, exec answers the next state in which v[d] holds, lane by lane (32 in an M-tile, 64 in a V-tile), the result that
R208 gives for the function: arithmetic modulo 2^32, logic, shifts by b modulo 32, signed and unsigned minima and maxima, comparisons that write all
ones or 0, and VSEL. (R208.) -/
def Obligations.VectorIntegerLanes : Prop :=
    OnIssue .vectorInteger vectorIntegerOp fun u t c n x =>
    ∃ r : List (BitVec 32), x = .next ((u.setVreg t c (dOf n) r).onward t c (nextPc (u.core t c).pc n)) ∧
      r.length = (if kindOf t = .v then 64 else 32) ∧ fnOf n ≤ 16 ∧
      ∀ i v, r[i]? = some v →
        let a := (u.core t c).lane (saOf n) i
        let b := (u.core t c).lane (sbOf n) i
        let d := (u.core t c).lane (dOf n) i
        let sh := b.toNat % 32
        (fnOf n = 0 → v.toNat = (a.toNat + b.toNat) % 2 ^ 32) ∧ (fnOf n = 1 → (v.toNat + b.toNat) % 2 ^ 32 = a.toNat) ∧
        (fnOf n = 2 → v.toNat = a.toNat * b.toNat % 2 ^ 32) ∧ (fnOf n = 3 → v = a &&& b) ∧ (fnOf n = 4 → v = a ||| b) ∧
        (fnOf n = 5 → v = a ^^^ b) ∧ (fnOf n = 6 → v.toNat = a.toNat * 2 ^ sh % 2 ^ 32) ∧ (fnOf n = 7 → v.toNat = a.toNat / 2 ^ sh) ∧
        (fnOf n = 8 → v.toInt = a.toInt / 2 ^ sh) ∧ (fnOf n = 9 → v.toInt = min a.toInt b.toInt) ∧
        (fnOf n = 10 → v.toInt = max a.toInt b.toInt) ∧ (fnOf n = 11 → v.toNat = min a.toNat b.toNat) ∧
        (fnOf n = 12 → v.toNat = max a.toNat b.toNat) ∧ (fnOf n = 13 → v = if a = b then BitVec.allOnes 32 else 0) ∧
        (fnOf n = 14 → v = if a.toInt < b.toInt then BitVec.allOnes 32 else 0) ∧
        (fnOf n = 15 → v = if a.toNat < b.toNat then BitVec.allOnes 32 else 0) ∧ (fnOf n = 16 → v = (d &&& a) ||| (~~~d &&& b))

/-- Wherever one issues, exec answers the next state in which its destination holds, lane by lane, the result of its rule. VECTOR_FP32 and VECTOR_BF16:
sum, difference, product, vd + va x vb rounded once, minimum, maximum, magnitude, negation and three comparisons, all ones or 0, each half of a BF16
lane for itself. LANE_MOVE: a value to every lane, one lane out or in, rotation, lane numbers, the sums and the maximum. VQ converts the lanes with
d into the bits of part p of vd and keeps the other lanes, and with qen counts them; VX expands part p of va and scales it. VCVT is to nearest even,
and saturates. SPECIAL_FUNCTION: the exponentials bit for bit, the special inputs, and exact reciprocals and logarithms of powers of two. (R102,
R208, R209, R210, R211, R224, R225.) -/
def Obligations.VectorResults : Prop :=
    let word : TileKind → Nat := fun k => if k = .v then 64 else 32
    let lanewise : (Nat → BitVec 32 → BitVec 32 → BitVec 32 → BitVec 32 → Prop) → Nat → State → Nat → Nat → Nat → Result → Prop :=
      fun rule limit u t c n x => ∃ r : List (BitVec 32), x = .next ((u.setVreg t c (dOf n) r).onward t c (nextPc (u.core t c).pc n)) ∧
        r.length = word (kindOf t) ∧ fnOf n ≤ limit ∧
        ∀ i v, r[i]? = some v → rule (fnOf n) ((u.core t c).lane (saOf n) i) ((u.core t c).lane (sbOf n) i) ((u.core t c).lane (dOf n) i) v
    let mag : Num.Val → Num.Val := fun x => match x with | .fin _ v => .fin false v | .inf _ => .inf false | .nan => .nan
    OnIssue .vectorFp32 vectorFp32Op (lanewise (fun fn a b d v =>
      let x := Num.of32 a
      let y := Num.of32 b
      (fn = 0 → v = Num.round32 (Num.vadd x y)) ∧ (fn = 1 → v = Num.round32 (Num.vadd x (Num.vneg y))) ∧
      (fn = 2 → v = Num.round32 (Num.vmul x y)) ∧ (fn = 3 → v = Num.round32 (Num.vadd (Num.vmul x y) (Num.of32 d))) ∧
      (fn = 4 → v = Num.round32 (if x = .nan ∨ y = .nan then .nan else if Num.vlt y x then y else x)) ∧
      (fn = 5 → v = Num.round32 (if x = .nan ∨ y = .nan then .nan else if Num.vlt x y then y else x)) ∧
      (fn = 6 → v = Num.round32 (mag x)) ∧ (fn = 7 → v = Num.round32 (Num.vneg x)) ∧
      (fn = 8 → v = if Num.vltNum x y then BitVec.allOnes 32 else 0) ∧
      (fn = 9 → v = if Num.vltNum x y || Num.veq x y then BitVec.allOnes 32 else 0) ∧
      (fn = 10 → v = if Num.veq x y then BitVec.allOnes 32 else 0)) 10) ∧
    OnIssue .vectorBf16 vectorBf16Op (lanewise (fun fn a b d v => ∀ h, h < 2 →
      let x := Num.of16 (a.extractLsb' (16 * h) 16)
      let y := Num.of16 (b.extractLsb' (16 * h) 16)
      let z := Num.of16 (d.extractLsb' (16 * h) 16)
      let v := v.extractLsb' (16 * h) 16
      (fn = 0 → v = Num.roundBf16 (Num.vadd x y)) ∧ (fn = 1 → v = Num.roundBf16 (Num.vadd x (Num.vneg y))) ∧
      (fn = 2 → v = Num.roundBf16 (Num.vmul x y)) ∧ (fn = 3 → v = Num.roundBf16 (Num.vadd (Num.vmul x y) z)) ∧
      (fn = 4 → v = Num.roundBf16 (if x = .nan ∨ y = .nan then .nan else if Num.vlt y x then y else x)) ∧
      (fn = 5 → v = Num.roundBf16 (if x = .nan ∨ y = .nan then .nan else if Num.vlt x y then y else x)) ∧
      (fn = 6 → v = Num.roundBf16 (mag x)) ∧ (fn = 7 → v = Num.roundBf16 (Num.vneg x)) ∧
      (fn = 8 → v = if Num.vltNum x y then BitVec.allOnes 16 else 0) ∧
      (fn = 9 → v = if Num.vltNum x y || Num.veq x y then BitVec.allOnes 16 else 0) ∧
      (fn = 10 → v = if Num.veq x y then BitVec.allOnes 16 else 0)) 10) ∧
    OnIssue .laneMove laneMoveOp (fun u t c n x =>
      let k := u.core t c
      let l := word (kindOf t)
      let at_ := (k.getS (sbOf n)).toNat % l
      let toV := fun (r : List (BitVec 32)) => x = .next ((u.setVreg t c (dOf n) r).onward t c (nextPc k.pc n))
      let toS := fun (v : BitVec 64) => x = .next ((u.setS t c (dOf n) v).onward t c (nextPc k.pc n))
      let a := (List.range l).map fun i => k.lane (saOf n) i
      fnOf n ≤ 7 ∧ (fnOf n = 0 → toV (List.replicate l ((k.getS (saOf n)).extractLsb' 0 32))) ∧
      (fnOf n = 1 → toS ((k.lane (saOf n) at_).zeroExtend 64)) ∧
      (fnOf n = 2 → toV ((List.range l).map fun i => if i = at_ then (k.getS (saOf n)).extractLsb' 0 32 else k.lane (dOf n) i)) ∧
      (fnOf n = 3 → toV ((List.range l).map fun i => k.lane (saOf n) ((i + at_) % l))) ∧
      (fnOf n = 4 → toV ((List.range l).map fun i => BitVec.ofNat 32 i)) ∧
      (fnOf n = 5 → toS (((treeSums 6 a).headD 0).zeroExtend 64)) ∧
      (fnOf n = 6 → ∃ v : BitVec 32, toS (v.zeroExtend 64) ∧ v = (a.drop 1).foldl Num.fmax (k.lane (saOf n) 0)) ∧
      (fnOf n = 7 → ∃ v : BitVec 64, toS v ∧ v.toNat = (a.map fun w => (w.signExtend 64).toNat).sum % 2 ^ 64)) ∧
    OnIssue .vq vqOp (fun u t c n x =>
      let w := Num.width (cvtFmt n)
      let l := word (kindOf t)
      let d := if n.testBit 63 then u.treg t (R.QUANT_SCALE (fieldOf n 62 60)) else 0x3F800000
      let q := fun (i : Nat) => Num.quantise (cvtFmt n) ((u.core t c).lane (saOf n) i) d
      ∃ r : List (BitVec 32), r.length = l ∧
        (∀ i j, i < l → j < w → ((r[cvtPart n * l * w / 32 + (i * w + j) / 32]?).getD 0).getLsbD ((i * w + j) % 32) = (q i).1.testBit j) ∧
        (∀ i, i < l → (i < cvtPart n * l * w / 32 ∨ (cvtPart n + 1) * l * w / 32 ≤ i) → r[i]? = some ((u.core t c).lane (dOf n) i)) ∧
        (n.testBit 63 = false → x = .next ((u.setVreg t c (dOf n) r).onward t c (nextPc (u.core t c).pc n))) ∧
        (n.testBit 63 = true → x = .next (((u.setVreg t c (dOf n) r).qcountVector t (fieldOf n 62 60)
          ((List.range l).foldl (fun (k : QCounts) i => k.one ((u.core t c).lane (saOf n) i) (q i).2) .zero)).onward t c
          (nextPc (u.core t c).pc n)))) ∧
    OnIssue .vx vxOp (fun u t c n x =>
      let w := Num.width (cvtFmt n)
      let l := word (kindOf t)
      ∃ r : List (BitVec 32), x = .next ((u.setVreg t c (dOf n) r).onward t c (nextPc (u.core t c).pc n)) ∧ r.length = l ∧
        ∀ i v, r[i]? = some v → ∃ e : Nat, e < 2 ^ w ∧
          (∀ j, j < w → e.testBit j = ((u.core t c).lane (saOf n) (cvtPart n * l * w / 32 + (i * w + j) / 32)).getLsbD ((i * w + j) % 32)) ∧
          v = if n.testBit 63 then Num.fmul (Num.round32 (Num.decode (cvtFmt n) e)) (u.treg t (R.QUANT_SCALE (fieldOf n 62 60)))
            else Num.round32 (Num.decode (cvtFmt n) e)) ∧
    OnIssue .vcvtI2f vcvtI2fOp (lanewise (fun _ a _ _ v =>
      v = Num.round32 (if a = 0 then .fin false 0 else .fin (decide (a.toInt < 0)) (a.toInt.natAbs : Rat))) 63) ∧
    OnIssue .vcvtF2i vcvtF2iOp (lanewise (fun _ a _ _ v =>
      (Num.of32 a = .nan → v = 0) ∧ (∀ neg, Num.of32 a = .inf neg → v.toInt = if neg then -2 ^ 31 else 2 ^ 31 - 1) ∧
      (∀ neg m, Num.of32 a = .fin neg m →
        let r : Int := if neg then -(Num.rne m : Int) else Num.rne m
        v.toInt = max (-2 ^ 31) (min (2 ^ 31 - 1) r))) 63) ∧
    OnIssue .specialFunction specialOp (lanewise (fun fn a _ _ v =>
      let w := Num.flushSub a
      (fn = 0 → v = Num.exp2t w) ∧ (fn = 6 → v = Num.exp2t (Num.fmul w 0x3FB8AA3B)) ∧
      (Num.of32 a = .nan → v = Num.nan32) ∧
      (fn = 1 → w = 0x7F800000 → v = 0x7F800000) ∧ (fn = 1 → w = 0 ∨ w = 0x80000000 → v = 0xFF800000) ∧
      (fn = 1 → 0x80000000 < w.toNat → v = Num.nan32) ∧
      (fn = 1 → ∀ e : Nat, e < 128 → a.toNat = (e + 127) * 2 ^ 23 → v = Num.round32 (.fin false e)) ∧
      (fn = 2 → w = 0x7F800000 → v = 0) ∧ (fn = 2 → w = 0xFF800000 → v = 0x80000000) ∧
      (fn = 2 → w = 0 → v = 0x7F800000) ∧ (fn = 2 → w = 0x80000000 → v = 0xFF800000) ∧
      (fn = 3 → w = 0x7F800000 → v = 0) ∧ (fn = 3 → w = 0 → v = 0x7F800000) ∧ (fn = 3 → w = 0x80000000 → v = 0xFF800000) ∧
      (fn = 3 → 0x80000000 < w.toNat → v = Num.nan32) ∧
      (fn = 4 ∨ fn = 5 → (∃ neg, Num.of32 a = .inf neg) → v = Num.nan32) ∧
      (fn = 4 → w = 0 ∨ w = 0x80000000 → v = w) ∧ (fn = 5 → w = 0 ∨ w = 0x80000000 → v = 0x3F800000)) 6)

/-- For every list of pairs, VSORT's result holds the same pairs (a permutation), its keys descend numerically with −0 below +0 and NaN below −∞, and
for each key the pairs of that key stand in the order of their lanes. The merge of two descending lists is descending, holds all their pairs, and
takes those of the first list before equal ones of the second; VTOPK writes its first L pairs. Of operands that are not sorted the spec states no
result (log entry 9). An odd d or a, and any word of the group outside a V-tile, is illegal. (R214.) -/
def Obligations.VectorSortSorts : Prop :=
    (∀ l : List (BitVec 32 × BitVec 32), (sortDesc l).Perm l ∧ descends (sortDesc l) = true ∧
      ∀ k, (sortDesc l).filter (fun p => sortKey p.1 = k) = l.filter fun p => sortKey p.1 = k) ∧
    (∀ (a b : List (BitVec 32 × BitVec 32)), descends a = true → descends b = true →
      let m := mergeDesc (a.length + b.length) a b
      m.Perm (a ++ b) ∧ descends m = true ∧
      ∀ k, m.filter (fun p => sortKey p.1 = k) = (a.filter fun p => sortKey p.1 = k) ++ b.filter fun p => sortKey p.1 = k) ∧
    (sortKey 0x80000000 < sortKey 0 ∧ sortKey 0x7FC00000 < sortKey 0xFF800000 ∧ sortKey 0xFF800000 < sortKey 0xFF7FFFFF) ∧
    CompletesWith .vsort vsortOp (fun u t c n => u.setPairs t c (dOf n) (sortDesc (u.pairs t c (saOf n) (sbOf n)))) ∧
    OnIssue .vtopk vtopkOp (fun u t c n x => ∃ v, x = .next (v.onward t c (nextPc (u.core t c).pc n)) ∧
      let a := u.pairs t c (dOf n) (dOf n + 1)
      let b := u.pairs t c (saOf n) (saOf n + 1)
      (descends a = true → descends b = true → v = u.setPairs t c (dOf n) ((mergeDesc (2 * lanesOf t) a b).take (lanesOf t)))) ∧
    (∀ n, insnGroup n = 0x2A → illegal .m n = true ∧ illegal .s n = true ∧
      (dOf n % 2 = 1 ∨ (fnOf n = 1 ∧ saOf n % 2 = 1) ∨ 1 < fnOf n → illegal .v n = true))

/-- An address that breaks its alignment raises MISALIGNED_DATA (6), and one whose bytes leave the vitrine ADDRESS_RANGE (7). Otherwise a vector load or
store joins the core's outstanding accesses, with one access at the vitrine's port for each line or block column. A gather or scatter whose base is
no multiple of 4 raises MISALIGNED_DATA; otherwise its accesses are presented, and with no lane in the vitrine a gather writes zeros and a scatter
does nothing. (R212, R213, R136, R220, R178.) -/
def Obligations.VectorMemory : Prop :=
    let mem : Nat → State → Nat → Nat → Nat → Result → Prop := fun op u t c n x =>
      let k := u.core t c
      let a := vmemAddr k n
      let os := vmemOffsets (lanesOf t) op a
      let rs := vmemReqs (lanesOf t) op k.nextAccess os (k.vreg (lanesOf t) (dOf n))
      let acc := { k.newAccess 4 (if op % 2 = 0 then vNum (dOf n) else 0) 4 a 0 with
                   pieces := rs.length, lanes := (List.range (lanesOf t)).zip (os.map (· / 4)) }
      let bad := if op < 2 then a % 128 ≠ 0 else a % 4 ≠ 0 ∨ 128 ≤ a % 4096
      (bad → x = .next (u.raises t c 6 k.pc a)) ∧ (¬bad → (∃ o ∈ os, vitSize t < o + 4) → x = .next (u.raises t c 7 k.pc a)) ∧
      (¬bad → (∀ o ∈ os, o + 4 ≤ vitSize t) → x = .next ((rs.foldl (fun s r => s.present t r)
        (u.modCore t c fun k => k.addAccess acc)).onward t c (nextPc k.pc n)))
    let scat : Nat → State → Nat → Nat → Nat → Result → Prop := fun fn u t c n x =>
      let k := u.core t c
      let base := (k.getS (sbOf n)).toNat
      let lanes := scatterLanes t base (k.vreg (lanesOf t) (saOf n))
      let rs := scatterReqs fn k.nextAccess (scatterSplit (fn == 0) 65 lanes) (k.vreg (lanesOf t) (dOf n))
      let acc := { k.newAccess 4 (if fn = 0 then vNum (dOf n) else 0) 4 base 0 with
                   pieces := rs.length, lanes := lanes, data := (k.vreg (lanesOf t) (dOf n)).flatMap bytesOfWord }
      (base % 4 ≠ 0 → x = .next (u.raises t c 6 k.pc base)) ∧
      (base % 4 = 0 → lanes = [] →
        x = .next ((if fn = 0 then u.setVreg t c (dOf n) (List.replicate (lanesOf t) 0) else u).onward t c (nextPc k.pc n))) ∧
      (base % 4 = 0 → lanes ≠ [] → x = .next ((rs.foldl (fun s r => s.present t r)
        (u.modCore t c fun k => k.addAccess acc)).onward t c (nextPc k.pc n)))
    OnIssue .vld (vmemOp 0) (mem 0) ∧ OnIssue .vst (vmemOp 1) (mem 1) ∧ OnIssue .vldC (vmemOp 2) (mem 2) ∧
    OnIssue .vstC (vmemOp 3) (mem 3) ∧ OnIssue .vgather (scatterOp 0) (scat 0) ∧ OnIssue .vscatter (scatterOp 1) (scat 1) ∧
    OnIssue .vscatterAdd (scatterOp 2) (scat 2)

/-- For every instruction of a core whose work on the state after the fetch is to write v to s[d] (integer, bit, time, identity, supervisor, token,
descriptor, handle and queue reads): exec answers a next state whose only change against the state after the fetch is that register (none for s0)
and the core's pc, with the trap-entry mark and the note of a single step: no other register, predicate, special register, accumulator, memory cell
or register of the module changes. (R150, R156, R160, R161, R162, R163, R176, R190, R195, R206.) -/
def Obligations.RegisterWritesFrame : Prop :=
    ∀ (i : Instr) (t c n d : Nat) (f : Fetched) (op : CoreOp) (s u : State) (v : BitVec 64), coreInstr i = some (t, c, f, op) →
    Issues s t c f op n u → op.run u t c n = .next (u.setS t c d v) → d < 32 →
    ∃ w, exec i s = .next w ∧ w = { u with sites := w.sites, dbg := w.dbg } ∧
      (∀ r, r < 32 → (w.core t c).getS r = if r = 0 then 0 else if r = d then v else (u.core t c).getS r) ∧
      (w.core t c).pc = nextPc (u.core t c).pc n ∧
      w.core t c = { u.core t c with s := (w.core t c).s, pc := (w.core t c).pc, atVector := false } ∧
      (∀ c', c' ≠ c → w.core t c' = u.core t c') ∧ (∀ t', t' ≠ t → w.site t' = u.site t') ∧
      { w.site t with cores := (u.site t).cores } = u.site t ∧
      w.dbg = { u.dbg with awaiting := w.dbg.awaiting, steps := w.dbg.steps }

/-- A write that reaches the site applies to it, or to both twins of a pair. A start of a STOPPED or FAULTED core of a site that takes starts sets pc to
TILE_ENTRY, s1 to TILE_ARG, clears the event flag and makes it RUNNING, a scalar core in supervisor mode with ien 0, SV_SAVED 2 and translation off;
any other start sets start_reject. A stop makes a RUNNING or WAITING core ENDING. A wake sets the event flag, which ends a WFE. A command to an
ABSENT core sets start_reject. (R153, R151, R440.) -/
def Obligations.StartStopWake : Prop :=
    (∀ (s : State) (a : Agent) (t c : Nat), s.Reached a t →
      Does (.start a t c) s (s.applied a t fun s t => s.cmdStart t (c % 4)) ∧
      Does (.stop a t c) s (s.applied a t fun s t => s.cmdStop t (c % 4)) ∧
      Does (.wake a t c) s (s.applied a t fun s t => s.cmdWake t (c % 4))) ∧
    (∀ (s : State) (a : Agent) (t : Nat) (f : State → Nat → State), s.twin t = none ∨ s.inside a t = true → s.applied a t f = f s t) ∧
    (∀ (s : State) (a : Agent) (t x : Nat) (f : State → Nat → State), s.twin t = some x → s.inside a t = false →
      s.applied a t f = f (f s t) x) ∧
    (∀ (s : State) (t c : Nat), c < 4 →
      let u := s.cmdStart t c
      let w := s.cmdStop t c
      let k := u.core t c
      ((s.coreState t c = 0 ∨ s.coreState t c = 4) → s.noStart t = false →
        u.coreState t c = 1 ∧ u.event t c = false ∧ k.pc = s.tacted64 t R.TILE_ENTRY_LO ∧
        k.getS 1 = BitVec.ofNat 64 (s.tacted64 t R.TILE_ARG_LO) ∧ (∀ r, r < 32 → r ≠ 1 → k.getS r = (s.core t c).getS r) ∧
        (kindOf t = .s → k.supervisor = true ∧ (k.svReg 0).getLsbD 0 = false ∧ k.svReg 1 = 2 ∧ (k.svReg 11).getLsbD 0 = false)) ∧
      (¬(s.coreState t c = 0 ∨ s.coreState t c = 4) ∨ s.noStart t = true → u = s.setTbit t R.TILE_STATE 16 true) ∧
      ((s.coreState t c = 1 ∨ s.coreState t c = 2) → w.coreState t c = 3) ∧
      ((s.coreState t c = 0 ∨ s.coreState t c = 3 ∨ s.coreState t c = 4 ∨ s.coreState t c = 5) → w = s) ∧
      (s.coreState t c = 7 → w = s.setTbit t R.TILE_STATE 16 true ∧ s.cmdWake t c = s.setTbit t R.TILE_STATE 16 true) ∧
      (s.coreState t c ≠ 7 → ¬(s.coreState t c = 2 ∧ (s.core t c).wait = 1) → (s.cmdWake t c).event t c = true) ∧
      (s.coreState t c = 2 → (s.core t c).wait = 1 → (s.cmdWake t c).coreState t c = 1 ∧ (s.cmdWake t c).event t c = false ∧
        ((s.cmdWake t c).core t c).pc = ((s.core t c).pc + 4) % 2 ^ 64))

/-- A write that reaches an M- or V-tile whose core 0 is STOPPED, FAULTED or HALTED stores the word at its index and leaves every other word of every
store; in any other state it changes no word and sets prog_reject; in an S-tile or MI tile it has no effect. (R154, R5.) -/
def Obligations.ProgramStoreWrites : Prop :=
    (∀ (s : State) (a : Agent) (t i : Nat) (w : BitVec 32), s.Reached a t →
      Does (.programStoreWrite a t i w) s (s.applied a t fun s t => s.progWrite t i w)) ∧
    ∀ (s : State) (t i : Nat) (w : BitVec 32), i < 32768 →
      let u := s.progWrite t i w
      let open_ := s.coreState t 0 = 0 ∨ s.coreState t 0 = 4 ∨ s.coreState t 0 = 5
      (kindOf t = .s ∨ kindOf t = .mi → u = s) ∧
      (kindOf t = .m ∨ kindOf t = .v → open_ → ∀ t' j, u.progWord t' j = if t' = t ∧ j = i then w else s.progWord t' j) ∧
      (kindOf t = .m ∨ kindOf t = .v → ¬open_ → u = s.setTbit t R.TILE_STATE 17 true ∧ ∀ t' j, u.progWord t' j = s.progWord t' j)

/-- A core WAITING in WFE whose timeout its TIME has reached is RUNNING after it, with its event flag 0. An ENDING core with nothing outstanding becomes
FAULTED, with the exception in the TILE_EXC registers and in fault record 0x02, or STOPPED where it has none; no other core of the site changes, and
the open queues that it reads close where their records say so. Where SV_TIMER is reached the timer interrupt is pending, and an IDLE core that has
it enabled is RUNNING after its IDLE. An enabled interrupt of a RUNNING core in user mode or with ien set is taken: pc becomes the vector base plus
0x200, and 0x100 more in supervisor mode, SV_RETPC, SV_CAUSE and SV_SAVED take the pc, interrupt and code (timer before external before self), and
mode and ien. (R153, R167, R180, R182, R183, R184, R279.) -/
def Obligations.CoreEvents : Prop :=
    (∀ (s : State) (t c m : Nat), c < 4 → s.coreState t c = 2 → (s.core t c).wait = 1 → (s.core t c).timeout = some m → m ≤ s.siteTime t →
      ∃ u : State, Does (.wfeTimeout t c) s u ∧ u.coreState t c = 1 ∧ u.event t c = false ∧
        u.core t c = { s.core t c with wait := 0, timeout := none, pc := ((s.core t c).pc + 4) % 2 ^ 64 } ∧
        (∀ d, d < 4 → d ≠ c → u.core t d = s.core t d ∧ u.coreState t d = s.coreState t d ∧ u.event t d = s.event t d) ∧
        ∀ x, x ≠ t → u.site x = s.site x) ∧
    (∀ (s : State) (t c : Nat) (r : ExcRec), c < 4 → r.core < 4 → r.cause < 64 → r.pc < 2 ^ 64 → r.val < 2 ^ 64 →
      (s.core t c).recorded = some r → s.coreState t c = 3 → s.workDone t c = true →
      ∃ v : State, Does (.coreFaulted t c) s
          (v.fault 0x02 (s.sourceOf t c) (s.partOf t) (le 1 r.core ++ le 1 r.cause ++ le 8 r.pc ++ le 8 r.val)) ∧
        v.coreState t c = 4 ∧ (v.treg t R.TILE_EXC_CAUSE).toNat = r.core * 256 + r.cause ∧ v.treg64 t R.TILE_EXC_PC_LO = r.pc ∧
        v.treg64 t R.TILE_EXC_VAL_LO = r.val ∧ v.core t c = { s.core t c with exc := none, engExc := none } ∧
        (∀ d, d < 4 → d ≠ c → v.core t d = s.core t d ∧ v.coreState t d = s.coreState t d) ∧
        ∀ q, q < 64 → v.qState t q = if s.qState t q = 1 ∧ qCloseOnEnd (s.queueRec t q) = true ∧ qReader (s.queueRec t q) = c then 2
          else s.qState t q) ∧
    (∀ (s : State) (t c : Nat), c < 4 → s.coreState t c = 3 → (s.core t c).recorded = none → s.workDone t c = true →
      ∃ u : State, Does (.coreStopped t c) s u ∧ u.coreState t c = 0 ∧ u.core t c = s.core t c ∧
        (∀ d, d < 4 → d ≠ c → u.core t d = s.core t d ∧ u.coreState t d = s.coreState t d) ∧
        ∀ q, q < 64 → u.qState t q = if s.qState t q = 1 ∧ qCloseOnEnd (s.queueRec t q) = true ∧ qReader (s.queueRec t q) = c then 2
          else s.qState t q) ∧
    (∀ (s : State) (t c : Nat), kindOf t = .s → c < 4 → ((s.core t c).svReg 10).toNat ≤ s.siteTime t →
      ∃ u : State, Does (.svTimerExpiry t c) s u ∧ (u.irqPend t c).getLsbD 0 = true ∧
        (s.coreState t c = 2 → (s.core t c).wait = 2 → ((s.core t c).svReg 8).getLsbD 0 = true →
          s.halting t c = false → s.stepping t c = false → u.coreState t c = 1 ∧ u.core t c = { s.core t c with wait := 0, pc := ((s.core t c).pc + 4) % 2 ^ 64 }) ∧
        (s.coreState t c ≠ 1 → s.coreState t c ≠ 2 → u = s)) ∧
    (∀ (s : State) (t c : Nat), kindOf t = .s → c < 4 → s.coreState t c = 1 → s.siteRuns t = true → s.halting t c = false → s.stepping t c = false →
      (s.core t c).exc = none → (s.core t c).pc < 2 ^ 64 → (s.core t c).pc % 4 = 0 →
      let k := s.core t c
      let due := s.irqPend t c &&& k.svReg 8
      due ≠ 0 → (k.supervisor = false ∨ (k.svReg 0).getLsbD 0 = true) →
      ∃ u : State, Does (.interruptTaken t c) s u ∧
        (u.core t c).pc = (k.svReg 2).toNat / 4096 * 4096 + 0x200 + (if k.supervisor then 0x100 else 0) ∧
        (u.core t c).svReg 3 = BitVec.ofNat 64 k.pc ∧
        (u.core t c).svReg 4 = BitVec.ofNat 64 (256 + if due.getLsbD 0 then 0 else if due.getLsbD 1 then 1 else 2) ∧
        ((u.core t c).svReg 1).getLsbD 1 = k.supervisor ∧ ((u.core t c).svReg 1).getLsbD 0 = (k.svReg 0).getLsbD 0 ∧
        (u.core t c).supervisor = true ∧ ((u.core t c).svReg 0).getLsbD 0 = false ∧ ∀ r, (u.core t c).getS r = k.getS r)

/-- An engine of an M- or V-tile whose head may be taken (its token is there after those that the engines before it take, and its own condition holds)
takes it: the head leaves the queue and its token its counter; the instruction is in work with the next number, or, where its rule refuses it, the
queues are empty, its core is ENDING and the refusal with its cause and reason stands unless an earlier one does. The oldest instruction of an
engine that is done leaves, outside a pair, and adds its token, at most 255; an armed notification whose engines are idle sets the event flag of
core 0 and is no longer armed. A wait beyond ENG_STALL_LIMIT is marked and recorded once. (R187, R188, R189, R191, R216, R217.) -/
def Obligations.EngineCommands : Prop :=
    (∀ (s : State) (t : Nat) (e : Engine) (corr uncorr : List Nat) (i : EngInstr) (rest : List EngInstr), kindOf t = .m ∨ kindOf t = .v →
      let v := if kindOf t = .m then s.accErrors t corr uncorr else s
      let w := v.modSite t fun x => x.setQueue e rest
      let w := if i.we then w.takeToken t i.wk 1 else w
      (v.site t).queue e = i :: rest → (i.we = true → (v.site t).takesAhead (some e) i.wk < v.token t i.wk) →
      (v.site t).engineFree e i = true → i.core < 4 → i.wk < 16 →
      ∃ u : State, Does (.engineIssue t e corr uncorr) s u ∧
        (w.refusal t e i = none → (u.site t).queue e = rest ∧ (i.we = true → u.token t i.wk = v.token t i.wk - 1) ∧
          (∃ o ∈ (u.site t).issued e, o.id = (v.site t).nextEng ∧ o.instr = i) ∧ (u.site t).nextEng = (v.site t).nextEng + 1) ∧
        (∀ reason, w.refusal t e i = some reason → (∀ f, (u.site t).queue f = []) ∧ u.coreState t i.core = 3 ∧
          (i.we = true → u.token t i.wk = v.token t i.wk - 1) ∧
          ((v.core t i.core).engExc = none → (u.core t i.core).engExc =
            some { cause := refusalCause e i, pc := i.pc, val := reason, core := i.core, seq := i.seq }))) ∧
    (∀ (s : State) (t : Nat) (e : Engine) (o : EngIssued) (rest : List EngIssued), s.twin t = none → o.instr.sk < 16 →
      let v := if e = .drain then s.refuseTable t else if e = .compute then s.releaseMm t else s
      (v.site t).issued e = o :: rest → o.done = true →
      ∃ u : State, Does (.engineComplete t e) s u ∧ (u.site t).issued e = rest ∧
        (o.instr.se = true → u.token t o.instr.sk = min (255 - v.tokOut t o.instr.sk) (v.token t o.instr.sk + 1)) ∧
        (∀ m, (v.site t).notify = some m → (∀ f ∈ allEngines, m.testBit (engineNumber f) = true → (u.site t).engineIdle f = true) →
          (u.site t).notify = none)) ∧
    (∀ (s : State) (t : Nat) (w : Nat × Nat × Bool), let u := s.trackWaits t
      let limit := (u.treg t R.ENG_STALL_LIMIT).toNat
      (u.site t).waits.find? (fun w => !w.2.2 && limit < u.time - w.2.1) = some w → limit ≠ 0 → kindOf t ≠ .mi →
      let v := u.modSite t fun x => { x with waits := x.waits.map fun v => if v.1 == w.1 then (v.1, v.2.1, true) else v }
      let v := if kindOf t = .s then v else v.setTbit t R.ENG_STATUS 10 true
      Does (.engineStall t) s (v.fault 0x03 (u.sourceOf t 0) (u.partOf t) (le 4 (v.engStatus t).toNat ++ le 4 (v.engQueue t).toNat)))

/-- The next presented request of a tile cycle is considered. To a closed segment it leaves its port and completes six cycles later as CLOSED with
zeros; on a bank conflict it stays, has waited once more and counts in VIT_REFUSED; otherwise it leaves and completes after its latency: a read
delivers its cells and changes none, a write stores its bytes under its masks and no other byte, an AMO stores its result and delivers the old
value. The oldest access that is due leaves and brings its cells to the access of its core, which has arrived with its last piece. A corrected cell
is written back once its bank is free. The read data of a VSCATTER.ADD that is due lets the write of the sums, lane after lane, be presented on port
2. At a site with a vitrine an open makes a closed segment open in the next cycle and a powered-off one initialise for 4352 cycles, a close makes an
open one drain for 6, an off makes a closed one power off within 64; a command that the state does not take sets bad_cmd or is ignored, and no
command changes another segment. A command that reaches the site applies to it. Where an end is due, a draining segment (1) is closed (2), one that
powers off (3) is off (4) and one that initialises (5) is open (0), the latter two with every cell 0; no other segment changes its state or its
cells. (R138, R139, R140, R141, R142, R146, R171, R222, R143, R144, R145, R147.) -/
def Obligations.VitrineAndSegments : Prop :=
    ((∀ (s : State) (t c : Nat) (corr uncorr rest : List Nat) (r : VitReq), (s.site t).nextReq = some r → r.cells = c :: rest →
       (∀ x ∈ r.cells, x ∉ (s.site t).vitBad ∧ x ∉ uncorr) →
       ∃ u : State, Does (.vitRequestAccept t corr uncorr) s u ∧
         (s.segState t (cellSeg c) ≠ 0 → (u.site t).reqs = (s.site t).reqs.erase r ∧ (u.site t).vit = (s.site t).vit ∧ (u.site t).fly =
           (s.site t).fly ++ [{ req := r, done := (s.site t).cycle + 6, status := 2, data := List.replicate r.cells.length 0 }]) ∧
         (s.segState t (cellSeg c) = 0 → (s.site t).conflicts r = true → (u.site t).fly = (s.site t).fly ∧ (u.site t).vit = (s.site t).vit ∧
           (u.site t).reqs = ((s.site t).reqs.map fun q => if q = r then { r with wait := r.wait + 1 } else q) ∧
           u.treg t (R.VIT_REFUSED r.port) = s.treg t (R.VIT_REFUSED r.port) + 1) ∧
         (s.segState t (cellSeg c) = 0 → (s.site t).conflicts r = false → (u.site t).reqs = (s.site t).reqs.erase r ∧
           (let words := r.cells.map fun x => wordOfBytes ((List.range 4).map fun i => (s.site t).vitByte (4 * x + i))
            (u.site t).fly = (s.site t).fly ++ [{ req := r, done := (s.site t).cycle + r.latency, status := 0, data := words }]) ∧
           (r.write = false → r.amo = none → (u.site t).vit = (s.site t).vit) ∧
           (r.write = true → r.amo = none → (r.data.map (·.1)).Nodup →
             (∀ d ∈ r.data, (u.site t).vitByte d.1 = (d.2 &&& Map.get (fun _ => 0xFF) r.masks d.1) |||
               ((s.site t).vitByte d.1 &&& ~~~Map.get (fun _ => 0xFF) r.masks d.1)) ∧
             ∀ o, (∀ d ∈ r.data, d.1 ≠ o) → (u.site t).vitByte o = (s.site t).vitByte o) ∧
           ∀ op wide b d, r.amo = some (op, wide, b, d) →
             let n := if wide then 8 else 4
             let old := leNat ((List.range n).map fun i => (s.site t).vitByte (4 * c + i))
             (∀ i, i < n → (u.site t).vitByte (4 * c + i) = (leBytes n (amoResult op (8 * n) old b.toNat d.toNat)).getD i 0) ∧
             ∀ o, (o < 4 * c ∨ 4 * c + n ≤ o) → (u.site t).vitByte o = (s.site t).vitByte o)) ∧
     (∀ (s : State) (t id piece : Nat) (f : VitFly), (s.site t).dueFly (fun _ => true) = some f →
       f.req.user = .core id piece ∨ f.req.user = .vector id piece ∨ f.req.user = .gather id piece →
       ∃ u : State, Does (.vitAccessComplete t) s u ∧ (u.site t).fly = (s.site t).fly.erase f ∧ (u.site t).vit = (s.site t).vit ∧
         (u.core t 0).accesses = (s.core t 0).accesses.map fun a => if a.id ≠ id then a else
           let got := a.got ++ ((f.req.cells.zip f.data).map fun e => (e.1, [e.2])) ++ (if f.status = 0 then [] else [(closedMark, [])])
           { a with got := got, pieces := a.pieces - 1,
                    arrived := if a.pieces ≤ 1 then some (if got.any (fun e => e.1 == closedMark) then 2 else 0, 0) else a.arrived }) ∧
     (∀ (s : State) (t c : Nat), (s.site t).bankFree c = true → (∃ e ∈ (s.site t).writebacks, e.1 = c) →
       ∃ u : State, Does (.eccWriteback t c) s u ∧ (∀ e ∈ (u.site t).writebacks, e.1 ≠ c) ∧ ((u.site t).vit = (s.site t).vit)) ∧
     (∀ (s : State) (t id piece : Nat) (f : VitFly) (a : MemAcc), (s.site t).dueFly VitFly.addsUp = some f → f.req.user = .addRead id piece →
       f.status = 0 → (s.core t 0).accesses.find? (fun a => a.id == id) = some a →
       let lanes := (scatterSplit false 65 a.lanes).getD piece []
       let sums := (f.req.cells.zip f.data).flatMap fun e => match lanes.find? fun l => l.2 == e.1 with
         | some l => ((List.range 4).map (· + 4 * e.1)).zip (bytesOfWord (Num.fadd e.2 (a.laneValue l.1)))
         | none => []
       ∃ u : State, Does (.vscatterAddWrite t) s u ∧ (u.site t).fly = (s.site t).fly.erase f ∧ (u.site t).vit = (s.site t).vit ∧
         (u.site t).reqs = (s.site t).reqs ++ [writeReq 2 (.addWrite id piece) sums] ∧ (writeReq 2 (.addWrite id piece) sums).data = sums)) ∧
    ((∀ (s : State) (a : Agent) (t seg : Nat), s.Reached a t →
       Does (.segOpen a t seg) s (s.applied a t fun s t => s.segCommand t 0 (seg % 8)) ∧
       Does (.segClose a t seg) s (s.applied a t fun s t => s.segCommand t 1 (seg % 8)) ∧
       Does (.segOff a t seg) s (s.applied a t fun s t => s.segCommand t 2 (seg % 8))) ∧
     (∀ (s : State) (t seg : Nat), seg < 8 → vitSize t ≠ 0 →
       let ends := fun (u : State) (n : Nat) => Map.get (fun _ => 0) (u.site t).segEnd seg = (s.site t).cycle + n
       let o := s.segCommand t 0 seg
       let c := s.segCommand t 1 seg
       let f := s.segCommand t 2 seg
       (s.segState t seg = 2 → o.segState t seg = 2 ∧ ends o 1 ∧ f.segState t seg = 3 ∧ ends f 64 ∧ c = s) ∧
       (s.segState t seg = 4 → o.segState t seg = 5 ∧ ends o 4352 ∧ c = s ∧ f = s) ∧
       (s.segState t seg = 0 → c.segState t seg = 1 ∧ ends c 6 ∧ o = s ∧ f = s.badSegCmd t) ∧
       (s.segState t seg = 1 → o = s.badSegCmd t ∧ c = s ∧ f = s.badSegCmd t) ∧
       (s.segState t seg = 3 → o = s.badSegCmd t ∧ c = s ∧ f = s) ∧
       (s.segState t seg = 5 → o = s ∧ c = s.badSegCmd t ∧ f = s.badSegCmd t) ∧
       ∀ g, g < 8 → g ≠ seg → o.segState t g = s.segState t g ∧ c.segState t g = s.segState t g ∧ f.segState t g = s.segState t g) ∧
     (∀ (s : State) (t seg : Nat), seg < 8 → s.segDue t seg 1 = true → ∃ u : State, Does (.segDrainEnd t seg) s u ∧ u.segState t seg = 2 ∧
       (u.site t).vit = (s.site t).vit ∧ ∀ g, g < 8 → g ≠ seg → u.segState t g = s.segState t g) ∧
     (∀ (s : State) (t seg : Nat), seg < 8 → s.segDue t seg 3 = true → ∃ u : State, Does (.segPowerOffEnd t seg) s u ∧ u.segState t seg = 4 ∧
       (∀ c, c / 131072 = seg → (u.site t).readCell c = 0) ∧ (∀ c, c / 131072 ≠ seg → (u.site t).readCell c = (s.site t).readCell c) ∧
       ∀ g, g < 8 → g ≠ seg → u.segState t g = s.segState t g) ∧
     (∀ (s : State) (t seg : Nat), seg < 8 → s.segDue t seg 5 = true → ∃ u : State, Does (.segInitEnd t seg) s u ∧ u.segState t seg = 0 ∧
       (∀ c, c / 131072 = seg → (u.site t).readCell c = 0) ∧ (∀ c, c / 131072 ≠ seg → (u.site t).readCell c = (s.site t).readCell c) ∧
       ∀ g, g < 8 → g ≠ seg → u.segState t g = s.segState t g))

/-- QUANT_CLOSE and QUANT_CLEAR that reach a tile outside a pair: with the Drain engine idle a close latches the last amax, clears the merged amax and
the counts, adds a step and pushes a history that counted, and a clear empties counts, history and steps and keeps the scale; otherwise the write
waits for the boundary. A stream unit and a block row are asked for, with one read for each line. At its start a pass has entered slot 0, which
inverts the select bit of cell (0, 0) where it reloads, and shows its verb and fold. A due row is written to the unselected registers of its array
row. Initialising commits take their rows. The last commit of a chunk ends its pass and posts its completion unless it is held back. A due codebook
holds its canonical entries and its narrow flag. The oldest finished drain operation leaves, and nothing waits for the boundary any more. (R45, R49,
R51, R53, R58, R62, R81, R97, R99, R101, R126, R137.) -/
def Obligations.ArrayCommands : Prop :=
    (∀ (s : State) (a : Agent) (t q : Nat), s.Reached a t → q < 8 → (s.twin t = none ∨ s.inside a t = true) →
      let amax := maxBits (s.treg t (R.QUANT_STAT_AMAX q)) (s.treg t (R.QUANT_MERGE q))
      let counted := 0 < s.treg64 t (R.QUANT_STAT_COUNT_LO q) ∨ amax ≠ 0
      ((s.site t).drains ≠ [] → ∃ u v : State, Does (.quantClose a t q) s u ∧ Does (.quantClear a t q) s v ∧
        (u.site t).qcsr = (s.site t).qcsr ++ [(R.QUANT_CTL q, putBits (s.treg t (R.QUANT_CTL q)) 14 13 1)] ∧
        (v.site t).qcsr = (s.site t).qcsr ++ [(R.QUANT_CTL q, putBits (s.treg t (R.QUANT_CTL q)) 14 13 2)] ∧
        (u.site t).regs = (s.site t).regs ∧ (v.site t).regs = (s.site t).regs) ∧
      ((s.site t).drains = [] → ∃ u v : State, Does (.quantClose a t q) s u ∧ Does (.quantClear a t q) s v ∧
        u.treg t (R.QUANT_STAT_LAST_AMAX q) = amax ∧ u.treg t (R.QUANT_MERGE q) = 0 ∧ u.treg t (R.QUANT_STAT_AMAX q) = 0 ∧
        u.treg64 t (R.QUANT_STAT_COUNT_LO q) = 0 ∧ u.treg t (R.QUANT_STAT_STEPS q) = s.treg t (R.QUANT_STAT_STEPS q) + 1 ∧
        (counted → u.treg t (R.QUANT_HIST q 0) = amax ∧
          ∀ i, i < 15 → u.treg t (R.QUANT_HIST q (i + 1)) = s.treg t (R.QUANT_HIST q i)) ∧
        (¬counted → ∀ i, i < 16 → u.treg t (R.QUANT_HIST q i) = s.treg t (R.QUANT_HIST q i)) ∧
        (s.qauto t q = false → u.treg t (R.QUANT_SCALE q) = s.treg t (R.QUANT_SCALE q)) ∧
        v.treg64 t (R.QUANT_STAT_COUNT_LO q) = 0 ∧ v.treg t (R.QUANT_STAT_STEPS q) = 0 ∧ v.treg t (R.QUANT_STAT_LAST_AMAX q) = 0 ∧
        (∀ i, i < 16 → v.treg t (R.QUANT_HIST q i) = 0) ∧ v.treg t (R.QUANT_SCALE q) = s.treg t (R.QUANT_SCALE q))) ∧
    (∀ (s : State) (t c : Nat) (p : Pass), (s.arr t).nextUnit = some (p, c) → (s.arr t).feeder.length < 8 →
      (∀ r ∈ (s.site t).reqs, r.port ≠ 0) → let lines := coverLines (p.unitBytesOf c)
      ∃ u : State, Does (.streamUnitRead t) s u ∧ (u.arr t).feeder = (s.arr t).feeder ++
          [{ pass := p.id, index := c, span := 1, pieces := lines.length, got := [], crossing := 1 < lines.length, paid := false }] ∧
        ∃ scales : List VitReq, (∀ r ∈ scales, r.port = 1 ∧ ∃ l, r.user = .scale p.id l) ∧ (u.site t).reqs = (s.site t).reqs ++
          ((List.range lines.length).map fun k => readReq 0 (.stream p.id c k) (lines.getD k (0, 0)).1 (lines.getD k (0, 0)).2) ++ scales) ∧
    (∀ (s : State) (t j : Nat) (p : Pass), (s.arr t).nextRow = some (p, j) → (s.arr t).rowFree p j = true →
      ∃ u : State, Does (.loaderRowRead t) s u ∧ (u.site t).reqs = (s.site t).reqs ++ p.rowReads j ∧ (u.arr t).staging = (s.arr t).staging ++
        [{ pass := p.id, index := j, span := p.rowSpan, pieces := (p.rowReads j).length, got := [], crossing := false, paid := false }]) ∧
    (∀ (s : State) (t : Nat) (p : Pass), (s.arr t).entering = some p → (s.arr t).busy = true → p.entered = 0 → (s.site t).freeze = .none →
      p.mm.fold < 4 → ∃ u : State, Does (.passStart t) s u ∧
        (u.arr t).passes = ((s.arr t).passes.map fun q => if q.id = p.id then
          { p with entered := 1, units := p.units ++ [((s.site t).expandSlot p 0).1] } else q) ∧
        (u.arr t).feeder = ((s.arr t).feeder.filter fun x => !(x.pass == p.id && x.index == 0)) ∧
        (u.arr t).select = (if p.reload then (s.arr t).select ^^^ 1#1024 else (s.arr t).select) ∧
        ∃ code, code < 8 ∧ Num.verbOf code = some p.mm.verb ∧
          u.tfld t R.ENG_ARR_STATE 10 4 = p.mm.paired.toNat * 64 + p.mm.fold * 16 + code) ∧
    (∀ (s : State) (t j : Nat) (p : Pass), (s.arr t).loading = some (p, j) → (s.arr t).busy = true → (s.site t).freeze = .none → j < 32 →
      let v := (s.arr t).moveTags
      ∃ u : State, Does (.stationaryRowWrite t) s u ∧ (u.arr t).select = v.select ∧
        (u.arr t).passes = ((s.arr t).passes.map fun q => if q.id = p.id then { p with wrote := j + 1 } else q) ∧
        (∀ n, n < 32 → Map.get (fun _ => none) (u.arr t).plinths (1024 * (1 - v.selected (32 * j + n)) + 32 * j + n) =
          ((s.site t).expandRow p j).1.getD n none) ∧
        ∀ k, (∀ n, n < 32 → k ≠ 1024 * (1 - v.selected (32 * j + n)) + 32 * j + n) →
          Map.get (fun _ => none) (u.arr t).plinths k = Map.get (fun _ => none) (s.arr t).plinths k) ∧
    (∀ (s : State) (t : Nat), (s.arr t).busy = true → (s.site t).freeze = .none → ((s.arr t).passes.map (·.id)).Nodup →
      ∃ u : State, Does (.initialisingCommit t) s u ∧ ∀ p ∈ (s.arr t).passes, ∀ c, p.commitSlot (s.arr t).cycle 0 = some c →
        p.initRows c ≠ [] → (s.arr t).committed.contains (p.id, 0) = false → (p.id, 0) ∈ (u.arr t).committed ∧
          (p.colValid 0 = true → ∀ row ∈ p.initRows c, row ∈ (u.site t).taken)) ∧
    (∀ (s : State) (t : Nat) (p : Pass), (s.arr t).busy = true → (s.site t).freeze = .none →
      (s.arr t).passes.find? (fun p => p.end_ == (s.arr t).cycle && p.kp + 1 == p.mm.kpCount && p.sp + 1 == p.mm.subs) = some p →
      ∃ u : State, Does (.chunkCompletion t) s u ∧ (u.arr t).passes = (s.arr t).passes.filter (fun q => q.id != p.id) ∧
        (u.site t).posted = (s.site t).posted ++ (if p.mm.hold then [] else
          [(p.mm.handle, { base := p.mm.base, r := p.mm.r, ch := p.ch, nb := p.nb, lines := p.lines, fold := p.mm.fold,
                           verb := p.mm.verb, m := p.mm.m, n := p.mm.n, ts := p.mm.ts })])) ∧
    (∀ (s : State) (t id cb at_ : Nat) (ws : List (BitVec 32)), (s.site t).cbDue = some (id, cb, at_, ws) → ws.length = 8 → cb < 64 →
      ∃ u : State, Does (.codebookTakesEffect t) s u ∧
        (∀ i, i < 16 → Map.get (fun _ => 0) (u.site t).books (16 * cb + i) =
          Num.canonE8M7 ((ws.getD (i / 2) 0).extractLsb' (16 * (i % 2)) 16)) ∧
        (∀ k, (k < 16 * cb ∨ 16 * cb + 16 ≤ k) → Map.get (fun _ => 0) (u.site t).books k = Map.get (fun _ => 0) (s.site t).books k) ∧
        (u.tbit t (if cb < 32 then R.ENG_CB_NARROW_LO else R.ENG_CB_NARROW_HI) (cb % 32) = true ↔
          ∀ i, i < 16 → (Map.get (fun _ => 0) (u.site t).books (16 * cb + i)).toNat % 16 = 0)) ∧
    (∀ (s : State) (t : Nat) (d : DrainOp) (rest : List DrainOp), (s.site t).drains = d :: rest → d.finished = true →
      ¬(d.instr.aop = 6 ∧ d.instr.isDr = false ∧ d.closed = true) →
      ∃ u : State, Does (.drainComplete t) s u ∧ (u.site t).drains = (s.site t).drains.filter (fun p => p.id != d.id) ∧
        (u.site t).drainOn = ((s.site t).drainOn.map fun e => if e.id = d.id then { e with done := true } else e) ∧
        (u.site t).qcsr = [] ∧ (u.site t).qvec = [])

/-- An access whose turn has come at its channel, to a stack in service and outside a scrub, leaves the list. A read brings the plaintext of a block
that decodes, ones otherwise, to its packet and leaves every block; a corrected one is counted and marked for a rewrite. A whole write stores the
encoding of its bytes in any state of the block; a partial write that of the merged block, an AMO that of its result, and brings the old value;
where the block does not decode both are dropped, counted in the drop register and the block stays. No other block changes. A part brought to a
packet is one part less that is outstanding. A corrected block is rewritten while its bank has no request. A rebuild comes to its next offset and
ends at the last, and patrol goes to the next block of its channel. A row that needs it and is not under copy is retired: the copy into the lowest
free spare of its bank begins, and without one the row is recorded as pending once. The switch ends the copy, names the spare in the remap, puts the
row into the retired rows and marks the catalogue changed. A refresh that is due notes its time. A reading of the four sensors makes the hottest the
temperature, raises the peak, sets the state and records the step to critical. A zeroing scrub of a unit in force raises its epoch and the busy bits
of its stacks, and at its end every block of the unit holds zeros under the new key set. (R244, R246, R247, R248, R250, R251, R254, R255, R256,
R253, R257, R258.) -/
def Obligations.DramCommands : Prop :=
    (let away : State → MiReq → State → Prop := fun s r u => u.net.mi.length + 1 = s.net.mi.length ∧
       ∀ stack off, blockKey stack off ≠ blockKey r.stack r.off → u.block stack off = s.block stack off
     (∀ (s : State) (req : Nat) (flips : List (Nat × BitVec 8)) (die : Option Nat) (r : MiReq), s.net.mi.find? (fun r => r.id == req) = some r →
       s.miReady r = true → s.stackOk r.stack r.off = true → s.dramClosed r.addr = false →
       let w := s.disturb r.stack r.off flips
       let d := w.decodeBlock r.stack r.off r.addr
       let v := (cipherOf (w.keyOf r.addr)).symm d.cipher
       let n := fun (wide : Bool) => if wide then 8 else 4
       let plain := fun (i : Nat) => byte512 v (r.from_ + i)
       (r.kind = 0 → d.result < 2 → ∃ u : State, away s r u ∧ u.dram.blocks = w.dram.blocks ∧
         Does (.dramRead req flips die) s (u.servePart r.serve 0 ((List.range r.count).map fun i => (r.pos + i, plain i))) ∧
         (d.result = 1 → u.reg (R.MEM_STK_CORR r.stack) = satAdd (s.reg (R.MEM_STK_CORR r.stack)) 1 ∧
           Map.get (fun _ => 0) u.dram.rewrites (blockKey r.stack r.off) = 1)) ∧
       (r.kind = 0 → 2 ≤ d.result → s.bit R.SEC_CTL 0 = false → ∃ u : State,
         Does (.dramRead req flips die) s (u.servePart r.serve 0 ((List.range r.count).map fun i => (r.pos + i, 0xFF))) ∧
         u.net.mi.length + 1 = s.net.mi.length ∧ u.dram.blocks = w.dram.blocks ∧
         let a := if d.result = 2 then R.MEM_STK_UNCORR r.stack else R.MEM_STK_MACFAIL r.stack
         u.reg a = satAdd (s.reg a) 1 ∧ u.reg (R.MEM_STK_ERR_ADDR_LO r.stack) = BitVec.ofNat 32 (r.addr / 64 * 64)) ∧
       (r.kind = 1 → ∃ u : State, Does (.dramWrite req) s u ∧ away s r u ∧
         u.block r.stack r.off = encodeBlock (s.keyOf r.addr) (s.encDie r.stack r.off) (setBytes512 0 r.bytes) ∧
         Map.get (fun _ => 0) u.dram.rewrites (blockKey r.stack r.off) = 0) ∧
       (r.kind = 2 → r.amo = none → d.result < 2 → ∃ u : State, Does (.dramPartialWrite req flips die) s u ∧ away s r u ∧
         u.block r.stack r.off = encodeBlock (s.keyOf r.addr) (s.encDie r.stack r.off) (setBytes512 v r.bytes)) ∧
       (∀ op wide b x, r.kind = 3 → r.amo = some (op, wide, b, x) → d.result < 2 →
         let old := leNat ((List.range (n wide)).map plain)
         let new := leBytes (n wide) (amoResult op (8 * n wide) old b.toNat x.toNat)
         ∃ u : State, away s r u ∧ u.block r.stack r.off = encodeBlock (s.keyOf r.addr) (s.encDie r.stack r.off)
             (setBytes512 v (((List.range (n wide)).map (· + r.from_)).zip new)) ∧
           Does (.dramPartialWrite req flips die) s (u.servePart r.serve 0 ((List.range (n wide)).zip (leBytes (n wide) old)))) ∧
       (r.kind = 2 ∨ r.kind = 3 → 2 ≤ d.result → s.bit R.SEC_CTL 0 = false → ∃ u : State, u.net.mi.length + 1 = s.net.mi.length ∧
         u.dram.blocks = w.dram.blocks ∧ u.reg (R.MEM_STK_DROP r.stack) = satAdd (s.reg (R.MEM_STK_DROP r.stack)) 1 ∧
         Does (.dramPartialWrite req flips die) s
           (if r.kind = 3 then u.servePart r.serve 0 ((List.range 8).map fun i => (i, 0xFF)) else u))) ∧
     (∀ (s : State) (id : Nat) (data : List (Nat × BitVec 8)) (v : Serve), s.net.serves.find? (fun v => v.id == id) = some v → 1 < v.left →
       { v with left := v.left - 1, data := v.data ++ data } ∈
         (s.servePart id v.status data).net.serves) ∧
     (∀ (s : State) (stack off a : Nat), Map.get (fun _ => 0) s.dram.rewrites (blockKey stack off) = 1 →
       (∀ r ∈ s.net.mi, ¬(r.stack = stack ∧ channelOf r.off = channelOf off ∧ bankOf r.off = bankOf off)) → s.addressAt stack off = some a →
       let d := s.decodeBlock stack off a
       ∃ u : State, Does (.dramCorrectedRewrite stack off) s u ∧ Map.get (fun _ => 0) u.dram.rewrites (blockKey stack off) = 0 ∧
         u.block stack off = (if d.result < 2 then encodeBlock (s.keyOf a) (s.encDie stack off) ((cipherOf (s.keyOf a)).symm d.cipher)
           else s.block stack off) ∧
         ∀ stack' off', blockKey stack' off' ≠ blockKey stack off → u.block stack' off' = s.block stack' off') ∧
     (∀ (s : State) (stack upTo : Nat), stack < 32 → s.bit (R.MEM_STK_STATE stack) 18 = true → upTo % 64 = 0 → upTo ≤ 2 ^ 35 →
       Map.get (fun _ => 0) s.dram.rebuilt stack < upTo →
       ∃ u : State, Does (.rebuildComplete (stack, upTo)) s u ∧ Map.get (fun _ => 0) u.dram.rebuilt stack = upTo ∧
         (u.bit (R.MEM_STK_STATE stack) 18 = true ↔ upTo < 2 ^ 35) ∧
         (∀ off, off < upTo → s.fld (R.MEM_STK_STATE stack) 17 16 = 1 → u.encDie stack off = some (s.failedDie stack)) ∧
         ∀ stack' off, stack' ≠ stack → stack' < 32 → off < 2 ^ 35 → u.block stack' off = s.block stack' off) ∧
     (∀ (s : State) (t channel : Nat) (flips : List (Nat × BitVec 8)) (die : Option Nat), kindOf t = .mi → s.bit R.MEM_CTL 8 = true →
       let stack := (miStack t).1
       let ch := (miStack t).2 + channel % 8
       let n := Map.get (fun _ => 0) s.dram.patrol (stack * 32 + ch)
       s.patrolDue stack ch n = true →
       ∃ u : State, Does (.patrolRead t channel flips die) s u ∧ Map.get (fun _ => 0) u.dram.patrol (stack * 32 + ch) = (n + 1) % 2 ^ 24 ∧
         (n = 0 → Map.get (fun _ => 0) u.dram.patrolAt (stack * 32 + ch) = s.time) ∧
         (n + 1 = 2 ^ 24 → Map.get (fun _ => 0) u.dram.passes (stack * 32 + ch) =
           Map.get (fun _ => 0) s.dram.passes (stack * 32 + ch) + 1) ∧ u.net.mi = s.net.mi)) ∧
    ((∀ (s : State) (stack channel bank row die : Nat) (read : Bool),
       let k := rowKey stack channel bank row
       (read = true ∧ k ∈ s.dram.wide ∨ read = false ∧ 2 ^ 20 ≤ Map.get (fun _ => 0) s.dram.suspects k) →
       (∀ c ∈ s.dram.copies, rowKey c.stack c.channel c.bank c.row ≠ k) → s.bit (R.MEM_STK_STATE stack) 0 = false →
       stack < 32 → channel < 32 → bank < 32 → row < 16384 →
       ∃ u : State, Does (.rowRetire stack channel bank row die read) s u ∧
         (∀ i, s.freeSpare stack channel bank = some i → u.flash = s.flash ∧ u.dram.copies = s.dram.copies ++
           [{ stack := stack, channel := channel, bank := bank, row := row, spare := i, die := die, since := s.time }]) ∧
         (s.freeSpare stack channel bank = none → u.dram = s.dram ∧
           (u.flash.pendingRows = s.flash.pendingRows ∨
             u.flash.pendingRows = s.flash.pendingRows ++ [retiredEntry stack channel (die % 8) bank row]))) ∧
     (∀ (s : State) (stack channel bank i : Nat), channel < 32 → bank < 32 → s.freeSpare stack channel bank = some i → i < 16 ∧
       ∀ c ∈ s.dram.copies, c.stack = stack → c.channel = channel → c.bank = bank → c.spare ≠ i) ∧
     (∀ (s : State) (stack channel bank row : Nat) (c : RowCopy),
       s.dram.copies.find? (fun c => rowKey c.stack c.channel c.bank c.row == rowKey stack channel bank row) = some c →
       ∃ u : State, Does (.rowRemapSwitch stack channel bank row) s (u.catDirty false) ∧ u.dram.copies = s.dram.copies.erase c ∧
         Map.get (fun _ => 0) u.dram.remaps (rowKey stack channel bank row) = 16384 + c.spare ∧
         Map.get (fun _ => 0) u.dram.suspects (rowKey stack channel bank row) = 0 ∧
         u.cat.tables.retired = addRetired s.cat.tables.retired (retiredEntry c.stack c.channel (c.die % 8) c.bank c.row)) ∧
     (∀ (s : State) (stack : Nat), stack < 32 →
       Map.get (fun _ => 0) s.dram.refreshed stack + refreshInterval (s.stackTemp stack) ≤ s.time →
       ∃ u : State, Does (.refresh stack) s u ∧ Map.get (fun _ => 0) u.dram.refreshed stack = s.time ∧ u.dram.blocks = s.dram.blocks) ∧
     (∀ (s : State) (stack : Nat) (t0 t2 t5 t7 : Int), stack < 32 →
       let v := max (max t0 t2) (max t5 t7)
       let old := s.stackTemp stack
       let new := if 1520 ≤ v ∨ (old = 2 ∧ 1472 ≤ v) then 2 else if 1360 ≤ v ∨ (old ≠ 0 ∧ 1312 ≤ v) then 1 else 0
       ∃ u : State, Does (.stackTempChange stack (t0, t2, t5, t7)) s
           (if new = 2 ∧ old ≠ 2 then u.fault 0x19 (u.sourceOf (miSite stack 0) 0) none (le 1 stack ++ le 2 (twos 16 v)) else u) ∧
         u.stackTemp stack = new ∧ u.fld (R.MEM_STK_TEMP stack) 15 0 = twos 16 v ∧
         u.fld (R.MEM_STK_TEMP stack) 31 16 = if signed16 (s.fld (R.MEM_STK_TEMP stack) 31 16) < v then twos 16 v
           else s.fld (R.MEM_STK_TEMP stack) 31 16) ∧
     (∀ (s : State) (unit : Nat), unit ∈ unitsOf s.fab.active → unit ∉ s.dram.zeroing →
       ∃ u : State, Does (.zeroingScrubStart unit) s u ∧ unit ∈ u.dram.zeroing ∧
         Map.get (fun _ => 0) u.dram.epochs unit = Map.get (fun _ => 0) s.dram.epochs unit + 1 ∧
         (∀ b ∈ s.unitBands unit, b.1 < 32 → u.bit (R.MEM_STK_STATE b.1) 0 = true) ∧ u.dram.blocks = s.dram.blocks) ∧
     (∀ (s : State) (unit : Nat), unit ∈ s.dram.zeroing →
       ∃ u : State, Does (.zeroingScrubEnd unit) s u ∧ unit ∉ u.dram.zeroing ∧
         ∀ b ∈ s.unitBands unit, b.1 < 32 → b.2 < 32 → ∀ off, off / gib = b.2 →
           u.block b.1 off = encodeBlock (unitDomain s.fab.active unit, s.epoch unit, unitAddr unit b.1 off / 64) (s.encDie b.1 off) 0))

/-- The access that waits longest at a site interface and is ready leaves it: a message, token or doorbell as one packet to its tile with the next tag,
whose answer is waited for; a memory access as one packet for each piece that may be accessed and has a router. An output of a running router sends
the flit whose turn it is: it leaves its input and reaches the next router, the crossing, or the interface; a packet without a route is gone. A
corrected flit counts in NET_FLIT_CORR. A token that arrived whole at a live site that admits it, not swapping or scrubbing, adds to its counter, at
most 255, and is gone; no packet stays that was refused. An answer is gone and leaves the waiting list of its access, which has one piece less. A
head or sync arrival that waits beyond the limit of its site is recorded once. (R260, R263, R271, R273, R274, R275, R294, R295.) -/
def Obligations.PacketCommands : Prop :=
    (∀ (s : State) (origin : Nat) (r : NetReq), s.net.outbox.find? (fun r => r.origin == origin) = some r → r.ready = true →
      s.entryRuns r = true → r.passing = none → (∀ p h, r.user ≠ .ingress p h) → origin < 3072 → r.hdr.dev = s.deviceId →
      (r.hdr.kind < 6 → r.hdr.tile < 3072 → s.wingUp (wingOf origin) = true →
        ∃ u : State, Does (.packetInject origin) s u ∧ u.net.outbox = s.net.outbox.erase r ∧ u.net.tag = (s.net.tag + 1) % 65536 ∧
          ∃ p : Packet, u.net.packets = s.net.packets ++ [p] ∧ p.hdr = { r.hdr with tag := s.net.tag, len := r.data.length } ∧
            p.data = r.data ∧ p.target = r.hdr.tile ∧ p.source = origin * 8 + ifaceIn ∧ p.sent = 0 ∧ p.stage = 0 ∧
            ∃ w ∈ u.net.waits, w.src = r.hdr.src ∧ w.tag = s.net.tag) ∧
      (8 ≤ r.hdr.kind → r.hdr.kind ≤ 10 → (r.user.checked = true → ∀ a w, s.mayReach r.agent a w = true) → s.wingUp (wingOf origin) = true →
        let ps := s.piecesOf r.hdr.addr r.hdr.len (r.hdr.kind == 10)
        (∀ p ∈ ps, p.status = 0) → ∃ u : State, Does (.packetInject origin) s u ∧ u.net.outbox = s.net.outbox.erase r ∧
          ∃ new : List Packet, u.net.packets = s.net.packets ++ new ∧ new.map (·.target) = ps.map (·.tile) ∧
            ∀ p ∈ new, p.hdr.kind = r.hdr.kind ∧ p.hdr.src = r.hdr.src ∧ p.sent = 0)) ∧
    (∀ (s : State) (r o v i k : Nat) (p : Packet), r < 3072 → o < 7 → s.routerRuns r = true →
      let w := s.fillInputs r
      w.outputTurn r o = some (v, i, p, k) → i < 8 → v < 4 → w.net.packet p.id = some p → vcOf p.hdr.kind = v → p.id < w.net.nextId →
      let a := vcKey r i v
      ∃ u : State, Does (.routerHop r o 0) s u ∧
        (o < 4 → ∀ n, w.nextRouter r o = some n → n ≠ r → (w.net.buf a).flits.drop 1 = (u.net.buf a).flits ∧
          (∀ c, bnSeam r o = some c → ∃ e : Nat × Nat × Nat, e.2 = (p.id, k) ∧ (u.seam c).entries = (w.seam c).entries ++ [e]) ∧
          (bnSeam r o = none → (u.net.buf (vcKey n ((o + 2) % 4) v)).flits = (w.net.buf (vcKey n ((o + 2) % 4) v)).flits ++ [(p.id, k)])) ∧
        (o = 4 → p.leaves = none → (u.net.buf a).flits = (w.net.buf a).flits.drop 1 ∧
          ∃ q ∈ u.net.packets, q.id = p.id ∧ q.got = p.got + 1) ∧
        (o = 6 → ∀ q ∈ u.net.packets, q.id ≠ p.id) ∧
        (o = 4 → p.leaves = none → ∃ x : State, Does (.routerHop r o 1) s x ∧ x.treg r R.NET_FLIT_CORR = satAdd (w.treg r R.NET_FLIT_CORR) 1)) ∧
    (∀ (s : State) (pkt : Nat) (p : Packet), s.net.packets.find? (fun p => p.id == pkt) = some p → s.arrived p = true → p.target < 3072 →
      let t := p.router
      (vcOf p.hdr.kind ≠ 1 → Does (.packetReceive pkt) s (s.receive p t)) ∧
      (p.hdr.kind = 4 → s.live t = true → p.hdr.version = 1 → p.bad = false → s.isLead t = true → canHold (kindOf t) 4 = true →
        s.swappingSite t = false → s.admits (s.partOf t) p.hdr.src p.agent (s.ownSite p.hdr.src t) = true → s.siteScrubbing t = false →
        s.twin t = none → pkt < s.net.nextId →
        let k := p.hdr.arg / 2 ^ 12 % 16
        ∃ u : State, Does (.packetReceive pkt) s u ∧ u.token t k = min (255 - s.tokOut t k) (s.token t k + p.hdr.arg / 16 % 256) ∧
          (∀ j, j < 16 → j ≠ k → u.token t j = s.token t j) ∧ ∀ q ∈ u.net.packets, q.id ≠ pkt)) ∧
    (∀ (s : State) (p : Packet) (t status : Nat), p.id < s.net.nextId → ∀ q ∈ (s.refuse p t status).net.packets, q.id ≠ p.id) ∧
    (∀ (s : State) (pkt : Nat) (p : Packet), s.net.packets.find? (fun p => p.id == pkt) = some p → s.arrived p = true → vcOf p.hdr.kind = 1 →
      let src := 65536 * p.hdr.dev + p.hdr.tile * 16 + srcUnit p.hdr.src
      (∀ w j, s.net.waits.find? (fun w => w.src == src && w.tag == p.hdr.tag) = some w → s.net.joins.find? (fun j => j.id == w.join) = some j →
        1 < j.left →
        let status := if p.bad then 3 else p.hdr.status
        let offs := w.offs.flatMap fun e => (List.range e.2).map (· + e.1)
        ∃ u : State, Does (.completionReceive pkt) s u ∧ u.net.waits = s.net.waits.erase w ∧
          u.net.packets = s.net.packets.filter (fun q => q.id != pkt) ∧
          { j with left := j.left - 1, status := max j.status status, data := j.data ++
            (if status = 0 ∨ p.hdr.kind = 11 ∧ p.bad = false then offs.zip p.data else []) } ∈ u.net.joins) ∧
      (s.net.waits.find? (fun w => w.src == src && w.tag == p.hdr.tag) = none → p.router < 3072 →
        ∃ u : State, Does (.completionReceive pkt) s u ∧ u.net.packets = s.net.packets.filter (fun q => q.id != pkt) ∧
          u.treg p.router R.NET_COMPL_LOST = satAdd (s.treg p.router R.NET_COMPL_LOST) 1 ∧ u.tbit p.router R.NET_STATUS 2 = true)) ∧
    (∀ (s : State) (t vc port : Nat), let k := vcKey t port vc
      let code := BitVec.ofNat 32 (port * 64 + vc * 16)
      port ≠ 6 → (s.net.buf k).flits ≠ [] → (s.net.buf k).reported = false → s.stalled t (s.net.buf k).since = true →
      ∃ u : State, Does (.netStall t port vc) s (u.fault 0x04 (s.sourceOf t 0) none (le 4 (port * 64 + vc * 16))) ∧
        (u.net.buf k).reported = true ∧ u.treg t R.NET_STALL_WHERE = code ∧ u.tbit t R.NET_STATUS 0 = true) ∧
    (∀ (s : State) (t vc : Nat) (c : Nat × SnCtx),
      s.net.sn.find? (fun c => (c.2.arrived.any fun a => a.1 == t && s.stalled t a.2) && !(s.site t).stalls.contains (6, c.1)) = some c →
      ∃ u : State, Does (.netStall t 6 vc) s u ∧ (6, c.1) ∈ (u.site t).stalls ∧ u.treg t R.NET_STALL_WHERE = 384 ∧
        u.tbit t R.NET_STATUS 0 = true)

/-- The unit of a running wing takes the contribution that arrived first: one of the current or next accession is added to its half, in arrival mode at
once, and any other changes no half; one that was not mirrored is answered. The results of a complete round leave for CONC_DEST in ascending element
order as one write, elements whose storage is uncorrectable as all ones, and the slot delivers. Once every delivery write is answered the
notification leaves, its half is empty and the next accession is current. A write of CONC_CFG takes effect while neither half holds a contribution
and the storage is enough; otherwise it changes no configuration and sets the error bit. (R287, R288, R289, R290, R291, R292.) -/
def Obligations.ConcordCommands : Prop :=
    (∀ (s : State) (t : Nat) (p : Packet) (rest : List Packet), (s.site t).concIn = p :: rest → s.wingRuns (wingOf t) = true →
      let n := p.hdr.queue % 16
      let form := s.concForm t n
      let v := s.modSite t fun x => { x with concIn := rest }
      let code := (v.concTake p t).1
      ∃ u w : State, Does (.concContribution t) s (if p.reported then u else w.answer p t code []) ∧
        (u.site t).concIn = rest ∧ (w.site t).concIn = rest ∧ (code = 0 → w = u) ∧
        (code = 0 ↔ s.treg t (R.CONC_ALLOC n) ≠ 0 ∧ p.hdr.queue < 16 ∧ (p.hdr.acc = s.concAcc t n ∨ p.hdr.acc = (s.concAcc t n + 1) % 1024) ∧
          s.concC t n ≠ 0 ∧ p.data.length % concSize form = 0 ∧ p.hdr.arg / 1024 % 1024 + p.data.length / concSize form ≤ s.concE t n ∧
          (s.concDet t n = true → (s.concHalf t n p.hdr.acc).bufs.any (fun b => b.src == p.hdr.src) = true ∨
            (s.concHalf t n p.hdr.acc).bufs.length < s.concC t n)) ∧
        (code = 0 → s.concDet t n = false →
          u.concHalf t n p.hdr.acc = (s.concHalf t n p.hdr.acc).arrive form (p.hdr.arg / 1024 % 1024) (concElems form p.data)) ∧
        (code ≠ 0 → (w.site t).conc = (s.site t).conc)) ∧
    (∀ (s : State) (t n : Nat) (uncorr : List Nat), n < 16 → s.wingRuns (wingOf t) = true → s.concState t n = 1 → s.concComplete t n = true →
      (∀ i ∈ uncorr, s.concE t n ≤ i) ∨ s.bit R.SEC_CTL 0 = false →
      let bytes := (List.range (s.concE t n)).flatMap fun i =>
        let b := concOut (s.concForm t n) (s.tbit t (R.CONC_CFG n) 28) (s.concElem t n i)
        if uncorr.contains i then b.map fun _ => 0xFF else b
      ∃ u : State, Does (.concDelivery t n uncorr) s u ∧ u.concState t n = 2 ∧ Map.get (fun _ => 0) (u.site t).concLeft n = 1 ∧
        ∃ r : NetReq, u.net.outbox = s.net.outbox ++ [r] ∧ r.data = bytes ∧ r.hdr.kind = 9 ∧ r.hdr.addr = s.tacted64 t (R.CONC_DEST_LO n) ∧
          r.origin = t ∧ r.user = .concWrite t n) ∧
    (∀ (s : State) (t n : Nat), n < 16 → s.wingRuns (wingOf t) = true → s.concState t n = 2 → Map.get (fun _ => 0) (s.site t).concLeft n = 0 →
      let r := s.treg t (R.CONC_NOTIFY n)
      ∃ u : State, Does (.concNotify t n) s u ∧ u.concState t n = 1 ∧ u.concAcc t n = (s.concAcc t n + 1) % 1024 ∧
        u.concHalf t n (s.concAcc t n) = .empty ∧
        (getBits r 31 30 = 1 → ∃ q : NetReq, u.net.outbox = s.net.outbox ++ [q] ∧ q.hdr.kind = 4 ∧ q.hdr.tile = getBits r 29 18 ∧
          q.hdr.arg = 2 ^ 12 * getBits r 17 14 + 16) ∧
        (getBits r 31 30 = 2 → ∃ q : NetReq, u.net.outbox = s.net.outbox ++ [q] ∧ q.hdr.kind = 5 ∧ q.hdr.tile = getBits r 29 18 ∧
          q.data = leBytes 8 (n + 16 * s.concAcc t n)) ∧
        (getBits r 31 30 = 0 → u.net.outbox = s.net.outbox)) ∧
    (∀ (s : State) (a : Agent) (t n : Nat) (w : BitVec 32), s.Reached a t →
      Does (.concCfgWrite a t n w) s (s.applied a t fun s t => s.concCfg t (n % 16) w)) ∧
    (∀ (s : State) (t n : Nat) (w : BitVec 32), n < 16 →
      let u := s.concCfg t n w
      let need := (getBits w 25 16 + 1) * (if w.getLsbD 31 then 2 * getBits w 15 0 else 2)
      let free := (s.concHalf t n (s.concAcc t n)).taken = 0 ∧ (s.concHalf t n (s.concAcc t n + 1)).taken = 0 ∧ s.concState t n ≠ 2
      (free → need ≤ getBits (s.treg t (R.CONC_ALLOC n)) 31 16 → u.concC t n = getBits w 15 0 ∧ u.concE t n = getBits w 25 16 + 1 ∧
        u.concState t n = if getBits w 15 0 = 0 then 0 else 1) ∧
      (¬free ∨ getBits (s.treg t (R.CONC_ALLOC n)) 31 16 < need → u = s.setTbit t (R.CONC_STATE n) 30 true))

/-- A window command that reaches its tile, and that its owner gives for a window in the other state while none of the tile is under way, sets busy and
waits for every copy, an open with the next accession; any other sets the reject bit and sends nothing. A copy applies a command once it has applied
the earlier ones to that window, and is then no longer waited for. Once every live copy has applied it, no earlier command to the window remains and
after a close no write may still change the memory, busy clears and the window holds the state and accession. An operation of NET_SYNC_CTX that
reaches a site outside a pair: an arrive of a member of a barrier that has not arrived marks it arrived and notes its time; a set or clear of a
member of an ANY or ALL context becomes its input; no operation changes nothing; one that is not the site's to make is rejected. A wave reaches a
member not before 40 ns after the change: a release clears arrived and adds 1 to the round (modulo 256), a flag change shows its value. A barrier in
which every member and down port has arrived is released, to its members and down ports, in the next round, or sends one arrival up. An arrival of a
down port of the round counts once, and a release of the up port releases the round that was sent up. (R283, R298, R299, R301.) -/
def Obligations.WindowsAndBarriers : Prop :=
    ((∀ (s : State) (a : Agent) (t w : Nat), s.Reached a t →
       Does (.windowOpen a t w) s (s.applied a t fun s t => s.winWrite t 0 (w % 256)) ∧
       Does (.windowClose a t w) s (s.applied a t fun s t => s.winWrite t 1 (w % 256))) ∧
     (∀ (s : State) (t w : Nat), s.twin t = none →
       let r := s.winRec w
       let may := fun (state : Nat) => s.tbit t R.NET_WIN_STATUS 31 = false ∧ winState r ≠ 0 ∧ s.partOf t = some (winOwner r) ∧ (s.winLast w).1 = state
       let o := s.winWrite t 0 w
       let c := s.winWrite t 1 w
       (may 2 → o.tbit t R.NET_WIN_STATUS 31 = true ∧ ∃ k : WinCmd, o.net.winCmds = s.net.winCmds ++ [k] ∧ k.win = w ∧ k.tile = t ∧
         k.state = 1 ∧ k.acc = ((s.winLast w).2 + 1) % 1024 ∧ k.left = s.winCopies) ∧
       (may 1 → c.tbit t R.NET_WIN_STATUS 31 = true ∧ ∃ k : WinCmd, c.net.winCmds = s.net.winCmds ++ [k] ∧ k.win = w ∧ k.tile = t ∧
         k.state = 2 ∧ k.acc = (s.winLast w).2 ∧ k.left = s.winCopies) ∧
       (¬may 2 → o = s.setTbit t R.NET_WIN_STATUS 30 true) ∧ (¬may 1 → c = s.setTbit t R.NET_WIN_STATUS 30 true)) ∧
     (∀ (s : State) (copy cmd : Nat) (c : WinCmd), s.net.winCmds.find? (fun c => c.id == cmd) = some c →
       ((s.net.winCmds.takeWhile fun d => d.id != cmd).any fun d => d.win == c.win && d.left.contains copy) = false →
       ∃ u : State, Does (.windowCommandApply copy cmd) s u ∧ u = { s with net := u.net } ∧ u.net = { s.net with winCmds := u.net.winCmds } ∧
         ∀ d ∈ u.net.winCmds, d.id = cmd → copy ∉ d.left) ∧
     (∀ (s : State) (t : Nat) (c : WinCmd), s.net.winCmds.find? (fun c => c.tile == t) = some c →
       (∀ k ∈ c.left, k < 3072 ∧ s.live k = false) →
       ((s.net.winCmds.takeWhile fun d => d.id != c.id).any fun d => d.win == c.win) = false →
       (c.state = 2 → s.net.windowWrites c.win = false) →
       ∃ u : State, Does (.windowBusyClear t) s u ∧ u.tbit t R.NET_WIN_STATUS 31 = false ∧
         Map.get (fun _ => (0, 0)) u.net.windows c.win = (c.state, c.acc) ∧ ∀ d ∈ u.net.winCmds, d.id ≠ c.id)) ∧
    ((∀ (s : State) (a : Agent) (t c : Nat), s.Reached a t →
       Does (.snArrive a t c) s (s.applied a t fun s t => s.snWrite t (c % 256) 0) ∧
       Does (.snSet a t c) s (s.applied a t fun s t => s.snWrite t (c % 256) 1) ∧
       Does (.snClear a t c) s (s.applied a t fun s t => s.snWrite t (c % 256) 2) ∧
       Does (.snNoOperation a t c) s (s.applied a t fun s t => s.snWrite t (c % 256) 3)) ∧
     (∀ (s : State) (t c : Nat), s.twin t = none → c < 256 →
       s.snWrite t c 3 = s ∨ s.snWrite t c 3 = s.snReject t) ∧
     (∀ (s : State) (t c op : Nat) (m : Image), s.twin t = none → c < 256 → op < 4 → s.fab.active = some m →
       (m.ctxMember c t = false ∨ m.ctxKind c = 0 → s.snWrite t c op = s.snReject t) ∧
       (m.ctxMember c t = true → m.ctxKind c ≠ 0 → s.snWrite t c 3 = s) ∧
       (m.ctxMember c t = true → m.ctxKind c = 1 → s.tbit t (R.NET_SYNC_CTX c) 27 = false → let u := s.snWrite t c 0
         u.tbit t (R.NET_SYNC_CTX c) 27 = true ∧ (u.snCtx c).arrived = (s.snCtx c).arrived ++ [(t, s.time)]) ∧
       (m.ctxMember c t = true → m.ctxKind c = 1 → s.tbit t (R.NET_SYNC_CTX c) 27 = true → s.snWrite t c 0 = s.snReject t) ∧
       (m.ctxMember c t = true → m.ctxKind c = 3 ∨ m.ctxKind c = 4 → let u := s.snWrite t c 1
         let v := s.snWrite t c 2
         u.tbit t (R.NET_SYNC_CTX c) 26 = true ∧ t ∈ (u.snCtx c).inputs ∧ (m.ctxKind c = 3 → (u.snCtx c).value = true) ∧
         v.tbit t (R.NET_SYNC_CTX c) 26 = false ∧ t ∉ (v.snCtx c).inputs ∧ (m.ctxKind c = 4 → (v.snCtx c).value = false))) ∧
     (∀ (s : State) (c t : Nat) (w : SnWave), s.net.waves.find? (fun w => w.ctx == c && w.tile == t) = some w → w.since + 40 ≤ s.time →
       ∃ u : State, Does (.snWavefrontArrival c t) s u ∧ u.net.waves = s.net.waves.erase w ∧
         (w.release = false → u.tbit t (R.NET_SYNC_CTX c) 25 = w.value) ∧
         (w.release = true → u.tbit t (R.NET_SYNC_CTX c) 27 = false ∧
           u.tfld t (R.NET_SYNC_CTX c) 23 16 = (s.tfld t (R.NET_SYNC_CTX c) 23 16 + 1) % 256)) ∧
     (∀ (s : State) (c : Nat) (m : Image), s.fab.active = some m → m.ctxKind c = 1 → s.allArrived m c = true →
       (m.ctxUp c = none → Does (.barrierRelease c) s (s.release m c)) ∧
       (∀ p, m.ctxUp c = some p → (s.snCtx c).sentUp = false → Does (.barrierRelease c) s
         ((s.sendCtrl p (.barArrive c (s.snCtx c).round)).setSn c { s.snCtx c with sentUp := true }))) ∧
     (∀ (s : State) (port c round : Nat), Does (.barArrive port c round) s (s.barArrive port c round) ∧
       Does (.barRelease port c round) s (s.barRelease port c round)) ∧
     (∀ (s : State) (port c : Nat) (m : Image), s.fab.active = some m → m.ctxKind c = 1 → port ∈ m.ctxDowns c → port ∉ (s.snCtx c).downs →
       ((s.barArrive port c (s.snCtx c).round).snCtx c).downs = (s.snCtx c).downs ++ [port]) ∧
     (∀ (s : State) (c : Nat) (m : Image), let u := s.release m c
       u.snCtx c = { s.snCtx c with arrived := [], downs := [], sentUp := false, round := ((s.snCtx c).round + 1) % 256 } ∧
       u.ctrlOut = s.ctrlOut ++ (m.ctxDowns c).map (fun p => (p, .barRelease c (s.snCtx c).round)) ∧
       ∀ t ∈ m.ctxMembers c, ∃ w ∈ u.net.waves, w.ctx = c ∧ w.tile = t ∧ w.release = true ∧ w.since = s.time))

/-- A register write that an agent may not make changes no register and is a violation; one whose target is not there changes nothing; an aligned word
that reaches a device or tile register has the effect of a word written there. For a register without an effect of its own that is: its fields
change under their access codes and every other device register keeps its value. A broadcast is such a write at every live site of the kind. A
granted debug command performs its access. (R5, R6, R8, R297, R428, R449.) -/
def Obligations.RegisterCommands : Prop :=
    (∀ (s : State) (a : Agent) (addr : Nat) (w : BitVec 32), Does (.registerWrite a addr w) s (match s.csrWritePlace a addr with
      | .denied t => s.violation a addr 9 (if t = 0xBDF then 0 else t)
      | .unreach => s
      | .tile t off => if wordAccess addr 4 then s.applied a t fun s t => s.tileStore t off w else s.csrAccess a addr 4 true
      | .dev off => if wordAccess addr 4 then s.devStore a off w State.accCmd else s.csrAccess a addr 4 true)) ∧
    (∀ (s : State) (off : Nat) (w : BitVec 32) (d : RegDef), findReg devRegDefs off = some d →
      (s.regWrite off w).reg off = d.write w (s.reg off) ∧ (∀ b, b ≠ off → (s.regWrite off w).reg b = s.reg b) ∧
      s.regWrite off w = { s with regs := (s.regWrite off w).regs, loHeld := (s.regWrite off w).loHeld }) ∧
    (∀ (s : State) (a : Agent) (w : BitVec 32), ∀ off ∈ [R.CLK_OP_TARGET, R.PWR_CAP_W, R.THM_CTL, R.FAB_SWAP_AT_LO, R.MEM_CTL, R.LNK_CTL],
      s.devStore a off w State.accCmd = s.regWrite off w) ∧
    (∀ (s : State) (kind off : Nat) (w : BitVec 32), s.pins.vaux5 = true → off < 2 ^ 20 → off % 4 = 0 →
      Does (.cnBroadcast kind off w) s ((allSites.filter fun t => (kindOf t).code == kind && s.live t && s.wingUp (wingOf t)).foldl
        (fun s t => s.tileStore t off w) s)) ∧
    (∀ (s : State) (a : Agent) (space : Nat), s.Granted a R.DBG_ACC_CMD → space < 2 →
      Does (.debugRead a space) s (s.debugAccess 1 space) ∧ Does (.debugWrite a space) s (s.debugAccess 2 space))

/-- A granted LOAD in S5, with no load, armed swap or swap in progress, begins to validate the staged image: the slot is LOADING and empty and its
serial 0. DISCARD empties the slot; CANCEL before the swap count disarms with CANCELLED; each only sets cmd_reject where its rule refuses it. The
end of validation makes the image VALID or REFUSED with its first error. A granted ARM arms for the count that was written, or fails with its result
and arms nothing. The sample is taken once, from 1 us before the swap count, and marks a partition that is not quiesced. At the count the slots
exchange and the swap is in progress, or the binding fails and the swap is disarmed; its end notes the count. (R42, R304, R316, R317, R318, R320,
R321.) -/
def Obligations.FabricLoads : Prop :=
    (∀ (s : State) (a : Agent), s.Granted a R.FAB_CTL →
      (s.shadowState = 1 ∨ s.armed = true ∨ s.swapping = true ∨ s.stage ≠ 5 → Does (.load a) s s.cmdReject) ∧
      (¬(s.shadowState = 1 ∨ s.armed = true ∨ s.swapping = true ∨ s.stage ≠ 5) → ∃ u : State, Does (.load a) s u ∧ u.shadowState = 1 ∧
        u.fab = { s.fab with shadow := none, loading := some s.staged } ∧ u.reg64 R.FAB_SHADOW_SERIAL_LO = 0 ∧ u.armed = false) ∧
      (s.shadowState = 1 ∨ s.armed = true → Does (.discard a) s s.cmdReject) ∧
      (¬(s.shadowState = 1 ∨ s.armed = true) → ∃ u : State, Does (.discard a) s u ∧ u.shadowState = 0 ∧
        u.fab = { s.fab with shadow := none } ∧ u.reg64 R.FAB_SHADOW_SERIAL_LO = 0) ∧
      (s.armed = true → s.time < s.fab.swapAt → ∃ u : State, Does (.cancel a) s u ∧ u.armed = false ∧ u.fld R.FAB_STATUS 23 16 = 2 ∧
        u.fab = s.fab ∧ u.shadowState = s.shadowState) ∧
      (s.armed = false ∨ s.fab.swapAt ≤ s.time → Does (.cancel a) s s.cmdReject)) ∧
    (∀ (s : State) (img : Image) ok, s.fab.loading = some (img, ok) →
      (s.validate img ok = none → ∃ u : State, Does .imageValidationDone s u ∧ u.shadowState = 2 ∧
        u.fab = { s.fab with loading := none, shadow := some img } ∧ u.reg R.FAB_ERROR = 0 ∧
        u.reg64 R.FAB_SHADOW_SERIAL_LO = img.serial % 2 ^ 64) ∧
      (∀ e, s.validate img ok = some e → ∃ u : State, Does .imageValidationDone s u ∧ u.shadowState = 3 ∧
        u.fab = { s.fab with loading := none } ∧ u.reg R.FAB_ERROR = BitVec.ofNat 32 (65536 * e.index + e.section_ * 256 + e.code))) ∧
    (∀ (s : State) (a : Agent) (hi : BitVec 32), s.Granted a R.FAB_SWAP_AT_HI →
      let v := (s.takeLo R.FAB_SWAP_AT_HI).setReg R.FAB_SWAP_AT_HI hi
      let at_ := (s.reg R.FAB_SWAP_AT_LO).toNat + 2 ^ 32 * hi.toNat
      (v.armFailure at_ = none → ∃ u : State, Does (.arm a hi) s u ∧ u.armed = true ∧ u.fab = { s.fab with swapAt := at_, sampled := false }) ∧
      (∀ code err, v.armFailure at_ = some (code, err) → ∃ u : State, Does (.arm a hi) s u ∧ u.fab = s.fab ∧ u.armed = s.armed ∧
        (code < 256 → u.fld R.FAB_STATUS 23 16 = code) ∧ ∀ e, err = some e → u.reg R.FAB_ERROR = BitVec.ofNat 32 e)) ∧
    (∀ s : State, s.armed = true → s.fab.sampled = false → s.fab.swapAt ≤ s.time + 1000 →
      ∃ u : State, Does .quiesceSample s u ∧ u.fab = { s.fab with sampled := true } ∧
        (s.fab.active = none → u = s.modFab fun f => { f with sampled := true }) ∧
        ∀ old new p, s.fab.active = some old → s.fab.shadow = some new → old.partitions = [p] → s.carried (some old) new p = false →
          s.fence p none ≠ 0 → u.bit R.FAB_STATUS 7 = true) ∧
    (∀ (s : State) (new : Image), s.fab.shadow = some new → s.armed = true → s.fab.swapAt ≤ s.time →
      (s.bindingOk new = true → ∃ u : State, Does .swap s u ∧ u.fab.active = some new ∧ u.fab.shadow = s.fab.active ∧ u.armed = false ∧
        u.swapping = true ∧ u.reg64 R.FAB_ACTIVE_SERIAL_LO = new.serial % 2 ^ 64) ∧
      (s.bindingOk new = false → ∃ u : State, Does .swap s u ∧ u.fab = s.fab ∧ u.armed = false ∧ u.fld R.FAB_STATUS 23 16 = 3)) ∧
    (∀ s : State, s.swapping = true → ∃ u : State, Does .swapEnd s u ∧ u.swapping = false ∧ u.fld R.FAB_STATUS 23 16 = 1 ∧
      u.reg64 R.FAB_LAST_SWAP_LO = s.fab.swapAt % 2 ^ 64 ∧ u.fab = s.fab)

/-- A claim by an owner w of a claimable resource: OK where w owns it, BUSY where another owns it or would own it at the armed swap, and otherwise OK
with the resource from now on w's; the result is kept for w. A release frees what w holds by claim and the image gives to none, and otherwise its
result is 2. A granted hold of a good or degraded site marks it held, a release gives it back its status, and either is PENDING until a publication;
a second request meanwhile is rejected. A changed catalogue is published when its spacing allows, at once while no swap is armed, at once too and
cancelling the armed swap for a dead marking; other changes then wait. (R33, R42, R322.) -/
def Obligations.ClaimsAndCatalogue : Prop :=
    (∀ (s : State) (a : Agent) (kind index w : Nat), kind < 8 → index < 256 → s.OpenTo a → s.ownerOf a = some w →
      ∃ u v, Does (.claim a kind index) s u ∧ Does (.release a kind index) s v ∧
        Map.get (fun _ => 0) u.fab.claimResults w = s.claimResult w kind index ∧
        (s.claimResult w kind index ≠ 0 → u.fab.claims = s.fab.claims) ∧
        (s.claimResult w kind index = 0 → s.owner kind index = none → u.claimHolder kind index = some w) ∧
        (claimable kind index = true → s.imageOwner kind index = none → s.claimHolder kind index = some w →
          v.claimHolder kind index = none ∧ Map.get (fun _ => 0) v.fab.claimResults w = 0) ∧
        (¬(claimable kind index = true ∧ s.imageOwner kind index = none ∧ s.claimHolder kind index = some w) →
          v.fab.claims = s.fab.claims ∧ Map.get (fun _ => 0) v.fab.claimResults w = 2)) ∧
    (∀ (s : State) (a : Agent) (kind index : Nat), s.ownerOf a = none ∨ s.vfOut a = true →
      Does (.claim a kind index) s s ∧ Does (.release a kind index) s s) ∧
    (∀ (s : State) (a : Agent) (t : Nat), s.Granted a R.CAT_HOLD_CTL → siteExists t = true →
      (s.fld R.CAT_HOLD_RESULT 1 0 ≠ 1 → s.siteStatus t = 0 ∨ s.siteStatus t = 2 → ∃ u : State, Does (.hold a t) s u ∧ u.siteStatus t = 3 ∧
        u.fld R.CAT_HOLD_RESULT 1 0 = 1 ∧ u.cat.dirty = true ∧ Map.get (fun _ => 0) u.cat.underlying t = s.siteStatus t) ∧
      (s.fld R.CAT_HOLD_RESULT 1 0 ≠ 1 → s.siteStatus t = 3 → Map.get (fun _ => 0) s.cat.underlying t < 3 → ∃ u : State,
        Does (.holdRelease a t) s u ∧ u.siteStatus t = Map.get (fun _ => 0) s.cat.underlying t ∧ u.fld R.CAT_HOLD_RESULT 1 0 = 1 ∧
        u.cat.dirty = true) ∧
      (s.fld R.CAT_HOLD_RESULT 1 0 = 1 → Does (.hold a t) s (s.setBit R.CAT_HOLD_RESULT 8 true) ∧
        Does (.holdRelease a t) s (s.setBit R.CAT_HOLD_RESULT 8 true))) ∧
    (∀ s : State, s.cat.dirty = true → s.bit R.CAT_STATUS 0 = true → s.pubSpacing = true → s.cur.restarting = false →
      (s.armed = false → Does .cataloguePublish s s.publish) ∧
      (s.armed = true → s.cat.dirtyDead = true → s.time ≤ s.fab.swapAt → Does .cataloguePublish s (s.publish.disarm 3)) ∧
      (s.armed = true → s.cat.dirtyDead = true → s.fab.swapAt < s.time → Does .cataloguePublish s s.publish) ∧
      (s.armed = true → s.cat.dirtyDead = false → Does .cataloguePublish s (s.setBit R.CAT_STATUS 4 true))) ∧
    (∀ s : State, let u := s.publish
      u.cat.dirty = false ∧ u.cat.dirtyDead = false ∧ u.cat.lastPub = some s.time ∧ u.cat.tables = s.cat.tables ∧
      u.reg R.CAT_GEN = s.reg R.CAT_GEN + 2 ∧ u.bit R.CAT_STATUS 0 = true ∧
      (s.fld R.CAT_HOLD_RESULT 1 0 = 1 → u.fld R.CAT_HOLD_RESULT 1 0 = 2) ∧
      (u.reg R.CAT_BASE = if s.reg R.CAT_BASE = 0x80000 then 0xC0000 else 0x80000) ∧ (u.published.map (·.tables)) = some s.cat.tables)

/-- A granted request while none is pending or settling, at least 20 us ahead, is pending for its count and target, and a raise settles; otherwise it is
rejected with BUSY or LATE and nothing is scheduled. Within 1 us before a raise every rail must be in range, else VFAIL: no switch, and the rails
return. Each wing whose copy of TIME has come to the count stops its clock, and 64 counts later all restart with cycle and phase 0 and every
crossing 4 entries apart; a switch to the same point is done at once. After a lower the rails ramp from 1 us on and settle; settling ends. A lost
reference returns. A crossing that leaves 2 to 6 entries takes its separation, is counted, up to 65,535, and recorded. (R328, R332, R341, R457.) -/
def Obligations.OperatingPointCommands : Prop :=
    (∀ (s : State) (a : Agent) (hi : BitVec 32), s.Granted a R.CLK_OP_SWITCH_AT_HI →
      let at_ := (s.reg R.CLK_OP_SWITCH_AT_LO).toNat + 2 ^ 32 * hi.toNat
      let target := s.fld R.CLK_OP_TARGET 3 0
      ∃ u : State, Does (.opSwitchRequest a hi) s u ∧
        (s.bit R.CLK_OP_STATUS 11 = true ∨ s.bit R.CLK_OP_STATUS 12 = true → u.clk = s.clk ∧ u.bit R.CLK_OP_STATUS 16 = true ∧
          u.fld R.CLK_OP_STATUS 23 20 = 2) ∧
        (s.bit R.CLK_OP_STATUS 11 = false → s.bit R.CLK_OP_STATUS 12 = false → at_ < s.time + 20000 → u.clk = s.clk ∧
          u.bit R.CLK_OP_STATUS 16 = true ∧ u.fld R.CLK_OP_STATUS 23 20 = 3) ∧
        (s.bit R.CLK_OP_STATUS 11 = false → s.bit R.CLK_OP_STATUS 12 = false → s.time + 20000 ≤ at_ →
          u.bit R.CLK_OP_STATUS 11 = true ∧ u.fld R.CLK_OP_STATUS 7 4 = target ∧ u.clk.switchAt = at_ ∧ u.clk.target = target ∧
          u.clk.raise = decide (target < s.point) ∧ u.clk.lower = decide (s.point < target) ∧
          u.bit R.CLK_OP_STATUS 12 = decide (target < s.point) ∧ u.bit R.CLK_OP_STATUS 13 = false)) ∧
    (∀ (s : State) (r : List Nat), s.bit R.CLK_OP_STATUS 11 = true → s.clk.raise = true → s.clk.checked = false →
      s.clk.switchAt ≤ s.time + 1000 → s.time < s.clk.switchAt →
      (s.outOfRange r = [] → ∃ u : State, Does (.raiseCheck r) s u ∧ u.clk = { s.clk with checked := true } ∧ u.regs = s.regs) ∧
      (s.outOfRange r ≠ [] → ∃ u : State, Does (.raiseCheck r) s (u.curFault 0x25 (le 1 s.clk.target ++ le 2 (maskOf (s.outOfRange r)))) ∧
        u.bit R.CLK_OP_STATUS 11 = false ∧ u.bit R.CLK_OP_STATUS 12 = true ∧ u.fld R.CLK_OP_STATUS 23 20 = 4 ∧ u.clk.raise = false)) ∧
    (∀ (s : State) (w : Nat), w < 16 → s.bit R.CLK_OP_STATUS 11 = true → s.clk.switchAt ≤ s.wingTime w →
      (s.clk.raise = true → s.clk.checked = true) → ∃ u : State, Does .opSwitch s u ∧
        (s.clk.target ≠ s.point → u.wingRuns w = false ∧ u.clk.window = some (s.clk.switchAt + 64) ∧
          ∀ v, v < 16 → s.wingTime v < s.clk.switchAt → u.wingRuns v = s.wingRuns v) ∧
        (s.clk.target = s.point → u.bit R.CLK_OP_STATUS 11 = false ∧ u.fld R.CLK_OP_STATUS 23 20 = 1 ∧ u.clk.window = none ∧
          u.reg64 R.CLK_OP_LAST_LO = s.clk.switchAt % 2 ^ 64 ∧ ∀ v, v < 16 → u.wingRuns v = s.wingRuns v)) ∧
    (∀ (s : State) (e : Nat), s.clk.window = some e → e ≤ s.time → s.fld R.CLK_WING_RUN 15 0 = 0 → s.clk.target < 16 →
      ∃ u : State, Does .opSwitchRestart s u ∧ u.clk.window = none ∧ u.point = s.clk.target ∧ u.bit R.CLK_OP_STATUS 11 = false ∧
        u.clk.settleStart = (if s.clk.lower then some (s.clk.switchAt + 1000) else none) ∧
        (∀ w ∈ s.clockedWings, w < 16 → u.wingRuns w = true ∧ (u.wing w).cycle = 0 ∧ (u.wing w).phase = 0) ∧
        ∀ k, k < 1344 → wingOf (seamEnds k).1 < 16 → wingOf (seamEnds k).2 < 16 → u.separation k = 4) ∧
    (∀ (s : State) (t0 : Nat), s.clk.settleStart = some t0 → t0 ≤ s.time → ∃ u : State, Does .lowerRampStart s u ∧ u.clk.settleStart = none ∧
      u.bit R.CLK_OP_STATUS 12 = true ∧ t0 + min 16000 ((1000 * s.rampSpan s.railPoint + 24) / 25 + 4000) ≤ u.clk.settledAt) ∧
    (∀ s : State, s.bit R.CLK_OP_STATUS 12 = true → s.clk.settleStart = none → s.clk.settledAt ≤ s.time →
      ∃ u : State, Does .settlingEnd s u ∧ u.bit R.CLK_OP_STATUS 12 = false ∧ u.clk = s.clk ∧ u.point = s.point) ∧
    (∀ (s : State) (ref : Nat), ref < 3 → s.bit R.CLK_REF_STATUS ref = false →
      ∃ u : State, Does (.refclkReturn ref) s u ∧ u.bit R.CLK_REF_STATUS ref = true ∧
        u.bit R.CLK_REF_STATUS (3 + ref) = s.bit R.CLK_REF_STATUS (3 + ref)) ∧
    (∀ (s : State) (link sep : Nat) (cn back : Bool), let k := seamKey cn link back
      link < 336 → sep ≤ 8 → sep < 2 ∨ 6 < sep → 2 ≤ s.separation k → s.separation k ≤ 6 → s.seamRuns k = true →
      ∃ u : State, Does (.seamAlarm (link, back) cn sep) s (u.curFault 0x27 (le 4 (u.reg R.CLK_SEAM_ALARM).toNat)) ∧ u.separation k = sep ∧
        (u.reg R.CLK_SEAM_ALARM).toNat = 65536 * min (s.fld R.CLK_SEAM_ALARM 31 16 + 1) 0xFFFF + cn.toNat * 512 + link)

/-- A follower with an offset left slews TIME by 0 or 2, at most once in 5,000 CLKT cycles. The device pulses for 100 ns at multiples of 2^20 where its
role drives the pin. An edge latches its count. Requests are answered, and an exchange asks, with TIME. A measured offset of at most 1 us is what is
left to slew, and locks after four within 20 ns; a larger one steps TIME while no image is active and unlocks otherwise. A source lost for four
periods clears locked. A role that would use a held pin only sets reject; a new role begins with no measurement. The owner of pin function 0
schedules a pulse, which is driven when its count comes. The owner of a timer arms it, another agent only sets reject; it fires once its count is
reached: a wake sets the event flag, a token adds 1. (R333, R334, R335, R336, R337, R338, R339, R342, R408.) -/
def Obligations.TimeCommands : Prop :=
    (∀ s : State, s.timeRunning = true → s.role = 2 → s.tim.lastSlew + 5000 ≤ s.tim.cycles → s.tim.slewLeft ≠ 0 →
      ∃ u : State, Does .timeSlew s u ∧ u.tim.lastSlew = s.tim.cycles ∧ u.tim.cycles = s.tim.cycles + 1 ∧
        (0 < s.tim.slewLeft → u.time = s.time ∧ u.tim.slewLeft = s.tim.slewLeft - 1) ∧
        (s.tim.slewLeft < 0 → u.time = (s.time + 2) % 2 ^ 64 ∧ u.tim.slewLeft = s.tim.slewLeft + 1) ∧ u.regs = s.regs ∧ u.sites = s.sites) ∧
    (∀ s : State, s.timeRunning = true → s.pinInUse 0 = true → s.time % 2 ^ 20 = 0 →
      ∃ u : State, Does .syncPulseOut s u ∧ u.pins.tsyncOutUntil = s.time + 100 ∧ u = { s with pins := u.pins }) ∧
    (∀ s : State, s.timeRunning = true → ∃ u : State, u.reg64 R.TIM_CAPTURE_LO = s.time % 2 ^ 64 ∧
      Does .tsyncInEdge s (if s.pinInUse 1 then u.measured (2 * pinOffset s.time (s.fld R.TIM_PIN_DELAY 15 0)) else u)) ∧
    (∀ (s : State) (off : Int), s.cur.restarting = false → let u := s.measured off
      let near := -2000 ≤ off ∧ off ≤ 2000
      u.tim.lastSync = s.tim.cycles ∧
      (near → u.time = s.time ∧ u.tim.slewLeft = off / 2 ∧ u.tim.lockCount = (if -40 ≤ off ∧ off ≤ 40 then s.tim.lockCount + 1 else 0) ∧
        (-40 ≤ off → off ≤ 40 → 3 ≤ s.tim.lockCount → u.bit R.TIM_SYNC_STATUS 1 = true)) ∧
      (¬near → s.fab.active = none → u.time = (((s.time : Int) - off / 2) % 2 ^ 64).toNat ∧ u.tim.slewLeft = 0 ∧ u.tim.lockCount = 0 ∧
        u.bit R.TIM_SYNC_STATUS 2 = true) ∧
      (¬near → s.fab.active ≠ none → u.time = s.time ∧ u.bit R.TIM_SYNC_STATUS 1 = false ∧ u.bit R.TIM_SYNC_STATUS 3 = true)) ∧
    (∀ (s : State) (port t1 : Nat), s.timeRunning = true → ∃ u : State, Does (.timeReq port t1) s u ∧
      u.ctrlOut = s.ctrlOut ++ [(port, .timeResp t1 (s.portTime port) (s.portTime port))] ∧ u = { s with ctrlOut := u.ctrlOut }) ∧
    (∀ (s : State) (port t1 t2 t3 : Nat), s.timeRunning = true → s.followsPort port = true →
      Does (.timeResp port t1 t2 t3) s (s.measured (((s.portTime port : Int) - t3) - ((t2 : Int) - t1)))) ∧
    (∀ s : State, s.timeRunning = true → s.role = 2 → s.bit R.TIM_SYNC_CTL 6 = true → s.time % 2 ^ 20 = 0 → ∃ u : State,
      Does .timeSyncExchange s u ∧ u.ctrlOut = s.ctrlOut ++ [(s.fld R.TIM_SYNC_CTL 11 7, .timeReq s.time)] ∧ u = { s with ctrlOut := u.ctrlOut }) ∧
    (∀ s : State, s.role = 2 → s.cur.restarting = false → s.tim.lastSync + 4 * 2 ^ 20 ≤ s.tim.cycles → ∃ u : State, Does .syncSourceLost s u ∧
      u.bit R.TIM_SYNC_STATUS 1 = false ∧ u.bit R.TIM_SYNC_STATUS 3 = true ∧ u.tim.lockCount = 0 ∧ u.time = s.time) ∧
    (∀ (s : State) (a : Agent) (w : BitVec 32), s.Granted a R.TIM_SYNC_CTL → ∃ u : State, Does (.timSyncCtlWrite a w) s u ∧
      (s.roleTakesHeldPin w = true → u = s.setBit R.TIM_SYNC_STATUS 4 true) ∧
      (s.roleTakesHeldPin w = false → u.reg R.TIM_SYNC_CTL = (s.regWrite R.TIM_SYNC_CTL w).reg R.TIM_SYNC_CTL ∧
        (u.reg R.TIM_SYNC_CTL ≠ s.reg R.TIM_SYNC_CTL → u.tim.lockCount = 0 ∧ u.tim.slewLeft = 0 ∧ u.tim.lastSync = s.tim.cycles ∧
          (u.role ≠ 2 → u.bit R.TIM_SYNC_STATUS 1 = false)))) ∧
    (∀ (s : State) (a : Agent) (hi : BitVec 32), s.OpenTo a →
      (s.owns a 4 0 = false → Does (.timPulseAtWrite a hi) s (s.setBit R.TIM_SYNC_STATUS 4 true)) ∧
      (s.owns a 4 0 = true → s.pinInUse 0 = true → Does (.timPulseAtWrite a hi) s s) ∧
      (s.owns a 4 0 = true → s.pinInUse 0 = false → ∃ u : State, Does (.timPulseAtWrite a hi) s u ∧
        u.tim = { s.tim with pulseAt := some ((s.reg R.TIM_PULSE_AT_LO).toNat + 2 ^ 32 * hi.toNat) } ∧ u.reg R.TIM_PULSE_AT_HI = hi)) ∧
    (∀ (s : State) (n : Nat), s.tim.pulseAt = some n → n ≤ s.time →
      ∃ u : State, Does .scheduledPulse s u ∧ u.tim.pulseAt = none ∧ u.pins.tsyncOutUntil = s.time + 100 ∧ u.regs = s.regs) ∧
    (∀ (s : State) (a : Agent) (n : Nat) (hi : BitVec 32), n < 32 → s.OpenTo a → ∃ u : State, Does (.timerArm a n hi) s u ∧
      (s.owns a 3 n = true → u.reg (R.TIM_TIMER_CMP_HI n) = hi ∧
        (s.timeRunning = false ∨ s.time < (s.reg (R.TIM_TIMER_CMP_LO n)).toNat + 2 ^ 32 * hi.toNat →
          u.bit (R.TIM_TIMER_CTL n) 30 = true ∧ u.sites = s.sites) ∧
        (s.timeRunning = true → (s.reg (R.TIM_TIMER_CMP_LO n)).toNat + 2 ^ 32 * hi.toNat ≤ s.time →
          u.bit (R.TIM_TIMER_CTL n) 30 = false ∧ u.bit (R.TIM_TIMER_CTL n) 31 = true)) ∧
      (s.owns a 3 n = false → u = s.setBit (R.TIM_TIMER_CTL n) 21 true)) ∧
    (∀ (s : State) (n : Nat), n < 32 → s.timeRunning = true → s.bit (R.TIM_TIMER_CTL n) 30 = true →
      s.acted64 (R.TIM_TIMER_CMP_LO n) ≤ s.time →
      let ctl := R.TIM_TIMER_CTL n
      let t := s.fld ctl 11 0
      let core := s.fld ctl 27 26
      ∃ u : State, Does (.timerFire n) s u ∧ u.bit ctl 30 = false ∧ u.bit ctl 31 = true ∧
        (s.fld ctl 29 28 = 0 → u.sites = s.sites) ∧
        (∀ o, s.owner 3 n = some o → s.timerTarget o t = true → s.wingUp (wingOf t) = true → s.twin t = none →
          (s.fld ctl 29 28 = 2 → kindOf t = .m ∨ kindOf t = .v → let k := s.fld ctl 25 22
            u.token t k = min (255 - s.tokOut t k) (s.token t k + 1)) ∧
          (s.fld ctl 29 28 = 1 → core < (kindOf t).cores → ¬(s.coreState t core = 2 ∧ (s.core t core).wait = 1) → s.coreState t core ≠ 7 →
            u.event t core = true)))

/-- A granted WING_OFF of a wing that is on and unused turns its rail and clock off and loses its sites; a granted WING_ON of one that is off requests
its tokens; each is otherwise rejected. At a cap step with 200 W of headroom the lowest waiting wing begins its ramp with four tokens; after the
ramp its rail is on and its clock runs from cycle 0, and 1 ms later the tokens return. The end of its power-up releases its isolation: sites that
failed are dead, the others note their test, and failed stacks are withdrawn. A rail that trips loses its wing, which is dead with all its sites. A
shared rail that fails shuts every rail off, asserts FAULT_N and records 0x21. (R13, R24, R325, R347, R348, R349, R350, R388.) -/
def Obligations.WingCommands : Prop :=
    (∀ (s : State) (a : Agent) (w : Nat), s.Granted a R.PWR_WING_CTL → w < 16 →
      (s.wingDead w = true ∨ s.railState w ≠ 2 ∨ s.vbringOn w = true ∨ s.swapping = true ∨ s.wingUsed w = true →
        Does (.wingOff a w) s (s.setBit R.PWR_STATUS 20 true)) ∧
      (¬(s.wingDead w = true ∨ s.railState w ≠ 2 ∨ s.vbringOn w = true ∨ s.swapping = true ∨ s.wingUsed w = true) →
        ∃ u : State, Does (.wingOff a w) s u ∧ u.railState w = 0 ∧ u.wingRuns w = false ∧ u.wingUp w = false ∧
          (∀ e ∈ u.sites, wingOf e.1 ≠ w) ∧ ∀ v, v < 16 → v ≠ w → u.railState v = s.railState v ∧ u.wingRuns v = s.wingRuns v) ∧
      (s.wingDead w = true ∨ s.railState w ≠ 0 ∨ s.vbringOn w = true ∨ (s.wing w).requestAt.isSome = true →
        Does (.wingOn a w) s (s.setBit R.PWR_STATUS 20 true)) ∧
      (¬(s.wingDead w = true ∨ s.railState w ≠ 0 ∨ s.vbringOn w = true ∨ (s.wing w).requestAt.isSome = true) →
        ∃ u : State, Does (.wingOn a w) s u ∧ u.wing w = { s.wing w with requestAt := some s.time, inService := true } ∧ u.regs = s.regs ∧
          ∀ v, v ≠ w → u.wing v = s.wing v)) ∧
    (∀ (s : State) (w : Nat) (rest : List Nat), s.waiting = w :: rest → s.timeRunning = true → s.pwr.lastStep = s.time →
      s.ramping = false → 200 ≤ s.headroom → s.tokens + 4 < 256 → ∃ u : State, Does .inrushGrant s u ∧ u.tokens = s.tokens + 4 ∧
        u.railState w = 1 ∧ u.ramping = true ∧ u.fld R.PWR_WING_STATUS 19 16 = w ∧ (u.wing w).requestAt = none ∧ (u.wing w).rampAt = some s.time) ∧
    (∀ (s : State) (w at_ : Nat), (s.wing w).rampAt = some at_ → w < 16 → s.railState w = 1 → s.rampDue w at_ ≤ s.time →
      s.clk.window = none → s.clk.oscillator = false → ∃ u : State, Does (.wingClockStart w) s u ∧ u.railState w = 2 ∧ u.wingRuns w = true ∧
        u.ramping = false ∧ (u.wing w).rampAt = none ∧ (u.wing w).clockAt = some s.time ∧ (u.wing w).tokensUntil = some (s.time + 1000000) ∧
        (u.wing w).cycle = 0) ∧
    (∀ (s : State) (w at_ : Nat), (s.wing w).tokensUntil = some at_ → at_ ≤ s.time →
      ∃ u : State, Does (.inrushRelease w) s u ∧ u.tokens = s.tokens - 4 ∧ u.wing w = { s.wing w with tokensUntil := none } ∧
        u.fld R.PWR_WING_STATUS 23 0 = s.fld R.PWR_WING_STATUS 23 0) ∧
    (∀ (s : State) (w bist n : Nat) (failed repaired withdrawn : List Nat) (wires : List (Nat × Nat × Nat × Nat)), w < 16 →
      (s.wing w).inService = true → s.railState w = 2 → (s.wing w).clockAt = some n → n ≤ bist → bist ≤ s.time → s.curatorUp = true →
      ∃ u : State, Does (.wingPowerUpDone w (failed, repaired) (withdrawn, wires) bist) s (u.catDirty false) ∧ (u.wing w).inService = false ∧
        (u.wing w).clamped = false ∧ u.wingUp w = true ∧
        (∀ t ∈ wingSites w, s.live t = true → t ∈ failed → u.siteStatus t = 1) ∧
        (∀ t ∈ wingSites w, s.live t = true → t ∉ failed → kindOf t ≠ .mi → u.treg64 t R.TILE_IFT_LAST_LO = bist % 2 ^ 64) ∧
        ∀ k ∈ withdrawn, k / 2 = w → u.fld (R.MEM_STK_USABLE k) 15 0 = 0) ∧
    (∀ (s : State) (w amps mv : Nat), w < 16 → (s.railState w = 1 ∨ s.railState w = 2) → amps < 16384 →
      (480 < amps ∨ s.railState w = 2 ∧ mv < 520) → ∃ u : State, Does (.railTrip w amps mv) s u ∧ u.railState w = 3 ∧
        u.fld (R.PWR_RAIL w) 29 16 = amps ∧ u.wingRuns w = false ∧ u.wingDead w = true ∧ ∀ t ∈ wingSites w, u.siteStatus t = 1) ∧
    (∀ (s : State) (rail : Nat), rail < 4 → s.stageOn = true → ∃ u : State, Does (.stageTrip rail) s (u.curFault 0x21 (le 1 rail)) ∧
      u.pins.stageTripped = true ∧ u.pins.faultLatched = true ∧ (rail = 3 → u.pins.vin48 = false) ∧ u.cur.tripSince = true ∧
      (∀ w, w < 16 → u.railState w = 0 ∧ u.wingRuns w = false) ∧
      (s.fld R.CUR_BOOT_STATUS 2 0 < 5 → s.cur.restarting = false → u.fld R.CUR_BOOT_STATUS 31 28 = 2))

/-- A cap step that is due, at most every 4 us, notes its estimate and time, and keeps 16; an episode is recorded every 10 ms and its interval starts
anew; a calibration, every 1 ms, shows the measured sum; a droop sets its level and is counted, and ends 64 cycles after the recovery; a sample
below the record replaces it, and a granted rearm restarts it; VBRING connects to an off wing below 0.1 V while BRING_EN is asserted, or the write
sets fault, and it opens on command, on more than 150 A with fault, and with BRING_EN; hourly a wing with too little margin is raised by 5 mV at
every point, at most once in 24 h and up to 40 mV. A sample shows the wing's hottest reading and keeps its peak; the thermal cap moves every 1 ms
and shows its limit; a wing at 115 degrees enters the emergency, which sets THM_STATUS and records 0x22, and one below 110 leaves it; a sensor at
125 degrees shuts the stage off and latches the trip with its wing, sensor and TIME. (R346, R351, R352, R353, R354, R355, R362, R363, R365, R366,
R367.) -/
def Obligations.PowerAndThermalCommands : Prop :=
    ((∀ (s : State) (raw : List (Nat × Nat × Nat)), s.timeRunning = true → s.pwr.lastStep + 4000 ≤ s.time →
       ∃ u : State, Does (.capStep raw) s u ∧ u.pwr.lastStep = s.time ∧ u.pwr.estimates.getLast? = some (estimate (s.parts raw)) ∧
         u.pwr.estimates.length ≤ 16) ∧
     (∀ s : State, s.pwr.begin.isSome = true → s.pwr.lastStep = s.time → s.pwr.lastRecord + 10000000 ≤ s.time → ∃ u : State,
       Does .throttleStatus s u ∧ u.pwr = { s.pwr with lastRecord := s.time, estSum := 0, estCount := 0, skipMax := s.skip, lostSum := 0 } ∧
       u.faults = (s.curFault 0x29 s.throttleDetail).faults) ∧
     (∀ (s : State) (m : List Nat), s.timeRunning = true → s.cur.restarting = false → s.pwr.calAt + 1000000 ≤ s.time →
       ∃ u : State, Does (.calibration m) s u ∧ u.pwr.calAt = s.time ∧ (∀ n, n < 17 → (u.group n).raws = []) ∧ u.fld R.PWR_MEAS_W 15 0 = m.sum % 65536) ∧
     (∀ (s : State) (w mv : Nat), s.railState w = 2 → s.droopFor w mv ≠ 0 → (s.wing w).droop = 0 → ∃ u : State,
       Does (.droopOnset w mv) s u ∧ (u.wing w).droop = (if mv + 2 * s.droopMv < s.fld (R.PWR_RAIL w) 9 0 then 12 else 8) ∧
       (u.wing w).recovered = none ∧ u.reg (R.PWR_DROOP w) = satAdd (s.reg (R.PWR_DROOP w)) 1) ∧
     (∀ (s : State) (w c : Nat), (s.wing w).recovered = some c → (s.wing w).droop ≠ 0 → c + 64 ≤ (s.wing w).pulses →
       ∃ u : State, Does (.droopEnd w) s u ∧ u.wing w = { s.wing w with droop := 0, recovered := none } ∧ u.routerLevel w = 0 ∧ u.regs = s.regs) ∧
     (∀ (s : State) (w i v : Nat) (r : List Nat), w < 16 → lowestReading r = some (i, v) → i < 64 → v < s.fld (R.PWR_VMIN w) 9 0 →
       (s.railState w = 1 ∨ s.railState w = 2) → ∃ u : State, Does (.voltageSensorSample w r) s u ∧ u.fld (R.PWR_VMIN w) 9 0 = v ∧
         u.fld (R.PWR_VMIN w) 21 16 = i ∧ u.reg64 (R.PWR_VMIN_TS_LO w) = s.time % 2 ^ 64) ∧
     (∀ (s : State) (a : Agent) (w : Nat), w < 16 → s.Granted a (R.PWR_VMIN w) → ∃ u : State, Does (.vminRearm a w) s u ∧
       u.fld (R.PWR_VMIN w) 9 0 = 0x3FF ∧ u.fld (R.PWR_VMIN w) 21 16 = 0 ∧ u.reg64 (R.PWR_VMIN_TS_LO w) = 0) ∧
     (∀ (s : State) (a : Agent) (w mv : Nat) (b : Bool),
       let u := { s.setBit R.PWR_BRING_STATUS 1 b with pins := { s.pins with bringEn := b } }
       u.Granted a R.PWR_BRING_CTL → u.bit R.PWR_BRING_CTL 8 = false →
       (b = true → w < 16 → (u.railState w = 0 ∨ u.railState w = 3) → mv < 100 → ∃ v : State, Does (.vbringConnect a w b mv) s v ∧
         v.vbringOn w = true ∧ v.fld R.PWR_BRING_CTL 3 0 = w ∧ v.bit R.PWR_BRING_CTL 8 = true ∧ v.bit R.PWR_BRING_STATUS 1 = true) ∧
       (b = false ∨ 100 ≤ mv → Does (.vbringConnect a w b mv) s (u.setBit R.PWR_BRING_STATUS 2 true))) ∧
     (∀ (s : State) (a : Agent) (w : Nat), s.Granted a R.PWR_BRING_CTL → w < 16 → ∃ u : State, Does (.vbringDisconnect (a, w)) s u ∧
       u.fld R.PWR_BRING_CTL 3 0 = w ∧ u.bit R.PWR_BRING_CTL 8 = false ∧ u.bit R.PWR_BRING_STATUS 0 = false ∧ ∀ v, u.vbringOn v = false) ∧
     (∀ (s : State) (amps : Nat), s.bit R.PWR_BRING_STATUS 0 = true → 150 < amps → ∃ u : State, Does (.vbringOvercurrent amps) s u ∧
       u.bit R.PWR_BRING_CTL 8 = false ∧ u.bit R.PWR_BRING_STATUS 0 = false ∧ u.bit R.PWR_BRING_STATUS 2 = true ∧
       u.fld R.PWR_BRING_STATUS 31 16 = 0) ∧
     (∀ s : State, ∃ u : State, Does .bringEnDeassert s u ∧ u.bit R.PWR_BRING_CTL 8 = false ∧ u.bit R.PWR_BRING_STATUS 0 = false ∧
       u.bit R.PWR_BRING_STATUS 1 = false ∧ u.pins.bringEn = false) ∧
     (∀ (s : State) (w : Nat), w < 16 → s.railState w = 2 → (∀ n, (s.wing w).monitorsAt = some n → n + hourCounts ≤ s.time) →
       s.cur.restarting = false →
       (∃ u : State, Does (.ageingCheck w false) s u ∧ u.wing w = { s.wing w with monitorsAt := some s.time } ∧ u.cat = s.cat) ∧
       (40 ≤ bitsOf (s.trim w s.point) 15 10 → ∃ u : State, Does (.ageingCheck w true) s (u.curFault 0x24 (le 1 w)) ∧ u.cat = s.cat) ∧
       (bitsOf (s.trim w s.point) 15 10 < 40 → (∀ n, (s.wing w).ageingAt = some n → n + 24 * hourCounts ≤ s.time) →
         ∃ u : State, Does (.ageingCheck w true) s u ∧ u.wing w = { s.wing w with monitorsAt := some s.time, ageingAt := some s.time } ∧
           u.cat.dirty = true ∧ ∀ p, p < 16 → s.trim w p < 65536 →
             u.trim w p = s.trim w p % 1024 + 1024 * min 40 (bitsOf (s.trim w p) 15 10 + 5)))) ∧
    ((∀ (s : State) (w : Nat) (v : Int), w < 16 → ∃ u : State, Does (.thermalSample w v) s u ∧ u.fld (R.THM w) 15 0 = twos 16 v ∧
       u.fld (R.THM w) 31 16 = twos 16 (if w ∉ s.pwr.tempSeen then v else max (signed16 (s.fld (R.THM w) 31 16)) v)) ∧
     (∀ s : State, s.timeRunning = true → s.cur.restarting = false → s.pwr.tcapAt + 1000000 ≤ s.time →
       ∃ u : State, Does .thermalCapAdjust s u ∧ u.pwr.tcapAt = s.time ∧ let e := s.pwr.estimates.getLastD 0
       u.pwr.tcap = if s.hot then max 1500 (98 / 100 * min s.pwr.tcap e) else if s.cool then min 5000 (101 / 100 * s.pwr.tcap)
         else s.pwr.tcap) ∧
     (∀ (s : State) (w : Nat), w < 16 → 115 * 16 ≤ s.wingTemp w → (s.wing w).emergency = false → ∃ u : State, Does (.thermalEmergency w) s
       (u.curFault 0x22 (le 1 w ++ le 2 (twos 16 (s.wingTemp w)))) ∧ (u.wing w).emergency = true ∧ u.bit R.THM_STATUS 1 = true ∧
       u.bit R.THM_STATUS 3 = true) ∧
     (∀ (s : State) (w : Nat), s.wingTemp w < 110 * 16 → (s.wing w).emergency = true → ∃ u : State, Does (.emergencyEnd w) s u ∧
       (u.wing w).emergency = false ∧ u.bit R.THM_STATUS 1 = (s.modWing w fun x => { x with emergency := false }).anyEmergency) ∧
     (∀ (s : State) (w n : Nat) (v : Int), w < 16 → n < 32 → 125 * 16 ≤ v → s.stageOn = true → ∃ u : State,
       Does (.thermalTrip w n v) s u ∧ u.pins.tripLatched = true ∧ u.pins.faultLatched = true ∧ u.cur.tripSince = true ∧
       u.bit R.THM_TRIP_STATUS 31 = true ∧ u.fld R.THM_TRIP_STATUS 12 8 = n ∧ u.fld R.THM_TRIP_STATUS 3 0 = w ∧
       u.reg64 R.THM_TRIP_TIME_LO = s.time % 2 ^ 64 ∧ (∀ x, x < 16 → u.railState x = 0 ∧ u.wingRuns x = false) ∧
       (s.fld R.CUR_BOOT_STATUS 2 0 < 5 → s.cur.restarting = false → u.fld R.CUR_BOOT_STATUS 31 28 = 3)))

/-- VAUX5_LOSS puts everything but the fuses, the flash and the other pins into its unpowered state, and VAUX5_APPLY everything into its reset state
with the firmware booted: a slot that the ROM may run, or none and FAULT_N. S1, which Curator may enter, starts TIME at 0 and P4, counts the start,
notes its kind and the seam links that fail; S2 after S1 begins with empty stacks, marks the sites that failed dead and withdraws stacks; S3 brings
the ports DOWN; S4, once they settled, publishes the catalogue; S5 completes the start, or ends a Curator restart. A module reset, a granted restart
or a watchdog begin the start or Curator again. Firmware not alive after 5 s gives way to the other slot; an hour with VIN48 is counted up to
65,535. (R371, R372, R373, R375, R378, R379, R381, R382, R383, R384, R462.) -/
def Obligations.StartStages : Prop :=
    (∀ s : State, ∃ u : State, Does .vaux5Loss s u ∧ u.pins.vaux5 = false ∧ u.cur.running = false ∧ u.fuses = s.fuses ∧ u.flash = s.flash ∧
      u.sites = State.reset.sites ∧ u.net = State.reset.net ∧ u.dram = State.reset.dram ∧ u.fab = State.reset.fab ∧ u.faults = []) ∧
    (∀ s : State, s.pins.vaux5 = false → ∃ u : State, Does .vaux5Apply s u.bootFirmware ∧ u.pins.vaux5 = true ∧ u.fuses = s.fuses ∧
      u.flash = s.flash ∧ u.sites = State.reset.sites ∧ u.time = 0 ∧ u.timeRunning = false) ∧
    (∀ s : State, let u := s.bootFirmware
      (∀ i, s.bootSlot = some i → i < 2 ∧ s.slotValid i = true ∧ u.cur.running = true ∧ u.runningSlot = i ∧
        u.fld R.CUR_BOOT_STATUS 23 8 = (s.flash.slot i).version % 65536 ∧ u.stage = s.stage) ∧
      (s.bootSlot = none → u.cur.running = false ∧ u.bootError = 1 ∧ u.pins.faultLatched = true ∧ u.stage = s.stage)) ∧
    (∀ (s : State) (b : Bool), s.stageOn = false → ∃ u : State, Does (.vin48Change b) s u ∧ u.pins = { s.pins with vin48 := b } ∧
      u = { s with pins := u.pins }) ∧
    (∀ (s : State) (x : List (Nat × Nat × Nat)) (y : List (Nat × Nat × Nat × Nat)) (z : List Nat), s.leavesS0 = true →
      ∃ u : State, Does (.stageS1 x y z) s u ∧ u.stage = 1 ∧ u.timeRunning = true ∧ u.time = 0 ∧ u.point = 4 ∧
        u.cur.starts = s.cur.starts + 1 ∧ u.fld R.CUR_BOOT_STATUS 27 24 = s.coldReason ∧ u.warm = decide (s.coldReason = 0) ∧
        ∀ i ∈ brokenSeams y, i < 336 → i ∈ u.cat.tables.seams) ∧
    (∀ (s : State) (x y : List Nat) (r : List (Nat × Nat × Bool)) (z : List (BitVec 64)) (v : List (Nat × Nat)), s.inStage 1 = true →
      ∃ u : State, Does (.stageS2 (x, r) y z v) s u ∧ u.stage = 2 ∧ u.dram.blocks = [] ∧ u.dram.zeroedAt = s.cur.starts ∧
        (∀ t ∈ x, t < 3072 → kindOf t ≠ .mi → u.siteStatus t = 1) ∧
        (∀ k ∈ y, k < 32 → u.fld (R.MEM_STK_USABLE k) 15 0 = 0) ∧ (s.warm = false → u.flash.pendingRows = [])) ∧
    (∀ s : State, s.inStage 2 = true → ∃ u : State, Does .stageS3 s u ∧ u.stage = 3 ∧
      ∀ p, p < 32 → u.portState p = 1 ∧ (u.port p).tries = 0 ∧ (u.port p).nextTry = s.time) ∧
    (∀ (s : State) (x y z : List Nat), s.inStage 3 = true → s.portsSettled = true → ∃ u : State, Does (.stageS4 x y z) s u ∧ u.stage = 4 ∧
      u.cat.dirty = false ∧ u.cat.lastPub = some s.time ∧ u.bit R.CAT_STATUS 0 = true ∧ u.bit R.CAT_STATUS 3 = s.warm ∧
      ∀ t ∈ y ++ z, t < 3072 → s.live t = true → s.wingUp (wingOf t) = true → u.siteStatus t = 1) ∧
    (∀ s : State, (s.cur.restarting = false → s.inStage 4 = true → ∃ u : State, Does .stageS5 s u ∧ u.stage = 5 ∧ u.cur.reachedS5 = true ∧
        u.cur.tripSince = false ∧ (s.warm = false → u.flash.hours = 0 ∧ u.fld R.CUR_BOOT_CTL 31 16 = 0) ∧ (s.warm = true → u.flash = s.flash)) ∧
      (s.cur.restarting = true → s.stage = 0 → s.cur.running = true → s.pins.vaux5 = true →
        ∃ u : State, Does .stageS5 s u ∧ u.stage = 5 ∧ u.cur.restarting = false)) ∧
    (∀ (s : State) (a : Agent), ∃ m r : State,
      (∀ n, s.pins.vaux5 = true → 10000 ≤ n → Does (.modReset n) s m.bootFirmware) ∧
      (s.Granted a R.CUR_RESET_CMD → Does (.moduleResetCommand a) s m.bootFirmware ∧ Does (.curatorRestart a) s r.bootFirmware) ∧
      (∀ n, s.pins.vaux5 = true → s.cur.running = true → 2000 ≤ n → Does (.watchdogRestart n) s r.bootFirmware) ∧
      m.sites = [] ∧ m.fab = State.reset.fab ∧ m.dram = State.reset.dram ∧ m.timeRunning = false ∧ m.stage = 0 ∧ m.fuses = s.fuses ∧
      m.pins.faultLatched = false ∧ m.pins.tripLatched = false ∧ m.pins.stageTripped = false ∧ m.pending = s.pending ∧
      r.stage = 0 ∧ r.armed = false ∧ r.cur.tests = [] ∧ (r.cur.restarting = true ↔ s.stage = 5 ∨ s.cur.restarting = true) ∧
      r.hst.mbxWork = none ∧ r.fab = s.fab) ∧
    (∀ s : State, s.pins.vaux5 = true → s.stage = 0 → s.cur.running = true → ∃ u : State, Does .fwAliveTimeout s u.bootFirmware ∧
      u.slotValid s.runningSlot = false ∧ ∀ i, i ≠ s.runningSlot → u.slotValid i = s.slotValid i) ∧
    (∀ s : State, s.pins.vaux5 = true → s.pins.vin48 = true → ∃ u : State, Does .hoursSinceColdTick s u ∧
      u.flash.hours = min 65535 (s.flash.hours + 1) ∧ u.fld R.CUR_BOOT_CTL 31 16 = min 65535 (s.flash.hours + 1))

/-- A tile reset that reaches its site applies to it: an MI site or one that resets or is tested only sets reject; any other is busy, its cores are
STOPPED and its event flags 0, its engine queues, passes and accumulators empty and its open queues closed; its end clears busy. A granted partition
reset of the host or of the partition itself, with none, no swap and no scrub in progress, chooses its moment at least 4 us ahead, and is otherwise
rejected; at it every site of the partition but one under test is reset and the partition has not failed; once every site is done, busy clears. A
write of S_L2_CFG with stopped cores starts the division that it asks for; its end sets the local ways. (R233, R385, R386, R387, R418.) -/
def Obligations.ResetCommands : Prop :=
    (∀ (s : State) (a : Agent) (t : Nat), s.Reached a t → Does (.tileReset a t) s (s.applied a t State.tileReset)) ∧
    (∀ (s : State) (t : Nat), let u := s.tileReset t
      (kindOf t = .mi ∨ s.siteBusy t = true → u = s.setTbit t R.TILE_RESET 30 true) ∧
      (kindOf t ≠ .mi → s.siteBusy t = false → u.tbit t R.TILE_RESET 31 = true ∧
        (∀ c, c < 4 → u.coreState t c = (if c < (kindOf t).cores then 0 else 7) ∧ u.event t c = false) ∧
        (∀ e, (u.site t).queue e = [] ∧ (u.site t).issued e = []) ∧ (u.arr t).passes = [] ∧ (u.site t).acc = [] ∧ (u.site t).drains = [] ∧
        (∀ q, q < 64 → u.qState t q ≠ 1) ∧ (u.site t).vit = (s.site t).vit)) ∧
    (∀ (s : State) (t : Nat), s.tbit t R.TILE_RESET 31 = true → ∃ u : State, Does (.tileResetDone t) s u ∧ u.tbit t R.TILE_RESET 31 = false ∧
      u.tbit t R.TILE_RESET 30 = s.tbit t R.TILE_RESET 30 ∧ ∀ c, u.coreState t c = s.coreState t c) ∧
    (∀ (s : State) (a : Agent) (p : Nat) (m : Image), s.Granted a R.CUR_PART_RESET → p < 256 → s.fab.active = some m →
      let from_ := a = .host ∨ a = .pf1 ∨ (∃ t c, a = .core t c ∧ s.partOf t = some p) ∨ ∃ k, a = .vf k ∧ s.vfPart k = some p
      let may := p ∈ m.partitions ∧ from_ ∧ s.bit R.CUR_PART_RESET_STATUS 31 = false ∧ s.swapping = false ∧ s.scrubbing p = false
      ∃ u : State, Does (.partitionReset a p) s u ∧ (¬may → u = s.setBit R.CUR_PART_RESET_STATUS 30 true) ∧
        (may → u.bit R.CUR_PART_RESET_STATUS 31 = true ∧ u.fld R.CUR_PART_RESET_STATUS 7 0 = p ∧ u.sites = s.sites ∧
          (u.cur.resetOutside = false ↔ ∃ t c, a = .core t c) ∧
          ∃ n, u.cur.resetAtP = some (p, n) ∧ s.time + 4000 ≤ n ∧ n < s.time + 18000)) ∧
    (∀ (s : State) (p at_ : Nat), s.cur.resetAtP = some (p, at_) → at_ ≤ s.time → p < 256 →
      let ts := (s.sitesOf p).filter fun t => s.tfld t R.TILE_IFT_STATUS 31 30 != 2
      ∃ u : State, Does .partitionResetAtP s u ∧ u.cur.resetAtP = none ∧ u.cur.resetSites = ts ∧
        u.bit (R.SEC_PART_FAILED (p / 32)) (p % 32) = false ∧
        ∀ t ∈ ts, u.tbit t R.TILE_RESET 31 = true ∧ ∀ c, c < (kindOf t).cores → u.coreState t c = 0) ∧
    (∀ s : State, s.bit R.CUR_PART_RESET_STATUS 31 = true → s.cur.resetAtP = none →
      (∀ t ∈ s.cur.resetSites, s.tbit t R.TILE_RESET 31 = false) → ∃ u : State, Does .partitionResetDone s u ∧
        u.bit R.CUR_PART_RESET_STATUS 31 = false ∧ u.cur.resetSites = []) ∧
    (∀ (s : State) (a : Agent) (t : Nat) (w : BitVec 32), s.Reached a t →
      Does (.sL2CfgWrite a t w) s (s.applied a t fun s t => s.l2Cfg t w)) ∧
    (∀ (s : State) (t : Nat) (w : BitVec 32), kindOf t = .s → w.getLsbD 16 = false → let u := s.l2Cfg t w
      let ways := getBits w 4 0
      let still := ∀ c, c < 4 → s.coreState t c = 0 ∨ s.coreState t c = 4 ∨ s.coreState t c = 5
      (¬still ∨ s.l2Busy t = true → u = s.setTbit t R.S_L2_CFG 16 true) ∧
      (still → s.l2Busy t = false → 16 < ways ∨ ways = s.localWays t → u = s) ∧
      (still → s.l2Busy t = false → ways ≤ 16 → ways ≠ s.localWays t → u.l2Busy t = true ∧ (u.site t).l2End = some ways ∧
        u.localWays t = s.localWays t)) ∧
    (∀ (s : State) (t ways : Nat), (s.site t).l2End = some ways → s.l2Busy t = true → (s.site t).spills = [] → ways ≤ 16 →
      ∃ u : State, Does (.l2ReconfigDone t) s u ∧ u.localWays t = ways ∧ u.l2Busy t = false ∧ (u.site t).l2End = none ∧
        (∀ o, min (s.localBytes t) (131072 * ways) ≤ o → o < max (s.localBytes t) (131072 * ways) → (u.site t).vitByte o = 0) ∧
        ∀ o, (o < min (s.localBytes t) (131072 * ways) ∨ max (s.localBytes t) (131072 * ways) ≤ o) →
          (u.site t).vitByte o = (s.site t).vitByte o)

/-- A test that is due is noted, and an overdue one with one record 0x41. A grant of 0 ms ends a partition's window, another opens it until its end, and
a core or function that names another partition only sets grant_reject. The next test starts with its site in the tile-reset state, and ends:
passed, with its start as TILE_IFT_LAST; repaired once with the spare column; or failed, which marks the site dead with records 0x40 and 0x08. A
poll that is answered forgets the silence before it, and a second silence marks the site dead. SEC_FENCE_CHECK keeps the first condition that fails
for its writer. A scrub command of the host for a partition at its fence, with no swap and no scrub of it, closes and zeroes every site of it and
zeroes its units; one for the idle resources covers the sites in no partition; any other sets reject. At the end of a site's scrub its queues take
their records with the accession one above; the last end writes record 0x51. (R390, R391, R392, R393, R434, R435, R436, R443, R444.) -/
def Obligations.TestAndScrubCommands : Prop :=
    (∀ (s : State) (t : Nat), s.testable t = true → s.curatorUp = true → s.dueAt t ≤ s.time → s.iftState t = 0 →
      ∃ u : State, Does (.iftDue t) s u ∧ u.iftState t = 1 ∧ u.overdue t = s.overdue t ∧ ∀ x, x ≠ t → u.site x = s.site x) ∧
    (∀ (s : State) (t : Nat), s.testable t = true → s.curatorUp = true → s.overdueAt t ≤ s.time → s.overdue t = false →
      ∃ v : State, Does (.iftOverdue t) s (v.curFault 0x41 (le 2 t)) ∧ v.overdue t = true ∧
        v.iftState t = (if s.iftState t = 0 then 1 else s.iftState t) ∧ ∀ x, x ≠ t → v.site x = s.site x) ∧
    (∀ (s : State) (p ms : Nat), p < 256 → ms < 2 ^ 24 → ∃ opened ignored : State,
      opened.cur.windows = (s.cur.windows.filter fun e => e.1 != p) ++ (if ms = 0 then [] else [(p, s.time + 1000000 * ms)]) ∧
      opened.regs = s.regs ∧ ignored.bit R.CUR_IFT_STATUS 31 = true ∧ ignored.cur = s.cur ∧
      (∀ t c, s.OpenTo (.core t c) → Does (.iftGrant (.core t c) p ms) s (if s.partOf t = some p then opened else ignored)) ∧
      (∀ a, (∀ t c, a ≠ .core t c) → (∀ k, a ≠ .vf k) → s.Granted a R.CUR_IFT_GRANT → Does (.iftGrant a p ms) s opened) ∧
      (∀ k, s.Granted (.vf k) R.CUR_IFT_GRANT → Does (.iftGrant (.vf k) p ms) s (if s.vfPart k = some p then opened else ignored))) ∧
    (∀ (s : State) (t : Nat), s.nextTest = some t → ∃ u : State, Does (.iftStart t) s u ∧ u.iftState t = 2 ∧
      u.cur.tests = s.cur.tests ++ [(t, s.time)] ∧ (∀ c, c < (kindOf t).cores → u.coreState t c = 0 ∧ u.event t c = false) ∧
      (∀ e, (u.site t).queue e = [] ∧ (u.site t).issued e = []) ∧ (u.site t).acc = [] ∧ (u.site t).acts = [] ∧
      ∀ q, q < 64 → u.qState t q ≠ 1) ∧
    (∀ (s : State) (t begun : Nat), s.cur.tests.find? (fun e => e.1 == t) = some (t, begun) →
      (∃ u : State, Does (.iftEnd t 0) s u ∧ u.iftState t = 0 ∧ u.overdue t = false ∧ u.treg64 t R.TILE_IFT_LAST_LO = begun % 2 ^ 64 ∧
        ∀ e ∈ u.cur.tests, e.1 ≠ t) ∧
      (∃ v w : State, (∀ x, 2 ≤ x → Does (.iftEnd t x) s w) ∧ (kindOf t ≠ .m ∨ t ∈ s.cur.testRetry → Does (.iftEnd t 1) s w) ∧
        (s.partOf t = none → w = v) ∧ (∀ p, s.partOf t = some p → w = v.partFail p 0x08) ∧
        ∃ x : State, v = x.curFault 0x08 (le 2 t ++ le 1 2) ∧ x.siteStatus t = 1 ∧ x.iftState t = 0 ∧ ∀ e ∈ x.cur.tests, e.1 ≠ t) ∧
      (kindOf t = .m → t ∉ s.cur.testRetry → ∃ u : State, Does (.iftEnd t 1) s u ∧ u.cur.testRetry = s.cur.testRetry ++ [t] ∧
        u.cat.tables.site t / 256 = min 255 (s.cat.tables.site t / 256 + 1) ∧ (∃ e ∈ u.cur.tests, e = (t, s.time)) ∧
        (s.siteStatus t = 0 → u.siteStatus t = 2))) ∧
    (∀ (s : State) (t : Nat), s.curatorUp = true → ∃ u : State, Does (.cnPoll t) s u ∧
      u = s.modSec fun x => { x with silent := s.sec.silent.filter fun e => e.1 != t }) ∧
    (∀ (s : State) (t : Nat), t < 3072 → s.live t = true → s.wingUp (wingOf t) = true → s.curatorUp = true →
      (s.sec.silent.find? (fun e => e.1 == t) = none → ∃ u : State, Does (.cnPollTimeout t) s u ∧ u.cat = s.cat ∧
        u.sec.silent = s.sec.silent ++ [(t, s.time)]) ∧
      (∀ n, s.sec.silent.find? (fun e => e.1 == t) = some (t, n) → n + 1000000 ≤ s.time → ∃ v w : State, Does (.cnPollTimeout t) s w ∧
        (s.partOf t = none → w = v) ∧ (∀ p, s.partOf t = some p → w = v.partFail p 0x08) ∧
        ∃ x : State, v = x.curFault 0x08 (le 2 t ++ le 1 1) ∧ x.siteStatus t = 1 ∧ ∀ e ∈ x.sec.silent, e.1 ≠ t)) ∧
    (∀ (s : State) (a : Agent) (p : Nat), p < 256 → s.Granted a R.SEC_FENCE_CHECK → ∃ u : State, Does (.secFenceCheck a p) s u ∧
      Map.get (fun _ => 0) u.sec.fences (s.fenceAgent a) =
        2 ^ 31 + s.fence p (match a with | .core t c => some (t, c) | _ => none)) ∧
    (∀ (s : State) (a : Agent) (p : Nat) (m : Image), p < 256 → s.Granted a R.SEC_SCRUB_CTL → s.fab.active = some m →
      let may := (a = .host ∨ a = .pf1) ∧ s.fence p none = 0 ∧ s.noSwap = true ∧ s.scrubbing p = false
      let sites := (m.sitesOf p).filter s.live
      let units := (m.unitsOfPart p).filter (m.unitWithin p)
      (¬may → ∃ u : State, Does (.scrubPartition a p) s u ∧ u.bit R.SEC_SCRUB_CTL 31 = true ∧ u.sec = s.sec ∧ u.sites = s.sites) ∧
      (may → ∃ u : State, Does (.scrubPartition a p) s u ∧ (sites ++ units ≠ [] → u.scrubbing p = true) ∧
        (∀ t ∈ sites, s.iftState t ≠ 2 → t ∈ u.sec.sites ∧ (u.site t).vit = [] ∧ (u.site t).prog = [] ∧ (u.site t).acc = [] ∧
          ∀ q, q < 64 → u.qState t q ≠ 1) ∧
        (∀ t ∈ sites, s.iftState t = 2 → t ∈ u.sec.waiting) ∧ ∀ i ∈ units, i ∈ u.dram.zeroing)) ∧
    (∀ (s : State) (a : Agent), s.Granted a R.SEC_SCRUB_CTL → let may := (a = .host ∨ a = .pf1) ∧ s.noSwap = true
      ∃ u : State, Does (.scrubIdle a) s u ∧ (¬may → u.bit R.SEC_SCRUB_CTL 31 = true ∧ u.sec = s.sec ∧ u.sites = s.sites) ∧
        (may → ∀ t, t < 3072 → s.partOf t = none → s.live t = true → kindOf t ≠ .mi → s.iftState t ≠ 2 →
          t ∈ u.sec.sites ∧ (u.site t).vit = [] ∧ (u.site t).prog = [])) ∧
    (∀ (s : State) (t : Nat), t ∈ s.sec.sites → ∃ u : State, Does (.siteScrubEnd t) s u ∧ t ∉ u.sec.sites ∧ (u.site t).vit = (s.site t).vit ∧
      ∀ q, q < 64 → u.qState t q = qRecState (s.queueRec t q) ∧
        u.qAcc t q = if qRecState (s.queueRec t q) = 0 then 0 else (s.qAcc t q + 1) % 1024) ∧
    (∀ (s : State) (p : Nat) (j : ScrubJob), s.sec.jobs.find? (fun j => j.part == if p == 255 then none else some p) = some j →
      s.jobDone j = true → ∃ v : State, Does (.scrubDone p) s (v.fault 0x51 v.curatorSource (if p == 255 then none else some p)
        (le 2 j.nSites ++ le 2 j.nUnits ++ le 4 ((s.time - j.since) / 1000))) ∧ v.sec.jobs = s.sec.jobs.erase j ∧
        (p < 256 → p ≠ 255 → (∀ k ∈ s.sec.jobs.erase j, k.part ≠ some p) → v.scrubbing p = false))

/-- A powered DOWN port whose time has come begins a training, under the policy of LNK_CTL: in S3 one of five, later without a limit. A step that times
out, and lanes, versions, encryption or keys that do not agree, fail it with the reason of R398: the port is DOWN until its next attempt and, but
for step 1, one more counts; a failed retrain is tried again, and the fifth in a row takes the port DOWN. Otherwise the port is UP at the least
width of the good lanes and both maxima, on the lowest good lanes, with the agreed version: anew after a training, with its numbers and every
unacknowledged frame to be replayed after a retrain. A state that held for 10 s is published. A granted command retrains an UP port, takes a port
down for good, or starts the training of a DISABLED one; another state rejects it. An UP port counts the codewords of a frame. A frame whose CRC-64
or tag fails, or whose number is not the next expected, is discarded: the number expected stays, and a NAK is out; a failed tag is counted, and the
fourth within 1 s takes the port DOWN for AUTH. A frame in order acknowledges what its header says; after a DATA or CTRL frame the next number is
expected, and a flipped epoch bit moves the receiver to the next epoch. A NAK, or 4 us without progress, marks every unacknowledged frame for
replay; 2^32 frames end an epoch; a PEER_ID shows the peer, and its request is answered with this device's. A port that is not down goes DOWN when
REFCLK_LNK is lost, and keeps nothing to replay. (R397, R398, R399, R400, R405, R409, R401, R402, R404, R407, R408.) -/
def Obligations.LinkCommands : Prop :=
    (let fails : State → State → Nat → Nat → Bool → Prop := fun s u p reason counted =>
       let n := s.fld (R.LNK_PORT_STATUS p) 16 9
       u.fld (R.LNK_PORT_STATUS p) 16 9 = (if counted then min 255 (n + 1) else n) ∧
       (s.portState p = 2 → u.portState p = 1 ∧ u.fld (R.LNK_PORT_STATUS p) 27 24 = reason ∧ (u.port p).trainAt = none ∧
         (u.port p).tries = (s.port p).tries + 1 ∧
         (u.port p).nextTry = (s.port p).trainAt.getD s.time + if s.stage = 3 then 1000000000 else 10000000000) ∧
       (s.portState p = 4 → (s.port p).failed < 4 → u.portState p = 4 ∧ u.fld (R.LNK_PORT_STATUS p) 27 24 = reason ∧
         (u.port p).failed = (s.port p).failed + 1 ∧ (u.port p).trainAt = some s.time ∧ (u.port p).replay = (s.port p).replay) ∧
       (s.portState p = 4 → 4 ≤ (s.port p).failed → u.portState p = 1 ∧ u.fld (R.LNK_PORT_STATUS p) 27 24 = 5 ∧ (u.port p).replay = [])
     (∀ (s : State) (p : Nat), p < 32 → s.portPowered = true → s.portState p = 1 → (s.port p).nextTry ≤ s.time →
       ∃ u : State, u.portState p = 2 ∧ u.port p = { s.port p with trainAt := some s.time, policy := (s.reg R.LNK_CTL).toNat } ∧
         (s.stage = 3 → (s.port p).tries < 5 → Does (.portTraining p) s u) ∧
         (4 ≤ s.stage ∨ s.cur.restarting = true → Does (.trainingRetry p) s u)) ∧
     (∀ (s : State) (p step lanes : Nat) (auth : Bool) (t : Nat), p < 32 → (s.port p).trainAt = some t →
       (step = 1 ∧ s.portState p = 2 ∧ t + 10000000 ≤ s.time ∨
         (step = 3 ∨ step = 4 ∨ step = 5) ∧ (s.portState p = 2 ∨ s.portState p = 4) ∧ (step = 3 ↔ goodLanes lanes < 2)) →
       ∃ u : State, Does (.trainingStepTimeout p step (lanes, auth)) s u ∧
         fails s u p (if step = 1 then 1 else if step = 3 then 2 else if step = 4 ∧ auth = false then 3 else 4) (step != 1) ∧
         (step ≠ 1 → (u.reg (R.LNK_PORT_LANES p)).toNat = lanes % 512)) ∧
     (∀ (s : State) (p lanes maxWidth low high serial : Nat) (enc auth : Bool),
       p < 32 → s.portPowered = true → (s.portState p = 2 ∨ s.portState p = 4) → (s.port p).trainAt.isSome = true → serial < 2 ^ 64 →
       let good := (List.range 9).filter lanes.testBit
       let v := min ((s.port p).policy / 4 % 4) high
       let mine := (s.port p).policy.testBit 0
       let agreed := 1 ≤ v ∧ low ≤ v
       let safe := mine = enc ∧ (mine = true → s.fuses.linkKey = true ∧ auth = true)
       let width := min (if 8 ≤ good.length then 3 else if 4 ≤ good.length then 2 else 1)
         (min (maxWidthCode (s.fld (R.LNK_PORT_CTL p) 9 8)) (maxWidthCode maxWidth))
       ∃ u : State, Does (.portUp p lanes maxWidth low high serial enc auth) s u ∧
         (u.reg (R.LNK_PORT_LANES p)).toNat = lanes % 512 ∧
         (good.length < 2 → fails s u p 2 true) ∧ (2 ≤ good.length → ¬agreed → fails s u p 3 true) ∧
         (2 ≤ good.length → agreed → ¬safe → fails s u p 4 true) ∧
         (2 ≤ good.length → agreed → safe →
           u.portState p = 3 ∧ u.fld (R.LNK_PORT_STATUS p) 22 20 = width ∧ u.fld (R.LNK_PORT_STATUS p) 19 18 = v ∧
           u.encOn p = mine ∧ u.fld (R.LNK_PORT_STATUS p) 8 0 = maskOf (good.take (2 ^ width)) ∧
           u.reg64 (R.LNK_PORT_PEER_LO p) = serial ∧ u.ctrlOut = s.ctrlOut ++ [(p, s.peerIdFrame)] ∧
           (s.portState p = 2 → u.port p = { Port.start with tries := (s.port p).tries, counted := (s.port p).counted, changed := some s.time }) ∧
           (s.portState p = 4 → (u.port p).nextSeq = (s.port p).nextSeq ∧ (u.port p).expect = (s.port p).expect ∧
             (u.port p).credit = (s.port p).credit ∧ (u.port p).failed = 0 ∧ (u.port p).resend = (s.port p).replay.map (·.seq)))) ∧
     (∀ (s : State) (p t : Nat), p < 32 → (s.port p).changed = some t → s.curatorUp = true → t + 10000000000 ≤ s.time →
       s.portState p ≠ 2 → s.portState p ≠ 4 → ∃ u : State, Does (.portStatePublish p) s u ∧ (u.port p).changed = none ∧
         (u.port p).counted = s.fld (R.LNK_PORT_STATUS p) 16 9 ∧
         let e := Map.get (fun _ => 0) u.cat.tables.ports p
         e % 8 = (if s.portState p = 3 then s.fld (R.LNK_PORT_STATUS p) 22 20 else 0) ∧ e / 8 % 512 = s.fld (R.LNK_PORT_LANES p) 8 0) ∧
     (∀ (s : State) (a : Agent) (p : Nat), p < 32 → s.Granted a (R.LNK_PORT_CTL p) →
       ∃ no r d e : State, no.bit (R.LNK_PORT_CTL p) 16 = true ∧ no.ports = s.ports ∧ no.portState p = s.portState p ∧
         Does (.retrain a p) s (if s.portState p = 3 then r else no) ∧ Does (.disable a p) s (if s.portState p = 0 then no else d) ∧
         Does (.enable a p) s (if s.portState p = 0 then e else no) ∧
         r.portState p = 4 ∧ r.reg (R.LNK_PORT_RETRAINS p) = satAdd (s.reg (R.LNK_PORT_RETRAINS p)) 1 ∧
         (r.port p).trainAt = some s.time ∧ (r.port p).replay = (s.port p).replay ∧ (r.port p).expect = (s.port p).expect ∧
         d.portState p = 0 ∧ d.fld (R.LNK_PORT_STATUS p) 27 24 = 7 ∧ (d.port p).replay = [] ∧ (∀ f ∈ d.ctrlOut, f.1 ≠ p) ∧
         e.portState p = if s.portPowered then 2 else 1)) ∧
    ((∀ (s : State) (p corr uncorr : Nat) (frame plain : List (BitVec 8)) (tagOk : Bool), p < 32 → s.portState p = 3 → s.portHeld p = false →
       let header := leNat (frame.take 8)
       let kind := bitsOf header 63 60
       let good := frame.length = 256 ∧ crc64 0 (frame.take 248) = BitVec.ofNat 64 (leNat (frame.drop 248))
       let sealed := s.encOn p = true ∧ kind ≠ 3
       let recent := (s.port p).authAt.filter fun t => s.time < t + 1000000000
       let expected := bitsOf header 55 44 = (s.port p).expect
       ∃ u : State, Does (.frameReceive p frame plain tagOk corr uncorr) s u ∧
         u.reg (R.LNK_PORT_FEC_CORR p) = satAdd (s.reg (R.LNK_PORT_FEC_CORR p)) corr ∧
         u.reg (R.LNK_PORT_FEC_UNCORR p) = satAdd (s.reg (R.LNK_PORT_FEC_UNCORR p)) uncorr ∧
         (¬good → (u.port p).expect = (s.port p).expect ∧ (u.port p).nakOut = true ∧ (u.port p).replay = (s.port p).replay ∧ u.net = s.net) ∧
         (good → sealed → tagOk = false → u.reg (R.LNK_PORT_AUTH_FAIL p) = satAdd (s.reg (R.LNK_PORT_AUTH_FAIL p)) 1 ∧
           (recent.length < 3 → u.portState p = 3 ∧ (u.port p).expect = (s.port p).expect ∧ (u.port p).nakOut = true ∧ u.net = s.net) ∧
           (3 ≤ recent.length → u.portState p = 1 ∧ u.fld (R.LNK_PORT_STATUS p) 27 24 = 4)) ∧
         (good → (sealed → tagOk = true) →
           (u.port p).rxEpoch = (s.port p).rxEpoch + (if sealed ∧ bitsOf header 59 59 ≠ (s.port p).rxEpoch % 2 then 1 else 0) ∧
           (¬expected → (u.port p).expect = (s.port p).expect ∧ (u.port p).nakOut = true ∧ (u.port p).replay = (s.port p).replay ∧
             u.net = s.net) ∧
           (expected → kind < 5 → (u.port p).nakOut = false ∧ (u.port p).replay = ((s.acked p (bitsOf header 43 32)).port p).replay ∧
             (u.port p).expect = if kind = 1 ∨ kind = 2 then ((s.port p).expect + 1) % 4096 else (s.port p).expect))) ∧
     (∀ (s : State) (p ack : Nat), p < 32 → s.portState p = 3 →
       (∃ u : State, Does (.nak p ack) s u ∧ (u.port p).replay = ((s.acked p (ack % 4096)).port p).replay ∧
         (u.port p).resend = (u.port p).replay.map (·.seq) ∧ (u.port p).ackAt = s.time) ∧
       ((s.port p).replay ≠ [] → (s.port p).ackAt + 4000 ≤ s.time → ∃ u : State, Does (.ackTimeout p) s u ∧
         u.port p = { s.port p with resend := (s.port p).replay.map (·.seq), ackAt := s.time }) ∧
       (s.encOn p = true → 2 ^ 32 ≤ (s.port p).frames → ∃ u : State, Does (.keyEpochAdvance p) s u ∧
         u.port p = { s.port p with epoch := (s.port p).epoch + 1, frames := 0 }) ∧
       ∃ u : State, Does (.peerIdReq p) s u ∧ u.ctrlOut = s.ctrlOut ++ [(p, s.peerIdFrame)] ∧ u.ports = s.ports) ∧
     (∀ (s : State) (p d : Nat) (valid : Bool), p < 32 → s.portState p = 3 → d < 65536 → ∃ u : State, Does (.peerId p d valid) s u ∧
       u.bit (R.LNK_PORT_PEER_ID p) 31 = valid ∧ u.fld (R.LNK_PORT_PEER_ID p) 15 0 = d ∧ u.ports = s.ports) ∧
     (∀ (s : State) (p : Nat), p < 32 → 2 ≤ s.portState p → s.portState p ≤ 4 → s.bit R.CLK_REF_STATUS 2 = false →
       ∃ u : State, Does (.portDown p) s u ∧ u.portState p = 1 ∧ u.fld (R.LNK_PORT_STATUS p) 27 24 = 6 ∧
         u.fld (R.LNK_PORT_STATUS p) 19 18 = 0 ∧ (u.port p).replay = [] ∧ (∀ f ∈ u.ctrlOut, f.1 ≠ p) ∧ (u.port p).changed = some s.time) ∧
     (∀ (s : State) (p ack : Nat), p < 32 → ((s.port p).replay.any fun f => f.seq == ack) = true →
       ((s.acked p ack).port p).replay = (s.port p).replay.filter fun f =>
         !(((s.port p).replay.takeWhile fun g => g.seq != ack).map (·.seq) ++ [ack]).contains f.seq))

/-- The link trains up or again at the width and rate given, or x1 at up to 8 GT/s without VLINK, with Flit mode at code 6 alone. A surprise down ends
an up link and is recorded; PERST_N low takes the link down and clears bindings, BARs, vectors, key sets, channels and function pages. A lost
reference clears its present bit and sets the other; without REFCLK_SYS the oscillator runs, the wings stop and FAULT_N is low. A configuration
request within 100 ms of the release of PERST_N is answered with Retry Status, and later ones read, enable VFs or program BARs. A memory request
that no BAR takes, or that comes before S3, is Unsupported; one that is not protected puts its TDI into ERROR; an unbound VF reads all ones with
UNREACH in FN_ERR; an access of the aperture that is no CSR leaves for the network with the function's rights. (R325, R410, R411, R412, R413, R418,
R419.) -/
def Obligations.HostLinkCommands : Prop :=
    (∀ (s : State) (width rate : Nat), (width = 1 ∨ width = 2 ∨ width = 4 ∨ width = 8 ∨ width = 16) → 1 ≤ rate → rate ≤ 6 →
      let rule : State → Prop := fun u =>
        (s.stageOn = true → width ≠ 16 → u.fld R.HST_LINK_STATUS 3 0 = width) ∧
        (s.stageOn = true → u.fld R.HST_LINK_STATUS 7 4 = rate ∧ u.bit R.HST_LINK_STATUS 9 = decide (rate = 6)) ∧
        (s.stageOn = false → u.fld R.HST_LINK_STATUS 3 0 = 1 ∧ u.fld R.HST_LINK_STATUS 7 4 = min 3 rate ∧ u.bit R.HST_LINK_STATUS 9 = false) ∧
        u.hostUp = true ∧ u.msix = s.msix ∧ u.hst = s.hst
      (s.pins.vaux5 = true → s.pins.perstN = true → s.bit R.CLK_REF_STATUS 1 = true → s.hostUp = false →
        ∃ u : State, Does (.hostLinkUp width rate) s u ∧ rule u) ∧
      (s.hostUp = true → ∃ u : State, Does (.hostLinkRetrain width rate) s u ∧ rule u)) ∧
    (∀ s : State, (s.hostUp = false → Does .surpriseDown s s) ∧
      (s.hostUp = true → ∃ u : State, Does .surpriseDown s u ∧ u.hostUp = false ∧ u.bit R.HST_LINK_STATUS 11 = true ∧ u.hst.reqs = [] ∧
        ∀ f c, f < 64 → c < 4 → (s.bit (R.FN_CH_CFG f c) 31 = true ∨ s.chan f c ≠ []) →
          u.bit (R.FN_CH_STATUS f c) 31 = true ∧ u.bit (R.FN_CH_STATUS f c) 30 = false ∧ u.chan f c = [])) ∧
    (∀ s : State, (s.pins.perstN = true → Does (.perstN false) s s ∧ ∃ u : State, Does (.perstN true) s u ∧ u.pins.perstN = false ∧
        u.hostUp = false ∧ u.bit R.HST_LINK_STATUS 10 = true ∧ u.msix = [] ∧ u.hst.numVfs = 0 ∧ u.hst.bars = [] ∧ u.hst.streams = [] ∧
        u.hst.reqs = [] ∧ (∀ f c, u.chan f c = []) ∧ (∀ f, f < 64 → u.reg (R.FN_MSG_STATUS f) = 0 ∧ u.reg (R.FN_APER_BASE f) = 0) ∧
        ∀ k, 1 ≤ k → k < 64 → u.bit (R.HST_VF_BIND k) 31 = false) ∧
      (s.pins.perstN = false → Does (.perstN true) s s ∧ ∃ u : State, Does (.perstN false) s u ∧ u.pins.perstN = true ∧
        u.bit R.HST_LINK_STATUS 10 = false ∧ u.hst = s.hst)) ∧
    (∀ (s : State) (n : Nat), n < 3 → s.pins.vaux5 = true → s.bit R.CLK_REF_STATUS n = true → ∃ u : State, Does (.refclkLoss n) s u ∧
      u.bit R.CLK_REF_STATUS n = false ∧ u.bit R.CLK_REF_STATUS (3 + n) = true ∧
      (n = 0 → u.clk.oscillator = true ∧ u.fld R.CLK_WING_RUN 15 0 = 0 ∧ u.pins.faultLatched = true ∧
        (s.stage ≠ 0 → s.stage < 5 → s.cur.restarting = false → u.fld R.CUR_BOOT_STATUS 31 28 = 4)) ∧
      (n = 1 → u.hostUp = false ∧ (s.hostUp = true → u.bit R.HST_LINK_STATUS 11 = true)) ∧
      (n = 2 → ∀ p, p < 32 → 2 ≤ s.portState p → u.portState p = 1 ∧ u.fld (R.LNK_PORT_STATUS p) 27 24 = 6)) ∧
    (∀ (s : State) (f op reg value since : Nat), s.hostUp = true →
      let told : Nat → List (BitVec 8) → State → Prop := fun outcome data u =>
        u.hst.done = s.hst.done ++ [{ id := s.hst.nextId, outcome := outcome, data := data }] ∧ u.regs = s.regs
      ∃ u : State, Does (.pcieConfigRequest f op reg value since) s u ∧
        (since < 100000000 → told 2 [] u ∧ u.hst.numVfs = s.hst.numVfs ∧ u.hst.bars = s.hst.bars) ∧
        (100000000 ≤ since → op = 0 → (f = 64 ∨ f ≤ s.hst.numVfs → ∃ w : BitVec 32, told 0 (leBytes 4 w.toNat) u ∧
            (reg < 4 → getBits w 31 16 = 0x1648) ∧ (reg / 4 = 2 → getBits w 31 16 = if f = 64 then 0x0880 else 0x1200)) ∧
          (f ≠ 64 → s.hst.numVfs < f → told 1 [] u)) ∧
        (100000000 ≤ since → op = 1 → f = 0 → value < 64 → told 0 [] u ∧ u.hst.numVfs = value) ∧
        (100000000 ≤ since → op = 2 → (f = 0 ∨ f = 64 ∨ f = 65) → (reg = 0 ∨ reg = 2) →
          told 0 [] u ∧ Map.get (fun _ => 0) u.hst.bars (f * 8 + reg) = value)) ∧
    (∀ (s : State) (write : Bool) (addr len : Nat) (data : List (BitVec 8)) (stream : Option Nat), s.hostUp = true → 0 < len →
      (write = true → len ≤ 512 ∧ data.length = len) → (write = false → len ≤ 4096) →
      (∀ n, stream = some n → (s.hst.streams.any fun e => e.1 == n) = true ∧ n ∉ s.hst.stopped) →
      let told : Nat → List (BitVec 8) → State → Prop := fun outcome data u =>
        u.hst.done = s.hst.done ++ [{ id := s.hst.nextId, outcome := outcome, data := data }]
      ∃ u : State, Does (.pcieMemoryRequest write addr len data stream) s u ∧
        (s.barHit addr = none → told 1 [] u ∧ u.regs = s.regs ∧ u.net = s.net) ∧
        ∀ f bar o, s.barHit addr = some (f, bar, o) → f < 65 →
          let a := 2 ^ 36 * s.fld (R.FN_APER_BASE f) 5 0 + o
          (f ≠ 64 → s.stage < 3 → s.cur.restarting = false → told 1 [] u ∧ u.regs = s.regs ∧ u.net = s.net) ∧
          (3 ≤ s.stage → s.unprotected f stream = true → told 1 [] u ∧ u.tdi f = 3 ∧ u.net = s.net) ∧
          (3 ≤ s.stage → s.unprotected f stream = false → f ≠ 64 → bar = 0 → s.vfOut (fnAgent f) = true →
            (write = false → told 0 (List.replicate len 0xFF) u) ∧ u.bit (R.FN_ERR f) 31 = true ∧ u.net = s.net ∧
            (s.bit (R.FN_ERR f) 31 = false → u.fld (R.FN_ERR f) 1 0 = 3 ∧ u.reg64 (R.FN_ERR_ADDR_LO f) = a)) ∧
          (3 ≤ s.stage → s.unprotected f stream = false → f ≠ 64 → bar = 0 → s.vfOut (fnAgent f) = false →
            (∀ t i, s.place a ≠ .tileCsr t i) → (∀ i, s.place a ≠ .devCsr i) → ∃ r : NetReq, u.net.outbox = s.net.outbox ++ [r] ∧
              r.origin = 5000 ∧ r.agent = fnAgent f ∧ r.hdr.kind = (if write then 9 else 8) ∧ r.hdr.addr = a ∧ r.hdr.len = len ∧
              r.data = (if write then data else []) ∧ u.regs = s.regs ∧ u.hst.done = s.hst.done))

/-- A present function's send is rejected while one is busy, ends UNREACH for another device or from a function out of reach, and otherwise leaves as
one message with the payload of its kind to the destination of FN_MSG_DEST. A channel reset of a disabled channel clears its head, tail and status.
A ready channel starts its next descriptor, a fenced one only once the earlier ones are complete; a descriptor that could not be read ends with
0x83, one with a field out of range with 0x84, one of a function out of reach with 0x82, and the others leave in parts. The oldest whose parts are
all done completes: its status byte is written to the host, HEAD advances and, where it asks, the channel's vector is raised. A vector from 4 to 31
is raised by an agent that may, and another sets msix_reject. (R204, R413, R414, R415, R416, R425.) -/
def Obligations.FunctionCommands : Prop :=
    (∀ (s : State) (f : Nat), s.hostUp = true → f < 64 → s.fnPresent f = true →
      let dest := s.acted64 (R.FN_MSG_DEST_LO f)
      let words := fun (n : Nat) => (List.range n).flatMap fun i => leBytes 4 (s.reg (R.FN_MSG_DATA f i)).toNat
      let rule : Nat → List (BitVec 8) → State → Prop := fun kind data u =>
        (s.bit (R.FN_MSG_STATUS f) 31 = true → u.bit (R.FN_MSG_STATUS f) 30 = true ∧ u.net = s.net) ∧
        (s.bit (R.FN_MSG_STATUS f) 31 = false →
          (dest / 2 ^ 48 % 2 ^ 16 ≠ s.deviceId ∨ s.vfOut (fnAgent f) = true →
            u.fld (R.FN_MSG_STATUS f) 1 0 = 3 ∧ u.bit (R.FN_MSG_STATUS f) 31 = false ∧ u.net = s.net) ∧
          (dest / 2 ^ 48 % 2 ^ 16 = s.deviceId → s.vfOut (fnAgent f) = false → u.bit (R.FN_MSG_STATUS f) 31 = true ∧
            ∃ r : NetReq, u.net.outbox = s.net.outbox ++ [r] ∧ r.origin = 5000 ∧ r.agent = fnAgent f ∧ r.data = data ∧ r.user = .fn f ∧
              r.hdr.kind = kind ∧ r.hdr.dev = s.deviceId ∧ r.hdr.tile = dest / 2 ^ 36 % 2 ^ 12 ∧ r.hdr.len = data.length ∧
              (kind = 1 → r.hdr.queue = dest / 2 ^ 30 % 2 ^ 6 ∧ r.hdr.acc = dest / 2 ^ 20 % 2 ^ 10) ∧
              (kind = 4 → r.hdr.arg = dest % 2 ^ 20)))
      ∃ u v w : State, Does (.fnMsgToken f) s u ∧ rule 4 [] u ∧ Does (.fnMsgDoorbell f) s v ∧ rule 5 (words 2) v ∧
        Does (.fnMsgDesc f) s w ∧ rule 1 (words 8) w) ∧
    (∀ (s : State) (f c : Nat), s.hostUp = true → f < 64 → c < 4 → s.fnPresent f = true →
      (s.bit (R.FN_CH_CFG f c) 31 = true → Does (.channelReset f c) s s) ∧
      (s.bit (R.FN_CH_CFG f c) 31 = false → ∃ u : State, Does (.channelReset f c) s u ∧ u.reg (R.FN_CH_HEAD f c) = 0 ∧
        u.reg (R.FN_CH_TAIL f c) = 0 ∧ u.reg (R.FN_CH_STATUS f c) = 0 ∧ u.chan f c = [])) ∧
    (∀ (s : State) (f c : Nat) (desc : BitVec 256) (ok : Bool) (data : List (BitVec 8)) (err : List Nat), f < 64 → c < 4 →
      s.channelReady f c = true →
      let d := desc.toNat
      let far := s.vfOut (fnAgent f) = true
      let waits := ok = true ∧ desc.getLsbD 66 = true ∧ s.chan f c ≠ []
      (waits → Does (.copyDescriptorStart f c desc ok data err) s s) ∧
      (¬waits → ∃ (u : State) (j : CopyJob), Does (.copyDescriptorStart f c desc ok data err) s u ∧ u.chan f c = s.chan f c ++ [j] ∧
        u.bit (R.FN_CH_STATUS f c) 30 = true ∧ j.index = s.nextDesc f c ∧
        (∃ l, u.net.outbox = s.net.outbox ++ l ∧ l.length = j.left ∧
          ∀ r ∈ l, r.agent = fnAgent f ∧ r.hdr.kind = (if desc.getLsbD 64 then 8 else 9) ∧ d / 2 ^ 128 % 2 ^ 64 ≤ r.hdr.addr ∧
            r.hdr.len ≤ 4096) ∧
        (ok = false → j.status = 0x83 ∧ j.left = 0) ∧ (ok = true → copyBad d = true → j.status = 0x84 ∧ j.left = 0) ∧
        (ok = true → copyBad d = false → far → j.status = 0x82 ∧ j.left = 0) ∧
        (ok = true → copyBad d = false → ¬far → j.dev = d / 2 ^ 128 % 2 ^ 64 ∧ j.host = d / 2 ^ 192 % 2 ^ 64 ∧
          j.length = d / 2 ^ 96 % 2 ^ 32 ∧ j.irq = desc.getLsbD 65 ∧ j.toHost = desc.getLsbD 64 ∧
          j.status = if desc.getLsbD 64 = false ∧ err ≠ [] then 0x83 else 0x80))) ∧
    (∀ (s : State) (f c : Nat) (j : CopyJob) (rest : List CopyJob), f < 64 → c < 4 → s.hostUp = true → s.chan f c = j :: rest → j.left = 0 →
      j.status < 256 → ∃ u : State, Does (.copyDescriptorComplete f c) s u ∧ u.chan f c = rest ∧
        (∃ l, u.hst.writes = s.hst.writes ++ l ++ [(f, s.acted64 (R.FN_CH_RING_LO f c) + 32 * j.index, [BitVec.ofNat 8 j.status])] ∧
          l = if j.toHost ∧ j.length ≠ 0 then [(f, j.host, j.bytes)] else []) ∧
        u.fld (R.FN_CH_HEAD f c) 11 0 = (j.index + 1) % s.ringSize f c % 4096 ∧ u.fld (R.FN_CH_STATUS f c) 7 0 = j.status ∧
        u.bit (R.FN_CH_STATUS f c) 30 = !rest.isEmpty ∧ u.msix = s.msix ++ (if j.irq then [(f + 1, c)] else [])) ∧
    (∀ (s : State) (a : Agent) (f vec : Nat), f < 64 → vec < 32 → s.OpenTo a → ∃ u : State, Does (.hstMsixRaise a f vec) s u ∧
      (vec < 4 ∨ s.mayRaise a f = false → u.bit R.HST_MSIX_RAISE 31 = true ∧ u.msix = s.msix) ∧
      (4 ≤ vec → s.mayRaise a f = true → u.regs = s.regs ∧
        u.msix = s.msix ++ if f ≤ s.hst.numVfs ∧ s.hostUp = true then [(f + 1, vec)] else []))

/-- A go of PF0 takes the request area while the mailbox is not busy, and is rejected otherwise. A request in service is answered by the command of its
opcode, with its opcode and tag: BAD_LENGTH (2) for a payload it does not take, BAD_STATE (3) where it is not allowed, and otherwise OK with its
payload and effect, FLASH_ERR (6) where the flash failed, or AUTH (4) where the staged slot does not verify. Any other opcode completes with
BAD_OPCODE (1). Completion shows the result, DONE and PF0 vector 0. A served message on MCTP is answered, a mailbox request over it with BUSY while
one is in service; measurements are signed over the nonce, and a key exchange makes a session. (R372, R389, R420, R421, R422, R423, R427.) -/
def Obligations.MailboxCommands : Prop :=
    let answered : State → State → List (BitVec 8) → Nat → List (BitVec 8) → Prop := fun s u r result payload =>
      let rsp := leBytes 2 (reqOp r) ++ leBytes 2 payload.length ++ leBytes 4 (reqTag r) ++ leBytes 4 result ++ payload
      u.hst.mbxWork = none ∧ u.mbxState = 1 ∧
      (∀ i, i < (rsp.length + 3) / 4 → Map.get (fun _ => 0) u.hst.mbxRsp i = BitVec.ofNat 32 (leNat ((rsp.drop (4 * i)).take 4))) ∧
      u.hst.answers = s.hst.answers ++ if s.fld R.HST_MBX_STATUS 9 9 = 1 then [(0x7E, rsp)] else []
    (∀ (s : State) (a : Agent), s.Granted a R.HST_MBX_CTL → ∃ u : State, Does (.mailboxGo a) s u ∧
      (a ≠ .host ∨ s.mbxState = 1 → u.bit R.HST_MBX_STATUS 8 = true ∧ u.hst = s.hst) ∧
      (a = .host → s.mbxState ≠ 1 → u.mbxState = 1 ∧ u.bit R.HST_MBX_STATUS 9 = false ∧ u.hst.mbxWork = some s.mailboxArea)) ∧
    (∀ (s : State) (r : List (BitVec 8)) (b : Bool) (failed : List Nat), s.mailboxUp = true → s.mbxState = 1 → s.hst.mbxWork = some r →
      let plain : Nat → Bool → Instr → (State → Prop) → Prop := fun op allowed c run => reqOp r = op → ∃ u : State, Does c s u ∧
        (reqLen r ≠ 0 → answered s u r 2 [] ∧ u.flash = s.flash) ∧
        (reqLen r = 0 → allowed = false → answered s u r 3 [] ∧ u.flash = s.flash) ∧ (reqLen r = 0 → allowed = true → run u)
      let candidate : State → Prop := fun u => u.flash.staged = [] ∧
        (u.flash.slot s.otherSlot).version = (Config.firmware s.flash.staged).1 ∧
        (u.flash.slot s.otherSlot).secVersion = (Config.firmware s.flash.staged).2.1 ∧ (u.flash.slot s.otherSlot).signed = true
      let verifies := (Config.firmware s.flash.staged).2.2 = true ∧ s.fuses.minSec ≤ (Config.firmware s.flash.staged).2.1
      let commit : (State → State) → State → Prop := fun after u => (b = true → answered s u r 6 [] ∧ u.flash = s.flash) ∧
        (b = false → ¬verifies → answered s u r 4 [] ∧ u.flash = s.flash) ∧
        (b = false → verifies → ∃ v, u = after v ∧ answered s v r 0 [] ∧ candidate v)
      plain 0x0001 true .getVersion (fun u => answered s u r 0 (Config.versionPayload [(s.reg R.HST_MBX_VERSION).toNat, Config.romVersion.toNat,
        s.flash.slotA.version, s.flash.slotA.secVersion, s.flash.slotB.version, s.flash.slotB.secVersion])) ∧
      plain 0x0002 true .getIdentity (fun u => answered s u r 0
        (Config.identityPayload Config.serial.toNat [0x44, 0x56, 0x31, 0x36, 0x34, 0x38] (s.reg R.CAT_GEN).toNat)) ∧
      plain 0x0011 (s.stage == 0 && s.bootError == 1 || s.stage == 5) (.fwCommit b) (commit id) ∧
      plain 0x0012 (s.stage == 0 && s.bootError == 1) (.recoveryBoot b) (commit State.bootFirmware) ∧
      plain 0x0020 (s.stage == 5 && s.bit R.PWR_BRING_STATUS 0) (.vbringTest failed) (fun u => answered s u r 0 [] ∧
        let w := s.fld R.PWR_BRING_CTL 3 0
        ∀ t, t ∈ wingSites w → t ∈ failed → s.wingDead w = false → u.siteStatus t = 1) ∧
      (reqOp r = 0x0010 → ∃ u : State, Does (.fwWrite b) s u ∧
        let fits := 4 ≤ reqLen r ∧ reqLen r ≤ 4084
        let allowed := s.stage = 0 ∧ s.bootError = 1 ∨ s.stage = 5
        (¬fits → answered s u r 2 [] ∧ u.flash = s.flash) ∧ (fits → ¬allowed → answered s u r 3 [] ∧ u.flash = s.flash) ∧
        (fits → allowed → b = true → answered s u r 6 [] ∧ u.flash = s.flash) ∧
        (fits → allowed → b = false → answered s u r 0 [] ∧ ∀ i v, ((reqBody r).drop 4)[i]? = some v →
          Map.get (fun _ => 0) u.flash.staged (leNat ((reqBody r).take 4) + i) = v)) ∧
      (reqOp r ∉ [0x0001, 0x0002, 0x0010, 0x0011, 0x0012, 0x0020] → ∃ u : State, Does .mailboxComplete s u ∧ u.mbxState = 2 ∧
        u.hst.mbxWork = none ∧ u.fld R.HST_MBX_STATUS 31 16 = 1 ∧ u.flash = s.flash)) ∧
    (∀ s : State, s.mailboxUp = true → s.mbxState = 1 → s.hst.mbxWork = none → ∃ u : State, Does .mailboxComplete s u ∧ u.mbxState = 2 ∧
      u.fld R.HST_MBX_STATUS 31 16 = (Map.get (fun _ => 0) s.hst.mbxRsp 2).toNat % 65536 ∧
      u.msix = s.msix ++ (if s.hostUp then [(0, 0)] else [])) ∧
    (∀ (s : State) (pcie : Bool) (body : List (BitVec 8)), s.mailboxUp = true → (pcie = true → s.hostUp = true) →
      let told : Nat → Nat → List (BitVec 8) → Prop := fun type kind l => ∃ u : State, Does (.mctpMessage pcie type body) s u ∧
        u.hst.answers = s.hst.answers ++ [(kind, l)] ∧ u.regs = s.regs
      told 0 0 (Config.controlAnswer body) ∧ told 1 1 (Config.pldmAnswer body s.sensors) ∧ told 5 5 (Config.spdmAnswer body) ∧
      told 6 6 (Config.spdmAnswer body) ∧ (s.mbxState = 1 → told 0x7E 0x7E (response body 5 [])) ∧
      (s.mbxState ≠ 1 → ∃ u : State, Does (.mctpMessage pcie 0x7E body) s u ∧ u.mbxState = 1 ∧ u.bit R.HST_MBX_STATUS 9 = true ∧
        u.hst.mbxWork = some body) ∧
      ∀ kind, kind ∉ [0, 1, 5, 6, 0x7E] → Does (.mctpMessage pcie kind body) s s) ∧
    (∀ (s : State) (indices : List Nat) (nonce body : List (BitVec 8)), s.mailboxUp = true →
      let blocks := (indices.filter fun i => 1 ≤ i && i ≤ 8).flatMap fun i => Config.measurementBlock i (s.measurement i)
      (∃ u : State, Does (.getMeasurements indices nonce) s u ∧
        u.hst = { s.hst with answers := s.hst.answers ++ [(5, blocks ++ Config.identitySign (blocks ++ nonce))] }) ∧
      ∃ u : State, Does (.keyExchange body) s u ∧
        u.hst = { s.hst with answers := s.hst.answers ++ [(5, Config.spdmAnswer body)], session := true })

/-- In a session a key set is installed for a stream, which flows again; a failure of a stream with keys stops it and puts its locked TDIs into ERROR. A
VF is bound only while CONFIG_UNLOCKED, and otherwise bind_reject is set. A bound VF with idle channels and a selective stream that flows is locked,
a locked one runs, and a stop begins the unlocking, which leaves another VF as it is. (R417, R418.) -/
def Obligations.ConfidentialCommands : Prop :=
    (∀ (s : State) (n : Nat), s.hst.session = true → n < 9 → s.mailboxUp = true → ∃ u : State, Does (.ideKmKeyInstall n) s u ∧
      (u.hst.streams.any fun e => e.1 == n) = true ∧ n ∉ u.hst.stopped ∧ ∀ m, m ≠ n → (m ∈ u.hst.stopped ↔ m ∈ s.hst.stopped)) ∧
    (∀ (s : State) (n : Nat), (s.hst.streams.any fun e => e.1 == n) = true → ∃ u : State, Does (.ideIntegrityFailure n) s u ∧
      n ∈ u.hst.stopped ∧ ∀ k, 1 ≤ k → k < 64 → (n, k) ∈ s.hst.streams → (s.tdi k = 1 ∨ s.tdi k = 2) → u.tdi k = 3) ∧
    (∀ (s : State) (a : Agent) (k : Nat) (w : BitVec 32), 1 ≤ k → k < 64 → s.Granted a (R.HST_VF_BIND k) →
      ∃ u : State, Does (.hstVfBindWrite a k w) s u ∧
      (s.tdi k ≠ 0 → u.bit (R.HST_VF_BIND k) 30 = true ∧ u.bit (R.HST_VF_BIND k) 31 = s.bit (R.HST_VF_BIND k) 31 ∧
        u.fld (R.HST_VF_BIND k) 7 0 = s.fld (R.HST_VF_BIND k) 7 0) ∧
      (s.tdi k = 0 → u.bit (R.HST_VF_BIND k) 31 = w.getLsbD 31 ∧ u.fld (R.HST_VF_BIND k) 7 0 = getBits w 7 0 ∧ u.tdi k = 0)) ∧
    (∀ (s : State) (k n p : Nat) (b : Nat), 1 ≤ k → k < 64 → s.hostUp = true → s.tdi k = 0 → s.vfPart k = some p →
      s.channelsIdle k = true → 1 ≤ n → (n, b) ∈ s.hst.streams → (b = 0 ∨ b = k) → n ∉ s.hst.stopped →
      ∃ u : State, Does (.lockInterface k n) s u ∧ u.tdi k = 1 ∧ (n, k) ∈ u.hst.streams ∧
        u.hst.answers = s.hst.answers ++ [(6, Config.interfaceReport (s.reportItems k))]) ∧
    (∀ (s : State) (k : Nat), 1 ≤ k → k < 64 → s.hostUp = true → k ∉ s.hst.unlocking →
      (s.tdi k = 1 → ∃ u : State, Does (.startInterface k) s u ∧ u.tdi k = 2 ∧ ∀ j, j < 64 → j ≠ k → u.tdi j = s.tdi j) ∧
      (s.tdi k ≠ 0 → ∃ u : State, Does (.stopInterface k) s u ∧
        (s.vfPart k = none → u.tdi k = 0) ∧ (∀ p, s.vfPart k = some p → k ∈ u.hst.unlocking)))

/-- The TAP holds its instruction, and any but BYPASS and IDCODE sets the tap bit of SEC_DEBUG_SEEN, the first of which latches TIME. A granted core
command names its core and attaches it, halts an attached one once its accesses are complete, lets a HALTED one run, or issue one instruction, or
detaches it; any other sets reject. An owned trace buffer is armed with no record, and one that is not owned, or of a site that may not be named,
sets reject; a bank samples the word that it selects and is due again a period later; the minute's errors are kept for 1,440 minutes, and a good
site above the threshold is degraded. A matching pair of accesses is sent once, for both twins, and a mismatch breaks the pair. A FLT_LOG_HEAD
outside the window is ignored. (R430, R431, R432, R433, R438, R440, R441, R447, R449, R455.) -/
def Obligations.DebugCommands : Prop :=
    (∀ (s : State) (i : Nat) (low : Bool), s.pins.vaux5 = true → i < 4 →
      (i = 3 → low = false → Does (.tapInstruction i low) s s) ∧
      (i ≠ 3 ∨ low = true → ∃ u : State, Does (.tapInstruction i low) s u ∧ u.hst.tap = i ∧
        (i < 2 → u.regs = s.regs) ∧ (2 ≤ i → u.bit R.SEC_DEBUG_SEEN 0 = true ∧
          (s.reg R.SEC_DEBUG_SEEN = 0 → u.reg64 R.SEC_DEBUG_TIME_LO = s.time % 2 ^ 64)))) ∧
    (∀ (s : State) (ns : Nat), 1000 ≤ ns → ∃ u : State, Does (.tapReset ns) s u ∧ u.hst.tap = 1 ∧ u.regs = s.regs) ∧
    (∀ (s : State) (a : Agent) (t c : Nat), t < 3072 → c < 4 → s.Granted a R.DBG_CORE_CMD →
      let id := coreId t c
      let there := s.coreThere t c = true
      let mine := there ∧ s.attached t c = true
      let refuses : State → Prop := fun u => u.bit R.DBG_CORE_STATUS 31 = true ∧ u.dbg.attached = s.dbg.attached ∧
        u.coreState t c = s.coreState t c ∧ u.core t c = s.core t c ∧ u.dbg.named = some id
      ∃ x h r p d : State, Does (.attach a t c) s x ∧ Does (.halt a t c) s h ∧ Does (.resume a t c) s r ∧ Does (.step a t c) s p ∧
        Does (.detach a t c) s d ∧ x.bit R.SEC_DEBUG_SEEN 1 = true ∧
        (there → s.attached t c = false → x.attached t c = true ∧ x.core t c = s.core t c ∧ x.dbg.named = some id) ∧
        (¬there ∨ s.attached t c = true → refuses x) ∧
        (mine → (s.coreState t c = 1 ∨ s.coreState t c = 2) → ((s.core t c).accesses = [] → h.coreState t c = 5) ∧
          ((s.core t c).accesses ≠ [] → h.halting t c = true ∧ (h.core t c).accesses = (s.core t c).accesses)) ∧
        (¬mine ∨ (s.coreState t c ≠ 1 ∧ s.coreState t c ≠ 2) → refuses h) ∧
        (mine → s.coreState t c = 5 → r.coreState t c = 1 ∧ r.core t c = { s.core t c with issuable := (s.site t).cycle + 1 } ∧
          p.coreState t c = 1 ∧ p.core t c = { s.core t c with issuable := 0 } ∧ id ∈ p.dbg.awaiting) ∧
        (¬mine ∨ s.coreState t c ≠ 5 → refuses r ∧ refuses p) ∧
        (mine → d.attached t c = false ∧ id ∉ d.dbg.halting ∧ d.coreState t c = if s.coreState t c = 5 then 1 else s.coreState t c) ∧
        (¬mine → refuses d)) ∧
    (∀ (s : State) (a : Agent) (n t classes : Nat), n < 8 → t < 3072 → classes < 16 → s.Granted a (R.DBG_TRACE_CTL n) →
      ∃ u : State, Does (.traceArm a n t classes) s u ∧
      (s.owns a 1 n = true → s.mayName a t = true → Map.get (fun _ => []) u.dbg.trace n = [] ∧ u.bit (R.DBG_TRACE_CTL n) 31 = true ∧
        u.bit (R.DBG_TRACE_CTL n) 30 = false ∧ u.fld (R.DBG_TRACE_CTL n) 29 17 = 0 ∧ u.fld (R.DBG_TRACE_CTL n) 16 5 = t ∧
        u.fld (R.DBG_TRACE_CTL n) 3 0 = classes) ∧
      (s.owns a 1 n = false ∨ s.mayName a t = false → u.bit (R.DBG_TRACE_CTL n) 4 = true ∧ u.dbg = s.dbg)) ∧
    (∀ (s : State) (n due : Nat), n < 64 → s.bit (R.DBG_CNT_CTL n) 31 = true →
      s.dbg.nextSample.find? (fun e => e.1 == n) = some (n, due) → due ≤ s.time →
      let t := s.fld (R.DBG_CNT_CTL n) 27 16
      ∃ u : State, Does (.counterBankSample n) s u ∧
        Map.get (fun _ => 0) u.dbg.nextSample n = due + 1000 * s.fld (R.DBG_CNT_CTL n) 15 0 ∧
        (t < 3072 → s.live t = true → s.wingUp (wingOf t) = true → u.reg64 (R.DBG_CNT_TIME_LO n) = s.time % 2 ^ 64 ∧
          u.reg (R.DBG_CNT_VAL n 0) = (s.tileRead (s.bankReader n) t ((s.reg (R.DBG_CNT_SEL n 0)).toNat % 2 ^ 20)).1)) ∧
    (∀ (s : State) (internal : List (Nat × Nat)), s.curatorUp = true → s.sec.eccAt + 60000000000 ≤ s.time →
      let limit := (s.reg R.SEC_ECC_THRESH).toNat
      let sum := fun (t : Nat) => s.corrRise t + ((internal.filter fun e => e.1 == t).map (·.2)).sum +
        ((s.sec.ecc.take 1439).map fun m => Map.get (fun _ => 0) m t).sum
      ∃ u : State, Does (.eccRateCheck internal) s u ∧ u.sec.eccAt = s.time ∧ u.sec.ecc.length = min 1440 (s.sec.ecc.length + 1) ∧
        ∀ t, t < 3072 → s.live t = true → (limit ≠ 0 → limit < sum t → s.siteStatus t = 0 → u.siteStatus t = 2) ∧
          (limit = 0 ∨ sum t ≤ limit → u.siteStatus t = s.siteStatus t)) ∧
    (∀ (s : State) (lead u : Nat) (a b : NetReq), s.twin lead = some u → s.pairBroken lead = false → s.net.heldPair lead u = some (a, b) →
      lead < u → ∃ v : State, Does (.pairedAccessCompare lead) s v ∧
      (a.crc = b.crc → v = { s with net := { s.net with outbox := (s.net.outbox.erase b).map fun r =>
        if r == a then { r with ready := true, twin := some b.user } else r } }) ∧
      (a.crc ≠ b.crc → lead ∈ v.net.broken ∧ v.overdue lead = true ∧ v.overdue u = true ∧ v.iftState lead = 1 ∧ v.iftState u = 1)) ∧
    (∀ (s : State) (a : Agent) (v : BitVec 32), s.Granted a R.FLT_LOG_HEAD →
      let back := ((s.reg R.FLT_LOG_TAIL).toNat + 2 ^ 32 - v.toNat) % 2 ^ 32
      ∃ u : State, Does (.fltLogHeadWrite a v) s u ∧ u.faults = s.faults ∧
        u.reg R.FLT_LOG_HEAD = if back ≤ 4096 then v else s.reg R.FLT_LOG_HEAD)

/-- For every stack offset o below 32 GiB: the channel is o[10:6] XOR o[20:16], the bank o[20:16] and the row o[34:21]; two offsets with the same byte,
block, channel, bank and row are equal; and the 64 blocks of a 4 KiB unit lie in one row of one bank, two of them on each of the 32 channels.
(R243.) -/
def Obligations.DramPlacement : Prop :=
    (∀ o : Nat, o < 2 ^ 35 → channelOf o = (o / 64 % 32) ^^^ (o / 65536 % 32) ∧ bankOf o = o / 65536 % 32 ∧ rowOf o = o / 2097152 ∧
      channelOf o < 32 ∧ bankOf o < 32 ∧ rowOf o < 16384) ∧
    (∀ o p : Nat, o < 2 ^ 35 → p < 2 ^ 35 → o % 64 = p % 64 → o / 2048 % 32 = p / 2048 % 32 → channelOf o = channelOf p →
      bankOf o = bankOf p → rowOf o = rowOf p → o = p) ∧
    (∀ unit : Nat, unit < 2 ^ 23 →
      (∀ i, i < 64 → bankOf (4096 * unit + 64 * i) = bankOf (4096 * unit) ∧ rowOf (4096 * unit + 64 * i) = rowOf (4096 * unit)) ∧
      ∀ ch, ch < 32 → ((List.range 64).filter fun i => channelOf (4096 * unit + 64 * i) == ch).length = 2)

/-- For every image and every address A below 2^40: a local tract goes to its stack at band x 2^30 + A mod 2^30; an interleaved group to the stack of
A's 4 KiB unit in it; an unmapped one nowhere; with no active image tract t is local in stack t div 32, band t mod 32. Two addresses of one group,
or of the default placement, never meet in one stack offset. (R242, R244.) -/
def Obligations.TractPlacement : Prop :=
    (∀ a : Nat, a < 2 ^ 40 → placeOf none a = some (a / 2 ^ 35, a % 2 ^ 35)) ∧
    (∀ (img : Option Image) (a stack band : Nat), a < 2 ^ 40 →
      (tractRole img (a / 2 ^ 30) = (1, stack, band) → placeOf img a = some (stack, band * 2 ^ 30 + a % 2 ^ 30)) ∧
      (tractRole img (a / 2 ^ 30) = (2, stack, band) → let u := (a - a / 2 ^ 35 * 2 ^ 35) / 4096
        placeOf img a = some (u % 32, band * 2 ^ 30 + u / 32 * 4096 + a % 4096)) ∧
      (tractRole img (a / 2 ^ 30) = (0, stack, band) → placeOf img a = none)) ∧
    (∀ (img : Option Image) (a b x y band : Nat), a < 2 ^ 40 → b < 2 ^ 40 → a / 2 ^ 35 = b / 2 ^ 35 →
      tractRole img (a / 2 ^ 30) = (2, x, band) → tractRole img (b / 2 ^ 30) = (2, y, band) → placeOf img a = placeOf img b → a = b) ∧
    (∀ (img : Option Image) (a : Nat), 2 ^ 40 ≤ a → placeOf img a = none)

/-- For every level up to 15: of the 16 positions from any one exactly s are skipped, a higher level skips every pulse that a lower one skips, and level
0 skips none. For every power the level of R357 is the least of 0 to 15 that keeps F2 + D0 x (16 - s) / 16 within the limit, and 15 where none does.
(R352, R357.) -/
def Obligations.SkipLevels : Prop :=
    (∀ level i : Nat, level ≤ 16 → ((List.range 16).filter fun k => skipsPulse level (i + k)).length = level) ∧
    (∀ m n i : Nat, m ≤ n → skipsPulse m i = true → skipsPulse n i = true) ∧
    (∀ i : Nat, skipsPulse 0 i = false) ∧
    (∀ f2 d0 limit : Rat, let within := fun (k : Nat) => f2 + d0 * (16 - (k : Rat)) / 16 ≤ limit
      leastLevel f2 d0 limit ≤ 15 ∧ ((∃ k, k ≤ 15 ∧ within k) → within (leastLevel f2 d0 limit)) ∧
      (∀ k, k < leastLevel f2 d0 limit → ¬within k) ∧ ((∀ k, k ≤ 15 → ¬within k) → leastLevel f2 d0 limit = 15))

/-- For every state and record: the record is in slot TAIL mod 4,096 with TAIL as its seq, every other slot is unchanged and TAIL rises by one modulo
2^32; a ring with fewer than 4,096 unconsumed records keeps HEAD and LOST, and a full one moves HEAD on by one and counts one more lost, up to 2^32
- 1; an event raises PF0 vector 1 while the host link is up; nothing else changes. (R446, R447.) -/
def Obligations.FaultRing : Prop :=
    ∀ (s : State) (code source : Nat) (part : Option Nat) (detail : List Nat),
    let u := s.fault code source part detail
    let tail := (s.reg R.FLT_LOG_TAIL).toNat
    let head := (s.reg R.FLT_LOG_HEAD).toNat
    let full := 4096 ≤ (tail + 2 ^ 32 - head) % 2 ^ 32
    (u.reg R.FLT_LOG_TAIL).toNat = (tail + 1) % 2 ^ 32 ∧
    (u.reg R.FLT_LOG_HEAD).toNat = (if full then (head + 1) % 2 ^ 32 else head) ∧
    (u.reg R.FLT_LOG_LOST).toNat = (if full then min (2 ^ 32 - 1) ((s.reg R.FLT_LOG_LOST).toNat + 1) else (s.reg R.FLT_LOG_LOST).toNat) ∧
    (∀ a, a ≠ R.FLT_LOG_TAIL → a ≠ R.FLT_LOG_HEAD → a ≠ R.FLT_LOG_LOST → u.reg a = s.reg a) ∧
    (∀ i, Map.get (fun _ => FaultRec.blank) u.faults i = if i = tail % 4096
      then { time := s.stamp source, source := source, code := code, event := isEventCode code, partition := part, seq := tail,
             start := s.cur.starts, detail := detail }
      else Map.get (fun _ => FaultRec.blank) s.faults i) ∧
    u.msix = s.msix ++ (if isEventCode code ∧ s.hostUp then [(0, 1)] else []) ∧
    u = { s with regs := u.regs, faults := u.faults, msix := u.msix }

/-- For every state and every VF that is unbound or bound to a partition absent from the active image: the writes of that VF to a register of a core's
site, of a segment or queue, of a domain, a window, a port, the debug unit, the fault ring or a start of the module answer the state as it was.
(R413.) -/
def Obligations.UnboundFunctionsChangeNothing : Prop :=
    ∀ (s : State) (k t c p n v : Nat) (w : BitVec 32), s.vfOut (.vf k) = true →
    ∀ i ∈ ([.start (.vf k) t c, .stop (.vf k) t c, .wake (.vf k) t c, .programStoreWrite (.vf k) t n w, .segOpen (.vf k) t n,
        .segClose (.vf k) t n, .segOff (.vf k) t n, .queueOpen (.vf k) t n, .queueClose (.vf k) t n, .quantClose (.vf k) t n,
        .quantClear (.vf k) t n, .tileReset (.vf k) t, .sL2CfgWrite (.vf k) t w, .retrain (.vf k) n, .disable (.vf k) n, .enable (.vf k) n,
        .attach (.vf k) t c, .halt (.vf k) t c, .resume (.vf k) t c, .step (.vf k) t c, .detach (.vf k) t c, .traceArm (.vf k) n t v,
        .fltLogHeadWrite (.vf k) w, .partitionReset (.vf k) p, .secFenceCheck (.vf k) p, .scrubPartition (.vf k) p, .scrubIdle (.vf k),
        .moduleResetCommand (.vf k), .curatorRestart (.vf k), .vminRearm (.vf k) n, .vbringDisconnect (.vf k, n), .hstVfBindWrite (.vf k) n w,
        .mailboxGo (.vf k), .claim (.vf k) n v, .release (.vf k) n v, .timerArm (.vf k) n w, .timPulseAtWrite (.vf k) w,
        .hstMsixRaise (.vf k) n v, .iftGrant (.vf k) p n] : List Instr), Does i s s
end

