-- ==== Sys2Proof/Laws/Dispatch.lean ====
section
/-! SUPPORT. What each command does is its meaning: one equation of exec for each arm, so that a proof about one command never opens the dispatch. -/

namespace Sys2Proof.Machine

@[simp] theorem exec_aluRegisterOp (tile core : Nat) (fetched : Fetched) (s : State) : exec (.aluRegisterOp tile core fetched) s = execAluRegisterOp tile core fetched s := rfl
@[simp] theorem exec_immediateOp (tile core : Nat) (fetched : Fetched) (s : State) : exec (.immediateOp tile core fetched) s = execImmediateOp tile core fetched s := rfl
@[simp] theorem exec_li (tile core : Nat) (fetched : Fetched) (s : State) : exec (.li tile core fetched) s = execLi tile core fetched s := rfl
@[simp] theorem exec_mulDiv (tile core : Nat) (fetched : Fetched) (s : State) : exec (.mulDiv tile core fetched) s = execMulDiv tile core fetched s := rfl
@[simp] theorem exec_bitOp (tile core : Nat) (fetched : Fetched) (s : State) : exec (.bitOp tile core fetched) s = execBitOp tile core fetched s := rfl
@[simp] theorem exec_cmp (tile core : Nat) (fetched : Fetched) (s : State) : exec (.cmp tile core fetched) s = execCmp tile core fetched s := rfl
@[simp] theorem exec_cmpi (tile core : Nat) (fetched : Fetched) (s : State) : exec (.cmpi tile core fetched) s = execCmpi tile core fetched s := rfl
@[simp] theorem exec_predicateOp (tile core : Nat) (fetched : Fetched) (s : State) : exec (.predicateOp tile core fetched) s = execPredicateOp tile core fetched s := rfl
@[simp] theorem exec_br (tile core : Nat) (fetched : Fetched) (s : State) : exec (.br tile core fetched) s = execBr tile core fetched s := rfl
@[simp] theorem exec_brl (tile core : Nat) (fetched : Fetched) (s : State) : exec (.brl tile core fetched) s = execBrl tile core fetched s := rfl
@[simp] theorem exec_jr (tile core : Nat) (fetched : Fetched) (s : State) : exec (.jr tile core fetched) s = execJr tile core fetched s := rfl
@[simp] theorem exec_nop (tile core : Nat) (fetched : Fetched) (s : State) : exec (.nop tile core fetched) s = execNop tile core fetched s := rfl
@[simp] theorem exec_endOp (tile core : Nat) (fetched : Fetched) (s : State) : exec (.endOp tile core fetched) s = execEnd tile core fetched s := rfl
@[simp] theorem exec_wfe (tile core : Nat) (fetched : Fetched) (s : State) : exec (.wfe tile core fetched) s = execWfe tile core fetched s := rfl
@[simp] theorem exec_wfeTimeout (tile core : Nat) (s : State) : exec (.wfeTimeout tile core) s = execWfeTimeout tile core s := rfl
@[simp] theorem exec_ld (tile core : Nat) (fetched : Fetched) (s : State) : exec (.ld tile core fetched) s = execLd tile core fetched s := rfl
@[simp] theorem exec_st (tile core : Nat) (fetched : Fetched) (s : State) : exec (.st tile core fetched) s = execSt tile core fetched s := rfl
@[simp] theorem exec_memoryResponseArrival (tile core id : Nat) (corr uncorr : List Nat) (s : State) : exec (.memoryResponseArrival tile core id corr uncorr) s = execMemoryResponseArrival tile core id corr uncorr s := rfl
@[simp] theorem exec_amo (tile core : Nat) (fetched : Fetched) (s : State) : exec (.amo tile core fetched) s = execAmo tile core fetched s := rfl
@[simp] theorem exec_fence (tile core : Nat) (fetched : Fetched) (s : State) : exec (.fence tile core fetched) s = execFence tile core fetched s := rfl
@[simp] theorem exec_fenceI (tile core : Nat) (fetched : Fetched) (s : State) : exec (.fenceI tile core fetched) s = execFenceI tile core fetched s := rfl
@[simp] theorem exec_clean (tile core : Nat) (fetched : Fetched) (s : State) : exec (.clean tile core fetched) s = execClean tile core fetched s := rfl
@[simp] theorem exec_inval (tile core : Nat) (fetched : Fetched) (s : State) : exec (.inval tile core fetched) s = execInval tile core fetched s := rfl
@[simp] theorem exec_flush (tile core : Nat) (fetched : Fetched) (s : State) : exec (.flush tile core fetched) s = execFlush tile core fetched s := rfl
@[simp] theorem exec_csrr (tile core : Nat) (fetched : Fetched) (s : State) : exec (.csrr tile core fetched) s = execCsrr tile core fetched s := rfl
@[simp] theorem exec_csrw (tile core : Nat) (fetched : Fetched) (s : State) : exec (.csrw tile core fetched) s = execCsrw tile core fetched s := rfl
@[simp] theorem exec_csrs (tile core : Nat) (fetched : Fetched) (s : State) : exec (.csrs tile core fetched) s = execCsrs tile core fetched s := rfl
@[simp] theorem exec_csrc (tile core : Nat) (fetched : Fetched) (s : State) : exec (.csrc tile core fetched) s = execCsrc tile core fetched s := rfl
@[simp] theorem exec_rdtime (tile core : Nat) (fetched : Fetched) (s : State) : exec (.rdtime tile core fetched) s = execRdtime tile core fetched s := rfl
@[simp] theorem exec_rdcore (tile core : Nat) (fetched : Fetched) (s : State) : exec (.rdcore tile core fetched) s = execRdcore tile core fetched s := rfl
@[simp] theorem exec_trap (tile core : Nat) (fetched : Fetched) (s : State) : exec (.trap tile core fetched) s = execTrap tile core fetched s := rfl
@[simp] theorem exec_breakOp (tile core : Nat) (fetched : Fetched) (s : State) : exec (.breakOp tile core fetched) s = execBreak tile core fetched s := rfl
@[simp] theorem exec_tret (tile core : Nat) (fetched : Fetched) (s : State) : exec (.tret tile core fetched) s = execTret tile core fetched s := rfl
@[simp] theorem exec_idle (tile core : Nat) (fetched : Fetched) (s : State) : exec (.idle tile core fetched) s = execIdle tile core fetched s := rfl
@[simp] theorem exec_svget (tile core : Nat) (fetched : Fetched) (s : State) : exec (.svget tile core fetched) s = execSvget tile core fetched s := rfl
@[simp] theorem exec_svset (tile core : Nat) (fetched : Fetched) (s : State) : exec (.svset tile core fetched) s = execSvset tile core fetched s := rfl
@[simp] theorem exec_svswap (tile core : Nat) (fetched : Fetched) (s : State) : exec (.svswap tile core fetched) s = execSvswap tile core fetched s := rfl
@[simp] theorem exec_xlinv (tile core : Nat) (fetched : Fetched) (s : State) : exec (.xlinv tile core fetched) s = execXlinv tile core fetched s := rfl
@[simp] theorem exec_coreFaulted (tile core : Nat) (s : State) : exec (.coreFaulted tile core) s = execCoreFaulted tile core s := rfl
@[simp] theorem exec_svTimerExpiry (tile core : Nat) (s : State) : exec (.svTimerExpiry tile core) s = execSvTimerExpiry tile core s := rfl
@[simp] theorem exec_interruptTaken (tile core : Nat) (s : State) : exec (.interruptTaken tile core) s = execInterruptTaken tile core s := rfl
@[simp] theorem exec_start (agent : Agent) (tile core : Nat) (s : State) : exec (.start agent tile core) s = execStart agent tile core s := rfl
@[simp] theorem exec_stop (agent : Agent) (tile core : Nat) (s : State) : exec (.stop agent tile core) s = execStop agent tile core s := rfl
@[simp] theorem exec_wake (agent : Agent) (tile core : Nat) (s : State) : exec (.wake agent tile core) s = execWake agent tile core s := rfl
@[simp] theorem exec_coreStopped (tile core : Nat) (s : State) : exec (.coreStopped tile core) s = execCoreStopped tile core s := rfl
@[simp] theorem exec_programStoreWrite (agent : Agent) (tile index : Nat) (value : BitVec 32) (s : State) : exec (.programStoreWrite agent tile index value) s = execProgramStoreWrite agent tile index value s := rfl
@[simp] theorem exec_tkSet (tile core : Nat) (fetched : Fetched) (s : State) : exec (.tkSet tile core fetched) s = execTkSet tile core fetched s := rfl
@[simp] theorem exec_tkAdd (tile core : Nat) (fetched : Fetched) (s : State) : exec (.tkAdd tile core fetched) s = execTkAdd tile core fetched s := rfl
@[simp] theorem exec_tkTake (tile core : Nat) (fetched : Fetched) (s : State) : exec (.tkTake tile core fetched) s = execTkTake tile core fetched s := rfl
@[simp] theorem exec_tkRead (tile core : Nat) (fetched : Fetched) (s : State) : exec (.tkRead tile core fetched) s = execTkRead tile core fetched s := rfl
@[simp] theorem exec_engWait (tile core : Nat) (fetched : Fetched) (s : State) : exec (.engWait tile core fetched) s = execEngWait tile core fetched s := rfl
@[simp] theorem exec_engNotify (tile core : Nat) (fetched : Fetched) (s : State) : exec (.engNotify tile core fetched) s = execEngNotify tile core fetched s := rfl
@[simp] theorem exec_tdSet (tile core : Nat) (fetched : Fetched) (s : State) : exec (.tdSet tile core fetched) s = execTdSet tile core fetched s := rfl
@[simp] theorem exec_tdGetlo (tile core : Nat) (fetched : Fetched) (s : State) : exec (.tdGetlo tile core fetched) s = execTdGetlo tile core fetched s := rfl
@[simp] theorem exec_tdGethi (tile core : Nat) (fetched : Fetched) (s : State) : exec (.tdGethi tile core fetched) s = execTdGethi tile core fetched s := rfl
@[simp] theorem exec_tdAddr (tile core : Nat) (fetched : Fetched) (s : State) : exec (.tdAddr tile core fetched) s = execTdAddr tile core fetched s := rfl
@[simp] theorem exec_ahSet (tile core : Nat) (fetched : Fetched) (s : State) : exec (.ahSet tile core fetched) s = execAhSet tile core fetched s := rfl
@[simp] theorem exec_ahGet (tile core : Nat) (fetched : Fetched) (s : State) : exec (.ahGet tile core fetched) s = execAhGet tile core fetched s := rfl
@[simp] theorem exec_mm (tile core : Nat) (fetched : Fetched) (s : State) : exec (.mm tile core fetched) s = execMm tile core fetched s := rfl
@[simp] theorem exec_cbLoad (tile core : Nat) (fetched : Fetched) (s : State) : exec (.cbLoad tile core fetched) s = execCbLoad tile core fetched s := rfl
@[simp] theorem exec_dr (tile core : Nat) (fetched : Fetched) (s : State) : exec (.dr tile core fetched) s = execDr tile core fetched s := rfl
@[simp] theorem exec_accScale (tile core : Nat) (fetched : Fetched) (s : State) : exec (.accScale tile core fetched) s = execAccScale tile core fetched s := rfl
@[simp] theorem exec_smInit (tile core : Nat) (fetched : Fetched) (s : State) : exec (.smInit tile core fetched) s = execSmInit tile core fetched s := rfl
@[simp] theorem exec_smStore (tile core : Nat) (fetched : Fetched) (s : State) : exec (.smStore tile core fetched) s = execSmStore tile core fetched s := rfl
@[simp] theorem exec_smLoad (tile core : Nat) (fetched : Fetched) (s : State) : exec (.smLoad tile core fetched) s = execSmLoad tile core fetched s := rfl
@[simp] theorem exec_stepClose (tile core : Nat) (fetched : Fetched) (s : State) : exec (.stepClose tile core fetched) s = execStepClose tile core fetched s := rfl
@[simp] theorem exec_accDrop (tile core : Nat) (fetched : Fetched) (s : State) : exec (.accDrop tile core fetched) s = execAccDrop tile core fetched s := rfl
@[simp] theorem exec_actLoad (tile core : Nat) (fetched : Fetched) (s : State) : exec (.actLoad tile core fetched) s = execActLoad tile core fetched s := rfl
@[simp] theorem exec_fxLoad (tile core : Nat) (fetched : Fetched) (s : State) : exec (.fxLoad tile core fetched) s = execFxLoad tile core fetched s := rfl
@[simp] theorem exec_fxStore (tile core : Nat) (fetched : Fetched) (s : State) : exec (.fxStore tile core fetched) s = execFxStore tile core fetched s := rfl
@[simp] theorem exec_fxWload (tile core : Nat) (fetched : Fetched) (s : State) : exec (.fxWload tile core fetched) s = execFxWload tile core fetched s := rfl
@[simp] theorem exec_fxWstore (tile core : Nat) (fetched : Fetched) (s : State) : exec (.fxWstore tile core fetched) s = execFxWstore tile core fetched s := rfl
@[simp] theorem exec_msgDesc (tile core : Nat) (fetched : Fetched) (s : State) : exec (.msgDesc tile core fetched) s = execMsgDesc tile core fetched s := rfl
@[simp] theorem exec_msgData (tile core : Nat) (fetched : Fetched) (s : State) : exec (.msgData tile core fetched) s = execMsgData tile core fetched s := rfl
@[simp] theorem exec_msgConc (tile core : Nat) (fetched : Fetched) (s : State) : exec (.msgConc tile core fetched) s = execMsgConc tile core fetched s := rfl
@[simp] theorem exec_msgToken (tile core : Nat) (fetched : Fetched) (s : State) : exec (.msgToken tile core fetched) s = execMsgToken tile core fetched s := rfl
@[simp] theorem exec_msgDoorbell (tile core : Nat) (fetched : Fetched) (s : State) : exec (.msgDoorbell tile core fetched) s = execMsgDoorbell tile core fetched s := rfl
@[simp] theorem exec_qcnt (tile core : Nat) (fetched : Fetched) (s : State) : exec (.qcnt tile core fetched) s = execQcnt tile core fetched s := rfl
@[simp] theorem exec_qhead (tile core : Nat) (fetched : Fetched) (s : State) : exec (.qhead tile core fetched) s = execQhead tile core fetched s := rfl
@[simp] theorem exec_qpop (tile core : Nat) (fetched : Fetched) (s : State) : exec (.qpop tile core fetched) s = execQpop tile core fetched s := rfl
@[simp] theorem exec_qnotify (tile core : Nat) (fetched : Fetched) (s : State) : exec (.qnotify tile core fetched) s = execQnotify tile core fetched s := rfl
@[simp] theorem exec_vectorFp32 (tile core : Nat) (fetched : Fetched) (s : State) : exec (.vectorFp32 tile core fetched) s = execVectorFp32 tile core fetched s := rfl
@[simp] theorem exec_vectorBf16 (tile core : Nat) (fetched : Fetched) (s : State) : exec (.vectorBf16 tile core fetched) s = execVectorBf16 tile core fetched s := rfl
@[simp] theorem exec_vectorInteger (tile core : Nat) (fetched : Fetched) (s : State) : exec (.vectorInteger tile core fetched) s = execVectorInteger tile core fetched s := rfl
@[simp] theorem exec_laneMove (tile core : Nat) (fetched : Fetched) (s : State) : exec (.laneMove tile core fetched) s = execLaneMove tile core fetched s := rfl
@[simp] theorem exec_vq (tile core : Nat) (fetched : Fetched) (s : State) : exec (.vq tile core fetched) s = execVq tile core fetched s := rfl
@[simp] theorem exec_vx (tile core : Nat) (fetched : Fetched) (s : State) : exec (.vx tile core fetched) s = execVx tile core fetched s := rfl
@[simp] theorem exec_vcvtI2f (tile core : Nat) (fetched : Fetched) (s : State) : exec (.vcvtI2f tile core fetched) s = execVcvtI2f tile core fetched s := rfl
@[simp] theorem exec_vcvtF2i (tile core : Nat) (fetched : Fetched) (s : State) : exec (.vcvtF2i tile core fetched) s = execVcvtF2i tile core fetched s := rfl
@[simp] theorem exec_specialFunction (tile core : Nat) (fetched : Fetched) (s : State) : exec (.specialFunction tile core fetched) s = execSpecialFunction tile core fetched s := rfl
@[simp] theorem exec_vld (tile core : Nat) (fetched : Fetched) (s : State) : exec (.vld tile core fetched) s = execVld tile core fetched s := rfl
@[simp] theorem exec_vst (tile core : Nat) (fetched : Fetched) (s : State) : exec (.vst tile core fetched) s = execVst tile core fetched s := rfl
@[simp] theorem exec_vldC (tile core : Nat) (fetched : Fetched) (s : State) : exec (.vldC tile core fetched) s = execVldC tile core fetched s := rfl
@[simp] theorem exec_vstC (tile core : Nat) (fetched : Fetched) (s : State) : exec (.vstC tile core fetched) s = execVstC tile core fetched s := rfl
@[simp] theorem exec_vgather (tile core : Nat) (fetched : Fetched) (s : State) : exec (.vgather tile core fetched) s = execVgather tile core fetched s := rfl
@[simp] theorem exec_vscatter (tile core : Nat) (fetched : Fetched) (s : State) : exec (.vscatter tile core fetched) s = execVscatter tile core fetched s := rfl
@[simp] theorem exec_vscatterAdd (tile core : Nat) (fetched : Fetched) (s : State) : exec (.vscatterAdd tile core fetched) s = execVscatterAdd tile core fetched s := rfl
@[simp] theorem exec_vscatterAddWrite (tile : Nat) (s : State) : exec (.vscatterAddWrite tile) s = execVscatterAddWrite tile s := rfl
@[simp] theorem exec_vsort (tile core : Nat) (fetched : Fetched) (s : State) : exec (.vsort tile core fetched) s = execVsort tile core fetched s := rfl
@[simp] theorem exec_vtopk (tile core : Nat) (fetched : Fetched) (s : State) : exec (.vtopk tile core fetched) s = execVtopk tile core fetched s := rfl
@[simp] theorem exec_engineIssue (tile : Nat) (engine : Engine) (corr uncorr : List Nat) (s : State) : exec (.engineIssue tile engine corr uncorr) s = execEngineIssue tile engine corr uncorr s := rfl
@[simp] theorem exec_engineComplete (tile : Nat) (engine : Engine) (s : State) : exec (.engineComplete tile engine) s = execEngineComplete tile engine s := rfl
@[simp] theorem exec_passStart (tile : Nat) (s : State) : exec (.passStart tile) s = execPassStart tile s := rfl
@[simp] theorem exec_stationaryRowWrite (tile : Nat) (s : State) : exec (.stationaryRowWrite tile) s = execStationaryRowWrite tile s := rfl
@[simp] theorem exec_loaderRowRead (tile : Nat) (s : State) : exec (.loaderRowRead tile) s = execLoaderRowRead tile s := rfl
@[simp] theorem exec_streamUnitRead (tile : Nat) (s : State) : exec (.streamUnitRead tile) s = execStreamUnitRead tile s := rfl
@[simp] theorem exec_initialisingCommit (tile : Nat) (s : State) : exec (.initialisingCommit tile) s = execInitialisingCommit tile s := rfl
@[simp] theorem exec_chunkCompletion (tile : Nat) (s : State) : exec (.chunkCompletion tile) s = execChunkCompletion tile s := rfl
@[simp] theorem exec_codebookTakesEffect (tile : Nat) (s : State) : exec (.codebookTakesEffect tile) s = execCodebookTakesEffect tile s := rfl
@[simp] theorem exec_drainComplete (tile : Nat) (s : State) : exec (.drainComplete tile) s = execDrainComplete tile s := rfl
@[simp] theorem exec_quantClose (agent : Agent) (tile slot : Nat) (s : State) : exec (.quantClose agent tile slot) s = execQuantClose agent tile slot s := rfl
@[simp] theorem exec_quantClear (agent : Agent) (tile slot : Nat) (s : State) : exec (.quantClear agent tile slot) s = execQuantClear agent tile slot s := rfl
@[simp] theorem exec_vitRequestAccept (tile : Nat) (corr uncorr : List Nat) (s : State) : exec (.vitRequestAccept tile corr uncorr) s = execVitRequestAccept tile corr uncorr s := rfl
@[simp] theorem exec_vitAccessComplete (tile : Nat) (s : State) : exec (.vitAccessComplete tile) s = execVitAccessComplete tile s := rfl
@[simp] theorem exec_eccWriteback (tile cell : Nat) (s : State) : exec (.eccWriteback tile cell) s = execEccWriteback tile cell s := rfl
@[simp] theorem exec_segOpen (agent : Agent) (tile segment : Nat) (s : State) : exec (.segOpen agent tile segment) s = execSegOpen agent tile segment s := rfl
@[simp] theorem exec_segClose (agent : Agent) (tile segment : Nat) (s : State) : exec (.segClose agent tile segment) s = execSegClose agent tile segment s := rfl
@[simp] theorem exec_segOff (agent : Agent) (tile segment : Nat) (s : State) : exec (.segOff agent tile segment) s = execSegOff agent tile segment s := rfl
@[simp] theorem exec_segDrainEnd (tile segment : Nat) (s : State) : exec (.segDrainEnd tile segment) s = execSegDrainEnd tile segment s := rfl
@[simp] theorem exec_segPowerOffEnd (tile segment : Nat) (s : State) : exec (.segPowerOffEnd tile segment) s = execSegPowerOffEnd tile segment s := rfl
@[simp] theorem exec_segInitEnd (tile segment : Nat) (s : State) : exec (.segInitEnd tile segment) s = execSegInitEnd tile segment s := rfl
@[simp] theorem exec_sL2CfgWrite (agent : Agent) (tile : Nat) (value : BitVec 32) (s : State) : exec (.sL2CfgWrite agent tile value) s = execSL2CfgWrite agent tile value s := rfl
@[simp] theorem exec_l2ReconfigDone (tile : Nat) (s : State) : exec (.l2ReconfigDone tile) s = execL2ReconfigDone tile s := rfl
@[simp] theorem exec_dramRead (request : Nat) (flips : List (Nat × BitVec 8)) (die : Option Nat) (s : State) : exec (.dramRead request flips die) s = execDramRead request flips die s := rfl
@[simp] theorem exec_dramWrite (request : Nat) (s : State) : exec (.dramWrite request) s = execDramWrite request s := rfl
@[simp] theorem exec_dramPartialWrite (request : Nat) (flips : List (Nat × BitVec 8)) (die : Option Nat) (s : State) : exec (.dramPartialWrite request flips die) s = execDramPartialWrite request flips die s := rfl
@[simp] theorem exec_dramCorrectedRewrite (stack off : Nat) (s : State) : exec (.dramCorrectedRewrite stack off) s = execDramCorrectedRewrite stack off s := rfl
@[simp] theorem exec_rebuildComplete (reached : Nat × Nat) (s : State) : exec (.rebuildComplete reached) s = execRebuildComplete reached s := rfl
@[simp] theorem exec_rowRetire (stack channel bank row die : Nat) (read : Bool) (s : State) : exec (.rowRetire stack channel bank row die read) s = execRowRetire stack channel bank row die read s := rfl
@[simp] theorem exec_rowRemapSwitch (stack channel bank row : Nat) (s : State) : exec (.rowRemapSwitch stack channel bank row) s = execRowRemapSwitch stack channel bank row s := rfl
@[simp] theorem exec_patrolRead (tile channel : Nat) (flips : List (Nat × BitVec 8)) (die : Option Nat) (s : State) : exec (.patrolRead tile channel flips die) s = execPatrolRead tile channel flips die s := rfl
@[simp] theorem exec_refresh (stack : Nat) (s : State) : exec (.refresh stack) s = execRefresh stack s := rfl
@[simp] theorem exec_stackTempChange (stack : Nat) (temps : Int × Int × Int × Int) (s : State) : exec (.stackTempChange stack temps) s = execStackTempChange stack temps s := rfl
@[simp] theorem exec_zeroingScrubStart (unit : Nat) (s : State) : exec (.zeroingScrubStart unit) s = execZeroingScrubStart unit s := rfl
@[simp] theorem exec_zeroingScrubEnd (unit : Nat) (s : State) : exec (.zeroingScrubEnd unit) s = execZeroingScrubEnd unit s := rfl
@[simp] theorem exec_packetInject (origin : Nat) (s : State) : exec (.packetInject origin) s = execPacketInject origin s := rfl
@[simp] theorem exec_routerHop (router out flit : Nat) (s : State) : exec (.routerHop router out flit) s = execRouterHop router out flit s := rfl
@[simp] theorem exec_packetReceive (packet : Nat) (s : State) : exec (.packetReceive packet) s = execPacketReceive packet s := rfl
@[simp] theorem exec_queueEntryPublish (tile queue : Nat) (s : State) : exec (.queueEntryPublish tile queue) s = execQueueEntryPublish tile queue s := rfl
@[simp] theorem exec_queuedMessagePlaced (tile : Nat) (s : State) : exec (.queuedMessagePlaced tile) s = execQueuedMessagePlaced tile s := rfl
@[simp] theorem exec_completionReceive (packet : Nat) (s : State) : exec (.completionReceive packet) s = execCompletionReceive packet s := rfl
@[simp] theorem exec_queueOpen (agent : Agent) (tile queue : Nat) (s : State) : exec (.queueOpen agent tile queue) s = execQueueOpen agent tile queue s := rfl
@[simp] theorem exec_queueClose (agent : Agent) (tile queue : Nat) (s : State) : exec (.queueClose agent tile queue) s = execQueueClose agent tile queue s := rfl
@[simp] theorem exec_windowOpen (agent : Agent) (tile window : Nat) (s : State) : exec (.windowOpen agent tile window) s = execWindowOpen agent tile window s := rfl
@[simp] theorem exec_windowClose (agent : Agent) (tile window : Nat) (s : State) : exec (.windowClose agent tile window) s = execWindowClose agent tile window s := rfl
@[simp] theorem exec_windowCommandApply (copy cmd : Nat) (s : State) : exec (.windowCommandApply copy cmd) s = execWindowCommandApply copy cmd s := rfl
@[simp] theorem exec_windowBusyClear (tile : Nat) (s : State) : exec (.windowBusyClear tile) s = execWindowBusyClear tile s := rfl
@[simp] theorem exec_concContribution (tile : Nat) (s : State) : exec (.concContribution tile) s = execConcContribution tile s := rfl
@[simp] theorem exec_concDelivery (tile slot : Nat) (uncorr : List Nat) (s : State) : exec (.concDelivery tile slot uncorr) s = execConcDelivery tile slot uncorr s := rfl
@[simp] theorem exec_concNotify (tile slot : Nat) (s : State) : exec (.concNotify tile slot) s = execConcNotify tile slot s := rfl
@[simp] theorem exec_concCfgWrite (agent : Agent) (tile slot : Nat) (value : BitVec 32) (s : State) : exec (.concCfgWrite agent tile slot value) s = execConcCfgWrite agent tile slot value s := rfl
@[simp] theorem exec_snArrive (agent : Agent) (tile context : Nat) (s : State) : exec (.snArrive agent tile context) s = execSnArrive agent tile context s := rfl
@[simp] theorem exec_snSet (agent : Agent) (tile context : Nat) (s : State) : exec (.snSet agent tile context) s = execSnSet agent tile context s := rfl
@[simp] theorem exec_snClear (agent : Agent) (tile context : Nat) (s : State) : exec (.snClear agent tile context) s = execSnClear agent tile context s := rfl
@[simp] theorem exec_snNoOperation (agent : Agent) (tile context : Nat) (s : State) : exec (.snNoOperation agent tile context) s = execSnNoOperation agent tile context s := rfl
@[simp] theorem exec_barrierRelease (context : Nat) (s : State) : exec (.barrierRelease context) s = execBarrierRelease context s := rfl
@[simp] theorem exec_barArrive (port context round : Nat) (s : State) : exec (.barArrive port context round) s = execBarArrive port context round s := rfl
@[simp] theorem exec_barRelease (port context round : Nat) (s : State) : exec (.barRelease port context round) s = execBarRelease port context round s := rfl
@[simp] theorem exec_netStall (tile port vc : Nat) (s : State) : exec (.netStall tile port vc) s = execNetStall tile port vc s := rfl
@[simp] theorem exec_engineStall (tile : Nat) (s : State) : exec (.engineStall tile) s = execEngineStall tile s := rfl
@[simp] theorem exec_cnBroadcast (kind offset : Nat) (value : BitVec 32) (s : State) : exec (.cnBroadcast kind offset value) s = execCnBroadcast kind offset value s := rfl
@[simp] theorem exec_load (agent : Agent) (s : State) : exec (.load agent) s = execLoad agent s := rfl
@[simp] theorem exec_cancel (agent : Agent) (s : State) : exec (.cancel agent) s = execCancel agent s := rfl
@[simp] theorem exec_discard (agent : Agent) (s : State) : exec (.discard agent) s = execDiscard agent s := rfl
@[simp] theorem exec_imageValidationDone (s : State) : exec (.imageValidationDone) s = execImageValidationDone s := rfl
@[simp] theorem exec_arm (agent : Agent) (hi : BitVec 32) (s : State) : exec (.arm agent hi) s = execArm agent hi s := rfl
@[simp] theorem exec_quiesceSample (s : State) : exec (.quiesceSample) s = execQuiesceSample s := rfl
@[simp] theorem exec_swap (s : State) : exec (.swap) s = execSwap s := rfl
@[simp] theorem exec_swapEnd (s : State) : exec (.swapEnd) s = execSwapEnd s := rfl
@[simp] theorem exec_claim (agent : Agent) (kind index : Nat) (s : State) : exec (.claim agent kind index) s = execClaim agent kind index s := rfl
@[simp] theorem exec_release (agent : Agent) (kind index : Nat) (s : State) : exec (.release agent kind index) s = execRelease agent kind index s := rfl
@[simp] theorem exec_cataloguePublish (s : State) : exec (.cataloguePublish) s = execCataloguePublish s := rfl
@[simp] theorem exec_hold (agent : Agent) (tile : Nat) (s : State) : exec (.hold agent tile) s = execHold agent tile s := rfl
@[simp] theorem exec_holdRelease (agent : Agent) (tile : Nat) (s : State) : exec (.holdRelease agent tile) s = execHoldRelease agent tile s := rfl
@[simp] theorem exec_opSwitchRequest (agent : Agent) (hi : BitVec 32) (s : State) : exec (.opSwitchRequest agent hi) s = execOpSwitchRequest agent hi s := rfl
@[simp] theorem exec_raiseCheck (readings : List Nat) (s : State) : exec (.raiseCheck readings) s = execRaiseCheck readings s := rfl
@[simp] theorem exec_opSwitch (s : State) : exec .opSwitch s = execOpSwitch s := rfl
@[simp] theorem exec_opSwitchRestart (s : State) : exec (.opSwitchRestart) s = execOpSwitchRestart s := rfl
@[simp] theorem exec_lowerRampStart (s : State) : exec (.lowerRampStart) s = execLowerRampStart s := rfl
@[simp] theorem exec_settlingEnd (s : State) : exec (.settlingEnd) s = execSettlingEnd s := rfl
@[simp] theorem exec_refclkLoss (ref : Nat) (s : State) : exec (.refclkLoss ref) s = execRefclkLoss ref s := rfl
@[simp] theorem exec_refclkReturn (ref : Nat) (s : State) : exec (.refclkReturn ref) s = execRefclkReturn ref s := rfl
@[simp] theorem exec_seamAlarm (link : Nat × Bool) (cn : Bool) (separation : Nat) (s : State) : exec (.seamAlarm link cn separation) s = execSeamAlarm link cn separation s := rfl
@[simp] theorem exec_timeSlew (s : State) : exec (.timeSlew) s = execTimeSlew s := rfl
@[simp] theorem exec_syncPulseOut (s : State) : exec (.syncPulseOut) s = execSyncPulseOut s := rfl
@[simp] theorem exec_tsyncInEdge (s : State) : exec (.tsyncInEdge) s = execTsyncInEdge s := rfl
@[simp] theorem exec_timeReq (port t1 : Nat) (s : State) : exec (.timeReq port t1) s = execTimeReq port t1 s := rfl
@[simp] theorem exec_timeResp (port t1 t2 t3 : Nat) (s : State) : exec (.timeResp port t1 t2 t3) s = execTimeResp port t1 t2 t3 s := rfl
@[simp] theorem exec_syncSourceLost (s : State) : exec (.syncSourceLost) s = execSyncSourceLost s := rfl
@[simp] theorem exec_timSyncCtlWrite (agent : Agent) (value : BitVec 32) (s : State) : exec (.timSyncCtlWrite agent value) s = execTimSyncCtlWrite agent value s := rfl
@[simp] theorem exec_timPulseAtWrite (agent : Agent) (hi : BitVec 32) (s : State) : exec (.timPulseAtWrite agent hi) s = execTimPulseAtWrite agent hi s := rfl
@[simp] theorem exec_scheduledPulse (s : State) : exec (.scheduledPulse) s = execScheduledPulse s := rfl
@[simp] theorem exec_timerArm (agent : Agent) (timer : Nat) (hi : BitVec 32) (s : State) : exec (.timerArm agent timer hi) s = execTimerArm agent timer hi s := rfl
@[simp] theorem exec_timerFire (timer : Nat) (s : State) : exec (.timerFire timer) s = execTimerFire timer s := rfl
@[simp] theorem exec_wingOn (agent : Agent) (wing : Nat) (s : State) : exec (.wingOn agent wing) s = execWingOn agent wing s := rfl
@[simp] theorem exec_wingOff (agent : Agent) (wing : Nat) (s : State) : exec (.wingOff agent wing) s = execWingOff agent wing s := rfl
@[simp] theorem exec_inrushGrant (s : State) : exec (.inrushGrant) s = execInrushGrant s := rfl
@[simp] theorem exec_wingClockStart (wing : Nat) (s : State) : exec (.wingClockStart wing) s = execWingClockStart wing s := rfl
@[simp] theorem exec_inrushRelease (wing : Nat) (s : State) : exec (.inrushRelease wing) s = execInrushRelease wing s := rfl
@[simp] theorem exec_wingPowerUpDone (wing : Nat) (sites : List Nat × List Nat) (others : List Nat × List (Nat × Nat × Nat × Nat)) (bist : Nat) (s : State) : exec (.wingPowerUpDone wing sites others bist) s = execWingPowerUpDone wing sites others bist s := rfl
@[simp] theorem exec_capStep (raw : List (Nat × Nat × Nat)) (s : State) : exec (.capStep raw) s = execCapStep raw s := rfl
@[simp] theorem exec_throttleStatus (s : State) : exec (.throttleStatus) s = execThrottleStatus s := rfl
@[simp] theorem exec_calibration (measured : List Nat) (s : State) : exec (.calibration measured) s = execCalibration measured s := rfl
@[simp] theorem exec_railTrip (wing amps mv : Nat) (s : State) : exec (.railTrip wing amps mv) s = execRailTrip wing amps mv s := rfl
@[simp] theorem exec_stageTrip (rail : Nat) (s : State) : exec (.stageTrip rail) s = execStageTrip rail s := rfl
@[simp] theorem exec_droopOnset (wing mv : Nat) (s : State) : exec (.droopOnset wing mv) s = execDroopOnset wing mv s := rfl
@[simp] theorem exec_droopEnd (wing : Nat) (s : State) : exec (.droopEnd wing) s = execDroopEnd wing s := rfl
@[simp] theorem exec_vminRearm (agent : Agent) (wing : Nat) (s : State) : exec (.vminRearm agent wing) s = execVminRearm agent wing s := rfl
@[simp] theorem exec_vbringConnect (agent : Agent) (wing : Nat) (bringEn : Bool) (railMv : Nat) (s : State) : exec (.vbringConnect agent wing bringEn railMv) s = execVbringConnect agent wing bringEn railMv s := rfl
@[simp] theorem exec_vbringDisconnect (write : Agent × Nat) (s : State) : exec (.vbringDisconnect write) s = execVbringDisconnect write s := rfl
@[simp] theorem exec_vbringOvercurrent (amps : Nat) (s : State) : exec (.vbringOvercurrent amps) s = execVbringOvercurrent amps s := rfl
@[simp] theorem exec_bringEnDeassert (s : State) : exec (.bringEnDeassert) s = execBringEnDeassert s := rfl
@[simp] theorem exec_ageingCheck (wing : Nat) (short : Bool) (s : State) : exec (.ageingCheck wing short) s = execAgeingCheck wing short s := rfl
@[simp] theorem exec_thermalSample (wing : Nat) (temp : Int) (s : State) : exec (.thermalSample wing temp) s = execThermalSample wing temp s := rfl
@[simp] theorem exec_thermalCapAdjust (s : State) : exec (.thermalCapAdjust) s = execThermalCapAdjust s := rfl
@[simp] theorem exec_thermalEmergency (wing : Nat) (s : State) : exec (.thermalEmergency wing) s = execThermalEmergency wing s := rfl
@[simp] theorem exec_emergencyEnd (wing : Nat) (s : State) : exec (.emergencyEnd wing) s = execEmergencyEnd wing s := rfl
@[simp] theorem exec_thermalTrip (wing sensor : Nat) (temp : Int) (s : State) : exec (.thermalTrip wing sensor temp) s = execThermalTrip wing sensor temp s := rfl
@[simp] theorem exec_vaux5Apply (s : State) : exec (.vaux5Apply) s = execVaux5Apply s := rfl
@[simp] theorem exec_vaux5Loss (s : State) : exec (.vaux5Loss) s = execVaux5Loss s := rfl
@[simp] theorem exec_vin48Change (applied : Bool) (s : State) : exec (.vin48Change applied) s = execVin48Change applied s := rfl
@[simp] theorem exec_fwAliveTimeout (s : State) : exec (.fwAliveTimeout) s = execFwAliveTimeout s := rfl
@[simp] theorem exec_stageS1 (deadWings : List (Nat × Nat × Nat)) (wires : List (Nat × Nat × Nat × Nat)) (deadRouters : List Nat) (s : State) : exec (.stageS1 deadWings wires deadRouters) s = execStageS1 deadWings wires deadRouters s := rfl
@[simp] theorem exec_stageS2 (sites : List Nat × List (Nat × Nat × Bool)) (withdrawn : List Nat) (retired : List (BitVec 64)) (failedDies : List (Nat × Nat)) (s : State) : exec (.stageS2 sites withdrawn retired failedDies) s = execStageS2 sites withdrawn retired failedDies s := rfl
@[simp] theorem exec_stageS3 (s : State) : exec (.stageS3) s = execStageS3 s := rfl
@[simp] theorem exec_stageS4 (repaired deadSites crcDead : List Nat) (s : State) : exec (.stageS4 repaired deadSites crcDead) s = execStageS4 repaired deadSites crcDead s := rfl
@[simp] theorem exec_stageS5 (s : State) : exec (.stageS5) s = execStageS5 s := rfl
@[simp] theorem exec_modReset (lowNs : Nat) (s : State) : exec (.modReset lowNs) s = execModReset lowNs s := rfl
@[simp] theorem exec_moduleResetCommand (agent : Agent) (s : State) : exec (.moduleResetCommand agent) s = execModuleResetCommand agent s := rfl
@[simp] theorem exec_curatorRestart (agent : Agent) (s : State) : exec (.curatorRestart agent) s = execCuratorRestart agent s := rfl
@[simp] theorem exec_watchdogRestart (idleMs : Nat) (s : State) : exec (.watchdogRestart idleMs) s = execWatchdogRestart idleMs s := rfl
@[simp] theorem exec_tileReset (agent : Agent) (tile : Nat) (s : State) : exec (.tileReset agent tile) s = execTileReset agent tile s := rfl
@[simp] theorem exec_tileResetDone (tile : Nat) (s : State) : exec (.tileResetDone tile) s = execTileResetDone tile s := rfl
@[simp] theorem exec_partitionReset (agent : Agent) (partition : Nat) (s : State) : exec (.partitionReset agent partition) s = execPartitionReset agent partition s := rfl
@[simp] theorem exec_partitionResetAtP (s : State) : exec (.partitionResetAtP) s = execPartitionResetAtP s := rfl
@[simp] theorem exec_partitionResetDone (s : State) : exec (.partitionResetDone) s = execPartitionResetDone s := rfl
@[simp] theorem exec_iftDue (tile : Nat) (s : State) : exec (.iftDue tile) s = execIftDue tile s := rfl
@[simp] theorem exec_iftOverdue (tile : Nat) (s : State) : exec (.iftOverdue tile) s = execIftOverdue tile s := rfl
@[simp] theorem exec_iftGrant (agent : Agent) (partition ms : Nat) (s : State) : exec (.iftGrant agent partition ms) s = execIftGrant agent partition ms s := rfl
@[simp] theorem exec_iftStart (tile : Nat) (s : State) : exec (.iftStart tile) s = execIftStart tile s := rfl
@[simp] theorem exec_iftEnd (tile outcome : Nat) (s : State) : exec (.iftEnd tile outcome) s = execIftEnd tile outcome s := rfl
@[simp] theorem exec_cnPoll (tile : Nat) (s : State) : exec (.cnPoll tile) s = execCnPoll tile s := rfl
@[simp] theorem exec_cnPollTimeout (tile : Nat) (s : State) : exec (.cnPollTimeout tile) s = execCnPollTimeout tile s := rfl
@[simp] theorem exec_portTraining (port : Nat) (s : State) : exec (.portTraining port) s = execPortTraining port s := rfl
@[simp] theorem exec_trainingStepTimeout (port step : Nat) (found : Nat × Bool) (s : State) : exec (.trainingStepTimeout port step found) s = execTrainingStepTimeout port step found s := rfl
@[simp] theorem exec_portUp (port : Nat) (lanes maxWidth low high serial : Nat) (enc auth : Bool) (s : State) : exec (.portUp port lanes maxWidth low high serial enc auth) s = execPortUp port lanes maxWidth low high serial enc auth s := rfl
@[simp] theorem exec_trainingRetry (port : Nat) (s : State) : exec (.trainingRetry port) s = execTrainingRetry port s := rfl
@[simp] theorem exec_portStatePublish (port : Nat) (s : State) : exec (.portStatePublish port) s = execPortStatePublish port s := rfl
@[simp] theorem exec_frameReceive (port : Nat) (frame plain : List (BitVec 8)) (tagOk : Bool) (corr uncorr : Nat) (s : State) : exec (.frameReceive port frame plain tagOk corr uncorr) s = execFrameReceive port frame plain tagOk corr uncorr s := rfl
@[simp] theorem exec_nak (port ack : Nat) (s : State) : exec (.nak port ack) s = execNak port ack s := rfl
@[simp] theorem exec_ackTimeout (port : Nat) (s : State) : exec (.ackTimeout port) s = execAckTimeout port s := rfl
@[simp] theorem exec_portDown (port : Nat) (s : State) : exec (.portDown port) s = execPortDown port s := rfl
@[simp] theorem exec_keyEpochAdvance (port : Nat) (s : State) : exec (.keyEpochAdvance port) s = execKeyEpochAdvance port s := rfl
@[simp] theorem exec_peerId (port deviceId : Nat) (valid : Bool) (s : State) : exec (.peerId port deviceId valid) s = execPeerId port deviceId valid s := rfl
@[simp] theorem exec_peerIdReq (port : Nat) (s : State) : exec (.peerIdReq port) s = execPeerIdReq port s := rfl
@[simp] theorem exec_retrain (agent : Agent) (port : Nat) (s : State) : exec (.retrain agent port) s = execRetrain agent port s := rfl
@[simp] theorem exec_disable (agent : Agent) (port : Nat) (s : State) : exec (.disable agent port) s = execDisable agent port s := rfl
@[simp] theorem exec_enable (agent : Agent) (port : Nat) (s : State) : exec (.enable agent port) s = execEnable agent port s := rfl
@[simp] theorem exec_pcieMemoryRequest (write : Bool) (addr len : Nat) (data : List (BitVec 8)) (stream : Option Nat) (s : State) : exec (.pcieMemoryRequest write addr len data stream) s = execPcieMemoryRequest write addr len data stream s := rfl
@[simp] theorem exec_hostLinkRetrain (width rate : Nat) (s : State) : exec (.hostLinkRetrain width rate) s = execHostLinkRetrain width rate s := rfl
@[simp] theorem exec_perstN (low : Bool) (s : State) : exec (.perstN low) s = execPerstN low s := rfl
@[simp] theorem exec_surpriseDown (s : State) : exec (.surpriseDown) s = execSurpriseDown s := rfl
@[simp] theorem exec_fnMsgToken (fn : Nat) (s : State) : exec (.fnMsgToken fn) s = execFnMsgToken fn s := rfl
@[simp] theorem exec_fnMsgDoorbell (fn : Nat) (s : State) : exec (.fnMsgDoorbell fn) s = execFnMsgDoorbell fn s := rfl
@[simp] theorem exec_fnMsgDesc (fn : Nat) (s : State) : exec (.fnMsgDesc fn) s = execFnMsgDesc fn s := rfl
@[simp] theorem exec_copyDescriptorStart (fn channel : Nat) (desc : BitVec 256) (descOk : Bool) (data : List (BitVec 8)) (hostErr : List Nat) (s : State) : exec (.copyDescriptorStart fn channel desc descOk data hostErr) s = execCopyDescriptorStart fn channel desc descOk data hostErr s := rfl
@[simp] theorem exec_copyDescriptorComplete (fn channel : Nat) (s : State) : exec (.copyDescriptorComplete fn channel) s = execCopyDescriptorComplete fn channel s := rfl
@[simp] theorem exec_channelReset (fn channel : Nat) (s : State) : exec (.channelReset fn channel) s = execChannelReset fn channel s := rfl
@[simp] theorem exec_hstMsixRaise (agent : Agent) (fn vector : Nat) (s : State) : exec (.hstMsixRaise agent fn vector) s = execHstMsixRaise agent fn vector s := rfl
@[simp] theorem exec_mailboxGo (agent : Agent) (s : State) : exec (.mailboxGo agent) s = execMailboxGo agent s := rfl
@[simp] theorem exec_getVersion (s : State) : exec (.getVersion) s = execGetVersion s := rfl
@[simp] theorem exec_getIdentity (s : State) : exec (.getIdentity) s = execGetIdentity s := rfl
@[simp] theorem exec_fwWrite (flashErr : Bool) (s : State) : exec (.fwWrite flashErr) s = execFwWrite flashErr s := rfl
@[simp] theorem exec_fwCommit (flashErr : Bool) (s : State) : exec (.fwCommit flashErr) s = execFwCommit flashErr s := rfl
@[simp] theorem exec_recoveryBoot (flashErr : Bool) (s : State) : exec (.recoveryBoot flashErr) s = execRecoveryBoot flashErr s := rfl
@[simp] theorem exec_vbringTest (failed : List Nat) (s : State) : exec (.vbringTest failed) s = execVbringTest failed s := rfl
@[simp] theorem exec_mailboxComplete (s : State) : exec (.mailboxComplete) s = execMailboxComplete s := rfl
@[simp] theorem exec_mctpMessage (pcie : Bool) (kind : Nat) (body : List (BitVec 8)) (s : State) : exec (.mctpMessage pcie kind body) s = execMctpMessage pcie kind body s := rfl
@[simp] theorem exec_getMeasurements (indices : List Nat) (nonce : List (BitVec 8)) (s : State) : exec (.getMeasurements indices nonce) s = execGetMeasurements indices nonce s := rfl
@[simp] theorem exec_ideKmKeyInstall (stream : Nat) (s : State) : exec (.ideKmKeyInstall stream) s = execIdeKmKeyInstall stream s := rfl
@[simp] theorem exec_ideIntegrityFailure (stream : Nat) (s : State) : exec (.ideIntegrityFailure stream) s = execIdeIntegrityFailure stream s := rfl
@[simp] theorem exec_lockInterface (vf stream : Nat) (s : State) : exec (.lockInterface vf stream) s = execLockInterface vf stream s := rfl
@[simp] theorem exec_stopInterface (vf : Nat) (s : State) : exec (.stopInterface vf) s = execStopInterface vf s := rfl
@[simp] theorem exec_hstVfBindWrite (agent : Agent) (vf : Nat) (value : BitVec 32) (s : State) : exec (.hstVfBindWrite agent vf value) s = execHstVfBindWrite agent vf value s := rfl
@[simp] theorem exec_scrubPartition (agent : Agent) (partition : Nat) (s : State) : exec (.scrubPartition agent partition) s = execScrubPartition agent partition s := rfl
@[simp] theorem exec_scrubIdle (agent : Agent) (s : State) : exec (.scrubIdle agent) s = execScrubIdle agent s := rfl
@[simp] theorem exec_siteScrubEnd (tile : Nat) (s : State) : exec (.siteScrubEnd tile) s = execSiteScrubEnd tile s := rfl
@[simp] theorem exec_scrubDone (partition : Nat) (s : State) : exec (.scrubDone partition) s = execScrubDone partition s := rfl
@[simp] theorem exec_secFenceCheck (agent : Agent) (partition : Nat) (s : State) : exec (.secFenceCheck agent partition) s = execSecFenceCheck agent partition s := rfl
@[simp] theorem exec_attach (agent : Agent) (tile core : Nat) (s : State) : exec (.attach agent tile core) s = execAttach agent tile core s := rfl
@[simp] theorem exec_halt (agent : Agent) (tile core : Nat) (s : State) : exec (.halt agent tile core) s = execHalt agent tile core s := rfl
@[simp] theorem exec_resume (agent : Agent) (tile core : Nat) (s : State) : exec (.resume agent tile core) s = execResume agent tile core s := rfl
@[simp] theorem exec_step (agent : Agent) (tile core : Nat) (s : State) : exec (.step agent tile core) s = execStep agent tile core s := rfl
@[simp] theorem exec_detach (agent : Agent) (tile core : Nat) (s : State) : exec (.detach agent tile core) s = execDetach agent tile core s := rfl
@[simp] theorem exec_debugRead (agent : Agent) (space : Nat) (s : State) : exec (.debugRead agent space) s = execDebugRead agent space s := rfl
@[simp] theorem exec_debugWrite (agent : Agent) (space : Nat) (s : State) : exec (.debugWrite agent space) s = execDebugWrite agent space s := rfl
@[simp] theorem exec_tapInstruction (instr : Nat) (resetLow : Bool) (s : State) : exec (.tapInstruction instr resetLow) s = execTapInstruction instr resetLow s := rfl
@[simp] theorem exec_traceArm (agent : Agent) (buffer tile classes : Nat) (s : State) : exec (.traceArm agent buffer tile classes) s = execTraceArm agent buffer tile classes s := rfl
@[simp] theorem exec_counterBankSample (bank : Nat) (s : State) : exec (.counterBankSample bank) s = execCounterBankSample bank s := rfl
@[simp] theorem exec_eccRateCheck (internal : List (Nat × Nat)) (s : State) : exec (.eccRateCheck internal) s = execEccRateCheck internal s := rfl
@[simp] theorem exec_pairedAccessCompare (lead : Nat) (s : State) : exec (.pairedAccessCompare lead) s = execPairedAccessCompare lead s := rfl
@[simp] theorem exec_fltLogHeadWrite (agent : Agent) (value : BitVec 32) (s : State) : exec (.fltLogHeadWrite agent value) s = execFltLogHeadWrite agent value s := rfl
@[simp] theorem exec_registerWrite (agent : Agent) (address : Nat) (value : BitVec 32) (s : State) : exec (.registerWrite agent address value) s = execRegisterWrite agent address value s := rfl
@[simp] theorem exec_timeSyncExchange (s : State) : exec (.timeSyncExchange) s = execTimeSyncExchange s := rfl
@[simp] theorem exec_voltageSensorSample (wing : Nat) (readings : List Nat) (s : State) : exec (.voltageSensorSample wing readings) s = execVoltageSensorSample wing readings s := rfl
@[simp] theorem exec_hoursSinceColdTick (s : State) : exec (.hoursSinceColdTick) s = execHoursSinceColdTick s := rfl
@[simp] theorem exec_hostLinkUp (width rate : Nat) (s : State) : exec (.hostLinkUp width rate) s = execHostLinkUp width rate s := rfl
@[simp] theorem exec_pcieConfigRequest (fn op reg value sinceRelease : Nat) (s : State) : exec (.pcieConfigRequest fn op reg value sinceRelease) s = execPcieConfigRequest fn op reg value sinceRelease s := rfl
@[simp] theorem exec_startInterface (vf : Nat) (s : State) : exec (.startInterface vf) s = execStartInterface vf s := rfl
@[simp] theorem exec_keyExchange (body : List (BitVec 8)) (s : State) : exec (.keyExchange body) s = execKeyExchange body s := rfl
@[simp] theorem exec_tapReset (lowNs : Nat) (s : State) : exec (.tapReset lowNs) s = execTapReset lowNs s := rfl
@[simp] theorem exec_snWavefrontArrival (context tile : Nat) (s : State) : exec (.snWavefrontArrival context tile) s = execSnWavefrontArrival context tile s := rfl

end Sys2Proof.Machine
end

