-- ==== Sys2Proof/Laws/Fields.lean ====
section
/-! SUPPORT. Fields of registers: a field reads as it was just written, cut to its width, and a write of a field leaves every bit outside it. -/

namespace Sys2Proof.Machine

/-- The bits of a value with a field replaced. -/
theorem getLsbD_putBits (v : BitVec 32) (hi lo n i : Nat) (h : i < 32) :
    (putBits v hi lo n).getLsbD i =
      if lo ≤ i ∧ i < lo + (hi - lo + 1) then n.testBit (i - lo) else v.getLsbD i := by
  have hm : ((2 ^ (hi - lo + 1) - 1) <<< lo).testBit i = (decide (lo ≤ i) && decide (i - lo < hi - lo + 1)) := by
    rw [Nat.testBit_shiftLeft, Nat.testBit_two_pow_sub_one]
  simp only [putBits, BitVec.getLsbD_or, BitVec.getLsbD_and, BitVec.getLsbD_not, BitVec.getLsbD_ofNat, h, decide_true, Bool.true_and, hm,
    Nat.testBit_shiftLeft]
  by_cases h1 : lo ≤ i
  · by_cases h2 : i - lo < hi - lo + 1
    · have : i < lo + (hi - lo + 1) := by omega
      simp [h1, h2, this]
    · have : ¬ i < lo + (hi - lo + 1) := by omega
      simp [h1, h2, this]
  · simp [h1]

/-- A write of a field leaves the bits outside it. -/
theorem putBits_outside (v : BitVec 32) (hi lo n i : Nat) (h : i < lo ∨ hi < i) (hl : lo ≤ hi) :
    (putBits v hi lo n).getLsbD i = v.getLsbD i := by
  by_cases hi32 : i < 32
  · rw [getLsbD_putBits v hi lo n i hi32, if_neg]; omega
  · rw [BitVec.getLsbD_of_ge _ _ (by omega), BitVec.getLsbD_of_ge _ _ (by omega)]

/-- A bit of a field of a value. -/
theorem testBit_getBits (v : BitVec 32) (hi lo i : Nat) :
    (getBits v hi lo).testBit i = (decide (i < hi - lo + 1) && v.getLsbD (lo + i)) := by
  simp [getBits, Nat.testBit_mod_two_pow, Nat.testBit_shiftRight, BitVec.getLsbD]

/-- A field reads as it was written, cut to its width. -/
theorem getBits_putBits_same (v : BitVec 32) (hi lo n : Nat) (hl : lo ≤ hi) (hh : hi < 32) :
    getBits (putBits v hi lo n) hi lo = n % 2 ^ (hi - lo + 1) := by
  apply Nat.eq_of_testBit_eq
  intro i
  rw [testBit_getBits, Nat.testBit_mod_two_pow]
  by_cases hi' : i < hi - lo + 1
  · rw [getLsbD_putBits _ _ _ _ _ (by omega), if_pos (by omega)]
    simp [hi']
  · simp [hi']

/-- A field reads as before where another field was written. -/
theorem getBits_putBits_other (v : BitVec 32) (hi lo hi' lo' n : Nat) (h : hi' < lo ∨ hi < lo') (hl : lo ≤ hi) (hl' : lo' ≤ hi') :
    getBits (putBits v hi lo n) hi' lo' = getBits v hi' lo' := by
  apply Nat.eq_of_testBit_eq
  intro i
  rw [testBit_getBits, testBit_getBits]
  by_cases hi' : i < hi' - lo' + 1
  · rw [putBits_outside _ _ _ _ _ (by omega) hl]
  · simp [hi']

end Sys2Proof.Machine
end

