-- ==== Sys2Proof/Laws/Issue.lean ====
section
/-! SUPPORT. Everything that the issue of an instruction can do, said once: it issues, it is passed over, it is illegal, its fetch raises an
exception, or the command has no effect; and what the writes of agents do. -/

namespace Sys2Proof.Machine

set_option maxHeartbeats 1000000 in
/-- Every instruction of a core is the issue of its words. -/
theorem coreInstr_exec {i : Instr} {t c : Nat} {f : Fetched} {op : CoreOp} (h : coreInstr i = some (t, c, f, op)) (s : State) :
    exec i s = s.issue t c f op := by
  cases i <;> simp only [coreInstr, Option.some.injEq, Prod.mk.injEq, reduceCtorEq] at h <;> obtain ⟨rfl, rfl, rfl, rfl⟩ := h <;> rfl

/-- What an instruction that issues leaves. -/
theorem issue_of_issues {s u : State} {t c n : Nat} {f : Fetched} {op : CoreOp} (h : Issues s t c f op n u) :
    s.issue t c f op = .next (match op.run u t c n with
      | .next v => v.onward t c (nextPc (u.core t c).pc n)
      | .wait v => v
      | .jump v a => v.onward t c a
      | .stay v => v.stays t c
      | .exc v cause val => v.raises t c cause (u.core t c).pc val) := by
  unfold State.issue
  simp only [h.may, h.fetched, Bool.not_true, Bool.false_eq_true, if_false]
  unfold State.runWord State.askWord
  simp only [h.legal, h.covered, h.guarded, h.written, h.ready, Bool.not_true, Bool.false_eq_true, Bool.or_self, if_false]
  cases op.run u t c n <;> rfl

/-- An illegal word raises ILLEGAL. -/
theorem issue_of_illegal {s u : State} {t c n : Nat} {f : Fetched} {op : CoreOp} (hm : (s.settle t c).mayIssue t c = true)
    (hf : (s.settle t c).fetch t c f = .word n u) (hi : illegal (kindOf t) n = true) :
    s.issue t c f op = .next (u.raises t c 1 (u.core t c).pc (lowerOf n)) := by
  simp only [State.issue, hm, hf, State.runWord, hi, Bool.not_true, Bool.false_eq_true, if_false, if_true, State.raises]

/-- A word whose guard is false is passed over. -/
theorem issue_of_guard {s u : State} {t c n : Nat} {f : Fetched} {op : CoreOp} (hm : (s.settle t c).mayIssue t c = true)
    (hf : (s.settle t c).fetch t c f = .word n u) (hi : illegal (kindOf t) n = false) (ha : op.accept n = true)
    (hg : guardOk n (u.core t c).p = false) :
    s.issue t c f op = .next (u.onward t c (nextPc (u.core t c).pc n)) := by
  simp only [State.issue, hm, hf, State.runWord, hi, ha, hg, Bool.not_true, Bool.not_false, Bool.false_eq_true, if_false, if_true]
  rfl

/-- A fetch that raises an exception. -/
theorem issue_of_exc {s u : State} {t c cause val : Nat} {f : Fetched} {op : CoreOp} (hm : (s.settle t c).mayIssue t c = true)
    (hf : (s.settle t c).fetch t c f = .exc cause val u) :
    s.issue t c f op = .next (u.raises t c cause ((s.settle t c).core t c).pc val) := by
  simp only [State.issue, hm, hf, Bool.not_true, Bool.false_eq_true, if_false, State.raises]

/-- A core that may not issue, and a command that names another instruction than the one that stands there, have no effect. -/
theorem issue_of_held {s : State} {t c : Nat} {f : Fetched} {op : CoreOp} (hm : (s.settle t c).mayIssue t c = false) :
    s.issue t c f op = .next s := by
  simp only [State.issue, hm, Bool.not_false, if_true]

/-- Every issue answers a next state. -/
theorem issue_runs (s : State) (t c : Nat) (f : Fetched) (op : CoreOp) : Runs (s.issue t c f op) := by
  unfold State.issue
  dsimp only
  split
  · exact ⟨_, rfl⟩
  · split
    · exact ⟨_, rfl⟩
    · exact ⟨_, rfl⟩
    · exact ⟨_, rfl⟩
    · split <;> exact ⟨_, rfl⟩

/-- An instruction whose work goes on to the next one. -/
theorem completesWith_of_run {i : Nat → Nat → Fetched → Instr} {op : CoreOp} {eff : State → Nat → Nat → Nat → State}
    (he : ∀ t c f s, exec (i t c f) s = s.issue t c f op) (hr : ∀ u t c n, op.run u t c n = .next (eff u t c n)) :
    CompletesWith i op eff := by
  intro t c n f s u h
  rw [he, issue_of_issues h, hr]

/-- A granted write of a device register. -/
theorem devWrite_granted {s : State} {a : Agent} {address : Nat} (h : s.Granted a address) (effect : State) :
    s.devWrite a address effect = .next effect := by
  obtain ⟨h1, h2, h3, h4⟩ := h
  simp [State.devWrite, h1, h2, h3, h4]

/-- A write of a register that a rule of its own guards, where it reaches it. -/
theorem openWrite_open {s : State} {a : Agent} (h : s.OpenTo a) (effect : State) : s.openWrite a effect = .next effect := by
  obtain ⟨h1, h2, h3⟩ := h
  simp [State.openWrite, State.when, h1, h2, h3]

/-- A write of a tile register that reaches it. -/
theorem tileWrite_reached {s : State} {a : Agent} {t : Nat} (h : s.Reached a t) (off : Nat) (effect : State → Nat → State) :
    s.tileWrite a t off effect = .next (s.applied a t effect) := by
  obtain ⟨h1, h2, h3, h4⟩ := h
  simp [State.tileWrite, h1, h2, h3, h4]

/-- The command's condition holds. -/
theorem when_true {s t : State} {c : Bool} (h : c = true) : s.when c t = .next t := by simp [State.when, h]

/-- The command's condition does not hold. -/
theorem when_false {s t : State} {c : Bool} (h : c = false) : s.when c t = .next s := by simp [State.when, h]

end Sys2Proof.Machine
end

