-- ==== Sys2Proof/Laws/Kept.lean ====
section
/-! SUPPORT. What no operation touches: the queue of waiting commands, which `step` alone shortens, and the fuses, which are fixed at
manufacture (R426). `State.kept` is the pair of both; each file Laws/Kept*.lean says of every shared operation that it keeps it. -/

namespace Sys2Proof.Machine

/-- The queue and the fuses. -/
def State.kept (s : State) : List Instr × Fuses := (s.pending, s.fuses)

@[simp] theorem kept_mk (pending freeCtr time timeRunning regs hiLatch loHeld wires sites cat fuses flash pins cur clk tim wings pwr fab faults msix ctrlOut
    viol net dram dbg sec ports hst) :
    State.kept { pending := pending, freeCtr := freeCtr, time := time, timeRunning := timeRunning, regs := regs, hiLatch := hiLatch,
                 loHeld := loHeld, wires := wires,
                 sites := sites, cat := cat, fuses := fuses, flash := flash, pins := pins, cur := cur, clk := clk, tim := tim,
                 wings := wings, pwr := pwr, fab := fab, faults := faults, msix := msix, ctrlOut := ctrlOut, viol := viol, net := net,
                 dram := dram, dbg := dbg, sec := sec, ports := ports, hst := hst } = (pending, fuses) := by
  unfold State.kept; rfl

@[simp] theorem kept_fold (s : State) : (s.pending, s.fuses) = s.kept := by
  unfold State.kept; rfl

@[simp] theorem kept_ite (c : Prop) [Decidable c] (a b : State) : (if c then a else b).kept = if c then a.kept else b.kept := by
  split <;> rfl

/-- A fold of an operation that keeps them keeps them. -/
theorem kept_foldl {α : Type} (f : State → α → State) (l : List α) (s : State) (h : ∀ s a, (f s a).kept = s.kept) :
    (l.foldl f s).kept = s.kept := by
  induction l generalizing s with
  | nil => rfl
  | cons a l ih => rw [List.foldl_cons, ih, h]

/-- An operation that may have no answer, with another state in its place. -/
theorem kept_getD (o : Option State) (d s : State) (h : ∀ u, o = some u → u.kept = s.kept) (hd : d.kept = s.kept) :
    (o.getD d).kept = s.kept := by
  cases o with
  | none => exact hd
  | some u => exact h u rfl

/-- Every answer of the outcome keeps what s holds. -/
def Result.Keeps (r : Result) (s : State) : Prop := ∀ t, r = .next t → t.kept = s.kept

@[simp] theorem keeps_next (s t : State) : Result.Keeps (.next t) s ↔ t.kept = s.kept :=
  ⟨fun h => h t rfl, fun h u hu => by cases hu; exact h⟩

end Sys2Proof.Machine
end

