-- ==== Sys2Proof/Laws/KeptBase.lean ====
section
/-! SUPPORT. What no operation touches, for the operations of the registers, the catalogue, clocks, time, power, arrays and vitrines: each keeps the queue and the fuses. -/

set_option linter.all false
set_option maxHeartbeats 400000

namespace Sys2Proof.Machine

/-! ### Ops -/

@[simp] theorem State.setReg_kept (s : State) (a : Nat) (v : BitVec 32) : (State.setReg s a v).kept = s.kept := by
  simp [State.setReg]
@[simp] theorem State.setFld_kept (s : State) (a hi lo n : Nat) : (State.setFld s a hi lo n).kept = s.kept := by
  simp [State.setFld]
@[simp] theorem State.setBit_kept (s : State) (a i : Nat) (b : Bool) : (State.setBit s a i b).kept = s.kept := by
  simp [State.setBit]
@[simp] theorem State.setReg64_kept (s : State) (lo n : Nat) : (State.setReg64 s lo n).kept = s.kept := by
  simp [State.setReg64]
@[simp] theorem State.takeLo_kept (s : State) (a : Nat) : (State.takeLo s a).kept = s.kept := by
  simp [State.takeLo]
@[simp] theorem State.regWrite_kept (s : State) (a : Nat) (w : BitVec 32) : (State.regWrite s a w).kept = s.kept := by
  unfold State.regWrite; split <;> simp [kept_foldl]
@[simp] theorem State.bump_kept (s : State) (a n : Nat) : (State.bump s a n).kept = s.kept := by
  simp [State.bump]
@[simp] theorem State.setSite_kept (s : State) (t : Nat) (x : Site) : (State.setSite s t x).kept = s.kept := by
  simp [State.setSite]
@[simp] theorem State.modSite_kept (s : State) (t : Nat) (f : Site → Site) : (State.modSite s t f).kept = s.kept := by
  simp [State.modSite]
@[simp] theorem State.setTreg_kept (s : State) (t a : Nat) (v : BitVec 32) : (State.setTreg s t a v).kept = s.kept := by
  simp [State.setTreg]
@[simp] theorem State.setTfld_kept (s : State) (t a hi lo n : Nat) : (State.setTfld s t a hi lo n).kept = s.kept := by
  simp [State.setTfld]
@[simp] theorem State.setTbit_kept (s : State) (t a i : Nat) (b : Bool) : (State.setTbit s t a i b).kept = s.kept := by
  simp [State.setTbit]
@[simp] theorem State.takeTlo_kept (s : State) (t a : Nat) : (State.takeTlo s t a).kept = s.kept := by
  simp [State.takeTlo]
@[simp] theorem State.tregWrite_kept (s : State) (t a : Nat) (w : BitVec 32) : (State.tregWrite s t a w).kept = s.kept := by
  unfold State.tregWrite; split <;> simp [kept_foldl]
@[simp] theorem State.setTreg64_kept (s : State) (t lo n : Nat) : (State.setTreg64 s t lo n).kept = s.kept := by
  simp [State.setTreg64]
@[simp] theorem State.tbump_kept (s : State) (t a n : Nat) : (State.tbump s t a n).kept = s.kept := by
  simp [State.tbump]
@[simp] theorem State.tbump64_kept (s : State) (t lo n : Nat) : (State.tbump64 s t lo n).kept = s.kept := by
  simp [State.tbump64]
@[simp] theorem State.freed_kept (s : State) : (State.freed s).kept = s.kept := by
  simp [State.freed]
@[simp] theorem State.raiseVector_kept (s : State) (fn vec : Nat) : (State.raiseVector s fn vec).kept = s.kept := by
  simp [State.raiseVector]
@[simp] theorem State.fault_kept (s : State) (code source : Nat) (partition : Option Nat) (detail : List Nat) :
    (State.fault s code source partition detail).kept = s.kept := by
  simp [State.fault]
@[simp] theorem State.curFault_kept (s : State) (code : Nat) (detail : List Nat) : (State.curFault s code detail).kept = s.kept := by
  simp [State.curFault]
@[simp] theorem State.violation_kept (s : State) (a : Agent) (address kind target : Nat) :
    (State.violation s a address kind target).kept = s.kept := by
  unfold State.violation; split <;> simp [kept_foldl]
theorem State.devWrite_keeps (s : State) (a : Agent) (address : Nat) (effect : State) (h : effect.kept = s.kept) :
    Result.Keeps (s.devWrite a address effect) s := by
  simp [State.devWrite, h]
@[simp] theorem State.when_keeps (s : State) (c : Bool) (t : State) : Result.Keeps (s.when c t) s ↔ (c = true → t.kept = s.kept) := by
  unfold State.when
  cases c <;> simp
@[simp] theorem State.openWrite_keeps (s : State) (a : Agent) (t : State) (h : t.kept = s.kept) : Result.Keeps (s.openWrite a t) s := by
  simp [State.openWrite, h]

/-! ### Catalogue -/

@[simp] theorem State.catDirty_kept (s : State) (dead : Bool) : (State.catDirty s dead).kept = s.kept := by
  simp [State.catDirty]
@[simp] theorem State.setEntry_kept (s : State) (t e origin detail : Nat) : (State.setEntry s t e origin detail).kept = s.kept := by
  simp [State.setEntry]
@[simp] theorem State.markSiteDead_kept (s : State) (t reason origin detail : Nat) :
    (State.markSiteDead s t reason origin detail).kept = s.kept := by
  simp [State.markSiteDead]
@[simp] theorem State.keepUnderlying_kept (s : State) (u : List (Nat × Nat)) : (State.keepUnderlying s u).kept = s.kept := by
  unfold State.keepUnderlying; dsimp only; (repeat' split) <;> simp
@[simp] theorem State.markDegraded_kept (s : State) (t reason origin detail : Nat) :
    (State.markDegraded s t reason origin detail).kept = s.kept := by
  unfold State.markDegraded; split <;> simp [kept_foldl]
@[simp] theorem State.countRepair_kept (s : State) (t origin : Nat) : (State.countRepair s t origin).kept = s.kept := by
  simp [State.countRepair]
@[simp] theorem State.markWingDead_kept (s : State) (w origin detail : Nat) : (State.markWingDead s w origin detail).kept = s.kept := by
  simp [State.markWingDead, kept_foldl]
@[simp] theorem State.guaranteeRecord_kept (s : State) (below : Bool) : (State.guaranteeRecord s below).kept = s.kept := by
  simp [State.guaranteeRecord]
@[simp] theorem State.buildRoutes_kept (s : State) : (State.buildRoutes s).kept = s.kept := by
  unfold State.buildRoutes; dsimp only; (repeat' split) <;> simp
@[simp] theorem State.rebuildRoutes_kept (s : State) : (State.rebuildRoutes s).kept = s.kept := by
  unfold State.rebuildRoutes; dsimp only; split <;> simp
@[simp] theorem State.setRails_kept (s : State) (ws : List Nat) (p : Nat) : (State.setRails s ws p).kept = s.kept := by
  simp [State.setRails, kept_foldl]
@[simp] theorem State.rampTo_kept (s : State) (p : Nat) : (State.rampTo s p).kept = s.kept := by
  simp [State.rampTo, kept_foldl]
@[simp] theorem State.moveRails_kept (s : State) : (State.moveRails s).kept = s.kept := by
  simp [State.moveRails]
@[simp] theorem State.publish_kept (s : State) : (State.publish s).kept = s.kept := by
  simp [State.publish, kept_foldl]
@[simp] theorem State.disarm_kept (s : State) (result : Nat) : (State.disarm s result).kept = s.kept := by
  simp [State.disarm]
@[simp] theorem execCataloguePublish_keeps (s : State) : Result.Keeps (execCataloguePublish s) s := by
  unfold execCataloguePublish; (repeat' split) <;> simp
@[simp] theorem State.holdRequest_kept (s : State) (t : Nat) (hold : Bool) : (State.holdRequest s t hold).kept = s.kept := by
  simp [State.holdRequest]
@[simp] theorem execHold_keeps (a : Agent) (t : Nat) (s : State) : Result.Keeps (execHold a t s) s := by
  unfold execHold; (try dsimp only); refine State.devWrite_keeps _ _ _ _ ?_; (repeat' split) <;> simp
@[simp] theorem execHoldRelease_keeps (a : Agent) (t : Nat) (s : State) : Result.Keeps (execHoldRelease a t s) s := by
  unfold execHoldRelease; (try dsimp only); refine State.devWrite_keeps _ _ _ _ ?_; (repeat' split) <;> simp

/-! ### Clocks -/

@[simp] theorem State.modWing_kept (s : State) (w : Nat) (f : WingPower → WingPower) : (State.modWing s w f).kept = s.kept := by
  simp [State.modWing]
@[simp] theorem State.modSeam_kept (s : State) (k : Nat) (f : Seam → Seam) : (State.modSeam s k f).kept = s.kept := by
  unfold State.modSeam; dsimp only; (repeat' split) <;> simp
@[simp] theorem State.placePointer_kept (s : State) (k n : Nat) : (State.placePointer s k n).kept = s.kept := by
  simp [State.placePointer]
@[simp] theorem State.alignSeams_kept (s : State) (touched : Nat → Bool) : (State.alignSeams s touched).kept = s.kept := by
  simp [State.alignSeams, kept_foldl]
@[simp] theorem State.requestSwitch_kept (s : State) (at_ target source : Nat) : (State.requestSwitch s at_ target source).kept = s.kept := by
  simp [State.requestSwitch]
@[simp] theorem execOpSwitchRequest_keeps (a : Agent) (hi : BitVec 32) (s : State) : Result.Keeps (execOpSwitchRequest a hi s) s := by
  unfold execOpSwitchRequest; dsimp only; refine State.devWrite_keeps _ _ _ _ ?_; (repeat' split) <;> simp
@[simp] theorem execRaiseCheck_keeps (readings : List Nat) (s : State) : Result.Keeps (execRaiseCheck readings s) s := by
  unfold execRaiseCheck; dsimp only; (repeat' split) <;> simp [kept_foldl]
@[simp] theorem State.switchDone_kept (s : State) : (State.switchDone s).kept = s.kept := by
  simp [State.switchDone]
@[simp] theorem execOpSwitch_keeps (s : State) : Result.Keeps (execOpSwitch s) s := by
  unfold execOpSwitch; dsimp only; (repeat' split) <;> simp [kept_foldl]
@[simp] theorem execOpSwitchRestart_keeps (s : State) : Result.Keeps (execOpSwitchRestart s) s := by
  unfold execOpSwitchRestart; dsimp only; (repeat' split) <;> simp [kept_foldl]
@[simp] theorem execLowerRampStart_keeps (s : State) : Result.Keeps (execLowerRampStart s) s := by
  unfold execLowerRampStart; dsimp only; (repeat' split) <;> simp [kept_foldl]
@[simp] theorem execSettlingEnd_keeps (s : State) : Result.Keeps (execSettlingEnd s) s := by
  simp [execSettlingEnd]
@[simp] theorem State.assertFault_kept (s : State) : (State.assertFault s).kept = s.kept := by
  simp [State.assertFault]
@[simp] theorem State.startFails_kept (s : State) (error : Nat) : (State.startFails s error).kept = s.kept := by
  simp [State.startFails]
@[simp] theorem State.unlock_kept (s : State) : (State.unlock s).kept = s.kept := by
  simp [State.unlock]
@[simp] theorem State.sysLost_kept (s : State) : (State.sysLost s).kept = s.kept := by
  simp [State.sysLost, kept_foldl]
@[simp] theorem State.refLost_kept (s : State) (ref : Nat) : (State.refLost s ref).kept = s.kept := by
  simp [State.refLost]
@[simp] theorem execRefclkReturn_keeps (ref : Nat) (s : State) : Result.Keeps (execRefclkReturn ref s) s := by
  simp [execRefclkReturn]
@[simp] theorem execSeamAlarm_keeps (link : Nat × Bool) (cn : Bool) (separation : Nat) (s : State) :
    Result.Keeps (execSeamAlarm link cn separation s) s := by
  simp [execSeamAlarm]

/-! ### Failure -/

@[simp] theorem State.partFailAt_kept (s : State) (p cause at_ : Nat) : (State.partFailAt s p cause at_).kept = s.kept := by
  simp [State.partFailAt]
@[simp] theorem State.partFail_kept (s : State) (p cause : Nat) : (State.partFail s p cause).kept = s.kept := by
  simp [State.partFail]
@[simp] theorem State.uncorrectable_kept (s : State) (source : Nat) (part : Option Nat) (code : Nat) (detail : List Nat) :
    (State.uncorrectable s source part code detail).kept = s.kept := by
  unfold State.uncorrectable; split <;> simp [kept_foldl]

/-! ### Pair -/

@[simp] theorem State.both_kept (s : State) (t : Nat) (f : State → Nat → State) (h : ∀ s t, (f s t).kept = s.kept) :
    (s.both t f).kept = s.kept := by
  unfold State.both; split <;> simp [h]
@[simp] theorem State.applied_kept (s : State) (a : Agent) (t : Nat) (f : State → Nat → State) (h : ∀ s t, (f s t).kept = s.kept) :
    (s.applied a t f).kept = s.kept := by
  unfold State.applied; (repeat' split) <;> simp [h]
theorem State.tileWrite_keeps (s : State) (a : Agent) (t off : Nat) (effect : State → Nat → State)
    (h : ∀ s t, (effect s t).kept = s.kept) : Result.Keeps (s.tileWrite a t off effect) s := by
  have ha := State.applied_kept s a t effect h
  simp [State.tileWrite, ha]

/-! ### Vitrine -/

@[simp] theorem State.setSeg_kept (s : State) (t seg v : Nat) : (State.setSeg s t seg v).kept = s.kept := by
  simp [State.setSeg]
@[simp] theorem State.setSegEnd_kept (s : State) (t seg at_ : Nat) : (State.setSegEnd s t seg at_).kept = s.kept := by
  simp [State.setSegEnd]
@[simp] theorem State.present_kept (s : State) (t : Nat) (r : VitReq) : (State.present s t r).kept = s.kept := by
  simp [State.present]
@[simp] theorem State.readErrors_kept (s : State) (t : Nat) (cells corr uncorr : List Nat) :
    (State.readErrors s t cells corr uncorr).kept = s.kept := by
  simp [State.readErrors, kept_foldl]
@[simp] theorem State.considerReq_kept (s : State) (t : Nat) (r : VitReq) (corr uncorr : List Nat) :
    (State.considerReq s t r corr uncorr).kept = s.kept := by
  simp [State.considerReq]
@[simp] theorem execVitRequestAccept_keeps (t : Nat) (corr uncorr : List Nat) (s : State) :
    Result.Keeps (execVitRequestAccept t corr uncorr s) s := by
  unfold execVitRequestAccept; split <;> simp
@[simp] theorem State.arbitrate_kept (s : State) (t : Nat) : (State.arbitrate s t).kept = s.kept := by
  unfold State.arbitrate; dsimp only; (repeat' split) <;> simp
@[simp] theorem execEccWriteback_keeps (t c : Nat) (s : State) : Result.Keeps (execEccWriteback t c s) s := by
  simp [execEccWriteback]
@[simp] theorem State.badSegCmd_kept (s : State) (t : Nat) : (State.badSegCmd s t).kept = s.kept := by
  simp [State.badSegCmd]
@[simp] theorem State.segOpen_kept (s : State) (t seg : Nat) : (State.segOpen s t seg).kept = s.kept := by
  unfold State.segOpen; split <;> simp [kept_foldl]
@[simp] theorem State.segClose_kept (s : State) (t seg : Nat) : (State.segClose s t seg).kept = s.kept := by
  unfold State.segClose; split <;> simp [kept_foldl]
@[simp] theorem State.segOff_kept (s : State) (t seg : Nat) : (State.segOff s t seg).kept = s.kept := by
  unfold State.segOff; split <;> simp [kept_foldl]
@[simp] theorem State.segCommand_kept (s : State) (t cmd seg : Nat) : (State.segCommand s t cmd seg).kept = s.kept := by
  unfold State.segCommand; (repeat' split) <;> simp [kept_foldl]
@[simp] theorem execSegOpen_keeps (a : Agent) (t seg : Nat) (s : State) : Result.Keeps (execSegOpen a t seg s) s := by
  unfold execSegOpen; exact State.tileWrite_keeps _ _ _ _ _ fun s t => by simp
@[simp] theorem execSegClose_keeps (a : Agent) (t seg : Nat) (s : State) : Result.Keeps (execSegClose a t seg s) s := by
  unfold execSegClose; exact State.tileWrite_keeps _ _ _ _ _ fun s t => by simp
@[simp] theorem execSegOff_keeps (a : Agent) (t seg : Nat) (s : State) : Result.Keeps (execSegOff a t seg s) s := by
  unfold execSegOff; exact State.tileWrite_keeps _ _ _ _ _ fun s t => by simp
@[simp] theorem State.clearSeg_kept (s : State) (t seg : Nat) : (State.clearSeg s t seg).kept = s.kept := by
  simp [State.clearSeg]
@[simp] theorem execSegDrainEnd_keeps (t seg : Nat) (s : State) : Result.Keeps (execSegDrainEnd t seg s) s := by
  simp [execSegDrainEnd]
@[simp] theorem execSegPowerOffEnd_keeps (t seg : Nat) (s : State) : Result.Keeps (execSegPowerOffEnd t seg s) s := by
  simp [execSegPowerOffEnd]
@[simp] theorem execSegInitEnd_keeps (t seg : Nat) (s : State) : Result.Keeps (execSegInitEnd t seg s) s := by
  simp [execSegInitEnd]
@[simp] theorem State.segTick_kept (s : State) (t : Nat) : (State.segTick s t).kept = s.kept := by
  simp [State.segTick, kept_foldl]
@[simp] theorem State.segReopen_kept (s : State) (t : Nat) : (State.segReopen s t).kept = s.kept := by
  simp [State.segReopen, kept_foldl]

/-! ### Operands -/

@[simp] theorem State.setToken_kept (s : State) (t k v : Nat) : (State.setToken s t k v).kept = s.kept := by
  simp [State.setToken]
@[simp] theorem State.satToken_kept (s : State) (t k v : Nat) : (State.satToken s t k v).kept = s.kept := by
  simp [State.satToken]
@[simp] theorem State.addToken_kept (s : State) (t k n : Nat) : (State.addToken s t k n).kept = s.kept := by
  simp [State.addToken]
@[simp] theorem State.replaceToken_kept (s : State) (t k n : Nat) : (State.replaceToken s t k n).kept = s.kept := by
  simp [State.replaceToken]
@[simp] theorem State.takeToken_kept (s : State) (t k n : Nat) : (State.takeToken s t k n).kept = s.kept := by
  simp [State.takeToken]

/-! ### Quant -/

@[simp] theorem State.setQwin_kept (s : State) (t q : Nat) (w : QWin) : (State.setQwin s t q w).kept = s.kept := by
  simp [State.setQwin]
@[simp] theorem State.qcount_kept (s : State) (t q : Nat) (c : QCounts) : (State.qcount s t q c).kept = s.kept := by
  simp [State.qcount]
@[simp] theorem State.qcheck_kept (s : State) (t q : Nat) : (State.qcheck s t q).kept = s.kept := by
  simp [State.qcheck]
@[simp] theorem State.qclearStep_kept (s : State) (t q : Nat) : (State.qclearStep s t q).kept = s.kept := by
  simp [State.qclearStep]
@[simp] theorem State.qclose_kept (s : State) (t q : Nat) (merge : BitVec 32) : (State.qclose s t q merge).kept = s.kept := by
  simp [State.qclose, kept_foldl]
@[simp] theorem State.qclear_kept (s : State) (t q : Nat) : (State.qclear s t q).kept = s.kept := by
  simp [State.qclear, kept_foldl]
@[simp] theorem State.qwrite_kept (s : State) (t off : Nat) (w : BitVec 32) : (State.qwrite s t off w).kept = s.kept := by
  unfold State.qwrite; dsimp only; split <;> simp
@[simp] theorem State.qcountVector_kept (s : State) (t q : Nat) (c : QCounts) : (State.qcountVector s t q c).kept = s.kept := by
  simp [State.qcountVector]
@[simp] theorem State.quantCsr_kept (s : State) (t off : Nat) (w : BitVec 32) : (State.quantCsr s t off w).kept = s.kept := by
  simp [State.quantCsr]
@[simp] theorem State.qboundary_kept (s : State) (t : Nat) : (State.qboundary s t).kept = s.kept := by
  simp [State.qboundary, kept_foldl]
@[simp] theorem execQuantClose_keeps (a : Agent) (t q : Nat) (s : State) : Result.Keeps (execQuantClose a t q s) s := by
  unfold execQuantClose; exact State.tileWrite_keeps _ _ _ _ _ fun s t => by simp
@[simp] theorem execQuantClear_keeps (a : Agent) (t q : Nat) (s : State) : Result.Keeps (execQuantClear a t q s) s := by
  unfold execQuantClear; exact State.tileWrite_keeps _ _ _ _ _ fun s t => by simp

/-! ### Array -/

@[simp] theorem State.modArr_kept (s : State) (t : Nat) (f : Arr → Arr) : (State.modArr s t f).kept = s.kept := by
  simp [State.modArr]
@[simp] theorem State.arrCount_kept (s : State) (t a n : Nat) : (State.arrCount s t a n).kept = s.kept := by
  simp [State.arrCount]
@[simp] theorem State.arrCount64_kept (s : State) (t a n : Nat) : (State.arrCount64 s t a n).kept = s.kept := by
  simp [State.arrCount64]
@[simp] theorem State.feederRead_kept (s : State) (t : Nat) : (State.feederRead s t).kept = s.kept := by
  unfold State.feederRead
  extract_lets x
  split
  · rfl
  · split
    · rfl
    · extract_lets cover u lines s1 s2
      have h1 : s1.kept = s.kept := by simp [s1]
      have h2 : s2.kept = s.kept := (kept_foldl _ _ _ fun s a => by simp).trans h1
      exact (kept_foldl _ _ _ fun s a => by simp).trans h2
@[simp] theorem execStreamUnitRead_keeps (t : Nat) (s : State) : Result.Keeps (execStreamUnitRead t s) s := by
  simp [execStreamUnitRead]
@[simp] theorem State.loaderRead_kept (s : State) (t : Nat) : (State.loaderRead s t).kept = s.kept := by
  unfold State.loaderRead; split <;> simp [kept_foldl]
@[simp] theorem execLoaderRowRead_keeps (t : Nat) (s : State) : Result.Keeps (execLoaderRowRead t s) s := by
  simp [execLoaderRowRead]
@[simp] theorem State.accRead_kept (s : State) (x : Site) (t r n : Nat) : (State.accRead s x t r n).2.kept = s.kept := by
  unfold State.accRead; split <;> simp [kept_foldl]
@[simp] theorem State.commitLine_kept (s : State) (t : Nat) (p : Pass) (c h half n : Nat) :
    (State.commitLine s t p c h half n).kept = s.kept := by
  unfold State.commitLine; dsimp only; split <;> simp
@[simp] theorem State.collide_kept (s : State) (t row : Nat) : (State.collide s t row).kept = s.kept := by
  simp [State.collide]
@[simp] theorem State.commitColumn_kept (s : State) (t : Nat) (p : Pass) (n : Nat) : (State.commitColumn s t p n).kept = s.kept := by
  unfold State.commitColumn
  dsimp only
  split
  · rfl
  · split
    · rfl
    · split
      · simp
      · exact (kept_foldl _ _ _ fun s a => kept_foldl _ _ _ fun s a => by simp).trans (by simp)
@[simp] theorem State.commitPass_kept (s : State) (t : Nat) (p : Pass) : (State.commitPass s t p).kept = s.kept := by
  simp [State.commitPass, kept_foldl]
@[simp] theorem State.enterSlot_kept (s : State) (t : Nat) (p : Pass) : (State.enterSlot s t p).kept = s.kept := by
  simp [State.enterSlot]
@[simp] theorem State.writeRow_kept (s : State) (t : Nat) (p : Pass) (j : Nat) : (State.writeRow s t p j).kept = s.kept := by
  simp [State.writeRow]
@[simp] theorem State.retire_kept (s : State) (t : Nat) (p : Pass) : (State.retire s t p).kept = s.kept := by
  simp [State.retire]
@[simp] theorem execPassStart_keeps (t : Nat) (s : State) : Result.Keeps (execPassStart t s) s := by
  unfold execPassStart; split <;> simp
@[simp] theorem execStationaryRowWrite_keeps (t : Nat) (s : State) : Result.Keeps (execStationaryRowWrite t s) s := by
  unfold execStationaryRowWrite; split <;> simp
@[simp] theorem execInitialisingCommit_keeps (t : Nat) (s : State) : Result.Keeps (execInitialisingCommit t s) s := by
  unfold execInitialisingCommit
  refine (State.when_keeps _ _ _).2 fun _ => kept_foldl _ _ _ fun s a => ?_
  split <;> simp
@[simp] theorem execChunkCompletion_keeps (t : Nat) (s : State) : Result.Keeps (execChunkCompletion t s) s := by
  unfold execChunkCompletion; dsimp only; split <;> simp
@[simp] theorem State.arrayCycle_kept (s : State) (t : Nat) : (State.arrayCycle s t).kept = s.kept := by
  unfold State.arrayCycle
  extract_lets s1 s2 a e s3 s4 s5 s6
  have h1 : s1.kept = s.kept := by simp [s1, kept_foldl]
  have h2 : s2.kept = s.kept := by simp only [s2]; split <;> simp [h1]
  have h3 : s3.kept = s.kept := by simp only [s3]; split <;> simp [h2]
  have h4 : s4.kept = s.kept := by simp [s4, h3]
  have h5 : s5.kept = s.kept := (kept_foldl _ _ _ fun s a => by simp).trans h4
  have h6 : s6.kept = s.kept := by simp [s6, h5]
  simp [h6]
@[simp] theorem State.arrayTick_kept (s : State) (t : Nat) : (State.arrayTick s t).kept = s.kept := by
  unfold State.arrayTick; dsimp only; split <;> simp

/-! ### Time -/

@[simp] theorem State.stepTime_kept (s : State) (off : Int) : (State.stepTime s off).kept = s.kept := by
  simp [State.stepTime]
@[simp] theorem State.showOffset_kept (s : State) (off2 : Int) : (State.showOffset s off2).kept = s.kept := by
  simp [State.showOffset]
@[simp] theorem State.measured_kept (s : State) (off2 : Int) : (State.measured s off2).kept = s.kept := by
  simp [State.measured]
@[simp] theorem execTimeSlew_keeps (s : State) : Result.Keeps (execTimeSlew s) s := by
  unfold execTimeSlew; dsimp only; (repeat' split) <;> simp [kept_foldl]
@[simp] theorem State.pulse_kept (s : State) : (State.pulse s).kept = s.kept := by
  simp [State.pulse]
@[simp] theorem execSyncPulseOut_keeps (s : State) : Result.Keeps (execSyncPulseOut s) s := by
  simp [execSyncPulseOut]
@[simp] theorem execTsyncInEdge_keeps (s : State) : Result.Keeps (execTsyncInEdge s) s := by
  unfold execTsyncInEdge; split <;> simp
@[simp] theorem execTimeReq_keeps (port t1 : Nat) (s : State) : Result.Keeps (execTimeReq port t1 s) s := by
  simp [execTimeReq]
@[simp] theorem execTimeResp_keeps (port t1 t2 t3 : Nat) (s : State) : Result.Keeps (execTimeResp port t1 t2 t3 s) s := by
  simp [execTimeResp]
@[simp] theorem execTimeSyncExchange_keeps (s : State) : Result.Keeps (execTimeSyncExchange s) s := by
  simp [execTimeSyncExchange]
@[simp] theorem execSyncSourceLost_keeps (s : State) : Result.Keeps (execSyncSourceLost s) s := by
  unfold execSyncSourceLost; split <;> simp
@[simp] theorem State.setRole_kept (s : State) (w : BitVec 32) : (State.setRole s w).kept = s.kept := by
  unfold State.setRole; dsimp only; split <;> simp
@[simp] theorem execTimSyncCtlWrite_keeps (a : Agent) (w : BitVec 32) (s : State) : Result.Keeps (execTimSyncCtlWrite a w s) s := by
  unfold execTimSyncCtlWrite; (try dsimp only); refine State.devWrite_keeps _ _ _ _ ?_; (repeat' split) <;> simp
@[simp] theorem execTimPulseAtWrite_keeps (a : Agent) (hi : BitVec 32) (s : State) : Result.Keeps (execTimPulseAtWrite a hi s) s := by
  simp [execTimPulseAtWrite]
@[simp] theorem execScheduledPulse_keeps (s : State) : Result.Keeps (execScheduledPulse s) s := by
  unfold execScheduledPulse; dsimp only; (repeat' split) <;> simp [kept_foldl]

/-! ### Power -/

@[simp] theorem State.skipStep_kept (s : State) (e d : Rat) : (State.skipStep s e d).kept = s.kept := by
  simp [State.skipStep]
@[simp] theorem State.pointStep_kept (s : State) (ps : List Parts) : (State.pointStep s ps).kept = s.kept := by
  simp [State.pointStep]
@[simp] theorem State.throttleRecord_kept (s : State) (code : Nat) : (State.throttleRecord s code).kept = s.kept := by
  simp [State.throttleRecord]
@[simp] theorem State.episodeStep_kept (s : State) (e : Rat) : (State.episodeStep s e).kept = s.kept := by
  unfold State.episodeStep; dsimp only; split <;> simp
@[simp] theorem State.unheldStep_kept (s : State) (now : Bool) : (State.unheldStep s now).kept = s.kept := by
  simp [State.unheldStep]
@[simp] theorem State.modeStep_kept (s : State) : (State.modeStep s).kept = s.kept := by
  simp [State.modeStep]
@[simp] theorem execCapStep_keeps (raw : List (Nat × Nat × Nat)) (s : State) : Result.Keeps (execCapStep raw s) s := by
  unfold execCapStep; dsimp only; (repeat' split) <;> simp [kept_foldl]
@[simp] theorem execThrottleStatus_keeps (s : State) : Result.Keeps (execThrottleStatus s) s := by
  simp [execThrottleStatus]
@[simp] theorem execCalibration_keeps (measured : List Nat) (s : State) : Result.Keeps (execCalibration measured s) s := by
  unfold execCalibration; dsimp only; (repeat' split) <;> simp [kept_foldl]
@[simp] theorem execDroopOnset_keeps (w mv : Nat) (s : State) : Result.Keeps (execDroopOnset w mv s) s := by
  unfold execDroopOnset; split <;> simp
@[simp] theorem execDroopEnd_keeps (w : Nat) (s : State) : Result.Keeps (execDroopEnd w s) s := by
  unfold execDroopEnd; split <;> simp
@[simp] theorem execVoltageSensorSample_keeps (w : Nat) (readings : List Nat) (s : State) :
    Result.Keeps (execVoltageSensorSample w readings s) s := by
  unfold execVoltageSensorSample; dsimp only; (repeat' split) <;> simp [kept_foldl]
@[simp] theorem execVminRearm_keeps (a : Agent) (w : Nat) (s : State) : Result.Keeps (execVminRearm a w s) s := by
  unfold execVminRearm; (try dsimp only); refine State.devWrite_keeps _ _ _ _ ?_; (repeat' split) <;> simp
@[simp] theorem State.bringFault_kept (s : State) : (State.bringFault s).kept = s.kept := by
  simp [State.bringFault]
@[simp] theorem execVbringConnect_keeps (a : Agent) (w : Nat) (bringEn : Bool) (railMv : Nat) (s : State) :
    Result.Keeps (execVbringConnect a w bringEn railMv s) s := by
  unfold execVbringConnect; dsimp only; refine State.devWrite_keeps _ _ _ _ ?_; (repeat' split) <;> simp
@[simp] theorem State.openBring_kept (s : State) : (State.openBring s).kept = s.kept := by
  simp [State.openBring]
@[simp] theorem execVbringDisconnect_keeps (write : Agent × Nat) (s : State) : Result.Keeps (execVbringDisconnect write s) s := by
  unfold execVbringDisconnect; (try dsimp only); refine State.devWrite_keeps _ _ _ _ ?_; (repeat' split) <;> simp
@[simp] theorem execVbringOvercurrent_keeps (amps : Nat) (s : State) : Result.Keeps (execVbringOvercurrent amps s) s := by
  simp [execVbringOvercurrent]
@[simp] theorem execBringEnDeassert_keeps (s : State) : Result.Keeps (execBringEnDeassert s) s := by
  simp [execBringEnDeassert]
@[simp] theorem State.raiseTrim_kept (s : State) (w : Nat) : (State.raiseTrim s w).kept = s.kept := by
  simp [State.raiseTrim, kept_foldl]
@[simp] theorem execAgeingCheck_keeps (w : Nat) (short : Bool) (s : State) : Result.Keeps (execAgeingCheck w short s) s := by
  unfold execAgeingCheck; dsimp only; (repeat' split) <;> simp [kept_foldl]
@[simp] theorem execThermalSample_keeps (w : Nat) (temp : Int) (s : State) : Result.Keeps (execThermalSample w temp s) s := by
  unfold execThermalSample; dsimp only; (repeat' split) <;> simp [kept_foldl]
@[simp] theorem execThermalCapAdjust_keeps (s : State) : Result.Keeps (execThermalCapAdjust s) s := by
  simp [execThermalCapAdjust]
@[simp] theorem execThermalEmergency_keeps (w : Nat) (s : State) : Result.Keeps (execThermalEmergency w s) s := by
  unfold execThermalEmergency; split <;> simp
@[simp] theorem execEmergencyEnd_keeps (w : Nat) (s : State) : Result.Keeps (execEmergencyEnd w s) s := by
  unfold execEmergencyEnd; split <;> simp

/-! ### DramCore -/

@[simp] theorem State.setBlock_kept (s : State) (stack off : Nat) (b : DBlock) : (State.setBlock s stack off b).kept = s.kept := by
  simp [State.setBlock]
@[simp] theorem State.disturb_kept (s : State) (stack off : Nat) (flips : List (Nat × BitVec 8)) :
    (State.disturb s stack off flips).kept = s.kept := by
  simp [State.disturb]
@[simp] theorem State.dieFails_kept (s : State) (stack die : Nat) : (State.dieFails s stack die).kept = s.kept := by
  simp [State.dieFails]
@[simp] theorem State.accountRead_kept (s : State) (stack off addr : Nat) (d : Decoded) (part : Option Nat) (found : Option Nat) :
    (State.accountRead s stack off addr d part found).kept = s.kept := by
  unfold State.accountRead; dsimp only; (repeat' split) <;> simp
@[simp] theorem State.writeBlock_kept (s : State) (stack off addr : Nat) (data : BitVec 512) :
    (State.writeBlock s stack off addr data).kept = s.kept := by
  simp [State.writeBlock]
@[simp] theorem State.rewriteBlock_kept (s : State) (stack off addr : Nat) : (State.rewriteBlock s stack off addr).kept = s.kept := by
  unfold State.rewriteBlock; dsimp only; split <;> simp

/-! ### Rights -/

@[simp] theorem State.csrAccess_kept (s : State) (a : Agent) (addr size : Nat) (write : Bool) :
    (State.csrAccess s a addr size write).kept = s.kept := by
  unfold State.csrAccess; split <;> simp [kept_foldl]
@[simp] theorem State.modCore_kept (s : State) (t c : Nat) (f : Core → Core) : (State.modCore s t c f).kept = s.kept := by
  simp [State.modCore]
@[simp] theorem State.traceEvent_kept (s : State) (t unit k data : Nat) : (State.traceEvent s t unit k data).kept = s.kept := by
  simp [State.traceEvent, kept_foldl]
@[simp] theorem State.setCoreState_kept (s : State) (t c v : Nat) : (State.setCoreState s t c v).kept = s.kept := by
  simp [State.setCoreState]
@[simp] theorem State.setEvent_kept (s : State) (t c : Nat) : (State.setEvent s t c).kept = s.kept := by
  simp [State.setEvent]
@[simp] theorem State.reportStatus_kept (s : State) (t core source pc status : Nat) :
    (State.reportStatus s t core source pc status).kept = s.kept := by
  simp [State.reportStatus]

end Sys2Proof.Machine
end

