-- ==== Sys2Proof/Laws/KeptNet.lean ====
section
/-! SUPPORT. What no operation touches, for the operations of caches, drains, the networks, queues, concord units and memory stacks: each keeps the queue and the fuses. -/

set_option linter.all false
set_option maxHeartbeats 400000

namespace Sys2Proof.Machine

/-! ### Endpoint -/

@[simp] theorem State.modNet_kept (s : State) (f : Net → Net) : (State.modNet s f).kept = s.kept := by
  simp [State.modNet]
@[simp] theorem State.post_kept (s : State) (origin : Nat) (agent : Agent) (h : Hdr) (data : List (BitVec 8)) (u : NetUser) :
    (State.post s origin agent h data u).kept = s.kept := by
  simp [State.post]
@[simp] theorem State.modHst_kept (s : State) (f : Hst → Hst) : (State.modHst s f).kept = s.kept := by
  simp [State.modHst]
@[simp] theorem State.fnErr_kept (s : State) (f addr status : Nat) : (State.fnErr s f addr status).kept = s.kept := by
  simp [State.fnErr]
@[simp] theorem State.hstErr_kept (s : State) (offset status : Nat) : (State.hstErr s offset status).kept = s.kept := by
  simp [State.hstErr]
theorem State.hostDone_kept (s : State) (id status : Nat) (data : List (BitVec 8)) :
    ∀ u, State.hostDone s id status data = some u → u.kept = s.kept := by
  unfold State.hostDone; split <;> simp [kept_foldl]
@[simp] theorem State.setChan_kept (s : State) (f c : Nat) (l : List CopyJob) : (State.setChan s f c l).kept = s.kept := by
  simp [State.setChan]
theorem State.copyDone_kept (s : State) (f c id part status : Nat) (data : List (BitVec 8)) (u : State)
    (h : s.copyDone f c id part status data = some u) : u.kept = s.kept := by
  unfold State.copyDone at h
  dsimp only at h
  split at h
  · cases h
  · injection h with h
    subst h
    simp only [State.setChan_kept]
    split
    · split <;> simp
    · rfl
@[simp] theorem State.debugDone_kept (s : State) (status : Nat) (data : List (BitVec 8)) : (State.debugDone s status data).kept = s.kept := by
  simp [State.debugDone]

/-! ### Cache -/

@[simp] theorem State.setLocalLine_kept (s : State) (t o : Nat) (v : BitVec 512) : (State.setLocalLine s t o v).kept = s.kept := by
  simp [State.setLocalLine]
@[simp] theorem State.askLine_kept (s : State) (t c a : Nat) : (State.askLine s t c a).kept = s.kept := by
  unfold State.askLine; dsimp only; split <;> simp
@[simp] theorem State.spill_kept (s : State) (t : Nat) (l : CLine) : (State.spill s t l).kept = s.kept := by
  unfold State.spill; (repeat' split) <;> simp [kept_foldl]
@[simp] theorem State.unmark_kept (s : State) (t a : Nat) : (State.unmark s t a).kept = s.kept := by
  simp [State.unmark]
@[simp] theorem State.lower_kept (s : State) (t : Nat) (l : CLine) : (State.lower s t l).kept = s.kept := by
  unfold State.lower; split <;> simp [kept_foldl]
@[simp] theorem State.syncLine_kept (s : State) (t a : Nat) : (State.syncLine s t a).kept = s.kept := by
  unfold State.syncLine; refine kept_foldl _ _ _ fun s a => ?_; (repeat' split) <;> simp [kept_foldl]
@[simp] theorem State.discardL1_kept (s : State) (t a : Nat) (cs : List Nat) (code : Bool) : (State.discardL1 s t a cs code).kept = s.kept := by
  simp [State.discardL1, kept_foldl]
@[simp] theorem State.l2Evict_kept (s : State) (t k ways : Nat) : (State.l2Evict s t k ways).kept = s.kept := by
  unfold State.l2Evict; split <;> simp [kept_foldl]
@[simp] theorem State.l2Line_kept (s : State) (t c a : Nat) : (State.l2Line s t c a).2.kept = s.kept := by
  unfold State.l2Line; dsimp only; (repeat' split) <;> simp
@[simp] theorem State.l1Line_kept (s : State) (t c a : Nat) : (State.l1Line s t c a).2.kept = s.kept := by
  unfold State.l1Line; dsimp only; (repeat' split) <;> simp
@[simp] theorem State.cacheErrors_kept (s : State) (t c a : Nat) (corr uncorr : List Nat) :
    (State.cacheErrors s t c a corr uncorr).kept = s.kept := by
  simp [State.cacheErrors, kept_foldl]
@[simp] theorem State.cacheLoad_kept (s : State) (t c addr n : Nat) (corr uncorr : List Nat) :
    (State.cacheLoad s t c addr n corr uncorr).2.kept = s.kept := by
  unfold State.cacheLoad; dsimp only; split <;> simp
@[simp] theorem State.cacheStore_kept (s : State) (t c addr : Nat) (bs : List (BitVec 8)) :
    (State.cacheStore s t c addr bs).2.kept = s.kept := by
  unfold State.cacheStore; dsimp only; (repeat' split) <;> simp
@[simp] theorem State.cacheAmo_kept (s : State) (t c addr op : Nat) (wide : Bool) (b d : BitVec 64) (corr uncorr : List Nat) :
    (State.cacheAmo s t c addr op wide b d corr uncorr).2.kept = s.kept := by
  unfold State.cacheAmo; dsimp only; (repeat' split) <;> simp
@[simp] theorem State.localRead_kept (s : State) (t o n : Nat) : (State.localRead s t o n).2.kept = s.kept := by
  simp [State.localRead, kept_foldl]
@[simp] theorem State.localWrite_kept (s : State) (t o : Nat) (bs : List (BitVec 8)) : (State.localWrite s t o bs).kept = s.kept := by
  simp [State.localWrite, kept_foldl]
@[simp] theorem State.localAmo_kept (s : State) (t o op : Nat) (wide : Bool) (b d : Nat) :
    (State.localAmo s t o op wide b d).2.kept = s.kept := by
  unfold State.localAmo; dsimp only; (repeat' split) <;> simp
@[simp] theorem State.clean_kept (s : State) (t a : Nat) : (State.clean s t a).kept = s.kept := by
  unfold State.clean; dsimp only; (repeat' split) <;> simp
@[simp] theorem State.inval_kept (s : State) (t c a : Nat) : (State.inval s t c a).kept = s.kept := by
  unfold State.inval; dsimp only; split <;> simp
@[simp] theorem State.readPte_kept (s : State) (t c a : Nat) : (State.readPte s t c a).2.kept = s.kept := by
  unfold State.readPte; dsimp only; (repeat' split) <;> simp
@[simp] theorem State.walk_kept (s : State) (t c va table : Nat) (n : Nat) : (State.walk s t c va table n).2.kept = s.kept := by
  induction n generalizing s table with
  | zero => rfl
  | succ n ih =>
    unfold State.walk
    dsimp only
    (repeat' split) <;> simp [ih]
theorem State.walkNow_kept (t c : Nat) (k : AccKind) (s : State) (use : State → Tlb → Xlate × State) (va space : Nat) (xl : BitVec 64)
    (hu : ∀ s e, (use s e).2.kept = s.kept) : (State.translate.walkNow t c k s use va space xl).2.kept = s.kept := by
  unfold State.translate.walkNow
  dsimp only
  split <;> simp [hu]
@[simp] theorem State.translate_kept (s : State) (t c va : Nat) (k : AccKind) : (State.translate s t c va k).2.kept = s.kept := by
  have hp : ∀ (s : State) (f : Core → Core), (s.modCore t c f).kept = s.kept := fun s f => by simp
  unfold State.translate
  dsimp only
  split
  · rfl
  · split
    · rfl
    · split
      · split
        · refine State.walkNow_kept _ _ _ _ _ _ _ _ fun s e => ?_
          (repeat' split) <;> first | rfl | exact hp _ _
        · (repeat' split) <;> first | rfl | exact hp _ _
      · refine State.walkNow_kept _ _ _ _ _ _ _ _ fun s e => ?_
        (repeat' split) <;> first | rfl | exact hp _ _
@[simp] theorem State.xlinv_kept (s : State) (t c : Nat) (gone : Tlb → Bool) : (State.xlinv s t c gone).kept = s.kept := by
  simp [State.xlinv]
@[simp] theorem State.l2Shrink_kept (s : State) (t ways : Nat) : (State.l2Shrink s t ways).kept = s.kept := by
  simp [State.l2Shrink, kept_foldl]
@[simp] theorem State.l2Cfg_kept (s : State) (t : Nat) (w : BitVec 32) : (State.l2Cfg s t w).kept = s.kept := by
  simp [State.l2Cfg]
@[simp] theorem execSL2CfgWrite_keeps (a : Agent) (t : Nat) (w : BitVec 32) (s : State) : Result.Keeps (execSL2CfgWrite a t w s) s := by
  unfold execSL2CfgWrite; exact State.tileWrite_keeps _ _ _ _ _ fun s t => by simp
@[simp] theorem State.l2Reconfig_kept (s : State) (t ways : Nat) : (State.l2Reconfig s t ways).kept = s.kept := by
  simp [State.l2Reconfig, kept_foldl]
@[simp] theorem execL2ReconfigDone_keeps (t : Nat) (s : State) : Result.Keeps (execL2ReconfigDone t s) s := by
  unfold execL2ReconfigDone; split <;> simp
@[simp] theorem State.scrubCaches_kept (s : State) (t : Nat) : (State.scrubCaches s t).kept = s.kept := by
  simp [State.scrubCaches, kept_foldl]

/-! ### Drain -/

theorem kept_reads (x : Site) (t row : Nat) (l : List Nat) (acc : List Num.Pair × State) :
    (l.foldl (fun (acc : List Num.Pair × State) n =>
      (acc.1 ++ [(acc.2.accRead x t row n).1], (acc.2.accRead x t row n).2)) acc).2.kept = acc.2.kept := by
  induction l generalizing acc with
  | nil => rfl
  | cons a l ih => rw [List.foldl_cons, ih]; simp
@[simp] theorem State.readRow_kept (s : State) (x : Site) (t : Nat) (o : DrainOp) (c : Completion) :
    (State.readRow s x t o c).2.kept = s.kept := by
  unfold State.readRow
  dsimp only
  rw [kept_reads]
@[simp] theorem State.setDrain_kept (s : State) (t : Nat) (o : DrainOp) : (State.setDrain s t o).kept = s.kept := by
  simp [State.setDrain]
@[simp] theorem State.drainPresent_kept (s : State) (t : Nat) (o : DrainOp) (ws : List VitReq) :
    (State.drainPresent s t o ws).kept = s.kept := by
  simp [State.drainPresent, kept_foldl]
@[simp] theorem State.rowAge_kept (s : State) (t : Nat) (id : Nat) (r : DRow) : (State.rowAge s t id r).kept = s.kept := by
  unfold State.rowAge; (repeat' split) <;> simp [kept_foldl]
@[simp] theorem State.drainRead_kept (s : State) (x : Site) (t : Nat) (o : DrainOp) (c : Completion) :
    (State.drainRead s x t o c).kept = s.kept := by
  unfold State.drainRead
  dsimp only
  split
  · simp
  · simp only [State.setDrain_kept, State.modSite_kept]
    rw [kept_reads]
    split <;> simp
@[simp] theorem State.otherCycle_kept (s : State) (t : Nat) (o : DrainOp) : (State.otherCycle s t o).kept = s.kept := by
  unfold State.otherCycle
  dsimp only
  split
  · split <;> simp
  · (repeat' split) <;> simp
  · split
    · simp [kept_foldl]
    · rfl
  · split <;> simp
  · (repeat' split) <;> simp
  · split
    · split <;> simp
    · rfl
@[simp] theorem State.loadEntries_kept (s : State) (t : Nat) (o : DrainOp) (bytes : List (Nat × BitVec 8)) :
    (State.loadEntries s t o bytes).kept = s.kept := by
  simp [State.loadEntries, kept_foldl]
@[simp] theorem State.drainArrive_kept (s : State) (t op : Nat) (bytes : List (Nat × BitVec 8)) :
    (State.drainArrive s t op bytes).kept = s.kept := by
  unfold State.drainArrive; dsimp only; split <;> simp
@[simp] theorem State.drainTail_kept (s : State) (t : Nat) (o : DrainOp) : (State.drainTail s t o).kept = s.kept := by
  unfold State.drainTail; (repeat' split) <;> simp [kept_foldl]
@[simp] theorem State.ageRows_kept (s : State) (t : Nat) (o : DrainOp) : (State.ageRows s t o).kept = s.kept := by
  simp [State.ageRows, kept_foldl]
@[simp] theorem State.drainCycle_kept (s : State) (x : Site) (t id : Nat) : (State.drainCycle s x t id).kept = s.kept := by
  unfold State.drainCycle; dsimp only; (repeat' split) <;> simp
@[simp] theorem State.drainTick_kept (s : State) (x : Site) (t : Nat) : (State.drainTick s x t).kept = s.kept := by
  simp [State.drainTick, kept_foldl]
@[simp] theorem State.drainDone_kept (s : State) (t : Nat) (o : DrainOp) : (State.drainDone s t o).kept = s.kept := by
  simp [State.drainDone]
@[simp] theorem State.drainFinish_kept (s : State) (t : Nat) : (State.drainFinish s t).kept = s.kept := by
  unfold State.drainFinish; refine kept_foldl _ _ _ fun s a => ?_; (repeat' split) <;> simp [kept_foldl]
@[simp] theorem execDrainComplete_keeps (t : Nat) (s : State) : Result.Keeps (execDrainComplete t s) s := by
  unfold execDrainComplete; split <;> simp
@[simp] theorem State.drainBegin_kept (s : State) (t : Nat) (id : Nat) (i : EngInstr) : (State.drainBegin s t id i).kept = s.kept := by
  simp [State.drainBegin, kept_foldl]
@[simp] theorem State.drainStart_kept (s : State) (t : Nat) (ended : Option DrainOp) : (State.drainStart s t ended).kept = s.kept := by
  unfold State.drainStart
  extract_lets ops
  split
  · rfl
  · extract_lets clear s1
    have h1 : s1.kept = s.kept := by simp [s1]
    clear_value s1 clear
    split
    · split
      · exact h1
      · exact (kept_foldl _ _ _ fun s a => by simp).trans h1
    · rfl

/-! ### Compute -/

@[simp] theorem State.mmBegin_kept (s : State) (t id : Nat) (i : EngInstr) : (State.mmBegin s t id i).kept = s.kept := by
  simp [State.mmBegin]
@[simp] theorem State.cbBegin_kept (s : State) (t id : Nat) (i : EngInstr) : (State.cbBegin s t id i).kept = s.kept := by
  simp [State.cbBegin]
@[simp] theorem State.cbWrite_kept (s : State) (t : Nat) (e : Nat × Nat × Nat × List (BitVec 32)) : (State.cbWrite s t e).kept = s.kept := by
  simp [State.cbWrite]
@[simp] theorem execCodebookTakesEffect_keeps (t : Nat) (s : State) : Result.Keeps (execCodebookTakesEffect t s) s := by
  unfold execCodebookTakesEffect; split <;> simp

/-! ### Net -/

@[simp] theorem State.modXfer_kept (s : State) (t id row : Nat) (f : XferRow → XferRow) : (State.modXfer s t id row f).kept = s.kept := by
  simp [State.modXfer]
@[simp] theorem State.answerLost_kept (s : State) (t : Nat) : (State.answerLost s t).kept = s.kept := by
  simp [State.answerLost]
@[simp] theorem State.netDone_kept (s : State) (u : NetUser) (status : Nat) (data : List (BitVec 8)) :
    (State.netDone s u status data).kept = s.kept := by
  unfold State.netDone
  dsimp only
  split
  · split <;> simp
  · split
    · simp
    · simp only [State.modXfer_kept]; split <;> simp
  · split
    · simp
    · simp only [State.modXfer_kept]; split <;> simp
  · split
    · simp
    · simp only [State.modSite_kept]; split <;> simp
  · rfl
  · rfl
  · simp
  · split
    · exact kept_getD _ _ _ (fun u h => State.hostDone_kept _ _ _ _ _ h) (by simp)
    · simp
  · split
    · exact kept_getD _ _ _ (fun u h => State.copyDone_kept _ _ _ _ _ _ _ _ h) (by simp)
    · simp
  · simp
  · split <;> simp
  · split
    · simp
    · exact (kept_foldl _ _ _ fun s a => by simp).trans (by simp)
  · split <;> simp
@[simp] theorem State.launch_kept (s : State) (h : Hdr) (data : List (BitVec 8)) (agent : Agent) (target router port : Nat) (back : Option Nat) : (State.launch s h data agent target router port back).kept = s.kept := by
  simp [State.launch]
@[simp] theorem State.answer_kept (s : State) (p : Packet) (t status : Nat) (data : List (BitVec 8)) :
    (State.answer s p t status data).kept = s.kept := by
  unfold State.answer; (repeat' split) <;> simp [kept_foldl]
@[simp] theorem State.unreach_kept (s : State) (p : Packet) (t : Nat) : (State.unreach s p t).kept = s.kept := by
  simp [State.unreach]
@[simp] theorem State.remove_kept (s : State) (p : Packet) : (State.remove s p).kept = s.kept := by
  simp [State.remove]
@[simp] theorem State.joinPiece_kept (s : State) (id status : Nat) (data : List (Nat × BitVec 8)) :
    (State.joinPiece s id status data).kept = s.kept := by
  unfold State.joinPiece; dsimp only; (repeat' split) <;> simp
@[simp] theorem State.sendPiece_kept (s : State) (r : NetReq) (join : Nat) (p : Piece) (h : Hdr) (target : Nat) :
    (State.sendPiece s r join p h target).kept = s.kept := by
  simp [State.sendPiece]
@[simp] theorem State.violate_kept (s : State) (r : NetReq) (addr tile : Nat) : (State.violate s r addr tile).kept = s.kept := by
  simp [State.violate]
@[simp] theorem State.injectPiece_kept (s : State) (r : NetReq) (join : Nat) (right : Nat → Bool → Bool) (p : Piece) :
    (State.injectPiece s r join right p).kept = s.kept := by
  simp [State.injectPiece]
@[simp] theorem State.ingressLaunch_kept (s : State) (p : Nat) (h : Hdr) (data : List (BitVec 8)) :
    (State.ingressLaunch s p h data).kept = s.kept := by
  unfold State.ingressLaunch; dsimp only; (repeat' split) <;> simp
@[simp] theorem State.inject_kept (s : State) (r : NetReq) : (State.inject s r).kept = s.kept := by
  unfold State.inject
  dsimp only
  split
  · simp
  · split
    · exact (kept_foldl _ _ _ fun s a => by simp).trans (by simp)
    · split
      · refine (kept_foldl _ _ _ fun s a => ?_).trans (by simp)
        split <;> simp
      · split
        · split
          · simp
          · simp
          · simp
          · exact (kept_foldl _ _ _ fun s a => by simp).trans (by simp)
        · split <;> simp
@[simp] theorem State.owe_kept (s : State) (p vc n : Nat) : (State.owe s p vc n).kept = s.kept := by
  simp [State.owe]
@[simp] theorem State.credit_kept (s : State) (r : NetReq) : (State.credit s r).kept = s.kept := by
  unfold State.credit; split <;> simp [kept_foldl]
@[simp] theorem execPacketInject_keeps (origin : Nat) (s : State) : Result.Keeps (execPacketInject origin s) s := by
  unfold execPacketInject; split <;> simp
@[simp] theorem State.setPacket_kept (s : State) (p : Packet) : (State.setPacket s p).kept = s.kept := by
  simp [State.setPacket]
@[simp] theorem execCompletionReceive_keeps (pkt : Nat) (s : State) : Result.Keeps (execCompletionReceive pkt s) s := by
  unfold execCompletionReceive; dsimp only; (repeat' split) <;> simp [kept_foldl]

/-! ### Control -/

@[simp] theorem State.startReject_kept (s : State) (t : Nat) : (State.startReject s t).kept = s.kept := by
  simp [State.startReject]
@[simp] theorem State.dbgForget_kept (s : State) (k : Nat) : (State.dbgForget s k).kept = s.kept := by
  simp [State.dbgForget]
@[simp] theorem State.startCore_kept (s : State) (t c : Nat) : (State.startCore s t c).kept = s.kept := by
  simp [State.startCore]
@[simp] theorem State.cmdStart_kept (s : State) (t c : Nat) : (State.cmdStart s t c).kept = s.kept := by
  simp [State.cmdStart]
@[simp] theorem State.cmdStop_kept (s : State) (t c : Nat) : (State.cmdStop s t c).kept = s.kept := by
  simp [State.cmdStop]
@[simp] theorem State.cmdWake_kept (s : State) (t c : Nat) : (State.cmdWake s t c).kept = s.kept := by
  simp [State.cmdWake]
@[simp] theorem State.tileStart_kept (s : State) (t : Nat) (w : BitVec 32) : (State.tileStart s t w).kept = s.kept := by
  unfold State.tileStart; split <;> simp [kept_foldl]
@[simp] theorem execStart_keeps (a : Agent) (t c : Nat) (s : State) : Result.Keeps (execStart a t c s) s := by
  unfold execStart; exact State.tileWrite_keeps _ _ _ _ _ fun s t => by simp
@[simp] theorem execStop_keeps (a : Agent) (t c : Nat) (s : State) : Result.Keeps (execStop a t c s) s := by
  unfold execStop; exact State.tileWrite_keeps _ _ _ _ _ fun s t => by simp
@[simp] theorem execWake_keeps (a : Agent) (t c : Nat) (s : State) : Result.Keeps (execWake a t c s) s := by
  unfold execWake; exact State.tileWrite_keeps _ _ _ _ _ fun s t => by simp
theorem State.doorbell_kept (s : State) (t v : Nat) (u : State) (h : s.doorbell t v = some u) : u.kept = s.kept := by
  unfold State.doorbell at h
  dsimp only at h
  split at h
  · injection h with h
    subst h
    split <;> simp
  · split at h
    · injection h with h; subst h; simp
    · cases h
@[simp] theorem State.progWrite_kept (s : State) (t i : Nat) (w : BitVec 32) : (State.progWrite s t i w).kept = s.kept := by
  simp [State.progWrite]
@[simp] theorem execProgramStoreWrite_keeps (a : Agent) (t index : Nat) (w : BitVec 32) (s : State) :
    Result.Keeps (execProgramStoreWrite a t index w s) s := by
  unfold execProgramStoreWrite; exact State.tileWrite_keeps _ _ _ _ _ fun s t => by simp

/-! ### Receive -/

@[simp] theorem State.setRing_kept (s : State) (t q : Nat) (l : List QEnt) : (State.setRing s t q l).kept = s.kept := by
  simp [State.setRing]
@[simp] theorem State.qDrop_kept (s : State) (t q hi lo : Nat) : (State.qDrop s t q hi lo).kept = s.kept := by
  simp [State.qDrop]
@[simp] theorem State.countStatus_kept (s : State) (t status : Nat) : (State.countStatus s t status).kept = s.kept := by
  unfold State.countStatus; split <;> simp [kept_foldl]
@[simp] theorem State.emptyRing_kept (s : State) (t q : Nat) : (State.emptyRing s t q).kept = s.kept := by
  simp [State.emptyRing, kept_foldl]
@[simp] theorem State.queueClose_kept (s : State) (t q : Nat) : (State.queueClose s t q).kept = s.kept := by
  simp [State.queueClose]
@[simp] theorem State.queueOpen_kept (s : State) (t q : Nat) : (State.queueOpen s t q).kept = s.kept := by
  simp [State.queueOpen]
@[simp] theorem State.queueCmd_kept (s : State) (t cmd q : Nat) : (State.queueCmd s t cmd q).kept = s.kept := by
  simp [State.queueCmd]
@[simp] theorem execQueueOpen_keeps (a : Agent) (t q : Nat) (s : State) : Result.Keeps (execQueueOpen a t q s) s := by
  unfold execQueueOpen; exact State.tileWrite_keeps _ _ _ _ _ fun s t => by simp
@[simp] theorem execQueueClose_keeps (a : Agent) (t q : Nat) (s : State) : Result.Keeps (execQueueClose a t q s) s := by
  unfold execQueueClose; exact State.tileWrite_keeps _ _ _ _ _ fun s t => by simp
@[simp] theorem State.readerEnds_kept (s : State) (t c : Nat) : (State.readerEnds s t c).kept = s.kept := by
  simp [State.readerEnds, kept_foldl]
@[simp] theorem State.refuse_kept (s : State) (p : Packet) (t status : Nat) : (State.refuse s p t status).kept = s.kept := by
  simp [State.refuse]
@[simp] theorem State.serveVit_kept (s : State) (p : Packet) (tiles : List Nat) (entry : Option (Nat × Nat)) (rs : Nat → List VitReq) :
    (State.serveVit s p tiles entry rs).kept = s.kept := by
  simp [State.serveVit, kept_foldl]
@[simp] theorem State.vitAccess_kept (s : State) (p : Packet) (tiles : List Nat) (o : Nat) : (State.vitAccess s p tiles o).kept = s.kept := by
  unfold State.vitAccess; split <;> simp [kept_foldl]
@[simp] theorem State.localAccess_kept (s : State) (p : Packet) (t o : Nat) : (State.localAccess s p t o).kept = s.kept := by
  unfold State.localAccess; (repeat' split) <;> simp [kept_foldl]
@[simp] theorem State.dramAccess_kept (s : State) (p : Packet) (t : Nat) : (State.dramAccess s p t).kept = s.kept := by
  unfold State.dramAccess; split <;> simp [kept_foldl]
@[simp] theorem State.serveDone_kept (s : State) (v : Serve) : (State.serveDone s v).kept = s.kept := by
  unfold State.serveDone
  dsimp only
  split
  · split
    · simp
    · split
      · simp only [State.answer_kept, State.countStatus_kept]
        exact (kept_foldl _ _ _ fun s a => by simp).trans (by simp)
      · simp only [State.modNet_kept]
        exact (kept_foldl _ _ _ fun s a => by simp).trans (by simp)
  · simp
@[simp] theorem State.servePart_kept (s : State) (id status : Nat) (data : List (Nat × BitVec 8)) :
    (State.servePart s id status data).kept = s.kept := by
  unfold State.servePart; split <;> simp [kept_foldl]
theorem State.placeEntry_kept (s : State) (p : Packet) (t : Nat) (u : State) (h : s.placeEntry p t = some u) : u.kept = s.kept := by
  unfold State.placeEntry at h
  dsimp only at h
  split at h
  · cases h
  · split at h
    · cases h
    · split at h
      · split at h
        · injection h with h; subst h; simp
        · injection h with h; subst h; simp
      · injection h with h; subst h
        simp only [State.serveVit_kept]
        exact kept_foldl _ _ _ fun s a => by simp
@[simp] theorem State.receiveMessage_kept (s : State) (p : Packet) (t : Nat) : (State.receiveMessage s p t).kept = s.kept := by
  unfold State.receiveMessage
  dsimp only
  split
  · simp
  · split
    · simp
    · split
      · simp
      · split
        · simp
        · split
          · simp
          · split
            · rename_i h; exact State.placeEntry_kept _ _ _ _ h
            · simp
@[simp] theorem State.receiveConc_kept (s : State) (p : Packet) (t : Nat) : (State.receiveConc s p t).kept = s.kept := by
  simp [State.receiveConc]
@[simp] theorem State.perform_kept (s : State) (p : Packet) (t : Nat) : (State.perform s p t).kept = s.kept := by
  unfold State.perform; (repeat' split) <;> simp [kept_foldl]
@[simp] theorem State.receiveSignal_kept (s : State) (p : Packet) (t : Nat) : (State.receiveSignal s p t).kept = s.kept := by
  unfold State.receiveSignal
  dsimp only
  split
  · simp
  · split
    · simp only [State.answer_kept]
      rw [State.both_kept _ _ _ fun s t => by simp]
      simp
    · split
      · rename_i u h
        have hu := State.doorbell_kept _ _ _ _ h
        simp only [State.answer_kept, State.remove_kept]
        split
        · exact kept_getD _ _ _ (fun v hv => (State.doorbell_kept _ _ _ _ hv).trans hu) hu
        · exact hu
      · simp
@[simp] theorem State.receive_kept (s : State) (p : Packet) (t : Nat) : (State.receive s p t).kept = s.kept := by
  simp [State.receive]
@[simp] theorem execPacketReceive_keeps (pkt : Nat) (s : State) : Result.Keeps (execPacketReceive pkt s) s := by
  unfold execPacketReceive; split <;> simp
theorem State.retry_kept (s : State) (p : Packet) (t : Nat) : ∀ u, State.retry s p t = some u → u.kept = s.kept := by
  simp [State.retry]
@[simp] theorem execQueuedMessagePlaced_keeps (t : Nat) (s : State) : Result.Keeps (execQueuedMessagePlaced t s) s := by
  unfold execQueuedMessagePlaced
  split
  · simp
  · exact (State.when_keeps _ _ _).2 fun _ => kept_getD _ _ _ (State.retry_kept _ _ _) rfl
@[simp] theorem State.arrival_kept (s : State) (t q : Nat) : (State.arrival s t q).kept = s.kept := by
  unfold State.arrival; split <;> simp [kept_foldl]
@[simp] theorem execQueueEntryPublish_keeps (t q : Nat) (s : State) : Result.Keeps (execQueueEntryPublish t q s) s := by
  unfold execQueueEntryPublish
  split
  · simp
  · dsimp only
    refine (State.when_keeps _ _ _).2 fun _ => ?_
    split
    · simp only [State.answer_kept, State.modNet_kept]
      exact kept_foldl _ _ _ fun s a => by simp
    · exact kept_foldl _ _ _ fun s a => by simp
@[simp] theorem State.qpop_kept (s : State) (t q : Nat) : (State.qpop s t q).kept = s.kept := by
  unfold State.qpop; split <;> simp [kept_foldl]

/-! ### Concord -/

@[simp] theorem State.setConcHalf_kept (s : State) (t n acc : Nat) (h : ConcHalf) : (State.setConcHalf s t n acc h).kept = s.kept := by
  simp [State.setConcHalf]
@[simp] theorem State.concTake_kept (s : State) (p : Packet) (t : Nat) : (State.concTake s p t).2.kept = s.kept := by
  unfold State.concTake; dsimp only; (repeat' split) <;> simp
@[simp] theorem execConcContribution_keeps (t : Nat) (s : State) : Result.Keeps (execConcContribution t s) s := by
  unfold execConcContribution; split <;> simp
@[simp] theorem execConcDelivery_keeps (t n : Nat) (uncorr : List Nat) (s : State) : Result.Keeps (execConcDelivery t n uncorr s) s := by
  simp [execConcDelivery]
@[simp] theorem execConcNotify_keeps (t n : Nat) (s : State) : Result.Keeps (execConcNotify t n s) s := by
  unfold execConcNotify; dsimp only; split <;> simp
@[simp] theorem State.concCfg_kept (s : State) (t n : Nat) (w : BitVec 32) : (State.concCfg s t n w).kept = s.kept := by
  simp [State.concCfg]
@[simp] theorem execConcCfgWrite_keeps (a : Agent) (t n : Nat) (w : BitVec 32) (s : State) : Result.Keeps (execConcCfgWrite a t n w s) s := by
  unfold execConcCfgWrite; exact State.tileWrite_keeps _ _ _ _ _ fun s t => by simp
@[simp] theorem State.concReset_kept (s : State) (t : Nat) : (State.concReset s t).kept = s.kept := by
  simp [State.concReset, kept_foldl]

/-! ### Sync -/

@[simp] theorem State.winCmd_kept (s : State) (t cmd w : Nat) : (State.winCmd s t cmd w).kept = s.kept := by
  simp [State.winCmd]
@[simp] theorem State.winWrite_kept (s : State) (t cmd w : Nat) : (State.winWrite s t cmd w).kept = s.kept := by
  unfold State.winWrite; split <;> simp [kept_foldl]
@[simp] theorem execWindowOpen_keeps (a : Agent) (t w : Nat) (s : State) : Result.Keeps (execWindowOpen a t w s) s := by
  unfold execWindowOpen; exact State.tileWrite_keeps _ _ _ _ _ fun s t => by simp
@[simp] theorem execWindowClose_keeps (a : Agent) (t w : Nat) (s : State) : Result.Keeps (execWindowClose a t w s) s := by
  unfold execWindowClose; exact State.tileWrite_keeps _ _ _ _ _ fun s t => by simp
@[simp] theorem execWindowCommandApply_keeps (copy cmd : Nat) (s : State) : Result.Keeps (execWindowCommandApply copy cmd s) s := by
  unfold execWindowCommandApply; split <;> simp
@[simp] theorem execWindowBusyClear_keeps (t : Nat) (s : State) : Result.Keeps (execWindowBusyClear t s) s := by
  unfold execWindowBusyClear; split <;> simp
@[simp] theorem State.setSn_kept (s : State) (c : Nat) (x : SnCtx) : (State.setSn s c x).kept = s.kept := by
  simp [State.setSn]
@[simp] theorem State.sendWaves_kept (s : State) (m : Image) (c : Nat) (release value : Bool) :
    (State.sendWaves s m c release value).kept = s.kept := by
  simp [State.sendWaves]
@[simp] theorem State.snReject_kept (s : State) (t : Nat) : (State.snReject s t).kept = s.kept := by
  simp [State.snReject]
@[simp] theorem State.snValue_kept (s : State) (m : Image) (c : Nat) (x : SnCtx) (v : Bool) : (State.snValue s m c x v).kept = s.kept := by
  simp [State.snValue]
@[simp] theorem State.snInput_kept (s : State) (m : Image) (c t : Nat) (on : Bool) : (State.snInput s m c t on).kept = s.kept := by
  unfold State.snInput; split <;> simp [kept_foldl]
@[simp] theorem State.snOp_kept (s : State) (t c op : Nat) : (State.snOp s t c op).kept = s.kept := by
  unfold State.snOp; (repeat' split) <;> simp [kept_foldl]
@[simp] theorem State.snWrite_kept (s : State) (t c op : Nat) : (State.snWrite s t c op).kept = s.kept := by
  unfold State.snWrite; split <;> simp [kept_foldl]
@[simp] theorem execSnArrive_keeps (a : Agent) (t c : Nat) (s : State) : Result.Keeps (execSnArrive a t c s) s := by
  unfold execSnArrive; exact State.tileWrite_keeps _ _ _ _ _ fun s t => by simp
@[simp] theorem execSnSet_keeps (a : Agent) (t c : Nat) (s : State) : Result.Keeps (execSnSet a t c s) s := by
  unfold execSnSet; exact State.tileWrite_keeps _ _ _ _ _ fun s t => by simp
@[simp] theorem execSnClear_keeps (a : Agent) (t c : Nat) (s : State) : Result.Keeps (execSnClear a t c s) s := by
  unfold execSnClear; exact State.tileWrite_keeps _ _ _ _ _ fun s t => by simp
@[simp] theorem execSnNoOperation_keeps (a : Agent) (t c : Nat) (s : State) : Result.Keeps (execSnNoOperation a t c s) s := by
  unfold execSnNoOperation; exact State.tileWrite_keeps _ _ _ _ _ fun s t => by simp
@[simp] theorem execSnWavefrontArrival_keeps (c t : Nat) (s : State) : Result.Keeps (execSnWavefrontArrival c t s) s := by
  unfold execSnWavefrontArrival; split <;> simp
@[simp] theorem State.sendCtrl_kept (s : State) (port : Nat) (f : CtrlFrame) : (State.sendCtrl s port f).kept = s.kept := by
  simp [State.sendCtrl]
@[simp] theorem State.endStall_kept (s : State) (t c : Nat) : (State.endStall s t c).kept = s.kept := by
  simp [State.endStall]
@[simp] theorem State.release_kept (s : State) (m : Image) (c : Nat) : (State.release s m c).kept = s.kept := by
  simp [State.release, kept_foldl]
@[simp] theorem execBarrierRelease_keeps (c : Nat) (s : State) : Result.Keeps (execBarrierRelease c s) s := by
  unfold execBarrierRelease; dsimp only; (repeat' split) <;> simp [kept_foldl]
@[simp] theorem State.barArrive_kept (s : State) (port c round : Nat) : (State.barArrive s port c round).kept = s.kept := by
  unfold State.barArrive; split <;> simp [kept_foldl]
@[simp] theorem State.barRelease_kept (s : State) (port c round : Nat) : (State.barRelease s port c round).kept = s.kept := by
  unfold State.barRelease; split <;> simp [kept_foldl]
@[simp] theorem execBarArrive_keeps (port c round : Nat) (s : State) : Result.Keeps (execBarArrive port c round s) s := by
  simp [execBarArrive]
@[simp] theorem execBarRelease_keeps (port c round : Nat) (s : State) : Result.Keeps (execBarRelease port c round s) s := by
  simp [execBarRelease]
@[simp] theorem State.snReset_kept (s : State) (c : Nat) : (State.snReset s c).kept = s.kept := by
  unfold State.snReset
  extract_lets s1
  have h1 : s1.kept = s.kept := by simp [s1]
  clear_value s1
  split
  · exact h1
  · exact (kept_foldl _ _ _ fun s a => by simp).trans h1

/-! ### Dram -/

@[simp] theorem State.modDram_kept (s : State) (f : Dram → Dram) : (State.modDram s f).kept = s.kept := by
  simp [State.modDram]
@[simp] theorem State.miTake_kept (s : State) (r : MiReq) : (State.miTake s r).kept = s.kept := by
  simp [State.miTake]
@[simp] theorem execDramRead_keeps (req : Nat) (flips : List (Nat × BitVec 8)) (die : Option Nat) (s : State) :
    Result.Keeps (execDramRead req flips die s) s := by
  unfold execDramRead; split <;> simp
@[simp] theorem execDramWrite_keeps (req : Nat) (s : State) : Result.Keeps (execDramWrite req s) s := by
  unfold execDramWrite; split <;> simp
@[simp] theorem State.dramDrop_kept (s : State) (r : MiReq) : (State.dramDrop s r).kept = s.kept := by
  simp [State.dramDrop]
@[simp] theorem execDramPartialWrite_keeps (req : Nat) (flips : List (Nat × BitVec 8)) (die : Option Nat) (s : State) :
    Result.Keeps (execDramPartialWrite req flips die s) s := by
  unfold execDramPartialWrite; dsimp only; (repeat' split) <;> simp [kept_foldl]
@[simp] theorem execDramCorrectedRewrite_keeps (stack off : Nat) (s : State) : Result.Keeps (execDramCorrectedRewrite stack off s) s := by
  unfold execDramCorrectedRewrite; (repeat' split) <;> simp
@[simp] theorem State.rebuildTo_kept (s : State) (stack upTo : Nat) : (State.rebuildTo s stack upTo).kept = s.kept := by
  unfold State.rebuildTo
  extract_lets from_ here u1 u2
  have h1 : u1.kept = s.kept := by simp [u1]
  clear_value u1
  have h2 : u2.kept = s.kept := by simp only [u2]; split <;> simp [h1]
  clear_value u2
  refine (kept_foldl _ _ _ fun s a => ?_).trans h2
  dsimp only
  split <;> simp
@[simp] theorem execRebuildComplete_keeps (reached : Nat × Nat) (s : State) : Result.Keeps (execRebuildComplete reached s) s := by
  simp [execRebuildComplete]
@[simp] theorem execRowRetire_keeps (stack channel bank row die : Nat) (read : Bool) (s : State) :
    Result.Keeps (execRowRetire stack channel bank row die read s) s := by
  unfold execRowRetire; (repeat' split) <;> simp
@[simp] theorem State.copyRow_kept (s : State) (c : RowCopy) : (State.copyRow s c).kept = s.kept := by
  unfold State.copyRow
  refine kept_foldl _ _ _ fun s a => ?_
  dsimp only
  split <;> simp
@[simp] theorem execRowRemapSwitch_keeps (stack channel bank row : Nat) (s : State) :
    Result.Keeps (execRowRemapSwitch stack channel bank row s) s := by
  unfold execRowRemapSwitch; split <;> simp
@[simp] theorem execPatrolRead_keeps (t channel : Nat) (flips : List (Nat × BitVec 8)) (die : Option Nat) (s : State) :
    Result.Keeps (execPatrolRead t channel flips die s) s := by
  unfold execPatrolRead; dsimp only; split <;> simp
@[simp] theorem execRefresh_keeps (stack : Nat) (s : State) : Result.Keeps (execRefresh stack s) s := by
  simp [execRefresh]
@[simp] theorem execStackTempChange_keeps (stack : Nat) (temps : Int × Int × Int × Int) (s : State) :
    Result.Keeps (execStackTempChange stack temps s) s := by
  simp [execStackTempChange]
@[simp] theorem State.newEpoch_kept (s : State) (u : Nat) : (State.newEpoch s u).kept = s.kept := by
  simp [State.newEpoch]
@[simp] theorem State.zeroStart_kept (s : State) (u : Nat) : (State.zeroStart s u).kept = s.kept := by
  simp [State.zeroStart, kept_foldl]
@[simp] theorem State.zeroBand_kept (s : State) (stack band : Nat) (key : Nat × Nat × Nat) :
    (State.zeroBand s stack band key).kept = s.kept := by
  simp [State.zeroBand]
@[simp] theorem State.zeroEnd_kept (s : State) (u : Nat) : (State.zeroEnd s u).kept = s.kept := by
  simp [State.zeroEnd, kept_foldl]
@[simp] theorem execZeroingScrubStart_keeps (unit : Nat) (s : State) : Result.Keeps (execZeroingScrubStart unit s) s := by
  simp [execZeroingScrubStart]
@[simp] theorem execZeroingScrubEnd_keeps (unit : Nat) (s : State) : Result.Keeps (execZeroingScrubEnd unit s) s := by
  simp [execZeroingScrubEnd]

/-! ### Fetch -/

@[simp] theorem State.setXfer_kept (s : State) (t : Nat) (q : Xfer) : (State.setXfer s t q).kept = s.kept := by
  simp [State.setXfer]
@[simp] theorem State.presentRow_kept (s : State) (t : Nat) (q : Xfer) (r : Nat) : (State.presentRow s t q r).kept = s.kept := by
  simp [State.presentRow, kept_foldl]
@[simp] theorem State.stepRow_kept (s : State) (t : Nat) (q : Xfer) (w : XferRow) : (State.stepRow s t q w).kept = s.kept := by
  unfold State.stepRow; split <;> simp [kept_foldl]
@[simp] theorem State.fetchArrive_kept (s : State) (t id row : Nat) (write : Bool) (data : List (Nat × BitVec 8)) :
    (State.fetchArrive s t id row write data).kept = s.kept := by
  simp [State.fetchArrive]
@[simp] theorem State.fetchBegin_kept (s : State) (t id : Nat) (i : EngInstr) : (State.fetchBegin s t id i).kept = s.kept := by
  simp [State.fetchBegin]
@[simp] theorem State.fetchTick_kept (s : State) (t : Nat) : (State.fetchTick s t).kept = s.kept := by
  unfold State.fetchTick
  extract_lets s1 beyond s2
  have h1 : s1.kept = s.kept := kept_foldl _ _ _ fun s a => kept_foldl _ _ _ fun s a => by simp
  have h2 : s2.kept = s.kept := by simp [s2, h1]
  clear_value s2
  split
  · simp [h2]
  · exact h2

end Sys2Proof.Machine
end

