-- ==== Sys2Proof/Laws/KeptModule.lean ====
section
/-! SUPPORT. What no operation touches, for the operations of engines, resets, the fabric, wings, stages, in-field tests and links: each keeps the queue and the fuses. -/

set_option linter.all false
set_option maxHeartbeats 400000

namespace Sys2Proof.Machine

/-! ### Engines -/

@[simp] theorem State.dispatch_kept (s : State) (t : Nat) (e : Engine) (i : EngInstr) : (State.dispatch s t e i).kept = s.kept := by
  simp [State.dispatch]
@[simp] theorem State.refuseEngine_kept (s : State) (t : Nat) (e : Engine) (i : EngInstr) (reason : Nat) :
    (State.refuseEngine s t e i reason).kept = s.kept := by
  simp [State.refuseEngine]
@[simp] theorem State.engineBegin_kept (s : State) (t id : Nat) (e : Engine) (i : EngInstr) : (State.engineBegin s t id e i).kept = s.kept := by
  unfold State.engineBegin; split <;> simp [kept_foldl]
@[simp] theorem State.takeHead_kept (s : State) (t : Nat) (e : Engine) (i : EngInstr) : (State.takeHead s t e i).kept = s.kept := by
  unfold State.takeHead; dsimp only; split <;> simp
@[simp] theorem State.issueHead_kept (s : State) (t : Nat) (e : Engine) : (State.issueHead s t e).kept = s.kept := by
  unfold State.issueHead; split <;> simp [kept_foldl]
@[simp] theorem State.issueHeads_kept (s : State) (t : Nat) : (State.issueHeads s t).kept = s.kept := by
  simp [State.issueHeads, kept_foldl]
@[simp] theorem State.accErrors_kept (s : State) (t : Nat) (corr uncorr : List Nat) : (State.accErrors s t corr uncorr).kept = s.kept := by
  simp [State.accErrors]
@[simp] theorem execEngineIssue_keeps (t : Nat) (e : Engine) (corr uncorr : List Nat) (s : State) :
    Result.Keeps (execEngineIssue t e corr uncorr s) s := by
  simp [execEngineIssue]
@[simp] theorem State.breakPair_kept (s : State) (t : Nat) (a b : BitVec 64) : (State.breakPair s t a b).kept = s.kept := by
  unfold State.breakPair; dsimp only; (repeat' split) <;> simp
@[simp] theorem State.signal_kept (s : State) (t : Nat) (e : Engine) (o : EngIssued) (token : Bool) :
    (State.signal s t e o token).kept = s.kept := by
  simp [State.signal]
@[simp] theorem State.completeHead_kept (s : State) (t : Nat) (e : Engine) : (State.completeHead s t e).kept = s.kept := by
  unfold State.completeHead; (repeat' split) <;> simp [kept_foldl]
@[simp] theorem State.releaseMm_kept (s : State) (t : Nat) : (State.releaseMm s t).kept = s.kept := by
  simp [State.releaseMm]
@[simp] theorem State.notifyMet_kept (s : State) (t : Nat) : (State.notifyMet s t).kept = s.kept := by
  unfold State.notifyMet; split <;> simp [kept_foldl]
@[simp] theorem State.refuseTable_kept (s : State) (t : Nat) : (State.refuseTable s t).kept = s.kept := by
  unfold State.refuseTable; split <;> simp [kept_foldl]
@[simp] theorem execEngineComplete_keeps (t : Nat) (e : Engine) (s : State) : Result.Keeps (execEngineComplete t e s) s := by
  simp [execEngineComplete]
@[simp] theorem State.engineTick_kept (s : State) (t : Nat) : (State.engineTick s t).kept = s.kept := by
  unfold State.engineTick
  split
  · rfl
  · extract_lets s1 ended s2 s3 s4 s5
    have h1 : s1.kept = s.kept := by simp [s1]
    clear_value s1 ended
    have h2 : s2.kept = s.kept := by simp only [s2]; split <;> simp [h1]
    clear_value s2
    have h3 : s3.kept = s.kept := by simp only [s3]; split <;> simp [h2]
    clear_value s3
    have h4 : s4.kept = s.kept := (kept_foldl _ _ _ fun s a => by simp).trans h3
    clear_value s4
    simp [s5, h4]
@[simp] theorem State.trackWaits_kept (s : State) (t : Nat) : (State.trackWaits s t).kept = s.kept := by
  simp [State.trackWaits]
@[simp] theorem execEngineStall_keeps (t : Nat) (s : State) : Result.Keeps (execEngineStall t s) s := by
  unfold execEngineStall
  dsimp only
  split
  · refine (State.when_keeps _ _ _).2 fun _ => ?_
    split <;> simp
  · simp

/-! ### Interrupts -/

@[simp] theorem State.stepIssued_kept (s : State) (t c : Nat) : (State.stepIssued s t c).kept = s.kept := by
  simp [State.stepIssued]
@[simp] theorem State.halted_kept (s : State) (t c : Nat) : (State.halted s t c).kept = s.kept := by
  simp [State.halted]
@[simp] theorem State.settle_kept (s : State) (t c : Nat) : (State.settle s t c).kept = s.kept := by
  simp [State.settle]
@[simp] theorem State.settleSite_kept (s : State) (t : Nat) : (State.settleSite s t).kept = s.kept := by
  simp [State.settleSite, kept_foldl]

/-! ### Reset -/

@[simp] theorem State.stopCores_kept (s : State) (t : Nat) : (State.stopCores s t).kept = s.kept := by
  simp [State.stopCores, kept_foldl]
@[simp] theorem State.closeQueues_kept (s : State) (t : Nat) : (State.closeQueues s t).kept = s.kept := by
  simp [State.closeQueues, kept_foldl]
@[simp] theorem State.dropConc_kept (s : State) (t : Nat) : (State.dropConc s t).kept = s.kept := by
  simp [State.dropConc, kept_foldl]
@[simp] theorem State.resetSite_kept (s : State) (t : Nat) (net : Bool) : (State.resetSite s t net).kept = s.kept := by
  simp [State.resetSite]
@[simp] theorem State.resetBegin_kept (s : State) (t : Nat) (net : Bool) : (State.resetBegin s t net).kept = s.kept := by
  simp [State.resetBegin]
@[simp] theorem State.tileReset_kept (s : State) (t : Nat) : (State.tileReset s t).kept = s.kept := by
  simp [State.tileReset]
@[simp] theorem execTileReset_keeps (a : Agent) (t : Nat) (s : State) : Result.Keeps (execTileReset a t s) s := by
  unfold execTileReset; exact State.tileWrite_keeps _ _ _ _ _ fun s t => by simp
@[simp] theorem execTileResetDone_keeps (t : Nat) (s : State) : Result.Keeps (execTileResetDone t s) s := by
  simp [execTileResetDone]
@[simp] theorem State.closeWindow_kept (s : State) (w : Nat) : (State.closeWindow s w).kept = s.kept := by
  simp [State.closeWindow]
@[simp] theorem State.disarmTimer_kept (s : State) (n : Nat) : (State.disarmTimer s n).kept = s.kept := by
  simp [State.disarmTimer]
@[simp] theorem State.setTdi_kept (s : State) (k v : Nat) : (State.setTdi s k v).kept = s.kept := by
  simp [State.setTdi]
@[simp] theorem State.tdiErrors_kept (s : State) (p : Nat) : (State.tdiErrors s p).kept = s.kept := by
  simp [State.tdiErrors, kept_foldl]
@[simp] theorem State.partReset_kept (s : State) (a : Agent) (p : Nat) : (State.partReset s a p).kept = s.kept := by
  simp [State.partReset]
@[simp] theorem execPartitionReset_keeps (a : Agent) (p : Nat) (s : State) : Result.Keeps (execPartitionReset a p s) s := by
  unfold execPartitionReset; (try dsimp only); refine State.devWrite_keeps _ _ _ _ ?_; (repeat' split) <;> simp
@[simp] theorem State.mendPairs_kept (s : State) (p : Nat) : (State.mendPairs s p).kept = s.kept := by
  simp [State.mendPairs]
@[simp] theorem State.resetPartition_kept (s : State) (p : Nat) : (State.resetPartition s p).kept = s.kept := by
  unfold State.resetPartition
  extract_lets s1 s2 s3 s4
  have h1 : s1.kept = s.kept := kept_foldl _ _ _ fun s a => by simp
  clear_value s1
  have h2 : s2.kept = s.kept := by
    simp only [s2]
    split
    · exact (kept_foldl _ _ _ fun s a => by split <;> simp).trans h1
    · exact h1
  clear_value s2
  have h3 : s3.kept = s.kept := (kept_foldl _ _ _ fun s a => by split <;> simp).trans h2
  clear_value s3
  simp [s4, h3]
@[simp] theorem execPartitionResetAtP_keeps (s : State) : Result.Keeps (execPartitionResetAtP s) s := by
  unfold execPartitionResetAtP; dsimp only; (repeat' split) <;> simp [kept_foldl]
@[simp] theorem execPartitionResetDone_keeps (s : State) : Result.Keeps (execPartitionResetDone s) s := by
  simp [execPartitionResetDone]
@[simp] theorem execSecFenceCheck_keeps (a : Agent) (p : Nat) (s : State) : Result.Keeps (execSecFenceCheck a p s) s := by
  unfold execSecFenceCheck; dsimp only; refine State.devWrite_keeps _ _ _ _ ?_; (repeat' split) <;> simp
@[simp] theorem State.installQueue_kept (s : State) (t q : Nat) (acc : Option Nat) : (State.installQueue s t q acc).kept = s.kept := by
  simp [State.installQueue]
@[simp] theorem State.installSlot_kept (s : State) (m : Image) (t n : Nat) (acc : Option Nat) :
    (State.installSlot s m t n acc).kept = s.kept := by
  simp [State.installSlot]
@[simp] theorem State.installSite_kept (s : State) (t : Nat) : (State.installSite s t).kept = s.kept := by
  unfold State.installSite
  extract_lets s1 s2
  have h1 : s1.kept = s.kept := kept_foldl _ _ _ fun s a => by simp
  clear_value s1
  have h2 : s2.kept = s.kept := by simp [s2, h1]
  clear_value s2
  split
  · split
    · exact (kept_foldl _ _ _ fun s a => by simp).trans h2
    · exact h2
  · exact h2
@[simp] theorem State.reinstallSite_kept (s : State) (t : Nat) : (State.reinstallSite s t).kept = s.kept := by
  unfold State.reinstallSite
  extract_lets s1
  have h1 : s1.kept = s.kept := kept_foldl _ _ _ fun s a => by simp
  clear_value s1
  split
  · split
    · exact (kept_foldl _ _ _ fun s a => by simp).trans h1
    · exact h1
  · exact h1
@[simp] theorem State.installWindow_kept (s : State) (w : Nat) (acc : Option Nat) : (State.installWindow s w acc).kept = s.kept := by
  simp [State.installWindow, kept_foldl]
@[simp] theorem State.modSec_kept (s : State) (f : Sec → Sec) : (State.modSec s f).kept = s.kept := by
  simp [State.modSec]
@[simp] theorem State.scrubBegin_kept (s : State) (t : Nat) : (State.scrubBegin s t).kept = s.kept := by
  simp [State.scrubBegin, kept_foldl]
@[simp] theorem State.scrubSite_kept (s : State) (t : Nat) : (State.scrubSite s t).kept = s.kept := by
  simp [State.scrubSite]
@[simp] theorem State.zeroBlocks_kept (s : State) (m : Image) (p : Nat) (units : List Nat) : (State.zeroBlocks s m p units).kept = s.kept := by
  unfold State.zeroBlocks
  refine kept_foldl _ _ _ fun s a => ?_
  dsimp only
  split
  · simp only [kept_ite, State.writeBlock_kept, ite_self]
  · rfl
@[simp] theorem State.openJob_kept (s : State) (part : Option Nat) (sites units : List Nat) :
    (State.openJob s part sites units).kept = s.kept := by
  unfold State.openJob; (repeat' split) <;> simp [kept_foldl]
@[simp] theorem State.scrubPartition_kept (s : State) (p : Nat) : (State.scrubPartition s p).kept = s.kept := by
  unfold State.scrubPartition; split <;> simp [kept_foldl]
@[simp] theorem State.scrubReject_kept (s : State) : (State.scrubReject s).kept = s.kept := by
  simp [State.scrubReject]
@[simp] theorem State.scrubPartCmd_kept (s : State) (a : Agent) (p : Nat) : (State.scrubPartCmd s a p).kept = s.kept := by
  simp [State.scrubPartCmd]
@[simp] theorem execScrubPartition_keeps (a : Agent) (p : Nat) (s : State) : Result.Keeps (execScrubPartition a p s) s := by
  unfold execScrubPartition; (try dsimp only); refine State.devWrite_keeps _ _ _ _ ?_; (repeat' split) <;> simp
@[simp] theorem State.scrubIdleCmd_kept (s : State) (a : Agent) : (State.scrubIdleCmd s a).kept = s.kept := by
  simp [State.scrubIdleCmd, kept_foldl]
@[simp] theorem execScrubIdle_keeps (a : Agent) (s : State) : Result.Keeps (execScrubIdle a s) s := by
  unfold execScrubIdle; (try dsimp only); refine State.devWrite_keeps _ _ _ _ ?_; (repeat' split) <;> simp
@[simp] theorem execSiteScrubEnd_keeps (t : Nat) (s : State) : Result.Keeps (execSiteScrubEnd t s) s := by
  simp [execSiteScrubEnd]
@[simp] theorem State.jobEnd_kept (s : State) (p : Nat) : (State.jobEnd s p).kept = s.kept := by
  simp [State.jobEnd, kept_foldl]
@[simp] theorem execScrubDone_keeps (p : Nat) (s : State) : Result.Keeps (execScrubDone p s) s := by
  unfold execScrubDone; dsimp only; (repeat' split) <;> simp [kept_foldl]

/-! ### Fabric -/

@[simp] theorem State.modFab_kept (s : State) (f : Fab → Fab) : (State.modFab s f).kept = s.kept := by
  simp [State.modFab]
@[simp] theorem State.cmdReject_kept (s : State) : (State.cmdReject s).kept = s.kept := by
  simp [State.cmdReject]
@[simp] theorem State.load_kept (s : State) : (State.load s).kept = s.kept := by
  simp [State.load]
@[simp] theorem execLoad_keeps (a : Agent) (s : State) : Result.Keeps (execLoad a s) s := by
  unfold execLoad; (try dsimp only); refine State.devWrite_keeps _ _ _ _ ?_; (repeat' split) <;> simp
@[simp] theorem State.discard_kept (s : State) : (State.discard s).kept = s.kept := by
  simp [State.discard]
@[simp] theorem execDiscard_keeps (a : Agent) (s : State) : Result.Keeps (execDiscard a s) s := by
  unfold execDiscard; (try dsimp only); refine State.devWrite_keeps _ _ _ _ ?_; (repeat' split) <;> simp
@[simp] theorem State.cancel_kept (s : State) : (State.cancel s).kept = s.kept := by
  simp [State.cancel]
@[simp] theorem execCancel_keeps (a : Agent) (s : State) : Result.Keeps (execCancel a s) s := by
  unfold execCancel; (try dsimp only); refine State.devWrite_keeps _ _ _ _ ?_; (repeat' split) <;> simp
@[simp] theorem execImageValidationDone_keeps (s : State) : Result.Keeps (execImageValidationDone s) s := by
  unfold execImageValidationDone; dsimp only; (repeat' split) <;> simp [kept_foldl]
@[simp] theorem State.abortTest_kept (s : State) (t : Nat) : (State.abortTest s t).kept = s.kept := by
  simp [State.abortTest]
@[simp] theorem State.armAborts_kept (s : State) (m : Image) : (State.armAborts s m).kept = s.kept := by
  unfold State.armAborts; refine kept_foldl _ _ _ fun s a => ?_; (repeat' split) <;> simp [kept_foldl]
@[simp] theorem State.arm_kept (s : State) (hi : BitVec 32) : (State.arm s hi).kept = s.kept := by
  unfold State.arm
  dsimp only
  split
  · split <;> simp
  · split <;> simp
@[simp] theorem execArm_keeps (a : Agent) (hi : BitVec 32) (s : State) : Result.Keeps (execArm a hi s) s := by
  unfold execArm; (try dsimp only); refine State.devWrite_keeps _ _ _ _ ?_; (repeat' split) <;> simp
@[simp] theorem State.quiesceSample_kept (s : State) : (State.quiesceSample s).kept = s.kept := by
  unfold State.quiesceSample; split <;> simp [kept_foldl]
@[simp] theorem execQuiesceSample_keeps (s : State) : Result.Keeps (execQuiesceSample s) s := by
  simp [execQuiesceSample]
@[simp] theorem State.swapOut_kept (s : State) (keep : List Nat) : (State.swapOut s keep).kept = s.kept := by
  unfold State.swapOut
  split
  · rfl
  · refine (kept_foldl _ _ _ fun s a => by simp).trans ?_
    refine (kept_foldl _ _ _ fun s a => ?_).trans ?_
    · split
      · split <;> simp
      · rfl
    refine (kept_foldl _ _ _ fun s a => ?_).trans ?_
    · split
      · split <;> simp
      · simp
    exact kept_foldl _ _ _ fun s a => by split <;> simp
@[simp] theorem State.swapIn_kept (s : State) (old : Option Image) (new : Image) (keep : List Nat) :
    (State.swapIn s old new keep).kept = s.kept := by
  simp [State.swapIn, kept_foldl]
@[simp] theorem State.swapScrub_kept (s : State) (old : Option Image) (new : Image) : (State.swapScrub s old new).kept = s.kept := by
  unfold State.swapScrub
  extract_lets enters s1 units s2 s3 s4 s5 s6 s7
  have h1 : s1.kept = s.kept := kept_foldl _ _ _ fun s a => by split <;> simp
  clear_value s1
  have h2 : s2.kept = s.kept := by simp [s2, h1]
  clear_value s2
  have h3 : s3.kept = s.kept := (kept_foldl _ _ _ fun s a => by simp).trans h2
  clear_value s3
  have h4 : s4.kept = s.kept := (kept_foldl _ _ _ fun s a => by simp).trans h3
  clear_value s4
  have h5 : s5.kept = s.kept := (kept_foldl _ _ _ fun s a => by split <;> simp).trans h4
  clear_value s5
  have h6 : s6.kept = s.kept := (kept_foldl _ _ _ fun s a => by simp).trans h5
  clear_value s6
  have h7 : s7.kept = s.kept := by simp [s7, h6]
  clear_value s7
  exact (kept_foldl _ _ _ fun s a => by simp).trans h7
@[simp] theorem State.sendPeerIds_kept (s : State) : (State.sendPeerIds s).kept = s.kept := by
  simp [State.sendPeerIds, kept_foldl]
@[simp] theorem State.swap_kept (s : State) (new : Image) : (State.swap s new).kept = s.kept := by
  simp [State.swap]
@[simp] theorem execSwap_keeps (s : State) : Result.Keeps (execSwap s) s := by
  unfold execSwap; split <;> simp
@[simp] theorem execSwapEnd_keeps (s : State) : Result.Keeps (execSwapEnd s) s := by
  simp [execSwapEnd]
@[simp] theorem State.setClaimResult_kept (s : State) (who r : Nat) : (State.setClaimResult s who r).kept = s.kept := by
  simp [State.setClaimResult]
@[simp] theorem State.claim_kept (s : State) (who kind index : Nat) : (State.claim s who kind index).kept = s.kept := by
  simp [State.claim]
@[simp] theorem State.releaseClaim_kept (s : State) (who kind index : Nat) : (State.releaseClaim s who kind index).kept = s.kept := by
  simp [State.releaseClaim]
theorem State.byClaimant_kept (s : State) (a : Agent) (f : Nat → State) (h : ∀ w, (f w).kept = s.kept) :
    (State.byClaimant s a f).kept = s.kept := by
  unfold State.byClaimant
  split
  · exact h _
  · rfl
@[simp] theorem execClaim_keeps (a : Agent) (kind index : Nat) (s : State) : Result.Keeps (execClaim a kind index s) s := by
  unfold execClaim
  refine State.openWrite_keeps _ _ _ ?_
  exact State.byClaimant_kept _ _ _ fun w => by simp
@[simp] theorem execRelease_keeps (a : Agent) (kind index : Nat) (s : State) : Result.Keeps (execRelease a kind index s) s := by
  unfold execRelease
  refine State.openWrite_keeps _ _ _ ?_
  exact State.byClaimant_kept _ _ _ fun w => by simp

/-! ### Wings -/

@[simp] theorem State.wingReject_kept (s : State) : (State.wingReject s).kept = s.kept := by
  simp [State.wingReject]
@[simp] theorem State.lostPacket_kept (s : State) (p : Packet) : (State.lostPacket s p).kept = s.kept := by
  unfold State.lostPacket; dsimp only; (repeat' split) <;> simp
@[simp] theorem State.loseNet_kept (s : State) (w : Nat) : (State.loseNet s w).kept = s.kept := by
  simp [State.loseNet, kept_foldl]
@[simp] theorem State.loseStack_kept (s : State) (k : Nat) : (State.loseStack s k).kept = s.kept := by
  simp [State.loseStack]
@[simp] theorem State.loseWing_kept (s : State) (w : Nat) : (State.loseWing s w).kept = s.kept := by
  simp [State.loseWing, kept_foldl]
@[simp] theorem State.railOff_kept (s : State) (w state : Nat) : (State.railOff s w state).kept = s.kept := by
  unfold State.railOff; dsimp only; split <;> simp
@[simp] theorem State.wingOff_kept (s : State) (w : Nat) : (State.wingOff s w).kept = s.kept := by
  simp [State.wingOff]
@[simp] theorem execWingOff_keeps (a : Agent) (wing : Nat) (s : State) : Result.Keeps (execWingOff a wing s) s := by
  unfold execWingOff; (try dsimp only); refine State.devWrite_keeps _ _ _ _ ?_; (repeat' split) <;> simp
@[simp] theorem State.wingOn_kept (s : State) (w : Nat) : (State.wingOn s w).kept = s.kept := by
  simp [State.wingOn]
@[simp] theorem execWingOn_keeps (a : Agent) (wing : Nat) (s : State) : Result.Keeps (execWingOn a wing s) s := by
  unfold execWingOn; (try dsimp only); refine State.devWrite_keeps _ _ _ _ ?_; (repeat' split) <;> simp
@[simp] theorem State.setTokens_kept (s : State) (n : Nat) : (State.setTokens s n).kept = s.kept := by
  simp [State.setTokens]
@[simp] theorem State.rampStart_kept (s : State) (w : Nat) : (State.rampStart s w).kept = s.kept := by
  simp [State.rampStart]
@[simp] theorem execInrushGrant_keeps (s : State) : Result.Keeps (execInrushGrant s) s := by
  unfold execInrushGrant; split <;> simp
@[simp] theorem State.wingStarts_kept (s : State) (w : Nat) : (State.wingStarts s w).kept = s.kept := by
  simp [State.wingStarts]
@[simp] theorem execWingClockStart_keeps (w : Nat) (s : State) : Result.Keeps (execWingClockStart w s) s := by
  unfold execWingClockStart; split <;> simp
@[simp] theorem execInrushRelease_keeps (w : Nat) (s : State) : Result.Keeps (execInrushRelease w s) s := by
  unfold execInrushRelease; split <;> simp
@[simp] theorem State.withdrawStack_kept (s : State) (k : Nat) : (State.withdrawStack s k).kept = s.kept := by
  simp [State.withdrawStack]
@[simp] theorem State.startDead_kept (s : State) (t : Nat) : (State.startDead s t).kept = s.kept := by
  simp [State.startDead]
@[simp] theorem State.zeroStack_kept (s : State) (k : Nat) : (State.zeroStack s k).kept = s.kept := by
  unfold State.zeroStack; refine kept_foldl _ _ _ fun s a => ?_; (repeat' split) <;> simp [kept_foldl]
@[simp] theorem State.zeroStacks_kept (s : State) (ks : List Nat) : (State.zeroStacks s ks).kept = s.kept := by
  simp [State.zeroStacks, kept_foldl]
@[simp] theorem State.tested_kept (s : State) (t at_ : Nat) : (State.tested s t at_).kept = s.kept := by
  simp [State.tested]
@[simp] theorem State.railTrip_kept (s : State) (w amps mv : Nat) : (State.railTrip s w amps mv).kept = s.kept := by
  simp [State.railTrip, kept_foldl]
@[simp] theorem execRailTrip_keeps (wing amps mv : Nat) (s : State) : Result.Keeps (execRailTrip wing amps mv s) s := by
  simp [execRailTrip]
@[simp] theorem State.portOff_kept (s : State) (p : Nat) : (State.portOff s p).kept = s.kept := by
  simp [State.portOff]
@[simp] theorem State.stageOff_kept (s : State) : (State.stageOff s).kept = s.kept := by
  simp [State.stageOff, kept_foldl]
@[simp] theorem State.tripped_kept (s : State) : (State.tripped s).kept = s.kept := by
  simp [State.tripped]
@[simp] theorem State.linkNarrow_kept (s : State) : (State.linkNarrow s).kept = s.kept := by
  simp [State.linkNarrow]
@[simp] theorem execStageTrip_keeps (rail : Nat) (s : State) : Result.Keeps (execStageTrip rail s) s := by
  simp [execStageTrip]
@[simp] theorem execThermalTrip_keeps (wing sensor : Nat) (temp : Int) (s : State) : Result.Keeps (execThermalTrip wing sensor temp s) s := by
  simp [execThermalTrip]
@[simp] theorem State.timerAct_kept (s : State) (n : Nat) : (State.timerAct s n).kept = s.kept := by
  unfold State.timerAct; dsimp only; split <;> simp
@[simp] theorem State.timerFire_kept (s : State) (n : Nat) : (State.timerFire s n).kept = s.kept := by
  simp [State.timerFire]
@[simp] theorem State.timerArm_kept (s : State) (n : Nat) (hi : BitVec 32) : (State.timerArm s n hi).kept = s.kept := by
  simp [State.timerArm]
theorem State.timerWrite_kept (s : State) (a : Agent) (n : Nat) (u : State) (h : u.kept = s.kept) :
    (State.timerWrite s a n u).kept = s.kept := by
  simp [State.timerWrite, h]
@[simp] theorem execTimerArm_keeps (a : Agent) (timer : Nat) (hi : BitVec 32) (s : State) : Result.Keeps (execTimerArm a timer hi s) s := by
  unfold execTimerArm
  refine State.openWrite_keeps _ _ _ ?_
  split
  · exact State.timerWrite_kept _ _ _ _ (by simp)
  · rfl
@[simp] theorem execTimerFire_keeps (timer : Nat) (s : State) : Result.Keeps (execTimerFire timer s) s := by
  simp [execTimerFire]

/-! ### Stages -/

@[simp] theorem State.bootFirmware_kept (s : State) : (State.bootFirmware s).kept = s.kept := by
  unfold State.bootFirmware; split <;> simp [kept_foldl]
@[simp] theorem execFwAliveTimeout_keeps (s : State) : Result.Keeps (execFwAliveTimeout s) s := by
  simp [execFwAliveTimeout]
@[simp] theorem State.moduleReset_kept (s : State) : (State.moduleReset s).kept = s.kept := by
  simp [State.moduleReset]
@[simp] theorem execModReset_keeps (lowNs : Nat) (s : State) : Result.Keeps (execModReset lowNs s) s := by
  simp [execModReset]
@[simp] theorem execModuleResetCommand_keeps (a : Agent) (s : State) : Result.Keeps (execModuleResetCommand a s) s := by
  unfold execModuleResetCommand; (try dsimp only); refine State.devWrite_keeps _ _ _ _ ?_; (repeat' split) <;> simp
@[simp] theorem execVaux5Loss_keeps (s : State) : Result.Keeps (execVaux5Loss s) s := by
  simp [execVaux5Loss]
@[simp] theorem execVaux5Apply_keeps (s : State) : Result.Keeps (execVaux5Apply s) s := by
  simp [execVaux5Apply]
@[simp] theorem execVin48Change_keeps (applied : Bool) (s : State) : Result.Keeps (execVin48Change applied s) s := by
  simp [execVin48Change]
@[simp] theorem State.restart_kept (s : State) : (State.restart s).kept = s.kept := by
  simp [State.restart, kept_foldl]
@[simp] theorem execCuratorRestart_keeps (a : Agent) (s : State) : Result.Keeps (execCuratorRestart a s) s := by
  unfold execCuratorRestart; (try dsimp only); refine State.devWrite_keeps _ _ _ _ ?_; (repeat' split) <;> simp
@[simp] theorem execWatchdogRestart_keeps (idleMs : Nat) (s : State) : Result.Keeps (execWatchdogRestart idleMs s) s := by
  simp [execWatchdogRestart]
@[simp] theorem State.startTables_kept (s : State) : (State.startTables s).kept = s.kept := by
  unfold State.startTables; split <;> simp [kept_foldl]
@[simp] theorem State.wingAtStart_kept (s : State) (w : Nat) : (State.wingAtStart s w).kept = s.kept := by
  simp [State.wingAtStart]
@[simp] theorem State.noteSpares_kept (s : State) (w : Nat) : (State.noteSpares s w).kept = s.kept := by
  unfold State.noteSpares; dsimp only; split <;> simp
@[simp] theorem State.seamFails_kept (s : State) (i : Nat) : (State.seamFails s i).kept = s.kept := by
  simp [State.seamFails]
@[simp] theorem State.bootS1_kept (s : State) : (State.bootS1 s).kept = s.kept := by
  unfold State.bootS1; dsimp only; split <;> simp
@[simp] theorem State.wingsS1_kept (s : State) (deadWings : List (Nat × Nat × Nat)) : (State.wingsS1 s deadWings).kept = s.kept := by
  unfold State.wingsS1; refine kept_foldl _ _ _ fun s a => ?_; (repeat' split) <;> simp [kept_foldl]
@[simp] theorem State.seamsS1_kept (s : State) (wires : List (Nat × Nat × Nat × Nat)) (cold : Bool) :
    (State.seamsS1 s wires cold).kept = s.kept := by
  simp [State.seamsS1, kept_foldl]
@[simp] theorem State.stageS1_kept (s : State) (deadWings : List (Nat × Nat × Nat)) (wires : List (Nat × Nat × Nat × Nat))
    (deadRouters : List Nat) : (State.stageS1 s deadWings wires deadRouters).kept = s.kept := by
  unfold State.stageS1
  extract_lets cold s1 s2 s3
  have h1 : s1.kept = s.kept := by simp [s1]
  clear_value s1
  have h2 : s2.kept = s.kept := (kept_foldl _ _ _ fun s a => by simp).trans h1
  clear_value s2
  have h3 : s3.kept = s.kept := by simp [s3, h2]
  clear_value s3
  split
  · exact h3
  · simp [h3]
@[simp] theorem execStageS1_keeps (deadWings : List (Nat × Nat × Nat)) (wires : List (Nat × Nat × Nat × Nat)) (deadRouters : List Nat) (s : State) : Result.Keeps (execStageS1 deadWings wires deadRouters s) s := by
  simp [execStageS1]
@[simp] theorem State.retireRow_kept (s : State) (e origin : Nat) : (State.retireRow s e origin).kept = s.kept := by
  simp [State.retireRow]
@[simp] theorem State.retireBanks_kept (s : State) : (State.retireBanks s).kept = s.kept := by
  unfold State.retireBanks; refine kept_foldl _ _ _ fun s a => ?_; (repeat' split) <;> simp [kept_foldl]
@[simp] theorem State.stackAtStart_kept (s : State) (k : Nat) (dies : List Nat) : (State.stackAtStart s k dies).kept = s.kept := by
  simp [State.stackAtStart]
@[simp] theorem State.softRepair_kept (s : State) (t n : Nat) (full : Bool) : (State.softRepair s t n full).kept = s.kept := by
  unfold State.softRepair; dsimp only; split <;> simp
@[simp] theorem State.stageS2_kept (s : State) (deadSites withdrawn : List Nat) (repairs : List (Nat × Nat × Bool)) (retired : List (BitVec 64)) (failedDies : List (Nat × Nat)) : (State.stageS2 s deadSites withdrawn repairs retired failedDies).kept = s.kept := by
  simp [State.stageS2, kept_foldl]
@[simp] theorem execStageS2_keeps (sites : List Nat × List (Nat × Nat × Bool)) (withdrawn : List Nat) (retired : List (BitVec 64)) (failedDies : List (Nat × Nat)) (s : State) : Result.Keeps (execStageS2 sites withdrawn retired failedDies s) s := by
  simp [execStageS2]
@[simp] theorem State.modPort_kept (s : State) (p : Nat) (f : Port → Port) : (State.modPort s p f).kept = s.kept := by
  simp [State.modPort]
@[simp] theorem State.setPortState_kept (s : State) (p v : Nat) : (State.setPortState s p v).kept = s.kept := by
  simp [State.setPortState]
@[simp] theorem execStageS3_keeps (s : State) : Result.Keeps (execStageS3 s) s := by
  unfold execStageS3; dsimp only; (repeat' split) <;> simp [kept_foldl]
@[simp] theorem State.publishPort_kept (s : State) (p origin : Nat) : (State.publishPort s p origin).kept = s.kept := by
  unfold State.publishPort; dsimp only; split <;> simp
@[simp] theorem State.portsAtStart_kept (s : State) : (State.portsAtStart s).kept = s.kept := by
  simp [State.portsAtStart, kept_foldl]
@[simp] theorem State.useSpare_kept (s : State) (t origin : Nat) : (State.useSpare s t origin).kept = s.kept := by
  simp [State.useSpare]
@[simp] theorem State.testWingLinks_kept (s : State) (w : Nat) (wires : List (Nat × Nat × Nat × Nat)) :
    (State.testWingLinks s w wires).kept = s.kept := by
  simp [State.testWingLinks, kept_foldl]
@[simp] theorem execWingPowerUpDone_keeps (w : Nat) (sites : List Nat × List Nat) (others : List Nat × List (Nat × Nat × Nat × Nat)) (bist : Nat) (s : State) : Result.Keeps (execWingPowerUpDone w sites others bist s) s := by
  unfold execWingPowerUpDone; dsimp only; (repeat' split) <;> simp [kept_foldl]
@[simp] theorem State.stageS4_kept (s : State) (repaired deadSites crcDead : List Nat) :
    (State.stageS4 s repaired deadSites crcDead).kept = s.kept := by
  simp [State.stageS4, kept_foldl]
@[simp] theorem execStageS4_keeps (repaired deadSites crcDead : List Nat) (s : State) :
    Result.Keeps (execStageS4 repaired deadSites crcDead s) s := by
  simp [execStageS4]
@[simp] theorem State.startDone_kept (s : State) : (State.startDone s).kept = s.kept := by
  simp [State.startDone]
@[simp] theorem execStageS5_keeps (s : State) : Result.Keeps (execStageS5 s) s := by
  unfold execStageS5; split <;> simp
@[simp] theorem execHoursSinceColdTick_keeps (s : State) : Result.Keeps (execHoursSinceColdTick s) s := by
  simp [execHoursSinceColdTick]

/-! ### Ift -/

@[simp] theorem State.setIft_kept (s : State) (t v : Nat) : (State.setIft s t v).kept = s.kept := by
  simp [State.setIft]
@[simp] theorem execIftDue_keeps (tile : Nat) (s : State) : Result.Keeps (execIftDue tile s) s := by
  simp [execIftDue]
@[simp] theorem execIftOverdue_keeps (tile : Nat) (s : State) : Result.Keeps (execIftOverdue tile s) s := by
  simp [execIftOverdue]
@[simp] theorem State.grant_kept (s : State) (p ms : Nat) : (State.grant s p ms).kept = s.kept := by
  simp [State.grant]
@[simp] theorem execIftGrant_keeps (a : Agent) (p n : Nat) (s : State) : Result.Keeps (execIftGrant a p n s) s := by
  unfold execIftGrant
  dsimp only
  split
  · refine State.openWrite_keeps _ _ _ ?_; split <;> simp
  · exact State.devWrite_keeps _ _ _ _ (by split <;> simp)
  · exact State.devWrite_keeps _ _ _ _ (by simp)
@[simp] theorem State.flushL1_kept (s : State) (t : Nat) : (State.flushL1 s t).kept = s.kept := by
  simp [State.flushL1, kept_foldl]
@[simp] theorem State.testBegin_kept (s : State) (t : Nat) : (State.testBegin s t).kept = s.kept := by
  simp [State.testBegin]
@[simp] theorem execIftStart_keeps (tile : Nat) (s : State) : Result.Keeps (execIftStart tile s) s := by
  simp [execIftStart]
@[simp] theorem State.testOver_kept (s : State) (t : Nat) : (State.testOver s t).kept = s.kept := by
  simp [State.testOver]
@[simp] theorem State.testFails_kept (s : State) (t : Nat) : (State.testFails s t).kept = s.kept := by
  unfold State.testFails; dsimp only; split <;> simp
@[simp] theorem execIftEnd_keeps (tile outcome : Nat) (s : State) : Result.Keeps (execIftEnd tile outcome s) s := by
  unfold execIftEnd; dsimp only; (repeat' split) <;> simp [kept_foldl]
@[simp] theorem execCnPoll_keeps (tile : Nat) (s : State) : Result.Keeps (execCnPoll tile s) s := by
  simp [execCnPoll]
@[simp] theorem State.cnLost_kept (s : State) (t : Nat) : (State.cnLost s t).kept = s.kept := by
  unfold State.cnLost; dsimp only; split <;> simp
@[simp] theorem execCnPollTimeout_keeps (tile : Nat) (s : State) : Result.Keeps (execCnPollTimeout tile s) s := by
  unfold execCnPollTimeout; split <;> simp

/-! ### Links -/

@[simp] theorem State.sendFrame_kept (s : State) (p kind seq first : Nat) (body : List (BitVec 8)) :
    (State.sendFrame s p kind seq first body).kept = s.kept := by
  simp [State.sendFrame]
@[simp] theorem State.sendNumbered_kept (s : State) (p kind first : Nat) (body : List (BitVec 8)) :
    (State.sendNumbered s p kind first body).kept = s.kept := by
  simp [State.sendNumbered]
@[simp] theorem State.takePacket_kept (s : State) (p : Nat) (k : Packet) : (State.takePacket s p k).kept = s.kept := by
  simp [State.takePacket]
@[simp] theorem State.fillBody_kept (s : State) (p seq fuel : Nat) (body : List (BitVec 8)) (first : Nat) :
    (State.fillBody s p seq fuel body first).1.kept = s.kept := by
  induction fuel generalizing s body first with
  | zero => rfl
  | succ n ih =>
    unfold State.fillBody
    dsimp only
    split
    · rfl
    · split
      · rw [ih]; simp
      · split
        · rfl
        · split
          · rw [ih]; simp
          · rfl
@[simp] theorem State.sendCtrlFrame_kept (s : State) (p : Nat) (e : Nat × CtrlFrame) : (State.sendCtrlFrame s p e).kept = s.kept := by
  simp [State.sendCtrlFrame]
@[simp] theorem State.retrain_kept (s : State) (p : Nat) : (State.retrain s p).kept = s.kept := by
  simp [State.retrain]
@[simp] theorem State.replayOne_kept (s : State) (p seq : Nat) : (State.replayOne s p seq).kept = s.kept := by
  unfold State.replayOne; dsimp only; split <;> simp
@[simp] theorem State.sendIdle_kept (s : State) (p : Nat) : (State.sendIdle s p).kept = s.kept := by
  simp [State.sendIdle]
@[simp] theorem State.portTick_kept (s : State) (p : Nat) : (State.portTick s p).kept = s.kept := by
  unfold State.portTick; dsimp only; (repeat' split) <;> simp
@[simp] theorem State.discardPacket_kept (s : State) (k : Packet) : (State.discardPacket s k).kept = s.kept := by
  simp [State.discardPacket]
@[simp] theorem State.portDown_kept (s : State) (p reason new : Nat) : (State.portDown s p reason new).kept = s.kept := by
  unfold State.portDown
  extract_lets was q ks s1 s2 st s3 s4 p0 s5 s6
  have h5 : s5.kept = s.kept := by simp [s5, s4, s3, s2, s1]
  clear_value s5
  have h6 : s6.kept = s.kept := (kept_foldl _ _ _ fun s a => by simp).trans h5
  clear_value s6
  split <;> simp [h6]
@[simp] theorem State.trainBegin_kept (s : State) (p : Nat) : (State.trainBegin s p).kept = s.kept := by
  simp [State.trainBegin]
@[simp] theorem State.trainFails_kept (s : State) (p reason : Nat) (counted : Bool) : (State.trainFails s p reason counted).kept = s.kept := by
  simp [State.trainFails]
@[simp] theorem execPortTraining_keeps (port : Nat) (s : State) : Result.Keeps (execPortTraining port s) s := by
  simp [execPortTraining]
@[simp] theorem execTrainingRetry_keeps (port : Nat) (s : State) : Result.Keeps (execTrainingRetry port s) s := by
  simp [execTrainingRetry]
@[simp] theorem State.laneTest_kept (s : State) (p lanes : Nat) : (State.laneTest s p lanes).kept = s.kept := by
  simp [State.laneTest]
@[simp] theorem execTrainingStepTimeout_keeps (port step : Nat) (found : Nat × Bool) (s : State) :
    Result.Keeps (execTrainingStepTimeout port step found s) s := by
  unfold execTrainingStepTimeout; split <;> simp
@[simp] theorem State.portIsUp_kept (s : State) (p : Nat) (r : Peer) (version width : Nat) :
    (State.portIsUp s p r version width).kept = s.kept := by
  simp [State.portIsUp]
@[simp] theorem execPortUp_keeps (port : Nat) (lanes maxWidth low high serial : Nat) (enc auth : Bool) (s : State) :
    Result.Keeps (execPortUp port lanes maxWidth low high serial enc auth s) s := by
  unfold execPortUp; dsimp only; (repeat' split) <;> simp [kept_foldl]
@[simp] theorem execPortStatePublish_keeps (port : Nat) (s : State) : Result.Keeps (execPortStatePublish port s) s := by
  unfold execPortStatePublish; split <;> simp
@[simp] theorem State.acked_kept (s : State) (p ack : Nat) : (State.acked s p ack).kept = s.kept := by
  simp [State.acked]
@[simp] theorem State.credited_kept (s : State) (p header : Nat) : (State.credited s p header).kept = s.kept := by
  simp [State.credited]
@[simp] theorem State.replayAll_kept (s : State) (p : Nat) : (State.replayAll s p).kept = s.kept := by
  simp [State.replayAll]
@[simp] theorem State.discardFrame_kept (s : State) (p : Nat) : (State.discardFrame s p).kept = s.kept := by
  simp [State.discardFrame]
@[simp] theorem State.ingress_kept (s : State) (p : Nat) (k : Packet) : (State.ingress s p k).kept = s.kept := by
  unfold State.ingress; dsimp only; (repeat' split) <;> simp
@[simp] theorem State.takeData_kept (s : State) (p first : Nat) (body : List (BitVec 8)) : (State.takeData s p first body).kept = s.kept := by
  simp [State.takeData, kept_foldl]
@[simp] theorem State.peerId_kept (s : State) (p deviceId : Nat) (valid : Bool) : (State.peerId s p deviceId valid).kept = s.kept := by
  simp [State.peerId]
@[simp] theorem State.takeCtrl_kept (s : State) (p : Nat) (b : List (BitVec 8)) : (State.takeCtrl s p b).kept = s.kept := by
  unfold State.takeCtrl; split <;> simp [kept_foldl]
@[simp] theorem State.takeTime_kept (s : State) (p : Nat) (b : List (BitVec 8)) : (State.takeTime s p b).kept = s.kept := by
  unfold State.takeTime; split <;> simp [kept_foldl]
@[simp] theorem State.tagFails_kept (s : State) (p : Nat) : (State.tagFails s p).kept = s.kept := by
  simp [State.tagFails]
@[simp] theorem State.takeFrame_kept (s : State) (p header : Nat) (body : List (BitVec 8)) :
    (State.takeFrame s p header body).kept = s.kept := by
  unfold State.takeFrame
  dsimp only
  split
  · simp
  · split <;> simp
@[simp] theorem execFrameReceive_keeps (port : Nat) (frame plain : List (BitVec 8)) (tagOk : Bool) (corr uncorr : Nat) (s : State) :
    Result.Keeps (execFrameReceive port frame plain tagOk corr uncorr s) s := by
  simp [execFrameReceive]
@[simp] theorem execNak_keeps (port ack : Nat) (s : State) : Result.Keeps (execNak port ack s) s := by
  simp [execNak]
@[simp] theorem execAckTimeout_keeps (port : Nat) (s : State) : Result.Keeps (execAckTimeout port s) s := by
  simp [execAckTimeout]
@[simp] theorem execPortDown_keeps (port : Nat) (s : State) : Result.Keeps (execPortDown port s) s := by
  simp [execPortDown]
@[simp] theorem execKeyEpochAdvance_keeps (port : Nat) (s : State) : Result.Keeps (execKeyEpochAdvance port s) s := by
  simp [execKeyEpochAdvance]
@[simp] theorem execPeerId_keeps (port deviceId : Nat) (valid : Bool) (s : State) : Result.Keeps (execPeerId port deviceId valid s) s := by
  simp [execPeerId]
@[simp] theorem execPeerIdReq_keeps (port : Nat) (s : State) : Result.Keeps (execPeerIdReq port s) s := by
  simp [execPeerIdReq]
@[simp] theorem State.portReject_kept (s : State) (p : Nat) : (State.portReject s p).kept = s.kept := by
  simp [State.portReject]
@[simp] theorem execRetrain_keeps (a : Agent) (port : Nat) (s : State) : Result.Keeps (execRetrain a port s) s := by
  unfold execRetrain; dsimp only; refine State.devWrite_keeps _ _ _ _ ?_; (repeat' split) <;> simp
@[simp] theorem execDisable_keeps (a : Agent) (port : Nat) (s : State) : Result.Keeps (execDisable a port s) s := by
  unfold execDisable; dsimp only; refine State.devWrite_keeps _ _ _ _ ?_; (repeat' split) <;> simp
@[simp] theorem execEnable_keeps (a : Agent) (port : Nat) (s : State) : Result.Keeps (execEnable a port s) s := by
  unfold execEnable; dsimp only; refine State.devWrite_keeps _ _ _ _ ?_; (repeat' split) <;> simp
@[simp] theorem State.portsTick_kept (s : State) : (State.portsTick s).kept = s.kept := by
  simp [State.portsTick, kept_foldl]

/-! ### Router -/

@[simp] theorem State.setBuf_kept (s : State) (k : Nat) (b : InBuf) : (State.setBuf s k b).kept = s.kept := by
  simp [State.setBuf]
@[simp] theorem State.arriveFlit_kept (s : State) (r port : Nat) (f : Nat × Nat) : (State.arriveFlit s r port f).kept = s.kept := by
  unfold State.arriveFlit; dsimp only; split <;> simp
@[simp] theorem State.fillInput_kept (s : State) (r port v n : Nat) : (State.fillInput s r port v n).kept = s.kept := by
  induction n generalizing s with
  | zero => rfl
  | succ n ih =>
    unfold State.fillInput
    split
    · rfl
    · split
      · rw [ih]; simp
      · rfl
@[simp] theorem State.fillInputs_kept (s : State) (r : Nat) : (State.fillInputs s r).kept = s.kept := by
  simp [State.fillInputs]
@[simp] theorem State.takeFlit_kept (s : State) (k : Nat) : (State.takeFlit s k).kept = s.kept := by
  unfold State.takeFlit; dsimp only; split <;> simp
@[simp] theorem State.arriveOut_kept (s : State) (r : Nat) (p : Packet) (flit : Nat) : (State.arriveOut s r p flit).kept = s.kept := by
  unfold State.arriveOut; dsimp only; split <;> simp
@[simp] theorem State.sendFlit_kept (s : State) (r o v i : Nat) (p : Packet) (flit : Nat) : (State.sendFlit s r o v i p flit).kept = s.kept := by
  unfold State.sendFlit; dsimp only; (repeat' split) <;> simp
@[simp] theorem State.flitCorrected_kept (s : State) (t : Nat) : (State.flitCorrected s t).kept = s.kept := by
  simp [State.flitCorrected]
@[simp] theorem State.flitUncorr_kept (s : State) (p : Packet) (t port : Nat) (header : Bool) :
    (State.flitUncorr s p t port header).kept = s.kept := by
  simp [State.flitUncorr]
@[simp] theorem State.outputSends_kept (s : State) (r o flit : Nat) : (State.outputSends s r o flit).kept = s.kept := by
  unfold State.outputSends; (repeat' split) <;> simp [kept_foldl]
@[simp] theorem execRouterHop_keeps (router out flit : Nat) (s : State) : Result.Keeps (execRouterHop router out flit s) s := by
  unfold execRouterHop
  exact (State.when_keeps _ _ _).2 fun _ => by simp
@[simp] theorem State.readSeam_kept (s : State) (k : Nat) : (State.readSeam s k).kept = s.kept := by
  unfold State.readSeam; dsimp only; (repeat' split) <;> simp
@[simp] theorem State.netStall_kept (s : State) (t port vc : Nat) : (State.netStall s t port vc).kept = s.kept := by
  simp [State.netStall]
theorem State.packetStall_kept (s : State) (t port vc : Nat) (u : State) (h : s.packetStall t port vc = some u) : u.kept = s.kept := by
  unfold State.packetStall at h
  dsimp only at h
  split at h
  · injection h with h; subst h; simp
  · split at h
    · injection h with h; subst h; simp
    · split at h
      · injection h with h; subst h; simp
      · cases h
@[simp] theorem execNetStall_keeps (t port vc : Nat) (s : State) : Result.Keeps (execNetStall t port vc s) s := by
  unfold execNetStall
  split
  · split <;> simp
  · split
    · rename_i u h
      simp [State.packetStall_kept _ _ _ _ _ h]
    · simp

/-! ### Tile -/

@[simp] theorem State.accessPiece_kept (s : State) (t id : Nat) (status : Nat) (words : List (Nat × BitVec 32)) :
    (State.accessPiece s t id status words).kept = s.kept := by
  simp [State.accessPiece]
@[simp] theorem State.engineClosed_kept (s : State) (t status : Nat) (i : Option EngInstr) :
    (State.engineClosed s t status i).kept = s.kept := by
  unfold State.engineClosed; split <;> simp [kept_foldl]
@[simp] theorem State.addWrite_kept (s : State) (t id piece : Nat) (f : VitFly) : (State.addWrite s t id piece f).kept = s.kept := by
  unfold State.addWrite; split <;> simp [kept_foldl]
@[simp] theorem State.deliver_kept (s : State) (t : Nat) (f : VitFly) : (State.deliver s t f).kept = s.kept := by
  unfold State.deliver; (repeat' split) <;> simp [kept_foldl]
@[simp] theorem State.deliverDue_kept (s : State) (t : Nat) : (State.deliverDue s t).kept = s.kept := by
  simp [State.deliverDue, kept_foldl]
@[simp] theorem State.deliverOne_kept (s : State) (t : Nat) (f : VitFly) : (State.deliverOne s t f).kept = s.kept := by
  simp [State.deliverOne]
@[simp] theorem execVitAccessComplete_keeps (t : Nat) (s : State) : Result.Keeps (execVitAccessComplete t s) s := by
  unfold execVitAccessComplete; split <;> simp
@[simp] theorem execVscatterAddWrite_keeps (t : Nat) (s : State) : Result.Keeps (execVscatterAddWrite t s) s := by
  unfold execVscatterAddWrite; split <;> simp
@[simp] theorem State.tileCycle_kept (s : State) (t : Nat) : (State.tileCycle s t).kept = s.kept := by
  simp [State.tileCycle]
@[simp] theorem State.siteCycle_kept (s : State) (t : Nat) : (State.siteCycle s t).kept = s.kept := by
  unfold State.siteCycle; split <;> simp [kept_foldl]
@[simp] theorem State.wingCycle_kept (s : State) (w : Nat) : (State.wingCycle s w).kept = s.kept := by
  simp [State.wingCycle, kept_foldl]
@[simp] theorem State.wingTick_kept (s : State) (w : Nat) : (State.wingTick s w).kept = s.kept := by
  simp [State.wingTick, kept_foldl]
@[simp] theorem State.tick_kept (s : State) : (State.tick s).kept = s.kept := by
  simp [State.tick, kept_foldl]

end Sys2Proof.Machine
end

