-- ==== Sys2Proof/Laws/KeptCores.lean ====
section
/-! SUPPORT. What no operation touches, for the operations of cores, the host interface, debug and the tick: each keeps the queue and the fuses. -/

set_option linter.all false
set_option maxHeartbeats 400000

namespace Sys2Proof.Machine

/-! ### Issue -/

/-- The state that an instruction's work leaves. -/
def Ran.state : Ran → State
  | .next s => s
  | .wait s => s
  | .jump s _ => s
  | .stay s => s
  | .exc s _ _ => s
@[simp] theorem State.setS_kept (s : State) (t c r : Nat) (v : BitVec 64) : (State.setS s t c r v).kept = s.kept := by
  simp [State.setS]
@[simp] theorem State.trap_kept (s : State) (t c kind code pc val : Nat) : (State.trap s t c kind code pc val).kept = s.kept := by
  simp [State.trap]
@[simp] theorem State.toFault_kept (s : State) (t c cause pc val : Nat) : (State.toFault s t c cause pc val).kept = s.kept := by
  simp [State.toFault]
@[simp] theorem State.takeException_kept (s : State) (t c cause pc val : Nat) : (State.takeException s t c cause pc val).kept = s.kept := by
  simp [State.takeException]
@[simp] theorem State.trapReturn_kept (s : State) (t c : Nat) : (State.trapReturn s t c).kept = s.kept := by
  simp [State.trapReturn]
@[simp] theorem State.codeLine_kept (s : State) (t c pa : Nat) : (State.codeLine s t c pa).2.kept = s.kept := by
  unfold State.codeLine; dsimp only; (repeat' split) <;> simp
@[simp] theorem State.askFetch_kept (s : State) (t c b : Nat) : (State.askFetch s t c b).kept = s.kept := by
  unfold State.askFetch; dsimp only; (repeat' split) <;> simp
@[simp] theorem State.uncachedWord_kept (s : State) (t c va pa : Nat) : (State.uncachedWord s t c va pa).2.kept = s.kept := by
  have hc : ∀ (b : Bool) (x y : State), x.kept = s.kept → y.kept = s.kept → (if b then x else y).kept = s.kept := fun b x y hx hy => by
    cases b
    · exact hy
    · exact hx
  unfold State.uncachedWord
  dsimp only
  split
  · simp
  · rfl
  · split
    · exact hc _ _ _ (by simp) (by simp)
    · exact hc _ _ _ (by simp) (by simp)
    · split <;> simp
    · simp
    · simp
/-- A fetch keeps what the state held. -/
def FetchRes.Keeps (r : FetchRes) (s : State) : Prop :=
  match r with
  | .word _ u => u.kept = s.kept
  | .exc _ _ u => u.kept = s.kept
  | .wait u => u.kept = s.kept
  | .other => True

@[simp] theorem keeps_word (w : Nat) (u s : State) : (FetchRes.word w u).Keeps s ↔ u.kept = s.kept := Iff.rfl
@[simp] theorem keeps_exc (a b : Nat) (u s : State) : (FetchRes.exc a b u).Keeps s ↔ u.kept = s.kept := Iff.rfl
@[simp] theorem keeps_wait (u s : State) : (FetchRes.wait u).Keeps s ↔ u.kept = s.kept := Iff.rfl
@[simp] theorem keeps_other (s : State) : FetchRes.other.Keeps s := trivial

theorem State.cachedWord_keeps (s : State) (t c va pa : Nat) (ecc parity : Bool) : (s.cachedWord t c va pa ecc parity).Keeps s := by
  unfold State.cachedWord
  extract_lets a held s1 hit s2 r
  have h1 : s1.kept = s.kept := by simp only [s1]; split <;> simp
  clear_value s1 hit
  have h2 : s2.kept = s.kept := by simp only [s2]; split <;> simp [h1]
  have hr : r.2.kept = s.kept := by simp [r, h2]
  clear_value r s2
  split
  · simp [h2]
  · split
    · simp [hr]
    · simp [hr]

theorem State.fetchScalar_keeps (s : State) (t c va : Nat) (ecc parity : Bool) : (s.fetchScalar t c va ecc parity).Keeps s := by
  unfold State.fetchScalar
  extract_lets x s1
  have h1 : s1.kept = s.kept := by simp [s1, x]
  clear_value s1
  split
  · simp [h1]
  · simp [h1]
  · rename_i pa cache _
    extract_lets cached r
    have hr : r.2.kept = s.kept := by simp [r, h1]
    clear_value cached r
    split
    · simp [h1]
    · split
      · have h := State.cachedWord_keeps s1 t c va pa ecc parity
        cases e : s1.cachedWord t c va pa ecc parity <;> rw [e] at h <;> first | exact Eq.trans h h1 | trivial
      · split
        · simp [hr]
        · simp [hr]

theorem State.fetchStore_keeps (s : State) (t pc : Nat) (ecc : Bool) : (s.fetchStore t pc ecc).Keeps s := by
  unfold State.fetchStore
  (repeat' split) <;> simp

theorem State.fetch_keeps (s : State) (t c : Nat) (f : Fetched) : (s.fetch t c f).Keeps s := by
  unfold State.fetch
  extract_lets pc eccAt parityAt one
  have ho : ∀ s a o, (one s a o).Keeps s := fun s a o => by
    simp only [one]
    split
    · exact State.fetchScalar_keeps _ _ _ _ _ _
    · exact State.fetchStore_keeps _ _ _ _
  clear_value one
  have h0 := ho s pc 0
  split
  · rfl
  · cases e : one s pc 0 with
    | exc a b u => rw [e] at h0; exact h0
    | wait u => rw [e] at h0; exact h0
    | other => trivial
    | word lo s1 =>
      rw [e] at h0
      have h4 := ho s1 ((pc + 4) % 2 ^ 64) 4
      dsimp only
      rename_i whole _
      have hwh : ∀ n u, u.kept = s.kept → (whole n u).Keeps s := fun n u h => by
        cases f with
        | ecc k => trivial
        | word w =>
          simp only [whole]
          split
          · exact h
          · trivial
        | refetched k w =>
          simp only [whole]
          split
          · exact h
          · trivial
      clear_value whole
      split
      · exact hwh _ _ h0
      · cases e4 : one s1 ((pc + 4) % 2 ^ 64) 4 with
        | exc a b u => rw [e4] at h4; exact Eq.trans h4 h0
        | wait u => rw [e4] at h4; exact Eq.trans h4 h0
        | other => trivial
        | word hi s2 => rw [e4] at h4; exact hwh _ _ (Eq.trans h4 h0)

theorem State.runWord_kept (s : State) (t c : Nat) (op : CoreOp) (n : Nat) (hop : ∀ s t c n, (op.run s t c n).state.kept = s.kept)
    (u : State) (h : s.runWord t c op n = some u) : u.kept = s.kept := by
  have hr := hop s t c n
  unfold State.runWord at h
  dsimp only at h
  split at h
  · injection h with h; subst h; simp
  · split at h
    · cases h
    · split at h
      · injection h with h; subst h; simp
      · split at h
        · cases h
        · split at h <;> rename_i ho <;> rw [ho] at hr <;> simp only [Ran.state] at hr <;>
            first | (injection h with h; subst h; simp [hr]; done) | cases h
theorem State.askWord_kept (s : State) (t c : Nat) (op : CoreOp) (n : Nat) (hop : ∀ s t c n, (op.run s t c n).state.kept = s.kept)
    (u : State) (h : s.askWord t c op n = some u) : u.kept = s.kept := by
  have hr := hop s t c n
  unfold State.askWord at h
  dsimp only at h
  split at h
  · cases h
  · split at h <;> rename_i ho <;> first | (rw [ho] at hr; injection h with h; subst h; exact hr) | cases h
theorem State.issue_keeps (s : State) (t c : Nat) (f : Fetched) (op : CoreOp) (hop : ∀ s t c n, (op.run s t c n).state.kept = s.kept) :
    Result.Keeps (State.issue s t c f op) s := by
  have h1 : (s.settle t c).kept = s.kept := by simp
  have h2 := State.fetch_keeps (s.settle t c) t c f
  unfold State.issue
  dsimp only
  split
  · simp
  · cases e : (s.settle t c).fetch t c f with
    | other => simp
    | wait u => rw [e, keeps_wait] at h2; simp [h2]
    | exc a b u => rw [e, keeps_exc] at h2; simp [h2]
    | word n u =>
      rw [e, keeps_word] at h2
      dsimp only
      cases e3 : u.runWord t c op n with
      | none => exact (keeps_next _ _).2 (kept_getD _ _ _ (fun v hv => (State.askWord_kept _ _ _ _ _ hop v hv).trans (h2.trans h1)) rfl)
      | some v => simp [State.runWord_kept _ _ _ _ _ hop _ e3, h2]
@[simp] theorem execCoreFaulted_keeps (t c : Nat) (s : State) : Result.Keeps (execCoreFaulted t c s) s := by
  unfold execCoreFaulted; split <;> simp
@[simp] theorem execCoreStopped_keeps (t c : Nat) (s : State) : Result.Keeps (execCoreStopped t c s) s := by
  simp [execCoreStopped]
@[simp] theorem execInterruptTaken_keeps (t c : Nat) (s : State) : Result.Keeps (execInterruptTaken t c s) s := by
  simp [execInterruptTaken]
@[simp] theorem execSvTimerExpiry_keeps (t c : Nat) (s : State) : Result.Keeps (execSvTimerExpiry t c s) s := by
  simp [execSvTimerExpiry]
@[simp] theorem execWfeTimeout_keeps (t c : Nat) (s : State) : Result.Keeps (execWfeTimeout t c s) s := by
  simp [execWfeTimeout]

/-! ### Scalar -/

@[simp] theorem writesD_kept (group : Nat) (value : Core → Nat → BitVec 64) (s : State) (t c n : Nat) :
    ((writesD group value).run s t c n).state.kept = s.kept := by
  simp [writesD, writesD, Ran.state]
@[simp] theorem aluOp_kept  (s : State) (t c n : Nat) : ((aluOp ).run s t c n).state.kept = s.kept := by
  simp [aluOp, writesD, Ran.state]
@[simp] theorem execAluRegisterOp_keeps (t c : Nat) (f : Fetched) (s : State) : Result.Keeps (execAluRegisterOp t c f s) s := by
  unfold execAluRegisterOp; exact State.issue_keeps _ _ _ _ _ fun s t c n => by simp
@[simp] theorem immOp_kept  (s : State) (t c n : Nat) : ((immOp ).run s t c n).state.kept = s.kept := by
  simp [immOp, writesD, Ran.state]
@[simp] theorem execImmediateOp_keeps (t c : Nat) (f : Fetched) (s : State) : Result.Keeps (execImmediateOp t c f s) s := by
  unfold execImmediateOp; exact State.issue_keeps _ _ _ _ _ fun s t c n => by simp
@[simp] theorem liOp_kept  (s : State) (t c n : Nat) : ((liOp ).run s t c n).state.kept = s.kept := by
  simp [liOp, writesD, Ran.state]
@[simp] theorem execLi_keeps (t c : Nat) (f : Fetched) (s : State) : Result.Keeps (execLi t c f s) s := by
  unfold execLi; exact State.issue_keeps _ _ _ _ _ fun s t c n => by simp
@[simp] theorem mulDivOp_kept  (s : State) (t c n : Nat) : ((mulDivOp ).run s t c n).state.kept = s.kept := by
  simp [mulDivOp, writesD, Ran.state]
@[simp] theorem execMulDiv_keeps (t c : Nat) (f : Fetched) (s : State) : Result.Keeps (execMulDiv t c f s) s := by
  unfold execMulDiv; exact State.issue_keeps _ _ _ _ _ fun s t c n => by simp
@[simp] theorem bitOp_kept  (s : State) (t c n : Nat) : ((bitOp ).run s t c n).state.kept = s.kept := by
  simp [bitOp, writesD, Ran.state]
@[simp] theorem execBitOp_keeps (t c : Nat) (f : Fetched) (s : State) : Result.Keeps (execBitOp t c f s) s := by
  unfold execBitOp; exact State.issue_keeps _ _ _ _ _ fun s t c n => by simp
@[simp] theorem State.compareWith_kept (s : State) (t c n : Nat) (other : BitVec 64) : (State.compareWith s t c n other).kept = s.kept := by
  simp [State.compareWith]
@[simp] theorem cmpOp_kept  (s : State) (t c n : Nat) : ((cmpOp ).run s t c n).state.kept = s.kept := by
  simp [cmpOp, writesD, Ran.state]
@[simp] theorem execCmp_keeps (t c : Nat) (f : Fetched) (s : State) : Result.Keeps (execCmp t c f s) s := by
  unfold execCmp; exact State.issue_keeps _ _ _ _ _ fun s t c n => by simp
@[simp] theorem cmpiOp_kept  (s : State) (t c n : Nat) : ((cmpiOp ).run s t c n).state.kept = s.kept := by
  simp [cmpiOp, writesD, Ran.state]
@[simp] theorem execCmpi_keeps (t c : Nat) (f : Fetched) (s : State) : Result.Keeps (execCmpi t c f s) s := by
  unfold execCmpi; exact State.issue_keeps _ _ _ _ _ fun s t c n => by simp
@[simp] theorem State.predicateOp_kept (s : State) (t c n : Nat) : (State.predicateOp s t c n).kept = s.kept := by
  simp [State.predicateOp]
@[simp] theorem predicateCoreOp_kept  (s : State) (t c n : Nat) : ((predicateCoreOp ).run s t c n).state.kept = s.kept := by
  simp [predicateCoreOp, writesD, Ran.state]
@[simp] theorem execPredicateOp_keeps (t c : Nat) (f : Fetched) (s : State) : Result.Keeps (execPredicateOp t c f s) s := by
  unfold execPredicateOp; exact State.issue_keeps _ _ _ _ _ fun s t c n => by simp
@[simp] theorem brOp_kept  (s : State) (t c n : Nat) : ((brOp ).run s t c n).state.kept = s.kept := by
  simp [brOp, writesD, Ran.state]
@[simp] theorem execBr_keeps (t c : Nat) (f : Fetched) (s : State) : Result.Keeps (execBr t c f s) s := by
  unfold execBr; exact State.issue_keeps _ _ _ _ _ fun s t c n => by simp
@[simp] theorem brlOp_kept  (s : State) (t c n : Nat) : ((brlOp ).run s t c n).state.kept = s.kept := by
  simp [brlOp, writesD, Ran.state]
@[simp] theorem execBrl_keeps (t c : Nat) (f : Fetched) (s : State) : Result.Keeps (execBrl t c f s) s := by
  unfold execBrl; exact State.issue_keeps _ _ _ _ _ fun s t c n => by simp
@[simp] theorem jrOp_kept  (s : State) (t c n : Nat) : ((jrOp ).run s t c n).state.kept = s.kept := by
  simp only [jrOp, writesD]; (repeat' split) <;> simp [Ran.state]
@[simp] theorem execJr_keeps (t c : Nat) (f : Fetched) (s : State) : Result.Keeps (execJr t c f s) s := by
  unfold execJr; exact State.issue_keeps _ _ _ _ _ fun s t c n => by simp
@[simp] theorem nopOp_kept  (s : State) (t c n : Nat) : ((nopOp ).run s t c n).state.kept = s.kept := by
  simp [nopOp, controlOp, Ran.state]
@[simp] theorem execNop_keeps (t c : Nat) (f : Fetched) (s : State) : Result.Keeps (execNop t c f s) s := by
  unfold execNop; exact State.issue_keeps _ _ _ _ _ fun s t c n => by simp
@[simp] theorem endCoreOp_kept  (s : State) (t c n : Nat) : ((endCoreOp ).run s t c n).state.kept = s.kept := by
  simp only [endCoreOp, controlOp]; (repeat' split) <;> simp [Ran.state]
@[simp] theorem execEnd_keeps (t c : Nat) (f : Fetched) (s : State) : Result.Keeps (execEnd t c f s) s := by
  unfold execEnd; exact State.issue_keeps _ _ _ _ _ fun s t c n => by simp
@[simp] theorem wfeOp_kept  (s : State) (t c n : Nat) : ((wfeOp ).run s t c n).state.kept = s.kept := by
  simp only [wfeOp, controlOp]; (repeat' split) <;> simp [Ran.state]
@[simp] theorem execWfe_keeps (t c : Nat) (f : Fetched) (s : State) : Result.Keeps (execWfe t c f s) s := by
  unfold execWfe; exact State.issue_keeps _ _ _ _ _ fun s t c n => by simp

/-! ### EngineOps -/

@[simp] theorem engineCoreOp_kept (accept : Nat → Bool) (e : Engine) (ss ts : Nat → List Nat) (beyond : Nat → Bool) (s : State) (t c n : Nat) : ((engineCoreOp accept e ss ts beyond).run s t c n).state.kept = s.kept := by
  simp only [engineCoreOp, writesD]; (repeat' split) <;> simp [Ran.state]
@[simp] theorem mmOp_kept  (s : State) (t c n : Nat) : ((mmOp ).run s t c n).state.kept = s.kept := by
  simp only [mmOp, engineCoreOp]; (repeat' split) <;> simp [Ran.state]
@[simp] theorem execMm_keeps (t c : Nat) (f : Fetched) (s : State) : Result.Keeps (execMm t c f s) s := by
  unfold execMm; exact State.issue_keeps _ _ _ _ _ fun s t c n => by simp
@[simp] theorem cbLoadOp_kept  (s : State) (t c n : Nat) : ((cbLoadOp ).run s t c n).state.kept = s.kept := by
  simp [cbLoadOp, engineCoreOp, Ran.state]
@[simp] theorem execCbLoad_keeps (t c : Nat) (f : Fetched) (s : State) : Result.Keeps (execCbLoad t c f s) s := by
  unfold execCbLoad; exact State.issue_keeps _ _ _ _ _ fun s t c n => by simp
@[simp] theorem drOp_kept  (s : State) (t c n : Nat) : ((drOp ).run s t c n).state.kept = s.kept := by
  simp [drOp, engineCoreOp, Ran.state]
@[simp] theorem execDr_keeps (t c : Nat) (f : Fetched) (s : State) : Result.Keeps (execDr t c f s) s := by
  unfold execDr; exact State.issue_keeps _ _ _ _ _ fun s t c n => by simp
@[simp] theorem accOp_kept (op : Nat) (s : State) (t c n : Nat) : ((accOp op).run s t c n).state.kept = s.kept := by
  simp [accOp, engineCoreOp, Ran.state]
@[simp] theorem execAccScale_keeps (t c : Nat) (f : Fetched) (s : State) : Result.Keeps (execAccScale t c f s) s := by
  unfold execAccScale; exact State.issue_keeps _ _ _ _ _ fun s t c n => by simp
@[simp] theorem execSmInit_keeps (t c : Nat) (f : Fetched) (s : State) : Result.Keeps (execSmInit t c f s) s := by
  unfold execSmInit; exact State.issue_keeps _ _ _ _ _ fun s t c n => by simp
@[simp] theorem execSmStore_keeps (t c : Nat) (f : Fetched) (s : State) : Result.Keeps (execSmStore t c f s) s := by
  unfold execSmStore; exact State.issue_keeps _ _ _ _ _ fun s t c n => by simp
@[simp] theorem execSmLoad_keeps (t c : Nat) (f : Fetched) (s : State) : Result.Keeps (execSmLoad t c f s) s := by
  unfold execSmLoad; exact State.issue_keeps _ _ _ _ _ fun s t c n => by simp
@[simp] theorem execStepClose_keeps (t c : Nat) (f : Fetched) (s : State) : Result.Keeps (execStepClose t c f s) s := by
  unfold execStepClose; exact State.issue_keeps _ _ _ _ _ fun s t c n => by simp
@[simp] theorem execAccDrop_keeps (t c : Nat) (f : Fetched) (s : State) : Result.Keeps (execAccDrop t c f s) s := by
  unfold execAccDrop; exact State.issue_keeps _ _ _ _ _ fun s t c n => by simp
@[simp] theorem execActLoad_keeps (t c : Nat) (f : Fetched) (s : State) : Result.Keeps (execActLoad t c f s) s := by
  unfold execActLoad; exact State.issue_keeps _ _ _ _ _ fun s t c n => by simp
@[simp] theorem fxOp_kept (op : Nat) (s : State) (t c n : Nat) : ((fxOp op).run s t c n).state.kept = s.kept := by
  simp [fxOp, engineCoreOp, Ran.state]
@[simp] theorem execFxLoad_keeps (t c : Nat) (f : Fetched) (s : State) : Result.Keeps (execFxLoad t c f s) s := by
  unfold execFxLoad; exact State.issue_keeps _ _ _ _ _ fun s t c n => by simp
@[simp] theorem execFxStore_keeps (t c : Nat) (f : Fetched) (s : State) : Result.Keeps (execFxStore t c f s) s := by
  unfold execFxStore; exact State.issue_keeps _ _ _ _ _ fun s t c n => by simp
@[simp] theorem execFxWload_keeps (t c : Nat) (f : Fetched) (s : State) : Result.Keeps (execFxWload t c f s) s := by
  unfold execFxWload; exact State.issue_keeps _ _ _ _ _ fun s t c n => by simp
@[simp] theorem execFxWstore_keeps (t c : Nat) (f : Fetched) (s : State) : Result.Keeps (execFxWstore t c f s) s := by
  unfold execFxWstore; exact State.issue_keeps _ _ _ _ _ fun s t c n => by simp
@[simp] theorem tkSetOp_kept  (s : State) (t c n : Nat) : ((tkSetOp ).run s t c n).state.kept = s.kept := by
  simp [tkSetOp, codedOp, Ran.state]
@[simp] theorem tkAddOp_kept  (s : State) (t c n : Nat) : ((tkAddOp ).run s t c n).state.kept = s.kept := by
  simp [tkAddOp, codedOp, Ran.state]
@[simp] theorem tkTakeOp_kept  (s : State) (t c n : Nat) : ((tkTakeOp ).run s t c n).state.kept = s.kept := by
  simp [tkTakeOp, codedOp, Ran.state]
@[simp] theorem tkReadOp_kept  (s : State) (t c n : Nat) : ((tkReadOp ).run s t c n).state.kept = s.kept := by
  simp [tkReadOp, codedOp, Ran.state]
@[simp] theorem execTkSet_keeps (t c : Nat) (f : Fetched) (s : State) : Result.Keeps (execTkSet t c f s) s := by
  unfold execTkSet; exact State.issue_keeps _ _ _ _ _ fun s t c n => by simp
@[simp] theorem execTkAdd_keeps (t c : Nat) (f : Fetched) (s : State) : Result.Keeps (execTkAdd t c f s) s := by
  unfold execTkAdd; exact State.issue_keeps _ _ _ _ _ fun s t c n => by simp
@[simp] theorem execTkTake_keeps (t c : Nat) (f : Fetched) (s : State) : Result.Keeps (execTkTake t c f s) s := by
  unfold execTkTake; exact State.issue_keeps _ _ _ _ _ fun s t c n => by simp
@[simp] theorem execTkRead_keeps (t c : Nat) (f : Fetched) (s : State) : Result.Keeps (execTkRead t c f s) s := by
  unfold execTkRead; exact State.issue_keeps _ _ _ _ _ fun s t c n => by simp
@[simp] theorem engWaitOp_kept  (s : State) (t c n : Nat) : ((engWaitOp ).run s t c n).state.kept = s.kept := by
  simp [engWaitOp, codedOp, Ran.state]
@[simp] theorem engNotifyOp_kept  (s : State) (t c n : Nat) : ((engNotifyOp ).run s t c n).state.kept = s.kept := by
  simp [engNotifyOp, codedOp, Ran.state]
@[simp] theorem execEngWait_keeps (t c : Nat) (f : Fetched) (s : State) : Result.Keeps (execEngWait t c f s) s := by
  unfold execEngWait; exact State.issue_keeps _ _ _ _ _ fun s t c n => by simp
@[simp] theorem execEngNotify_keeps (t c : Nat) (f : Fetched) (s : State) : Result.Keeps (execEngNotify t c f s) s := by
  unfold execEngNotify; exact State.issue_keeps _ _ _ _ _ fun s t c n => by simp
@[simp] theorem State.setT_kept (s : State) (t c i : Nat) (v : BitVec 128) : (State.setT s t c i v).kept = s.kept := by
  simp [State.setT]
@[simp] theorem tdSetOp_kept  (s : State) (t c n : Nat) : ((tdSetOp ).run s t c n).state.kept = s.kept := by
  simp [tdSetOp, codedOp, Ran.state]
@[simp] theorem tdGetloOp_kept  (s : State) (t c n : Nat) : ((tdGetloOp ).run s t c n).state.kept = s.kept := by
  simp [tdGetloOp, codedOp, Ran.state]
@[simp] theorem tdGethiOp_kept  (s : State) (t c n : Nat) : ((tdGethiOp ).run s t c n).state.kept = s.kept := by
  simp [tdGethiOp, codedOp, Ran.state]
@[simp] theorem tdAddrOp_kept  (s : State) (t c n : Nat) : ((tdAddrOp ).run s t c n).state.kept = s.kept := by
  simp [tdAddrOp, codedOp, Ran.state]
@[simp] theorem ahSetOp_kept  (s : State) (t c n : Nat) : ((ahSetOp ).run s t c n).state.kept = s.kept := by
  simp [ahSetOp, codedOp, Ran.state]
@[simp] theorem ahGetOp_kept  (s : State) (t c n : Nat) : ((ahGetOp ).run s t c n).state.kept = s.kept := by
  simp [ahGetOp, codedOp, Ran.state]
@[simp] theorem execTdSet_keeps (t c : Nat) (f : Fetched) (s : State) : Result.Keeps (execTdSet t c f s) s := by
  unfold execTdSet; exact State.issue_keeps _ _ _ _ _ fun s t c n => by simp
@[simp] theorem execTdGetlo_keeps (t c : Nat) (f : Fetched) (s : State) : Result.Keeps (execTdGetlo t c f s) s := by
  unfold execTdGetlo; exact State.issue_keeps _ _ _ _ _ fun s t c n => by simp
@[simp] theorem execTdGethi_keeps (t c : Nat) (f : Fetched) (s : State) : Result.Keeps (execTdGethi t c f s) s := by
  unfold execTdGethi; exact State.issue_keeps _ _ _ _ _ fun s t c n => by simp
@[simp] theorem execTdAddr_keeps (t c : Nat) (f : Fetched) (s : State) : Result.Keeps (execTdAddr t c f s) s := by
  unfold execTdAddr; exact State.issue_keeps _ _ _ _ _ fun s t c n => by simp
@[simp] theorem execAhSet_keeps (t c : Nat) (f : Fetched) (s : State) : Result.Keeps (execAhSet t c f s) s := by
  unfold execAhSet; exact State.issue_keeps _ _ _ _ _ fun s t c n => by simp
@[simp] theorem execAhGet_keeps (t c : Nat) (f : Fetched) (s : State) : Result.Keeps (execAhGet t c f s) s := by
  unfold execAhGet; exact State.issue_keeps _ _ _ _ _ fun s t c n => by simp
@[simp] theorem qcntOp_kept  (s : State) (t c n : Nat) : ((qcntOp ).run s t c n).state.kept = s.kept := by
  simp [qcntOp, codedOp, Ran.state]
@[simp] theorem qheadOp_kept  (s : State) (t c n : Nat) : ((qheadOp ).run s t c n).state.kept = s.kept := by
  simp [qheadOp, codedOp, Ran.state]
@[simp] theorem qpopOp_kept  (s : State) (t c n : Nat) : ((qpopOp ).run s t c n).state.kept = s.kept := by
  simp [qpopOp, codedOp, Ran.state]
@[simp] theorem qnotifyOp_kept  (s : State) (t c n : Nat) : ((qnotifyOp ).run s t c n).state.kept = s.kept := by
  simp [qnotifyOp, codedOp, Ran.state]
@[simp] theorem execQcnt_keeps (t c : Nat) (f : Fetched) (s : State) : Result.Keeps (execQcnt t c f s) s := by
  unfold execQcnt; exact State.issue_keeps _ _ _ _ _ fun s t c n => by simp
@[simp] theorem execQhead_keeps (t c : Nat) (f : Fetched) (s : State) : Result.Keeps (execQhead t c f s) s := by
  unfold execQhead; exact State.issue_keeps _ _ _ _ _ fun s t c n => by simp
@[simp] theorem execQpop_keeps (t c : Nat) (f : Fetched) (s : State) : Result.Keeps (execQpop t c f s) s := by
  unfold execQpop; exact State.issue_keeps _ _ _ _ _ fun s t c n => by simp
@[simp] theorem execQnotify_keeps (t c : Nat) (f : Fetched) (s : State) : Result.Keeps (execQnotify t c f s) s := by
  unfold execQnotify; exact State.issue_keeps _ _ _ _ _ fun s t c n => by simp

/-! ### CsrRead -/

@[simp] theorem State.tileRead_kept (s : State) (a : Agent) (t off : Nat) : (State.tileRead s a t off).2.kept = s.kept := by
  unfold State.tileRead; (repeat' split) <;> simp [kept_foldl]
@[simp] theorem State.catWord_kept (s : State) (o : Nat) : (State.catWord s o).2.kept = s.kept := by
  unfold State.catWord; dsimp only; (repeat' split) <;> simp
@[simp] theorem State.captureRead_kept (s : State) (a : Agent) (off : Nat) : (State.captureRead s a off).kept = s.kept := by
  simp [State.captureRead]
@[simp] theorem State.devRead_kept (s : State) (a : Agent) (off : Nat) : (State.devRead s a off).2.kept = s.kept := by
  unfold State.devRead; dsimp only; (repeat' split) <;> simp
@[simp] theorem State.csrRead_kept (s : State) (a : Agent) (addr size : Nat) : (State.csrRead s a addr size).2.2.kept = s.kept := by
  unfold State.csrRead; (repeat' split) <;> simp [kept_foldl]

/-! ### Debug -/

@[simp] theorem State.debugSeen_kept (s : State) (i : Nat) : (State.debugSeen s i).kept = s.kept := by
  simp [State.debugSeen]
@[simp] theorem execTapInstruction_keeps (instr : Nat) (resetLow : Bool) (s : State) : Result.Keeps (execTapInstruction instr resetLow s) s := by
  simp [execTapInstruction]
@[simp] theorem execTapReset_keeps (lowNs : Nat) (s : State) : Result.Keeps (execTapReset lowNs s) s := by
  simp [execTapReset]
@[simp] theorem State.debugReject_kept (s : State) : (State.debugReject s).kept = s.kept := by
  simp [State.debugReject]
@[simp] theorem State.nameCore_kept (s : State) (t c : Nat) : (State.nameCore s t c).kept = s.kept := by
  simp [State.nameCore]
@[simp] theorem State.dbgAttach_kept (s : State) (t c : Nat) : (State.dbgAttach s t c).kept = s.kept := by
  simp [State.dbgAttach]
@[simp] theorem State.dbgHalt_kept (s : State) (t c : Nat) : (State.dbgHalt s t c).kept = s.kept := by
  simp [State.dbgHalt]
@[simp] theorem State.dbgRun_kept (s : State) (t c : Nat) : (State.dbgRun s t c).kept = s.kept := by
  simp [State.dbgRun]
@[simp] theorem State.dbgResume_kept (s : State) (t c : Nat) : (State.dbgResume s t c).kept = s.kept := by
  simp [State.dbgResume]
@[simp] theorem State.dbgStep_kept (s : State) (t c : Nat) : (State.dbgStep s t c).kept = s.kept := by
  simp [State.dbgStep]
@[simp] theorem State.dbgDetach_kept (s : State) (t c : Nat) : (State.dbgDetach s t c).kept = s.kept := by
  simp [State.dbgDetach]
@[simp] theorem State.coreCmd_kept (s : State) (cmd t c : Nat) : (State.coreCmd s cmd t c).kept = s.kept := by
  unfold State.coreCmd; split <;> simp [kept_foldl]
@[simp] theorem execAttach_keeps (a : Agent) (tile core : Nat) (s : State) : Result.Keeps (execAttach a tile core s) s := by
  unfold execAttach; (try dsimp only); refine State.devWrite_keeps _ _ _ _ ?_; (repeat' split) <;> simp
@[simp] theorem execHalt_keeps (a : Agent) (tile core : Nat) (s : State) : Result.Keeps (execHalt a tile core s) s := by
  unfold execHalt; (try dsimp only); refine State.devWrite_keeps _ _ _ _ ?_; (repeat' split) <;> simp
@[simp] theorem execResume_keeps (a : Agent) (tile core : Nat) (s : State) : Result.Keeps (execResume a tile core s) s := by
  unfold execResume; (try dsimp only); refine State.devWrite_keeps _ _ _ _ ?_; (repeat' split) <;> simp
@[simp] theorem execStep_keeps (a : Agent) (tile core : Nat) (s : State) : Result.Keeps (execStep a tile core s) s := by
  unfold execStep; (try dsimp only); refine State.devWrite_keeps _ _ _ _ ?_; (repeat' split) <;> simp
@[simp] theorem execDetach_keeps (a : Agent) (tile core : Nat) (s : State) : Result.Keeps (execDetach a tile core s) s := by
  unfold execDetach; (try dsimp only); refine State.devWrite_keeps _ _ _ _ ?_; (repeat' split) <;> simp
@[simp] theorem State.armSeen_kept (s : State) (a : Agent) (t : Nat) : (State.armSeen s a t).kept = s.kept := by
  unfold State.armSeen; split <;> simp [kept_foldl]
@[simp] theorem State.traceCtl_kept (s : State) (a : Agent) (n : Nat) (w : BitVec 32) : (State.traceCtl s a n w).kept = s.kept := by
  simp [State.traceCtl]
@[simp] theorem execTraceArm_keeps (a : Agent) (n tile classes : Nat) (s : State) : Result.Keeps (execTraceArm a n tile classes s) s := by
  unfold execTraceArm; (try dsimp only); refine State.devWrite_keeps _ _ _ _ ?_; (repeat' split) <;> simp
@[simp] theorem State.bankSample_kept (s : State) (n : Nat) : (State.bankSample s n).kept = s.kept := by
  simp [State.bankSample, kept_foldl]
@[simp] theorem State.setSample_kept (s : State) (n : Nat) (at_ : Option Nat) : (State.setSample s n at_).kept = s.kept := by
  simp [State.setSample]
@[simp] theorem State.bankWrite_kept (s : State) (a : Agent) (n off : Nat) (w : BitVec 32) : (State.bankWrite s a n off w).kept = s.kept := by
  simp [State.bankWrite]
@[simp] theorem execCounterBankSample_keeps (n : Nat) (s : State) : Result.Keeps (execCounterBankSample n s) s := by
  unfold execCounterBankSample; split <;> simp
@[simp] theorem State.logHead_kept (s : State) (v : BitVec 32) : (State.logHead s v).kept = s.kept := by
  simp [State.logHead]
@[simp] theorem execFltLogHeadWrite_keeps (a : Agent) (v : BitVec 32) (s : State) : Result.Keeps (execFltLogHeadWrite a v s) s := by
  unfold execFltLogHeadWrite; (try dsimp only); refine State.devWrite_keeps _ _ _ _ ?_; (repeat' split) <;> simp
@[simp] theorem State.rateCheck_kept (s : State) (t : Nat) : (State.rateCheck s t).kept = s.kept := by
  simp [State.rateCheck]
@[simp] theorem execEccRateCheck_keeps (internal : List (Nat × Nat)) (s : State) : Result.Keeps (execEccRateCheck internal s) s := by
  unfold execEccRateCheck; dsimp only; (repeat' split) <;> simp [kept_foldl]
@[simp] theorem State.heldUnreach_kept (s : State) (r : NetReq) : (State.heldUnreach s r).kept = s.kept := by
  simp [State.heldUnreach]
@[simp] theorem execPairedAccessCompare_keeps (lead : Nat) (s : State) : Result.Keeps (execPairedAccessCompare lead s) s := by
  unfold execPairedAccessCompare
  split
  · simp
  · split
    · rw [keeps_next]; exact kept_foldl _ _ _ fun s a => by simp
    · split
      · simp
      · split
        · exact (State.when_keeps _ _ _).2 fun _ => by simp
        · exact (State.when_keeps _ _ _).2 fun _ => by simp

/-! ### Mailbox -/

@[simp] theorem State.mailboxTake_kept (s : State) (req : List (BitVec 8)) (source : Nat) : (State.mailboxTake s req source).kept = s.kept := by
  simp [State.mailboxTake]
@[simp] theorem State.mailboxGo_kept (s : State) (a : Agent) : (State.mailboxGo s a).kept = s.kept := by
  simp [State.mailboxGo]
@[simp] theorem execMailboxGo_keeps (a : Agent) (s : State) : Result.Keeps (execMailboxGo a s) s := by
  unfold execMailboxGo; (try dsimp only); refine State.devWrite_keeps _ _ _ _ ?_; (repeat' split) <;> simp
@[simp] theorem State.mailboxWrite_kept (s : State) (a : Agent) (area i : Nat) (w : BitVec 32) :
    (State.mailboxWrite s a area i w).kept = s.kept := by
  simp [State.mailboxWrite]
@[simp] theorem State.mctpAnswer_kept (s : State) (kind : Nat) (l : List (BitVec 8)) : (State.mctpAnswer s kind l).kept = s.kept := by
  simp [State.mctpAnswer]
@[simp] theorem State.mailboxAnswer_kept (s : State) (req : List (BitVec 8)) (result : Nat) (payload : List (BitVec 8)) :
    (State.mailboxAnswer s req result payload).kept = s.kept := by
  simp [State.mailboxAnswer]
theorem State.plainCommand_keeps (s : State) (op : Nat) (allowed : Bool) (run : List (BitVec 8) → State) (h : ∀ r, (run r).kept = s.kept) :
    Result.Keeps (s.plainCommand op allowed run) s := by
  unfold State.plainCommand
  split
  · simp
  · rw [keeps_next]
    (repeat' split)
    · simp
    · simp
    · exact h _
@[simp] theorem execGetVersion_keeps (s : State) : Result.Keeps (execGetVersion s) s := by
  unfold execGetVersion; (try dsimp only); exact State.plainCommand_keeps _ _ _ _ fun r => by simp
@[simp] theorem execGetIdentity_keeps (s : State) : Result.Keeps (execGetIdentity s) s := by
  unfold execGetIdentity; (try dsimp only); exact State.plainCommand_keeps _ _ _ _ fun r => by simp
@[simp] theorem execFwWrite_keeps (flashErr : Bool) (s : State) : Result.Keeps (execFwWrite flashErr s) s := by
  unfold execFwWrite; dsimp only; (repeat' split) <;> simp [kept_foldl]
@[simp] theorem State.fwCandidate_kept (s : State) : (State.fwCandidate s).kept = s.kept := by
  simp [State.fwCandidate]
@[simp] theorem State.fwCommit_kept (s : State) (r : List (BitVec 8)) (flashErr : Bool) (boot : Bool) :
    (State.fwCommit s r flashErr boot).kept = s.kept := by
  simp [State.fwCommit]
@[simp] theorem execFwCommit_keeps (flashErr : Bool) (s : State) : Result.Keeps (execFwCommit flashErr s) s := by
  unfold execFwCommit; (try dsimp only); exact State.plainCommand_keeps _ _ _ _ fun r => by simp
@[simp] theorem execRecoveryBoot_keeps (flashErr : Bool) (s : State) : Result.Keeps (execRecoveryBoot flashErr s) s := by
  unfold execRecoveryBoot; (try dsimp only); exact State.plainCommand_keeps _ _ _ _ fun r => by simp
@[simp] theorem State.vbringFails_kept (s : State) (w : Nat) (failed : List Nat) : (State.vbringFails s w failed).kept = s.kept := by
  simp [State.vbringFails, kept_foldl]
@[simp] theorem execVbringTest_keeps (failed : List Nat) (s : State) : Result.Keeps (execVbringTest failed s) s := by
  unfold execVbringTest; (try dsimp only); exact State.plainCommand_keeps _ _ _ _ fun r => by simp
@[simp] theorem execMailboxComplete_keeps (s : State) : Result.Keeps (execMailboxComplete s) s := by
  unfold execMailboxComplete; split <;> simp
@[simp] theorem State.mctpMailbox_kept (s : State) (req : List (BitVec 8)) : (State.mctpMailbox s req).kept = s.kept := by
  simp [State.mctpMailbox]
@[simp] theorem execMctpMessage_keeps (pcie : Bool) (kind : Nat) (body : List (BitVec 8)) (s : State) :
    Result.Keeps (execMctpMessage pcie kind body s) s := by
  simp [execMctpMessage]
@[simp] theorem execGetMeasurements_keeps (indices : List Nat) (nonce : List (BitVec 8)) (s : State) :
    Result.Keeps (execGetMeasurements indices nonce s) s := by
  simp [execGetMeasurements]
@[simp] theorem execKeyExchange_keeps (body : List (BitVec 8)) (s : State) : Result.Keeps (execKeyExchange body s) s := by
  simp [execKeyExchange]
@[simp] theorem execIdeKmKeyInstall_keeps (stream : Nat) (s : State) : Result.Keeps (execIdeKmKeyInstall stream s) s := by
  simp [execIdeKmKeyInstall]
@[simp] theorem State.tdiError_kept (s : State) (k : Nat) : (State.tdiError s k).kept = s.kept := by
  simp [State.tdiError]
@[simp] theorem execIdeIntegrityFailure_keeps (stream : Nat) (s : State) : Result.Keeps (execIdeIntegrityFailure stream s) s := by
  unfold execIdeIntegrityFailure; dsimp only; (repeat' split) <;> simp [kept_foldl]
@[simp] theorem State.vfBind_kept (s : State) (k : Nat) (w : BitVec 32) : (State.vfBind s k w).kept = s.kept := by
  simp [State.vfBind]
@[simp] theorem execHstVfBindWrite_keeps (a : Agent) (k : Nat) (w : BitVec 32) (s : State) : Result.Keeps (execHstVfBindWrite a k w s) s := by
  unfold execHstVfBindWrite; (try dsimp only); refine State.devWrite_keeps _ _ _ _ ?_; (repeat' split) <;> simp
@[simp] theorem execLockInterface_keeps (k stream : Nat) (s : State) : Result.Keeps (execLockInterface k stream s) s := by
  simp [execLockInterface]
@[simp] theorem execStartInterface_keeps (k : Nat) (s : State) : Result.Keeps (execStartInterface k s) s := by
  simp [execStartInterface]
@[simp] theorem State.unlockTdi_kept (s : State) (k : Nat) : (State.unlockTdi s k).kept = s.kept := by
  unfold State.unlockTdi; dsimp only; split <;> simp
@[simp] theorem execStopInterface_keeps (k : Nat) (s : State) : Result.Keeps (execStopInterface k s) s := by
  simp [execStopInterface]
@[simp] theorem State.msixRaise_kept (s : State) (a : Agent) (f vec : Nat) : (State.msixRaise s a f vec).kept = s.kept := by
  simp [State.msixRaise]
@[simp] theorem execHstMsixRaise_keeps (a : Agent) (f vec : Nat) (s : State) : Result.Keeps (execHstMsixRaise a f vec s) s := by
  simp [execHstMsixRaise]

/-! ### CsrWrite -/

@[simp] theorem stateAfter_kept (s : State) (r : Result) (h : Result.Keeps r s) : (stateAfter s r).kept = s.kept := by
  unfold stateAfter
  cases r with
  | next t => exact h t rfl
  | fault _ => rfl
  | refused _ => rfl
@[simp] theorem State.arrCtl_kept (s : State) (t : Nat) (w : BitVec 32) : (State.arrCtl s t w).kept = s.kept := by
  simp [State.arrCtl]
@[simp] theorem State.tileStore_kept (s : State) (t off : Nat) (w : BitVec 32) : (State.tileStore s t off w).kept = s.kept := by
  simp [State.tileStore]
@[simp] theorem State.pulseLo_kept (s : State) (a : Agent) (w : BitVec 32) : (State.pulseLo s a w).kept = s.kept := by
  simp [State.pulseLo]
@[simp] theorem State.timerStore_kept (s : State) (a : Agent) (n off : Nat) (w : BitVec 32) : (s.timerStore a n off w).kept = s.kept := by
  unfold State.timerStore
  exact State.timerWrite_kept _ _ _ _ (by split <;> simp)
@[simp] theorem State.bringCtl_kept (s : State) (a : Agent) (w : BitVec 32) : (State.bringCtl s a w).kept = s.kept := by
  simp [State.bringCtl]
@[simp] theorem State.wingCtl_kept (s : State) (w : BitVec 32) : (State.wingCtl s w).kept = s.kept := by
  unfold State.wingCtl; split <;> simp [kept_foldl]
@[simp] theorem State.fabCtl_kept (s : State) (w : BitVec 32) : (State.fabCtl s w).kept = s.kept := by
  unfold State.fabCtl; split <;> simp [kept_foldl]
@[simp] theorem State.claimWrite_kept (s : State) (a : Agent) (w : BitVec 32) : (s.claimWrite a w).kept = s.kept := by
  unfold State.claimWrite
  exact State.byClaimant_kept _ _ _ fun w => by split <;> simp
@[simp] theorem State.portCtl_kept (s : State) (a : Agent) (p : Nat) (w : BitVec 32) : (State.portCtl s a p w).kept = s.kept := by
  unfold State.portCtl; dsimp only; split <;> simp
@[simp] theorem State.scrubCtl_kept (s : State) (a : Agent) (w : BitVec 32) : (State.scrubCtl s a w).kept = s.kept := by
  unfold State.scrubCtl; split <;> simp [kept_foldl]
@[simp] theorem State.resetCmd_kept (s : State) (w : BitVec 32) : (State.resetCmd s w).kept = s.kept := by
  unfold State.resetCmd; split <;> simp [kept_foldl]
theorem State.devStore_kept (s : State) (a : Agent) (off : Nat) (w : BitVec 32) (acc : State → BitVec 32 → State)
    (h : ∀ s w, (acc s w).kept = s.kept) : (s.devStore a off w acc).kept = s.kept := by
  unfold State.devStore
  (repeat' split) <;> simp [h]
theorem State.csrWriteWith_kept (s : State) (a : Agent) (addr size : Nat) (w : BitVec 32) (acc : State → BitVec 32 → State)
    (h : ∀ s w, (acc s w).kept = s.kept) : (s.csrWriteWith a addr size w acc).2.kept = s.kept := by
  unfold State.csrWriteWith
  (repeat' split) <;> simp [State.devStore_kept _ _ _ _ acc h]
@[simp] theorem State.debugRegs_kept (s : State) (write : Bool) (i : Nat) : (State.debugRegs s write i).kept = s.kept := by
  unfold State.debugRegs; dsimp only; (repeat' split) <;> simp
@[simp] theorem State.debugMemory_kept (s : State) (write : Bool) (addr : Nat) : (s.debugMemory write addr).kept = s.kept := by
  unfold State.debugMemory
  dsimp only
  (repeat' split) <;> simp [State.csrWriteWith_kept _ _ _ _ _ (fun s _ => s) (fun _ _ => rfl)]
@[simp] theorem State.debugAccess_kept (s : State) (op space : Nat) : (State.debugAccess s op space).kept = s.kept := by
  simp [State.debugAccess]
@[simp] theorem State.accCmd_kept (s : State) (w : BitVec 32) : (State.accCmd s w).kept = s.kept := by
  simp [State.accCmd]
@[simp] theorem execDebugRead_keeps (a : Agent) (space : Nat) (s : State) : Result.Keeps (execDebugRead a space s) s := by
  unfold execDebugRead; (try dsimp only); refine State.devWrite_keeps _ _ _ _ ?_; (repeat' split) <;> simp
@[simp] theorem execDebugWrite_keeps (a : Agent) (space : Nat) (s : State) : Result.Keeps (execDebugWrite a space s) s := by
  unfold execDebugWrite; (try dsimp only); refine State.devWrite_keeps _ _ _ _ ?_; (repeat' split) <;> simp
@[simp] theorem State.csrWrite_kept (s : State) (a : Agent) (addr size : Nat) (w : BitVec 32) : (s.csrWrite a addr size w).2.kept = s.kept :=
  State.csrWriteWith_kept _ _ _ _ _ _ fun s w => by simp
@[simp] theorem execRegisterWrite_keeps (a : Agent) (address : Nat) (value : BitVec 32) (s : State) :
    Result.Keeps (execRegisterWrite a address value s) s := by
  simp [execRegisterWrite]
@[simp] theorem execCnBroadcast_keeps (kind offset : Nat) (value : BitVec 32) (s : State) :
    Result.Keeps (execCnBroadcast kind offset value s) s := by
  unfold execCnBroadcast
  exact (State.when_keeps _ _ _).2 fun _ => kept_foldl _ _ _ fun s a => by simp

/-! ### Host -/

@[simp] theorem State.linkTrained_kept (s : State) (width rate : Nat) : (State.linkTrained s width rate).kept = s.kept := by
  simp [State.linkTrained]
@[simp] theorem State.stopChannels_kept (s : State) : (State.stopChannels s).kept = s.kept := by
  simp [State.stopChannels, kept_foldl]
@[simp] theorem State.linkOff_kept (s : State) : (State.linkOff s).kept = s.kept := by
  simp [State.linkOff]
@[simp] theorem State.surpriseDown_kept (s : State) : (State.surpriseDown s).kept = s.kept := by
  simp [State.surpriseDown]
@[simp] theorem execHostLinkUp_keeps (width rate : Nat) (s : State) : Result.Keeps (execHostLinkUp width rate s) s := by
  simp [execHostLinkUp]
@[simp] theorem execHostLinkRetrain_keeps (width rate : Nat) (s : State) : Result.Keeps (execHostLinkRetrain width rate s) s := by
  simp [execHostLinkRetrain]
@[simp] theorem execSurpriseDown_keeps (s : State) : Result.Keeps (execSurpriseDown s) s := by
  simp [execSurpriseDown]
@[simp] theorem State.perstVf_kept (s : State) (k : Nat) : (State.perstVf s k).kept = s.kept := by
  unfold State.perstVf; (repeat' split) <;> simp [kept_foldl]
@[simp] theorem State.perst_kept (s : State) : (State.perst s).kept = s.kept := by
  simp [State.perst, kept_foldl]
@[simp] theorem execPerstN_keeps (low : Bool) (s : State) : Result.Keeps (execPerstN low s) s := by
  simp [execPerstN]
@[simp] theorem execRefclkLoss_keeps (ref : Nat) (s : State) : Result.Keeps (execRefclkLoss ref s) s := by
  unfold execRefclkLoss; dsimp only; (repeat' split) <;> simp [kept_foldl]
@[simp] theorem State.hostReply_kept (s : State) (outcome : Nat) (data : List (BitVec 8)) : (State.hostReply s outcome data).kept = s.kept := by
  simp [State.hostReply]
@[simp] theorem State.configDone_kept (s : State) (f op reg value : Nat) : (State.configDone s f op reg value).kept = s.kept := by
  unfold State.configDone; (repeat' split) <;> simp [kept_foldl]
@[simp] theorem execPcieConfigRequest_keeps (f op reg value sinceRelease : Nat) (s : State) :
    Result.Keeps (execPcieConfigRequest f op reg value sinceRelease s) s := by
  simp [execPcieConfigRequest]
@[simp] theorem State.pageRead_kept (s : State) (f o : Nat) : (State.pageRead s f o).2.kept = s.kept := by
  unfold State.pageRead; split <;> simp [kept_foldl]
@[simp] theorem State.fnMsg_kept (s : State) (f kind : Nat) : (State.fnMsg s f kind).kept = s.kept := by
  simp [State.fnMsg]
@[simp] theorem State.chanReset_kept (s : State) (f c : Nat) : (State.chanReset s f c).kept = s.kept := by
  simp [State.chanReset]
@[simp] theorem State.pageWrite_kept (s : State) (f o : Nat) (w : BitVec 32) : (State.pageWrite s f o w).kept = s.kept := by
  simp [State.pageWrite]
@[simp] theorem State.fnSend_keeps (s : State) (f kind : Nat) : Result.Keeps (State.fnSend s f kind) s := by
  simp [State.fnSend]
@[simp] theorem execFnMsgToken_keeps (f : Nat) (s : State) : Result.Keeps (execFnMsgToken f s) s := by
  simp [execFnMsgToken]
@[simp] theorem execFnMsgDoorbell_keeps (f : Nat) (s : State) : Result.Keeps (execFnMsgDoorbell f s) s := by
  simp [execFnMsgDoorbell]
@[simp] theorem execFnMsgDesc_keeps (f : Nat) (s : State) : Result.Keeps (execFnMsgDesc f s) s := by
  simp [execFnMsgDesc]
@[simp] theorem execChannelReset_keeps (f c : Nat) (s : State) : Result.Keeps (execChannelReset f c s) s := by
  simp [execChannelReset]
@[simp] theorem State.hostEnd_kept (s : State) (write : Bool) (len status : Nat) (data : List (BitVec 8)) :
    (State.hostEnd s write len status data).kept = s.kept := by
  simp [State.hostEnd]
theorem State.hostCsr_kept (s : State) (f : Nat) (write : Bool) (addr len : Nat) (data : List (BitVec 8)) (latch : State → Nat → State)
    (h : ∀ s n, (latch s n).kept = s.kept) : (s.hostCsr f write addr len data latch).kept = s.kept := by
  unfold State.hostCsr
  dsimp only
  split
  · rw [State.hostEnd_kept]
    split
    · simp
    · simp [h]
  · rw [State.hostEnd_kept]
    split
    · simp
    · simp [h]
@[simp] theorem State.hostMemory_kept (s : State) (f : Nat) (write : Bool) (addr len : Nat) (data : List (BitVec 8)) :
    (s.hostMemory f write addr len data).kept = s.kept := by
  unfold State.hostMemory
  dsimp only
  split
  · simp
  · split
    · exact State.hostCsr_kept _ _ _ _ _ _ _ fun s n => by simp
    · exact State.hostCsr_kept _ _ _ _ _ _ _ fun s n => by simp
    · simp
@[simp] theorem State.hostPage_kept (s : State) (f : Nat) (write : Bool) (o len : Nat) (data : List (BitVec 8)) :
    (State.hostPage s f write o len data).kept = s.kept := by
  simp [State.hostPage]
@[simp] theorem State.hostRequest_kept (s : State) (write : Bool) (addr len : Nat) (data : List (BitVec 8)) (stream : Option Nat) :
    (s.hostRequest write addr len data stream).kept = s.kept := by
  unfold State.hostRequest
  split
  · simp
  · split
    · simp
    · split
      · simp
      · split
        · exact State.hostCsr_kept _ _ _ _ _ _ _ fun s n => by simp
        · split <;> simp
@[simp] theorem execPcieMemoryRequest_keeps (write : Bool) (addr len : Nat) (data : List (BitVec 8)) (stream : Option Nat) (s : State) :
    Result.Keeps (execPcieMemoryRequest write addr len data stream s) s := by
  simp [execPcieMemoryRequest]
@[simp] theorem State.copyPart_kept (s : State) (f c : Nat) (j : CopyJob) (data : List (BitVec 8)) (a n : Nat) :
    (State.copyPart s f c j data a n).kept = s.kept := by
  simp [State.copyPart]
@[simp] theorem State.copyStart_kept (s : State) (f c d : Nat) (descOk : Bool) (data : List (BitVec 8)) (hostErr : List Nat) :
    (State.copyStart s f c d descOk data hostErr).kept = s.kept := by
  simp [State.copyStart, kept_foldl]
@[simp] theorem execCopyDescriptorStart_keeps (f c : Nat) (desc : BitVec 256) (descOk : Bool) (data : List (BitVec 8)) (hostErr : List Nat) (s : State) : Result.Keeps (execCopyDescriptorStart f c desc descOk data hostErr s) s := by
  simp [execCopyDescriptorStart]
@[simp] theorem State.hostWrite_kept (s : State) (f addr : Nat) (l : List (BitVec 8)) : (State.hostWrite s f addr l).kept = s.kept := by
  simp [State.hostWrite]
@[simp] theorem State.copyEnd_kept (s : State) (f c : Nat) (j : CopyJob) (rest : List CopyJob) : (State.copyEnd s f c j rest).kept = s.kept := by
  simp [State.copyEnd]
@[simp] theorem execCopyDescriptorComplete_keeps (f c : Nat) (s : State) : Result.Keeps (execCopyDescriptorComplete f c s) s := by
  unfold execCopyDescriptorComplete; (repeat' split) <;> simp

/-! ### Vector -/

@[simp] theorem State.setVreg_kept (s : State) (t c r : Nat) (l : List (BitVec 32)) : (State.setVreg s t c r l).kept = s.kept := by
  simp [State.setVreg]
@[simp] theorem lanewise_kept (group : Nat) (f : Nat → BitVec 32 → BitVec 32 → BitVec 32 → BitVec 32) (s : State) (t c n : Nat) :
    ((lanewise group f).run s t c n).state.kept = s.kept := by
  simp [lanewise, writesD, Ran.state]
@[simp] theorem vectorFp32Op_kept  (s : State) (t c n : Nat) : ((vectorFp32Op ).run s t c n).state.kept = s.kept := by
  simp [vectorFp32Op, lanewise, Ran.state]
@[simp] theorem execVectorFp32_keeps (t c : Nat) (f : Fetched) (s : State) : Result.Keeps (execVectorFp32 t c f s) s := by
  unfold execVectorFp32; exact State.issue_keeps _ _ _ _ _ fun s t c n => by simp
@[simp] theorem vectorBf16Op_kept  (s : State) (t c n : Nat) : ((vectorBf16Op ).run s t c n).state.kept = s.kept := by
  simp [vectorBf16Op, lanewise, Ran.state]
@[simp] theorem execVectorBf16_keeps (t c : Nat) (f : Fetched) (s : State) : Result.Keeps (execVectorBf16 t c f s) s := by
  unfold execVectorBf16; exact State.issue_keeps _ _ _ _ _ fun s t c n => by simp
@[simp] theorem vectorIntegerOp_kept  (s : State) (t c n : Nat) : ((vectorIntegerOp ).run s t c n).state.kept = s.kept := by
  simp [vectorIntegerOp, lanewise, Ran.state]
@[simp] theorem execVectorInteger_keeps (t c : Nat) (f : Fetched) (s : State) : Result.Keeps (execVectorInteger t c f s) s := by
  unfold execVectorInteger; exact State.issue_keeps _ _ _ _ _ fun s t c n => by simp
@[simp] theorem State.laneMove_kept (s : State) (t c n : Nat) : (State.laneMove s t c n).kept = s.kept := by
  unfold State.laneMove; split <;> simp [kept_foldl]
@[simp] theorem laneMoveOp_kept  (s : State) (t c n : Nat) : ((laneMoveOp ).run s t c n).state.kept = s.kept := by
  simp [laneMoveOp, writesD, Ran.state]
@[simp] theorem execLaneMove_keeps (t c : Nat) (f : Fetched) (s : State) : Result.Keeps (execLaneMove t c f s) s := by
  unfold execLaneMove; exact State.issue_keeps _ _ _ _ _ fun s t c n => by simp
@[simp] theorem State.vq_kept (s : State) (t c n : Nat) : (State.vq s t c n).kept = s.kept := by
  simp [State.vq]
@[simp] theorem State.vx_kept (s : State) (t c n : Nat) : (State.vx s t c n).kept = s.kept := by
  simp [State.vx]
@[simp] theorem vqOp_kept  (s : State) (t c n : Nat) : ((vqOp ).run s t c n).state.kept = s.kept := by
  simp [vqOp, cvtOp, Ran.state]
@[simp] theorem vxOp_kept  (s : State) (t c n : Nat) : ((vxOp ).run s t c n).state.kept = s.kept := by
  simp [vxOp, cvtOp, Ran.state]
@[simp] theorem vcvtI2fOp_kept  (s : State) (t c n : Nat) : ((vcvtI2fOp ).run s t c n).state.kept = s.kept := by
  simp [vcvtI2fOp, cvtOp, Ran.state]
@[simp] theorem vcvtF2iOp_kept  (s : State) (t c n : Nat) : ((vcvtF2iOp ).run s t c n).state.kept = s.kept := by
  simp [vcvtF2iOp, cvtOp, Ran.state]
@[simp] theorem execVq_keeps (t c : Nat) (f : Fetched) (s : State) : Result.Keeps (execVq t c f s) s := by
  unfold execVq; exact State.issue_keeps _ _ _ _ _ fun s t c n => by simp
@[simp] theorem execVx_keeps (t c : Nat) (f : Fetched) (s : State) : Result.Keeps (execVx t c f s) s := by
  unfold execVx; exact State.issue_keeps _ _ _ _ _ fun s t c n => by simp
@[simp] theorem execVcvtI2f_keeps (t c : Nat) (f : Fetched) (s : State) : Result.Keeps (execVcvtI2f t c f s) s := by
  unfold execVcvtI2f; exact State.issue_keeps _ _ _ _ _ fun s t c n => by simp
@[simp] theorem execVcvtF2i_keeps (t c : Nat) (f : Fetched) (s : State) : Result.Keeps (execVcvtF2i t c f s) s := by
  unfold execVcvtF2i; exact State.issue_keeps _ _ _ _ _ fun s t c n => by simp
@[simp] theorem specialOp_kept  (s : State) (t c n : Nat) : ((specialOp ).run s t c n).state.kept = s.kept := by
  simp [specialOp, writesD, Ran.state]
@[simp] theorem execSpecialFunction_keeps (t c : Nat) (f : Fetched) (s : State) : Result.Keeps (execSpecialFunction t c f s) s := by
  unfold execSpecialFunction; exact State.issue_keeps _ _ _ _ _ fun s t c n => by simp
@[simp] theorem State.vmem_kept (s : State) (t c n : Nat) : (s.vmem t c n).state.kept = s.kept := by
  unfold State.vmem
  dsimp only
  split
  · rfl
  · split
    · rfl
    · exact (kept_foldl _ _ _ fun s a => by simp).trans (by simp)
@[simp] theorem vmemOp_kept (op : Nat) (s : State) (t c n : Nat) : ((vmemOp op).run s t c n).state.kept = s.kept := by
  simp [vmemOp]
@[simp] theorem execVld_keeps (t c : Nat) (f : Fetched) (s : State) : Result.Keeps (execVld t c f s) s := by
  unfold execVld; exact State.issue_keeps _ _ _ _ _ fun s t c n => by simp
@[simp] theorem execVst_keeps (t c : Nat) (f : Fetched) (s : State) : Result.Keeps (execVst t c f s) s := by
  unfold execVst; exact State.issue_keeps _ _ _ _ _ fun s t c n => by simp
@[simp] theorem execVldC_keeps (t c : Nat) (f : Fetched) (s : State) : Result.Keeps (execVldC t c f s) s := by
  unfold execVldC; exact State.issue_keeps _ _ _ _ _ fun s t c n => by simp
@[simp] theorem execVstC_keeps (t c : Nat) (f : Fetched) (s : State) : Result.Keeps (execVstC t c f s) s := by
  unfold execVstC; exact State.issue_keeps _ _ _ _ _ fun s t c n => by simp
@[simp] theorem State.scatter_kept (s : State) (t c n : Nat) : (s.scatter t c n).state.kept = s.kept := by
  unfold State.scatter
  dsimp only
  split
  · rfl
  · split
    · simp only [Ran.state]
      split <;> simp
    · exact (kept_foldl _ _ _ fun s a => by simp).trans (by simp)
@[simp] theorem scatterOp_kept (fn : Nat) (s : State) (t c n : Nat) : ((scatterOp fn).run s t c n).state.kept = s.kept := by
  simp [scatterOp]
@[simp] theorem execVgather_keeps (t c : Nat) (f : Fetched) (s : State) : Result.Keeps (execVgather t c f s) s := by
  unfold execVgather; exact State.issue_keeps _ _ _ _ _ fun s t c n => by simp
@[simp] theorem execVscatter_keeps (t c : Nat) (f : Fetched) (s : State) : Result.Keeps (execVscatter t c f s) s := by
  unfold execVscatter; exact State.issue_keeps _ _ _ _ _ fun s t c n => by simp
@[simp] theorem execVscatterAdd_keeps (t c : Nat) (f : Fetched) (s : State) : Result.Keeps (execVscatterAdd t c f s) s := by
  unfold execVscatterAdd; exact State.issue_keeps _ _ _ _ _ fun s t c n => by simp
@[simp] theorem State.vectorDone_kept (s : State) (t c : Nat) (a : MemAcc) : (State.vectorDone s t c a).kept = s.kept := by
  simp [State.vectorDone]
@[simp] theorem State.setPairs_kept (s : State) (t c d : Nat) (l : List (BitVec 32 × BitVec 32)) : (State.setPairs s t c d l).kept = s.kept := by
  simp [State.setPairs]
@[simp] theorem vsortOp_kept  (s : State) (t c n : Nat) : ((vsortOp ).run s t c n).state.kept = s.kept := by
  simp [vsortOp, writesD, Ran.state]
@[simp] theorem execVsort_keeps (t c : Nat) (f : Fetched) (s : State) : Result.Keeps (execVsort t c f s) s := by
  unfold execVsort; exact State.issue_keeps _ _ _ _ _ fun s t c n => by simp
@[simp] theorem State.vtopk_kept (s : State) (t c n : Nat) : (State.vtopk s t c n).kept = s.kept := by
  simp [State.vtopk]
@[simp] theorem vtopkOp_kept  (s : State) (t c n : Nat) : ((vtopkOp ).run s t c n).state.kept = s.kept := by
  simp [vtopkOp, writesD, Ran.state]
@[simp] theorem execVtopk_keeps (t c : Nat) (f : Fetched) (s : State) : Result.Keeps (execVtopk t c f s) s := by
  unfold execVtopk; exact State.issue_keeps _ _ _ _ _ fun s t c n => by simp

/-! ### Memory -/

@[simp] theorem State.resolve_kept (s : State) (t c ea bytes : Nat) (k : AccKind) : (State.resolve s t c ea bytes k).2.kept = s.kept := by
  unfold State.resolve; dsimp only; (repeat' split) <;> simp
@[simp] theorem State.answered_kept (s : State) (t c id status : Nat) : (State.answered s t c id status).kept = s.kept := by
  simp [State.answered]
@[simp] theorem State.bnAccess_kept (s : State) (t c : Nat) (a : MemAcc) : (State.bnAccess s t c a).kept = s.kept := by
  simp [State.bnAccess]
@[simp] theorem State.sendAccess_kept (s : State) (t c : Nat) (a : MemAcc) : (State.sendAccess s t c a).kept = s.kept := by
  unfold State.sendAccess; split <;> simp [kept_foldl]
@[simp] theorem State.modAccess_kept (s : State) (t c id : Nat) (f : MemAcc → MemAcc) : (State.modAccess s t c id f).kept = s.kept := by
  simp [State.modAccess]
@[simp] theorem State.retireStores_kept (s : State) (t c n : Nat) : (State.retireStores s t c n).kept = s.kept := by
  induction n generalizing s with
  | zero => rfl
  | succ n ih =>
    unfold State.retireStores
    split
    · rfl
    · split
      · split <;> simp
      · rw [ih]; simp
@[simp] theorem State.startAccess_kept (s : State) (t c ea bytes : Nat) (k : AccKind) (f : MemAcc → MemAcc) :
    (s.startAccess t c ea bytes k f).state.kept = s.kept := by
  unfold State.startAccess
  dsimp only
  split <;> simp [Ran.state]
@[simp] theorem ldOp_kept  (s : State) (t c n : Nat) : ((ldOp ).run s t c n).state.kept = s.kept := by
  simp [ldOp]
@[simp] theorem execLd_keeps (t c : Nat) (f : Fetched) (s : State) : Result.Keeps (execLd t c f s) s := by
  unfold execLd; exact State.issue_keeps _ _ _ _ _ fun s t c n => by simp
@[simp] theorem stOp_kept  (s : State) (t c n : Nat) : ((stOp ).run s t c n).state.kept = s.kept := by
  simp [stOp]
@[simp] theorem execSt_keeps (t c : Nat) (f : Fetched) (s : State) : Result.Keeps (execSt t c f s) s := by
  unfold execSt; exact State.issue_keeps _ _ _ _ _ fun s t c n => by simp
@[simp] theorem amoOp_kept  (s : State) (t c n : Nat) : ((amoOp ).run s t c n).state.kept = s.kept := by
  simp [amoOp]
@[simp] theorem execAmo_keeps (t c : Nat) (f : Fetched) (s : State) : Result.Keeps (execAmo t c f s) s := by
  unfold execAmo; exact State.issue_keeps _ _ _ _ _ fun s t c n => by simp
@[simp] theorem State.finishAccess_kept (s : State) (t c : Nat) (a : MemAcc) (status value : Nat) :
    (State.finishAccess s t c a status value).kept = s.kept := by
  simp [State.finishAccess]
@[simp] theorem State.cachedAccess_kept (s : State) (t c : Nat) (a : MemAcc) (corr uncorr : List Nat) :
    (State.cachedAccess s t c a corr uncorr).2.kept = s.kept := by
  unfold State.cachedAccess; split <;> simp [kept_foldl]
@[simp] theorem State.csrPerform_kept (s : State) (a : Agent) (m : MemAcc) : (State.csrPerform s a m).2.2.kept = s.kept := by
  unfold State.csrPerform; (repeat' split) <;> simp [kept_foldl]
@[simp] theorem State.sendMessage_kept (s : State) (t c : Nat) (a : MemAcc) : (State.sendMessage s t c a).kept = s.kept := by
  simp [State.sendMessage]
theorem State.payloadPart_kept (s : State) (t c : Nat) (a : MemAcc) (pa n path : Nat) (l : List (BitVec 8)) (v : State)
    (h : s.payloadPart t c a pa n path = some (l, v)) : v.kept = s.kept := by
  unfold State.payloadPart at h
  dsimp only at h
  have hs : ∀ x : List (BitVec 8) × State, some x = some (l, v) → v = x.2 := fun x hx => by injection hx with hx; rw [hx]
  split at h
  · rw [hs _ h]; simp
  · split at h
    · rw [hs _ h]; simp
    · rw [hs _ h]; simp
    · rw [hs _ h]; simp
    · cases h
@[simp] theorem State.payloadNext_kept (s : State) (t c id fuel : Nat) : (s.payloadNext t c id fuel).kept = s.kept := by
  induction fuel generalizing s with
  | zero => rfl
  | succ fuel ih =>
    unfold State.payloadNext
    split
    · rfl
    · split
      · simp
      · dsimp only
        split
        · rename_i l v hp
          rw [ih]
          have h := State.payloadPart_kept _ _ _ _ _ _ _ _ _ hp
          simp [h]
        · split
          · split
            · simp
            · rw [ih]; simp
          · simp
@[simp] theorem execMemoryResponseArrival_keeps (t c id : Nat) (corr uncorr : List Nat) (s : State) :
    Result.Keeps (execMemoryResponseArrival t c id corr uncorr s) s := by
  unfold execMemoryResponseArrival
  split
  · simp
  · split
    · split <;> simp
    · split
      · split
        · simp
        · split
          · simp
          · dsimp only
            split <;> simp
      · exact (State.when_keeps _ _ _).2 fun _ => by simp
@[simp] theorem State.holdMemory_kept (s : State) (t c : Nat) : (State.holdMemory s t c).kept = s.kept := by
  simp [State.holdMemory]
@[simp] theorem fenceOp_kept  (s : State) (t c n : Nat) : ((fenceOp ).run s t c n).state.kept = s.kept := by
  simp [fenceOp, fenceKind, Ran.state]
@[simp] theorem execFence_keeps (t c : Nat) (f : Fetched) (s : State) : Result.Keeps (execFence t c f s) s := by
  unfold execFence; exact State.issue_keeps _ _ _ _ _ fun s t c n => by simp
@[simp] theorem fenceIOp_kept  (s : State) (t c n : Nat) : ((fenceIOp ).run s t c n).state.kept = s.kept := by
  simp [fenceIOp, fenceKind, Ran.state]
@[simp] theorem execFenceI_keeps (t c : Nat) (f : Fetched) (s : State) : Result.Keeps (execFenceI t c f s) s := by
  unfold execFenceI; exact State.issue_keeps _ _ _ _ _ fun s t c n => by simp
@[simp] theorem lineOp_kept (op : Nat) (run : State → Nat → Nat → Nat → State) (h : ∀ s t c a, (run s t c a).kept = s.kept) (s : State)
    (t c n : Nat) : ((lineOp op run).run s t c n).state.kept = s.kept := by
  have hr : (s.resolve t c (s.sreg t c (saOf n)).toNat 1 1).2.kept = s.kept := by simp
  simp only [lineOp, fenceKind]
  split
  · rfl
  · split
    · rfl
    · split
      · exact hr
      · exact hr
      · exact (h _ _ _ _).trans hr
@[simp] theorem State.cleanBy_kept (s : State) (t c a : Nat) : (State.cleanBy s t c a).kept = s.kept := by
  unfold State.cleanBy; dsimp only; split <;> simp
@[simp] theorem execClean_keeps (t c : Nat) (f : Fetched) (s : State) : Result.Keeps (execClean t c f s) s :=
  State.issue_keeps _ _ _ _ _ (lineOp_kept _ _ fun s t _ a => by simp)
@[simp] theorem execInval_keeps (t c : Nat) (f : Fetched) (s : State) : Result.Keeps (execInval t c f s) s :=
  State.issue_keeps _ _ _ _ _ (lineOp_kept _ _ fun s t c a => by simp)
@[simp] theorem execFlush_keeps (t c : Nat) (f : Fetched) (s : State) : Result.Keeps (execFlush t c f s) s :=
  State.issue_keeps _ _ _ _ _ (lineOp_kept _ _ fun s t c a => by simp)

/-! ### System -/

@[simp] theorem State.csrx_kept (s : State) (t c n : Nat) : (s.csrx t c n).state.kept = s.kept := by
  unfold State.csrx
  dsimp only
  split
  · rfl
  · split
    · simp [Ran.state]
    · split <;> simp [Ran.state]
@[simp] theorem csrxOp_kept (op : Nat) (s : State) (t c n : Nat) : ((csrxOp op).run s t c n).state.kept = s.kept := by
  simp [csrxOp]
@[simp] theorem execCsrr_keeps (t c : Nat) (f : Fetched) (s : State) : Result.Keeps (execCsrr t c f s) s := by
  unfold execCsrr; exact State.issue_keeps _ _ _ _ _ fun s t c n => by simp
@[simp] theorem execCsrw_keeps (t c : Nat) (f : Fetched) (s : State) : Result.Keeps (execCsrw t c f s) s := by
  unfold execCsrw; exact State.issue_keeps _ _ _ _ _ fun s t c n => by simp
@[simp] theorem execCsrs_keeps (t c : Nat) (f : Fetched) (s : State) : Result.Keeps (execCsrs t c f s) s := by
  unfold execCsrs; exact State.issue_keeps _ _ _ _ _ fun s t c n => by simp
@[simp] theorem execCsrc_keeps (t c : Nat) (f : Fetched) (s : State) : Result.Keeps (execCsrc t c f s) s := by
  unfold execCsrc; exact State.issue_keeps _ _ _ _ _ fun s t c n => by simp
@[simp] theorem rdtimeOp_kept  (s : State) (t c n : Nat) : ((rdtimeOp ).run s t c n).state.kept = s.kept := by
  simp [rdtimeOp, sysOp, Ran.state]
@[simp] theorem rdcoreOp_kept  (s : State) (t c n : Nat) : ((rdcoreOp ).run s t c n).state.kept = s.kept := by
  simp [rdcoreOp, sysOp, Ran.state]
@[simp] theorem execRdtime_keeps (t c : Nat) (f : Fetched) (s : State) : Result.Keeps (execRdtime t c f s) s := by
  unfold execRdtime; exact State.issue_keeps _ _ _ _ _ fun s t c n => by simp
@[simp] theorem execRdcore_keeps (t c : Nat) (f : Fetched) (s : State) : Result.Keeps (execRdcore t c f s) s := by
  unfold execRdcore; exact State.issue_keeps _ _ _ _ _ fun s t c n => by simp
@[simp] theorem trapOp_kept  (s : State) (t c n : Nat) : ((trapOp ).run s t c n).state.kept = s.kept := by
  simp [trapOp, sysOp, Ran.state]
@[simp] theorem execTrap_keeps (t c : Nat) (f : Fetched) (s : State) : Result.Keeps (execTrap t c f s) s := by
  unfold execTrap; exact State.issue_keeps _ _ _ _ _ fun s t c n => by simp
@[simp] theorem State.breakHalt_kept (s : State) (t c : Nat) : (State.breakHalt s t c).kept = s.kept := by
  simp [State.breakHalt]
@[simp] theorem breakOp_kept  (s : State) (t c n : Nat) : ((breakOp ).run s t c n).state.kept = s.kept := by
  simp only [breakOp, supOp, sysOp]; (repeat' split) <;> simp [Ran.state]
@[simp] theorem execBreak_keeps (t c : Nat) (f : Fetched) (s : State) : Result.Keeps (execBreak t c f s) s := by
  unfold execBreak; exact State.issue_keeps _ _ _ _ _ fun s t c n => by simp
@[simp] theorem tretOp_kept  (s : State) (t c n : Nat) : ((tretOp ).run s t c n).state.kept = s.kept := by
  simp only [tretOp, supOp, sysOp]; (repeat' split) <;> simp [Ran.state]
@[simp] theorem execTret_keeps (t c : Nat) (f : Fetched) (s : State) : Result.Keeps (execTret t c f s) s := by
  unfold execTret; exact State.issue_keeps _ _ _ _ _ fun s t c n => by simp
@[simp] theorem idleOp_kept  (s : State) (t c n : Nat) : ((idleOp ).run s t c n).state.kept = s.kept := by
  simp only [idleOp, supOp, sysOp]; (repeat' split) <;> simp [Ran.state]
@[simp] theorem execIdle_keeps (t c : Nat) (f : Fetched) (s : State) : Result.Keeps (execIdle t c f s) s := by
  unfold execIdle; exact State.issue_keeps _ _ _ _ _ fun s t c n => by simp
@[simp] theorem State.svWrite_kept (s : State) (t c n : Nat) (v : BitVec 64) : (State.svWrite s t c n v).kept = s.kept := by
  simp [State.svWrite]
@[simp] theorem svgetOp_kept  (s : State) (t c n : Nat) : ((svgetOp ).run s t c n).state.kept = s.kept := by
  simp only [svgetOp, supOp, sysOp]; (repeat' split) <;> simp [Ran.state]
@[simp] theorem svsetOp_kept  (s : State) (t c n : Nat) : ((svsetOp ).run s t c n).state.kept = s.kept := by
  simp only [svsetOp, supOp, sysOp]; (repeat' split) <;> simp [Ran.state]
@[simp] theorem svswapOp_kept  (s : State) (t c n : Nat) : ((svswapOp ).run s t c n).state.kept = s.kept := by
  simp only [svswapOp, supOp, sysOp]; (repeat' split) <;> simp [Ran.state]
@[simp] theorem execSvget_keeps (t c : Nat) (f : Fetched) (s : State) : Result.Keeps (execSvget t c f s) s := by
  unfold execSvget; exact State.issue_keeps _ _ _ _ _ fun s t c n => by simp
@[simp] theorem execSvset_keeps (t c : Nat) (f : Fetched) (s : State) : Result.Keeps (execSvset t c f s) s := by
  unfold execSvset; exact State.issue_keeps _ _ _ _ _ fun s t c n => by simp
@[simp] theorem execSvswap_keeps (t c : Nat) (f : Fetched) (s : State) : Result.Keeps (execSvswap t c f s) s := by
  unfold execSvswap; exact State.issue_keeps _ _ _ _ _ fun s t c n => by simp
@[simp] theorem xlinvOp_kept  (s : State) (t c n : Nat) : ((xlinvOp ).run s t c n).state.kept = s.kept := by
  simp only [xlinvOp, supOp, sysOp]; (repeat' split) <;> simp [Ran.state]
@[simp] theorem execXlinv_keeps (t c : Nat) (f : Fetched) (s : State) : Result.Keeps (execXlinv t c f s) s := by
  unfold execXlinv; exact State.issue_keeps _ _ _ _ _ fun s t c n => by simp
@[simp] theorem State.msgParts_kept (s : State) (t c : Nat) (l : List (Nat × Nat)) : (s.msgParts t c l).2.kept = s.kept := by
  induction l generalizing s with
  | nil => rfl
  | cons p l ih =>
    unfold State.msgParts
    dsimp only
    split
    · simp
    · simp
    · split <;> simp [ih]
@[simp] theorem State.scalarMsg_kept (s : State) (t c n : Nat) : (s.scalarMsg t c n).state.kept = s.kept := by
  unfold State.scalarMsg
  split
  · rfl
  · dsimp only
    split <;> simp [Ran.state]
@[simp] theorem msgOp_kept (op : Nat) (s : State) (t c n : Nat) : ((msgOp op).run s t c n).state.kept = s.kept := by
  simp only [msgOp]
  split
  · simp
  · simp
@[simp] theorem execMsgDesc_keeps (t c : Nat) (f : Fetched) (s : State) : Result.Keeps (execMsgDesc t c f s) s := by
  unfold execMsgDesc; exact State.issue_keeps _ _ _ _ _ fun s t c n => by simp
@[simp] theorem execMsgData_keeps (t c : Nat) (f : Fetched) (s : State) : Result.Keeps (execMsgData t c f s) s := by
  unfold execMsgData; exact State.issue_keeps _ _ _ _ _ fun s t c n => by simp
@[simp] theorem execMsgConc_keeps (t c : Nat) (f : Fetched) (s : State) : Result.Keeps (execMsgConc t c f s) s := by
  unfold execMsgConc; exact State.issue_keeps _ _ _ _ _ fun s t c n => by simp
@[simp] theorem execMsgToken_keeps (t c : Nat) (f : Fetched) (s : State) : Result.Keeps (execMsgToken t c f s) s := by
  unfold execMsgToken; exact State.issue_keeps _ _ _ _ _ fun s t c n => by simp
@[simp] theorem execMsgDoorbell_keeps (t c : Nat) (f : Fetched) (s : State) : Result.Keeps (execMsgDoorbell t c f s) s := by
  unfold execMsgDoorbell; exact State.issue_keeps _ _ _ _ _ fun s t c n => by simp

/-! ### Tick -/

@[simp] theorem State.count_kept (s : State) : (State.count s).kept = s.kept := by
  simp [State.count]

end Sys2Proof.Machine
end

