-- ==== Sys2Proof/Laws/Map.lean ====
section
/-! SUPPORT. Laws of the sparse maps: a read after a write, and that every operation keeps the canonical form. -/

namespace Sys2Proof.Machine.Map

variable {α : Type}

theorem get_erase_same (d : Nat → α) (m : List (Nat × α)) (k : Nat) : get d (erase k m) k = d k := by
  induction m with
  | nil => rfl
  | cons e m ih =>
    by_cases h : e.1 = k
    · simp only [erase, h, if_true, ih]
    · simp only [erase, h, if_false, get, ih]

theorem get_erase_other (d : Nat → α) (m : List (Nat × α)) {j k : Nat} (h : j ≠ k) :
    get d (erase k m) j = get d m j := by
  induction m with
  | nil => rfl
  | cons e m ih =>
    by_cases hk : e.1 = k
    · have : e.1 ≠ j := fun he => h (he ▸ hk)
      simp only [erase, hk, if_true, get, ih]
      rw [if_neg]; exact fun he => h he.symm
    · simp only [erase, hk, if_false, get, ih]

theorem get_insert_same (d : Nat → α) (m : List (Nat × α)) (k : Nat) (v : α)
    (h : ∀ e ∈ m, e.1 ≠ k) : get d (insert k v m) k = v := by
  induction m with
  | nil => simp only [insert, get, if_true]
  | cons e m ih =>
    by_cases hk : k < e.1
    · simp only [insert, hk, if_true, get]
    · simp only [insert, hk, if_false, get]
      rw [if_neg (h e (by simp)), ih (fun x hx => h x (by simp [hx]))]

theorem get_insert_other (d : Nat → α) (m : List (Nat × α)) {j k : Nat} (v : α) (h : j ≠ k) :
    get d (insert k v m) j = get d m j := by
  induction m with
  | nil => simp only [insert, get, if_neg (Ne.symm h)]
  | cons e m ih =>
    by_cases hk : k < e.1
    · simp only [insert, hk, if_true, get, if_neg (Ne.symm h)]
    · simp only [insert, hk, if_false, get, ih]

theorem not_mem_erase (m : List (Nat × α)) (k : Nat) : ∀ e ∈ erase k m, e.1 ≠ k := by
  induction m with
  | nil => simp [erase]
  | cons e m ih =>
    by_cases h : e.1 = k
    · simpa only [erase, h, if_true] using ih
    · simp only [erase, h, if_false, List.mem_cons, forall_eq_or_imp]
      exact ⟨h, ih⟩

/-- A read of the key just written gives the value written. -/
@[simp] theorem get_set_same [DecidableEq α] (d : Nat → α) (m : List (Nat × α)) (k : Nat) (v : α) :
    get d (set d m k v) k = v := by
  by_cases h : v = d k
  · simp only [set, h, if_true, get_erase_same]
  · simp only [set, h, if_false, get_insert_same d _ k v (not_mem_erase m k)]

/-- A write leaves every other key alone. -/
theorem get_set_other [DecidableEq α] (d : Nat → α) (m : List (Nat × α)) {j k : Nat} (v : α) (h : j ≠ k) :
    get d (set d m k v) j = get d m j := by
  by_cases hv : v = d k
  · simp only [set, hv, if_true, get_erase_other d m h]
  · simp only [set, hv, if_false, get_insert_other d _ v h, get_erase_other d m h]

@[simp] theorem get_modify_same [DecidableEq α] (d : Nat → α) (m : List (Nat × α)) (k : Nat) (f : α → α) :
    get d (modify d m k f) k = f (get d m k) := get_set_same d m k _

theorem get_modify_other [DecidableEq α] (d : Nat → α) (m : List (Nat × α)) {j k : Nat} (f : α → α) (h : j ≠ k) :
    get d (modify d m k f) j = get d m j := get_set_other d m _ h

theorem risingFrom_mono {m : List (Nat × α)} {a b : Nat} (h : a ≤ b) (hm : risingFrom b m = true) :
    risingFrom a m = true := by
  cases m with
  | nil => rfl
  | cons e m =>
    simp only [risingFrom, Bool.and_eq_true, decide_eq_true_eq] at hm ⊢
    exact ⟨Nat.le_trans h hm.1, hm.2⟩

theorem risingFrom_erase {m : List (Nat × α)} {b : Nat} (k : Nat) (h : risingFrom b m = true) :
    risingFrom b (erase k m) = true := by
  induction m generalizing b with
  | nil => rfl
  | cons e m ih =>
    simp only [risingFrom, Bool.and_eq_true, decide_eq_true_eq] at h
    by_cases hk : e.1 = k
    · simp only [erase, hk, if_true]
      exact risingFrom_mono (Nat.le_succ_of_le h.1) (ih h.2)
    · simp only [erase, hk, if_false, risingFrom, Bool.and_eq_true, decide_eq_true_eq]
      exact ⟨h.1, ih h.2⟩

theorem risingFrom_insert {m : List (Nat × α)} {b k : Nat} (v : α) (hb : b ≤ k) (hne : ∀ e ∈ m, e.1 ≠ k)
    (h : risingFrom b m = true) : risingFrom b (insert k v m) = true := by
  induction m generalizing b with
  | nil => simp [insert, risingFrom, hb]
  | cons e m ih =>
    simp only [risingFrom, Bool.and_eq_true, decide_eq_true_eq] at h
    by_cases hk : k < e.1
    · simp only [insert, hk, if_true, risingFrom, Bool.and_eq_true, decide_eq_true_eq]
      exact ⟨hb, hk, h.2⟩
    · have hne' : e.1 ≠ k := hne e (by simp)
      simp only [insert, hk, if_false, risingFrom, Bool.and_eq_true, decide_eq_true_eq]
      exact ⟨h.1, ih (by omega) (fun x hx => hne x (by simp [hx])) h.2⟩

theorem mem_erase {m : List (Nat × α)} {k : Nat} {e : Nat × α} (h : e ∈ erase k m) : e ∈ m := by
  induction m with
  | nil => exact h
  | cons x m ih =>
    by_cases hk : x.1 = k
    · simp only [erase, hk, if_true] at h
      exact List.mem_cons_of_mem _ (ih h)
    · simp only [erase, hk, if_false, List.mem_cons] at h
      rcases h with h | h
      · exact h ▸ List.mem_cons_self
      · exact List.mem_cons_of_mem _ (ih h)

theorem mem_insert {m : List (Nat × α)} {k : Nat} {v : α} {e : Nat × α} (h : e ∈ insert k v m) :
    e = (k, v) ∨ e ∈ m := by
  induction m with
  | nil => simpa [insert] using h
  | cons x m ih =>
    by_cases hk : k < x.1
    · simpa [insert, hk] using h
    · simp only [insert, hk, if_false, List.mem_cons] at h
      rcases h with h | h
      · exact Or.inr (h ▸ List.mem_cons_self)
      · rcases ih h with h | h
        · exact Or.inl h
        · exact Or.inr (List.mem_cons_of_mem _ h)

/-- A write keeps the canonical form. -/
theorem wf_set [DecidableEq α] (d : Nat → α) {m : List (Nat × α)} (k : Nat) (v : α) (h : wf d m = true) :
    wf d (set d m k v) = true := by
  simp only [wf, Bool.and_eq_true, noDefault, List.all_eq_true, decide_eq_true_eq] at h ⊢
  by_cases hv : v = d k
  · simp only [set, hv, if_true]
    exact ⟨risingFrom_erase k h.1, fun e he => h.2 e (mem_erase he)⟩
  · simp only [set, hv, if_false]
    refine ⟨risingFrom_insert v (Nat.zero_le _) (not_mem_erase m k) (risingFrom_erase k h.1), fun e he => ?_⟩
    rcases mem_insert he with he | he
    · subst he; exact hv
    · exact h.2 e (mem_erase he)

theorem wf_modify [DecidableEq α] (d : Nat → α) {m : List (Nat × α)} (k : Nat) (f : α → α) (h : wf d m = true) :
    wf d (modify d m k f) = true := wf_set d k _ h

theorem wf_setAll [DecidableEq α] (d : Nat → α) (vs : List α) {m : List (Nat × α)} (k : Nat) (h : wf d m = true) :
    wf d (setAll d m k vs) = true := by
  induction vs generalizing m k with
  | nil => exact h
  | cons v vs ih => exact ih (k + 1) (wf_set d k v h)

theorem risingFrom_filter {m : List (Nat × α)} {b : Nat} (p : Nat × α → Bool) (h : risingFrom b m = true) :
    risingFrom b (m.filter p) = true := by
  induction m generalizing b with
  | nil => rfl
  | cons e m ih =>
    simp only [risingFrom, Bool.and_eq_true, decide_eq_true_eq] at h
    by_cases hp : p e = true
    · simp only [List.filter_cons, hp, if_true, risingFrom, Bool.and_eq_true, decide_eq_true_eq]
      exact ⟨h.1, ih h.2⟩
    · simp only [List.filter_cons, hp]
      exact risingFrom_mono (Nat.le_succ_of_le h.1) (ih h.2)

theorem wf_clearRange [DecidableEq α] (d : Nat → α) {m : List (Nat × α)} (lo hi : Nat) (h : wf d m = true) :
    wf d (clearRange lo hi m) = true := by
  simp only [wf, Bool.and_eq_true, noDefault, List.all_eq_true, decide_eq_true_eq, clearRange] at h ⊢
  exact ⟨risingFrom_filter _ h.1, fun e he => h.2 e ((List.mem_filter.mp he).1)⟩

theorem wf_nil [DecidableEq α] (d : Nat → α) : wf d ([] : List (Nat × α)) = true := rfl

end Sys2Proof.Machine.Map
end

