-- ==== Sys2Proof/Laws/State.lean ====
section
/-! SUPPORT. What the shared updates of the state leave and what they write: one lemma for each field of the state and each update, and the
reads after writes of registers, sites, tile registers and cores. -/

namespace Sys2Proof.Machine

/-! ### A device register -/

@[simp] theorem State.setReg_pending (s : State) (a : Nat) (v : BitVec 32) : (s.setReg a v).pending = s.pending := rfl
@[simp] theorem State.setReg_freeCtr (s : State) (a : Nat) (v : BitVec 32) : (s.setReg a v).freeCtr = s.freeCtr := rfl
@[simp] theorem State.setReg_time (s : State) (a : Nat) (v : BitVec 32) : (s.setReg a v).time = s.time := rfl
@[simp] theorem State.setReg_timeRunning (s : State) (a : Nat) (v : BitVec 32) : (s.setReg a v).timeRunning = s.timeRunning := rfl
@[simp] theorem State.setReg_hiLatch (s : State) (a : Nat) (v : BitVec 32) : (s.setReg a v).hiLatch = s.hiLatch := rfl
@[simp] theorem State.setReg_loHeld (s : State) (a : Nat) (v : BitVec 32) : (s.setReg a v).loHeld = s.loHeld := rfl
@[simp] theorem State.setReg_wires (s : State) (a : Nat) (v : BitVec 32) : (s.setReg a v).wires = s.wires := rfl
@[simp] theorem State.setReg_sites (s : State) (a : Nat) (v : BitVec 32) : (s.setReg a v).sites = s.sites := rfl
@[simp] theorem State.setReg_cat (s : State) (a : Nat) (v : BitVec 32) : (s.setReg a v).cat = s.cat := rfl
@[simp] theorem State.setReg_fuses (s : State) (a : Nat) (v : BitVec 32) : (s.setReg a v).fuses = s.fuses := rfl
@[simp] theorem State.setReg_flash (s : State) (a : Nat) (v : BitVec 32) : (s.setReg a v).flash = s.flash := rfl
@[simp] theorem State.setReg_pins (s : State) (a : Nat) (v : BitVec 32) : (s.setReg a v).pins = s.pins := rfl
@[simp] theorem State.setReg_cur (s : State) (a : Nat) (v : BitVec 32) : (s.setReg a v).cur = s.cur := rfl
@[simp] theorem State.setReg_clk (s : State) (a : Nat) (v : BitVec 32) : (s.setReg a v).clk = s.clk := rfl
@[simp] theorem State.setReg_tim (s : State) (a : Nat) (v : BitVec 32) : (s.setReg a v).tim = s.tim := rfl
@[simp] theorem State.setReg_wings (s : State) (a : Nat) (v : BitVec 32) : (s.setReg a v).wings = s.wings := rfl
@[simp] theorem State.setReg_pwr (s : State) (a : Nat) (v : BitVec 32) : (s.setReg a v).pwr = s.pwr := rfl
@[simp] theorem State.setReg_fab (s : State) (a : Nat) (v : BitVec 32) : (s.setReg a v).fab = s.fab := rfl
@[simp] theorem State.setReg_faults (s : State) (a : Nat) (v : BitVec 32) : (s.setReg a v).faults = s.faults := rfl
@[simp] theorem State.setReg_msix (s : State) (a : Nat) (v : BitVec 32) : (s.setReg a v).msix = s.msix := rfl
@[simp] theorem State.setReg_ctrlOut (s : State) (a : Nat) (v : BitVec 32) : (s.setReg a v).ctrlOut = s.ctrlOut := rfl
@[simp] theorem State.setReg_viol (s : State) (a : Nat) (v : BitVec 32) : (s.setReg a v).viol = s.viol := rfl
@[simp] theorem State.setReg_net (s : State) (a : Nat) (v : BitVec 32) : (s.setReg a v).net = s.net := rfl
@[simp] theorem State.setReg_dram (s : State) (a : Nat) (v : BitVec 32) : (s.setReg a v).dram = s.dram := rfl
@[simp] theorem State.setReg_dbg (s : State) (a : Nat) (v : BitVec 32) : (s.setReg a v).dbg = s.dbg := rfl
@[simp] theorem State.setReg_sec (s : State) (a : Nat) (v : BitVec 32) : (s.setReg a v).sec = s.sec := rfl
@[simp] theorem State.setReg_ports (s : State) (a : Nat) (v : BitVec 32) : (s.setReg a v).ports = s.ports := rfl
@[simp] theorem State.setReg_hst (s : State) (a : Nat) (v : BitVec 32) : (s.setReg a v).hst = s.hst := rfl

/-- A register reads as it was just written; every other register reads as before. -/
@[simp] theorem State.reg_setReg_same (s : State) (a : Nat) (v : BitVec 32) : (s.setReg a v).reg a = v := by
  simp [State.reg, State.setReg]
theorem State.reg_setReg_other (s : State) {a b : Nat} (v : BitVec 32) (h : b ≠ a) : (s.setReg a v).reg b = s.reg b := by
  simp [State.reg, State.setReg, Map.get_set_other _ _ _ h]

/-- A field, a bit and a pair are written through the register. -/
theorem State.setFld_eq (s : State) (a hi lo n : Nat) : s.setFld a hi lo n = s.setReg a (putBits (s.reg a) hi lo n) := rfl
theorem State.setBit_eq (s : State) (a i : Nat) (b : Bool) : s.setBit a i b = s.setFld a i i b.toNat := rfl
theorem State.reg_setFld_other (s : State) {a b : Nat} (hi lo n : Nat) (h : b ≠ a) : (s.setFld a hi lo n).reg b = s.reg b :=
  s.reg_setReg_other _ h
theorem State.reg_setBit_other (s : State) {a b : Nat} (i : Nat) (v : Bool) (h : b ≠ a) : (s.setBit a i v).reg b = s.reg b :=
  s.reg_setReg_other _ h

/-- A write keeps the registers in canonical form. -/
theorem State.setReg_wf (s : State) (a : Nat) (v : BitVec 32) (h : Map.wf devReset s.regs = true) :
    Map.wf devReset (s.setReg a v).regs = true := Map.wf_set _ _ _ h

/-! ### A site -/

@[simp] theorem State.setSite_pending (s : State) (t : Nat) (x : Site) : (s.setSite t x).pending = s.pending := rfl
@[simp] theorem State.setSite_freeCtr (s : State) (t : Nat) (x : Site) : (s.setSite t x).freeCtr = s.freeCtr := rfl
@[simp] theorem State.setSite_time (s : State) (t : Nat) (x : Site) : (s.setSite t x).time = s.time := rfl
@[simp] theorem State.setSite_timeRunning (s : State) (t : Nat) (x : Site) : (s.setSite t x).timeRunning = s.timeRunning := rfl
@[simp] theorem State.setSite_regs (s : State) (t : Nat) (x : Site) : (s.setSite t x).regs = s.regs := rfl
@[simp] theorem State.setSite_hiLatch (s : State) (t : Nat) (x : Site) : (s.setSite t x).hiLatch = s.hiLatch := rfl
@[simp] theorem State.setSite_loHeld (s : State) (t : Nat) (x : Site) : (s.setSite t x).loHeld = s.loHeld := rfl
@[simp] theorem State.setSite_wires (s : State) (t : Nat) (x : Site) : (s.setSite t x).wires = s.wires := rfl
@[simp] theorem State.setSite_cat (s : State) (t : Nat) (x : Site) : (s.setSite t x).cat = s.cat := rfl
@[simp] theorem State.setSite_fuses (s : State) (t : Nat) (x : Site) : (s.setSite t x).fuses = s.fuses := rfl
@[simp] theorem State.setSite_flash (s : State) (t : Nat) (x : Site) : (s.setSite t x).flash = s.flash := rfl
@[simp] theorem State.setSite_pins (s : State) (t : Nat) (x : Site) : (s.setSite t x).pins = s.pins := rfl
@[simp] theorem State.setSite_cur (s : State) (t : Nat) (x : Site) : (s.setSite t x).cur = s.cur := rfl
@[simp] theorem State.setSite_clk (s : State) (t : Nat) (x : Site) : (s.setSite t x).clk = s.clk := rfl
@[simp] theorem State.setSite_tim (s : State) (t : Nat) (x : Site) : (s.setSite t x).tim = s.tim := rfl
@[simp] theorem State.setSite_wings (s : State) (t : Nat) (x : Site) : (s.setSite t x).wings = s.wings := rfl
@[simp] theorem State.setSite_pwr (s : State) (t : Nat) (x : Site) : (s.setSite t x).pwr = s.pwr := rfl
@[simp] theorem State.setSite_fab (s : State) (t : Nat) (x : Site) : (s.setSite t x).fab = s.fab := rfl
@[simp] theorem State.setSite_faults (s : State) (t : Nat) (x : Site) : (s.setSite t x).faults = s.faults := rfl
@[simp] theorem State.setSite_msix (s : State) (t : Nat) (x : Site) : (s.setSite t x).msix = s.msix := rfl
@[simp] theorem State.setSite_ctrlOut (s : State) (t : Nat) (x : Site) : (s.setSite t x).ctrlOut = s.ctrlOut := rfl
@[simp] theorem State.setSite_viol (s : State) (t : Nat) (x : Site) : (s.setSite t x).viol = s.viol := rfl
@[simp] theorem State.setSite_net (s : State) (t : Nat) (x : Site) : (s.setSite t x).net = s.net := rfl
@[simp] theorem State.setSite_dram (s : State) (t : Nat) (x : Site) : (s.setSite t x).dram = s.dram := rfl
@[simp] theorem State.setSite_dbg (s : State) (t : Nat) (x : Site) : (s.setSite t x).dbg = s.dbg := rfl
@[simp] theorem State.setSite_sec (s : State) (t : Nat) (x : Site) : (s.setSite t x).sec = s.sec := rfl
@[simp] theorem State.setSite_ports (s : State) (t : Nat) (x : Site) : (s.setSite t x).ports = s.ports := rfl
@[simp] theorem State.setSite_hst (s : State) (t : Nat) (x : Site) : (s.setSite t x).hst = s.hst := rfl

@[simp] theorem State.modSite_pending (s : State) (t : Nat) (f : Site → Site) : (s.modSite t f).pending = s.pending := rfl
@[simp] theorem State.modSite_freeCtr (s : State) (t : Nat) (f : Site → Site) : (s.modSite t f).freeCtr = s.freeCtr := rfl
@[simp] theorem State.modSite_time (s : State) (t : Nat) (f : Site → Site) : (s.modSite t f).time = s.time := rfl
@[simp] theorem State.modSite_timeRunning (s : State) (t : Nat) (f : Site → Site) : (s.modSite t f).timeRunning = s.timeRunning := rfl
@[simp] theorem State.modSite_regs (s : State) (t : Nat) (f : Site → Site) : (s.modSite t f).regs = s.regs := rfl
@[simp] theorem State.modSite_hiLatch (s : State) (t : Nat) (f : Site → Site) : (s.modSite t f).hiLatch = s.hiLatch := rfl
@[simp] theorem State.modSite_loHeld (s : State) (t : Nat) (f : Site → Site) : (s.modSite t f).loHeld = s.loHeld := rfl
@[simp] theorem State.modSite_wires (s : State) (t : Nat) (f : Site → Site) : (s.modSite t f).wires = s.wires := rfl
@[simp] theorem State.modSite_cat (s : State) (t : Nat) (f : Site → Site) : (s.modSite t f).cat = s.cat := rfl
@[simp] theorem State.modSite_fuses (s : State) (t : Nat) (f : Site → Site) : (s.modSite t f).fuses = s.fuses := rfl
@[simp] theorem State.modSite_flash (s : State) (t : Nat) (f : Site → Site) : (s.modSite t f).flash = s.flash := rfl
@[simp] theorem State.modSite_pins (s : State) (t : Nat) (f : Site → Site) : (s.modSite t f).pins = s.pins := rfl
@[simp] theorem State.modSite_cur (s : State) (t : Nat) (f : Site → Site) : (s.modSite t f).cur = s.cur := rfl
@[simp] theorem State.modSite_clk (s : State) (t : Nat) (f : Site → Site) : (s.modSite t f).clk = s.clk := rfl
@[simp] theorem State.modSite_tim (s : State) (t : Nat) (f : Site → Site) : (s.modSite t f).tim = s.tim := rfl
@[simp] theorem State.modSite_wings (s : State) (t : Nat) (f : Site → Site) : (s.modSite t f).wings = s.wings := rfl
@[simp] theorem State.modSite_pwr (s : State) (t : Nat) (f : Site → Site) : (s.modSite t f).pwr = s.pwr := rfl
@[simp] theorem State.modSite_fab (s : State) (t : Nat) (f : Site → Site) : (s.modSite t f).fab = s.fab := rfl
@[simp] theorem State.modSite_faults (s : State) (t : Nat) (f : Site → Site) : (s.modSite t f).faults = s.faults := rfl
@[simp] theorem State.modSite_msix (s : State) (t : Nat) (f : Site → Site) : (s.modSite t f).msix = s.msix := rfl
@[simp] theorem State.modSite_ctrlOut (s : State) (t : Nat) (f : Site → Site) : (s.modSite t f).ctrlOut = s.ctrlOut := rfl
@[simp] theorem State.modSite_viol (s : State) (t : Nat) (f : Site → Site) : (s.modSite t f).viol = s.viol := rfl
@[simp] theorem State.modSite_net (s : State) (t : Nat) (f : Site → Site) : (s.modSite t f).net = s.net := rfl
@[simp] theorem State.modSite_dram (s : State) (t : Nat) (f : Site → Site) : (s.modSite t f).dram = s.dram := rfl
@[simp] theorem State.modSite_dbg (s : State) (t : Nat) (f : Site → Site) : (s.modSite t f).dbg = s.dbg := rfl
@[simp] theorem State.modSite_sec (s : State) (t : Nat) (f : Site → Site) : (s.modSite t f).sec = s.sec := rfl
@[simp] theorem State.modSite_ports (s : State) (t : Nat) (f : Site → Site) : (s.modSite t f).ports = s.ports := rfl
@[simp] theorem State.modSite_hst (s : State) (t : Nat) (f : Site → Site) : (s.modSite t f).hst = s.hst := rfl

/-- A site reads as it was just written; every other site reads as before. -/
@[simp] theorem State.site_setSite_same (s : State) (t : Nat) (x : Site) : (s.setSite t x).site t = x := by
  simp [State.site, State.setSite]
theorem State.site_setSite_other (s : State) {t u : Nat} (x : Site) (h : u ≠ t) : (s.setSite t x).site u = s.site u := by
  simp [State.site, State.setSite, Map.get_set_other _ _ _ h]
@[simp] theorem State.site_modSite_same (s : State) (t : Nat) (f : Site → Site) : (s.modSite t f).site t = f (s.site t) := by
  simp [State.modSite]
theorem State.site_modSite_other (s : State) {t u : Nat} (f : Site → Site) (h : u ≠ t) : (s.modSite t f).site u = s.site u :=
  s.site_setSite_other _ h

/-- A change of a register leaves every site alone, and a change of a site every device register. -/
@[simp] theorem State.site_setReg (s : State) (a t : Nat) (v : BitVec 32) : (s.setReg a v).site t = s.site t := rfl
@[simp] theorem State.reg_modSite (s : State) (a t : Nat) (f : Site → Site) : (s.modSite t f).reg a = s.reg a := rfl
@[simp] theorem State.reg_setSite (s : State) (a t : Nat) (x : Site) : (s.setSite t x).reg a = s.reg a := rfl

/-- A change keeps the sites in canonical form. -/
theorem State.setSite_wf (s : State) (t : Nat) (x : Site) (h : Map.wf (fun _ => Site.reset) s.sites = true) :
    Map.wf (fun _ => Site.reset) (s.setSite t x).sites = true := Map.wf_set _ _ _ h

/-! ### A tile register -/

@[simp] theorem State.treg_setTreg_same (s : State) (t a : Nat) (v : BitVec 32) : (s.setTreg t a v).treg t a = v := by
  simp [State.treg, State.setTreg]
theorem State.treg_setTreg_other (s : State) {t u a b : Nat} (v : BitVec 32) (h : u ≠ t ∨ b ≠ a) :
    (s.setTreg t a v).treg u b = s.treg u b := by
  by_cases hu : u = t
  · subst hu
    have hb : b ≠ a := h.resolve_left (fun hn => hn rfl)
    simp [State.treg, State.setTreg, Map.get_set_other _ _ _ hb]
  · simp [State.treg, State.setTreg, s.site_modSite_other _ hu]
theorem State.setTfld_eq (s : State) (t a hi lo n : Nat) : s.setTfld t a hi lo n = s.setTreg t a (putBits (s.treg t a) hi lo n) := rfl
theorem State.setTbit_eq (s : State) (t a i : Nat) (b : Bool) : s.setTbit t a i b = s.setTfld t a i i b.toNat := rfl
@[simp] theorem State.reg_setTreg (s : State) (t a b : Nat) (v : BitVec 32) : (s.setTreg t a v).reg b = s.reg b := rfl

/-! ### A core -/

@[simp] theorem State.core_modCore_same (s : State) (t c : Nat) (f : Core → Core) : (s.modCore t c f).core t c = f (s.core t c) := by
  simp [State.core, State.modCore]
theorem State.core_modCore_other (s : State) {t u c d : Nat} (f : Core → Core) (h : u ≠ t ∨ d ≠ c) :
    (s.modCore t c f).core u d = s.core u d := by
  by_cases hu : u = t
  · subst hu
    have hd : d ≠ c := h.resolve_left (fun hn => hn rfl)
    simp [State.core, State.modCore, Map.get_modify_other _ _ _ hd]
  · simp [State.core, State.modCore, s.site_modSite_other _ hu]
@[simp] theorem State.core_setTreg (s : State) (t a u c : Nat) (v : BitVec 32) : (s.setTreg t a v).core u c = s.core u c := by
  by_cases hu : u = t
  · subst hu; simp [State.core, State.setTreg]
  · simp [State.core, State.setTreg, s.site_modSite_other _ hu]
@[simp] theorem State.treg_modCore (s : State) (t c u a : Nat) (f : Core → Core) : (s.modCore t c f).treg u a = s.treg u a := by
  by_cases hu : u = t
  · subst hu; simp [State.treg, State.modCore]
  · simp [State.treg, State.modCore, s.site_modSite_other _ hu]
@[simp] theorem State.reg_modCore (s : State) (t c a : Nat) (f : Core → Core) : (s.modCore t c f).reg a = s.reg a := rfl

/-- R150: an s register reads as it was just written, but s0, which reads 0 and takes no write. -/
@[simp] theorem Core.getS_zero (k : Core) : k.getS 0 = 0 := rfl
theorem Core.getS_setS_same (k : Core) {r : Nat} (v : BitVec 64) (h : r % 32 ≠ 0) : (k.setS r v).getS r = v := by
  simp [Core.getS, Core.setS, h]
theorem Core.getS_setS_other (k : Core) {r q : Nat} (v : BitVec 64) (h : q % 32 ≠ r % 32) : (k.setS r v).getS q = k.getS q := by
  by_cases hr : r % 32 = 0
  · simp [Core.setS, hr]
  · simp [Core.getS, Core.setS, hr, Map.get_set_other _ _ _ h]
theorem Core.setS_zero (k : Core) (v : BitVec 64) : k.setS 0 v = k := rfl

/-! ### The memories -/

/-- A write of the program store keeps it in canonical form. -/
theorem State.progWrite_wf (s : State) (t i u : Nat) (w : BitVec 32) (h : Map.wf (fun _ => (0 : BitVec 32)) (s.site u).prog = true) :
    Map.wf (fun _ => (0 : BitVec 32)) ((s.progWrite t i w).site u).prog = true := by
  unfold State.progWrite
  split
  · exact h
  · split
    · by_cases hu : u = t
      · subst hu; simpa using Map.wf_set _ _ _ h
      · rw [s.site_modSite_other _ hu]; exact h
    · by_cases hu : u = t
      · subst hu; simpa [State.setTbit, State.setTfld, State.setTreg] using h
      · simpa [State.setTbit, State.setTfld, State.setTreg, s.site_modSite_other _ hu] using h

end Sys2Proof.Machine
end

