-- ==== Sys2Proof/Laws/Reads.lean ====
section
/-! SUPPORT. Reads after writes of the fields and bits of device and tile registers. -/

namespace Sys2Proof.Machine

/-- One bit is the field of one bit. -/
theorem getLsbD_eq_getBits (v : BitVec 32) (i : Nat) : v.getLsbD i = (getBits v i i).testBit 0 := by
  rw [testBit_getBits]; simp

/-- A bit reads as it was just written. -/
theorem getLsbD_putBit_same (v : BitVec 32) (i : Nat) (b : Bool) (h : i < 32) : (putBits v i i b.toNat).getLsbD i = b := by
  rw [getLsbD_putBits _ _ _ _ _ h, if_pos (by omega)]
  cases b <;> simp

/-- A field that was written whole to an empty register. -/
theorem getBits_lt (v : BitVec 32) (hi lo : Nat) : getBits v hi lo < 2 ^ (hi - lo + 1) := Nat.mod_lt _ (Nat.two_pow_pos _)

/-! ### Device registers -/

theorem State.fld_setFld_same (s : State) (a hi lo n : Nat) (hl : lo ≤ hi) (hh : hi < 32) :
    (s.setFld a hi lo n).fld a hi lo = n % 2 ^ (hi - lo + 1) := by
  simp [State.fld, State.setFld, getBits_putBits_same _ _ _ _ hl hh]
theorem State.fld_setFld_other (s : State) (a hi lo hi' lo' n : Nat) (h : hi' < lo ∨ hi < lo') (hl : lo ≤ hi) (hl' : lo' ≤ hi') :
    (s.setFld a hi lo n).fld a hi' lo' = s.fld a hi' lo' := by
  simp [State.fld, State.setFld, getBits_putBits_other _ _ _ _ _ _ h hl hl']
theorem State.fld_setFld_ne (s : State) {a b : Nat} (hi lo hi' lo' n : Nat) (h : b ≠ a) :
    (s.setFld a hi lo n).fld b hi' lo' = s.fld b hi' lo' := by
  simp [State.fld, s.reg_setFld_other hi lo n h]
theorem State.bit_setFld_other (s : State) (a hi lo i n : Nat) (h : i < lo ∨ hi < i) (hl : lo ≤ hi) :
    (s.setFld a hi lo n).bit a i = s.bit a i := by
  simp [State.bit, State.setFld, putBits_outside _ _ _ _ _ h hl]
theorem State.bit_setFld_in (s : State) (a hi lo i n : Nat) (h : lo ≤ i) (h' : i ≤ hi) (hh : hi < 32) :
    (s.setFld a hi lo n).bit a i = n.testBit (i - lo) := by
  simp [State.bit, State.setFld]
  rw [getLsbD_putBits _ _ _ _ _ (by omega), if_pos (by omega)]
theorem State.bit_setFld_ne (s : State) {a b : Nat} (hi lo n i : Nat) (h : b ≠ a) : (s.setFld a hi lo n).bit b i = s.bit b i := by
  simp [State.bit, s.reg_setFld_other hi lo n h]
theorem State.bit_setBit_same (s : State) (a i : Nat) (b : Bool) (h : i < 32) : (s.setBit a i b).bit a i = b := by
  simp [State.bit, State.setBit, State.setFld, getLsbD_putBit_same _ _ _ h]
theorem State.bit_setBit_other (s : State) (a i j : Nat) (b : Bool) (h : j ≠ i) : (s.setBit a i b).bit a j = s.bit a j :=
  s.bit_setFld_other a i i j _ (by omega) (Nat.le_refl i)
theorem State.bit_setBit_ne (s : State) {a b : Nat} (i j : Nat) (v : Bool) (h : b ≠ a) : (s.setBit a i v).bit b j = s.bit b j :=
  s.bit_setFld_ne i i _ j h
theorem State.fld_setBit_other (s : State) (a i hi lo : Nat) (b : Bool) (h : hi < i ∨ i < lo) (hl : lo ≤ hi) :
    (s.setBit a i b).fld a hi lo = s.fld a hi lo :=
  s.fld_setFld_other a i i hi lo _ h (Nat.le_refl i) hl
theorem State.fld_setBit_ne (s : State) {a b : Nat} (i hi lo : Nat) (v : Bool) (h : b ≠ a) : (s.setBit a i v).fld b hi lo = s.fld b hi lo :=
  s.fld_setFld_ne i i hi lo _ h
theorem State.fld_setReg_ne (s : State) {a b : Nat} (hi lo : Nat) (v : BitVec 32) (h : b ≠ a) : (s.setReg a v).fld b hi lo = s.fld b hi lo := by
  simp [State.fld, s.reg_setReg_other v h]
theorem State.bit_setReg_ne (s : State) {a b : Nat} (i : Nat) (v : BitVec 32) (h : b ≠ a) : (s.setReg a v).bit b i = s.bit b i := by
  simp [State.bit, s.reg_setReg_other v h]

/-- A pair reads as it was just written, modulo 2^64. -/
theorem State.reg64_setReg64_same (s : State) (a n : Nat) : (s.setReg64 a n).reg64 a = n % 2 ^ 64 := by
  have h : (s.setReg64 a n).reg a = BitVec.ofNat 32 n := by
    rw [State.setReg64, State.reg_setReg_other _ _ (by omega), State.reg_setReg_same]
  have h' : (s.setReg64 a n).reg (a + 4) = BitVec.ofNat 32 (n / 2 ^ 32) := by rw [State.setReg64, State.reg_setReg_same]
  rw [State.reg64, h, h', BitVec.toNat_ofNat, BitVec.toNat_ofNat]
  omega
theorem State.reg_setReg64_other (s : State) {a b : Nat} (n : Nat) (h : b ≠ a) (h' : b ≠ a + 4) : (s.setReg64 a n).reg b = s.reg b := by
  rw [State.setReg64, State.reg_setReg_other _ _ h', State.reg_setReg_other _ _ h]

/-! ### Tile registers -/

theorem State.tfld_setTfld_same (s : State) (t a hi lo n : Nat) (hl : lo ≤ hi) (hh : hi < 32) :
    (s.setTfld t a hi lo n).tfld t a hi lo = n % 2 ^ (hi - lo + 1) := by
  simp [State.tfld, State.setTfld, getBits_putBits_same _ _ _ _ hl hh]
theorem State.tfld_setTfld_other (s : State) (t a hi lo hi' lo' n : Nat) (h : hi' < lo ∨ hi < lo') (hl : lo ≤ hi) (hl' : lo' ≤ hi') :
    (s.setTfld t a hi lo n).tfld t a hi' lo' = s.tfld t a hi' lo' := by
  simp [State.tfld, State.setTfld, getBits_putBits_other _ _ _ _ _ _ h hl hl']
theorem State.tfld_setTfld_ne (s : State) {t u a b : Nat} (hi lo hi' lo' n : Nat) (h : u ≠ t ∨ b ≠ a) :
    (s.setTfld t a hi lo n).tfld u b hi' lo' = s.tfld u b hi' lo' := by
  simp [State.tfld, State.setTfld, s.treg_setTreg_other _ h]
theorem State.tbit_setTfld_other (s : State) (t a hi lo i n : Nat) (h : i < lo ∨ hi < i) (hl : lo ≤ hi) :
    (s.setTfld t a hi lo n).tbit t a i = s.tbit t a i := by
  simp [State.tbit, State.setTfld, putBits_outside _ _ _ _ _ h hl]
theorem State.tbit_setTfld_ne (s : State) {t u a b : Nat} (hi lo i n : Nat) (h : u ≠ t ∨ b ≠ a) :
    (s.setTfld t a hi lo n).tbit u b i = s.tbit u b i := by
  simp [State.tbit, State.setTfld, s.treg_setTreg_other _ h]
theorem State.tbit_setTbit_same (s : State) (t a i : Nat) (b : Bool) (h : i < 32) : (s.setTbit t a i b).tbit t a i = b := by
  simp [State.tbit, State.setTbit, State.setTfld, getLsbD_putBit_same _ _ _ h]
theorem State.tbit_setTbit_other (s : State) (t a i j : Nat) (b : Bool) (h : j ≠ i) : (s.setTbit t a i b).tbit t a j = s.tbit t a j :=
  s.tbit_setTfld_other t a i i j _ (by omega) (Nat.le_refl i)
theorem State.tbit_setTbit_ne (s : State) {t u a b : Nat} (i j : Nat) (v : Bool) (h : u ≠ t ∨ b ≠ a) :
    (s.setTbit t a i v).tbit u b j = s.tbit u b j := s.tbit_setTfld_ne i i j _ h
theorem State.tfld_setTbit_other (s : State) (t a i hi lo : Nat) (b : Bool) (h : hi < i ∨ i < lo) (hl : lo ≤ hi) :
    (s.setTbit t a i b).tfld t a hi lo = s.tfld t a hi lo := s.tfld_setTfld_other t a i i hi lo _ h (Nat.le_refl i) hl
theorem State.treg_setTfld_ne (s : State) {t u a b : Nat} (hi lo n : Nat) (h : u ≠ t ∨ b ≠ a) :
    (s.setTfld t a hi lo n).treg u b = s.treg u b := s.treg_setTreg_other _ h
@[simp] theorem State.reg_setTfld (s : State) (t a hi lo n b : Nat) : (s.setTfld t a hi lo n).reg b = s.reg b := rfl
@[simp] theorem State.reg_setTbit (s : State) (t a i : Nat) (v : Bool) (b : Nat) : (s.setTbit t a i v).reg b = s.reg b := rfl
@[simp] theorem State.core_setTfld (s : State) (t a hi lo n u c : Nat) : (s.setTfld t a hi lo n).core u c = s.core u c := s.core_setTreg t a u c _
@[simp] theorem State.core_setTbit (s : State) (t a i u c : Nat) (v : Bool) : (s.setTbit t a i v).core u c = s.core u c := s.core_setTreg t a u c _
@[simp] theorem State.core_setReg (s : State) (a t c : Nat) (v : BitVec 32) : (s.setReg a v).core t c = s.core t c := rfl
@[simp] theorem State.treg_setReg (s : State) (a t b : Nat) (v : BitVec 32) : (s.setReg a v).treg t b = s.treg t b := rfl

end Sys2Proof.Machine
end

