-- ==== Sys2Proof/WellFormed.lean ====
section
/-! DEFINITION. Which commands the module can be given: operands within the ranges of the spec's numbering. A meaning is defined for every
operand; these checks say which commands stand for something that can happen. -/

namespace Sys2Proof

/-- R21: a TileID names a site. -/
def tileOk (t : Nat) : Bool := t < 3072

/-- R411: a VF's number. -/
def vfOk (k : Nat) : Bool := 1 ≤ k && k < 64

/-- The agent exists. -/
def agentOk (a : Agent) : Bool :=
  match a with
  | .vf k => vfOk k
  | .core t c => tileOk t && c < 4
  | .remote d => d < 65536
  | .host => true
  | .pf1 => true
  | .curator => true
  | .tap => true

/-- R155: a 32-bit instruction has no upper word; an error lies in the lower or the upper word. -/
def fetchedOk (f : Fetched) : Bool :=
  match f with
  | .word w => w.getLsbD 0 || w.toNat < 2 ^ 32
  | .refetched o w => (o == 0 || o == 4) && (w.getLsbD 0 || w.toNat < 2 ^ 32)
  | .ecc o => o == 0 || o == 4

/-- The operands of a command are within their ranges. -/
def Instr.wf (i : Instr) : Bool :=
  match i with
  | .aluRegisterOp tile core fetched => tileOk tile && core < 4 && fetchedOk fetched
  | .immediateOp tile core fetched => tileOk tile && core < 4 && fetchedOk fetched
  | .li tile core fetched => tileOk tile && core < 4 && fetchedOk fetched
  | .mulDiv tile core fetched => tileOk tile && core < 4 && fetchedOk fetched
  | .bitOp tile core fetched => tileOk tile && core < 4 && fetchedOk fetched
  | .cmp tile core fetched => tileOk tile && core < 4 && fetchedOk fetched
  | .cmpi tile core fetched => tileOk tile && core < 4 && fetchedOk fetched
  | .predicateOp tile core fetched => tileOk tile && core < 4 && fetchedOk fetched
  | .br tile core fetched => tileOk tile && core < 4 && fetchedOk fetched
  | .brl tile core fetched => tileOk tile && core < 4 && fetchedOk fetched
  | .jr tile core fetched => tileOk tile && core < 4 && fetchedOk fetched
  | .nop tile core fetched => tileOk tile && core < 4 && fetchedOk fetched
  | .endOp tile core fetched => tileOk tile && core < 4 && fetchedOk fetched
  | .wfe tile core fetched => tileOk tile && core < 4 && fetchedOk fetched
  | .wfeTimeout tile core => tileOk tile && core < 4
  | .ld tile core fetched => tileOk tile && core < 4 && fetchedOk fetched
  | .st tile core fetched => tileOk tile && core < 4 && fetchedOk fetched
  | .memoryResponseArrival tile core _ _ _ => tileOk tile && core < 4
  | .amo tile core fetched => tileOk tile && core < 4 && fetchedOk fetched
  | .fence tile core fetched => tileOk tile && core < 4 && fetchedOk fetched
  | .fenceI tile core fetched => tileOk tile && core < 4 && fetchedOk fetched
  | .clean tile core fetched => tileOk tile && core < 4 && fetchedOk fetched
  | .inval tile core fetched => tileOk tile && core < 4 && fetchedOk fetched
  | .flush tile core fetched => tileOk tile && core < 4 && fetchedOk fetched
  | .csrr tile core fetched => tileOk tile && core < 4 && fetchedOk fetched
  | .csrw tile core fetched => tileOk tile && core < 4 && fetchedOk fetched
  | .csrs tile core fetched => tileOk tile && core < 4 && fetchedOk fetched
  | .csrc tile core fetched => tileOk tile && core < 4 && fetchedOk fetched
  | .rdtime tile core fetched => tileOk tile && core < 4 && fetchedOk fetched
  | .rdcore tile core fetched => tileOk tile && core < 4 && fetchedOk fetched
  | .trap tile core fetched => tileOk tile && core < 4 && fetchedOk fetched
  | .breakOp tile core fetched => tileOk tile && core < 4 && fetchedOk fetched
  | .tret tile core fetched => tileOk tile && core < 4 && fetchedOk fetched
  | .idle tile core fetched => tileOk tile && core < 4 && fetchedOk fetched
  | .svget tile core fetched => tileOk tile && core < 4 && fetchedOk fetched
  | .svset tile core fetched => tileOk tile && core < 4 && fetchedOk fetched
  | .svswap tile core fetched => tileOk tile && core < 4 && fetchedOk fetched
  | .xlinv tile core fetched => tileOk tile && core < 4 && fetchedOk fetched
  | .coreFaulted tile core => tileOk tile && core < 4
  | .svTimerExpiry tile core => tileOk tile && core < 4
  | .interruptTaken tile core => tileOk tile && core < 4
  | .start agent tile core => agentOk agent && tileOk tile && core < 4
  | .stop agent tile core => agentOk agent && tileOk tile && core < 4
  | .wake agent tile core => agentOk agent && tileOk tile && core < 4
  | .coreStopped tile core => tileOk tile && core < 4
  | .programStoreWrite agent tile index _ => agentOk agent && tileOk tile && index < 32768
  | .tkSet tile core fetched => tileOk tile && core < 4 && fetchedOk fetched
  | .tkAdd tile core fetched => tileOk tile && core < 4 && fetchedOk fetched
  | .tkTake tile core fetched => tileOk tile && core < 4 && fetchedOk fetched
  | .tkRead tile core fetched => tileOk tile && core < 4 && fetchedOk fetched
  | .engWait tile core fetched => tileOk tile && core < 4 && fetchedOk fetched
  | .engNotify tile core fetched => tileOk tile && core < 4 && fetchedOk fetched
  | .tdSet tile core fetched => tileOk tile && core < 4 && fetchedOk fetched
  | .tdGetlo tile core fetched => tileOk tile && core < 4 && fetchedOk fetched
  | .tdGethi tile core fetched => tileOk tile && core < 4 && fetchedOk fetched
  | .tdAddr tile core fetched => tileOk tile && core < 4 && fetchedOk fetched
  | .ahSet tile core fetched => tileOk tile && core < 4 && fetchedOk fetched
  | .ahGet tile core fetched => tileOk tile && core < 4 && fetchedOk fetched
  | .mm tile core fetched => tileOk tile && core < 4 && fetchedOk fetched
  | .cbLoad tile core fetched => tileOk tile && core < 4 && fetchedOk fetched
  | .dr tile core fetched => tileOk tile && core < 4 && fetchedOk fetched
  | .accScale tile core fetched => tileOk tile && core < 4 && fetchedOk fetched
  | .smInit tile core fetched => tileOk tile && core < 4 && fetchedOk fetched
  | .smStore tile core fetched => tileOk tile && core < 4 && fetchedOk fetched
  | .smLoad tile core fetched => tileOk tile && core < 4 && fetchedOk fetched
  | .stepClose tile core fetched => tileOk tile && core < 4 && fetchedOk fetched
  | .accDrop tile core fetched => tileOk tile && core < 4 && fetchedOk fetched
  | .actLoad tile core fetched => tileOk tile && core < 4 && fetchedOk fetched
  | .fxLoad tile core fetched => tileOk tile && core < 4 && fetchedOk fetched
  | .fxStore tile core fetched => tileOk tile && core < 4 && fetchedOk fetched
  | .fxWload tile core fetched => tileOk tile && core < 4 && fetchedOk fetched
  | .fxWstore tile core fetched => tileOk tile && core < 4 && fetchedOk fetched
  | .msgDesc tile core fetched => tileOk tile && core < 4 && fetchedOk fetched
  | .msgData tile core fetched => tileOk tile && core < 4 && fetchedOk fetched
  | .msgConc tile core fetched => tileOk tile && core < 4 && fetchedOk fetched
  | .msgToken tile core fetched => tileOk tile && core < 4 && fetchedOk fetched
  | .msgDoorbell tile core fetched => tileOk tile && core < 4 && fetchedOk fetched
  | .qcnt tile core fetched => tileOk tile && core < 4 && fetchedOk fetched
  | .qhead tile core fetched => tileOk tile && core < 4 && fetchedOk fetched
  | .qpop tile core fetched => tileOk tile && core < 4 && fetchedOk fetched
  | .qnotify tile core fetched => tileOk tile && core < 4 && fetchedOk fetched
  | .vectorFp32 tile core fetched => tileOk tile && core < 4 && fetchedOk fetched
  | .vectorBf16 tile core fetched => tileOk tile && core < 4 && fetchedOk fetched
  | .vectorInteger tile core fetched => tileOk tile && core < 4 && fetchedOk fetched
  | .laneMove tile core fetched => tileOk tile && core < 4 && fetchedOk fetched
  | .vq tile core fetched => tileOk tile && core < 4 && fetchedOk fetched
  | .vx tile core fetched => tileOk tile && core < 4 && fetchedOk fetched
  | .vcvtI2f tile core fetched => tileOk tile && core < 4 && fetchedOk fetched
  | .vcvtF2i tile core fetched => tileOk tile && core < 4 && fetchedOk fetched
  | .specialFunction tile core fetched => tileOk tile && core < 4 && fetchedOk fetched
  | .vld tile core fetched => tileOk tile && core < 4 && fetchedOk fetched
  | .vst tile core fetched => tileOk tile && core < 4 && fetchedOk fetched
  | .vldC tile core fetched => tileOk tile && core < 4 && fetchedOk fetched
  | .vstC tile core fetched => tileOk tile && core < 4 && fetchedOk fetched
  | .vgather tile core fetched => tileOk tile && core < 4 && fetchedOk fetched
  | .vscatter tile core fetched => tileOk tile && core < 4 && fetchedOk fetched
  | .vscatterAdd tile core fetched => tileOk tile && core < 4 && fetchedOk fetched
  | .vscatterAddWrite tile => tileOk tile
  | .vsort tile core fetched => tileOk tile && core < 4 && fetchedOk fetched
  | .vtopk tile core fetched => tileOk tile && core < 4 && fetchedOk fetched
  | .engineIssue tile _ _ _ => tileOk tile
  | .engineComplete tile _ => tileOk tile
  | .passStart tile => tileOk tile
  | .stationaryRowWrite tile => tileOk tile
  | .loaderRowRead tile => tileOk tile
  | .streamUnitRead tile => tileOk tile
  | .initialisingCommit tile => tileOk tile
  | .chunkCompletion tile => tileOk tile
  | .codebookTakesEffect tile => tileOk tile
  | .drainComplete tile => tileOk tile
  | .quantClose agent tile slot => agentOk agent && tileOk tile && slot < 8
  | .quantClear agent tile slot => agentOk agent && tileOk tile && slot < 8
  | .vitRequestAccept tile _ _ => tileOk tile
  | .vitAccessComplete tile => tileOk tile
  | .eccWriteback tile _ => tileOk tile
  | .segOpen agent tile segment => agentOk agent && tileOk tile && segment < 8
  | .segClose agent tile segment => agentOk agent && tileOk tile && segment < 8
  | .segOff agent tile segment => agentOk agent && tileOk tile && segment < 8
  | .segDrainEnd tile segment => tileOk tile && segment < 8
  | .segPowerOffEnd tile segment => tileOk tile && segment < 8
  | .segInitEnd tile segment => tileOk tile && segment < 8
  | .sL2CfgWrite agent tile _ => agentOk agent && tileOk tile
  | .l2ReconfigDone tile => tileOk tile
  | .dramRead _ flips _ => flips.all fun e => e.1 < 80
  | .dramWrite _ => true
  | .dramPartialWrite _ flips _ => flips.all fun e => e.1 < 80
  | .dramCorrectedRewrite stack _ => stack < 32
  | .rebuildComplete reached => reached.1 < 32 && reached.2 ≤ 2 ^ 35
  | .rowRetire stack channel bank row die _ => stack < 32 && channel < 32 && bank < 32 && row < 16384 && die < 10
  | .rowRemapSwitch stack channel bank row => stack < 32 && channel < 32 && bank < 32 && row < 16384
  | .patrolRead tile channel flips _ => tileOk tile && channel < 32 && flips.all fun e => e.1 < 80
  | .refresh stack => stack < 32
  | .stackTempChange stack _ => stack < 32
  | .zeroingScrubStart _ => true
  | .zeroingScrubEnd _ => true
  | .packetInject _ => true
  | .routerHop router out flit => tileOk router && out < 7 && flit < 3
  | .packetReceive _ => true
  | .queueEntryPublish tile queue => tileOk tile && queue < 64
  | .queuedMessagePlaced tile => tileOk tile
  | .completionReceive _ => true
  | .queueOpen agent tile queue => agentOk agent && tileOk tile && queue < 64
  | .queueClose agent tile queue => agentOk agent && tileOk tile && queue < 64
  | .windowOpen agent tile window => agentOk agent && tileOk tile && window < 256
  | .windowClose agent tile window => agentOk agent && tileOk tile && window < 256
  | .windowCommandApply _ _ => true
  | .windowBusyClear tile => tileOk tile
  | .concContribution tile => tileOk tile
  | .concDelivery tile slot _ => tileOk tile && slot < 16
  | .concNotify tile slot => tileOk tile && slot < 16
  | .concCfgWrite agent tile slot _ => agentOk agent && tileOk tile && slot < 16
  | .snArrive agent tile context => agentOk agent && tileOk tile && context < 256
  | .snSet agent tile context => agentOk agent && tileOk tile && context < 256
  | .snClear agent tile context => agentOk agent && tileOk tile && context < 256
  | .snNoOperation agent tile context => agentOk agent && tileOk tile && context < 256
  | .barrierRelease context => context < 256
  | .barArrive port context round => port < 32 && context < 256 && round < 256
  | .barRelease port context round => port < 32 && context < 256 && round < 256
  | .netStall tile _ vc => tileOk tile && vc < 4
  | .engineStall tile => tileOk tile
  | .cnBroadcast kind offset _ => kind < 4 && offset < 2 ^ 20
  | .load agent => agentOk agent
  | .cancel agent => agentOk agent
  | .discard agent => agentOk agent
  | .imageValidationDone => true
  | .arm agent _ => agentOk agent
  | .quiesceSample => true
  | .swap => true
  | .swapEnd => true
  | .claim agent kind index => agentOk agent && kind < 8 && index < 256
  | .release agent kind index => agentOk agent && kind < 8 && index < 256
  | .cataloguePublish => true
  | .hold agent tile => agentOk agent && tileOk tile
  | .holdRelease agent tile => agentOk agent && tileOk tile
  | .opSwitchRequest agent _ => agentOk agent
  | .raiseCheck _ => true
  | .opSwitch => true
  | .opSwitchRestart => true
  | .lowerRampStart => true
  | .settlingEnd => true
  | .refclkLoss ref => ref < 3
  | .refclkReturn ref => ref < 3
  | .seamAlarm link _ separation => link.1 < 336 && separation < 9
  | .timeSlew => true
  | .syncPulseOut => true
  | .tsyncInEdge => true
  | .timeReq port t1 => port < 32 && t1 < 2 ^ 64
  | .timeResp port t1 t2 t3 => port < 32 && t1 < 2 ^ 64 && t2 < 2 ^ 64 && t3 < 2 ^ 64
  | .syncSourceLost => true
  | .timSyncCtlWrite agent _ => agentOk agent
  | .timPulseAtWrite agent _ => agentOk agent
  | .scheduledPulse => true
  | .timerArm agent timer _ => agentOk agent && timer < 32
  | .timerFire timer => timer < 32
  | .wingOn agent wing => agentOk agent && wing < 16
  | .wingOff agent wing => agentOk agent && wing < 16
  | .inrushGrant => true
  | .wingClockStart wing => wing < 16
  | .inrushRelease wing => wing < 16
  | .wingPowerUpDone wing _ _ _ => wing < 16
  | .capStep _ => true
  | .throttleStatus => true
  | .calibration _ => true
  | .railTrip wing _ _ => wing < 16
  | .stageTrip rail => rail < 4
  | .droopOnset wing _ => wing < 16
  | .droopEnd wing => wing < 16
  | .vminRearm agent wing => agentOk agent && wing < 16
  | .vbringConnect agent wing _ _ => agentOk agent && wing < 16
  | .vbringDisconnect write => agentOk write.1 && write.2 < 16
  | .vbringOvercurrent _ => true
  | .bringEnDeassert => true
  | .ageingCheck wing _ => wing < 16
  | .thermalSample wing _ => wing < 16
  | .thermalCapAdjust => true
  | .thermalEmergency wing => wing < 16
  | .emergencyEnd wing => wing < 16
  | .thermalTrip wing sensor _ => wing < 16 && sensor < 32
  | .vaux5Apply => true
  | .vaux5Loss => true
  | .vin48Change _ => true
  | .fwAliveTimeout => true
  | .stageS1 _ _ _ => true
  | .stageS2 _ _ _ _ => true
  | .stageS3 => true
  | .stageS4 _ _ _ => true
  | .stageS5 => true
  | .modReset _ => true
  | .moduleResetCommand agent => agentOk agent
  | .curatorRestart agent => agentOk agent
  | .watchdogRestart _ => true
  | .tileReset agent tile => agentOk agent && tileOk tile
  | .tileResetDone tile => tileOk tile
  | .partitionReset agent partition => agentOk agent && partition < 256
  | .partitionResetAtP => true
  | .partitionResetDone => true
  | .iftDue tile => tileOk tile
  | .iftOverdue tile => tileOk tile
  | .iftGrant agent partition _ => agentOk agent && partition < 256
  | .iftStart tile => tileOk tile
  | .iftEnd tile _ => tileOk tile
  | .cnPoll tile => tileOk tile
  | .cnPollTimeout tile => tileOk tile
  | .portTraining port => port < 32
  | .trainingStepTimeout port _ _ => port < 32
  | .portUp port _ _ _ _ serial _ _ => port < 32 && serial < 2 ^ 64
  | .trainingRetry port => port < 32
  | .portStatePublish port => port < 32
  | .frameReceive port _ _ _ _ _ => port < 32
  | .nak port _ => port < 32
  | .ackTimeout port => port < 32
  | .portDown port => port < 32
  | .keyEpochAdvance port => port < 32
  | .peerId port deviceId _ => port < 32 && deviceId < 65536
  | .peerIdReq port => port < 32
  | .retrain agent port => agentOk agent && port < 32
  | .disable agent port => agentOk agent && port < 32
  | .enable agent port => agentOk agent && port < 32
  | .pcieMemoryRequest _ _ _ _ _ => true
  | .hostLinkRetrain _ _ => true
  | .perstN _ => true
  | .surpriseDown => true
  | .fnMsgToken fn => fn < 64
  | .fnMsgDoorbell fn => fn < 64
  | .fnMsgDesc fn => fn < 64
  | .copyDescriptorStart fn channel _ _ _ _ => fn < 64 && channel < 4
  | .copyDescriptorComplete fn channel => fn < 64 && channel < 4
  | .channelReset fn channel => fn < 64 && channel < 4
  | .hstMsixRaise agent fn vector => agentOk agent && fn < 64 && vector < 32
  | .mailboxGo agent => agentOk agent
  | .getVersion => true
  | .getIdentity => true
  | .fwWrite _ => true
  | .fwCommit _ => true
  | .recoveryBoot _ => true
  | .vbringTest _ => true
  | .mailboxComplete => true
  | .mctpMessage _ kind _ => kind < 128
  | .getMeasurements _ _ => true
  | .ideKmKeyInstall stream => stream < 9
  | .ideIntegrityFailure stream => stream < 9
  | .lockInterface vf stream => vfOk vf && stream < 9
  | .stopInterface vf => vfOk vf
  | .hstVfBindWrite agent vf _ => agentOk agent && vfOk vf
  | .scrubPartition agent partition => agentOk agent && partition < 256
  | .scrubIdle agent => agentOk agent
  | .siteScrubEnd tile => tileOk tile
  | .scrubDone partition => partition < 256
  | .secFenceCheck agent partition => agentOk agent && partition < 256
  | .attach agent tile core => agentOk agent && tileOk tile && core < 4
  | .halt agent tile core => agentOk agent && tileOk tile && core < 4
  | .resume agent tile core => agentOk agent && tileOk tile && core < 4
  | .step agent tile core => agentOk agent && tileOk tile && core < 4
  | .detach agent tile core => agentOk agent && tileOk tile && core < 4
  | .debugRead agent space => agentOk agent && space < 2
  | .debugWrite agent space => agentOk agent && space < 2
  | .tapInstruction instr _ => instr < 32
  | .traceArm agent buffer tile _ => agentOk agent && buffer < 8 && tileOk tile
  | .counterBankSample bank => bank < 64
  | .eccRateCheck _ => true
  | .pairedAccessCompare lead => tileOk lead
  | .fltLogHeadWrite agent _ => agentOk agent
  | .registerWrite agent address _ => agentOk agent && address < 2 ^ 48
  | .timeSyncExchange => true
  | .voltageSensorSample wing _ => wing < 16
  | .hoursSinceColdTick => true
  | .hostLinkUp _ _ => true
  | .pcieConfigRequest fn _ _ _ _ => fn < 66
  | .startInterface vf => vfOk vf
  | .keyExchange _ => true
  | .tapReset _ => true
  | .snWavefrontArrival context tile => context < 256 && tileOk tile

end Sys2Proof
end

