-- ==== Sys2Proof/Tests/Slice0.lean ====
section
/-! SUPPORT. Tests: ill-formed commands are refused, worked examples of the specification, and for each statement with hypotheses a state and
operands that meet them. -/

namespace Sys2Proof.Tests

open Sys2Proof Sys2Proof.Machine

set_option Elab.async false

/-! ### Well-formed commands -/

/-- Commands whose operands are in range are well formed, one of each constructor. -/
theorem test_wf_accepts_1 :
    ([.aluRegisterOp 0 0 (.word 0), .immediateOp 0 0 (.word 0), .li 0 0 (.word 0), .mulDiv 0 0 (.word 0), .bitOp 0 0 (.word 0),
     .cmp 0 0 (.word 0), .cmpi 0 0 (.word 0), .predicateOp 0 0 (.word 0), .br 0 0 (.word 0), .brl 0 0 (.word 0), .jr 0 0 (.word 0),
     .nop 0 0 (.word 0), .endOp 0 0 (.word 0), .wfe 0 0 (.word 0), .wfeTimeout 0 0, .ld 0 0 (.word 0), .st 0 0 (.word 0),
     .memoryResponseArrival 0 0 0 [] [], .amo 0 0 (.word 0), .fence 0 0 (.word 0), .fenceI 0 0 (.word 0), .clean 0 0 (.word 0),
     .inval 0 0 (.word 0), .flush 0 0 (.word 0), .csrr 0 0 (.word 0), .csrw 0 0 (.word 0), .csrs 0 0 (.word 0), .csrc 0 0 (.word 0),
     .rdtime 0 0 (.word 0), .rdcore 0 0 (.word 0), .trap 0 0 (.word 0), .breakOp 0 0 (.word 0), .tret 0 0 (.word 0), .idle 0 0 (.word 0),
     .svget 0 0 (.word 0), .svset 0 0 (.word 0), .svswap 0 0 (.word 0), .xlinv 0 0 (.word 0), .coreFaulted 0 0, .svTimerExpiry 0 0] : List Instr).all (fun i => i.wf) = true := by decide

/-- The same. -/
theorem test_wf_accepts_2 :
    ([.interruptTaken 0 0, .start .host 0 0, .stop .host 0 0, .wake .host 0 0, .coreStopped 0 0, .programStoreWrite .host 0 0 0,
     .tkSet 0 0 (.word 0), .tkAdd 0 0 (.word 0), .tkTake 0 0 (.word 0), .tkRead 0 0 (.word 0), .engWait 0 0 (.word 0), .engNotify 0 0 (.word 0),
     .tdSet 0 0 (.word 0), .tdGetlo 0 0 (.word 0), .tdGethi 0 0 (.word 0), .tdAddr 0 0 (.word 0), .ahSet 0 0 (.word 0), .ahGet 0 0 (.word 0),
     .mm 0 0 (.word 0), .cbLoad 0 0 (.word 0), .dr 0 0 (.word 0), .accScale 0 0 (.word 0), .smInit 0 0 (.word 0), .smStore 0 0 (.word 0),
     .smLoad 0 0 (.word 0), .stepClose 0 0 (.word 0), .accDrop 0 0 (.word 0), .actLoad 0 0 (.word 0), .fxLoad 0 0 (.word 0),
     .fxStore 0 0 (.word 0), .fxWload 0 0 (.word 0), .fxWstore 0 0 (.word 0), .msgDesc 0 0 (.word 0), .msgData 0 0 (.word 0),
     .msgConc 0 0 (.word 0), .msgToken 0 0 (.word 0), .msgDoorbell 0 0 (.word 0), .qcnt 0 0 (.word 0), .qhead 0 0 (.word 0),
     .qpop 0 0 (.word 0)] : List Instr).all (fun i => i.wf) = true := by decide

/-- The same. -/
theorem test_wf_accepts_3 :
    ([.qnotify 0 0 (.word 0), .vectorFp32 0 0 (.word 0), .vectorBf16 0 0 (.word 0), .vectorInteger 0 0 (.word 0), .laneMove 0 0 (.word 0),
     .vq 0 0 (.word 0), .vx 0 0 (.word 0), .vcvtI2f 0 0 (.word 0), .vcvtF2i 0 0 (.word 0), .specialFunction 0 0 (.word 0), .vld 0 0 (.word 0),
     .vst 0 0 (.word 0), .vldC 0 0 (.word 0), .vstC 0 0 (.word 0), .vgather 0 0 (.word 0), .vscatter 0 0 (.word 0), .vscatterAdd 0 0 (.word 0),
     .vscatterAddWrite 0, .vsort 0 0 (.word 0), .vtopk 0 0 (.word 0), .engineIssue 0 .fetch [] [], .engineComplete 0 .fetch, .passStart 0,
     .stationaryRowWrite 0, .loaderRowRead 0, .streamUnitRead 0, .initialisingCommit 0, .chunkCompletion 0, .codebookTakesEffect 0,
     .drainComplete 0, .quantClose .host 0 0, .quantClear .host 0 0, .vitRequestAccept 0 [] [], .vitAccessComplete 0, .eccWriteback 0 0,
     .segOpen .host 0 0, .segClose .host 0 0, .segOff .host 0 0, .segDrainEnd 0 0, .segPowerOffEnd 0 0] : List Instr).all (fun i => i.wf) = true := by decide

/-- The same. -/
theorem test_wf_accepts_4 :
    ([.segInitEnd 0 0, .sL2CfgWrite .host 0 0, .l2ReconfigDone 0, .dramRead 0 [] none, .dramWrite 0, .dramPartialWrite 0 [] none,
     .dramCorrectedRewrite 0 0, .rebuildComplete (0, 0), .rowRetire 0 0 0 0 0 false, .rowRemapSwitch 0 0 0 0, .patrolRead 0 0 [] none,
     .refresh 0, .stackTempChange 0 (0, 0, 0, 0), .zeroingScrubStart 0, .zeroingScrubEnd 0, .packetInject 0, .routerHop 0 0 0, .packetReceive 0,
     .queueEntryPublish 0 0, .queuedMessagePlaced 0, .completionReceive 0, .queueOpen .host 0 0, .queueClose .host 0 0, .windowOpen .host 0 0,
     .windowClose .host 0 0, .windowCommandApply 0 0, .windowBusyClear 0, .concContribution 0, .concDelivery 0 0 [], .concNotify 0 0,
     .concCfgWrite .host 0 0 0, .snArrive .host 0 0, .snSet .host 0 0, .snClear .host 0 0, .snNoOperation .host 0 0, .barrierRelease 0,
     .barArrive 0 0 0, .barRelease 0 0 0, .netStall 0 0 0, .engineStall 0] : List Instr).all (fun i => i.wf) = true := by decide

/-- The same. -/
theorem test_wf_accepts_5 :
    ([.cnBroadcast 0 0 0, .load .host, .cancel .host, .discard .host, .imageValidationDone, .arm .host 0, .quiesceSample, .swap, .swapEnd,
     .claim .host 0 0, .release .host 0 0, .cataloguePublish, .hold .host 0, .holdRelease .host 0, .opSwitchRequest .host 0, .raiseCheck [],
     .opSwitch, .opSwitchRestart, .lowerRampStart, .settlingEnd, .refclkLoss 0, .refclkReturn 0, .seamAlarm (0, false) false 0, .timeSlew,
     .syncPulseOut, .tsyncInEdge, .timeReq 0 0, .timeResp 0 0 0 0, .syncSourceLost, .timSyncCtlWrite .host 0, .timPulseAtWrite .host 0,
     .scheduledPulse, .timerArm .host 0 0, .timerFire 0, .wingOn .host 0, .wingOff .host 0, .inrushGrant, .wingClockStart 0, .inrushRelease 0,
     .wingPowerUpDone 0 ([], []) ([], []) 0] : List Instr).all (fun i => i.wf) = true := by decide

/-- The same. -/
theorem test_wf_accepts_6 :
    ([.capStep [], .throttleStatus, .calibration [], .railTrip 0 0 0, .stageTrip 0, .droopOnset 0 0, .droopEnd 0, .vminRearm .host 0,
     .vbringConnect .host 0 false 0, .vbringDisconnect (.host, 0), .vbringOvercurrent 0, .bringEnDeassert, .ageingCheck 0 false,
     .thermalSample 0 0, .thermalCapAdjust, .thermalEmergency 0, .emergencyEnd 0, .thermalTrip 0 0 0, .vaux5Apply, .vaux5Loss,
     .vin48Change false, .fwAliveTimeout, .stageS1 [] [] [], .stageS2 ([], []) [] [] [], .stageS3, .stageS4 [] [] [], .stageS5, .modReset 0,
     .moduleResetCommand .host, .curatorRestart .host, .watchdogRestart 0, .tileReset .host 0, .tileResetDone 0, .partitionReset .host 0,
     .partitionResetAtP, .partitionResetDone, .iftDue 0, .iftOverdue 0, .iftGrant .host 0 0, .iftStart 0] : List Instr).all (fun i => i.wf) = true := by decide

/-- The same. -/
theorem test_wf_accepts_7 :
    ([.iftEnd 0 0, .cnPoll 0, .cnPollTimeout 0, .portTraining 0, .trainingStepTimeout 0 0 (0, false), .portUp 0 0 0 0 0 0 false false,
     .trainingRetry 0, .portStatePublish 0, .frameReceive 0 [] [] false 0 0, .nak 0 0, .ackTimeout 0, .portDown 0, .keyEpochAdvance 0,
     .peerId 0 0 false, .peerIdReq 0, .retrain .host 0, .disable .host 0, .enable .host 0, .pcieMemoryRequest false 0 0 [] none,
     .hostLinkRetrain 0 0, .perstN false, .surpriseDown, .fnMsgToken 0, .fnMsgDoorbell 0, .fnMsgDesc 0, .copyDescriptorStart 0 0 0 false [] [],
     .copyDescriptorComplete 0 0, .channelReset 0 0, .hstMsixRaise .host 0 0, .mailboxGo .host, .getVersion, .getIdentity, .fwWrite false,
     .fwCommit false, .recoveryBoot false, .vbringTest [], .mailboxComplete, .mctpMessage false 0 [], .getMeasurements [] [],
     .ideKmKeyInstall 0] : List Instr).all (fun i => i.wf) = true := by decide

/-- The same. -/
theorem test_wf_accepts_8 :
    ([.ideIntegrityFailure 0, .lockInterface 1 0, .stopInterface 1, .hstVfBindWrite .host 1 0, .scrubPartition .host 0, .scrubIdle .host,
     .siteScrubEnd 0, .scrubDone 0, .secFenceCheck .host 0, .attach .host 0 0, .halt .host 0 0, .resume .host 0 0, .step .host 0 0,
     .detach .host 0 0, .debugRead .host 0, .debugWrite .host 0, .tapInstruction 0 false, .traceArm .host 0 0 0, .counterBankSample 0,
     .eccRateCheck [], .pairedAccessCompare 0, .fltLogHeadWrite .host 0, .registerWrite .host 0 0, .timeSyncExchange, .voltageSensorSample 0 [],
     .hoursSinceColdTick, .hostLinkUp 0 0, .pcieConfigRequest 0 0 0 0 0, .startInterface 1, .keyExchange [], .tapReset 0,
     .snWavefrontArrival 0 0] : List Instr).all (fun i => i.wf) = true := by decide

/-- Commands with a TileID past 3,071 (R21) are refused. -/
theorem test_wf_refuses_tile_1 :
    ([.aluRegisterOp 3072 0 (.word 0), .immediateOp 3072 0 (.word 0), .li 3072 0 (.word 0), .mulDiv 3072 0 (.word 0), .bitOp 3072 0 (.word 0),
     .cmp 3072 0 (.word 0), .cmpi 3072 0 (.word 0), .predicateOp 3072 0 (.word 0), .br 3072 0 (.word 0), .brl 3072 0 (.word 0),
     .jr 3072 0 (.word 0), .nop 3072 0 (.word 0), .endOp 3072 0 (.word 0), .wfe 3072 0 (.word 0), .wfeTimeout 3072 0, .ld 3072 0 (.word 0),
     .st 3072 0 (.word 0), .memoryResponseArrival 3072 0 0 [] [], .amo 3072 0 (.word 0), .fence 3072 0 (.word 0), .fenceI 3072 0 (.word 0),
     .clean 3072 0 (.word 0), .inval 3072 0 (.word 0), .flush 3072 0 (.word 0), .csrr 3072 0 (.word 0), .csrw 3072 0 (.word 0),
     .csrs 3072 0 (.word 0), .csrc 3072 0 (.word 0), .rdtime 3072 0 (.word 0), .rdcore 3072 0 (.word 0), .trap 3072 0 (.word 0),
     .breakOp 3072 0 (.word 0), .tret 3072 0 (.word 0), .idle 3072 0 (.word 0), .svget 3072 0 (.word 0), .svset 3072 0 (.word 0),
     .svswap 3072 0 (.word 0), .xlinv 3072 0 (.word 0), .coreFaulted 3072 0, .svTimerExpiry 3072 0] : List Instr).all (fun i => !i.wf) = true := by decide

/-- The same. -/
theorem test_wf_refuses_tile_2 :
    ([.interruptTaken 3072 0, .start .host 3072 0, .stop .host 3072 0, .wake .host 3072 0, .coreStopped 3072 0,
     .programStoreWrite .host 3072 0 0, .tkSet 3072 0 (.word 0), .tkAdd 3072 0 (.word 0), .tkTake 3072 0 (.word 0), .tkRead 3072 0 (.word 0),
     .engWait 3072 0 (.word 0), .engNotify 3072 0 (.word 0), .tdSet 3072 0 (.word 0), .tdGetlo 3072 0 (.word 0), .tdGethi 3072 0 (.word 0),
     .tdAddr 3072 0 (.word 0), .ahSet 3072 0 (.word 0), .ahGet 3072 0 (.word 0), .mm 3072 0 (.word 0), .cbLoad 3072 0 (.word 0),
     .dr 3072 0 (.word 0), .accScale 3072 0 (.word 0), .smInit 3072 0 (.word 0), .smStore 3072 0 (.word 0), .smLoad 3072 0 (.word 0),
     .stepClose 3072 0 (.word 0), .accDrop 3072 0 (.word 0), .actLoad 3072 0 (.word 0), .fxLoad 3072 0 (.word 0), .fxStore 3072 0 (.word 0),
     .fxWload 3072 0 (.word 0), .fxWstore 3072 0 (.word 0), .msgDesc 3072 0 (.word 0), .msgData 3072 0 (.word 0), .msgConc 3072 0 (.word 0),
     .msgToken 3072 0 (.word 0), .msgDoorbell 3072 0 (.word 0), .qcnt 3072 0 (.word 0), .qhead 3072 0 (.word 0), .qpop 3072 0 (.word 0)] : List Instr).all (fun i => !i.wf) = true := by decide

/-- The same. -/
theorem test_wf_refuses_tile_3 :
    ([.qnotify 3072 0 (.word 0), .vectorFp32 3072 0 (.word 0), .vectorBf16 3072 0 (.word 0), .vectorInteger 3072 0 (.word 0),
     .laneMove 3072 0 (.word 0), .vq 3072 0 (.word 0), .vx 3072 0 (.word 0), .vcvtI2f 3072 0 (.word 0), .vcvtF2i 3072 0 (.word 0),
     .specialFunction 3072 0 (.word 0), .vld 3072 0 (.word 0), .vst 3072 0 (.word 0), .vldC 3072 0 (.word 0), .vstC 3072 0 (.word 0),
     .vgather 3072 0 (.word 0), .vscatter 3072 0 (.word 0), .vscatterAdd 3072 0 (.word 0), .vscatterAddWrite 3072, .vsort 3072 0 (.word 0),
     .vtopk 3072 0 (.word 0), .engineIssue 3072 .fetch [] [], .engineComplete 3072 .fetch, .passStart 3072, .stationaryRowWrite 3072,
     .loaderRowRead 3072, .streamUnitRead 3072, .initialisingCommit 3072, .chunkCompletion 3072, .codebookTakesEffect 3072, .drainComplete 3072,
     .quantClose .host 3072 0, .quantClear .host 3072 0, .vitRequestAccept 3072 [] [], .vitAccessComplete 3072, .eccWriteback 3072 0,
     .segOpen .host 3072 0, .segClose .host 3072 0, .segOff .host 3072 0, .segDrainEnd 3072 0, .segPowerOffEnd 3072 0] : List Instr).all (fun i => !i.wf) = true := by decide

/-- The same. -/
theorem test_wf_refuses_tile_4 :
    ([.segInitEnd 3072 0, .sL2CfgWrite .host 3072 0, .l2ReconfigDone 3072, .patrolRead 3072 0 [] none, .queueEntryPublish 3072 0,
     .queuedMessagePlaced 3072, .queueOpen .host 3072 0, .queueClose .host 3072 0, .windowOpen .host 3072 0, .windowClose .host 3072 0,
     .windowBusyClear 3072, .concContribution 3072, .concDelivery 3072 0 [], .concNotify 3072 0, .concCfgWrite .host 3072 0 0,
     .snArrive .host 3072 0, .snSet .host 3072 0, .snClear .host 3072 0, .snNoOperation .host 3072 0, .netStall 3072 0 0, .engineStall 3072,
     .hold .host 3072, .holdRelease .host 3072, .tileReset .host 3072, .tileResetDone 3072, .iftDue 3072, .iftOverdue 3072, .iftStart 3072,
     .iftEnd 3072 0, .cnPoll 3072, .cnPollTimeout 3072, .siteScrubEnd 3072, .attach .host 3072 0, .halt .host 3072 0, .resume .host 3072 0,
     .step .host 3072 0, .detach .host 3072 0, .traceArm .host 0 3072 0, .pairedAccessCompare 3072, .snWavefrontArrival 0 3072] : List Instr).all (fun i => !i.wf) = true := by decide

/-- Commands with a core past 3 (R149) are refused. -/
theorem test_wf_refuses_core_1 :
    ([.aluRegisterOp 0 4 (.word 0), .immediateOp 0 4 (.word 0), .li 0 4 (.word 0), .mulDiv 0 4 (.word 0), .bitOp 0 4 (.word 0),
     .cmp 0 4 (.word 0), .cmpi 0 4 (.word 0), .predicateOp 0 4 (.word 0), .br 0 4 (.word 0), .brl 0 4 (.word 0), .jr 0 4 (.word 0),
     .nop 0 4 (.word 0), .endOp 0 4 (.word 0), .wfe 0 4 (.word 0), .wfeTimeout 0 4, .ld 0 4 (.word 0), .st 0 4 (.word 0),
     .memoryResponseArrival 0 4 0 [] [], .amo 0 4 (.word 0), .fence 0 4 (.word 0), .fenceI 0 4 (.word 0), .clean 0 4 (.word 0),
     .inval 0 4 (.word 0), .flush 0 4 (.word 0), .csrr 0 4 (.word 0), .csrw 0 4 (.word 0), .csrs 0 4 (.word 0), .csrc 0 4 (.word 0),
     .rdtime 0 4 (.word 0), .rdcore 0 4 (.word 0), .trap 0 4 (.word 0), .breakOp 0 4 (.word 0), .tret 0 4 (.word 0), .idle 0 4 (.word 0),
     .svget 0 4 (.word 0), .svset 0 4 (.word 0), .svswap 0 4 (.word 0), .xlinv 0 4 (.word 0), .coreFaulted 0 4, .svTimerExpiry 0 4] : List Instr).all (fun i => !i.wf) = true := by decide

/-- The same. -/
theorem test_wf_refuses_core_2 :
    ([.interruptTaken 0 4, .start .host 0 4, .stop .host 0 4, .wake .host 0 4, .coreStopped 0 4, .tkSet 0 4 (.word 0), .tkAdd 0 4 (.word 0),
     .tkTake 0 4 (.word 0), .tkRead 0 4 (.word 0), .engWait 0 4 (.word 0), .engNotify 0 4 (.word 0), .tdSet 0 4 (.word 0),
     .tdGetlo 0 4 (.word 0), .tdGethi 0 4 (.word 0), .tdAddr 0 4 (.word 0), .ahSet 0 4 (.word 0), .ahGet 0 4 (.word 0), .mm 0 4 (.word 0),
     .cbLoad 0 4 (.word 0), .dr 0 4 (.word 0), .accScale 0 4 (.word 0), .smInit 0 4 (.word 0), .smStore 0 4 (.word 0), .smLoad 0 4 (.word 0),
     .stepClose 0 4 (.word 0), .accDrop 0 4 (.word 0), .actLoad 0 4 (.word 0), .fxLoad 0 4 (.word 0), .fxStore 0 4 (.word 0),
     .fxWload 0 4 (.word 0), .fxWstore 0 4 (.word 0), .msgDesc 0 4 (.word 0), .msgData 0 4 (.word 0), .msgConc 0 4 (.word 0),
     .msgToken 0 4 (.word 0), .msgDoorbell 0 4 (.word 0), .qcnt 0 4 (.word 0), .qhead 0 4 (.word 0), .qpop 0 4 (.word 0),
     .qnotify 0 4 (.word 0)] : List Instr).all (fun i => !i.wf) = true := by decide

/-- The same. -/
theorem test_wf_refuses_core_3 :
    ([.vectorFp32 0 4 (.word 0), .vectorBf16 0 4 (.word 0), .vectorInteger 0 4 (.word 0), .laneMove 0 4 (.word 0), .vq 0 4 (.word 0),
     .vx 0 4 (.word 0), .vcvtI2f 0 4 (.word 0), .vcvtF2i 0 4 (.word 0), .specialFunction 0 4 (.word 0), .vld 0 4 (.word 0), .vst 0 4 (.word 0),
     .vldC 0 4 (.word 0), .vstC 0 4 (.word 0), .vgather 0 4 (.word 0), .vscatter 0 4 (.word 0), .vscatterAdd 0 4 (.word 0),
     .vsort 0 4 (.word 0), .vtopk 0 4 (.word 0), .attach .host 0 4, .halt .host 0 4, .resume .host 0 4, .step .host 0 4, .detach .host 0 4] : List Instr).all (fun i => !i.wf) = true := by decide

/-- Commands with a 32-bit word with an upper word (R155) are refused. -/
theorem test_wf_refuses_fetched_1 :
    ([.aluRegisterOp 0 0 (.word 0x1_0000_0000), .immediateOp 0 0 (.word 0x1_0000_0000), .li 0 0 (.word 0x1_0000_0000),
     .mulDiv 0 0 (.word 0x1_0000_0000), .bitOp 0 0 (.word 0x1_0000_0000), .cmp 0 0 (.word 0x1_0000_0000), .cmpi 0 0 (.word 0x1_0000_0000),
     .predicateOp 0 0 (.word 0x1_0000_0000), .br 0 0 (.word 0x1_0000_0000), .brl 0 0 (.word 0x1_0000_0000), .jr 0 0 (.word 0x1_0000_0000),
     .nop 0 0 (.word 0x1_0000_0000), .endOp 0 0 (.word 0x1_0000_0000), .wfe 0 0 (.word 0x1_0000_0000), .ld 0 0 (.word 0x1_0000_0000),
     .st 0 0 (.word 0x1_0000_0000), .amo 0 0 (.word 0x1_0000_0000), .fence 0 0 (.word 0x1_0000_0000), .fenceI 0 0 (.word 0x1_0000_0000),
     .clean 0 0 (.word 0x1_0000_0000), .inval 0 0 (.word 0x1_0000_0000), .flush 0 0 (.word 0x1_0000_0000), .csrr 0 0 (.word 0x1_0000_0000),
     .csrw 0 0 (.word 0x1_0000_0000), .csrs 0 0 (.word 0x1_0000_0000), .csrc 0 0 (.word 0x1_0000_0000), .rdtime 0 0 (.word 0x1_0000_0000),
     .rdcore 0 0 (.word 0x1_0000_0000), .trap 0 0 (.word 0x1_0000_0000), .breakOp 0 0 (.word 0x1_0000_0000), .tret 0 0 (.word 0x1_0000_0000),
     .idle 0 0 (.word 0x1_0000_0000), .svget 0 0 (.word 0x1_0000_0000), .svset 0 0 (.word 0x1_0000_0000), .svswap 0 0 (.word 0x1_0000_0000),
     .xlinv 0 0 (.word 0x1_0000_0000), .tkSet 0 0 (.word 0x1_0000_0000), .tkAdd 0 0 (.word 0x1_0000_0000), .tkTake 0 0 (.word 0x1_0000_0000),
     .tkRead 0 0 (.word 0x1_0000_0000)] : List Instr).all (fun i => !i.wf) = true := by decide

/-- The same. -/
theorem test_wf_refuses_fetched_2 :
    ([.engWait 0 0 (.word 0x1_0000_0000), .engNotify 0 0 (.word 0x1_0000_0000), .tdSet 0 0 (.word 0x1_0000_0000),
     .tdGetlo 0 0 (.word 0x1_0000_0000), .tdGethi 0 0 (.word 0x1_0000_0000), .tdAddr 0 0 (.word 0x1_0000_0000),
     .ahSet 0 0 (.word 0x1_0000_0000), .ahGet 0 0 (.word 0x1_0000_0000), .mm 0 0 (.word 0x1_0000_0000), .cbLoad 0 0 (.word 0x1_0000_0000),
     .dr 0 0 (.word 0x1_0000_0000), .accScale 0 0 (.word 0x1_0000_0000), .smInit 0 0 (.word 0x1_0000_0000), .smStore 0 0 (.word 0x1_0000_0000),
     .smLoad 0 0 (.word 0x1_0000_0000), .stepClose 0 0 (.word 0x1_0000_0000), .accDrop 0 0 (.word 0x1_0000_0000),
     .actLoad 0 0 (.word 0x1_0000_0000), .fxLoad 0 0 (.word 0x1_0000_0000), .fxStore 0 0 (.word 0x1_0000_0000),
     .fxWload 0 0 (.word 0x1_0000_0000), .fxWstore 0 0 (.word 0x1_0000_0000), .msgDesc 0 0 (.word 0x1_0000_0000),
     .msgData 0 0 (.word 0x1_0000_0000), .msgConc 0 0 (.word 0x1_0000_0000), .msgToken 0 0 (.word 0x1_0000_0000),
     .msgDoorbell 0 0 (.word 0x1_0000_0000), .qcnt 0 0 (.word 0x1_0000_0000), .qhead 0 0 (.word 0x1_0000_0000), .qpop 0 0 (.word 0x1_0000_0000),
     .qnotify 0 0 (.word 0x1_0000_0000), .vectorFp32 0 0 (.word 0x1_0000_0000), .vectorBf16 0 0 (.word 0x1_0000_0000),
     .vectorInteger 0 0 (.word 0x1_0000_0000), .laneMove 0 0 (.word 0x1_0000_0000), .vq 0 0 (.word 0x1_0000_0000),
     .vx 0 0 (.word 0x1_0000_0000), .vcvtI2f 0 0 (.word 0x1_0000_0000), .vcvtF2i 0 0 (.word 0x1_0000_0000),
     .specialFunction 0 0 (.word 0x1_0000_0000)] : List Instr).all (fun i => !i.wf) = true := by decide

/-- The same. -/
theorem test_wf_refuses_fetched_3 :
    ([.vld 0 0 (.word 0x1_0000_0000), .vst 0 0 (.word 0x1_0000_0000), .vldC 0 0 (.word 0x1_0000_0000), .vstC 0 0 (.word 0x1_0000_0000),
     .vgather 0 0 (.word 0x1_0000_0000), .vscatter 0 0 (.word 0x1_0000_0000), .vscatterAdd 0 0 (.word 0x1_0000_0000),
     .vsort 0 0 (.word 0x1_0000_0000), .vtopk 0 0 (.word 0x1_0000_0000)] : List Instr).all (fun i => !i.wf) = true := by decide

/-- Commands with VF 0, which is no agent (R411) are refused. -/
theorem test_wf_refuses_agent_1 :
    ([.start (.vf 0) 0 0, .stop (.vf 0) 0 0, .wake (.vf 0) 0 0, .programStoreWrite (.vf 0) 0 0 0, .quantClose (.vf 0) 0 0,
     .quantClear (.vf 0) 0 0, .segOpen (.vf 0) 0 0, .segClose (.vf 0) 0 0, .segOff (.vf 0) 0 0, .sL2CfgWrite (.vf 0) 0 0,
     .queueOpen (.vf 0) 0 0, .queueClose (.vf 0) 0 0, .windowOpen (.vf 0) 0 0, .windowClose (.vf 0) 0 0, .concCfgWrite (.vf 0) 0 0 0,
     .snArrive (.vf 0) 0 0, .snSet (.vf 0) 0 0, .snClear (.vf 0) 0 0, .snNoOperation (.vf 0) 0 0, .load (.vf 0), .cancel (.vf 0),
     .discard (.vf 0), .arm (.vf 0) 0, .claim (.vf 0) 0 0, .release (.vf 0) 0 0, .hold (.vf 0) 0, .holdRelease (.vf 0) 0,
     .opSwitchRequest (.vf 0) 0, .timSyncCtlWrite (.vf 0) 0, .timPulseAtWrite (.vf 0) 0, .timerArm (.vf 0) 0 0, .wingOn (.vf 0) 0,
     .wingOff (.vf 0) 0, .vminRearm (.vf 0) 0, .vbringConnect (.vf 0) 0 false 0, .vbringDisconnect (.vf 0, 0), .moduleResetCommand (.vf 0),
     .curatorRestart (.vf 0), .tileReset (.vf 0) 0, .partitionReset (.vf 0) 0] : List Instr).all (fun i => !i.wf) = true := by decide

/-- The same. -/
theorem test_wf_refuses_agent_2 :
    ([.iftGrant (.vf 0) 0 0, .retrain (.vf 0) 0, .disable (.vf 0) 0, .enable (.vf 0) 0, .hstMsixRaise (.vf 0) 0 0, .mailboxGo (.vf 0),
     .hstVfBindWrite (.vf 0) 1 0, .scrubPartition (.vf 0) 0, .scrubIdle (.vf 0), .secFenceCheck (.vf 0) 0, .attach (.vf 0) 0 0,
     .halt (.vf 0) 0 0, .resume (.vf 0) 0 0, .step (.vf 0) 0 0, .detach (.vf 0) 0 0, .debugRead (.vf 0) 0, .debugWrite (.vf 0) 0,
     .traceArm (.vf 0) 0 0 0, .fltLogHeadWrite (.vf 0) 0, .registerWrite (.vf 0) 0 0] : List Instr).all (fun i => !i.wf) = true := by decide

/-- Commands with an operand (index) out of its range are refused. -/
theorem test_wf_refuses_index :
    ([.programStoreWrite .host 0 32768 0, .claim .host 0 256, .release .host 0 256] : List Instr).all (fun i => !i.wf) = true := by decide

/-- Commands with a slot past the last are refused. -/
theorem test_wf_refuses_slot :
    ([.quantClose .host 0 8, .quantClear .host 0 8, .concDelivery 0 16 [], .concNotify 0 16, .concCfgWrite .host 0 16 0] : List Instr).all (fun i => !i.wf) = true := by decide

/-- Commands with a segment past 7 are refused. -/
theorem test_wf_refuses_segment :
    ([.segOpen .host 0 8, .segClose .host 0 8, .segOff .host 0 8, .segDrainEnd 0 8, .segPowerOffEnd 0 8, .segInitEnd 0 8] : List Instr).all (fun i => !i.wf) = true := by decide

/-- Commands with a byte past the 80 of a block (R241) are refused. -/
theorem test_wf_refuses_flips :
    ([.dramRead 0 [(80, 1)] none, .dramPartialWrite 0 [(80, 1)] none, .patrolRead 0 0 [(80, 1)] none] : List Instr).all (fun i => !i.wf) = true := by decide

/-- Commands with a stack past 31 are refused. -/
theorem test_wf_refuses_stack :
    ([.dramCorrectedRewrite 32 0, .rebuildComplete (32, 0), .rowRetire 32 0 0 0 0 false, .rowRemapSwitch 32 0 0 0, .refresh 32,
     .stackTempChange 32 (0, 0, 0, 0)] : List Instr).all (fun i => !i.wf) = true := by decide

/-- Commands with an offset past the end of a stack are refused. -/
theorem test_wf_refuses_reached :
    ([.rebuildComplete (0, 2 ^ 35 + 1)] : List Instr).all (fun i => !i.wf) = true := by decide

/-- Commands with a channel past the last are refused. -/
theorem test_wf_refuses_channel :
    ([.rowRetire 0 32 0 0 0 false, .rowRemapSwitch 0 32 0 0, .patrolRead 0 32 [] none, .copyDescriptorStart 0 4 0 false [] [],
     .copyDescriptorComplete 0 4, .channelReset 0 4] : List Instr).all (fun i => !i.wf) = true := by decide

/-- Commands with a bank past the last are refused. -/
theorem test_wf_refuses_bank :
    ([.rowRetire 0 0 32 0 0 false, .rowRemapSwitch 0 0 32 0, .counterBankSample 64] : List Instr).all (fun i => !i.wf) = true := by decide

/-- Commands with an operand (row) out of its range are refused. -/
theorem test_wf_refuses_row :
    ([.rowRetire 0 0 0 16384 0 false, .rowRemapSwitch 0 0 0 16384] : List Instr).all (fun i => !i.wf) = true := by decide

/-- Commands with an operand (die) out of its range are refused. -/
theorem test_wf_refuses_die :
    ([.rowRetire 0 0 0 0 10 false] : List Instr).all (fun i => !i.wf) = true := by decide

/-- Commands with an operand (router) out of its range are refused. -/
theorem test_wf_refuses_router :
    ([.routerHop 3072 0 0] : List Instr).all (fun i => !i.wf) = true := by decide

/-- Commands with an operand (out) out of its range are refused. -/
theorem test_wf_refuses_out :
    ([.routerHop 0 7 0] : List Instr).all (fun i => !i.wf) = true := by decide

/-- Commands with an operand (flit) out of its range are refused. -/
theorem test_wf_refuses_flit :
    ([.routerHop 0 0 3] : List Instr).all (fun i => !i.wf) = true := by decide

/-- Commands with a queue past 63 are refused. -/
theorem test_wf_refuses_queue :
    ([.queueEntryPublish 0 64, .queueOpen .host 0 64, .queueClose .host 0 64] : List Instr).all (fun i => !i.wf) = true := by decide

/-- Commands with a window past 255 are refused. -/
theorem test_wf_refuses_window :
    ([.windowOpen .host 0 256, .windowClose .host 0 256] : List Instr).all (fun i => !i.wf) = true := by decide

/-- Commands with a sync context past 255 are refused. -/
theorem test_wf_refuses_context :
    ([.snArrive .host 0 256, .snSet .host 0 256, .snClear .host 0 256, .snNoOperation .host 0 256, .barrierRelease 256, .barArrive 0 256 0,
     .barRelease 0 256 0, .snWavefrontArrival 256 0] : List Instr).all (fun i => !i.wf) = true := by decide

/-- Commands with a port past the last are refused. -/
theorem test_wf_refuses_port :
    ([.barArrive 32 0 0, .barRelease 32 0 0, .timeReq 32 0, .timeResp 32 0 0 0, .portTraining 32, .trainingStepTimeout 32 0 (0, false),
     .portUp 32 0 0 0 0 0 false false, .trainingRetry 32, .portStatePublish 32, .frameReceive 32 [] [] false 0 0, .nak 32 0, .ackTimeout 32,
     .portDown 32, .keyEpochAdvance 32, .peerId 32 0 false, .peerIdReq 32, .retrain .host 32, .disable .host 32, .enable .host 32] : List Instr).all (fun i => !i.wf) = true := by decide

/-- Commands with an operand (round) out of its range are refused. -/
theorem test_wf_refuses_round :
    ([.barArrive 0 0 256, .barRelease 0 0 256] : List Instr).all (fun i => !i.wf) = true := by decide

/-- Commands with an operand (vc) out of its range are refused. -/
theorem test_wf_refuses_vc :
    ([.netStall 0 0 4] : List Instr).all (fun i => !i.wf) = true := by decide

/-- Commands with a kind past the last are refused. -/
theorem test_wf_refuses_kind :
    ([.cnBroadcast 4 0 0, .claim .host 8 0, .release .host 8 0, .mctpMessage false 128 []] : List Instr).all (fun i => !i.wf) = true := by decide

/-- Commands with an operand (offset) out of its range are refused. -/
theorem test_wf_refuses_offset :
    ([.cnBroadcast 0 (2 ^ 20) 0] : List Instr).all (fun i => !i.wf) = true := by decide

/-- Commands with an operand (ref) out of its range are refused. -/
theorem test_wf_refuses_ref :
    ([.refclkLoss 3, .refclkReturn 3] : List Instr).all (fun i => !i.wf) = true := by decide

/-- Commands with a seam link past 335 are refused. -/
theorem test_wf_refuses_link :
    ([.seamAlarm (336, false) false 0] : List Instr).all (fun i => !i.wf) = true := by decide

/-- Commands with a separation past 8 are refused. -/
theorem test_wf_refuses_separation :
    ([.seamAlarm (0, false) false 9] : List Instr).all (fun i => !i.wf) = true := by decide

/-- Commands with an operand (t1) out of its range are refused. -/
theorem test_wf_refuses_t1 :
    ([.timeReq 0 (2 ^ 64), .timeResp 0 (2 ^ 64) 0 0] : List Instr).all (fun i => !i.wf) = true := by decide

/-- Commands with an operand (t2) out of its range are refused. -/
theorem test_wf_refuses_t2 :
    ([.timeResp 0 0 (2 ^ 64) 0] : List Instr).all (fun i => !i.wf) = true := by decide

/-- Commands with an operand (t3) out of its range are refused. -/
theorem test_wf_refuses_t3 :
    ([.timeResp 0 0 0 (2 ^ 64)] : List Instr).all (fun i => !i.wf) = true := by decide

/-- Commands with a timer past 31 are refused. -/
theorem test_wf_refuses_timer :
    ([.timerArm .host 32 0, .timerFire 32] : List Instr).all (fun i => !i.wf) = true := by decide

/-- Commands with a wing past 15 are refused. -/
theorem test_wf_refuses_wing :
    ([.wingOn .host 16, .wingOff .host 16, .wingClockStart 16, .inrushRelease 16, .wingPowerUpDone 16 ([], []) ([], []) 0, .railTrip 16 0 0,
     .droopOnset 16 0, .droopEnd 16, .vminRearm .host 16, .vbringConnect .host 16 false 0, .vbringDisconnect (.host, 16), .ageingCheck 16 false,
     .thermalSample 16 0, .thermalEmergency 16, .emergencyEnd 16, .thermalTrip 16 0 0, .voltageSensorSample 16 []] : List Instr).all (fun i => !i.wf) = true := by decide

/-- Commands with an operand (rail) out of its range are refused. -/
theorem test_wf_refuses_rail :
    ([.stageTrip 4] : List Instr).all (fun i => !i.wf) = true := by decide

/-- Commands with an operand (sensor) out of its range are refused. -/
theorem test_wf_refuses_sensor :
    ([.thermalTrip 0 32 0] : List Instr).all (fun i => !i.wf) = true := by decide

/-- Commands with a partition past 255 are refused. -/
theorem test_wf_refuses_partition :
    ([.partitionReset .host 256, .iftGrant .host 256 0, .scrubPartition .host 256, .scrubDone 256, .secFenceCheck .host 256] : List Instr).all (fun i => !i.wf) = true := by decide

/-- Commands with an operand (serial) out of its range are refused. -/
theorem test_wf_refuses_serial :
    ([.portUp 0 0 0 0 0 (2 ^ 64) false false] : List Instr).all (fun i => !i.wf) = true := by decide

/-- Commands with an operand (deviceId) out of its range are refused. -/
theorem test_wf_refuses_deviceId :
    ([.peerId 0 65536 false] : List Instr).all (fun i => !i.wf) = true := by decide

/-- Commands with a function past the last are refused. -/
theorem test_wf_refuses_fn :
    ([.fnMsgToken 64, .fnMsgDoorbell 64, .fnMsgDesc 64, .copyDescriptorStart 64 0 0 false [] [], .copyDescriptorComplete 64 0,
     .channelReset 64 0, .hstMsixRaise .host 64 0, .pcieConfigRequest 66 0 0 0 0] : List Instr).all (fun i => !i.wf) = true := by decide

/-- Commands with a vector past 31 are refused. -/
theorem test_wf_refuses_vector :
    ([.hstMsixRaise .host 0 32] : List Instr).all (fun i => !i.wf) = true := by decide

/-- Commands with a stream past 8 are refused. -/
theorem test_wf_refuses_stream :
    ([.ideKmKeyInstall 9, .ideIntegrityFailure 9, .lockInterface 1 9] : List Instr).all (fun i => !i.wf) = true := by decide

/-- Commands with a VF past 63 (R411) are refused. -/
theorem test_wf_refuses_vf :
    ([.lockInterface 64 0, .stopInterface 64, .hstVfBindWrite .host 64 0, .startInterface 64] : List Instr).all (fun i => !i.wf) = true := by decide

/-- Commands with an operand (space) out of its range are refused. -/
theorem test_wf_refuses_space :
    ([.debugRead .host 2, .debugWrite .host 2] : List Instr).all (fun i => !i.wf) = true := by decide

/-- Commands with an operand (instr) out of its range are refused. -/
theorem test_wf_refuses_instr :
    ([.tapInstruction 32 false] : List Instr).all (fun i => !i.wf) = true := by decide

/-- Commands with an operand (buffer) out of its range are refused. -/
theorem test_wf_refuses_buffer :
    ([.traceArm .host 8 0 0] : List Instr).all (fun i => !i.wf) = true := by decide

/-- Commands with an operand (address) out of its range are refused. -/
theorem test_wf_refuses_address :
    ([.registerWrite .host (2 ^ 48) 0] : List Instr).all (fun i => !i.wf) = true := by decide

/-- An error in a word that the instruction does not have is refused (R155). -/
theorem test_wf_refuses_ecc : ([.nop 0 0 (.ecc 8), .aluRegisterOp 0 0 (.ecc 1)] : List Instr).all (fun i => !i.wf) = true := by decide

/-! ### Worked examples of the specification -/

/-- 02_wings_and_catalogue.md: site X 35, Y 29 is in wing 10 and is the MI tile of channels 0 to 7 of stack 20. -/
theorem test_site_763 : wingOf 0x763 = 10 ∧ kindOf 0x763 = .mi ∧ miStack 0x763 = (20, 0) := by decide

/-- 10_memory_stacks.md: one address, in a local tract and in an interleaved group. -/
theorem test_two_placements :
    (channelOf 0xD6789ABC = 18 ∧ bankOf 0xD6789ABC = 24 ∧ rowOf 0xD6789ABC = 1715 ∧ miSite 5 18 = 0x1AB) ∧
    (channelOf 0x1E2B3CABC = 25 ∧ bankOf 0x1E2B3CABC = 19 ∧ rowOf 0x1E2B3CABC = 3861 ∧ miSite 9 25 = 0x48C) ∧
    placeOf (some { length := 0, bytes := [(0x80, 9), (0x85, 0x10), (0x1046, 0x30), (0x1047, 0x4A)] }) 0x456789ABC = some (5, 0xD6789ABC) ∧
    placeOf (some { length := 0, bytes := [(0x80, 9), (0x85, 0x10), (0x1046, 0x70), (0x1047, 0x80)] }) 0x456789ABC = some (9, 0x1E2B3CABC) := by
  decide +kernel

/-- 05_accumulation_and_drain.md: four group results in a pair, and the exact sum that stage 1 returns. -/
theorem test_cancelling_sums :
    let p := ([0x4EC00000, 0x40500000, 0xCEC00000, 0x3F000000] : List (BitVec 32)).foldl Num.Pair.add Num.Pair.zero
    p = { hi := 0x3F000000, err := 0x40500000 } ∧ Num.fadd p.hi p.err = 0x40700000 := by decide +kernel

/-- 05_accumulation_and_drain.md: the exponentials of the query row. -/
theorem test_exp2t : Num.exp2t 0xC0000000 = 0x3E800000 ∧ Num.exp2t 0xFF800000 = 0 ∧ Num.exp2t 0xC0800000 = 0x3D800000 := by decide +kernel

/-- 04_number_formats.md: elements 0, 1, 2, 3, 5, 12 and 14 of the FP4 block under d = 2.25. -/
theorem test_fp4_block :
    ([0x3F666666, 0xC019999A, 0x41580000, 0x3CA3D70A, 0xC0F66666, 0xBE4CCCCD, 0x40B40000] : List (BitVec 32)).map
      (fun v => (Num.quantise 0x0C v 0x40100000).1) = [0x1, 0xA, 0x7, 0x0, 0xD, 0x8, 0x4] := by decide +kernel

/-- 07_tile_isa_core.md: the words of the counted loop are legal in an M-tile. -/
theorem test_counted_loop : ([0x00003002, 0x02002802, 0x60043830, 0x01042002, 0xFFE52802, 0x00250816, 0x04E63000, 0xFFFB00A0, 0x04000028] :
    List Nat).all (fun n => !illegal .m n) = true := by decide +kernel

/-! ### The instructions of cores issue -/

/-- A module whose wings run, with core 0 of site t RUNNING: at the words of n in a program store, or, in an S-tile,
at an address that is not cached, whose block has come. -/
def running (t n : Nat) : State :=
  (((State.reset.setReg R.CLK_WING_RUN 0xFFFF).setTreg t R.TILE_STATE 1).setTreg t (R.ENG_TOKEN 0) 0xFFFFFFFF).modSite t fun x =>
    { x with prog := [(0, BitVec.ofNat 32 n), (1, BitVec.ofNat 32 (n / 2 ^ 32))],
             cores := if kindOf t = .s then [(0, { Core.reset with pc := 0x040000000000, fetchBuf := [(0x040000000000, some (0, leBytes 16 n))] })]
             else [] }

/-- The state after the fetch of n at core 0 of t. -/
def fetched (s : State) (t n : Nat) : Option State :=
  match (s.settle t 0).fetch t 0 (.word (BitVec.ofNat 64 n)) with
  | .word m u => if m = n then some u else none
  | _ => none

/-- Core 0 of t may issue; an S-tile core with no interrupt enabled. -/
def quiet (s : State) (t : Nat) : Bool :=
  let k := s.core t 0
  0 < (kindOf t).cores && s.siteRuns t && s.coreState t 0 == 1 && k.exc.isNone && k.engExc.isNone && k.issuable ≤ (s.site t).cycle &&
    !s.halting t 0 && !s.stepping t 0 && (kindOf t != .s || k.svReg 8 == 0)

/-- What the issue of n at core 0 of t takes. -/
def takes (s : State) (t n : Nat) (op : CoreOp) : Bool :=
  quiet (s.settle t 0) t && !illegal (kindOf t) n && op.accept n &&
    match fetched s t n with
    | some u => guardOk n (u.core t 0).p && !(op.touch n).any (u.core t 0).awaits && op.ready u t 0 n
    | none => false

theorem mayIssue_of_quiet {s : State} {t : Nat} (h : quiet s t = true) : s.mayIssue t 0 = true := by
  have hd : s.irqDue t 0 = false := by
    simp only [quiet, Bool.and_eq_true, Bool.or_eq_true] at h
    rcases h.2 with h2 | h2
    · have : kindOf t ≠ .s := by simpa using h2
      simp [State.irqDue, this]
    · have h3 : (s.core t 0).svReg 8 = 0 := by simpa using h2
      simp [State.irqDue, State.irqEnabled, h3]
  simp only [quiet, Bool.and_eq_true] at h
  simp only [State.mayIssue, hd, Bool.and_eq_true]
  simp_all

theorem issues_of_takes {s : State} {t n : Nat} {op : CoreOp} (h : takes s t n op = true) :
    ∃ u, Issues s t 0 (.word (BitVec.ofNat 64 n)) op n u := by
  simp only [takes, Bool.and_eq_true] at h
  obtain ⟨⟨⟨h1, h2⟩, h3⟩, h4⟩ := h
  split at h4
  · rename_i u hu
    simp only [Bool.and_eq_true] at h4
    refine ⟨u, mayIssue_of_quiet h1, ?_, by simpa using h2, h3, h4.1.1, by simpa using h4.1.2, h4.2⟩
    unfold fetched at hu
    split at hu
    · rename_i m v hf
      split at hu
      · rename_i e; subst e; cases hu; exact hf
      · cases hu
    · cases hu
  · cases h4

/-! ### Each statement about instructions of cores: its instructions issue -/

theorem witness_AluRegisterResults : (∃ u, Issues (running 0 0x4e63000) 0 0 (.word 0x4e63000) aluOp 0x4e63000 u) :=
  issues_of_takes (by decide +kernel)

theorem witness_ImmediateResults : (∃ u, Issues (running 0 0x3002) 0 0 (.word 0x3002) immOp 0x3002 u) ∧
    (∃ u, Issues (running 0 0x8021010) 0 0 (.word 0x8021010) liOp 0x8021010 u) :=
  ⟨issues_of_takes (by decide +kernel), issues_of_takes (by decide +kernel)⟩

theorem witness_MulDivAndBitResults : (∃ u, Issues (running 0 0x8021012) 0 0 (.word 0x8021012) mulDivOp 0x8021012 u) ∧
    (∃ u, Issues (running 0 0x802101a) 0 0 (.word 0x802101a) bitOp 0x802101a u) :=
  ⟨issues_of_takes (by decide +kernel), issues_of_takes (by decide +kernel)⟩

theorem witness_Compares : (∃ u, Issues (running 0 0x8021014) 0 0 (.word 0x8021014) cmpOp 0x8021014 u) ∧
    (∃ u, Issues (running 0 0x250816) 0 0 (.word 0x250816) cmpiOp 0x250816 u) :=
  ⟨issues_of_takes (by decide +kernel), issues_of_takes (by decide +kernel)⟩

theorem witness_PredicateOps : (∃ u, Issues (running 0 0x20018) 0 0 (.word 0x20018) predicateCoreOp 0x20018 u) :=
  issues_of_takes (by decide +kernel)

theorem witness_Branches : (∃ u, Issues (running 0 0xfffb0020) 0 0 (.word 0xfffb0020) brOp 0xfffb0020 u) ∧
    (∃ u, Issues (running 0 0x8021022) 0 0 (.word 0x8021022) brlOp 0x8021022 u) ∧
    (∃ u, Issues (running 0 0x8021024) 0 0 (.word 0x8021024) jrOp 0x8021024 u) :=
  ⟨issues_of_takes (by decide +kernel), issues_of_takes (by decide +kernel), issues_of_takes (by decide +kernel)⟩

theorem witness_ControlAndSystemOps : (∃ u, Issues (running 0 0x28) 0 0 (.word 0x28) nopOp 0x28 u) ∧
    (∃ u, Issues (running 0 0x4000028) 0 0 (.word 0x4000028) endCoreOp 0x4000028 u) ∧
    (∃ u, Issues (running 0 0x8080028) 0 0 (.word 0x8080028) wfeOp 0x8080028 u) ∧
    (∃ u, Issues (running 7 0x1800007e) 7 0 (.word 0x1800007e) idleOp 0x1800007e u) ∧
    (∃ u, Issues (running 0 0xc00107e) 0 0 (.word 0xc00107e) trapOp 0xc00107e u) ∧
    (∃ u, Issues (running 0 0x1250007e) 0 0 (.word 0x1250007e) breakOp 0x1250007e u) ∧
    (∃ u, Issues (running 0 0x400407e) 0 0 (.word 0x400407e) rdtimeOp 0x400407e u) ∧
    (∃ u, Issues (running 0 0x802107e) 0 0 (.word 0x802107e) rdcoreOp 0x802107e u) ∧
    (∃ u, Issues (running 7 0x1502887e) 7 0 (.word 0x1502887e) tretOp 0x1502887e u) ∧
    (∃ u, Issues (running 7 0x1c01007e) 7 0 (.word 0x1c01007e) svgetOp 0x1c01007e u) ∧
    (∃ u, Issues (running 7 0x2100007e) 7 0 (.word 0x2100007e) svsetOp 0x2100007e u) ∧
    (∃ u, Issues (running 7 0x2400407e) 7 0 (.word 0x2400407e) svswapOp 0x2400407e u) ∧
    (∃ u, Issues (running 7 0x2820007e) 7 0 (.word 0x2820007e) xlinvOp 0x2820007e u) :=
  ⟨issues_of_takes (by decide +kernel), issues_of_takes (by decide +kernel), issues_of_takes (by decide +kernel),
    issues_of_takes (by decide +kernel), issues_of_takes (by decide +kernel), issues_of_takes (by decide +kernel),
    issues_of_takes (by decide +kernel), issues_of_takes (by decide +kernel), issues_of_takes (by decide +kernel),
    issues_of_takes (by decide +kernel), issues_of_takes (by decide +kernel), issues_of_takes (by decide +kernel),
    issues_of_takes (by decide +kernel)⟩

theorem witness_CsrAccesses : (∃ u, Issues (running 0 0x802107c) 0 0 (.word 0x802107c) (csrxOp 0) 0x802107c u) ∧
    (∃ u, Issues (running 0 0x7000007c) 0 0 (.word 0x7000007c) (csrxOp 1) 0x7000007c u) ∧
    (∃ u, Issues (running 0 0xa005007c) 0 0 (.word 0xa005007c) (csrxOp 2) 0xa005007c u) ∧
    (∃ u, Issues (running 0 0xc110907c) 0 0 (.word 0xc110907c) (csrxOp 3) 0xc110907c u) :=
  ⟨issues_of_takes (by decide +kernel), issues_of_takes (by decide +kernel), issues_of_takes (by decide +kernel),
    issues_of_takes (by decide +kernel)⟩

theorem witness_LoadsAndStores : (∃ u, Issues (running 0 0x8021030) 0 0 (.word 0x8021030) ldOp 0x8021030 u) ∧
    (∃ u, Issues (running 0 0x8021032) 0 0 (.word 0x8021032) stOp 0x8021032 u) ∧
    (∃ u, Issues (running 0 0x8021034) 0 0 (.word 0x8021034) amoOp 0x8021034 u) :=
  ⟨issues_of_takes (by decide +kernel), issues_of_takes (by decide +kernel), issues_of_takes (by decide +kernel)⟩

theorem witness_FencesAndLines : (∃ u, Issues (running 0 0x36) 0 0 (.word 0x36) fenceOp 0x36 u) ∧
    (∃ u, Issues (running 0 0x8000036) 0 0 (.word 0x8000036) fenceIOp 0x8000036 u) ∧
    (∃ u, Issues (running 0 0x10010036) 0 0 (.word 0x10010036) (lineOp 2 fun s t c a => s.cleanBy t c a) 0x10010036 u) ∧
    (∃ u, Issues (running 0 0x18000036) 0 0 (.word 0x18000036) (lineOp 3 fun s t c a => s.inval t c a) 0x18000036 u) ∧
    (∃ u, Issues (running 0 0x20000036) 0 0 (.word 0x20000036) (lineOp 4 fun s t c a => (s.cleanBy t c a).inval t c a) 0x20000036 u) :=
  ⟨issues_of_takes (by decide +kernel), issues_of_takes (by decide +kernel), issues_of_takes (by decide +kernel),
    issues_of_takes (by decide +kernel), issues_of_takes (by decide +kernel)⟩

theorem witness_TokenAndDescriptorOps : (∃ u, Issues (running 0 0x920072) 0 0 (.word 0x920072) tkSetOp 0x920072 u) ∧
    (∃ u, Issues (running 0 0x12500072) 0 0 (.word 0x12500072) tkAddOp 0x12500072 u) ∧
    (∃ u, Issues (running 0 0x21000072) 0 0 (.word 0x21000072) tkTakeOp 0x21000072 u) ∧
    (∃ u, Issues (running 0 0x30040072) 0 0 (.word 0x30040072) tkReadOp 0x30040072 u) ∧
    (∃ u, Issues (running 0 0x74) 0 0 (.word 0x74) engWaitOp 0x74 u) ∧
    (∃ u, Issues (running 0 0x10000074) 0 0 (.word 0x10000074) engNotifyOp 0x10000074 u) ∧
    (∃ u, Issues (running 0 0x8021076) 0 0 (.word 0x8021076) tdSetOp 0x8021076 u) ∧
    (∃ u, Issues (running 0 0x18000076) 0 0 (.word 0x18000076) tdGetloOp 0x18000076 u) ∧
    (∃ u, Issues (running 0 0x21000076) 0 0 (.word 0x21000076) tdGethiOp 0x21000076 u) ∧
    (∃ u, Issues (running 0 0x32000076) 0 0 (.word 0x32000076) tdAddrOp 0x32000076 u) ∧
    (∃ u, Issues (running 0 0x40020076) 0 0 (.word 0x40020076) ahSetOp 0x40020076 u) ∧
    (∃ u, Issues (running 0 0x50000076) 0 0 (.word 0x50000076) ahGetOp 0x50000076 u) :=
  ⟨issues_of_takes (by decide +kernel), issues_of_takes (by decide +kernel), issues_of_takes (by decide +kernel),
    issues_of_takes (by decide +kernel), issues_of_takes (by decide +kernel), issues_of_takes (by decide +kernel),
    issues_of_takes (by decide +kernel), issues_of_takes (by decide +kernel), issues_of_takes (by decide +kernel),
    issues_of_takes (by decide +kernel), issues_of_takes (by decide +kernel), issues_of_takes (by decide +kernel)⟩

theorem witness_QueuesAndTheirReaders : (∃ u, Issues (running 0 0x400407a) 0 0 (.word 0x400407a) qcntOp 0x400407a u) ∧
    (∃ u, Issues (running 0 0x1800007a) 0 0 (.word 0x1800007a) qheadOp 0x1800007a u) ∧
    (∃ u, Issues (running 0 0x2100007a) 0 0 (.word 0x2100007a) qpopOp 0x2100007a u) ∧
    (∃ u, Issues (running 0 0x3200007a) 0 0 (.word 0x3200007a) qnotifyOp 0x3200007a u) :=
  ⟨issues_of_takes (by decide +kernel), issues_of_takes (by decide +kernel), issues_of_takes (by decide +kernel),
    issues_of_takes (by decide +kernel)⟩

theorem witness_DispatchToEngines : (∃ u, Issues (running 0 0x12000000000061) 0 0 (.word 0x12000000000061) mmOp 0x12000000000061 u) ∧
    (∃ u, Issues (running 0 0x300000000067) 0 0 (.word 0x300000000067) cbLoadOp 0x300000000067 u) ∧
    (∃ u, Issues (running 0 0x100000c7400063) 0 0 (.word 0x100000c7400063) drOp 0x100000c7400063 u) ∧
    (∃ u, Issues (running 0 0x1400065) 0 0 (.word 0x1400065) (accOp 0) 0x1400065 u) ∧
    (∃ u, Issues (running 0 0x4000001400065) 0 0 (.word 0x4000001400065) (accOp 1) 0x4000001400065 u) ∧
    (∃ u, Issues (running 0 0x8000001400065) 0 0 (.word 0x8000001400065) (accOp 2) 0x8000001400065 u) ∧
    (∃ u, Issues (running 0 0xc000001400065) 0 0 (.word 0xc000001400065) (accOp 3) 0xc000001400065 u) ∧
    (∃ u, Issues (running 0 0x10000001400065) 0 0 (.word 0x10000001400065) (accOp 4) 0x10000001400065 u) ∧
    (∃ u, Issues (running 0 0x14000001400065) 0 0 (.word 0x14000001400065) (accOp 5) 0x14000001400065 u) ∧
    (∃ u, Issues (running 0 0x18000001400065) 0 0 (.word 0x18000001400065) (accOp 6) 0x18000001400065 u) ∧
    (∃ u, Issues (running 0 0x198e000000071) 0 0 (.word 0x198e000000071) (fxOp 0) 0x198e000000071 u) ∧
    (∃ u, Issues (running 0 0x998e000000071) 0 0 (.word 0x998e000000071) (fxOp 1) 0x998e000000071 u) ∧
    (∃ u, Issues (running 0 0x1198e000000071) 0 0 (.word 0x1198e000000071) (fxOp 2) 0x1198e000000071 u) ∧
    (∃ u, Issues (running 0 0x1998e000000071) 0 0 (.word 0x1998e000000071) (fxOp 3) 0x1998e000000071 u) :=
  ⟨issues_of_takes (by decide +kernel), issues_of_takes (by decide +kernel), issues_of_takes (by decide +kernel),
    issues_of_takes (by decide +kernel), issues_of_takes (by decide +kernel), issues_of_takes (by decide +kernel),
    issues_of_takes (by decide +kernel), issues_of_takes (by decide +kernel), issues_of_takes (by decide +kernel),
    issues_of_takes (by decide +kernel), issues_of_takes (by decide +kernel), issues_of_takes (by decide +kernel),
    issues_of_takes (by decide +kernel), issues_of_takes (by decide +kernel)⟩

theorem witness_MessagesLeave : (∃ u, Issues (running 0 0x18e0380000079) 0 0 (.word 0x18e0380000079) (msgOp 0) 0x18e0380000079 u) ∧
    (∃ u, Issues (running 0 0x98e0380000079) 0 0 (.word 0x98e0380000079) (msgOp 1) 0x98e0380000079 u) ∧
    (∃ u, Issues (running 0 0x118e0380000079) 0 0 (.word 0x118e0380000079) (msgOp 2) 0x118e0380000079 u) ∧
    (∃ u, Issues (running 0 0x198e0380000079) 0 0 (.word 0x198e0380000079) (msgOp 3) 0x198e0380000079 u) ∧
    (∃ u, Issues (running 0 0x218e0380000079) 0 0 (.word 0x218e0380000079) (msgOp 4) 0x218e0380000079 u) :=
  ⟨issues_of_takes (by decide +kernel), issues_of_takes (by decide +kernel), issues_of_takes (by decide +kernel),
    issues_of_takes (by decide +kernel), issues_of_takes (by decide +kernel)⟩

theorem witness_VectorIntegerLanes : (∃ u, Issues (running 0 0x8021044) 0 0 (.word 0x8021044) vectorIntegerOp 0x8021044 u) :=
  issues_of_takes (by decide +kernel)

theorem witness_VectorResults : (∃ u, Issues (running 71 0x8620840) 71 0 (.word 0x8620840) vectorFp32Op 0x8620840 u) ∧
    (∃ u, Issues (running 71 0x8620842) 71 0 (.word 0x8620842) vectorBf16Op 0x8620842 u) ∧
    (∃ u, Issues (running 0 0x8021048) 0 0 (.word 0x8021048) laneMoveOp 0x8021048 u) ∧
    (∃ u, Issues (running 71 0x1002084d) 71 0 (.word 0x1002084d) vqOp 0x1002084d u) ∧
    (∃ u, Issues (running 71 0x5002084d) 71 0 (.word 0x5002084d) vxOp 0x5002084d u) ∧
    (∃ u, Issues (running 71 0x8002084d) 71 0 (.word 0x8002084d) vcvtI2fOp 0x8002084d u) ∧
    (∃ u, Issues (running 71 0xc002084d) 71 0 (.word 0xc002084d) vcvtF2iOp 0xc002084d u) ∧
    (∃ u, Issues (running 71 0x802104e) 71 0 (.word 0x802104e) specialOp 0x802104e u) ∧
    (∃ u, Issues (running 71 0x920054) 71 0 (.word 0x920054) vsortOp 0x920054 u) :=
  ⟨issues_of_takes (by decide +kernel), issues_of_takes (by decide +kernel), issues_of_takes (by decide +kernel),
    issues_of_takes (by decide +kernel), issues_of_takes (by decide +kernel), issues_of_takes (by decide +kernel),
    issues_of_takes (by decide +kernel), issues_of_takes (by decide +kernel), issues_of_takes (by decide +kernel)⟩

theorem witness_VectorSortSorts : (∃ u, Issues (running 71 0x920054) 71 0 (.word 0x920054) vsortOp 0x920054 u) ∧
    (∃ u, Issues (running 71 0x4004054) 71 0 (.word 0x4004054) vtopkOp 0x4004054 u) :=
  ⟨issues_of_takes (by decide +kernel), issues_of_takes (by decide +kernel)⟩

theorem witness_VectorMemory : (∃ u, Issues (running 0 0x8021050) 0 0 (.word 0x8021050) (vmemOp 0) 0x8021050 u) ∧
    (∃ u, Issues (running 0 0x21000050) 0 0 (.word 0x21000050) (vmemOp 1) 0x21000050 u) ∧
    (∃ u, Issues (running 0 0x40020050) 0 0 (.word 0x40020050) (vmemOp 2) 0x40020050 u) ∧
    (∃ u, Issues (running 0 0x70000050) 0 0 (.word 0x70000050) (vmemOp 3) 0x70000050 u) ∧
    (∃ u, Issues (running 71 0x920052) 71 0 (.word 0x920052) (scatterOp 0) 0x920052 u) ∧
    (∃ u, Issues (running 71 0x4004052) 71 0 (.word 0x4004052) (scatterOp 1) 0x4004052 u) ∧
    (∃ u, Issues (running 71 0x8021052) 71 0 (.word 0x8021052) (scatterOp 2) 0x8021052 u) :=
  ⟨issues_of_takes (by decide +kernel), issues_of_takes (by decide +kernel), issues_of_takes (by decide +kernel),
    issues_of_takes (by decide +kernel), issues_of_takes (by decide +kernel), issues_of_takes (by decide +kernel),
    issues_of_takes (by decide +kernel)⟩

theorem witness_RegisterWritesFrame : (∃ u, Issues (running 0 0x4e63000) 0 0 (.word 0x4e63000) aluOp 0x4e63000 u) ∧
    (∃ u, Issues (running 7 0x1c01007e) 7 0 (.word 0x1c01007e) svgetOp 0x1c01007e u) ∧
    (∃ u, Issues (running 0 0x1800007a) 0 0 (.word 0x1800007a) qheadOp 0x1800007a u) :=
  ⟨issues_of_takes (by decide +kernel), issues_of_takes (by decide +kernel), issues_of_takes (by decide +kernel)⟩

/-! ### States that meet the hypotheses of the statements -/

theorem granted {s : State} {a : Agent} {n : Nat}
    (h : (s.pins.vaux5 && !s.vfOut a && s.mayWriteBlock a (n / 0x100000) && !s.cur.restarting) = true) : s.Granted a n := by
  simp only [Bool.and_eq_true, Bool.not_eq_true'] at h
  exact ⟨h.1.1.1, h.1.1.2, h.1.2, h.2⟩

theorem open_to {s : State} {a : Agent} (h : (s.pins.vaux5 && !s.cur.restarting && !s.vfOut a) = true) : s.OpenTo a := by
  simp only [Bool.and_eq_true, Bool.not_eq_true'] at h
  exact ⟨h.1.1, h.1.2, h.2⟩

theorem reached {s : State} {a : Agent} {t : Nat}
    (h : (!s.vfOut a && s.mayReachTile a t && s.siteReached a t && s.addressable a t) = true) : s.Reached a t := by
  simp only [Bool.and_eq_true, Bool.not_eq_true'] at h
  exact ⟨h.1.1.1, h.1.1.2, h.1.2, h.2⟩

theorem headroom_le {s : State} (h : s.headroom = 4900) : 200 ≤ s.headroom := by rw [h]; norm_num

theorem rampDue_le {s : State} {w a : Nat} (h : a + 920000 ≤ s.time) : s.rampDue w a ≤ s.time := by
  have : s.setting w s.railPoint ≤ 900 := Nat.min_le_left _ _
  unfold State.rampDue
  omega

theorem mem_unitsOf {img : Option Image} {t u : Nat} (h : unitOfTract img t = some u) (ht : t < 1024) : u ∈ unitsOf img := by
  unfold unitsOf
  rw [List.mem_eraseDups, List.mem_filterMap]
  exact ⟨t, List.mem_range.mpr ht, h⟩

theorem nextTest_some {s : State} {t : Nat} (h : (allSites.contains t && s.eligible t) = true) : ∃ u, s.nextTest = some u := by
  simp only [Bool.and_eq_true, List.contains_iff_mem] at h
  have h2 : t ∈ allSites.filter s.eligible := List.mem_filter.mpr h
  unfold State.nextTest
  cases hc : allSites.filter s.eligible with
  | nil => rw [hc] at h2; cases h2
  | cons a l =>
    simp only
    split
    · exact ⟨_, rfl⟩
    · exact ⟨a, rfl⟩

/-- A module in S5 with wing 0 on, TIME running and every site in partition 0. -/
def up : State :=
  (({ State.reset with time := 10 ^ 15, timeRunning := true, wings := [(0, { WingPower.off with clamped := false })],
                       fab := { Fab.start with active := some { length := 0, bytes := [] } } }.setReg (R.PWR_RAIL 0)
    0x80000000).setReg R.CLK_WING_RUN 1).setFld R.CUR_BOOT_STATUS 2 0 5

/-- The same with partition 0 paired and sites 0 and 1 twins. -/
def paired : State := { up with fab := { up.fab with active := some { length := 0, bytes :=
  [(0x80, 1), (0x85, 0x10), (0x88, 32), (0x90, 2), (0x95, 0x20), (0x1003, 2), (0x2002, 1), (0x2003, 0x10), (0x2007, 0x10)] } } }

/-- Core 0 of site t in state v, WAITING in WFE where `w` is 1. -/
def inState (t v w : Nat) : State := (up.setCoreState t 0 v).modCore t 0 fun k => { k with wait := w, timeout := some 0 }

theorem witness_StepTakesTheFrontCommand : ({ State.reset with pending := [.refresh 31, .swap] } : State).pending =
    .refresh 31 :: [.swap] := rfl

theorem witness_IdleStepCountsTime : up.pending = [] := rfl

theorem witness_StepsKeepQueueAndFuses : ∃ t, step { up with pending := [.tapReset 1000, .refresh 0] } = .next t :=
  ⟨_, rfl⟩

theorem witness_RegistersFollowAccessCodes : ∃ d ∈ devRegDefs ++ tileRegDefs, ∃ f ∈ d.fields, f.lo ≤ f.hi :=
  ⟨_, List.mem_append_left _ (List.mem_of_mem_head? (by rfl)), _, List.mem_of_mem_head? (by rfl), by decide +kernel⟩

theorem witness_ResetAndScalarRegisters : (31 < 32 ∧ 7 < 8 ∧ 11 < 12) ∧ (0 < 32 ∧ 0 < 8) := by decide

/-- A word whose guard p1 fails. -/
theorem witness_GuardedWordsPassOver : coreInstr (.immediateOp 0 0 (.word 0x3082)) = some (0, 0, .word 0x3082, immOp) ∧
    ((running 0 0x3082).settle 0 0).mayIssue 0 0 = true ∧ (fetched (running 0 0x3082) 0 0x3082).isSome = true ∧
    illegal .m 0x3082 = false ∧ immOp.accept 0x3082 = true ∧
    (∀ u ∈ fetched (running 0 0x3082) 0 0x3082, (u.core 0 0).pred (fieldOf 0x3082 9 7) = (0x3082).testBit 10) :=
  ⟨rfl, mayIssue_of_quiet (by decide +kernel), by decide +kernel, by decide +kernel, by decide +kernel, by
    intro u hu
    have h : (fetched (running 0 0x3082) 0 0x3082).all (fun u => (u.core 0 0).pred (fieldOf 0x3082 9 7) == (0x3082).testBit 10) = true := by
      decide +kernel
    rw [Option.mem_def.mp hu] at h
    simpa using h⟩

/-- A running core at pc, which has nothing to wait for. -/
def runningAt (pc : Nat) : State := ((running 0 40).modCore 0 0 fun k => { k with pc := pc }).settle 0 0

/-- A stopped core; a core at an address that is no multiple of 4, one at the end of its program store, and one at an erroneous word; the word 0. -/
theorem witness_ReasonsNotToIssue : (State.reset.settle 0 0).coreState 0 0 ≠ 1 ∧
    ((runningAt 2).mayIssue 0 0 = true ∧ ((runningAt 2).core 0 0).pc % 4 ≠ 0) ∧
    ((runningAt 0x20000).mayIssue 0 0 = true ∧ ((runningAt 0x20000).core 0 0).pc = 0x20000) ∧
    ((runningAt 0x1FFFC).mayIssue 0 0 = true ∧ ((runningAt 0x1FFFC).core 0 0).pc = 0x1FFFC) ∧
    (((running 0 0).settle 0 0).mayIssue 0 0 = true ∧ (fetched (running 0 0) 0 0).isSome = true ∧ illegal (kindOf 0) 0 = true) := by
  decide +kernel

theorem witness_TrapEntry : (1 < 2 ∧ 63 < 64 ∧ (2 ^ 64 - 4 < 2 ^ 64) ∧ (2 ^ 64 - 4) % 4 = 0) ∧
    (kindOf 7 = .s ∧ (State.reset.core 7 0).atVector = false) := by decide +kernel

theorem witness_DramPlacement : (0x7FFFFFFFF < 2 ^ 35 ∧ 0x1E2B3CABC < 2 ^ 35 ∧ 0x7FFFFF < 2 ^ 23 ∧ 31 < 32 ∧ 63 < 64) ∧
    (0x7FFFFFFFF % 64 = 0x7FFFFFFFF % 64 ∧ channelOf 0x7FFFFFFFF = channelOf 0x7FFFFFFFF) := by decide

/-! ### The clauses of those statements, at their boundaries -/

/-- Core 0 of site 0 at the word n with s2 = v, s3 = w. -/
def withS (n : Nat) (v w : BitVec 64) : State := (running 0 n).modCore 0 0 fun k => (k.setS 2 v).setS 3 w

/-- Core 0 of the scalar tile 7 in user mode. -/
def userAt (n : Nat) : State := (running 7 n).modCore 7 0 fun k => k.setSv 0 0

theorem witness_user_mode : takes (userAt 0x15023FFE) 7 0x15023FFE tretOp = true ∧ (userAt 0x15023FFE).userMode 7 0 = true ∧
    takes (userAt 0x1802007E) 7 0x1802007E idleOp = true := by decide +kernel

/-- JR to an odd target and to one that is a multiple of 4. -/
theorem witness_jr_targets : (takes (withS 0x20024 2 0) 0 0x20024 jrOp = true ∧ ((withS 0x20024 2 0).sreg 0 0 (saOf 0x20024)).toNat % 4 ≠ 0) ∧
    (takes (withS 0x20024 (-4) 0) 0 0x20024 jrOp = true ∧ ((withS 0x20024 (-4) 0).sreg 0 0 (saOf 0x20024)).toNat = 2 ^ 64 - 4) := by
  decide +kernel

/-- A word of WFE with the flag clear, and one with it set. -/
theorem witness_wfe_flags : (takes (running 0 0x8080028) 0 0x8080028 wfeOp = true ∧ (running 0 0x8080028).event 0 0 = false) ∧
    takes ((running 0 0x8080028).setTbit 0 R.TILE_STATE 3 true) 0 0x8080028 wfeOp = true ∧
    ((running 0 0x8080028).setTbit 0 R.TILE_STATE 3 true).event 0 0 = true := by decide +kernel

/-- Loads of 4 bytes at 2, at 2^48 and at 2^48 - 4. -/
theorem witness_load_addresses : takes (withS 0x40021030 2 0) 0 0x40021030 ldOp = true ∧
    takes (withS 0x40021030 0x1000000000000 0) 0 0x40021030 ldOp = true ∧
    takes (withS 0x40021030 0xFFFFFFFFFFFC 0) 0 0x40021030 ldOp = true := by decide +kernel

/-- A load of the width 8 to s31 whose response arrived, OK or not. -/
def loadOf (status size : Nat) : MemAcc :=
  { id := 0, kind := 0, dest := 31, size := size, signed := true, addr := 0, path := 1, pieces := 1, got := [], value := 0,
    arrived := some (status, 0x80), pc := 0, op := 0, data := [], lanes := [], buffered := false }

theorem witness_ResponsesDeliver : ∀ a ∈ [loadOf 0 1, loadOf 0 8, loadOf 3 8, { loadOf 0 8 with signed := false, dest := 1 }],
    ((up.modCore 0 0 fun k => { k with accesses := [a] }).access 0 0 0 = some a ∧ (a.kind = 0 ∨ a.kind = 2) ∧ a.path ≠ 0 ∧
      a.arrived.isSome = true ∧ 1 ≤ a.dest ∧ a.dest < 32 ∧ 1 ≤ a.size ∧ a.size ≤ 8) := by decide +kernel

/-- A counter from which the whole is taken, and one that rises to 255 and beyond. -/
theorem witness_token_limits : (running 0 0x00F80072).token 0 0 = 255 ∧ takes (running 0 0x2FF00072) 0 0x2FF00072 tkTakeOp = true ∧
    takes (running 0 0x10100072) 0 0x10100072 tkAddOp = true ∧ 255 < (running 0 0x10100072).token 0 0 + 1 := by decide +kernel

def entry (state : Nat) : QEnt := { slot := 0, serve := 7, state := state }

def packet (stage kind : Nat) : Packet :=
  { id := 3, hdr := { Hdr.blank with kind := kind }, data := [], agent := .core 1 0, target := 0, router := 0, stage := stage, since := 0,
    bad := false, reported := false, back := none, source := 0, entry := 0, sent := 1, got := 1 }

def serveOf : Serve :=
  { id := 7, pkt := packet 1 5, tile := 0, left := 0, status := 0, data := [], entry := some (0, 0), lost := false }

theorem witness_queue_clauses : up.Reached .curator 0 ∧
    ((up.setRing 0 0 [entry 2]).site 0).ring 0 = entry 2 :: [] ∧ (entry 2).state = 2 ∧ (∀ e ∈ ((up.site 0).ring 0).head?, e.state ≠ 2) ∧
    ((up.setRing 0 63 [entry 1]).site 0).toPublish 63 = some (entry 1) ∧
    (up.modNet fun n => { n with serves := [serveOf] }).net.serves.find? (fun v => v.id == (entry 1).serve) = some serveOf ∧
    (up.modNet fun n => { n with packets := [packet 2 3] }).net.waiting 0 = some (packet 2 3) ∧
    up.qState 0 0 = 0 :=
  ⟨reached (by decide +kernel), by decide +kernel, rfl, by decide +kernel, by decide +kernel, by decide +kernel, by decide +kernel,
    by decide +kernel⟩

/-- An MM whose descriptors are t12 to t15, and one whose descriptors run beyond. -/
theorem witness_mm_descriptors : (∃ u, Issues (running 0 0x30000000000061) 0 0 (.word 0x30000000000061) mmOp 0x30000000000061 u) ∧
    ¬16 < max (fieldOf 0x30000000000061 53 50) (fieldOf 0x30000000000061 49 46) + foldSubs (fieldOf 0x30000000000061 38 37) ∧
    (∃ u, Issues (running 0 0x3C006000000061) 0 0 (.word 0x3C006000000061) mmOp 0x3C006000000061 u) ∧
    16 < max (fieldOf 0x3C006000000061 53 50) (fieldOf 0x3C006000000061 49 46) + foldSubs (fieldOf 0x3C006000000061 38 37) :=
  ⟨issues_of_takes (by decide +kernel), by decide +kernel, issues_of_takes (by decide +kernel), by decide +kernel⟩

theorem witness_sorted : descends [(0x3F800000, 0), (0, 1), (0x80000000, 2), (0xFF800000, 3), (0x7FC00000, 4)] = true ∧
    dOf 0x854 % 2 = 1 ∧ insnGroup 0x854 = 0x2A := by decide +kernel

/-- A vector load at the last line of the vitrine, one beyond it, and one that is misaligned. -/
theorem witness_vector_addresses :
    (∀ o ∈ vmemOffsets 32 0 (vitSize 0 - 128), o + 4 ≤ vitSize 0) ∧ (∃ o ∈ vmemOffsets 32 0 (vitSize 0), vitSize 0 < o + 4) ∧ 64 % 128 ≠ 0 := by
  decide +kernel

theorem witness_writes_frame : (aluOp.run (running 0 0x4E63000) 0 0 0x4E63000) =
    .next ((running 0 0x4E63000).setS 0 0 6 (((running 0 0x4E63000).sreg 0 0 (saOf 0x4E63000)) + (running 0 0x4E63000).sreg 0 0 (sbOf 0x4E63000))) := rfl

/-- A core that ended with an exception, or without one, and with nothing outstanding. -/
def ended (t : Nat) (r : Option ExcRec) : State := (inState t 3 0).modCore t 0 fun k => { k with exc := r }

def exc3 : ExcRec := { cause := 63, pc := 0xFFFFFFFC, val := 2 ^ 64 - 1, core := 0, seq := 5 }

/-- A scalar core whose timer is reached, idle with the interrupt enabled where `w` is 2. -/
def timed (v w : Nat) : State := (inState 7 v w).modCore 7 0 fun k => (k.setSv 10 0).setSv 8 7

/-- A running scalar core with a pending and enabled interrupt, in user mode or with ien set. -/
def interrupted (status : BitVec 64) : State := (inState 7 1 0).modCore 7 0 fun k =>
  { ((((k.setSv 10 0).setSv 8 5).setSv 0 status).setSv 2 0x12345678) with pc := 0x1004 }

/-- An instruction of an engine, with a token to wait for and one to signal where we and se are set. -/
def eng (w : BitVec 64) : EngInstr := { seq := 3, word := w, pc := 0x40, core := 0, sv := [0, 0, 0], tv := [0, 0, 0, 0], av := 0 }

/-- Site 0 with an instruction at the head of an engine's queue and tokens in every counter. -/
def queued (e : Engine) (w : BitVec 64) : State := (((inState 0 1 0).setTreg 0 (R.ENG_TOKEN 0) 0xFFFFFFFF).modSite 0 fun x =>
  x.setQueue e [eng w])

/-- Site 0 with an instruction that an engine has done, and a notification that waits for it. -/
def engineDone (e : Engine) (w : BitVec 64) : State := ((inState 0 1 0).modSite 0 fun x =>
  { (x.setIssued e [{ id := 9, instr := eng w, done := true, crc := 0 }]) with notify := some 15 })

/-- Site t, whose core ends, has waited for longer than its limit. -/
def stalled (t : Nat) : State := ((inState t 3 0).setTreg t R.ENG_STALL_LIMIT 1000).modSite t fun x => { x with waits := [(5, 0, false)] }

theorem witness_StartStopWake :
    ((up.twin 0 = none ∨ up.inside (.host : Agent) 0 = true) ∧ (paired.twin 0 = none ∨ paired.inside (.core 0 0 : Agent) 0 = true) ∧
     paired.twin 0 = some 1 ∧ paired.inside (.curator : Agent) 0 = false ∧ 0 < 4) ∧
    3 < 4 ∧
    up.Reached (.curator : Agent) 0 :=
  ⟨by decide +kernel, by decide +kernel, reached (by decide +kernel)⟩

theorem witness_ProgramStoreWrites :
    32767 < 32768 ∧
    up.Reached (.curator : Agent) 0 :=
  ⟨by decide +kernel, reached (by decide +kernel)⟩

theorem witness_EngineCommands :
    ((kindOf 0 = .m ∨ kindOf 0 = .v) ∧
     ((if kindOf 0 = .m then (queued .drain 0x04000000000065).accErrors 0 ([] : List Nat) ([] : List Nat) else (queued .drain 0x04000000000065)).site 0).queue (.drain : Engine) = (eng 0x04000000000065) :: ([] : List EngInstr) ∧
     ((eng 0x04000000000065).we = true → ((if kindOf 0 = .m then (queued .drain 0x04000000000065).accErrors 0 ([] : List Nat) ([] : List Nat) else (queued .drain 0x04000000000065)).site 0).takesAhead (some (.drain : Engine)) (eng 0x04000000000065).wk < (if kindOf 0 = .m then (queued .drain 0x04000000000065).accErrors 0 ([] : List Nat) ([] : List Nat) else (queued .drain 0x04000000000065)).token 0 (eng 0x04000000000065).wk) ∧
     ((if kindOf 0 = .m then (queued .drain 0x04000000000065).accErrors 0 ([] : List Nat) ([] : List Nat) else (queued .drain 0x04000000000065)).site 0).engineFree (.drain : Engine) (eng 0x04000000000065) = true ∧
     (eng 0x04000000000065).core < 4) ∧
    ((eng 0x04000000000065).wk < 16 ∧
     ((if kindOf 0 = .m then (queued .compute 0x8C00000000000061).accErrors 0 ([] : List Nat) ([] : List Nat) else (queued .compute 0x8C00000000000061)).site 0).queue (.compute : Engine) = (eng 0x8C00000000000061) :: ([] : List EngInstr) ∧
     ((eng 0x8C00000000000061).we = true → ((if kindOf 0 = .m then (queued .compute 0x8C00000000000061).accErrors 0 ([] : List Nat) ([] : List Nat) else (queued .compute 0x8C00000000000061)).site 0).takesAhead (some (.compute : Engine)) (eng 0x8C00000000000061).wk < (if kindOf 0 = .m then (queued .compute 0x8C00000000000061).accErrors 0 ([] : List Nat) ([] : List Nat) else (queued .compute 0x8C00000000000061)).token 0 (eng 0x8C00000000000061).wk) ∧
     ((if kindOf 0 = .m then (queued .compute 0x8C00000000000061).accErrors 0 ([] : List Nat) ([] : List Nat) else (queued .compute 0x8C00000000000061)).site 0).engineFree (.compute : Engine) (eng 0x8C00000000000061) = true ∧
     (eng 0x8C00000000000061).core < 4) ∧
    ((eng 0x8C00000000000061).wk < 16 ∧ (engineDone .drain 0x14000000000065).twin 0 = none ∧
     ({ id := 9, instr := eng 0x14000000000065, done := true, crc := 0 } : EngIssued).instr.sk < 16 ∧
     ((if (.drain : Engine) = .drain then (engineDone .drain 0x14000000000065).refuseTable 0 else if (.drain : Engine) = .compute then (engineDone .drain 0x14000000000065).releaseMm 0 else (engineDone .drain 0x14000000000065)).site 0).issued (.drain : Engine) = ({ id := 9, instr := eng 0x14000000000065, done := true, crc := 0 } : EngIssued) :: ([] : List EngIssued) ∧
     ({ id := 9, instr := eng 0x14000000000065, done := true, crc := 0 } : EngIssued).done = true) ∧
    ((engineDone .compute 0x67).twin 0 = none ∧ ({ id := 9, instr := eng 0x67, done := true, crc := 0 } : EngIssued).instr.sk < 16 ∧
     ((if (.compute : Engine) = .drain then (engineDone .compute 0x67).refuseTable 0 else if (.compute : Engine) = .compute then (engineDone .compute 0x67).releaseMm 0 else (engineDone .compute 0x67)).site 0).issued (.compute : Engine) = ({ id := 9, instr := eng 0x67, done := true, crc := 0 } : EngIssued) :: ([] : List EngIssued) ∧
     ({ id := 9, instr := eng 0x67, done := true, crc := 0 } : EngIssued).done = true ∧
     (((stalled 0).trackWaits 0).site 0).waits.find? (fun w => !w.2.2 && ((((stalled 0).trackWaits 0).treg 0 R.ENG_STALL_LIMIT).toNat) < ((stalled 0).trackWaits 0).time - w.2.1) = some ((5, 0, false) : Nat × Nat × Bool)) ∧
    (((((stalled 0).trackWaits 0).treg 0 R.ENG_STALL_LIMIT).toNat) ≠ 0 ∧ kindOf 0 ≠ .mi) :=
  ⟨by decide +kernel, by decide +kernel, by decide +kernel, by decide +kernel, by decide +kernel⟩

theorem witness_CoreEvents :
    (0 < 4 ∧ (inState 0 2 1).coreState 0 0 = 2 ∧ ((inState 0 2 1).core 0 0).wait = 1 ∧
     ((inState 0 2 1).core 0 0).timeout = some 0 ∧ 0 ≤ (inState 0 2 1).siteTime 0) ∧
    (exc3.core < 4 ∧ exc3.cause < 64 ∧ exc3.pc < 2 ^ 64 ∧ exc3.val < 2 ^ 64 ∧
     (((ended 0 (some exc3)) : State).core 0 0).recorded = some exc3) ∧
    (((ended 0 (some exc3)) : State).coreState 0 0 = 3 ∧ ((ended 0 (some exc3)) : State).workDone 0 0 = true ∧
     (ended 0 none).coreState 0 0 = 3 ∧ ((ended 0 none).core 0 0).recorded = none ∧
     (ended 0 none).workDone 0 0 = true) ∧
    ((ended 7 none).coreState 7 0 = 3 ∧ ((ended 7 none).core 7 0).recorded = none ∧
     (ended 7 none).workDone 7 0 = true ∧ kindOf 7 = .s ∧
     (((timed 2 2).core 7 0).svReg 10).toNat ≤ (timed 2 2).siteTime 7) ∧
    ((((timed 1 0).core 7 0).svReg 10).toNat ≤ (timed 1 0).siteTime 7 ∧ (interrupted 0).coreState 7 0 = 1 ∧
     (interrupted 0).siteRuns 7 = true ∧ (interrupted 0).halting 7 0 = false ∧ (interrupted 0).stepping 7 0 = false) ∧
    (((interrupted 0).core 7 0).exc = none ∧ ((interrupted 0).core 7 0).pc < 2 ^ 64 ∧
     ((interrupted 0).core 7 0).pc % 4 = 0 ∧
     ((interrupted 0).irqPend 7 0 &&& ((interrupted 0).core 7 0).svReg 8) ≠ 0 ∧
     (((interrupted 0).core 7 0).supervisor = false ∨ (((interrupted 0).core 7 0).svReg 0).getLsbD 0 = true)) ∧
    ((interrupted 3).coreState 7 0 = 1 ∧ (interrupted 3).siteRuns 7 = true ∧ (interrupted 3).halting 7 0 = false ∧
     (interrupted 3).stepping 7 0 = false ∧ ((interrupted 3).core 7 0).exc = none) ∧
    (((interrupted 3).core 7 0).pc < 2 ^ 64 ∧ ((interrupted 3).core 7 0).pc % 4 = 0 ∧
     ((interrupted 3).irqPend 7 0 &&& ((interrupted 3).core 7 0).svReg 8) ≠ 0 ∧
     (((interrupted 3).core 7 0).supervisor = false ∨ (((interrupted 3).core 7 0).svReg 0).getLsbD 0 = true)) :=
  ⟨by decide +kernel, by decide +kernel, by decide +kernel, by decide +kernel, by decide +kernel, by decide +kernel, by decide +kernel, by decide +kernel⟩

/-- A request of a core that reads, one that writes bytes, and one that does AMO `op`, at a cell. -/
def vreq (c : Nat) : VitReq := readReq 2 (.core 4 0) (4 * c) 4
def vwrite (c : Nat) : VitReq := writeReq 2 (.core 4 0) [(4 * c, 0xAB), (4 * c + 1, 0xCD)]
def vmask (c : Nat) : VitReq := { vwrite c with masks := [(4 * c, 0x0F)] }
def vamo (c op : Nat) (wide : Bool) : VitReq :=
  { vreq c with write := true, amo := some (op, wide, 0x8000000000000003, 5), cells := if wide then [c, c + 1] else [c] }

/-- Site 0 with requests that wait, bytes in its vitrine and its first segment in state g. -/
def asking (g : Nat) (rs : List VitReq) : State := (up.setSeg 0 0 g).modSite 0 fun x =>
  { x with reqs := rs, vit := [(0x40, 0x11), (0x41, 0x22), (0x43, 0x80), (0x47, 0x7F)], cycle := 20 }

/-- Site 0 with accesses that its vitrine has done, and a load and a VSCATTER.ADD of its core that wait for them. -/
def answered (u : VitUser) (status : Nat) : State := (asking 0 []).modSite 0 fun x =>
  { x with
    fly := [{ req := { vreq 16 with user := u }, done := 20, status := status, data := [0x3F800000] }],
    cores := [(0, { Core.reset with accesses := [{ id := 4, kind := 0, dest := 3, size := 4, signed := true, addr := 64, path := 0, pieces := 1, got := [], value := 0, arrived := none, pc := 0, op := 0, data := [], lanes := [], buffered := false }, { id := 5, kind := 4, dest := 3, size := 4, signed := true, addr := 64, path := 0, pieces := 1, got := [], value := 0, arrived := none, pc := 0, op := 0, data := List.replicate 128 0x40, lanes := [(3, 16)], buffered := false }] })] }

/-- Site 0 with a correction to write back. -/
def correcting : State := (asking 0 []).modSite 0 fun x => { x with writebacks := [(16, 0x80002211)] }

/-- Segment 3 of site 0 in a state whose end has come. -/
def segAt (v : Nat) : State := (up.setSeg 0 3 v).modSite 0 fun x => { x with segEnd := [(3, 7)], cycle := 7, vit := [(0x180000, 5), (0x40, 9)] }

/-- A drain of nothing that is over, and one with a row to go. -/
def drain0 (next : Nat) : DrainOp :=
  { id := 4, instr := { seq := 3, word := 0x08000000000065, pc := 0x40, core := 0, sv := [], tv := [], av := 0 }, comp := none, rows := 1,
    next := next, flight := [], scales := [], gather := [],
    counts := { count := 1, clip := 0, uflow := 0, nonfin := 0, sat := 0, amax := 0x3F800000 }, reads := 0, got := [], writes := 0,
    tailSent := true, closed := false, started := true }

/-- Site 0 with statistics of quantiser 3 and drains in work. -/
def counted (ds : List DrainOp) : State :=
  (((up.setTreg 0 (R.QUANT_STAT_AMAX 3) 0x3F800000).setTreg 0 (R.QUANT_STAT_COUNT_LO 3) 5).setTreg 0 (R.QUANT_HIST 3 0) 0x40000000).modSite 0
  fun x => { x with drains := ds, drainOn := [{ id := 4, instr := { seq := 3, word := 0x08000000000065, pc := 0x40, core := 0, sv := [], tv := [], av := 0 }, done := false, crc := 0 }] }

/-- A matrix instruction on one INT8 element, and its pass. -/
def mm1 : MmRec :=
  let d : BitVec 128 := 0x800_4000000000000000
  let r : ScaleRec := { tensor := 0x3F800000, fmt := 0, block := 0, codebook := 0, stride := 0, base := 0 }
  { id := 1, handle := 2, verb := .mac, fold := 0, g := 0, add := false, hold := false, paired := false, m := 1, k := 1, n := 1, base := 7, r := 64,
    ts := 0x3F800000, streams := [d], stats := [d], sRecs := [r], bRecs := [r], issuedAt := 0, next := 1 }
def pass1 (entered wrote : Nat) : Pass :=
  { id := 6, mm := mm1, nb := 0, ch := 0, kp := 0, sp := 0, reload := true, lines := 1, slots := 1, anchor := 0, start := 0, entered := entered,
    wrote := wrote, units := [], held := false }

/-- The array of site 0 busy in a cycle with a pass. -/
def arraying (cycle entered wrote : Nat) : State := up.modSite 0 fun x =>
  { x with
    arr := { Arr.idle with
      cycle := cycle, busy := true, passes := [pass1 entered wrote],
      feeder := if entered = 0 then [{ pass := 6, index := 0, span := 1, pieces := 0, got := [(0, 5)], crossing := false, paid := false }] else [],
      staging := if wrote = 0 then [{ pass := 6, index := 0, span := 1, pieces := 0, got := [(0, 5)], crossing := false, paid := false }] else [] } }

/-- A codebook that site 0 has loaded. -/
def loaded (cb : Nat) : State := up.modSite 0 fun x =>
  { x with bookLoads := [(9, cb, 0, [0x3F803F00, 0xBF80BF88, 0, 1, 0x7FFFFFFF, 0x80000001, 0x40004001, 0x7F80FF80])] }

/-- For the clauses of VitrineAndSegments. -/
theorem witness_VitrineCommands :
    ((((asking 0 [vreq 16]) : State).site 0).nextReq = some (vreq 16) ∧ (vreq 16).cells = 16 :: ([] : List Nat) ∧
     (∀ x ∈ (vreq 16).cells, x ∉ (((asking 0 [vreq 16]) : State).site 0).vitBad ∧ x ∉ ([] : List Nat)) ∧
     ((((asking 0 [vreq 16]).modSite 0 fun x => { x with banks := [cellKey 16] }) : State).site 0).nextReq = some (vreq 16) ∧
     (∀ x ∈ (vreq 16).cells, x ∉ ((((asking 0 [vreq 16]).modSite 0 fun x => { x with banks := [cellKey 16] }) : State).site 0).vitBad ∧ x ∉ ([] : List Nat))) ∧
    ((((answered (.core 4 0) 0) : State).site 0).dueFly (fun _ => true) = some ({ req := { vreq 16 with user := .core 4 0 }, done := 20, status := 0, data := [0x3F800000] } : VitFly) ∧
     (({ req := { vreq 16 with user := .core 4 0 }, done := 20, status := 0, data := [0x3F800000] } : VitFly).req.user = .core 4 0 ∨ ({ req := { vreq 16 with user := .core 4 0 }, done := 20, status := 0, data := [0x3F800000] } : VitFly).req.user = .vector 4 0 ∨ ({ req := { vreq 16 with user := .core 4 0 }, done := 20, status := 0, data := [0x3F800000] } : VitFly).req.user = .gather 4 0) ∧
     (((answered (.core 4 0) 2) : State).site 0).dueFly (fun _ => true) = some ({ req := { vreq 16 with user := .core 4 0 }, done := 20, status := 2, data := [0x3F800000] } : VitFly) ∧
     (({ req := { vreq 16 with user := .core 4 0 }, done := 20, status := 2, data := [0x3F800000] } : VitFly).req.user = .core 4 0 ∨ ({ req := { vreq 16 with user := .core 4 0 }, done := 20, status := 2, data := [0x3F800000] } : VitFly).req.user = .vector 4 0 ∨ ({ req := { vreq 16 with user := .core 4 0 }, done := 20, status := 2, data := [0x3F800000] } : VitFly).req.user = .gather 4 0) ∧
     (correcting.site 0).bankFree 16 = true) ∧
    ((∃ e ∈ (correcting.site 0).writebacks, e.1 = 16) ∧
     (((answered (.addRead 5 0) 0) : State).site 0).dueFly VitFly.addsUp = some ({ req := { vreq 16 with user := .addRead 5 0 }, done := 20, status := 0, data := [0x3F800000] } : VitFly) ∧
     ({ req := { vreq 16 with user := .addRead 5 0 }, done := 20, status := 0, data := [0x3F800000] } : VitFly).req.user = .addRead 5 0 ∧
     ({ req := { vreq 16 with user := .addRead 5 0 }, done := 20, status := 0, data := [0x3F800000] } : VitFly).status = 0 ∧
     (((answered (.addRead 5 0) 0) : State).core 0 0).accesses.find? (fun a => a.id == 5) = some ({ id := 5, kind := 4, dest := 3, size := 4, signed := true, addr := 64, path := 0, pieces := 1, got := [], value := 0, arrived := none, pc := 0, op := 0, data := List.replicate 128 0x40, lanes := [(3, 16)], buffered := false } : MemAcc)) :=
  ⟨by decide +kernel, by decide +kernel, by decide +kernel⟩

/-- For the clauses of VitrineAndSegments. -/
theorem witness_SegmentCommands :
    (3 < 8 ∧ vitSize 0 ≠ 0 ∧ (segAt 1).segDue 0 3 1 = true ∧ (segAt 3).segDue 0 3 3 = true ∧
     (segAt 5).segDue 0 3 5 = true) ∧
    up.Reached (.curator : Agent) 0 ∧
    up.Reached (.core 0 0 : Agent) 1 :=
  ⟨by decide +kernel, reached (by decide +kernel), reached (by decide +kernel)⟩

theorem witness_ArrayCommands :
    (3 < 8 ∧ (((counted []) : State).twin 0 = none ∨ ((counted []) : State).inside (.core 1 0 : Agent) 0 = true) ∧
     ((((counted []).setTreg 0 (R.QUANT_CTL 3) 0x101) : State).twin 0 = none ∨ (((counted []).setTreg 0 (R.QUANT_CTL 3) 0x101) : State).inside (.curator : Agent) 0 = true) ∧
     ((((arraying 0 1 0).modSite 0 fun x => { x with arr := { x.arr with passes := [{ pass1 0 0 with slots := 2 }] } }) : State).arr 0).nextUnit = some (({ pass1 0 0 with slots := 2 } : Pass), 0) ∧
     ((((arraying 0 1 0).modSite 0 fun x => { x with arr := { x.arr with passes := [{ pass1 0 0 with slots := 2 }] } }) : State).arr 0).feeder.length < 8) ∧
    ((∀ r ∈ ((((arraying 0 1 0).modSite 0 fun x => { x with arr := { x.arr with passes := [{ pass1 0 0 with slots := 2 }] } }) : State).site 0).reqs, r.port ≠ 0) ∧
     ((((arraying 0 0 0).modSite 0 fun x => { x with arr := { x.arr with staging := [] } }) : State).arr 0).nextRow = some ((pass1 0 0), 0) ∧
     ((((arraying 0 0 0).modSite 0 fun x => { x with arr := { x.arr with staging := [] } }) : State).arr 0).rowFree (pass1 0 0) 0 = true ∧
     ((arraying 0 0 0).arr 0).entering = some (pass1 0 0) ∧ ((arraying 0 0 0).arr 0).busy = true) ∧
    ((pass1 0 0).entered = 0 ∧ ((arraying 0 0 0).site 0).freeze = .none ∧ (pass1 0 0).mm.fold < 4 ∧
     ((arraying 0 0 0).arr 0).loading = some ((pass1 0 0), 0) ∧ 0 < 32) ∧
    (((arraying 31 0 31).arr 0).loading = some ((pass1 0 31), 31) ∧ ((arraying 31 0 31).arr 0).busy = true ∧
     ((arraying 31 0 31).site 0).freeze = .none ∧ 31 < 32 ∧ ((arraying 36 1 32).arr 0).busy = true) ∧
    (((arraying 36 1 32).site 0).freeze = .none ∧ (((arraying 36 1 32).arr 0).passes.map (·.id)).Nodup ∧
     ((arraying 67 1 32).arr 0).busy = true ∧ ((arraying 67 1 32).site 0).freeze = .none ∧
     ((arraying 67 1 32).arr 0).passes.find? (fun p => p.end_ == ((arraying 67 1 32).arr 0).cycle && p.kp + 1 == p.mm.kpCount && p.sp + 1 == p.mm.subs) = some (pass1 1 32)) ∧
    (((loaded 5).site 0).cbDue = some (9, 5, 0, ([0x3F803F00, 0xBF80BF88, 0, 1, 0x7FFFFFFF, 0x80000001, 0x40004001, 0x7F80FF80] : List (BitVec 32))) ∧
     ([0x3F803F00, 0xBF80BF88, 0, 1, 0x7FFFFFFF, 0x80000001, 0x40004001, 0x7F80FF80] : List (BitVec 32)).length = 8 ∧ 5 < 64 ∧
     ((loaded 63).site 0).cbDue = some (9, 63, 0, ([0x3F803F00, 0xBF80BF88, 0, 1, 0x7FFFFFFF, 0x80000001, 0x40004001, 0x7F80FF80] : List (BitVec 32))) ∧
     63 < 64) ∧
    ((((counted [drain0 1]) : State).site 0).drains = (drain0 1) :: ([] : List DrainOp) ∧ (drain0 1).finished = true ∧
     (¬((drain0 1).instr.aop = 6 ∧ (drain0 1).instr.isDr = false ∧ (drain0 1).closed = true))) ∧
    ((counted []) : State).Reached (.core 1 0 : Agent) 0 ∧
    (((counted []).setTreg 0 (R.QUANT_CTL 3) 0x101) : State).Reached (.curator : Agent) 0 :=
  ⟨by decide +kernel, by decide +kernel, by decide +kernel, by decide +kernel, by decide +kernel, by decide +kernel, by decide +kernel, reached (by decide +kernel), reached (by decide +kernel)⟩

/-- An access to block 1 of stack 0 that waits at its MI tile, and the state that holds it. -/
def mreq (kind : Nat) : MiReq :=
  { id := 5, tile := miSite 0 0, serve := 1, stack := 0, off := 64, addr := 64, kind := kind, pos := 0, from_ := 8, count := 4,
    bytes := [(8, 0xAB)], amo := if kind = 3 then some (0, false, 3, 0) else none, part := none, win := none, passed := 0 }
def withMi (kind : Nat) : State := { up.setReg (R.MEM_STK_USABLE 0) 0x300 with net := { Net.start with mi := [mreq kind], nextId := 10 } }

/-- An answer in two parts. -/
def serve2 : Serve :=
  { id := 1, tile := 3, left := 2, status := 0, data := [], entry := none, lost := false,
    pkt := {
      id := 2,
      hdr := {
        dev := 0, tile := 3, queue := 0, acc := 0, win := 0, kind := 8, version := 1, len := 8, status := 0, xlated := false, tag := 7, src := 16,
        mask := 0, addr := 64, arg := 0 }, data := [], agent := .core 1 0, target := 3, router := 3, stage := 1, since := 0, bad := false,
      reported := false, back := none, source := 12, entry := 4, sent := 1, got := 1 } }
def serving : State := { up with net := { Net.start with serves := [serve2], nextId := 10 } }

/-- No image: every tract is local. Block 1 of stack 0 waits to be rewritten; patrol is on. -/
def placed (n : Nat) : State :=
  { up.setReg R.MEM_CTL 0x118 with
    fab := { up.fab with active := none }, dram := { Dram.start with rewrites := [(blockKey 0 64, 1)], patrol := [(0, n)] } }

/-- Stack 3 is being rebuilt. -/
def rebuilding (enc : Nat) : State :=
  { up.setReg (R.MEM_STK_STATE 3) (BitVec.ofNat 32 (0x40000 + enc * 0x10000)) with dram := { Dram.start with rebuilt := [(3, 128)] } }

/-- A row with a wide error, one with a pass of patrol and a row under copy; a bank whose spares are all in use. -/
def copy1 : RowCopy := { stack := 3, channel := 2, bank := 31, row := 16383, spare := 5, die := 4, since := 0 }
def rows (wide : Bool) (full : Bool) : State :=
  { up with
    dram := { Dram.start with
      wide := if wide then [rowKey 3 2 31 7] else [], suspects := [(rowKey 3 2 31 7, 2 ^ 20)], copies := [copy1],
      remaps := if full then ((List.range 16).filter (· ≠ 5)).map fun i => (rowKey 3 2 31 (20 + i), 16384 + i) else [] } }

/-- An image that places tract 0 in band 0 of stack 0, and one that interleaves the first group. -/
def tracts (role : Nat) : State :=
  { up with
    fab := { up.fab with
      active := some {
        length := 0, bytes := [(0x80, 9), (0x85, 0x10), (0x89, 0x10)] ++ (List.range 32).map fun t => (0x1003 + 4 * t, BitVec.ofNat 8 role) } } }

/-- Stack 5 at a temperature, in sixteenths of a degree. -/
def warm (code : Nat) : State := up.setReg (R.MEM_STK_STATE 5) (BitVec.ofNat 32 (0x1000000 * code))

/-- For the clauses of DramCommands. -/
theorem witness_DramAccesses :
    ((withMi 0).net.mi.find? (fun r => r.id == 5) = some (mreq 0) ∧ (withMi 0).miReady (mreq 0) = true ∧
     (withMi 0).stackOk (mreq 0).stack (mreq 0).off = true ∧
     (withMi 0).dramClosed (mreq 0).addr = false ∧
     (withMi 3).net.mi.find? (fun r => r.id == 5) = some (mreq 3)) ∧
    ((withMi 3).miReady (mreq 3) = true ∧
     (withMi 3).stackOk (mreq 3).stack (mreq 3).off = true ∧
     (withMi 3).dramClosed (mreq 3).addr = false ∧ serving.net.serves.find? (fun v => v.id == 1) = some serve2 ∧
     1 < serve2.left) ∧
    (Map.get (fun _ => 0) (placed 0).dram.rewrites (blockKey 0 64) = 1 ∧
     (∀ r ∈ (placed 0).net.mi, ¬(r.stack = 0 ∧ channelOf r.off = channelOf 64 ∧ bankOf r.off = bankOf 64)) ∧
     (placed 0).addressAt 0 64 = some 64 ∧ 3 < 32 ∧ (rebuilding 1).bit (R.MEM_STK_STATE 3) 18 = true) ∧
    (4096 % 64 = 0 ∧ 4096 ≤ 2 ^ 35 ∧ Map.get (fun _ => 0) (rebuilding 1).dram.rebuilt 3 < 4096 ∧ 34359738368 % 64 = 0 ∧
     34359738368 ≤ 2 ^ 35) ∧
    (Map.get (fun _ => 0) (rebuilding 1).dram.rebuilt 3 < 34359738368 ∧ kindOf (miSite 0 0) = .mi ∧
     (placed 0).bit R.MEM_CTL 8 = true ∧
     (placed 0).patrolDue ((miStack (miSite 0 0)).1) ((miStack (miSite 0 0)).2 + 0 % 8) (Map.get (fun _ => 0) (placed 0).dram.patrol (((miStack (miSite 0 0)).1) * 32 + ((miStack (miSite 0 0)).2 + 0 % 8))) = true ∧
     (placed 16777215).bit R.MEM_CTL 8 = true) ∧
    (placed 16777215).patrolDue ((miStack (miSite 0 0)).1) ((miStack (miSite 0 0)).2 + 0 % 8) (Map.get (fun _ => 0) (placed 16777215).dram.patrol (((miStack (miSite 0 0)).1) * 32 + ((miStack (miSite 0 0)).2 + 0 % 8))) = true :=
  ⟨by decide +kernel, by decide +kernel, by decide +kernel, by decide +kernel, by decide +kernel, by decide +kernel⟩

/-- For the clauses of DramCommands. -/
theorem witness_DramMaintenance :
    ((true = true ∧ (rowKey 3 2 31 7) ∈ (rows true false).dram.wide ∨ true = false ∧ 2 ^ 20 ≤ Map.get (fun _ => 0) (rows true false).dram.suspects (rowKey 3 2 31 7)) ∧
     (∀ c ∈ (rows true false).dram.copies, rowKey c.stack c.channel c.bank c.row ≠ (rowKey 3 2 31 7)) ∧
     (rows true false).bit (R.MEM_STK_STATE 3) 0 = false ∧ 3 < 32 ∧ 2 < 32) ∧
    (31 < 32 ∧ 7 < 16384 ∧
     (false = true ∧ (rowKey 3 2 31 7) ∈ (rows false true).dram.wide ∨ false = false ∧ 2 ^ 20 ≤ Map.get (fun _ => 0) (rows false true).dram.suspects (rowKey 3 2 31 7)) ∧
     (∀ c ∈ (rows false true).dram.copies, rowKey c.stack c.channel c.bank c.row ≠ (rowKey 3 2 31 7)) ∧
     (rows false true).bit (R.MEM_STK_STATE 3) 0 = false) ∧
    ((rows true false).freeSpare 3 2 31 = some 0 ∧
     (rows true false).dram.copies.find? (fun c => rowKey c.stack c.channel c.bank c.row == rowKey 3 2 31 16383) = some copy1 ∧
     Map.get (fun _ => 0) up.dram.refreshed 31 + refreshInterval (up.stackTemp 31) ≤ up.time ∧ 5 < 32 ∧ 0 ∉ (tracts 64).dram.zeroing) ∧
    (1024 ∉ (tracts 128).dram.zeroing ∧ 0 ∈ ({ tracts 64 with dram := { Dram.start with zeroing := [0] } } : State).dram.zeroing) ∧
    0 ∈ unitsOf (tracts 64).fab.active ∧
    1024 ∈ unitsOf (tracts 128).fab.active :=
  ⟨by decide +kernel, by decide +kernel, by decide +kernel, by decide +kernel, mem_unitsOf (t := 0) (by decide +kernel) (by decide), mem_unitsOf (t := 0) (by decide +kernel) (by decide)⟩

/-- Wings 0 and 1 on, and packets and their flits in wing 0. -/
def twoWings : State :=
  { up.setReg R.CLK_WING_RUN 3 with wings := [(0, { WingPower.off with clamped := false }), (1, { WingPower.off with clamped := false })] }

def hdr0 (kind tile arg len : Nat) : Hdr :=
  { dev := 0, tile := tile, queue := 2, acc := 0, win := 0, kind := kind, version := 1, len := len, status := 0, xlated := false, tag := 7,
    src := 0, mask := 0, addr := 0x040000000040, arg := arg }
def packet0 (kind router entry stage : Nat) (data : List (BitVec 8)) : Packet :=
  { id := 2, hdr := hdr0 kind 1 0x3010 data.length, data := data, agent := .core 0 0, target := 1, router := router, stage := stage, since := 0,
    bad := false, reported := false, back := none, source := router * 8 + 4, entry := entry, sent := 1, got := if stage = 0 then 0 else 1 }

/-- A packet whose one flit is in the input of router r from its interface, and one that is whole at site 1. -/
def hopping (r entry : Nat) : State :=
  { twoWings with
    net := { Net.start with
      nextId := 10, packets := [packet0 4 r entry 0 []], bufs := [(vcKey r 4 2, { flits := [(2, 0)], since := 0, reported := false })] } }
def atSite (kind : Nat) (data : List (BitVec 8)) : State :=
  { up with
    net := { Net.start with
      nextId := 10, packets := [packet0 kind 1 4 1 data], waits := [{ src := 16, tag := 7, join := 3, offs := [(0, 4)] }],
      joins := [{ id := 3, user := .msg 1 9, twin := none, read := true, len := 8, left := 2, status := 0, data := [] }] } }

/-- An access that waits for injection at site 0. -/
def req0 (kind len : Nat) : NetReq :=
  { origin := 0, agent := .core 0 0, hdr := hdr0 kind 1 0x3010 len, data := List.replicate (if kind = 9 then len else 0) 0x5A, user := .msg 0 1,
    ready := true, twin := none }
def injecting (kind len : Nat) : State := { up with net := { Net.start with nextId := 10, outbox := [req0 kind len] } }

/-- Flits at an input and members of a context that have waited for longer than the limit of site 0. -/
def stuck : State :=
  { up.setTreg 0 R.NET_STALL_LIMIT 1000 with
    net := { Net.start with
      sn := [(5, { SnCtx.start with arrived := [(0, 0)] })], bufs := [(vcKey 0 3 1, { flits := [(2, 0)], since := 0, reported := false })] } }

/-- Queue 2 of site 1 in a state, with an entry that has been written. -/
def ent0 : QEnt := { slot := 0, serve := 4, state := 1 }
def queueIn (v : Nat) : State := (up.setTfld 1 (R.NET_Q_STATE 2) 31 30 v).modSite 1 fun x => { x with rings := [(2, [ent0])] }

/-- A message that waits at site 1, whose queue 2 has been closed. -/
def waitingMsg : State := { queueIn 2 with net := { Net.start with nextId := 10, packets := [packet0 1 1 4 2 [1, 2, 3, 4]] } }

/-- Slot 2 of site 1 set up for rounds of two elements from two sources, with a half of what it has taken, and a message for it. -/
def cpacket (n : Nat) : Packet := { packet0 3 1 4 1 (List.replicate n 1) with hdr := { hdr0 3 1 0 n with queue := 2 } }
def concSlot (cfg : BitVec 32) (v taken : Nat) : State :=
  (((((up.setTreg 1 (R.CONC_ALLOC 2) 0x100000).setTreg 1 (R.CONC_CFG 2) cfg).setTfld 1 (R.CONC_STATE 2) 29 28 v).setTreg 1 (R.CONC_NOTIFY 2) (BitVec.ofNat 32 ((taken % 4) * 2 ^ 30)) ).setConcHalf 1 2 0
    { taken := taken, vals := [(0, 3), (1, 0x7FFFFFFF)], bufs := [] }).modSite 1 fun x => { x with concIn := [cpacket 8, cpacket 7] }

/-- Window 7 of partition 0, in a state, and a command for it. -/
def winCmd0 : WinCmd := { id := 4, tile := 0, win := 7, state := 2, acc := 9, left := [0, 3073] }
def window (v : Nat) (cmds : List WinCmd) : State :=
  { up with
    fab := { up.fab with active := some { length := 0, bytes := [(0x80, 5), (0x85, 0x10), (0x107F, 0x40)] } },
    net := { Net.start with windows := [(7, (v, 9))], winCmds := cmds } }

/-- Context 5 of an image, of a kind and with sites 0 and 3 as members, port 2 down and a port up, and what it has taken. -/
def ctxImage (kind up : Nat) : Image :=
  { length := 0, bytes := [(0x80, 8), (0x85, 0x10), (0x17D0, BitVec.ofNat 8 kind), (0x17D2, BitVec.ofNat 8 up), (0x17D8, 4), (0x17E0, 9)] }
def syncing (kind port : Nat) (x : SnCtx) : State :=
  { up with fab := { up.fab with active := some (ctxImage kind port) }, net := { Net.start with sn := [(5, x)] } }
def arrived2 : SnCtx := { SnCtx.start with arrived := [(3, 9), (0, 7)], downs := [2], round := 255 }
def wave0 (release : Bool) : SnWave := { ctx := 5, tile := 3, release := release, value := true, since := 0 }

theorem witness_PacketCommands :
    ((injecting 4 0).net.outbox.find? (fun r => r.origin == 0) = some (req0 4 0) ∧ (req0 4 0).ready = true ∧
     (injecting 4 0).entryRuns (req0 4 0) = true ∧ (req0 4 0).passing = none ∧ 0 < 3072) ∧
    ((req0 4 0).hdr.dev = (injecting 4 0).deviceId ∧
     (injecting 9 64).net.outbox.find? (fun r => r.origin == 0) = some (req0 9 64) ∧ (req0 9 64).ready = true ∧
     (injecting 9 64).entryRuns (req0 9 64) = true ∧ (req0 9 64).passing = none) ∧
    ((req0 9 64).hdr.dev = (injecting 9 64).deviceId ∧ 1 < 7 ∧ (hopping 0 1).routerRuns 0 = true ∧
     ((hopping 0 1).fillInputs 0).outputTurn 0 1 = some (2, 4, ((packet0 4 0 1 0 []) : Packet), 0) ∧ 4 < 8) ∧
    (2 < 4 ∧ ((hopping 0 1).fillInputs 0).net.packet ((packet0 4 0 1 0 []) : Packet).id = some ((packet0 4 0 1 0 []) : Packet) ∧
     vcOf ((packet0 4 0 1 0 []) : Packet).hdr.kind = 2 ∧ ((packet0 4 0 1 0 []) : Packet).id < ((hopping 0 1).fillInputs 0).net.nextId ∧
     2 < 7) ∧
    ((hopping 0 2).routerRuns 0 = true ∧
     ((hopping 0 2).fillInputs 0).outputTurn 0 2 = some (2, 4, ((packet0 4 0 2 0 []) : Packet), 0) ∧
     ((hopping 0 2).fillInputs 0).net.packet ((packet0 4 0 2 0 []) : Packet).id = some ((packet0 4 0 2 0 []) : Packet) ∧
     vcOf ((packet0 4 0 2 0 []) : Packet).hdr.kind = 2 ∧ ((packet0 4 0 2 0 []) : Packet).id < ((hopping 0 2).fillInputs 0).net.nextId) ∧
    (((atSite 4 []) : State).net.packets.find? (fun p => p.id == 2) = some ((packet0 4 1 4 1 []) : Packet) ∧
     ((atSite 4 []) : State).arrived ((packet0 4 1 4 1 []) : Packet) = true ∧ ((packet0 4 1 4 1 []) : Packet).target < 3072 ∧
     ((packet0 4 1 4 1 []) : Packet).id < ((atSite 4 []) : State).net.nextId ∧
     ((atSite 11 [1, 2, 3, 4]) : State).net.packets.find? (fun p => p.id == 2) = some ((packet0 11 1 4 1 [1, 2, 3, 4]) : Packet)) ∧
    (((atSite 11 [1, 2, 3, 4]) : State).arrived ((packet0 11 1 4 1 [1, 2, 3, 4]) : Packet) = true ∧
     vcOf ((packet0 11 1 4 1 [1, 2, 3, 4]) : Packet).hdr.kind = 1 ∧ 3 ≠ 6 ∧ (stuck.net.buf (vcKey 0 3 1)).flits ≠ [] ∧
     (stuck.net.buf (vcKey 0 3 1)).reported = false) ∧
    (stuck.stalled 0 (stuck.net.buf (vcKey 0 3 1)).since = true ∧
     stuck.net.sn.find? (fun c => (c.2.arrived.any fun a => a.1 == 0 && stuck.stalled 0 a.2) && !(stuck.site 0).stalls.contains (6, c.1)) = some ((5, { SnCtx.start with arrived := [(0, 0)] }) : Nat × SnCtx)) ∧
    (∀ p h, (req0 4 0).user ≠ .ingress p h) ∧
    (∀ p h, (req0 9 64).user ≠ .ingress p h) :=
  ⟨by decide +kernel, by decide +kernel, by decide +kernel, by decide +kernel, by decide +kernel, by decide +kernel, by decide +kernel, by decide +kernel, (by intro p h e; cases e), (by intro p h e; cases e)⟩

/-- For the clauses of QueuesAndTheirReaders. -/
theorem witness_QueueCommands :
    (2 < 64 ∧ waitingMsg.net.waiting 1 = some ((packet0 1 1 4 2 [1, 2, 3, 4]) : Packet) ∧ waitingMsg.wingRuns (wingOf 1) = true ∧
     ((waitingMsg.receive ((packet0 1 1 4 2 [1, 2, 3, 4]) : Packet) 1).net.packets.any fun q => q.id == ((packet0 1 1 4 2 [1, 2, 3, 4]) : Packet).id && q.stage == 2) = false ∧
     ((queueIn 1).site 1).toPublish 2 = some ent0) ∧
    (queueIn 1).wingRuns (wingOf 1) = true ∧
    up.Reached (.core 0 0 : Agent) 1 :=
  ⟨by decide +kernel, by decide +kernel, reached (by decide +kernel)⟩

theorem witness_ConcordCommands :
    (((concSlot 0x10002 1 0).site 1).concIn = (cpacket 8) :: ([cpacket 7] : List Packet) ∧
     (concSlot 0x10002 1 0).wingRuns (wingOf 1) = true ∧
     ((concSlot 0x10000 1 0).site 1).concIn = (cpacket 8) :: ([cpacket 7] : List Packet) ∧
     (concSlot 0x10000 1 0).wingRuns (wingOf 1) = true ∧ 2 < 16) ∧
    ((concSlot 0x10002 1 4).wingRuns (wingOf 1) = true ∧ (concSlot 0x10002 1 4).concState 1 2 = 1 ∧
     (concSlot 0x10002 1 4).concComplete 1 2 = true ∧
     ((∀ i ∈ ([] : List Nat), (concSlot 0x10002 1 4).concE 1 2 ≤ i) ∨ (concSlot 0x10002 1 4).bit R.SEC_CTL 0 = false) ∧
     (concSlot 0x10002 1 5).wingRuns (wingOf 1) = true) ∧
    ((concSlot 0x10002 1 5).concState 1 2 = 1 ∧ (concSlot 0x10002 1 5).concComplete 1 2 = true ∧
     ((∀ i ∈ ([] : List Nat), (concSlot 0x10002 1 5).concE 1 2 ≤ i) ∨ (concSlot 0x10002 1 5).bit R.SEC_CTL 0 = false) ∧
     (concSlot 0x10002 2 4).wingRuns (wingOf 1) = true ∧ (concSlot 0x10002 2 4).concState 1 2 = 2) ∧
    (Map.get (fun _ => 0) ((concSlot 0x10002 2 4).site 1).concLeft 2 = 0 ∧ (concSlot 0x10002 2 6).wingRuns (wingOf 1) = true ∧
     (concSlot 0x10002 2 6).concState 1 2 = 2 ∧ Map.get (fun _ => 0) ((concSlot 0x10002 2 6).site 1).concLeft 2 = 0) ∧
    up.Reached (.core 0 0 : Agent) 1 :=
  ⟨by decide +kernel, by decide +kernel, by decide +kernel, by decide +kernel, reached (by decide +kernel)⟩

/-- For the clauses of WindowsAndBarriers. -/
theorem witness_WindowCommands :
    (((window 2 []) : State).twin 0 = none ∧ ((window 1 []) : State).twin 0 = none ∧
     ((window 1 [winCmd0]) : State).net.winCmds.find? (fun c => c.id == 4) = some winCmd0 ∧
     ((((window 1 [winCmd0]) : State).net.winCmds.takeWhile fun d => d.id != 4).any fun d => d.win == winCmd0.win && d.left.contains 3073) = false ∧
     ((window 1 [{ winCmd0 with left := [] }]) : State).net.winCmds.find? (fun c => c.tile == 0) = some ({ winCmd0 with left := [] } : WinCmd)) ∧
    ((∀ k ∈ ({ winCmd0 with left := [] } : WinCmd).left, k < 3072 ∧ ((window 1 [{ winCmd0 with left := [] }]) : State).live k = false) ∧
     ((((window 1 [{ winCmd0 with left := [] }]) : State).net.winCmds.takeWhile fun d => d.id != ({ winCmd0 with left := [] } : WinCmd).id).any fun d => d.win == ({ winCmd0 with left := [] } : WinCmd).win) = false ∧
     (({ winCmd0 with left := [] } : WinCmd).state = 2 → ((window 1 [{ winCmd0 with left := [] }]) : State).net.windowWrites ({ winCmd0 with left := [] } : WinCmd).win = false)) ∧
    up.Reached (.core 0 0 : Agent) 1 :=
  ⟨by decide +kernel, by decide +kernel, reached (by decide +kernel)⟩

/-- For the clauses of WindowsAndBarriers. -/
theorem witness_SyncCommands :
    (up.twin 0 = none ∧ 255 < 256 ∧ (syncing 0 255 SnCtx.start).twin 3 = none ∧ 5 < 256 ∧ 0 < 4) ∧
    ((syncing 0 255 SnCtx.start).fab.active = some (ctxImage 0 255) ∧ (syncing 4 255 SnCtx.start).twin 0 = none ∧
     2 < 4 ∧ (syncing 4 255 SnCtx.start).fab.active = some (ctxImage 4 255) ∧
     ({ up with net := { Net.start with waves := [wave0 true] } } : State).net.waves.find? (fun w => w.ctx == 5 && w.tile == 3) = some (wave0 true)) ∧
    ((wave0 true).since + 40 ≤ ({ up with net := { Net.start with waves := [wave0 true] } } : State).time ∧
     ({ up with net := { Net.start with waves := [wave0 false] } } : State).net.waves.find? (fun w => w.ctx == 5 && w.tile == 3) = some (wave0 false) ∧
     (wave0 false).since + 40 ≤ ({ up with net := { Net.start with waves := [wave0 false] } } : State).time ∧
     (syncing 1 255 arrived2).fab.active = some (ctxImage 1 255) ∧ (ctxImage 1 255).ctxKind 5 = 1) ∧
    ((syncing 1 255 arrived2).allArrived (ctxImage 1 255) 5 = true ∧
     (syncing 1 7 arrived2).fab.active = some (ctxImage 1 7) ∧ (ctxImage 1 7).ctxKind 5 = 1 ∧
     (syncing 1 7 arrived2).allArrived (ctxImage 1 7) 5 = true ∧
     (syncing 1 255 SnCtx.start).fab.active = some (ctxImage 1 255)) ∧
    (2 ∈ (ctxImage 1 255).ctxDowns 5 ∧ 2 ∉ ((syncing 1 255 SnCtx.start).snCtx 5).downs) ∧
    up.Reached (.core 0 0 : Agent) 1 :=
  ⟨by decide +kernel, by decide +kernel, by decide +kernel, by decide +kernel, by decide +kernel, reached (by decide +kernel)⟩

theorem witness_RegisterCommands :
    (up.pins.vaux5 = true ∧ 0x104 < 2 ^ 20 ∧ 0x104 % 4 = 0 ∧ 1 < 2 ∧ (findReg devRegDefs R.MEM_CTL).isSome = true) ∧
    up.Granted (.host : Agent) R.DBG_ACC_CMD :=
  ⟨by decide +kernel, granted (by decide +kernel)⟩

def img0 : Image := { length := 0, bytes := [] }

/-- A shadow in a state, with a swap armed for a count or not. -/
def shadowed (v : Nat) (arm : Bool) (at_ : Nat) : State :=
  ({ up with fab := { up.fab with shadow := some img0, swapAt := at_ } }.setFld R.FAB_STATUS 1 0 v).setBit R.FAB_STATUS 5 arm

def validating : State := { up with fab := { up.fab with loading := some (img0, true) } }

/-- A site on hold, and a pending hold. -/
def onHold (pending : Bool) : State :=
  { up.setFld R.CAT_HOLD_RESULT 1 0 (if pending then 1 else 0) with
    cat := { up.cat with tables := { up.cat.tables with sites := [(9, 0x30)] }, underlying := [(9, 2)] } }

/-- A change that waits for publication, while a swap is armed or not. -/
def changed (dead arm : Bool) (at_ : Nat) : State := let s := (shadowed 2 arm at_).setBit R.CAT_STATUS 0 true
  { s with cat := { s.cat with dirty := true, dirtyDead := dead } }

/-- A switch of the operating point from P4 that waits, to a target. -/
def switching (target : Nat) (raise checked : Bool) (at_ : Nat) : State :=
  { (up.setBit R.CLK_OP_STATUS 11 true).setFld R.CLK_OP_STATUS 3 0 4 with
    clk := { up.clk with switchAt := at_, target := target, raise := raise, lower := 4 < target, checked := checked } }

/-- Every wing that was to switch has, and the window ends. -/
def inWindow (target : Nat) : State :=
  { (switching target false true (10 ^ 15 - 64)).setReg R.CLK_WING_RUN 0 with
    clk := { (switching target false true (10 ^ 15 - 64)).clk with window := some (10 ^ 15) },
    wings := [(0, { WingPower.off with clamped := false, clockAt := some 9, cycle := 5 })] }

/-- A point is settling. -/
def settling (start : Option Nat) : State :=
  { up.setBit R.CLK_OP_STATUS 12 true with clk := { up.clk with settleStart := start, settledAt := 10 ^ 15 } }

/-- A follower of the pin, with counts to slew, and one of port 3. -/
def follower (left : Int) (n : Nat) : State :=
  { up.setReg R.TIM_SYNC_CTL 2 with tim := { up.tim with cycles := 10 ^ 9, slewLeft := left, lockCount := n } }
def portFollower : State := { up.setReg R.TIM_SYNC_CTL 0x1C2 with time := 2 ^ 50 }

/-- A master. -/
def master : State := { up.setReg R.TIM_SYNC_CTL 1 with time := 2 ^ 50 }

/-- Nothing is loaded, so that TIME may step. -/
def unloaded (s : State) : State := { s with fab := { s.fab with active := none } }

/-- A claim on a pin function or a timer by the host or by partition 0. -/
def claimed (kind index who : Nat) : State := { up with fab := { up.fab with claims := [(256 * kind + index, who + 1)] } }

/-- Timer 4, armed and due, with an action. -/
def timerDue (who : Nat) (action tile : Nat) : State :=
  ((claimed 3 4 who).setReg (R.TIM_TIMER_CMP_LO 4) 77).setReg (R.TIM_TIMER_CTL 4) (BitVec.ofNat 32 (2 ^ 30 + 2 ^ 28 * action + tile))

theorem witness_FabricLoads :
    (validating.fab.loading = some (img0, true) ∧ ((shadowed 2 true (10 ^ 15 + 1000)) : State).armed = true ∧
     ((shadowed 2 true (10 ^ 15 + 1000)) : State).fab.sampled = false ∧
     ((shadowed 2 true (10 ^ 15 + 1000)) : State).fab.swapAt ≤ ((shadowed 2 true (10 ^ 15 + 1000)) : State).time + 1000 ∧
     ((shadowed 2 true (10 ^ 15)) : State).fab.shadow = some img0) ∧
    (((shadowed 2 true (10 ^ 15)) : State).armed = true ∧
     ((shadowed 2 true (10 ^ 15)) : State).fab.swapAt ≤ ((shadowed 2 true (10 ^ 15)) : State).time ∧
     ((up.setBit R.FAB_STATUS 6 true) : State).swapping = true) ∧
    up.Granted (.host : Agent) R.FAB_CTL ∧
    (shadowed 2 true 5).Granted (.pf1 : Agent) R.FAB_CTL ∧
    (shadowed 2 false 0).Granted (.host : Agent) R.FAB_SWAP_AT_HI ∧
    (shadowed 2 true 0).Granted (.host : Agent) R.FAB_SWAP_AT_HI :=
  ⟨by decide +kernel, by decide +kernel, granted (by decide +kernel), granted (by decide +kernel), granted (by decide +kernel), granted (by decide +kernel)⟩

theorem witness_ClaimsAndCatalogue :
    (3 < 8 ∧ 4 < 256 ∧ up.ownerOf (.host : Agent) = some 0xFE ∧ 4 < 8 ∧ 2 < 256) ∧
    ((claimed 3 4 0).ownerOf (.host : Agent) = some 0xFE ∧ (up.ownerOf (.vf 3 : Agent) = none ∨ up.vfOut (.vf 3 : Agent) = true) ∧
     siteExists 9 = true ∧ siteExists 8 = true ∧ ((changed true true (10 ^ 15 + 9)) : State).cat.dirty = true) ∧
    (((changed true true (10 ^ 15 + 9)) : State).bit R.CAT_STATUS 0 = true ∧ ((changed true true (10 ^ 15 + 9)) : State).pubSpacing = true ∧
     ((changed true true (10 ^ 15 + 9)) : State).cur.restarting = false ∧ (changed true false 0).cat.dirty = true ∧
     (changed true false 0).bit R.CAT_STATUS 0 = true) ∧
    ((changed true false 0).pubSpacing = true ∧ (changed true false 0).cur.restarting = false) ∧
    up.OpenTo (.host : Agent) ∧
    (claimed 3 4 0).OpenTo (.host : Agent) ∧
    (onHold true).Granted (.host : Agent) R.CAT_HOLD_CTL ∧
    (onHold false).Granted (.host : Agent) R.CAT_HOLD_CTL :=
  ⟨by decide +kernel, by decide +kernel, by decide +kernel, by decide +kernel, open_to (by decide +kernel), open_to (by decide +kernel), granted (by decide +kernel), granted (by decide +kernel)⟩

theorem witness_OperatingPointCommands :
    (((switching 2 true false (10 ^ 15 + 1000)) : State).bit R.CLK_OP_STATUS 11 = true ∧
     ((switching 2 true false (10 ^ 15 + 1000)) : State).clk.raise = true ∧
     ((switching 2 true false (10 ^ 15 + 1000)) : State).clk.checked = false ∧
     ((switching 2 true false (10 ^ 15 + 1000)) : State).clk.switchAt ≤ ((switching 2 true false (10 ^ 15 + 1000)) : State).time + 1000 ∧
     ((switching 2 true false (10 ^ 15 + 1000)) : State).time < ((switching 2 true false (10 ^ 15 + 1000)) : State).clk.switchAt) ∧
    (0 < 16 ∧ (switching 2 false true 0).bit R.CLK_OP_STATUS 11 = true ∧
     (switching 2 false true 0).clk.switchAt ≤ (switching 2 false true 0).wingTime 0 ∧
     ((switching 2 false true 0).clk.raise = true → (switching 2 false true 0).clk.checked = true) ∧
     (switching 15 false true 0).bit R.CLK_OP_STATUS 11 = true) ∧
    ((switching 15 false true 0).clk.switchAt ≤ (switching 15 false true 0).wingTime 0 ∧
     ((switching 15 false true 0).clk.raise = true → (switching 15 false true 0).clk.checked = true) ∧
     (inWindow 2).clk.window = some ((10 ^ 15) : Nat) ∧ ((10 ^ 15) : Nat) ≤ (inWindow 2).time ∧
     (inWindow 2).fld R.CLK_WING_RUN 15 0 = 0) ∧
    ((inWindow 2).clk.target < 16 ∧ (inWindow 5).clk.window = some ((10 ^ 15) : Nat) ∧
     ((10 ^ 15) : Nat) ≤ (inWindow 5).time ∧ (inWindow 5).fld R.CLK_WING_RUN 15 0 = 0 ∧ (inWindow 5).clk.target < 16) ∧
    (((settling (some 9)) : State).clk.settleStart = some 9 ∧ 9 ≤ ((settling (some 9)) : State).time ∧
     (settling none).bit R.CLK_OP_STATUS 12 = true ∧ (settling none).clk.settleStart = none ∧
     (settling none).clk.settledAt ≤ (settling none).time) ∧
    (0 < 3 ∧ ((up.setReg R.CLK_REF_STATUS 0) : State).bit R.CLK_REF_STATUS 0 = false ∧ 2 < 3 ∧
     ((up.setReg R.CLK_REF_STATUS 0) : State).bit R.CLK_REF_STATUS 2 = false ∧ 0 < 336) ∧
    (1 ≤ 8 ∧ (1 < 2 ∨ 6 < 1) ∧ 2 ≤ ((up.setReg R.CLK_WING_RUN 0xFFFF) : State).separation (seamKey true 0 false) ∧
     ((up.setReg R.CLK_WING_RUN 0xFFFF) : State).separation (seamKey true 0 false) ≤ 6 ∧
     ((up.setReg R.CLK_WING_RUN 0xFFFF) : State).seamRuns (seamKey true 0 false) = true) ∧
    ((up.setReg R.CLK_WING_RUN 0xFFFF).seamRuns (seamKey true 0 false) = true ∧ 5 < 336 ∧ 7 ≤ 8 ∧ (7 < 2 ∨ 6 < 7) ∧
     2 ≤ ((up.setReg R.CLK_WING_RUN 0xFFFF) : State).separation (seamKey false 5 true)) ∧
    (((up.setReg R.CLK_WING_RUN 0xFFFF) : State).separation (seamKey false 5 true) ≤ 6 ∧
     ((up.setReg R.CLK_WING_RUN 0xFFFF) : State).seamRuns (seamKey false 5 true) = true ∧
     (up.setReg R.CLK_WING_RUN 0xFFFF).seamRuns (seamKey false 5 true) = true) ∧
    up.Granted (.host : Agent) R.CLK_OP_SWITCH_AT_HI ∧
    (((up.setReg R.CLK_OP_TARGET 5).setFld R.CLK_OP_STATUS 3 0 7) : State).Granted (.host : Agent) R.CLK_OP_SWITCH_AT_HI :=
  ⟨by decide +kernel, by decide +kernel, by decide +kernel, by decide +kernel, by decide +kernel, by decide +kernel, by decide +kernel, by decide +kernel, by decide +kernel, granted (by decide +kernel), granted (by decide +kernel)⟩

theorem witness_TimeCommands :
    (((follower (-3) 0) : State).timeRunning = true ∧ ((follower (-3) 0) : State).role = 2 ∧
     ((follower (-3) 0) : State).tim.lastSlew + 5000 ≤ ((follower (-3) 0) : State).tim.cycles ∧ ((follower (-3) 0) : State).tim.slewLeft ≠ 0 ∧
     (follower 5 0).timeRunning = true) ∧
    ((follower 5 0).role = 2 ∧ (follower 5 0).tim.lastSlew + 5000 ≤ (follower 5 0).tim.cycles ∧
     (follower 5 0).tim.slewLeft ≠ 0 ∧ master.timeRunning = true ∧ master.pinInUse 0 = true) ∧
    (master.time % 2 ^ 20 = 0 ∧ (follower 0 2).timeRunning = true ∧ (follower 0 3).cur.restarting = false ∧
     ((unloaded (follower 0 3)) : State).cur.restarting = false ∧ portFollower.timeRunning = true) ∧
    (portFollower.followsPort 3 = true ∧ portFollower.role = 2 ∧ portFollower.bit R.TIM_SYNC_CTL 6 = true ∧ portFollower.time % 2 ^ 20 = 0 ∧
     (follower 0 3).role = 2) ∧
    ((follower 0 3).tim.lastSync + 4 * 2 ^ 20 ≤ (follower 0 3).tim.cycles ∧
     ({ up with tim := { up.tim with pulseAt := some 9 } } : State).tim.pulseAt = some 9 ∧
     9 ≤ ({ up with tim := { up.tim with pulseAt := some 9 } } : State).time ∧ 4 < 32 ∧ (timerDue 0 0 0).timeRunning = true) ∧
    ((timerDue 0 0 0).bit (R.TIM_TIMER_CTL 4) 30 = true ∧
     (timerDue 0 0 0).acted64 (R.TIM_TIMER_CMP_LO 4) ≤ (timerDue 0 0 0).time ∧ (timerDue 0 1 7).timeRunning = true ∧
     (timerDue 0 1 7).bit (R.TIM_TIMER_CTL 4) 30 = true ∧
     (timerDue 0 1 7).acted64 (R.TIM_TIMER_CMP_LO 4) ≤ (timerDue 0 1 7).time) ∧
    up.Granted (.host : Agent) R.TIM_SYNC_CTL ∧
    (claimed 4 1 0xFE).Granted (.host : Agent) R.TIM_SYNC_CTL ∧
    (claimed 4 0 0).OpenTo (.host : Agent) ∧
    (((claimed 4 0 0xFE).setReg R.TIM_SYNC_CTL 1) : State).OpenTo (.host : Agent) ∧
    (claimed 3 4 0).OpenTo (.host : Agent) ∧
    (claimed 3 4 0xFE).OpenTo (.host : Agent) :=
  ⟨by decide +kernel, by decide +kernel, by decide +kernel, by decide +kernel, by decide +kernel, by decide +kernel, granted (by decide +kernel), granted (by decide +kernel), open_to (by decide +kernel), open_to (by decide +kernel), open_to (by decide +kernel), open_to (by decide +kernel)⟩

/-- Wing 3 off, waiting for its power-up, ramping, with its clock started; with a cap and TIME at a step. -/
def wing3 (w : WingPower) (rail run : Nat) : State :=
  { (up.setReg (R.PWR_RAIL 3) (BitVec.ofNat 32 (2 ^ 30 * rail))).setReg R.CLK_WING_RUN (BitVec.ofNat 32 (1 + 8 * run)) with
    wings := [(0, { WingPower.off with clamped := false }), (3, w)], pwr := { up.pwr with lastStep := 10 ^ 15 },
    cur := { up.cur with running := true } }

/-- No image uses a wing. -/
def unused (s : State) : State :=
  { s with
    fab := { s.fab with
      active := some { length := 0, bytes := [(0x80, 2), (0x85, 0x10)] ++ (List.range 3072).map fun t => (0x1000 + 4 * t, 0xFF) } } }

/-- An episode of throttling; VBRING connected to wing 3, or enabled. -/
def throttling : State := { up with pwr := { up.pwr with begin := some 9, lastStep := 10 ^ 15 } }
def bringing (on : Bool) : State :=
  { ((wing3 WingPower.off 0 0).setReg R.PWR_BRING_CTL (if on then 0x103 else 0)).setReg R.PWR_BRING_STATUS (if on then 3 else 2) with
    pins := { up.pins with bringEn := true, vin48 := true } }

/-- Wing 3 at a temperature, in emergency or not. -/
def hotWing (temp : Nat) (e : Bool) : State := (wing3 { WingPower.off with emergency := e } 2 1).setReg (R.THM 3) (BitVec.ofNat 32 temp)

/-- A module in a stage of its start. -/
def inStart (n : Nat) : State :=
  { up.setFld R.CUR_BOOT_STATUS 2 0 n with cur := { up.cur with running := true }, pins := { up.pins with vaux5 := true, vin48 := true } }

/-- No site is in a partition. -/
def noPartition (s : State) : State := { s with fab := { s.fab with active := none } }

/-- A scrub of partition 0 whose site is done. -/
def job0 : ScrubJob := { part := some 0, sites := [1], units := [], nSites := 1, nUnits := 0, since := 9 }

theorem witness_WingCommands :
    (3 < 16 ∧ ((wing3 { WingPower.off with requestAt := some 9 } 0 0) : State).waiting = 3 :: ([] : List Nat) ∧
     ((wing3 { WingPower.off with requestAt := some 9 } 0 0) : State).timeRunning = true ∧
     ((wing3 { WingPower.off with requestAt := some 9 } 0 0) : State).pwr.lastStep = ((wing3 { WingPower.off with requestAt := some 9 } 0 0) : State).time ∧
     ((wing3 { WingPower.off with requestAt := some 9 } 0 0) : State).ramping = false) ∧
    (((wing3 { WingPower.off with requestAt := some 9 } 0 0) : State).tokens + 4 < 256 ∧
     (((wing3 { WingPower.off with rampAt := some 9 } 1 0) : State).wing 3).rampAt = some 9 ∧
     ((wing3 { WingPower.off with rampAt := some 9 } 1 0) : State).railState 3 = 1 ∧
     ((wing3 { WingPower.off with rampAt := some 9 } 1 0) : State).clk.window = none ∧
     ((wing3 { WingPower.off with rampAt := some 9 } 1 0) : State).clk.oscillator = false) ∧
    ((((wing3 { WingPower.off with tokensUntil := some 9 } 2 1) : State).wing 3).tokensUntil = some 9 ∧
     9 ≤ ((wing3 { WingPower.off with tokensUntil := some 9 } 2 1) : State).time ∧
     (((wing3 { WingPower.off with inService := true, clockAt := some 9 } 2 1) : State).wing 3).inService = true ∧
     ((wing3 { WingPower.off with inService := true, clockAt := some 9 } 2 1) : State).railState 3 = 2 ∧
     (((wing3 { WingPower.off with inService := true, clockAt := some 9 } 2 1) : State).wing 3).clockAt = some 9) ∧
    (9 ≤ 77 ∧ 77 ≤ ((wing3 { WingPower.off with inService := true, clockAt := some 9 } 2 1) : State).time ∧
     ((wing3 { WingPower.off with inService := true, clockAt := some 9 } 2 1) : State).curatorUp = true ∧
     ((wing3 WingPower.off 1 1).railState 3 = 1 ∨ (wing3 WingPower.off 1 1).railState 3 = 2) ∧ 481 < 16384) ∧
    ((480 < 481 ∨ (wing3 WingPower.off 1 1).railState 3 = 2 ∧ 0 < 520) ∧
     ((wing3 WingPower.off 2 1).railState 3 = 1 ∨ (wing3 WingPower.off 2 1).railState 3 = 2) ∧ 0 < 16384 ∧
     (480 < 0 ∨ (wing3 WingPower.off 2 1).railState 3 = 2 ∧ 519 < 520) ∧ 0 < 4) ∧
    ((inStart 5).stageOn = true ∧ 1 < 4 ∧ (inStart 3).stageOn = true) ∧
    (wing3 WingPower.off 0 0).Granted (.host : Agent) R.PWR_WING_CTL ∧
    ((wing3 { WingPower.off with requestAt := some 9 } 0 0) : State).Granted (.host : Agent) R.PWR_WING_CTL ∧
    200 ≤ ((wing3 { WingPower.off with requestAt := some 9 } 0 0) : State).headroom ∧
    ((wing3 { WingPower.off with rampAt := some 9 } 1 0) : State).rampDue 3 9 ≤ ((wing3 { WingPower.off with rampAt := some 9 } 1 0) : State).time :=
  ⟨by decide +kernel, by decide +kernel, by decide +kernel, by decide +kernel, by decide +kernel, by decide +kernel, granted (by decide +kernel), granted (by decide +kernel), headroom_le (by decide +kernel), rampDue_le (by decide +kernel)⟩

/-- For the clauses of PowerAndThermalCommands. -/
theorem witness_PowerCommands :
    (up.timeRunning = true ∧ up.pwr.lastStep + 4000 ≤ up.time ∧ throttling.pwr.begin.isSome = true ∧ throttling.pwr.lastStep = throttling.time ∧
     throttling.pwr.lastRecord + 10000000 ≤ throttling.time) ∧
    (up.cur.restarting = false ∧ up.pwr.calAt + 1000000 ≤ up.time ∧
     (((wing3 WingPower.off 2 1).setFld (R.PWR_RAIL 3) 9 0 700) : State).railState 3 = 2 ∧
     (((wing3 WingPower.off 2 1).setFld (R.PWR_RAIL 3) 9 0 700) : State).droopFor 3 0 ≠ 0 ∧
     ((((wing3 WingPower.off 2 1).setFld (R.PWR_RAIL 3) 9 0 700) : State).wing 3).droop = 0) ∧
    ((((wing3 WingPower.off 2 1).setFld (R.PWR_RAIL 3) 9 0 700) : State).droopFor 3 630 ≠ 0 ∧
     (((wing3 { WingPower.off with droop := 8, recovered := some 5, pulses := 69 } 2 1) : State).wing 3).recovered = some 5 ∧
     (((wing3 { WingPower.off with droop := 8, recovered := some 5, pulses := 69 } 2 1) : State).wing 3).droop ≠ 0 ∧
     5 + 64 ≤ (((wing3 { WingPower.off with droop := 8, recovered := some 5, pulses := 69 } 2 1) : State).wing 3).pulses ∧ 3 < 16) ∧
    (lowestReading ([700, 500, 600] : List Nat) = some (1, 500) ∧ 1 < 64 ∧ 500 < (wing3 WingPower.off 1 1).fld (R.PWR_VMIN 3) 9 0 ∧
     ((wing3 WingPower.off 1 1).railState 3 = 1 ∨ (wing3 WingPower.off 1 1).railState 3 = 2) ∧
     500 < (wing3 WingPower.off 2 1).fld (R.PWR_VMIN 3) 9 0) ∧
    (((wing3 WingPower.off 2 1).railState 3 = 1 ∨ (wing3 WingPower.off 2 1).railState 3 = 2) ∧
     ({ (bringing false).setBit R.PWR_BRING_STATUS 1 true with pins := { (bringing false).pins with bringEn := true } }).bit R.PWR_BRING_CTL 8 = false ∧
     ({ (bringing false).setBit R.PWR_BRING_STATUS 1 false with pins := { (bringing false).pins with bringEn := false } }).bit R.PWR_BRING_CTL 8 = false ∧
     (bringing true).bit R.PWR_BRING_STATUS 0 = true ∧ 150 < 151) ∧
    ((wing3 WingPower.off 2 1).railState 3 = 2 ∧ (wing3 WingPower.off 2 1).cur.restarting = false) ∧
    (wing3 WingPower.off 2 1).Granted (.host : Agent) (R.PWR_VMIN 3) ∧
    ({ (bringing false).setBit R.PWR_BRING_STATUS 1 true with pins := { (bringing false).pins with bringEn := true } }).Granted (.host : Agent) R.PWR_BRING_CTL ∧
    ({ (bringing false).setBit R.PWR_BRING_STATUS 1 false with pins := { (bringing false).pins with bringEn := false } }).Granted (.host : Agent) R.PWR_BRING_CTL ∧
    (bringing true).Granted (.host : Agent) R.PWR_BRING_CTL ∧
    (∀ n, ((wing3 WingPower.off 2 1).wing 3).monitorsAt = some n → n + hourCounts ≤ (wing3 WingPower.off 2 1).time) :=
  ⟨by decide +kernel, by decide +kernel, by decide +kernel, by decide +kernel, by decide +kernel, by decide +kernel, granted (by decide +kernel), granted (by decide +kernel), granted (by decide +kernel), granted (by decide +kernel), (by intro n h; cases h)⟩

/-- For the clauses of PowerAndThermalCommands. -/
theorem witness_ThermalCommands :
    (3 < 16 ∧ up.timeRunning = true ∧ up.cur.restarting = false ∧ up.pwr.tcapAt + 1000000 ≤ up.time ∧
     (hotWing 1840 true).timeRunning = true) ∧
    ((hotWing 1840 true).cur.restarting = false ∧
     (hotWing 1840 true).pwr.tcapAt + 1000000 ≤ (hotWing 1840 true).time ∧
     115 * 16 ≤ (hotWing 1840 false).wingTemp 3 ∧ ((hotWing 1840 false).wing 3).emergency = false ∧
     (hotWing 1759 true).wingTemp 3 < 110 * 16) ∧
    (((hotWing 1759 true).wing 3).emergency = true ∧ 31 < 32 ∧ 125 * 16 ≤ (2000 : Int) ∧ (inStart 5).stageOn = true ∧
     (inStart 3).stageOn = true) :=
  ⟨by decide +kernel, by decide +kernel, by decide +kernel⟩

theorem witness_StartStages :
    (({ up with pins := { up.pins with vaux5 := false } } : State).pins.vaux5 = false ∧ (State.reset : State).stageOn = false ∧
     ({ inStart 0 with timeRunning := false } : State).leavesS0 = true ∧ (inStart 1).inStage 1 = true ∧
     (inStart 2).inStage 2 = true) ∧
    ((inStart 3).inStage 3 = true ∧ (inStart 3).portsSettled = true ∧ (inStart 0).pins.vaux5 = true ∧
     (inStart 0).stage = 0 ∧ (inStart 0).cur.running = true) ∧
    ((inStart 5).pins.vaux5 = true ∧ (inStart 5).pins.vin48 = true) :=
  ⟨by decide +kernel, by decide +kernel, by decide +kernel⟩

theorem witness_ResetCommands :
    (((up.setTbit 1 R.TILE_RESET 31 true) : State).tbit 1 R.TILE_RESET 31 = true ∧ 0 < 256 ∧
     up.fab.active = some ({ length := 0, bytes := [] } : Image) ∧
     ({ up with cur := { up.cur with resetAtP := some (1, 9) } } : State).cur.resetAtP = some (1, 9) ∧
     9 ≤ ({ up with cur := { up.cur with resetAtP := some (1, 9) } } : State).time) ∧
    (1 < 256 ∧
     ({ up.setBit R.CUR_PART_RESET_STATUS 31 true with cur := { up.cur with resetSites := [1] } } : State).bit R.CUR_PART_RESET_STATUS 31 = true ∧
     ({ up.setBit R.CUR_PART_RESET_STATUS 31 true with cur := { up.cur with resetSites := [1] } } : State).cur.resetAtP = none ∧
     (∀ t ∈ ({ up.setBit R.CUR_PART_RESET_STATUS 31 true with cur := { up.cur with resetSites := [1] } } : State).cur.resetSites, ({ up.setBit R.CUR_PART_RESET_STATUS 31 true with cur := { up.cur with resetSites := [1] } } : State).tbit t R.TILE_RESET 31 = false) ∧
     kindOf 7 = .s) ∧
    ((5 : BitVec 32).getLsbD 16 = false ∧ (31 : BitVec 32).getLsbD 16 = false ∧
     ((((up.setTreg 7 R.S_L2_CFG 0x20003).modSite 7 fun x => { x with l2End := some 16 }) : State).site 7).l2End = some 16 ∧
     (((up.setTreg 7 R.S_L2_CFG 0x20003).modSite 7 fun x => { x with l2End := some 16 }) : State).l2Busy 7 = true ∧
     ((((up.setTreg 7 R.S_L2_CFG 0x20003).modSite 7 fun x => { x with l2End := some 16 }) : State).site 7).spills = []) ∧
    16 ≤ 16 ∧
    up.Reached (.core 0 0 : Agent) 1 ∧
    up.Granted (.host : Agent) R.CUR_PART_RESET ∧
    up.Reached (.core 0 0 : Agent) 7 :=
  ⟨by decide +kernel, by decide +kernel, by decide +kernel, by decide +kernel, reached (by decide +kernel), granted (by decide +kernel), reached (by decide +kernel)⟩

theorem witness_TestAndScrubCommands :
    ((inStart 5).testable 1 = true ∧ (inStart 5).curatorUp = true ∧
     (inStart 5).dueAt 1 ≤ (inStart 5).time ∧ (inStart 5).iftState 1 = 0 ∧
     (inStart 5).overdueAt 1 ≤ (inStart 5).time) ∧
    ((inStart 5).overdue 1 = false ∧ 0 < 256 ∧ 16777215 < 2 ^ 24 ∧
     ({ inStart 5 with cur := { (inStart 5).cur with tests := [(0, 9)] } } : State).cur.tests.find? (fun e => e.1 == 0) = some (0, 9) ∧ 1 < 3072) ∧
    ((inStart 5).live 1 = true ∧ (inStart 5).wingUp (wingOf 1) = true ∧
     up.fab.active = some ({ length := 0, bytes := [] } : Image) ∧ 1 ∈ ((up.modSec fun x => { x with sites := [1, 2] }) : State).sec.sites ∧
     ((up.modSec fun x => { x with jobs := [job0] }) : State).sec.jobs.find? (fun j => j.part == if 0 == 255 then none else some 0) = some job0) ∧
    ((up.modSec fun x => { x with jobs := [job0] }) : State).jobDone job0 = true ∧
    (∃ u, (noPartition ((inStart 5).setIft 1 1)).nextTest = some u) ∧
    up.Granted (.host : Agent) R.SEC_FENCE_CHECK ∧
    up.Granted (.host : Agent) R.SEC_SCRUB_CTL :=
  ⟨by decide +kernel, by decide +kernel, by decide +kernel, by decide +kernel, nextTest_some (t := 1) (by decide +kernel), granted (by decide +kernel), granted (by decide +kernel)⟩

/-- The module with its 48 V, its reference clocks and Curator, and port 31 in a state. -/
def portIn (v : Nat) (q : Port) : State :=
  { ((up.setReg R.CLK_REF_STATUS 7).setFld (R.LNK_PORT_STATUS 31) 31 28 v) with
    pins := { up.pins with vaux5 := true, vin48 := true }, cur := { up.cur with running := true }, ports := [(31, q)] }
def frames3 : List TxFrame :=
  [{ kind := 1, seq := 5, first := 0, body := [], replays := 0 }, { kind := 1, seq := 6, first := 0, body := [], replays := 0 }, { kind := 2, seq := 9, first := 0, body := [], replays := 1 }]

/-- A module whose host link is up, with two VFs. -/
def hosted : State :=
  { up.setReg R.HST_LINK_STATUS 0x100 with pins := { up.pins with vaux5 := true }, hst := { up.hst with numVfs := 2, session := true } }

/-- VF 1 bound to partition 0 of an image, with its TDI in a state and stream 4 for it. -/
def bound (v : Nat) : State :=
  { hosted.setReg (R.HST_VF_BIND 1) (BitVec.ofNat 32 (2 ^ 31 + 2 ^ 28 * v)) with
    fab := { up.fab with active := some { length := 0, bytes := [(0x80, 1), (0x85, 0x10), (0x88, 32)] } },
    hst := { hosted.hst with streams := [(4, 1)] } }

/-- Copy channel 2 of function 0 with a descriptor in progress. -/
def job1 : CopyJob :=
  { id := 3, index := 7, dev := 64, host := 4096, length := 4, irq := true, toHost := true, left := 0, status := 0x80,
    data := [(0, 1), (1, 2), (2, 3), (3, 4)] }
def copying : State := (hosted.setReg (R.FN_CH_CFG 0 2) 0x80000004).setChan 0 2 [job1]

/-- A request in the mailbox. -/
def mailed (work : Option (List (BitVec 8))) : State := { hosted.setReg R.HST_MBX_STATUS 1 with hst := { hosted.hst with mbxWork := work } }

/-- Core 0 of site 0 under debug control, in a state. -/
def debugged (v : Nat) : State := { inState 0 v 0 with dbg := { Dbg.start with attached := [0] } }

/-- Counter bank 5 runs on site 1. -/
def counting : State := { up.setReg (R.DBG_CNT_CTL 5) 0x80010064 with dbg := { Dbg.start with nextSample := [(5, 9)] } }

/-- For the clauses of LinkCommands. -/
theorem witness_LinkTraining :
    (31 < 32 ∧ (portIn 1 Port.start).portPowered = true ∧ (portIn 1 Port.start).portState 31 = 1 ∧
     ((portIn 1 Port.start).port 31).nextTry ≤ (portIn 1 Port.start).time ∧
     (((portIn 2 { Port.start with trainAt := some 9 }) : State).port 31).trainAt = some 9) ∧
    ((1 = 1 ∧ ((portIn 2 { Port.start with trainAt := some 9 }) : State).portState 31 = 2 ∧ 9 + 10000000 ≤ ((portIn 2 { Port.start with trainAt := some 9 }) : State).time ∨ (1 = 3 ∨ 1 = 4 ∨ 1 = 5) ∧ (((portIn 2 { Port.start with trainAt := some 9 }) : State).portState 31 = 2 ∨ ((portIn 2 { Port.start with trainAt := some 9 }) : State).portState 31 = 4) ∧ (1 = 3 ↔ goodLanes 0 < 2)) ∧
     (((portIn 4 { Port.start with trainAt := some 9 }) : State).port 31).trainAt = some 9 ∧
     (5 = 1 ∧ ((portIn 4 { Port.start with trainAt := some 9 }) : State).portState 31 = 2 ∧ 9 + 10000000 ≤ ((portIn 4 { Port.start with trainAt := some 9 }) : State).time ∨ (5 = 3 ∨ 5 = 4 ∨ 5 = 5) ∧ (((portIn 4 { Port.start with trainAt := some 9 }) : State).portState 31 = 2 ∨ ((portIn 4 { Port.start with trainAt := some 9 }) : State).portState 31 = 4) ∧ (5 = 3 ↔ goodLanes 3 < 2)) ∧
     ((portIn 2 { Port.start with trainAt := some 9, replay := frames3, policy := 12 }) : State).portPowered = true ∧
     (((portIn 2 { Port.start with trainAt := some 9, replay := frames3, policy := 12 }) : State).portState 31 = 2 ∨ ((portIn 2 { Port.start with trainAt := some 9, replay := frames3, policy := 12 }) : State).portState 31 = 4)) ∧
    ((((portIn 2 { Port.start with trainAt := some 9, replay := frames3, policy := 12 }) : State).port 31).trainAt.isSome = true ∧
     18446744073709551615 < 2 ^ 64 ∧
     ((portIn 4 { Port.start with trainAt := some 9, replay := frames3, policy := 13 }) : State).portPowered = true ∧
     (((portIn 4 { Port.start with trainAt := some 9, replay := frames3, policy := 13 }) : State).portState 31 = 2 ∨ ((portIn 4 { Port.start with trainAt := some 9, replay := frames3, policy := 13 }) : State).portState 31 = 4) ∧
     (((portIn 4 { Port.start with trainAt := some 9, replay := frames3, policy := 13 }) : State).port 31).trainAt.isSome = true) ∧
    ((((portIn 3 { Port.start with changed := some 9 }) : State).port 31).changed = some 9 ∧
     ((portIn 3 { Port.start with changed := some 9 }) : State).curatorUp = true ∧
     9 + 10000000000 ≤ ((portIn 3 { Port.start with changed := some 9 }) : State).time ∧
     ((portIn 3 { Port.start with changed := some 9 }) : State).portState 31 ≠ 2 ∧
     ((portIn 3 { Port.start with changed := some 9 }) : State).portState 31 ≠ 4) ∧
    (portIn 0 Port.start).Granted (.host : Agent) (R.LNK_PORT_CTL 31) ∧
    (portIn 3 Port.start).Granted (.host : Agent) (R.LNK_PORT_CTL 31) :=
  ⟨by decide +kernel, by decide +kernel, by decide +kernel, by decide +kernel, granted (by decide +kernel), granted (by decide +kernel)⟩

/-- For the clauses of LinkCommands. -/
theorem witness_LinkFrames :
    (31 < 32 ∧ ((portIn 3 { Port.start with replay := frames3 }) : State).portState 31 = 3 ∧
     ((portIn 3 { Port.start with replay := frames3 }) : State).portHeld 31 = false ∧ (portIn 3 Port.start).portState 31 = 3 ∧
     65535 < 65536) ∧
    (2 ≤ (((portIn 2 Port.start).setReg R.CLK_REF_STATUS 0) : State).portState 31 ∧
     (((portIn 2 Port.start).setReg R.CLK_REF_STATUS 0) : State).portState 31 ≤ 4 ∧
     (((portIn 2 Port.start).setReg R.CLK_REF_STATUS 0) : State).bit R.CLK_REF_STATUS 2 = false ∧
     2 ≤ (((portIn 4 Port.start).setReg R.CLK_REF_STATUS 0) : State).portState 31 ∧
     (((portIn 4 Port.start).setReg R.CLK_REF_STATUS 0) : State).portState 31 ≤ 4) ∧
    ((((portIn 4 Port.start).setReg R.CLK_REF_STATUS 0) : State).bit R.CLK_REF_STATUS 2 = false ∧
     ((((portIn 3 { Port.start with replay := frames3 }) : State).port 31).replay.any fun f => f.seq == 6) = true) :=
  ⟨by decide +kernel, by decide +kernel, by decide +kernel⟩

theorem witness_HostLinkCommands :
    ((1 = 1 ∨ 1 = 2 ∨ 1 = 4 ∨ 1 = 8 ∨ 1 = 16) ∧ 1 ≤ 1 ∧ 1 ≤ 6 ∧ (16 = 1 ∨ 16 = 2 ∨ 16 = 4 ∨ 16 = 8 ∨ 16 = 16) ∧ 6 ≤ 6) ∧
    (0 < 3 ∧ (portIn 3 Port.start).pins.vaux5 = true ∧ (portIn 3 Port.start).bit R.CLK_REF_STATUS 0 = true ∧ 2 < 3 ∧
     (portIn 3 Port.start).bit R.CLK_REF_STATUS 2 = true) ∧
    (hosted.hostUp = true ∧ 0 < 4096 ∧ (false = true → 4096 ≤ 512 ∧ ([] : List (BitVec 8)).length = 4096) ∧ (false = false → 4096 ≤ 4096)) ∧
    (∀ n, (none : Option Nat) = some n → (hosted.hst.streams.any fun e => e.1 == n) = true ∧ n ∉ hosted.hst.stopped) :=
  ⟨by decide +kernel, by decide +kernel, by decide +kernel, (by intro n h; cases h)⟩

theorem witness_FunctionCommands :
    (hosted.hostUp = true ∧ 2 < 64 ∧ hosted.fnPresent 2 = true ∧ 3 < 4 ∧ 0 < 64) ∧
    (2 < 4 ∧ copying.channelReady 0 2 = true ∧ copying.hostUp = true ∧ copying.chan 0 2 = job1 :: ([] : List CopyJob) ∧
     job1.left = 0) ∧
    (job1.status < 256 ∧ 3 < 32 ∧ 63 < 64 ∧ 31 < 32) ∧
    hosted.OpenTo (.host : Agent) :=
  ⟨by decide +kernel, by decide +kernel, by decide +kernel, open_to (by decide +kernel)⟩

theorem witness_MailboxCommands :
    (((mailed (some [1, 0, 0, 0, 9, 0, 0, 0])) : State).mailboxUp = true ∧ ((mailed (some [1, 0, 0, 0, 9, 0, 0, 0])) : State).mbxState = 1 ∧
     ((mailed (some [1, 0, 0, 0, 9, 0, 0, 0])) : State).hst.mbxWork = some ([1, 0, 0, 0, 9, 0, 0, 0] : List (BitVec 8)) ∧
     (mailed none).mailboxUp = true ∧ (mailed none).mbxState = 1) ∧
    ((mailed none).hst.mbxWork = none ∧ hosted.mailboxUp = true ∧ (true = true → hosted.hostUp = true)) ∧
    hosted.Granted (.host : Agent) R.HST_MBX_CTL ∧
    (mailed none).Granted (.pf1 : Agent) R.HST_MBX_CTL :=
  ⟨by decide +kernel, by decide +kernel, granted (by decide +kernel), granted (by decide +kernel)⟩

theorem witness_ConfidentialCommands :
    (hosted.hst.session = true ∧ 8 < 9 ∧ hosted.mailboxUp = true ∧ ((bound 2).hst.streams.any fun e => e.1 == 4) = true ∧ 1 ≤ 1) ∧
    (1 < 64 ∧ (bound 0).hostUp = true ∧ (bound 0).tdi 1 = 0 ∧ (bound 0).vfPart 1 = some 0 ∧
     (bound 0).channelsIdle 1 = true) ∧
    (1 ≤ 4 ∧ (4, 1) ∈ (bound 0).hst.streams ∧ (1 = 0 ∨ 1 = 1) ∧ 4 ∉ (bound 0).hst.stopped ∧ (bound 1).hostUp = true) ∧
    (1 ∉ (bound 1).hst.unlocking ∧ (bound 2).hostUp = true ∧ 1 ∉ (bound 2).hst.unlocking) ∧
    (bound 0).Granted (.host : Agent) (R.HST_VF_BIND 1) ∧
    (bound 1).Granted (.host : Agent) (R.HST_VF_BIND 1) :=
  ⟨by decide +kernel, by decide +kernel, by decide +kernel, by decide +kernel, granted (by decide +kernel), granted (by decide +kernel)⟩

theorem witness_DebugCommands :
    (up.pins.vaux5 = true ∧ 0 < 4 ∧ 3 < 4 ∧ 1000 ≤ 1000 ∧ 0 < 3072) ∧
    (5 < 8 ∧ 1 < 3072 ∧ 15 < 16 ∧ 5 < 64 ∧ counting.bit (R.DBG_CNT_CTL 5) 31 = true) ∧
    (counting.dbg.nextSample.find? (fun e => e.1 == 5) = some (5, 9) ∧ 9 ≤ counting.time ∧
     ({ inState 0 0 0 with cur := { up.cur with running := true } } : State).curatorUp = true ∧
     ({ inState 0 0 0 with cur := { up.cur with running := true } } : State).sec.eccAt + 60000000000 ≤ ({ inState 0 0 0 with cur := { up.cur with running := true } } : State).time) ∧
    (debugged 1).Granted (.host : Agent) R.DBG_CORE_CMD ∧
    (debugged 5).Granted (.host : Agent) R.DBG_CORE_CMD ∧
    ({ up with fab := { up.fab with claims := [(256 + 5, 255)] } } : State).Granted (.host : Agent) (R.DBG_TRACE_CTL 5) ∧
    ({ up with fab := { up.fab with claims := [(256 + 5, 1)] } } : State).Granted (.host : Agent) (R.DBG_TRACE_CTL 5) ∧
    up.Granted (.host : Agent) R.FLT_LOG_HEAD :=
  ⟨by decide +kernel, by decide +kernel, by decide +kernel, granted (by decide +kernel), granted (by decide +kernel), granted (by decide +kernel), granted (by decide +kernel), granted (by decide +kernel)⟩

theorem witness_TractPlacement :
    (1099511627775 < 2 ^ 40 ∧ 5 < 2 ^ 40 ∧ 5 / 2 ^ 35 = 5 / 2 ^ 35 ∧
     tractRole ((some { length := 0, bytes := [(0x80, 9), (0x85, 0x10), (0x1003, 0x80), (0x1007, 0x80)] }) : Option Image) (5 / 2 ^ 30) = (2, 0, 0) ∧
     placeOf ((some { length := 0, bytes := [(0x80, 9), (0x85, 0x10), (0x1003, 0x80), (0x1007, 0x80)] }) : Option Image) 5 = placeOf ((some { length := 0, bytes := [(0x80, 9), (0x85, 0x10), (0x1003, 0x80), (0x1007, 0x80)] }) : Option Image) 5) ∧
    2 ^ 40 ≤ 1099511627776 :=
  ⟨by decide +kernel, by decide +kernel⟩

theorem witness_SkipLevels :
    16 ≤ 16 ∧ 7 ≤ 16 ∧ 3 ≤ 9 ∧ skipsPulse 3 0 = true ∧ skipsPulse 3 0 = skipsPulse 3 0 :=
  by decide +kernel

theorem witness_UnboundFunctionsChangeNothing :
    hosted.vfOut (.vf 1) = true :=
  by decide +kernel

end Sys2Proof.Tests
end

section
/-! PROOFS. Registers and their access codes (R6, R8): the fields of a register of the table share no bit, so each bit is written and read
under the access code of the one field that holds it. -/

namespace Sys2Proof.Machine

/-- The bit i stands in the field. -/
abbrev Field.HoldsBit (f : Field) (i : Nat) : Prop := f.lo ≤ i ∧ i ≤ f.hi

/-- The field lies within a word. -/
abbrev Field.InWord (f : Field) : Prop := f.lo ≤ f.hi ∧ f.hi < 32

/-- The two fields share no bit. -/
abbrev Field.Apart (f g : Field) : Prop := f.hi < g.lo ∨ g.hi < f.lo

/-- The fields of a register lie within its word, and no two share a bit. -/
abbrev RegDef.WellFormed (d : RegDef) : Prop := (∀ f ∈ d.fields, f.InWord) ∧ d.fields.Pairwise Field.Apart

theorem wellFormed_of_mem_devRegDefs : ∀ d ∈ devRegDefs, d.WellFormed := by decide +kernel

theorem wellFormed_of_mem_tileRegDefs : ∀ d ∈ tileRegDefs, d.WellFormed := by decide +kernel

/-! ### One field -/

theorem Field.getLsbD_mask {f : Field} (hf : f.InWord) (i : Nat) : f.mask.getLsbD i = decide (f.HoldsBit i) := by
  obtain ⟨hle, hlt⟩ := hf
  rw [Field.mask, BitVec.getLsbD_ofNat, Nat.testBit_shiftLeft, Nat.testBit_two_pow_sub_one]
  simp only [← Bool.decide_and, ge_iff_le, decide_eq_decide]
  omega

/-- R6 and R8: what a write of w makes of bit i of the field where that bit was b. -/
def Field.writtenBit (f : Field) (w : BitVec 32) (i : Nat) (b : Bool) : Bool :=
  match f.acc with
  | .rw => if f.defines (f.get w) then w.getLsbD i else b
  | .w1c => b && !w.getLsbD i
  | .w1s => b || w.getLsbD i
  | .ro | .wo | .rsv => b

/-- R6: what a read returns of a bit of the field that holds b. -/
def Field.shownBit (f : Field) (b : Bool) : Bool :=
  match f.acc with
  | .wo | .rsv => false
  | .ro | .rw | .w1c | .w1s => b

theorem getLsbD_and_not (v m : BitVec 32) (i : Nat) : (v &&& ~~~m).getLsbD i = (v.getLsbD i && !m.getLsbD i) := by
  rw [BitVec.getLsbD_and, BitVec.getLsbD_not]
  by_cases h : i < 32
  · rw [decide_eq_true h, Bool.true_and]
  · rw [BitVec.getLsbD_of_ge v i (by omega), Bool.false_and, Bool.false_and]

theorem Field.getLsbD_write (f : Field) (w v : BitVec 32) (i : Nat) :
    (f.write w v).getLsbD i = if f.mask.getLsbD i then f.writtenBit w i (v.getLsbD i) else v.getLsbD i := by
  unfold Field.write Field.writtenBit
  cases f.acc with
  | rw =>
    by_cases hdef : f.defines (f.get w) = true
    · simp only [if_pos hdef]
      rw [BitVec.getLsbD_or, getLsbD_and_not, BitVec.getLsbD_and]
      cases f.mask.getLsbD i <;> simp
    · simp only [if_neg hdef, ite_self]
  | w1c =>
    dsimp only
    rw [getLsbD_and_not, BitVec.getLsbD_and]
    cases f.mask.getLsbD i <;> simp
  | w1s =>
    dsimp only
    rw [BitVec.getLsbD_or, BitVec.getLsbD_and]
    cases f.mask.getLsbD i <;> simp
  | ro | wo | rsv => simp only [ite_self]

theorem Field.getLsbD_readMask (f : Field) (i : Nat) : f.readMask.getLsbD i = (f.mask.getLsbD i && f.shownBit true) := by
  unfold Field.readMask Field.shownBit
  cases f.acc <;> simp

theorem Field.and_shownBit (f : Field) (b : Bool) : (b && f.shownBit true) = f.shownBit b := by
  unfold Field.shownBit
  cases f.acc <;> simp

/-! ### All fields of a register -/

theorem getLsbD_foldl_of_kept {step : BitVec 32 → Field → BitVec 32} {i : Nat} {fs : List Field}
    (hkept : ∀ g ∈ fs, ∀ v, (step v g).getLsbD i = v.getLsbD i) (v : BitVec 32) : (fs.foldl step v).getLsbD i = v.getLsbD i :=
  List.foldlRecOn fs step (motive := fun u => u.getLsbD i = v.getLsbD i) rfl fun u hu g hg => (hkept g hg u).trans hu

/-- Where each field's step keeps the bits outside the field, the fold over all fields treats a bit as the step of the field that holds it. -/
theorem RegDef.WellFormed.getLsbD_foldl {d : RegDef} (hd : d.WellFormed) {f : Field} (hf : f ∈ d.fields) {i : Nat} (hi : f.HoldsBit i)
    {step : BitVec 32 → Field → BitVec 32}
    (hkept : ∀ g ∈ d.fields, ¬ g.HoldsBit i → ∀ v, (step v g).getLsbD i = v.getLsbD i) (v : BitVec 32) :
    ∃ u : BitVec 32, u.getLsbD i = v.getLsbD i ∧ (d.fields.foldl step v).getLsbD i = (step u f).getLsbD i := by
  obtain ⟨-, hapart⟩ := hd
  obtain ⟨before, after, hfields⟩ := List.append_of_mem hf
  rw [hfields] at hapart hkept ⊢
  obtain ⟨-, hafter, hbefore⟩ := List.pairwise_append.mp hapart
  have hkeptBefore : ∀ g ∈ before, ∀ v, (step v g).getLsbD i = v.getLsbD i := fun g hg =>
    hkept g (by simp [hg]) (by have := hbefore g hg f (by simp); omega)
  have hkeptAfter : ∀ g ∈ after, ∀ v, (step v g).getLsbD i = v.getLsbD i := fun g hg =>
    hkept g (by simp [hg]) (by have := List.rel_of_pairwise_cons hafter hg; omega)
  refine ⟨before.foldl step v, getLsbD_foldl_of_kept hkeptBefore v, ?_⟩
  rw [List.foldl_append, List.foldl_cons, getLsbD_foldl_of_kept hkeptAfter]

theorem RegDef.WellFormed.getLsbD_mask {d : RegDef} (hd : d.WellFormed) {f : Field} (hf : f ∈ d.fields) (i : Nat) :
    f.mask.getLsbD i = decide (f.HoldsBit i) :=
  Field.getLsbD_mask (hd.1 f hf) i

theorem RegDef.WellFormed.getLsbD_write {d : RegDef} (hd : d.WellFormed) {f : Field} (hf : f ∈ d.fields) {i : Nat} (hi : f.HoldsBit i)
    (w v : BitVec 32) : (d.write w v).getLsbD i = f.writtenBit w i (v.getLsbD i) := by
  obtain ⟨u, hu, hfold⟩ := hd.getLsbD_foldl hf hi (step := fun v g => g.write w v)
    (fun g hg hout v => by simp [Field.getLsbD_write, hd.getLsbD_mask hg, hout]) v
  rw [RegDef.write, hfold, Field.getLsbD_write, hd.getLsbD_mask hf, decide_eq_true hi, if_pos rfl, hu]

theorem RegDef.WellFormed.getLsbD_read {d : RegDef} (hd : d.WellFormed) {f : Field} (hf : f ∈ d.fields) {i : Nat} (hi : f.HoldsBit i)
    (v : BitVec 32) : (d.read v).getLsbD i = f.shownBit (v.getLsbD i) := by
  obtain ⟨u, hu, hfold⟩ := hd.getLsbD_foldl hf hi (step := fun m g => m ||| g.readMask)
    (fun g hg hout m => by simp [Field.getLsbD_readMask, hd.getLsbD_mask hg, hout]) 0
  have hmask : (u ||| f.readMask).getLsbD i = f.shownBit true := by
    rw [BitVec.getLsbD_or, hu, Field.getLsbD_readMask, hd.getLsbD_mask hf]
    simp [hi]
  rw [RegDef.read, BitVec.getLsbD_and, hfold, hmask, Field.and_shownBit]

/-- Settles O5: the fields of each register share no bit, so the one field that holds a bit decides what a write and a read do to it. -/
theorem registersFollowAccessCodes : Obligations.RegistersFollowAccessCodes := by
  intro d hd f hf w v i hlo hhi
  have hwf : d.WellFormed := (List.mem_append.mp hd).elim (wellFormed_of_mem_devRegDefs d) (wellFormed_of_mem_tileRegDefs d)
  exact ⟨hwf.getLsbD_write hf ⟨hlo, hhi⟩ w v, hwf.getLsbD_read hf ⟨hlo, hhi⟩ v⟩

end Sys2Proof.Machine
end

section
/-! PROOFS. What the networks, the fault ring and the catalogue leave of the supply: the registers of the blocks CUR, CLK, PWR and MEM, the
power states of the wings, and whether Curator restarts and a trip calls for a cold start. -/

namespace Sys2Proof.Machine

/-- The address lies outside the blocks CUR, CLK, PWR and MEM. -/
abbrev OffSupply (a : Nat) : Prop := 0x300000 ≤ a ∧ (a < 0x600000 ∨ 0x700000 ≤ a)

/-- The parts of the state that the supply is read from; the registers outside its blocks are left out. -/
def supplyOf (regs : List (Nat × BitVec 32)) (wings : List (Nat × WingPower)) (restarting tripSince : Bool) :
    (Nat → BitVec 32) × List (Nat × WingPower) × Bool × Bool :=
  (fun a => if OffSupply a then 0 else Map.get devReset regs a, wings, restarting, tripSince)

/-- The supply of the module. -/
def State.supply (s : State) : (Nat → BitVec 32) × List (Nat × WingPower) × Bool × Bool :=
  supplyOf s.regs s.wings s.cur.restarting s.cur.tripSince

@[simp] theorem supply_mk (pending freeCtr time timeRunning regs hiLatch loHeld wires sites cat fuses flash pins cur clk tim wings pwr fab faults
    msix ctrlOut viol net dram dbg sec ports hst) :
    State.supply { pending := pending, freeCtr := freeCtr, time := time, timeRunning := timeRunning, regs := regs, hiLatch := hiLatch,
                   loHeld := loHeld, wires := wires, sites := sites, cat := cat, fuses := fuses, flash := flash, pins := pins, cur := cur,
                   clk := clk, tim := tim, wings := wings, pwr := pwr, fab := fab, faults := faults, msix := msix, ctrlOut := ctrlOut,
                   viol := viol, net := net, dram := dram, dbg := dbg, sec := sec, ports := ports, hst := hst } =
      supplyOf regs wings cur.restarting cur.tripSince := by
  unfold State.supply; rfl

@[simp] theorem supply_fold (s : State) : supplyOf s.regs s.wings s.cur.restarting s.cur.tripSince = s.supply := by
  unfold State.supply; rfl

@[simp] theorem supply_ite (c : Prop) [Decidable c] (a b : State) : (if c then a else b).supply = if c then a.supply else b.supply :=
  apply_ite State.supply c a b

/-- A fold of an operation that keeps the supply keeps it. -/
theorem supply_foldl {α : Type} (f : State → α → State) (l : List α) (s : State) (h : ∀ s a, (f s a).supply = s.supply) :
    (l.foldl f s).supply = s.supply :=
  List.foldlRecOn (motive := fun u : State => u.supply = s.supply) l f rfl fun u hu a _ => (h u a).trans hu

/-- An operation that may have no answer, with another state in its place. -/
theorem supply_getD (o : Option State) (d s : State) (h : ∀ u, o = some u → u.supply = s.supply) (hd : d.supply = s.supply) :
    (o.getD d).supply = s.supply := by
  cases o with
  | none => exact hd
  | some u => exact h u rfl

/-! ### What the supply determines -/

theorem onSupply_pwrRail {w : Nat} (hw : w < 16) : ¬ OffSupply (R.PWR_RAIL w) := by
  simp only [OffSupply, R.PWR_RAIL]; omega

section
variable {s u : State} (h : u.supply = s.supply)
include h

theorem reg_of_supply {a : Nat} (ha : ¬ OffSupply a) : u.reg a = s.reg a := by
  have hregs := congrFun (congrArg Prod.fst h) a
  simp only [State.supply, supplyOf, if_neg ha] at hregs
  exact hregs

theorem fld_of_supply {a : Nat} (ha : ¬ OffSupply a) (hi lo : Nat) : u.fld a hi lo = s.fld a hi lo := by
  simp only [State.fld, reg_of_supply h ha]

theorem bit_of_supply {a : Nat} (ha : ¬ OffSupply a) (i : Nat) : u.bit a i = s.bit a i := by
  simp only [State.bit, reg_of_supply h ha]

theorem wing_of_supply (w : Nat) : u.wing w = s.wing w :=
  congrArg (Map.get (fun _ => WingPower.off) · w) (congrArg (·.2.1) h)

theorem restarting_of_supply : u.cur.restarting = s.cur.restarting := congrArg (fun x => x.2.2.1) h

theorem tripSince_of_supply : u.cur.tripSince = s.cur.tripSince := congrArg (fun x => x.2.2.2) h

theorem railState_of_supply {w : Nat} (hw : w < 16) : u.railState w = s.railState w :=
  fld_of_supply h (onSupply_pwrRail hw) 31 30

theorem wingRuns_of_supply (w : Nat) : u.wingRuns w = s.wingRuns w := bit_of_supply h (by decide) w

end

/-! ### Registers, sites and the fault ring -/

theorem State.setReg_supply (s : State) {a : Nat} (v : BitVec 32) (h : OffSupply a) : (s.setReg a v).supply = s.supply := by
  have hreg : ∀ b, ¬ OffSupply b → (s.setReg a v).reg b = s.reg b := fun b hb => s.reg_setReg_other v fun hba => hb (hba ▸ h)
  refine Prod.ext (funext fun b => ?_) rfl
  by_cases hb : OffSupply b
  · simp only [State.supply, supplyOf, if_pos hb]
  · simp only [State.supply, supplyOf, if_neg hb]
    exact hreg b hb

theorem State.setFld_supply (s : State) {a : Nat} (hi lo n : Nat) (h : OffSupply a) : (s.setFld a hi lo n).supply = s.supply :=
  s.setReg_supply _ h

theorem State.setBit_supply (s : State) {a : Nat} (i : Nat) (b : Bool) (h : OffSupply a) : (s.setBit a i b).supply = s.supply :=
  s.setReg_supply _ h

theorem State.setReg64_supply (s : State) {a : Nat} (n : Nat) (h : OffSupply a) (h' : OffSupply (a + 4)) :
    (s.setReg64 a n).supply = s.supply :=
  (State.setReg_supply _ _ h').trans (s.setReg_supply _ h)

@[simp] theorem State.modSite_supply (s : State) (t : Nat) (f : Site → Site) : (s.modSite t f).supply = s.supply := by
  simp [State.modSite, State.setSite]
@[simp] theorem State.setTreg_supply (s : State) (t a : Nat) (v : BitVec 32) : (s.setTreg t a v).supply = s.supply :=
  s.modSite_supply t _
@[simp] theorem State.setTfld_supply (s : State) (t a hi lo n : Nat) : (s.setTfld t a hi lo n).supply = s.supply :=
  s.setTreg_supply t a _
@[simp] theorem State.setTbit_supply (s : State) (t a i : Nat) (b : Bool) : (s.setTbit t a i b).supply = s.supply :=
  s.setTfld_supply t a i i _
@[simp] theorem State.setTreg64_supply (s : State) (t lo n : Nat) : (s.setTreg64 t lo n).supply = s.supply :=
  (State.setTreg_supply _ t _ _).trans (s.setTreg_supply t _ _)
@[simp] theorem State.tbump_supply (s : State) (t a n : Nat) : (s.tbump t a n).supply = s.supply := s.setTreg_supply t a _
@[simp] theorem State.modCore_supply (s : State) (t c : Nat) (f : Core → Core) : (s.modCore t c f).supply = s.supply :=
  s.modSite_supply t _
@[simp] theorem State.freed_supply (s : State) : s.freed.supply = s.supply := by
  simp [State.freed]

/-- R446: a record writes registers outside the supply, the fault ring and the vectors: a view that shows none of them stays as it is. -/
theorem State.fault_leaves {β : Type} (s : State) (code source : Nat) (partition : Option Nat) (detail : List Nat) (view : State → β)
    (hreg : ∀ (u : State) (a : Nat) (v : BitVec 32), OffSupply a → view (u.setReg a v) = view u)
    (hring : ∀ (u : State) (l : List (Nat × FaultRec)), view { u with faults := l } = view u)
    (hvec : ∀ (u : State) (l : List (Nat × Nat)), view { u with msix := l } = view u) :
    view (s.fault code source partition detail) = view s := by
  have htail : OffSupply R.FLT_LOG_TAIL := by decide
  have hhead : OffSupply R.FLT_LOG_HEAD := by decide
  have hlost : OffSupply R.FLT_LOG_LOST := by decide
  have hraise (u : State) (fn vec : Nat) : view (u.raiseVector fn vec) = view u := by
    unfold State.raiseVector
    split
    · exact hvec u _
    · rfl
  unfold State.fault
  extract_lets tail head s1 r s2 s3
  have h1 : view s1 = view s := by simp only [s1, apply_ite view, State.bump, hreg _ _ _ hlost, hreg _ _ _ hhead, ite_self]
  have h3 : view s3 = view s := (hreg s2 _ _ htail).trans ((hring s1 _).trans h1)
  simp only [apply_ite view, hraise, h3, ite_self]

@[simp] theorem State.fault_supply (s : State) (code source : Nat) (partition : Option Nat) (detail : List Nat) :
    (s.fault code source partition detail).supply = s.supply :=
  s.fault_leaves code source partition detail State.supply (fun u _ v h => u.setReg_supply v h) (fun u _ => by simp) fun u _ => by simp

@[simp] theorem State.curFault_supply (s : State) (code : Nat) (detail : List Nat) : (s.curFault code detail).supply = s.supply := by
  simp [State.curFault]

theorem State.partFailAt_supply (s : State) {p : Nat} (cause at_ : Nat) (hp : p < 256) : (s.partFailAt p cause at_).supply = s.supply := by
  have hoff : OffSupply (R.SEC_PART_FAILED (p / 32)) := by simp only [OffSupply, R.SEC_PART_FAILED]; omega
  simp [State.partFailAt, State.setBit_supply _ _ _ hoff]

theorem State.partFail_supply (s : State) {p : Nat} (cause : Nat) (hp : p < 256) : (s.partFail p cause).supply = s.supply :=
  s.partFailAt_supply _ _ hp

/-! ### Cores and debug -/

@[simp] theorem State.traceEvent_supply (s : State) (t unit k data : Nat) : (s.traceEvent t unit k data).supply = s.supply := by
  refine List.foldlRecOn (motive := fun u : State => u.supply = s.supply) _ _ rfl fun u hu n hn => ?_
  have hoff : OffSupply (R.DBG_TRACE_CTL n) := by
    have := List.mem_range.mp hn
    simp only [OffSupply, R.DBG_TRACE_CTL]; omega
  dsimp only
  split
  · rw [State.setBit_supply _ _ _ hoff, State.setFld_supply _ _ _ _ hoff]; exact hu
  · exact hu

@[simp] theorem State.setCoreState_supply (s : State) (t c v : Nat) : (s.setCoreState t c v).supply = s.supply := by
  simp [State.setCoreState]

@[simp] theorem State.reportStatus_supply (s : State) (t core source pc status : Nat) :
    (s.reportStatus t core source pc status).supply = s.supply := by
  simp [State.reportStatus]

@[simp] theorem State.dbgForget_supply (s : State) (k : Nat) : (s.dbgForget k).supply = s.supply := by
  simp [State.dbgForget]

/-! ### The endpoint -/

@[simp] theorem State.modNet_supply (s : State) (f : Net → Net) : (s.modNet f).supply = s.supply := by
  simp [State.modNet]
@[simp] theorem State.modHst_supply (s : State) (f : Hst → Hst) : (s.modHst f).supply = s.supply := by
  simp [State.modHst]
@[simp] theorem State.modDram_supply (s : State) (f : Dram → Dram) : (s.modDram f).supply = s.supply := by
  simp [State.modDram]
@[simp] theorem State.modSec_supply (s : State) (f : Sec → Sec) : (s.modSec f).supply = s.supply := by
  simp [State.modSec]
@[simp] theorem State.setChan_supply (s : State) (f c : Nat) (l : List CopyJob) : (s.setChan f c l).supply = s.supply := by
  simp [State.setChan]

@[simp] theorem State.fnErr_supply (s : State) (f addr status : Nat) : (s.fnErr f addr status).supply = s.supply := by
  have herr : OffSupply (R.FN_ERR f) := by simp only [OffSupply, R.FN_ERR]; omega
  have hlo : OffSupply (R.FN_ERR_ADDR_LO f) := by simp only [OffSupply, R.FN_ERR_ADDR_LO]; omega
  have hhi : OffSupply (R.FN_ERR_ADDR_LO f + 4) := by simp only [OffSupply, R.FN_ERR_ADDR_LO]; omega
  simp [State.fnErr, State.setReg64_supply _ _ hlo hhi, State.setReg_supply _ _ herr]

theorem State.hostDone_supply (s : State) (id status : Nat) (data : List (BitVec 8)) :
    ∀ u, s.hostDone id status data = some u → u.supply = s.supply := by
  unfold State.hostDone
  split <;> simp

theorem State.copyDone_supply (s : State) (f c id part status : Nat) (data : List (BitVec 8)) :
    ∀ u, s.copyDone f c id part status data = some u → u.supply = s.supply := by
  unfold State.copyDone
  dsimp only
  split
  · simp
  · rintro u ⟨⟩
    rw [State.setChan_supply]
    split <;> simp

@[simp] theorem State.debugDone_supply (s : State) (status : Nat) (data : List (BitVec 8)) : (s.debugDone status data).supply = s.supply := by
  have hcmd : OffSupply R.DBG_ACC_CMD := by decide
  have hdata : OffSupply R.DBG_ACC_DATA := by decide
  simp [State.debugDone, State.setBit_supply _ _ _ hcmd, State.setReg_supply _ _ hdata]

/-! ### The networks -/

@[simp] theorem State.modXfer_supply (s : State) (t id row : Nat) (f : XferRow → XferRow) : (s.modXfer t id row f).supply = s.supply :=
  s.modSite_supply t _
@[simp] theorem State.answerLost_supply (s : State) (t : Nat) : (s.answerLost t).supply = s.supply := by
  simp [State.answerLost]

@[simp] theorem State.netDone_supply (s : State) (u : NetUser) (status : Nat) (data : List (BitVec 8)) :
    (s.netDone u status data).supply = s.supply := by
  cases u with
  | core t c id => simp [State.netDone]
  | xfer t id row => simp only [State.netDone]; split <;> [simp; (rw [State.modXfer_supply]; split <;> simp)]
  | msg t id => simp only [State.netDone]; split <;> [simp; (rw [State.modXfer_supply]; split <;> simp)]
  | concWrite t slot => simp [State.netDone]
  | concNote t slot => rfl
  | ingress p h => rfl
  | fn f =>
    have hoff : OffSupply (R.FN_MSG_STATUS f) := by simp only [OffSupply, R.FN_MSG_STATUS]; omega
    simp only [State.netDone, State.setFld_supply _ _ _ _ hoff, State.setBit_supply _ _ _ hoff]
  | host id =>
    simp only [State.netDone]
    split
    · exact supply_getD _ _ _ (s.hostDone_supply _ _ _) (by simp)
    · simp
  | copy f c id part =>
    simp only [State.netDone]
    split
    · exact supply_getD _ _ _ (s.copyDone_supply _ _ _ _ _ _) (by simp)
    · simp
  | debug => simp [State.netDone]
  | fill t a => simp [State.netDone]
  | spill t a => simp [State.netDone, supply_foldl]
  | fetch t c b => simp [State.netDone]

@[simp] theorem State.launch_supply (s : State) (h : Hdr) (data : List (BitVec 8)) (agent : Agent) (target router port : Nat)
    (back : Option Nat) : (s.launch h data agent target router port back).supply = s.supply := by
  simp [State.launch]

@[simp] theorem State.answer_supply (s : State) (p : Packet) (t status : Nat) (data : List (BitVec 8)) :
    (s.answer p t status data).supply = s.supply := by
  simp only [State.answer]
  repeat' split
  all_goals simp

@[simp] theorem State.joinPiece_supply (s : State) (id status : Nat) (data : List (Nat × BitVec 8)) :
    (s.joinPiece id status data).supply = s.supply := by
  simp only [State.joinPiece]
  repeat' split
  all_goals simp

@[simp] theorem State.lostPacket_supply (s : State) (p : Packet) : (s.lostPacket p).supply = s.supply := by
  simp only [State.lostPacket]
  repeat' split
  all_goals simp

@[simp] theorem State.loseNet_supply (s : State) (w : Nat) : (s.loseNet w).supply = s.supply := by
  simp [State.loseNet, supply_foldl]

/-! ### The reset of a site -/

@[simp] theorem State.countStatus_supply (s : State) (t status : Nat) : (s.countStatus t status).supply = s.supply := by
  unfold State.countStatus
  split <;> simp

@[simp] theorem State.setRing_supply (s : State) (t q : Nat) (l : List QEnt) : (s.setRing t q l).supply = s.supply := by
  simp [State.setRing]
@[simp] theorem State.queueClose_supply (s : State) (t q : Nat) : (s.queueClose t q).supply = s.supply :=
  s.setTfld_supply t _ 31 30 2

@[simp] theorem State.emptyRing_supply (s : State) (t q : Nat) : (s.emptyRing t q).supply = s.supply := by
  simp [State.emptyRing, supply_foldl]

@[simp] theorem State.dropConc_supply (s : State) (t : Nat) : (s.dropConc t).supply = s.supply := by
  simp [State.dropConc, supply_foldl]

@[simp] theorem State.closeQueues_supply (s : State) (t : Nat) : (s.closeQueues t).supply = s.supply := by
  simp [State.closeQueues, supply_foldl]

@[simp] theorem State.concReset_supply (s : State) (t : Nat) : (s.concReset t).supply = s.supply := by
  simp [State.concReset, supply_foldl]

@[simp] theorem State.stopCores_supply (s : State) (t : Nat) : (s.stopCores t).supply = s.supply := by
  simp [State.stopCores, supply_foldl]

@[simp] theorem State.resetSite_supply (s : State) (t : Nat) (net : Bool) : (s.resetSite t net).supply = s.supply := by
  simp [State.resetSite]

@[simp] theorem State.scrubCaches_supply (s : State) (t : Nat) : (s.scrubCaches t).supply = s.supply := by
  simp [State.scrubCaches, supply_foldl]

@[simp] theorem State.scrubBegin_supply (s : State) (t : Nat) : (s.scrubBegin t).supply = s.supply := by
  simp [State.scrubBegin, supply_foldl]

@[simp] theorem State.abortTest_supply (s : State) (t : Nat) : (s.abortTest t).supply = s.supply := by
  simp [State.abortTest]

/-! ### The memory stacks -/

@[simp] theorem State.loseStack_supply (s : State) (k : Nat) : (s.loseStack k).supply = s.supply := by
  simp [State.loseStack]

/-- The second state differs from the first in the memory stacks alone. -/
def DiffersInDram (s u : State) : Prop := u = { s with dram := u.dram }

theorem DiffersInDram.modDram {s u : State} (h : DiffersInDram s u) (f : Dram → Dram) : DiffersInDram s (u.modDram f) := by
  unfold DiffersInDram at h ⊢
  rw [h]
  rfl

theorem State.zeroStacks_differsInDram (s : State) (ks : List Nat) : DiffersInDram s (s.zeroStacks ks) := by
  unfold State.zeroStacks
  refine List.foldlRecOn (motive := DiffersInDram s) ks _ ?epochs fun u hu k _ => ?bands
  case epochs => exact List.foldlRecOn (motive := DiffersInDram s) _ _ rfl fun u hu x _ => hu.modDram _
  case bands =>
    refine List.foldlRecOn (motive := DiffersInDram s) _ _ hu fun u hu x _ =>
      List.foldlRecOn (motive := DiffersInDram s) _ _ hu fun u hu b _ => ?_
    split
    · exact hu.modDram _
    · exact hu

@[simp] theorem State.zeroStacks_supply (s : State) (ks : List Nat) : (s.zeroStacks ks).supply = s.supply := by
  rw [s.zeroStacks_differsInDram ks, supply_mk, supply_fold]

@[simp] theorem State.siteStatus_zeroStacks (s : State) (ks : List Nat) (t : Nat) : (s.zeroStacks ks).siteStatus t = s.siteStatus t := by
  rw [s.zeroStacks_differsInDram ks]
  rfl

@[simp] theorem State.treg64_zeroStacks (s : State) (ks : List Nat) (t a : Nat) : (s.zeroStacks ks).treg64 t a = s.treg64 t a := by
  rw [s.zeroStacks_differsInDram ks]
  rfl

/-! ### The catalogue -/

@[simp] theorem State.catDirty_supply (s : State) (dead : Bool) : (s.catDirty dead).supply = s.supply := by
  have hoff : OffSupply R.CAT_STATUS := by decide
  simp [State.catDirty, State.setBit_supply _ _ _ hoff]

@[simp] theorem State.setEntry_supply (s : State) (t e origin detail : Nat) : (s.setEntry t e origin detail).supply = s.supply := by
  simp [State.setEntry]

@[simp] theorem State.markSiteDead_supply (s : State) (t reason origin detail : Nat) :
    (s.markSiteDead t reason origin detail).supply = s.supply := by
  simp [State.markSiteDead]

@[simp] theorem State.markDegraded_supply (s : State) (t reason origin detail : Nat) :
    (s.markDegraded t reason origin detail).supply = s.supply := by
  unfold State.markDegraded
  split <;> simp [State.keepUnderlying]

@[simp] theorem State.useSpare_supply (s : State) (t origin : Nat) : (s.useSpare t origin).supply = s.supply := by
  simp [State.useSpare, State.countRepair]

@[simp] theorem State.startDead_supply (s : State) (t : Nat) : (s.startDead t).supply = s.supply := by
  simp [State.startDead]

@[simp] theorem State.tested_supply (s : State) (t at_ : Nat) : (s.tested t at_).supply = s.supply :=
  s.setTreg64_supply t _ at_

@[simp] theorem State.markWingDead_supply (s : State) (w origin detail : Nat) : (s.markWingDead w origin detail).supply = s.supply := by
  simp [State.markWingDead, supply_foldl]

@[simp] theorem State.noteSpares_supply (s : State) (w : Nat) : (s.noteSpares w).supply = s.supply := by
  simp [State.noteSpares]

@[simp] theorem State.seamFails_supply (s : State) (i : Nat) : (s.seamFails i).supply = s.supply := by
  simp [State.seamFails]

@[simp] theorem State.testWingLinks_supply (s : State) (w : Nat) (wires : List (Nat × Nat × Nat × Nat)) :
    (s.testWingLinks w wires).supply = s.supply := by
  simp [State.testWingLinks, supply_foldl]

end Sys2Proof.Machine
end

section
/-! PROOFS. What becomes of the entries of sites, wings and stacks in the catalogue (R29, R30, R38-R40, R378), and of the time of a site's
test (R390). -/

namespace Sys2Proof.Machine

/-- What the operation makes true for one member of the list, and keeps for every member, holds after the fold. -/
theorem foldl_establishes {α : Type} {P : State → Prop} {f : State → α → State} {l : List α} {a : α} (ha : a ∈ l)
    (hset : ∀ s, P (f s a)) (hkeep : ∀ s b, P s → P (f s b)) (s : State) : P (l.foldl f s) := by
  induction l generalizing s with
  | nil => cases ha
  | cons b l ih =>
    rw [List.foldl_cons]
    rcases List.mem_cons.mp ha with rfl | hl
    · exact List.foldlRecOn l f (hset s) fun u hu c _ => hkeep u c hu
    · exact ih hl _

/-! ### Entries of the catalogue -/

theorem entryStatus_withStatus (e : Nat) {status reason : Nat} (hs : status < 4) : entryStatus (withStatus e status reason) = status := by
  simp only [entryStatus, withStatus, mkEntry, bitsOf, Nat.shiftRight_eq_div_pow]
  omega

@[simp] theorem State.catDirty_tables (s : State) (dead : Bool) : (s.catDirty dead).cat.tables = s.cat.tables := by
  unfold State.catDirty
  dsimp only
  split <;> rfl

/-- R40: a changed entry, and an unchanged one, read as written; every other entry reads as before. -/
theorem State.site_setEntry (s : State) (t x e origin detail : Nat) :
    (s.setEntry t e origin detail).cat.tables.site x = if x = t then e else s.cat.tables.site x := by
  unfold State.setEntry
  dsimp only
  split
  · next h =>
    split
    · next hx => rw [hx]; exact (beq_iff_eq.mp h).symm
    · rfl
  · rw [State.catDirty_tables]
    split
    · next hx => rw [hx]; exact Map.get_set_same _ _ t e
    · next hx => exact Map.get_set_other _ _ e hx

@[simp] theorem State.wings_setEntry (s : State) (t e origin detail : Nat) :
    (s.setEntry t e origin detail).cat.tables.wings = s.cat.tables.wings := by
  unfold State.setEntry
  dsimp only
  split
  · rfl
  · rw [State.catDirty_tables]

@[simp] theorem State.fault_cat (s : State) (code source : Nat) (partition : Option Nat) (detail : List Nat) :
    (s.fault code source partition detail).cat = s.cat :=
  s.fault_leaves code source partition detail State.cat (fun _ _ _ _ => rfl) (fun _ _ => rfl) fun _ _ => rfl

@[simp] theorem State.curFault_cat (s : State) (code : Nat) (detail : List Nat) : (s.curFault code detail).cat = s.cat := by
  rw [State.curFault, State.fault_cat]

/-- The site is dead in the catalogue. -/
def State.Dead (s : State) (t : Nat) : Prop := s.siteStatus t = 1

/-- Dead sites of the first state are dead in the second. -/
theorem State.Dead.of_tables {s u : State} {t : Nat} (h : s.Dead t) (hu : u.cat.tables.sites = s.cat.tables.sites) : u.Dead t := by
  simpa only [State.Dead, State.siteStatus, CatTables.site, hu] using h

theorem State.dead_setEntry_same (s : State) (t e origin detail reason : Nat) : (s.setEntry t (withStatus e 1 reason) origin detail).Dead t := by
  rw [State.Dead, State.siteStatus, State.site_setEntry, if_pos rfl]
  exact entryStatus_withStatus e (by omega)

/-- Marking a site dead leaves every dead site dead. -/
theorem State.Dead.setEntry {s : State} {x : Nat} (h : s.Dead x) (t e origin detail reason : Nat) :
    (s.setEntry t (withStatus e 1 reason) origin detail).Dead x := by
  by_cases hx : x = t
  · exact hx ▸ s.dead_setEntry_same t e origin detail reason
  · rw [State.Dead, State.siteStatus, State.site_setEntry, if_neg hx]
    exact h

theorem State.Dead.curFault {s : State} {x : Nat} (h : s.Dead x) (code : Nat) (detail : List Nat) : (s.curFault code detail).Dead x :=
  h.of_tables (by rw [State.curFault_cat])

/-- R378, R443: a start-up test that finds a site dead. -/
theorem State.dead_startDead_same (s : State) (t : Nat) : (s.startDead t).Dead t := by
  unfold State.startDead State.markSiteDead
  split
  · next h => exact beq_iff_eq.mp h
  · exact (s.dead_setEntry_same t _ _ _ _).curFault _ _

theorem State.Dead.startDead {s : State} {x : Nat} (h : s.Dead x) (t : Nat) : (s.startDead t).Dead x := by
  unfold State.startDead State.markSiteDead
  split
  · exact h
  · exact (h.setEntry t _ _ _ _).curFault _ _

theorem State.Dead.tested {s : State} {x : Nat} (h : s.Dead x) (t at_ : Nat) : (s.tested t at_).Dead x := h.of_tables rfl

/-! ### Withdrawn stacks -/

theorem State.tables_withdrawStack (s : State) (k : Nat) : (s.withdrawStack k).cat.tables.sites = s.cat.tables.sites ∧
    (s.withdrawStack k).cat.tables.wings = s.cat.tables.wings := by
  simp only [State.withdrawStack, State.catDirty_tables]
  exact ⟨rfl, rfl⟩

theorem State.Dead.withdrawStack {s : State} {x : Nat} (h : s.Dead x) (k : Nat) : (s.withdrawStack k).Dead x :=
  h.of_tables (s.tables_withdrawStack k).1

@[simp] theorem State.withdrawStack_sites (s : State) (k : Nat) : (s.withdrawStack k).sites = s.sites := by
  simp only [State.withdrawStack, State.catDirty]
  split <;> rfl

theorem State.withdrawStack_supply (s : State) (k : Nat) : (s.withdrawStack k).supply = (s.setFld (R.MEM_STK_USABLE k) 15 0 0).supply := by
  simp only [State.withdrawStack, State.catDirty_supply, supply_mk, supply_fold]

theorem onSupply_memStkUsable {k : Nat} (hk : k < 32) : ¬ OffSupply (R.MEM_STK_USABLE k) := by
  simp only [OffSupply, R.MEM_STK_USABLE]; omega

theorem State.usable_withdrawStack_same (s : State) {k : Nat} (hk : k < 32) : (s.withdrawStack k).fld (R.MEM_STK_USABLE k) 15 0 = 0 := by
  rw [fld_of_supply (s.withdrawStack_supply k) (onSupply_memStkUsable hk), State.fld_setFld_same _ _ _ _ _ (by omega) (by omega),
    Nat.zero_mod]

theorem State.reg_withdrawStack_other (s : State) {k a : Nat} (ha : ¬ OffSupply a) (hne : a ≠ R.MEM_STK_USABLE k) :
    (s.withdrawStack k).reg a = s.reg a := by
  rw [reg_of_supply (s.withdrawStack_supply k) ha, State.reg_setFld_other _ _ _ _ hne]

theorem State.usable_withdrawStack_of_withdrawn {s : State} {j : Nat} (h : s.fld (R.MEM_STK_USABLE j) 15 0 = 0) (hj : j < 32) (k : Nat) :
    (s.withdrawStack k).fld (R.MEM_STK_USABLE j) 15 0 = 0 := by
  by_cases hjk : j = k
  · exact hjk ▸ s.usable_withdrawStack_same hj
  · have hne : R.MEM_STK_USABLE j ≠ R.MEM_STK_USABLE k := by simp only [R.MEM_STK_USABLE]; omega
    rw [State.fld, s.reg_withdrawStack_other (onSupply_memStkUsable hj) hne]
    exact h

theorem pwrRail_ne_memStkUsable (w k : Nat) : R.PWR_RAIL w ≠ R.MEM_STK_USABLE k := by
  simp only [R.PWR_RAIL, R.MEM_STK_USABLE]; omega

theorem State.wing_withdrawStack (s : State) (k w : Nat) : (s.withdrawStack k).wing w = s.wing w := by
  rw [wing_of_supply (s.withdrawStack_supply k)]
  rfl

theorem State.railState_withdrawStack (s : State) (k : Nat) {w : Nat} (hw : w < 16) : (s.withdrawStack k).railState w = s.railState w := by
  simp only [State.railState, State.fld, s.reg_withdrawStack_other (onSupply_pwrRail hw) (pwrRail_ne_memStkUsable w k)]

/-! ### A tile register pair -/

theorem State.treg64_setTreg64_same (s : State) (t a n : Nat) : (s.setTreg64 t a n).treg64 t a = n % 2 ^ 64 := by
  have hlo : (s.setTreg64 t a n).treg t a = BitVec.ofNat 32 n := by
    rw [State.setTreg64, State.treg_setTreg_other _ _ (.inr (by omega)), State.treg_setTreg_same]
  have hhi : (s.setTreg64 t a n).treg t (a + 4) = BitVec.ofNat 32 (n / 2 ^ 32) := by rw [State.setTreg64, State.treg_setTreg_same]
  rw [State.treg64, hlo, hhi, BitVec.toNat_ofNat, BitVec.toNat_ofNat]
  omega

theorem State.treg64_setTreg64_other (s : State) {t x : Nat} (a n : Nat) (h : x ≠ t) : (s.setTreg64 t a n).treg64 x a = s.treg64 x a := by
  simp only [State.treg64, State.setTreg64, State.treg_setTreg_other _ _ (.inl h)]

theorem State.treg64_tested_same (s : State) (t at_ : Nat) : (s.tested t at_).treg64 t R.TILE_IFT_LAST_LO = at_ % 2 ^ 64 :=
  s.treg64_setTreg64_same t _ at_

theorem State.treg64_tested_other (s : State) {t x : Nat} (at_ : Nat) (h : t ≠ x) :
    (s.tested x at_).treg64 t R.TILE_IFT_LAST_LO = s.treg64 t R.TILE_IFT_LAST_LO :=
  s.treg64_setTreg64_other _ at_ h

/-- R390: every site of a list that was tested at one time holds that time. -/
theorem State.treg64_foldl_tested (s : State) {t : Nat} {l : List Nat} (ht : t ∈ l) (at_ : Nat) :
    (l.foldl (fun s t => s.tested t at_) s).treg64 t R.TILE_IFT_LAST_LO = at_ % 2 ^ 64 := by
  refine foldl_establishes (P := fun u => u.treg64 t R.TILE_IFT_LAST_LO = at_ % 2 ^ 64) ht (fun u => ?set) (fun u x hu => ?keep) s
  case set => exact u.treg64_tested_same t at_
  case keep =>
    by_cases hx : t = x
    · exact hx ▸ u.treg64_tested_same t at_
    · exact (u.treg64_tested_other at_ hx).trans hu

theorem State.treg64_of_sites {s u : State} (h : u.sites = s.sites) (t a : Nat) : u.treg64 t a = s.treg64 t a := by
  simp only [State.treg64, State.treg, State.site, h]

end Sys2Proof.Machine
end

section
/-! PROOFS. The commands that power wings on and off, and the trips (R347-R350, R388). -/

namespace Sys2Proof.Machine

/-! ### Wings and their rails -/

@[simp] theorem State.wing_modWing_same (s : State) (w : Nat) (f : WingPower → WingPower) : (s.modWing w f).wing w = f (s.wing w) :=
  Map.get_modify_same _ _ w f

theorem State.wing_modWing_other (s : State) {v w : Nat} (f : WingPower → WingPower) (h : v ≠ w) : (s.modWing w f).wing v = s.wing v :=
  Map.get_modify_other _ _ f h

@[simp] theorem State.reg_modWing (s : State) (w a : Nat) (f : WingPower → WingPower) : (s.modWing w f).reg a = s.reg a := by
  unfold State.modWing; rfl
@[simp] theorem State.fld_modWing (s : State) (w a hi lo : Nat) (f : WingPower → WingPower) :
    (s.modWing w f).fld a hi lo = s.fld a hi lo := by
  simp only [State.fld, State.reg_modWing]
@[simp] theorem State.bit_modWing (s : State) (w a i : Nat) (f : WingPower → WingPower) : (s.modWing w f).bit a i = s.bit a i := by
  simp only [State.bit, State.reg_modWing]
@[simp] theorem State.railState_modWing (s : State) (v w : Nat) (f : WingPower → WingPower) :
    (s.modWing w f).railState v = s.railState v := by
  simp only [State.railState, State.fld_modWing]
@[simp] theorem State.wingRuns_modWing (s : State) (v w : Nat) (f : WingPower → WingPower) :
    (s.modWing w f).wingRuns v = s.wingRuns v := by
  simp only [State.wingRuns, State.bit_modWing]

theorem pwrRail_ne {v w : Nat} (h : v ≠ w) : R.PWR_RAIL v ≠ R.PWR_RAIL w := by simp only [R.PWR_RAIL]; omega

theorem clkWingRun_ne_pwrRail (w : Nat) : R.CLK_WING_RUN ≠ R.PWR_RAIL w := by simp only [R.CLK_WING_RUN, R.PWR_RAIL]; omega

theorem pwrWingStatus_ne_pwrRail (w : Nat) : R.PWR_WING_STATUS ≠ R.PWR_RAIL w := by simp only [R.PWR_WING_STATUS, R.PWR_RAIL]; omega

/-- R369: a rail that goes off or trips writes its own register alone. -/
theorem State.reg_railOff_other (s : State) {w a : Nat} (n : Nat) (h : a ≠ R.PWR_RAIL w) : (s.railOff w n).reg a = s.reg a := by
  simp only [State.railOff]
  rw [State.reg_setFld_other _ _ _ _ h]
  split
  · exact s.reg_setFld_other _ _ _ h
  · rfl

theorem State.railState_railOff_same (s : State) (w : Nat) {n : Nat} (h : n < 4) : (s.railOff w n).railState w = n :=
  (State.fld_setFld_same _ _ 31 30 n (by omega) (by omega)).trans (Nat.mod_eq_of_lt h)

theorem State.railState_railOff_other (s : State) {v w : Nat} (n : Nat) (h : v ≠ w) : (s.railOff w n).railState v = s.railState v := by
  simp only [State.railState, State.fld, s.reg_railOff_other n (pwrRail_ne h)]

@[simp] theorem State.wingRuns_railOff (s : State) (v w n : Nat) : (s.railOff w n).wingRuns v = s.wingRuns v := by
  simp only [State.wingRuns, State.bit, s.reg_railOff_other n (clkWingRun_ne_pwrRail w)]

@[simp] theorem State.sites_railOff (s : State) (w n : Nat) : (s.railOff w n).sites = s.sites := by
  simp only [State.railOff]; split <;> rfl
@[simp] theorem State.cur_railOff (s : State) (w n : Nat) : (s.railOff w n).cur = s.cur := by
  simp only [State.railOff]; split <;> rfl

/-- R13, R25: of the supply, the loss of a wing changes its running clock, its bit of PWR_WING_STATUS and its power state. -/
theorem State.loseWing_supply (s : State) (w : Nat) :
    (s.loseWing w).supply = (((s.setBit R.CLK_WING_RUN w false).setBit R.PWR_WING_STATUS w false).modWing w WingPower.lost).supply := by
  unfold State.loseWing
  extract_lets s1 s2 s3 s4 s5 s6
  have h4 : s4.supply = s3.supply := supply_foldl _ _ _ fun u e => by simp
  have h5 : s5.supply = s3.supply := (s4.loseNet_supply w).trans h4
  simpa [s6] using h5

theorem State.wingRuns_loseWing_same (s : State) {w : Nat} (hw : w < 16) : (s.loseWing w).wingRuns w = false := by
  rw [wingRuns_of_supply (s.loseWing_supply w), State.wingRuns, State.bit_modWing, State.bit_setBit_ne _ _ _ _ (by decide),
    State.bit_setBit_same _ _ _ _ (by omega)]

theorem State.wingRuns_loseWing_other (s : State) {v w : Nat} (h : v ≠ w) : (s.loseWing w).wingRuns v = s.wingRuns v := by
  rw [wingRuns_of_supply (s.loseWing_supply w), State.wingRuns, State.bit_modWing, State.bit_setBit_ne _ _ _ _ (by decide),
    State.bit_setBit_other _ _ _ _ _ h, State.wingRuns]

theorem State.railState_loseWing (s : State) {v : Nat} (w : Nat) (hv : v < 16) : (s.loseWing w).railState v = s.railState v := by
  rw [railState_of_supply (s.loseWing_supply w) hv, State.railState_modWing, State.railState,
    State.fld_setBit_ne _ _ _ _ _ (pwrWingStatus_ne_pwrRail v).symm, State.fld_setBit_ne _ _ _ _ _ (clkWingRun_ne_pwrRail v).symm,
    State.railState]

theorem State.wingOf_ne_of_mem_loseWing (s : State) (w : Nat) : ∀ e ∈ (s.loseWing w).sites, wingOf e.1 ≠ w := by
  intro e he
  simpa using (List.mem_filter.mp he).2

/-! ### WING_OFF and WING_ON (R347) -/

section
variable {s : State} {a : Agent} {w : Nat} (ha : s.Granted a R.PWR_WING_CTL) (hw : w < 16)
include ha hw

theorem wingOff_does : Does (.wingOff a w) s (s.wingOff w) := by
  rw [Does, exec_wingOff, execWingOff, Nat.mod_eq_of_lt hw]
  exact devWrite_granted ha _

theorem wingOn_does : Does (.wingOn a w) s (s.wingOn w) := by
  rw [Does, exec_wingOn, execWingOn, Nat.mod_eq_of_lt hw]
  exact devWrite_granted ha _

end

/-- R347: the conditions under which an off command is rejected. -/
theorem State.wingOff_eq (s : State) (w : Nat) : s.wingOff w =
    if s.wingDead w = true ∨ s.railState w ≠ 2 ∨ s.vbringOn w = true ∨ s.swapping = true ∨ s.wingUsed w = true then s.wingReject
    else (s.loseWing w).railOff w 0 := by
  simp [State.wingOff, or_assoc]

/-- R347: the conditions under which an on command is rejected. -/
theorem State.wingOn_eq (s : State) (w : Nat) : s.wingOn w =
    if s.wingDead w = true ∨ s.railState w ≠ 0 ∨ s.vbringOn w = true ∨ (s.wing w).requestAt.isSome = true then s.wingReject
    else s.modWing w fun x => { x with requestAt := some s.time, inService := true } := by
  simp [State.wingOn, or_assoc]

/-- R347: what an off command that is not rejected leaves. -/
theorem State.wingOff_effect (s : State) {w : Nat} (hw : w < 16) :
    let u := (s.loseWing w).railOff w 0
    u.railState w = 0 ∧ u.wingRuns w = false ∧ u.wingUp w = false ∧ (∀ e ∈ u.sites, wingOf e.1 ≠ w) ∧
      ∀ v, v < 16 → v ≠ w → u.railState v = s.railState v ∧ u.wingRuns v = s.wingRuns v := by
  intro u
  have hrail : u.railState w = 0 := State.railState_railOff_same _ w (by omega)
  refine ⟨hrail, ?_, ?_, ?_, fun v hv hne => ⟨?_, ?_⟩⟩
  · exact (State.wingRuns_railOff _ w w 0).trans (s.wingRuns_loseWing_same hw)
  · simp [State.wingUp, hrail]
  · rw [State.sites_railOff]
    exact s.wingOf_ne_of_mem_loseWing w
  · exact (State.railState_railOff_other _ 0 hne).trans (s.railState_loseWing w hv)
  · exact (State.wingRuns_railOff _ v w 0).trans (s.wingRuns_loseWing_other hne)

/-! ### Inrush tokens (R348) -/

theorem State.lt_of_waiting {s : State} {w : Nat} {rest : List Nat} (h : s.waiting = w :: rest) : w < 16 := by
  have hmem : w ∈ s.waiting := h ▸ List.mem_cons_self
  exact List.mem_range.mp (List.mem_of_mem_filter hmem)

theorem inrushGrant_does {s : State} {w : Nat} {rest : List Nat} (hwait : s.waiting = w :: rest) (hrun : s.timeRunning = true)
    (hstep : s.pwr.lastStep = s.time) (hramp : s.ramping = false) (hroom : 200 ≤ s.headroom) : Does .inrushGrant s (s.rampStart w) := by
  rw [Does, exec_inrushGrant, execInrushGrant, hwait]
  exact when_true (by simp [hrun, hstep, hramp, hroom])

/-- R348: what the beginning of a ramp leaves. -/
theorem State.rampStart_effect (s : State) {w : Nat} (hw : w < 16) (htok : s.tokens + 4 < 256) :
    (s.rampStart w).tokens = s.tokens + 4 ∧ (s.rampStart w).railState w = 1 ∧ (s.rampStart w).ramping = true ∧
      (s.rampStart w).fld R.PWR_WING_STATUS 19 16 = w ∧ ((s.rampStart w).wing w).requestAt = none ∧
      ((s.rampStart w).wing w).rampAt = some s.time := by
  have hne := pwrWingStatus_ne_pwrRail w
  refine ⟨?tokens, ?rail, ?ramping, ?wing, ?request, ?ramp⟩
  case tokens =>
    rw [State.tokens, State.rampStart, State.fld_modWing, State.fld_setFld_ne _ _ _ _ _ _ hne, State.fld_setFld_ne _ _ _ _ _ _ hne,
      State.fld_setFld_other _ _ _ _ _ _ _ (by omega) (by omega) (by omega), State.fld_setBit_other _ _ _ _ _ _ (by omega) (by omega),
      State.setTokens, State.fld_setFld_same _ _ _ _ _ (by omega) (by omega)]
    exact Nat.mod_eq_of_lt htok
  case rail =>
    rw [State.rampStart, State.railState_modWing, State.railState,
      State.fld_setFld_other _ _ _ _ _ _ _ (by omega) (by omega) (by omega), State.fld_setFld_same _ _ _ _ _ (by omega) (by omega)]
    rfl
  case ramping =>
    rw [State.ramping, State.rampStart, State.bit_modWing, State.bit_setFld_ne _ _ _ _ _ hne, State.bit_setFld_ne _ _ _ _ _ hne,
      State.bit_setFld_other _ _ _ _ _ _ (by omega) (by omega), State.bit_setBit_same _ _ _ _ (by omega)]
  case wing =>
    rw [State.rampStart, State.fld_modWing, State.fld_setFld_ne _ _ _ _ _ _ hne, State.fld_setFld_ne _ _ _ _ _ _ hne,
      State.fld_setFld_same _ _ _ _ _ (by omega) (by omega)]
    exact Nat.mod_eq_of_lt hw
  case request => rw [State.rampStart, State.wing_modWing_same]
  case ramp =>
    rw [State.rampStart, State.wing_modWing_same]
    simp only [State.setTokens, State.setBit_eq, State.setFld_eq, State.setReg_time]

theorem State.alignSeams_supply (s : State) (touched : Nat → Bool) : (s.alignSeams touched).supply = s.supply :=
  supply_foldl _ _ _ fun u k => by simp [State.placePointer, State.modSeam]

theorem wingClockStart_does {s : State} {w at_ : Nat} (hat : (s.wing w).rampAt = some at_) (hw : w < 16) (hrail : s.railState w = 1)
    (hdue : s.rampDue w at_ ≤ s.time) (hwin : s.clk.window = none) (hosc : s.clk.oscillator = false) :
    Does (.wingClockStart w) s (s.wingStarts w) := by
  rw [Does, exec_wingClockStart, execWingClockStart, hat]
  exact when_true (by simp [hw, hrail, hdue, hwin, hosc])

/-- R326, R348: what the start of a wing's clock leaves. -/
theorem State.wingStarts_effect (s : State) {w : Nat} (hw : w < 16) :
    let u := s.wingStarts w
    u.railState w = 2 ∧ u.wingRuns w = true ∧ u.ramping = false ∧ (u.wing w).rampAt = none ∧ (u.wing w).clockAt = some s.time ∧
      (u.wing w).tokensUntil = some (s.time + 1000000) ∧ (u.wing w).cycle = 0 := by
  unfold State.wingStarts
  extract_lets s1 s2 s3 s4 u
  have hstat := pwrWingStatus_ne_pwrRail w
  have hrail1 : s1.railState w = 2 := by
    simp only [s1, State.railState]
    rw [State.fld_setBit_ne _ _ _ _ _ hstat.symm, State.fld_setFld_other _ _ _ _ _ _ _ (by omega) (by omega) (by omega),
      State.fld_setFld_same _ _ _ _ _ (by omega) (by omega)]
    rfl
  have hrail3 : s3.railState w = 2 := by
    simp only [s3, s2, State.railState]
    rw [State.fld_setBit_ne _ _ _ _ _ (clkWingRun_ne_pwrRail w).symm, State.fld_setFld_ne _ _ _ _ _ _ hstat.symm,
      State.fld_setBit_ne _ _ _ _ _ hstat.symm]
    exact hrail1
  have hruns3 : s3.wingRuns w = true := by
    simp only [s3, State.wingRuns]
    exact s2.bit_setBit_same _ w true (by omega)
  have hramp3 : s3.ramping = false := by
    simp only [s3, s2, State.ramping]
    rw [State.bit_setBit_ne _ _ _ _ (by decide), State.bit_setFld_other _ _ _ _ _ _ (by omega) (by omega),
      State.bit_setBit_same _ _ _ _ (by omega)]
  have htime3 : s3.time = s.time := by simp only [s3, s2, s1, State.setBit_eq, State.setFld_eq, State.setReg_time]
  have hwing4 : s4.wing w = { s3.wing w with rampAt := none, clockAt := some s3.time, tokensUntil := some (s3.time + 1000000), cycle := 0,
                                             phase := 0, pulses := 0 } := State.wing_modWing_same s3 w _
  have hu : u.supply = s4.supply := s4.alignSeams_supply _
  clear_value s3
  rw [railState_of_supply hu hw, wingRuns_of_supply hu, State.ramping, bit_of_supply hu (by decide), wing_of_supply hu, hwing4, htime3]
  simp only [s4, State.railState_modWing, State.wingRuns_modWing, State.bit_modWing]
  exact ⟨hrail3, hruns3, hramp3, trivial, trivial, trivial, trivial⟩

theorem inrushRelease_does {s : State} {w at_ : Nat} (hat : (s.wing w).tokensUntil = some at_) (hdue : at_ ≤ s.time) :
    Does (.inrushRelease w) s ((s.setTokens (s.tokens - 4)).modWing w fun x => { x with tokensUntil := none }) := by
  rw [Does, exec_inrushRelease, execInrushRelease, hat]
  exact when_true (by simp [hdue])

/-- R348: what the return of a wing's tokens leaves. -/
theorem State.releaseTokens_effect (s : State) (w : Nat) :
    let u := (s.setTokens (s.tokens - 4)).modWing w fun x => { x with tokensUntil := none }
    u.tokens = s.tokens - 4 ∧ u.wing w = { s.wing w with tokensUntil := none } ∧ u.fld R.PWR_WING_STATUS 23 0 = s.fld R.PWR_WING_STATUS 23 0 := by
  have hlt : s.tokens < 256 := getBits_lt _ 31 24
  refine ⟨?_, State.wing_modWing_same _ w _, ?_⟩
  · rw [State.tokens, State.fld_modWing, State.setTokens, State.fld_setFld_same _ _ _ _ _ (by omega) (by omega)]
    exact Nat.mod_eq_of_lt (by omega)
  · rw [State.fld_modWing, State.setTokens, State.fld_setFld_other _ _ _ _ _ _ _ (by omega) (by omega) (by omega)]

/-! ### WING_POWER_UP_DONE (R388) -/

/-- R388: what the end of a power-up leaves, before the catalogue notes that it changed. -/
theorem wingPowerUpDone_effect {s : State} {w bist n : Nat} (failed repaired withdrawn : List Nat) (wires : List (Nat × Nat × Nat × Nat))
    (hw : w < 16) (hserv : (s.wing w).inService = true) (hrail : s.railState w = 2) (hclock : (s.wing w).clockAt = some n)
    (hn : n ≤ bist) (hb : bist ≤ s.time) (hcur : s.curatorUp = true) :
    ∃ u : State, Does (.wingPowerUpDone w (failed, repaired) (withdrawn, wires) bist) s (u.catDirty false) ∧ (u.wing w).inService = false ∧
      (u.wing w).clamped = false ∧ u.wingUp w = true ∧
      (∀ t ∈ wingSites w, s.live t = true → t ∈ failed → u.siteStatus t = 1) ∧
      (∀ t ∈ wingSites w, s.live t = true → t ∉ failed → kindOf t ≠ .mi → u.treg64 t R.TILE_IFT_LAST_LO = bist % 2 ^ 64) ∧
      ∀ k ∈ withdrawn, k / 2 = w → u.fld (R.MEM_STK_USABLE k) 15 0 = 0 := by
  have hexec := exec_wingPowerUpDone w (failed, repaired) (withdrawn, wires) bist s
  unfold execWingPowerUpDone at hexec
  extract_lets failed' x here bad good u0 u1 u2 u3 u4 gone u5 u6 at hexec
  -- the wing and its rail: what follows the release of the isolation keeps them
  have hsupply1 : u1.supply = u0.supply := u0.testWingLinks_supply w _
  have hsupply2 : u2.supply = u1.supply := supply_foldl _ _ u1 fun u t => u.useSpare_supply t 1
  have hsupply3 : u3.supply = u2.supply := supply_foldl _ bad u2 fun u t => u.startDead_supply t
  have hsupply4 : u4.supply = u3.supply := supply_foldl _ good u3 fun u t => u.tested_supply t bist
  have hsupply : u4.supply = u0.supply := hsupply4.trans (hsupply3.trans (hsupply2.trans hsupply1))
  have hwing0 : u0.wing w = { s.wing w with inService := false, clamped := false } := by simp only [u0, State.wing_modWing_same]
  have hrail0 : u0.railState w = 2 := by simp only [u0, State.railState_modWing, hrail]
  have hwing4 : u4.wing w = { s.wing w with inService := false, clamped := false } := (wing_of_supply hsupply w).trans hwing0
  have hrail4 : u4.railState w = 2 := (railState_of_supply hsupply hw).trans hrail0
  have hwing5 : u5.wing w = u4.wing w :=
    List.foldlRecOn (motive := fun u : State => u.wing w = u4.wing w) gone _ rfl fun u hu k _ => (u.wing_withdrawStack k w).trans hu
  have hrail5 : u5.railState w = 2 :=
    List.foldlRecOn (motive := fun u : State => u.railState w = 2) gone _ hrail4 fun u hu k _ => (u.railState_withdrawStack k hw).trans hu
  have hsupply6 : u6.supply = u5.supply := u5.zeroStacks_supply _
  have hwing6 : u6.wing w = { s.wing w with inService := false, clamped := false } :=
    (wing_of_supply hsupply6 w).trans (hwing5.trans hwing4)
  have hrail6 : u6.railState w = 2 := (railState_of_supply hsupply6 hw).trans hrail5
  -- a failed site is dead from its own entry on
  have hdead : ∀ t ∈ bad, u6.siteStatus t = 1 := by
    intro t ht
    have h3 : u3.Dead t := foldl_establishes (P := fun u => u.Dead t) ht (fun u => u.dead_startDead_same t) (fun u x hu => hu.startDead x) u2
    have h4 : u4.Dead t := List.foldlRecOn (motive := fun u : State => u.Dead t) good _ h3 fun u hu x _ => hu.tested x bist
    have h5 : u5.Dead t := List.foldlRecOn (motive := fun u : State => u.Dead t) gone _ h4 fun u hu k _ => hu.withdrawStack k
    exact (u5.siteStatus_zeroStacks _ t).trans h5
  -- a site that passed holds the time of its test
  have htested : ∀ t ∈ good, u6.treg64 t R.TILE_IFT_LAST_LO = bist % 2 ^ 64 := by
    intro t ht
    have h4 : u4.treg64 t R.TILE_IFT_LAST_LO = bist % 2 ^ 64 := u3.treg64_foldl_tested ht bist
    have h5 : u5.sites = u4.sites :=
      List.foldlRecOn (motive := fun u : State => u.sites = u4.sites) gone _ rfl fun u hu k _ => (u.withdrawStack_sites k).trans hu
    exact (u5.treg64_zeroStacks _ t _).trans ((State.treg64_of_sites h5 t _).trans h4)
  have hgone : ∀ k ∈ gone, u6.fld (R.MEM_STK_USABLE k) 15 0 = 0 := by
    intro k hk
    have hk32 : k < 32 := by
      have : k = 2 * w ∨ k = 2 * w + 1 := by simpa using List.mem_of_mem_filter hk
      omega
    have h5 : u5.fld (R.MEM_STK_USABLE k) 15 0 = 0 :=
      foldl_establishes (P := fun u => u.fld (R.MEM_STK_USABLE k) 15 0 = 0) hk (fun u => u.usable_withdrawStack_same hk32)
        (fun u j hu => State.usable_withdrawStack_of_withdrawn hu hk32 j) u4
    exact (fld_of_supply hsupply6 (onSupply_memStkUsable hk32) 15 0).trans h5
  refine ⟨u6, hexec.trans (when_true ?_), ?_, ?_, ?_, fun t ht hlive hf => hdead t ?_, fun t ht hlive hf hmi => htested t ?_,
    fun k hk hkw => hgone k ?_⟩
  · simp [x, hw, hserv, hrail, hclock, hn, hb, hcur]
  · rw [hwing6]
  · rw [hwing6]
  · simp [State.wingUp, hrail6, hwing6]
  · simp [bad, here, failed', ht, hlive, hf]
  · simp [good, here, failed', ht, hlive, hf, hmi]
  · have : k = 2 * w ∨ k = 2 * w + 1 := by omega
    simp [gone, this, hk]

/-! ### RAIL_TRIP (R349) -/

theorem State.lt_of_mem_partsInWing {s : State} {w p : Nat} (h : p ∈ s.partsInWing w) : p < 256 := by
  obtain ⟨t, -, ht⟩ := List.mem_filterMap.mp (List.mem_eraseDups.mp h)
  obtain ⟨m, -, hm⟩ := Option.bind_eq_some_iff.mp ht
  simp only [Image.sitePart, Option.ite_none_right_eq_some, Option.some.injEq] at hm
  rw [← hm.2]
  exact Nat.mod_lt _ (by decide)

theorem State.partFail_cat (s : State) (p cause : Nat) : (s.partFail p cause).cat = s.cat := by
  rw [State.partFail, State.partFailAt, State.fault_cat, State.setBit_eq, State.setFld_eq, State.setReg_cat]

/-- The catalogue is the same after every operation of a fold that leaves it. -/
theorem cat_foldl {α : Type} (f : State → α → State) (l : List α) (s : State) (h : ∀ s a, (f s a).cat = s.cat) : (l.foldl f s).cat = s.cat :=
  List.foldlRecOn (motive := fun u : State => u.cat = s.cat) l f rfl fun u hu a _ => (h u a).trans hu

/-- The wing entries are the same after every operation of a fold that leaves them. -/
theorem wings_foldl {α : Type} (f : State → α → State) (l : List α) (s : State)
    (h : ∀ s a, (f s a).cat.tables.wings = s.cat.tables.wings) : (l.foldl f s).cat.tables.wings = s.cat.tables.wings :=
  List.foldlRecOn (motive := fun u : State => u.cat.tables.wings = s.cat.tables.wings) l f rfl fun u hu a _ => (h u a).trans hu

theorem State.wingDead_of_wings {s u : State} (h : u.cat.tables.wings = s.cat.tables.wings) (w : Nat) : u.wingDead w = s.wingDead w := by
  simp only [State.wingDead, h]

/-- R40, R349: a wing that is marked dead is dead, and each of its sites. -/
theorem State.markWingDead_effect (s : State) (w origin detail : Nat) :
    (s.markWingDead w origin detail).wingDead w = true ∧ ∀ t ∈ wingSites w, (s.markWingDead w origin detail).Dead t := by
  unfold State.markWingDead
  extract_lets tb old new r tb' cat' s1
  refine ⟨?wing, fun t ht => ?sites⟩
  case wing =>
    have hwings : s1.cat.tables.wings = Map.set (fun _ => 0) tb.wings w new := by simp only [s1, State.catDirty_tables, cat', tb']
    have hnew : bitsOf new 1 0 = 1 := by simp only [new, bitsOf, Nat.shiftRight_zero]; omega
    rw [State.wingDead_of_wings (wings_foldl _ _ s1 fun u t => u.wings_setEntry t _ _ _), State.wingDead, hwings, Map.get_set_same, hnew]
    rfl
  case sites =>
    refine foldl_establishes (P := fun u => u.Dead t) ht (fun u => ?set) (fun u x hu => ?keep) s1
    case set => exact u.dead_setEntry_same t _ _ _ _
    case keep => exact State.Dead.setEntry hu x _ _ _ _

theorem railTrip_does {s : State} {w amps mv : Nat} (hw : w < 16) (hrail : s.railState w = 1 ∨ s.railState w = 2)
    (hcause : 480 < amps ∨ s.railState w = 2 ∧ mv < 520) : Does (.railTrip w amps mv) s (s.railTrip w amps mv) := by
  rw [Does, exec_railTrip, execRailTrip]
  exact when_true (by simp [hw, hrail, hcause])

/-- R349: what a trip of a wing's rail leaves. -/
theorem State.railTrip_effect (s : State) {w amps : Nat} (mv : Nat) (hw : w < 16) (hamps : amps < 16384) :
    (s.railTrip w amps mv).railState w = 3 ∧ (s.railTrip w amps mv).fld (R.PWR_RAIL w) 29 16 = amps ∧
      (s.railTrip w amps mv).wingRuns w = false ∧ (s.railTrip w amps mv).wingDead w = true ∧
      ∀ t ∈ wingSites w, (s.railTrip w amps mv).siteStatus t = 1 := by
  generalize hu : s.railTrip w amps mv = u
  unfold State.railTrip at hu
  extract_lets parts wasRamping held s1 s2 s3 s4 at_ s5 newly s6 s7 s8 at hu
  -- the rail and the clock once the wing is lost
  have hrail4 : s4.railState w = 3 := by
    simp only [s4, State.railState]
    rw [State.fld_setFld_other _ _ _ _ _ _ _ (by omega) (by omega) (by omega)]
    exact s3.railState_railOff_same w (by omega)
  have hamps4 : s4.fld (R.PWR_RAIL w) 29 16 = amps := by
    simp only [s4]
    rw [State.fld_setFld_same _ _ _ _ _ (by omega) (by omega)]
    exact Nat.mod_eq_of_lt hamps
  have hruns4 : s4.wingRuns w = false := by
    simp only [s4, State.wingRuns]
    rw [State.bit_setFld_ne _ _ _ _ _ (clkWingRun_ne_pwrRail w)]
    exact (s3.wingRuns_railOff w w 3).trans (s2.wingRuns_loseWing_same hw)
  -- the records, the dead marks and the withdrawn stacks keep both
  have hsupply6 : s6.supply = s4.supply := (s5.markWingDead_supply w 3 at_).trans (s4.curFault_supply _ _)
  have hsupply8 : s8.supply = s7.supply := supply_foldl _ newly s7 fun v t => v.curFault_supply _ _
  have hsupplyU : u.supply = s8.supply := by
    rw [← hu]
    exact List.foldlRecOn (motive := fun v : State => v.supply = s8.supply) parts _ rfl fun v hv p hp =>
      (v.partFail_supply 0x20 (State.lt_of_mem_partsInWing hp)).trans hv
  have hreg : ∀ a, ¬ OffSupply a → (∀ k, a ≠ R.MEM_STK_USABLE k) → u.reg a = s4.reg a := by
    intro a ha hne
    have h7 : s7.reg a = s6.reg a :=
      (State.reg_withdrawStack_other _ ha (hne _)).trans (State.reg_withdrawStack_other _ ha (hne _))
    exact (reg_of_supply (hsupplyU.trans hsupply8) ha).trans (h7.trans (reg_of_supply hsupply6 ha))
  have hregRail : u.reg (R.PWR_RAIL w) = s4.reg (R.PWR_RAIL w) := hreg _ (onSupply_pwrRail hw) fun k => pwrRail_ne_memStkUsable w k
  have hregClk : u.reg R.CLK_WING_RUN = s4.reg R.CLK_WING_RUN :=
    hreg _ (by decide) fun k => by simp only [R.CLK_WING_RUN, R.MEM_STK_USABLE]; omega
  -- the dead marks stay
  obtain ⟨hwing6, hsites6⟩ := s5.markWingDead_effect w 3 at_
  have hcat : u.cat = s7.cat := by
    rw [← hu]
    exact (cat_foldl _ parts s8 fun v p => v.partFail_cat p 0x20).trans (cat_foldl _ newly s7 fun v t => v.curFault_cat _ _)
  have hwings : u.cat.tables.wings = s6.cat.tables.wings := by
    rw [hcat]
    exact (State.tables_withdrawStack _ _).2.trans (State.tables_withdrawStack _ _).2
  have hsites : u.cat.tables.sites = s6.cat.tables.sites := by
    rw [hcat]
    exact (State.tables_withdrawStack _ _).1.trans (State.tables_withdrawStack _ _).1
  refine ⟨?_, ?_, ?_, ?_, fun t ht => ?_⟩
  · rw [State.railState, State.fld, hregRail]
    exact hrail4
  · rw [State.fld, hregRail]
    exact hamps4
  · rw [State.wingRuns, State.bit, hregClk]
    exact hruns4
  · exact (State.wingDead_of_wings hwings w).trans hwing6
  · have h6 : s6.Dead t := hsites6 t ht
    have hdead : u.Dead t := h6.of_tables hsites
    exact hdead

/-! ### STAGE_TRIP (R350) -/

/-- R350: every rail goes off, and its wing is lost. -/
def State.railsOff (s : State) : State := allWings.foldl (fun s w => (s.modWing w WingPower.lost).railOff w 0) s

theorem State.railState_railsOff (s : State) {w : Nat} (hw : w < 16) : s.railsOff.railState w = 0 := by
  refine foldl_establishes (P := fun u => u.railState w = 0) (List.mem_range.mpr hw) (fun u => ?set) (fun u v hu => ?keep) s
  case set => exact State.railState_railOff_same _ w (by omega)
  case keep =>
    by_cases hv : w = v
    · rw [hv]
      exact State.railState_railOff_same _ v (by omega)
    · rw [State.railState_railOff_other _ 0 hv, State.railState_modWing, hu]

/-- R350: shutting the rails off leaves the start and Curator. -/
theorem State.railsOff_frame (s : State) : s.railsOff.cur = s.cur ∧ s.railsOff.reg R.CUR_BOOT_STATUS = s.reg R.CUR_BOOT_STATUS := by
  refine List.foldlRecOn (motive := fun u : State => u.cur = s.cur ∧ u.reg R.CUR_BOOT_STATUS = s.reg R.CUR_BOOT_STATUS)
    allWings _ ⟨rfl, rfl⟩ fun u hu w _ => ?_
  have hne : R.CUR_BOOT_STATUS ≠ R.PWR_RAIL w := by simp only [R.CUR_BOOT_STATUS, R.PWR_RAIL]; omega
  rw [State.cur_railOff, State.reg_railOff_other _ _ hne, State.reg_modWing]
  exact hu

/-- R350: of the supply, the end of the stage changes the rails, PWR_WING_STATUS and the running clocks. -/
theorem State.stageOff_supply (s : State) :
    s.stageOff.supply = ((s.railsOff.setReg R.PWR_WING_STATUS 0).setFld R.CLK_WING_RUN 15 0 0).supply := by
  generalize hu : s.stageOff = u
  unfold State.stageOff at hu
  extract_lets s1 s2 s3 s4 users cur' net' s5 at hu
  have h3 : s3.supply = s2.supply := by
    refine List.foldlRecOn (motive := fun v : State => v.supply = s2.supply) _ _ rfl fun v hv p hp => ?_
    have hoff : OffSupply (R.LNK_PORT_STATUS p) := by
      have := List.mem_range.mp hp
      simp only [OffSupply, R.LNK_PORT_STATUS]; omega
    simp only [State.portOff, supply_mk, supply_fold, State.setFld_supply _ _ _ _ hoff, hv]
  have h4 : s4.supply = s3.supply := supply_foldl _ _ s3 fun v k => v.loseStack_supply k
  have h5 : s5.supply = s4.supply := by simp only [s5, cur', net', supply_mk, supply_fold]
  rw [← hu]
  exact (supply_foldl _ users s5 fun v x => v.netDone_supply x _ _).trans (h5.trans (h4.trans h3))

@[simp] theorem State.linkNarrow_supply (s : State) : s.linkNarrow.supply = s.supply := by
  have hoff : OffSupply R.HST_LINK_STATUS := by decide
  simp [State.linkNarrow, State.setBit_supply _ _ _ hoff, State.setFld_supply _ _ _ _ hoff]

@[simp] theorem State.reg_assertFault (s : State) (a : Nat) : s.assertFault.reg a = s.reg a := by
  unfold State.assertFault; rfl

@[simp] theorem State.reg_tripped (s : State) (a : Nat) : s.tripped.reg a = s.reg a := by
  unfold State.tripped; rfl

/-- R380: a start that fails leaves Curator's own state. -/
theorem State.startFails_cur (s : State) (error : Nat) : (s.startFails error).cur = s.cur := by
  unfold State.startFails
  split
  · rw [State.setFld_eq, State.setReg_cur, State.assertFault]
  · rfl

theorem State.startFails_pins (s : State) (error : Nat) (h : s.pins.faultLatched = true) : (s.startFails error).pins = s.pins := by
  unfold State.startFails
  split
  · rw [State.setFld_eq, State.setReg_pins, State.assertFault, ← h]
  · rfl

theorem State.reg_startFails_other (s : State) (error : Nat) {a : Nat} (h : a ≠ R.CUR_BOOT_STATUS) :
    (s.startFails error).reg a = s.reg a := by
  unfold State.startFails
  split
  · rw [State.reg_setFld_other _ _ _ _ h, State.reg_assertFault]
  · rfl

theorem State.bootError_startFails (s : State) {error : Nat} (he : error < 16) (hstage : s.fld R.CUR_BOOT_STATUS 2 0 < 5)
    (hcur : s.cur.restarting = false) : (s.startFails error).fld R.CUR_BOOT_STATUS 31 28 = error := by
  rw [State.startFails, if_pos (by simp [hstage, hcur]), State.fld_setFld_same _ _ _ _ _ (by omega) (by omega)]
  exact Nat.mod_eq_of_lt he

/-- The state in which a failed shared rail leaves the module, before its record (R350, R380). -/
def State.stageTripped (s : State) (rail : Nat) : State :=
  let u := s.stageOff.tripped.linkNarrow
  { u with pins := { u.pins with stageTripped := true, vin48 := u.pins.vin48 && rail != 3 } }.assertFault.startFails 2

theorem stageTrip_does {s : State} {rail : Nat} (hrail : rail < 4) (hon : s.stageOn = true) :
    Does (.stageTrip rail) s ((s.stageTripped rail).curFault 0x21 (le 1 rail)) := by
  rw [Does, exec_stageTrip, execStageTrip]
  exact when_true (by simp [hrail, hon])

/-- R350, R380, R381: what a failed shared rail leaves. -/
theorem State.stageTripped_effect (s : State) (rail : Nat) :
    (s.stageTripped rail).pins.stageTripped = true ∧ (s.stageTripped rail).pins.faultLatched = true ∧
      (rail = 3 → (s.stageTripped rail).pins.vin48 = false) ∧ (s.stageTripped rail).cur.tripSince = true ∧
      (∀ w, w < 16 → (s.stageTripped rail).railState w = 0 ∧ (s.stageTripped rail).wingRuns w = false) ∧
      (s.fld R.CUR_BOOT_STATUS 2 0 < 5 → s.cur.restarting = false → (s.stageTripped rail).fld R.CUR_BOOT_STATUS 31 28 = 2) := by
  generalize hu : s.stageTripped rail = u
  unfold State.stageTripped at hu
  extract_lets t at hu
  generalize hv : State.assertFault _ = v at hu
  have hvpins : v.pins = { t.pins with stageTripped := true, vin48 := t.pins.vin48 && rail != 3, faultLatched := true } := by
    rw [← hv, State.assertFault]
  have hvcur : v.cur = t.cur := by rw [← hv, State.assertFault]
  have hvreg : ∀ a, v.reg a = t.reg a := fun a => by rw [← hv, State.reg_assertFault]; rfl
  have ht : t.supply = s.stageOff.tripped.supply := s.stageOff.tripped.linkNarrow_supply
  have htreg : ∀ {a}, ¬ OffSupply a → t.reg a = s.stageOff.reg a := fun ha =>
    (reg_of_supply ht ha).trans (State.reg_tripped _ _)
  obtain ⟨hcurOff, hbootOff⟩ := s.railsOff_frame
  have hureg : ∀ {a}, ¬ OffSupply a → a ≠ R.CUR_BOOT_STATUS →
      u.reg a = ((s.railsOff.setReg R.PWR_WING_STATUS 0).setFld R.CLK_WING_RUN 15 0 0).reg a := fun {a} ha hne => by
    rw [← hu, State.reg_startFails_other _ _ hne, hvreg, htreg ha, reg_of_supply s.stageOff_supply ha]
  have hupins : u.pins = v.pins := by rw [← hu]; exact v.startFails_pins 2 (by rw [hvpins])
  refine ⟨?_, ?_, fun h3 => ?_, ?_, fun w hw => ⟨?rail, ?runs⟩, fun hstage hcur => ?boot⟩
  · rw [hupins, hvpins]
  · rw [hupins, hvpins]
  · rw [hupins, hvpins]; simp [h3]
  · rw [← hu, State.startFails_cur, hvcur, tripSince_of_supply ht, State.tripped]
  case rail =>
    rw [State.railState, State.fld, hureg (onSupply_pwrRail hw) (by simp only [R.PWR_RAIL, R.CUR_BOOT_STATUS]; omega),
      State.reg_setFld_other _ _ _ _ (clkWingRun_ne_pwrRail w).symm, State.reg_setReg_other _ _ (pwrWingStatus_ne_pwrRail w).symm]
    exact s.railState_railsOff hw
  case runs =>
    rw [State.wingRuns, State.bit, hureg (by decide) (by decide), ← State.bit,
      State.bit_setFld_in _ _ _ _ _ _ (Nat.zero_le w) (by omega) (by omega), Nat.zero_testBit]
  case boot =>
    have hreg : v.reg R.CUR_BOOT_STATUS = s.reg R.CUR_BOOT_STATUS := by
      rw [hvreg, htreg (by decide), reg_of_supply s.stageOff_supply (by decide), State.reg_setFld_other _ _ _ _ (by decide),
        State.reg_setReg_other _ _ (by decide), hbootOff]
    have hrestart : v.cur.restarting = s.cur.restarting := by
      rw [hvcur, restarting_of_supply ht, State.tripped, restarting_of_supply s.stageOff_supply, State.setFld_eq, State.setReg_cur,
        State.setReg_cur, hcurOff]
    rw [← hu]
    exact v.bootError_startFails (by omega) (by rw [State.fld, hreg]; exact hstage) (hrestart.trans hcur)

/-! ### The obligation -/

/-- Settles O45, command by command: each answers a state named above, and the effect lemmas read the wings, rails and sites off it. -/
theorem wingCommands : Obligations.WingCommands := by
  unfold Obligations.WingCommands
  refine ⟨?onOff, ?grant, ?start, ?release, ?done, ?rail, ?stage⟩
  case onOff =>
    intro s a w ha hw
    have hoff := wingOff_does ha hw
    have hon := wingOn_does ha hw
    rw [s.wingOff_eq w] at hoff
    rw [s.wingOn_eq w] at hon
    refine ⟨fun h => ?_, fun h => ?_, fun h => ?_, fun h => ?_⟩
    · rwa [if_pos h] at hoff
    · rw [if_neg h] at hoff
      exact ⟨_, hoff, s.wingOff_effect hw⟩
    · rwa [if_pos h] at hon
    · rw [if_neg h] at hon
      exact ⟨_, hon, s.wing_modWing_same w _, rfl, fun v hv => s.wing_modWing_other _ hv⟩
  case grant =>
    intro s w rest hwait hrun hstep hramp hroom htok
    exact ⟨_, inrushGrant_does hwait hrun hstep hramp hroom, s.rampStart_effect (State.lt_of_waiting hwait) htok⟩
  case start =>
    intro s w at_ hat hw hrail hdue hwin hosc
    exact ⟨_, wingClockStart_does hat hw hrail hdue hwin hosc, s.wingStarts_effect hw⟩
  case release =>
    intro s w at_ hat hdue
    exact ⟨_, inrushRelease_does hat hdue, s.releaseTokens_effect w⟩
  case done =>
    intro s w bist n failed repaired withdrawn wires hw hserv hrail hclock hn hb hcur
    exact wingPowerUpDone_effect failed repaired withdrawn wires hw hserv hrail hclock hn hb hcur
  case rail =>
    intro s w amps mv hw hrail hamps hcause
    exact ⟨_, railTrip_does hw hrail hcause, s.railTrip_effect mv hw hamps⟩
  case stage =>
    intro s rail hrail hon
    exact ⟨_, stageTrip_does hrail hon, s.stageTripped_effect rail⟩

end Sys2Proof.Machine
end

section
/-! PROOFS. What the fault ring, the reset of a site and the end of its test leave of the image slots and FAB_STATUS, and what a swap does to
the slots (R320, R385, R393, R434). -/

namespace Sys2Proof.Machine

/-- A fold of an operation that leaves a view of the state leaves it. -/
theorem foldl_leaves {α β : Type} (view : State → β) {f : State → α → State} (h : ∀ s a, view (f s a) = view s) (l : List α) (s : State) :
    view (l.foldl f s) = view s :=
  List.foldlRecOn (motive := fun u : State => view u = view s) l f rfl fun u hu a _ => (h u a).trans hu

/-! ### The fault ring -/

/-- The registers that a record writes. -/
abbrev ringRegs : List Nat := [R.FLT_LOG_HEAD, R.FLT_LOG_TAIL, R.FLT_LOG_LOST]

/-- R447: besides them a record writes the ring and the vectors: a view that shows none of these stays as it is. -/
theorem State.fault_leaves_ring {β : Type} (s : State) (code source : Nat) (partition : Option Nat) (detail : List Nat) (view : State → β)
    (hreg : ∀ (u : State), ∀ a ∈ ringRegs, ∀ v, view (u.setReg a v) = view u)
    (hring : ∀ (u : State) (l : List (Nat × FaultRec)), view { u with faults := l } = view u)
    (hvec : ∀ (u : State) (l : List (Nat × Nat)), view { u with msix := l } = view u) :
    view (s.fault code source partition detail) = view s := by
  have hhead (u : State) (v : BitVec 32) : view (u.setReg R.FLT_LOG_HEAD v) = view u := hreg u _ (by simp) v
  have htail (u : State) (v : BitVec 32) : view (u.setReg R.FLT_LOG_TAIL v) = view u := hreg u _ (by simp) v
  have hlost (u : State) (v : BitVec 32) : view (u.setReg R.FLT_LOG_LOST v) = view u := hreg u _ (by simp) v
  have hraise (u : State) (fn vec : Nat) : view (u.raiseVector fn vec) = view u := by
    unfold State.raiseVector
    split
    · exact hvec u _
    · rfl
  unfold State.fault
  extract_lets tail head s1 r s2 s3
  have h1 : view s1 = view s := by simp only [s1, apply_ite view, State.bump, hhead, hlost, ite_self]
  have h3 : view s3 = view s := (htail s2 _).trans ((hring s1 _).trans h1)
  simp only [apply_ite view, hraise, h3, ite_self]

theorem State.reg_fault_other (s : State) (code source : Nat) (partition : Option Nat) (detail : List Nat) {a : Nat}
    (ha : a ∉ ringRegs) : (s.fault code source partition detail).reg a = s.reg a :=
  s.fault_leaves_ring code source partition detail (·.reg a) (fun u _ hb v => u.reg_setReg_other v fun h => ha (h ▸ hb))
    (fun _ _ => rfl) fun _ _ => rfl

@[simp] theorem State.fault_fab (s : State) (code source : Nat) (partition : Option Nat) (detail : List Nat) :
    (s.fault code source partition detail).fab = s.fab :=
  s.fault_leaves code source partition detail State.fab (fun _ _ _ _ => rfl) (fun _ _ => rfl) fun _ _ => rfl

/-! ### The reset of a site and the end of its test -/

/-- What arming is read from: the image slots, the claims and FAB_STATUS. -/
def State.fabric (s : State) : Fab × BitVec 32 := (s.fab, s.reg R.FAB_STATUS)

theorem fab_of_fabric {s u : State} (h : u.fabric = s.fabric) : u.fab = s.fab := congrArg Prod.fst h

theorem armed_of_fabric {s u : State} (h : u.fabric = s.fabric) : u.armed = s.armed := by
  have hreg : u.reg R.FAB_STATUS = s.reg R.FAB_STATUS := congrArg Prod.snd h
  simp only [State.armed, State.bit, hreg]

theorem State.setReg_fabric (s : State) {a : Nat} (v : BitVec 32) (h : R.FAB_STATUS ≠ a) : (s.setReg a v).fabric = s.fabric :=
  Prod.ext rfl (s.reg_setReg_other v h)
theorem State.setBit_fabric (s : State) {a : Nat} (i : Nat) (b : Bool) (h : R.FAB_STATUS ≠ a) : (s.setBit a i b).fabric = s.fabric :=
  s.setReg_fabric _ h
theorem State.setFld_fabric (s : State) {a : Nat} (hi lo n : Nat) (h : R.FAB_STATUS ≠ a) : (s.setFld a hi lo n).fabric = s.fabric :=
  s.setReg_fabric _ h

/-- A fold of an operation that leaves them leaves them. -/
theorem fabric_foldl {α : Type} (f : State → α → State) (l : List α) (s : State) (h : ∀ s a, (f s a).fabric = s.fabric) :
    (l.foldl f s).fabric = s.fabric := foldl_leaves State.fabric h l s

@[simp] theorem State.modNet_fabric (s : State) (f : Net → Net) : (s.modNet f).fabric = s.fabric := Prod.ext rfl rfl
@[simp] theorem State.modSec_fabric (s : State) (f : Sec → Sec) : (s.modSec f).fabric = s.fabric := Prod.ext rfl rfl
@[simp] theorem State.modSite_fabric (s : State) (t : Nat) (f : Site → Site) : (s.modSite t f).fabric = s.fabric := Prod.ext rfl rfl
@[simp] theorem State.modCore_fabric (s : State) (t c : Nat) (f : Core → Core) : (s.modCore t c f).fabric = s.fabric := Prod.ext rfl rfl
@[simp] theorem State.setTfld_fabric (s : State) (t a hi lo n : Nat) : (s.setTfld t a hi lo n).fabric = s.fabric := Prod.ext rfl rfl
@[simp] theorem State.setTbit_fabric (s : State) (t a i : Nat) (b : Bool) : (s.setTbit t a i b).fabric = s.fabric := Prod.ext rfl rfl
@[simp] theorem State.dbgForget_fabric (s : State) (k : Nat) : (s.dbgForget k).fabric = s.fabric := Prod.ext rfl rfl
@[simp] theorem State.answerLost_fabric (s : State) (t : Nat) : (s.answerLost t).fabric = s.fabric := Prod.ext rfl rfl
@[simp] theorem State.setRing_fabric (s : State) (t q : Nat) (l : List QEnt) : (s.setRing t q l).fabric = s.fabric := Prod.ext rfl rfl
@[simp] theorem State.queueClose_fabric (s : State) (t q : Nat) : (s.queueClose t q).fabric = s.fabric := Prod.ext rfl rfl

/-- R433: a trace event writes the control registers of the trace buffers alone. -/
@[simp] theorem State.traceEvent_fabric (s : State) (t unit k data : Nat) : (s.traceEvent t unit k data).fabric = s.fabric := by
  refine foldl_leaves State.fabric (fun u n => ?_) _ s
  have hne : R.FAB_STATUS ≠ R.DBG_TRACE_CTL n := by simp only [R.FAB_STATUS, R.DBG_TRACE_CTL]; omega
  dsimp only
  split
  · rw [State.setBit_fabric _ _ _ hne, State.setFld_fabric _ _ _ _ hne]; rfl
  · rfl

@[simp] theorem State.setCoreState_fabric (s : State) (t c v : Nat) : (s.setCoreState t c v).fabric = s.fabric := by
  unfold State.setCoreState
  dsimp only
  split
  · rfl
  · rw [State.traceEvent_fabric, State.setTfld_fabric]

@[simp] theorem State.countStatus_fabric (s : State) (t status : Nat) : (s.countStatus t status).fabric = s.fabric := by
  unfold State.countStatus
  split <;> rfl

@[simp] theorem State.launch_fabric (s : State) (h : Hdr) (data : List (BitVec 8)) (agent : Agent) (target router port : Nat)
    (back : Option Nat) : (s.launch h data agent target router port back).fabric = s.fabric := by
  unfold State.launch
  split <;> rfl

@[simp] theorem State.answer_fabric (s : State) (p : Packet) (t status : Nat) (data : List (BitVec 8)) :
    (s.answer p t status data).fabric = s.fabric := by
  unfold State.answer
  dsimp only
  split
  · exact s.launch_fabric _ _ _ _ _ _ _
  · split
    · exact s.launch_fabric _ _ _ _ _ _ _
    · exact s.answerLost_fabric t

@[simp] theorem State.emptyRing_fabric (s : State) (t q : Nat) : (s.emptyRing t q).fabric = s.fabric := by
  simp [State.emptyRing, fabric_foldl]

@[simp] theorem State.dropConc_fabric (s : State) (t : Nat) : (s.dropConc t).fabric = s.fabric :=
  foldl_leaves State.fabric (fun u p => by split <;> simp) _ s

@[simp] theorem State.closeQueues_fabric (s : State) (t : Nat) : (s.closeQueues t).fabric = s.fabric :=
  foldl_leaves State.fabric (fun u q => by split <;> simp) _ s

@[simp] theorem State.concReset_fabric (s : State) (t : Nat) : (s.concReset t).fabric = s.fabric := by
  simp [State.concReset, fabric_foldl]

@[simp] theorem State.stopCores_fabric (s : State) (t : Nat) : (s.stopCores t).fabric = s.fabric := by
  simp [State.stopCores, fabric_foldl]

@[simp] theorem State.resetSite_fabric (s : State) (t : Nat) (net : Bool) : (s.resetSite t net).fabric = s.fabric := by
  simp [State.resetSite]

@[simp] theorem State.scrubCaches_fabric (s : State) (t : Nat) : (s.scrubCaches t).fabric = s.fabric := by
  simp [State.scrubCaches, fabric_foldl]

@[simp] theorem State.scrubBegin_fabric (s : State) (t : Nat) : (s.scrubBegin t).fabric = s.fabric := by
  simp [State.scrubBegin, fabric_foldl]

@[simp] theorem State.abortTest_fabric (s : State) (t : Nat) : (s.abortTest t).fabric = s.fabric := by
  unfold State.abortTest
  dsimp only
  split
  · rw [State.scrubBegin_fabric]; rfl
  · rfl

/-- R393: arming that aborts tests leaves what it armed. -/
theorem State.armAborts_fabric (s : State) (m : Image) : (s.armAborts m).fabric = s.fabric := by
  refine foldl_leaves State.fabric (fun u e => ?_) _ s
  split
  · split
    · rfl
    · exact u.abortTest_fabric e.1
  · rfl

/-! ### What a swap leaves of the slots -/

theorem fab_foldl {α : Type} (f : State → α → State) (l : List α) (s : State) (h : ∀ s a, (f s a).fab = s.fab) :
    (l.foldl f s).fab = s.fab := foldl_leaves State.fab h l s

@[simp] theorem State.modNet_fab (s : State) (f : Net → Net) : (s.modNet f).fab = s.fab := by unfold State.modNet; rfl
@[simp] theorem State.modSec_fab (s : State) (f : Sec → Sec) : (s.modSec f).fab = s.fab := by unfold State.modSec; rfl
@[simp] theorem State.modDram_fab (s : State) (f : Dram → Dram) : (s.modDram f).fab = s.fab := by unfold State.modDram; rfl
@[simp] theorem State.sendCtrl_fab (s : State) (port : Nat) (f : CtrlFrame) : (s.sendCtrl port f).fab = s.fab := by
  unfold State.sendCtrl; rfl
@[simp] theorem State.setTreg_fab (s : State) (t a : Nat) (v : BitVec 32) : (s.setTreg t a v).fab = s.fab := s.modSite_fab t _
@[simp] theorem State.setTbit_fab (s : State) (t a i : Nat) (b : Bool) : (s.setTbit t a i b).fab = s.fab := s.setTreg_fab t a _
@[simp] theorem State.setTreg64_fab (s : State) (t lo n : Nat) : (s.setTreg64 t lo n).fab = s.fab :=
  (State.setTreg_fab _ t _ _).trans (s.setTreg_fab t _ _)
@[simp] theorem State.setFld_fab (s : State) (a hi lo n : Nat) : (s.setFld a hi lo n).fab = s.fab := s.setReg_fab a _
@[simp] theorem State.setBit_fab (s : State) (a i : Nat) (b : Bool) : (s.setBit a i b).fab = s.fab := s.setReg_fab a _
@[simp] theorem State.setReg64_fab (s : State) (lo n : Nat) : (s.setReg64 lo n).fab = s.fab := by simp [State.setReg64]

@[simp] theorem State.emptyRing_fab (s : State) (t q : Nat) : (s.emptyRing t q).fab = s.fab := fab_of_fabric (s.emptyRing_fabric t q)

@[simp] theorem State.installQueue_fab (s : State) (t q : Nat) (acc : Option Nat) : (s.installQueue t q acc).fab = s.fab := by
  simp [State.installQueue]

@[simp] theorem State.installSlot_fab (s : State) (m : Image) (t n : Nat) (acc : Option Nat) : (s.installSlot m t n acc).fab = s.fab := by
  simp [State.installSlot]

@[simp] theorem State.installSite_fab (s : State) (t : Nat) : (s.installSite t).fab = s.fab := by
  have hqueues : ((List.range 64).foldl (fun s q => s.installQueue t q none) s).fab = s.fab :=
    fab_foldl _ _ s fun u q => u.installQueue_fab t q none
  unfold State.installSite
  extract_lets s1 s2
  have h2 : s2.fab = s.fab := (s1.modSite_fab t _).trans hqueues
  split
  · split
    · exact (fab_foldl _ _ s2 fun u n => u.installSlot_fab _ t n none).trans h2
    · exact h2
  · exact h2

@[simp] theorem State.installWindow_fab (s : State) (w : Nat) (acc : Option Nat) : (s.installWindow w acc).fab = s.fab := by
  simp [State.installWindow, fab_foldl]

/-- R320: sites and windows take their records without a change of the slots. -/
@[simp] theorem State.swapIn_fab (s : State) (old : Option Image) (new : Image) (keep : List Nat) : (s.swapIn old new keep).fab = s.fab := by
  unfold State.swapIn
  extract_lets mine sites s1
  have h1 : s1.fab = s.fab := fab_foldl _ _ s fun u t => u.installSite_fab t
  refine (fab_foldl _ _ s1 fun u w => ?_).trans h1
  split
  · rfl
  · exact u.installWindow_fab w none

@[simp] theorem State.scrubSite_fab (s : State) (t : Nat) : (s.scrubSite t).fab = s.fab := by
  unfold State.scrubSite
  split
  · exact s.modSec_fab _
  · exact fab_of_fabric (s.scrubBegin_fabric t)

@[simp] theorem State.zeroStart_fab (s : State) (u : Nat) : (s.zeroStart u).fab = s.fab := by
  simp [State.zeroStart, State.newEpoch, fab_foldl]

@[simp] theorem State.openJob_fab (s : State) (part : Option Nat) (sites units : List Nat) : (s.openJob part sites units).fab = s.fab := by
  unfold State.openJob
  dsimp only
  split
  · rfl
  · split
    · rw [State.setBit_fab, State.modSec_fab]
    · exact s.modSec_fab _

/-- R434: the scrubs at T leave the slots as they are. -/
@[simp] theorem State.swapScrub_fab (s : State) (old : Option Image) (new : Image) : (s.swapScrub old new).fab = s.fab := by
  unfold State.swapScrub
  extract_lets enters s1 units s2 s3 s4 s5 s6 s7
  have h1 : s1.fab = s.fab := fab_foldl _ _ s fun u t => by
    split
    · rw [State.modSec_fab, State.scrubSite_fab]
    · rfl
  have h3 : s3.fab = s1.fab := (fab_foldl _ _ s2 fun u k => u.setBit_fab _ _ _).trans (s1.modDram_fab _)
  have h4 : s4.fab = s3.fab := fab_foldl _ _ s3 fun u x => u.zeroStart_fab x
  have h5 : s5.fab = s4.fab := fab_foldl _ _ s4 fun u x => by split <;> simp
  have h7 : s7.fab = s5.fab := (s6.modSec_fab _).trans (fab_foldl _ _ s5 fun u i => u.setReg_fab _ _)
  have hjobs := fab_foldl (fun s p => s.openJob (some p) ((new.sitesOf p).filter fun t => s.sec.sites.contains t || s.sec.waiting.contains t)
    ((new.unitsOfPart p).filter s.dram.zeroing.contains)) new.partitions s7 fun u p => u.openJob_fab _ _ _
  exact hjobs.trans (h7.trans (h5.trans (h4.trans (h3.trans h1))))

end Sys2Proof.Machine
end

section
/-! PROOFS. The commands of the shadow slot and of the swap (R304, R316-R321). -/

namespace Sys2Proof.Machine

/-! ### Registers beside a pair and the slots -/

theorem State.fld_setReg64_ne (s : State) {a b : Nat} (hi lo n : Nat) (h : b ≠ a) (h' : b ≠ a + 4) :
    (s.setReg64 a n).fld b hi lo = s.fld b hi lo := by
  rw [State.fld, s.reg_setReg64_other n h h', State.fld]
theorem State.bit_setReg64_ne (s : State) {a b : Nat} (i n : Nat) (h : b ≠ a) (h' : b ≠ a + 4) :
    (s.setReg64 a n).bit b i = s.bit b i := by
  rw [State.bit, s.reg_setReg64_other n h h', State.bit]
theorem State.reg64_setReg_ne (s : State) {a b : Nat} (v : BitVec 32) (h : b ≠ a) (h' : b + 4 ≠ a) :
    (s.setReg a v).reg64 b = s.reg64 b := by
  rw [State.reg64, s.reg_setReg_other v h, s.reg_setReg_other v h', State.reg64]
theorem State.reg64_setFld_ne (s : State) {a b : Nat} (hi lo n : Nat) (h : b ≠ a) (h' : b + 4 ≠ a) :
    (s.setFld a hi lo n).reg64 b = s.reg64 b := s.reg64_setReg_ne _ h h'
theorem State.reg64_setReg64_ne (s : State) {a b : Nat} (n : Nat) (h : b + 4 < a ∨ a + 4 < b) :
    (s.setReg64 a n).reg64 b = s.reg64 b := by
  rw [State.setReg64, State.reg64_setReg_ne _ _ (by omega) (by omega), State.reg64_setReg_ne _ _ (by omega) (by omega)]

@[simp] theorem State.reg_modFab (s : State) (f : Fab → Fab) (a : Nat) : (s.modFab f).reg a = s.reg a := by unfold State.modFab; rfl
@[simp] theorem State.bit_modFab (s : State) (f : Fab → Fab) (a i : Nat) : (s.modFab f).bit a i = s.bit a i := by
  rw [State.bit, State.reg_modFab, State.bit]
@[simp] theorem State.modFab_fab (s : State) (f : Fab → Fab) : (s.modFab f).fab = f s.fab := by unfold State.modFab; rfl

@[simp] theorem State.takeLo_fab (s : State) (a : Nat) : (s.takeLo a).fab = s.fab := by unfold State.takeLo; rfl
@[simp] theorem State.reg_takeLo (s : State) (a b : Nat) : (s.takeLo a).reg b = s.reg b := by unfold State.takeLo; rfl
@[simp] theorem State.takeLo_armed (s : State) (a : Nat) : (s.takeLo a).armed = s.armed := by
  simp only [State.armed, State.bit, State.reg_takeLo]

/-! ### The parts of FAB_STATUS -/

theorem State.armed_setReg (s : State) {a : Nat} (v : BitVec 32) (h : R.FAB_STATUS ≠ a) : (s.setReg a v).armed = s.armed :=
  armed_of_fabric (s.setReg_fabric v h)
theorem State.armed_setReg64 (s : State) {a : Nat} (n : Nat) (h : R.FAB_STATUS ≠ a) (h' : R.FAB_STATUS ≠ a + 4) :
    (s.setReg64 a n).armed = s.armed := s.bit_setReg64_ne 5 n h h'
theorem State.shadowState_setReg64 (s : State) {a : Nat} (n : Nat) (h : R.FAB_STATUS ≠ a) (h' : R.FAB_STATUS ≠ a + 4) :
    (s.setReg64 a n).shadowState = s.shadowState := s.fld_setReg64_ne 1 0 n h h'
theorem State.shadowState_setReg (s : State) {a : Nat} (v : BitVec 32) (h : R.FAB_STATUS ≠ a) :
    (s.setReg a v).shadowState = s.shadowState := s.fld_setReg_ne 1 0 v h

/-- R303: the shadow's state reads as it was written, and its write leaves the armed bit. -/
theorem State.shadowState_setFld (s : State) {n : Nat} (h : n < 4) : (s.setFld R.FAB_STATUS 1 0 n).shadowState = n :=
  (s.fld_setFld_same R.FAB_STATUS 1 0 n (by omega) (by omega)).trans (Nat.mod_eq_of_lt h)
theorem State.armed_setFld_shadowState (s : State) (n : Nat) : (s.setFld R.FAB_STATUS 1 0 n).armed = s.armed :=
  s.bit_setFld_other R.FAB_STATUS 1 0 5 n (by omega) (by omega)
theorem State.armed_setFld_result (s : State) (n : Nat) : (s.setFld R.FAB_STATUS 23 16 n).armed = s.armed :=
  s.bit_setFld_other R.FAB_STATUS 23 16 5 n (by omega) (by omega)

/-- R318: what a disarming leaves. -/
theorem State.disarm_effect (s : State) {r : Nat} (hr : r < 256) :
    (s.disarm r).armed = false ∧ (s.disarm r).fld R.FAB_STATUS 23 16 = r ∧ (s.disarm r).fab = s.fab ∧
      (s.disarm r).shadowState = s.shadowState := by
  refine ⟨?armed, ?result, ?fab, ?shadow⟩ <;> unfold State.disarm
  case armed =>
    rw [State.armed, State.bit_setBit_ne _ _ _ _ (by decide), State.bit_setFld_other _ _ _ _ _ _ (by omega) (by omega),
      State.bit_setBit_same _ _ _ _ (by omega)]
  case result =>
    rw [State.fld_setBit_ne _ _ _ _ _ (by decide), State.fld_setFld_same _ _ _ _ _ (by omega) (by omega)]
    exact Nat.mod_eq_of_lt hr
  case fab => simp only [State.setBit_fab, State.setFld_fab]
  case shadow =>
    rw [State.shadowState, State.fld_setBit_ne _ _ _ _ _ (by decide), State.fld_setFld_other _ _ _ _ _ _ _ (by omega) (by omega) (by omega),
      State.fld_setBit_other _ _ _ _ _ _ (by omega) (by omega), State.shadowState]

/-! ### LOAD, DISCARD and CANCEL (R304, R318) -/

/-- R304, R371: the conditions under which a load is rejected. -/
theorem State.load_eq (s : State) : s.load =
    if s.shadowState = 1 ∨ s.armed = true ∨ s.swapping = true ∨ s.stage ≠ 5 then s.cmdReject
    else ((s.modFab fun f => { f with shadow := none, loading := some s.staged }).setFld R.FAB_STATUS 1 0 1).setReg64
      R.FAB_SHADOW_SERIAL_LO 0 := by
  simp [State.load, or_assoc]

/-- R304: the conditions under which a discard is rejected. -/
theorem State.discard_eq (s : State) : s.discard =
    if s.shadowState = 1 ∨ s.armed = true then s.cmdReject
    else ((s.modFab fun f => { f with shadow := none }).setFld R.FAB_STATUS 1 0 0).setReg64 R.FAB_SHADOW_SERIAL_LO 0 := by
  simp [State.discard]

/-- R303, R304: a change of the slots, with the shadow's state and serial. -/
theorem State.slots_effect (s : State) (f : Fab → Fab) {n : Nat} (serial : Nat) (hn : n < 4) :
    let u := ((s.modFab f).setFld R.FAB_STATUS 1 0 n).setReg64 R.FAB_SHADOW_SERIAL_LO serial
    u.shadowState = n ∧ u.fab = f s.fab ∧ u.reg64 R.FAB_SHADOW_SERIAL_LO = serial % 2 ^ 64 ∧ u.armed = s.armed := by
  refine ⟨?_, ?_, ?_, ?_⟩
  · rw [State.shadowState_setReg64 _ _ (by decide) (by decide), State.shadowState_setFld _ hn]
  · rw [State.setReg64_fab, State.setFld_fab, State.modFab_fab]
  · exact State.reg64_setReg64_same _ _ _
  · rw [State.armed_setReg64 _ _ (by decide) (by decide), State.armed_setFld_shadowState, State.armed, State.bit_modFab, State.armed]

section
variable {s : State} {a : Agent} (ha : s.Granted a R.FAB_CTL)
include ha

theorem load_does : Does (.load a) s s.load := devWrite_granted ha _
theorem discard_does : Does (.discard a) s s.discard := devWrite_granted ha _
theorem cancel_does : Does (.cancel a) s s.cancel := devWrite_granted ha _

end

/-! ### IMAGE_VALIDATION_DONE (R316) -/

/-- R316: the state after a validation that finds no error. -/
def State.imageValid (s : State) (img : Image) : State :=
  (((s.modFab fun f => { f with loading := none, shadow := some img }).setFld R.FAB_STATUS 1 0 2).setReg R.FAB_ERROR 0).setReg64
    R.FAB_SHADOW_SERIAL_LO img.serial

/-- R316: the state after a validation that finds an error. -/
def State.imageRefused (s : State) (e : ImageError) : State :=
  ((s.modFab fun f => { f with loading := none }).setFld R.FAB_STATUS 1 0 3).setReg R.FAB_ERROR
    (BitVec.ofNat 32 (65536 * e.index + e.section_ * 256 + e.code))

theorem imageValidationDone_valid {s : State} {img : Image} {ok : Bool} (hl : s.fab.loading = some (img, ok))
    (hv : s.validate img ok = none) : Does .imageValidationDone s (s.imageValid img) := by
  rw [Does, exec_imageValidationDone, execImageValidationDone, hl]
  dsimp only
  rw [hv]
  rfl

theorem imageValidationDone_refused {s : State} {img : Image} {ok : Bool} {e : ImageError} (hl : s.fab.loading = some (img, ok))
    (hv : s.validate img ok = some e) : Does .imageValidationDone s (s.imageRefused e) := by
  rw [Does, exec_imageValidationDone, execImageValidationDone, hl]
  dsimp only
  rw [hv]
  rfl

theorem State.imageValid_effect (s : State) (img : Image) :
    (s.imageValid img).shadowState = 2 ∧ (s.imageValid img).fab = { s.fab with loading := none, shadow := some img } ∧
      (s.imageValid img).reg R.FAB_ERROR = 0 ∧ (s.imageValid img).reg64 R.FAB_SHADOW_SERIAL_LO = img.serial % 2 ^ 64 := by
  unfold State.imageValid
  refine ⟨?_, ?_, ?_, State.reg64_setReg64_same _ _ _⟩
  · rw [State.shadowState_setReg64 _ _ (by decide) (by decide), State.shadowState_setReg _ _ (by decide),
      State.shadowState_setFld _ (by omega)]
  · rw [State.setReg64_fab, State.setReg_fab, State.setFld_fab, State.modFab_fab]
  · rw [State.reg_setReg64_other _ _ (by decide) (by decide), State.reg_setReg_same]

theorem State.imageRefused_effect (s : State) (e : ImageError) :
    (s.imageRefused e).shadowState = 3 ∧ (s.imageRefused e).fab = { s.fab with loading := none } ∧
      (s.imageRefused e).reg R.FAB_ERROR = BitVec.ofNat 32 (65536 * e.index + e.section_ * 256 + e.code) := by
  unfold State.imageRefused
  refine ⟨?_, ?_, State.reg_setReg_same _ _ _⟩
  · rw [State.shadowState_setReg _ _ (by decide), State.shadowState_setFld _ (by omega)]
  · rw [State.setReg_fab, State.setFld_fab, State.modFab_fab]

/-! ### ARM (R317) -/

/-- R317: the state in which arming is checked: the count is written whole. -/
def State.countWritten (s : State) (hi : BitVec 32) : State := (s.takeLo R.FAB_SWAP_AT_HI).setReg R.FAB_SWAP_AT_HI hi

@[simp] theorem State.countWritten_fab (s : State) (hi : BitVec 32) : (s.countWritten hi).fab = s.fab := by
  rw [State.countWritten, State.setReg_fab, State.takeLo_fab]
@[simp] theorem State.countWritten_armed (s : State) (hi : BitVec 32) : (s.countWritten hi).armed = s.armed := by
  rw [State.countWritten, State.armed_setReg _ _ (by decide), State.takeLo_armed]
theorem State.countWritten_count (s : State) (hi : BitVec 32) :
    (s.countWritten hi).reg64 R.FAB_SWAP_AT_LO = (s.reg R.FAB_SWAP_AT_LO).toNat + 2 ^ 32 * hi.toNat := by
  have hlo : (s.countWritten hi).reg R.FAB_SWAP_AT_LO = s.reg R.FAB_SWAP_AT_LO := by
    rw [State.countWritten, State.reg_setReg_other _ _ (by decide), State.reg_takeLo]
  have hhi : (s.countWritten hi).reg (R.FAB_SWAP_AT_LO + 4) = hi := State.reg_setReg_same _ R.FAB_SWAP_AT_HI hi
  rw [State.reg64, hlo, hhi]

/-- R317: the result and the error that arming leaves where a check fails. -/
def State.armFails (s : State) (code : Nat) (err : Option Nat) : State :=
  match err with
  | some e => (s.setFld R.FAB_STATUS 23 16 code).setReg R.FAB_ERROR (BitVec.ofNat 32 e)
  | none => s.setFld R.FAB_STATUS 23 16 code

/-- R317: the armed swap, before the tests that it aborts (R393). -/
def State.armedAt (s : State) (at_ : Nat) : State :=
  ((s.modFab fun f => { f with swapAt := at_, sampled := false }).setBit R.FAB_STATUS 5 true).setBit R.CAT_STATUS 4
    (s.cat.dirty && !s.cat.dirtyDead)

theorem State.armedAt_effect (s : State) (at_ : Nat) :
    (s.armedAt at_).armed = true ∧ (s.armedAt at_).fab = { s.fab with swapAt := at_, sampled := false } := by
  unfold State.armedAt
  refine ⟨?_, ?_⟩
  · rw [State.armed, State.bit_setBit_ne _ _ _ _ (by decide), State.bit_setBit_same _ _ _ _ (by omega)]
  · rw [State.setBit_fab, State.setBit_fab, State.modFab_fab]

theorem State.armFails_effect (s : State) (code : Nat) (err : Option Nat) :
    (s.armFails code err).fab = s.fab ∧ (s.armFails code err).armed = s.armed ∧
      (code < 256 → (s.armFails code err).fld R.FAB_STATUS 23 16 = code) ∧
      ∀ e, err = some e → (s.armFails code err).reg R.FAB_ERROR = BitVec.ofNat 32 e := by
  have hresult (h : code < 256) : (s.setFld R.FAB_STATUS 23 16 code).fld R.FAB_STATUS 23 16 = code :=
    (s.fld_setFld_same R.FAB_STATUS 23 16 code (by omega) (by omega)).trans (Nat.mod_eq_of_lt h)
  cases err with
  | none => exact ⟨State.setFld_fab _ _ _ _ _, s.armed_setFld_result code, hresult, nofun⟩
  | some e =>
    refine ⟨?_, ?_, fun h => ?_, fun e' he => ?_⟩
    · rw [State.armFails, State.setReg_fab, State.setFld_fab]
    · rw [State.armFails, State.armed_setReg _ _ (by decide), State.armed_setFld_result]
    · rw [State.armFails, State.fld_setReg_ne _ _ _ _ (by decide), hresult h]
    · rw [State.armFails, State.reg_setReg_same, Option.some.inj he]

theorem State.arm_of_failure {s : State} {hi : BitVec 32} {code : Nat} {err : Option Nat}
    (h : (s.countWritten hi).armFailure ((s.countWritten hi).reg64 R.FAB_SWAP_AT_LO) = some (code, err)) :
    s.arm hi = (s.countWritten hi).armFails code err := by
  rw [State.countWritten] at h
  rw [State.arm]
  dsimp only
  rw [h]
  rfl

/-- R317, R393: arming that passes its checks differs from the armed swap in the tests that it aborts. -/
theorem State.arm_fabric {s : State} {hi : BitVec 32}
    (h : (s.countWritten hi).armFailure ((s.countWritten hi).reg64 R.FAB_SWAP_AT_LO) = none) :
    (s.arm hi).fabric = ((s.countWritten hi).armedAt ((s.countWritten hi).reg64 R.FAB_SWAP_AT_LO)).fabric := by
  rw [State.countWritten] at h
  rw [State.arm]
  dsimp only
  rw [h]
  dsimp only
  split
  · exact State.armAborts_fabric _ _
  · rfl

/-! ### QUIESCE_SAMPLE (R321) -/

/-- R321: the sample of one partition. -/
def State.samplePart (s : State) (p : Nat) : State :=
  if s.fence p none == 0 then s else (s.setBit R.FAB_STATUS 7 true).fault 0x50 s.curatorSource (some p) []

@[simp] theorem State.samplePart_fab (s : State) (p : Nat) : (s.samplePart p).fab = s.fab := by
  unfold State.samplePart
  split
  · rfl
  · rw [State.fault_fab, State.setBit_fab]

theorem State.samplePart_unquiesced {s : State} {p : Nat} (h : s.fence p none ≠ 0) : (s.samplePart p).bit R.FAB_STATUS 7 = true := by
  rw [State.samplePart, if_neg (by simpa using h), State.bit, State.reg_fault_other _ _ _ _ _ (by decide), ← State.bit,
    State.bit_setBit_same _ _ _ _ (by omega)]

/-- R321: the sample goes over the partitions of the outgoing image that are not carried. -/
theorem State.quiesceSample_eq {s : State} {old new : Image} (hold : s.fab.active = some old) (hnew : s.fab.shadow = some new) :
    s.quiesceSample = ((old.partitions.filter fun p => !s.carried (some old) new p).foldl State.samplePart s).modFab fun f =>
      { f with sampled := true } := by
  unfold State.quiesceSample
  rw [hold, hnew]
  rfl

theorem State.quiesceSample_idle {s : State} (h : s.fab.active = none) :
    s.quiesceSample = s.modFab fun f => { f with sampled := true } := by
  unfold State.quiesceSample
  rw [h]

@[simp] theorem State.quiesceSample_fab (s : State) : s.quiesceSample.fab = { s.fab with sampled := true } := by
  cases hold : s.fab.active with
  | none => rw [State.quiesceSample_idle hold, State.modFab_fab]
  | some old =>
    cases hnew : s.fab.shadow with
    | none => unfold State.quiesceSample; rw [hold, hnew]; rfl
    | some new => rw [State.quiesceSample_eq hold hnew, State.modFab_fab, fab_foldl _ _ _ State.samplePart_fab]

theorem State.quiesceSample_unquiesced {s : State} {old new : Image} {p : Nat} (hold : s.fab.active = some old)
    (hnew : s.fab.shadow = some new) (hparts : old.partitions = [p]) (hcarried : s.carried (some old) new p = false)
    (hfence : s.fence p none ≠ 0) : s.quiesceSample.bit R.FAB_STATUS 7 = true := by
  rw [State.quiesceSample_eq hold hnew, State.bit_modFab, hparts]
  simpa [hcarried] using State.samplePart_unquiesced hfence

/-! ### SWAP and SWAP_END (R320) -/

/-- R408: the frames that wait for the ports change no register. -/
theorem State.reg_sendPeerIds (s : State) (a : Nat) : s.sendPeerIds.reg a = s.reg a :=
  foldl_leaves (State.reg · a) (fun u p => by split <;> rfl) _ s

@[simp] theorem State.sendPeerIds_fab (s : State) : s.sendPeerIds.fab = s.fab :=
  fab_foldl _ _ s fun u p => by split <;> simp

/-- R320: FAB_STATUS, CAT_STATUS and the serials at the end of the exchange. -/
def State.swapNoted (s : State) (shadow serial shadowSerial : Nat) : State :=
  ((((((s.setBit R.FAB_STATUS 5 false).setBit R.FAB_STATUS 6 true).setBit R.FAB_STATUS 4 true).setBit R.CAT_STATUS 4 false).setFld
    R.FAB_STATUS 1 0 shadow).setReg64 R.FAB_ACTIVE_SERIAL_LO serial).setReg64 R.FAB_SHADOW_SERIAL_LO shadowSerial

theorem State.swapNoted_effect (s : State) (shadow serial shadowSerial : Nat) :
    let u := s.swapNoted shadow serial shadowSerial
    u.fab = s.fab ∧ u.armed = false ∧ u.swapping = true ∧ u.reg64 R.FAB_ACTIVE_SERIAL_LO = serial % 2 ^ 64 := by
  refine ⟨?fab, ?armed, ?swapping, ?serial⟩ <;> unfold State.swapNoted
  case fab => simp only [State.setReg64_fab, State.setFld_fab, State.setBit_fab]
  case armed =>
    rw [State.armed_setReg64 _ _ (by decide) (by decide), State.armed_setReg64 _ _ (by decide) (by decide), State.armed_setFld_shadowState,
      State.armed, State.bit_setBit_ne _ _ _ _ (by decide), State.bit_setBit_other _ _ _ _ _ (by omega),
      State.bit_setBit_other _ _ _ _ _ (by omega), State.bit_setBit_same _ _ _ _ (by omega)]
  case swapping =>
    rw [State.swapping, State.bit_setReg64_ne _ _ _ (by decide) (by decide), State.bit_setReg64_ne _ _ _ (by decide) (by decide),
      State.bit_setFld_other _ _ _ _ _ _ (by omega) (by omega), State.bit_setBit_ne _ _ _ _ (by decide),
      State.bit_setBit_other _ _ _ _ _ (by omega), State.bit_setBit_same _ _ _ _ (by omega)]
  case serial => rw [State.reg64_setReg64_ne _ _ (by decide), State.reg64_setReg64_same]

/-- R320: at T the slots exchange, the swap is no longer armed but in progress, and the serials follow. -/
theorem State.swap_effect (s : State) (new : Image) :
    (s.swap new).fab.active = some new ∧ (s.swap new).fab.shadow = s.fab.active ∧ (s.swap new).armed = false ∧
      (s.swap new).swapping = true ∧ (s.swap new).reg64 R.FAB_ACTIVE_SERIAL_LO = new.serial % 2 ^ 64 := by
  unfold State.swap
  extract_lets s1 old keep s2 s3 cur c s4 s5 s6 s7 s8
  have hold : old = s.fab.active := by
    simp only [old, s1, apply_ite (fun u : State => u.fab.active), State.quiesceSample_fab, ite_self]
  have h5 : s5.fab = s3.fab := (State.swapScrub_fab _ _ _).trans (s4.swapIn_fab _ _ _)
  obtain ⟨hfab, harmed, hswapping, hserial⟩ :=
    s5.swapNoted_effect (if old.isSome then 2 else 0) new.serial ((old.map Image.serial).getD 0)
  have hreg (a : Nat) : s8.sendPeerIds.reg a = s8.reg a := s8.reg_sendPeerIds a
  refine ⟨?_, ?_, ?_, ?_, ?_⟩
  · rw [State.sendPeerIds_fab]; exact congrArg Fab.active (hfab.trans h5)
  · rw [State.sendPeerIds_fab]; exact (congrArg Fab.shadow (hfab.trans h5)).trans hold
  · rw [State.armed, State.bit, hreg]; exact harmed
  · rw [State.swapping, State.bit, hreg]; exact hswapping
  · rw [State.reg64, hreg, hreg]; exact hserial

theorem State.swapEnd_effect (s : State) (at_ : Nat) :
    let u := ((s.setBit R.FAB_STATUS 6 false).setReg64 R.FAB_LAST_SWAP_LO at_).setFld R.FAB_STATUS 23 16 1
    u.swapping = false ∧ u.fld R.FAB_STATUS 23 16 = 1 ∧ u.reg64 R.FAB_LAST_SWAP_LO = at_ % 2 ^ 64 ∧ u.fab = s.fab := by
  refine ⟨?_, ?_, ?_, ?_⟩
  · rw [State.swapping, State.bit_setFld_other _ _ _ _ _ _ (by omega) (by omega), State.bit_setReg64_ne _ _ _ (by decide) (by decide),
      State.bit_setBit_same _ _ _ _ (by omega)]
  · exact State.fld_setFld_same _ _ 23 16 1 (by omega) (by omega)
  · rw [State.reg64_setFld_ne _ _ _ _ (by decide) (by decide), State.reg64_setReg64_same]
  · rw [State.setFld_fab, State.setReg64_fab, State.setBit_fab]

/-! ### The obligation -/

/-- Settles O41, command by command: each answers a state named above, and the effect lemmas read the slots and FAB_STATUS off it. -/
theorem fabricLoads : Obligations.FabricLoads := by
  unfold Obligations.FabricLoads
  refine ⟨?slots, ?validation, ?arm, ?sample, ?swap, ?swapEnd⟩
  case slots =>
    intro s a ha
    have hload := load_does ha
    have hdiscard := discard_does ha
    have hcancel := cancel_does ha
    rw [s.load_eq] at hload
    rw [s.discard_eq] at hdiscard
    refine ⟨fun h => ?_, fun h => ?_, fun h => ?_, fun h => ?_, fun harmed htime => ?_, fun h => ?_⟩
    · rwa [if_pos h] at hload
    · rw [if_neg h] at hload
      obtain ⟨hstate, hfab, hserial, harmed⟩ := s.slots_effect (fun f => { f with shadow := none, loading := some s.staged }) 0
        (n := 1) (by omega)
      exact ⟨_, hload, hstate, hfab, hserial, harmed.trans (by simpa using fun ha => h (.inr (.inl ha)))⟩
    · rwa [if_pos h] at hdiscard
    · rw [if_neg h] at hdiscard
      obtain ⟨hstate, hfab, hserial, -⟩ := s.slots_effect (fun f => { f with shadow := none }) 0 (n := 0) (by omega)
      exact ⟨_, hdiscard, hstate, hfab, hserial⟩
    · rw [State.cancel, if_pos (by simp [harmed, htime])] at hcancel
      exact ⟨_, hcancel, s.disarm_effect (by omega)⟩
    · rwa [State.cancel, if_neg (by simpa [imp_iff_not_or] using h)] at hcancel
  case validation =>
    intro s img ok hl
    exact ⟨fun hv => ⟨_, imageValidationDone_valid hl hv, s.imageValid_effect img⟩,
      fun e hv => ⟨_, imageValidationDone_refused hl hv, s.imageRefused_effect e⟩⟩
  case arm =>
    intro s a hi ha v at_
    have hdoes : Does (.arm a hi) s (s.arm hi) := devWrite_granted ha _
    have hat : (s.countWritten hi).reg64 R.FAB_SWAP_AT_LO = at_ := s.countWritten_count hi
    refine ⟨fun h => ⟨_, hdoes, ?_⟩, fun code err h => ⟨_, hdoes, ?_⟩⟩
    · have hfabric := State.arm_fabric (hat.symm ▸ h)
      obtain ⟨harmed, hfab⟩ := (s.countWritten hi).armedAt_effect at_
      rw [hat] at hfabric
      exact ⟨(armed_of_fabric hfabric).trans harmed, by rw [fab_of_fabric hfabric, hfab, State.countWritten_fab]⟩
    · rw [State.arm_of_failure (hat.symm ▸ h)]
      have heffect := (s.countWritten hi).armFails_effect code err
      rwa [State.countWritten_fab, State.countWritten_armed] at heffect
  case sample =>
    intro s harmed hsampled htime
    exact ⟨_, when_true (by simp [harmed, hsampled, htime]), s.quiesceSample_fab, State.quiesceSample_idle, fun old new p =>
      State.quiesceSample_unquiesced⟩
  case swap =>
    intro s new hnew harmed htime
    have hdoes : Does .swap s (if s.bindingOk new then s.swap new else s.disarm 3) := by
      rw [Does, exec_swap, execSwap, hnew]
      exact when_true (by simp [harmed, htime])
    refine ⟨fun h => ?_, fun h => ?_⟩
    · rw [if_pos h] at hdoes
      exact ⟨_, hdoes, s.swap_effect new⟩
    · rw [if_neg (by simp [h])] at hdoes
      obtain ⟨hdisarmed, hresult, hfab, -⟩ := s.disarm_effect (r := 3) (by omega)
      exact ⟨_, hdoes, hfab, hdisarmed, hresult⟩
  case swapEnd =>
    intro s hswapping
    exact ⟨_, when_true hswapping, s.swapEnd_effect s.fab.swapAt⟩

end Sys2Proof.Machine
end

section
/-! PROOFS. Run-time claims, holds of sites and the publication of the catalogue (R33, R41-R43, R322). -/

namespace Sys2Proof.Machine

/-! ### Claims (R322) -/

@[simp] theorem State.claims_setClaimResult (s : State) (w r : Nat) : (s.setClaimResult w r).fab.claims = s.fab.claims := by
  rw [State.setClaimResult, State.modFab_fab]

@[simp] theorem State.claimResults_setClaimResult (s : State) (w r : Nat) :
    Map.get (fun _ => 0) (s.setClaimResult w r).fab.claimResults w = r := by
  rw [State.setClaimResult, State.modFab_fab]
  exact Map.get_set_same _ _ w r

theorem State.claimHolder_eq_none {s : State} {kind index : Nat} (h : Map.get (fun _ => 0) s.fab.claims (kind * 256 + index) = 0) :
    s.claimHolder kind index = none := by
  simp only [State.claimHolder, h]

theorem State.claimHolder_eq_some {s : State} {kind index w : Nat}
    (h : Map.get (fun _ => 0) s.fab.claims (kind * 256 + index) = w + 1) : s.claimHolder kind index = some w := by
  simp only [State.claimHolder, h]

theorem State.claim_effect (s : State) (w kind index : Nat) :
    let u := s.claim w kind index
    Map.get (fun _ => 0) u.fab.claimResults w = s.claimResult w kind index ∧
      (s.claimResult w kind index ≠ 0 → u.fab.claims = s.fab.claims) ∧
      (s.claimResult w kind index = 0 → s.owner kind index = none → u.claimHolder kind index = some w) := by
  unfold State.claim
  extract_lets r s1
  refine ⟨State.claimResults_setClaimResult _ _ _, fun hr => ?_, fun hr hfree => ?_⟩
  · have h1 : s1 = s := if_neg (by simp [r, hr])
    rw [State.claims_setClaimResult, h1]
  · refine State.claimHolder_eq_some ?_
    rw [State.claims_setClaimResult]
    simp only [s1, r, hr, hfree, Option.isNone_none, beq_self_eq_true, Bool.and_self, if_true, State.modFab_fab]
    exact Map.get_set_same _ _ _ _

theorem State.releaseClaim_of_held {s : State} {w kind index : Nat} (hc : claimable kind index = true)
    (hi : s.imageOwner kind index = none) (hh : s.claimHolder kind index = some w) :
    (s.releaseClaim w kind index).claimHolder kind index = none ∧
      Map.get (fun _ => 0) (s.releaseClaim w kind index).fab.claimResults w = 0 := by
  rw [State.releaseClaim, if_pos (by simp [hc, hi, hh])]
  refine ⟨State.claimHolder_eq_none ?_, State.claimResults_setClaimResult _ _ _⟩
  rw [State.claims_setClaimResult, State.modFab_fab]
  exact Map.get_erase_same _ _ _

theorem State.releaseClaim_of_not_held {s : State} {w kind index : Nat}
    (h : ¬(claimable kind index = true ∧ s.imageOwner kind index = none ∧ s.claimHolder kind index = some w)) :
    (s.releaseClaim w kind index).fab.claims = s.fab.claims ∧
      Map.get (fun _ => 0) (s.releaseClaim w kind index).fab.claimResults w = 2 := by
  rw [State.releaseClaim, if_neg (by simpa [and_assoc] using h)]
  exact ⟨State.claims_setClaimResult _ _ _, State.claimResults_setClaimResult _ _ _⟩

section
variable {s : State} {a : Agent} {kind index w : Nat} (hk : kind < 8) (hi : index < 256) (ha : s.OpenTo a) (hw : s.ownerOf a = some w)
include hk hi ha hw

theorem claim_does : Does (.claim a kind index) s (s.claim w kind index) := by
  rw [Does, exec_claim, execClaim, Nat.mod_eq_of_lt hk, Nat.mod_eq_of_lt hi, State.byClaimant, hw]
  exact openWrite_open ha _

theorem release_does : Does (.release a kind index) s (s.releaseClaim w kind index) := by
  rw [Does, exec_release, execRelease, Nat.mod_eq_of_lt hk, Nat.mod_eq_of_lt hi, State.byClaimant, hw]
  exact openWrite_open ha _

end

/-- R322, R413: the write of an agent that owns nothing, or that reaches nothing, is ignored. -/
theorem openWrite_byClaimant_ignored {s : State} {a : Agent} (h : s.ownerOf a = none ∨ s.vfOut a = true) (f : Nat → State) :
    s.openWrite a (s.byClaimant a f) = .next s := by
  rcases h with h | h
  · rw [State.byClaimant, h, State.openWrite, State.when, ite_self]
  · exact when_false (by simp [h])

/-! ### Changed entries of the catalogue -/

@[simp] theorem State.catDirty_dirty (s : State) (dead : Bool) : (s.catDirty dead).cat.dirty = true := by
  unfold State.catDirty
  dsimp only
  split <;> rfl

@[simp] theorem State.catDirty_underlying (s : State) (dead : Bool) : (s.catDirty dead).cat.underlying = s.cat.underlying := by
  unfold State.catDirty
  dsimp only
  split <;> rfl

theorem State.reg_catDirty_other (s : State) (dead : Bool) {a : Nat} (h : a ≠ R.CAT_STATUS) : (s.catDirty dead).reg a = s.reg a := by
  unfold State.catDirty
  dsimp only
  split
  · rw [State.reg_setBit_other _ _ _ h]; rfl
  · rfl

theorem State.dirty_setEntry {s : State} {t e : Nat} (h : e ≠ s.cat.tables.site t) (origin detail : Nat) :
    (s.setEntry t e origin detail).cat.dirty = true := by
  rw [State.setEntry, if_neg (by simpa using h)]
  exact State.catDirty_dirty _ _

theorem State.underlying_setEntry (s : State) (t e origin detail : Nat) :
    (s.setEntry t e origin detail).cat.underlying = s.cat.underlying := by
  unfold State.setEntry
  dsimp only
  split
  · rfl
  · rw [State.catDirty_underlying]

theorem State.reg_setEntry_other (s : State) (t e origin detail : Nat) {a : Nat} (h : a ≠ R.CAT_STATUS) :
    (s.setEntry t e origin detail).reg a = s.reg a := by
  unfold State.setEntry
  dsimp only
  split
  · rfl
  · rw [State.reg_catDirty_other _ _ h]; rfl

/-! ### HOLD and HOLD_RELEASE (R33) -/

/-- R33: a request is PENDING, with the underlying status that is kept from now on. -/
def State.requestPending (s : State) (underlying : List (Nat × Nat)) : State :=
  { s.setFld R.CAT_HOLD_RESULT 1 0 1 with cat := { s.cat with underlying := underlying } }

/-- R33: an accepted request: it is PENDING, and the site takes a status. -/
def State.statusRequested (s : State) (t status : Nat) (underlying : List (Nat × Nat)) : State :=
  (s.requestPending underlying).setEntry t (withStatus (s.cat.tables.site t) status 3) 4 0

theorem State.statusRequested_effect (s : State) (t : Nat) {status : Nat} (underlying : List (Nat × Nat)) (h : status < 4)
    (hne : status ≠ s.siteStatus t) :
    (s.statusRequested t status underlying).siteStatus t = status ∧
      (s.statusRequested t status underlying).fld R.CAT_HOLD_RESULT 1 0 = 1 ∧
      (s.statusRequested t status underlying).cat.dirty = true ∧ (s.statusRequested t status underlying).cat.underlying = underlying := by
  have hentry : withStatus (s.cat.tables.site t) status 3 ≠ (s.requestPending underlying).cat.tables.site t := fun he =>
    hne ((entryStatus_withStatus _ h).symm.trans (congrArg entryStatus he))
  refine ⟨?status, ?result, State.dirty_setEntry hentry _ _, State.underlying_setEntry _ _ _ _ _⟩
  case status => rw [State.siteStatus, State.statusRequested, State.site_setEntry, if_pos rfl, entryStatus_withStatus _ h]
  case result =>
    rw [State.fld, State.statusRequested, State.reg_setEntry_other _ _ _ _ _ (by decide)]
    exact s.fld_setFld_same R.CAT_HOLD_RESULT 1 0 1 (by omega) (by omega)

theorem State.holdRequest_pending {s : State} (h : s.fld R.CAT_HOLD_RESULT 1 0 = 1) (t : Nat) (hold : Bool) :
    s.holdRequest t hold = s.setBit R.CAT_HOLD_RESULT 8 true := by
  rw [State.holdRequest, if_pos (by simp [h])]

section
variable {s : State} {t : Nat} (ht : siteExists t = true) (hidle : s.fld R.CAT_HOLD_RESULT 1 0 ≠ 1)
include ht hidle

theorem State.holdRequest_hold (hgood : s.siteStatus t = 0 ∨ s.siteStatus t = 2) :
    s.holdRequest t true = s.statusRequested t 3 (Map.set (fun _ => 0) s.cat.underlying t (s.siteStatus t)) := by
  rw [State.holdRequest, if_neg (by simpa using hidle), if_neg (by rcases hgood with h | h <;> simp [ht, h])]
  rfl

theorem State.holdRequest_release (hheld : s.siteStatus t = 3) :
    s.holdRequest t false =
      s.statusRequested t (Map.get (fun _ => 0) s.cat.underlying t) (Map.erase t s.cat.underlying) := by
  rw [State.holdRequest, if_neg (by simpa using hidle), if_neg (by simp [ht, hheld])]
  rfl

end

/-! ### Publication (R41-R43) -/

/-- R262: the routes are rebuilt without a change of registers or catalogue. -/
theorem State.reg_rebuildRoutes (s : State) (a : Nat) : s.rebuildRoutes.reg a = s.reg a := by
  unfold State.rebuildRoutes
  dsimp only
  split <;> rfl
theorem State.rebuildRoutes_cat (s : State) : s.rebuildRoutes.cat = s.cat := by
  unfold State.rebuildRoutes
  dsimp only
  split <;> rfl

theorem State.setRails_cat (s : State) (ws : List Nat) (p : Nat) : (s.setRails ws p).cat = s.cat :=
  foldl_leaves State.cat (fun u _ => u.setReg_cat _ _) ws s

theorem State.reg_setRails (s : State) {ws : List Nat} (p : Nat) {a : Nat} (hws : ∀ w ∈ ws, w < 16) (ha : OffSupply a) :
    (s.setRails ws p).reg a = s.reg a :=
  List.foldlRecOn (motive := fun u : State => u.reg a = s.reg a) ws _ rfl fun u hu w hw =>
    (u.reg_setFld_other 9 0 _ fun h => onSupply_pwrRail (hws w hw) (by rwa [← h])).trans hu

/-- R344, R353: the rails of running and ramping wings move; no register outside the supply does. -/
theorem State.reg_moveRails (s : State) {a : Nat} (ha : OffSupply a) : s.moveRails.reg a = s.reg a := by
  have hwings (p : Nat → Bool) : ∀ w ∈ allWings.filter p, w < 16 := fun w hw => List.mem_range.mp (List.mem_filter.mp hw).1
  refine (State.reg_setRails _ _ (hwings _) ha).trans ?_
  split
  · rfl
  · exact s.reg_setRails _ (hwings _) ha
theorem State.moveRails_cat (s : State) : s.moveRails.cat = s.cat := by
  unfold State.moveRails
  rw [State.setRails_cat]
  split
  · rfl
  · exact s.setRails_cat _ _

/-- R43: the event record keeps the counts that it carried. -/
theorem State.guaranteeRecord_cat (s : State) (below : Bool) : ∃ last, (s.guaranteeRecord below).cat = { s.cat with lastBelow := last } := by
  unfold State.guaranteeRecord
  dsimp only
  split
  · split
    · exact ⟨s.cat.lastBelow, rfl⟩
    · exact ⟨_, by rw [State.curFault_cat]⟩
  · exact ⟨none, rfl⟩

theorem State.reg_guaranteeRecord (s : State) (below : Bool) {a : Nat} (ha : a ∉ ringRegs) :
    (s.guaranteeRecord below).reg a = s.reg a := by
  unfold State.guaranteeRecord
  dsimp only
  split
  · split
    · rfl
    · exact s.reg_fault_other _ _ _ _ ha
  · rfl

/-- R43, R262, R353: what follows a publication. -/
def State.publishFollows (s : State) (below : Bool) : State :=
  let s := (s.guaranteeRecord below).rebuildRoutes.moveRails
  if s.fld R.CAT_HOLD_RESULT 1 0 == 1 then s.setFld R.CAT_HOLD_RESULT 1 0 2 else s

theorem State.publishFollows_cat (s : State) (below : Bool) : ∃ last, (s.publishFollows below).cat = { s.cat with lastBelow := last } := by
  obtain ⟨last, hlast⟩ := s.guaranteeRecord_cat below
  refine ⟨last, ?_⟩
  simp only [State.publishFollows, apply_ite State.cat, State.setFld_eq, State.setReg_cat, State.moveRails_cat, State.rebuildRoutes_cat,
    hlast, ite_self]

theorem State.reg_publishFollows (s : State) (below : Bool) {a : Nat} (ha : OffSupply a)
    (hring : a ∉ ringRegs) (hhold : a ≠ R.CAT_HOLD_RESULT) :
    (s.publishFollows below).reg a = s.reg a := by
  simp only [State.publishFollows, apply_ite (State.reg · a), State.reg_setFld_other _ _ _ _ hhold, State.reg_moveRails _ ha,
    State.reg_rebuildRoutes, State.reg_guaranteeRecord _ _ hring, ite_self]

/-- R33: a pending request is done once the catalogue is published. -/
theorem State.hold_publishFollows {s : State} (below : Bool) (h : s.fld R.CAT_HOLD_RESULT 1 0 = 1) :
    (s.publishFollows below).fld R.CAT_HOLD_RESULT 1 0 = 2 := by
  unfold State.publishFollows
  extract_lets s1
  have h1 : s1.fld R.CAT_HOLD_RESULT 1 0 = 1 := by
    rw [State.fld, State.reg_moveRails _ (by decide), State.reg_rebuildRoutes, State.reg_guaranteeRecord _ _ (by decide)]
    exact h
  rw [if_pos (by simp [h1])]
  exact s1.fld_setFld_same R.CAT_HOLD_RESULT 1 0 2 (by omega) (by omega)

/-- R32: the words of a digest fill CAT_DIGEST alone. -/
theorem State.reg_digestWords (s : State) (word : Nat → BitVec 32) {a : Nat} (ha : a < 0x700010 ∨ 0x700040 ≤ a) :
    ((List.range 12).foldl (fun s i => s.setReg (R.CAT_DIGEST i) (word i)) s).reg a = s.reg a :=
  List.foldlRecOn (motive := fun u : State => u.reg a = s.reg a) (List.range 12) _ rfl fun u hu i hi => by
    have := List.mem_range.mp hi
    rw [State.reg_setReg_other _ _ (by simp only [R.CAT_DIGEST]; omega), hu]

/-- R41: the status bits of a publication. -/
def State.publishStatus (s : State) (below : Bool) : State :=
  ((s.setBit R.CAT_STATUS 2 below).setBit R.CAT_STATUS 0 true).setBit R.CAT_STATUS 4 false

/-- What the new status bits leave. -/
structure StatusPublished (s u : State) : Prop where
  cat : u.cat = s.cat
  time : u.time = s.time
  valid : u.bit R.CAT_STATUS 0 = true
  other : ∀ a, a ≠ R.CAT_STATUS → u.reg a = s.reg a

theorem State.publishStatus_effect (s : State) (below : Bool) : StatusPublished s (s.publishStatus below) := by
  unfold State.publishStatus
  refine ⟨?_, ?_, ?_, fun a ha => ?_⟩
  · simp only [State.setBit_eq, State.setFld_eq, State.setReg_cat]
  · simp only [State.setBit_eq, State.setFld_eq, State.setReg_time]
  · rw [State.bit_setBit_other _ _ _ _ _ (by omega), State.bit_setBit_same _ _ _ _ (by omega)]
  · rw [State.reg_setBit_other _ _ _ ha, State.reg_setBit_other _ _ _ ha, State.reg_setBit_other _ _ _ ha]

/-- R41: the base of buffer A or of buffer B. -/
def catBase (intoA : Bool) : BitVec 32 := if intoA then 0x80000 else 0xC0000

/-- R32: the registers name the published catalogue. -/
def State.publishRegs (s : State) (intoA : Bool) (p : CatPub) : State :=
  (List.range 12).foldl (fun s i => s.setReg (R.CAT_DIGEST i) (digestWord p.digest i))
    (((s.setReg R.CAT_BASE (catBase intoA)).setReg R.CAT_SIZE (BitVec.ofNat 32 (catLength p.tables))).setReg R.CAT_GEN (BitVec.ofNat 32 p.gen))

/-- What the registers of a publication leave. -/
structure RegsPublished (s u : State) (intoA : Bool) (p : CatPub) : Prop where
  cat : u.cat = s.cat
  time : u.time = s.time
  base : u.reg R.CAT_BASE = catBase intoA
  gen : u.reg R.CAT_GEN = BitVec.ofNat 32 p.gen
  other : ∀ a ∈ [R.CAT_STATUS, R.CAT_HOLD_RESULT], u.reg a = s.reg a

theorem State.publishRegs_effect (s : State) (intoA : Bool) (p : CatPub) : RegsPublished s (s.publishRegs intoA p) intoA p := by
  unfold State.publishRegs
  refine ⟨?_, ?_, ?_, ?_, fun a ha => ?_⟩
  · rw [foldl_leaves State.cat fun u i => u.setReg_cat _ _]; simp only [State.setReg_cat]
  · rw [foldl_leaves State.time fun u i => u.setReg_time _ _]; simp only [State.setReg_time]
  · rw [State.reg_digestWords _ _ (by decide), State.reg_setReg_other _ _ (by decide), State.reg_setReg_other _ _ (by decide),
      State.reg_setReg_same]
  · rw [State.reg_digestWords _ _ (by decide), State.reg_setReg_same]
  · simp only [List.mem_cons, List.not_mem_nil, or_false] at ha
    rcases ha with rfl | rfl <;>
      rw [State.reg_digestWords _ _ (by decide), State.reg_setReg_other _ _ (by decide), State.reg_setReg_other _ _ (by decide),
        State.reg_setReg_other _ _ (by decide)]

/-- R41: the catalogue's keeping after a publication: the published tables stand in the other buffer, and no change waits. -/
def Cat.publishedAs (c : Cat) (intoA : Bool) (p : CatPub) (now : Nat) : Cat :=
  { c with bufA := if intoA then some p else c.bufA, bufB := if intoA then c.bufB else some p,
           dirty := false, dirtyDead := false, lastPub := some now }

/-- R41, R42: a publication writes the tables to the buffer that is not in use, names it in the registers, and goes on with what follows. -/
theorem State.publish_eq (s : State) : ∃ (v : State) (p : CatPub), s.publish = v.publishFollows (belowGuarantee s.cat.tables) ∧
    p.tables = s.cat.tables ∧ v.cat = s.cat.publishedAs ((s.reg R.CAT_BASE).toNat != 0x80000) p s.time ∧
    v.reg R.CAT_BASE = catBase ((s.reg R.CAT_BASE).toNat != 0x80000) ∧ v.reg R.CAT_GEN = s.reg R.CAT_GEN + 2 ∧
    v.bit R.CAT_STATUS 0 = true ∧ v.reg R.CAT_HOLD_RESULT = s.reg R.CAT_HOLD_RESULT := by
  unfold State.publish
  extract_lets below s1 s2 status gen flags p toA cat3 buffer s6 s7 s8 regs stored flash s10 cat10 v _
  have hs : StatusPublished s status := s.publishStatus_effect below
  clear_value status
  have hb : (∀ a, buffer.reg a = status.reg a) ∧ buffer.time = status.time ∧ buffer.cat =
      { status.cat with bufA := if toA then some p else status.cat.bufA, bufB := if toA then status.cat.bufB else some p } := by
    simp only [buffer]; cases toA <;> exact ⟨fun _ => rfl, rfl, rfl⟩
  obtain ⟨hbreg, hbtime, hbcat⟩ := hb
  clear_value buffer
  have hr : RegsPublished buffer regs toA p := buffer.publishRegs_effect toA p
  have htoA : toA = ((s.reg R.CAT_BASE).toNat != 0x80000) := by simp only [toA, hs.other R.CAT_BASE (by decide)]
  have hgen : p.gen = (s.reg R.CAT_GEN).toNat + 2 := by simp only [p, gen, hs.other R.CAT_GEN (by decide)]
  clear_value regs
  have hv (a : Nat) : v.reg a = regs.reg a := by unfold State.reg; rfl
  have hvcat : v.cat = { regs.cat with dirty := false, dirtyDead := false, lastPub := some regs.time } := rfl
  refine ⟨v, p, rfl, congrArg Cat.tables hs.cat, ?cat, ?base, ?gen, ?status, ?hold⟩
  case cat =>
    rw [hvcat, hr.cat, hr.time, hbtime, hbcat, hs.cat, hs.time, htoA]
    rfl
  case base => rw [hv, hr.base, htoA]
  case gen => rw [hv, hr.gen, hgen, BitVec.ofNat_add, BitVec.ofNat_toNat, BitVec.setWidth_eq]; rfl
  case status => rw [State.bit, hv, hr.other _ (by simp), hbreg]; exact hs.valid
  case hold => rw [hv, hr.other _ (by simp), hbreg, hs.other _ (by decide)]

/-- R41: the catalogue that the base then names is the one just written. -/
theorem State.published_of_publishedAs {u : State} {c : Cat} {intoA : Bool} {p : CatPub} {now : Nat} {last : Option (List Nat)}
    (hbase : u.reg R.CAT_BASE = catBase intoA) (hcat : u.cat = { c.publishedAs intoA p now with lastBelow := last }) :
    u.published = some p := by
  unfold State.published
  rw [hbase, hcat]
  cases intoA <;> rfl

theorem catBase_of_base (base : BitVec 32) : catBase (base.toNat != 0x80000) = if base = 0x80000 then 0xC0000 else 0x80000 := by
  by_cases h : base = 0x80000
  · subst h; rfl
  · have hne : (base.toNat != 0x80000) = true := by simpa [BitVec.toNat_eq] using h
    rw [hne, if_neg h, catBase, if_pos rfl]

theorem State.publish_effect (s : State) :
    let u := s.publish
    u.cat.dirty = false ∧ u.cat.dirtyDead = false ∧ u.cat.lastPub = some s.time ∧ u.cat.tables = s.cat.tables ∧
      u.reg R.CAT_GEN = s.reg R.CAT_GEN + 2 ∧ u.bit R.CAT_STATUS 0 = true ∧
      (s.fld R.CAT_HOLD_RESULT 1 0 = 1 → u.fld R.CAT_HOLD_RESULT 1 0 = 2) ∧
      (u.reg R.CAT_BASE = if s.reg R.CAT_BASE = 0x80000 then 0xC0000 else 0x80000) ∧ u.published.map (·.tables) = some s.cat.tables := by
  obtain ⟨v, p, hpublish, hp, hcat, hbase, hgen, hstatus, hhold⟩ := s.publish_eq
  generalize belowGuarantee s.cat.tables = below at hpublish
  obtain ⟨last, hfollows⟩ := v.publishFollows_cat below
  rw [hcat] at hfollows
  have hreg {a : Nat} (ha : OffSupply a) (hring : a ∉ ringRegs) (hne : a ≠ R.CAT_HOLD_RESULT) :
      (v.publishFollows below).reg a = v.reg a := v.reg_publishFollows below ha hring hne
  have hbase' := (hreg (a := R.CAT_BASE) (by decide) (by decide) (by decide)).trans hbase
  rw [hpublish]
  refine ⟨?_, ?_, ?_, ?_, ?_, ?_, fun h => ?_, ?_, ?_⟩
  · rw [hfollows]; rfl
  · rw [hfollows]; rfl
  · rw [hfollows]; rfl
  · rw [hfollows]; rfl
  · rw [hreg (by decide) (by decide) (by decide), hgen]
  · rw [State.bit, hreg (by decide) (by decide) (by decide)]; exact hstatus
  · exact State.hold_publishFollows below (by rw [State.fld, hhold]; exact h)
  · rw [hbase', catBase_of_base]
  · rw [State.published_of_publishedAs hbase' hfollows]
    exact congrArg some hp

/-! ### CATALOGUE_PUBLISH (R42) -/

section
variable {s : State} (hdirty : s.cat.dirty = true) (hready : s.bit R.CAT_STATUS 0 = true) (hspacing : s.pubSpacing = true)
  (hcur : s.cur.restarting = false)
include hdirty hready hspacing hcur

/-- R42: which of its outcomes a publication that is due has. -/
theorem cataloguePublish_due : exec .cataloguePublish s =
    if s.armed = false then .next s.publish
    else if s.cat.dirtyDead = true then .next (if s.time ≤ s.fab.swapAt then s.publish.disarm 3 else s.publish)
    else .next (s.setBit R.CAT_STATUS 4 true) := by
  rw [exec_cataloguePublish, execCataloguePublish, if_pos (by simp [hdirty, hready, hspacing, hcur])]
  simp only [Bool.not_eq_true']

theorem cataloguePublish_unarmed (h : s.armed = false) : Does .cataloguePublish s s.publish := by
  rw [Does, cataloguePublish_due hdirty hready hspacing hcur, if_pos h]

theorem cataloguePublish_dead (h : s.armed = true) (hdead : s.cat.dirtyDead = true) :
    Does .cataloguePublish s (if s.time ≤ s.fab.swapAt then s.publish.disarm 3 else s.publish) := by
  rw [Does, cataloguePublish_due hdirty hready hspacing hcur, if_neg (by simp [h]), if_pos hdead]

theorem cataloguePublish_waits (h : s.armed = true) (hdead : s.cat.dirtyDead = false) :
    Does .cataloguePublish s (s.setBit R.CAT_STATUS 4 true) := by
  rw [Does, cataloguePublish_due hdirty hready hspacing hcur, if_neg (by simp [h]), if_neg (by simp [hdead])]

end

/-! ### The obligation -/

/-- Settles O42: the claims, the requests of holds and the publication each leave a state that the effect lemmas read. -/
theorem claimsAndCatalogue : Obligations.ClaimsAndCatalogue := by
  unfold Obligations.ClaimsAndCatalogue
  refine ⟨?claims, ?ignored, ?holds, ?due, State.publish_effect⟩
  case claims =>
    intro s a kind index w hk hi ha hw
    obtain ⟨hresult, hkept, htaken⟩ := s.claim_effect w kind index
    exact ⟨_, _, claim_does hk hi ha hw, release_does hk hi ha hw, hresult, hkept, htaken, State.releaseClaim_of_held,
      State.releaseClaim_of_not_held⟩
  case ignored =>
    intro s a kind index h
    exact ⟨openWrite_byClaimant_ignored h _, openWrite_byClaimant_ignored h _⟩
  case holds =>
    intro s a t ha ht
    have hold : Does (.hold a t) s (s.holdRequest t true) := devWrite_granted ha _
    have release : Does (.holdRelease a t) s (s.holdRequest t false) := devWrite_granted ha _
    refine ⟨fun hidle hgood => ?_, fun hidle hheld hunder => ?_, fun hpending => ?_⟩
    · rw [State.holdRequest_hold ht hidle hgood] at hold
      obtain ⟨hstatus, hresult, hdirty, hunder⟩ := s.statusRequested_effect t (status := 3)
        (Map.set (fun _ => 0) s.cat.underlying t (s.siteStatus t)) (by omega) (by omega)
      exact ⟨_, hold, hstatus, hresult, hdirty, by rw [hunder, Map.get_set_same]⟩
    · rw [State.holdRequest_release ht hidle hheld] at release
      obtain ⟨hstatus, hresult, hdirty, -⟩ := s.statusRequested_effect t (status := Map.get (fun _ => 0) s.cat.underlying t)
        (Map.erase t s.cat.underlying) (by omega) (by omega)
      exact ⟨_, release, hstatus, hresult, hdirty⟩
    · rw [State.holdRequest_pending hpending] at hold release
      exact ⟨hold, release⟩
  case due =>
    intro s hdirty hready hspacing hcur
    have hdead := cataloguePublish_dead hdirty hready hspacing hcur
    refine ⟨cataloguePublish_unarmed hdirty hready hspacing hcur, fun h hd htime => ?_, fun h hd htime => ?_,
      cataloguePublish_waits hdirty hready hspacing hcur⟩
    · simpa only [if_pos htime] using hdead h hd
    · simpa only [if_neg (Nat.not_le.mpr htime)] using hdead h hd

end Sys2Proof.Machine
end

section
/-! PROOFS. Sparse maps after several writes. -/

namespace Sys2Proof.Machine.Map

variable {α β : Type} [DecidableEq α] (d : Nat → α)

theorem get_foldl_set_ne (key : β → Nat) (val : β → α) {l : List β} {k : Nat} (h : ∀ i ∈ l, k ≠ key i) (m : List (Nat × α)) :
    get d (l.foldl (fun m i => set d m (key i) (val i)) m) k = get d m k :=
  List.foldlRecOn (motive := fun m' => get d m' k = get d m k) l _ rfl fun m' hm' i hi => (get_set_other d m' _ (h i hi)).trans hm'

theorem get_foldl_set_mem {key : β → Nat} (val : β → α) {l : List β} (hinj : ∀ i ∈ l, ∀ j ∈ l, key i = key j → i = j) {i : β}
    (hi : i ∈ l) (m : List (Nat × α)) : get d (l.foldl (fun m i => set d m (key i) (val i)) m) (key i) = val i := by
  obtain ⟨before, after, rfl⟩ := List.append_of_mem hi
  rw [List.foldl_append, List.foldl_cons]
  refine List.foldlRecOn (motive := fun m' => get d m' (key i) = val i) after _ (get_set_same d _ _ _) fun m' hm' j hj => ?_
  by_cases h : key i = key j
  · rw [hinj i hi j (by simp [hj]) h]
    exact get_set_same d m' _ _
  · exact (get_set_other d m' _ h).trans hm'

theorem get_setAll_out (vs : List α) {m : List (Nat × α)} {j k : Nat} (h : j < k ∨ k + vs.length ≤ j) :
    get d (setAll d m k vs) j = get d m j := by
  induction vs generalizing m k with
  | nil => rfl
  | cons v vs ih =>
    rw [List.length_cons] at h
    rw [setAll, ih (by omega), get_set_other d m v (by omega)]

theorem get_setAll_in (vs : List α) {m : List (Nat × α)} {i : Nat} (k : Nat) (h : i < vs.length) :
    get d (setAll d m k vs) (k + i) = vs[i] := by
  induction vs generalizing m k i with
  | nil => simp at h
  | cons v vs ih =>
    cases i with
    | zero => rw [setAll, get_setAll_out d vs (by omega), Nat.add_zero, get_set_same, List.getElem_cons_zero]
    | succ i =>
      rw [List.length_cons] at h
      rw [setAll, show k + (i + 1) = k + 1 + i by omega, ih (k + 1) (by omega), List.getElem_cons_succ]

end Sys2Proof.Machine.Map
end

section
/-! PROOFS. What stands at a site besides its registers, and which operations leave it; reads of tile registers after several writes. -/

namespace Sys2Proof.Machine

/-- What a site holds besides its registers and the windows of its statistics slots. -/
def State.beyondRegs (s : State) (t : Nat) : Site := { s.site t with regs := [], loHeld := [], qwin := [] }

section
variable {s u : State} {t : Nat} (h : u.beyondRegs t = s.beyondRegs t)
include h

theorem arr_of_beyondRegs : u.arr t = s.arr t := (congrArg Site.arr h :)
theorem taken_of_beyondRegs : (u.site t).taken = (s.site t).taken := (congrArg Site.taken h :)
theorem posted_of_beyondRegs : (u.site t).posted = (s.site t).posted := (congrArg Site.posted h :)

end

@[simp] theorem State.beyondRegs_setTreg (s : State) (t a : Nat) (v : BitVec 32) : (s.setTreg t a v).beyondRegs t = s.beyondRegs t := by
  simp [State.beyondRegs, State.setTreg]
@[simp] theorem State.beyondRegs_setTfld (s : State) (t a hi lo n : Nat) : (s.setTfld t a hi lo n).beyondRegs t = s.beyondRegs t :=
  s.beyondRegs_setTreg t a _
@[simp] theorem State.beyondRegs_setTbit (s : State) (t a i : Nat) (b : Bool) : (s.setTbit t a i b).beyondRegs t = s.beyondRegs t :=
  s.beyondRegs_setTreg t a _
@[simp] theorem State.beyondRegs_tbump (s : State) (t a n : Nat) : (s.tbump t a n).beyondRegs t = s.beyondRegs t :=
  s.beyondRegs_setTreg t a _
@[simp] theorem State.beyondRegs_tbump64 (s : State) (t a n : Nat) : (s.tbump64 t a n).beyondRegs t = s.beyondRegs t := by
  simp [State.tbump64, State.setTreg64]
@[simp] theorem State.beyondRegs_setQwin (s : State) (t q : Nat) (w : QWin) : (s.setQwin t q w).beyondRegs t = s.beyondRegs t := by
  simp [State.beyondRegs, State.setQwin]
@[simp] theorem State.beyondRegs_takeTlo (s : State) (t a : Nat) : (s.takeTlo t a).beyondRegs t = s.beyondRegs t := by
  simp [State.beyondRegs, State.takeTlo]
@[simp] theorem State.beyondRegs_tregWrite (s : State) (t a : Nat) (w : BitVec 32) : (s.tregWrite t a w).beyondRegs t = s.beyondRegs t := by
  unfold State.tregWrite
  split <;> simp
@[simp] theorem State.beyondRegs_arrCount (s : State) (t a n : Nat) : (s.arrCount t a n).beyondRegs t = s.beyondRegs t := by
  unfold State.arrCount
  split <;> simp

theorem State.beyondRegs_foldl {α : Type} {f : State → α → State} {t : Nat} (h : ∀ s a, (f s a).beyondRegs t = s.beyondRegs t) (l : List α)
    (s : State) : (l.foldl f s).beyondRegs t = s.beyondRegs t := foldl_leaves (·.beyondRegs t) h l s

@[simp] theorem State.arr_modArr (s : State) (t : Nat) (f : Arr → Arr) : (s.modArr t f).arr t = f (s.arr t) := by
  simp [State.arr, State.modArr]
@[simp] theorem State.site_modArr (s : State) (t : Nat) (f : Arr → Arr) :
    (s.modArr t f).site t = { s.site t with arr := f (s.arr t) } := s.site_modSite_same t _

/-! ### Tile registers -/

theorem State.treg_setTreg_ne (s : State) (t : Nat) {a b : Nat} (v : BitVec 32) (h : b ≠ a) : (s.setTreg t a v).treg t b = s.treg t b :=
  s.treg_setTreg_other v (.inr h)

@[simp] theorem State.treg_setQwin (s : State) (t q a : Nat) (w : QWin) : (s.setQwin t q w).treg t a = s.treg t a := by
  simp [State.treg, State.setQwin]
@[simp] theorem State.treg_takeTlo (s : State) (t a b : Nat) : (s.takeTlo t a).treg t b = s.treg t b := by
  simp [State.treg, State.takeTlo]

/-- R6: a write of a register leaves the others. -/
theorem State.treg_tregWrite_ne (s : State) (t : Nat) {a b : Nat} (w : BitVec 32) (h : b ≠ a) :
    (s.tregWrite t a w).treg t b = s.treg t b := by
  unfold State.tregWrite
  split
  · rw [State.treg_setTreg_ne _ _ _ h, State.treg_takeTlo]
  · rfl

/-- A fold of writes leaves the registers that it does not name. -/
theorem State.treg_foldl_setTreg_ne {α : Type} (t : Nat) (addr : α → Nat) (val : α → BitVec 32) {l : List α} {b : Nat}
    (h : ∀ i ∈ l, b ≠ addr i) (s : State) : (l.foldl (fun u i => u.setTreg t (addr i) (val i)) s).treg t b = s.treg t b :=
  List.foldlRecOn (motive := fun u : State => u.treg t b = s.treg t b) l _ rfl fun u hu i hi =>
    (u.treg_setTreg_ne t _ (h i hi)).trans hu

/-- A fold of writes at different registers leaves in each the value written there. -/
theorem State.treg_foldl_setTreg_mem {α : Type} (t : Nat) {addr : α → Nat} (hinj : Function.Injective addr) (val : α → BitVec 32)
    {l : List α} {i : α} (hi : i ∈ l) (s : State) :
    (l.foldl (fun u i => u.setTreg t (addr i) (val i)) s).treg t (addr i) = val i := by
  refine foldl_establishes (P := fun u => u.treg t (addr i) = val i) hi (fun u => u.treg_setTreg_same t _ _) (fun u j hu => ?_) s
  by_cases hj : i = j
  · exact hj ▸ u.treg_setTreg_same t _ _
  · exact (u.treg_setTreg_ne t _ fun h => hj (hinj h)).trans hu

end Sys2Proof.Machine
end

section
/-! PROOFS. The statistics slots (R96-R101): what a close and a clear leave in the registers of a slot, and that they change registers and
windows alone. -/

namespace Sys2Proof.Machine

/-! ### What stays -/

@[simp] theorem State.beyondRegs_qcount (s : State) (t q : Nat) (c : QCounts) : (s.qcount t q c).beyondRegs t = s.beyondRegs t := by
  unfold State.qcount
  dsimp only
  split <;> simp
@[simp] theorem State.beyondRegs_qcheck (s : State) (t q : Nat) : (s.qcheck t q).beyondRegs t = s.beyondRegs t := by
  unfold State.qcheck
  dsimp only
  split
  · split <;> simp
  · rfl
@[simp] theorem State.beyondRegs_qclearStep (s : State) (t q : Nat) : (s.qclearStep t q).beyondRegs t = s.beyondRegs t :=
  (State.beyondRegs_setQwin _ t q _).trans (State.beyondRegs_foldl (fun u a => u.beyondRegs_setTreg t a _) _ s)
@[simp] theorem State.beyondRegs_qclear (s : State) (t q : Nat) : (s.qclear t q).beyondRegs t = s.beyondRegs t := by
  simp [State.qclear, State.beyondRegs_foldl]
@[simp] theorem State.beyondRegs_qclose (s : State) (t q : Nat) (merge : BitVec 32) :
    (s.qclose t q merge).beyondRegs t = s.beyondRegs t := by
  unfold State.qclose
  extract_lets count clip a s1 s2 s3 share s4 h s5 s6
  have h2 : s2.beyondRegs t = s.beyondRegs t := by
    simp only [s2]
    split <;> simp [s1, State.beyondRegs_foldl]
  have h5 : s5.beyondRegs t = s4.beyondRegs t := by
    simp only [s5]
    split <;> simp
  simp [s6, h5, s4, s3, h2]
@[simp] theorem State.beyondRegs_qwrite (s : State) (t off : Nat) (w : BitVec 32) : (s.qwrite t off w).beyondRegs t = s.beyondRegs t := by
  have hclose (v : State) (merge : BitVec 32) : (if w.getLsbD 13 then v.qclose t ((off - 0x400) / 0x80) merge else v).beyondRegs t =
      v.beyondRegs t := by
    split <;> simp
  unfold State.qwrite
  dsimp only
  split
  · split <;> simp only [State.beyondRegs_qclear, hclose, State.beyondRegs_tregWrite]
  · split <;> simp
  · split <;> simp
  · split <;> simp
  · simp

/-- R99: at a boundary the held counts and writes take effect, and none is held any more. -/
theorem State.beyondRegs_qboundary (s : State) (t : Nat) :
    (s.qboundary t).beyondRegs t = { s.beyondRegs t with qvec := [], qcsr := [] } := by
  unfold State.qboundary
  extract_lets vs ws s1
  rw [State.beyondRegs_foldl (fun u e => u.beyondRegs_qwrite t _ _), State.beyondRegs_foldl (fun u e => u.beyondRegs_qcount t _ _)]
  simp only [State.beyondRegs, s1, State.site_modSite_same]
  rfl

/-! ### The registers of a slot -/

theorem injective_quantHist (q : Nat) : Function.Injective (R.QUANT_HIST q) := fun i j h => by
  simp only [R.QUANT_HIST] at h
  omega

/-- The registers in which a slot counts the running step. -/
def stepRegs (q : Nat) : List Nat :=
  [R.QUANT_STAT_COUNT_LO q, R.QUANT_STAT_COUNT_HI q, R.QUANT_STAT_CLIP_LO q, R.QUANT_STAT_CLIP_HI q, R.QUANT_STAT_UFLOW q,
    R.QUANT_STAT_NONFIN q, R.QUANT_STAT_SCALE_SAT q, R.QUANT_STAT_AMAX q]

theorem State.treg_qclearStep_mem (s : State) (t : Nat) {q a : Nat} (h : a ∈ stepRegs q) : (s.qclearStep t q).treg t a = 0 :=
  (State.treg_setQwin _ t q a _).trans (State.treg_foldl_setTreg_mem t Function.injective_id (fun _ => 0) h s)

theorem State.treg_qclearStep_ne (s : State) (t : Nat) {q a : Nat} (h : a ∉ stepRegs q) : (s.qclearStep t q).treg t a = s.treg t a :=
  (State.treg_setQwin _ t q a _).trans (State.treg_foldl_setTreg_ne t id (fun _ => 0) (fun _ hb => ne_of_mem_of_not_mem hb h |>.symm) s)

theorem notMem_stepRegs {q a : Nat} (h : a < R.QUANT_STAT_COUNT_LO q ∨ R.QUANT_STAT_AMAX q < a) : a ∉ stepRegs q := by
  simp only [stepRegs, List.mem_cons, List.not_mem_nil, or_false, R.QUANT_STAT_COUNT_LO, R.QUANT_STAT_COUNT_HI, R.QUANT_STAT_CLIP_LO,
    R.QUANT_STAT_CLIP_HI, R.QUANT_STAT_UFLOW, R.QUANT_STAT_NONFIN, R.QUANT_STAT_SCALE_SAT, R.QUANT_STAT_AMAX] at h ⊢
  omega

theorem scale_notMem_stepRegs (q : Nat) : R.QUANT_SCALE q ∉ stepRegs q :=
  notMem_stepRegs (.inl (by simp [R.QUANT_SCALE, R.QUANT_STAT_COUNT_LO]))

theorem steps_notMem_stepRegs (q : Nat) : R.QUANT_STAT_STEPS q ∉ stepRegs q :=
  notMem_stepRegs (.inr (by simp [R.QUANT_STAT_STEPS, R.QUANT_STAT_AMAX]))

theorem quantHist_ne_of_lt {q i a : Nat} (h : a < R.QUANT_HIST q 0) : R.QUANT_HIST q i ≠ a := by
  simp only [R.QUANT_HIST] at h ⊢
  omega

/-- R97: the slot has counted in the running step, whose maximum is amax. -/
abbrev State.QCounted (s : State) (t q : Nat) (amax : BitVec 32) : Prop := 0 < s.treg64 t (R.QUANT_STAT_COUNT_LO q) ∨ amax ≠ 0

/-! ### A close (R97) -/

/-- R97: the first part of a close: the merged amax is taken, and the maximum of the step enters the history and is latched. -/
def State.qlatch (s : State) (t q : Nat) (amax : BitVec 32) : State :=
  let v := s.setTreg t (R.QUANT_MERGE q) 0
  let v := if 0 < s.treg64 t (R.QUANT_STAT_COUNT_LO q) || amax != 0 then
      (List.range 16).foldl (fun (u : State) i =>
        u.setTreg t (R.QUANT_HIST q i) (if i = 0 then amax else v.treg t (R.QUANT_HIST q (i - 1)))) v
    else v
  v.setTreg t (R.QUANT_STAT_LAST_AMAX q) amax

/-- R97: the second part of a close: the share is latched, and in auto-scale mode the scale follows the history. -/
def State.qrescale (s : State) (t q share : Nat) : State :=
  let s := s.setTreg t (R.QUANT_STAT_LAST_SHARE q) (BitVec.ofNat 32 (min 65535 (s.qwin t q).raises * 65536 + share))
  let h := (List.range (s.tfld t (R.QUANT_CTL q) 4 1 + 1)).foldl (fun m i => maxBits m (s.treg t (R.QUANT_HIST q i))) 0
  if s.qauto t q && h != 0 && s.qscales t q then
    s.setTreg t (R.QUANT_SCALE q)
      (clampScale (s.qround t q (ratOf h * ratOf (s.treg t (R.QUANT_MARGIN q)) / s.qreach t q)))
  else s

theorem State.qclose_eq (s : State) (t q : Nat) (merge : BitVec 32) : ∃ share,
    let v := ((s.qlatch t q (maxBits (s.treg t (R.QUANT_STAT_AMAX q)) merge)).qrescale t q share).qclearStep t q
    s.qclose t q merge = v.setTreg t (R.QUANT_STAT_STEPS q) (v.treg t (R.QUANT_STAT_STEPS q) + 1) := ⟨_, rfl⟩

section
variable (s : State) (t q : Nat) (amax : BitVec 32)

theorem State.treg_qlatch_lastAmax : (s.qlatch t q amax).treg t (R.QUANT_STAT_LAST_AMAX q) = amax := State.treg_setTreg_same _ t _ _

theorem State.treg_qlatch_hist_of_counted (h : s.QCounted t q amax) : (s.qlatch t q amax).treg t (R.QUANT_HIST q 0) = amax ∧
    ∀ i, i < 15 → (s.qlatch t q amax).treg t (R.QUANT_HIST q (i + 1)) = s.treg t (R.QUANT_HIST q i) := by
  have hlast (i : Nat) : R.QUANT_HIST q i ≠ R.QUANT_STAT_LAST_AMAX q :=
    quantHist_ne_of_lt (by simp [R.QUANT_HIST, R.QUANT_STAT_LAST_AMAX])
  have hmerge (i : Nat) : R.QUANT_HIST q i ≠ R.QUANT_MERGE q := quantHist_ne_of_lt (by simp [R.QUANT_HIST, R.QUANT_MERGE])
  have hset (i : Nat) (hi : i < 16) : (s.qlatch t q amax).treg t (R.QUANT_HIST q i) =
      if i = 0 then amax else s.treg t (R.QUANT_HIST q (i - 1)) := by
    rw [State.qlatch, State.treg_setTreg_ne _ _ _ (hlast i), if_pos (by simpa [State.QCounted] using h),
      State.treg_foldl_setTreg_mem t (injective_quantHist q) _ (List.mem_range.mpr hi), State.treg_setTreg_ne _ _ _ (hmerge _)]
  exact ⟨hset 0 (by omega), fun i hi => hset (i + 1) (by omega)⟩

theorem State.treg_qlatch_hist_of_not_counted (h : ¬s.QCounted t q amax) (i : Nat) :
    (s.qlatch t q amax).treg t (R.QUANT_HIST q i) = s.treg t (R.QUANT_HIST q i) := by
  rw [State.qlatch, State.treg_setTreg_ne _ _ _ (quantHist_ne_of_lt (by simp [R.QUANT_HIST, R.QUANT_STAT_LAST_AMAX])),
    if_neg (by simpa [State.QCounted] using h), State.treg_setTreg_ne _ _ _ (quantHist_ne_of_lt (by simp [R.QUANT_HIST, R.QUANT_MERGE]))]

/-- Below the history a latch writes the merged amax and the last one alone. -/
theorem State.treg_qlatch_low {a : Nat} (h : a < R.QUANT_HIST q 0) (hlast : a ≠ R.QUANT_STAT_LAST_AMAX q) :
    (s.qlatch t q amax).treg t a = (s.setTreg t (R.QUANT_MERGE q) 0).treg t a := by
  rw [State.qlatch, State.treg_setTreg_ne _ _ _ hlast]
  split
  · exact State.treg_foldl_setTreg_ne t (R.QUANT_HIST q) _ (fun i _ => (quantHist_ne_of_lt h).symm) _
  · rfl

theorem State.treg_qrescale_ne (share : Nat) {a : Nat} (hshare : a ≠ R.QUANT_STAT_LAST_SHARE q) (hscale : a ≠ R.QUANT_SCALE q) :
    (s.qrescale t q share).treg t a = s.treg t a := by
  unfold State.qrescale
  extract_lets v h
  have hv : v.treg t a = s.treg t a := s.treg_setTreg_ne t _ hshare
  split
  · rw [State.treg_setTreg_ne _ _ _ hscale, hv]
  · exact hv

theorem State.treg_qrescale_scale (share : Nat) (hauto : s.qauto t q = false) :
    (s.qrescale t q share).treg t (R.QUANT_SCALE q) = s.treg t (R.QUANT_SCALE q) := by
  unfold State.qrescale
  extract_lets v h
  have hv {a : Nat} (ha : a ≠ R.QUANT_STAT_LAST_SHARE q) : v.treg t a = s.treg t a := s.treg_setTreg_ne t _ ha
  have hctl : v.qauto t q = false := by
    rw [State.qauto, State.tbit, hv (by simp [R.QUANT_CTL, R.QUANT_STAT_LAST_SHARE])]
    exact hauto
  rw [if_neg (by simp [hctl]), hv (by simp [R.QUANT_SCALE, R.QUANT_STAT_LAST_SHARE])]

end

/-- R97: what a close with the maximum amax makes of the registers of a slot. -/
structure SlotClosed (s u : State) (t q : Nat) (amax : BitVec 32) : Prop where
  lastAmax : u.treg t (R.QUANT_STAT_LAST_AMAX q) = amax
  merge : u.treg t (R.QUANT_MERGE q) = 0
  counts : ∀ a ∈ stepRegs q, u.treg t a = 0
  steps : u.treg t (R.QUANT_STAT_STEPS q) = s.treg t (R.QUANT_STAT_STEPS q) + 1
  pushed : s.QCounted t q amax → u.treg t (R.QUANT_HIST q 0) = amax ∧
    ∀ i, i < 15 → u.treg t (R.QUANT_HIST q (i + 1)) = s.treg t (R.QUANT_HIST q i)
  kept : ¬s.QCounted t q amax → ∀ i, u.treg t (R.QUANT_HIST q i) = s.treg t (R.QUANT_HIST q i)
  scale : s.qauto t q = false → u.treg t (R.QUANT_SCALE q) = s.treg t (R.QUANT_SCALE q)

theorem State.qclose_effect (s : State) (t q : Nat) (merge : BitVec 32) :
    SlotClosed s (s.qclose t q merge) t q (maxBits (s.treg t (R.QUANT_STAT_AMAX q)) merge) := by
  obtain ⟨share, heq⟩ := s.qclose_eq t q merge
  rw [heq]
  generalize maxBits (s.treg t (R.QUANT_STAT_AMAX q)) merge = amax
  have hlatched {a : Nat} (h : a = R.QUANT_STAT_LAST_AMAX q ∨ R.QUANT_MERGE q ≤ a) (v : BitVec 32) :
      ((((s.qlatch t q amax).qrescale t q share).qclearStep t q).setTreg t (R.QUANT_STAT_STEPS q) v).treg t a =
        (s.qlatch t q amax).treg t a := by
    have hends : R.QUANT_STAT_AMAX q < a ∧ a ≠ R.QUANT_STAT_STEPS q ∧ a ≠ R.QUANT_STAT_LAST_SHARE q ∧ a ≠ R.QUANT_SCALE q := by
      simp only [R.QUANT_STAT_LAST_AMAX, R.QUANT_MERGE, R.QUANT_STAT_AMAX, R.QUANT_STAT_STEPS, R.QUANT_STAT_LAST_SHARE, R.QUANT_SCALE] at h ⊢
      omega
    obtain ⟨hstep, hsteps, hshare, hscale⟩ := hends
    rw [State.treg_setTreg_ne _ _ _ hsteps, State.treg_qclearStep_ne _ _ (notMem_stepRegs (.inr hstep)),
      State.treg_qrescale_ne _ _ _ _ hshare hscale]
  have hhist (i : Nat) : R.QUANT_MERGE q ≤ R.QUANT_HIST q i := by
    simp only [R.QUANT_MERGE, R.QUANT_HIST]
    omega
  constructor
  case lastAmax => rw [hlatched (.inl rfl), s.treg_qlatch_lastAmax]
  case merge =>
    rw [hlatched (.inr (Nat.le_refl _)), s.treg_qlatch_low t q amax (by simp [R.QUANT_MERGE, R.QUANT_HIST])
      (by simp [R.QUANT_MERGE, R.QUANT_STAT_LAST_AMAX]), State.treg_setTreg_same]
  case counts =>
    intro a ha
    rw [State.treg_setTreg_ne _ _ _ (ne_of_mem_of_not_mem ha (steps_notMem_stepRegs q)), State.treg_qclearStep_mem _ _ ha]
  case steps =>
    rw [State.treg_setTreg_same, State.treg_qclearStep_ne _ _ (steps_notMem_stepRegs q),
      State.treg_qrescale_ne _ _ _ _ (by simp [R.QUANT_STAT_STEPS, R.QUANT_STAT_LAST_SHARE]) (by simp [R.QUANT_STAT_STEPS, R.QUANT_SCALE]),
      s.treg_qlatch_low t q amax (by simp [R.QUANT_STAT_STEPS, R.QUANT_HIST]) (by simp [R.QUANT_STAT_STEPS, R.QUANT_STAT_LAST_AMAX]),
      s.treg_setTreg_ne t _ (by simp [R.QUANT_STAT_STEPS, R.QUANT_MERGE])]
  case pushed =>
    intro h
    obtain ⟨hfirst, hnext⟩ := s.treg_qlatch_hist_of_counted t q amax h
    exact ⟨(hlatched (.inr (hhist 0)) _).trans hfirst, fun i hi => (hlatched (.inr (hhist _)) _).trans (hnext i hi)⟩
  case kept => exact fun h i => (hlatched (.inr (hhist i)) _).trans (s.treg_qlatch_hist_of_not_counted t q amax h i)
  case scale =>
    intro hauto
    have hlow {a : Nat} (ha : a < R.QUANT_STAT_LAST_AMAX q) : (s.qlatch t q amax).treg t a = s.treg t a := by
      have hmerge : a < R.QUANT_HIST q 0 ∧ a ≠ R.QUANT_MERGE q := by
        simp only [R.QUANT_STAT_LAST_AMAX, R.QUANT_HIST, R.QUANT_MERGE] at ha ⊢
        omega
      rw [s.treg_qlatch_low t q amax hmerge.1 (Nat.ne_of_lt ha), s.treg_setTreg_ne t _ hmerge.2]
    have hctl : (s.qlatch t q amax).qauto t q = false := by
      rw [State.qauto, State.tbit, hlow (by simp [R.QUANT_CTL, R.QUANT_STAT_LAST_AMAX])]
      exact hauto
    rw [State.treg_setTreg_ne _ _ _ (by simp [R.QUANT_SCALE, R.QUANT_STAT_STEPS]),
      State.treg_qclearStep_ne _ _ (scale_notMem_stepRegs q), State.treg_qrescale_scale _ _ _ _ hctl,
      hlow (by simp [R.QUANT_SCALE, R.QUANT_STAT_LAST_AMAX])]

/-! ### A clear (R101) -/

/-- R101: what a clear makes of the registers of a slot. -/
structure SlotCleared (s u : State) (t q : Nat) : Prop where
  counts : ∀ a ∈ stepRegs q, u.treg t a = 0
  steps : u.treg t (R.QUANT_STAT_STEPS q) = 0
  lastAmax : u.treg t (R.QUANT_STAT_LAST_AMAX q) = 0
  hist : ∀ i, i < 16 → u.treg t (R.QUANT_HIST q i) = 0
  scale : u.treg t (R.QUANT_SCALE q) = s.treg t (R.QUANT_SCALE q)

theorem State.qclear_effect (s : State) (t q : Nat) : SlotCleared s (s.qclear t q) t q := by
  have hends {a : Nat} (hsteps : a ≠ R.QUANT_STAT_STEPS q) (hshare : a ≠ R.QUANT_STAT_LAST_SHARE q)
      (hlast : a ≠ R.QUANT_STAT_LAST_AMAX q) : (s.qclear t q).treg t a =
        ((List.range 16).foldl (fun (s : State) i => s.setTreg t (R.QUANT_HIST q i) 0) (s.qclearStep t q)).treg t a := by
    rw [State.qclear, State.treg_setTreg_ne _ _ _ hsteps, State.treg_setTreg_ne _ _ _ hshare, State.treg_setTreg_ne _ _ _ hlast]
  have hlow {a : Nat} (ha : a < R.QUANT_STAT_LAST_AMAX q) : (s.qclear t q).treg t a = (s.qclearStep t q).treg t a := by
    have hne : a < R.QUANT_HIST q 0 ∧ a ≠ R.QUANT_STAT_STEPS q ∧ a ≠ R.QUANT_STAT_LAST_SHARE q := by
      simp only [R.QUANT_STAT_LAST_AMAX, R.QUANT_HIST, R.QUANT_STAT_STEPS, R.QUANT_STAT_LAST_SHARE] at ha ⊢
      omega
    obtain ⟨hhist, hsteps, hshare⟩ := hne
    rw [hends hsteps hshare (Nat.ne_of_lt ha)]
    exact State.treg_foldl_setTreg_ne t (R.QUANT_HIST q) (fun _ => 0) (fun i _ => (quantHist_ne_of_lt hhist).symm) _
  constructor
  case counts =>
    intro a ha
    have hle : a ≤ R.QUANT_STAT_AMAX q := Nat.le_of_not_lt fun h => notMem_stepRegs (.inr h) ha
    rw [hlow (Nat.lt_of_le_of_lt hle (by simp [R.QUANT_STAT_LAST_AMAX, R.QUANT_STAT_AMAX])), State.treg_qclearStep_mem _ _ ha]
  case steps => exact State.treg_setTreg_same _ _ _ _
  case lastAmax =>
    rw [State.qclear, State.treg_setTreg_ne _ _ _ (by simp [R.QUANT_STAT_LAST_AMAX, R.QUANT_STAT_STEPS]),
      State.treg_setTreg_ne _ _ _ (by simp [R.QUANT_STAT_LAST_AMAX, R.QUANT_STAT_LAST_SHARE]), State.treg_setTreg_same]
  case hist =>
    intro i hi
    rw [hends (quantHist_ne_of_lt (by simp [R.QUANT_HIST, R.QUANT_STAT_STEPS]))
      (quantHist_ne_of_lt (by simp [R.QUANT_HIST, R.QUANT_STAT_LAST_SHARE]))
      (quantHist_ne_of_lt (by simp [R.QUANT_HIST, R.QUANT_STAT_LAST_AMAX]))]
    exact State.treg_foldl_setTreg_mem t (injective_quantHist q) (fun _ => 0) (List.mem_range.mpr hi) _
  case scale =>
    rw [hlow (by simp [R.QUANT_SCALE, R.QUANT_STAT_LAST_AMAX]), s.treg_qclearStep_ne t (scale_notMem_stepRegs q)]

/-! ### A write of QUANT_CTL_Qn (R99, R101) -/

theorem quantCtl_auto : ∀ q < 8, (findReg tileRegDefs (R.QUANT_CTL q)).any (fun d => d.fields.contains ⟨0, 0, .rw, 0, []⟩) = true := by
  decide +kernel

/-- R6, R101: bit 0 of the register of a slot's control takes the value written. -/
theorem State.qauto_tregWrite (s : State) (t : Nat) {q : Nat} (hq : q < 8) (w : BitVec 32) :
    (s.tregWrite t (R.QUANT_CTL q) w).qauto t q = w.getLsbD 0 := by
  have hany := quantCtl_auto q hq
  rw [State.qauto, State.tbit, State.tregWrite]
  split
  next d hd =>
    rw [hd, Option.any_some, List.contains_iff_mem] at hany
    have hwf := wellFormed_of_mem_tileRegDefs d (List.mem_of_find?_eq_some hd)
    rw [State.treg_setTreg_same, hwf.getLsbD_write hany (by decide)]
    rfl
  next hd => simp [hd] at hany

theorem State.qwrite_ctl (s : State) (t q : Nat) (w : BitVec 32) :
    s.qwrite t (R.QUANT_CTL q) w =
      let v := s.tregWrite t (R.QUANT_CTL q) w
      let v := if w.getLsbD 13 then v.qclose t q (v.treg t (R.QUANT_MERGE q)) else v
      if w.getLsbD 14 then v.qclear t q else v := by
  have hslot : (R.QUANT_CTL q - 0x400) / 0x80 = q := by
    rw [R.QUANT_CTL, Nat.add_sub_cancel_left, Nat.mul_div_cancel_left q (by omega)]
  have hoff : (R.QUANT_CTL q - 0x400) % 0x80 = 0 := by
    rw [R.QUANT_CTL, Nat.add_sub_cancel_left, Nat.mul_mod_right]
  unfold State.qwrite
  rw [hslot]
  split
  case h_1 => rfl
  case h_5 h0 _ _ _ => exact absurd hoff h0
  all_goals omega

/-- R97: the write of close = 1 closes the slot with its merged amax. -/
theorem State.qwrite_close (s : State) (t : Nat) {q : Nat} (hq : q < 8) :
    SlotClosed s (s.qwrite t (R.QUANT_CTL q) (putBits (s.treg t (R.QUANT_CTL q)) 14 13 1)) t q
      (maxBits (s.treg t (R.QUANT_STAT_AMAX q)) (s.treg t (R.QUANT_MERGE q))) := by
  generalize hw : putBits (s.treg t (R.QUANT_CTL q)) 14 13 1 = w
  have hclose : w.getLsbD 13 = true := by rw [← hw, getLsbD_putBits _ _ _ _ _ (by omega)]; rfl
  have hclear : w.getLsbD 14 = false := by rw [← hw, getLsbD_putBits _ _ _ _ _ (by omega)]; rfl
  have hauto : (s.tregWrite t (R.QUANT_CTL q) w).qauto t q = s.qauto t q := by
    rw [s.qauto_tregWrite t hq, ← hw, putBits_outside _ _ _ _ _ (by omega) (by omega)]
    rfl
  rw [State.qwrite_ctl, hclose, hclear]
  simp only [if_true, Bool.false_eq_true, if_false]
  have hother {a : Nat} (ha : a ≠ R.QUANT_CTL q) : (s.tregWrite t (R.QUANT_CTL q) w).treg t a = s.treg t a :=
    s.treg_tregWrite_ne t w ha
  have hcount : (s.tregWrite t (R.QUANT_CTL q) w).treg64 t (R.QUANT_STAT_COUNT_LO q) = s.treg64 t (R.QUANT_STAT_COUNT_LO q) := by
    rw [State.treg64, State.treg64, hother (by simp [R.QUANT_CTL, R.QUANT_STAT_COUNT_LO]),
      hother (by simp only [R.QUANT_CTL, R.QUANT_STAT_COUNT_LO]; omega)]
  have hhist (i : Nat) : R.QUANT_HIST q i ≠ R.QUANT_CTL q := quantHist_ne_of_lt (by simp [R.QUANT_HIST, R.QUANT_CTL])
  have h := (s.tregWrite t (R.QUANT_CTL q) w).qclose_effect t q (s.treg t (R.QUANT_MERGE q))
  rw [hother (by simp [R.QUANT_CTL, R.QUANT_STAT_AMAX])] at h
  rw [hother (by simp [R.QUANT_CTL, R.QUANT_MERGE])]
  exact {
    lastAmax := h.lastAmax
    merge := h.merge
    counts := h.counts
    steps := h.steps.trans (by rw [hother (by simp [R.QUANT_CTL, R.QUANT_STAT_STEPS])])
    pushed := by simpa only [State.QCounted, hcount, hother (hhist _)] using h.pushed
    kept := by simpa only [State.QCounted, hcount, hother (hhist _)] using h.kept
    scale := by simpa only [hauto, hother (show R.QUANT_SCALE q ≠ R.QUANT_CTL q by simp [R.QUANT_CTL, R.QUANT_SCALE])] using h.scale }

/-- R101: the write of clear = 1 clears the slot. -/
theorem State.qwrite_clear (s : State) (t q : Nat) :
    SlotCleared s (s.qwrite t (R.QUANT_CTL q) (putBits (s.treg t (R.QUANT_CTL q)) 14 13 2)) t q := by
  generalize hw : putBits (s.treg t (R.QUANT_CTL q)) 14 13 2 = w
  have hclose : w.getLsbD 13 = false := by rw [← hw, getLsbD_putBits _ _ _ _ _ (by omega)]; rfl
  have hclear : w.getLsbD 14 = true := by rw [← hw, getLsbD_putBits _ _ _ _ _ (by omega)]; rfl
  rw [State.qwrite_ctl, hclose, hclear]
  have h := (s.tregWrite t (R.QUANT_CTL q) w).qclear_effect t q
  exact { h with scale := h.scale.trans (s.treg_tregWrite_ne t w (by simp [R.QUANT_CTL, R.QUANT_SCALE])) }

/-! ### The commands -/

/-- R440: a write at a site outside a pair, or of the twin itself, applies there alone. -/
theorem State.applied_alone {s : State} {a : Agent} {t : Nat} (h : s.twin t = none ∨ s.inside a t = true) (f : State → Nat → State) :
    s.applied a t f = f s t := by
  rcases h with h | h
  · simp [State.applied, State.both, h]
  · simp [State.applied, h]

section
variable {s : State} {a : Agent} {t q : Nat} (hreached : s.Reached a t) (hq : q < 8) (halone : s.twin t = none ∨ s.inside a t = true)
include hreached hq halone

theorem quantClose_does :
    Does (.quantClose a t q) s (s.quantCsr t (R.QUANT_CTL q) (putBits (s.treg t (R.QUANT_CTL q)) 14 13 1)) := by
  rw [Does, exec_quantClose, execQuantClose, Nat.mod_eq_of_lt hq, tileWrite_reached hreached, State.applied_alone halone]

theorem quantClear_does :
    Does (.quantClear a t q) s (s.quantCsr t (R.QUANT_CTL q) (putBits (s.treg t (R.QUANT_CTL q)) 14 13 2)) := by
  rw [Does, exec_quantClear, execQuantClear, Nat.mod_eq_of_lt hq, tileWrite_reached hreached, State.applied_alone halone]

end

/-- R99: with the Drain engine idle a write of a slot's register acts at once. -/
theorem State.quantCsr_idle {s : State} {t : Nat} (h : (s.site t).drains = []) (off : Nat) (w : BitVec 32) :
    s.quantCsr t off w = s.qwrite t off w := by
  simp [State.quantCsr, Site.drainIdle, h]

/-- R99: while operations are in work it waits for the boundary. -/
theorem State.site_quantCsr_busy {s : State} {t : Nat} (h : (s.site t).drains ≠ []) (off : Nat) (w : BitVec 32) :
    (s.quantCsr t off w).site t = { s.site t with qcsr := (s.site t).qcsr ++ [(off, w)] } := by
  simp [State.quantCsr, Site.drainIdle, h]

theorem treg64_count_of_counts {u : State} {t q : Nat} (h : ∀ a ∈ stepRegs q, u.treg t a = 0) :
    u.treg64 t (R.QUANT_STAT_COUNT_LO q) = 0 := by
  have hhi : R.QUANT_STAT_COUNT_LO q + 4 = R.QUANT_STAT_COUNT_HI q := by
    simp only [R.QUANT_STAT_COUNT_LO, R.QUANT_STAT_COUNT_HI]
    omega
  rw [State.treg64, hhi, h _ (by simp [stepRegs]), h _ (by simp [stepRegs])]
  rfl

end Sys2Proof.Machine
end

section
/-! PROOFS. The feeder, the loader, the entry of a slot and the write of a row (R49, R51, R53, R137): what each makes of the array and of the
requests of its site. -/

namespace Sys2Proof.Machine

/-! ### Reads of the feeder and the loader (R53, R137) -/

@[simp] theorem State.reqs_modArr (s : State) (t : Nat) (f : Arr → Arr) : ((s.modArr t f).site t).reqs = (s.site t).reqs := by simp

section
variable {α : Type} (t : Nat) (g : α → VitReq) (l : List α) (s : State)

/-- Requests presented one after the other wait in their order behind those that waited. -/
theorem State.reqs_foldl_present : ((l.foldl (fun s a => s.present t (g a)) s).site t).reqs = (s.site t).reqs ++ l.map g := by
  induction l generalizing s with
  | nil => simp
  | cons a l ih =>
    have hone : ((s.present t (g a)).site t).reqs = (s.site t).reqs ++ [g a] := by simp [State.present]
    rw [List.foldl_cons, ih, hone, List.append_assoc, List.singleton_append, List.map_cons]

theorem State.arr_foldl_present : (l.foldl (fun s a => s.present t (g a)) s).arr t = s.arr t :=
  foldl_leaves (·.arr t) (fun s a => by simp [State.arr, State.present]) l s

end

/-- R137: the feeder asks for its next unit, and for block-scale lines of the pass. -/
theorem State.feederRead_eq {s : State} {t c : Nat} {p : Pass} (hnext : (s.arr t).nextUnit = some (p, c))
    (hready : (s.site t).feederReady = true) : ∃ scales : List Nat,
      let lines := coverLines (p.unitBytesOf c)
      s.feederRead t = scales.foldl (fun s l => s.present t (readReq 1 (.scale p.id l) (128 * l) 128))
        ((List.range lines.length).foldl (fun s k =>
            s.present t (readReq 0 (.stream p.id c k) (lines.getD k (0, 0)).1 (lines.getD k (0, 0)).2))
          (s.modArr t fun a => { a with feeder := a.feeder ++
            [{ pass := p.id, index := c, span := 1, pieces := lines.length, got := [], crossing := 1 < lines.length, paid := false }] })) := by
  have hnext' : (s.site t).arr.nextUnit = some (p, c) := hnext
  unfold State.feederRead
  simp only [hnext', hready, Bool.not_true, Bool.false_eq_true, if_false]
  exact ⟨_, rfl⟩

theorem streamUnitRead_effect {s : State} {t c : Nat} {p : Pass} (hnext : (s.arr t).nextUnit = some (p, c))
    (hroom : (s.arr t).feeder.length < 8) (hport : ∀ r ∈ (s.site t).reqs, r.port ≠ 0) :
    let lines := coverLines (p.unitBytesOf c)
    ∃ u : State, Does (.streamUnitRead t) s u ∧ (u.arr t).feeder = (s.arr t).feeder ++
        [{ pass := p.id, index := c, span := 1, pieces := lines.length, got := [], crossing := 1 < lines.length, paid := false }] ∧
      ∃ scales : List VitReq, (∀ r ∈ scales, r.port = 1 ∧ ∃ l, r.user = .scale p.id l) ∧ (u.site t).reqs = (s.site t).reqs ++
        ((List.range lines.length).map fun k => readReq 0 (.stream p.id c k) (lines.getD k (0, 0)).1 (lines.getD k (0, 0)).2) ++ scales := by
  have hready : (s.site t).feederReady = true := by
    have hnone : ((s.site t).reqs.any fun r => r.port == 0) = false := by simpa using hport
    have hroom' : (s.site t).arr.feeder.length < 8 := hroom
    simp [Site.feederReady, hnone, hroom']
  obtain ⟨scales, heq⟩ := State.feederRead_eq hnext hready
  refine ⟨s.feederRead t, rfl, ?_, scales.map fun l => readReq 1 (.scale p.id l) (128 * l) 128, ?_, ?_⟩
  · rw [heq, State.arr_foldl_present, State.arr_foldl_present, State.arr_modArr]
  · intro r hr
    obtain ⟨l, -, rfl⟩ := List.mem_map.mp hr
    exact ⟨rfl, l, rfl⟩
  · rw [heq, State.reqs_foldl_present, State.reqs_foldl_present, State.reqs_modArr]

theorem loaderRowRead_effect {s : State} {t j : Nat} {p : Pass} (hnext : (s.arr t).nextRow = some (p, j))
    (hfree : (s.arr t).rowFree p j = true) :
    ∃ u : State, Does (.loaderRowRead t) s u ∧ (u.site t).reqs = (s.site t).reqs ++ p.rowReads j ∧ (u.arr t).staging = (s.arr t).staging ++
      [{ pass := p.id, index := j, span := p.rowSpan, pieces := (p.rowReads j).length, got := [], crossing := false, paid := false }] := by
  have heq : s.loaderRead t = (p.rowReads j).foldl (fun s r => s.present t (id r)) (s.modArr t fun a => { a with staging := a.staging ++
      [{ pass := p.id, index := j, span := p.rowSpan, pieces := (p.rowReads j).length, got := [], crossing := false, paid := false }] }) := by
    rw [State.loaderRead, hnext]
    simp only [hfree, Bool.not_true, Bool.false_eq_true, if_false, id]
  refine ⟨s.loaderRead t, rfl, ?_, ?_⟩
  · rw [heq, State.reqs_foldl_present, State.reqs_modArr, List.map_id]
  · rw [heq, State.arr_foldl_present, State.arr_modArr]

/-! ### A slot enters (R49) -/

/-- R65: the code that ENG_ARR_STATE shows of a verb. -/
def verbCode : Num.Verb → Nat
  | .mac => 0 | .sad => 1 | .ssd => 2 | .minplus => 3 | .maxplus => 4 | .eqcount => 5 | .xnorpop => 6 | .maxmul => 7

theorem verbCode_lt (v : Num.Verb) : verbCode v < 8 := by cases v <;> decide
theorem verbOf_verbCode (v : Num.Verb) : Num.verbOf (verbCode v) = some v := by cases v <;> rfl

@[simp] theorem State.arr_setTreg (s : State) (t a : Nat) (v : BitVec 32) : (s.setTreg t a v).arr t = s.arr t :=
  arr_of_beyondRegs (s.beyondRegs_setTreg t a v)
@[simp] theorem State.arr_setTfld (s : State) (t a hi lo n : Nat) : (s.setTfld t a hi lo n).arr t = s.arr t := s.arr_setTreg t a _
@[simp] theorem State.arr_arrCount (s : State) (t a n : Nat) : (s.arrCount t a n).arr t = s.arr t :=
  arr_of_beyondRegs (s.beyondRegs_arrCount t a n)

/-- R49: what the array becomes as slot 0 of a pass enters. -/
def Arr.startPass (a : Arr) (p : Pass) (d : SlotData) : Arr :=
  let a := a.setPass { p with entered := 1, units := p.units ++ [d] }
  let a := if p.reload then a.invert 0 else a
  { a with feeder := a.feeder.filter (fun u => !(u.pass == p.id && u.index == 0)),
           scaleBytes := if 1 == p.slots then a.scaleBytes.filter (fun b => b.1 != p.id) else a.scaleBytes }

theorem State.enterSlot_first (s : State) (t : Nat) {p : Pass} (h : p.entered = 0) :
    (s.enterSlot t p).arr t = (s.arr t).startPass p ((s.site t).expandSlot p 0).1 ∧
      ∃ v : State, s.enterSlot t p = v.setTfld t R.ENG_ARR_STATE 10 4 (p.mm.paired.toNat * 64 + p.mm.fold * 16 + verbCode p.mm.verb) := by
  unfold State.enterSlot
  extract_lets x c e s1 s2 s3 verb
  have hc : c = 0 := h
  have h3 : s3.arr t = s2.arr t := by
    simp only [s3]
    split <;> simp
  have hverb : verb = verbCode p.mm.verb := by
    simp only [verb]
    cases p.mm.verb <;> rfl
  rw [if_neg (by simp [hc])]
  refine ⟨?_, s3, by rw [hverb]⟩
  rw [State.arr_setTfld, h3]
  simp only [s2, s1, State.arr_arrCount, State.arr_modArr, e, hc]
  rfl

/-- The pass p stands in the place of the pass of its number. -/
def replacePass (l : List Pass) (p : Pass) : List Pass := l.map fun q => if q.id = p.id then p else q

theorem Arr.setPass_eq (a : Arr) (p : Pass) : a.setPass p = { a with passes := replacePass a.passes p } := by
  simp [Arr.setPass, replacePass]

section
variable (a : Arr) (p : Pass) (d : SlotData)

theorem Arr.passes_startPass : (a.startPass p d).passes = replacePass a.passes { p with entered := 1, units := p.units ++ [d] } := by
  unfold Arr.startPass
  cases p.reload <;> simp [Arr.invert, Arr.setPass_eq]

theorem Arr.feeder_startPass : (a.startPass p d).feeder = a.feeder.filter fun u => !(u.pass == p.id && u.index == 0) := by
  unfold Arr.startPass
  cases p.reload <;> rfl

/-- R49: the tag of a pass that reloads reaches cell (0, 0) with slot 0. -/
theorem Arr.select_startPass : (a.startPass p d).select = if p.reload then a.select ^^^ 1#1024 else a.select := by
  unfold Arr.startPass
  cases p.reload
  · rfl
  · exact congrArg (a.select ^^^ ·) (BitVec.shiftLeft_zero _)

end

theorem passStart_effect {s : State} {t : Nat} {p : Pass} (hentering : (s.arr t).entering = some p) (hbusy : (s.arr t).busy = true)
    (hfirst : p.entered = 0) (hfreeze : (s.site t).freeze = .none) (hfold : p.mm.fold < 4) :
    ∃ u : State, Does (.passStart t) s u ∧
      (u.arr t).passes = replacePass (s.arr t).passes { p with entered := 1, units := p.units ++ [((s.site t).expandSlot p 0).1] } ∧
      (u.arr t).feeder = ((s.arr t).feeder.filter fun x => !(x.pass == p.id && x.index == 0)) ∧
      (u.arr t).select = (if p.reload then (s.arr t).select ^^^ 1#1024 else (s.arr t).select) ∧
      u.tfld t R.ENG_ARR_STATE 10 4 = p.mm.paired.toNat * 64 + p.mm.fold * 16 + verbCode p.mm.verb := by
  obtain ⟨harr, v, hstate⟩ := s.enterSlot_first t hfirst
  refine ⟨s.enterSlot t p, ?_, ?_, ?_, ?_, ?_⟩
  · rw [Does, exec_passStart, execPassStart, hentering]
    exact when_true (by simp [hbusy, hfirst, hfreeze])
  · rw [harr, Arr.passes_startPass]
  · rw [harr, Arr.feeder_startPass]
  · rw [harr, Arr.select_startPass]
  · have hverb := verbCode_lt p.mm.verb
    have hpaired := Bool.toNat_lt p.mm.paired
    rw [hstate, State.tfld_setTfld_same _ _ _ _ _ _ (by omega) (by omega), Nat.mod_eq_of_lt (by omega)]

/-! ### A row is written (R45, R51) -/

/-- The place of the unselected register of the cell in row j and column n. -/
def Arr.shadowKey (a : Arr) (j n : Nat) : Nat := 1024 * (1 - a.selected (32 * j + n)) + 32 * j + n

/-- The cells of a row have different registers. -/
theorem Arr.eq_of_shadowKey (a : Arr) {j m n : Nat} (hm : m < 32) (hn : n < 32) (h : a.shadowKey j m = a.shadowKey j n) : m = n := by
  simp only [Arr.shadowKey] at h
  omega

theorem Arr.load_eq (a : Arr) (j : Nat) (row : List (Option (BitVec 16))) :
    a.load j row = { a with
      plinths := (List.range 32).foldl (fun m n => Map.set (fun _ => none) m (a.shadowKey j n) (row.getD n none)) a.plinths } := by
  have hfold (l : List Nat) (m : List (Nat × Option (BitVec 16))) : l.foldl (fun a n =>
        { a with plinths := Map.set (fun _ => none) a.plinths (1024 * (1 - a.selected (32 * j + n)) + 32 * j + n) (row.getD n none) })
      { a with plinths := m } =
        { a with plinths := l.foldl (fun m n => Map.set (fun _ => none) m (a.shadowKey j n) (row.getD n none)) m } := by
    induction l generalizing m with
    | nil => rfl
    | cons n l ih => exact ih _
  exact hfold _ a.plinths

theorem Arr.passes_load (a : Arr) (j : Nat) (row : List (Option (BitVec 16))) : (a.load j row).passes = a.passes := by
  rw [Arr.load_eq]

/-- R49: a step of the tags inverts select bits and changes nothing else. -/
theorem Arr.moveTags_eq (a : Arr) : ∃ select moved, a.moveTags = { a with select := select, moved := moved } := by
  have hfold (l : List (Nat × Nat)) : ∃ select, l.foldl (fun a e => a.invert (32 * e.1 + e.2)) a = { a with select := select } :=
    List.foldlRecOn (motive := fun b : Arr => ∃ select, b = { a with select := select }) l _ ⟨_, rfl⟩ fun b hb e _ => by
      obtain ⟨select, rfl⟩ := hb
      exact ⟨_, rfl⟩
  unfold Arr.moveTags
  split
  · exact ⟨_, _, rfl⟩
  · extract_lets cells
    obtain ⟨select, h⟩ := hfold cells
    exact ⟨select, true, congrArg (fun b : Arr => { b with moved := true }) h⟩

theorem State.arr_writeRow (s : State) (t : Nat) (p : Pass) (j : Nat) :
    let v := (s.arr t).moveTags
    ∃ staging, (s.writeRow t p j).arr t = { v.load j ((s.site t).expandRow p j).1 with
      passes := replacePass v.passes { p with wrote := j + 1 }, staging := staging } := by
  unfold State.writeRow
  extract_lets v x e s1
  rw [State.arr_arrCount, State.arr_arrCount, State.arr_modArr]
  exact ⟨_, by rw [Arr.setPass_eq, Arr.passes_load]⟩

theorem stationaryRowWrite_effect {s : State} {t j : Nat} {p : Pass} (hloading : (s.arr t).loading = some (p, j))
    (hbusy : (s.arr t).busy = true) (hfreeze : (s.site t).freeze = .none) :
    let v := (s.arr t).moveTags
    ∃ u : State, Does (.stationaryRowWrite t) s u ∧ (u.arr t).select = v.select ∧
      (u.arr t).passes = replacePass (s.arr t).passes { p with wrote := j + 1 } ∧
      (∀ n, n < 32 → Map.get (fun _ => none) (u.arr t).plinths (v.shadowKey j n) = ((s.site t).expandRow p j).1.getD n none) ∧
      ∀ k, (∀ n, n < 32 → k ≠ v.shadowKey j n) →
        Map.get (fun _ => none) (u.arr t).plinths k = Map.get (fun _ => none) (s.arr t).plinths k := by
  intro v
  obtain ⟨staging, hwrite⟩ := s.arr_writeRow t p j
  obtain ⟨select, moved, hv⟩ := (s.arr t).moveTags_eq
  have hpasses : v.passes = (s.arr t).passes := (congrArg Arr.passes hv :)
  have hplinths : v.plinths = (s.arr t).plinths := (congrArg Arr.plinths hv :)
  have hload : ((s.writeRow t p j).arr t).plinths = (List.range 32).foldl (fun m n =>
      Map.set (fun _ => none) m (v.shadowKey j n) (((s.site t).expandRow p j).1.getD n none)) v.plinths := by
    rw [hwrite, Arr.load_eq]
  refine ⟨s.writeRow t p j, ?_, ?_, ?_, fun n hn => ?_, fun k hk => ?_⟩
  · rw [Does, exec_stationaryRowWrite, execStationaryRowWrite, hloading]
    exact when_true (by simp [hbusy, hfreeze])
  · rw [hwrite, Arr.load_eq]
  · rw [hwrite, ← hpasses]
  · rw [hload]
    exact Map.get_foldl_set_mem _ _
      (fun m hm n hn => v.eq_of_shadowKey (List.mem_range.mp hm) (List.mem_range.mp hn)) (List.mem_range.mpr hn) v.plinths
  · rw [hload, ← hplinths]
    exact Map.get_foldl_set_ne _ (v.shadowKey j) _ (fun n hn => hk n (List.mem_range.mp hn)) v.plinths

end Sys2Proof.Machine
end

section
/-! PROOFS. Commits (R48, R58, R62): what the commits of a pass leave of the array, which rows initialising commits take, and the completion
of a chunk. -/

namespace Sys2Proof.Machine

/-! ### One line (R48) -/

theorem State.site_fault (s : State) (code source : Nat) (partition : Option Nat) (detail : List Nat) (t : Nat) :
    (s.fault code source partition detail).site t = s.site t :=
  s.fault_leaves_ring code source partition detail (·.site t) (fun _ _ _ _ => rfl) (fun _ _ => rfl) fun _ _ => rfl

theorem State.site_uncorrectable (s : State) (source : Nat) (part : Option Nat) (code : Nat) (detail : List Nat) (t : Nat) :
    (s.uncorrectable source part code detail).site t = s.site t := by
  unfold State.uncorrectable
  extract_lets at_ v
  have hv : v.site t = s.site t := s.site_fault _ _ _ _ t
  split
  · split
    · exact (State.site_fault _ _ _ _ _ t).trans hv
    · exact hv
  · exact hv

theorem State.site_accRead (s : State) (x : Site) (t r n u : Nat) : (s.accRead x t r n).2.site u = s.site u := by
  unfold State.accRead
  split
  · exact s.site_uncorrectable _ _ _ _ u
  · rfl

/-- What commits of lines leave: of the array, only the rows of the tile cycle change; completions stay, and no row is released. -/
structure LinesCommitted (t : Nat) (s u : State) : Prop where
  arr : ∃ rows, u.arr t = { s.arr t with rows := rows }
  posted : (u.site t).posted = (s.site t).posted
  taken : (s.site t).taken ⊆ (u.site t).taken

namespace LinesCommitted

variable {t : Nat} {s u v : State}

theorem refl (t : Nat) (s : State) : LinesCommitted t s s := ⟨⟨_, rfl⟩, rfl, fun _ h => h⟩

theorem trans (h : LinesCommitted t s u) (h' : LinesCommitted t u v) : LinesCommitted t s v := by
  obtain ⟨⟨rows, harr⟩, hposted, htaken⟩ := h
  obtain ⟨⟨rows', harr'⟩, hposted', htaken'⟩ := h'
  exact ⟨⟨rows', by rw [harr', harr]⟩, hposted'.trans hposted, fun r hr => htaken' (htaken hr)⟩

theorem of_beyondRegs (h : u.beyondRegs t = s.beyondRegs t) : LinesCommitted t s u :=
  ⟨⟨_, arr_of_beyondRegs h⟩, posted_of_beyondRegs h, by rw [taken_of_beyondRegs h]; exact fun _ h => h⟩

theorem foldl {α : Type} {f : State → α → State} (h : ∀ s a, LinesCommitted t s (f s a)) (l : List α) (s : State) :
    LinesCommitted t s (l.foldl f s) :=
  List.foldlRecOn (motive := fun u => LinesCommitted t s u) l f (refl t s) fun u hu a _ => hu.trans (h u a)

end LinesCommitted

theorem subset_takeRow (l : List Nat) (r : Nat) : l ⊆ (if l.contains r then l else r :: l) := by
  split
  · exact List.Subset.refl l
  · exact List.subset_cons_self r l

theorem mem_takeRow (l : List Nat) (r : Nat) : r ∈ (if l.contains r then l else r :: l) := by
  split
  next h => exact List.contains_iff_mem.mp h
  next => exact List.mem_cons_self

theorem State.commitLine_committed (s : State) (t : Nat) (p : Pass) (c h half n : Nat) : LinesCommitted t s (s.commitLine t p c h half n) := by
  unfold State.commitLine
  extract_lets i row depth u d elems terms first init from_ q s1 s2 s3
  have hread : from_.2.site t = s.site t := by
    simp only [from_]
    split
    · rfl
    · exact s.site_accRead _ _ _ _ t
  have hsite : s1.site t = _ := from_.2.site_modSite_same t _
  have h1 : LinesCommitted t s s1 := by
    refine ⟨⟨(s.arr t).rows, ?_⟩, ?_, ?_⟩
    · rw [State.arr, hsite, hread]
      split <;> rfl
    · rw [hsite, hread]
      split <;> rfl
    · rw [hsite, hread]
      split
      · exact subset_takeRow _ row
      · exact fun _ h => h
  have hcount : (s3.arrCount t R.ENG_TERM_FLUSH q.flush).beyondRegs t = s1.beyondRegs t := by simp [s3, s2]
  exact h1.trans (.of_beyondRegs hcount)

/-- R58: an initialising commit takes its row. -/
theorem State.taken_commitLine (s : State) (t : Nat) {p : Pass} (hkp : p.kp = 0) (hsp : p.sp = 0) (hadd : p.mm.add = false) (c h half : Nat) :
    p.mm.accRow (c * p.mm.perSlot + h) half ∈ ((s.commitLine t p c h half 0).site t).taken := by
  unfold State.commitLine
  extract_lets i row depth u d elems terms first init from_ q s1 s2 s3
  have hinit : init = true := by simp [init, first, i, hkp, hsp, hadd]
  have hsite : s1.site t = _ := from_.2.site_modSite_same t _
  have h1 : row ∈ (s1.site t).taken := by
    rw [hsite, if_pos (by simp [hinit])]
    exact mem_takeRow _ row
  have hcount : (s3.arrCount t R.ENG_TERM_FLUSH q.flush).beyondRegs t = s1.beyondRegs t := by simp [s3, s2]
  rw [taken_of_beyondRegs hcount]
  exact h1

theorem State.collide_committed (s : State) (t row : Nat) : LinesCommitted t s (s.collide t row) := by
  unfold State.collide
  extract_lets v
  have hv : LinesCommitted t s v := ⟨⟨_, s.arr_modArr t _⟩, by simp [v], by simp [v]⟩
  split
  · exact hv.trans (.of_beyondRegs (v.beyondRegs_setTbit t _ _ _))
  · exact hv

/-! ### A column -/

/-- A line of a slot is committed in column n, for one half of the array rows. -/
def State.commitCell (s : State) (t : Nat) (p : Pass) (c n : Nat) (e : Nat × Nat) : State :=
  (s.commitLine t p c e.1 e.2 n).collide t (p.mm.accRow (c * p.mm.perSlot + e.1) e.2)

/-- The lines of slot c, for each half of the array rows. -/
def Pass.lineHalves (p : Pass) (c : Nat) : List (Nat × Nat) := (p.slotLines c).flatMap fun h => (halves p.mm.fold).map fun half => (h, half)

theorem State.commitCell_committed (s : State) (t : Nat) (p : Pass) (c n : Nat) (e : Nat × Nat) :
    LinesCommitted t s (s.commitCell t p c n e) := (s.commitLine_committed t p c e.1 e.2 n).trans (State.collide_committed _ t _)

/-- R48: a column commits where its slot is due, once in an array cycle. -/
theorem State.commitColumn_eq (s : State) (t : Nat) (p : Pass) {n c : Nat} (hslot : p.commitSlot (s.arr t).cycle n = some c)
    (hfresh : (p.id, n) ∉ (s.arr t).committed) : s.commitColumn t p n =
      let v := s.modArr t fun a => { a with committed := (p.id, n) :: a.committed }
      if p.colValid (n % foldBlock p.mm.fold) then (p.lineHalves c).foldl (fun s e => s.commitCell t p c n e) v else v := by
  unfold State.commitColumn
  simp only [hslot, List.contains_iff_mem, hfresh, if_false, Pass.lineHalves, List.foldl_flatMap, List.foldl_map]
  cases p.colValid (n % foldBlock p.mm.fold) <;> rfl

/-- R48: a column that commits is noted; else nothing changes. -/
theorem State.commitColumn_cases (s : State) (t : Nat) (p : Pass) (n : Nat) : s.commitColumn t p n = s ∨
    LinesCommitted t (s.modArr t fun a => { a with committed := (p.id, n) :: a.committed }) (s.commitColumn t p n) := by
  cases hslot : p.commitSlot (s.arr t).cycle n with
  | none => exact .inl (by simp only [State.commitColumn, hslot])
  | some c =>
    by_cases hfresh : (p.id, n) ∈ (s.arr t).committed
    · exact .inl (by simp [State.commitColumn, hslot, hfresh])
    · rw [s.commitColumn_eq t p hslot hfresh]
      right
      dsimp only
      split
      · exact .foldl (fun u e => u.commitCell_committed t p c n e) _ _
      · exact .refl t _

/-- What commits leave: the array cycle, the passes and the completions stay, no column is forgotten and no row released. -/
structure Commits (t : Nat) (s u : State) : Prop where
  cycle : (u.arr t).cycle = (s.arr t).cycle
  passes : (u.arr t).passes = (s.arr t).passes
  posted : (u.site t).posted = (s.site t).posted
  committed : (s.arr t).committed ⊆ (u.arr t).committed
  taken : (s.site t).taken ⊆ (u.site t).taken

namespace Commits

variable {t : Nat} {s u v : State}

theorem refl (t : Nat) (s : State) : Commits t s s := ⟨rfl, rfl, rfl, List.Subset.refl _, List.Subset.refl _⟩

theorem trans (h : Commits t s u) (h' : Commits t u v) : Commits t s v :=
  ⟨h'.cycle.trans h.cycle, h'.passes.trans h.passes, h'.posted.trans h.posted, List.Subset.trans h.committed h'.committed,
    List.Subset.trans h.taken h'.taken⟩

theorem foldl {α : Type} {f : State → α → State} (h : ∀ s a, Commits t s (f s a)) (l : List α) (s : State) : Commits t s (l.foldl f s) :=
  List.foldlRecOn (motive := fun u => Commits t s u) l f (refl t s) fun u hu a _ => hu.trans (h u a)

end Commits

theorem State.commitColumn_commits (s : State) (t : Nat) (p : Pass) (n : Nat) : Commits t s (s.commitColumn t p n) := by
  rcases s.commitColumn_cases t p n with h | ⟨⟨rows, harr⟩, hposted, htaken⟩
  · rw [h]
    exact .refl t s
  · rw [State.arr_modArr] at harr
    rw [State.site_modArr] at hposted htaken
    exact ⟨by rw [harr], by rw [harr], hposted, by rw [harr]; exact List.subset_cons_self _ _, htaken⟩

/-- A commit of a column notes no other column. -/
theorem State.mem_committed_commitColumn {s : State} {t n : Nat} {p : Pass} {e : Nat × Nat} (h : e ∈ ((s.commitColumn t p n).arr t).committed) :
    e = (p.id, n) ∨ e ∈ (s.arr t).committed := by
  rcases s.commitColumn_cases t p n with heq | ⟨⟨rows, harr⟩, -, -⟩
  · exact .inr (heq ▸ h)
  · rw [harr, State.arr_modArr] at h
    exact List.mem_cons.mp h

theorem State.commitPass_commits (s : State) (t : Nat) (p : Pass) : Commits t s (s.commitPass t p) :=
  .foldl (fun u n => u.commitColumn_commits t p n) _ s

/-! ### Initialising commits (R58) -/

/-- The initialising commit of a pass in column 0 is made: it is noted, and its rows are taken unless the column is padding. -/
def State.InitCommitted (s : State) (t : Nat) (p : Pass) (c : Nat) : Prop :=
  (p.id, 0) ∈ (s.arr t).committed ∧ (p.colValid 0 = true → ∀ row ∈ p.initRows c, row ∈ (s.site t).taken)

theorem State.InitCommitted.commits {s u : State} {t c : Nat} {p : Pass} (h : s.InitCommitted t p c) (hu : Commits t s u) :
    u.InitCommitted t p c := ⟨hu.committed h.1, fun hvalid row hrow => hu.taken (h.2 hvalid row hrow)⟩

theorem Pass.initRows_nonempty {p : Pass} {c : Nat} (h : p.initRows c ≠ []) : p.mm.add = false ∧ p.kp = 0 ∧ p.sp = 0 ∧
    p.initRows c = (p.lineHalves c).map fun e => p.mm.accRow (c * p.mm.perSlot + e.1) e.2 := by
  unfold Pass.initRows at h ⊢
  split at h
  · exact absurd rfl h
  next hinit =>
    simp only [Bool.or_eq_true, bne_iff_ne, ne_eq, not_or, Bool.not_eq_true, not_not] at hinit
    obtain ⟨⟨hadd, hkp⟩, hsp⟩ := hinit
    refine ⟨hadd, hkp, hsp, ?_⟩
    rw [if_neg (by simp [hadd, hkp, hsp])]
    simp only [Pass.lineHalves, List.map_flatMap, List.map_map]
    rfl

theorem State.commitColumn_initCommitted {s : State} {t c : Nat} {p : Pass} (hslot : p.commitSlot (s.arr t).cycle 0 = some c)
    (hfresh : (p.id, 0) ∉ (s.arr t).committed) (hrows : p.initRows c ≠ []) : (s.commitColumn t p 0).InitCommitted t p c := by
  obtain ⟨hadd, hkp, hsp, heq⟩ := Pass.initRows_nonempty hrows
  have hnoted : (p.id, 0) ∈ ((s.modArr t fun a => { a with committed := (p.id, 0) :: a.committed }).arr t).committed := by simp
  rw [s.commitColumn_eq t p hslot hfresh, Nat.zero_mod]
  dsimp only
  split
  next hvalid =>
    refine ⟨?_, fun _ row hrow => ?_⟩
    · obtain ⟨rows, harr⟩ := (LinesCommitted.foldl (fun u e => u.commitCell_committed t p c 0 e) (p.lineHalves c) _).arr
      rw [harr]
      exact hnoted
    · rw [heq] at hrow
      obtain ⟨e, he, rfl⟩ := List.mem_map.mp hrow
      refine foldl_establishes (P := fun u => p.mm.accRow (c * p.mm.perSlot + e.1) e.2 ∈ (u.site t).taken) he (fun u => ?_)
        (fun u b hu => (u.commitCell_committed t p c 0 b).taken hu) _
      exact (State.collide_committed _ t _).taken (u.taken_commitLine t hkp hsp hadd c e.1 e.2)
  next hpadding => exact ⟨hnoted, fun hvalid => absurd hvalid hpadding⟩

/-- R58: the initialising commit of a pass, where one is due in the array cycle. -/
def State.commitInit (s : State) (t cycle : Nat) (p : Pass) : State :=
  match p.commitSlot cycle 0 with
  | some c => if (p.initRows c).isEmpty then s else s.commitColumn t p 0
  | none => s

theorem State.commitInit_cases (s : State) (t cycle : Nat) (p : Pass) :
    s.commitInit t cycle p = s ∨ s.commitInit t cycle p = s.commitColumn t p 0 := by
  unfold State.commitInit
  split
  · split
    · exact .inl rfl
    · exact .inr rfl
  · exact .inl rfl

theorem State.commitInit_commits (s : State) (t cycle : Nat) (p : Pass) : Commits t s (s.commitInit t cycle p) := by
  rcases s.commitInit_cases t cycle p with h | h
  · rw [h]
    exact .refl t s
  · rw [h]
    exact s.commitColumn_commits t p 0

/-- The initialising commits of other passes leave a column open. -/
theorem State.foldl_commitInit_open {s : State} {t i : Nat} (cycle : Nat) {l : List Pass} (hl : ∀ q ∈ l, q.id ≠ i)
    (h : (i, 0) ∉ (s.arr t).committed) : (i, 0) ∉ ((l.foldl (fun u p => u.commitInit t cycle p) s).arr t).committed :=
  List.foldlRecOn (motive := fun u : State => (i, 0) ∉ (u.arr t).committed) l _ h fun u hu q hq hmem => by
    rcases u.commitInit_cases t cycle q with heq | heq
    · exact hu (heq ▸ hmem)
    · rcases State.mem_committed_commitColumn (heq ▸ hmem) with hnew | hold
      · exact hl q hq (congrArg Prod.fst hnew).symm
      · exact hu hold

theorem initialisingCommit_effect {s : State} {t : Nat} (hbusy : (s.arr t).busy = true) (hfreeze : (s.site t).freeze = .none)
    (hids : ((s.arr t).passes.map (·.id)).Nodup) :
    ∃ u : State, Does (.initialisingCommit t) s u ∧ ∀ p ∈ (s.arr t).passes, ∀ c, p.commitSlot (s.arr t).cycle 0 = some c →
      p.initRows c ≠ [] → (s.arr t).committed.contains (p.id, 0) = false → u.InitCommitted t p c := by
  refine ⟨(s.arr t).passes.foldl (fun u p => u.commitInit t (s.arr t).cycle p) s, ?_, ?_⟩
  · exact when_true (by simp [hbusy, hfreeze])
  intro p hp c hslot hrows hfresh
  obtain ⟨before, after, hsplit⟩ := List.append_of_mem hp
  have hother : ∀ q ∈ before, q.id ≠ p.id := by
    intro q hq hid
    rw [hsplit, List.map_append, List.nodup_append] at hids
    exact hids.2.2 q.id (List.mem_map_of_mem hq) p.id (by simp) hid
  have hbefore : Commits t s (before.foldl (fun u p => u.commitInit t (s.arr t).cycle p) s) :=
    .foldl (fun u q => u.commitInit_commits t _ q) before s
  have hopen := State.foldl_commitInit_open (s.arr t).cycle hother (by simpa using hfresh)
  rw [hsplit, List.foldl_append, List.foldl_cons]
  refine State.InitCommitted.commits ?_ (.foldl (fun u q => u.commitInit_commits t _ q) after _)
  rw [State.commitInit, hslot]
  dsimp only
  rw [if_neg (by simpa using hrows)]
  exact State.commitColumn_initCommitted (by rw [hbefore.cycle, hslot]) hopen hrows

/-! ### Completion of a chunk (R62, R198) -/

/-- R62: what a chunk posts as its last pass ends. -/
def Pass.completion (p : Pass) : Completion :=
  { base := p.mm.base, r := p.mm.r, ch := p.ch, nb := p.nb, lines := p.lines, fold := p.mm.fold, verb := p.mm.verb, m := p.mm.m,
    n := p.mm.n, ts := p.mm.ts }

theorem State.retire_effect (s : State) (t : Nat) {p : Pass} (hlast : p.last = true) :
    ((s.retire t p).arr t).passes = (s.arr t).passes.filter (fun q => q.id != p.id) ∧
      ((s.retire t p).site t).posted = (s.site t).posted ++ (if p.mm.hold then [] else [(p.mm.handle, p.completion)]) := by
  unfold State.retire
  extract_lets i v
  have hpasses : (v.arr t).passes = (s.arr t).passes.filter (fun q => q.id != p.id) := by simp [v]
  have hposted : (v.site t).posted = (s.site t).posted := by simp [v]
  cases hhold : p.mm.hold with
  | true =>
    rw [if_neg (by simp)]
    exact ⟨hpasses, by simp [hposted]⟩
  | false =>
    rw [if_pos (by simp [hlast])]
    refine ⟨?_, ?_⟩
    · rw [← hpasses, State.arr, State.site_modSite_same]
      rfl
    · rw [State.site_modSite_same, hposted]
      rfl

theorem chunkCompletion_effect {s : State} {t : Nat} {p : Pass} (hbusy : (s.arr t).busy = true) (hfreeze : (s.site t).freeze = .none)
    (hfind : (s.arr t).passes.find? (fun p => p.end_ == (s.arr t).cycle && p.last) = some p) :
    ∃ u : State, Does (.chunkCompletion t) s u ∧ (u.arr t).passes = (s.arr t).passes.filter (fun q => q.id != p.id) ∧
      (u.site t).posted = (s.site t).posted ++ (if p.mm.hold then [] else [(p.mm.handle, p.completion)]) := by
  have hlast : p.last = true := (Bool.and_eq_true_iff.mp (List.find?_some hfind :)).2
  obtain ⟨hpasses, hposted⟩ := (s.commitPass t p).retire_effect t hlast
  have hcommits := s.commitPass_commits t p
  refine ⟨(s.commitPass t p).retire t p, ?_, ?_, ?_⟩
  · rw [Does, exec_chunkCompletion, execChunkCompletion]
    simp only [hfind]
    exact when_true (by simp [hbusy, hfreeze])
  · rw [hpasses, hcommits.passes]
  · rw [hposted, hcommits.posted]

end Sys2Proof.Machine
end

section
/-! PROOFS. The load of a codebook takes effect (R81), and an operation of the Drain engine completes (R99, R126). -/

namespace Sys2Proof.Machine

/-! ### A codebook takes effect (R81) -/

/-- R81: the entries that the words of a load spell. -/
def bookEntries (ws : List (BitVec 32)) : List (BitVec 16) :=
  ws.flatMap fun w => [Num.canonE8M7 (w.extractLsb' 0 16), Num.canonE8M7 (w.extractLsb' 16 16)]

theorem bookEntries_cons (w : BitVec 32) (ws : List (BitVec 32)) : bookEntries (w :: ws) =
    Num.canonE8M7 (w.extractLsb' 0 16) :: Num.canonE8M7 (w.extractLsb' 16 16) :: bookEntries ws := rfl

theorem length_bookEntries (ws : List (BitVec 32)) : (bookEntries ws).length = 2 * ws.length := by
  induction ws with
  | nil => rfl
  | cons w ws ih =>
    rw [bookEntries_cons, List.length_cons, List.length_cons, List.length_cons, ih]
    omega

/-- R81: two entries in each word, the lower one first. -/
theorem getElem_bookEntries {ws : List (BitVec 32)} {i : Nat} (h : i < (bookEntries ws).length) :
    (bookEntries ws)[i] = Num.canonE8M7 ((ws.getD (i / 2) 0).extractLsb' (16 * (i % 2)) 16) := by
  induction ws generalizing i with
  | nil => simp [bookEntries] at h
  | cons w ws ih =>
    match i with
    | 0 => rfl
    | 1 => rfl
    | i + 2 =>
      have hdiv : (i + 2) / 2 = i / 2 + 1 := by omega
      rw [Nat.add_mod_right, hdiv, List.getD_cons_succ]
      exact ih _

/-- The register that shows whether a codebook is narrow. -/
def narrowReg (cb : Nat) : Nat := if cb < 32 then R.ENG_CB_NARROW_LO else R.ENG_CB_NARROW_HI

theorem State.cbWrite_effect (s : State) (t id cb at_ : Nat) (ws : List (BitVec 32)) :
    ((s.cbWrite t (id, cb, at_, ws)).site t).books = Map.setAll (fun _ => 0) (s.site t).books (16 * cb) (bookEntries ws) ∧
      (s.cbWrite t (id, cb, at_, ws)).tbit t (narrowReg cb) (cb % 32) = (bookEntries ws).all fun v => v.toNat % 16 == 0 := by
  unfold State.cbWrite
  extract_lets entries narrow cb' v
  have hbooks : (v.site t).books = (s.site t).books := (congrArg Site.books (s.beyondRegs_setTbit t _ _ narrow) :)
  refine ⟨?_, ?_⟩
  · rw [State.site_modSite_same, hbooks]
    rfl
  · have hbit : v.tbit t (narrowReg cb) (cb % 32) = narrow := s.tbit_setTbit_same t _ _ _ (Nat.mod_lt _ (by omega))
    rw [State.tbit, State.treg, State.site_modSite_same]
    exact hbit

theorem codebookTakesEffect_effect {s : State} {t id cb at_ : Nat} {ws : List (BitVec 32)}
    (hdue : (s.site t).cbDue = some (id, cb, at_, ws)) (hws : ws.length = 8) :
    ∃ u : State, Does (.codebookTakesEffect t) s u ∧
      (∀ i, i < 16 → Map.get (fun _ => 0) (u.site t).books (16 * cb + i) =
        Num.canonE8M7 ((ws.getD (i / 2) 0).extractLsb' (16 * (i % 2)) 16)) ∧
      (∀ k, (k < 16 * cb ∨ 16 * cb + 16 ≤ k) → Map.get (fun _ => 0) (u.site t).books k = Map.get (fun _ => 0) (s.site t).books k) ∧
      (u.tbit t (narrowReg cb) (cb % 32) = true ↔
        ∀ i, i < 16 → (Map.get (fun _ => 0) (u.site t).books (16 * cb + i)).toNat % 16 = 0) := by
  have hlength : (bookEntries ws).length = 16 := by rw [length_bookEntries, hws]
  obtain ⟨hbooks, hnarrow⟩ := s.cbWrite_effect t id cb at_ ws
  refine ⟨s.cbWrite t (id, cb, at_, ws), ?_, fun i hi => ?_, fun k hk => ?_, ?_⟩
  · rw [Does, exec_codebookTakesEffect, execCodebookTakesEffect, hdue]
  · rw [hbooks, Map.get_setAll_in _ _ _ (by omega), getElem_bookEntries]
  · rw [hbooks, Map.get_setAll_out _ _ (by omega)]
  · rw [hnarrow, hbooks, List.all_eq_true]
    constructor
    · intro hall i hi
      rw [Map.get_setAll_in _ _ _ (by omega)]
      simpa using hall _ (List.getElem_mem (by omega))
    · intro hall v hv
      obtain ⟨i, hi, rfl⟩ := List.getElem_of_mem hv
      simpa [Map.get_setAll_in _ _ _ hi] using hall i (by omega)

/-! ### An operation of the Drain engine completes (R99, R126) -/

theorem drainComplete_effect {s : State} {t : Nat} {d : DrainOp} {rest : List DrainOp} (hdrains : (s.site t).drains = d :: rest)
    (hfinished : d.finished = true) (hopen : ¬(d.instr.aop = 6 ∧ d.instr.isDr = false ∧ d.closed = true)) :
    ∃ u : State, Does (.drainComplete t) s u ∧ (u.site t).drains = (s.site t).drains.filter (fun p => p.id != d.id) ∧
      (u.site t).drainOn = ((s.site t).drainOn.map fun e => if e.id = d.id then { e with done := true } else e) ∧
      (u.site t).qcsr = [] ∧ (u.site t).qvec = [] := by
  have hbool : (d.instr.aop == 6 && !d.instr.isDr && d.closed) = false :=
    Bool.eq_false_iff.mpr fun h => hopen (by simpa [and_assoc] using h)
  refine ⟨s.drainDone t d, ?_, ?_⟩
  · rw [Does, exec_drainComplete, execDrainComplete, hdrains]
    exact when_true (by rw [hfinished, hbool]; rfl)
  unfold State.drainDone
  extract_lets v v'
  have hcounted : v'.beyondRegs t = v.beyondRegs t := by
    simp only [v']
    split <;> simp
  have hv : v.site t = _ := s.site_modSite_same t _
  have h := v'.beyondRegs_qboundary t
  rw [hcounted] at h
  have hdrains' : ((v'.qboundary t).site t).drains = (v.site t).drains := (congrArg Site.drains h :)
  have hon : ((v'.qboundary t).site t).drainOn = (v.site t).drainOn := (congrArg Site.drainOn h :)
  refine ⟨by rw [hdrains', hv], ?_, (congrArg Site.qcsr h :), (congrArg Site.qvec h :)⟩
  rw [hon, hv]
  simp only [beq_iff_eq]

end Sys2Proof.Machine
end

section
/-! PROOFS. The commands of the matrix array, its feeder and loader, the codebooks, the drain and the statistics slots, as stated. -/

namespace Sys2Proof.Machine

/-- Settles O35: each command's effect lemma gives its clause. -/
theorem arrayCommands : Obligations.ArrayCommands := by
  unfold Obligations.ArrayCommands
  refine ⟨?quant, ?stream, ?loader, ?start, ?rowWrite, ?initial, ?chunk, ?codebook, ?drain⟩
  case quant =>
    intro s a t q hreached hq halone amax counted
    have hclose := quantClose_does hreached hq halone
    have hclear := quantClear_does hreached hq halone
    refine ⟨fun hwork => ⟨_, _, hclose, hclear, ?_⟩, fun hidle => ?_⟩
    · simp only [State.site_quantCsr_busy hwork, and_self]
    · rw [State.quantCsr_idle hidle] at hclose hclear
      have hclosed := s.qwrite_close t hq
      have hcleared := s.qwrite_clear t q
      exact ⟨_, _, hclose, hclear, hclosed.lastAmax, hclosed.merge, hclosed.counts _ (by simp [stepRegs]),
        treg64_count_of_counts hclosed.counts, hclosed.steps, hclosed.pushed, fun h i _ => hclosed.kept h i, hclosed.scale,
        treg64_count_of_counts hcleared.counts, hcleared.steps, hcleared.lastAmax, hcleared.hist, hcleared.scale⟩
  case stream => exact fun s t c p hnext hroom hport => streamUnitRead_effect hnext hroom hport
  case loader => exact fun s t j p hnext hfree => loaderRowRead_effect hnext hfree
  case start =>
    intro s t p hentering hbusy hfirst hfreeze hfold
    obtain ⟨u, hdoes, hpasses, hfeeder, hselect, hstate⟩ := passStart_effect hentering hbusy hfirst hfreeze hfold
    exact ⟨u, hdoes, hpasses, hfeeder, hselect, verbCode p.mm.verb, verbCode_lt _, verbOf_verbCode _, hstate⟩
  case rowWrite => exact fun s t j p hloading hbusy hfreeze _ => stationaryRowWrite_effect hloading hbusy hfreeze
  case initial => exact fun s t hbusy hfreeze hids => initialisingCommit_effect hbusy hfreeze hids
  case chunk =>
    intro s t p hbusy hfreeze hfind
    exact chunkCompletion_effect hbusy hfreeze (by simpa only [Pass.last, Bool.and_assoc] using hfind)
  case codebook => exact fun s t id cb at_ ws hdue hws _ => codebookTakesEffect_effect hdue hws
  case drain => exact fun s t d rest hdrains hfinished hopen => drainComplete_effect hdrains hfinished hopen

end Sys2Proof.Machine
end

section
/-! PROOFS. Instructions on vector registers (R208): the function numbers and the part of a legal word, the lanes of a register as a list, and
what an instruction leaves that works lane by lane. -/

namespace Sys2Proof.Machine

/-! ### Legal words -/

/-- The last function number of a group of vector instructions (R208, R209, R211). -/
def lastFn : Nat → Nat
  | 0x20 => 10
  | 0x21 => 10
  | 0x24 => 7
  | 0x27 => 6
  | _ => 63

theorem fnOf_le_lastFn {k : TileKind} {n : Nat} (h : illegal k n = false) : fnOf n ≤ lastFn (insnGroup n) := by
  unfold lastFn
  split
  case h_5 => exact Nat.le_of_lt_succ (Nat.mod_lt _ (by decide))
  all_goals
    rename_i hg
    simp only [illegal, illegalFields, hg, Bool.or_eq_false_iff, decide_eq_false_iff_not] at h
    omega

/-- R210: the part of a register that VQ and VX name lies in it. -/
theorem part_le_of_legal {k : TileKind} {n : Nat} (hg : insnGroup n = 0x26) (hop : fieldOf n 31 30 < 2) (h : illegal k n = false) :
    (cvtPart n + 1) * Num.width (cvtFmt n) ≤ 32 := by
  simp only [illegal, illegalFields, hg, hop, if_true, Bool.or_eq_false_iff, decide_eq_false_iff_not, not_lt] at h
  exact h.2.2.2

/-! ### The lanes of a register -/

theorem lanesOf_eq (t : Nat) : lanesOf t = 32 ∨ lanesOf t = 64 := by
  unfold lanesOf
  split
  · exact .inr rfl
  · exact .inl rfl

theorem lanesOf_pos (t : Nat) : 0 < lanesOf t := by
  rcases lanesOf_eq t with h | h <;> omega

@[simp] theorem Core.length_vreg (k : Core) (l r : Nat) : (k.vreg l r).length = l := by simp [Core.vreg]

theorem Core.getElem?_vreg (k : Core) {l i : Nat} (r : Nat) (h : i < l) : (k.vreg l r)[i]? = some (k.lane r i) := by
  simp [Core.vreg, h]

theorem Core.map_vreg (k : Core) (l r : Nat) {α : Type} (f : BitVec 32 → α) :
    (k.vreg l r).map f = (List.range l).map fun i => f (k.lane r i) := List.map_map

theorem Core.zip3_vreg (k : Core) (l ra rb rd : Nat) (f : BitVec 32 → BitVec 32 → BitVec 32 → BitVec 32) :
    zip3 (k.vreg l ra) (k.vreg l rb) (k.vreg l rd) f = (List.range l).map fun i => f (k.lane ra i) (k.lane rb i) (k.lane rd i) := by
  simp only [zip3, Core.vreg, List.zip_map', List.map_map]
  rfl

theorem eq_of_getElem?_map_range {α : Type} {f : Nat → α} {l i : Nat} {v : α} (h : ((List.range l).map f)[i]? = some v) : i < l ∧ v = f i := by
  obtain ⟨hi, rfl⟩ := List.getElem?_eq_some_iff.mp h
  simpa using hi

/-! ### What an instruction leaves -/

/-- What holds of the next state of every legal word of an instruction holds of what its command answers. -/
theorem onIssue_of_run {i : Nat → Nat → Fetched → Instr} {op : CoreOp} {eff : State → Nat → Nat → Nat → State}
    {rule : State → Nat → Nat → Nat → Result → Prop} (he : ∀ t c f s, exec (i t c f) s = s.issue t c f op)
    (hr : ∀ u t c n, op.run u t c n = .next (eff u t c n))
    (h : ∀ u t c n, op.accept n = true → illegal (kindOf t) n = false →
      rule u t c n (.next ((eff u t c n).onward t c (nextPc (u.core t c).pc n)))) : OnIssue i op rule := by
  intro t c n f s u hi
  rw [completesWith_of_run he hr t c n f s u hi]
  exact h u t c n hi.covered hi.legal

/-- The lanes that an instruction leaves which puts `f fn a b d` into each. -/
def Core.lanesBy (k : Core) (l n : Nat) (f : Nat → BitVec 32 → BitVec 32 → BitVec 32 → BitVec 32) : List (BitVec 32) :=
  (List.range l).map fun i => f (fnOf n) (k.lane (saOf n) i) (k.lane (sbOf n) i) (k.lane (dOf n) i)

/-- Every lane of vd keeps the rule, whose function numbers end at `limit`. -/
def LanesSuch (rule : Nat → BitVec 32 → BitVec 32 → BitVec 32 → BitVec 32 → Prop) (limit : Nat) (u : State) (t c n : Nat) (x : Result) : Prop :=
  ∃ r : List (BitVec 32), x = .next ((u.setVreg t c (dOf n) r).onward t c (nextPc (u.core t c).pc n)) ∧ r.length = lanesOf t ∧ fnOf n ≤ limit ∧
    ∀ i v, r[i]? = some v → rule (fnOf n) ((u.core t c).lane (saOf n) i) ((u.core t c).lane (sbOf n) i) ((u.core t c).lane (dOf n) i) v

theorem onIssue_lanesBy {i : Nat → Nat → Fetched → Instr} {op : CoreOp} {f : Nat → BitVec 32 → BitVec 32 → BitVec 32 → BitVec 32}
    {rule : Nat → BitVec 32 → BitVec 32 → BitVec 32 → BitVec 32 → Prop} {g : Nat}
    (he : ∀ t c f s, exec (i t c f) s = s.issue t c f op)
    (hr : ∀ u t c n, op.run u t c n = .next (u.setVreg t c (dOf n) ((u.core t c).lanesBy (lanesOf t) n f)))
    (hg : ∀ n, op.accept n = true → insnGroup n = g)
    (hrule : ∀ fn a b d, rule fn a b d (f fn a b d)) : OnIssue i op (LanesSuch rule (lastFn g)) := by
  refine onIssue_of_run he hr fun u t c n haccept hlegal =>
    ⟨_, rfl, by simp [Core.lanesBy], hg n haccept ▸ fnOf_le_lastFn hlegal, fun i v hv => ?_⟩
  obtain ⟨-, rfl⟩ := eq_of_getElem?_map_range hv
  exact hrule _ _ _ _

theorem lanewise_run (g : Nat) (f : Nat → BitVec 32 → BitVec 32 → BitVec 32 → BitVec 32) (u : State) (t c n : Nat) :
    (lanewise g f).run u t c n = .next (u.setVreg t c (dOf n) ((u.core t c).lanesBy (lanesOf t) n f)) := by
  simp only [lanewise, State.vreg, Core.zip3_vreg, Core.lanesBy]

theorem specialOp_run (u : State) (t c n : Nat) : specialOp.run u t c n =
    .next (u.setVreg t c (dOf n) ((u.core t c).lanesBy (lanesOf t) n fun fn a _ _ => Special.apply fn a)) := by
  simp only [specialOp, State.vreg, Core.map_vreg, Core.lanesBy]

theorem cvtOp_run (op : Nat) (f : BitVec 32 → BitVec 32) (u : State) (t c n : Nat) :
    (cvtOp op fun u t c n => u.setVreg t c (dOf n) ((u.vreg t c (saOf n)).map f)).run u t c n =
      .next (u.setVreg t c (dOf n) ((u.core t c).lanesBy (lanesOf t) n fun _ a _ _ => f a)) := by
  simp only [cvtOp, State.vreg, Core.map_vreg, Core.lanesBy]

theorem cvtOp_accept_iff {op n : Nat} {run : State → Nat → Nat → Nat → State} :
    (cvtOp op run).accept n = true ↔ insnGroup n = 0x26 ∧ fieldOf n 31 30 = op := by
  simp [cvtOp]

end Sys2Proof.Machine
end

section
/-! PROOFS. Lane movement (R209) and the halves of a BF16 lane (R208): what the operations on whole registers leave in each lane. -/

namespace Sys2Proof.Machine

theorem Core.getD_vreg (k : Core) {l i : Nat} (r : Nat) (h : i < l) : (k.vreg l r).getD i 0 = k.lane r i := by
  rw [List.getD_eq_getElem?_getD, k.getElem?_vreg r h, Option.getD_some]

theorem Core.set_vreg (k : Core) (l r j : Nat) (w : BitVec 32) :
    (k.vreg l r).set j w = (List.range l).map fun i => if i = j then w else k.lane r i := by
  refine List.ext_getElem (by simp) fun i _ _ => ?_
  simp [Core.vreg, List.getElem_set, eq_comm]

theorem Core.rotate_vreg (k : Core) {l j : Nat} (r : Nat) (h : j < l) :
    (k.vreg l r).drop j ++ (k.vreg l r).take j = (List.range l).map fun i => k.lane r ((i + j) % l) := by
  rw [← List.rotate_eq_drop_append_take (by simpa using h.le)]
  refine List.ext_getElem (by simp) fun i _ _ => ?_
  simp [Core.vreg, List.getElem_rotate]

theorem Core.vreg_eq_cons (k : Core) {l : Nat} (r : Nat) (h : 0 < l) : ∃ vs, k.vreg l r = k.lane r 0 :: vs := by
  obtain ⟨m, rfl⟩ := Nat.exists_eq_succ_of_ne_zero h.ne'
  exact ⟨_, by rw [Core.vreg, List.range_succ_eq_map, List.map_cons]⟩

/-- A sum of sign-extended lanes is taken modulo 2^64. -/
theorem toNat_foldl_signExtend (l : List (BitVec 32)) (m : BitVec 64) :
    (l.foldl (fun m v => m + v.signExtend 64) m).toNat = (m.toNat + (l.map fun w => (w.signExtend 64).toNat).sum) % 2 ^ 64 := by
  induction l generalizing m with
  | nil => rw [List.foldl_nil, List.map_nil, List.sum_nil, Nat.add_zero, Nat.mod_eq_of_lt m.isLt]
  | cons v l ih => rw [List.foldl_cons, ih, BitVec.toNat_add, Nat.mod_add_mod, List.map_cons, List.sum_cons, Nat.add_assoc]

theorem extractLsb'_lanePair {h : Nat} (hh : h < 2) (fn : Nat) (a b d : BitVec 32) : (lanePair fn a b d).extractLsb' (16 * h) 16 =
    elem16 fn (a.extractLsb' (16 * h) 16) (b.extractLsb' (16 * h) 16) (d.extractLsb' (16 * h) 16) := by
  match h, hh with
  | 0, _ => exact BitVec.extractLsb'_append_eq_right
  | 1, _ => exact BitVec.extractLsb'_append_eq_left

/-! ### The eight functions of LANE_MOVE (R209) -/

section
variable {u : State} {t c n : Nat}

/-- The lane that VEXT, VINS and VROT name. -/
def State.namedLane (u : State) (t c n : Nat) : Nat := ((u.core t c).getS (sbOf n)).toNat % lanesOf t

theorem State.namedLane_lt : u.namedLane t c n < lanesOf t := Nat.mod_lt _ (lanesOf_pos t)

theorem State.laneMove_vbcast (h : fnOf n = 0) : u.laneMove t c n =
    u.setVreg t c (dOf n) (List.replicate (lanesOf t) (((u.core t c).getS (saOf n)).extractLsb' 0 32)) := by
  simp only [State.laneMove, h]

theorem State.laneMove_vext (h : fnOf n = 1) :
    u.laneMove t c n = u.setS t c (dOf n) (((u.core t c).lane (saOf n) (u.namedLane t c n)).zeroExtend 64) := by
  rw [← (u.core t c).getD_vreg (saOf n) State.namedLane_lt]
  simp only [State.laneMove, h, State.namedLane]

theorem State.laneMove_vins (h : fnOf n = 2) : u.laneMove t c n = u.setVreg t c (dOf n) ((List.range (lanesOf t)).map fun i =>
    if i = u.namedLane t c n then ((u.core t c).getS (saOf n)).extractLsb' 0 32 else (u.core t c).lane (dOf n) i) := by
  rw [← Core.set_vreg]
  simp only [State.laneMove, h, State.namedLane]

theorem State.laneMove_vrot (h : fnOf n = 3) : u.laneMove t c n = u.setVreg t c (dOf n) ((List.range (lanesOf t)).map fun i =>
    (u.core t c).lane (saOf n) ((i + u.namedLane t c n) % lanesOf t)) := by
  rw [← Core.rotate_vreg _ _ State.namedLane_lt]
  simp only [State.laneMove, h, State.namedLane]

theorem State.laneMove_viota (h : fnOf n = 4) :
    u.laneMove t c n = u.setVreg t c (dOf n) ((List.range (lanesOf t)).map fun i => BitVec.ofNat 32 i) := by
  simp only [State.laneMove, h]

theorem State.laneMove_vredAdd (h : fnOf n = 5) :
    u.laneMove t c n = u.setS t c (dOf n) (((treeSums 6 (u.vreg t c (saOf n))).headD 0).zeroExtend 64) := by
  simp only [State.laneMove, h, State.vreg]

theorem State.laneMove_vredMax (h : fnOf n = 6) : u.laneMove t c n =
    u.setS t c (dOf n) ((((u.vreg t c (saOf n)).drop 1).foldl Num.fmax ((u.core t c).lane (saOf n) 0)).zeroExtend 64) := by
  obtain ⟨vs, hvs⟩ := (u.core t c).vreg_eq_cons (saOf n) (lanesOf_pos t)
  simp only [State.laneMove, h, State.vreg, hvs, List.drop_one, List.tail_cons]

theorem State.laneMove_vredAddI (h : fnOf n = 7) : u.laneMove t c n =
    u.setS t c (dOf n) ((u.vreg t c (saOf n)).foldl (fun m v => m + v.signExtend 64) 0) := by
  simp only [State.laneMove, h, State.vreg]

end

end Sys2Proof.Machine
end

section
/-! PROOFS. Packed elements (R210): the bits of a number by its digits, those of the words that VQ packs and of the elements that VX takes out,
and what VQ writes into a register. -/

namespace Sys2Proof.Machine

/-- A number with the digits ds of w bits, the first the lowest: bit j of digit i is bit i * w + j. -/
theorem testBit_foldr_digits {α : Type} {w : Nat} {digit : α → Nat} (hdigit : ∀ a, digit a < 2 ^ w) (l : List α) (i : Nat) {j : Nat} (hj : j < w) :
    (l.foldr (fun a acc => digit a + 2 ^ w * acc) 0).testBit (i * w + j) = (l[i]?.any fun a => (digit a).testBit j) := by
  induction l generalizing i with
  | nil => simp
  | cons a l ih =>
    rw [List.foldr_cons, Nat.add_comm, Nat.testBit_two_pow_mul_add _ (hdigit a)]
    cases i with
    | zero => simp [hj]
    | succ i =>
      have hle : ¬(i + 1) * w + j < w := by rw [Nat.succ_mul]; omega
      have hsub : (i + 1) * w + j - w = i * w + j := by rw [Nat.succ_mul]; omega
      rw [if_neg hle, hsub, ih, List.getElem?_cons_succ]

@[simp] theorem length_packLanes (w : Nat) (es : List Nat) : (packLanes w es).length = (es.length * w + 31) / 32 := by simp [packLanes]

/-- Bit j of packed element i is bit i * w + j of the words. -/
theorem getLsbD_packLanes {w : Nat} {es : List Nat} {i j e : Nat} (hi : es[i]? = some e) (hj : j < w) :
    (((packLanes w es)[(i * w + j) / 32]?).getD 0).getLsbD ((i * w + j) % 32) = e.testBit j := by
  obtain ⟨hlen, -⟩ := List.getElem?_eq_some_iff.mp hi
  have hbit : i * w + j < es.length * w := by nlinarith
  have hword : (i * w + j) / 32 < (es.length * w + 31) / 32 := by omega
  have hpos : (i * w + j) % 32 + 32 * ((i * w + j) / 32) = i * w + j := Nat.mod_add_div _ _
  rw [packLanes, List.getElem?_map, List.getElem?_range hword, Option.map_some, Option.getD_some, BitVec.getLsbD_ofNat,
    Nat.testBit_div_two_pow, hpos, testBit_foldr_digits (fun _ => Nat.mod_lt _ (Nat.two_pow_pos _)) _ _ hj, hi]
  simp [hj, Nat.mod_lt]

/-- Bit j of element i that is taken out of words is bit i * w + j of the words. -/
theorem unpackLanes_bits {w count : Nat} {l : List (BitVec 32)} {i e : Nat} (h : (unpackLanes w count l)[i]? = some e) :
    i < count ∧ e < 2 ^ w ∧ ∀ j, j < w → e.testBit j = (l.getD ((i * w + j) / 32) 0).getLsbD ((i * w + j) % 32) := by
  obtain ⟨hi, rfl⟩ := eq_of_getElem?_map_range h
  refine ⟨hi, Nat.mod_lt _ (Nat.two_pow_pos _), fun j hj => ?_⟩
  have hpos : j + w * i = (i * w + j) / 32 * 32 + (i * w + j) % 32 := by rw [Nat.mul_comm w]; omega
  rw [Nat.testBit_mod_two_pow, Nat.testBit_div_two_pow, hpos, testBit_foldr_digits (fun v => v.isLt) _ _ (Nat.mod_lt _ (by decide))]
  cases hv : l[(i * w + j) / 32]? <;> simp [List.getD_eq_getElem?_getD, hv, hj, BitVec.getLsbD]

/-! ### A part of a register -/

/-- A list with the words put in its place from `at_` on. -/
def splice {α : Type} (old words : List α) (at_ : Nat) : List α := old.take at_ ++ words ++ old.drop (at_ + words.length)

section
variable {α : Type} {old words : List α} {at_ : Nat} (h : at_ + words.length ≤ old.length)
include h

theorem length_splice : (splice old words at_).length = old.length := by
  simp only [splice, List.length_append, List.length_take, List.length_drop]
  omega

theorem getElem?_splice_inside {i : Nat} (hi : i < words.length) : (splice old words at_)[at_ + i]? = words[i]? := by
  have htake : (old.take at_).length = at_ := by rw [List.length_take]; omega
  rw [splice, List.append_assoc, List.getElem?_append_right (by omega), htake, Nat.add_sub_cancel_left, List.getElem?_append_left hi]

theorem getElem?_splice_outside {i : Nat} (hi : i < at_ ∨ at_ + words.length ≤ i) : (splice old words at_)[i]? = old[i]? := by
  have htake : (old.take at_).length = at_ := by rw [List.length_take]; omega
  rw [splice, List.append_assoc]
  rcases hi with hi | hi
  · rw [List.getElem?_append_left (by omega), List.getElem?_take_of_lt hi]
  · rw [List.getElem?_append_right (by omega), List.getElem?_append_right (by omega), List.getElem?_drop, htake]
    congr 1
    omega

end

/-- R210: a part of w bits for each lane begins at a word and ends at one. -/
theorem partBounds {l p w : Nat} (hl : l = 32 ∨ l = 64) (h : (p + 1) * w ≤ 32) :
    (l * w + 31) / 32 = l * w / 32 ∧ (p + 1) * l * w / 32 = p * l * w / 32 + l * w / 32 ∧ p * l * w / 32 + l * w / 32 ≤ l := by
  have hp : p * l * w = l * (p * w) := by ring
  have hp' : (p + 1) * l * w = l * (p * w) + l * w := by ring
  rw [Nat.succ_mul] at h
  rw [hp, hp']
  generalize p * w = q at *
  rcases hl with rfl | rfl <;> omega

end Sys2Proof.Machine
end

section
/-! PROOFS. VQ and VX (R210): the register that VQ leaves and what it counts, and the elements that VX expands. -/

namespace Sys2Proof.Machine

theorem Core.zip_vreg_map (k : Core) (l r : Nat) {α : Type} (f : BitVec 32 → α) :
    (k.vreg l r).zip ((k.vreg l r).map f) = (List.range l).map fun i => (k.lane r i, f (k.lane r i)) := by
  rw [Core.map_vreg, Core.vreg, List.zip_map']

variable (u : State) (t c n : Nat)

/-- The divisor of VQ: the scale of slot q, or 1. -/
def State.vqDivisor : BitVec 32 := if n.testBit 63 then u.treg t (R.QUANT_SCALE (fieldOf n 62 60)) else 0x3F800000

/-- Lane i of va as VQ converts it. -/
def State.vqElement (i : Nat) : Nat × Num.QClass := Num.quantise (cvtFmt n) ((u.core t c).lane (saOf n) i) (u.vqDivisor t n)

/-- The word of a register at which the part begins. -/
def partStart : Nat := cvtPart n * lanesOf t * Num.width (cvtFmt n) / 32

/-- The words that VQ writes. -/
def State.vqWords : List (BitVec 32) := packLanes (Num.width (cvtFmt n)) ((List.range (lanesOf t)).map fun i => (u.vqElement t c n i).1)

/-- vd as VQ leaves it. -/
def State.vqLanes : List (BitVec 32) := splice (u.vreg t c (dOf n)) (u.vqWords t c n) (partStart t n)

/-- What VQ counts into slot q. -/
def State.vqCounts : QCounts :=
  (List.range (lanesOf t)).foldl (fun k i => k.one ((u.core t c).lane (saOf n) i) (u.vqElement t c n i).2) .zero

theorem State.vq_eq : u.vq t c n =
    if n.testBit 63 then (u.setVreg t c (dOf n) (u.vqLanes t c n)).qcountVector t (fieldOf n 62 60) (u.vqCounts t c n)
    else u.setVreg t c (dOf n) (u.vqLanes t c n) := by
  simp only [State.vq, State.vreg, Core.zip_vreg_map, List.foldl_map]
  simp only [Core.map_vreg, List.map_map]
  rfl

/-- The value of an element of VX. -/
def State.vxValue (e : Nat) : BitVec 32 :=
  if n.testBit 63 then Num.fmul (Num.round32 (Num.decode (cvtFmt n) e)) (u.treg t (R.QUANT_SCALE (fieldOf n 62 60)))
  else Num.round32 (Num.decode (cvtFmt n) e)

/-- The elements that VX takes out of va. -/
def State.vxElements : List Nat := unpackLanes (Num.width (cvtFmt n)) (lanesOf t) ((u.vreg t c (saOf n)).drop (partStart t n))

@[simp] theorem State.length_vxElements : (u.vxElements t c n).length = lanesOf t := by
  rw [State.vxElements, unpackLanes, List.length_map, List.length_range]

theorem State.vx_eq : u.vx t c n = u.setVreg t c (dOf n) ((u.vxElements t c n).map (u.vxValue t n)) := by
  have hvalue : u.vxValue t n = fun e => if n.testBit 63 then _ else _ := rfl
  rw [hvalue]
  unfold State.vx cvtQen
  cases n.testBit 63
  · rfl
  · simp only [if_true, List.map_map]
    rfl

section
variable {u t c n} (hpart : (cvtPart n + 1) * Num.width (cvtFmt n) ≤ 32)
include hpart

theorem State.length_vqWords : (u.vqWords t c n).length = lanesOf t * Num.width (cvtFmt n) / 32 := by
  rw [State.vqWords, length_packLanes, List.length_map, List.length_range, (partBounds (lanesOf_eq t) hpart).1]

theorem State.vqWords_fit : partStart t n + (u.vqWords t c n).length ≤ (u.vreg t c (dOf n)).length := by
  rw [State.length_vqWords hpart, State.vreg, Core.length_vreg]
  exact (partBounds (lanesOf_eq t) hpart).2.2

theorem State.length_vqLanes : (u.vqLanes t c n).length = lanesOf t := by
  rw [State.vqLanes, length_splice (State.vqWords_fit hpart), State.vreg, Core.length_vreg]

/-- The word of a bit of a lane's element lies in the part. -/
theorem wordOf_lt {i j : Nat} (hi : i < lanesOf t) (hj : j < Num.width (cvtFmt n)) :
    (i * Num.width (cvtFmt n) + j) / 32 < lanesOf t * Num.width (cvtFmt n) / 32 := by
  have hbit : i * Num.width (cvtFmt n) + j < lanesOf t * Num.width (cvtFmt n) := by nlinarith
  have hround := (partBounds (lanesOf_eq t) hpart).1
  omega

theorem State.getLsbD_vqLanes {i j : Nat} (hi : i < lanesOf t) (hj : j < Num.width (cvtFmt n)) :
    (((u.vqLanes t c n)[partStart t n + (i * Num.width (cvtFmt n) + j) / 32]?).getD 0).getLsbD ((i * Num.width (cvtFmt n) + j) % 32) =
      (u.vqElement t c n i).1.testBit j := by
  have hword := wordOf_lt hpart hi hj
  rw [← State.length_vqWords (u := u) (c := c) hpart] at hword
  rw [State.vqLanes, getElem?_splice_inside (State.vqWords_fit hpart) hword, State.vqWords]
  exact getLsbD_packLanes (by simp [hi]) hj

theorem State.getElem?_vqLanes_outside {i : Nat} (hi : i < lanesOf t)
    (hout : i < partStart t n ∨ (cvtPart n + 1) * lanesOf t * Num.width (cvtFmt n) / 32 ≤ i) :
    (u.vqLanes t c n)[i]? = some ((u.core t c).lane (dOf n) i) := by
  rw [(partBounds (lanesOf_eq t) hpart).2.1, ← State.length_vqWords (u := u) (c := c) hpart] at hout
  rw [State.vqLanes, getElem?_splice_outside (State.vqWords_fit hpart) hout, State.vreg, Core.getElem?_vreg _ _ hi]

theorem State.vxElements_bits {i e : Nat} (h : (u.vxElements t c n)[i]? = some e) : e < 2 ^ Num.width (cvtFmt n) ∧
    ∀ j, j < Num.width (cvtFmt n) → e.testBit j =
      ((u.core t c).lane (saOf n) (partStart t n + (i * Num.width (cvtFmt n) + j) / 32)).getLsbD ((i * Num.width (cvtFmt n) + j) % 32) := by
  obtain ⟨hi, hlt, hbits⟩ := unpackLanes_bits h
  refine ⟨hlt, fun j hj => ?_⟩
  have hlane : partStart t n + (i * Num.width (cvtFmt n) + j) / 32 < lanesOf t :=
    (Nat.add_lt_add_left (wordOf_lt hpart hi hj) _).trans_le (partBounds (lanesOf_eq t) hpart).2.2
  rw [hbits j hj, List.getD_eq_getElem?_getD, List.getElem?_drop, State.vreg, Core.getElem?_vreg _ _ hlane, Option.getD_some]

end

end Sys2Proof.Machine
end

section
/-! PROOFS. Numbers of FP32 lanes: which words have which values, conversion to and from integers (R210), and the inputs of the special functions
for which R224 gives the result. -/

namespace Sys2Proof.Machine.Num

/-! ### The values of words -/

theorem pow2_eq_zpow (e : Int) : pow2 e = (2 : Rat) ^ e := by
  cases e with
  | ofNat n => simp [pow2]
  | negSucc n => simp [pow2, Rat.mkRat_eq_div, zpow_negSucc]

theorem pow2_pos (e : Int) : 0 < pow2 e := by
  rw [pow2_eq_zpow]
  positivity

theorem log2_two_pow (e : Nat) : log2 ((2 ^ e : Nat) : Rat) = e := by
  have hnum : ((2 ^ e : Nat) : Rat).num.toNat = 2 ^ e := by rw [Rat.num_natCast, Int.toNat_natCast]
  have hone : Nat.log2 1 = 0 := rfl
  have hself : pow2 e = ((2 ^ e : Nat) : Rat) := rfl
  simp only [log2, hnum, Rat.den_natCast, Nat.log2_two_pow, hone, Nat.cast_zero, sub_zero, hself, lt_irrefl, if_false]

theorem decodeFloat_neg (e f bias w : Nat) : (decodeFloat e f bias w).1 = decide (w / 2 ^ (e + f) % 2 = 1) := by
  unfold decodeFloat
  dsimp only
  split <;> rfl

/-- R77: only a code whose exponent and fraction are 0 is a zero. -/
theorem decodeFloat_ne_zero {e f bias w : Nat} (h : w % 2 ^ (e + f) ≠ 0) : (decodeFloat e f bias w).2 ≠ 0 := by
  unfold decodeFloat
  dsimp only
  split
  case isTrue hex =>
    refine mul_ne_zero (Nat.cast_ne_zero.mpr fun hfrac => h ?_) (pow2_pos _).ne'
    rw [Nat.add_comm, pow_add, Nat.mod_mul, hfrac, hex]
    simp
  case isFalse => exact mul_ne_zero (Nat.cast_ne_zero.mpr (by positivity)) (pow2_pos _).ne'

theorem of32_finite {w : BitVec 32} (h : w.toNat / 2 ^ 23 % 256 ≠ 255) :
    of32 w = .fin (decodeFloat 8 23 127 w.toNat).1 (decodeFloat 8 23 127 w.toNat).2 := if_neg h

/-- A word above the code of -0 is NaN or below 0. -/
theorem of32_of_negative {w : BitVec 32} (h : 0x80000000 < w.toNat) :
    of32 w = .nan ∨ of32 w = .inf true ∨ ∃ x, x ≠ 0 ∧ of32 w = .fin true x := by
  have hw := w.isLt
  have hsign : w.toNat / 2 ^ 31 = 1 := by omega
  by_cases hex : w.toNat / 2 ^ 23 % 256 = 255
  · simp only [of32, hex, hsign, if_true, decide_true]
    split <;> simp
  · refine .inr (.inr ⟨_, decodeFloat_ne_zero (e := 8) (f := 23) (bias := 127) (w := w.toNat) (by omega), ?_⟩)
    rw [of32_finite hex, decodeFloat_neg, hsign]
    rfl

/-- The word of 2^e. -/
theorem of32_two_pow {w : BitVec 32} {e : Nat} (he : e < 128) (hw : w.toNat = (e + 127) * 2 ^ 23) : of32 w = .fin false ((2 ^ e : Nat) : Rat) := by
  have hex : w.toNat / 2 ^ 23 % 256 = e + 127 := by omega
  have hfrac : w.toNat % 2 ^ 23 = 0 := by omega
  have hsign : w.toNat / 2 ^ 31 % 2 = 0 := by omega
  have hmag : (decodeFloat 8 23 127 w.toNat).2 = ((2 ^ e : Nat) : Rat) := by
    have hscale : ((e + 127 : Nat) : Int) - (127 : Nat) - (23 : Nat) = (e : Int) - (23 : Nat) := by omega
    simp only [decodeFloat, hfrac, (by decide : (2 : Nat) ^ 8 = 256), hex]
    rw [if_neg (by omega), Nat.add_zero, hscale, pow2_eq_zpow, zpow_sub₀ two_ne_zero, zpow_natCast, zpow_natCast]
    push_cast
    ring
  rw [of32_finite (by omega), decodeFloat_neg, hmag, hsign]
  rfl

@[simp] theorem of32_zero : of32 0#32 = .fin false 0 := by
  simp [of32, decodeFloat]
@[simp] theorem of32_negZero : of32 0x80000000#32 = .fin true 0 := by
  simp [of32, decodeFloat]
@[simp] theorem of32_inf : of32 0x7F800000#32 = .inf false := rfl
@[simp] theorem of32_negInf : of32 0xFF800000#32 = .inf true := rfl
@[simp] theorem of32_nan32 : of32 nan32 = .nan := rfl

/-- Only a code whose exponent is all ones has no finite value. -/
theorem flushSub_of_not_finite {a : BitVec 32} (h : ∀ n x, of32 a ≠ .fin n x) : flushSub a = a := by
  refine if_neg fun hex => ?_
  exact h _ _ (of32_finite (by omega))

theorem ofRat_of_nonneg {x : Rat} (h : 0 ≤ x) : ofRat false x = .fin false x := by
  rw [ofRat, if_neg (not_lt.mpr h), decide_eq_false (not_lt.mpr h)]
  split
  case isTrue hx => rw [hx]
  case isFalse => rfl

/-! ### Integers (R210) -/

theorem ofI32_eq (a : BitVec 32) :
    ofI32 a = round32 (if a = 0 then .fin false 0 else .fin (decide (a.toInt < 0)) (a.toInt.natAbs : Rat)) := by
  have hzero : a = 0 ↔ a.toInt = 0 := (BitVec.toInt_inj (y := 0)).symm
  simp only [ofI32, ofRat, hzero, Int.cast_eq_zero, Int.cast_lt_zero, Nat.cast_natAbs, Int.cast_abs]
  by_cases hneg : a.toInt < 0
  · rw [if_pos hneg, abs_of_neg (Int.cast_lt_zero.mpr hneg)]
  · rw [if_neg hneg, abs_of_nonneg (Int.cast_nonneg (not_lt.mp hneg))]

theorem toInt_toI32_inf {a : BitVec 32} {neg : Bool} (h : of32 a = .inf neg) : (toI32 a).toInt = if neg then -2 ^ 31 else 2 ^ 31 - 1 := by
  rw [toI32, h]
  cases neg <;> rfl

theorem toInt_toI32_fin {a : BitVec 32} {neg : Bool} {m : Rat} (h : of32 a = .fin neg m) :
    (toI32 a).toInt = max (-2 ^ 31) (min (2 ^ 31 - 1) (if neg then -(rne m : Int) else rne m)) := by
  rw [toI32, h]
  dsimp only
  generalize rne m = r
  cases neg
  case false =>
    simp only [Bool.false_eq_true, if_false]
    split
    case isTrue hr => have hmax : (0x7FFFFFFF : BitVec 32).toInt = 2 ^ 31 - 1 := rfl; omega
    case isFalse hr =>
      rw [← BitVec.ofInt_natCast, BitVec.toInt_ofInt_eq_self (by decide) (by omega) (by omega)]
      omega
  case true =>
    simp only [if_true]
    split
    case isTrue hr => have hmin : (0x80000000 : BitVec 32).toInt = -2 ^ 31 := rfl; omega
    case isFalse hr =>
      rw [BitVec.toInt_ofInt_eq_self (by decide) (by omega) (by omega)]
      omega

/-! ### Special functions (R224) -/

theorem fmul_nan {a : BitVec 32} (h : of32 a = .nan) (b : BitVec 32) : fmul a b = nan32 := by
  simp only [fmul, h, vmul, round32]

theorem exp2t_nan {a : BitVec 32} (h : of32 a = .nan) : exp2t a = nan32 := by
  simp only [exp2t, h]

end Sys2Proof.Machine.Num

namespace Sys2Proof.Machine.Special

open Sys2Proof.Machine.Num

theorem apply_nan {a : BitVec 32} (h : of32 a = .nan) (fn : Nat) : apply fn a = nan32 := by
  unfold apply
  rw [flushSub_of_not_finite (by simp [h])]
  split
  case h_1 => exact exp2t_nan h
  case h_2 => rw [log2f, h]
  case h_3 => rw [rcp, h]
  case h_4 => rw [rsqrt, h]
  case h_5 => rw [trig, h]
  case h_6 => rw [trig, h]
  case h_7 => exact (congrArg exp2t (fmul_nan h _)).trans (exp2t_nan of32_nan32)

theorem log2f_negative {w : BitVec 32} (h : 0x80000000 < w.toNat) : log2f w = nan32 := by
  rcases of32_of_negative h with hw | hw | ⟨x, hx, hw⟩ <;> simp [log2f, *]

theorem rsqrt_negative {w : BitVec 32} (h : 0x80000000 < w.toNat) : rsqrt w = nan32 := by
  rcases of32_of_negative h with hw | hw | ⟨x, hx, hw⟩ <;> simp [rsqrt, *]

theorem apply_log2_two_pow {a : BitVec 32} {e : Nat} (he : e < 128) (ha : a.toNat = (e + 127) * 2 ^ 23) :
    apply 1 a = round32 (.fin false e) := by
  have hflush : flushSub a = a := if_neg (by omega)
  have hpos : ((2 ^ e : Nat) : Rat) ≠ 0 := Nat.cast_ne_zero.mpr (by positivity)
  have hexact : isPow2 ((2 ^ e : Nat) : Rat) = true := decide_eq_true (by rw [log2_two_pow]; rfl)
  show log2f (flushSub a) = _
  rw [hflush, log2f, of32_two_pow he ha]
  dsimp only
  rw [if_neg hpos, if_neg Bool.false_ne_true, if_pos hexact, log2_two_pow,
    ofRat_of_nonneg (Int.cast_nonneg (Int.natCast_nonneg e)), Int.cast_natCast]

/-! The infinities and the zeros (R225) -/

theorem log2f_inf : log2f 0x7F800000 = 0x7F800000 := by simp [log2f]
theorem log2f_zero {w : BitVec 32} (h : w = 0 ∨ w = 0x80000000) : log2f w = 0xFF800000 := by
  rcases h with rfl | rfl <;> simp [log2f]
theorem rcp_inf : rcp 0x7F800000 = 0 := by simp [rcp]
theorem rcp_negInf : rcp 0xFF800000 = 0x80000000 := by simp [rcp]
theorem rcp_zero : rcp 0 = 0x7F800000 := by simp [rcp]
theorem rcp_negZero : rcp 0x80000000 = 0xFF800000 := by simp [rcp]
theorem rsqrt_inf : rsqrt 0x7F800000 = 0 := by simp [rsqrt]
theorem rsqrt_zero : rsqrt 0 = 0x7F800000 := by simp [rsqrt]
theorem rsqrt_negZero : rsqrt 0x80000000 = 0xFF800000 := by simp [rsqrt]

theorem trig_inf {a : BitVec 32} {neg : Bool} (h : of32 a = .inf neg) (fn : Nat) : trig fn (flushSub a) = nan32 := by
  rw [flushSub_of_not_finite (by simp [h]), trig, h]

/-- A word of a zero, of either sign. -/
theorem trig_zero {w : BitVec 32} (h : w = 0 ∨ w = 0x80000000) (fn : Nat) : trig fn w = if fn == 5 then 0x3F800000 else w := by
  rcases h with rfl | rfl <;> simp [trig]

end Sys2Proof.Machine.Special
end

section
/-! PROOFS. The vector instructions of groups 0x20, 0x21, 0x24, 0x26 and 0x27, as stated: every lane of the result. -/

namespace Sys2Proof.Machine

/-- Settles O26: each clause follows from the equation of its operation. VMIN, VMAX, VABS and VNEG flush subnormals (log entry 13), the table of the
exponential (log entry 7) and the approximations of the special functions (log entry 8) are choices of the model; the statement names the first
two through the model's `round32`, `roundBf16` and `exp2t`, and no clause rests on an approximation. -/
theorem vectorResults : Obligations.VectorResults := by
  unfold Obligations.VectorResults
  intro word lanesSuch mag
  have hlanes : lanesSuch = LanesSuch := rfl
  clear_value lanesSuch
  subst hlanes
  refine ⟨?fp32, ?bf16, ?laneMove, ?vq, ?vx, ?i2f, ?f2i, ?special⟩
  case fp32 =>
    refine onIssue_lanesBy (g := 0x20) (f := lane32) (fun _ _ _ _ => rfl) (lanewise_run _ _) (fun _ => beq_iff_eq.mp) fun fn a b d => ?_
    refine ⟨?_, ?_, ?_, ?_, ?_, ?_, ?_, ?_, ?_, ?_, ?_⟩
    all_goals rintro rfl; rfl
  case bf16 =>
    refine onIssue_lanesBy (g := 0x21) (f := lanePair) (fun _ _ _ _ => rfl) (lanewise_run _ _) (fun _ => beq_iff_eq.mp) fun fn a b d h hh => ?_
    rw [extractLsb'_lanePair hh]
    refine ⟨?_, ?_, ?_, ?_, ?_, ?_, ?_, ?_, ?_, ?_, ?_⟩
    all_goals rintro rfl; rfl
  case laneMove =>
    refine onIssue_of_run (fun _ _ _ _ => rfl) (fun _ _ _ _ => rfl) fun u t c n haccept hlegal => ?_
    have hgroup : insnGroup n = 0x24 := beq_iff_eq.mp haccept
    refine ⟨(hgroup ▸ fnOf_le_lastFn hlegal :), fun hfn => ?_, fun hfn => ?_, fun hfn => ?_, fun hfn => ?_, fun hfn => ?_, fun hfn => ?_,
      fun hfn => ?_, fun hfn => ?_⟩
    · rw [State.laneMove_vbcast hfn]; rfl
    · rw [State.laneMove_vext hfn]; rfl
    · rw [State.laneMove_vins hfn]; rfl
    · rw [State.laneMove_vrot hfn]; rfl
    · rw [State.laneMove_viota hfn]; rfl
    · rw [State.laneMove_vredAdd hfn]; rfl
    · rw [State.laneMove_vredMax hfn]; exact ⟨_, rfl, rfl⟩
    · rw [State.laneMove_vredAddI hfn]
      exact ⟨_, rfl, (toNat_foldl_signExtend _ 0).trans (congrArg (· % 2 ^ 64) (Nat.zero_add _))⟩
  case vq =>
    refine onIssue_of_run (fun _ _ _ _ => rfl) (fun _ _ _ _ => rfl) fun u t c n haccept hlegal => ?_
    obtain ⟨hgroup, hop⟩ : insnGroup n = 0x26 ∧ fieldOf n 31 30 = 0 := cvtOp_accept_iff.mp haccept
    have hpart := part_le_of_legal hgroup (by omega) hlegal
    refine ⟨u.vqLanes t c n, State.length_vqLanes hpart, fun i j => State.getLsbD_vqLanes hpart, fun i => State.getElem?_vqLanes_outside hpart,
      fun hq => ?_, fun hq => ?_⟩
    · rw [State.vq_eq, if_neg (by simp [hq])]
    · rw [State.vq_eq, if_pos hq]; rfl
  case vx =>
    refine onIssue_of_run (fun _ _ _ _ => rfl) (fun _ _ _ _ => rfl) fun u t c n haccept hlegal => ?_
    obtain ⟨hgroup, hop⟩ : insnGroup n = 0x26 ∧ fieldOf n 31 30 = 1 := cvtOp_accept_iff.mp haccept
    have hpart := part_le_of_legal hgroup (by omega) hlegal
    rw [State.vx_eq]
    refine ⟨_, rfl, by rw [List.length_map, State.length_vxElements]; rfl, fun i v hv => ?_⟩
    rw [List.getElem?_map, Option.map_eq_some_iff] at hv
    obtain ⟨e, he, rfl⟩ := hv
    obtain ⟨hlt, hbits⟩ := State.vxElements_bits hpart he
    exact ⟨e, hlt, hbits, rfl⟩
  case i2f =>
    exact onIssue_lanesBy (g := 0x26) (f := fun _ a _ _ => Num.ofI32 a) (fun _ _ _ _ => rfl) (cvtOp_run 2 _)
      (fun _ h => (cvtOp_accept_iff.mp h).1) fun fn a b d => Num.ofI32_eq a
  case f2i =>
    refine onIssue_lanesBy (g := 0x26) (f := fun _ a _ _ => Num.toI32 a) (fun _ _ _ _ => rfl) (cvtOp_run 3 _)
      (fun _ h => (cvtOp_accept_iff.mp h).1) fun fn a b d => ⟨fun h => ?_, fun neg => Num.toInt_toI32_inf, fun neg m => Num.toInt_toI32_fin⟩
    rw [Num.toI32, h]
  case special =>
    refine onIssue_lanesBy (g := 0x27) (f := fun fn a _ _ => Special.apply fn a) (fun _ _ _ _ => rfl) specialOp_run (fun _ => beq_iff_eq.mp)
      fun fn a b d => ?_
    refine ⟨?vexp2, ?vexp, fun h => Special.apply_nan h fn, ?logInf, ?logZero, ?logNegative, ?logPower, ?rcpInf, ?rcpNegInf, ?rcpZero, ?rcpNegZero,
      ?rsqrtInf, ?rsqrtZero, ?rsqrtNegZero, ?rsqrtNegative, ?trigInf, ?sinZero, ?cosZero⟩
    case vexp2 => rintro rfl; rfl
    case vexp => rintro rfl; rfl
    case logInf => rintro rfl hw; exact (congrArg Special.log2f hw).trans Special.log2f_inf
    case logZero => rintro rfl hw; exact Special.log2f_zero hw
    case logNegative => rintro rfl hw; exact Special.log2f_negative hw
    case logPower => rintro rfl e he ha; exact Special.apply_log2_two_pow he ha
    case rcpInf => rintro rfl hw; exact (congrArg Special.rcp hw).trans Special.rcp_inf
    case rcpNegInf => rintro rfl hw; exact (congrArg Special.rcp hw).trans Special.rcp_negInf
    case rcpZero => rintro rfl hw; exact (congrArg Special.rcp hw).trans Special.rcp_zero
    case rcpNegZero => rintro rfl hw; exact (congrArg Special.rcp hw).trans Special.rcp_negZero
    case rsqrtInf => rintro rfl hw; exact (congrArg Special.rsqrt hw).trans Special.rsqrt_inf
    case rsqrtZero => rintro rfl hw; exact (congrArg Special.rsqrt hw).trans Special.rsqrt_zero
    case rsqrtNegZero => rintro rfl hw; exact (congrArg Special.rsqrt hw).trans Special.rsqrt_negZero
    case rsqrtNegative => rintro rfl hw; exact Special.rsqrt_negative hw
    case trigInf => rintro (rfl | rfl) ⟨neg, ha⟩ <;> exact Special.trig_inf ha _
    case sinZero => rintro rfl hw; exact Special.trig_zero hw 4
    case cosZero => rintro rfl hw; exact Special.trig_zero hw 5

end Sys2Proof.Machine
end

section
/-! PROOFS. The vitrine's requests (R138, R140, R222): where the model's meaning of a write departs from its statement. An accepted request of a
VSCATTER.ADD's read holds its banks and stores nothing, whatever its write flag says; the unit itself presents such requests as reads alone. -/

namespace Sys2Proof.Machine

/-- R141, R142: the errors that a read finds leave the stored bytes. -/
theorem State.vit_readErrors (s : State) (t : Nat) (cells corr uncorr : List Nat) :
    ((s.readErrors t cells corr uncorr).site t).vit = (s.site t).vit := by
  unfold State.readErrors
  extract_lets v bad
  have hv : (v.site t).vit = (s.site t).vit := by rw [State.site_modSite_same]
  refine (foldl_leaves (fun u : State => (u.site t).vit) (fun u c => ?_) cells v).trans hv
  split
  · simp [State.site_uncorrectable, State.tbump, State.setTreg]
  · split
    · simp [State.tbump, State.setTreg]
    · rfl

/-- R222: the read of a VSCATTER.ADD leaves the stored bytes, whether it is accepted, refused or answered CLOSED. -/
theorem State.vit_considerReq_addRead (s : State) (t : Nat) {r : VitReq} {id piece : Nat} (corr uncorr : List Nat)
    (huser : r.user = .addRead id piece) (hamo : r.amo = none) :
    ((s.considerReq t r corr uncorr).site t).vit = (s.site t).vit := by
  unfold State.considerReq
  extract_lets x closed taken
  split
  · simp [taken, Site.dropReq, Site.release, huser]
  · split
    · simp [State.setTreg]
    · rw [State.site_modSite_same, ← s.vit_readErrors t r.readCells corr uncorr, hamo, huser]
      dsimp only
      split <;> rfl

/-- A request to write byte 64 in the name of a VSCATTER.ADD's read. -/
def writingAddRead : VitReq :=
  { port := 2, user := .addRead 0 0, write := true, cells := [16], data := [(64, 1)], masks := [], amo := none, wait := 0 }

/-- The reset module, with that request presented at site 0, whose segments are open. -/
def writingAddReadPresented : State := State.reset.modSite 0 fun x => { x with reqs := [writingAddRead] }

/-- Refutes O34: its clause about writes asks that a write without an AMO store its bytes, whoever its user is. The write of a VSCATTER.ADD's read is
accepted and stores nothing, so byte 64 stays 0 where the clause asks for 1. -/
theorem not_vitrineAndSegments : ¬ Obligations.VitrineAndSegments := by
  unfold Obligations.VitrineAndSegments
  rintro ⟨⟨haccept, -, -, -⟩, -⟩
  have hnext : (writingAddReadPresented.site 0).nextReq = some writingAddRead := by decide
  have hopen : writingAddReadPresented.segState 0 (cellSeg 16) = 0 := by decide
  have hfree : (writingAddReadPresented.site 0).conflicts writingAddRead = false := by decide
  obtain ⟨u, hdoes, -, -, haccepted⟩ := haccept writingAddReadPresented 0 16 [] [] [] writingAddRead hnext rfl (by decide)
  obtain ⟨-, -, -, hwrite, -⟩ := haccepted hopen hfree
  have hstored : (u.site 0).vitByte 64 = 1 := ((hwrite rfl rfl (by decide)).1 (64, 1) (by decide)).trans (by decide)
  have hkept : (u.site 0).vit = (writingAddReadPresented.site 0).vit := by
    rw [Does, exec_vitRequestAccept, execVitRequestAccept, hnext] at hdoes
    injection hdoes with hu
    rw [← hu]
    exact State.vit_considerReq_addRead _ 0 [] [] rfl rfl
  have hzero : (writingAddReadPresented.site 0).vitByte 64 = 0 := by decide
  rw [Site.vitByte, hkept, ← Site.vitByte, hzero] at hstored
  exact absurd hstored (by decide)

end Sys2Proof.Machine
end

section
/-! PROOFS. Whether an instruction of a core issues (R153-R157, R178, R179), and what an instruction leaves whose work is to write one s
register. -/

namespace Sys2Proof.Machine

/-! ### Guards, cores that do not run, and fetch exceptions -/

/-- R155: the pc after a word, by the bit that says its length. -/
theorem nextPc_eq (pc n : Nat) : nextPc pc n = (pc + if n % 2 = 1 then 8 else 4) % 2 ^ 64 := by
  simp only [nextPc, insnBytes, insnLong, beq_iff_eq]

theorem Core.guardOk_eq (k : Core) (n : Nat) : guardOk n k.p = (k.pred (fieldOf n 9 7) != n.testBit 10) := by
  have h : fieldOf n 9 7 % 8 = fieldOf n 9 7 := Nat.mod_mod _ _
  rw [guardOk, Core.pred, h]

/-- Settles O7: a word whose guard is false is passed over. -/
theorem guardedWordsPassOver : Obligations.GuardedWordsPassOver := by
  intro i t c n f op s u hi hmay hfetch hlegal haccept hguard
  have hfalse : guardOk n (u.core t c).p = false := by rw [Core.guardOk_eq, hguard, bne_self_eq_false]
  rw [coreInstr_exec hi, issue_of_guard hmay hfetch hlegal haccept hfalse, nextPc_eq]

theorem State.mayIssue_of_not_running {s : State} {t c : Nat} (h : s.coreState t c ≠ 1) : s.mayIssue t c = false := by
  have hstate : (s.coreState t c == 1) = false := beq_false_of_ne h
  simp only [State.mayIssue, hstate, Bool.and_false, Bool.false_and]

theorem State.mayIssue_of_in_reset {s : State} {t c : Nat} (h : s.tbit t R.TILE_RESET 31 = true) : s.mayIssue t c = false := by
  have hruns : s.siteRuns t = false := by
    simp only [State.siteRuns, State.siteBusy, h, Bool.true_or, Bool.not_true, Bool.and_false, Bool.false_and]
  simp only [State.mayIssue, hruns, Bool.and_false, Bool.false_and]

section
variable {s : State} {t c : Nat}

theorem State.fetch_misaligned (f : Fetched) (h : (s.core t c).pc % 4 ≠ 0) : s.fetch t c f = .exc 3 (s.core t c).pc s := by
  simp only [State.fetch, bne_iff_ne, ne_eq, h, not_false_eq_true, if_true]

theorem State.fetch_beyond_store (f : Fetched) (h : (s.core t c).pc % 4 = 0) (hk : kindOf t ≠ .s) (hpc : 0x20000 ≤ (s.core t c).pc) :
    s.fetch t c f = .exc 4 (s.core t c).pc s := by
  simp only [State.fetch, h, bne_self_eq_false, Bool.false_eq_true, if_false, hk, State.fetchStore, hpc, if_true]

theorem State.fetch_uncorrectable (h : (s.core t c).pc % 4 = 0) (hk : kindOf t ≠ .s) (hpc : (s.core t c).pc < 0x20000) :
    s.fetch t c (.ecc 0) = .exc 5 (s.core t c).pc s := by
  simp only [State.fetch, h, bne_self_eq_false, Bool.false_eq_true, if_false, hk, State.fetchStore, Nat.not_le.mpr hpc, beq_self_eq_true, if_true]

end

/-- Settles O8: a core that may not issue holds the command, a fetch that raises an exception is taken as it stands, and an illegal word raises
ILLEGAL. That a command whose core may not issue has no effect is log entry 1. -/
theorem reasonsNotToIssue : Obligations.ReasonsNotToIssue := by
  refine ⟨?held, ?fetch, ?illegal⟩
  case held =>
    intro i t c f op s hi hstop
    rw [coreInstr_exec hi]
    exact issue_of_held (hstop.elim State.mayIssue_of_not_running State.mayIssue_of_in_reset)
  case fetch =>
    intro i t c f op s hi hmay u pc
    have hraise : ∀ {cause}, u.fetch t c f = .exc cause pc u → exec i s = .next (u.raises t c cause pc pc) := fun h => by
      rw [coreInstr_exec hi, issue_of_exc hmay h]
    refine ⟨fun h => hraise (State.fetch_misaligned f h), fun h hk hpc => hraise (State.fetch_beyond_store f h hk hpc), ?_⟩
    rintro h hk hpc rfl
    exact hraise (State.fetch_uncorrectable h hk hpc)
  case illegal =>
    intro i t c n f op s u hi hmay hfetch hillegal
    rw [coreInstr_exec hi, issue_of_illegal hmay hfetch hillegal]
    rfl

/-! ### The frame of a register write -/

theorem Core.setS_eq (k : Core) (r : Nat) (v : BitVec 64) : k.setS r v = { k with s := (k.setS r v).s } := by
  unfold Core.setS
  split <;> rfl

theorem Core.getS_setS_lt (k : Core) {r d : Nat} (v : BitVec 64) (hr : r < 32) (hd : d < 32) :
    (k.setS d v).getS r = if r = 0 then 0 else if r = d then v else k.getS r := by
  by_cases h0 : r = 0
  · rw [if_pos h0, h0, Core.getS_zero]
  rw [if_neg h0]
  by_cases h : r = d
  · rw [if_pos h, h, Core.getS_setS_same _ _ (by omega)]
  · rw [if_neg h, Core.getS_setS_other _ _ (by omega)]

theorem State.modCore_eq (s : State) (t c : Nat) (f : Core → Core) : ∃ sites, s.modCore t c f = { s with sites := sites } := ⟨_, rfl⟩

theorem State.site_modCore_same (s : State) (t c : Nat) (f : Core → Core) :
    (s.modCore t c f).site t = { s.site t with cores := Map.modify (fun _ => Core.reset) (s.site t).cores c f } :=
  s.site_modSite_same t _

theorem State.site_modCore_other (s : State) {t x : Nat} (c : Nat) (f : Core → Core) (h : x ≠ t) : (s.modCore t c f).site x = s.site x :=
  s.site_modSite_other _ h

/-- The note of a single step changes the debug block alone. -/
theorem State.stepIssued_eq (s : State) (t c : Nat) :
    ∃ awaiting steps, s.stepIssued t c = { s with dbg := { s.dbg with awaiting := awaiting, steps := steps } } := by
  unfold State.stepIssued
  split
  · exact ⟨_, _, rfl⟩
  · exact ⟨s.dbg.awaiting, s.dbg.steps, rfl⟩

@[simp] theorem State.sites_stepIssued (s : State) (t c : Nat) : (s.stepIssued t c).sites = s.sites := by
  obtain ⟨_, _, h⟩ := s.stepIssued_eq t c
  rw [h]

@[simp] theorem State.site_stepIssued (s : State) (t c x : Nat) : (s.stepIssued t c).site x = s.site x := by
  rw [State.site, State.sites_stepIssued, State.site]

@[simp] theorem State.core_stepIssued (s : State) (t c x d : Nat) : (s.stepIssued t c).core x d = s.core x d := by
  rw [State.core, State.site_stepIssued, State.core]

section
variable (u : State) (t c pc : Nat)

theorem State.core_onward_same : (u.onward t c pc).core t c = { u.core t c with pc := pc, atVector := false } := by
  rw [State.onward, State.core_stepIssued, State.core_modCore_same]

theorem State.core_onward_other {d : Nat} (h : d ≠ c) : (u.onward t c pc).core t d = u.core t d := by
  rw [State.onward, State.core_stepIssued, State.core_modCore_other _ _ (.inr h)]

theorem State.site_onward_same : (u.onward t c pc).site t = { u.site t with cores := ((u.onward t c pc).site t).cores } := by
  rw [State.onward, State.site_stepIssued, State.site_modCore_same]

theorem State.site_onward_other {x : Nat} (h : x ≠ t) : (u.onward t c pc).site x = u.site x := by
  rw [State.onward, State.site_stepIssued, State.site_modCore_other _ _ _ h]

/-- Outside the sites, the write of an s register and the step to the next word change only the note of a single step. -/
theorem State.setS_onward_eq (d : Nat) (v : BitVec 64) : ∃ sites awaiting steps,
    (u.setS t c d v).onward t c pc = { u with sites := sites, dbg := { u.dbg with awaiting := awaiting, steps := steps } } := by
  obtain ⟨written, hwritten⟩ := u.modCore_eq t c fun k => k.setS d v
  obtain ⟨sites, hmoved⟩ := (u.setS t c d v).modCore_eq t c fun k => { k with pc := pc, atVector := false }
  obtain ⟨awaiting, steps, hnoted⟩ := ((u.setS t c d v).modCore t c fun k => { k with pc := pc, atVector := false }).stepIssued_eq t c
  exact ⟨sites, awaiting, steps, by rw [State.onward, hnoted, hmoved, State.setS, hwritten]⟩

end

/-- Settles O29: the write and the step to the next word change two fields of the core and its trap-entry mark, and the note of a single step the
debug block. -/
theorem registerWritesFrame : Obligations.RegisterWritesFrame := by
  intro i t c n d f op s u v hi hissues hrun hd
  have hexec : exec i s = .next ((u.setS t c d v).onward t c (nextPc (u.core t c).pc n)) := by
    rw [coreInstr_exec hi, issue_of_issues hissues, hrun]
  refine ⟨_, hexec, ?_⟩
  obtain ⟨_, _, _, hframe⟩ := u.setS_onward_eq t c (nextPc (u.core t c).pc n) d v
  have hcore := (u.setS t c d v).core_onward_same t c (nextPc (u.core t c).pc n)
  rw [State.setS, State.core_modCore_same, ← State.setS] at hcore
  refine ⟨by rw [hframe], fun r hr => ?_, by rw [hcore], by rw [hcore, Core.setS_eq], fun c' hc => ?_, fun t' ht => ?_, ?_, by rw [hframe]⟩
  · rw [hcore, ← (u.core t c).getS_setS_lt v hr hd]
    rfl
  · rw [State.core_onward_other _ _ _ _ hc, State.setS, State.core_modCore_other _ _ (.inr hc)]
  · rw [State.site_onward_other _ _ _ _ ht, State.setS, State.site_modCore_other _ _ _ ht]
  · rw [State.site_onward_same, State.setS, State.site_modCore_same]

end Sys2Proof.Machine
end

section
/-! PROOFS. Integer operations (R159-R163): immediates and words extended by their sign, the fields of a legal word, and the result of each
function of groups 0x00 to 0x09 and 0x0D. -/

namespace Sys2Proof.Machine

/-! ### Extension by the sign -/

theorem toInt_sext {w : Nat} (hw : w ≤ 64) (v : Nat) : (sext w v).toInt = (v : Int).bmod (2 ^ w) := by
  rw [sext, BitVec.toInt_signExtend_of_le hw, BitVec.toInt_ofNat']

theorem sext_eq_ofInt {w : Nat} (hw : w ≤ 64) (v : Nat) : sext w v = BitVec.ofInt 64 ((v : Int).bmod (2 ^ w)) := by
  rw [← toInt_sext hw, BitVec.ofInt_toInt]

/-- The low w bits of a register, sign-extended. -/
theorem signExtend_extractLsb' (w : Nat) (a : BitVec 64) : (a.extractLsb' 0 w).signExtend 64 = sext w a.toNat := by
  rw [sext, BitVec.extractLsb', Nat.shiftRight_zero]

theorem toInt_sextw (a : BitVec 64) : (sextw a).toInt = (a.toNat : Int).bmod (2 ^ 32) := by
  rw [sextw, signExtend_extractLsb', toInt_sext (by decide)]

/-- The sign extension of a word of a sum or product depends on its number modulo 2^32 alone. -/
theorem toInt_sextw_of_modEq {a : BitVec 64} {m : Int} (h : (a.toNat : Int) ≡ m [ZMOD 2 ^ 32]) : (sextw a).toInt = m.bmod (2 ^ 32) := by
  rw [toInt_sextw]
  have h' : (a.toNat : Int) % (2 ^ 32 : Nat) = m % (2 ^ 32 : Nat) := h
  rw [← Int.emod_bmod, h', Int.emod_bmod]

theorem toNat_zeroExtend_extractLsb' {w : Nat} (hw : w ≤ 64) (a : BitVec 64) : ((a.extractLsb' 0 w).zeroExtend 64).toNat = a.toNat % 2 ^ w := by
  rw [BitVec.zeroExtend, BitVec.toNat_setWidth_of_le hw, BitVec.extractLsb'_toNat, Nat.shiftRight_zero]

theorem toInt_sshiftRight_eq_div (a : BitVec 64) (k : Nat) : (a.sshiftRight k).toInt = a.toInt / 2 ^ k := by
  rw [BitVec.toInt_sshiftRight, Int.shiftRight_eq_div_pow]
  norm_cast

/-! ### What an instruction leaves that writes an s register -/

theorem writesSuch_of_run {i : Nat → Nat → Fetched → Instr} {op : CoreOp} {value : State → Nat → Nat → Nat → BitVec 64}
    {rule : State → Nat → Nat → Nat → BitVec 64 → Prop} (he : ∀ t c f s, exec (i t c f) s = s.issue t c f op)
    (hr : ∀ u t c n, op.run u t c n = .next (u.setS t c (dOf n) (value u t c n)))
    (h : ∀ u t c n, op.accept n = true → illegal (kindOf t) n = false → rule u t c n (value u t c n)) : WritesSuch i op rule :=
  fun t c n f s u hi => ⟨value u t c n, completesWith_of_run he hr t c n f s u hi, h u t c n hi.covered hi.legal⟩

/-! ### Legal words (R157) -/

section
variable {k : TileKind} {n : Nat} (h : illegal k n = false)
include h

theorem illegalFields_of_legal : illegalFields k n = false := by
  simp only [illegal, Bool.or_eq_false_iff] at h
  exact h.2

theorem aluFn_of_legal (hg : insnGroup n = 0x00) : 1 ≤ fnOf n ∧ fnOf n ≤ 17 := by
  have := illegalFields_of_legal h
  simp only [illegalFields, hg, Bool.or_eq_false_iff, decide_eq_false_iff_not, beq_eq_false_iff_ne] at this
  omega

theorem shift_of_legal (hg : 0x05 ≤ insnGroup n) (hg' : insnGroup n ≤ 0x07) : fieldOf n 31 27 = 0 ∧ insnLong n = false := by
  have := illegalFields_of_legal h
  obtain hg | hg | hg : insnGroup n = 0x05 ∨ insnGroup n = 0x06 ∨ insnGroup n = 0x07 := by omega
  all_goals
    simp only [illegalFields, hg, Bool.or_eq_false_iff, bne_eq_false_iff_eq] at this
    exact this.symm

theorem li_of_legal (hg : insnGroup n = 0x08) (hlong : insnLong n = true) :
    fieldOf n 31 21 ≤ 2 ∧ (fieldOf n 31 21 ≠ 2 → saOf n = 0) := by
  have := illegalFields_of_legal h
  simp only [illegalFields, hg, hlong, Bool.true_and, Bool.or_eq_false_iff, decide_eq_false_iff_not, Bool.and_eq_false_iff,
    bne_eq_false_iff_eq] at this
  omega

theorem mulDivFn_of_legal (hg : insnGroup n = 0x09) : fnOf n ≤ 7 := by
  have := illegalFields_of_legal h
  simp only [illegalFields, hg, Bool.or_eq_false_iff, decide_eq_false_iff_not] at this
  omega

theorem bitFn_of_legal (hg : insnGroup n = 0x0D) : fnOf n ≤ 9 ∧ sbOf n = 0 := by
  have := illegalFields_of_legal h
  simp only [illegalFields, hg, Bool.or_eq_false_iff, decide_eq_false_iff_not, bne_eq_false_iff_eq] at this
  omega

end

/-! ### Group 0x00 (R160) -/

theorem getLsbD_and_complement (a b : BitVec 64) (i : Nat) : (a &&& ~~~b).getLsbD i = (a.getLsbD i && !b.getLsbD i) := by
  by_cases h : i < 64
  · simp [h]
  · simp [BitVec.getLsbD_of_ge a i (by omega)]

theorem toInt_smin (a b : BitVec 64) : (smin a b).toInt = min a.toInt b.toInt := by
  rw [smin, apply_ite BitVec.toInt, min_def]

theorem toInt_smax (a b : BitVec 64) : (smax a b).toInt = max a.toInt b.toInt := by
  rw [smax, apply_ite BitVec.toInt, max_def]

theorem toInt_sextw_add (a b : BitVec 64) : (sextw (a + b)).toInt = ((a.toNat + b.toNat : Nat) : Int).bmod (2 ^ 32) := by
  refine toInt_sextw_of_modEq ?_
  rw [BitVec.toNat_add, Int.ModEq]
  omega

theorem toInt_sextw_sub (a b : BitVec 64) : (sextw (a - b)).toInt = ((a.toNat : Int) - (b.toNat : Int)).bmod (2 ^ 32) := by
  refine toInt_sextw_of_modEq ?_
  rw [BitVec.toNat_sub, Int.ModEq]
  omega

/-- Settles O10: the function of the word picks one operation, whose value is that of R160. -/
theorem aluRegisterResults : Obligations.AluRegisterResults := by
  refine writesSuch_of_run (value := fun u t c n => alu (fnOf n) (u.sreg t c (saOf n)) (u.sreg t c (sbOf n)))
    (fun _ _ _ _ => rfl) (fun _ _ _ _ => rfl) fun u t c n haccept hlegal => ?_
  obtain ⟨hlo, hhi⟩ := aluFn_of_legal hlegal (beq_iff_eq.mp haccept)
  dsimp only
  generalize fnOf n = fn at *
  generalize u.sreg t c (saOf n) = a
  generalize u.sreg t c (sbOf n) = b
  refine ⟨?add, ?sub, ?and, ?or, ?xor, ?andn, ?shl, ?shr, ?sar, ?min, ?max, ?minu, ?maxu, ?slt, ?sltu, ?addw, ?subw, hlo, hhi⟩ <;> rintro rfl
  case add => exact BitVec.toNat_add a b
  case sub => rw [alu, BitVec.toNat_sub, Nat.add_comm]
  case and => exact fun i => BitVec.getLsbD_and
  case or => exact fun i => BitVec.getLsbD_or
  case xor => exact fun i => BitVec.getLsbD_xor
  case andn => exact fun i => getLsbD_and_complement a b i
  case shl => rw [alu, BitVec.toNat_shiftLeft, Nat.shiftLeft_eq]
  case shr => rw [alu, BitVec.toNat_ushiftRight, Nat.shiftRight_eq_div_pow]
  case sar => exact toInt_sshiftRight_eq_div a _
  case min => exact toInt_smin a b
  case max => exact toInt_smax a b
  case minu => rw [alu, apply_ite BitVec.toNat, min_def]
  case maxu => rw [alu, apply_ite BitVec.toNat, max_def]
  case slt => rw [alu, apply_ite BitVec.toNat]; rfl
  case sltu => rw [alu, apply_ite BitVec.toNat]; rfl
  case addw => exact toInt_sextw_add a b
  case subw => exact toInt_sextw_sub a b

/-! ### Groups 0x01 to 0x08 (R161) -/

theorem toInt_immOf (n : Nat) :
    (immOf n).toInt = if insnLong n then (upperOf n : Int).bmod (2 ^ 32) else (fieldOf n 31 21 : Int).bmod (2 ^ 11) := by
  rw [immOf, apply_ite BitVec.toInt, toInt_sext (by decide), toInt_sext (by decide)]

/-- The shift amount of a 32-bit word stands in the low bits of its immediate. -/
theorem toNat_immOf_mod (n : Nat) (h : insnLong n = false) : (immOf n).toNat % 64 = fieldOf n 26 21 := by
  have hfield : fieldOf n 26 21 = fieldOf n 31 21 % 64 := by dsimp only [fieldOf]; omega
  rw [immOf, h, if_neg Bool.false_ne_true, sext, BitVec.toNat_signExtend, BitVec.toNat_setWidth, BitVec.toNat_ofNat, hfield]
  split <;> omega

section
variable {n : Nat} (a : BitVec 64)

theorem liValue_of_short (h : insnLong n = false) : liValue n a = sext 16 (fieldOf n 31 16) := by
  rw [liValue, h]; rfl

theorem liValue_of_signed (h : insnLong n = true) (hform : fieldOf n 31 21 = 0) : liValue n a = sext 32 (upperOf n) := by
  rw [liValue, h, hform]; rfl

theorem liValue_of_unsigned (h : insnLong n = true) (hform : fieldOf n 31 21 = 1) : liValue n a = BitVec.ofNat 64 (upperOf n) := by
  rw [liValue, h, hform]; rfl

theorem liValue_of_upper (h : insnLong n = true) (hform : fieldOf n 31 21 = 2) :
    liValue n a = BitVec.ofNat 64 (2 ^ 32 * upperOf n + a.toNat % 2 ^ 32) := by
  rw [liValue, h, hform]; rfl

end

/-- Settles O11: the group, and the form of LI, picks one operation on s[sa] and the immediate, whose value is that of R161. -/
theorem immediateResults : Obligations.ImmediateResults := by
  refine ⟨
    writesSuch_of_run (value := fun u t c n => aluImm (insnGroup n) (u.sreg t c (saOf n)) (immOf n))
      (fun _ _ _ _ => rfl) (fun _ _ _ _ => rfl) fun u t c n haccept hlegal => ?immediate,
    writesSuch_of_run (value := fun u t c n => liValue n (u.sreg t c (saOf n)))
      (fun _ _ _ _ => rfl) (fun _ _ _ _ => rfl) fun u t c n haccept hlegal => ?li⟩
  case immediate =>
    obtain ⟨hlo, hhi⟩ : 1 ≤ insnGroup n ∧ insnGroup n ≤ 7 := by simpa [immOp] using haccept
    have hshort : 5 ≤ insnGroup n → fieldOf n 31 27 = 0 ∧ insnLong n = false := fun h => shift_of_legal hlegal h hhi
    have hamount : 5 ≤ insnGroup n → (immOf n).toNat % 64 = fieldOf n 26 21 := fun h => toNat_immOf_mod n (hshort h).2
    dsimp only
    rw [← toInt_immOf n, BitVec.ofInt_toInt]
    generalize u.sreg t c (saOf n) = a
    generalize insnGroup n = g at *
    refine ⟨?add, ?and, ?or, ?xor, ?shl, ?shr, ?sar, hlo, hhi, hshort⟩ <;> rintro rfl
    case add => exact BitVec.toInt_add a _
    case and => exact fun i => BitVec.getLsbD_and
    case or => exact fun i => BitVec.getLsbD_or
    case xor => exact fun i => BitVec.getLsbD_xor
    case shl => rw [aluImm, hamount le_rfl, BitVec.toNat_shiftLeft, Nat.shiftLeft_eq]
    case shr => rw [aluImm, hamount (by decide), BitVec.toNat_ushiftRight, Nat.shiftRight_eq_div_pow]
    case sar => exact hamount (by decide) ▸ toInt_sshiftRight_eq_div a _
  case li =>
    have hfields := li_of_legal hlegal (beq_iff_eq.mp haccept)
    refine ⟨fun hshort => ?_, fun hlong hform => ⟨?_, (hfields hlong).2 (by omega)⟩, fun hlong hform => ⟨?_, (hfields hlong).2 (by omega)⟩,
      fun hlong hform => ?_, fun hlong => (hfields hlong).1⟩
    · rw [liValue_of_short _ hshort, toInt_sext (by decide)]
    · rw [liValue_of_signed _ hlong hform, toInt_sext (by decide)]
    · rw [liValue_of_unsigned _ hlong hform, BitVec.toNat_ofNat]
    · rw [liValue_of_upper _ hlong hform, BitVec.toNat_ofNat]

/-! ### Group 0x09 (R162) -/

theorem toInt_mulHigh (a b : BitVec 64) : (BitVec.ofInt 64 (a.toInt * b.toInt / 2 ^ 64)).toInt = a.toInt * b.toInt / 2 ^ 64 := by
  have ha : -2 ^ 63 ≤ a.toInt ∧ a.toInt < 2 ^ 63 := ⟨BitVec.le_toInt a, BitVec.toInt_lt⟩
  have hb : -2 ^ 63 ≤ b.toInt ∧ b.toInt < 2 ^ 63 := ⟨BitVec.le_toInt b, BitVec.toInt_lt⟩
  have hlow : -2 ^ 126 ≤ a.toInt * b.toInt := by nlinarith
  have hhigh : a.toInt * b.toInt ≤ 2 ^ 126 := by nlinarith
  rw [BitVec.toInt_ofInt, Int.bmod_eq_of_le_mul_two (by omega) (by omega)]

theorem toNat_mulHigh (a b : BitVec 64) : (BitVec.ofNat 64 (a.toNat * b.toNat / 2 ^ 64)).toNat = a.toNat * b.toNat / 2 ^ 64 := by
  have h : a.toNat * b.toNat < 2 ^ 64 * 2 ^ 64 := Nat.mul_lt_mul'' a.isLt b.isLt
  rw [BitVec.toNat_ofNat, Nat.mod_eq_of_lt (Nat.div_lt_of_lt_mul h)]

theorem toInt_sextw_mul (a b : BitVec 64) : (sextw (a * b)).toInt = ((a.toNat * b.toNat : Nat) : Int).bmod (2 ^ 32) := by
  refine toInt_sextw_of_modEq ?_
  rw [BitVec.toNat_mul, Int.ModEq]
  omega

/-- The quotient of two registers fits, but for that of the least number by −1. -/
theorem toInt_quotient {a b : BitVec 64} (h : ¬(a.toInt = -2 ^ 63 ∧ b.toInt = -1)) :
    (BitVec.ofInt 64 (a.toInt.tdiv b.toInt)).toInt = a.toInt.tdiv b.toInt := by
  rw [BitVec.toInt_ofInt, ← BitVec.toInt_sdiv]
  refine BitVec.toInt_sdiv_of_ne_or_ne a b ?_
  by_contra! heq
  obtain ⟨rfl, rfl⟩ := heq
  exact h (by decide)

theorem toInt_remainder (a b : BitVec 64) : (BitVec.ofInt 64 (a.toInt.tmod b.toInt)).toInt = a.toInt.tmod b.toInt := by
  rw [← BitVec.toInt_srem, BitVec.ofInt_toInt]

/-! ### Group 0x0D (R163) -/

theorem mem_bitsSet {a : BitVec 64} {i : Nat} : i ∈ bitsSet a ↔ a.getLsbD i = true := by
  simp only [bitsSet, List.mem_filter, List.mem_range, and_iff_right_iff_imp]
  exact BitVec.lt_of_getLsbD

theorem pairwise_bitsSet (a : BitVec 64) : (bitsSet a).Pairwise (· < ·) := List.pairwise_lt_range.filter _

theorem bitsSet_eq_nil_iff {a : BitVec 64} : bitsSet a = [] ↔ a.toNat = 0 := by
  rw [List.eq_nil_iff_forall_not_mem]
  constructor
  · intro h
    have hzero : a = 0#64 := BitVec.eq_of_getLsbD_eq fun i _ => by simpa [mem_bitsSet] using h i
    rw [hzero, BitVec.toNat_zero]
  · intro h i hi
    obtain rfl : a = 0#64 := BitVec.eq_of_toNat_eq h
    simp [mem_bitsSet] at hi

/-- The last bit that is set bounds the number. -/
theorem getLast?_bitsSet {a : BitVec 64} (h : a.toNat ≠ 0) :
    ∃ i, i < 64 ∧ (bitsSet a).getLast? = some i ∧ 2 ^ i ≤ a.toNat ∧ a.toNat < 2 ^ (i + 1) := by
  obtain ⟨l, i, hl⟩ := (bitsSet a).eq_nil_or_concat.resolve_left (bitsSet_eq_nil_iff.not.mpr h)
  have hset : a.getLsbD i = true := mem_bitsSet.mp (by simp [hl])
  have hpair := pairwise_bitsSet a
  rw [hl, List.concat_eq_append, List.pairwise_append] at hpair
  refine ⟨i, BitVec.lt_of_getLsbD hset, by simp [hl], Nat.ge_two_pow_of_testBit hset, Nat.lt_pow_two_of_testBit _ fun j hj => ?_⟩
  rw [← BitVec.getLsbD, Bool.eq_false_iff]
  intro hj'
  have hmem : j ∈ l ++ [i] := List.concat_eq_append ▸ hl ▸ mem_bitsSet.mpr hj'
  rcases List.mem_append.mp hmem with hjl | hji
  · exact absurd (hpair.2.2 j hjl i (by simp)) (by omega)
  · exact absurd (List.mem_singleton.mp hji) (by omega)

/-- Below the first bit that is set every bit is 0. -/
theorem head?_bitsSet {a : BitVec 64} (h : a.toNat ≠ 0) :
    ∃ i, i < 64 ∧ (bitsSet a).head? = some i ∧ a.getLsbD i = true ∧ ∀ j, j < i → a.getLsbD j = false := by
  obtain ⟨i, l, hl⟩ := List.exists_cons_of_ne_nil (bitsSet_eq_nil_iff.not.mpr h)
  have hset : a.getLsbD i = true := mem_bitsSet.mp (by simp [hl])
  have hpair := pairwise_bitsSet a
  rw [hl, List.pairwise_cons] at hpair
  refine ⟨i, BitVec.lt_of_getLsbD hset, by simp [hl], hset, fun j hj => Bool.eq_false_iff.mpr fun hj' => ?_⟩
  have hmem : j ∈ i :: l := hl ▸ mem_bitsSet.mpr hj'
  rcases List.mem_cons.mp hmem with hji | hjl
  · omega
  · exact absurd (hpair.1 j hjl) (by omega)

theorem length_bitsSet_le (a : BitVec 64) : (bitsSet a).length ≤ 64 := by
  simpa [bitsSet] using (List.range 64).length_filter_le fun i => a.getLsbD i

/-- R4: byte i of a little-endian number. -/
theorem extractLsb'_leNat {l : List (BitVec 8)} {i : Nat} (h : i < 8) :
    (BitVec.ofNat 64 (leNat l)).extractLsb' (8 * i) 8 = l.getD i 0 := by
  have hfold : leNat l = l.foldr (fun b acc => b.toNat + 2 ^ 8 * acc) 0 := by
    induction l with
    | nil => rfl
    | cons b l ih => rw [leNat, ih]; rfl
  refine BitVec.eq_of_getLsbD_eq fun j hj => ?_
  have hbit := testBit_foldr_digits (fun b : BitVec 8 => b.isLt) l i hj
  rw [← hfold, Nat.mul_comm] at hbit
  rw [BitVec.getLsbD_extractLsb', BitVec.getLsbD_ofNat, hbit, List.getD_eq_getElem?_getD]
  cases l[i]? <;> simp [hj, BitVec.getLsbD]
  omega

theorem leBytes_eq (n v : Nat) : leBytes n v = (List.range n).map fun i => BitVec.ofNat 8 (v / 256 ^ i) := by
  induction n generalizing v with
  | zero => rfl
  | succ n ih =>
    rw [leBytes, ih, List.range_succ_eq_map, List.map_cons, List.map_map, Nat.pow_zero, Nat.div_one]
    simp only [Function.comp_def, Nat.div_div_eq_div_mul, Nat.pow_succ']

/-- R163: REV8. -/
theorem extractLsb'_reverse_leBytes (a : BitVec 64) {i : Nat} (h : i < 8) :
    (BitVec.ofNat 64 (leNat (leBytes 8 a.toNat).reverse)).extractLsb' (8 * i) 8 = a.extractLsb' (8 * (7 - i)) 8 := by
  have hpow : 256 ^ (7 - i) = 2 ^ (8 * (7 - i)) := by rw [Nat.pow_mul]
  have hbyte : (leBytes 8 a.toNat).reverse[i]? = some (BitVec.ofNat 8 (a.toNat / 256 ^ (7 - i))) := by
    rw [leBytes_eq, List.getElem?_reverse (by simpa using h), List.getElem?_map, List.length_map, List.length_range,
      List.getElem?_range (by omega), Option.map_some]
  rw [extractLsb'_leNat h, List.getD_eq_getElem?_getD, hbyte, Option.getD_some, hpow, BitVec.extractLsb', Nat.shiftRight_eq_div_pow]

/-- Settles O12: the function of the word picks one product, quotient, remainder or bit operation, whose value is that of R162 or R163. -/
theorem mulDivAndBitResults : Obligations.MulDivAndBitResults := by
  refine ⟨
    writesSuch_of_run (value := fun u t c n => mulDiv (fnOf n) (u.sreg t c (saOf n)) (u.sreg t c (sbOf n)))
      (fun _ _ _ _ => rfl) (fun _ _ _ _ => rfl) fun u t c n haccept hlegal => ?mulDiv,
    writesSuch_of_run (value := fun u t c n => bitFn (fnOf n) (u.sreg t c (saOf n)))
      (fun _ _ _ _ => rfl) (fun _ _ _ _ => rfl) fun u t c n haccept hlegal => ?bits⟩
  case mulDiv =>
    have hfn := mulDivFn_of_legal hlegal (beq_iff_eq.mp haccept)
    dsimp only
    generalize fnOf n = fn at *
    generalize u.sreg t c (saOf n) = a
    generalize u.sreg t c (sbOf n) = b
    have hzero : b.toNat = 0 → b = 0 := fun h => BitVec.eq_of_toNat_eq h
    have hnonzero : b.toNat ≠ 0 → b ≠ 0 := fun h hb => h (by rw [hb]; rfl)
    refine ⟨?mul, ?mulh, ?mulhu, ?mulw, ?div, ?divMin, ?divZero, ?divu, ?rem, ?remZero, ?remu, hfn⟩
    case mul => rintro rfl; exact BitVec.toNat_mul a b
    case mulh => rintro rfl; exact toInt_mulHigh a b
    case mulhu => rintro rfl; exact toNat_mulHigh a b
    case mulw => rintro rfl; exact toInt_sextw_mul a b
    case div => rintro rfl hb h; rw [mulDiv, if_neg (hnonzero hb), toInt_quotient h]
    case divMin =>
      rintro rfl ha hb
      have hb' : b ≠ 0 := by rintro rfl; simp at hb
      rw [mulDiv, if_neg hb', ha, hb]
      decide
    case divZero => rintro (rfl | rfl) hb <;> rw [mulDiv, if_pos (hzero hb)] <;> rfl
    case divu =>
      rintro rfl hb
      rw [mulDiv, if_neg (hnonzero hb), BitVec.toNat_ofNat, Nat.mod_eq_of_lt ((Nat.div_le_self _ _).trans_lt a.isLt)]
    case rem => rintro rfl hb; rw [mulDiv, if_neg (hnonzero hb), toInt_remainder]
    case remZero => rintro (rfl | rfl) hb <;> exact if_pos (hzero hb)
    case remu =>
      rintro rfl hb
      have hvalue : mulDiv 7 a b = BitVec.ofNat 64 (a.toNat % b.toNat) := if_neg (hnonzero hb)
      rw [hvalue, BitVec.toNat_ofNat, Nat.mod_eq_of_lt ((Nat.mod_le _ _).trans_lt a.isLt)]
  case bits =>
    obtain ⟨hfn, hsb⟩ := bitFn_of_legal hlegal (beq_iff_eq.mp haccept)
    dsimp only
    generalize fnOf n = fn at *
    generalize u.sreg t c (saOf n) = a
    refine ⟨?zero, ?clz, ?ctz, ?count, ?reverse, ?sextb, ?sexth, ?sextw, ?zextb, ?zexth, ?zextw, hfn, hsb⟩
    case zero => rintro (rfl | rfl) ha <;> simp only [bitFn, bitsSet_eq_nil_iff.mpr ha] <;> rfl
    case clz =>
      rintro rfl ha
      obtain ⟨i, hi, hlast, hlow, hhigh⟩ := getLast?_bitsSet ha
      have hvalue : (bitFn 0 a).toNat = 63 - i := by simp only [bitFn, hlast, BitVec.toNat_ofNat]; omega
      have hlow' : 63 - (63 - i) = i := by omega
      have hhigh' : 64 - (63 - i) = i + 1 := by omega
      rw [hvalue, hlow', hhigh']
      exact ⟨by omega, hlow, hhigh⟩
    case ctz =>
      rintro rfl ha
      obtain ⟨i, hi, hhead, hset, hbelow⟩ := head?_bitsSet ha
      have hvalue : (bitFn 1 a).toNat = i := by simp only [bitFn, hhead, BitVec.toNat_ofNat]; omega
      rw [hvalue]
      exact ⟨hi, hset, hbelow⟩
    case count =>
      rintro rfl
      have := length_bitsSet_le a
      rw [bitFn, BitVec.toNat_ofNat, Nat.mod_eq_of_lt (by omega), bitsSet]
    case reverse => rintro rfl i hi; exact extractLsb'_reverse_leBytes a hi
    case sextb => rintro rfl; rw [bitFn, signExtend_extractLsb', toInt_sext (by decide)]
    case sexth => rintro rfl; rw [bitFn, signExtend_extractLsb', toInt_sext (by decide)]
    case sextw => rintro rfl; exact toInt_sextw a
    case zextb => rintro rfl; exact toNat_zeroExtend_extractLsb' (by decide) a
    case zexth => rintro rfl; exact toNat_zeroExtend_extractLsb' (by decide) a
    case zextw => rintro rfl; exact toNat_zeroExtend_extractLsb' (by decide) a

end Sys2Proof.Machine
end

section
/-! PROOFS. Compares and predicate operations (R164, R165): what a predicate reads after a write, the conditions, and the predicates as a mask. -/

namespace Sys2Proof.Machine

/-! ### A predicate after a write -/

theorem Core.setPred_eq (k : Core) (i : Nat) (b : Bool) : k.setPred i b = { k with p := (k.setPred i b).p } := by
  unfold Core.setPred
  split <;> rfl

/-- R150: p0 reads 1; any other predicate reads as it was just written, and the others as before. -/
theorem Core.pred_setPred (k : Core) (i q : Nat) (b : Bool) :
    (k.setPred i b).pred q = if q % 8 = 0 then true else if q % 8 = i % 8 then b else k.pred q := by
  have hq : q % 8 < 8 := Nat.mod_lt _ (by decide)
  have hi : i % 8 < 8 := Nat.mod_lt _ (by decide)
  by_cases hq0 : q % 8 = 0
  · simp [Core.pred, hq0]
  by_cases hi0 : i % 8 = 0
  · simp [Core.pred, Core.setPred, hq0, hi0]
  have hbit : (1 <<< (i % 8)).testBit (q % 8) = decide (i % 8 = q % 8) := by rw [Nat.one_shiftLeft, Nat.testBit_two_pow]
  have hset : (BitVec.ofNat 8 (1 <<< (i % 8))).getLsbD (q % 8) = decide (i % 8 = q % 8) := by
    rw [BitVec.getLsbD_ofNat, hbit, decide_eq_true hq, Bool.true_and]
  have hclear : (~~~((1 : BitVec 8) <<< (i % 8))).getLsbD (q % 8) = !decide (i % 8 = q % 8) := by
    rw [BitVec.getLsbD_not, ← hset, decide_eq_true hq, Bool.true_and]
    rfl
  have hread : (k.setPred i b).pred q = if b then k.p.getLsbD (q % 8) || decide (i % 8 = q % 8)
      else k.p.getLsbD (q % 8) && !decide (i % 8 = q % 8) := by
    simp only [Core.pred, Core.setPred, beq_eq_false_iff_ne.mpr hq0, beq_eq_false_iff_ne.mpr hi0, Bool.false_or, Bool.false_eq_true, if_false]
    cases b
    · exact (BitVec.getLsbD_and).trans (congrArg _ hclear)
    · exact (BitVec.getLsbD_or).trans (congrArg _ hset)
  rw [hread, if_neg hq0]
  by_cases h : q % 8 = i % 8
  · cases b <;> simp [h]
  · cases b <;> simp [Core.pred, hq0, h, Ne.symm h]

/-! ### Conditions (R164) -/

theorem and_ne_zero_iff {a b : BitVec 64} : a &&& b ≠ 0 ↔ ∃ i, a.getLsbD i = true ∧ b.getLsbD i = true := by
  constructor
  · intro h
    by_contra! hnone
    refine h (BitVec.eq_of_getLsbD_eq fun i _ => ?_)
    have := hnone i
    cases ha : a.getLsbD i <;> simp_all
  · rintro ⟨i, ha, hb⟩ h
    have : (a &&& b).getLsbD i = true := by rw [BitVec.getLsbD_and, ha, hb]; rfl
    simp [h] at this

section
variable {k : TileKind} {n : Nat} (h : illegal k n = false)
include h

theorem compare_of_legal (hg : insnGroup n = 0x0A ∨ insnGroup n = 0x0B) : fieldOf n 24 21 ≤ 7 ∧ fieldOf n 15 14 ≤ 2 := by
  have hfields := illegalFields_of_legal h
  have hcomb : fieldOf n 15 14 < 4 := Nat.mod_lt _ (by decide)
  rcases hg with hg | hg
  all_goals
    simp only [illegalFields, hg, Bool.or_eq_false_iff, decide_eq_false_iff_not, beq_eq_false_iff_ne] at hfields
    omega

theorem predicateOp_of_legal (hg : insnGroup n = 0x0C) : fieldOf n 31 28 ≤ 5 ∧ (fieldOf n 31 28 < 4 → saOf n < 8 ∧ dOf n < 8) ∧
    (fieldOf n 31 28 = 4 → fieldOf n 23 21 = 0 ∧ saOf n = 0) ∧ (fieldOf n 31 28 = 5 → fieldOf n 23 21 = 0 ∧ dOf n = 0) := by
  have hfields := illegalFields_of_legal h
  simp only [illegalFields, hg, Bool.or_eq_false_iff, decide_eq_false_iff_not] at hfields
  obtain ⟨⟨⟨-, hop⟩, -⟩, hrest⟩ := hfields
  refine ⟨by omega, fun h4 => ?_, fun h4 => ?_, fun h5 => ?_⟩
  · rw [if_pos h4] at hrest
    simp only [Bool.or_eq_false_iff, decide_eq_false_iff_not] at hrest
    omega
  · simpa [h4] using hrest
  · simpa [h5] using hrest

end

theorem compares_and_iff (a b : BitVec 64) : compares 6 a b = true ↔ ∃ i, a.getLsbD i = true ∧ b.getLsbD i = true := by
  rw [← and_ne_zero_iff, compares, bne_iff_ne]

theorem compares_nand_iff (a b : BitVec 64) : compares 7 a b = true ↔ ¬∃ i, a.getLsbD i = true ∧ b.getLsbD i = true := by
  rw [← and_ne_zero_iff, not_not]
  exact beq_iff_eq

/-- Settles O13: the condition of the word is one comparison, and pd takes its combination with what it held. -/
theorem comparesHold : Obligations.Compares := by
  unfold Obligations.Compares
  intro other rule
  have hrule : ∀ u t c n, fieldOf n 24 21 ≤ 7 → fieldOf n 15 14 ≤ 2 →
      rule u t c n (.next ((u.compareWith t c n (other u t c n)).onward t c (nextPc (u.core t c).pc n))) := by
    intro u t c n hcond hcomb
    have hpd : fieldOf n 13 11 % 8 = fieldOf n 13 11 := Nat.mod_mod _ _
    refine ⟨compares (fieldOf n 24 21) (u.sreg t c (saOf n)) (other u t c n), ?effect, ?eq, ?ne, ?lt, ?ge, ?ltu, ?geu, ?tst,
      ?tstz, hcond, hcomb, fun q => ?preds⟩
    case effect => rfl
    case eq => intro h; rw [h]; exact beq_iff_eq
    case ne => intro h; rw [h]; exact bne_iff_ne
    case lt => intro h; rw [h]; exact decide_eq_true_iff
    case ge => intro h; rw [h]; exact decide_eq_true_iff
    case ltu => intro h; rw [h]; exact decide_eq_true_iff
    case geu => intro h; rw [h]; exact decide_eq_true_iff
    case tst => intro h; rw [h]; exact compares_and_iff _ _
    case tstz => intro h; rw [h]; exact compares_nand_iff _ _
    case preds => rw [Core.pred_setPred, hpd]
  refine ⟨onIssue_of_run (fun _ _ _ _ => rfl) (fun _ _ _ _ => rfl) fun u t c n haccept hlegal => ?cmp,
    onIssue_of_run (fun _ _ _ _ => rfl) (fun _ _ _ _ => rfl) fun u t c n haccept hlegal => ?cmpi⟩
  case cmp =>
    have hg : insnGroup n = 0x0A := beq_iff_eq.mp haccept
    have hother : other u t c n = u.sreg t c (fieldOf n 29 25) := if_pos hg
    obtain ⟨hcond, hcomb⟩ := compare_of_legal hlegal (.inl hg)
    exact hother ▸ hrule u t c n hcond hcomb
  case cmpi =>
    have hg : insnGroup n = 0x0B := beq_iff_eq.mp haccept
    have hother : other u t c n = if insnLong n then sext 32 (upperOf n) else sext 7 (fieldOf n 31 25) := by
      rw [sext_eq_ofInt (by decide), sext_eq_ofInt (by decide), ← apply_ite]
      exact if_neg (by omega)
    obtain ⟨hcond, hcomb⟩ := compare_of_legal hlegal (.inr hg)
    exact hother ▸ hrule u t c n hcond hcomb

/-! ### PREDICATE_OP (R165) -/

theorem State.modCore_const (s : State) (t c : Nat) (f : Core → Core) : s.modCore t c f = s.modCore t c fun _ => f (s.core t c) := rfl

/-- A number written bit by bit. -/
theorem sum_bits (f : Nat → Bool) (m : Nat) : let v := (List.range m).foldl (fun v i => v + (if f i then 2 ^ i else 0)) 0
    v < 2 ^ m ∧ ∀ i, v.testBit i = (decide (i < m) && f i) := by
  induction m with
  | zero => simp
  | succ m ih =>
    obtain ⟨hlt, hbits⟩ := ih
    rw [List.range_succ, List.foldl_append, List.foldl_cons, List.foldl_nil]
    generalize (List.range m).foldl (fun v i => v + (if f i then 2 ^ i else 0)) 0 = v at *
    have hadd : v + (if f m then 2 ^ m else 0) = 2 ^ m * (f m).toNat + v := by cases f m <;> simp [Nat.add_comm]
    intro w
    refine ⟨?_, fun i => ?_⟩
    · simp only [w, Nat.pow_succ]
      split <;> omega
    · simp only [w, hadd]
      rw [Nat.testBit_two_pow_mul_add _ hlt, hbits]
      rcases Nat.lt_trichotomy i m with h | rfl | h
      · simp [h, Nat.lt_succ_of_lt h]
      · cases f i <;> simp
      · have hlow : ¬i < m := by omega
        have hhigh : ¬i < m + 1 := by omega
        obtain ⟨j, hj⟩ : ∃ j, i - m = j + 1 := ⟨i - m - 1, by omega⟩
        rw [if_neg hlow, hj, decide_eq_false hhigh]
        cases f m <;> simp [Nat.testBit_succ]

theorem Core.testBit_predMask (k : Core) (i : Nat) : k.predMask.testBit i = (decide (i < 8) && k.pred i) :=
  (sum_bits k.pred 8).2 i

theorem Core.setPreds_eq (k : Core) (f : Nat → Bool) (l : List Nat) :
    l.foldl (fun k i => k.setPred i (f i)) k = { k with p := (l.foldl (fun k i => k.setPred i (f i)) k).p } := by
  induction l generalizing k with
  | nil => rfl
  | cons i l ih =>
    rw [List.foldl_cons, ih, Core.setPred_eq]

/-- The predicates after a write of several. -/
theorem Core.pred_setPreds (k : Core) (f : Nat → Bool) {l : List Nat} (hl : ∀ i ∈ l, i < 8) {q : Nat} (hq : q < 8) (hq0 : q ≠ 0) :
    (l.foldl (fun k i => k.setPred i (f i)) k).pred q = if q ∈ l then f q else k.pred q := by
  induction l generalizing k with
  | nil => rfl
  | cons i l ih =>
    rw [List.forall_mem_cons] at hl
    obtain ⟨hi, hl⟩ := hl
    rw [List.foldl_cons, ih _ hl, Core.pred_setPred, Nat.mod_eq_of_lt hq, Nat.mod_eq_of_lt hi, if_neg hq0]
    by_cases h : q = i
    · subst h; simp
    · simp [h]

/-- Settles O14: the function of the word writes pd, s[y], or p1 to p7, and nothing else. -/
theorem predicateOps : Obligations.PredicateOps := by
  refine onIssue_of_run (fun _ _ _ _ => rfl) (fun _ _ _ _ => rfl) fun u t c n haccept hlegal => ?_
  obtain ⟨hop, hregs, hget, hset⟩ := predicateOp_of_legal hlegal (beq_iff_eq.mp haccept)
  intro k op a b
  refine ⟨_, congrArg (fun v : State => Host.Outcome.next (v.onward t c _)) (State.modCore_const u t c _), ?_⟩
  refine ⟨?and, ?or, ?xor, ?andn, ?get, ?set, hop, hregs, hget, hset⟩
  all_goals intro h; simp only [op] at h
  case and => rw [h]; rfl
  case or => rw [h]; rfl
  case xor => rw [h]; rfl
  case andn => rw [h]; rfl
  case get =>
    rw [h]
    refine ⟨_, rfl, fun i => ?_⟩
    rw [BitVec.getLsbD_ofNat, Core.testBit_predMask]
    by_cases hi : i < 8
    · simp [hi, k, show i < 64 by omega]
    · simp [hi]
  case set =>
    rw [h]
    refine ⟨Core.setPreds_eq _ _ _, fun i hlo hhi => ?_⟩
    exact (Core.pred_setPreds k (fun i => (k.getS (saOf n)).getLsbD i) (fun i hi => List.mem_range.mp hi) hhi (by omega)).trans
      (if_pos (List.mem_range.mpr hhi))

end Sys2Proof.Machine
end

section
/-! PROOFS. Branches (R166), control and system instructions (R167, R176, R180-R184, R237), and the CSR port (R175): where the core goes after
what an instruction did, the targets, and the instructions that user mode may not execute. -/

namespace Sys2Proof.Machine

/-! ### After an instruction's work -/

/-- The state after what an instruction did, by where its core goes on (R155, R166, R167, R180, R234). -/
def State.afterRan (u : State) (t c n : Nat) : Ran → State
  | .next v => v.onward t c (nextPc (u.core t c).pc n)
  | .wait v => v
  | .jump v a => v.onward t c a
  | .stay v => v.stays t c
  | .exc v cause val => v.raises t c cause (u.core t c).pc val

theorem exec_of_issues {i : Nat → Nat → Fetched → Instr} {op : CoreOp} (he : ∀ t c f s, exec (i t c f) s = s.issue t c f op) {t c n : Nat}
    {f : Fetched} {s u : State} (h : Issues s t c f op n u) : exec (i t c f) s = .next (u.afterRan t c n (op.run u t c n)) := by
  rw [he, issue_of_issues h]
  cases op.run u t c n <;> rfl

/-- What holds after the work of every legal word of an instruction holds of what its command answers. -/
theorem onIssue_of_afterRan {i : Nat → Nat → Fetched → Instr} {op : CoreOp} {rule : State → Nat → Nat → Nat → Result → Prop}
    (he : ∀ t c f s, exec (i t c f) s = s.issue t c f op)
    (h : ∀ u t c n, op.accept n = true → illegal (kindOf t) n = false → rule u t c n (.next (u.afterRan t c n (op.run u t c n)))) :
    OnIssue i op rule := by
  intro t c n f s u hi
  rw [exec_of_issues he hi]
  exact h u t c n hi.covered hi.legal

/-- An instruction that did r. -/
theorem next_afterRan {u : State} {t c n : Nat} {x r : Ran} (h : x = r) :
    (.next (u.afterRan t c n x) : Result) = .next (u.afterRan t c n r) := by rw [h]

/-! ### Branches (R166) -/

/-- Four times an offset is added modulo 2^64. -/
theorem toNat_add_four_mul (a : BitVec 64) (off : Int) :
    (((a + 4 * BitVec.ofInt 64 off).toNat : Int) - (a.toNat + 4 * off)) % 2 ^ 64 = 0 := by
  have hoff : (((BitVec.ofInt 64 off).toNat : Nat) : Int) = off % 2 ^ 64 := by rw [BitVec.toNat_ofInt]; omega
  have hfour : (4 : BitVec 64).toNat = 4 := rfl
  rw [BitVec.toNat_add, BitVec.toNat_mul, hfour]
  omega

theorem branchTarget_lt (pc n : Nat) : branchTarget pc n < 2 ^ 64 := BitVec.isLt _

theorem branchTarget_mod (pc n : Nat) : ((branchTarget pc n : Int) - (pc + 4 *
    if insnLong n then (upperOf n : Int).bmod (2 ^ 32) else (fieldOf n 31 16 : Int).bmod (2 ^ 16))) % 2 ^ 64 = 0 := by
  have hoff : (if insnLong n then sext 32 (upperOf n) else sext 16 (fieldOf n 31 16)) = BitVec.ofInt 64
      (if insnLong n then (upperOf n : Int).bmod (2 ^ 32) else (fieldOf n 31 16 : Int).bmod (2 ^ 16)) := by
    rw [sext_eq_ofInt (by decide), sext_eq_ofInt (by decide), ← apply_ite]
  rw [branchTarget, hoff]
  generalize (if insnLong n then (upperOf n : Int).bmod (2 ^ 32) else (fieldOf n 31 16 : Int).bmod (2 ^ 16)) = off
  have h := toNat_add_four_mul (BitVec.ofNat 64 pc) off
  rw [BitVec.toNat_ofNat] at h
  omega

/-- Settles O15: BR and BRL go to their target, and JR to its target where that is a multiple of 4. -/
theorem branches : Obligations.Branches := by
  refine ⟨onIssue_of_afterRan (fun _ _ _ _ => rfl) fun u t c n _ _ => ?br, onIssue_of_afterRan (fun _ _ _ _ => rfl) fun u t c n _ _ => ?brl,
    onIssue_of_afterRan (fun _ _ _ _ => rfl) fun u t c n _ _ => ?jr, fun pc n h => ?next⟩
  case br => exact ⟨_, branchTarget_lt _ n, branchTarget_mod _ n, rfl⟩
  case brl => exact ⟨_, branchTarget_lt _ n, branchTarget_mod _ n, rfl⟩
  case jr =>
    refine ⟨(u.sreg t c (saOf n) + 4 * sext 11 (fieldOf n 31 21)).toNat, BitVec.isLt _, ?_, fun h => next_afterRan (if_neg ?_),
      fun h => next_afterRan (if_pos ?_)⟩
    · rw [sext_eq_ofInt (by decide)]
      exact toNat_add_four_mul _ _
    · simpa using h
    · simpa using h
  case next =>
    rw [nextPc_eq]
    exact Nat.mod_eq_of_lt (by split <;> omega)

/-! ### Supervisor instructions (R181) -/

section
variable {i : Nat → Nat → Fetched → Instr} {fn : Nat} {touch : Nat → List Nat} {run : State → Nat → Nat → Nat → Ran}
  (he : ∀ t c f s, exec (i t c f) s = s.issue t c f (supOp fn touch run))
include he

theorem privileged_of_supOp : Privileged i (supOp fn touch run) := fun t c n f s u hi huser => by
  rw [exec_of_issues he hi]
  exact next_afterRan (if_pos huser)

theorem onIssue_of_supOp {eff : State → Nat → Nat → Nat → State} (h : ∀ u t c n, u.afterRan t c n (run u t c n) = eff u t c n) :
    OnIssue i (supOp fn touch run) fun u t c n x => u.userMode t c = false → x = .next (eff u t c n) :=
  onIssue_of_afterRan he fun u t c n _ _ hsup => by
    rw [← h]
    exact next_afterRan (if_neg (ne_true_of_eq_false hsup))

end

theorem State.svRead_eq (u : State) (t c n : Nat) : u.svRead t c n = if n = 9 then u.irqPend t c else (u.core t c).svReg n := by
  simp only [State.svRead, beq_iff_eq]

/-- R178: TRAP_S is raised in the supervisor mode of a scalar core. -/
theorem State.trapsAsSupervisor_iff {u : State} {t c : Nat} :
    (kindOf t = .s && !u.userMode t c) = true ↔ kindOf t = .s ∧ (u.core t c).supervisor = true := by
  by_cases h : kindOf t = .s <;> simp [State.userMode, h]

/-- Settles O16: each instruction's work is one of a few cases, by the mode, the event flag, the enabled interrupts or debug control. -/
theorem controlAndSystemOps : Obligations.ControlAndSystemOps := by
  refine ⟨⟨?nop, ?end_, ?wfe, ?idle, ?trap, ?break_⟩, ?rdtime, ?rdcore, privileged_of_supOp fun _ _ _ _ => rfl,
    privileged_of_supOp fun _ _ _ _ => rfl, privileged_of_supOp fun _ _ _ _ => rfl, privileged_of_supOp fun _ _ _ _ => rfl,
    privileged_of_supOp fun _ _ _ _ => rfl, ?tret, ?svget, ?svset, ?svswap, ?xlinv⟩
  case nop => exact completesWith_of_run (fun _ _ _ _ => rfl) fun _ _ _ _ => rfl
  case end_ =>
    exact onIssue_of_afterRan (fun _ _ _ _ => rfl) fun u t c n _ _ =>
      ⟨fun h => next_afterRan (if_neg (ne_true_of_eq_false h)), fun h => next_afterRan (if_pos h)⟩
  case wfe =>
    refine onIssue_of_afterRan (fun _ _ _ _ => rfl) fun u t c n _ _ =>
      ⟨fun h => next_afterRan (if_pos h), fun h => (next_afterRan (if_neg (ne_true_of_eq_false h))).trans ?_⟩
    simp only [beq_iff_eq]
    rfl
  case idle =>
    refine onIssue_of_afterRan (fun _ _ _ _ => rfl) fun u t c n _ _ =>
      ⟨fun h => next_afterRan (if_pos h), fun h hirq => ?_, fun h hirq => ?_⟩
    · exact next_afterRan ((if_neg (ne_true_of_eq_false h)).trans (if_pos (bne_iff_ne.mpr hirq)))
    · exact next_afterRan ((if_neg (ne_true_of_eq_false h)).trans (if_neg (by simp [hirq])))
  case trap =>
    exact onIssue_of_afterRan (fun _ _ _ _ => rfl) fun u t c n _ _ =>
      ⟨fun h => next_afterRan (congrArg (fun cause => Ran.exc u cause 0) (if_pos (State.trapsAsSupervisor_iff.mpr h))),
        fun h => next_afterRan (congrArg (fun cause => Ran.exc u cause 0) (if_neg (State.trapsAsSupervisor_iff.not.mpr h)))⟩
  case break_ =>
    exact onIssue_of_afterRan (fun _ _ _ _ => rfl) fun u t c n _ _ =>
      ⟨fun h => next_afterRan (if_neg (ne_true_of_eq_false h)), fun h => next_afterRan (if_pos h)⟩
  case rdtime => exact completesWith_of_run (fun _ _ _ _ => rfl) fun _ _ _ _ => rfl
  case rdcore => exact completesWith_of_run (fun _ _ _ _ => rfl) fun _ _ _ _ => rfl
  case tret => exact onIssue_of_supOp (fun _ _ _ _ => rfl) fun _ _ _ _ => rfl
  case svget => exact onIssue_of_supOp (fun _ _ _ _ => rfl) fun u t c n => by rw [← State.svRead_eq]; rfl
  case svset => exact onIssue_of_supOp (fun _ _ _ _ => rfl) fun _ _ _ _ => rfl
  case svswap => exact onIssue_of_supOp (fun _ _ _ _ => rfl) fun u t c n => by rw [← State.svRead_eq]; rfl
  case xlinv => exact onIssue_of_supOp (fun _ _ _ _ => rfl) fun _ _ _ _ => rfl

/-! ### The CSR port (R175) -/

/-- R175: the word that a write of the port puts in the place of `old`. -/
def csrxWord (op : Nat) (old v : BitVec 32) : BitVec 32 := if op = 1 then v else if op = 2 then old ||| v else old &&& ~~~v

theorem csrxNew_of_ne {op : Nat} (h : op ≠ 0) (old v : BitVec 32) : csrxNew op old v = some (csrxWord op old v) := by
  unfold csrxNew csrxWord
  split
  · contradiction
  · rfl
  · rfl
  next h1 h2 => rw [if_neg h1, if_neg h2]

section
variable {u : State} {t c n : Nat} (hsup : u.userMode t c = false)
include hsup

theorem State.csrx_read (hop : fieldOf n 31 30 = 0) : u.csrx t c n =
    let r := u.tileRead (.core t c) t (csrxOff n)
    .next (r.2.setS t c (dOf n) (r.1.zeroExtend 64)) := by
  rw [State.csrx, hsup, if_neg Bool.false_ne_true, hop]
  rfl

theorem State.csrx_write (hop : fieldOf n 31 30 ≠ 0) : u.csrx t c n =
    let r := u.tileRead (.core t c) t (csrxOff n)
    let w := r.2.tileStore t (csrxOff n) (csrxWord (fieldOf n 31 30) r.1 ((u.sreg t c (saOf n)).extractLsb' 0 32))
    if w.tbit t R.TILE_RESET 31 then .stay w else .next (w.setS t c (dOf n) (r.1.zeroExtend 64)) := by
  rw [State.csrx, hsup, if_neg Bool.false_ne_true]
  simp only [csrxNew_of_ne hop]

end

/-- Settles O17: in supervisor mode CSRR reads the register, and the others write it too. A write that begins a reset of the tile leaves the rest of
the instruction undone (R385, R386). -/
theorem csrAccesses : Obligations.CsrAccesses := by
  unfold Obligations.CsrAccesses
  intro new off rule
  have hrule : ∀ op u t c n, (csrxOp op).accept n = true → rule op u t c n (.next (u.afterRan t c n (u.csrx t c n))) := by
    intro op u t c n haccept
    obtain ⟨-, hop⟩ : insnGroup n = 0x3E ∧ fieldOf n 31 30 = op := by simpa [csrxOp] using haccept
    subst hop
    exact ⟨fun huser => next_afterRan (if_pos huser), fun hsup hread => next_afterRan (State.csrx_read hsup hread),
      fun hsup hwrite hreset => next_afterRan ((State.csrx_write hsup hwrite).trans (if_neg (ne_true_of_eq_false hreset))),
      fun hsup hwrite hreset => next_afterRan ((State.csrx_write hsup hwrite).trans (if_pos hreset))⟩
  exact ⟨onIssue_of_afterRan (fun _ _ _ _ => rfl) fun u t c n haccept _ => hrule 0 u t c n haccept,
    onIssue_of_afterRan (fun _ _ _ _ => rfl) fun u t c n haccept _ => hrule 1 u t c n haccept,
    onIssue_of_afterRan (fun _ _ _ _ => rfl) fun u t c n haccept _ => hrule 2 u t c n haccept,
    onIssue_of_afterRan (fun _ _ _ _ => rfl) fun u t c n haccept _ => hrule 3 u t c n haccept⟩

end Sys2Proof.Machine
end

section
/-! PROOFS. Scalar memory instructions (R168-R171, R178) and the responses of loads and AMOs (R174, R177). -/

namespace Sys2Proof.Machine

/-! ### Effective addresses (R168, R169) -/

theorem memEa_eq (u : State) (t c n bytes : Nat) : memEa (u.core t c) n bytes = (u.sreg t c (saOf n) + BitVec.ofInt 64
    (if insnLong n then (upperOf n : Int).bmod (2 ^ 32) else (fieldOf n 28 21 : Int).bmod (2 ^ 8) * bytes)).toNat := by
  have hoff : (if insnLong n then sext 32 (upperOf n) else sext 8 (fieldOf n 28 21) * BitVec.ofNat 64 bytes) = BitVec.ofInt 64
      (if insnLong n then (upperOf n : Int).bmod (2 ^ 32) else (fieldOf n 28 21 : Int).bmod (2 ^ 8) * bytes) := by
    rw [sext_eq_ofInt (by decide), sext_eq_ofInt (by decide), ← BitVec.ofInt_natCast, ← BitVec.ofInt_mul, ← apply_ite]
  rw [memEa, hoff, State.sreg]

section
variable {u : State} {t c ea bytes : Nat} {k : AccKind}

theorem State.resolve_misaligned (h : ea % bytes ≠ 0) : u.resolve t c ea bytes k = (.exc 6 ea, u) := by
  rw [State.resolve, if_pos (bne_iff_ne.mpr h)]

theorem State.resolve_outOfRange (h : ea % bytes = 0) (hoff : ¬(kindOf t = .s ∧ ((u.core t c).svReg 11).getLsbD 0 = true))
    (hea : 2 ^ 48 ≤ ea) : u.resolve t c ea bytes k = (.exc 7 ea, u) := by
  have hflat : ¬(kindOf t = .s && ((u.core t c).svReg 11).getLsbD 0) = true := by simpa using hoff
  rw [State.resolve, if_neg (by simpa using h), if_neg hflat, flatEa, if_pos hea]

/-! ### An access issues -/

variable {f : MemAcc → MemAcc} {v : State}

theorem State.startAccess_of_exc {cause val : Nat} (h : u.resolve t c ea bytes k = (.exc cause val, v)) :
    u.startAccess t c ea bytes k f = .exc v cause val := by
  rw [State.startAccess, h]

/-- R169, R240: the access joins the outstanding ones; a store of a scalar core goes through the store buffer. -/
theorem State.startAccess_of_ok {pa : Nat} {cache : Bool} (h : u.resolve t c ea bytes k = (.ok pa cache, v)) :
    let a := f { (v.core t c).newAccess (k - 1) 0 bytes pa (v.pathOf t pa cache) with pieces := 1, buffered := k == 2 && kindOf t = .s }
    let w := v.modCore t c fun q => q.addAccess a
    u.startAccess t c ea bytes k f = .next (if k = 2 ∧ kindOf t = .s then w.retireStores t c 8 else w.sendAccess t c a) := by
  intro a w
  have hstore : (k == 2 && kindOf t = .s) = true ↔ k = 2 ∧ kindOf t = .s := by simp
  rw [← if_congr hstore rfl rfl, State.startAccess, h]

end

/-- Settles O18: the effective address is resolved, and where it stands for a physical address the access issues. -/
theorem loadsAndStores : Obligations.LoadsAndStores := by
  unfold Obligations.LoadsAndStores
  intro rule bytes wide address
  have hrule : ∀ {bytes kind address fill u t c n ea}, ea = address u t c n → rule bytes kind address fill u t c n
      (.next (u.afterRan t c n (u.startAccess t c ea (bytes n) kind (fill u t c n)))) := by
    rintro bytes kind address fill u t c n _ rfl
    exact ⟨fun hmis => next_afterRan (State.startAccess_of_exc (State.resolve_misaligned hmis)),
      fun hal hoff hea => next_afterRan (State.startAccess_of_exc (State.resolve_outOfRange hal hoff hea)),
      fun pa cache v hok => next_afterRan (State.startAccess_of_ok hok)⟩
  refine ⟨onIssue_of_afterRan (fun _ _ _ _ => rfl) fun u t c n _ _ => ?ld, onIssue_of_afterRan (fun _ _ _ _ => rfl) fun u t c n _ _ => ?st,
    onIssue_of_afterRan (fun _ _ _ _ => rfl) fun u t c n _ _ => ?amo⟩
  case ld =>
    exact hrule (bytes := bytes) (kind := 1) (address := address)
      (fill := fun _ _ _ n a => { a with dest := dOf n, signed := fieldOf n 31 29 < 4 }) (memEa_eq u t c n _)
  case st =>
    exact hrule (bytes := bytes) (kind := 2) (address := address)
      (fill := fun u t c n a => { a with data := leBytes (bytes n) (u.sreg t c (dOf n)).toNat }) (memEa_eq u t c n _)
  case amo =>
    exact hrule (bytes := wide) (kind := 3) (address := fun u t c n => (u.sreg t c (saOf n)).toNat)
      (fill := fun u t c n a => { a with dest := dOf n, signed := true, op := fieldOf n 31 27,
                                         data := leBytes 8 (u.sreg t c (sbOf n)).toNat ++ leBytes 8 (u.sreg t c (dOf n)).toNat }) rfl

/-! ### Responses (R168, R170, R171, R174, R177) -/

theorem sext_zero (w : Nat) : sext w 0 = 0 := by
  refine BitVec.eq_of_getLsbD_eq fun i hi => ?_
  simp [sext, BitVec.getLsbD_signExtend, BitVec.msb]

theorem toInt_loadValue_signed {size : Nat} (h : size ≤ 8) (v : Nat) : (loadValue size true v).toInt = (v : Int).bmod (2 ^ (8 * size)) := by
  rw [loadValue, if_pos rfl, toInt_sext (by omega)]

theorem toNat_loadValue_unsigned {size : Nat} (h : size ≤ 8) (v : Nat) : (loadValue size false v).toNat = v % 2 ^ (8 * size) := by
  have hlt : v % 2 ^ (8 * size) < 2 ^ 64 := (Nat.mod_lt _ (Nat.two_pow_pos _)).trans_le (Nat.pow_le_pow_right (by decide) (by omega))
  rw [loadValue, if_neg Bool.false_ne_true, BitVec.toNat_ofNat, Nat.mod_eq_of_lt hlt]

theorem loadValue_zero (size : Nat) (signed : Bool) : loadValue size signed 0 = 0 := by
  cases signed <;> simp [loadValue, sext_zero]

@[simp] theorem State.core_setTreg64 (s : State) (t a n x d : Nat) : (s.setTreg64 t a n).core x d = s.core x d := by
  rw [State.setTreg64, State.core_setTreg, State.core_setTreg]

@[simp] theorem State.core_tbump (s : State) (t a n x d : Nat) : (s.tbump t a n).core x d = s.core x d := s.core_setTreg t a x d _

/-- R217: the report of a status writes registers alone. -/
@[simp] theorem State.core_reportStatus (s : State) (t core source pc status x d : Nat) :
    (s.reportStatus t core source pc status).core x d = s.core x d := by
  unfold State.reportStatus
  split
  · rfl
  · extract_lets counted noted
    have hnoted : noted.core x d = s.core x d := by
      simp only [noted]
      split <;> simp [counted]
    split <;> simp [hnoted]

/-- The accesses that remain when one with the FENCEs behind it has left. -/
def Core.withoutAccess (k : Core) (id : Nat) : Core :=
  { k with accesses := (k.accesses.filter fun b => b.id != id).dropWhile fun b => b.kind == 5 }

theorem Core.getS_withoutAccess (k : Core) (id r : Nat) : (k.withoutAccess id).getS r = k.getS r := rfl

theorem Core.find?_withoutAccess (k : Core) (id : Nat) : (k.withoutAccess id).accesses.find? (fun a => a.id == id) = none := by
  refine List.find?_eq_none.mpr fun b hb => ?_
  have hmem := (List.dropWhile_sublist _).subset hb
  simpa using (List.mem_filter.mp hmem).2

/-- R168, R171: a load or AMO that is complete leaves, and its destination takes its value. -/
theorem State.core_finishAccess {s : State} {t c : Nat} {a : MemAcc} (status value : Nat) (h : a.kind = 0 ∨ a.kind = 2) :
    (s.finishAccess t c a status value).core t c =
      ((s.core t c).withoutAccess a.id).setS a.dest (loadValue a.size a.signed (if status = 0 then value else 0)) := by
  have hkind : (a.kind == 0 || a.kind == 2) = true := by simpa using h
  simp only [State.finishAccess, hkind, if_true, State.setS, State.core_modCore_same, State.core_reportStatus, beq_iff_eq]
  rfl

theorem memoryResponseArrival_answered {s : State} {t c id : Nat} (corr uncorr : List Nat) {a : MemAcc} {status : Nat} {v : BitVec 64}
    (ha : s.access t c id = some a) (hkind : a.kind = 0 ∨ a.kind = 2) (hpath : a.path ≠ 0) (harrived : a.arrived = some (status, v)) :
    Does (.memoryResponseArrival t c id corr uncorr) s (s.finishAccess t c a status v.toNat) := by
  have hmsg : ¬(a.kind == 3 && a.pieces == 1) = true := by rcases hkind with h | h <;> simp [h]
  have hbrought : a.brought v = v.toNat := by rw [MemAcc.brought, if_neg (by simpa using hpath)]
  simp only [Does, exec_memoryResponseArrival, execMemoryResponseArrival, ha, harrived, if_neg hmsg, hbrought]

/-- Settles O19: the access is complete, so its core loses it and its destination takes its value. -/
theorem responsesDeliver : Obligations.ResponsesDeliver := by
  intro s t c id corr uncorr a status v ha hkind hpath harrived hlo hhi
  have hid : a.id = id := by simpa using List.find?_some ha
  have hcore := s.core_finishAccess (t := t) (c := c) status v.toNat hkind
  refine ⟨_, memoryResponseArrival_answered corr uncorr ha hkind hpath harrived, ?_⟩
  have hdest := ((s.core t c).withoutAccess a.id).getS_setS_same (r := a.dest)
    (loadValue a.size a.signed (if status = 0 then v.toNat else 0)) (by omega)
  refine ⟨fun hok hsigned _ hsize => ?_, fun hok hunsigned hsize => ?_, fun hfail => ?_, fun r hr hne => ?_, ?_⟩
  · rw [hcore, hdest, if_pos hok, hsigned, toInt_loadValue_signed hsize]
  · rw [hcore, hdest, if_pos hok, hunsigned, toNat_loadValue_unsigned hsize]
  · rw [hcore, hdest, if_neg hfail, loadValue_zero]
  · rw [hcore, Core.getS_setS_other _ _ (by omega), Core.getS_withoutAccess]
  · rw [State.access, hcore, Core.setS_eq, ← hid]
    exact (s.core t c).find?_withoutAccess a.id

end Sys2Proof.Machine
end

section
/-! PROOFS. What reset leaves (R149, R152, R154, R182, R217), and how a core enters and leaves a trap (R183). -/

namespace Sys2Proof.Machine

/-! ### Reset -/

theorem State.core_reset (t c : Nat) : State.reset.core t c = Core.reset := rfl

theorem State.treg_reset (t a : Nat) : State.reset.treg t a = Machine.tileReset t a := rfl

theorem Core.getS_reset (r : Nat) : Core.reset.getS r = 0 := by
  unfold Core.getS
  split <;> rfl

theorem Core.pred_reset (i : Nat) : Core.reset.pred i = decide (i % 8 = 0) := by
  have hi : i % 8 < 8 := Nat.mod_lt _ (by decide)
  have hbits : ∀ j, j < 8 → (j == 0 || Core.reset.p.getLsbD j) = decide (j = 0) := by decide
  exact hbits _ hi

theorem Core.tReg_reset (i : Nat) : Core.reset.tReg i = 0 := by
  unfold Core.tReg
  split <;> rfl

theorem tileReset_TILE_STATE (t : Nat) : tileReset t R.TILE_STATE = BitVec.ofNat 32 (tileStateReset (kindOf t)) := rfl

/-- R152: no event flag is set at reset. -/
theorem State.event_reset (t : Nat) {c : Nat} (hc : c < 4) : State.reset.event t c = false := by
  have hbits : ∀ c, c < 4 → ∀ k, (BitVec.ofNat 32 (tileStateReset k)).getLsbD (4 * c + 3) = false := by
    intro c hc k
    cases k <;> revert c <;> decide
  exact hbits c hc (kindOf t)

theorem tileReset_ENG_TOKEN (t : Nat) {j : Nat} (hj : j < 4) : tileReset t (R.ENG_TOKEN j) = 0 := by
  match j, hj with
  | 0, _ => rfl
  | 1, _ => rfl
  | 2, _ => rfl
  | 3, _ => rfl

theorem State.token_reset (t : Nat) {k : Nat} (hk : k < 16) : State.reset.token t k = 0 := by
  rw [State.token, State.tfld, State.treg_reset, tileReset_ENG_TOKEN t (by omega)]
  simp [getBits]

/-- Settles O6: reset leaves every map empty, which reads as its defaults. That the program store and the vitrine hold zeros before a scrub is the
model's choice (log entry 3). -/
theorem resetAndScalarRegisters : Obligations.ResetAndScalarRegisters := by
  refine ⟨⟨rfl, fun t c => ⟨rfl, Core.getS_reset, Core.pred_reset, fun _ _ => rfl, Core.tReg_reset, fun _ => rfl, ?sv⟩, fun t => ?state,
    fun t c hc => State.event_reset t hc, fun t k hk => State.token_reset t hk, fun _ _ => rfl, fun _ _ => rfl⟩, fun k r q v b hr hq => ?writes⟩
  case sv => rw [State.core_reset]; decide
  case state =>
    rw [State.treg_reset, tileReset_TILE_STATE]
    cases kindOf t <;> rfl
  case writes =>
    refine ⟨rfl, rfl, ?_, fun r' hr' hne => ?_, k.setS_eq r v, ?_, fun q' hq' hne => ?_, k.setPred_eq q b⟩
    · rw [k.getS_setS_lt v hr hr, if_pos rfl]
    · exact k.getS_setS_other v (by omega)
    · rw [k.pred_setPred, if_pos rfl, Nat.mod_eq_of_lt hq]
    · rw [k.pred_setPred, Nat.mod_eq_of_lt hq, Nat.mod_eq_of_lt hq', if_neg hne]
      split
      next h => subst h; rfl
      next => rfl

/-! ### Traps (R183) -/

theorem Core.svReg_setSv (k : Core) (n m : Nat) (v : BitVec 64) : (k.setSv n v).svReg m = if m = n then v else k.svReg m := by
  by_cases h : m = n
  · rw [if_pos h, h]
    exact Map.get_set_same _ _ n v
  · rw [if_neg h]
    exact Map.get_set_other _ _ v h

theorem Core.getS_setSv (k : Core) (n r : Nat) (v : BitVec 64) : (k.setSv n v).getS r = k.getS r := rfl

/-- R183: a core whose supervisor registers a trap has written. -/
def Core.trapSaved (k : Core) (kind code pc val : Nat) : Core :=
  ((((k.setSv 3 (BitVec.ofNat 64 (pc / 4 * 4))).setSv 4 (BitVec.ofNat 64 (kind * 256 + code))).setSv 5 (BitVec.ofNat 64 val)).setSv 1
    (BitVec.ofNat 64 (k.supervisor.toNat * 2 + ((k.svReg 0).getLsbD 0).toNat))).setSv 0 2

theorem State.core_trap (s : State) (t c kind code pc val : Nat) : (s.trap t c kind code pc val).core t c =
    { (s.core t c).trapSaved kind code pc val with
      pc := ((s.core t c).svReg 2).toNat / 4096 * 4096 + ((if kind == 0 then 0 else 0x200) + if (s.core t c).supervisor then 0x100 else 0)
      atVector := true } :=
  s.core_modCore_same t c _

section
variable (k : Core) (kind code pc val : Nat)

theorem Core.getS_trapSaved (r : Nat) : (k.trapSaved kind code pc val).getS r = k.getS r := by
  simp only [Core.trapSaved, Core.getS_setSv]

theorem Core.svReg_trapSaved (n : Nat) : (k.trapSaved kind code pc val).svReg n =
    if n = 0 then 2 else if n = 1 then BitVec.ofNat 64 (k.supervisor.toNat * 2 + ((k.svReg 0).getLsbD 0).toNat)
    else if n = 5 then BitVec.ofNat 64 val else if n = 4 then BitVec.ofNat 64 (kind * 256 + code)
    else if n = 3 then BitVec.ofNat 64 (pc / 4 * 4) else k.svReg n := by
  simp only [Core.trapSaved, Core.svReg_setSv]

end

/-- SV_SAVED holds a mode and an ien in its two low bits. -/
theorem savedWord_bits (sup ien : Bool) :
    (BitVec.ofNat 64 (sup.toNat * 2 + ien.toNat)).getLsbD 1 = sup ∧ (BitVec.ofNat 64 (sup.toNat * 2 + ien.toNat)).getLsbD 0 = ien := by
  cases sup <;> cases ien <;> decide

/-- Settles O9: the registers that a trap and TRET write, read after the writes. -/
theorem trapEntry : Obligations.TrapEntry := by
  refine ⟨fun s t c kind code pc val hkind hcode hpc hal => ?trap, fun s t c => ?tret, fun s t c cause pc val hk hv => ?scalar,
    fun s t c cause pc val h => ?fault⟩
  case trap =>
    have hcore := s.core_trap t c kind code pc val
    have hsv : ∀ n, ((s.trap t c kind code pc val).core t c).svReg n = ((s.core t c).trapSaved kind code pc val).svReg n := fun n => by
      rw [hcore]; rfl
    obtain ⟨hmode, hien⟩ := savedWord_bits (s.core t c).supervisor (((s.core t c).svReg 0).getLsbD 0)
    have hpc' : pc / 4 * 4 = pc := by omega
    refine ⟨?_, ?_, ?_, ?_, ?_, ?_, ?_, ?_, fun r => ?_⟩
    · rw [hcore]
      obtain rfl | rfl : kind = 0 ∨ kind = 1 := by omega
      · exact (Nat.add_assoc _ _ _).symm
      · exact (Nat.add_assoc _ _ _).symm
    · rw [hsv, Core.svReg_trapSaved, hpc']; rfl
    · rw [hsv, Core.svReg_trapSaved]; rfl
    · rw [hsv, Core.svReg_trapSaved]; rfl
    · rw [hsv, Core.svReg_trapSaved]; exact hmode
    · rw [hsv, Core.svReg_trapSaved]; exact hien
    · rw [Core.supervisor, hsv, Core.svReg_trapSaved, if_pos rfl]; decide
    · rw [hsv, Core.svReg_trapSaved, if_pos rfl]; decide
    · rw [hcore, ← (s.core t c).getS_trapSaved kind code pc val r]; rfl
  case tret =>
    have hcore : (s.trapReturn t c).core t c =
        { (s.core t c).setSv 0 ((s.core t c).svReg 1 &&& 3) with pc := ((s.core t c).svReg 3).toNat / 4 * 4 } := s.core_modCore_same t c _
    have hsv : ∀ n, ((s.trapReturn t c).core t c).svReg n = if n = 0 then (s.core t c).svReg 1 &&& 3 else (s.core t c).svReg n := fun n => by
      rw [hcore, ← Core.svReg_setSv]; rfl
    refine ⟨by rw [hcore], ?_, ?_, hsv 1⟩
    · rw [Core.supervisor, hsv, if_pos rfl, BitVec.getLsbD_and]
      exact Bool.and_true _
    · rw [hsv, if_pos rfl, BitVec.getLsbD_and]
      exact Bool.and_true _
  case scalar => rw [State.takeException, if_pos (by simp [hk, hv])]
  case fault =>
    refine if_neg ?_
    rcases h with h | h <;> simp [h]

end Sys2Proof.Machine
end

section
/-! PROOFS. The states of cores (R152, R153, R167): what a change of a core's state or of its event flag leaves, what START, STOP and WAKE do, and
writes of the program store (R154). -/

namespace Sys2Proof.Machine

/-! ### A change of a core's state -/

/-- The state differs at most in the registers and records of the trace buffers. -/
def DiffersInTrace (s u : State) : Prop := ∃ regs trace, u = { s with regs := regs, dbg := { s.dbg with trace := trace } }

theorem State.traceEvent_differsInTrace (s : State) (t unit k data : Nat) : DiffersInTrace s (s.traceEvent t unit k data) := by
  unfold State.traceEvent
  refine List.foldlRecOn _ _ ⟨s.regs, s.dbg.trace, rfl⟩ fun u hu n _ => ?_
  obtain ⟨regs, trace, rfl⟩ := hu
  dsimp only
  split
  · exact ⟨_, _, rfl⟩
  · exact ⟨_, _, rfl⟩

/-- R152: a core's state is a field of TILE_STATE, and its change is traced. -/
theorem State.setCoreState_eq (s : State) (t c v : Nat) :
    ∃ regs trace, s.setCoreState t c v =
      { s.setTfld t R.TILE_STATE (4 * c + 2) (4 * c) v with regs := regs, dbg := { s.dbg with trace := trace } } := by
  unfold State.setCoreState
  split
  · exact ⟨s.regs, s.dbg.trace, rfl⟩
  · exact State.traceEvent_differsInTrace _ _ _ _ _

section
variable (s : State) (t c v : Nat)

theorem State.site_setCoreState (x : Nat) : (s.setCoreState t c v).site x = (s.setTfld t R.TILE_STATE (4 * c + 2) (4 * c) v).site x := by
  obtain ⟨_, _, h⟩ := s.setCoreState_eq t c v
  rw [h]
  rfl

theorem State.treg_setCoreState (x a : Nat) :
    (s.setCoreState t c v).treg x a = (s.setTfld t R.TILE_STATE (4 * c + 2) (4 * c) v).treg x a := by
  rw [State.treg, State.site_setCoreState, State.treg]

@[simp] theorem State.core_setCoreState (x d : Nat) : (s.setCoreState t c v).core x d = s.core x d := by
  rw [State.core, State.site_setCoreState, ← State.core, State.core_setTfld]

theorem State.treg_setCoreState_ne {x a : Nat} (h : x ≠ t ∨ a ≠ R.TILE_STATE) : (s.setCoreState t c v).treg x a = s.treg x a := by
  rw [State.treg_setCoreState, State.treg_setTfld_ne _ _ _ _ h]

theorem State.site_setCoreState_other {x : Nat} (h : x ≠ t) : (s.setCoreState t c v).site x = s.site x := by
  rw [State.site_setCoreState, State.setTfld, State.setTreg, State.site_modSite_other _ _ h]

theorem State.coreState_setCoreState_same (hc : c < 4) (hv : v < 8) : (s.setCoreState t c v).coreState t c = v := by
  have hwidth : 4 * c + 2 - 4 * c + 1 = 3 := by omega
  rw [State.coreState, State.tfld, State.treg_setCoreState, ← State.tfld, State.tfld_setTfld_same _ _ _ _ _ _ (by omega) (by omega), hwidth]
  exact Nat.mod_eq_of_lt hv

theorem State.coreState_setCoreState_other {d : Nat} (h : d ≠ c) : (s.setCoreState t c v).coreState t d = s.coreState t d := by
  rw [State.coreState, State.tfld, State.treg_setCoreState, ← State.tfld, State.tfld_setTfld_other _ _ _ _ _ _ _ _ (by omega) (by omega) (by omega),
    State.coreState]

theorem State.event_setCoreState (d : Nat) : (s.setCoreState t c v).event t d = s.event t d := by
  rw [State.event, State.tbit, State.treg_setCoreState, ← State.tbit, State.tbit_setTfld_other _ _ _ _ _ _ _ (by omega) (by omega), State.event]

/-! ### A write of an event flag -/

theorem State.event_setFlag_same (b : Bool) (hc : c < 4) : (s.setTbit t R.TILE_STATE (4 * c + 3) b).event t c = b :=
  s.tbit_setTbit_same t _ _ b (by omega)

theorem State.event_setFlag_other (b : Bool) {d : Nat} (h : d ≠ c) : (s.setTbit t R.TILE_STATE (4 * c + 3) b).event t d = s.event t d :=
  s.tbit_setTbit_other t _ _ _ b (by omega)

theorem State.coreState_setFlag (b : Bool) (d : Nat) : (s.setTbit t R.TILE_STATE (4 * c + 3) b).coreState t d = s.coreState t d :=
  s.tfld_setTbit_other t _ _ _ _ b (by omega) (by omega)

end

theorem State.coreState_modCore (s : State) (t c x d : Nat) (f : Core → Core) : (s.modCore t c f).coreState x d = s.coreState x d := by
  rw [State.coreState, State.tfld, State.treg_modCore, ← State.tfld, State.coreState]

theorem State.event_modCore (s : State) (t c x d : Nat) (f : Core → Core) : (s.modCore t c f).event x d = s.event x d := by
  rw [State.event, State.tbit, State.treg_modCore, ← State.tbit, State.event]

theorem State.site_setTbit_other (s : State) {t x : Nat} (a i : Nat) (b : Bool) (h : x ≠ t) : (s.setTbit t a i b).site x = s.site x :=
  s.site_modSite_other _ h

/-! ### WFE ends (R167, R207) -/

/-- R167: the core goes on after its WFE, with its event flag 0. -/
def State.wfeEnds (s : State) (t c : Nat) : State :=
  ((s.setTbit t R.TILE_STATE (4 * c + 3) false).setCoreState t c 1).modCore t c fun k =>
    { k with wait := 0, timeout := none, pc := (k.pc + 4) % 2 ^ 64 }

section
variable (s : State) (t : Nat) {c : Nat} (hc : c < 4)

include hc in
theorem State.coreState_wfeEnds : (s.wfeEnds t c).coreState t c = 1 := by
  rw [State.wfeEnds, State.coreState_modCore, State.coreState_setCoreState_same _ _ _ _ hc (by decide)]

include hc in
theorem State.event_wfeEnds : (s.wfeEnds t c).event t c = false := by
  rw [State.wfeEnds, State.event_modCore, State.event_setCoreState, State.event_setFlag_same _ _ _ _ hc]

theorem State.core_wfeEnds : (s.wfeEnds t c).core t c =
    { s.core t c with wait := 0, timeout := none, pc := ((s.core t c).pc + 4) % 2 ^ 64 } := by
  rw [State.wfeEnds, State.core_modCore_same, State.core_setCoreState, State.core_setTbit]

theorem State.wfeEnds_other {d : Nat} (h : d ≠ c) : (s.wfeEnds t c).core t d = s.core t d ∧
    (s.wfeEnds t c).coreState t d = s.coreState t d ∧ (s.wfeEnds t c).event t d = s.event t d := by
  refine ⟨?_, ?_, ?_⟩
  · rw [State.wfeEnds, State.core_modCore_other _ _ (.inr h), State.core_setCoreState, State.core_setTbit]
  · rw [State.wfeEnds, State.coreState_modCore, State.coreState_setCoreState_other _ _ _ _ h, State.coreState_setFlag]
  · rw [State.wfeEnds, State.event_modCore, State.event_setCoreState, State.event_setFlag_other _ _ _ _ h]

theorem State.site_wfeEnds_other {x : Nat} (h : x ≠ t) : (s.wfeEnds t c).site x = s.site x := by
  rw [State.wfeEnds, State.site_modCore_other _ _ _ h, State.site_setCoreState_other _ _ _ _ h, State.site_setTbit_other _ _ _ _ h]

/-- R207, R238: an event reaches a core that exists. -/
theorem State.setEvent_eq (h : s.coreState t c ≠ 7) : ∃ v : State, v.coreState t c = s.coreState t c ∧ v.core t c = s.core t c ∧
    s.setEvent t c = if s.coreState t c = 2 ∧ (s.core t c).wait = 1 then v.wfeEnds t c else v.setTbit t R.TILE_STATE (4 * c + 3) true := by
  have hne : R.TILE_STATE ≠ R.S_EXT_PEND c := by simp only [R.TILE_STATE, R.S_EXT_PEND]; omega
  obtain ⟨v, hv, hstate, hcore⟩ : ∃ v, (if kindOf t = .s then s.setTbit t (R.S_EXT_PEND c) 0 true else s) = v ∧
      v.coreState t c = s.coreState t c ∧ v.core t c = s.core t c := by
    refine ⟨_, rfl, ?_⟩
    split
    · exact ⟨State.tfld_setTfld_ne _ _ _ _ _ _ (.inr hne), State.core_setTbit _ _ _ _ _ _ _⟩
    · exact ⟨rfl, rfl⟩
  refine ⟨v, hstate, hcore, ?_⟩
  rw [State.setEvent, if_neg (by simpa using h), hv, ← hstate, ← hcore]
  exact if_congr (by simp) rfl rfl

end

/-! ### START, STOP and WAKE (R151, R153) -/

section
variable {s : State} {t c : Nat}

theorem State.cmdStart_starts (h : s.coreState t c = 0 ∨ s.coreState t c = 4) (hno : s.noStart t = false) : s.cmdStart t c = s.startCore t c := by
  rw [State.cmdStart, if_pos (by simpa [hno] using h)]

theorem State.cmdStart_rejects (h : ¬(s.coreState t c = 0 ∨ s.coreState t c = 4) ∨ s.noStart t = true) : s.cmdStart t c = s.startReject t := by
  rw [State.cmdStart, if_neg]
  simp only [Bool.and_eq_true, Bool.or_eq_true, beq_iff_eq, Bool.not_eq_true', not_and, Bool.not_eq_false]
  exact fun hst => h.resolve_left (not_not.mpr hst)

theorem State.coreState_cmdStop (hc : c < 4) (h : s.coreState t c = 1 ∨ s.coreState t c = 2) : (s.cmdStop t c).coreState t c = 3 := by
  rw [State.cmdStop, if_pos (by simpa using h), State.coreState_modCore, State.coreState_setCoreState_same _ _ _ _ hc (by decide)]

theorem State.cmdStop_absent (h : s.coreState t c = 7) : s.cmdStop t c = s.startReject t := by
  simp [State.cmdStop, h]

theorem State.cmdStop_idle (h : s.coreState t c = 0 ∨ s.coreState t c = 3 ∨ s.coreState t c = 4 ∨ s.coreState t c = 5) :
    s.cmdStop t c = s := by
  rcases h with h | h | h | h <;> simp [State.cmdStop, h]

theorem State.cmdWake_absent (h : s.coreState t c = 7) : s.cmdWake t c = s.startReject t := by
  rw [State.cmdWake, if_pos (by simpa using h)]

theorem State.cmdWake_present (h : s.coreState t c ≠ 7) : s.cmdWake t c = s.setEvent t c := by
  rw [State.cmdWake, if_neg (by simpa using h)]

end

/-- R153: a core that starts at `pc`, with `arg` in s1. -/
def Core.started (k : Core) (pc : Nat) (arg : BitVec 64) (issuable : Nat) : Core :=
  { k.setS 1 arg with pc := pc, exc := none, engExc := none, wait := 0, timeout := none, atVector := false, issuable := issuable }

/-- R153: a core in supervisor mode with ien 0, SV_SAVED 2 and translation off. -/
def Core.asSupervisor (k : Core) : Core := ((k.setSv 0 2).setSv 1 2).setSv 11 (k.svReg 11 &&& ~~~1)

theorem Core.svReg_asSupervisor (k : Core) (n : Nat) : k.asSupervisor.svReg n =
    if n = 11 then k.svReg 11 &&& ~~~1 else if n = 1 then 2 else if n = 0 then 2 else k.svReg n := by
  simp only [Core.asSupervisor, Core.svReg_setSv]

section
variable (s : State) (t : Nat) {c : Nat} (hc : c < 4)

theorem State.core_startCore : ∃ issuable, (s.startCore t c).core t c =
    if kindOf t = .s then ((s.core t c).started (s.tacted64 t R.TILE_ENTRY_LO) (BitVec.ofNat 64 (s.tacted64 t R.TILE_ARG_LO)) issuable).asSupervisor
    else (s.core t c).started (s.tacted64 t R.TILE_ENTRY_LO) (BitVec.ofNat 64 (s.tacted64 t R.TILE_ARG_LO)) issuable := by
  refine ⟨(s.site t).cycle + 1, ?_⟩
  rw [State.startCore, State.core_setCoreState, State.core_setTbit, State.core_modCore_same]
  rfl

include hc in
theorem State.coreState_startCore : (s.startCore t c).coreState t c = 1 := State.coreState_setCoreState_same _ _ _ _ hc (by decide)

include hc in
theorem State.event_startCore : (s.startCore t c).event t c = false := by
  rw [State.startCore, State.event_setCoreState, State.event_setFlag_same _ _ _ _ hc]

theorem State.pc_startCore : ((s.startCore t c).core t c).pc = s.tacted64 t R.TILE_ENTRY_LO := by
  obtain ⟨issuable, h⟩ := s.core_startCore t (c := c)
  rw [h]
  split <;> rfl

theorem State.getS_startCore (r : Nat) : ((s.startCore t c).core t c).getS r =
    ((s.core t c).setS 1 (BitVec.ofNat 64 (s.tacted64 t R.TILE_ARG_LO))).getS r := by
  obtain ⟨issuable, h⟩ := s.core_startCore t (c := c)
  rw [h]
  split <;> rfl

theorem State.svReg_startCore (hk : kindOf t = .s) (n : Nat) : ((s.startCore t c).core t c).svReg n =
    if n = 11 then (s.core t c).svReg 11 &&& ~~~1 else if n = 1 then 2 else if n = 0 then 2 else (s.core t c).svReg n := by
  obtain ⟨issuable, h⟩ := s.core_startCore t (c := c)
  rw [h, if_pos hk, Core.svReg_asSupervisor]
  rfl

end

/-- Settles O30: a start, a stop and a wake act by the state of the core, and a write reaches the twin of a pair too. -/
theorem startStopWake : Obligations.StartStopWake := by
  refine ⟨fun s a t c h => ⟨tileWrite_reached h _ _, tileWrite_reached h _ _, tileWrite_reached h _ _⟩,
    fun s a t f h => State.applied_alone h f,
    fun s a t x f htwin hout => ?pair, fun s t c hc => ?core⟩
  case pair => rw [State.applied, if_neg (ne_true_of_eq_false hout), State.both, htwin]
  case core =>
    intro u w k
    refine ⟨fun hst hno => ?start, State.cmdStart_rejects, State.coreState_cmdStop hc, State.cmdStop_idle,
      fun habs => ⟨State.cmdStop_absent habs, State.cmdWake_absent habs⟩, fun hne hwait => ?flag, fun hst hwait => ?ends⟩
    case start =>
      have hu : u = s.startCore t c := State.cmdStart_starts hst hno
      simp only [k, hu]
      have hmode : kindOf t = .s → ((s.startCore t c).core t c).svReg 0 = 2 := fun hk => s.svReg_startCore t hk 0
      refine ⟨s.coreState_startCore t hc, s.event_startCore t hc, s.pc_startCore t, ?_, fun r hr hne => ?_, fun hk => ⟨?_, ?_, ?_, ?_⟩⟩
      · rw [State.getS_startCore, Core.getS_setS_same _ _ (by decide)]
      · rw [State.getS_startCore, Core.getS_setS_other _ _ (by omega)]
      · rw [Core.supervisor, hmode hk]; decide
      · rw [hmode hk]; decide
      · exact s.svReg_startCore t hk 1
      · rw [s.svReg_startCore t hk, if_pos rfl, BitVec.getLsbD_and]
        exact Bool.and_false _
    case flag =>
      obtain ⟨v, _, _, hv⟩ := s.setEvent_eq t hne
      rw [State.cmdWake_present hne, hv, if_neg hwait, State.event_setFlag_same _ _ _ _ hc]
    case ends =>
      have hne : s.coreState t c ≠ 7 := by omega
      obtain ⟨v, _, hcore, hv⟩ := s.setEvent_eq t hne
      rw [State.cmdWake_present hne, hv, if_pos ⟨hst, hwait⟩, ← hcore]
      exact ⟨v.coreState_wfeEnds t hc, v.event_wfeEnds t hc, by rw [v.core_wfeEnds t]⟩

/-! ### The program store (R154) -/

theorem State.progWord_modSite_other (s : State) {t x : Nat} (f : Site → Site) (h : x ≠ t) (j : Nat) :
    (s.modSite t f).progWord x j = s.progWord x j := by
  rw [State.progWord, State.site_modSite_other _ _ h, State.progWord]

theorem State.progWord_setTbit (s : State) (t a i : Nat) (b : Bool) (x j : Nat) : (s.setTbit t a i b).progWord x j = s.progWord x j := by
  by_cases h : x = t
  · subst h
    rw [State.progWord, State.setTbit, State.setTfld, State.setTreg, State.site_modSite_same, State.progWord]
  · exact s.progWord_modSite_other _ h j

/-- Settles O31: the store takes a word while core 0 does not run, and otherwise the write is noted as rejected. -/
theorem programStoreWrites : Obligations.ProgramStoreWrites := by
  refine ⟨fun s a t i w h => tileWrite_reached h _ _, fun s t i w hi => ?_⟩
  have hstore : kindOf t = .m ∨ kindOf t = .v → ¬(kindOf t = .s || kindOf t = .mi) = true := by rintro (h | h) <;> simp [h]
  refine ⟨fun h => ?none, fun hk hopen x j => ?stored, fun hk hclosed => ?rejected⟩
  case none => exact if_pos (by simpa using h)
  case stored =>
    have hu : s.progWrite t i w = s.modSite t fun x => { x with prog := Map.set (fun _ => 0) x.prog i w } := by
      rw [State.progWrite, if_neg (hstore hk), if_pos (by simpa using hopen), Nat.mod_eq_of_lt hi]
    rw [hu]
    by_cases hx : x = t
    · subst hx
      rw [State.progWord, State.site_modSite_same, State.progWord]
      by_cases hj : j = i
      · rw [if_pos ⟨rfl, hj⟩, hj]; exact Map.get_set_same _ _ i w
      · rw [if_neg fun h => hj h.2]; exact Map.get_set_other _ _ w hj
    · rw [s.progWord_modSite_other _ hx, if_neg fun h => hx h.1]
  case rejected =>
    have hu : s.progWrite t i w = s.setTbit t R.TILE_STATE 17 true := by
      rw [State.progWrite, if_neg (hstore hk), if_neg (by simpa using hclosed)]
    exact ⟨hu, fun x j => by rw [hu, State.progWord_setTbit]⟩

end Sys2Proof.Machine
end

section
/-! PROOFS. What ends a core's waiting or its work, and interrupts (R153, R167, R180, R182-R184, R279). -/

namespace Sys2Proof.Machine

/-! ### Queues close behind their reader (R279) -/

section
variable (s : State) (t : Nat)

theorem queueState_ne {a : Nat} (q : Nat) (h : a < 0x1000) : a ≠ R.NET_Q_STATE q := by
  simp only [R.NET_Q_STATE]; omega

theorem queueState_injective {p q : Nat} (h : p ≠ q) : R.NET_Q_STATE p ≠ R.NET_Q_STATE q := by
  simp only [R.NET_Q_STATE]; omega

theorem State.queueRec_of_fab {s u : State} (h : u.fab = s.fab) (t q : Nat) : u.queueRec t q = s.queueRec t q := by
  rw [State.queueRec, h, State.queueRec]

/-- R279: the queue closes where its reader is core c and its record says so. -/
def State.readerEnd (s : State) (t c q : Nat) : State :=
  if s.qState t q = 1 ∧ qCloseOnEnd (s.queueRec t q) = true ∧ qReader (s.queueRec t q) = c then s.queueClose t q else s

theorem State.readerEnds_eq (c : Nat) : s.readerEnds t c = (List.range 64).foldl (fun s q => s.readerEnd t c q) s := by
  have hstep : ∀ (u : State) (q : Nat), 
      (if u.qState t q == 1 && qCloseOnEnd (u.queueRec t q) && qReader (u.queueRec t q) == c then u.queueClose t q else u) = u.readerEnd t c q :=
    fun u q => if_congr (by simp [and_assoc]) rfl rfl
  simp only [State.readerEnds, hstep]

theorem State.readerEnd_leaves (c q : Nat) : (s.readerEnd t c q).fab = s.fab ∧ (∀ x d, (s.readerEnd t c q).core x d = s.core x d) ∧
    ∀ a, a ≠ R.NET_Q_STATE q → (s.readerEnd t c q).treg t a = s.treg t a := by
  unfold State.readerEnd
  split
  · rw [State.queueClose]
    exact ⟨s.setTreg_fab t _ _, fun x d => s.core_setTfld t _ _ _ _ x d, fun a ha => s.treg_setTfld_ne _ _ _ (.inr ha)⟩
  · exact ⟨rfl, fun _ _ => rfl, fun _ _ => rfl⟩

theorem State.qState_readerEnd_same (c q : Nat) : (s.readerEnd t c q).qState t q =
    if s.qState t q = 1 ∧ qCloseOnEnd (s.queueRec t q) = true ∧ qReader (s.queueRec t q) = c then 2 else s.qState t q := by
  unfold State.readerEnd
  split
  · exact s.tfld_setTfld_same t _ _ _ _ (by decide) (by decide)
  · rfl

theorem State.qState_readerEnd_other (c : Nat) {p q : Nat} (h : q ≠ p) : (s.readerEnd t c p).qState t q = s.qState t q := by
  rw [State.qState, State.tfld, (s.readerEnd_leaves t c p).2.2 _ (queueState_injective h), State.qState, State.tfld]

theorem State.readerEnds_leaves (c : Nat) : (s.readerEnds t c).fab = s.fab ∧ (∀ x d, (s.readerEnds t c).core x d = s.core x d) ∧
    ∀ a, a < 0x1000 → (s.readerEnds t c).treg t a = s.treg t a := by
  rw [State.readerEnds_eq]
  refine List.foldlRecOn
    (motive := fun u : State => u.fab = s.fab ∧ (∀ x d, u.core x d = s.core x d) ∧ ∀ a, a < 0x1000 → u.treg t a = s.treg t a) _ _
    ⟨rfl, fun _ _ => rfl, fun _ _ => rfl⟩ fun u ⟨hfab, hcore, htreg⟩ q _ => ?_
  obtain ⟨hfab', hcore', htreg'⟩ := u.readerEnd_leaves t c q
  exact ⟨hfab'.trans hfab, fun x d => (hcore' x d).trans (hcore x d), fun a ha => (htreg' a (queueState_ne q ha)).trans (htreg a ha)⟩

theorem State.qState_foldl_readerEnd (c : Nat) (l : List Nat) (q : Nat) : (l.foldl (fun s q => s.readerEnd t c q) s).qState t q =
    if q ∈ l ∧ s.qState t q = 1 ∧ qCloseOnEnd (s.queueRec t q) = true ∧ qReader (s.queueRec t q) = c then 2 else s.qState t q := by
  induction l generalizing s with
  | nil => simp
  | cons p l ih =>
    have hrec := State.queueRec_of_fab (s.readerEnd_leaves t c p).1 t q
    rw [List.foldl_cons, ih, hrec]
    by_cases h : q = p
    · subst h
      rw [State.qState_readerEnd_same]
      by_cases hcloses : s.qState t q = 1 ∧ qCloseOnEnd (s.queueRec t q) = true ∧ qReader (s.queueRec t q) = c
      · simp [hcloses]
      · simp only [hcloses, if_false, and_false]
    · rw [State.qState_readerEnd_other _ _ _ h]
      simp only [List.mem_cons, h, false_or]

theorem State.qState_readerEnds (c : Nat) {q : Nat} (hq : q < 64) : (s.readerEnds t c).qState t q =
    if s.qState t q = 1 ∧ qCloseOnEnd (s.queueRec t q) = true ∧ qReader (s.queueRec t q) = c then 2 else s.qState t q := by
  rw [State.readerEnds_eq, State.qState_foldl_readerEnd]
  simp only [List.mem_range.mpr hq, true_and]

end

/-! ### FAULTED and STOPPED (R153, R180) -/

theorem State.treg64_congr {s u : State} {t a : Nat} (h : u.treg t a = s.treg t a) (h' : u.treg t (a + 4) = s.treg t (a + 4)) :
    u.treg64 t a = s.treg64 t a := by rw [State.treg64, h, h', State.treg64]

theorem State.treg_setTreg64_ne (s : State) (t n : Nat) {a b : Nat} (h : b ≠ a) (h' : b ≠ a + 4) : (s.setTreg64 t a n).treg t b = s.treg t b := by
  rw [State.setTreg64, State.treg_setTreg_ne _ _ _ h', State.treg_setTreg_ne _ _ _ h]

theorem State.qState_congr {s u : State} {t q : Nat} (h : u.treg t (R.NET_Q_STATE q) = s.treg t (R.NET_Q_STATE q)) :
    u.qState t q = s.qState t q := by rw [State.qState, State.tfld, h, State.qState, State.tfld]

theorem State.coreState_congr {s u : State} {t : Nat} (h : u.treg t R.TILE_STATE = s.treg t R.TILE_STATE) (c : Nat) :
    u.coreState t c = s.coreState t c := by rw [State.coreState, State.tfld, h, State.coreState, State.tfld]

section
variable (s : State) (t : Nat)

theorem State.coreState_readerEnds (c d : Nat) : (s.readerEnds t c).coreState t d = s.coreState t d :=
  State.coreState_congr ((s.readerEnds_leaves t c).2.2 _ (by decide)) d

theorem State.setCoreState_fab (c v : Nat) : (s.setCoreState t c v).fab = s.fab := fab_of_fabric (s.setCoreState_fabric t c v)

/-- R180: the exception stands in the TILE_EXC registers. -/
def State.excRecorded (r : ExcRec) : State :=
  ((s.setTreg t R.TILE_EXC_CAUSE (BitVec.ofNat 32 (r.core * 256 + r.cause))).setTreg64 t R.TILE_EXC_PC_LO r.pc).setTreg64 t R.TILE_EXC_VAL_LO r.val

theorem State.excRecorded_leaves (r : ExcRec) : (s.excRecorded t r).fab = s.fab ∧ (∀ x d, (s.excRecorded t r).core x d = s.core x d) ∧
    ∀ a, a < 0x20 ∨ 0x38 ≤ a → (s.excRecorded t r).treg t a = s.treg t a := by
  refine ⟨?_, fun x d => ?_, fun a ha => ?_⟩
  · rw [State.excRecorded, State.setTreg64_fab, State.setTreg64_fab, State.setTreg_fab]
  · rw [State.excRecorded, State.core_setTreg64, State.core_setTreg64, State.core_setTreg]
  · have hne : a ≠ R.TILE_EXC_CAUSE ∧ a ≠ R.TILE_EXC_PC_LO ∧ a ≠ R.TILE_EXC_PC_LO + 4 ∧
        a ≠ R.TILE_EXC_VAL_LO ∧ a ≠ R.TILE_EXC_VAL_LO + 4 := by
      simp only [R.TILE_EXC_CAUSE, R.TILE_EXC_PC_LO, R.TILE_EXC_VAL_LO]
      omega
    obtain ⟨hcause, hpc, hpc', hval, hval'⟩ := hne
    rw [State.excRecorded, State.treg_setTreg64_ne _ _ _ hval hval',
      State.treg_setTreg64_ne _ _ _ hpc hpc', State.treg_setTreg_ne _ _ _ hcause]

theorem State.treg_excRecorded {r : ExcRec} (hcore : r.core < 4) (hcause : r.cause < 64) (hpc : r.pc < 2 ^ 64) (hval : r.val < 2 ^ 64) :
    ((s.excRecorded t r).treg t R.TILE_EXC_CAUSE).toNat = r.core * 256 + r.cause ∧ (s.excRecorded t r).treg64 t R.TILE_EXC_PC_LO = r.pc ∧
    (s.excRecorded t r).treg64 t R.TILE_EXC_VAL_LO = r.val := by
  refine ⟨?_, ?_, ?_⟩
  · rw [State.excRecorded, State.treg_setTreg64_ne _ _ _ (by decide) (by decide), State.treg_setTreg64_ne _ _ _ (by decide) (by decide),
      State.treg_setTreg_same, BitVec.toNat_ofNat, Nat.mod_eq_of_lt (by omega)]
  · have hkept := fun u : State => State.treg64_congr
      (u.treg_setTreg64_ne t r.val (a := R.TILE_EXC_VAL_LO) (b := R.TILE_EXC_PC_LO) (by decide) (by decide))
      (u.treg_setTreg64_ne t r.val (by decide) (by decide))
    rw [State.excRecorded, hkept, State.treg64_setTreg64_same, Nat.mod_eq_of_lt hpc]
  · rw [State.excRecorded, State.treg64_setTreg64_same, Nat.mod_eq_of_lt hval]

/-- R180: a core that has become FAULTED with the exception. -/
def State.faulted (c : Nat) (r : ExcRec) : State :=
  (((s.excRecorded t r).setCoreState t c 4).modCore t c fun k => { k with exc := none, engExc := none }).readerEnds t c

theorem State.treg_faulted (c : Nat) (r : ExcRec) {a : Nat} (ha : a < 0x1000) (hne : a ≠ R.TILE_STATE) :
    (s.faulted t c r).treg t a = (s.excRecorded t r).treg t a := by
  rw [State.faulted, (State.readerEnds_leaves _ t c).2.2 a ha, State.treg_modCore, State.treg_setCoreState_ne _ _ _ _ (.inr hne)]

/-- Core c has ended: its state is n, the queues that it reads are closed where their records say so (R279), and the other cores are as in s. -/
structure EndedAs (t c n : Nat) (s u : State) : Prop where
  ended : u.coreState t c = n
  others : ∀ d, d < 4 → d ≠ c → u.core t d = s.core t d ∧ u.coreState t d = s.coreState t d
  queues : ∀ q, q < 64 → u.qState t q =
    if s.qState t q = 1 ∧ qCloseOnEnd (s.queueRec t q) = true ∧ qReader (s.queueRec t q) = c then 2 else s.qState t q

theorem State.endedAs_readerEnds {s v : State} {t c n : Nat} (hfab : v.fab = s.fab) (hstate : v.coreState t c = n)
    (hothers : ∀ d, d < 4 → d ≠ c → v.core t d = s.core t d ∧ v.coreState t d = s.coreState t d)
    (hqueues : ∀ q, v.qState t q = s.qState t q) : EndedAs t c n s (v.readerEnds t c) where
  ended := by rw [State.coreState_readerEnds, hstate]
  others d hd hne := by
    rw [(v.readerEnds_leaves t c).2.1, State.coreState_readerEnds]
    exact hothers d hd hne
  queues q hq := by rw [State.qState_readerEnds _ _ _ hq, hqueues, State.queueRec_of_fab hfab]

theorem State.faulted_endedAs {c : Nat} (hc : c < 4) (r : ExcRec) : EndedAs t c 4 s (s.faulted t c r) := by
  obtain ⟨hfab, hcore, htreg⟩ := s.excRecorded_leaves t r
  have hstate := State.coreState_congr (htreg R.TILE_STATE (by decide))
  refine State.endedAs_readerEnds ?_ ?_ (fun d _ hne => ⟨?_, ?_⟩) fun q => ?_
  · exact (State.modSite_fab _ t _).trans ((State.setCoreState_fab _ t c 4).trans hfab)
  · rw [State.coreState_modCore, State.coreState_setCoreState_same _ _ _ _ hc (by decide)]
  · rw [State.core_modCore_other _ _ (.inr hne), State.core_setCoreState, hcore]
  · rw [State.coreState_modCore, State.coreState_setCoreState_other _ _ _ _ hne, hstate]
  · have hq : R.NET_Q_STATE q ≠ R.TILE_STATE := (queueState_ne q (by decide)).symm
    refine State.qState_congr ?_
    rw [State.treg_modCore, State.treg_setCoreState_ne _ _ _ _ (.inr hq), htreg _ (.inr (by simp only [R.NET_Q_STATE]; omega))]

theorem State.stopped_endedAs {c : Nat} (hc : c < 4) : EndedAs t c 0 s ((s.setCoreState t c 0).readerEnds t c) := by
  refine State.endedAs_readerEnds (s.setCoreState_fab t c 0) (s.coreState_setCoreState_same t c 0 hc (by decide))
    (fun d _ hne => ⟨s.core_setCoreState t c 0 t d, s.coreState_setCoreState_other t c 0 hne⟩) fun q => State.qState_congr ?_
  exact s.treg_setCoreState_ne t c 0 (.inr (queueState_ne q (by decide)).symm)

end

theorem coreFaulted_does {s : State} {t c : Nat} {r : ExcRec} (hr : (s.core t c).recorded = some r) (hending : s.coreState t c = 3)
    (hdone : s.workDone t c = true) : Does (.coreFaulted t c) s ((s.faulted t c r).fault 0x02 (s.sourceOf t c) (s.partOf t)
      (le 1 r.core ++ le 1 r.cause ++ le 8 r.pc ++ le 8 r.val)) := by
  rw [Does, exec_coreFaulted, execCoreFaulted, hr]
  exact when_true (by rw [hending, hdone]; rfl)

theorem coreStopped_does {s : State} {t c : Nat} (hr : (s.core t c).recorded = none) (hending : s.coreState t c = 3)
    (hdone : s.workDone t c = true) : Does (.coreStopped t c) s ((s.setCoreState t c 0).readerEnds t c) := by
  rw [Does, exec_coreStopped, execCoreStopped]
  exact when_true (by rw [hr, hending, hdone]; rfl)

theorem State.core_faulted (s : State) (t c : Nat) (r : ExcRec) : (s.faulted t c r).core t c = { s.core t c with exc := none, engExc := none } := by
  rw [State.faulted, (State.readerEnds_leaves _ t c).2.1, State.core_modCore_same, State.core_setCoreState, (s.excRecorded_leaves t r).2.1]

/-! ### A core goes on by itself (R176, R184) -/

/-- R176: the core goes on after its IDLE. -/
def State.idleEnds (s : State) (t c : Nat) : State :=
  (s.setCoreState t c 1).modCore t c fun k => { k with wait := 0, pc := (k.pc + 4) % 2 ^ 64 }

section
variable (s : State) (t c : Nat)

theorem State.setCoreState_time (v : Nat) : (s.setCoreState t c v).time = s.time := by
  obtain ⟨_, _, h⟩ := s.setCoreState_eq t c v
  rw [h]
  rfl

theorem State.core_idleEnds : (s.idleEnds t c).core t c = { s.core t c with wait := 0, pc := ((s.core t c).pc + 4) % 2 ^ 64 } := by
  rw [State.idleEnds, State.core_modCore_same, State.core_setCoreState]

theorem State.coreState_idleEnds {c : Nat} (hc : c < 4) : (s.idleEnds t c).coreState t c = 1 := by
  rw [State.idleEnds, State.coreState_modCore, State.coreState_setCoreState_same _ _ _ _ hc (by decide)]

theorem State.modCore_time (f : Core → Core) : (s.modCore t c f).time = s.time := s.modSite_time t _

theorem State.modCore_dbg (f : Core → Core) : (s.modCore t c f).dbg = s.dbg := rfl

theorem State.idleEnds_halting : (s.idleEnds t c).halting t c = s.halting t c := by
  obtain ⟨_, _, h⟩ := s.setCoreState_eq t c 1
  rw [State.halting, State.idleEnds, State.modCore_dbg, h, State.halting]

theorem State.idleEnds_stepping : (s.idleEnds t c).stepping t c = s.stepping t c := by
  obtain ⟨_, _, h⟩ := s.setCoreState_eq t c 1
  rw [State.stepping, State.idleEnds, State.modCore_dbg, h, State.stepping]

/-- What R182 reads for the timer is that of s: the site's copy of TIME and the supervisor registers. -/
structure SameTimer (t c : Nat) (s u : State) : Prop where
  time : u.time = s.time
  sv : ∀ n, (u.core t c).svReg n = (s.core t c).svReg n

theorem State.idleEnds_sameTimer : SameTimer t c s (s.idleEnds t c) where
  time := (State.modCore_time _ t c _).trans (s.setCoreState_time t c 1)
  sv n := by rw [s.core_idleEnds t c]; rfl

theorem State.halted_sameTimer : SameTimer t c s (s.halted t c) where
  time := (State.modCore_time _ t c _).trans (State.setCoreState_time _ t c 5)
  sv n := by rw [State.halted, State.core_modCore_same, State.core_setCoreState]; rfl

/-- The core after an IDLE that an interrupt ends. -/
def State.awake (s : State) (t c : Nat) : State :=
  if s.coreState t c = 2 ∧ (s.core t c).wait = 2 ∧ s.irqEnabled t c ≠ 0 then s.idleEnds t c else s

theorem State.settle_eq : s.settle t c = if (s.core t c).accesses.isEmpty = false then s.awake t c
    else if (s.awake t c).halting t c = true ∧ ((s.awake t c).coreState t c = 1 ∨ (s.awake t c).coreState t c = 2) then (s.awake t c).halted t c
    else if (s.awake t c).stepping t c = true ∧ (s.awake t c).coreState t c = 1 then (s.awake t c).halted t c
    else s.awake t c := by
  have hawake : (if s.coreState t c == 2 && (s.core t c).wait == 2 && s.irqEnabled t c != 0 then s.idleEnds t c else s) = s.awake t c :=
    if_congr (by simp [and_assoc]) rfl rfl
  rw [← hawake]
  unfold State.settle
  simp only [Bool.not_eq_true', Bool.and_eq_true, Bool.or_eq_true, beq_iff_eq]
  rfl

/-- A core that is not to be halted is settled by the end of its IDLE alone. -/
theorem State.settle_of_notHalting (hh : s.halting t c = false) (hs : s.stepping t c = false) : s.settle t c = s.awake t c := by
  have hh' : (s.awake t c).halting t c = false := by
    rw [State.awake]
    split
    · rw [State.idleEnds_halting, hh]
    · exact hh
  have hs' : (s.awake t c).stepping t c = false := by
    rw [State.awake]
    split
    · rw [State.idleEnds_stepping, hs]
    · exact hs
  simp [State.settle_eq, hh', hs']

theorem State.settle_of_neither (h1 : s.coreState t c ≠ 1) (h2 : s.coreState t c ≠ 2) : s.settle t c = s := by
  have hawake : s.awake t c = s := if_neg fun h => h2 h.1
  simp [State.settle_eq, hawake, h1, h2]

theorem State.settle_sameTimer : SameTimer t c s (s.settle t c) := by
  have hawake : SameTimer t c s (s.awake t c) := by
    rw [State.awake]
    split
    · exact s.idleEnds_sameTimer t c
    · exact ⟨rfl, fun _ => rfl⟩
  have hhalted : SameTimer t c s ((s.awake t c).halted t c) :=
    ⟨(State.halted_sameTimer _ t c).time.trans hawake.time, fun n => ((State.halted_sameTimer _ t c).sv n).trans (hawake.sv n)⟩
  rw [State.settle_eq]
  split_ifs
  · exact hawake
  · exact hhalted
  · exact hhalted
  · exact hawake

/-! ### Interrupts (R182, R184) -/

/-- R182: bit 0 of the pending interrupts is the timer's. -/
theorem State.irqPend_timer : (s.irqPend t c).getLsbD 0 = decide (((s.core t c).svReg 10).toNat ≤ s.siteTime t) := by
  have hself : ((s.core t c).svReg 9 &&& 4).getLsbD 0 = false := by rw [BitVec.getLsbD_and]; exact Bool.and_false _
  unfold State.irqPend
  rw [BitVec.getLsbD_or, hself, Bool.or_false]
  by_cases htimer : ((s.core t c).svReg 10).toNat ≤ s.siteTime t
  · simp only [htimer, if_true, decide_true]
    split <;> rfl
  · simp only [htimer, if_false, decide_false]
    split <;> rfl

theorem State.irqEnabled_ne_zero (hpend : (s.irqPend t c).getLsbD 0 = true) (hien : ((s.core t c).svReg 8).getLsbD 0 = true) :
    s.irqEnabled t c ≠ 0 := by
  intro hzero
  have hbit : (s.irqEnabled t c).getLsbD 0 = true := by rw [State.irqEnabled, BitVec.getLsbD_and, hpend, hien]; rfl
  rw [hzero] at hbit
  exact absurd hbit (by decide)

theorem irqCode_lt (e : BitVec 64) : irqCode e < 64 := by
  unfold irqCode
  split_ifs <;> decide

theorem State.irqPend_settle_timer (h : ((s.core t c).svReg 10).toNat ≤ s.siteTime t) : ((s.settle t c).irqPend t c).getLsbD 0 = true := by
  obtain ⟨htime, hsv⟩ := s.settle_sameTimer t c
  rw [State.irqPend_timer, State.siteTime, htime, hsv]
  exact decide_eq_true h

end

theorem wfeTimeout_does {s : State} {t c m : Nat} (hstate : s.coreState t c = 2) (hwait : (s.core t c).wait = 1)
    (htimeout : (s.core t c).timeout = some m) (hm : m ≤ s.siteTime t) : Does (.wfeTimeout t c) s (s.wfeEnds t c) := by
  rw [Does, exec_wfeTimeout, execWfeTimeout]
  exact when_true (by simp [hstate, hwait, htimeout, hm])

theorem svTimerExpiry_does {s : State} {t c : Nat} (hk : kindOf t = .s) (hc : c < 4) (h : ((s.core t c).svReg 10).toNat ≤ s.siteTime t) :
    Does (.svTimerExpiry t c) s (s.settle t c) := by
  rw [Does, exec_svTimerExpiry, execSvTimerExpiry]
  exact when_true (by simp [hk, hc, State.irqPend_timer, h])

theorem interruptTaken_does {s : State} {t c : Nat} (hc : c < 4) (hsettled : s.settle t c = s) (hruns : s.siteRuns t = true)
    (hdue : s.irqDue t c = true) (hstate : s.coreState t c = 1) (hh : s.halting t c = false) (hexc : (s.core t c).exc = none) :
    Does (.interruptTaken t c) s (s.trap t c 1 (irqCode (s.irqEnabled t c)) (s.core t c).pc 0) := by
  rw [Does, exec_interruptTaken, execInterruptTaken, hsettled]
  exact when_true (by simp [hc, hruns, hdue, hstate, hh, hexc])

/-- Settles O32: the state that each command leaves is named (wfeEnds, faulted, readerEnds, settle, trap) and read by the lemmas about it. -/
theorem coreEvents : Obligations.CoreEvents := by
  refine ⟨fun s t c m hc hstate hwait htimeout hm => ?wfe, fun s t c r hc hcore hcause hpc hval hr hending hdone => ?faulted,
    fun s t c hc hending hr hdone => ?stopped, fun s t c hk hc hreached => ?timer,
    fun s t c hk hc hstate hruns hh hs hexc hpc hal hdue hopen => ?interrupt⟩
  case wfe =>
    exact ⟨_, wfeTimeout_does hstate hwait htimeout hm, s.coreState_wfeEnds t hc, s.event_wfeEnds t hc, s.core_wfeEnds t,
      fun d _ hne => s.wfeEnds_other t hne, fun x hne => s.site_wfeEnds_other t hne⟩
  case faulted =>
    obtain ⟨hended, hothers, hqueues⟩ := s.faulted_endedAs t hc r
    obtain ⟨hcause', hpc', hval'⟩ := s.treg_excRecorded t hcore hcause hpc hval
    have htreg := fun a ha hne => s.treg_faulted t c r (a := a) ha hne
    refine ⟨_, coreFaulted_does hr hending hdone, hended, ?_, ?_, ?_, s.core_faulted t c r, hothers, hqueues⟩
    · rw [htreg _ (by decide) (by decide), hcause']
    · rw [State.treg64_congr (htreg _ (by decide) (by decide)) (htreg _ (by decide) (by decide)), hpc']
    · rw [State.treg64_congr (htreg _ (by decide) (by decide)) (htreg _ (by decide) (by decide)), hval']
  case stopped =>
    obtain ⟨hended, hothers, hqueues⟩ := s.stopped_endedAs t hc
    refine ⟨_, coreStopped_does hr hending hdone, hended, ?_, hothers, hqueues⟩
    rw [(State.readerEnds_leaves _ t c).2.1, State.core_setCoreState]
  case timer =>
    refine ⟨_, svTimerExpiry_does hk hc hreached, s.irqPend_settle_timer t c hreached, fun hstate hwait hien hh hs => ?_,
      s.settle_of_neither t c⟩
    have hpend : (s.irqPend t c).getLsbD 0 = true := by rw [State.irqPend_timer]; exact decide_eq_true hreached
    have hends : s.settle t c = s.idleEnds t c :=
      (s.settle_of_notHalting t c hh hs).trans (if_pos ⟨hstate, hwait, s.irqEnabled_ne_zero t c hpend hien⟩)
    rw [hends]
    exact ⟨s.coreState_idleEnds t hc, s.core_idleEnds t c⟩
  case interrupt =>
    have hsettled : s.settle t c = s := (s.settle_of_notHalting t c hh hs).trans (if_neg (by simp [hstate]))
    have hirq : s.irqDue t c = true := by
      have hdue' : (s.irqEnabled t c != 0) = true := bne_iff_ne.mpr hdue
      rw [State.irqDue, hdue']
      rcases hopen with hopen | hopen <;> simp [hk, hopen]
    obtain ⟨hpc', hret, hcause, -, hmode, hien, hsup, hien', hregs⟩ :=
      trapEntry.1 s t c 1 (irqCode (s.irqEnabled t c)) (s.core t c).pc 0 (by decide) (irqCode_lt _) hpc hal
    exact ⟨_, interruptTaken_does hc hsettled hruns hirq hstate hh hexc, hpc', hret, hcause, hmode, hien, hsup, hien', hregs⟩

end Sys2Proof.Machine
end

section
/-! PROOFS. VECTOR_INTEGER (R208): the result of each function of group 0x22 on a lane. -/

namespace Sys2Proof.Machine

theorem flag32_eq (b : Bool) : flag32 b = if b then BitVec.allOnes 32 else 0 := rfl

/-- The rule of R208 for function `fn` of group 0x22: the lane v from the lanes a and b and the old lane d. -/
def IntegerLane (fn : Nat) (a b d v : BitVec 32) : Prop :=
  (fn = 0 → v.toNat = (a.toNat + b.toNat) % 2 ^ 32) ∧ (fn = 1 → (v.toNat + b.toNat) % 2 ^ 32 = a.toNat) ∧
  (fn = 2 → v.toNat = a.toNat * b.toNat % 2 ^ 32) ∧ (fn = 3 → v = a &&& b) ∧ (fn = 4 → v = a ||| b) ∧
  (fn = 5 → v = a ^^^ b) ∧ (fn = 6 → v.toNat = a.toNat * 2 ^ (b.toNat % 32) % 2 ^ 32) ∧ (fn = 7 → v.toNat = a.toNat / 2 ^ (b.toNat % 32)) ∧
  (fn = 8 → v.toInt = a.toInt / 2 ^ (b.toNat % 32)) ∧ (fn = 9 → v.toInt = min a.toInt b.toInt) ∧
  (fn = 10 → v.toInt = max a.toInt b.toInt) ∧ (fn = 11 → v.toNat = min a.toNat b.toNat) ∧
  (fn = 12 → v.toNat = max a.toNat b.toNat) ∧ (fn = 13 → v = if a = b then BitVec.allOnes 32 else 0) ∧
  (fn = 14 → v = if a.toInt < b.toInt then BitVec.allOnes 32 else 0) ∧
  (fn = 15 → v = if a.toNat < b.toNat then BitVec.allOnes 32 else 0) ∧ (fn = 16 → v = (d &&& a) ||| (~~~d &&& b))

theorem integerLane_laneInt (fn : Nat) (a b d : BitVec 32) : IntegerLane fn a b d (laneInt fn a b d) := by
  refine ⟨?add, ?sub, ?mul, ?and, ?or, ?xor, ?shl, ?shr, ?sar, ?min, ?max, ?minu, ?maxu, ?eq, ?lt, ?ltu, ?sel⟩ <;> rintro rfl
  case add => exact BitVec.toNat_add a b
  case sub => rw [laneInt, ← BitVec.toNat_add, BitVec.sub_add_cancel]
  case mul => exact BitVec.toNat_mul a b
  case and => rfl
  case or => rfl
  case xor => rfl
  case shl => rw [laneInt, BitVec.toNat_shiftLeft, Nat.shiftLeft_eq]
  case shr => rw [laneInt, BitVec.toNat_ushiftRight, Nat.shiftRight_eq_div_pow]
  case sar => rw [laneInt, BitVec.toInt_sshiftRight, Int.shiftRight_eq_div_pow]; norm_cast
  case min => rw [laneInt, apply_ite BitVec.toInt, min_def]
  case max => rw [laneInt, apply_ite BitVec.toInt, max_def]
  case minu => rw [laneInt, apply_ite BitVec.toNat, min_def]
  case maxu => rw [laneInt, apply_ite BitVec.toNat, max_def]
  case eq => simp only [laneInt, flag32_eq, beq_iff_eq]
  case lt => simp only [laneInt, flag32_eq, decide_eq_true_eq]
  case ltu => simp only [laneInt, flag32_eq, decide_eq_true_eq]
  case sel => rfl

/-- The functions of group 0x22 end at VSEL. -/
theorem integerFn_of_legal {k : TileKind} {n : Nat} (h : illegal k n = false) (hg : insnGroup n = 0x22) : fnOf n ≤ 16 := by
  have := illegalFields_of_legal h
  simp only [illegalFields, hg, Bool.or_eq_false_iff, decide_eq_false_iff_not] at this
  omega

/-- Settles O25: the lanes are those of laneInt, whose every function keeps the rule of R208. -/
theorem vectorIntegerLanes : Obligations.VectorIntegerLanes := by
  refine onIssue_of_run (fun _ _ _ _ => rfl) (lanewise_run 0x22 laneInt) fun u t c n haccept hlegal =>
    ⟨_, rfl, ?_, integerFn_of_legal hlegal (beq_iff_eq.mp haccept), fun i v hv => ?_⟩
  · rw [Core.lanesBy, List.length_map, List.length_range, lanesOf]
  · obtain ⟨-, rfl⟩ := eq_of_getElem?_map_range hv
    exact integerLane_laneInt _ _ _ _

end Sys2Proof.Machine
end

section
/-! PROOFS. VSORT and VTOPK (R214): insertion and merge keep the pairs, the descending order of keys, and the order of equal keys. -/

namespace Sys2Proof.Machine

/-! ### Descending lists of pairs -/

/-- The order in which a pair may stand before another. -/
def KeyAtLeast (p q : BitVec 32 × BitVec 32) : Prop := sortKey q.1 ≤ sortKey p.1

/-- The pairs of a list with key k. -/
def keyPairs (k : Int) (l : List (BitVec 32 × BitVec 32)) : List (BitVec 32 × BitVec 32) := l.filter fun p => sortKey p.1 = k

theorem descends_iff_isChain (l : List (BitVec 32 × BitVec 32)) : descends l = true ↔ l.IsChain KeyAtLeast := by
  induction l with
  | nil => simp [descends]
  | cons p l ih =>
    cases l with
    | nil => simp [descends]
    | cons q l => rw [descends, Bool.and_eq_true, decide_eq_true_eq, ih, List.isChain_cons_cons, KeyAtLeast]

theorem descends_iff_pairwise (l : List (BitVec 32 × BitVec 32)) : descends l = true ↔ l.Pairwise KeyAtLeast := by
  have htrans : IsTrans (BitVec 32 × BitVec 32) KeyAtLeast := ⟨fun _ _ _ hpq hqr => Int.le_trans hqr hpq⟩
  exact (descends_iff_isChain l).trans List.isChain_iff_pairwise

theorem keyPairs_cons (k : Int) (p : BitVec 32 × BitVec 32) (l : List (BitVec 32 × BitVec 32)) :
    keyPairs k (p :: l) = (if sortKey p.1 = k then [p] else []) ++ keyPairs k l := by
  by_cases h : sortKey p.1 = k <;> simp [keyPairs, h]

/-- No pair of a list has a key above all of its keys. -/
theorem keyPairs_eq_nil {k : Int} {l : List (BitVec 32 × BitVec 32)} (h : ∀ p ∈ l, sortKey p.1 < k) : keyPairs k l = [] :=
  List.filter_eq_nil_iff.mpr fun p hp => by simpa using (h p hp).ne

/-! ### VSORT inserts pair by pair -/

section
variable (p : BitVec 32 × BitVec 32) {l : List (BitVec 32 × BitVec 32)}

theorem insertDesc_cons_above {q : BitVec 32 × BitVec 32} (h : sortKey q.1 < sortKey p.1) : insertDesc p (q :: l) = p :: q :: l := if_pos h

theorem insertDesc_cons_below {q : BitVec 32 × BitVec 32} (h : sortKey p.1 ≤ sortKey q.1) : insertDesc p (q :: l) = q :: insertDesc p l :=
  if_neg (Int.not_lt.mpr h)

theorem insertDesc_perm (l : List (BitVec 32 × BitVec 32)) : (insertDesc p l).Perm (p :: l) := by
  induction l with
  | nil => exact .refl _
  | cons q l ih =>
    rcases Int.lt_or_le (sortKey q.1) (sortKey p.1) with h | h
    · rw [insertDesc_cons_above p h]
    · rw [insertDesc_cons_below p h]
      exact (ih.cons q).trans (.swap p q l)

theorem insertDesc_descending (h : l.Pairwise KeyAtLeast) : (insertDesc p l).Pairwise KeyAtLeast := by
  induction l with
  | nil => exact List.pairwise_singleton _ p
  | cons q l ih =>
    obtain ⟨hq, hl⟩ := List.pairwise_cons.mp h
    rcases Int.lt_or_le (sortKey q.1) (sortKey p.1) with hlt | hle
    · rw [insertDesc_cons_above p hlt]
      refine List.pairwise_cons.mpr ⟨fun r hr => ?_, h⟩
      rcases List.mem_cons.mp hr with rfl | hr
      · exact hlt.le
      · exact (hq r hr).trans hlt.le
    · rw [insertDesc_cons_below p hle]
      refine List.pairwise_cons.mpr ⟨fun r hr => ?_, ih hl⟩
      rcases List.mem_cons.mp ((insertDesc_perm p l).subset hr) with rfl | hr
      · exact hle
      · exact hq r hr

/-- A pair is inserted behind the pairs of its key. -/
theorem keyPairs_insertDesc (k : Int) (h : l.Pairwise KeyAtLeast) : keyPairs k (insertDesc p l) = keyPairs k l ++ keyPairs k [p] := by
  induction l with
  | nil => rfl
  | cons q l ih =>
    obtain ⟨hq, hl⟩ := List.pairwise_cons.mp h
    rcases Int.lt_or_le (sortKey q.1) (sortKey p.1) with hlt | hle
    · rw [insertDesc_cons_above p hlt, keyPairs_cons k p]
      by_cases hk : sortKey p.1 = k
      · have hnone : keyPairs k (q :: l) = [] := keyPairs_eq_nil fun r hr => by
          rcases List.mem_cons.mp hr with rfl | hr
          · exact hk ▸ hlt
          · exact hk ▸ (hq r hr).trans_lt hlt
        rw [hnone, keyPairs_cons]
        simp [keyPairs]
      · simp [keyPairs, hk]
    · rw [insertDesc_cons_below p hle, keyPairs_cons, ih hl, keyPairs_cons k q, List.append_assoc]

end

theorem foldl_insertDesc (l : List (BitVec 32 × BitVec 32)) {acc : List (BitVec 32 × BitVec 32)} (h : acc.Pairwise KeyAtLeast) :
    (l.foldl (fun acc p => insertDesc p acc) acc).Perm (acc ++ l) ∧ (l.foldl (fun acc p => insertDesc p acc) acc).Pairwise KeyAtLeast ∧
    ∀ k, keyPairs k (l.foldl (fun acc p => insertDesc p acc) acc) = keyPairs k acc ++ keyPairs k l := by
  induction l generalizing acc with
  | nil => exact ⟨by simp, h, fun k => by simp [keyPairs]⟩
  | cons p l ih =>
    obtain ⟨hperm, hdesc, hpairs⟩ := ih (insertDesc_descending p h)
    refine ⟨hperm.trans (((insertDesc_perm p acc).append_right l).trans List.perm_middle.symm), hdesc, fun k => ?_⟩
    rw [List.foldl_cons, hpairs, keyPairs_insertDesc p k h, List.append_assoc, keyPairs, keyPairs, keyPairs, ← List.filter_append]
    rfl

/-! ### VTOPK merges -/

theorem mergeDesc_cons_above (n : Nat) {p q : BitVec 32 × BitVec 32} (a b : List (BitVec 32 × BitVec 32)) (h : sortKey p.1 < sortKey q.1) :
    mergeDesc (n + 1) (p :: a) (q :: b) = q :: mergeDesc n (p :: a) b := if_pos h

theorem mergeDesc_cons_below (n : Nat) {p q : BitVec 32 × BitVec 32} (a b : List (BitVec 32 × BitVec 32)) (h : sortKey q.1 ≤ sortKey p.1) :
    mergeDesc (n + 1) (p :: a) (q :: b) = p :: mergeDesc n a (q :: b) := if_neg (Int.not_lt.mpr h)

theorem mergeDesc_cons_nil (n : Nat) (p : BitVec 32 × BitVec 32) (a : List (BitVec 32 × BitVec 32)) :
    mergeDesc (n + 1) (p :: a) [] = p :: a := rfl

theorem mergeDesc_effect (n : Nat) {a b : List (BitVec 32 × BitVec 32)} (hn : a.length + b.length ≤ n) (ha : a.Pairwise KeyAtLeast)
    (hb : b.Pairwise KeyAtLeast) : (mergeDesc n a b).Perm (a ++ b) ∧ (mergeDesc n a b).Pairwise KeyAtLeast ∧
      ∀ k, keyPairs k (mergeDesc n a b) = keyPairs k a ++ keyPairs k b := by
  induction n generalizing a b with
  | zero =>
    obtain rfl : a = [] := List.length_eq_zero_iff.mp (by omega)
    obtain rfl : b = [] := List.length_eq_zero_iff.mp (by simpa using hn)
    exact ⟨.refl _, .nil, fun _ => rfl⟩
  | succ n ih =>
    match a, b with
    | [], b => exact ⟨.refl _, hb, fun _ => rfl⟩
    | p :: a, [] => rw [mergeDesc_cons_nil]; exact ⟨by simp, ha, fun _ => by simp [keyPairs]⟩
    | p :: a, q :: b =>
      obtain ⟨hp, ha'⟩ := List.pairwise_cons.mp ha
      obtain ⟨hq, hb'⟩ := List.pairwise_cons.mp hb
      simp only [List.length_cons] at hn
      rcases Int.lt_or_le (sortKey p.1) (sortKey q.1) with hlt | hle
      · rw [mergeDesc_cons_above n a b hlt]
        obtain ⟨hperm, hdesc, hpairs⟩ := ih (a := p :: a) (b := b) (by simp only [List.length_cons]; omega) ha hb'
        have hbelow : ∀ r ∈ p :: a, sortKey r.1 < sortKey q.1 := fun r hr => by
          rcases List.mem_cons.mp hr with rfl | hr
          · exact hlt
          · exact (hp r hr).trans_lt hlt
        refine ⟨(hperm.cons q).trans List.perm_middle.symm, List.pairwise_cons.mpr ⟨fun r hr => ?_, hdesc⟩, fun k => ?_⟩
        · rcases List.mem_append.mp (hperm.subset hr) with hr | hr
          · exact (hbelow r hr).le
          · exact hq r hr
        · rw [keyPairs_cons, hpairs, keyPairs_cons k q]
          by_cases hk : sortKey q.1 = k
          · rw [keyPairs_eq_nil (hk ▸ hbelow)]; rfl
          · simp [hk]
      · rw [mergeDesc_cons_below n a b hle]
        obtain ⟨hperm, hdesc, hpairs⟩ := ih (a := a) (b := q :: b) (by simp only [List.length_cons]; omega) ha' hb
        refine ⟨hperm.cons p, List.pairwise_cons.mpr ⟨fun r hr => ?_, hdesc⟩, fun k => ?_⟩
        · rcases List.mem_append.mp (hperm.subset hr) with hr | hr
          · exact hp r hr
          · rcases List.mem_cons.mp hr with rfl | hr
            · exact hle
            · exact (hq r hr).trans hle
        · rw [keyPairs_cons, hpairs, keyPairs_cons k p, List.append_assoc]

/-! ### The words of group 0x2A -/

theorem State.vtopk_of_descends {u : State} {t c n : Nat} (ha : descends (u.pairs t c (dOf n) (dOf n + 1)) = true)
    (hb : descends (u.pairs t c (saOf n) (saOf n + 1)) = true) : u.vtopk t c n =
      u.setPairs t c (dOf n) ((mergeDesc (2 * lanesOf t) (u.pairs t c (dOf n) (dOf n + 1)) (u.pairs t c (saOf n) (saOf n + 1))).take (lanesOf t)) := by
  simp only [State.vtopk, ha, hb, Bool.and_self, if_true]

theorem illegal_of_group {k : TileKind} {n : Nat} (h : groupOk k (insnGroup n) = false) : illegal k n = true := by
  simp only [illegal, h, Bool.not_false, Bool.or_true, Bool.true_or]

theorem illegal_of_fields {k : TileKind} {n : Nat} (h : illegalFields k n = true) : illegal k n = true := by
  simp only [illegal, h, Bool.or_true]

/-- Settles O27: the insertions of VSORT and the merge of VTOPK each keep the pairs, their order, and for every key the order of its pairs. What
VTOPK leaves of operands that are not sorted is a choice of the model (log entry 9), of which the statement says nothing. -/
theorem vectorSortSorts : Obligations.VectorSortSorts := by
  refine ⟨fun l => ?sort, fun a b ha hb => ?merge, by decide, ?vsort, ?vtopk, fun n hgroup => ⟨?inM, ?inS, fun hfield => ?inV⟩⟩
  case sort =>
    obtain ⟨hperm, hdesc, hpairs⟩ := foldl_insertDesc l List.Pairwise.nil
    exact ⟨hperm, (descends_iff_pairwise _).mpr hdesc, hpairs⟩
  case merge =>
    obtain ⟨hperm, hdesc, hpairs⟩ := mergeDesc_effect _ (Nat.le_refl _) ((descends_iff_pairwise a).mp ha) ((descends_iff_pairwise b).mp hb)
    exact ⟨hperm, (descends_iff_pairwise _).mpr hdesc, hpairs⟩
  case vsort => exact completesWith_of_run (fun _ _ _ _ => rfl) fun _ _ _ _ => rfl
  case vtopk =>
    exact onIssue_of_run (fun _ _ _ _ => rfl) (fun _ _ _ _ => rfl) fun u t c n _ _ => ⟨_, rfl, fun ha hb => State.vtopk_of_descends ha hb⟩
  case inM => exact illegal_of_group (by rw [hgroup]; rfl)
  case inS => exact illegal_of_group (by rw [hgroup]; rfl)
  case inV =>
    refine illegal_of_fields ?_
    simp only [illegalFields, hgroup, Bool.or_eq_true, Bool.and_eq_true, beq_iff_eq, decide_eq_true_eq]
    rcases hfield with hd | hsa | hfn
    · exact .inl (.inr hd)
    · exact .inr hsa
    · exact .inl (.inl (.inr hfn))

end Sys2Proof.Machine
end

section
/-! PROOFS. The instructions that are dispatched to engines (R186, R197, R200-R204, R216), and the messages of scalar cores (R204). -/

namespace Sys2Proof.Machine

/-! ### Dispatch (R186, R216) -/

section
variable {accept beyond : Nat → Bool} {e : Engine} {ss ts : Nat → List Nat} {n : Nat}

theorem engineCoreOp_run_within (h : beyond n = false) (u : State) (t c : Nat) :
    (engineCoreOp accept e ss ts beyond).run u t c n = .next (u.dispatched t c n e (ss n) (ts n)) := if_neg (ne_true_of_eq_false h)

theorem engineCoreOp_run_beyond (h : beyond n = true) (u : State) (t c : Nat) :
    (engineCoreOp accept e ss ts beyond).run u t c n = .exc u 16 (lowerOf n) := if_pos h

end

theorem dispatches_of_engineCoreOp {i : Nat → Nat → Fetched → Instr} {accept : Nat → Bool} {e : Engine} {ss ts : Nat → List Nat}
    (he : ∀ t c f s, exec (i t c f) s = s.issue t c f (engineCoreOp accept e ss ts fun _ => false)) :
    Dispatches i (engineCoreOp accept e ss ts fun _ => false) e ss ts :=
  completesWith_of_run he fun u t c _ => engineCoreOp_run_within rfl u t c

/-- Settles O23: an MM whose descriptor numbers run beyond t15 is refused at dispatch, and every other instruction of an engine joins its queue. -/
theorem dispatchToEngines : Obligations.DispatchToEngines := by
  refine ⟨?mm, ?cbLoad, ?dr, ?accScale, ?smInit, ?smStore, ?smLoad, ?stepClose, ?accDrop, ?actLoad, ?fxLoad, ?fxStore, ?fxWload, ?fxWstore⟩
  case mm =>
    exact onIssue_of_afterRan (fun _ _ _ _ => rfl) fun u t c n _ _ =>
      ⟨fun h => next_afterRan (engineCoreOp_run_within (decide_eq_false h) u t c),
        fun h => next_afterRan (engineCoreOp_run_beyond (decide_eq_true h) u t c)⟩
  all_goals exact dispatches_of_engineCoreOp fun _ _ _ _ => rfl

/-! ### Messages (R204) -/

/-- R157: of the operations of group 0x3C an S-tile executes those that R204 defines. -/
theorem msgOpOf_le_of_legal {n : Nat} (h : illegal .s n = false) (hg : insnGroup n = 0x3C) : msgOpOf n ≤ 4 := by
  have hop := illegalFields_of_legal h
  simp only [illegalFields, hg, Bool.or_eq_false_iff, Bool.and_eq_false_iff, decide_eq_false_iff_not, decide_true, Bool.true_eq_false,
    false_or] at hop
  obtain ⟨-, ⟨⟨hle, -⟩, -⟩, -⟩ := hop
  exact Nat.not_lt.mp hle

theorem State.scalarMsg_of_reserved (u : State) (t c : Nat) {n : Nat} (h : fieldOf n 63 54 ≠ 0) :
    u.scalarMsg t c n = .exc u 16 (lowerOf n) := if_pos (bne_iff_ne.mpr h)

theorem State.scalarMsg_of_parts {u v : State} {t c n : Nat} {ps : List (Nat × Nat)} (h : fieldOf n 63 54 = 0)
    (hparts : u.msgParts t c (pageParts (u.sreg t c (fieldOf n 45 41)).toNat (msgBytes n)) = (.inr ps, v)) :
    let a := { (v.core t c).newAccess 3 0 (msgBytes n) ((ps.map (·.1)).headD 0 / 2) 1 with
               pieces := 1, op := msgOpOf n, value := u.sreg t c (fieldOf n 50 46), lanes := ps,
               data := if msgOpOf n = 4 then leBytes 8 (u.sreg t c (fieldOf n 45 41)).toNat else [] }
    u.scalarMsg t c n = .next ((v.modCore t c fun k => k.addAccess a).payloadNext t c a.id payloadParts) := by
  simp only [State.scalarMsg, hparts, h, bne_self_eq_false, Bool.false_eq_true, if_false, beq_iff_eq]

/-- Settles O24: outside S-tiles a message is dispatched as an instruction of the Fetch engine, and a scalar core sends it as an access. -/
theorem messagesLeave : Obligations.MessagesLeave := by
  unfold Obligations.MessagesLeave
  intro rule
  have hrule : ∀ op u t c n, (msgOp op).accept n = true → illegal (kindOf t) n = false →
      rule op u t c n (.next (u.afterRan t c n ((msgOp op).run u t c n))) := by
    intro op u t c n haccept hlegal
    obtain ⟨hgroup, hop⟩ : insnGroup n = 0x3C ∧ (msgOpOf n = op ∨ 5 ≤ msgOpOf n) := by simpa [msgOp, engineCoreOp] using haccept
    refine ⟨fun hk => next_afterRan (if_neg hk), fun hk hbits => next_afterRan ((if_pos hk).trans (u.scalarMsg_of_reserved t c hbits)), ?_⟩
    intro hk hbits ps v hparts
    obtain rfl : msgOpOf n = op := by
      have := msgOpOf_le_of_legal (hk ▸ hlegal) hgroup
      omega
    exact next_afterRan ((if_pos hk).trans (State.scalarMsg_of_parts hbits hparts))
  exact ⟨onIssue_of_afterRan (fun _ _ _ _ => rfl) (hrule 0), onIssue_of_afterRan (fun _ _ _ _ => rfl) (hrule 1),
    onIssue_of_afterRan (fun _ _ _ _ => rfl) (hrule 2), onIssue_of_afterRan (fun _ _ _ _ => rfl) (hrule 3),
    onIssue_of_afterRan (fun _ _ _ _ => rfl) (hrule 4)⟩

end Sys2Proof.Machine
end

section
/-! PROOFS. Vector memory instructions (R212, R213, R220): the exceptions of an address, and the accesses that an instruction presents. -/

namespace Sys2Proof.Machine

/-! ### VLD, VST, VLD_C and VST_C (R212) -/

theorem vmemMisaligned_iff (op a : Nat) : vmemMisaligned op a = true ↔ if op < 2 then a % 128 ≠ 0 else a % 4 ≠ 0 ∨ 128 ≤ a % 4096 := by
  unfold vmemMisaligned
  split <;> simp

section
variable {u : State} {t c n op : Nat} (hop : fieldOf n 31 29 = op)
include hop

theorem State.vmem_misaligned (h : vmemMisaligned op (vmemAddr (u.core t c) n) = true) :
    u.vmem t c n = .exc u 6 (vmemAddr (u.core t c) n) := by
  simp only [State.vmem, hop, h, if_true]

theorem State.vmem_beyond (h : vmemMisaligned op (vmemAddr (u.core t c) n) = false)
    (ho : ∃ o ∈ vmemOffsets (lanesOf t) op (vmemAddr (u.core t c) n), vitSize t < o + 4) :
    u.vmem t c n = .exc u 7 (vmemAddr (u.core t c) n) := by
  have hany : ((vmemOffsets (lanesOf t) op (vmemAddr (u.core t c) n)).any fun o => vitSize t < o + 4) = true := by simpa using ho
  simp only [State.vmem, hop, h, hany, Bool.false_eq_true, if_false, if_true]

theorem State.vmem_within (h : vmemMisaligned op (vmemAddr (u.core t c) n) = false)
    (ho : ∀ o ∈ vmemOffsets (lanesOf t) op (vmemAddr (u.core t c) n), o + 4 ≤ vitSize t) :
    let k := u.core t c
    let a := vmemAddr k n
    let os := vmemOffsets (lanesOf t) op a
    let rs := vmemReqs (lanesOf t) op k.nextAccess os (k.vreg (lanesOf t) (dOf n))
    let acc := { k.newAccess 4 (if op % 2 = 0 then vNum (dOf n) else 0) 4 a 0 with
                 pieces := rs.length, lanes := (List.range (lanesOf t)).zip (os.map (· / 4)) }
    u.vmem t c n = .next (rs.foldl (fun s r => s.present t r) (u.modCore t c fun k => k.addAccess acc)) := by
  have hany : ((vmemOffsets (lanesOf t) op (vmemAddr (u.core t c) n)).any fun o => vitSize t < o + 4) = false := by simpa using ho
  simp only [State.vmem, hop, h, hany, Bool.false_eq_true, if_false, beq_iff_eq]

end

/-! ### VGATHER, VSCATTER and VSCATTER_ADD (R213) -/

section
variable {u : State} {t c n fn : Nat}

theorem State.scatter_misaligned (h : ((u.core t c).getS (sbOf n)).toNat % 4 ≠ 0) :
    u.scatter t c n = .exc u 6 ((u.core t c).getS (sbOf n)).toNat := if_pos (bne_iff_ne.mpr h)

variable (h : ((u.core t c).getS (sbOf n)).toNat % 4 = 0) (hfn : fnOf n = fn)
include h hfn

theorem State.scatter_nowhere
    (hlanes : scatterLanes t ((u.core t c).getS (sbOf n)).toNat ((u.core t c).vreg (lanesOf t) (saOf n)) = []) : u.scatter t c n =
      .next (if fn = 0 then u.setVreg t c (dOf n) (List.replicate (lanesOf t) 0) else u) := by
  simp only [State.scatter, h, hfn, hlanes, bne_self_eq_false, Bool.false_eq_true, if_false, List.isEmpty_nil, if_true, beq_iff_eq]

theorem State.scatter_presents
    (hlanes : scatterLanes t ((u.core t c).getS (sbOf n)).toNat ((u.core t c).vreg (lanesOf t) (saOf n)) ≠ []) :
    let k := u.core t c
    let base := (k.getS (sbOf n)).toNat
    let lanes := scatterLanes t base (k.vreg (lanesOf t) (saOf n))
    let rs := scatterReqs fn k.nextAccess (scatterSplit (fn == 0) 65 lanes) (k.vreg (lanesOf t) (dOf n))
    let acc := { k.newAccess 4 (if fn = 0 then vNum (dOf n) else 0) 4 base 0 with
                 pieces := rs.length, lanes := lanes, data := (k.vreg (lanesOf t) (dOf n)).flatMap bytesOfWord }
    u.scatter t c n = .next (rs.foldl (fun s r => s.present t r) (u.modCore t c fun k => k.addAccess acc)) := by
  have hsome := List.isEmpty_eq_false_iff.mpr hlanes
  simp only [State.scatter, h, hfn, hsome, bne_self_eq_false, Bool.false_eq_true, if_false, beq_iff_eq]

end

/-- Settles O28: an address out of line or beyond the vitrine raises its exception, and otherwise the accesses are presented. -/
theorem vectorMemory : Obligations.VectorMemory := by
  unfold Obligations.VectorMemory
  intro mem scat
  have hmem : ∀ op u t c n, (vmemOp op).accept n = true → illegal (kindOf t) n = false →
      mem op u t c n (.next (u.afterRan t c n ((vmemOp op).run u t c n))) := by
    intro op u t c n haccept _
    obtain ⟨-, hop⟩ : insnGroup n = 0x28 ∧ fieldOf n 31 29 = op := by simpa [vmemOp] using haccept
    have haligned {a : Nat} (h : ¬(if op < 2 then a % 128 ≠ 0 else a % 4 ≠ 0 ∨ 128 ≤ a % 4096)) : vmemMisaligned op a = false :=
      eq_false_of_ne_true (mt (vmemMisaligned_iff op a).mp h)
    exact ⟨fun hbad => next_afterRan (State.vmem_misaligned hop ((vmemMisaligned_iff op _).mpr hbad)),
      fun hbad ho => next_afterRan (State.vmem_beyond hop (haligned hbad) ho),
      fun hbad ho => (next_afterRan (State.vmem_within hop (haligned hbad) ho) :)⟩
  have hscat : ∀ fn u t c n, (scatterOp fn).accept n = true → illegal (kindOf t) n = false →
      scat fn u t c n (.next (u.afterRan t c n ((scatterOp fn).run u t c n))) := by
    intro fn u t c n haccept _
    obtain ⟨-, hfn⟩ : insnGroup n = 0x29 ∧ fnOf n = fn := by simpa [scatterOp] using haccept
    exact ⟨fun hbase => next_afterRan (State.scatter_misaligned hbase), fun hbase hnone => next_afterRan (State.scatter_nowhere hbase hfn hnone),
      fun hbase hsome => (next_afterRan (State.scatter_presents hbase hfn hsome) :)⟩
  exact ⟨onIssue_of_afterRan (fun _ _ _ _ => rfl) (hmem 0), onIssue_of_afterRan (fun _ _ _ _ => rfl) (hmem 1),
    onIssue_of_afterRan (fun _ _ _ _ => rfl) (hmem 2), onIssue_of_afterRan (fun _ _ _ _ => rfl) (hmem 3),
    onIssue_of_afterRan (fun _ _ _ _ => rfl) (hscat 0), onIssue_of_afterRan (fun _ _ _ _ => rfl) (hscat 1),
    onIssue_of_afterRan (fun _ _ _ _ => rfl) (hscat 2)⟩

end Sys2Proof.Machine
end

section
/-! PROOFS. What the events of cores leave of a site (R152, R207): neither its queues of engine instructions and messages nor its counters. -/

namespace Sys2Proof.Machine

/-- What a site holds besides its registers, the windows of its statistics slots, and its cores. -/
def State.beyondCores (s : State) (t : Nat) : Site := { s.beyondRegs t with cores := [] }

section
variable {s u : State} {t : Nat}

theorem State.beyondCores_of_site (h : u.site t = s.site t) : u.beyondCores t = s.beyondCores t := by
  simp only [State.beyondCores, State.beyondRegs, h]

section
variable (h : u.beyondCores t = s.beyondCores t)
include h

theorem ring_of_beyondCores (q : Nat) : (u.site t).ring q = (s.site t).ring q := (congrArg (fun x => Site.ring x q) h :)
theorem queue_of_beyondCores (e : Engine) : (u.site t).queue e = (s.site t).queue e := by
  cases e
  · exact (congrArg Site.fetchQ h :)
  · exact (congrArg Site.computeQ h :)
  · exact (congrArg Site.drainQ h :)
theorem issued_of_beyondCores (e : Engine) : (u.site t).issued e = (s.site t).issued e := by
  cases e
  · exact (congrArg Site.fetchOn h :)
  · exact (congrArg Site.computeOn h :)
  · exact (congrArg Site.drainOn h :)
theorem notify_of_beyondCores : (u.site t).notify = (s.site t).notify := (congrArg Site.notify h :)

end

@[simp] theorem State.beyondCores_setTreg (s : State) (t a x : Nat) (v : BitVec 32) : (s.setTreg t a v).beyondCores x = s.beyondCores x := by
  by_cases h : x = t
  · subst h
    rw [State.beyondCores, State.beyondRegs_setTreg, State.beyondCores]
  · exact State.beyondCores_of_site (s.site_modSite_other _ h)

@[simp] theorem State.beyondCores_setTfld (s : State) (t a hi lo n x : Nat) : (s.setTfld t a hi lo n).beyondCores x = s.beyondCores x :=
  s.beyondCores_setTreg t a x _

@[simp] theorem State.beyondCores_setTbit (s : State) (t a i : Nat) (b : Bool) (x : Nat) : (s.setTbit t a i b).beyondCores x = s.beyondCores x :=
  s.beyondCores_setTreg t a x _

@[simp] theorem State.beyondCores_modCore (s : State) (t c : Nat) (f : Core → Core) (x : Nat) :
    (s.modCore t c f).beyondCores x = s.beyondCores x := by
  by_cases h : x = t
  · subst h
    simp only [State.beyondCores, State.beyondRegs, State.site_modCore_same]
  · exact State.beyondCores_of_site (s.site_modCore_other _ _ h)

@[simp] theorem State.beyondCores_setCoreState (s : State) (t c v x : Nat) : (s.setCoreState t c v).beyondCores x = s.beyondCores x :=
  (State.beyondCores_of_site (s.site_setCoreState t c v x)).trans (s.beyondCores_setTfld t _ _ _ _ x)

@[simp] theorem State.beyondCores_setEvent (s : State) (t c x : Nat) : (s.setEvent t c).beyondCores x = s.beyondCores x := by
  unfold State.setEvent
  split
  · rfl
  · extract_lets v
    have hv : v.beyondCores x = s.beyondCores x := by
      simp only [v]
      split
      · exact s.beyondCores_setTbit t _ _ _ x
      · rfl
    split <;> simp [hv]

theorem State.treg_setEvent_ne (s : State) (t c : Nat) {x a : Nat} (hstate : a ≠ R.TILE_STATE) (hext : a ≠ R.S_EXT_PEND c) :
    (s.setEvent t c).treg x a = s.treg x a := by
  unfold State.setEvent
  split
  · rfl
  · extract_lets v
    have hv : v.treg x a = s.treg x a := by
      simp only [v]
      split
      · exact s.treg_setTfld_ne _ _ _ (.inr hext)
      · rfl
    split
    · rw [State.treg_modCore, State.treg_setCoreState_ne _ _ _ _ (.inr hstate), State.setTbit, State.treg_setTfld_ne _ _ _ _ (.inr hstate), hv]
    · rw [State.setTbit, State.treg_setTfld_ne _ _ _ _ (.inr hstate), hv]

end

end Sys2Proof.Machine
end

section
/-! PROOFS. Receive queues (R206, R274-R280, R293): the instructions that read them, and the commands that open, close and fill them. -/

namespace Sys2Proof.Machine

/-! ### Rings -/

theorem State.ring_setRing_same (s : State) (t q : Nat) (l : List QEnt) : ((s.setRing t q l).site t).ring q = l := by
  rw [State.setRing, ring_of_beyondCores (State.beyondCores_setTfld _ _ _ _ _ _ _), State.site_modSite_same]
  exact Map.get_set_same _ _ _ _

theorem State.ring_setRing_other (s : State) (t : Nat) {q r : Nat} (l : List QEnt) (h : r ≠ q) :
    ((s.setRing t q l).site t).ring r = (s.site t).ring r := by
  rw [State.setRing, ring_of_beyondCores (State.beyondCores_setTfld _ _ _ _ _ _ _), State.site_modSite_same]
  exact Map.get_set_other _ _ _ h

theorem State.site_setRing_other (s : State) {t x : Nat} (q : Nat) (l : List QEnt) (h : x ≠ t) : (s.setRing t q l).site x = s.site x :=
  (State.site_modSite_other _ _ h).trans (s.site_modSite_other _ h)

theorem State.treg_setRing_ne (s : State) (t q : Nat) (l : List QEnt) {a : Nat} (h : a ≠ R.NET_Q_STATE q) :
    (s.setRing t q l).treg t a = s.treg t a := by
  rw [State.setRing, State.treg_setTfld_ne _ _ _ _ (.inr h), State.treg, State.site_modSite_same, State.treg]

/-! ### The heads of queues (R206) -/

theorem State.qhead_of_unpublished {s : State} {t q : Nat} (h : ∀ e ∈ ((s.site t).ring q).head?, e.state ≠ 2) :
    s.qhead t q = BitVec.allOnes 64 := by
  unfold State.qhead
  split
  · rename_i e _ hring
    have hstate : e.state ≠ 2 := h e (by rw [hring]; rfl)
    simp only [beq_false_of_ne hstate, Bool.false_eq_true, if_false]
  · rfl

theorem State.qhead_of_published {s : State} {t q : Nat} {e : QEnt} {rest : List QEnt} (hring : (s.site t).ring q = e :: rest) (h : e.state = 2) :
    let o := qBase (s.queueRec t q) + e.slot * qLines (s.queueRec t q) * 128
    s.qhead t q = BitVec.ofNat 64 (if kindOf t = .s then windowAddr t o else o) := by
  simp only [State.qhead, hring, h, beq_self_eq_true, if_true]

theorem State.qpop_of_unpublished {s : State} {t q : Nat} (h : ∀ e ∈ ((s.site t).ring q).head?, e.state ≠ 2) : s.qpop t q = s := by
  unfold State.qpop
  split
  · rename_i e _ hring
    exact if_neg (by simpa using h e (by rw [hring]; rfl))
  · rfl

theorem State.qpop_of_published {s : State} {t q : Nat} {e : QEnt} {rest : List QEnt} (hring : (s.site t).ring q = e :: rest) (h : e.state = 2) :
    s.qpop t q = s.setRing t q rest := by
  simp only [State.qpop, hring, h, beq_self_eq_true, if_true]

theorem qnotifyOp_run_of_undefined {u : State} {t c n : Nat} (h : u.qState t (fieldOf n 27 22) = 0) : qnotifyOp.run u t c n = .next u :=
  congrArg Ran.next (if_pos (beq_iff_eq.mpr h))

theorem qnotifyOp_run_of_defined {u : State} {t c n : Nat} (h : u.qState t (fieldOf n 27 22) ≠ 0) : qnotifyOp.run u t c n =
    .next (u.modSite t fun y =>
      { y with qnotify := Map.set (fun _ => 0) y.qnotify (fieldOf n 27 22) (if n.testBit 21 then fieldOf n 20 19 + 1 else 0) }) :=
  congrArg Ran.next (if_neg (mt beq_iff_eq.mp h))

/-! ### Open and close (R279, R280) -/

theorem State.treg_countStatus (s : State) (t status : Nat) {x a : Nat} (h : 0x1000 ≤ a) : (s.countStatus t status).treg x a = s.treg x a := by
  unfold State.countStatus
  split
  · exact s.treg_setTreg_other _ (.inr (by simp only [R.NET_DROP_STALE]; omega))
  · exact s.treg_setTreg_other _ (.inr (by simp only [R.NET_DROP_CLOSED]; omega))
  · rfl

/-- An answer leaves as a packet, or is counted as lost. -/
theorem State.answer_cases (s : State) (p : Packet) (t status : Nat) (data : List (BitVec 8)) :
    (∃ f : Net → Net, s.answer p t status data = s.modNet f ∧ ∀ n, (f n).serves = n.serves) ∨ s.answer p t status data = s.answerLost t := by
  have hlaunch : ∀ h body agent target port back, ∃ f : Net → Net,
      s.launch h body agent target t port back = s.modNet f ∧ ∀ n, (f n).serves = n.serves := by
    intro h body agent target port back
    unfold State.launch
    split
    · exact ⟨_, rfl, fun _ => rfl⟩
    · exact ⟨id, rfl, fun _ => rfl⟩
  unfold State.answer
  extract_lets read body h
  split
  · exact .inl (hlaunch _ _ _ _ _ _)
  · split
    · exact .inl (hlaunch _ _ _ _ _ _)
    · exact .inr rfl

theorem State.treg_answer (s : State) (p : Packet) (t status : Nat) (data : List (BitVec 8)) {x a : Nat} (h : 0x1000 ≤ a) :
    (s.answer p t status data).treg x a = s.treg x a := by
  rcases s.answer_cases p t status data with ⟨f, hf, -⟩ | hlost
  · rw [hf]; rfl
  · rw [hlost, State.answerLost, State.setTbit, State.treg_setTfld_ne _ _ _ _ (.inr (by simp only [R.NET_STATUS]; omega)), State.tbump,
      State.treg_setTreg_other _ _ (.inr (by simp only [R.NET_COMPL_LOST]; omega))]

theorem State.beyondCores_answer (s : State) (p : Packet) (t status : Nat) (data : List (BitVec 8)) (x : Nat) :
    (s.answer p t status data).beyondCores x = s.beyondCores x := by
  rcases s.answer_cases p t status data with ⟨f, hf, -⟩ | hlost
  · rw [hf]; rfl
  · rw [hlost, State.answerLost, State.beyondCores_setTbit, State.tbump, State.beyondCores_setTreg]

theorem State.serves_answer (s : State) (p : Packet) (t status : Nat) (data : List (BitVec 8)) :
    (s.answer p t status data).net.serves = s.net.serves := by
  rcases s.answer_cases p t status data with ⟨f, hf, hserves⟩ | hlost
  · rw [hf]; exact hserves s.net
  · rw [hlost]; rfl

theorem State.ring_emptyRing (s : State) (t q : Nat) : ((s.emptyRing t q).site t).ring q = [] := by
  unfold State.emptyRing
  extract_lets mine dropped answered
  rw [State.site_modSite_same]
  exact answered.ring_setRing_same t q []

theorem State.treg_emptyRing (s : State) (t q : Nat) {a : Nat} (h : 0x1000 ≤ a) (hne : a ≠ R.NET_Q_STATE q) :
    (s.emptyRing t q).treg t a = s.treg t a := by
  unfold State.emptyRing
  extract_lets mine dropped answered
  have hanswered : answered.treg t a = s.treg t a := foldl_leaves (fun u : State => u.treg t a)
    (fun u v => (State.treg_answer _ v.pkt t 2 [] h).trans (u.treg_countStatus t 2 h)) mine dropped
  rw [State.treg, State.site_modSite_same, ← hanswered]
  exact answered.treg_setRing_ne t q [] hne

theorem queueDrop_ne (q r : Nat) : R.NET_Q_STATE r ≠ R.NET_Q_DROP q := by
  simp only [R.NET_Q_STATE, R.NET_Q_DROP]; omega

theorem State.tfld_congr {s u : State} {t a : Nat} (h : u.treg t a = s.treg t a) (hi lo : Nat) : u.tfld t a hi lo = s.tfld t a hi lo := by
  rw [State.tfld, h, State.tfld]

section
variable (s : State) (t q : Nat)

theorem State.qState_queueOpen : (s.queueOpen t q).qState t q = 1 := by
  rw [State.queueOpen, State.qState, State.tfld_congr (State.treg_setTreg_ne _ _ _ (queueDrop_ne q q)),
    State.tfld_setTfld_other _ _ _ _ _ _ _ _ (by decide) (by decide) (by decide), State.tfld_setTfld_same _ _ _ _ _ _ (by decide) (by decide)]
  rfl

theorem State.qAcc_queueOpen : (s.queueOpen t q).qAcc t q = (s.qAcc t q + 1) % 1024 := by
  rw [State.queueOpen, State.qAcc, State.tfld_congr (State.treg_setTreg_ne _ _ _ (queueDrop_ne q q)),
    State.tfld_setTfld_same _ _ _ _ _ _ (by decide) (by decide)]
  exact Nat.mod_mod _ _

theorem State.ring_queueOpen : ((s.queueOpen t q).site t).ring q = [] := by
  rw [State.queueOpen, ring_of_beyondCores (State.beyondCores_setTreg _ _ _ _ _), ring_of_beyondCores (State.beyondCores_setTfld _ _ _ _ _ _ _),
    ring_of_beyondCores (State.beyondCores_setTfld _ _ _ _ _ _ _), State.ring_emptyRing]

theorem State.dropCounts_queueOpen : (s.queueOpen t q).treg t (R.NET_Q_DROP q) = 0 := State.treg_setTreg_same _ t _ _

theorem State.qState_queueOpen_other {r : Nat} (h : r ≠ q) : (s.queueOpen t q).qState t r = s.qState t r := by
  have hne : R.NET_Q_STATE r ≠ R.NET_Q_STATE q := queueState_injective h
  refine State.qState_congr ?_
  rw [State.queueOpen, State.treg_setTreg_ne _ _ _ (queueDrop_ne q r), State.treg_setTfld_ne _ _ _ _ (.inr hne),
    State.treg_setTfld_ne _ _ _ _ (.inr hne), State.treg_emptyRing _ _ _ (by simp only [R.NET_Q_STATE]; omega) hne]

theorem State.qState_queueClose : (s.queueClose t q).qState t q = 2 := s.tfld_setTfld_same t _ _ _ _ (by decide) (by decide)

theorem State.qAcc_queueClose : (s.queueClose t q).qAcc t q = s.qAcc t q :=
  s.tfld_setTfld_other t _ _ _ _ _ _ (by decide) (by decide) (by decide)

theorem State.qState_queueClose_other {r : Nat} (h : r ≠ q) : (s.queueClose t q).qState t r = s.qState t r :=
  s.tfld_setTfld_ne _ _ _ _ _ (.inr (queueState_injective h))

theorem State.qState_badCommand (r : Nat) : (s.setTbit t R.NET_STATUS 3 true).qState t r = s.qState t r :=
  s.tfld_setTfld_ne _ _ _ _ _ (.inr (queueState_ne r (by decide)).symm)

variable {s t q}

theorem State.queueCmd_open (h : s.qState t q = 2) : s.queueCmd t 0 q = s.queueOpen t q := if_pos (by simp [h])

theorem State.queueCmd_open_ignored (h : s.qState t q ≠ 2) : s.queueCmd t 0 q = s.setTbit t R.NET_STATUS 3 true := by
  simp [State.queueCmd, h]

theorem State.queueCmd_close (h : s.qState t q = 1) : s.queueCmd t 1 q = s.queueClose t q := by
  simp [State.queueCmd, h]

theorem State.queueCmd_close_ignored (h : s.qState t q ≠ 1) : s.queueCmd t 1 q = s.setTbit t R.NET_STATUS 3 true := by
  simp [State.queueCmd, h]

/-- R280: a command leaves every other queue. -/
theorem State.qState_queueCmd_other (cmd : Nat) {r : Nat} (h : r ≠ q) : (s.queueCmd t cmd q).qState t r = s.qState t r := by
  unfold State.queueCmd
  dsimp only
  split
  · exact s.qState_queueOpen_other t q h
  · split
    · exact s.qState_queueClose_other t q h
    · exact s.qState_badCommand t r

end

/-! ### Messages that wait (R293) -/

theorem queuedMessagePlaced_does {s : State} {t : Nat} {p : Packet} (hp : s.net.waiting t = some p) (hruns : s.wingRuns (wingOf t) = true)
    (hroom : ((s.receive p t).net.packets.any fun q => q.id == p.id && q.stage == 2) = false) :
    Does (.queuedMessagePlaced t) s (s.receive p t) := by
  rw [Does, exec_queuedMessagePlaced, execQueuedMessagePlaced, hp]
  dsimp only
  rw [when_true hruns, State.retry, if_neg (by simpa using hroom)]
  rfl

/-! ### Publication (R278) -/

/-- The entry that access `serve` wrote is published. -/
def markPublished (serve : Nat) (l : List QEnt) : List QEnt := l.map fun f => if f.serve = serve then { f with state := 2 } else f

/-- R206, R278: the entry is published at one site, where its arrival may set an event flag. -/
def State.publishAt (s : State) (q serve t : Nat) : State := (s.setRing t q (markPublished serve ((s.site t).ring q))).arrival t q

theorem State.beyondCores_arrival (s : State) (t q x : Nat) : (s.arrival t q).beyondCores x = s.beyondCores x := by
  unfold State.arrival
  split
  · rfl
  · exact s.beyondCores_setEvent t _ x

theorem State.net_setCoreState (s : State) (t c v : Nat) : (s.setCoreState t c v).net = s.net := by
  obtain ⟨_, _, h⟩ := s.setCoreState_eq t c v
  rw [h]
  rfl

theorem State.net_setEvent (s : State) (t c : Nat) : (s.setEvent t c).net = s.net := by
  unfold State.setEvent
  split
  · rfl
  · extract_lets v
    have hv : v.net = s.net := by
      simp only [v]
      split <;> rfl
    split
    · exact (State.net_setCoreState _ t c 1).trans hv
    · exact hv

theorem State.net_arrival (s : State) (t q : Nat) : (s.arrival t q).net = s.net := by
  unfold State.arrival
  split
  · rfl
  · exact s.net_setEvent t _

section
variable (s : State) (q serve t : Nat)

theorem State.net_publishAt : (s.publishAt q serve t).net = s.net := State.net_arrival _ t q

theorem State.ring_publishAt_same : ((s.publishAt q serve t).site t).ring q = markPublished serve ((s.site t).ring q) := by
  rw [State.publishAt, ring_of_beyondCores (State.beyondCores_arrival _ t q t), State.ring_setRing_same]

theorem State.ring_publishAt_other {x r : Nat} (h : x ≠ t ∨ r ≠ q) : ((s.publishAt q serve t).site x).ring r = (s.site x).ring r := by
  rw [State.publishAt, ring_of_beyondCores (State.beyondCores_arrival _ t q x)]
  by_cases hx : x = t
  · subst hx
    exact s.ring_setRing_other x _ (h.resolve_left fun hne => hne rfl)
  · rw [s.site_setRing_other q _ hx]

/-- R278, R440: the entry is published at the site and at its twin. -/
def State.publishBoth : State := (t :: (s.twin t).toList).foldl (fun s x => s.publishAt q serve x) s

theorem State.net_publishBoth : (s.publishBoth q serve t).net = s.net := foldl_leaves State.net (fun u x => u.net_publishAt q serve x) _ s

theorem State.publishBoth_alone (h : s.twin t = none) : s.publishBoth q serve t = s.publishAt q serve t := by
  rw [State.publishBoth, h]; rfl

theorem State.publishBoth_twin {x : Nat} (h : s.twin t = some x) : s.publishBoth q serve t = (s.publishAt q serve t).publishAt q serve x := by
  rw [State.publishBoth, h]; rfl

theorem State.ring_publishBoth_same {x : Nat} (hx : x = t ∨ s.twin t = some x) (hself : s.twin t ≠ some t) :
    ((s.publishBoth q serve t).site x).ring q = markPublished serve ((s.site x).ring q) := by
  rcases htwin : s.twin t with _ | y
  · obtain rfl : x = t := hx.resolve_right (by simp [htwin])
    rw [s.publishBoth_alone _ _ _ htwin, State.ring_publishAt_same]
  · have hne : y ≠ t := fun h => hself (h ▸ htwin)
    rw [s.publishBoth_twin _ _ _ htwin]
    rcases hx with rfl | hx
    · rw [State.ring_publishAt_other _ _ _ _ (.inl hne.symm), State.ring_publishAt_same]
    · obtain rfl : y = x := Option.some.inj (htwin.symm.trans hx)
      rw [State.ring_publishAt_same, State.ring_publishAt_other _ _ _ _ (.inl hne)]

theorem State.ring_publishBoth_other {r : Nat} (h : r ≠ q) (x : Nat) : ((s.publishBoth q serve t).site x).ring r = (s.site x).ring r :=
  foldl_leaves (fun u : State => (u.site x).ring r) (fun u y => u.ring_publishAt_other q serve y (.inr h)) _ s

end

/-- R278: the entry's message is answered, and no longer served. -/
def State.servedOk (s : State) (serve t : Nat) : State :=
  match s.net.serves.find? fun v => v.id == serve with
  | some v => (s.modNet fun n => { n with serves := n.serves.filter fun w => w.id != v.id }).answer v.pkt t 0 []
  | none => s

theorem State.beyondCores_servedOk (s : State) (serve t x : Nat) : (s.servedOk serve t).beyondCores x = s.beyondCores x := by
  unfold State.servedOk
  split
  · exact State.beyondCores_answer _ _ t 0 [] x
  · rfl

theorem State.not_served_servedOk {s : State} {serve : Nat} {v : Serve} (h : s.net.serves.find? (fun v => v.id == serve) = some v) (t : Nat) :
    ∀ w ∈ (s.servedOk serve t).net.serves, w.id ≠ v.id := by
  intro w hw
  rw [State.servedOk, h] at hw
  dsimp only at hw
  rw [State.serves_answer] at hw
  simpa using (List.mem_filter.mp hw).2

theorem queueEntryPublish_does {s : State} {t q : Nat} {e : QEnt} (he : (s.site t).toPublish q = some e) (hruns : s.wingRuns (wingOf t) = true) :
    Does (.queueEntryPublish t q) s ((s.publishBoth q e.serve t).servedOk e.serve t) := by
  have hstep : ∀ (u : State) (x : Nat),
      (u.setRing x q (((u.site x).ring q).map fun f => if f.serve == e.serve then { f with state := 2 } else f)).arrival x q =
        u.publishAt q e.serve x := fun u x => by
    simp only [State.publishAt, markPublished, beq_iff_eq]
  rw [Does, exec_queueEntryPublish, execQueueEntryPublish, he]
  simp only [hstep, when_true hruns, State.servedOk, State.net_publishBoth]
  rfl

/-- Settles O22: the instructions read the rings, a command changes its queue alone, and a publication marks the entry and drops what was served.
That a message that waits is checked again when it is placed is a choice of the model (log entry 64), as R274 and R293 do not say it. -/
theorem queuesAndTheirReaders : Obligations.QueuesAndTheirReaders := by
  refine ⟨⟨?qcnt, ?qhead, ?qpop, ?qnotify⟩, fun s a t q h => ⟨tileWrite_reached h _ _, tileWrite_reached h _ _⟩, fun s t q _ => ?commands,
    fun s t p hp hruns hroom => ?placed, fun s t q e he hruns => ?publish⟩
  case qcnt => exact completesWith_of_run (fun _ _ _ _ => rfl) fun _ _ _ _ => rfl
  case qhead =>
    exact onIssue_of_afterRan (fun _ _ _ _ => rfl) fun u t c n _ _ =>
      ⟨_, rfl, State.qhead_of_unpublished, fun e rest => State.qhead_of_published⟩
  case qpop =>
    refine onIssue_of_afterRan (fun _ _ _ _ => rfl) fun u t c n _ _ => ⟨fun h => ?_, fun e rest hring h => ?_⟩
    · exact (next_afterRan (congrArg Ran.next (State.qpop_of_unpublished h)) :)
    · exact (next_afterRan (congrArg Ran.next (State.qpop_of_published hring h)) :)
  case qnotify =>
    refine onIssue_of_afterRan (fun _ _ _ _ => rfl) fun u t c n _ _ => ⟨fun h => ?_, fun h => ?_⟩
    · exact (next_afterRan (qnotifyOp_run_of_undefined h) :)
    · exact (next_afterRan (qnotifyOp_run_of_defined h) :)
  case commands =>
    refine ⟨fun h => ?_, fun h => ?_, State.queueCmd_open_ignored, State.queueCmd_close_ignored,
      fun r _ hne => ⟨State.qState_queueCmd_other 0 hne, State.qState_queueCmd_other 1 hne⟩⟩
    · rw [State.queueCmd_open h]
      exact ⟨s.qState_queueOpen t q, s.qAcc_queueOpen t q, s.ring_queueOpen t q, s.dropCounts_queueOpen t q⟩
    · rw [State.queueCmd_close h]
      exact ⟨s.qState_queueClose t q, s.qAcc_queueClose t q⟩
  case placed =>
    exact ⟨_, queuedMessagePlaced_does hp hruns hroom, rfl, fun q hq hid hstage => by
      have := List.any_eq_false.mp hroom q hq
      simp [hid, hstage] at this⟩
  case publish =>
    have hring := fun x r => ring_of_beyondCores ((s.publishBoth q e.serve t).beyondCores_servedOk e.serve t x) r
    refine ⟨_, queueEntryPublish_does he hruns, fun x hx hself => ?_, fun r hr => ?_, fun v hv => ?_⟩
    · exact (hring x q).trans (s.ring_publishBoth_same q e.serve t hx hself)
    · exact (hring t r).trans (s.ring_publishBoth_other q e.serve t hr t)
    · exact State.not_served_servedOk ((congrArg _ (congrArg Net.serves (s.net_publishBoth q e.serve t))).trans hv) t

end Sys2Proof.Machine
end

section
/-! PROOFS. Engines (R187-R191, R216, R217): token counters, what an engine takes and refuses, completion, and stalls. -/

namespace Sys2Proof.Machine

/-! ### Token counters (R189, R217) -/

theorem token_registers {k : Nat} (h : k < 16) : 0x108 ≤ R.ENG_TOKEN (k / 4) ∧ R.ENG_TOKEN (k / 4) ≤ 0x114 := by
  simp only [R.ENG_TOKEN]; omega

theorem State.token_congr {s u : State} {t k : Nat} (h : u.treg t (R.ENG_TOKEN (k / 4)) = s.treg t (R.ENG_TOKEN (k / 4))) :
    u.token t k = s.token t k := State.tfld_congr h _ _

theorem State.token_of_regs {s u : State} {t : Nat} (h : (u.site t).regs = (s.site t).regs) (k : Nat) : u.token t k = s.token t k :=
  State.token_congr (by rw [State.treg, h, State.treg])

theorem State.token_modSite (s : State) (t k : Nat) {f : Site → Site} (h : (f (s.site t)).regs = (s.site t).regs) :
    (s.modSite t f).token t k = s.token t k := State.token_of_regs (by rw [State.site_modSite_same, h]) k

theorem State.token_lt (s : State) (t k : Nat) : s.token t k < 256 := by
  have hwidth : 8 * (k % 4) + 7 - 8 * (k % 4) + 1 = 8 := by omega
  have h := getBits_lt (s.treg t (R.ENG_TOKEN (k / 4))) (8 * (k % 4) + 7) (8 * (k % 4))
  rw [hwidth] at h
  exact h

theorem State.token_setToken_same (s : State) (t k : Nat) {v : Nat} (h : v < 256) : (s.setToken t k v).token t k = v := by
  have hwidth : 8 * (k % 4) + 7 - 8 * (k % 4) + 1 = 8 := by omega
  rw [State.token, State.setToken, State.tfld_setTfld_same _ _ _ _ _ _ (by omega) (by omega), hwidth]
  exact Nat.mod_eq_of_lt h

theorem State.token_setTbit_ne (s : State) (t i : Nat) (b : Bool) {k a : Nat} (hk : k < 16) (ha : a < 0x108 ∨ 0x114 < a) :
    (s.setTbit t a i b).token t k = s.token t k :=
  State.token_congr (s.treg_setTfld_ne _ _ _ (.inr (by have := token_registers hk; omega)))

theorem State.token_takeToken (s : State) (t k n : Nat) : (s.takeToken t k n).token t k = s.token t k - n :=
  State.token_setToken_same _ t k ((Nat.sub_le _ n).trans_lt (s.token_lt t k))

/-- R189: an increment is added before the takes of its tile cycle, and saturates at 255. -/
theorem State.token_addToken (s : State) (t n : Nat) {k : Nat} (hk : k < 16) :
    (s.addToken t k n).token t k = min (255 - s.tokOut t k) (s.token t k + n) := by
  unfold State.addToken
  extract_lets out v noted
  split
  · rw [State.token_setTbit_ne _ _ _ _ hk (.inl (by decide)), State.token_setToken_same _ _ _ (by omega)]
    omega
  · rw [State.token_setToken_same _ _ _ (by omega)]
    omega

/-! ### What an operation leaves of the engines -/

/-- The queues of a site's engines, what they have in work, the number of their next instruction, and the armed notification. -/
def Site.engines (x : Site) : (List EngInstr × List EngInstr × List EngInstr) × (List EngIssued × List EngIssued × List EngIssued) × Nat × Option Nat :=
  ((x.fetchQ, x.computeQ, x.drainQ), (x.fetchOn, x.computeOn, x.drainOn), x.nextEng, x.notify)

section
variable {x y : Site} (h : y.engines = x.engines)
include h

theorem queue_of_engines (e : Engine) : y.queue e = x.queue e := by
  cases e
  · exact congrArg (·.1.1) h
  · exact congrArg (·.1.2.1) h
  · exact congrArg (·.1.2.2) h
theorem issued_of_engines (e : Engine) : y.issued e = x.issued e := by
  cases e
  · exact congrArg (·.2.1.1) h
  · exact congrArg (·.2.1.2.1) h
  · exact congrArg (·.2.1.2.2) h
theorem nextEng_of_engines : y.nextEng = x.nextEng := congrArg (·.2.2.1) h
theorem notify_of_engines : y.notify = x.notify := congrArg (·.2.2.2) h

end

theorem engines_of_beyondCores {s u : State} {t : Nat} (h : u.beyondCores t = s.beyondCores t) : (u.site t).engines = (s.site t).engines :=
  (congrArg Site.engines h :)

@[simp] theorem Site.queue_setQueue_same (x : Site) (e : Engine) (q : List EngInstr) : (x.setQueue e q).queue e = q := by cases e <;> rfl
@[simp] theorem Site.issued_setIssued_same (x : Site) (e : Engine) (q : List EngIssued) : (x.setIssued e q).issued e = q := by cases e <;> rfl
@[simp] theorem Site.queue_setIssued (x : Site) (e f : Engine) (q : List EngIssued) : (x.setIssued e q).queue f = x.queue f := by
  cases e <;> rfl
@[simp] theorem Site.nextEng_setIssued (x : Site) (e : Engine) (q : List EngIssued) : (x.setIssued e q).nextEng = x.nextEng := by cases e <;> rfl
@[simp] theorem Site.nextEng_setQueue (x : Site) (e : Engine) (q : List EngInstr) : (x.setQueue e q).nextEng = x.nextEng := by cases e <;> rfl
@[simp] theorem Site.notify_setIssued (x : Site) (e : Engine) (q : List EngIssued) : (x.setIssued e q).notify = x.notify := by cases e <;> rfl
@[simp] theorem Site.regs_setQueue (x : Site) (e : Engine) (q : List EngInstr) : (x.setQueue e q).regs = x.regs := by cases e <;> rfl
@[simp] theorem Site.regs_setIssued (x : Site) (e : Engine) (q : List EngIssued) : (x.setIssued e q).regs = x.regs := by cases e <;> rfl
@[simp] theorem Site.cores_setQueue (x : Site) (e : Engine) (q : List EngInstr) : (x.setQueue e q).cores = x.cores := by cases e <;> rfl
@[simp] theorem Site.tokOut_setIssued (x : Site) (e : Engine) (q : List EngIssued) : (x.setIssued e q).tokOut = x.tokOut := by cases e <;> rfl

theorem State.engines_takeToken (s : State) (t k n : Nat) : ((s.takeToken t k n).site t).engines = (s.site t).engines := by
  rw [State.takeToken, State.setToken, engines_of_beyondCores (State.beyondCores_setTfld _ _ _ _ _ _ _), State.site_modSite_same]
  rfl

theorem State.engines_addToken (s : State) (t k n : Nat) : ((s.addToken t k n).site t).engines = (s.site t).engines := by
  unfold State.addToken
  extract_lets out v noted
  have hnoted : (noted.site t).engines = (s.site t).engines := by
    rw [State.site_modSite_same]
    rfl
  split
  · rw [engines_of_beyondCores (State.beyondCores_setTbit _ _ _ _ _ _), State.setToken,
      engines_of_beyondCores (State.beyondCores_setTfld _ _ _ _ _ _ _), hnoted]
  · rw [State.setToken, engines_of_beyondCores (State.beyondCores_setTfld _ _ _ _ _ _ _), hnoted]

theorem State.core_takeToken (s : State) (t k n c : Nat) : (s.takeToken t k n).core t c = s.core t c := by
  rw [State.takeToken, State.setToken, State.core_setTfld, State.core, State.site_modSite_same, State.core]

@[simp] theorem State.site_traceEvent (s : State) (t unit k data x : Nat) : (s.traceEvent t unit k data).site x = s.site x := by
  obtain ⟨_, _, h⟩ := s.traceEvent_differsInTrace t unit k data
  rw [h]
  rfl

/-! ### An instruction begins (R187) -/

/-- The engines and registers of a site. -/
def State.enginesAndRegs (s : State) (t : Nat) := ((s.site t).engines, (s.site t).regs)

theorem State.enginesAndRegs_modSite (s : State) (t : Nat) (f : Site → Site) (h : (f (s.site t)).engines = (s.site t).engines)
    (h' : (f (s.site t)).regs = (s.site t).regs) : (s.modSite t f).enginesAndRegs t = s.enginesAndRegs t := by
  rw [State.enginesAndRegs, State.site_modSite_same, h, h', State.enginesAndRegs]

theorem State.enginesAndRegs_present (s : State) (t : Nat) (r : VitReq) : (s.present t r).enginesAndRegs t = s.enginesAndRegs t :=
  s.enginesAndRegs_modSite t _ rfl rfl

theorem State.enginesAndRegs_drainBegin (s : State) (t id : Nat) (i : EngInstr) :
    (s.drainBegin t id i).enginesAndRegs t = s.enginesAndRegs t := by
  unfold State.drainBegin
  extract_lets x comp rows reads o begun
  have hbegun : begun.enginesAndRegs t = s.enginesAndRegs t := by
    refine s.enginesAndRegs_modSite t _ ?_ ?_ <;> dsimp only <;> split <;> rfl
  split
  · exact (foldl_leaves (fun u : State => u.enginesAndRegs t) (fun u r => u.enginesAndRegs_present t r) reads begun).trans hbegun
  · exact hbegun

theorem State.enginesAndRegs_engineBegin (s : State) (t id : Nat) (e : Engine) (i : EngInstr) :
    (s.engineBegin t id e i).enginesAndRegs t = s.enginesAndRegs t := by
  cases e with
  | fetch => exact s.enginesAndRegs_modSite t _ rfl rfl
  | compute =>
    rw [State.engineBegin]
    split
    · exact s.enginesAndRegs_modSite t _ rfl rfl
    · exact (State.enginesAndRegs_present _ t _).trans (s.enginesAndRegs_modSite t _ rfl rfl)
  | drain => exact s.enginesAndRegs_drainBegin t id i

/-! ### The head of a queue is taken (R187, R188, R216) -/

/-- The instruction stands last among those that engine e has in work, with the next number. -/
def Site.begun (x : Site) (e : Engine) (i : EngInstr) : Site :=
  ({ x with nextEng := x.nextEng + 1 } : Site).setIssued e (x.issued e ++ [{ id := x.nextEng, instr := i, done := false, crc := 0 }])

section
variable (s : State) (t : Nat) (e : Engine) (i : EngInstr) (rest : List EngInstr)

/-- R187, R188: the head has left its queue, and its token its counter. -/
def State.headTaken : State :=
  let w := s.modSite t fun x => x.setQueue e rest
  if i.we then w.takeToken t i.wk 1 else w

theorem State.engines_headTaken : ((s.headTaken t e i rest).site t).engines = ((s.site t).setQueue e rest).engines := by
  unfold State.headTaken
  extract_lets w
  split
  · rw [State.engines_takeToken, State.site_modSite_same]
  · rw [State.site_modSite_same]

theorem State.token_headTaken (h : i.we = true) : (s.headTaken t e i rest).token t i.wk = s.token t i.wk - 1 := by
  rw [State.headTaken, if_pos h, State.token_takeToken, s.token_modSite t _ (Site.regs_setQueue _ _ _)]

theorem State.core_headTaken (c : Nat) : (s.headTaken t e i rest).core t c = s.core t c := by
  have hcore : (s.modSite t fun x => x.setQueue e rest).core t c = s.core t c := by
    rw [State.core, State.site_modSite_same, Site.cores_setQueue, State.core]
  unfold State.headTaken
  extract_lets w
  split
  · rw [State.core_takeToken, hcore]
  · exact hcore

/-- R187: the instruction is in work under the next number. -/
def State.headBegun : State :=
  ((s.modSite t fun x => x.begun e i).engineBegin t (s.site t).nextEng e i).traceEvent t 0 0 (engineEvent e 0)

theorem State.enginesAndRegs_headBegun : (s.headBegun t e i).enginesAndRegs t = (((s.site t).begun e i).engines, (s.site t).regs) := by
  rw [State.headBegun, State.enginesAndRegs, State.site_traceEvent, ← State.enginesAndRegs, State.enginesAndRegs_engineBegin,
    State.enginesAndRegs, State.site_modSite_same, Site.begun, Site.regs_setIssued]

end

section
variable {s : State} {t : Nat} {e : Engine} {i : EngInstr} {rest : List EngInstr} (hqueue : (s.site t).queue e = i :: rest)
  (htoken : i.we = true → (s.site t).takesAhead (some e) i.wk < s.token t i.wk) (hfree : (s.site t).engineFree e i = true)
include hqueue htoken hfree

theorem State.issueHead_takes : s.issueHead t e = match (s.headTaken t e i rest).refusal t e i with
      | some reason => (s.headTaken t e i rest).refuseEngine t e i reason
      | none => (s.headTaken t e i rest).headBegun t e i := by
  have hmet : s.tokenMet t e i = true := by
    rw [State.tokenMet]
    cases hwe : i.we
    · rfl
    · simpa using htoken hwe
  have hrest : (s.modSite t fun x => x.setQueue e ((x.queue e).drop 1)) = s.modSite t fun x => x.setQueue e rest := by
    rw [State.modSite, State.modSite, hqueue, List.drop_one, List.tail_cons]
  simp only [State.issueHead, hqueue, hmet, hfree, Bool.and_self, if_true, State.takeHead, hrest]
  rfl

theorem State.issueHead_begins (h : (s.headTaken t e i rest).refusal t e i = none) :
    s.issueHead t e = (s.headTaken t e i rest).headBegun t e i := by
  rw [State.issueHead_takes hqueue htoken hfree, h]

theorem State.issueHead_refuses {reason : Nat} (h : (s.headTaken t e i rest).refusal t e i = some reason) :
    s.issueHead t e = (s.headTaken t e i rest).refuseEngine t e i reason := by
  rw [State.issueHead_takes hqueue htoken hfree, h]

end

/-- R216: a refusal discards every entry that has not issued, and its core is ENDING with the refusal, unless an earlier one stands. -/
theorem State.refuseEngine_effect (s : State) (t : Nat) (e : Engine) (i : EngInstr) (reason : Nat) (hcore : i.core < 4) :
    (∀ f, ((s.refuseEngine t e i reason).site t).queue f = []) ∧ (s.refuseEngine t e i reason).coreState t i.core = 3 ∧
    (∀ k, k < 16 → (s.refuseEngine t e i reason).token t k = s.token t k) ∧
    ((s.core t i.core).engExc = none → ((s.refuseEngine t e i reason).core t i.core).engExc =
      some { cause := refusalCause e i, pc := i.pc, val := reason, core := i.core, seq := i.seq }) := by
  unfold State.refuseEngine
  extract_lets r emptied ending
  refine ⟨fun f => ?_, ?_, fun k hk => ?_, fun hnone => ?_⟩
  · rw [queue_of_beyondCores (State.beyondCores_modCore _ _ _ _ _), queue_of_beyondCores (State.beyondCores_setCoreState _ _ _ _ _),
      State.site_modSite_same]
    cases f <;> rfl
  · rw [State.coreState_modCore, State.coreState_setCoreState_same _ _ _ _ hcore (by decide)]
  · have hne : R.ENG_TOKEN (k / 4) ≠ R.TILE_STATE := by simp only [R.ENG_TOKEN, R.TILE_STATE]; omega
    refine State.token_congr ?_
    rw [State.treg_modCore, State.treg_setCoreState_ne _ _ _ _ (.inr hne), State.treg, State.site_modSite_same, State.treg]
  · have hemptied : emptied.core t i.core = s.core t i.core := by rw [State.core, State.site_modSite_same, State.core]
    rw [State.core_modCore_same, State.core_setCoreState, hemptied, hnone]

/-- The head is in work, and its token taken. -/
theorem State.headBegun_effect (s : State) (t : Nat) (e : Engine) (i : EngInstr) (rest : List EngInstr) :
    let u := (s.headTaken t e i rest).headBegun t e i
    (u.site t).queue e = rest ∧ (i.we = true → u.token t i.wk = s.token t i.wk - 1) ∧
    (∃ o ∈ (u.site t).issued e, o.id = (s.site t).nextEng ∧ o.instr = i) ∧ (u.site t).nextEng = (s.site t).nextEng + 1 := by
  intro u
  have hboth := (s.headTaken t e i rest).enginesAndRegs_headBegun t e i
  have hengines : (u.site t).engines = (((s.headTaken t e i rest).site t).begun e i).engines := congrArg Prod.fst hboth
  have hregs : (u.site t).regs = ((s.headTaken t e i rest).site t).regs := congrArg Prod.snd hboth
  have htaken := s.engines_headTaken t e i rest
  have hnext : ((s.headTaken t e i rest).site t).nextEng = (s.site t).nextEng :=
    (nextEng_of_engines htaken).trans (Site.nextEng_setQueue _ _ _)
  refine ⟨?_, fun hwe => ?_, ⟨{ id := ((s.headTaken t e i rest).site t).nextEng, instr := i, done := false, crc := 0 }, ?_, hnext, rfl⟩, ?_⟩
  · rw [queue_of_engines hengines, Site.begun, Site.queue_setIssued]
    exact (queue_of_engines htaken e).trans (Site.queue_setQueue_same _ _ _)
  · rw [State.token_of_regs hregs, s.token_headTaken t e i rest hwe]
  · rw [issued_of_engines hengines, Site.begun, Site.issued_setIssued_same]
    exact List.mem_append_right _ (List.mem_singleton_self _)
  · rw [nextEng_of_engines hengines, Site.begun, Site.nextEng_setIssued, hnext]

/-! ### The oldest instruction completes (R187, R188, R191) -/

theorem State.tokOut_modSite (s : State) (t k : Nat) {f : Site → Site} (h : (f (s.site t)).tokOut = (s.site t).tokOut) :
    (s.modSite t f).tokOut t k = s.tokOut t k := by
  rw [State.tokOut, State.site_modSite_same, h, State.tokOut]

theorem State.signal_effect {s : State} {t : Nat} {e : Engine} {o : EngIssued} {rest : List EngIssued} (hissued : (s.site t).issued e = o :: rest)
    (hk : o.instr.sk < 16) : ((s.signal t e o true).site t).issued e = rest ∧ ((s.signal t e o true).site t).notify = (s.site t).notify ∧
    (o.instr.se = true → (s.signal t e o true).token t o.instr.sk = min (255 - s.tokOut t o.instr.sk) (s.token t o.instr.sk + 1)) := by
  unfold State.signal
  extract_lets left
  have hleft : left.site t = (s.site t).setIssued e rest := by rw [State.site_modSite_same, hissued, List.tail_cons]
  have hengines : ((if (true && o.instr.se) = true then left.addToken t o.instr.sk 1 else left).site t).engines = (left.site t).engines := by
    split
    · exact left.engines_addToken t _ 1
    · rfl
  refine ⟨?_, ?_, fun hse => ?_⟩
  · rw [State.site_traceEvent, issued_of_engines hengines, hleft, Site.issued_setIssued_same]
  · rw [State.site_traceEvent, notify_of_engines hengines, hleft, Site.notify_setIssued]
  · rw [State.token_of_regs (congrArg Site.regs (State.site_traceEvent _ _ _ _ _ t)), hse, if_pos (Bool.and_self true), State.token_addToken _ _ _ hk,
      s.tokOut_modSite t _ (Site.tokOut_setIssued _ _ _), s.token_modSite t _ (Site.regs_setIssued _ _ _)]

theorem State.completeHead_alone {s : State} {t : Nat} {e : Engine} {o : EngIssued} {rest : List EngIssued} (htwin : s.twin t = none)
    (hissued : (s.site t).issued e = o :: rest) (hdone : o.done = true) : s.completeHead t e = s.signal t e o true := by
  simp only [State.completeHead, hissued, hdone, htwin, Bool.not_true, Bool.false_eq_true, if_false]

/-- R191: a notification that is met sets the event flag of core 0. -/
theorem State.notifyMet_cases (s : State) (t : Nat) :
    s.notifyMet t = s ∨ s.notifyMet t = (s.modSite t fun x => { x with notify := none }).setEvent t 0 := by
  unfold State.notifyMet
  split
  · exact .inl rfl
  · dsimp only
    split
    · exact .inr rfl
    · exact .inl rfl

section
variable (s : State) (t : Nat)

theorem State.queue_notifyMet (e : Engine) : ((s.notifyMet t).site t).queue e = (s.site t).queue e := by
  rcases s.notifyMet_cases t with h | h
  · rw [h]
  · rw [h, queue_of_beyondCores (State.beyondCores_setEvent _ t 0 t), State.site_modSite_same]
    cases e <;> rfl

theorem State.issued_notifyMet (e : Engine) : ((s.notifyMet t).site t).issued e = (s.site t).issued e := by
  rcases s.notifyMet_cases t with h | h
  · rw [h]
  · rw [h, issued_of_beyondCores (State.beyondCores_setEvent _ t 0 t), State.site_modSite_same]
    cases e <;> rfl

theorem State.token_notifyMet {k : Nat} (hk : k < 16) : (s.notifyMet t).token t k = s.token t k := by
  rcases s.notifyMet_cases t with h | h
  · rw [h]
  · have hstate : R.ENG_TOKEN (k / 4) ≠ R.TILE_STATE := by have := token_registers hk; simp only [R.TILE_STATE]; omega
    have hext : R.ENG_TOKEN (k / 4) ≠ R.S_EXT_PEND 0 := by have := token_registers hk; simp only [R.S_EXT_PEND]; omega
    rw [h, State.token_congr (State.treg_setEvent_ne _ t 0 hstate hext)]
    exact s.token_modSite t k rfl

/-- R191: the selected engines are idle. -/
theorem Site.all_engineIdle_iff (x : Site) (m : Nat) : (allEngines.all fun e => !(m.testBit (engineNumber e)) || x.engineIdle e) = true ↔
    ∀ e ∈ allEngines, m.testBit (engineNumber e) = true → x.engineIdle e = true := by
  simp only [List.all_eq_true, Bool.or_eq_true, Bool.not_eq_true', ← Bool.not_eq_true, imp_iff_not_or]

theorem State.notify_notifyMet {m : Nat} (hm : (s.site t).notify = some m)
    (hidle : ∀ e ∈ allEngines, m.testBit (engineNumber e) = true → (s.site t).engineIdle e = true) : ((s.notifyMet t).site t).notify = none := by
  have hmet := ((s.site t).all_engineIdle_iff m).mpr hidle
  simp only [State.notifyMet, hm, hmet, if_true]
  rw [notify_of_beyondCores (State.beyondCores_setEvent _ t 0 t), State.site_modSite_same]

end

/-! ### What a boundary of the statistics leaves (R99) -/

@[simp] theorem State.setQwin_fab (s : State) (t q : Nat) (w : QWin) : (s.setQwin t q w).fab = s.fab := s.modSite_fab t _

@[simp] theorem State.tregWrite_fab (s : State) (t a : Nat) (w : BitVec 32) : (s.tregWrite t a w).fab = s.fab := by
  unfold State.tregWrite
  split
  · rw [State.setTreg_fab, State.takeTlo, State.modSite_fab]
  · rfl

theorem State.foldl_setTreg_fab {α : Type} (t : Nat) (a : α → Nat) (v : State → α → BitVec 32) (l : List α) (s : State) :
    (l.foldl (fun s i => s.setTreg t (a i) (v s i)) s).fab = s.fab := foldl_leaves State.fab (fun u _ => u.setTreg_fab t _ _) l s

@[simp] theorem State.qcount_fab (s : State) (t q : Nat) (c : QCounts) : (s.qcount t q c).fab = s.fab := by
  unfold State.qcount
  dsimp only
  split <;> simp [State.tbump, State.tbump64]

@[simp] theorem State.qclearStep_fab (s : State) (t q : Nat) : (s.qclearStep t q).fab = s.fab :=
  (State.setQwin_fab _ t q _).trans (State.foldl_setTreg_fab t id (fun _ _ => 0) _ s)

@[simp] theorem State.qclear_fab (s : State) (t q : Nat) : (s.qclear t q).fab = s.fab := by
  simp [State.qclear, State.foldl_setTreg_fab]

@[simp] theorem State.qclose_fab (s : State) (t q : Nat) (merge : BitVec 32) : (s.qclose t q merge).fab = s.fab := by
  unfold State.qclose
  extract_lets count clip a merged counted latched share noted h scaled cleared
  have hcounted : counted.fab = s.fab := by
    simp only [counted]
    split <;> simp [merged, State.foldl_setTreg_fab]
  have hscaled : scaled.fab = noted.fab := by
    simp only [scaled]
    split <;> simp
  simp [cleared, hscaled, noted, latched, hcounted]

@[simp] theorem State.qwrite_fab (s : State) (t off : Nat) (w : BitVec 32) : (s.qwrite t off w).fab = s.fab := by
  have hclose (v : State) (merge : BitVec 32) : (if w.getLsbD 13 then v.qclose t ((off - 0x400) / 0x80) merge else v).fab = v.fab := by
    split <;> simp
  unfold State.qwrite
  dsimp only
  split
  · split <;> simp only [State.qclear_fab, hclose, State.tregWrite_fab]
  · split <;> simp
  · split <;> simp
  · split <;> simp
  · simp

theorem State.qboundary_fab (s : State) (t : Nat) : (s.qboundary t).fab = s.fab := by
  unfold State.qboundary
  extract_lets vs ws held
  exact (foldl_leaves State.fab (fun u e => u.qwrite_fab t _ _) ws _).trans
    ((foldl_leaves State.fab (fun u e => u.qcount_fab t _ _) vs held).trans (s.modSite_fab t _))

theorem State.refuseEngine_fab (s : State) (t : Nat) (e : Engine) (i : EngInstr) (reason : Nat) : (s.refuseEngine t e i reason).fab = s.fab :=
  (State.modSite_fab _ t _).trans ((State.setCoreState_fab _ t _ 3).trans (s.modSite_fab t _))

theorem State.refuseTable_fab (s : State) (t : Nat) : (s.refuseTable t).fab = s.fab := by
  unfold State.refuseTable
  split
  · split
    · exact (State.qboundary_fab _ t).trans ((State.refuseEngine_fab _ t _ _ _).trans (s.modSite_fab t _))
    · rfl
  · rfl

theorem State.twin_of_fab {s u : State} (h : u.fab = s.fab) (t : Nat) : u.twin t = s.twin t := by
  rw [State.twin, State.partOf, h, State.twin, State.partOf]

/-! ### The obligation -/

theorem engineStall_does {s : State} {t : Nat} {w : Nat × Nat × Bool} (hw : ((s.trackWaits t).site t).waits.find?
      (fun w => !w.2.2 && ((s.trackWaits t).treg t R.ENG_STALL_LIMIT).toNat < (s.trackWaits t).time - w.2.1) = some w)
    (hlimit : ((s.trackWaits t).treg t R.ENG_STALL_LIMIT).toNat ≠ 0) (hkind : kindOf t ≠ .mi) :
    let u := s.trackWaits t
    let v := u.modSite t fun x => { x with waits := x.waits.map fun v => if v.1 == w.1 then (v.1, v.2.1, true) else v }
    let v := if kindOf t = .s then v else v.setTbit t R.ENG_STATUS 10 true
    Does (.engineStall t) s (v.fault 0x03 (u.sourceOf t 0) (u.partOf t) (le 4 (v.engStatus t).toNat ++ le 4 (v.engQueue t).toNat)) := by
  simp only [Does, exec_engineStall, execEngineStall, hw]
  exact when_true (by simp [hlimit, hkind])

/-- Settles O33: an engine takes or refuses its head, its oldest instruction signals, and a wait beyond the limit is recorded. -/
theorem engineCommands : Obligations.EngineCommands := by
  refine ⟨fun s t e corr uncorr i rest _ => ?issue, fun s t e o rest htwin hk => ?complete, fun s t w => engineStall_does⟩
  case issue =>
    intro v _ _ hqueue htoken hfree hcore hk
    refine ⟨v.issueHead t e, rfl, fun hnone => ?_, fun reason hsome => ?_⟩
    · rw [State.issueHead_begins hqueue htoken hfree hnone]
      exact v.headBegun_effect t e i rest
    · rw [State.issueHead_refuses hqueue htoken hfree hsome]
      obtain ⟨hqueues, hending, htok, hexc⟩ := (v.headTaken t e i rest).refuseEngine_effect t e i reason hcore
      exact ⟨hqueues, hending, fun hwe => (htok _ hk).trans (v.token_headTaken t e i rest hwe),
        fun hfirst => hexc ((congrArg Core.engExc (v.core_headTaken t e i rest i.core)).trans hfirst)⟩
  case complete =>
    intro v hissued hdone
    have hv : v.fab = s.fab := by
      simp only [v]
      split
      · exact s.refuseTable_fab t
      · split
        · exact s.modSite_fab t _
        · rfl
    have halone := State.completeHead_alone ((State.twin_of_fab hv t).trans htwin) hissued hdone
    obtain ⟨hrest, hnotify, htok⟩ := State.signal_effect hissued hk
    refine ⟨(v.signal t e o true).notifyMet t, congrArg (fun u : State => Host.Outcome.next (u.notifyMet t)) halone,
      (State.issued_notifyMet _ t e).trans hrest, fun hse => (State.token_notifyMet _ t hk).trans (htok hse), fun m hm hidle => ?_⟩
    refine State.notify_notifyMet _ t (hnotify.trans hm) fun f hf hbit => ?_
    have hf := hidle f hf hbit
    rw [Site.engineIdle, State.queue_notifyMet, State.issued_notifyMet] at hf
    exact hf

end Sys2Proof.Machine
end

section
/-! PROOFS. The functions of the PCIe endpoint (R413-R416, R425): sends, copy channels, and vectors. -/

namespace Sys2Proof.Machine

@[simp] theorem State.setFld_hst (s : State) (a hi lo n : Nat) : (s.setFld a hi lo n).hst = s.hst := State.setReg_hst _ _ _
@[simp] theorem State.setBit_hst (s : State) (a i : Nat) (b : Bool) : (s.setBit a i b).hst = s.hst := State.setFld_hst _ _ _ _ _
@[simp] theorem State.setFld_msix (s : State) (a hi lo n : Nat) : (s.setFld a hi lo n).msix = s.msix := State.setReg_msix _ _ _
@[simp] theorem State.setBit_msix (s : State) (a i : Nat) (b : Bool) : (s.setBit a i b).msix = s.msix := State.setFld_msix _ _ _ _ _
@[simp] theorem State.setChan_writes (s : State) (f c : Nat) (l : List CopyJob) : (s.setChan f c l).hst.writes = s.hst.writes := rfl
@[simp] theorem State.setChan_msix (s : State) (f c : Nat) (l : List CopyJob) : (s.setChan f c l).msix = s.msix := rfl
@[simp] theorem State.reg_setChan (s : State) (f c : Nat) (l : List CopyJob) (a : Nat) : (s.setChan f c l).reg a = s.reg a := rfl

theorem State.chan_of_hst {s u : State} (h : u.hst = s.hst) (f c : Nat) : u.chan f c = s.chan f c := by rw [State.chan, h, State.chan]

theorem State.chan_setChan (s : State) (f c : Nat) (l : List CopyJob) : (s.setChan f c l).chan f c = l := Map.get_set_same _ _ _ _

theorem State.bit_of_reg {s u : State} {a : Nat} (h : u.reg a = s.reg a) (i : Nat) : u.bit a i = s.bit a i := by rw [State.bit, h, State.bit]

theorem State.fld_of_reg {s u : State} {a : Nat} (h : u.reg a = s.reg a) (hi lo : Nat) : u.fld a hi lo = s.fld a hi lo := by
  rw [State.fld, h, State.fld]

/-! ### Sends (R204, R414) -/

theorem msgHeader_queue {op : Nat} (h : op = 0) (d src len : Nat) : (msgHeader op d src len).queue = d / 2 ^ 30 % 2 ^ 6 := by subst h; rfl
theorem msgHeader_acc {op : Nat} (h : op = 0) (d src len : Nat) : (msgHeader op d src len).acc = d / 2 ^ 20 % 2 ^ 10 := by subst h; rfl
theorem msgHeader_arg {op : Nat} (h : op = 3) (d src len : Nat) : (msgHeader op d src len).arg = d % 2 ^ 20 := by
  subst h
  exact congrArg (· % 2 ^ 20) (Nat.div_one d)

/-- What a send of function f leaves, of a message of the packet kind `kind` with the payload `data`: the rule of R414. -/
def FnSends (s u : State) (f kind : Nat) (data : List (BitVec 8)) : Prop :=
  let dest := s.acted64 (R.FN_MSG_DEST_LO f)
  (s.bit (R.FN_MSG_STATUS f) 31 = true → u.bit (R.FN_MSG_STATUS f) 30 = true ∧ u.net = s.net) ∧
  (s.bit (R.FN_MSG_STATUS f) 31 = false →
    (dest / 2 ^ 48 % 2 ^ 16 ≠ s.deviceId ∨ s.vfOut (fnAgent f) = true →
      u.fld (R.FN_MSG_STATUS f) 1 0 = 3 ∧ u.bit (R.FN_MSG_STATUS f) 31 = false ∧ u.net = s.net) ∧
    (dest / 2 ^ 48 % 2 ^ 16 = s.deviceId → s.vfOut (fnAgent f) = false → u.bit (R.FN_MSG_STATUS f) 31 = true ∧
      ∃ r : NetReq, u.net.outbox = s.net.outbox ++ [r] ∧ r.origin = 5000 ∧ r.agent = fnAgent f ∧ r.data = data ∧ r.user = .fn f ∧
        r.hdr.kind = kind ∧ r.hdr.dev = s.deviceId ∧ r.hdr.tile = dest / 2 ^ 36 % 2 ^ 12 ∧ r.hdr.len = data.length ∧
        (kind = 1 → r.hdr.queue = dest / 2 ^ 30 % 2 ^ 6 ∧ r.hdr.acc = dest / 2 ^ 20 % 2 ^ 10) ∧
        (kind = 4 → r.hdr.arg = dest % 2 ^ 20)))

section
variable {s : State} {f kind : Nat}

theorem State.fnMsg_busy (h : s.bit (R.FN_MSG_STATUS f) 31 = true) : s.fnMsg f kind = s.setBit (R.FN_MSG_STATUS f) 30 true := by
  simp [State.fnMsg, h]

variable (hkind : kind ≠ 3) (hfree : s.bit (R.FN_MSG_STATUS f) 31 = false)
include hkind hfree

theorem State.fnMsg_unreachable
    (h : s.acted64 (R.FN_MSG_DEST_LO f) / 2 ^ 48 % 2 ^ 16 ≠ s.deviceId ∨ s.vfOut (fnAgent f) = true) :
    s.fnMsg f kind = s.setFld (R.FN_MSG_STATUS f) 1 0 3 := by
  have hcond : (kind == 3 || s.bit (R.FN_MSG_STATUS f) 31) = false := by simp [hkind, hfree]
  rw [State.fnMsg, hcond, if_neg Bool.false_ne_true]
  exact if_pos (by simpa [msgHeader, fieldOf] using h)

theorem State.fnMsg_leaves (hdev : s.acted64 (R.FN_MSG_DEST_LO f) / 2 ^ 48 % 2 ^ 16 = s.deviceId) (hin : s.vfOut (fnAgent f) = false) :
    s.fnMsg f kind = (s.setBit (R.FN_MSG_STATUS f) 31 true).post 5000 (fnAgent f)
      (msgHeader (fnMsgOp kind) (s.acted64 (R.FN_MSG_DEST_LO f)) (s.agentSource (fnAgent f)) (s.fnMsgData f kind).length)
      (s.fnMsgData f kind) (.fn f) := by
  have hcond : (kind == 3 || s.bit (R.FN_MSG_STATUS f) 31) = false := by simp [hkind, hfree]
  rw [State.fnMsg, hcond, if_neg Bool.false_ne_true]
  exact if_neg (by simpa [msgHeader, fieldOf, hin] using hdev)

end

theorem State.fnMsg_sends (s : State) (f : Nat) {kind : Nat} (hkind : kind ≠ 3) :
    FnSends s (s.fnMsg f kind) f (fnMsgOp kind + 1) (s.fnMsgData f kind) := by
  refine ⟨fun hbusy => ?_, fun hfree => ⟨fun hfar => ?_, fun hdev hin => ?_⟩⟩
  · rw [State.fnMsg_busy hbusy]
    exact ⟨s.bit_setBit_same _ _ _ (by decide), rfl⟩
  · rw [State.fnMsg_unreachable hkind hfree hfar]
    exact ⟨s.fld_setFld_same _ _ _ _ (by decide) (by decide), (s.bit_setFld_other _ _ _ _ _ (by decide) (by decide)).trans hfree, rfl⟩
  · rw [State.fnMsg_leaves hkind hfree hdev hin]
    exact ⟨s.bit_setBit_same _ _ _ (by decide), _, rfl, rfl, rfl, rfl, rfl, rfl, hdev, rfl, rfl,
      fun h => ⟨msgHeader_queue (Nat.succ.inj h) _ _ _, msgHeader_acc (Nat.succ.inj h) _ _ _⟩, fun h => msgHeader_arg (Nat.succ.inj h) _ _ _⟩

theorem State.fnSend_present {s : State} {f : Nat} (kind : Nat) (hup : s.hostUp = true) (hf : f < 64) (hp : s.fnPresent f = true) :
    s.fnSend f kind = .next (s.fnMsg f kind) := when_true (by simp [hup, hf, hp])

/-! ### Resets of channels (R425) -/

theorem channelReset_does {s : State} {f c : Nat} (hup : s.hostUp = true) (hf : f < 64) (hc : c < 4) (hp : s.fnPresent f = true) :
    Does (.channelReset f c) s (s.chanReset f c) := when_true (by simp [hup, hf, hc, hp])

theorem State.chanReset_enabled {s : State} {f c : Nat} (h : s.bit (R.FN_CH_CFG f c) 31 = true) : s.chanReset f c = s := if_pos h

theorem State.chanReset_disabled {s : State} {f c : Nat} (h : s.bit (R.FN_CH_CFG f c) 31 = false) :
    (s.chanReset f c).reg (R.FN_CH_HEAD f c) = 0 ∧ (s.chanReset f c).reg (R.FN_CH_TAIL f c) = 0 ∧
    (s.chanReset f c).reg (R.FN_CH_STATUS f c) = 0 ∧ (s.chanReset f c).chan f c = [] := by
  have hhead : R.FN_CH_HEAD f c ≠ R.FN_CH_TAIL f c ∧ R.FN_CH_HEAD f c ≠ R.FN_CH_STATUS f c ∧ R.FN_CH_TAIL f c ≠ R.FN_CH_STATUS f c := by
    simp only [R.FN_CH_HEAD, R.FN_CH_TAIL, R.FN_CH_STATUS]; omega
  obtain ⟨htail, hstatus, hstatus'⟩ := hhead
  rw [State.chanReset, if_neg (ne_true_of_eq_false h)]
  refine ⟨?_, ?_, ?_, State.chan_setChan _ _ _ _⟩
  · rw [State.reg_setChan, State.reg_setReg_other _ _ hstatus, State.reg_setReg_other _ _ htail, State.reg_setReg_same]
  · rw [State.reg_setChan, State.reg_setReg_other _ _ hstatus', State.reg_setReg_same]
  · rw [State.reg_setChan, State.reg_setReg_same]

/-! ### A copy starts (R412, R415) -/

theorem splitUnits_within (fuel a n : Nat) : ∀ e ∈ splitUnits fuel a n, a ≤ e.1 ∧ e.2 ≤ 4096 := by
  induction fuel generalizing a n with
  | zero => simp [splitUnits]
  | succ fuel ih =>
    rw [splitUnits]
    split
    · simp
    · intro e he
      rcases List.mem_cons.mp he with rfl | he
      · exact ⟨Nat.le_refl a, (Nat.min_le_right _ _).trans (Nat.sub_le _ _)⟩
      · obtain ⟨hlo, hlen⟩ := ih _ _ e he
        exact ⟨(Nat.le_add_right a _).trans hlo, hlen⟩

/-- The status of a descriptor that starts no transfer, or 0. -/
def copyDead (ok : Bool) (d : Nat) : Nat := if !ok then 0x83 else if copyBad d then 0x84 else 0

/-- The parts of a transfer, with their numbers. -/
def State.copyParts (s : State) (f d : Nat) (ok : Bool) (err : List Nat) : List ((Nat × Nat) × Nat) :=
  if copyDead ok d != 0 || s.vfOut (fnAgent f) then [] else
    ((splitUnits (copyLen d / 4096 + 2) (copyDev d) (copyLen d)).zip (List.range (copyLen d / 4096 + 2))).filter fun e =>
      copyOut d || !err.contains e.2

/-- The descriptor as its channel keeps it while its parts are on their way. -/
def State.copyJob (s : State) (f c d : Nat) (ok : Bool) (err : List Nat) : CopyJob :=
  { id := s.hst.nextId, index := s.nextDesc f c, dev := copyDev d, host := copyHost d, length := if copyDead ok d != 0 then 0 else copyLen d,
    irq := ok && copyIrq d, toHost := copyOut d, left := (s.copyParts f d ok err).length,
    status := if copyDead ok d != 0 then copyDead ok d else if s.vfOut (fnAgent f) then 0x82
      else if !copyOut d && copyDead ok d == 0 && !err.isEmpty then 0x83 else 0x80,
    data := [] }

/-- The state in which the channel has taken the descriptor and sends its parts. -/
def State.copyTaken (s : State) (f c d : Nat) (ok : Bool) (err : List Nat) : State :=
  let s' := if copyDead ok d == 0 && s.vfOut (fnAgent f) then s.fnErr f (copyDev d) 3 else s
  ((s'.modHst fun h => { h with nextId := s.hst.nextId + 1 }).setChan f c (s'.chan f c ++ [s.copyJob f c d ok err])).setBit (R.FN_CH_STATUS f c) 30 true

theorem State.copyStart_eq (s : State) (f c d : Nat) (ok : Bool) (data : List (BitVec 8)) (err : List Nat) : s.copyStart f c d ok data err =
    (s.copyParts f d ok err).foldl (fun u e => u.copyPart f c (s.copyJob f c d ok err) data e.1.1 e.1.2) (s.copyTaken f c d ok err) := rfl

theorem State.fnErr_leaves (s : State) (f addr status : Nat) : (s.fnErr f addr status).hst = s.hst ∧ (s.fnErr f addr status).net = s.net := by
  unfold State.fnErr
  split
  · exact ⟨rfl, rfl⟩
  · exact ⟨rfl, rfl⟩

theorem State.copyTaken_effect (s : State) (f c d : Nat) (ok : Bool) (err : List Nat) :
    (s.copyTaken f c d ok err).chan f c = s.chan f c ++ [s.copyJob f c d ok err] ∧
    (s.copyTaken f c d ok err).bit (R.FN_CH_STATUS f c) 30 = true ∧ (s.copyTaken f c d ok err).net = s.net := by
  unfold State.copyTaken
  extract_lets v
  have hv : v.hst = s.hst ∧ v.net = s.net := by
    simp only [v]
    split
    · exact s.fnErr_leaves f _ 3
    · exact ⟨rfl, rfl⟩
  obtain ⟨hhst, hnet⟩ := hv
  refine ⟨?_, State.bit_setBit_same _ _ _ _ (by decide), hnet⟩
  refine (State.chan_of_hst (State.setBit_hst _ _ _ _) f c).trans ?_
  rw [State.chan_setChan, State.chan_of_hst hhst]

/-- The requests of the parts. -/
theorem State.foldl_copyPart (f c : Nat) (j : CopyJob) (data : List (BitVec 8)) (l : List ((Nat × Nat) × Nat)) (s : State) :
    let u := l.foldl (fun u e => u.copyPart f c j data e.1.1 e.1.2) s
    u.regs = s.regs ∧ u.hst = s.hst ∧ ∃ rs : List NetReq, u.net.outbox = s.net.outbox ++ rs ∧ rs.length = l.length ∧
      ∀ r ∈ rs, r.agent = fnAgent f ∧ r.hdr.kind = (if j.toHost then 8 else 9) ∧ ∃ e ∈ l, r.hdr.addr = e.1.1 ∧ r.hdr.len = e.1.2 := by
  induction l generalizing s with
  | nil => exact ⟨rfl, rfl, [], (List.append_nil _).symm, rfl, by simp⟩
  | cons e l ih =>
    obtain ⟨hregs, hhst, rs, hout, hlen, hrs⟩ := ih (s.copyPart f c j data e.1.1 e.1.2)
    refine ⟨hregs, hhst, _ :: rs, hout.trans (List.append_assoc _ _ _), by rw [List.length_cons, hlen, List.length_cons], fun r hr => ?_⟩
    rcases List.mem_cons.mp hr with rfl | hr
    · exact ⟨rfl, rfl, e, List.mem_cons_self, rfl, rfl⟩
    · obtain ⟨hagent, hkind, e', he', haddr⟩ := hrs r hr
      exact ⟨hagent, hkind, e', List.mem_cons_of_mem _ he', haddr⟩

theorem copyDescriptorStart_does {s : State} {f c : Nat} {desc : BitVec 256} {ok : Bool} (data : List (BitVec 8)) (err : List Nat) (hf : f < 64)
    (hc : c < 4) (hready : s.channelReady f c = true) (hwaits : ¬(ok = true ∧ desc.getLsbD 66 = true ∧ s.chan f c ≠ [])) :
    Does (.copyDescriptorStart f c desc ok data err) s (s.copyStart f c desc.toNat ok data err) := by
  have hfence : (ok && copyFence desc.toNat && !(s.chan f c).isEmpty) = false :=
    Bool.eq_false_iff.mpr fun h => hwaits (by simpa [and_assoc, copyFence, BitVec.getLsbD] using h)
  exact when_true (by rw [hready, hfence]; simp [hf, hc])

theorem copyDescriptorStart_waits {s : State} {f c : Nat} {desc : BitVec 256} {ok : Bool} (data : List (BitVec 8)) (err : List Nat)
    (hwaits : ok = true ∧ desc.getLsbD 66 = true ∧ s.chan f c ≠ []) : Does (.copyDescriptorStart f c desc ok data err) s s := by
  have hfence : (ok && copyFence desc.toNat && !(s.chan f c).isEmpty) = true := by
    simpa [and_assoc, copyFence, BitVec.getLsbD] using hwaits
  exact when_false (by rw [hfence]; simp)

/-- R415: the parts lie in the transfer's range of device addresses, and in units of 4 KiB. -/
theorem State.copyParts_within (s : State) (f d : Nat) (ok : Bool) (err : List Nat) :
    ∀ e ∈ s.copyParts f d ok err, copyDev d ≤ e.1.1 ∧ e.1.2 ≤ 4096 := by
  intro e he
  unfold State.copyParts at he
  split at he
  · simp at he
  · exact splitUnits_within _ _ _ _ (List.of_mem_zip (List.mem_filter.mp he).1).1

theorem State.copyStart_effect (s : State) (f c d : Nat) (ok : Bool) (data : List (BitVec 8)) (err : List Nat) :
    let u := s.copyStart f c d ok data err
    let j := s.copyJob f c d ok err
    u.chan f c = s.chan f c ++ [j] ∧ u.bit (R.FN_CH_STATUS f c) 30 = true ∧
    ∃ l : List NetReq, u.net.outbox = s.net.outbox ++ l ∧ l.length = j.left ∧
      ∀ r ∈ l, r.agent = fnAgent f ∧ r.hdr.kind = (if copyOut d then 8 else 9) ∧ copyDev d ≤ r.hdr.addr ∧ r.hdr.len ≤ 4096 := by
  intro u j
  have hu : u = _ := s.copyStart_eq f c d ok data err
  rw [hu]
  obtain ⟨hchan, hbusy, hnet⟩ := s.copyTaken_effect f c d ok err
  obtain ⟨hregs, hhst, l, hout, hlen, hl⟩ := (s.copyTaken f c d ok err).foldl_copyPart f c j data (s.copyParts f d ok err)
  refine ⟨(State.chan_of_hst hhst f c).trans hchan, (State.bit_of_reg ?_ 30).trans hbusy, l, hnet ▸ hout, hlen, fun r hr => ?_⟩
  · exact congrArg (fun m => Map.get devReset m _) hregs
  · obtain ⟨hagent, hkind, e, he, haddr, hbytes⟩ := hl r hr
    obtain ⟨hlo, hle⟩ := s.copyParts_within f d ok err e he
    exact ⟨hagent, hkind, haddr ▸ hlo, hbytes ▸ hle⟩

section
variable (s : State) (f c d : Nat) (err : List Nat)

theorem State.copyJob_unread : (s.copyJob f c d false err).status = 0x83 ∧ (s.copyJob f c d false err).left = 0 := by
  simp [State.copyJob, State.copyParts, copyDead]

variable {d}

theorem State.copyJob_bad (h : copyBad d = true) : (s.copyJob f c d true err).status = 0x84 ∧ (s.copyJob f c d true err).left = 0 := by
  simp [State.copyJob, State.copyParts, copyDead, h]

theorem State.copyJob_far (h : copyBad d = false) (hfar : s.vfOut (fnAgent f) = true) :
    (s.copyJob f c d true err).status = 0x82 ∧ (s.copyJob f c d true err).left = 0 := by
  simp [State.copyJob, State.copyParts, copyDead, h, hfar]

theorem State.copyJob_near (h : copyBad d = false) (hnear : s.vfOut (fnAgent f) = false) :
    (s.copyJob f c d true err).length = copyLen d ∧ (s.copyJob f c d true err).irq = copyIrq d ∧
    (s.copyJob f c d true err).status = if copyOut d = false ∧ err ≠ [] then 0x83 else 0x80 := by
  simp [State.copyJob, copyDead, h, hnear]

end

/-! ### A copy completes (R415) -/

theorem copyDescriptorComplete_does {s : State} {f c : Nat} {j : CopyJob} {rest : List CopyJob} (hf : f < 64) (hc : c < 4) (hup : s.hostUp = true)
    (hchan : s.chan f c = j :: rest) (hleft : j.left = 0) : Does (.copyDescriptorComplete f c) s (s.copyEnd f c j rest) := by
  rw [Does, exec_copyDescriptorComplete, execCopyDescriptorComplete, hchan]
  exact when_true (by simp [hf, hc, hup, hleft])

/-- The vectors in order of their raising, those of the list after the earlier ones. -/
def State.addVectors (s : State) (l : List (Nat × Nat)) : State := { s with msix := s.msix ++ l }

section
variable (s : State) (l : List (Nat × Nat)) (a i lo : Nat)

theorem State.addVectors_chan : (s.addVectors l).chan a i = s.chan a i := rfl
theorem State.addVectors_hst : (s.addVectors l).hst = s.hst := rfl
theorem State.addVectors_msix : (s.addVectors l).msix = s.msix ++ l := rfl
theorem State.addVectors_fld : (s.addVectors l).fld a i lo = s.fld a i lo := rfl
theorem State.addVectors_bit : (s.addVectors l).bit a i = s.bit a i := rfl

end

theorem State.addVectors_nil (s : State) : s.addVectors [] = s := by rw [State.addVectors, List.append_nil]

theorem State.raiseVector_up {s : State} (h : s.hostUp = true) (fn vec : Nat) : s.raiseVector fn vec = s.addVectors [(fn, vec)] := if_pos h

theorem State.raiseVector_down {s : State} (h : s.hostUp = false) (fn vec : Nat) : s.raiseVector fn vec = s := if_neg (ne_true_of_eq_false h)

/-- The copy's data and status are in host memory. -/
def State.copyWritten (s : State) (f c : Nat) (j : CopyJob) : State :=
  let s' := if j.toHost && j.length != 0 then s.hostWrite f j.host j.bytes else s
  s'.hostWrite f (s'.acted64 (R.FN_CH_RING_LO f c) + 32 * j.index) [BitVec.ofNat 8 j.status]

theorem State.copyWritten_effect (s : State) (f c : Nat) (j : CopyJob) : (s.copyWritten f c j).regs = s.regs ∧
    (s.copyWritten f c j).msix = s.msix ∧ (s.copyWritten f c j).hst.writes = s.hst.writes ++
      (if j.toHost ∧ j.length ≠ 0 then [(f, j.host, j.bytes)] else []) ++
      [(f, s.acted64 (R.FN_CH_RING_LO f c) + 32 * j.index, [BitVec.ofNat 8 j.status])] := by
  by_cases h : j.toHost = true ∧ j.length ≠ 0
  · have hcond : (j.toHost && j.length != 0) = true := by simpa using h
    simp only [State.copyWritten, hcond, if_true, if_pos h]
    exact ⟨rfl, rfl, rfl⟩
  · have hcond : ¬(j.toHost && j.length != 0) = true := by simpa using h
    simp only [State.copyWritten, if_neg hcond, if_neg h, List.append_nil]
    exact ⟨rfl, rfl, rfl⟩

/-- The descriptor has left its channel. -/
def State.copyRetired (s : State) (f c : Nat) (j : CopyJob) (rest : List CopyJob) : State :=
  let s := s.setFld (R.FN_CH_HEAD f c) 11 0 ((j.index + 1) % s.ringSize f c)
  ((s.setFld (R.FN_CH_STATUS f c) 7 0 j.status).setBit (R.FN_CH_STATUS f c) 30 (!rest.isEmpty)).setChan f c rest

theorem State.copyEnd_eq (s : State) (f c : Nat) (j : CopyJob) (rest : List CopyJob) : s.copyEnd f c j rest =
    if j.irq then ((s.copyWritten f c j).copyRetired f c j rest).raiseVector (f + 1) c else (s.copyWritten f c j).copyRetired f c j rest := rfl

section
variable (s : State) (f c : Nat) (j : CopyJob) (rest : List CopyJob)

theorem State.copyRetired_chan : (s.copyRetired f c j rest).chan f c = rest := State.chan_setChan _ _ _ _

theorem State.copyRetired_writes : (s.copyRetired f c j rest).hst.writes = s.hst.writes := by simp [State.copyRetired]

theorem State.copyRetired_msix : (s.copyRetired f c j rest).msix = s.msix := by simp [State.copyRetired]

theorem State.copyRetired_reg {a : Nat} (ha : a ≠ R.FN_CH_STATUS f c) :
    (s.copyRetired f c j rest).reg a = (s.setFld (R.FN_CH_HEAD f c) 11 0 ((j.index + 1) % s.ringSize f c)).reg a := by
  rw [State.copyRetired, State.reg_setChan, State.reg_setBit_other _ _ _ ha, State.reg_setFld_other _ _ _ _ ha]

theorem State.copyRetired_hostUp : (s.copyRetired f c j rest).hostUp = s.hostUp := by
  have hne : R.HST_LINK_STATUS ≠ R.FN_CH_STATUS f c ∧ R.HST_LINK_STATUS ≠ R.FN_CH_HEAD f c := by
    simp only [R.FN_CH_HEAD, R.FN_CH_STATUS, R.HST_LINK_STATUS]; omega
  exact (State.bit_of_reg (s.copyRetired_reg f c j rest hne.1) 8).trans (s.bit_setFld_ne _ _ _ _ hne.2)

theorem State.copyRetired_head : (s.copyRetired f c j rest).fld (R.FN_CH_HEAD f c) 11 0 = (j.index + 1) % s.ringSize f c % 4096 := by
  have hne : R.FN_CH_HEAD f c ≠ R.FN_CH_STATUS f c := by simp only [R.FN_CH_HEAD, R.FN_CH_STATUS]; omega
  exact (State.fld_of_reg (s.copyRetired_reg f c j rest hne) 11 0).trans (s.fld_setFld_same _ _ _ _ (by decide) (by decide))

theorem State.copyRetired_busy : (s.copyRetired f c j rest).bit (R.FN_CH_STATUS f c) 30 = !rest.isEmpty := by
  rw [State.copyRetired, State.bit_of_reg (State.reg_setChan _ _ _ _ _)]
  exact State.bit_setBit_same _ _ _ _ (by decide)

theorem State.copyRetired_status (hstatus : j.status < 256) : (s.copyRetired f c j rest).fld (R.FN_CH_STATUS f c) 7 0 = j.status := by
  rw [State.copyRetired, State.fld_of_reg (State.reg_setChan _ _ _ _ _), State.fld_setBit_other _ _ _ _ _ _ (by decide) (by decide),
    State.fld_setFld_same _ _ _ _ _ (by decide) (by decide)]
  exact Nat.mod_eq_of_lt hstatus

end

theorem State.copyEnd_effect {s : State} (f c : Nat) {j : CopyJob} (rest : List CopyJob) (hup : s.hostUp = true) (hstatus : j.status < 256) :
    let u := s.copyEnd f c j rest
    u.chan f c = rest ∧ u.hst.writes = s.hst.writes ++ (if j.toHost ∧ j.length ≠ 0 then [(f, j.host, j.bytes)] else []) ++
      [(f, s.acted64 (R.FN_CH_RING_LO f c) + 32 * j.index, [BitVec.ofNat 8 j.status])] ∧
    u.fld (R.FN_CH_HEAD f c) 11 0 = (j.index + 1) % s.ringSize f c % 4096 ∧ u.fld (R.FN_CH_STATUS f c) 7 0 = j.status ∧
    u.bit (R.FN_CH_STATUS f c) 30 = !rest.isEmpty ∧ u.msix = s.msix ++ (if j.irq then [(f + 1, c)] else []) := by
  intro u
  obtain ⟨hregs, hmsix, hwrites⟩ := s.copyWritten_effect f c j
  have hreg : ∀ a, (s.copyWritten f c j).reg a = s.reg a := fun a => congrArg (fun m => Map.get devReset m a) hregs
  have hsize : (s.copyWritten f c j).ringSize f c = s.ringSize f c := congrArg (2 ^ ·) (State.fld_of_reg (hreg _) 3 0)
  have hlink : ((s.copyWritten f c j).copyRetired f c j rest).hostUp = true :=
    (State.copyRetired_hostUp _ _ _ _ _).trans ((State.bit_of_reg (hreg _) 8).trans hup)
  have hu : u = ((s.copyWritten f c j).copyRetired f c j rest).addVectors (if j.irq then [(f + 1, c)] else []) := by
    simp only [u, State.copyEnd_eq, State.raiseVector_up hlink]
    split
    · rfl
    · exact (State.addVectors_nil _).symm
  rw [hu, State.addVectors_chan, State.addVectors_hst, State.addVectors_fld, State.addVectors_fld, State.addVectors_bit, State.addVectors_msix,
    State.copyRetired_writes, State.copyRetired_msix, State.copyRetired_head, hwrites, hmsix, hsize]
  exact ⟨State.copyRetired_chan _ _ _ _ _, rfl, rfl, State.copyRetired_status _ _ _ _ _ hstatus, State.copyRetired_busy _ _ _ _ _, rfl⟩

/-! ### Vectors (R416) -/

section
variable {s : State} {a : Agent} {f vec : Nat}

theorem State.msixRaise_rejects (h : vec < 4 ∨ s.mayRaise a f = false) : s.msixRaise a f vec = s.setBit R.HST_MSIX_RAISE 31 true := by
  refine if_pos ?_
  rcases h with h | h <;> simp [h]

theorem State.msixRaise_raises (hlo : 4 ≤ vec) (hhi : vec < 32) (hmay : s.mayRaise a f = true) : (s.msixRaise a f vec).regs = s.regs ∧
    (s.msixRaise a f vec).msix = s.msix ++ if f ≤ s.hst.numVfs ∧ s.hostUp = true then [(f + 1, vec)] else [] := by
  have hcond : (vec < 4 || 31 < vec || !s.mayRaise a f) = false := by simp [hmay]; omega
  rw [State.msixRaise, hcond, if_neg Bool.false_ne_true]
  by_cases hf : f ≤ s.hst.numVfs
  · rw [if_pos hf]
    cases hup : s.hostUp
    · simp [State.raiseVector_down hup]
    · simp [State.raiseVector_up hup, hf, State.addVectors]
  · simp [hf]

theorem hstMsixRaise_does (hopen : s.OpenTo a) (hf : f < 64) (hvec : vec < 32) : Does (.hstMsixRaise a f vec) s (s.msixRaise a f vec) := by
  have h := openWrite_open hopen (s.msixRaise a (f % 64) (vec % 32))
  rw [Nat.mod_eq_of_lt hf, Nat.mod_eq_of_lt hvec] at h
  rw [Does, exec_hstMsixRaise, execHstMsixRaise, Nat.mod_eq_of_lt hf, Nat.mod_eq_of_lt hvec, h]

end

theorem copyDev_eq (d : Nat) : copyDev d = d / 2 ^ 128 % 2 ^ 64 := congrArg (· % 2 ^ 64) (Nat.shiftRight_eq_div_pow d 128)

/-- Settles O52: each command answers a state named above, whose registers, channel, messages and vectors the effect lemmas give. That a copy leaves in
parts of at most 4 KiB with the status of log entry 49, and that the vector of a VF that is not enabled is lost (log entry 56), are choices of the
model. -/
theorem functionCommands : Obligations.FunctionCommands := by
  refine ⟨fun s f hup hf hp => ?send, fun s f c hup hf hc hp => ?reset, fun s f c desc ok data err hf hc hready => ?start,
    fun s f c j rest hf hc hup hchan hleft hstatus => ?complete, fun s a f vec hf hvec hopen => ?vector⟩
  case send =>
    exact ⟨_, _, _, State.fnSend_present 0 hup hf hp, s.fnMsg_sends f (by decide), State.fnSend_present 1 hup hf hp, s.fnMsg_sends f (by decide),
      State.fnSend_present 2 hup hf hp, s.fnMsg_sends f (by decide)⟩
  case reset =>
    have hdoes := channelReset_does hup hf hc hp
    exact ⟨fun h => hdoes.trans (congrArg Host.Outcome.next (State.chanReset_enabled h)), fun h => ⟨_, hdoes, State.chanReset_disabled h⟩⟩
  case start =>
    refine ⟨fun hwaits => copyDescriptorStart_waits data err hwaits, fun hwaits => ?_⟩
    obtain ⟨hchan, hbusy, hparts⟩ := s.copyStart_effect f c desc.toNat ok data err
    refine ⟨_, s.copyJob f c desc.toNat ok err, copyDescriptorStart_does data err hf hc hready hwaits, hchan, hbusy, rfl, ?_, ?_, ?_, ?_, ?_⟩
    · exact copyDev_eq _ ▸ hparts
    · rintro rfl
      exact s.copyJob_unread f c _ err
    · rintro rfl hbad
      exact s.copyJob_bad f c err hbad
    · rintro rfl hbad hfar
      exact s.copyJob_far f c err hbad hfar
    · rintro rfl hbad hnear
      obtain ⟨hlen, hirq, hst⟩ := s.copyJob_near f c err hbad (eq_false_of_ne_true hnear)
      refine ⟨?_, ?_, hlen.trans ?_, hirq, rfl, hst⟩
      · exact copyDev_eq _
      · exact congrArg (· % 2 ^ 64) (Nat.shiftRight_eq_div_pow _ 192)
      · exact congrArg (· % 2 ^ 32) (Nat.shiftRight_eq_div_pow _ 96)
  case complete =>
    obtain ⟨hrest, hwrites, hhead, hst, hbusy, hmsix⟩ := State.copyEnd_effect f c rest hup hstatus
    exact ⟨_, copyDescriptorComplete_does hf hc hup hchan hleft, hrest, ⟨_, hwrites, rfl⟩, hhead, hst, hbusy, hmsix⟩
  case vector =>
    refine ⟨_, hstMsixRaise_does hopen hf hvec, fun h => ?_, fun hlo hmay => State.msixRaise_raises hlo hvec hmay⟩
    rw [State.msixRaise_rejects h]
    exact ⟨s.bit_setBit_same _ _ _ (by decide), rfl⟩

end Sys2Proof.Machine
end

section
/-! PROOFS. The token counters (R189, R190): where the model's TK.SET departs from its statement. The increments of a tile cycle are added to the value
that a TK.SET of the same cycle writes, as R189 orders them. -/

namespace Sys2Proof.Machine

/-- TK.SET k2, 9. -/
def tkSetWord : Nat := 0x920072

/-- A module whose wings run, with core 0 of site 0 RUNNING at a TK.SET of counter 2. In this tile cycle a token has come for the counter. -/
def settingRaisedToken : State :=
  ((State.reset.setReg R.CLK_WING_RUN 0xFFFF).setTreg 0 R.TILE_STATE 1).modSite 0 fun x =>
    { x with prog := [(0, BitVec.ofNat 32 tkSetWord)], tokIn := [(2, 1)] }

theorem settingRaisedToken_issues :
    Issues settingRaisedToken 0 0 (.word (BitVec.ofNat 64 tkSetWord)) tkSetOp tkSetWord (settingRaisedToken.settle 0 0) where
  may := by decide +kernel
  fetched := rfl
  legal := by decide
  covered := by decide
  guarded := by decide +kernel
  written := rfl
  ready := by decide +kernel

/-- Refutes O21: its clause about TK.SET asks that the counter take the operand alone. An increment of the same tile cycle is added to it (R189), so
the counter ends at 10 where the clause asks for 9. -/
theorem not_tokenAndDescriptorOps : ¬ Obligations.TokenAndDescriptorOps := by
  unfold Obligations.TokenAndDescriptorOps
  rintro ⟨⟨hset, -⟩, -⟩
  obtain ⟨-, -, hexec⟩ := hset 0 0 tkSetWord _ _ _ settingRaisedToken_issues
  rw [exec_of_issues (fun _ _ _ _ => rfl) settingRaisedToken_issues] at hexec
  injection hexec with hstate
  have htoken := congrArg (fun u => u.token 0 2) hstate
  exact absurd htoken (by decide +kernel)

end Sys2Proof.Machine
end

section
/-! PROOFS. Reads of a sparse map of which some keys were taken out, and of a field inside one that was written. -/

namespace Sys2Proof.Machine

theorem Map.get_filter {α : Type} (d : Nat → α) (keep : Nat → Bool) (m : List (Nat × α)) (k : Nat) :
    Map.get d (m.filter fun e => keep e.1) k = if keep k then Map.get d m k else d k := by
  induction m with
  | nil => exact (ite_self _).symm
  | cons e m ih =>
    by_cases hkeep : keep e.1 = true <;> by_cases hk : e.1 = k
    · subst hk
      rw [List.filter_cons, if_pos hkeep, if_pos hkeep, Map.get, Map.get, if_pos rfl, if_pos rfl]
    · rw [List.filter_cons, if_pos hkeep, Map.get, Map.get, if_neg hk, if_neg hk, ih]
    · subst hk
      rw [List.filter_cons, if_neg hkeep, ih, if_neg hkeep, if_neg hkeep]
    · rw [List.filter_cons, if_neg hkeep, ih, Map.get, if_neg hk]

theorem Map.get_clearRange_inside {α : Type} (d : Nat → α) {lo hi k : Nat} (m : List (Nat × α)) (h : lo ≤ k) (h' : k < hi) :
    Map.get d (Map.clearRange lo hi m) k = d k :=
  (Map.get_filter d (fun j => decide (j < lo) || decide (hi ≤ j)) m k).trans (if_neg (by simp; omega))

theorem Map.get_clearRange_outside {α : Type} (d : Nat → α) {lo hi k : Nat} (m : List (Nat × α)) (h : k < lo ∨ hi ≤ k) :
    Map.get d (Map.clearRange lo hi m) k = Map.get d m k :=
  (Map.get_filter d (fun j => decide (j < lo) || decide (hi ≤ j)) m k).trans (if_pos (by simpa using h))

/-- A field that lies within the one written. -/
theorem getBits_putBits_within (v : BitVec 32) {hi lo hi' lo' : Nat} (n : Nat) (hl : lo ≤ lo') (hl' : lo' ≤ hi') (hh : hi' ≤ hi)
    (hw : hi < 32) : getBits (putBits v hi lo n) hi' lo' = n / 2 ^ (lo' - lo) % 2 ^ (hi' - lo' + 1) := by
  refine Nat.eq_of_testBit_eq fun i => ?_
  rw [testBit_getBits, Nat.testBit_mod_two_pow]
  by_cases hi : i < hi' - lo' + 1
  · rw [getLsbD_putBits _ _ _ _ _ (by omega), if_pos (by omega), Nat.testBit_div_two_pow]
    congr 2
    omega
  · simp [hi]

end Sys2Proof.Machine
end

section
/-! PROOFS. The reset of a site (R385): its queues close and its cores stop, its work is discarded, and no other site changes. -/

namespace Sys2Proof.Machine

/-- R385: what comes first: the site answers the messages that it holds, closes its queues and its concord slots, and stops its cores. -/
def State.windDown (s : State) (t : Nat) : State := (((s.dropConc t).closeQueues t).concReset t).stopCores t

/-- R386: a site is busy once what it held was wound down and discarded. -/
theorem State.resetBegin_eq (s : State) (t : Nat) (net : Bool) : s.resetBegin t net =
    (((s.windDown t).modSite t (·.cleared net)).setTbit t R.VIT_SEG_STATE 24 false).setTbit t R.TILE_RESET 31 true := rfl

/-- R385: the cores of a site stop by changes of their states and by what debug control forgets of them. -/
theorem State.stopCores_leaves {β : Type} (s : State) (t : Nat) (view : State → β) (hstate : ∀ u c, view (u.setCoreState t c 0) = view u)
    (hdebug : ∀ u k, view (u.dbgForget k) = view u) (hwhole : ∀ u n, view (u.setTfld t R.TILE_STATE 15 0 n) = view u) :
    view (s.stopCores t) = view s := by
  unfold State.stopCores
  extract_lets stopped forgotten
  calc view (forgotten.setTfld t R.TILE_STATE 15 0 (tileStateReset (kindOf t)))
    _ = view forgotten := hwhole _ _
    _ = view stopped := foldl_leaves view (fun u c => hdebug u (coreId t c)) _ stopped
    _ = view s := foldl_leaves view hstate _ s

/-! ### Other sites -/

section
variable (s : State) {t x : Nat} (h : x ≠ t)
include h

theorem State.site_countStatus_other (status : Nat) : (s.countStatus t status).site x = s.site x := by
  unfold State.countStatus
  split
  · exact s.site_modSite_other _ h
  · exact s.site_modSite_other _ h
  · rfl

theorem State.site_answer_other (p : Packet) (status : Nat) (data : List (BitVec 8)) : (s.answer p t status data).site x = s.site x := by
  rcases s.answer_cases p t status data with ⟨f, hf, -⟩ | hlost
  · rw [hf]; rfl
  · rw [hlost, State.answerLost, State.site_setTbit_other _ _ _ _ h]
    exact s.site_modSite_other _ h

theorem State.site_closedAnswer_other (p : Packet) : ((s.countStatus t 2).answer p t 2 []).site x = s.site x :=
  (State.site_answer_other _ h p 2 []).trans (s.site_countStatus_other h 2)

theorem State.site_emptyRing_other (q : Nat) : (s.emptyRing t q).site x = s.site x := by
  unfold State.emptyRing
  extract_lets mine dropped answered
  rw [State.site_modSite_other _ _ h, State.site_setRing_other _ _ _ h]
  exact foldl_leaves (·.site x) (fun u v => u.site_closedAnswer_other h v.pkt) mine dropped

theorem State.site_dropConc_other : (s.dropConc t).site x = s.site x :=
  foldl_leaves (·.site x) (fun u p => by split <;> [rfl; exact u.site_closedAnswer_other h p]) _ s

theorem State.site_closeQueues_other : (s.closeQueues t).site x = s.site x :=
  foldl_leaves (·.site x)
    (fun u q => by split <;> [rfl; exact (State.site_modSite_other _ _ h).trans (u.site_emptyRing_other h q)]) _ s

theorem State.site_concReset_other : (s.concReset t).site x = s.site x := by
  unfold State.concReset
  extract_lets v
  have hslots : ∀ (u : State) (n : Nat), (u.setTfld t (R.CONC_STATE n) 29 28 (if u.concC t n == 0 then 0 else 1)).site x = u.site x :=
    fun u n => u.site_modSite_other _ h
  exact (foldl_leaves (·.site x) hslots _ v).trans (s.site_modSite_other _ h)

theorem State.site_stopCores_other : (s.stopCores t).site x = s.site x :=
  s.stopCores_leaves t (·.site x) (fun u c => u.site_setCoreState_other t c 0 h) (fun _ _ => rfl) fun u _ => u.site_modSite_other _ h

theorem State.site_resetBegin_other (net : Bool) : (s.resetBegin t net).site x = s.site x := by
  rw [State.resetBegin_eq, State.site_setTbit_other _ _ _ _ h, State.site_setTbit_other _ _ _ _ h, State.site_modSite_other _ _ h,
    State.windDown, State.site_stopCores_other _ h, State.site_concReset_other _ h, State.site_closeQueues_other _ h,
    State.site_dropConc_other _ h]

end

/-! ### The vitrine is kept -/

section
variable (s : State) (t : Nat)

theorem vit_of_beyondCores {u : State} (h : u.beyondCores t = s.beyondCores t) : (u.site t).vit = (s.site t).vit := (congrArg Site.vit h :)

theorem State.beyondCores_closedAnswer (p : Packet) (x : Nat) : ((s.countStatus t 2).answer p t 2 []).beyondCores x = s.beyondCores x :=
  (State.beyondCores_answer _ p t 2 [] x).trans (s.beyondCores_setTreg t _ x _)

theorem State.vit_dropConc : ((s.dropConc t).site t).vit = (s.site t).vit :=
  vit_of_beyondCores s t
    (foldl_leaves (·.beyondCores t) (fun u p => by split <;> [rfl; exact u.beyondCores_closedAnswer t p t]) _ s)

theorem State.vit_emptyRing (q : Nat) : ((s.emptyRing t q).site t).vit = (s.site t).vit := by
  unfold State.emptyRing
  extract_lets mine dropped answered
  have hanswered : answered.beyondCores t = s.beyondCores t :=
    foldl_leaves (·.beyondCores t) (fun u v => u.beyondCores_closedAnswer t v.pkt t) mine dropped
  rw [State.site_modSite_same, ← vit_of_beyondCores s t hanswered]
  dsimp only
  rw [State.setRing, vit_of_beyondCores _ t (State.beyondCores_setTfld _ _ _ _ _ _ _), State.site_modSite_same]

theorem State.vit_closeQueues : ((s.closeQueues t).site t).vit = (s.site t).vit :=
  foldl_leaves (fun u => (u.site t).vit)
    (fun u q => by
      split
      · rfl
      · exact (vit_of_beyondCores _ t (State.beyondCores_setTfld _ _ _ _ _ _ _)).trans (u.vit_emptyRing t q)) _ s

theorem State.vit_concReset : ((s.concReset t).site t).vit = (s.site t).vit := by
  unfold State.concReset
  extract_lets v
  rw [vit_of_beyondCores v t (foldl_leaves (·.beyondCores t) (fun u n => u.beyondCores_setTfld t _ _ _ _ t) _ v)]
  simp only [v, State.site_modSite_same]

theorem State.beyondCores_stopCores : (s.stopCores t).beyondCores t = s.beyondCores t :=
  s.stopCores_leaves t (·.beyondCores t) (fun u c => u.beyondCores_setCoreState t c 0 t) (fun _ _ => rfl)
    fun u n => u.beyondCores_setTfld t _ 15 0 n t

theorem State.vit_windDown : ((s.windDown t).site t).vit = (s.site t).vit := by
  rw [State.windDown, vit_of_beyondCores _ t (State.beyondCores_stopCores _ t), State.vit_concReset, State.vit_closeQueues, State.vit_dropConc]

end

/-! ### Cores stop (R149, R152) -/

/-- R152: the reset value of TILE_STATE says STOPPED of the cores of a site's kind and ABSENT of the others, with every event flag 0. -/
theorem tileStateReset_core (k : TileKind) : ∀ c < 4,
    tileStateReset k / 2 ^ (4 * c) % 8 = (if c < k.cores then 0 else 7) ∧ (tileStateReset k).testBit (4 * c + 3) = false := by
  cases k <;> decide

section
variable (s : State) (t : Nat)

theorem State.treg_stopCores_same : ∃ v, (s.stopCores t).treg t R.TILE_STATE = putBits v 15 0 (tileStateReset (kindOf t)) :=
  ⟨_, State.treg_setTreg_same _ _ _ _⟩

theorem State.coreState_stopCores {c : Nat} (hc : c < 4) : (s.stopCores t).coreState t c = if c < (kindOf t).cores then 0 else 7 := by
  obtain ⟨v, hv⟩ := s.treg_stopCores_same t
  rw [State.coreState, State.tfld, hv, getBits_putBits_within _ _ (by omega) (by omega) (by omega) (by omega),
    ← (tileStateReset_core (kindOf t) c hc).1, show 4 * c + 2 - 4 * c + 1 = 3 by omega]
  rfl

theorem State.event_stopCores {c : Nat} (hc : c < 4) : (s.stopCores t).event t c = false := by
  obtain ⟨v, hv⟩ := s.treg_stopCores_same t
  rw [State.event, State.tbit, hv, getLsbD_putBits _ _ _ _ _ (by omega), if_pos (by omega)]
  exact (tileStateReset_core (kindOf t) c hc).2

theorem State.treg_stopCores_ne {a : Nat} (h : a ≠ R.TILE_STATE) : (s.stopCores t).treg t a = s.treg t a :=
  s.stopCores_leaves t (·.treg t a) (fun u c => u.treg_setCoreState_ne t c 0 (.inr h)) (fun _ _ => rfl)
    fun u n => u.treg_setTfld_ne 15 0 n (.inr h)

end

/-! ### Queues close (R279) -/

section
variable (s : State) (t : Nat)

/-- R279: a queue that is defined closes; one that is not stays undefined. -/
def State.closeQueue (q : Nat) : State := if s.qState t q == 0 then s else (s.emptyRing t q).queueClose t q

theorem State.qState_closeQueue_same (q : Nat) : (s.closeQueue t q).qState t q ≠ 1 := by
  unfold State.closeQueue
  split
  · next h => rw [beq_iff_eq.mp h]; decide
  · rw [State.qState_queueClose]; decide

theorem State.qState_closeQueue_other {q r : Nat} (h : r ≠ q) : (s.closeQueue t q).qState t r = s.qState t r := by
  unfold State.closeQueue
  split
  · rfl
  · rw [State.qState_queueClose_other _ _ _ h]
    exact State.qState_congr (s.treg_emptyRing t q (by simp only [R.NET_Q_STATE]; omega) (queueState_injective h))

theorem State.qState_closeQueues {q : Nat} (hq : q < 64) : (s.closeQueues t).qState t q ≠ 1 := by
  refine foldl_establishes (P := fun u => u.qState t q ≠ 1) (List.mem_range.mpr hq) (fun u => u.qState_closeQueue_same t q)
    (fun u r hu => ?_) s
  by_cases h : q = r
  · exact h ▸ u.qState_closeQueue_same t q
  · exact (u.qState_closeQueue_other t h).symm ▸ hu

theorem concState_ne_queueState (n q : Nat) : R.NET_Q_STATE q ≠ R.CONC_STATE n := by
  simp only [R.NET_Q_STATE, R.CONC_STATE]; omega

theorem State.qState_concReset (q : Nat) : (s.concReset t).qState t q = s.qState t q := by
  unfold State.concReset
  extract_lets v
  have hv : v.treg t (R.NET_Q_STATE q) = s.treg t (R.NET_Q_STATE q) := by simp only [v, State.treg, State.site_modSite_same]
  exact State.qState_congr <| (foldl_leaves (·.treg t (R.NET_Q_STATE q))
    (fun u n => u.treg_setTfld_ne _ _ _ (.inr (concState_ne_queueState n q))) _ v).trans hv

theorem State.qState_windDown {q : Nat} (hq : q < 64) : (s.windDown t).qState t q ≠ 1 := by
  have hstop : ∀ u : State, (u.stopCores t).qState t q = u.qState t q := fun u =>
    State.qState_congr (u.treg_stopCores_ne t (queueState_ne q (by decide)).symm)
  rw [State.windDown, hstop, State.qState_concReset]
  exact State.qState_closeQueues _ t hq

end

/-! ### The work of the site is discarded (R385) -/

section
variable (s : State) (t : Nat) (net : Bool)

theorem keptByReset_tileState : keptByReset net R.TILE_STATE = true := by cases net <;> decide

theorem keptByReset_queueState (q : Nat) : keptByReset net (R.NET_Q_STATE q) = true := by
  have hhigh : 0x1000 ≤ R.NET_Q_STATE q := Nat.le_add_right _ _
  have hnet : R.NET_Q_STATE q ∉ netRegs := fun h => absurd ((show ∀ a ∈ netRegs, a < 0x1000 by decide) _ h) (Nat.not_lt.mpr hhigh)
  have hlow {b : Nat} (hb : b ≤ 0x1000) : ¬R.NET_Q_STATE q < b := Nat.not_lt.mpr (hb.trans hhigh)
  rw [keptByReset, if_neg (hlow (by decide)), if_neg (hlow (by decide)), if_neg (hlow (by decide)), if_neg (hlow (by decide))]
  simp [hnet]

theorem State.treg_cleared {a : Nat} (h : keptByReset net a = true) : (s.modSite t (·.cleared net)).treg t a = s.treg t a := by
  rw [State.treg, State.site_modSite_same]
  exact (Map.get_filter _ (keptByReset net) _ a).trans (if_pos h)

theorem State.treg_resetBegin {a : Nat} (hkept : keptByReset net a = true) (hseg : a ≠ R.VIT_SEG_STATE) (hreset : a ≠ R.TILE_RESET) :
    (s.resetBegin t net).treg t a = (s.windDown t).treg t a := by
  rw [State.resetBegin_eq, State.setTbit, State.treg_setTfld_ne _ _ _ _ (.inr hreset), State.setTbit, State.treg_setTfld_ne _ _ _ _ (.inr hseg),
    State.treg_cleared _ _ _ hkept]

/-- R386: the site is busy. -/
theorem State.busy_resetBegin : (s.resetBegin t net).tbit t R.TILE_RESET 31 = true := State.tbit_setTbit_same _ _ _ _ _ (by decide)

theorem State.treg_tileState_resetBegin : (s.resetBegin t net).treg t R.TILE_STATE = (s.windDown t).treg t R.TILE_STATE :=
  s.treg_resetBegin t net (keptByReset_tileState net) (by decide) (by decide)

theorem State.coreState_resetBegin {c : Nat} (hc : c < 4) : (s.resetBegin t net).coreState t c = if c < (kindOf t).cores then 0 else 7 :=
  (State.coreState_congr (s.treg_tileState_resetBegin t net) c).trans (State.coreState_stopCores _ t hc)

theorem State.event_resetBegin {c : Nat} (hc : c < 4) : (s.resetBegin t net).event t c = false := by
  rw [State.event, State.tbit, State.treg_tileState_resetBegin]
  exact State.event_stopCores _ t hc

theorem State.qState_resetBegin {q : Nat} (hq : q < 64) : (s.resetBegin t net).qState t q ≠ 1 := by
  rw [State.qState_congr (s.treg_resetBegin t net (keptByReset_queueState net q) (queueState_ne q (by decide)).symm
    (queueState_ne q (by decide)).symm)]
  exact s.qState_windDown t hq

theorem State.beyondCores_resetBegin : (s.resetBegin t net).beyondCores t =
    { ((s.windDown t).site t).cleared net with regs := [], loHeld := [], qwin := [], cores := [] } := by
  rw [State.resetBegin_eq, State.beyondCores_setTbit, State.beyondCores_setTbit, State.beyondCores, State.beyondRegs, State.site_modSite_same]

/-- R385: the engines, the array and the accumulators are empty, and the vitrine keeps its contents. -/
theorem State.discarded_resetBegin : (∀ e, ((s.resetBegin t net).site t).queue e = [] ∧ ((s.resetBegin t net).site t).issued e = []) ∧
    ((s.resetBegin t net).arr t).passes = [] ∧ ((s.resetBegin t net).site t).acc = [] ∧ ((s.resetBegin t net).site t).drains = [] ∧
    ((s.resetBegin t net).site t).vit = (s.site t).vit := by
  have h := s.beyondCores_resetBegin t net
  have hvit : ((s.resetBegin t net).site t).vit = ((s.windDown t).site t).vit := (congrArg Site.vit h :)
  refine ⟨fun e => ?engines, (congrArg (·.arr.passes) h :), (congrArg Site.acc h :), (congrArg Site.drains h :), hvit.trans (s.vit_windDown t)⟩
  case engines =>
    cases e with
    | fetch => exact ⟨(congrArg Site.fetchQ h :), (congrArg Site.fetchOn h :)⟩
    | compute => exact ⟨(congrArg Site.computeQ h :), (congrArg Site.computeOn h :)⟩
    | drain => exact ⟨(congrArg Site.drainQ h :), (congrArg Site.drainOn h :)⟩

end

/-! ### TILE_RESET (R386) -/

section
variable {s : State} {t : Nat}

theorem State.tileReset_rejects (h : kindOf t = .mi ∨ s.siteBusy t = true) : s.tileReset t = s.setTbit t R.TILE_RESET 30 true :=
  if_pos (by rcases h with h | h <;> simp [h])

theorem State.tileReset_begins (hk : kindOf t ≠ .mi) (h : s.siteBusy t = false) : s.tileReset t = s.resetBegin t true :=
  if_neg (by simp [hk, h])

theorem tileResetDone_does (h : s.tbit t R.TILE_RESET 31 = true) : Does (.tileResetDone t) s (s.setTbit t R.TILE_RESET 31 false) := by
  rw [Does, exec_tileResetDone, execTileResetDone, when_true h]

end

end Sys2Proof.Machine
end

section
/-! PROOFS. The reset of a partition (R387): when it is accepted, and what it leaves at its moment. -/

namespace Sys2Proof.Machine

/-! ### PARTITION_RESET -/

/-- R387: the agents that may ask for the reset of a partition: the host, and the partition itself by a core or a VF. -/
def State.MayAskReset (s : State) (a : Agent) (p : Nat) : Prop :=
  a = .host ∨ a = .pf1 ∨ (∃ t c, a = .core t c ∧ s.partOf t = some p) ∨ ∃ k, a = .vf k ∧ s.vfPart k = some p

/-- R387: the reset of a partition is accepted. -/
def State.MayReset (s : State) (m : Image) (a : Agent) (p : Nat) : Prop :=
  p ∈ m.partitions ∧ s.MayAskReset a p ∧ s.bit R.CUR_PART_RESET_STATUS 31 = false ∧ s.swapping = false ∧ s.scrubbing p = false

/-- R387: the reset is accepted for the moment n. -/
def State.resetChosen (s : State) (p n : Nat) (outside : Bool) : State :=
  let c := { s.cur with resetAtP := some (p, n), resetSites := [], resetOutside := outside }
  (({ s with cur := c }.freed).setFld R.CUR_PART_RESET_STATUS 7 0 p).setBit R.CUR_PART_RESET_STATUS 31 true

theorem State.resetChosen_effect (s : State) {p : Nat} (n : Nat) (outside : Bool) (hp : p < 256) : let u := s.resetChosen p n outside
    u.bit R.CUR_PART_RESET_STATUS 31 = true ∧ u.fld R.CUR_PART_RESET_STATUS 7 0 = p ∧ u.sites = s.sites ∧ u.cur.resetOutside = outside ∧
      u.cur.resetAtP = some (p, n) := by
  refine ⟨State.bit_setBit_same _ _ _ _ (by decide), ?_, rfl, rfl, rfl⟩
  rw [State.resetChosen, State.fld_setBit_other _ _ _ _ _ _ (.inl (by decide)) (by decide), State.fld_setFld_same _ _ _ _ _ (by decide) (by decide)]
  exact Nat.mod_eq_of_lt hp

/-- R387: the moment lies at least 4 us ahead. That it lies below TIME + 18,000 is a choice of the model (log entry 18). -/
theorem State.partReset_cases {s : State} {m : Image} (a : Agent) (p : Nat) (hm : s.fab.active = some m) :
    (¬s.MayReset m a p → s.partReset a p = s.setBit R.CUR_PART_RESET_STATUS 30 true) ∧
    (s.MayReset m a p → ∃ n outside, s.partReset a p = s.resetChosen p n outside ∧ (outside = false ↔ ∃ t c, a = .core t c) ∧
      s.time + 4000 ≤ n ∧ n < s.time + 18000) := by
  unfold State.partReset
  extract_lets there from_ outside at_ c
  have hthere : there = true ↔ p ∈ m.partitions := by simp [there, hm]
  have hfrom : from_ = true ↔ s.MayAskReset a p := by cases a <;> simp [from_, State.MayAskReset]
  have houtside : outside = false ↔ ∃ t c, a = .core t c := by cases a <;> simp [outside]
  have hcond : (!there || !from_ || s.bit R.CUR_PART_RESET_STATUS 31 || s.bit R.FAB_STATUS 6 || s.scrubbing p) = false ↔ s.MayReset m a p := by
    simp [State.MayReset, State.swapping, ← hthere, ← hfrom, and_assoc]
  have hbound : at_ < s.time + 18000 := by
    have := Nat.mod_lt s.free.toNat (show 14000 > 0 by decide)
    simp only [at_]
    omega
  exact ⟨fun h => if_pos (Bool.eq_true_of_not_eq_false (mt hcond.mp h)),
    fun h => ⟨at_, outside, if_neg (Bool.not_eq_true _ ▸ hcond.mpr h), houtside, by simp only [at_]; omega, hbound⟩⟩

theorem partitionReset_does {s : State} {a : Agent} {p : Nat} (h : s.Granted a R.CUR_PART_RESET) (hp : p < 256) :
    Does (.partitionReset a p) s (s.partReset a p) := by
  rw [Does, exec_partitionReset, execPartitionReset, Nat.mod_eq_of_lt hp, devWrite_granted h]

/-! ### What the partition-level changes leave (R385) -/

section
variable (s : State) (t : Nat)

theorem State.treg_closeWindow (w a : Nat) : (s.closeWindow w).treg t a = s.treg t a := by
  unfold State.closeWindow
  dsimp only
  split <;> rfl

theorem State.treg_endStall (x c a : Nat) : (s.endStall x c).treg t a = s.treg t a := by
  by_cases h : t = x
  · subst h
    simp only [State.endStall, State.treg, State.site_modSite_same]
  · simp only [State.endStall, State.treg, State.site_modSite_other _ _ h]

/-- R300: besides the network a reset of a context writes the synchronisation registers alone. -/
theorem State.treg_snReset (c : Nat) {a : Nat} (h : a < 0x1400) : (s.snReset c).treg t a = s.treg t a := by
  have hne : a ≠ R.NET_SYNC_CTX c := by simp only [R.NET_SYNC_CTX]; omega
  unfold State.snReset
  extract_lets v
  split
  · rfl
  · exact foldl_leaves (·.treg t a) (fun u x => (State.treg_endStall _ t x c a).trans (u.treg_setTreg_other _ (.inr hne))) _ v

theorem State.treg_mendPairs (p a : Nat) : (s.mendPairs p).treg t a = s.treg t a := rfl

theorem State.treg_resetPartition (p : Nat) {a : Nat} (h : a < 0x1400) : (s.resetPartition p).treg t a = s.treg t a := by
  unfold State.resetPartition
  extract_lets closed quiet disarmed mended
  have hclosed : closed.treg t a = s.treg t a := foldl_leaves (·.treg t a) (fun u w => u.treg_closeWindow t w a) _ s
  have hquiet : quiet.treg t a = closed.treg t a := by
    simp only [quiet]
    split
    · exact foldl_leaves (·.treg t a) (fun u c => by split <;> [exact u.treg_snReset t c h; rfl]) _ closed
    · rfl
  have hdisarmed : disarmed.treg t a = quiet.treg t a := foldl_leaves (·.treg t a) (fun u n => by split <;> rfl) _ quiet
  have hmended : mended.treg t a = disarmed.treg t a := disarmed.treg_mendPairs t p a
  rw [State.setBit, State.setFld, State.treg_setReg, hmended, hdisarmed, hquiet, hclosed]

theorem State.partFailed_resetPartition (p : Nat) : (s.resetPartition p).bit (R.SEC_PART_FAILED (p / 32)) (p % 32) = false :=
  State.bit_setBit_same _ _ _ _ (Nat.mod_lt _ (by decide))

theorem State.treg_tdiErrors (p a : Nat) : (s.tdiErrors p).treg t a = s.treg t a :=
  foldl_leaves (·.treg t a) (fun u k => by split <;> rfl) _ s

/-- R418: TDIs that enter ERROR change the registers of their bindings alone. -/
theorem State.partFailed_tdiErrors (p q i : Nat) : (s.tdiErrors p).bit (R.SEC_PART_FAILED q) i = s.bit (R.SEC_PART_FAILED q) i := by
  refine List.foldlRecOn (motive := fun u : State => u.bit (R.SEC_PART_FAILED q) i = s.bit (R.SEC_PART_FAILED q) i) _ _ rfl fun u hu k hk => ?_
  have hlt : k < 64 := List.mem_range.mp (List.mem_filter.mp hk).1
  have hne : R.SEC_PART_FAILED q ≠ R.HST_VF_BIND k := by simp only [R.SEC_PART_FAILED, R.HST_VF_BIND]; omega
  split
  · rw [State.setTdi, State.bit_setFld_ne _ _ _ _ _ hne, hu]
  · exact hu

end

/-! ### PARTITION_RESET_AT_P and PARTITION_RESET_DONE -/

section
variable (s : State) (p : Nat)

/-- R387: the sites that the reset takes in. That it passes over a site under test is a choice of the model (log entry 19). -/
def State.sitesToReset : List Nat := (s.sitesOf p).filter fun t => s.tfld t R.TILE_IFT_STATUS 31 30 != 2

/-- The sites of the list are reset. -/
def State.resetSites (ts : List Nat) : State := ts.foldl (fun s t => s.resetBegin t false) s

/-- R387: the reset takes place. -/
def State.partitionIsReset : State :=
  let u := (s.resetSites (s.sitesToReset p)).resetPartition p
  let u := if s.cur.resetOutside then u.tdiErrors p else u
  { u with cur := { u.cur with resetAtP := none, resetSites := s.sitesToReset p } }

theorem State.treg_partitionIsReset (t : Nat) {a : Nat} (h : a < 0x1400) :
    (s.partitionIsReset p).treg t a = (s.resetSites (s.sitesToReset p)).treg t a := by
  unfold State.partitionIsReset
  extract_lets reset both
  have hboth : both.treg t a = reset.treg t a := by
    simp only [both]
    split
    · exact reset.treg_tdiErrors t p a
    · rfl
  exact hboth.trans (State.treg_resetPartition _ t p h)

theorem State.partFailed_partitionIsReset : (s.partitionIsReset p).bit (R.SEC_PART_FAILED (p / 32)) (p % 32) = false := by
  unfold State.partitionIsReset
  extract_lets reset both
  have hboth : both.bit (R.SEC_PART_FAILED (p / 32)) (p % 32) = reset.bit (R.SEC_PART_FAILED (p / 32)) (p % 32) := by
    simp only [both]
    split
    · exact reset.partFailed_tdiErrors p _ _
    · rfl
  exact hboth.trans (State.partFailed_resetPartition _ p)

variable {t : Nat}

/-- R386: a site in its reset is busy, with every core STOPPED. -/
def State.InReset (t : Nat) : Prop := s.tbit t R.TILE_RESET 31 = true ∧ ∀ c, c < (kindOf t).cores → s.coreState t c = 0

theorem State.inReset_resetBegin_same (t : Nat) (net : Bool) : (s.resetBegin t net).InReset t := by
  refine ⟨s.busy_resetBegin t net, fun c hc => ?_⟩
  have hc4 : c < 4 := Nat.lt_of_lt_of_le hc (by cases kindOf t <;> decide)
  rw [State.coreState_resetBegin _ _ _ hc4, if_pos hc]

theorem State.InReset.congr {s u : State} (h : s.InReset t) (hu : ∀ a < 0x1400, u.treg t a = s.treg t a) : u.InReset t := by
  obtain ⟨hbusy, hstopped⟩ := h
  refine ⟨?_, fun c hc => (State.coreState_congr (hu _ (by decide)) c).trans (hstopped c hc)⟩
  rw [State.tbit, hu _ (by decide)]
  exact hbusy

theorem State.inReset_resetSites {ts : List Nat} (h : t ∈ ts) : (s.resetSites ts).InReset t := by
  refine foldl_establishes (P := (·.InReset t)) (f := fun s t => s.resetBegin t false) h
    (fun u => u.inReset_resetBegin_same t false) (fun u x hu => ?_) s
  by_cases hx : t = x
  · exact hx ▸ u.inReset_resetBegin_same t false
  · exact hu.congr fun a _ => by rw [State.treg, u.site_resetBegin_other hx, State.treg]

theorem State.inReset_partitionIsReset (h : t ∈ s.sitesToReset p) : (s.partitionIsReset p).InReset t :=
  (s.inReset_resetSites h).congr fun _ ha => s.treg_partitionIsReset p t ha

end

theorem partitionResetAtP_does {s : State} {p n : Nat} (h : s.cur.resetAtP = some (p, n)) (hn : n ≤ s.time) :
    Does .partitionResetAtP s (s.partitionIsReset p) := by
  rw [Does, exec_partitionResetAtP, execPartitionResetAtP, h]
  exact when_true (decide_eq_true hn)

theorem partitionResetDone_does {s : State} (hbusy : s.bit R.CUR_PART_RESET_STATUS 31 = true) (hnone : s.cur.resetAtP = none)
    (hsites : ∀ t ∈ s.cur.resetSites, s.tbit t R.TILE_RESET 31 = false) :
    Does .partitionResetDone s ({ s with cur := { s.cur with resetSites := [] } }.setBit R.CUR_PART_RESET_STATUS 31 false) := by
  rw [Does, exec_partitionResetDone, execPartitionResetDone]
  refine when_true ?_
  rw [hbusy, hnone, List.all_eq_true.mpr fun t ht => by rw [hsites t ht]; rfl]
  rfl

end Sys2Proof.Machine
end

section
/-! PROOFS. The division of the L2 of an S-tile (R233): when a write starts it, and what its end leaves. -/

namespace Sys2Proof.Machine

/-! ### A division starts -/

/-- R233: every core of the site is STOPPED, FAULTED or HALTED. -/
def State.CoresStill (s : State) (t : Nat) : Prop := ∀ c, c < 4 → s.coreState t c = 0 ∨ s.coreState t c = 4 ∨ s.coreState t c = 5

theorem coresStill_iff {s : State} {t : Nat} :
    (cores4.any fun c => ! [0, 4, 5].contains (s.coreState t c)) = false ↔ s.CoresStill t := by
  simp only [cores4, State.CoresStill, List.any_eq_false, List.contains_eq_mem, Bool.not_eq_true', decide_eq_false_iff_not, not_not,
    List.mem_cons, List.not_mem_nil, or_false]
  exact ⟨fun h c hc => h c (by omega), fun h c hc => h c (by omega)⟩

/-- What says how the L2 of a site is divided: its registers and the division in progress. -/
def State.division (s : State) (t : Nat) : List (Nat × BitVec 32) × Option Nat := ((s.site t).regs, (s.site t).l2End)

section
variable {s u : State} {t : Nat} (h : u.division t = s.division t)
include h

theorem treg_of_division (a : Nat) : u.treg t a = s.treg t a := by
  rw [State.treg, show (u.site t).regs = (s.site t).regs from congrArg Prod.fst h, State.treg]

theorem l2End_of_division : (u.site t).l2End = (s.site t).l2End := congrArg Prod.snd h

end

section
variable (s : State) (t : Nat)

theorem State.division_modSite {f : Site → Site} (hregs : ∀ x, (f x).regs = x.regs) (hend : ∀ x, (f x).l2End = x.l2End) :
    (s.modSite t f).division t = s.division t := by
  rw [State.division, State.site_modSite_same, hregs, hend, State.division]

theorem State.division_modCore (c : Nat) (f : Core → Core) : (s.modCore t c f).division t = s.division t :=
  s.division_modSite t (fun _ => rfl) fun _ => rfl

theorem State.division_lower (l : CLine) : (s.lower t l).division t = s.division t := by
  unfold State.lower
  split <;> exact s.division_modSite t (fun _ => rfl) fun _ => rfl

theorem State.division_syncLine (a : Nat) : (s.syncLine t a).division t = s.division t := by
  refine foldl_leaves (·.division t) (fun u c => ?_) _ s
  split
  · split
    · exact (State.division_modCore _ t c _).trans (u.division_lower t _)
    · rfl
  · rfl

theorem State.division_post (origin : Nat) (agent : Agent) (h : Hdr) (data : List (BitVec 8)) (user : NetUser) :
    (s.post origin agent h data user).division t = s.division t := rfl

theorem State.division_spill (l : CLine) : (s.spill t l).division t = s.division t := by
  unfold State.spill
  split
  · rfl
  · extract_lets h
    rw [State.division_post]
    exact s.division_modSite t (fun _ => rfl) fun _ => rfl

theorem State.division_discardL1 (a : Nat) (cs : List Nat) (code : Bool) : (s.discardL1 t a cs code).division t = s.division t :=
  foldl_leaves (·.division t) (fun u c => u.division_modCore t c _) _ s

theorem State.division_unmark (a : Nat) : (s.unmark t a).division t = s.division t := s.division_modSite t (fun _ => rfl) fun _ => rfl

/-- R227: the division stays when a line leaves the L2. -/
theorem State.division_l2Evict (k ways : Nat) : (s.l2Evict t k ways).division t = s.division t := by
  unfold State.l2Evict
  split
  · rfl
  · rename_i l _
    extract_lets synced out gone
    have hgone : gone.division t = s.division t := by
      simp only [gone]
      rw [State.division_unmark, State.division_discardL1, State.division_spill]
      exact s.division_syncLine t l.addr
    refine Eq.trans ?_ hgone
    clear_value gone
    exact gone.division_modSite t (fun _ => rfl) fun _ => rfl

theorem State.division_l2Shrink (ways : Nat) : (s.l2Shrink t ways).division t = s.division t :=
  foldl_leaves (·.division t) (fun u _ => u.division_l2Evict t _ _) _ s

/-- R233: a division into `ways` local ways is in progress, and the lines beyond those that remain have left. -/
def State.l2Dividing (ways : Nat) : State :=
  ((s.setTbit t R.S_L2_CFG 17 true).modSite t fun x => { x with l2End := some ways }).l2Shrink t ways

theorem State.l2Dividing_effect (ways : Nat) : (s.l2Dividing t ways).l2Busy t = true ∧ ((s.l2Dividing t ways).site t).l2End = some ways ∧
    (s.l2Dividing t ways).localWays t = s.localWays t := by
  have hdivision : (s.l2Dividing t ways).division t = _ := State.division_l2Shrink _ t ways
  have htreg : (s.l2Dividing t ways).treg t R.S_L2_CFG = (s.setTbit t R.S_L2_CFG 17 true).treg t R.S_L2_CFG := by
    rw [treg_of_division hdivision, State.treg, State.site_modSite_same, State.treg]
  refine ⟨?_, ?_, ?_⟩
  · rw [State.l2Busy, State.tbit, htreg]
    exact s.tbit_setTbit_same t _ _ _ (by decide)
  · rw [l2End_of_division hdivision, State.site_modSite_same]
  · rw [State.localWays, State.tfld_congr htreg, State.tfld_setTbit_other _ _ _ _ _ _ _ (.inl (by decide)) (by decide), State.localWays]

end

section
variable {s : State} {t : Nat} {w : BitVec 32} (hk : kindOf t = .s) (hw : w.getLsbD 16 = false)
include hk hw

theorem State.l2Cfg_rejects (h : ¬s.CoresStill t ∨ s.l2Busy t = true) : s.l2Cfg t w = s.setTbit t R.S_L2_CFG 16 true := by
  have hcond : ((cores4.any fun c => ! [0, 4, 5].contains (s.coreState t c)) || s.l2Busy t) = true := by
    rcases h with h | h
    · rw [Bool.eq_true_of_not_eq_false (mt coresStill_iff.mp h), Bool.true_or]
    · rw [h, Bool.or_true]
  simp only [State.l2Cfg, hk, hw, Bool.false_eq_true, if_false, ne_eq, not_true, hcond, if_true]

section
variable (hstill : s.CoresStill t) (hbusy : s.l2Busy t = false)
include hstill hbusy

theorem State.l2Cfg_keeps (h : 16 < getBits w 4 0 ∨ getBits w 4 0 = s.localWays t) : s.l2Cfg t w = s := by
  have hcond : (decide (16 < getBits w 4 0) || getBits w 4 0 == s.localWays t) = true := by simpa using h
  simp only [State.l2Cfg, hk, hw, Bool.false_eq_true, if_false, ne_eq, not_true, coresStill_iff.mpr hstill, hbusy, Bool.or_false, hcond, if_true]

theorem State.l2Cfg_divides (hways : getBits w 4 0 ≤ 16) (hne : getBits w 4 0 ≠ s.localWays t) :
    s.l2Cfg t w = s.l2Dividing t (getBits w 4 0) := by
  have hcond : (decide (16 < getBits w 4 0) || getBits w 4 0 == s.localWays t) = false := by simpa using ⟨hways, hne⟩
  simp only [State.l2Cfg, hk, hw, Bool.false_eq_true, if_false, ne_eq, not_true, coresStill_iff.mpr hstill, hbusy, Bool.or_false, hcond]
  rfl

end

end

/-! ### A division ends -/

theorem l2ReconfigDone_does {s : State} {t ways : Nat} (hend : (s.site t).l2End = some ways) (hbusy : s.l2Busy t = true)
    (hspills : (s.site t).spills = []) : Does (.l2ReconfigDone t) s (s.l2Reconfig t ways) := by
  rw [Does, exec_l2ReconfigDone, execL2ReconfigDone, hend]
  exact when_true (by rw [hbusy, hspills]; rfl)

/-- R233: the caches leave the vitrine of the site, which a division then clears between its old and its new end. -/
theorem State.l2Reconfig_effect (s : State) (t : Nat) {ways : Nat} (hways : ways ≤ 16) :
    (s.l2Reconfig t ways).localWays t = ways ∧ (s.l2Reconfig t ways).l2Busy t = false ∧ ((s.l2Reconfig t ways).site t).l2End = none ∧
    ((s.l2Reconfig t ways).site t).vit = Map.clearRange (min (s.localBytes t) (131072 * ways))
      (max (s.localBytes t) (131072 * ways)) (s.site t).vit := by
  unfold State.l2Reconfig
  extract_lets old new purged sized cleared
  have hvit : (purged.site t).vit = (s.site t).vit := by
    simp only [purged]
    split
    · exact vit_of_beyondCores s t (foldl_leaves (·.beyondCores t) (fun u c => u.beyondCores_modCore t c _ t) _ s)
    · rfl
  have htreg : cleared.treg t R.S_L2_CFG = sized.treg t R.S_L2_CFG := by
    simp only [cleared, State.treg, State.site_modSite_same]
  refine ⟨?_, State.tbit_setTbit_same _ _ _ _ _ (by decide), ?_, ?_⟩
  · rw [State.localWays, State.tfld_setTbit_other _ _ _ _ _ _ _ (.inl (by decide)) (by decide), State.tfld_congr htreg,
      State.tfld_setTfld_same _ _ _ _ _ _ (by decide) (by decide)]
    simp only [Nat.reduceSub, Nat.reduceAdd, Nat.reducePow]
    omega
  · rw [State.setTbit, State.setTfld, State.setTreg, State.site_modSite_same, State.site_modSite_same]
  · rw [State.setTbit, State.setTfld, State.setTreg, State.site_modSite_same, State.site_modSite_same, ← hvit]
    dsimp only
    rw [vit_of_beyondCores purged t (State.beyondCores_setTfld _ _ _ _ _ _ _)]

/-- Settles O48, command by command: a reset winds a site down and discards its work, at its site alone, and a division of the L2 clears what changes
hands. That a partition reset begins before TIME + 18,000 and passes over a site under test are choices of the model (log entries 18 and 19). -/
theorem resetCommands : Obligations.ResetCommands := by
  unfold Obligations.ResetCommands
  refine ⟨fun s a t h => ?tileReset, fun s t => ?resetEffect, fun s t h => ?tileDone, fun s a p m hgranted hp hm => ?partition,
    fun s p n hat hn _ => ?atP, fun s hbusy hnone hsites => ?done, fun s a t w h => ?cfg, fun s t w hk hw => ?cfgEffect,
    fun s t ways hend hbusy hspills hways => ?reconfig⟩
  case tileReset => exact tileWrite_reached h _ _
  case resetEffect =>
    refine ⟨State.tileReset_rejects, fun hk hidle => ?_⟩
    obtain ⟨hengines, hpasses, hacc, hdrains, hvit⟩ := s.discarded_resetBegin t true
    rw [State.tileReset_begins hk hidle]
    exact ⟨s.busy_resetBegin t true, fun c hc => ⟨s.coreState_resetBegin t true hc, s.event_resetBegin t true hc⟩, hengines, hpasses, hacc,
      hdrains, fun q hq => s.qState_resetBegin t true hq, hvit⟩
  case tileDone =>
    exact ⟨_, tileResetDone_does h, s.tbit_setTbit_same t _ _ _ (by decide), s.tbit_setTbit_other t _ _ _ _ (by decide),
      fun c => State.coreState_congr (s.treg_setTfld_ne _ _ _ (.inr (by decide))) c⟩
  case partition =>
    obtain ⟨hrejects, haccepts⟩ := State.partReset_cases a p hm
    refine ⟨_, partitionReset_does hgranted hp, hrejects, fun hmay => ?_⟩
    obtain ⟨n, outside, hchosen, hcore, hlo, hhi⟩ := haccepts hmay
    obtain ⟨hbusy, hpart, hsites, houtside, hat⟩ := s.resetChosen_effect n outside hp
    rw [hchosen]
    exact ⟨hbusy, hpart, hsites, houtside ▸ hcore, n, hat, hlo, hhi⟩
  case atP =>
    exact ⟨_, partitionResetAtP_does hat hn, rfl, rfl, s.partFailed_partitionIsReset p, fun t ht => s.inReset_partitionIsReset p ht⟩
  case done => exact ⟨_, partitionResetDone_does hbusy hnone hsites, State.bit_setBit_same _ _ _ _ (by decide), rfl⟩
  case cfg => exact tileWrite_reached h _ _
  case cfgEffect =>
    refine ⟨State.l2Cfg_rejects hk hw, State.l2Cfg_keeps hk hw, fun hstill hbusy hways hne => ?_⟩
    rw [State.l2Cfg_divides hk hw hstill hbusy hways hne]
    exact s.l2Dividing_effect t _
  case reconfig =>
    obtain ⟨hlocal, hidle, hended, hvit⟩ := s.l2Reconfig_effect t hways
    refine ⟨_, l2ReconfigDone_does hend hbusy hspills, hlocal, hidle, hended, fun o hlo hhi => ?_, fun o ho => ?_⟩
    · rw [Site.vitByte, hvit, Map.get_clearRange_inside _ _ hlo hhi]
    · rw [Site.vitByte, hvit, Map.get_clearRange_outside _ _ ho, Site.vitByte]

end Sys2Proof.Machine
end

section
/-! PROOFS. DRAM placement (R242, R243): the fields of a stack offset, where the blocks of a 4 KiB unit fall, and the roles of tracts. -/

namespace Sys2Proof.Machine

/-! ### The fields of a stack offset (R243) -/

theorem bankOf_eq (o : Nat) : bankOf o = o / 65536 % 32 := congrArg (· % 2 ^ 5) (Nat.shiftRight_eq_div_pow o 16)

theorem channelOf_eq (o : Nat) : channelOf o = (o / 64 % 32) ^^^ bankOf o :=
  congrArg (· % 2 ^ 5 ^^^ bankOf o) (Nat.shiftRight_eq_div_pow o 6)

theorem rowOf_eq {o : Nat} (h : o < 2 ^ 35) : rowOf o = o / 2097152 := by
  have hrow : rowOf o = o / 2097152 % 16384 := congrArg (· % 2 ^ 14) (Nat.shiftRight_eq_div_pow o 21)
  omega

theorem bankOf_lt (o : Nat) : bankOf o < 32 := by
  rw [bankOf_eq]
  exact Nat.mod_lt _ (by decide)

theorem channelOf_lt (o : Nat) : channelOf o < 32 := by
  rw [channelOf_eq]
  exact Nat.xor_lt_two_pow (n := 5) (Nat.mod_lt _ (by decide)) (bankOf_lt o)

/-- R243: the fields say which offset it is: the channel gives o[10:6] once the bank is taken out of it. -/
theorem eq_of_dramFields {o p : Nat} (ho : o < 2 ^ 35) (hp : p < 2 ^ 35) (hbyte : o % 64 = p % 64) (hblock : o / 2048 % 32 = p / 2048 % 32)
    (hchannel : channelOf o = channelOf p) (hbank : bankOf o = bankOf p) (hrow : rowOf o = rowOf p) : o = p := by
  rw [channelOf_eq, channelOf_eq, hbank, Nat.xor_left_inj] at hchannel
  rw [bankOf_eq, bankOf_eq] at hbank
  rw [rowOf_eq ho, rowOf_eq hp] at hrow
  omega

/-! ### The blocks of a 4 KiB unit -/

theorem bankOf_unitBlock (unit : Nat) {i : Nat} (hi : i < 64) : bankOf (4096 * unit + 64 * i) = bankOf (4096 * unit) := by
  rw [bankOf_eq, bankOf_eq]
  omega

theorem rowOf_unitBlock {unit i : Nat} (hunit : unit < 2 ^ 23) (hi : i < 64) : rowOf (4096 * unit + 64 * i) = rowOf (4096 * unit) := by
  rw [rowOf_eq (by omega), rowOf_eq (by omega)]
  omega

theorem channelOf_unitBlock (unit : Nat) {i : Nat} (hi : i < 64) : channelOf (4096 * unit + 64 * i) = (i % 32) ^^^ bankOf (4096 * unit) := by
  have hfield : (4096 * unit + 64 * i) / 64 % 32 = i % 32 := by omega
  rw [channelOf_eq, hfield, bankOf_unitBlock unit hi]

/-- The blocks of a unit on a channel are the two whose number is the channel XOR the bank, modulo 32. -/
theorem blocks_on_channel (unit : Nat) {ch : Nat} (hch : ch < 32) :
    ((List.range 64).filter fun i => channelOf (4096 * unit + 64 * i) == ch).length = 2 := by
  have htwo : ∀ k, k < 32 → ((List.range 64).filter fun i => i % 32 == k).length = 2 := by decide
  refine Eq.trans (congrArg List.length (List.filter_congr fun i hi => ?_))
    (htwo (ch ^^^ bankOf (4096 * unit)) (Nat.xor_lt_two_pow (n := 5) hch (bankOf_lt _)))
  rw [channelOf_unitBlock unit (List.mem_range.mp hi), Bool.eq_iff_iff, beq_iff_eq, beq_iff_eq]
  exact ⟨fun h => by rw [← h, Nat.xor_xor_cancel_right], fun h => by rw [h, Nat.xor_xor_cancel_right]⟩

/-- Settles O56: each field is a slice of the offset, the slices together are the whole of it, and within a unit only o[11:6] varies. -/
theorem dramPlacement : Obligations.DramPlacement := by
  unfold Obligations.DramPlacement
  refine ⟨fun o ho => ?fields, fun o p => eq_of_dramFields, fun unit hunit => ⟨fun i hi => ?row, fun ch => blocks_on_channel unit⟩⟩
  case fields =>
    refine ⟨bankOf_eq o ▸ channelOf_eq o, bankOf_eq o, rowOf_eq ho, channelOf_lt o, bankOf_lt o, ?_⟩
    rw [rowOf_eq ho]
    omega
  case row => exact ⟨bankOf_unitBlock unit hi, rowOf_unitBlock hunit hi⟩

/-! ### Tracts (R242) -/

section
variable {img : Option Image} {a stack band : Nat}

theorem placeOf_local (ha : a < 2 ^ 40) (h : tractRole img (a / 2 ^ 30) = (1, stack, band)) :
    placeOf img a = some (stack, gib * band + a % gib) := by
  rw [placeOf, if_neg (by rw [dramSize]; omega), gib, h]
  rfl

theorem placeOf_interleaved (ha : a < 2 ^ 40) (h : tractRole img (a / 2 ^ 30) = (2, stack, band)) :
    placeOf img a = some (a % 2 ^ 35 / 4096 % 32, gib * band + 4096 * (a % 2 ^ 35 / 4096 / 32) + a % 4096) := by
  rw [placeOf, if_neg (by rw [dramSize]; omega), gib, h]
  rfl

theorem placeOf_unmapped (ha : a < 2 ^ 40) (h : tractRole img (a / 2 ^ 30) = (0, stack, band)) : placeOf img a = none := by
  rw [placeOf, if_neg (by rw [dramSize]; omega), gib, h]
  rfl

theorem placeOf_beyond (ha : 2 ^ 40 ≤ a) : placeOf img a = none := if_pos ha

end

/-- R242: within an interleaved group the stack, the band's 4 KiB unit and the byte in it give the address back. -/
theorem placeOf_interleaved_injective {img : Option Image} {a b x y band : Nat} (ha : a < 2 ^ 40) (hb : b < 2 ^ 40)
    (hgroup : a / 2 ^ 35 = b / 2 ^ 35) (hx : tractRole img (a / 2 ^ 30) = (2, x, band)) (hy : tractRole img (b / 2 ^ 30) = (2, y, band))
    (h : placeOf img a = placeOf img b) : a = b := by
  rw [placeOf_interleaved ha hx, placeOf_interleaved hb hy, Option.some.injEq, Prod.mk.injEq] at h
  obtain ⟨hstack, hoff⟩ := h
  omega

/-- Settles O57: the place of an address by the role of its tract. The default placement is the identity on stack and offset, so it is injective as an
interleaved group is. -/
theorem tractPlacement : Obligations.TractPlacement := by
  unfold Obligations.TractPlacement
  refine ⟨fun a ha => ?default, fun img a stack band ha => ⟨fun h => ?loc, fun h => ?interleaved, placeOf_unmapped ha⟩,
    fun img a b x y band => placeOf_interleaved_injective, fun img a => placeOf_beyond⟩
  case default =>
    rw [placeOf_local ha (stack := a / 2 ^ 30 / 32) (band := a / 2 ^ 30 % 32) rfl, gib, Option.some.injEq, Prod.mk.injEq]
    constructor <;> omega
  case loc => rw [placeOf_local ha h, gib, Nat.mul_comm]
  case interleaved =>
    intro u
    have hunit : a % 2 ^ 35 / 4096 = u := by omega
    rw [placeOf_interleaved ha h, hunit, gib, Nat.mul_comm (2 ^ 30), Nat.mul_comm 4096]

end Sys2Proof.Machine
end

section
/-! PROOFS. The accesses of DRAM (R250): where the model's DRAM_READ departs from its statement. A read of a block that does not decode delivers ones
at the block's 64 bytes, and the statement, which speaks of every state, does not ask that the bytes of an access lie in its block. -/

namespace Sys2Proof.Machine

/-! ### What a part brings to its packet -/

theorem State.net_setRing (s : State) (t q : Nat) (l : List QEnt) : (s.setRing t q l).net = s.net := rfl

theorem State.net_qDrop (s : State) (t q hi lo : Nat) : (s.qDrop t q hi lo).net = s.net := rfl

theorem State.net_countStatus (s : State) (t status : Nat) : (s.countStatus t status).net = s.net := by
  unfold State.countStatus
  split <;> rfl

theorem State.serves_statusAnswer (s : State) (p : Packet) (t status : Nat) (data : List (BitVec 8)) :
    ((s.countStatus t status).answer p t status data).net.serves = s.net.serves :=
  (State.serves_answer _ p t status data).trans (congrArg Net.serves (s.net_countStatus t status))

/-- Of an access that is done no other record stays. -/
theorem State.served_of_serveDone {s : State} {v w : Serve} (hw : w ∈ (s.serveDone v).net.serves) (hid : w.id = v.id) : w = v := by
  let gone := s.modNet fun n => { n with serves := n.serves.filter fun w => w.id != v.id }
  have hgone : w ∉ gone.net.serves := fun h => by simpa [hid] using (List.mem_filter.mp h).2
  unfold State.serveDone at hw
  split at hw
  · split at hw
    · rw [State.serves_statusAnswer] at hw
      exact absurd hw hgone
    · split at hw
      · rw [State.serves_statusAnswer, foldl_leaves State.net fun u t => (State.net_qDrop _ _ _ _ _).trans (State.net_setRing _ _ _ _)] at hw
        exact absurd hw hgone
      · rw [State.modNet, List.mem_append, foldl_leaves State.net fun u t => State.net_setRing _ _ _ _] at hw
        exact List.mem_singleton.mp (hw.resolve_left hgone)
  · rw [State.serves_statusAnswer] at hw
    exact absurd hw hgone

/-- Where an access has a part brought to it and stays, its bytes end with those of the part. -/
theorem State.suffix_servePart {s : State} {id status : Nat} {data : List (Nat × BitVec 8)} {w : Serve}
    (hw : w ∈ (s.servePart id status data).net.serves) (hid : w.id = id) : data <:+ w.data := by
  unfold State.servePart at hw
  split at hw
  · rename_i hnone
    simpa [hid] using List.find?_eq_none.mp hnone w hw
  · rename_i v hfind
    have hv : v.id = id := by simpa using List.find?_some hfind
    extract_lets part at hw
    split at hw
    · rw [State.served_of_serveDone hw (hid.trans hv.symm)]
      exact List.suffix_append v.data data
    · obtain ⟨x, hx, rfl⟩ := List.mem_map.mp hw
      split
      · exact List.suffix_append v.data data
      · rename_i hne
        rw [if_neg hne] at hid
        exact absurd (beq_iff_eq.mpr hid) hne

/-! ### The counterexample -/

/-- A read of one byte from byte 64 of block 0 of stack 0, the byte after its last. -/
def readPastBlock : MiReq :=
  { id := 0, tile := miSite 0 0, serve := 1, stack := 0, off := 0, addr := 0, kind := 0, pos := 0, from_ := 64, count := 1, bytes := [],
    amo := none, part := none, win := none, passed := 0 }

/-- An access of which two parts are outstanding. -/
def twoPartAccess : Serve :=
  { id := 1, tile := miSite 0 0, left := 2, status := 0, data := [], entry := none, lost := false,
    pkt := { id := 1, hdr := { Hdr.blank with kind := 8, len := 1 }, data := [], agent := .curator, target := miSite 0 0, router := miSite 0 0,
             stage := 1, since := 0, bad := false, reported := false, back := none, source := 0, entry := 0, sent := 1, got := 1 } }

/-- Wing 0 is on and stack 0 in service; the read waits, and its block was written under another domain's key set, so it does not decode. -/
def readingPastBlock : State :=
  { ((State.reset.setReg (R.PWR_RAIL 0) 0x80000000).setReg (R.MEM_STK_USABLE 0) 0x300).setReg R.SEC_CTL 0 with
    wings := [(0, { WingPower.off with clamped := false })]
    net := { Net.start with mi := [readPastBlock], serves := [twoPartAccess] }
    dram := { Dram.start with blocks := [(0, { data := 0, side := List.replicate 16 0, key := (1, 0, 0) })] } }

/-- What the model's read of it brings: 0, where there is no byte of the block. -/
def readPastBlockServed : Serve := { twoPartAccess with left := 1, data := [(0, 0)] }

/-- Refutes O36: its clause about reads of blocks that do not decode asks for 0xFF at every byte of the access, wherever it lies. The byte after the
block's last is brought as 0. -/
theorem not_dramCommands : ¬ Obligations.DramCommands := by
  unfold Obligations.DramCommands
  rintro ⟨⟨haccess, -⟩, -⟩
  have hwaits : readingPastBlock.net.mi.find? (fun r => r.id == 0) = some readPastBlock := by decide
  have hready : readingPastBlock.miReady readPastBlock = true := by decide +kernel
  have hinService : readingPastBlock.stackOk 0 0 = true := by decide +kernel
  have hopen : readingPastBlock.dramClosed 0 = false := by decide +kernel
  have hbad : 2 ≤ ((readingPastBlock.disturb 0 0 []).decodeBlock 0 0 0).result := by decide +kernel
  have hgoesOn : readingPastBlock.bit R.SEC_CTL 0 = false := by decide +kernel
  obtain ⟨-, hundecoded, -⟩ := haccess readingPastBlock 0 [] none readPastBlock hwaits hready hinService hopen
  obtain ⟨u, hdoes, -⟩ := hundecoded rfl hbad hgoesOn
  rw [Does, exec_dramRead] at hdoes
  injection hdoes with hstate
  have hserved : readPastBlockServed ∈ (u.servePart readPastBlock.serve 0
      ((List.range readPastBlock.count).map fun i => (readPastBlock.pos + i, 0xFF))).net.serves := by
    rw [← hstate]
    decide +kernel
  exact absurd (State.suffix_servePart hserved rfl) (by decide)

end Sys2Proof.Machine
end

section
/-! PROOFS. Packets of the bulk network (R260, R271, R273, R275): what the answer to a packet, its removal and a trace leave of the network and of
tile registers. -/

namespace Sys2Proof.Machine

/-! ### Traces and fault records -/

theorem State.net_traceEvent (s : State) (t unit k data : Nat) : (s.traceEvent t unit k data).net = s.net := by
  obtain ⟨_, _, h⟩ := s.traceEvent_differsInTrace t unit k data
  rw [h]

theorem State.net_fault (s : State) (code source : Nat) (partition : Option Nat) (detail : List Nat) :
    (s.fault code source partition detail).net = s.net :=
  s.fault_leaves code source partition detail State.net (fun _ _ _ _ => rfl) (fun _ _ => rfl) fun _ _ => rfl

theorem State.treg_fault (s : State) (code source : Nat) (partition : Option Nat) (detail : List Nat) (t a : Nat) :
    (s.fault code source partition detail).treg t a = s.treg t a := by
  rw [State.treg, State.site_fault, State.treg]

/-! ### Wings (R343) -/

theorem wingOf_lt {t : Nat} (h : t < 3072) : wingOf t < 16 := by
  unfold wingOf
  omega

theorem wingUp_of_supply {s u : State} (h : u.supply = s.supply) {w : Nat} (hw : w < 16) : u.wingUp w = s.wingUp w := by
  rw [State.wingUp, railState_of_supply h hw, wing_of_supply h, State.wingUp]

/-! ### Packets that enter and leave the network -/

theorem State.launch_of_up {s : State} {router : Nat} (hup : s.wingUp (wingOf router) = true) (h : Hdr) (data : List (BitVec 8)) (agent : Agent)
    (target port : Nat) (back : Option Nat) : s.launch h data agent target router port back = s.modNet fun n =>
      { n with packets := n.packets ++ [Packet.new n.nextId s.time h data agent target router port back], nextId := n.nextId + 1 } :=
  if_pos hup

/-- A packet that a launch adds has a number not used before. -/
theorem State.mem_packets_launch {s : State} {h : Hdr} {data : List (BitVec 8)} {agent : Agent} {target router port : Nat} {back : Option Nat}
    {q : Packet} (hq : q ∈ (s.launch h data agent target router port back).net.packets) : q ∈ s.net.packets ∨ q.id = s.net.nextId := by
  unfold State.launch at hq
  split at hq
  · rcases List.mem_append.mp hq with hold | hnew
    · exact .inl hold
    · exact .inr (congrArg Packet.id (List.mem_singleton.mp hnew))
  · exact .inl hq

theorem State.mem_packets_answer {s : State} {p : Packet} {t status : Nat} {data : List (BitVec 8)} {q : Packet}
    (hq : q ∈ (s.answer p t status data).net.packets) : q ∈ s.net.packets ∨ q.id = s.net.nextId := by
  unfold State.answer at hq
  extract_lets read body h at hq
  split at hq
  · exact State.mem_packets_launch hq
  · split at hq
    · exact State.mem_packets_launch hq
    · exact .inl hq

theorem State.mem_packets_unreach {s : State} {p : Packet} {t : Nat} {q : Packet} (hq : q ∈ (s.unreach p t).net.packets) :
    q ∈ s.net.packets ∨ q.id = s.net.nextId := by
  unfold State.unreach at hq
  split at hq
  · exact .inl hq
  · have h := State.mem_packets_answer hq
    exact h

theorem State.packets_remove (s : State) (p : Packet) : (s.remove p).net.packets = s.net.packets.filter fun q => q.id != p.id := rfl

/-- A packet that was taken out stays out while the packets that come have new numbers. -/
theorem ne_of_removed {s : State} {p q : Packet} (hid : p.id < s.net.nextId)
    (hq : q ∈ (s.remove p).net.packets ∨ q.id = (s.remove p).net.nextId) : q.id ≠ p.id := by
  rcases hq with hq | hq
  · rw [State.packets_remove] at hq
    simpa using (List.mem_filter.mp hq).2
  · have hnext : (s.remove p).net.nextId = s.net.nextId := rfl
    omega

theorem State.ne_of_mem_refuse {s : State} {p : Packet} (t status : Nat) (hid : p.id < s.net.nextId) {q : Packet}
    (hq : q ∈ (s.refuse p t status).net.packets) : q.id ≠ p.id := by
  have h := State.mem_packets_answer hq
  rw [State.net_countStatus] at h
  exact ne_of_removed hid h

/-! ### Tile registers -/

theorem State.treg_answerLost_ne (s : State) (t : Nat) {x a : Nat} (hlost : a ≠ R.NET_COMPL_LOST) (hstatus : a ≠ R.NET_STATUS) :
    (s.answerLost t).treg x a = s.treg x a := by
  rw [State.answerLost, State.setTbit, State.treg_setTfld_ne _ _ _ _ (.inr hstatus), State.tbump, State.treg_setTreg_other _ _ (.inr hlost)]

/-- R275: a lost answer is counted at the site that drops it. -/
theorem State.answerLost_effect (s : State) (t : Nat) :
    (s.answerLost t).treg t R.NET_COMPL_LOST = satAdd (s.treg t R.NET_COMPL_LOST) 1 ∧ (s.answerLost t).tbit t R.NET_STATUS 2 = true := by
  constructor
  · rw [State.answerLost, State.setTbit, State.treg_setTfld_ne _ _ _ _ (.inr (by decide)), State.tbump, State.treg_setTreg_same]
  · exact State.tbit_setTbit_same _ _ _ _ _ (by decide)

theorem State.treg_answer_ne (s : State) (p : Packet) (t status : Nat) (data : List (BitVec 8)) {x a : Nat} (hlost : a ≠ R.NET_COMPL_LOST)
    (hstatus : a ≠ R.NET_STATUS) : (s.answer p t status data).treg x a = s.treg x a := by
  rcases s.answer_cases p t status data with ⟨f, hf, -⟩ | h
  · rw [hf]; rfl
  · rw [h, State.treg_answerLost_ne _ _ hlost hstatus]

end Sys2Proof.Machine
end

section
/-! PROOFS. Injection at the interface of a site (R271): the packet that each piece of an access becomes, and what the network holds once an access
has left. -/

namespace Sys2Proof.Machine

/-! ### The packet of a piece -/

/-- The bytes that a piece carries; those of an MAMO are its operands. -/
def NetReq.pieceData (r : NetReq) (p : Piece) (h : Hdr) : List (BitVec 8) := if h.kind == 10 then r.data else sliceOf r.data p.offs

def NetReq.pieceLen (r : NetReq) (p : Piece) (h : Hdr) : Nat :=
  if readKind h.kind then (if h.kind == 10 then (r.pieceData p h).length else p.len) else (r.pieceData p h).length

def State.pieceHdr (s : State) (r : NetReq) (p : Piece) (h : Hdr) : Hdr := { h with tag := s.net.tag, len := r.pieceLen p h }

def State.piecePacket (s : State) (r : NetReq) (p : Piece) (h : Hdr) (target : Nat) : Packet :=
  Packet.new s.net.nextId s.time (s.pieceHdr r p h) (r.pieceData p h) r.agent target r.origin ifaceIn none

def State.pieceWait (s : State) (join : Nat) (p : Piece) (h : Hdr) : Wait := { src := h.src, tag := s.net.tag, join := join, offs := p.offs }

/-- The network once a piece has left with the next tag. -/
def State.pieceSent (s : State) (r : NetReq) (join : Nat) (p : Piece) (h : Hdr) (target : Nat) : Net :=
  { s.net with tag := (s.net.tag + 1) % 65536, waits := s.net.waits ++ [s.pieceWait join p h],
               packets := s.net.packets ++ [s.piecePacket r p h target], nextId := s.net.nextId + 1 }

theorem originSite_of_site {o : Nat} (ho : o < 3072) (dst : Nat) : originSite o dst = o := if_pos ho

section
variable {s : State} {r : NetReq} (horigin : r.origin < 3072) (hup : s.wingUp (wingOf r.origin) = true)
include horigin hup

theorem State.sendPiece_effect (join : Nat) (p : Piece) (h : Hdr) (target : Nat) :
    (s.sendPiece r join p h target).net = s.pieceSent r join p h target ∧ (s.sendPiece r join p h target).supply = s.supply := by
  have hback : (4096 ≤ r.origin && r.origin < 4128) ≠ true := by simp; omega
  unfold State.sendPiece
  rw [originSite_of_site horigin, if_neg (by simp [hup])]
  extract_lets tag data len sent tagged traced
  rw [originSite_of_site horigin, if_pos horigin, if_neg hback]
  have htrace : traced = tagged.traceEvent r.origin (srcUnit sent.src) 1 (2 ^ 12 * sent.kind + sent.tile) := if_pos horigin
  have htraced : traced.supply = s.supply := by rw [htrace, State.traceEvent_supply, State.modNet_supply]
  have hnet : traced.net = tagged.net := by rw [htrace, State.net_traceEvent]
  have htime : traced.time = s.time := by
    obtain ⟨_, _, h⟩ := State.traceEvent_differsInTrace tagged r.origin (srcUnit sent.src) 1 (2 ^ 12 * sent.kind + sent.tile)
    rw [htrace, h]
    rfl
  have hlaunch := State.launch_of_up ((wingUp_of_supply htraced (wingOf_lt horigin)).trans hup) sent data r.agent target ifaceIn none
  constructor
  · rw [hlaunch, State.modNet, hnet, htime]
    rfl
  · rw [hlaunch, State.modNet_supply, htraced]

/-- R271: the pieces of a memory access that may be made leave as one packet each. -/
theorem State.injectPieces_effect {join : Nat} {right : Nat → Bool → Bool} (hright : ∀ a w, right a w = true) {ps : List Piece}
    (hplaced : ∀ p ∈ ps, p.status = 0) : let u := ps.foldl (fun s p => s.injectPiece r join right p) s
    u.net.outbox = s.net.outbox ∧ ∃ new : List Packet, u.net.packets = s.net.packets ++ new ∧ new.map (·.target) = ps.map (·.tile) ∧
      ∀ p ∈ new, p.hdr.kind = r.hdr.kind ∧ p.hdr.src = r.hdr.src ∧ p.sent = 0 := by
  induction ps generalizing s with
  | nil => exact ⟨rfl, [], by simp⟩
  | cons p ps ih =>
    let h : Hdr := { r.hdr with dev := s.deviceId, tile := p.tile, addr := p.addr, mask := p.mask }
    have hsends : s.injectPiece r join right p = s.sendPiece r join p h p.tile := by
      simp [State.injectPiece, hright, hplaced p List.mem_cons_self, h]
    obtain ⟨hnet, hsupply⟩ := State.sendPiece_effect horigin hup join p h p.tile
    have hup' := (wingUp_of_supply hsupply (wingOf_lt horigin)).trans hup
    obtain ⟨houtbox, new, hpackets, htargets, hkinds⟩ := ih hup' fun q hq => hplaced q (List.mem_cons_of_mem _ hq)
    simp only [List.foldl_cons, hsends]
    refine ⟨houtbox.trans (by rw [hnet]; rfl), s.piecePacket r p h p.tile :: new, ?_, ?_, ?_⟩
    · rw [hpackets, hnet, State.pieceSent, List.append_assoc, List.singleton_append]
    · rw [List.map_cons, List.map_cons, htargets]
      rfl
    · rintro q (_ | ⟨_, hq⟩)
      · exact ⟨rfl, rfl, rfl⟩
      · exact hkinds q hq

end

/-! ### An access leaves its interface -/

/-- The network with an access taken from its interface and its join begun. -/
def State.joining (s : State) (r : NetReq) (n : Nat) : State := s.modNet fun m =>
  { m with outbox := m.outbox.erase r, nextId := m.nextId + 1,
           joins := m.joins ++ [{ id := s.net.nextId, user := r.user, twin := r.twin, read := readKind r.hdr.kind, len := r.hdr.len, left := n,
                                  status := 0, data := [] }] }

/-- The one piece of a message, a token or a doorbell. -/
def NetReq.wholePiece (r : NetReq) : Piece :=
  { tile := r.hdr.tile, status := 0, addr := r.hdr.addr, mask := 0, len := r.data.length, offs := [(0, r.data.length)] }

section
variable {s : State} {r : NetReq} (hpass : r.passing = none)
include hpass

theorem State.inject_message (hdev : r.hdr.dev = s.deviceId) (hkind : r.hdr.kind < 6) (htile : r.hdr.tile < 3072) :
    s.inject r = (s.joining r 1).sendPiece r s.net.nextId r.wholePiece r.hdr r.hdr.tile := by
  unfold State.inject
  extract_lets taken join h site remote start memory ps
  have hlocal : remote = false := by
    simp only [remote, h, hdev]
    exact bne_self_eq_false' ..
  have hkinds : (8 ≤ h.kind && h.kind ≤ 10) ≠ true ∧ (h.kind == 6 || h.kind == 7) ≠ true := by simp [h]; omega
  simp only [hpass]
  rw [if_neg hkinds.1, if_neg (by simp [hlocal]), if_neg hkinds.2, if_pos htile]
  rfl

theorem State.inject_memory (hlo : 8 ≤ r.hdr.kind) (hhi : r.hdr.kind ≤ 10) :
    let ps := s.piecesOf r.hdr.addr r.hdr.len (r.hdr.kind == 10)
    s.inject r = ps.foldl (fun u p => u.injectPiece r s.net.nextId (fun a w => !r.user.checked || s.mayReach r.agent a w) p)
      (s.joining r ps.length) := by
  intro pieces
  unfold State.inject
  extract_lets taken join h site remote start memory ps
  simp only [hpass]
  rw [if_pos (by simp [h, hlo, hhi])]
  rfl

end

theorem State.credit_of_no_ingress {r : NetReq} (h : ∀ p h, r.user ≠ .ingress p h) (s : State) : s.credit r = s := by
  unfold State.credit
  split
  · rename_i p hdr huser
    exact absurd huser (h p hdr)
  · rfl

section
variable {s : State} {origin : Nat} {r : NetReq} (hfirst : s.net.outbox.find? (fun r => r.origin == origin) = some r) (hready : r.ready = true)
  (hruns : s.entryRuns r = true) (huser : ∀ p h, r.user ≠ .ingress p h)
include hfirst hready hruns huser

theorem packetInject_does : Does (.packetInject origin) s (s.inject r) := by
  rw [Does, exec_packetInject, execPacketInject, hfirst]
  exact (when_true (by rw [hready, hruns]; rfl)).trans (by rw [State.credit_of_no_ingress huser])

end

section
variable {s : State} {r : NetReq} (hpass : r.passing = none) (horigin : r.origin < 3072) (hup : s.wingUp (wingOf r.origin) = true)
include hpass horigin hup

/-- R271: a message, token or doorbell leaves as one packet to its tile, whose answer is waited for. -/
theorem State.inject_message_effect (hdev : r.hdr.dev = s.deviceId) (hkind : r.hdr.kind < 6) (htile : r.hdr.tile < 3072) :
    let u := s.inject r
    u.net.outbox = s.net.outbox.erase r ∧ u.net.tag = (s.net.tag + 1) % 65536 ∧
      ∃ p : Packet, u.net.packets = s.net.packets ++ [p] ∧ p.hdr = { r.hdr with tag := s.net.tag, len := r.data.length } ∧
        p.data = r.data ∧ p.target = r.hdr.tile ∧ p.source = r.origin * 8 + ifaceIn ∧ p.sent = 0 ∧ p.stage = 0 ∧
        ∃ w ∈ u.net.waits, w.src = r.hdr.src ∧ w.tag = s.net.tag := by
  have hdata : r.pieceData r.wholePiece r.hdr = r.data := by
    rw [NetReq.pieceData, if_neg (by simp; omega)]
    simp [sliceOf, NetReq.wholePiece]
  have hlen : r.pieceLen r.wholePiece r.hdr = r.data.length := by
    rw [NetReq.pieceLen, if_neg (by simp [readKind]; omega), hdata]
  obtain ⟨hnet, -⟩ := State.sendPiece_effect (s := s.joining r 1) horigin hup s.net.nextId r.wholePiece r.hdr r.hdr.tile
  rw [← State.inject_message hpass hdev hkind htile] at hnet
  intro u
  rw [show u.net = _ from hnet]
  refine ⟨rfl, rfl, _, rfl, ?_, hdata, rfl, rfl, rfl, rfl, _, List.mem_append_right _ List.mem_cons_self, rfl, rfl⟩
  exact (congrArg (fun n => ({ r.hdr with tag := s.net.tag, len := n } : Hdr)) hlen :)

/-- R271: a memory access leaves as one packet for each piece. -/
theorem State.inject_memory_effect (hlo : 8 ≤ r.hdr.kind) (hhi : r.hdr.kind ≤ 10)
    (hright : r.user.checked = true → ∀ a w, s.mayReach r.agent a w = true) :
    let ps := s.piecesOf r.hdr.addr r.hdr.len (r.hdr.kind == 10)
    (∀ p ∈ ps, p.status = 0) → (s.inject r).net.outbox = s.net.outbox.erase r ∧
      ∃ new : List Packet, (s.inject r).net.packets = s.net.packets ++ new ∧ new.map (·.target) = ps.map (·.tile) ∧
        ∀ p ∈ new, p.hdr.kind = r.hdr.kind ∧ p.hdr.src = r.hdr.src ∧ p.sent = 0 := by
  intro ps hplaced
  have hallowed : ∀ a w, (!r.user.checked || s.mayReach r.agent a w) = true := by
    intro a w
    cases hchecked : r.user.checked
    · rfl
    · exact hright hchecked a w
  rw [State.inject_memory hpass hlo hhi]
  exact State.injectPieces_effect (s := s.joining r ps.length) horigin hup hallowed hplaced

end

end Sys2Proof.Machine
end

section
/-! PROOFS. The hop of a flit (R260, R263, R331): what the output of a router that sends takes from its input and where the flit comes. -/

namespace Sys2Proof.Machine

/-! ### Input buffers -/

theorem State.buf_setBuf_same (s : State) (k : Nat) (b : InBuf) : (s.setBuf k b).net.buf k = b := Map.get_set_same _ _ _ _

theorem State.buf_setBuf_other (s : State) {k j : Nat} (b : InBuf) (h : j ≠ k) : (s.setBuf k b).net.buf j = s.net.buf j :=
  Map.get_set_other _ _ _ h

theorem vcKey_ne {r n port i : Nat} (v : Nat) (hport : port < 8) (hi : i < 8) (hne : n ≠ r) : vcKey n port v ≠ vcKey r i v := by
  unfold vcKey
  omega

theorem State.flits_takeFlit_same (s : State) (k : Nat) : ((s.takeFlit k).net.buf k).flits = (s.net.buf k).flits.drop 1 := by
  unfold State.takeFlit
  extract_lets fs
  rw [State.buf_setBuf_same]
  split
  · exact (List.isEmpty_iff.mp ‹_›).symm
  · rfl

theorem State.buf_takeFlit_other (s : State) {k j : Nat} (h : j ≠ k) : (s.takeFlit k).net.buf j = s.net.buf j := s.buf_setBuf_other _ h

/-! ### Packets in place -/

theorem State.buf_setPacket (s : State) (p : Packet) (k : Nat) : (s.setPacket p).net.buf k = s.net.buf k := rfl

/-- A packet that is changed in place is in the network with the change. -/
theorem State.mem_packets_setPacket {s : State} {p q : Packet} (h : s.net.packet p.id = some q) : p ∈ (s.setPacket p).net.packets := by
  have hid : q.id = p.id := by simpa using List.find?_some h
  exact List.mem_map.mpr ⟨q, List.mem_of_find?_eq_some h, if_pos (beq_iff_eq.mpr hid)⟩

section
variable {s : State} {n port : Nat} {f : Nat × Nat} {p : Packet} (hp : s.net.packet f.1 = some p)
include hp

/-- R260: a flit joins the buffer of its VC, and no other buffer changes. -/
theorem State.flits_arriveFlit_same : ((s.arriveFlit n port f).net.buf (vcKey n port (vcOf p.hdr.kind))).flits =
    (s.net.buf (vcKey n port (vcOf p.hdr.kind))).flits ++ [f] := by
  unfold State.arriveFlit
  simp only [hp]
  split
  · rw [State.buf_setPacket, State.buf_setBuf_same]
  · rw [State.buf_setBuf_same]

theorem State.buf_arriveFlit_other {k : Nat} (h : k ≠ vcKey n port (vcOf p.hdr.kind)) : (s.arriveFlit n port f).net.buf k = s.net.buf k := by
  unfold State.arriveFlit
  simp only [hp]
  split
  · rw [State.buf_setPacket, State.buf_setBuf_other _ _ h]
  · rw [State.buf_setBuf_other _ _ h]

end

/-! ### An output sends -/

/-- The router once a flit has left its input: what its output's VC holds and what it sent last are noted. -/
def State.flitLeaves (s : State) (r o v i : Nat) (p : Packet) (flit : Nat) : State :=
  (s.takeFlit (vcKey r i v)).modNet fun n =>
    { n with holds := Map.set (fun _ => none) n.holds (vcKey r o v) (if flit + 1 == p.flits then none else some (p.id, i)),
             lastIn := Map.set (fun _ => 5) n.lastIn (vcKey r o v) i,
             turns := Map.modify (fun _ => OutTurn.start) n.turns (r * 8 + o) fun t => t.next v (s.wing (wingOf r)).pulses }

section
variable (s : State) (r o v i : Nat) (p : Packet) (flit : Nat)

theorem State.flits_flitLeaves_same : ((s.flitLeaves r o v i p flit).net.buf (vcKey r i v)).flits = (s.net.buf (vcKey r i v)).flits.drop 1 :=
  s.flits_takeFlit_same _

theorem State.buf_flitLeaves_other {k : Nat} (h : k ≠ vcKey r i v) : (s.flitLeaves r o v i p flit).net.buf k = s.net.buf k :=
  s.buf_takeFlit_other h

theorem State.packet_flitLeaves (id : Nat) : (s.flitLeaves r o v i p flit).net.packet id = s.net.packet id := rfl

theorem State.seam_flitLeaves (c : Nat) : (s.flitLeaves r o v i p flit).seam c = s.seam c := rfl

theorem State.sendFlit_seam {n c : Nat} (ho : o < 4) (hn : s.nextRouter r o = some n) (hc : bnSeam r o = some c) :
    s.sendFlit r o v i p flit = (s.flitLeaves r o v i p flit).modSeam c fun m =>
      { m with entries := m.entries ++ [((s.wing (wingOf r)).pulses, p.id, flit)] } := by
  have hnext : (s.flitLeaves r o v i p flit).nextRouter r o = some n := hn
  unfold State.sendFlit
  extract_lets hold u
  rw [if_pos ho, show u.nextRouter r o = some n from hnext, hc]
  rfl

theorem State.sendFlit_link {n : Nat} (ho : o < 4) (hn : s.nextRouter r o = some n) (hc : bnSeam r o = none) :
    s.sendFlit r o v i p flit = (s.flitLeaves r o v i p flit).arriveFlit n ((o + 2) % 4) (p.id, flit) := by
  have hnext : (s.flitLeaves r o v i p flit).nextRouter r o = some n := hn
  unfold State.sendFlit
  extract_lets hold u
  rw [if_pos ho, show u.nextRouter r o = some n from hnext, hc]
  rfl

theorem State.sendFlit_iface : s.sendFlit r 4 v i p flit = (s.flitLeaves r 4 v i p flit).arriveOut r p flit := rfl

theorem State.sendFlit_none : s.sendFlit r 6 v i p flit = ((s.flitLeaves r 6 v i p flit).remove p).unreach p r := rfl

end

theorem State.modSeam_effect (s : State) (c : Nat) (f : Seam → Seam) : (s.modSeam c f).seam c = f (s.seam c) := Map.get_modify_same _ _ _ _

/-! ### Where the flit comes -/

section
variable {s : State} {r o v i k n : Nat} {p : Packet} (hp : s.net.packet p.id = some p) (hvc : vcOf p.hdr.kind = v) (hi : i < 8)
include hp hvc hi

/-- R260, R331: a flit for a direction leaves its input for the crossing, or for the next router's input. -/
theorem State.sendFlit_direction (ho : o < 4) (hn : s.nextRouter r o = some n) (hne : n ≠ r) : let u := s.sendFlit r o v i p k
    (u.net.buf (vcKey r i v)).flits = (s.net.buf (vcKey r i v)).flits.drop 1 ∧
    (∀ c, bnSeam r o = some c → ∃ e : Nat × Nat × Nat, e.2 = (p.id, k) ∧ (u.seam c).entries = (s.seam c).entries ++ [e]) ∧
    (bnSeam r o = none → (u.net.buf (vcKey n ((o + 2) % 4) v)).flits = (s.net.buf (vcKey n ((o + 2) % 4) v)).flits ++ [(p.id, k)]) := by
  have hkey : vcKey n ((o + 2) % 4) v ≠ vcKey r i v := vcKey_ne v (by omega) hi hne
  intro u
  rcases hc : bnSeam r o with _ | c
  case none =>
    have hu : u = _ := s.sendFlit_link r o v i p k ho hn hc
    have hleft : (s.flitLeaves r o v i p k).net.packet (p.id, k).1 = some p := hp
    subst hvc
    rw [hu]
    refine ⟨?_, (fun _ h => absurd h (by simp)), fun _ => ?_⟩
    · rw [State.buf_arriveFlit_other hleft hkey.symm, State.flits_flitLeaves_same]
    · rw [State.flits_arriveFlit_same hleft, State.buf_flitLeaves_other _ _ _ _ _ _ _ hkey]
  case some =>
    have hu : u = _ := s.sendFlit_seam r o v i p k ho hn hc
    rw [hu]
    refine ⟨s.flits_flitLeaves_same r o v i p k, ?_, fun h => absurd h (by simp)⟩
    rintro _ ⟨⟩
    exact ⟨_, rfl, by rw [State.modSeam_effect, State.seam_flitLeaves]⟩

end

/-- R260: a flit of a packet that stays on the device reaches its interface, where the packet has one flit more. -/
theorem State.arriveOut_stays {p : Packet} (hleaves : p.leaves = none) (s : State) (r k : Nat) : ∃ q : Packet, q.id = p.id ∧ q.got = p.got + 1 ∧
    (s.arriveOut r p k).net = (s.setPacket q).net ∧ ∀ t, (s.arriveOut r p k).site t = s.site t := by
  unfold State.arriveOut
  extract_lets at_ q put
  have hat : at_.leaves = none ∧ at_.id = p.id ∧ at_.got = p.got := by
    simp only [at_]
    split <;> exact ⟨hleaves, rfl, rfl⟩
  obtain ⟨hstays, hid, hgot⟩ := hat
  refine ⟨q, hid, congrArg (· + 1) hgot, ?_⟩
  rw [hstays]
  dsimp only
  split
  · exact ⟨State.net_traceEvent _ _ _ _ _, fun t => State.site_traceEvent _ _ _ _ _ t⟩
  · exact ⟨rfl, fun _ => rfl⟩

section
variable {s : State} {r v i k : Nat} {p : Packet}

theorem State.sendFlit_arrives (hp : s.net.packet p.id = some p) (hleaves : p.leaves = none) : let u := s.sendFlit r 4 v i p k
    (u.net.buf (vcKey r i v)).flits = (s.net.buf (vcKey r i v)).flits.drop 1 ∧ (∃ q ∈ u.net.packets, q.id = p.id ∧ q.got = p.got + 1) ∧
    ∀ t, u.site t = s.site t := by
  intro u
  obtain ⟨q, hid, hgot, hnet, hsite⟩ := State.arriveOut_stays hleaves (s.flitLeaves r 4 v i p k) r k
  have hin : (s.flitLeaves r 4 v i p k).net.packet q.id = some p := by rw [hid]; exact hp
  rw [show u = _ from s.sendFlit_iface r v i p k]
  refine ⟨?_, ⟨q, ?_, hid, hgot⟩, hsite⟩
  · rw [hnet]
    exact s.flits_flitLeaves_same r 4 v i p k
  · rw [hnet]
    exact State.mem_packets_setPacket hin

/-- R275: a packet for which no route leads on is gone. -/
theorem State.ne_of_mem_sendFlit_none (hid : p.id < s.net.nextId) {q : Packet} (hq : q ∈ (s.sendFlit r 6 v i p k).net.packets) : q.id ≠ p.id := by
  rw [State.sendFlit_none] at hq
  exact ne_of_removed (s := s.flitLeaves r 6 v i p k) hid (State.mem_packets_unreach hq)

end

/-- R295: a corrected flit is counted, and leaves the network as it is. -/
theorem State.flitCorrected_effect (s : State) (t : Nat) :
    (s.flitCorrected t).net = s.net ∧ (s.flitCorrected t).treg t R.NET_FLIT_CORR = satAdd (s.treg t R.NET_FLIT_CORR) 1 :=
  ⟨rfl, s.treg_setTreg_same t _ _⟩

theorem State.sendFlit_corrected {s : State} {r v i k : Nat} {p : Packet} (hp : s.net.packet p.id = some p) (hleaves : p.leaves = none) :
    ((s.flitCorrected r).sendFlit r 4 v i p k).treg r R.NET_FLIT_CORR = satAdd (s.treg r R.NET_FLIT_CORR) 1 := by
  obtain ⟨hnet, hcount⟩ := s.flitCorrected_effect r
  obtain ⟨-, -, hsite⟩ := State.sendFlit_arrives (s := s.flitCorrected r) (r := r) (v := v) (i := i) (k := k) (by rw [hnet]; exact hp) hleaves
  rw [State.treg, hsite, ← State.treg, hcount]

/-! ### The command -/

section
variable {s : State} {r o v i k : Nat} {p : Packet} (hr : r < 3072) (ho : o < 7) (hruns : s.routerRuns r = true)
  (hturn : (s.fillInputs r).outputTurn r o = some (v, i, p, k))
include hr ho hruns hturn

theorem routerHop_does : Does (.routerHop r o 0) s ((s.fillInputs r).sendFlit r o v i p k) := by
  rw [Does, exec_routerHop, execRouterHop, when_true (by simp [hr, ho, hruns]), State.outputSends, hturn]
  rfl

/-- R295: a flit that shows a corrected error is counted and goes on. -/
theorem routerHop_corrected_does : Does (.routerHop r o 1) s (((s.fillInputs r).flitCorrected r).sendFlit r o v i p k) := by
  rw [Does, exec_routerHop, execRouterHop, when_true (by simp [hr, ho, hruns]), State.outputSends, hturn]
  rfl

end

end Sys2Proof.Machine
end

section
/-! PROOFS. What a packet that has arrived does (R205, R273, R274), and stalls (R294). -/

namespace Sys2Proof.Machine

/-! ### A token at a site (R205, R274) -/

theorem State.token_setToken_other (s : State) (t v : Nat) {j k : Nat} (h : j ≠ k) : (s.setToken t k v).token t j = s.token t j := by
  rw [State.token, State.setToken, State.token]
  by_cases hreg : j / 4 = k / 4
  · rw [hreg, State.tfld_setTfld_other _ _ _ _ _ _ _ _ (by omega) (by omega) (by omega)]
  · exact State.tfld_setTfld_ne _ _ _ _ _ _ (.inr (by simp only [R.ENG_TOKEN]; omega))

theorem State.token_addToken_other (s : State) (t n : Nat) {j k : Nat} (hj : j < 16) (h : j ≠ k) :
    (s.addToken t k n).token t j = s.token t j := by
  unfold State.addToken
  extract_lets out v noted
  have hnoted : noted.token t j = s.token t j := s.token_modSite t j rfl
  split
  · rw [State.token_setTbit_ne _ _ _ _ hj (.inl (by decide)), State.token_setToken_other _ _ _ h, hnoted]
  · rw [State.token_setToken_other _ _ _ h, hnoted]

theorem State.net_addToken (s : State) (t k n : Nat) : (s.addToken t k n).net = s.net := by
  unfold State.addToken
  extract_lets out v noted
  split <;> rfl

theorem State.token_answer (s : State) (p : Packet) (t status : Nat) (data : List (BitVec 8)) {x k : Nat} (hk : k < 16) :
    (s.answer p t status data).token x k = s.token x k := by
  have haddr := token_registers hk
  exact State.token_congr (s.treg_answer_ne p t status data (by simp only [R.NET_COMPL_LOST]; omega) (by simp only [R.NET_STATUS]; omega))

theorem State.both_alone {s : State} {t : Nat} (h : s.twin t = none) (f : State → Nat → State) : s.both t f = f s t := by
  rw [State.both, h]

/-- A token at a live site that admits it and neither swaps nor is scrubbed. -/
structure State.TakesToken (s : State) (p : Packet) (t : Nat) : Prop where
  kind : p.hdr.kind = 4
  live : s.live t = true
  version : p.hdr.version = 1
  whole : p.bad = false
  lead : s.isLead t = true
  holds : canHold (kindOf t) 4 = true
  stays : s.swappingSite t = false
  admitted : s.admits (s.partOf t) p.hdr.src p.agent (s.ownSite p.hdr.src t) = true
  clean : s.siteScrubbing t = false
  alone : s.twin t = none

/-- The counter that a token names, and by how much. -/
def Packet.tokenOf (p : Packet) : Nat := p.hdr.arg / 2 ^ 12 % 16
def Packet.tokenCount (p : Packet) : Nat := p.hdr.arg / 16 % 256

theorem State.receive_token {s : State} {p : Packet} {t : Nat} (h : s.TakesToken p t) :
    s.receive p t = ((s.remove p).addToken t p.tokenOf p.tokenCount).answer p t 0 [] := by
  have halone : (s.remove p).twin t = none := h.alone
  have hsignal : s.receiveSignal p t = ((s.remove p).addToken t p.tokenOf p.tokenCount).answer p t 0 [] := by
    rw [State.receiveSignal, if_neg (by simp [h.stays, h.clean]), if_pos (by simp [h.kind]), State.both_alone halone]
    rfl
  rw [← hsignal]
  simp [State.receive, h.kind, h.live, h.version, h.whole, h.lead, h.holds, h.stays, h.admitted]

theorem State.receive_token_effect {s : State} {p : Packet} {t : Nat} (h : s.TakesToken p t) (hid : p.id < s.net.nextId) :
    let u := s.receive p t
    u.token t p.tokenOf = min (255 - s.tokOut t p.tokenOf) (s.token t p.tokenOf + p.tokenCount) ∧
      (∀ j, j < 16 → j ≠ p.tokenOf → u.token t j = s.token t j) ∧ ∀ q ∈ u.net.packets, q.id ≠ p.id := by
  have hk : p.tokenOf < 16 := Nat.mod_lt _ (by decide)
  intro u
  rw [show u = _ from State.receive_token h]
  refine ⟨?_, fun j hj hne => ?_, fun q hq => ?_⟩
  · rw [State.token_answer _ _ _ _ _ hk]
    exact State.token_addToken _ _ _ hk
  · rw [State.token_answer _ _ _ _ _ hj]
    exact State.token_addToken_other _ _ _ hj hne
  · have h := State.mem_packets_answer hq
    rw [State.net_addToken] at h
    exact ne_of_removed hid h

/-! ### What an answer brings (R273) -/

/-- The status that an answer brings, and the bytes of its access. -/
def Packet.broughtStatus (p : Packet) : Nat := if p.bad then 3 else p.hdr.status
def Packet.brought (p : Packet) (w : Wait) : List (Nat × BitVec 8) :=
  if p.broughtStatus = 0 ∨ p.hdr.kind = 11 ∧ p.bad = false then (w.offs.flatMap fun e => (List.range e.2).map (· + e.1)).zip p.data else []

/-- An access with a piece answered and others outstanding. -/
def Join.withPiece (j : Join) (status : Nat) (data : List (Nat × BitVec 8)) : Join :=
  { j with left := j.left - 1, status := max j.status status, data := j.data ++ data }

/-- The wait that an answer ends. -/
def State.waitFor (s : State) (p : Packet) : Option Wait :=
  s.net.waits.find? fun w => w.src == 65536 * p.hdr.dev + p.hdr.tile * 16 + srcUnit p.hdr.src && w.tag == p.hdr.tag

/-! ### Arrivals (R273-R275) -/

section
variable {s : State} {pkt : Nat} {p : Packet} (hfind : s.net.packets.find? (fun p => p.id == pkt) = some p) (harrived : s.arrived p = true)
include hfind harrived

theorem packetReceive_does (htarget : p.target < 3072) (hvc : vcOf p.hdr.kind ≠ 1) : Does (.packetReceive pkt) s (s.receive p p.router) := by
  rw [Does, exec_packetReceive, execPacketReceive, hfind]
  exact when_true (by simp [harrived, htarget, hvc])

/-- R273: an awaited answer is taken into its access. -/
theorem completionReceive_waited_does {w : Wait} (hvc : vcOf p.hdr.kind = 1) (hwait : s.waitFor p = some w) :
    Does (.completionReceive pkt) s
      (((s.remove p).modNet fun n => { n with waits := n.waits.erase w }).joinPiece w.join p.broughtStatus (p.brought w)) := by
  rw [State.waitFor] at hwait
  rw [Does, exec_completionReceive, execCompletionReceive, hfind]
  dsimp only
  rw [hwait]
  have hbrought : p.brought w = if p.broughtStatus == 0 || p.hdr.kind == 11 && !p.bad then
      (w.offs.flatMap fun e => (List.range e.2).map (· + e.1)).zip p.data else [] := if_congr (by simp) rfl rfl
  rw [hbrought]
  exact when_true (by simp [harrived, hvc])

/-- R275: an answer for which nothing waits is lost. -/
theorem completionReceive_unwaited_does (hvc : vcOf p.hdr.kind = 1) (hwait : s.waitFor p = none) :
    Does (.completionReceive pkt) s ((s.remove p).answerLost p.router) := by
  rw [State.waitFor] at hwait
  rw [Does, exec_completionReceive, execCompletionReceive, hfind]
  dsimp only
  rw [hwait]
  exact when_true (by simp [harrived, hvc])

end

/-- R273: a piece of an access with others outstanding is folded into it, and nothing else changes. -/
theorem State.joinPiece_outstanding {s : State} {id : Nat} {j : Join} (hjoin : s.net.joins.find? (fun j => j.id == id) = some j)
    (hleft : 1 < j.left) (status : Nat) (data : List (Nat × BitVec 8)) : s.joinPiece id status data = s.modNet fun n =>
      { n with joins := n.joins.map fun k => if k.id == id then j.withPiece status data else k } := by
  have hmore : ¬(j.left - 1 == 0) = true := by simp; omega
  rw [State.joinPiece, hjoin]
  dsimp only
  rw [if_neg hmore]
  rfl

theorem mem_map_replaced {l : List Join} {id : Nat} {j k : Join} (hjoin : l.find? (fun j => j.id == id) = some j) :
    k ∈ l.map fun i => if i.id == id then k else i :=
  List.mem_map.mpr ⟨j, List.mem_of_find?_eq_some hjoin, if_pos (List.find?_some hjoin)⟩

theorem State.joinPiece_answered {s : State} {p : Packet} {w : Wait} {j : Join} (hjoin : s.net.joins.find? (fun j => j.id == w.join) = some j)
    (hleft : 1 < j.left) (status : Nat) (data : List (Nat × BitVec 8)) :
    let u := ((s.remove p).modNet fun n => { n with waits := n.waits.erase w }).joinPiece w.join status data
    u.net.waits = s.net.waits.erase w ∧ u.net.packets = s.net.packets.filter (fun q => q.id != p.id) ∧ j.withPiece status data ∈ u.net.joins := by
  intro u
  have hkept : ((s.remove p).modNet fun n => { n with waits := n.waits.erase w }).net.joins.find? (fun j => j.id == w.join) = some j := hjoin
  rw [show u = _ from State.joinPiece_outstanding hkept hleft status data]
  exact ⟨rfl, rfl, mem_map_replaced hjoin⟩

/-! ### Stalls (R294) -/

/-- A stall as the registers of its site show it. -/
def State.stallShown (s : State) (t port vc : Nat) : State :=
  (s.setTbit t R.NET_STATUS 0 true).setTreg t R.NET_STALL_WHERE (BitVec.ofNat 32 (port * 64 + vc * 16))

theorem State.netStall_eq (s : State) (t port vc : Nat) : s.netStall t port vc =
    (s.stallShown t port vc).fault 0x04 ((s.stallShown t port vc).sourceOf t 0) none (le 4 (port * 64 + vc * 16)) := rfl

theorem State.stallShown_effect (s : State) (t port vc : Nat) : let u := s.stallShown t port vc
    u.treg t R.NET_STALL_WHERE = BitVec.ofNat 32 (port * 64 + vc * 16) ∧ u.tbit t R.NET_STATUS 0 = true := by
  have hstatus := s.tbit_setTbit_same t R.NET_STATUS 0 true (by decide)
  constructor
  · exact State.treg_setTreg_same _ _ _ _
  · rwa [State.tbit, State.stallShown, State.treg_setTreg_ne _ _ _ (by decide)]

section
variable {s : State} {t port vc : Nat} (hport : port ≠ 6) (hheld : (s.net.buf (vcKey t port vc)).flits ≠ [])
  (hnew : (s.net.buf (vcKey t port vc)).reported = false) (hlong : s.stalled t (s.net.buf (vcKey t port vc)).since = true)
include hport hheld hnew hlong

theorem netStall_head_does : Does (.netStall t port vc) s
    ((s.setBuf (vcKey t port vc) { s.net.buf (vcKey t port vc) with reported := true }).netStall t port vc) := by
  have hstall : s.packetStall t port vc = some (s.setBuf (vcKey t port vc) { s.net.buf (vcKey t port vc) with reported := true }) := by
    simp [State.packetStall, hheld, hnew, hlong]
  rw [Does, exec_netStall, execNetStall, if_neg (by simpa using hport), hstall]

end

theorem netStall_sync_does {s : State} {t c : Nat} (vc : Nat) (hsync : s.syncStall t = some c) : Does (.netStall t 6 vc) s
    ((s.netStall t 6 0).modSite t fun x => { x with stalls := x.stalls ++ [(6, c)] }) := by
  rw [Does, exec_netStall, execNetStall, if_pos (by rfl), hsync]

end Sys2Proof.Machine
end

section
/-! PROOFS. The statement about packets of the bulk network. -/

namespace Sys2Proof.Machine

/-- Settles O37, command by command: the packets that injection forms, the buffer, crossing or interface that a hop's flit comes to, the counter that
a token adds to, the wait that an answer ends, and the stall that is recorded. That a hop moves one flit, which stands in the next input at once, is the
model's choice (log entries 73 and 110). -/
theorem packetCommands : Obligations.PacketCommands := by
  unfold Obligations.PacketCommands
  refine ⟨?inject, ?hop, ?receive, ?refuse, ?complete, ?head, ?sync⟩
  case inject =>
    intro s origin r hfirst hready hruns hpass huser horigin hdev
    have hat : r.origin = origin := by simpa using List.find?_some hfirst
    subst hat
    have hdoes := packetInject_does hfirst hready hruns huser
    exact ⟨fun hkind htile hup => ⟨_, hdoes, State.inject_message_effect hpass horigin hup hdev hkind htile⟩,
      fun hlo hhi hright hup hplaced => ⟨_, hdoes, State.inject_memory_effect hpass horigin hup hlo hhi hright hplaced⟩⟩
  case hop =>
    intro s r o v i k p hr ho hruns w hturn hi _ hp hvc hid a
    refine ⟨_, routerHop_does hr ho hruns hturn, fun hdir n hn hne => ?_, ?_, ?_, ?_⟩
    · obtain ⟨hleft, hcomes⟩ := State.sendFlit_direction (k := k) hp hvc hi hdir hn hne
      exact ⟨hleft.symm, hcomes⟩
    · rintro rfl hleaves
      obtain ⟨hleft, hgot, -⟩ := State.sendFlit_arrives (r := r) (v := v) (i := i) (k := k) hp hleaves
      exact ⟨hleft, hgot⟩
    · rintro rfl q hq
      exact State.ne_of_mem_sendFlit_none hid hq
    · rintro rfl hleaves
      exact ⟨_, routerHop_corrected_does hr ho hruns hturn, State.sendFlit_corrected hp hleaves⟩
  case receive =>
    intro s pkt p hfind harrived htarget t
    have hpkt : p.id = pkt := by simpa using List.find?_some hfind
    refine ⟨packetReceive_does hfind harrived htarget, ?_⟩
    intro hkind hlive hversion hwhole hlead hholds hstays hadmitted hclean halone hid k
    have htakes : s.TakesToken p t := ⟨hkind, hlive, hversion, hwhole, hlead, hholds, hstays, hadmitted, hclean, halone⟩
    rw [← hpkt] at hid ⊢
    exact ⟨_, hpkt ▸ packetReceive_does hfind harrived htarget (by rw [hkind]; decide), State.receive_token_effect htakes hid⟩
  case refuse => exact fun s p t status hid q hq => State.ne_of_mem_refuse t status hid hq
  case complete =>
    intro s pkt p hfind harrived hvc src
    have hpkt : p.id = pkt := by simpa using List.find?_some hfind
    constructor
    · intro w j hwait hjoin hleft status offs
      rw [← hpkt]
      exact ⟨_, hpkt ▸ completionReceive_waited_does hfind harrived hvc hwait, State.joinPiece_answered hjoin hleft status (p.brought w)⟩
    · intro hwait _
      rw [← hpkt]
      exact ⟨_, hpkt ▸ completionReceive_unwaited_does hfind harrived hvc hwait, rfl, (s.remove p).answerLost_effect p.router⟩
  case head =>
    intro s t vc port key code hport hheld hnew hlong
    exact ⟨_, netStall_head_does hport hheld hnew hlong,
      congrArg InBuf.reported (s.buf_setBuf_same key { s.net.buf key with reported := true }), State.stallShown_effect _ t port vc⟩
  case sync =>
    intro s t vc c hsync
    obtain ⟨hwhere, hstatus⟩ := s.stallShown_effect t 6 0
    refine ⟨_, netStall_sync_does vc (c := c.1) (by rw [State.syncStall, hsync]; rfl), ?_, ?_, ?_⟩
    · rw [State.site_modSite_same]
      exact List.mem_append_right _ List.mem_cons_self
    · rw [State.treg, State.site_modSite_same, ← State.treg, State.netStall_eq, State.treg_fault]
      exact hwhere
    · rw [State.tbit, State.treg, State.site_modSite_same, ← State.treg, State.netStall_eq, State.treg_fault]
      exact hstatus

end Sys2Proof.Machine
end

section
/-! PROOFS. Concord slots (R287-R290): the registers and halves of a slot under the changes of its site, and what the taking of a contribution can do. -/

namespace Sys2Proof.Machine

/-! ### Changes of a site that leave its registers or its halves -/

theorem State.treg_modSite_same (s : State) (t a : Nat) {f : Site → Site} (h : (f (s.site t)).regs = (s.site t).regs) :
    (s.modSite t f).treg t a = s.treg t a := by
  rw [State.treg, State.site_modSite_same, h, State.treg]

theorem State.conc_setTreg (s : State) (t a : Nat) (v : BitVec 32) : ((s.setTreg t a v).site t).conc = (s.site t).conc := by
  rw [State.setTreg, State.site_modSite_same]

theorem State.concIn_setTreg (s : State) (t a : Nat) (v : BitVec 32) : ((s.setTreg t a v).site t).concIn = (s.site t).concIn := by
  rw [State.setTreg, State.site_modSite_same]

theorem State.concHalf_setTfld (s : State) (t a hi lo m n acc : Nat) : (s.setTfld t a hi lo m).concHalf t n acc = s.concHalf t n acc := by
  rw [State.concHalf, State.setTfld, State.conc_setTreg, State.concHalf]

theorem State.concHalf_setConcHalf_same (s : State) (t n acc : Nat) (h : ConcHalf) : (s.setConcHalf t n acc h).concHalf t n acc = h := by
  rw [State.concHalf, State.setConcHalf, State.site_modSite_same]
  exact Map.get_set_same _ _ _ _

theorem State.concIn_setConcHalf (s : State) (t n acc : Nat) (h : ConcHalf) :
    ((s.setConcHalf t n acc h).site t).concIn = (s.site t).concIn := by
  rw [State.setConcHalf, State.site_modSite_same]

/-- R302: the count of an answer leaves what the slots hold and wait for. -/
theorem State.conc_countStatus (s : State) (t status : Nat) : ((s.countStatus t status).site t).conc = (s.site t).conc ∧
    ((s.countStatus t status).site t).concIn = (s.site t).concIn := by
  unfold State.countStatus
  split
  · exact ⟨s.conc_setTreg t _ _, s.concIn_setTreg t _ _⟩
  · exact ⟨s.conc_setTreg t _ _, s.concIn_setTreg t _ _⟩
  · exact ⟨rfl, rfl⟩

/-! ### A contribution is taken (R288-R290) -/

/-- R290: a source finds a buffer where it has one already, or where fewer sources than the round has contributors have one. -/
theorem ConcHalf.buffer_eq_none_iff (h : ConcHalf) (c src f : Nat) (es : List (BitVec 64)) :
    h.buffer c src f es = none ↔ ¬(h.bufs.any (fun b => b.src == src) = true ∨ h.bufs.length < c) := by
  unfold ConcHalf.buffer
  extract_lets put
  split
  · simp [*]
  · split <;> simp [*]

/-- R288-R290: what a contribution must be for its slot to take it. -/
def State.ConcAccepts (s : State) (t : Nat) (p : Packet) : Prop :=
  let n := p.hdr.queue % 16
  s.treg t (R.CONC_ALLOC n) ≠ 0 ∧ p.hdr.queue < 16 ∧ (p.hdr.acc = s.concAcc t n ∨ p.hdr.acc = (s.concAcc t n + 1) % 1024) ∧
    s.concC t n ≠ 0 ∧ p.data.length % concSize (s.concForm t n) = 0 ∧
    p.hdr.arg / 1024 % 1024 + p.data.length / concSize (s.concForm t n) ≤ s.concE t n ∧
    (s.concDet t n = true → (s.concHalf t n p.hdr.acc).bufs.any (fun b => b.src == p.hdr.src) = true ∨
      (s.concHalf t n p.hdr.acc).bufs.length < s.concC t n)

/-- The half of a round in arrival mode with a contribution added. -/
def State.concArrived (s : State) (t : Nat) (p : Packet) : ConcHalf :=
  (s.concHalf t (p.hdr.queue % 16) p.hdr.acc).arrive (s.concForm t (p.hdr.queue % 16)) (p.hdr.arg / 1024 % 1024)
    (concElems (s.concForm t (p.hdr.queue % 16)) p.data)

/-- A contribution is answered with an error code, and at most the slot's overflow is noted; or it enters the half of its accession. -/
theorem State.concTake_cases (s : State) (p : Packet) (t : Nat) :
    ((s.concTake p t).1 ≠ 0 ∧ ¬s.ConcAccepts t p ∧
      ((s.concTake p t).2 = s ∨ (s.concTake p t).2 = s.setTbit t (R.CONC_STATE (p.hdr.queue % 16)) 31 true)) ∨
    ((s.concTake p t).1 = 0 ∧ s.ConcAccepts t p ∧ ∃ h, (s.concTake p t).2 = s.setConcHalf t (p.hdr.queue % 16) p.hdr.acc h ∧
      (s.concDet t (p.hdr.queue % 16) = false → h = s.concArrived t p)) := by
  unfold State.concTake
  extract_lets n form e c f acc size half es
  split
  next hslot =>
    refine .inl ⟨Nat.succ_ne_zero 1, ?_, .inl rfl⟩
    rintro ⟨halloc, hqueue, -⟩
    simp only [Bool.or_eq_true, beq_iff_eq, decide_eq_true_eq] at hslot
    exact hslot.elim halloc hqueue.not_ge
  next hslot =>
  split
  next hround =>
    refine .inl ⟨Nat.succ_ne_zero 0, ?_, .inl rfl⟩
    rintro ⟨-, -, hacc, -⟩
    simp only [acc, Bool.and_eq_true, bne_iff_ne] at hround
    exact hacc.elim hround.1 hround.2
  next hround =>
  split
  next hshape =>
    refine .inl ⟨Nat.succ_ne_zero 1, ?_, .inl rfl⟩
    rintro ⟨-, -, -, hc, hwhole, hfits, -⟩
    simp only [Bool.or_eq_true, beq_iff_eq, bne_iff_ne, decide_eq_true_eq] at hshape
    rcases hshape with (hnone | hpart) | hbeyond
    · exact hc hnone
    · exact hpart hwhole
    · exact hfits.not_gt hbeyond
  next hshape =>
  have hslot' : s.treg t (R.CONC_ALLOC n) ≠ 0 ∧ p.hdr.queue < 16 := by simpa using hslot
  have hround' : p.hdr.acc = acc ∨ p.hdr.acc = (acc + 1) % 1024 := by
    by_contra hneither
    exact hround (by simpa [not_or] using hneither)
  have hshape' : c ≠ 0 ∧ p.data.length % size = 0 ∧ f + p.data.length / size ≤ e := by simpa [and_assoc] using hshape
  have haccepts (hroom : s.concDet t n = true → half.bufs.any (fun b => b.src == p.hdr.src) = true ∨ half.bufs.length < c) :
      s.ConcAccepts t p := ⟨hslot'.1, hslot'.2, hround', hshape'.1, hshape'.2.1, hshape'.2.2, hroom⟩
  split
  next hdet =>
    split
    next h hbuffer =>
      refine .inr ⟨rfl, haccepts fun _ => ?_, h, rfl, fun harrival => absurd hdet (Bool.eq_false_iff.mp harrival)⟩
      by_contra hroom
      rw [(half.buffer_eq_none_iff c p.hdr.src f es).mpr hroom] at hbuffer
      cases hbuffer
    next hbuffer =>
      refine .inl ⟨Nat.succ_ne_zero 1, ?_, .inr rfl⟩
      rintro ⟨-, -, -, -, -, -, hroom⟩
      exact (half.buffer_eq_none_iff c p.hdr.src f es).mp hbuffer (hroom hdet)
  next hdet => exact .inr ⟨rfl, haccepts fun h => absurd h hdet, _, rfl, fun _ => rfl⟩

/-! ### CONC_CONTRIBUTION -/

/-- The unit without its first arrival. -/
def State.concRest (s : State) (t : Nat) (rest : List Packet) : State := s.modSite t fun x => { x with concIn := rest }

section
variable (s : State) (t : Nat) (rest : List Packet) (n acc : Nat)

theorem State.treg_concRest (a : Nat) : (s.concRest t rest).treg t a = s.treg t a := s.treg_modSite_same t a rfl

theorem State.concHalf_concRest : (s.concRest t rest).concHalf t n acc = s.concHalf t n acc := by
  rw [State.concHalf, State.concRest, State.site_modSite_same, State.concHalf]

theorem State.slot_concRest : let v := s.concRest t rest
    v.concC t n = s.concC t n ∧ v.concE t n = s.concE t n ∧ v.concForm t n = s.concForm t n ∧ v.concDet t n = s.concDet t n ∧
      v.concAcc t n = s.concAcc t n := by
  simp only [State.concC, State.concE, State.concForm, State.concDet, State.concAcc, State.tfld, State.tbit, State.treg_concRest, and_self]

theorem State.concAccepts_concRest (p : Packet) : (s.concRest t rest).ConcAccepts t p ↔ s.ConcAccepts t p := by
  obtain ⟨hC, hE, hform, hdet, hacc⟩ := s.slot_concRest t rest (p.hdr.queue % 16)
  simp only [State.ConcAccepts, hC, hE, hform, hdet, hacc, State.treg_concRest, State.concHalf_concRest]

theorem State.concArrived_concRest (p : Packet) : (s.concRest t rest).concArrived t p = s.concArrived t p := by
  obtain ⟨-, -, hform, -, -⟩ := s.slot_concRest t rest (p.hdr.queue % 16)
  simp only [State.concArrived, hform, State.concHalf_concRest]

end

theorem concContribution_does {s : State} {t : Nat} {p : Packet} {rest : List Packet} (hfirst : (s.site t).concIn = p :: rest)
    (hruns : s.wingRuns (wingOf t) = true) : let r := (s.concRest t rest).concTake p t
    Does (.concContribution t) s (if p.reported then r.2 else (r.2.countStatus t r.1).answer p t r.1 []) := by
  rw [Does, exec_concContribution, execConcContribution, hfirst]
  exact when_true hruns

/-- R288: the first arrival leaves the unit; it is taken into its half, or changes no half and is answered with an error code. -/
theorem State.concTake_effect (s : State) (t : Nat) (p : Packet) (rest : List Packet) : let r := (s.concRest t rest).concTake p t
    (r.2.site t).concIn = rest ∧ (r.1 = 0 ↔ s.ConcAccepts t p) ∧
      (r.1 = 0 → s.concDet t (p.hdr.queue % 16) = false → r.2.concHalf t (p.hdr.queue % 16) p.hdr.acc = s.concArrived t p) ∧
      (r.1 ≠ 0 → (r.2.site t).conc = (s.site t).conc) := by
  have hrest : ((s.concRest t rest).site t).concIn = rest ∧ ((s.concRest t rest).site t).conc = (s.site t).conc := by
    rw [State.concRest, State.site_modSite_same]
    exact ⟨rfl, rfl⟩
  obtain ⟨-, -, -, hdet, -⟩ := s.slot_concRest t rest (p.hdr.queue % 16)
  have hcases := (s.concRest t rest).concTake_cases p t
  rw [State.concAccepts_concRest, State.concArrived_concRest, hdet] at hcases
  intro r
  rcases hcases with ⟨hcode, hnot, hstate⟩ | ⟨hcode, haccepts, h, hstate, harrival⟩
  · have hleaves : (r.2.site t).concIn = rest ∧ (r.2.site t).conc = (s.site t).conc := by
      rcases hstate with hstate | hstate
      · rw [show r.2 = _ from hstate]
        exact hrest
      · rw [show r.2 = _ from hstate, State.setTbit, State.setTfld, State.concIn_setTreg, State.conc_setTreg]
        exact hrest
    exact ⟨hleaves.1, iff_of_false hcode hnot, fun h => absurd h hcode, fun _ => hleaves.2⟩
  · rw [show r.2 = _ from hstate]
    refine ⟨(State.concIn_setConcHalf _ _ _ _ _).trans hrest.1, iff_of_true hcode haccepts, fun _ hdet => ?_, fun h => absurd hcode h⟩
    rw [State.concHalf_setConcHalf_same, harrival hdet]

end Sys2Proof.Machine
end

section
/-! PROOFS. The round of a concord slot (R291): the delivery of its results and its notification; and what a write of its shape does (R292). -/

namespace Sys2Proof.Machine

/-! ### Registers of slots -/

theorem State.concState_setTfld_state (s : State) (t n v : Nat) : (s.setTfld t (R.CONC_STATE n) 29 28 v).concState t n = v % 4 :=
  s.tfld_setTfld_same t _ 29 28 v (by decide) (by decide)

theorem concCfg_ne_concState (n m : Nat) : R.CONC_CFG n ≠ R.CONC_STATE m := by
  simp only [R.CONC_CFG, R.CONC_STATE]
  omega

/-- R271: an access that a unit hands to an interface waits there last. -/
theorem State.outbox_post (s : State) (origin : Nat) (agent : Agent) (h : Hdr) (data : List (BitVec 8)) (user : NetUser) : ∃ r : NetReq,
    (s.post origin agent h data user).net.outbox = s.net.outbox ++ [r] ∧ r.data = data ∧ r.hdr = h ∧ r.origin = origin ∧ r.user = user :=
  ⟨_, rfl, rfl, rfl, rfl, rfl⟩

/-! ### CONC_DELIVERY (R291) -/

/-- The bytes of a round's results in element order, with ones for elements whose storage is uncorrectable. -/
def State.concBytes (s : State) (t n : Nat) (uncorr : List Nat) : List (BitVec 8) :=
  (List.range (s.concE t n)).flatMap fun i =>
    let b := concOut (s.concForm t n) (s.tbit t (R.CONC_CFG n) 28) (s.concElem t n i)
    if uncorr.contains i then b.map fun _ => 0xFF else b

/-- R439: the uncorrectable elements of the round are recorded. -/
def State.concSpoiled (s : State) (t n : Nat) (uncorr : List Nat) : State :=
  if uncorr.any fun i => i < s.concE t n then s.uncorrectable (s.sourceOf t 2) (s.partOf t) 0x15 (le 1 n ++ le 1 1) else s

/-- The slot delivers, and one write is to be answered. -/
def State.concDelivers (s : State) (t n : Nat) : State :=
  (s.setTfld t (R.CONC_STATE n) 29 28 2).modSite t fun x => { x with concLeft := Map.set (fun _ => 0) x.concLeft n 1 }

/-- The header of a delivery. -/
def State.concHdr (s : State) (t n : Nat) (bytes : List (BitVec 8)) : Hdr :=
  { Hdr.blank with dev := s.deviceId, kind := 9, len := bytes.length, src := s.sourceOf t 2, addr := s.tacted64 t (R.CONC_DEST_LO n) }

theorem concDelivery_does {s : State} {t n : Nat} (uncorr : List Nat) (hn : n < 16) (hruns : s.wingRuns (wingOf t) = true)
    (hstate : s.concState t n = 1) (hcomplete : s.concComplete t n = true) :
    Does (.concDelivery t n uncorr) s (((s.concSpoiled t n uncorr).concDelivers t n).post t (.core t 2)
      (s.concHdr t n (s.concBytes t n uncorr)) (s.concBytes t n uncorr) (.concWrite t n)) := by
  rw [Does, exec_concDelivery, execConcDelivery, Nat.mod_eq_of_lt hn]
  exact when_true (by simp [hruns, hstate, hcomplete])

theorem State.concDelivers_effect (s : State) (t n : Nat) :
    (s.concDelivers t n).concState t n = 2 ∧ Map.get (fun _ => 0) ((s.concDelivers t n).site t).concLeft n = 1 := by
  constructor
  · rw [State.concState, State.tfld, State.concDelivers, State.treg_modSite_same _ _ _ rfl]
    exact s.concState_setTfld_state t n 2
  · rw [State.concDelivers, State.site_modSite_same]
    exact Map.get_set_same (fun _ => 0) _ n 1

/-- R439: while no partition fails by it, an uncorrectable error leaves the network. -/
theorem State.net_uncorrectable {s : State} (hgoesOn : s.bit R.SEC_CTL 0 = false) (source : Nat) (part : Option Nat) (code : Nat)
    (detail : List Nat) : (s.uncorrectable source part code detail).net = s.net := by
  have hbit : (s.fault code source part detail).bit R.SEC_CTL 0 = false := by
    rw [State.bit, State.reg_fault_other _ _ _ _ _ (by decide)]
    exact hgoesOn
  unfold State.uncorrectable
  extract_lets at_ v
  split
  · rw [if_neg (by rw [hbit]; decide)]
    exact s.net_fault _ _ _ _
  · exact s.net_fault _ _ _ _

theorem State.net_concSpoiled {s : State} {t n : Nat} {uncorr : List Nat}
    (h : (∀ i ∈ uncorr, s.concE t n ≤ i) ∨ s.bit R.SEC_CTL 0 = false) : (s.concSpoiled t n uncorr).net = s.net := by
  unfold State.concSpoiled
  split
  · rename_i hany
    rcases h with hbeyond | hgoesOn
    · obtain ⟨i, hi, hlt⟩ := List.any_eq_true.mp hany
      exact absurd (of_decide_eq_true hlt) (hbeyond i hi).not_gt
    · exact State.net_uncorrectable hgoesOn _ _ _ _
  · rfl

/-- R291: the results leave for CONC_DEST as one write of the slot. -/
theorem State.outbox_concDelivers {s : State} {t n : Nat} {uncorr : List Nat}
    (h : (∀ i ∈ uncorr, s.concE t n ≤ i) ∨ s.bit R.SEC_CTL 0 = false) (bytes : List (BitVec 8)) : ∃ r : NetReq,
    (((s.concSpoiled t n uncorr).concDelivers t n).post t (.core t 2) (s.concHdr t n bytes) bytes (.concWrite t n)).net.outbox =
      s.net.outbox ++ [r] ∧ r.data = bytes ∧ r.hdr.kind = 9 ∧ r.hdr.addr = s.tacted64 t (R.CONC_DEST_LO n) ∧ r.origin = t ∧
      r.user = .concWrite t n := by
  obtain ⟨r, hposted, hdata, hhdr, horigin, huser⟩ :=
    ((s.concSpoiled t n uncorr).concDelivers t n).outbox_post t (.core t 2) (s.concHdr t n bytes) bytes (.concWrite t n)
  have hnet : ((s.concSpoiled t n uncorr).concDelivers t n).net = s.net := State.net_concSpoiled h
  rw [hnet] at hposted
  exact ⟨r, hposted, hdata, by rw [hhdr]; rfl, by rw [hhdr]; rfl, horigin, huser⟩

/-! ### CONC_NOTIFY (R291) -/

/-- The next round of a slot is current: the half of the round that is over is empty. -/
def State.concNext (s : State) (t n acc : Nat) : State :=
  ((s.setConcHalf t n acc .empty).setTfld t (R.CONC_STATE n) 29 28 1).setTfld t (R.CONC_STATE n) 27 18 ((acc + 1) % 1024)

theorem State.concNext_effect (s : State) (t n acc : Nat) : let u := s.concNext t n acc
    u.concState t n = 1 ∧ u.concAcc t n = (acc + 1) % 1024 ∧ u.concHalf t n acc = .empty := by
  refine ⟨?_, ?_, ?_⟩
  · rw [State.concNext, State.concState, State.tfld_setTfld_other _ _ _ _ _ _ _ _ (by decide) (by decide) (by decide)]
    exact State.concState_setTfld_state _ t n 1
  · rw [State.concNext, State.concAcc, State.tfld_setTfld_same _ _ _ _ _ _ (by decide) (by decide)]
    exact Nat.mod_mod_of_dvd _ (dvd_refl _)
  · rw [State.concNext, State.concHalf_setTfld, State.concHalf_setTfld, State.concHalf_setConcHalf_same]

/-- The header of a notification, without its kind. -/
def State.concNoteHdr (s : State) (t n : Nat) : Hdr :=
  { Hdr.blank with dev := s.deviceId, tile := getBits (s.treg t (R.CONC_NOTIFY n)) 29 18, src := s.sourceOf t 2 }

/-- The notification has left as CONC_NOTIFY says: a token, a doorbell, or none. -/
def State.concNotified (s : State) (t n : Nat) : State :=
  match getBits (s.treg t (R.CONC_NOTIFY n)) 31 30 with
  | 1 => s.post t (.core t 2)
      { s.concNoteHdr t n with kind := 4, arg := 2 ^ 12 * getBits (s.treg t (R.CONC_NOTIFY n)) 17 14 + 16 } [] (.concNote t n)
  | 2 => s.post t (.core t 2) { s.concNoteHdr t n with kind := 5, len := 8 } (leBytes 8 (n + 16 * s.concAcc t n)) (.concNote t n)
  | _ => s

theorem concNotify_does {s : State} {t n : Nat} (hn : n < 16) (hruns : s.wingRuns (wingOf t) = true) (hstate : s.concState t n = 2)
    (hanswered : Map.get (fun _ => 0) (s.site t).concLeft n = 0) :
    Does (.concNotify t n) s ((s.concNotified t n).concNext t n (s.concAcc t n)) := by
  rw [Does, exec_concNotify, execConcNotify, Nat.mod_eq_of_lt hn]
  exact when_true (by simp [hruns, hstate, hanswered])

section
variable {s : State} {t n : Nat}

theorem State.concNotified_token (h : getBits (s.treg t (R.CONC_NOTIFY n)) 31 30 = 1) : ∃ q : NetReq,
    (s.concNotified t n).net.outbox = s.net.outbox ++ [q] ∧ q.hdr.kind = 4 ∧ q.hdr.tile = getBits (s.treg t (R.CONC_NOTIFY n)) 29 18 ∧
      q.hdr.arg = 2 ^ 12 * getBits (s.treg t (R.CONC_NOTIFY n)) 17 14 + 16 := by
  rw [State.concNotified, h]
  exact ⟨_, rfl, rfl, rfl, rfl⟩

theorem State.concNotified_doorbell (h : getBits (s.treg t (R.CONC_NOTIFY n)) 31 30 = 2) : ∃ q : NetReq,
    (s.concNotified t n).net.outbox = s.net.outbox ++ [q] ∧ q.hdr.kind = 5 ∧ q.hdr.tile = getBits (s.treg t (R.CONC_NOTIFY n)) 29 18 ∧
      q.data = leBytes 8 (n + 16 * s.concAcc t n) := by
  rw [State.concNotified, h]
  exact ⟨_, rfl, rfl, rfl, rfl⟩

theorem State.concNotified_none (h : getBits (s.treg t (R.CONC_NOTIFY n)) 31 30 = 0) : (s.concNotified t n).net.outbox = s.net.outbox := by
  rw [State.concNotified, h]
  rfl

end

/-! ### A write of CONC_CFG (R292) -/

/-- R6: a field of a tile register that is read and written, and in which every value is defined, takes the value written. -/
theorem State.tfld_tregWrite_same (s : State) (t : Nat) {a hi lo : Nat} (w : BitVec 32)
    (hfield : (findReg tileRegDefs a).any (fun d => d.fields.contains ⟨hi, lo, .rw, 0, []⟩) = true) :
    (s.tregWrite t a w).tfld t a hi lo = getBits w hi lo := by
  rw [State.tfld, State.tregWrite]
  split
  next d hd =>
    rw [hd, Option.any_some, List.contains_iff_mem] at hfield
    have hwf := wellFormed_of_mem_tileRegDefs d (List.mem_of_find?_eq_some hd)
    have hword : lo ≤ hi ∧ hi < 32 := hwf.1 _ hfield
    rw [State.treg_setTreg_same]
    refine Nat.eq_of_testBit_eq fun i => ?_
    rw [testBit_getBits, testBit_getBits]
    by_cases hi' : i < hi - lo + 1
    · rw [hwf.getLsbD_write hfield ⟨Nat.le_add_right lo i, by change lo + i ≤ hi; omega⟩]
      rfl
    · simp [hi']
  next hd => simp [hd] at hfield

theorem concCfg_contributors : ∀ n < 16, (findReg tileRegDefs (R.CONC_CFG n)).any (fun d => d.fields.contains ⟨15, 0, .rw, 0, []⟩) = true := by
  decide +kernel

theorem concCfg_elements : ∀ n < 16, (findReg tileRegDefs (R.CONC_CFG n)).any (fun d => d.fields.contains ⟨25, 16, .rw, 0, []⟩) = true := by
  decide +kernel

/-- Neither half of the slot holds a contribution, and no results are under way. -/
def State.ConcFree (s : State) (t n : Nat) : Prop :=
  (s.concHalf t n (s.concAcc t n)).taken = 0 ∧ (s.concHalf t n (s.concAcc t n + 1)).taken = 0 ∧ s.concState t n ≠ 2

/-- The elements of storage that a shape needs. -/
def concStorage (w : BitVec 32) : Nat := (getBits w 25 16 + 1) * (if w.getLsbD 31 then 2 * getBits w 15 0 else 2)

section
variable {s : State} {t n : Nat} {w : BitVec 32}

theorem concStorage_eq (w : BitVec 32) : (if w.getLsbD 31 then 2 * getBits w 15 0 * (getBits w 25 16 + 1) else 2 * (getBits w 25 16 + 1)) =
    concStorage w := by
  unfold concStorage
  split <;> exact Nat.mul_comm _ _

theorem State.concCfg_takes (hfree : s.ConcFree t n) (hfits : concStorage w ≤ getBits (s.treg t (R.CONC_ALLOC n)) 31 16) :
    s.concCfg t n w = (s.tregWrite t (R.CONC_CFG n) w).setTfld t (R.CONC_STATE n) 29 28 (if getBits w 15 0 == 0 then 0 else 1) := by
  obtain ⟨hcurrent, hnext, hstate⟩ := hfree
  rw [← concStorage_eq] at hfits
  exact if_neg (by simpa [hcurrent, hnext, hstate] using hfits)

theorem State.concCfg_rejects (h : ¬s.ConcFree t n ∨ getBits (s.treg t (R.CONC_ALLOC n)) 31 16 < concStorage w) :
    s.concCfg t n w = s.setTbit t (R.CONC_STATE n) 30 true := by
  rw [← concStorage_eq] at h
  refine if_pos ?_
  rw [Bool.or_eq_true, decide_eq_true_eq]
  refine h.imp_left fun hheld => ?_
  by_contra hnone
  exact hheld (by simpa [State.ConcFree, and_assoc] using hnone)

theorem State.concShaped_effect (hn : n < 16) (v : Nat) :
    let u := (s.tregWrite t (R.CONC_CFG n) w).setTfld t (R.CONC_STATE n) 29 28 v
    u.concC t n = getBits w 15 0 ∧ u.concE t n = getBits w 25 16 + 1 ∧ u.concState t n = v % 4 := by
  have hother := concCfg_ne_concState n n
  refine ⟨?_, ?_, State.concState_setTfld_state _ t n v⟩
  · rw [State.concC, State.tfld_setTfld_ne _ _ _ _ _ _ (.inr hother), State.tfld_tregWrite_same _ _ _ (concCfg_contributors n hn)]
  · rw [State.concE, State.tfld_setTfld_ne _ _ _ _ _ _ (.inr hother), State.tfld_tregWrite_same _ _ _ (concCfg_elements n hn)]

end

theorem concCfgWrite_does {s : State} {a : Agent} {t : Nat} (hreached : s.Reached a t) (n : Nat) (w : BitVec 32) :
    Does (.concCfgWrite a t n w) s (s.applied a t fun s t => s.concCfg t (n % 16) w) := by
  rw [Does, exec_concCfgWrite, execConcCfgWrite, tileWrite_reached hreached]

end Sys2Proof.Machine
end

section
/-! PROOFS. The statement about concord slots. -/

namespace Sys2Proof.Machine

/-- Settles O38, command by command: a contribution enters its half or changes none, a complete round leaves as one write, its notification makes the
next round current, and a shape takes effect while the slot is free and the storage is enough. -/
theorem concordCommands : Obligations.ConcordCommands := by
  unfold Obligations.ConcordCommands
  refine ⟨?contribution, ?delivery, ?notify, ?write, ?shape⟩
  case contribution =>
    intro s t p rest hfirst hruns n form v code
    obtain ⟨hin, hcode, harrival, hheld⟩ := s.concTake_effect t p rest
    let u := (v.concTake p t).2
    obtain ⟨hconc, hwaiting⟩ := u.conc_countStatus t code
    refine ⟨u, u.countStatus t code, concContribution_does hfirst hruns, hin, hwaiting.trans hin, ?_, hcode, harrival,
      fun hrefused => hconc.trans (hheld hrefused)⟩
    intro htaken
    rw [htaken]
    rfl
  case delivery =>
    intro s t n uncorr hn hruns hstate hcomplete hgoesOn bytes
    obtain ⟨hdelivers, hleft⟩ := (s.concSpoiled t n uncorr).concDelivers_effect t n
    exact ⟨_, concDelivery_does uncorr hn hruns hstate hcomplete, hdelivers, hleft, State.outbox_concDelivers hgoesOn bytes⟩
  case notify =>
    intro s t n hn hruns hstate hanswered r
    obtain ⟨hnext, hacc, hempty⟩ := (s.concNotified t n).concNext_effect t n (s.concAcc t n)
    exact ⟨_, concNotify_does hn hruns hstate hanswered, hnext, hacc, hempty, State.concNotified_token, State.concNotified_doorbell,
      State.concNotified_none⟩
  case write => exact fun s a t n w hreached => concCfgWrite_does hreached n w
  case shape =>
    intro s t n w hn u need free
    refine ⟨fun hfree hfits => ?_, fun hrejected => State.concCfg_rejects hrejected⟩
    obtain ⟨hC, hE, hstate⟩ := State.concShaped_effect (s := s) (t := t) (w := w) hn (if getBits w 15 0 == 0 then 0 else 1)
    rw [show u = _ from State.concCfg_takes hfree hfits]
    refine ⟨hC, hE, hstate.trans ?_⟩
    simp only [beq_iff_eq]
    split <;> rfl

end Sys2Proof.Machine
end

section
/-! PROOFS. One step: it takes the command at the front of the queue, every command answers a next state, and no step touches the fuses or
the rest of the queue (R426). -/

namespace Sys2Proof.Machine

/-- Settles O1: the step's match on the queue, at a queue that is not empty. -/
theorem stepTakesTheFrontCommand : Obligations.StepTakesTheFrontCommand := by
  unfold Obligations.StepTakesTheFrontCommand
  intro c rest s hqueue
  simp only [step, hqueue]

/-! ### Every command answers -/

theorem coreInstr_runs {i : Instr} (h : (coreInstr i).isSome) (s : State) : Runs (exec i s) := by
  obtain ⟨⟨t, c, f, op⟩, hi⟩ := Option.isSome_iff_exists.mp h
  rw [coreInstr_exec hi]
  exact issue_runs s t c f op

theorem State.plainCommand_runs (s : State) (op : Nat) (allowed : Bool) (run : List (BitVec 8) → State) :
    Runs (s.plainCommand op allowed run) := by
  unfold State.plainCommand
  split <;> exact ⟨_, rfl⟩

/-- A command that is no instruction of a core is an event, an agent's write or a mailbox command: it branches on what the state holds and on
its operands, and answers a next state in each branch. -/
theorem event_runs {i : Instr} (h : coreInstr i = none) (s : State) : Runs (exec i s) := by
  cases i
  case aluRegisterOp | immediateOp | li | mulDiv | bitOp | cmp | cmpi | predicateOp | br | brl | jr | nop | endOp | wfe | ld | st | amo | fence |
    fenceI | clean | inval | flush | csrr | csrw | csrs | csrc | rdtime | rdcore | trap | breakOp | tret | idle | svget | svset | svswap | xlinv |
    tkSet | tkAdd | tkTake | tkRead | engWait | engNotify | tdSet | tdGetlo | tdGethi | tdAddr | ahSet | ahGet | mm | cbLoad | dr | accScale |
    smInit | smStore | smLoad | stepClose | accDrop | actLoad | fxLoad | fxStore | fxWload | fxWstore | msgDesc | msgData | msgConc | msgToken |
    msgDoorbell | qcnt | qhead | qpop | qnotify | vectorFp32 | vectorBf16 | vectorInteger | laneMove | vq | vx | vcvtI2f | vcvtF2i | specialFunction
    | vld | vst | vldC | vstC | vgather | vscatter | vscatterAdd | vsort | vtopk => cases h
  case getVersion | getIdentity | fwCommit | recoveryBoot | vbringTest => exact s.plainCommand_runs _ _ _
  case memoryResponseArrival | coreFaulted | vscatterAddWrite | passStart | stationaryRowWrite | chunkCompletion | codebookTakesEffect |
    drainComplete | vitRequestAccept | vitAccessComplete | l2ReconfigDone | dramRead | dramWrite | dramPartialWrite | rowRemapSwitch | packetInject
    | packetReceive | queueEntryPublish | queuedMessagePlaced | completionReceive | windowCommandApply | windowBusyClear | concContribution |
    barrierRelease | netStall | engineStall | imageValidationDone | swap | cataloguePublish | raiseCheck | opSwitchRestart | lowerRampStart |
    timeSlew | tsyncInEdge | syncSourceLost | scheduledPulse | inrushGrant | wingClockStart | inrushRelease | capStep | calibration | droopOnset |
    droopEnd | thermalSample | thermalEmergency | emergencyEnd | stageS5 | partitionResetAtP | iftGrant | iftEnd | trainingStepTimeout |
    portStatePublish | copyDescriptorComplete | fwWrite | scrubDone | counterBankSample | pairedAccessCompare | voltageSensorSample |
    snWavefrontArrival =>
    simp only [exec_memoryResponseArrival, execMemoryResponseArrival, exec_coreFaulted, execCoreFaulted, exec_vscatterAddWrite,
      execVscatterAddWrite, exec_passStart, execPassStart, exec_stationaryRowWrite, execStationaryRowWrite, exec_chunkCompletion,
      execChunkCompletion, exec_codebookTakesEffect, execCodebookTakesEffect, exec_drainComplete, execDrainComplete, exec_vitRequestAccept,
      execVitRequestAccept, exec_vitAccessComplete, execVitAccessComplete, exec_l2ReconfigDone, execL2ReconfigDone, exec_dramRead, execDramRead,
      exec_dramWrite, execDramWrite, exec_dramPartialWrite, execDramPartialWrite, exec_rowRemapSwitch, execRowRemapSwitch, exec_packetInject,
      execPacketInject, exec_packetReceive, execPacketReceive, exec_queueEntryPublish, execQueueEntryPublish, exec_queuedMessagePlaced,
      execQueuedMessagePlaced, exec_completionReceive, execCompletionReceive, exec_windowCommandApply, execWindowCommandApply, exec_windowBusyClear,
      execWindowBusyClear, exec_concContribution, execConcContribution, exec_barrierRelease, execBarrierRelease, exec_netStall, execNetStall,
      exec_engineStall, execEngineStall, exec_imageValidationDone, execImageValidationDone, exec_swap, execSwap, exec_cataloguePublish,
      execCataloguePublish, exec_raiseCheck, execRaiseCheck, exec_opSwitchRestart, execOpSwitchRestart, exec_lowerRampStart, execLowerRampStart,
      exec_timeSlew, execTimeSlew, exec_tsyncInEdge, execTsyncInEdge, exec_syncSourceLost, execSyncSourceLost, exec_scheduledPulse,
      execScheduledPulse, exec_inrushGrant, execInrushGrant, exec_wingClockStart, execWingClockStart, exec_inrushRelease, execInrushRelease,
      exec_capStep, execCapStep, exec_calibration, execCalibration, exec_droopOnset, execDroopOnset, exec_droopEnd, execDroopEnd,
      exec_thermalSample, execThermalSample, exec_thermalEmergency, execThermalEmergency, exec_emergencyEnd, execEmergencyEnd, exec_stageS5,
      execStageS5, exec_partitionResetAtP, execPartitionResetAtP, exec_iftGrant, execIftGrant, exec_iftEnd, execIftEnd, exec_trainingStepTimeout,
      execTrainingStepTimeout, exec_portStatePublish, execPortStatePublish, exec_copyDescriptorComplete, execCopyDescriptorComplete, exec_fwWrite,
      execFwWrite, exec_scrubDone, execScrubDone, exec_counterBankSample, execCounterBankSample, exec_pairedAccessCompare, execPairedAccessCompare,
      exec_voltageSensorSample, execVoltageSensorSample, exec_snWavefrontArrival, execSnWavefrontArrival]
    (repeat' split) <;> exact ⟨_, rfl⟩
  all_goals exact ⟨_, rfl⟩

/-- Settles O3: an instruction of a core is an issue, and every other command is an event. -/
theorem everyCommandAnswers : Obligations.EveryCommandAnswers := by
  unfold Obligations.EveryCommandAnswers
  intro i s
  cases h : coreInstr i with
  | none => exact event_runs h s
  | some _ => exact coreInstr_runs (by simp [h]) s

/-! ### What no step touches -/

/-- Each command keeps the queue and the fuses, by its own lemma of Laws/Kept. -/
theorem exec_keeps (i : Instr) (s : State) : Result.Keeps (exec i s) s := by
  cases i <;> simp

/-- Settles O4: a count of time and every command keep the queue and the fuses, and the step itself takes the front command. -/
theorem stepsKeepQueueAndFuses : Obligations.StepsKeepQueueAndFuses := by
  unfold Obligations.StepsKeepQueueAndFuses
  intro s s' hstep
  suffices hkept : s'.kept = (s.pending.tail, s.fuses) from ⟨congrArg Prod.snd hkept, congrArg Prod.fst hkept⟩
  cases hqueue : s.pending with
  | nil =>
    rw [step, hqueue] at hstep
    cases hstep
    rw [s.count_kept, State.kept, hqueue, List.tail_nil]
  | cons c rest =>
    rw [step, hqueue] at hstep
    exact exec_keeps c { s with pending := rest } s' hstep

end Sys2Proof.Machine
end

section
/-! PROOFS. The ring of fault records (R446, R447). -/

namespace Sys2Proof.Machine

/-- R447: a full ring drops its oldest record and counts it as lost. -/
def State.ringRoom (s : State) : State :=
  if 4096 ≤ ((s.reg R.FLT_LOG_TAIL).toNat + 2 ^ 32 - (s.reg R.FLT_LOG_HEAD).toNat) % 2 ^ 32
    then (s.setReg R.FLT_LOG_HEAD (BitVec.ofNat 32 ((s.reg R.FLT_LOG_HEAD).toNat + 1))).bump R.FLT_LOG_LOST 1 else s

/-- R445: the record that a finding writes. -/
def State.faultRec (s : State) (code source : Nat) (part : Option Nat) (detail : List Nat) : FaultRec :=
  { time := s.stamp source, source := source, code := code, event := isEventCode code, partition := part,
    seq := (s.reg R.FLT_LOG_TAIL).toNat, start := s.cur.starts, detail := detail }

/-- R447: the record stands in its slot and FLT_LOG_TAIL is one further. -/
def State.ringPut (s : State) (tail : Nat) (r : FaultRec) : State :=
  { s with faults := Map.set (fun _ => FaultRec.blank) s.faults (tail % 4096) r }.setReg R.FLT_LOG_TAIL (BitVec.ofNat 32 (tail + 1))

theorem State.ringRoom_frame (s : State) : s.ringRoom = { s with regs := s.ringRoom.regs } := by
  unfold State.ringRoom
  split <;> rfl

theorem State.raiseVector_frame (s : State) (fn vec : Nat) :
    s.raiseVector fn vec = { s with msix := s.msix ++ if s.hostUp then [(fn, vec)] else [] } := by
  unfold State.raiseVector State.hostUp
  split <;> simp_all

theorem State.stamp_of_time {s u : State} (h : u.time = s.time) (source : Nat) : u.stamp source = s.stamp source := by
  unfold State.stamp State.siteTime
  rw [h]

/-- The ring makes room, the record is put, and an event raises PF0 vector 1. -/
theorem State.fault_eq (s : State) (code source : Nat) (part : Option Nat) (detail : List Nat) :
    s.fault code source part detail = (fun u => if isEventCode code then u.raiseVector 0 1 else u)
      (s.ringRoom.ringPut (s.reg R.FLT_LOG_TAIL).toNat (s.faultRec code source part detail)) := by
  have hstamp : s.ringRoom.stamp source = s.stamp source := State.stamp_of_time (by rw [s.ringRoom_frame]) source
  have hstart : s.ringRoom.cur.starts = s.cur.starts := by rw [s.ringRoom_frame]
  unfold State.fault State.faultRec State.ringPut
  rw [← hstamp, ← hstart]
  unfold State.ringRoom
  rfl

/-- What the room that the ring makes changes of the registers. -/
theorem State.reg_ringRoom (s : State) (a : Nat) :
    let full := 4096 ≤ ((s.reg R.FLT_LOG_TAIL).toNat + 2 ^ 32 - (s.reg R.FLT_LOG_HEAD).toNat) % 2 ^ 32
    s.ringRoom.reg a =
      if full ∧ a = R.FLT_LOG_HEAD then BitVec.ofNat 32 ((s.reg R.FLT_LOG_HEAD).toNat + 1)
      else if full ∧ a = R.FLT_LOG_LOST then satAdd (s.reg R.FLT_LOG_LOST) 1 else s.reg a := by
  intro full
  have hne : R.FLT_LOG_HEAD ≠ R.FLT_LOG_LOST := by decide
  unfold State.ringRoom State.bump
  split
  next hfull =>
    by_cases hlost : a = R.FLT_LOG_LOST
    · subst hlost
      simp [full, hfull, hne.symm, State.reg_setReg_other]
    · by_cases hhead : a = R.FLT_LOG_HEAD
      · subst hhead
        simp [full, hfull, hne, State.reg_setReg_other]
      · simp [hlost, hhead, State.reg_setReg_other]
  next hfull => simp [full, hfull]

theorem State.reg_of_regs {s u : State} (h : u.regs = s.regs) (a : Nat) : u.reg a = s.reg a := by rw [State.reg, h, State.reg]

theorem State.reg_ringPut (s : State) (tail : Nat) (r : FaultRec) (a : Nat) :
    (s.ringPut tail r).reg a = if a = R.FLT_LOG_TAIL then BitVec.ofNat 32 (tail + 1) else s.reg a := by
  rw [State.ringPut]
  split
  next h => rw [h, State.reg_setReg_same]
  next h => rw [State.reg_setReg_other _ _ h]; exact State.reg_of_regs rfl a

/-- The states that are alike but for the registers, the ring of records and the vectors sent. -/
def DiffersInRing (s u : State) : Prop := ∃ regs faults msix, u = { s with regs := regs, faults := faults, msix := msix }

theorem DiffersInRing.eq {s u : State} (h : DiffersInRing s u) : u = { s with regs := u.regs, faults := u.faults, msix := u.msix } := by
  obtain ⟨regs, faults, msix, rfl⟩ := h
  rfl

theorem DiffersInRing.trans {s u v : State} (h : DiffersInRing s u) (h' : DiffersInRing u v) : DiffersInRing s v := by
  obtain ⟨_, _, _, rfl⟩ := h
  obtain ⟨_, _, _, rfl⟩ := h'
  exact ⟨_, _, _, rfl⟩

theorem State.ringRoom_differs (s : State) : DiffersInRing s s.ringRoom := ⟨_, _, _, s.ringRoom_frame⟩
theorem State.ringPut_differs (s : State) (tail : Nat) (r : FaultRec) : DiffersInRing s (s.ringPut tail r) := ⟨_, _, _, rfl⟩
theorem State.raiseVector_differs (s : State) (fn vec : Nat) : DiffersInRing s (s.raiseVector fn vec) := ⟨_, _, _, s.raiseVector_frame fn vec⟩

section
variable (s : State) (code source : Nat) (part : Option Nat) (detail : List Nat)

theorem State.fault_of_event (h : isEventCode code = true) : s.fault code source part detail =
    (s.ringRoom.ringPut (s.reg R.FLT_LOG_TAIL).toNat (s.faultRec code source part detail)).raiseVector 0 1 :=
  (s.fault_eq code source part detail).trans (if_pos h)

theorem State.fault_of_not_event (h : ¬isEventCode code = true) : s.fault code source part detail =
    s.ringRoom.ringPut (s.reg R.FLT_LOG_TAIL).toNat (s.faultRec code source part detail) :=
  (s.fault_eq code source part detail).trans (if_neg h)

/-- A view of the state that no vector changes sees the record put and nothing else. -/
theorem State.fault_view {β : Type} (view : State → β) (h : ∀ (u : State) (l : List (Nat × Nat)), view { u with msix := l } = view u) :
    view (s.fault code source part detail) =
      view (s.ringRoom.ringPut (s.reg R.FLT_LOG_TAIL).toNat (s.faultRec code source part detail)) := by
  by_cases hevent : isEventCode code = true
  · rw [s.fault_of_event _ _ _ _ hevent, State.raiseVector_frame, h]
  · rw [s.fault_of_not_event _ _ _ _ hevent]

theorem State.msix_ringPut (tail : Nat) (r : FaultRec) : (s.ringRoom.ringPut tail r).msix = s.msix := by
  rw [State.ringPut, State.setReg_msix, s.ringRoom_frame]

theorem State.hostUp_ringPut (tail : Nat) (r : FaultRec) : (s.ringRoom.ringPut tail r).hostUp = s.hostUp := by
  rw [State.hostUp, State.hostUp, State.bit, State.bit, State.reg_ringPut, if_neg (by decide), s.reg_ringRoom,
    if_neg fun h => absurd h.2 (by decide), if_neg fun h => absurd h.2 (by decide)]

theorem State.fault_msix : (s.fault code source part detail).msix = s.msix ++ if isEventCode code ∧ s.hostUp then [(0, 1)] else [] := by
  by_cases hevent : isEventCode code = true
  · rw [s.fault_of_event _ _ _ _ hevent, State.raiseVector_frame, s.msix_ringPut, s.hostUp_ringPut]
    simp only [hevent, true_and]
  · rw [s.fault_of_not_event _ _ _ _ hevent, s.msix_ringPut, if_neg fun h => hevent h.1, List.append_nil]

theorem State.fault_faults :
    (s.fault code source part detail).faults =
      Map.set (fun _ => FaultRec.blank) s.faults ((s.reg R.FLT_LOG_TAIL).toNat % 4096) (s.faultRec code source part detail) := by
  rw [s.fault_view code source part detail State.faults fun _ _ => rfl, State.ringPut, State.setReg_faults, s.ringRoom_frame]

theorem State.reg_fault (a : Nat) :
    (s.fault code source part detail).reg a =
      if a = R.FLT_LOG_TAIL then BitVec.ofNat 32 ((s.reg R.FLT_LOG_TAIL).toNat + 1) else s.ringRoom.reg a := by
  rw [s.fault_view code source part detail (State.reg · a) fun _ _ => State.reg_of_regs rfl a, State.reg_ringPut]

theorem State.fault_differsInRing : DiffersInRing s (s.fault code source part detail) := by
  have hput := s.ringRoom_differs.trans (s.ringRoom.ringPut_differs (s.reg R.FLT_LOG_TAIL).toNat (s.faultRec code source part detail))
  by_cases hevent : isEventCode code = true
  · rw [s.fault_of_event _ _ _ _ hevent]
    exact hput.trans (State.raiseVector_differs _ _ _)
  · rw [s.fault_of_not_event _ _ _ _ hevent]
    exact hput

end

/-- Settles O59, from what the ring's three parts do: room is made, the record is put, an event raises its vector. -/
theorem faultRing : Obligations.FaultRing := by
  unfold Obligations.FaultRing
  intro s code source part detail u tail head full
  have hreg (a : Nat) : u.reg a = _ := s.reg_fault code source part detail a
  have hmod (x : BitVec 32) : (BitVec.ofNat 32 (x.toNat + 1)).toNat = (x.toNat + 1) % 2 ^ 32 := BitVec.toNat_ofNat ..
  have hlost : (satAdd (s.reg R.FLT_LOG_LOST) 1).toNat = min (2 ^ 32 - 1) ((s.reg R.FLT_LOG_LOST).toNat + 1) := by
    rw [satAdd, BitVec.toNat_ofNat]; omega
  have hht : R.FLT_LOG_HEAD ≠ R.FLT_LOG_TAIL := by decide
  have hlt : R.FLT_LOG_LOST ≠ R.FLT_LOG_TAIL := by decide
  have hlh : R.FLT_LOG_LOST ≠ R.FLT_LOG_HEAD := by decide
  refine ⟨?tail, ?head, ?lost, ?others, ?slots, s.fault_msix code source part detail, (s.fault_differsInRing code source part detail).eq⟩
  case tail => rw [hreg, if_pos rfl, hmod]
  case head =>
    rw [hreg, if_neg hht, s.reg_ringRoom]
    by_cases hfull : full
    · rw [if_pos hfull, if_pos ⟨hfull, rfl⟩, hmod]
    · rw [if_neg hfull, if_neg fun h => hfull h.1, if_neg fun h => hfull h.1]
  case lost =>
    rw [hreg, if_neg hlt, s.reg_ringRoom, if_neg fun h => hlh h.2]
    by_cases hfull : full
    · rw [if_pos hfull, if_pos ⟨hfull, rfl⟩, hlost]
    · rw [if_neg hfull, if_neg fun h => hfull h.1]
  case others =>
    intro a htail hhead hlost
    rw [hreg, if_neg htail, s.reg_ringRoom, if_neg fun h => hhead h.2, if_neg fun h => hlost h.2]
  case slots =>
    intro i
    rw [State.fault_faults]
    split
    next h => rw [h, Map.get_set_same]; rfl
    next h => exact Map.get_set_other _ _ _ h

end Sys2Proof.Machine
end

section
/-! PROOFS. Skip levels (R352, R357). -/

namespace Sys2Proof.Machine

/-- Only the position of a pulse in its group of 16 counts. -/
theorem skipsPulse_mod (level i : Nat) : skipsPulse level (i % 16) = skipsPulse level i := by
  rw [skipsPulse, skipsPulse, Nat.mod_mod]

theorem skipped_of_group (level : Nat) (hlevel : level < 17) (i : Nat) (hi : i < 16) :
    ((List.range 16).filter fun k => skipsPulse level ((i + k) % 16)).length = level := by
  revert i level
  decide

theorem skipsPulse_mono {m n : Nat} (h : m ≤ n) (i : Nat) (hm : skipsPulse m i = true) : skipsPulse n i = true := by
  rw [skipsPulse, List.contains_iff_mem] at *
  exact (List.take_prefix_take_left h).subset hm

/-- The least level is the first of 0 to 15 that holds the limit, or 15 where none does. -/
theorem leastLevel_cases (f2 d0 limit : Rat) :
    let within := fun (k : Nat) => f2 + d0 * (16 - (k : Rat)) / 16 ≤ limit
    (leastLevel f2 d0 limit ≤ 15 ∧ within (leastLevel f2 d0 limit) ∧ ∀ k, k < leastLevel f2 d0 limit → ¬within k) ∨
      (leastLevel f2 d0 limit = 15 ∧ ∀ k, k ≤ 15 → ¬within k) := by
  intro within
  unfold leastLevel
  cases hfind : (List.range 16).find? fun (k : Nat) => decide (f2 + d0 * (16 - (k : Rat)) / 16 ≤ limit) with
  | none =>
    rw [List.find?_range_eq_none] at hfind
    exact .inr ⟨rfl, fun k hk => by simpa [within] using hfind k (by omega)⟩
  | some n =>
    obtain ⟨hholds, hn, hleast⟩ := List.find?_range_eq_some.mp hfind
    refine .inl ⟨Nat.le_of_lt_succ (List.mem_range.mp hn), by simpa using hholds, fun k hk => ?_⟩
    simpa [within] using hleast k hk

/-- Settles O58: the first clause by the 17 levels and 16 positions of a group, the last by what the search for the least level finds. -/
theorem skipLevels : Obligations.SkipLevels := by
  unfold Obligations.SkipLevels
  refine ⟨?share, fun m n i h hm => skipsPulse_mono h i hm, fun i => rfl, ?least⟩
  case share =>
    intro level i hlevel
    calc ((List.range 16).filter fun k => skipsPulse level (i + k)).length
        = ((List.range 16).filter fun k => skipsPulse level ((i % 16 + k) % 16)).length := by
          simp only [Nat.mod_add_mod, skipsPulse_mod]
      _ = level := skipped_of_group level (by omega) (i % 16) (Nat.mod_lt _ (by decide))
  case least =>
    intro f2 d0 limit within
    obtain ⟨hle, hholds, hleast⟩ | ⟨h15, hnone⟩ := leastLevel_cases f2 d0 limit
    · exact ⟨hle, fun _ => hholds, hleast, fun h => absurd hholds (h _ hle)⟩
    · exact ⟨h15.le, fun ⟨k, hk, hw⟩ => absurd hw (hnone k hk), fun k hk => hnone k (by omega), fun _ => h15⟩

end Sys2Proof.Machine
end

section
/-! PROOFS. Reads of device registers: of a state that a record update made, and after a chain of writes. -/

namespace Sys2Proof.Machine

/-- A register is read from the register map alone. -/
@[simp] theorem reg_mk (pending freeCtr time timeRunning regs hiLatch loHeld wires sites cat fuses flash pins cur clk tim wings pwr fab faults msix
    ctrlOut viol net dram dbg sec ports hst) (a : Nat) :
    State.reg { pending := pending, freeCtr := freeCtr, time := time, timeRunning := timeRunning, regs := regs, hiLatch := hiLatch,
                loHeld := loHeld, wires := wires, sites := sites, cat := cat, fuses := fuses, flash := flash, pins := pins, cur := cur,
                clk := clk, tim := tim, wings := wings, pwr := pwr, fab := fab, faults := faults, msix := msix, ctrlOut := ctrlOut,
                viol := viol, net := net, dram := dram, dbg := dbg, sec := sec, ports := ports, hst := hst } a =
      Map.get devReset regs a := by
  unfold State.reg; rfl

@[simp] theorem reg_fold (s : State) (a : Nat) : Map.get devReset s.regs a = s.reg a := by
  unfold State.reg; rfl

/-- The states that are alike but for the device registers. -/
def DiffersInRegs (s u : State) : Prop := ∃ regs, u = { s with regs := regs }

namespace DiffersInRegs

theorem refl (s : State) : DiffersInRegs s s := ⟨s.regs, rfl⟩

theorem trans {s u v : State} (h : DiffersInRegs s u) (h' : DiffersInRegs u v) : DiffersInRegs s v := by
  obtain ⟨_, rfl⟩ := h
  obtain ⟨_, rfl⟩ := h'
  exact ⟨_, rfl⟩

theorem setReg (s : State) (a : Nat) (v : BitVec 32) : DiffersInRegs s (s.setReg a v) := ⟨_, rfl⟩
theorem setFld (s : State) (a hi lo n : Nat) : DiffersInRegs s (s.setFld a hi lo n) := setReg s a _
theorem setBit (s : State) (a i : Nat) (b : Bool) : DiffersInRegs s (s.setBit a i b) := setReg s a _

theorem foldl {α : Type} {f : State → α → State} (h : ∀ u x, DiffersInRegs u (f u x)) (l : List α) (s : State) :
    DiffersInRegs s (l.foldl f s) :=
  List.foldlRecOn (motive := DiffersInRegs s) l f (refl s) fun u hu x _ => hu.trans (h u x)

/-- A view of the state that shows no device register is the same. -/
theorem view {β : Type} (view : State → β) (hview : ∀ (u : State) regs, view { u with regs := regs } = view u) {s u : State}
    (h : DiffersInRegs s u) : view u = view s := by
  obtain ⟨regs, rfl⟩ := h
  exact hview s regs

end DiffersInRegs

end Sys2Proof.Machine
end

section
/-! PROOFS. The commands of the operating points and the seam crossings (R328, R332, R341, R457). -/

namespace Sys2Proof.Machine

/-! ### Rails -/

theorem State.setRails_differs (s : State) (ws : List Nat) (p : Nat) : DiffersInRegs s (s.setRails ws p) :=
  .foldl (fun u _ => .setFld u _ _ _ _) ws s

theorem State.rampTo_differs (s : State) (p : Nat) : DiffersInRegs s (s.rampTo p) := s.setRails_differs _ p

theorem State.rampTo_clk (s : State) (p : Nat) : (s.rampTo p).clk = s.clk := (s.rampTo_differs p).view State.clk fun _ _ => rfl

theorem State.reg_setRails_ne (s : State) (ws : List Nat) (p : Nat) {a : Nat} (h : ∀ w, a ≠ R.PWR_RAIL w) :
    (s.setRails ws p).reg a = s.reg a :=
  List.foldlRecOn (motive := fun u : State => u.reg a = s.reg a) ws _ rfl fun u hu w _ => (u.reg_setFld_other _ _ _ (h w)).trans hu

theorem clkOpStatus_ne_pwrRail (w : Nat) : R.CLK_OP_STATUS ≠ R.PWR_RAIL w := by simp only [R.CLK_OP_STATUS, R.PWR_RAIL]; omega

theorem State.reg_rampTo_opStatus (s : State) (p : Nat) : (s.rampTo p).reg R.CLK_OP_STATUS = s.reg R.CLK_OP_STATUS :=
  s.reg_setRails_ne _ p clkOpStatus_ne_pwrRail

theorem State.fld_rampTo_opStatus (s : State) (p hi lo : Nat) : (s.rampTo p).fld R.CLK_OP_STATUS hi lo = s.fld R.CLK_OP_STATUS hi lo :=
  State.fld_of_reg (s.reg_rampTo_opStatus p) hi lo

theorem State.bit_rampTo_opStatus (s : State) (p i : Nat) : (s.rampTo p).bit R.CLK_OP_STATUS i = s.bit R.CLK_OP_STATUS i :=
  State.bit_of_reg (s.reg_rampTo_opStatus p) i

/-! ### A request -/

/-- R328: a request that is refused shows why, and schedules nothing. -/
theorem State.requestSwitch_refused (s : State) {n : Nat} (hn : n < 16) :
    let u := (s.setBit R.CLK_OP_STATUS 16 true).setFld R.CLK_OP_STATUS 23 20 n
    u.clk = s.clk ∧ u.bit R.CLK_OP_STATUS 16 = true ∧ u.fld R.CLK_OP_STATUS 23 20 = n := by
  refine ⟨rfl, ?_, ?_⟩
  · rw [State.bit_setFld_other _ _ _ _ _ _ (by decide) (by decide), State.bit_setBit_same _ _ _ _ (by decide)]
  · rw [State.fld_setFld_same _ _ _ _ _ (by decide) (by decide)]
    exact Nat.mod_eq_of_lt hn

/-- R328: the request is noted: its target, its source and its count. -/
def State.switchNoted (s : State) (at_ target : Nat) : State :=
  let u := ((s.setBit R.CLK_OP_STATUS 11 true).setFld R.CLK_OP_STATUS 7 4 target).setBit R.CLK_OP_STATUS 13 false
  { u with clk := { u.clk with switchAt := at_, target := target, raise := target < s.point, lower := s.point < target,
                               checked := false, settledAt := rampEndAt u.time (u.rampSpan target) } }

theorem State.requestSwitch_granted {s : State} {at_ target : Nat} (hpend : s.bit R.CLK_OP_STATUS 11 = false)
    (hsettle : s.bit R.CLK_OP_STATUS 12 = false) (hahead : s.time + 20000 ≤ at_) :
    s.requestSwitch at_ target 0 = if target < s.point then ((s.switchNoted at_ target).rampTo target).setBit R.CLK_OP_STATUS 12 true
      else s.switchNoted at_ target := by
  simp only [State.requestSwitch, hpend, hsettle, Bool.or_self, Bool.false_eq_true, if_false, Nat.not_lt.mpr hahead, State.switchNoted]
  rfl

theorem State.switchNoted_effect (s : State) (at_ : Nat) {target : Nat} (ht : target < 16) :
    let u := s.switchNoted at_ target
    u.bit R.CLK_OP_STATUS 11 = true ∧ u.fld R.CLK_OP_STATUS 7 4 = target ∧ u.bit R.CLK_OP_STATUS 12 = s.bit R.CLK_OP_STATUS 12 ∧
      u.bit R.CLK_OP_STATUS 13 = false ∧ u.clk.switchAt = at_ ∧ u.clk.target = target ∧ u.clk.raise = decide (target < s.point) ∧
      u.clk.lower = decide (s.point < target) := by
  intro u
  have hreg : u.reg R.CLK_OP_STATUS = (((s.setBit R.CLK_OP_STATUS 11 true).setFld R.CLK_OP_STATUS 7 4 target).setBit R.CLK_OP_STATUS 13 false).reg
      R.CLK_OP_STATUS := State.reg_of_regs rfl _
  rw [State.bit_of_reg hreg, State.bit_of_reg hreg, State.bit_of_reg hreg, State.fld_of_reg hreg]
  simp (disch := omega) only [State.bit_setBit_same, State.bit_setBit_other, State.bit_setFld_other, State.fld_setBit_other,
    State.fld_setFld_same, true_and]
  exact ⟨Nat.mod_eq_of_lt ht, rfl, rfl, rfl, rfl⟩

/-- R328: a request that is granted is pending, and a raise settles. -/
theorem State.requestSwitch_effect {s : State} {at_ target : Nat} (ht : target < 16) (hpend : s.bit R.CLK_OP_STATUS 11 = false)
    (hsettle : s.bit R.CLK_OP_STATUS 12 = false) (hahead : s.time + 20000 ≤ at_) :
    let u := s.requestSwitch at_ target 0
    u.bit R.CLK_OP_STATUS 11 = true ∧ u.fld R.CLK_OP_STATUS 7 4 = target ∧ u.clk.switchAt = at_ ∧ u.clk.target = target ∧
      u.clk.raise = decide (target < s.point) ∧ u.clk.lower = decide (s.point < target) ∧
      u.bit R.CLK_OP_STATUS 12 = decide (target < s.point) ∧ u.bit R.CLK_OP_STATUS 13 = false := by
  have hnoted := s.switchNoted_effect at_ ht
  rw [State.requestSwitch_granted hpend hsettle hahead]
  generalize s.switchNoted at_ target = v at hnoted
  obtain ⟨h11, htarget, h12, h13, hat, hto, hraise, hlower⟩ := hnoted
  split
  next h =>
    have hclk : ((v.rampTo target).setBit R.CLK_OP_STATUS 12 true).clk = v.clk := v.rampTo_clk target
    dsimp only
    rw [hclk]
    simp (disch := decide) only [State.bit_setBit_same, State.bit_setBit_other, State.fld_setBit_other, State.bit_rampTo_opStatus,
      State.fld_rampTo_opStatus]
    exact ⟨h11, htarget, hat, hto, hraise, hlower, (decide_eq_true h).symm, h13⟩
  next h => exact ⟨h11, htarget, hat, hto, hraise, hlower, (h12.trans hsettle).trans (decide_eq_false h).symm, h13⟩

theorem opSwitchRequest_does {s : State} {a : Agent} (ha : s.Granted a R.CLK_OP_SWITCH_AT_HI) (hi : BitVec 32) :
    ∃ t : State, t.clk = s.clk ∧ t.time = s.time ∧ t.reg R.CLK_OP_STATUS = s.reg R.CLK_OP_STATUS ∧
      Does (.opSwitchRequest a hi) s (t.requestSwitch ((s.reg R.CLK_OP_SWITCH_AT_LO).toNat + 2 ^ 32 * hi.toNat) (s.fld R.CLK_OP_TARGET 3 0) 0) := by
  let t := (s.takeLo R.CLK_OP_SWITCH_AT_HI).setReg R.CLK_OP_SWITCH_AT_HI hi
  have hreg {b : Nat} (hb : b ≠ R.CLK_OP_SWITCH_AT_HI) : t.reg b = s.reg b :=
    (State.reg_setReg_other _ _ hb).trans (s.reg_takeLo _ b)
  have hat : t.reg64 R.CLK_OP_SWITCH_AT_LO = (s.reg R.CLK_OP_SWITCH_AT_LO).toNat + 2 ^ 32 * hi.toNat := by
    rw [State.reg64, hreg (by decide), show R.CLK_OP_SWITCH_AT_LO + 4 = R.CLK_OP_SWITCH_AT_HI from rfl, State.reg_setReg_same]
  have htarget : t.fld R.CLK_OP_TARGET 3 0 = s.fld R.CLK_OP_TARGET 3 0 := State.fld_of_reg (hreg (by decide)) 3 0
  refine ⟨t, rfl, rfl, hreg (by decide), ?_⟩
  rw [← hat, ← htarget]
  exact devWrite_granted ha _

/-! ### The check before a raise -/

/-- R328: the raise does not happen, and the rails return. -/
def State.raiseFails (s : State) : State :=
  let u := (((s.rampTo s.point).setBit R.CLK_OP_STATUS 11 false).setBit R.CLK_OP_STATUS 12 true).setFld R.CLK_OP_STATUS 23 20 4
  { u with clk := { u.clk with raise := false, checked := false, settledAt := rampEndAt s.time (s.rampSpan s.point) } }

theorem State.raiseFails_effect (s : State) :
    s.raiseFails.bit R.CLK_OP_STATUS 11 = false ∧ s.raiseFails.bit R.CLK_OP_STATUS 12 = true ∧ s.raiseFails.fld R.CLK_OP_STATUS 23 20 = 4 ∧
      s.raiseFails.clk.raise = false := by
  have hreg := State.reg_of_regs (s := (((s.rampTo s.point).setBit R.CLK_OP_STATUS 11 false).setBit R.CLK_OP_STATUS 12 true).setFld
    R.CLK_OP_STATUS 23 20 4) (u := s.raiseFails) rfl R.CLK_OP_STATUS
  rw [State.bit_of_reg hreg, State.bit_of_reg hreg, State.fld_of_reg hreg]
  simp (disch := omega) only [State.bit_setBit_same, State.bit_setBit_other, State.bit_setFld_other, State.fld_setFld_same, true_and]
  exact ⟨rfl, rfl⟩

theorem raiseCheck_eq {s : State} (hpend : s.bit R.CLK_OP_STATUS 11 = true) (hraise : s.clk.raise = true) (hcheck : s.clk.checked = false)
    (hnear : s.clk.switchAt ≤ s.time + 1000) (hahead : s.time < s.clk.switchAt) (r : List Nat) :
    exec (.raiseCheck r) s = if s.outOfRange r = [] then .next { s with clk := { s.clk with checked := true } }
      else .next (s.raiseFails.curFault 0x25 (le 1 s.clk.target ++ le 2 (maskOf (s.outOfRange r)))) := by
  rw [exec_raiseCheck, execRaiseCheck]
  simp only [hpend, hraise, hcheck, hnear, hahead, decide_true, Bool.not_false, Bool.and_self, if_true, List.isEmpty_iff]
  rfl

/-! ### The switch and its restart -/

theorem lt_of_mem_allWings {w : Nat} (h : w ∈ allWings) : w < 16 := List.mem_range.mp h

/-- R328: a list of wings stops, and no other. -/
theorem State.wingRuns_stop (s : State) (ws : List Nat) (hws : ∀ w ∈ ws, w < 16) {v : Nat} :
    (ws.foldl (fun s w => s.setBit R.CLK_WING_RUN w false) s).wingRuns v = (s.wingRuns v && !ws.contains v) := by
  induction ws generalizing s with
  | nil => simp
  | cons w ws ih =>
    have hw : w < 16 := hws w List.mem_cons_self
    have hset : (s.setBit R.CLK_WING_RUN w false).wingRuns v = (s.wingRuns v && !(v == w)) := by
      by_cases hv : v = w
      · rw [hv, State.wingRuns, State.bit_setBit_same _ _ _ _ (by omega)]
        simp
      · rw [State.wingRuns, State.bit_setBit_other _ _ _ _ _ hv]
        simp [hv, State.wingRuns]
    rw [List.foldl_cons, ih _ fun x hx => hws x (List.mem_cons_of_mem _ hx), hset, List.contains_cons, Bool.not_or, Bool.and_assoc]

/-- R328: what the end of a switch shows. -/
theorem State.switchDone_effect (s : State) :
    s.switchDone.bit R.CLK_OP_STATUS 11 = false ∧ s.switchDone.fld R.CLK_OP_STATUS 23 20 = 1 ∧
      s.switchDone.point = s.clk.target % 16 ∧ s.switchDone.clk.window = none ∧ s.switchDone.clk.lower = s.clk.lower ∧
      s.switchDone.clk.switchAt = s.clk.switchAt ∧ s.switchDone.reg64 R.CLK_OP_LAST_LO = s.clk.switchAt % 2 ^ 64 ∧
      (∀ a, a ≠ R.CLK_OP_STATUS → a ≠ R.CLK_OP_LAST_LO → a ≠ R.CLK_OP_LAST_HI → s.switchDone.reg a = s.reg a) ∧
      s.switchDone.wings = s.wings ∧ s.switchDone.net = s.net ∧ s.switchDone.time = s.time := by
  let t := ((s.setFld R.CLK_OP_STATUS 3 0 s.clk.target).setBit R.CLK_OP_STATUS 11 false).setFld R.CLK_OP_STATUS 23 20 1
  have hreg (a : Nat) : s.switchDone.reg a = (t.setReg64 R.CLK_OP_LAST_LO s.clk.switchAt).reg a := State.reg_of_regs (by
    simp only [State.switchDone, t, State.setBit_eq, State.setFld_eq, State.setReg_clk]) a
  have hstatus : s.switchDone.reg R.CLK_OP_STATUS = t.reg R.CLK_OP_STATUS := by
    rw [hreg, State.reg_setReg64_other _ _ (by decide) (by decide)]
  refine ⟨?_, ?_, ?_, rfl, rfl, rfl, ?_, fun a h1 h2 h3 => ?_, ?_⟩
  · rw [State.bit_of_reg hstatus]
    simp (disch := omega) only [t, State.bit_setFld_other, State.bit_setBit_same]
  · rw [State.fld_of_reg hstatus]
    simp (disch := omega) only [t, State.fld_setFld_same]
    rfl
  · rw [State.point, State.fld_of_reg hstatus]
    simp (disch := omega) only [t, State.fld_setFld_other, State.fld_setBit_other, State.fld_setFld_same]
    rfl
  · rw [State.reg64, hreg, hreg, ← State.reg64, State.reg64_setReg64_same]
  · rw [hreg, State.reg_setReg64_other _ _ h2 h3]
    simp only [t, State.reg_setFld_other _ _ _ _ h1, State.reg_setBit_other _ _ _ h1]
  · simp only [State.switchDone, State.setBit_eq, State.setFld_eq, State.setReg64, State.setReg_wings, State.setReg_net, State.setReg_time,
      and_self]

theorem opSwitch_eq {s : State} {w : Nat} (hw : w < 16) (hpend : s.bit R.CLK_OP_STATUS 11 = true) (hdue : s.clk.switchAt ≤ s.wingTime w)
    (hcheck : s.clk.raise = true → s.clk.checked = true) :
    w ∈ allWings.filter s.switchDue ∧ exec .opSwitch s = .next (if s.clk.target = s.point then s.switchDone
      else (allWings.filter s.switchDue).foldl (fun s w => s.setBit R.CLK_WING_RUN w false)
        { s with clk := { s.clk with window := some (s.clk.switchAt + 64) } }) := by
  have hmem : w ∈ allWings.filter s.switchDue := by
    refine List.mem_filter.mpr ⟨List.mem_range.mpr hw, ?_⟩
    cases hraise : s.clk.raise <;> simp_all [State.switchDue]
  refine ⟨hmem, ?_⟩
  rw [exec_opSwitch, execOpSwitch]
  dsimp only
  rw [when_true (by rw [Bool.not_eq_true', List.isEmpty_eq_false_iff]; exact List.ne_nil_of_mem hmem)]
  simp only [beq_iff_eq]

/-- The bits of a mask are the numbers of its list. -/
theorem testBit_maskOf (ws : List Nat) {i : Nat} (hi : i < 64) : (maskOf ws).testBit i = ws.contains i := by
  suffices h : ∀ n, let m := (List.range n).foldl (fun m w => if ws.contains w then m + 2 ^ w else m) 0
      m < 2 ^ n ∧ ∀ i, i < n → m.testBit i = ws.contains i from (h 64).2 i hi
  intro n
  induction n with
  | zero => simp
  | succ n ih =>
    rw [List.range_succ, List.foldl_append, List.foldl_cons, List.foldl_nil]
    generalize (List.range n).foldl (fun m w => if ws.contains w then m + 2 ^ w else m) 0 = m at ih ⊢
    obtain ⟨hlt, hbits⟩ := ih
    by_cases hn : ws.contains n = true
    · rw [if_pos hn]
      refine ⟨by omega, fun i hi => ?_⟩
      rw [Nat.add_comm]
      rcases Nat.lt_or_eq_of_le (Nat.le_of_lt_succ hi) with hlow | rfl
      · rw [Nat.testBit_two_pow_add_gt hlow, hbits i hlow]
      · rw [Nat.testBit_two_pow_add_eq, Nat.testBit_lt_two_pow hlt, hn]
        rfl
    · rw [if_neg hn]
      refine ⟨by omega, fun i hi => ?_⟩
      rcases Nat.lt_or_eq_of_le (Nat.le_of_lt_succ hi) with hlow | rfl
      · exact hbits i hlow
      · rw [Nat.testBit_lt_two_pow hlt, Bool.eq_false_iff.mpr hn]

/-! ### Crossings -/

theorem State.pulseLead_of_wings {s u : State} (h : u.wings = s.wings) (k : Nat) : u.pulseLead k = s.pulseLead k := by
  simp only [State.pulseLead, State.wing, h]

theorem State.seam_modSeam_same (s : State) (k : Nat) (f : Seam → Seam) : (s.modSeam k f).seam k = f (s.seam k) :=
  Map.get_modify_same _ _ k f

theorem State.seam_modSeam_other (s : State) {j k : Nat} (f : Seam → Seam) (h : j ≠ k) : (s.modSeam k f).seam j = s.seam j :=
  Map.get_modify_other _ _ f h

theorem State.pulseLead_modSeam (s : State) (j k : Nat) (f : Seam → Seam) : (s.modSeam j f).pulseLead k = s.pulseLead k :=
  State.pulseLead_of_wings rfl k

/-- R332: the read pointer stands as many entries behind the write pointer as it was placed; other crossings are left. -/
theorem State.separation_placePointer_same (s : State) (k n : Nat) : (s.placePointer k n).separation k = n := by
  rw [State.separation, State.placePointer, State.seam_modSeam_same, State.pulseLead_modSeam]
  dsimp only
  omega

theorem State.separation_placePointer_other (s : State) {j k : Nat} (n : Nat) (h : j ≠ k) :
    (s.placePointer k n).separation j = s.separation j := by
  rw [State.separation, State.placePointer, State.seam_modSeam_other _ _ h, State.pulseLead_modSeam, State.separation]

theorem State.separation_alignSeams (s : State) {k : Nat} (hk : k < 1344) : (s.alignSeams fun _ => true).separation k = 4 := by
  refine foldl_establishes (P := fun u => u.separation k = 4) (by simpa using hk) (fun u => ?set) (fun u j hu => ?keep) s
  case set => exact u.separation_placePointer_same k 4
  case keep =>
    by_cases hj : k = j
    · exact hj ▸ u.separation_placePointer_same k 4
    · exact (u.separation_placePointer_other 4 hj).trans hu

/-- R332: the alignment changes the crossings of the network alone. -/
theorem State.alignSeams_frame (s : State) (touched : Nat → Bool) : ∃ net, s.alignSeams touched = { s with net := net } :=
  List.foldlRecOn (motive := fun u : State => ∃ net, u = { s with net := net }) _ _ ⟨s.net, rfl⟩ (by
    rintro u ⟨net, rfl⟩ k -
    exact ⟨_, rfl⟩)

theorem State.separation_of_net {s u : State} (hwings : u.wings = s.wings) (hnet : u.net = s.net) (k : Nat) :
    u.separation k = s.separation k := by
  simp only [State.separation, State.seam, hnet, State.pulseLead_of_wings hwings]

/-- R328: every clocked wing restarts from cycle 0. -/
def State.wingsRestarted (s : State) : State :=
  s.clockedWings.foldl (fun s w => s.modWing w fun x => { x with cycle := 0, phase := 0 })
    (s.switchDone.setFld R.CLK_WING_RUN 15 0 (maskOf s.clockedWings))

/-- R328, R332: the state after a restart, but for what a lower has still to do. -/
def State.restarted (s : State) : State :=
  (s.wingsRestarted.setRails s.wingsRestarted.wingsRamping s.wingsRestarted.point).alignSeams fun _ => true

theorem State.wing_wingsRestarted (s : State) {w : Nat} (hw : w ∈ s.clockedWings) :
    (s.wingsRestarted.wing w).cycle = 0 ∧ (s.wingsRestarted.wing w).phase = 0 := by
  refine foldl_establishes (P := fun u => (u.wing w).cycle = 0 ∧ (u.wing w).phase = 0) hw (fun u => ?set) (fun u v hu => ?keep) _
  case set => simp only [State.wing_modWing_same, and_self]
  case keep =>
    by_cases hv : w = v
    · simp only [hv, State.wing_modWing_same, and_self]
    · rwa [State.wing_modWing_other _ _ hv]

theorem State.reg_wingsRestarted (s : State) (a : Nat) :
    s.wingsRestarted.reg a = (s.switchDone.setFld R.CLK_WING_RUN 15 0 (maskOf s.clockedWings)).reg a :=
  foldl_leaves (State.reg · a) (fun u w => u.reg_modWing w a _) _ _

theorem State.modWing_clk (s : State) (w : Nat) (f : WingPower → WingPower) : (s.modWing w f).clk = s.clk := rfl

theorem State.wingsRestarted_clk (s : State) : s.wingsRestarted.clk = s.switchDone.clk :=
  (foldl_leaves State.clk (fun u w => u.modWing_clk w _) _ _).trans (State.setReg_clk _ _ _)

/-- R328, R332: what a restart leaves. -/
theorem State.restarted_effect (s : State) :
    s.restarted.clk = s.switchDone.clk ∧ s.restarted.wings = s.wingsRestarted.wings ∧
      (∀ a, (∀ w, a ≠ R.PWR_RAIL w) → s.restarted.reg a = s.wingsRestarted.reg a) ∧ ∀ k, k < 1344 → s.restarted.separation k = 4 := by
  let u := s.wingsRestarted.setRails s.wingsRestarted.wingsRamping s.wingsRestarted.point
  obtain ⟨net, hnet⟩ := u.alignSeams_frame fun _ => true
  have hrestarted : s.restarted = { u with net := net } := hnet
  obtain ⟨regs, hregs⟩ : DiffersInRegs s.wingsRestarted u := s.wingsRestarted.setRails_differs _ _
  have hreg {a : Nat} (h : ∀ w, a ≠ R.PWR_RAIL w) : u.reg a = s.wingsRestarted.reg a := s.wingsRestarted.reg_setRails_ne _ _ h
  refine ⟨?_, ?_, fun a ha => ?_, fun k hk => u.separation_alignSeams hk⟩
  · rw [hrestarted, hregs]
    exact s.wingsRestarted_clk
  · rw [hrestarted, hregs]
  · rw [hrestarted, reg_mk, reg_fold, hreg ha]

theorem opSwitchRestart_does {s : State} {e : Nat} (hwin : s.clk.window = some e) (hdue : e ≤ s.time) (hruns : s.fld R.CLK_WING_RUN 15 0 = 0) :
    Does .opSwitchRestart s { s.restarted with clk := { s.restarted.clk with
      lower := false, settleStart := if s.clk.lower then some (s.clk.switchAt + 1000) else none } } := by
  rw [Does, exec_opSwitchRestart, execOpSwitchRestart, hwin]
  dsimp only
  rw [when_true (by simp [hdue, hruns]), State.restarted, State.wingsRestarted]

theorem State.lt_of_mem_clockedWings {s : State} {w : Nat} (h : w ∈ s.clockedWings) : w < 16 :=
  lt_of_mem_allWings (List.mem_of_mem_filter (List.mem_of_mem_filter h))

theorem State.wingRuns_restarted (s : State) {w : Nat} (hw : w ∈ s.clockedWings) : s.wingsRestarted.wingRuns w = true := by
  have hlt := State.lt_of_mem_clockedWings hw
  rw [State.wingRuns, State.bit_of_reg (s.reg_wingsRestarted _), State.bit_setFld_in _ _ _ _ _ _ (by omega) (by omega) (by omega),
    testBit_maskOf _ (by omega), List.contains_iff_mem]
  exact hw

/-! ### Alarms of crossings -/

theorem separationBad_iff (n : Int) : separationBad n = true ↔ n < 2 ∨ 6 < n := by simp [separationBad]

theorem seamAlarm_does {s : State} {link sep : Nat} {cn back : Bool} (hlink : link < 336) (hsep : sep ≤ 8) (hbad : sep < 2 ∨ 6 < sep)
    (hlow : 2 ≤ s.separation (seamKey cn link back)) (hhigh : s.separation (seamKey cn link back) ≤ 6)
    (hruns : s.seamRuns (seamKey cn link back) = true) :
    let u := (s.placePointer (seamKey cn link back) sep).setReg R.CLK_SEAM_ALARM
      (BitVec.ofNat 32 (65536 * min (s.fld R.CLK_SEAM_ALARM 31 16 + 1) 0xFFFF + cn.toNat * 512 + link))
    Does (.seamAlarm (link, back) cn sep) s (u.curFault 0x27 (le 4 (u.reg R.CLK_SEAM_ALARM).toNat)) := by
  have hnew : separationBad sep = true := (separationBad_iff _).mpr (by omega)
  have hold : separationBad (s.separation (seamKey cn link back)) = false := by
    rw [Bool.eq_false_iff]
    exact fun h => by have := (separationBad_iff _).mp h; omega
  rw [Does, exec_seamAlarm, execSeamAlarm]
  dsimp only
  rw [Nat.mod_eq_of_lt hlink]
  exact when_true (by simp [hlink, hsep, hnew, hold, hruns])

/-- Settles O43, command by command. -/
theorem operatingPointCommands : Obligations.OperatingPointCommands := by
  unfold Obligations.OperatingPointCommands
  refine ⟨?request, ?check, ?switch, ?restart, ?ramp, ?settled, ?reference, ?alarm⟩
  case request =>
    intro s a hi ha at_ target
    obtain ⟨t, hclk, htime, hstatus, hdoes⟩ := opSwitchRequest_does ha hi
    have hpoint : t.point = s.point := State.fld_of_reg hstatus 3 0
    have hbit (i : Nat) : t.bit R.CLK_OP_STATUS i = s.bit R.CLK_OP_STATUS i := State.bit_of_reg hstatus i
    have htarget : target < 16 := getBits_lt _ 3 0
    refine ⟨_, hdoes, fun hbusy => ?busy, fun hpend hsettle hlate => ?late, fun hpend hsettle hahead => ?granted⟩
    case busy =>
      rw [State.requestSwitch, if_pos (by simpa [hbit] using hbusy), ← hclk]
      exact t.requestSwitch_refused (by decide)
    case late =>
      rw [State.requestSwitch, if_neg (by simp [hbit, hpend, hsettle]), if_pos (by rw [htime]; exact hlate), ← hclk]
      exact t.requestSwitch_refused (by decide)
    case granted =>
      rw [← hpoint]
      exact State.requestSwitch_effect htarget ((hbit 11).trans hpend) ((hbit 12).trans hsettle) (by rw [htime]; exact hahead)
  case check =>
    intro s r hpend hraise hcheck hnear hahead
    have hexec := raiseCheck_eq hpend hraise hcheck hnear hahead r
    refine ⟨fun hin => ⟨{ s with clk := { s.clk with checked := true } }, ?_, rfl, rfl⟩, fun hout => ⟨s.raiseFails, ?_, s.raiseFails_effect⟩⟩
    · rw [Does, hexec, if_pos hin]
    · rw [Does, hexec, if_neg hout]
  case switch =>
    intro s w hw hpend hdue hcheck
    obtain ⟨hmem, hexec⟩ := opSwitch_eq hw hpend hdue hcheck
    have hlt : ∀ v ∈ allWings.filter s.switchDue, v < 16 := fun v hv => lt_of_mem_allWings (List.mem_of_mem_filter hv)
    refine ⟨_, hexec, fun htarget => ?stops, fun htarget => ?same⟩
    case stops =>
      rw [if_neg htarget]
      refine ⟨?_, ?_, fun v _ hv => ?_⟩
      · rw [State.wingRuns_stop _ _ hlt, List.contains_iff_mem.mpr hmem, Bool.not_true, Bool.and_false]
      · exact foldl_leaves (fun u => u.clk.window) (fun u w => congrArg Clk.window (u.setReg_clk _ _)) _ _
      · have hnot : v ∉ allWings.filter s.switchDue := fun h => by
          have := (List.mem_filter.mp h).2
          simp [State.switchDue, Nat.not_le.mpr hv] at this
        rw [State.wingRuns_stop _ _ hlt, Bool.eq_false_iff.mpr (mt List.contains_iff_mem.mp hnot), Bool.not_false, Bool.and_true]
        exact State.bit_of_reg (State.reg_of_regs rfl _) v
    case same =>
      obtain ⟨hpend', hresult, -, hwindow, -, -, hlast, hreg, -⟩ := s.switchDone_effect
      rw [if_pos htarget]
      exact ⟨hpend', hresult, hwindow, hlast, fun v _ => State.bit_of_reg (hreg _ (by decide) (by decide) (by decide)) v⟩
  case restart =>
    intro s e hwin hdue hruns htarget
    obtain ⟨hclk, hwings, hreg, hsep⟩ := s.restarted_effect
    obtain ⟨hpend, -, hpoint, hwindow, -⟩ := s.switchDone_effect
    refine ⟨_, opSwitchRestart_does hwin hdue hruns, ?_⟩
    generalize hu : ({ s.restarted with clk := _ } : State) = u
    have hureg {a : Nat} (ha : ∀ w, a ≠ R.PWR_RAIL w) : u.reg a = (s.switchDone.setFld R.CLK_WING_RUN 15 0 (maskOf s.clockedWings)).reg a := by
      rw [← hu, reg_mk, reg_fold, hreg a ha, s.reg_wingsRestarted]
    have hstatus : u.reg R.CLK_OP_STATUS = s.switchDone.reg R.CLK_OP_STATUS := by
      rw [hureg clkOpStatus_ne_pwrRail, State.reg_setFld_other _ _ _ _ (by decide)]
    have huwings : u.wings = s.wingsRestarted.wings := by rw [← hu, ← hwings]
    refine ⟨?_, ?_, ?_, ?_, fun w hw _ => ⟨?_, ?_⟩, fun k hk _ _ => ?_⟩
    · rw [← hu, hclk, hwindow]
    · rw [State.point, State.fld_of_reg hstatus, ← State.point, hpoint, Nat.mod_eq_of_lt htarget]
    · rw [State.bit_of_reg hstatus, hpend]
    · rw [← hu]
    · rw [← s.wingRuns_restarted hw]
      exact State.bit_of_reg ((hureg clkWingRun_ne_pwrRail).trans (s.reg_wingsRestarted _).symm) w
    · rw [State.wing, huwings, ← State.wing]
      exact s.wing_wingsRestarted hw
    · rw [← hsep k hk]
      exact State.separation_of_net (by rw [← hu]) (by rw [← hu]) k
  case ramp =>
    intro s t0 hstart hdue
    have hexec := exec_lowerRampStart s
    rw [execLowerRampStart, hstart] at hexec
    dsimp only at hexec
    rw [when_true (by simp [hdue])] at hexec
    refine ⟨_, hexec, rfl, ?_, Nat.le_max_right _ _⟩
    · rw [State.bit, reg_mk, reg_fold, ← State.bit, State.bit_setBit_same _ _ _ _ (by decide)]
  case settled =>
    intro s hsettle hstart hdue
    refine ⟨_, ?_, State.bit_setBit_same _ _ _ _ (by decide), rfl, State.fld_setBit_other _ _ _ _ _ _ (by decide) (by decide)⟩
    rw [Does, exec_settlingEnd, execSettlingEnd]
    exact when_true (by simp [hsettle, hstart, hdue])
  case reference =>
    intro s ref href hlost
    refine ⟨_, ?_, State.bit_setBit_same _ _ _ _ (by omega), State.bit_setBit_other _ _ _ _ _ (by omega)⟩
    rw [Does, exec_refclkReturn, execRefclkReturn]
    exact when_true (by simp [href, hlost])
  case alarm =>
    intro s link sep cn back k hlink hsep hbad hlow hhigh hruns
    refine ⟨_, seamAlarm_does hlink hsep hbad hlow hhigh hruns, ?_, ?_⟩
    · exact (State.separation_of_net rfl rfl k).trans (s.separation_placePointer_same k sep)
    · have hcn : cn.toNat ≤ 1 := by cases cn <;> decide
      rw [State.reg_setReg_same, BitVec.toNat_ofNat, Nat.mod_eq_of_lt (by omega)]

end Sys2Proof.Machine
end

section
/-! PROOFS. What a fault record, a trace event, a change of a core's state and an event flag leave of the device registers and of the rest. -/

namespace Sys2Proof.Machine

/-- A view that shows no register, no record and no vector does not show a record of Curator's. -/
theorem State.curFault_view {β : Type} (s : State) (code : Nat) (detail : List Nat) (view : State → β)
    (h : ∀ (u : State) regs faults msix, view { u with regs := regs, faults := faults, msix := msix } = view u) :
    view (s.curFault code detail) = view s := by
  obtain ⟨regs, faults, msix, hu⟩ := s.fault_differsInRing code s.curatorSource none detail
  rw [State.curFault, hu, h]

theorem State.reg_curFault_other (s : State) (code : Nat) (detail : List Nat) {a : Nat} (ha : a ∉ ringRegs) :
    (s.curFault code detail).reg a = s.reg a := s.reg_fault_other code _ none detail ha

/-- R433: a trace event writes the registers of the trace buffers alone. -/
theorem State.reg_traceEvent_other (s : State) (t unit k data : Nat) {a : Nat} (h : ∀ n, n < 8 → a ≠ R.DBG_TRACE_CTL n) :
    (s.traceEvent t unit k data).reg a = s.reg a := by
  refine List.foldlRecOn (motive := fun u : State => u.reg a = s.reg a) _ _ rfl fun u hu n hn => ?_
  have hne := h n (List.mem_range.mp hn)
  dsimp only
  split
  · rw [State.reg_setBit_other _ _ _ hne, State.reg_setFld_other _ _ _ _ hne, reg_mk, reg_fold, hu]
  · exact hu

theorem State.reg_setCoreState_other (s : State) (t c v : Nat) {a : Nat} (h : ∀ n, n < 8 → a ≠ R.DBG_TRACE_CTL n) :
    (s.setCoreState t c v).reg a = s.reg a := by
  unfold State.setCoreState
  dsimp only
  split
  · exact State.reg_setTfld ..
  · rw [State.reg_traceEvent_other _ _ _ _ _ h, State.reg_setTfld]

theorem State.reg_setEvent_other (s : State) (t c : Nat) {a : Nat} (h : ∀ n, n < 8 → a ≠ R.DBG_TRACE_CTL n) :
    (s.setEvent t c).reg a = s.reg a := by
  unfold State.setEvent
  split
  · rfl
  · extract_lets v
    have hv : v.reg a = s.reg a := by
      simp only [v]
      split
      · exact State.reg_setTbit ..
      · rfl
    split
    · rw [State.reg_modCore, State.reg_setCoreState_other _ _ _ _ h, State.reg_setTbit, hv]
    · rw [State.reg_setTbit, hv]

theorem State.reg_addToken (s : State) (t k n a : Nat) : (s.addToken t k n).reg a = s.reg a := by
  unfold State.addToken
  dsimp only
  split
  · rw [State.reg_setTbit, State.setToken, State.reg_setTfld, State.reg_modSite]
  · rw [State.setToken, State.reg_setTfld, State.reg_modSite]

/-- R440: what an operation leaves at each site it leaves at both of a pair. -/
theorem State.both_leaves {β : Type} (view : State → β) {f : State → Nat → State} (h : ∀ s t, view (f s t) = view s) (s : State) (t : Nat) :
    view (s.both t f) = view s := by
  unfold State.both
  split
  · rw [h, h]
  · exact h s t

end Sys2Proof.Machine
end

section
/-! PROOFS. The time base, its alignment, the pins and the timers (R333-R339, R342, R408). -/

namespace Sys2Proof.Machine

/-! ### A measured offset (R334, R337) -/

theorem State.showOffset_frame (s : State) (off : Int) : ∃ regs ctr, s.showOffset off = { s with regs := regs, freeCtr := ctr } := ⟨_, _, rfl⟩

/-- R334: a step of TIME. -/
theorem State.stepTime_effect {s : State} {t : Nat} (ht : s.time = t) (off : Int) :
    (s.stepTime off).time = (((t : Int) - off) % 2 ^ 64).toNat ∧ (s.stepTime off).tim = s.tim ∧ (s.stepTime off).bit R.TIM_SYNC_STATUS 2 = true := by
  unfold State.stepTime
  dsimp only
  refine ⟨?_, State.curFault_view _ _ _ State.tim fun _ _ _ _ => rfl, ?_⟩
  · rw [State.curFault_view _ _ _ State.time fun _ _ _ _ => rfl, State.setBit_eq, State.setFld_eq, State.setReg_time, twos, ht]
  rw [State.bit_of_reg (State.reg_curFault_other _ _ _ (by decide)), State.bit_setBit_same _ _ _ _ (by decide)]

/-- What clearing the slew and the lock count leaves of a step of TIME. -/
theorem State.cleared_effect {v u : State} {n : Nat} {x : Tim} (htime : v.time = n) (htim : v.tim = x)
    (hstepped : v.bit R.TIM_SYNC_STATUS 2 = true) (hu : u = { v with tim := { v.tim with lockCount := 0, slewLeft := 0 } }) :
    u.time = n ∧ u.tim = { x with slewLeft := 0, lockCount := 0 } ∧ u.bit R.TIM_SYNC_STATUS 2 = true := by
  subst hu
  refine ⟨htime, by rw [← htim], ?_⟩
  rw [State.bit, reg_mk, reg_fold]
  exact hstepped

section
variable {s : State} {off : Int} (hcur : s.cur.restarting = false)
include hcur

/-- R337: an offset of at most 1 us is left to slew; within 20 ns it counts towards lock. -/
theorem State.measured_near (hlow : -2000 ≤ off) (hhigh : off ≤ 2000) :
    let u := s.measured off
    u.time = s.time ∧ u.tim = { s.tim with
      lastSync := s.tim.cycles, slewLeft := off / 2, lockCount := if -40 ≤ off ∧ off ≤ 40 then s.tim.lockCount + 1 else 0 } ∧
    (-40 ≤ off → off ≤ 40 → 3 ≤ s.tim.lockCount → u.bit R.TIM_SYNC_STATUS 1 = true) := by
  have hnear : ¬(2000 < off ∨ off < -2000) := by omega
  obtain ⟨regs, ctr, hshow⟩ := s.showOffset_frame off
  unfold State.measured
  rw [hcur, if_neg Bool.false_ne_true, hshow]
  dsimp only
  rw [if_neg fun h => hnear h.1, if_neg hnear]
  split
  next hlock =>
    split
    next h4 => exact ⟨rfl, rfl, fun _ _ _ => State.bit_setBit_same _ _ _ _ (by decide)⟩
    next h4 => exact ⟨rfl, rfl, fun _ _ h3 => absurd (Nat.succ_le_succ h3) h4⟩
  next hlock => exact ⟨rfl, rfl, fun h1 h2 => absurd ⟨h1, h2⟩ hlock⟩

/-- R337: a larger offset steps TIME while no image is active. -/
theorem State.measured_far_idle_eq (hfar : ¬(-2000 ≤ off ∧ off ≤ 2000)) (hidle : s.fab.active = none) :
    ∃ w : State, w.time = s.time ∧ w.tim = { s.tim with lastSync := s.tim.cycles } ∧
      s.measured off = { w.stepTime (off / 2) with tim := { (w.stepTime (off / 2)).tim with lockCount := 0, slewLeft := 0 } } := by
  have hbig : 2000 < off ∨ off < -2000 := by omega
  obtain ⟨regs, ctr, hshow⟩ := s.showOffset_frame off
  refine ⟨{ s with regs := regs, freeCtr := ctr, tim := { s.tim with lastSync := s.tim.cycles } }, rfl, rfl, ?_⟩
  unfold State.measured
  rw [hcur, if_neg Bool.false_ne_true, hshow]
  dsimp only
  rw [if_pos ⟨hbig, by rw [hidle]; rfl⟩]

theorem State.measured_far_idle (hfar : ¬(-2000 ≤ off ∧ off ≤ 2000)) (hidle : s.fab.active = none) :
    let u := s.measured off
    u.time = (((s.time : Int) - off / 2) % 2 ^ 64).toNat ∧ u.tim = { s.tim with lastSync := s.tim.cycles, slewLeft := 0, lockCount := 0 } ∧
      u.bit R.TIM_SYNC_STATUS 2 = true := by
  obtain ⟨w, hwtime, hwtim, heq⟩ := State.measured_far_idle_eq hcur hfar hidle
  have hstep := State.stepTime_effect hwtime (off / 2)
  exact State.cleared_effect hstep.1 (hstep.2.1.trans hwtim) hstep.2.2 heq

/-- R337: with an image active it unlocks the follower. -/
theorem State.measured_far_active (hfar : ¬(-2000 ≤ off ∧ off ≤ 2000)) (hactive : s.fab.active ≠ none) :
    let u := s.measured off
    u.time = s.time ∧ u.tim.lastSync = s.tim.cycles ∧ u.bit R.TIM_SYNC_STATUS 1 = false ∧ u.bit R.TIM_SYNC_STATUS 3 = true := by
  have hbig : 2000 < off ∨ off < -2000 := by omega
  obtain ⟨regs, ctr, hshow⟩ := s.showOffset_frame off
  unfold State.measured
  rw [hcur, if_neg Bool.false_ne_true, hshow]
  dsimp only
  rw [if_neg fun h => hactive (Option.isNone_iff_eq_none.mp h.2), if_pos hbig]
  refine ⟨?_, ?_, ?_, ?_⟩
  · exact State.curFault_view _ _ _ State.time fun _ _ _ _ => rfl
  · exact State.curFault_view _ _ _ (·.tim.lastSync) fun _ _ _ _ => rfl
  · rw [State.bit_of_reg (State.reg_curFault_other _ _ _ (by decide)), State.unlock, State.bit_setBit_other _ _ _ _ _ (by decide),
      State.bit_setBit_same _ _ _ _ (by decide)]
  · rw [State.bit_of_reg (State.reg_curFault_other _ _ _ (by decide)), State.unlock, State.bit_setBit_same _ _ _ _ (by decide)]

end

/-! ### A role (R335, R337, R338) -/

theorem State.regWrite_tim (s : State) (a : Nat) (w : BitVec 32) : (s.regWrite a w).tim = s.tim := by
  unfold State.regWrite
  split <;> rfl

/-- R337: what a new role leaves. -/
theorem State.setRole_effect (s : State) (w : BitVec 32) :
    let u := s.setRole w
    u.reg R.TIM_SYNC_CTL = (s.regWrite R.TIM_SYNC_CTL w).reg R.TIM_SYNC_CTL ∧
      (u.reg R.TIM_SYNC_CTL ≠ s.reg R.TIM_SYNC_CTL → u.tim.lockCount = 0 ∧ u.tim.slewLeft = 0 ∧ u.tim.lastSync = s.tim.cycles ∧
        (u.role ≠ 2 → u.bit R.TIM_SYNC_STATUS 1 = false)) := by
  have htim := s.regWrite_tim R.TIM_SYNC_CTL w
  unfold State.setRole
  generalize s.regWrite R.TIM_SYNC_CTL w = v at htim
  dsimp only
  split
  next hsame => exact ⟨rfl, fun h => absurd (beq_iff_eq.mp hsame) h⟩
  next hnew =>
    split
    next hrole => exact ⟨rfl, fun _ => ⟨rfl, rfl, congrArg Tim.cycles htim, fun h => absurd (beq_iff_eq.mp hrole) h⟩⟩
    next hrole =>
      refine ⟨State.reg_setBit_other _ _ _ (by decide), fun _ => ⟨rfl, rfl, congrArg Tim.cycles htim, fun _ => ?_⟩⟩
      exact State.bit_setBit_same _ _ _ _ (by decide)

/-! ### The source of a follower (R336, R337) -/

/-- R337: unlocking clears the bit of the lock and sets the one of its loss. -/
theorem State.unlock_bits (s : State) : s.unlock.bit R.TIM_SYNC_STATUS 1 = false ∧ s.unlock.bit R.TIM_SYNC_STATUS 3 = true := by
  unfold State.unlock
  exact ⟨by rw [State.bit_setBit_other _ _ _ _ _ (by decide), State.bit_setBit_same _ _ _ _ (by decide)], State.bit_setBit_same _ _ _ _ (by decide)⟩

/-! ### Timers (R338, R339) -/

/-- The registers of timer n: those that no action of a timer writes. -/
def timerReg (n a : Nat) : Prop := a = R.TIM_TIMER_CTL n ∨ a = R.TIM_TIMER_CMP_HI n

theorem timerReg_not_ring {n a : Nat} (hn : n < 32) (h : timerReg n a) : a ∉ ringRegs := by
  rcases h with rfl | rfl <;> simp only [ringRegs, List.mem_cons, List.not_mem_nil, or_false, R.TIM_TIMER_CTL, R.TIM_TIMER_CMP_HI, R.FLT_LOG_HEAD,
    R.FLT_LOG_TAIL, R.FLT_LOG_LOST] <;> omega

theorem timerReg_ne_traceCtl {n a : Nat} (hn : n < 32) (h : timerReg n a) (k : Nat) (hk : k < 8) : a ≠ R.DBG_TRACE_CTL k := by
  rcases h with rfl | rfl <;> simp only [R.TIM_TIMER_CTL, R.TIM_TIMER_CMP_HI, R.DBG_TRACE_CTL] <;> omega

/-- R339: the timer's owner may act on its target. -/
def State.timerReaches (s : State) (n : Nat) : Bool :=
  match s.owner 3 n with
  | some o => s.timerTarget o (s.fld (R.TIM_TIMER_CTL n) 11 0)
  | none => false

/-- R339: what a timer does at its target, if its wing is up; what it may not do is dropped with a record. -/
def State.timerActs (s : State) (n : Nat) (ok : Bool) (f : State → Nat → State) : State :=
  if ok then (if s.wingUp (wingOf (s.fld (R.TIM_TIMER_CTL n) 11 0)) then s.both (s.fld (R.TIM_TIMER_CTL n) 11 0) f else s)
  else s.curFault 0x34 (le 1 n ++ le 2 (s.fld (R.TIM_TIMER_CTL n) 11 0))

section
variable {s : State} {n : Nat}

/-- R339: action 1 wakes a core of the target. -/
theorem State.timerAct_wake (h : s.fld (R.TIM_TIMER_CTL n) 29 28 = 1) : s.timerAct n =
    s.timerActs n (s.timerReaches n && s.fld (R.TIM_TIMER_CTL n) 27 26 < (kindOf (s.fld (R.TIM_TIMER_CTL n) 11 0)).cores)
      fun u t => u.setEvent t (s.fld (R.TIM_TIMER_CTL n) 27 26) := by
  rw [State.timerAct, h]
  rfl

/-- R339: action 2 adds a token at the target. -/
theorem State.timerAct_token (h : s.fld (R.TIM_TIMER_CTL n) 29 28 = 2) : s.timerAct n =
    s.timerActs n (s.timerReaches n && (kindOf (s.fld (R.TIM_TIMER_CTL n) 11 0) = .m || kindOf (s.fld (R.TIM_TIMER_CTL n) 11 0) = .v))
      fun u t => u.addToken t (s.fld (R.TIM_TIMER_CTL n) 25 22) 1 := by
  rw [State.timerAct, h]
  rfl

/-- R339: any other action does nothing more. -/
theorem State.timerAct_none (h1 : s.fld (R.TIM_TIMER_CTL n) 29 28 ≠ 1) (h2 : s.fld (R.TIM_TIMER_CTL n) 29 28 ≠ 2) : s.timerAct n = s := by
  unfold State.timerAct
  dsimp only
  split
  next h => exact absurd h h1
  next h => exact absurd h h2
  next => rfl

theorem State.timerActs_reaching {o : Nat} {ok : Bool} (howner : s.owner 3 n = some o)
    (htarget : s.timerTarget o (s.fld (R.TIM_TIMER_CTL n) 11 0) = true) (hup : s.wingUp (wingOf (s.fld (R.TIM_TIMER_CTL n) 11 0)) = true)
    (htwin : s.twin (s.fld (R.TIM_TIMER_CTL n) 11 0) = none) (hok : ok = true) (f : State → Nat → State) :
    s.timerActs n (s.timerReaches n && ok) f = f s (s.fld (R.TIM_TIMER_CTL n) 11 0) := by
  have hreaches : s.timerReaches n = true := by
    rw [State.timerReaches, howner]
    exact htarget
  rw [State.timerActs, hreaches, hok, Bool.and_self, if_pos rfl, if_pos hup, State.both_alone htwin]

theorem State.reg_timerActs {a : Nat} (hn : n < 32) (h : timerReg n a) (ok : Bool) {f : State → Nat → State}
    (hf : ∀ u t, (f u t).reg a = u.reg a) : (s.timerActs n ok f).reg a = s.reg a := by
  unfold State.timerActs
  split
  · split
    · exact State.both_leaves (State.reg · a) hf s _
    · rfl
  · exact s.reg_curFault_other _ _ (timerReg_not_ring hn h)

/-- R339: a timer's action writes no register of a timer. -/
theorem State.reg_timerAct {a : Nat} (hn : n < 32) (h : timerReg n a) : (s.timerAct n).reg a = s.reg a := by
  by_cases h1 : s.fld (R.TIM_TIMER_CTL n) 29 28 = 1
  · rw [State.timerAct_wake h1]
    exact State.reg_timerActs hn h _ fun u t => u.reg_setEvent_other t _ (timerReg_ne_traceCtl hn h)
  · by_cases h2 : s.fld (R.TIM_TIMER_CTL n) 29 28 = 2
    · rw [State.timerAct_token h2]
      exact State.reg_timerActs hn h _ fun u t => u.reg_addToken t _ 1 a
    · rw [State.timerAct_none h1 h2]

end

/-- R207: an event that no WFE waits for sets the flag. -/
theorem State.event_setEvent {s : State} {t c : Nat} (hc : c < 4) (hwait : ¬(s.coreState t c = 2 ∧ (s.core t c).wait = 1)) (hcore : s.coreState t c ≠ 7) :
    (s.setEvent t c).event t c = true := by
  obtain ⟨v, -, -, heq⟩ := s.setEvent_eq t hcore
  rw [heq, if_neg hwait, State.event_setFlag_same _ _ _ _ hc]

/-- R339: a timer that fires is done. -/
def State.timerDone (s : State) (n : Nat) : State := (s.setBit (R.TIM_TIMER_CTL n) 30 false).setBit (R.TIM_TIMER_CTL n) 31 true

theorem State.timerDone_differs (s : State) (n : Nat) : DiffersInRegs s (s.timerDone n) :=
  (DiffersInRegs.setBit s _ _ _).trans (.setBit _ _ _ _)

theorem State.timerDone_bits (s : State) (n : Nat) :
    (s.timerDone n).bit (R.TIM_TIMER_CTL n) 30 = false ∧ (s.timerDone n).bit (R.TIM_TIMER_CTL n) 31 = true := by
  unfold State.timerDone
  exact ⟨by rw [State.bit_setBit_other _ _ _ _ _ (by decide), State.bit_setBit_same _ _ _ _ (by decide)], State.bit_setBit_same _ _ _ _ (by decide)⟩

theorem State.fld_timerDone (s : State) (n : Nat) {hi lo : Nat} (h : hi < 30) (hl : lo ≤ hi) : (s.timerDone n).fld (R.TIM_TIMER_CTL n) hi lo =
    s.fld (R.TIM_TIMER_CTL n) hi lo := by
  rw [State.timerDone, State.fld_setBit_other _ _ _ _ _ _ (.inl (by omega)) hl,
    State.fld_setBit_other _ _ _ _ _ _ (.inl h) hl]

theorem State.wingUp_timerDone (s : State) (n w : Nat) : (s.timerDone n).wingUp w = s.wingUp w := by
  have hne : R.PWR_RAIL w ≠ R.TIM_TIMER_CTL n := by simp only [R.PWR_RAIL, R.TIM_TIMER_CTL]; omega
  have hreg : (s.timerDone n).reg (R.PWR_RAIL w) = s.reg (R.PWR_RAIL w) := by
    rw [State.timerDone, State.reg_setBit_other _ _ _ hne, State.reg_setBit_other _ _ _ hne]
  rw [State.wingUp, State.wingUp, State.railState, State.fld_of_reg hreg, ← State.railState,
    (s.timerDone_differs n).view (fun u => (u.wing w).clamped) fun _ _ => rfl]

theorem State.timerFire_eq (s : State) (n : Nat) : s.timerFire n = (s.timerDone n).timerAct n := rfl

section
variable {s : State} {n o : Nat} (howner : s.owner 3 n = some o) (htarget : s.timerTarget o (s.fld (R.TIM_TIMER_CTL n) 11 0) = true)
    (hup : s.wingUp (wingOf (s.fld (R.TIM_TIMER_CTL n) 11 0)) = true) (htwin : s.twin (s.fld (R.TIM_TIMER_CTL n) 11 0) = none)
include howner htarget hup htwin

/-- R339: a timer that fires acts on the target that it named before. -/
theorem State.timerActs_done {ok : Bool} (hok : ok = true) (f : State → Nat → State) :
    (s.timerDone n).timerActs n ((s.timerDone n).timerReaches n && ok) f = f (s.timerDone n) (s.fld (R.TIM_TIMER_CTL n) 11 0) := by
  have ht : (s.timerDone n).fld (R.TIM_TIMER_CTL n) 11 0 = s.fld (R.TIM_TIMER_CTL n) 11 0 := s.fld_timerDone n (by decide) (by decide)
  have hdiffers := s.timerDone_differs n
  rw [State.timerActs_reaching (o := o) ?_ ?_ ?_ ?_ hok, ht]
  · exact (hdiffers.view (·.owner 3 n) fun _ _ => rfl).trans howner
  · exact ht ▸ (hdiffers.view (·.timerTarget o _) fun _ _ => rfl).trans htarget
  · exact ht ▸ (s.wingUp_timerDone n _).trans hup
  · exact ht ▸ (hdiffers.view (·.twin _) fun _ _ => rfl).trans htwin

theorem State.timerFire_token (hact : s.fld (R.TIM_TIMER_CTL n) 29 28 = 2)
    (hkind : kindOf (s.fld (R.TIM_TIMER_CTL n) 11 0) = .m ∨ kindOf (s.fld (R.TIM_TIMER_CTL n) 11 0) = .v) :
    s.timerFire n = (s.timerDone n).addToken (s.fld (R.TIM_TIMER_CTL n) 11 0) (s.fld (R.TIM_TIMER_CTL n) 25 22) 1 := by
  have hfld {hi lo : Nat} (h : hi < 30) (hl : lo ≤ hi) := s.fld_timerDone n h hl
  rw [State.timerFire_eq, State.timerAct_token ((hfld (by decide) (by decide)).trans hact),
    State.timerActs_done howner htarget hup htwin (by simpa [hfld] using hkind), hfld (by decide) (by decide)]

theorem State.timerFire_wake (hact : s.fld (R.TIM_TIMER_CTL n) 29 28 = 1)
    (hcore : s.fld (R.TIM_TIMER_CTL n) 27 26 < (kindOf (s.fld (R.TIM_TIMER_CTL n) 11 0)).cores) :
    s.timerFire n = (s.timerDone n).setEvent (s.fld (R.TIM_TIMER_CTL n) 11 0) (s.fld (R.TIM_TIMER_CTL n) 27 26) := by
  have hfld {hi lo : Nat} (h : hi < 30) (hl : lo ≤ hi) := s.fld_timerDone n h hl
  rw [State.timerFire_eq, State.timerAct_wake ((hfld (by decide) (by decide)).trans hact),
    State.timerActs_done howner htarget hup htwin (by simpa [hfld] using hcore), hfld (by decide) (by decide)]

end

theorem State.bits_timerFire (s : State) {n : Nat} (hn : n < 32) :
    (s.timerFire n).bit (R.TIM_TIMER_CTL n) 30 = false ∧ (s.timerFire n).bit (R.TIM_TIMER_CTL n) 31 = true := by
  have hreg := State.reg_timerAct (s := s.timerDone n) hn (.inl rfl)
  rw [State.timerFire_eq, State.bit_of_reg hreg, State.bit_of_reg hreg]
  exact s.timerDone_bits n

theorem timerCmpHi_ne_ctl (n : Nat) : R.TIM_TIMER_CMP_HI n ≠ R.TIM_TIMER_CTL n := by simp only [R.TIM_TIMER_CMP_HI, R.TIM_TIMER_CTL]; omega

/-- R339: an armed timer, before its count is compared. -/
def State.timerSet (s : State) (n : Nat) (hi : BitVec 32) : State :=
  ((s.takeLo (R.TIM_TIMER_CMP_HI n)).setReg (R.TIM_TIMER_CMP_HI n) hi).setBit (R.TIM_TIMER_CTL n) 30 true

theorem State.timerSet_effect (s : State) (n : Nat) (hi : BitVec 32) :
    let u := s.timerSet n hi
    u.timeRunning = s.timeRunning ∧ u.time = s.time ∧ u.sites = s.sites ∧ u.reg (R.TIM_TIMER_CMP_HI n) = hi ∧ u.bit (R.TIM_TIMER_CTL n) 30 = true ∧
      u.reg64 (R.TIM_TIMER_CMP_LO n) = (s.reg (R.TIM_TIMER_CMP_LO n)).toNat + 2 ^ 32 * hi.toNat := by
  have h1 := timerCmpHi_ne_ctl n
  have h2 : R.TIM_TIMER_CMP_LO n ≠ R.TIM_TIMER_CTL n := by simp only [R.TIM_TIMER_CMP_LO, R.TIM_TIMER_CTL]; omega
  have h3 : R.TIM_TIMER_CMP_LO n ≠ R.TIM_TIMER_CMP_HI n := by simp only [R.TIM_TIMER_CMP_LO, R.TIM_TIMER_CMP_HI]; omega
  have hhi : (s.timerSet n hi).reg (R.TIM_TIMER_CMP_HI n) = hi := by
    rw [State.timerSet, State.reg_setBit_other _ _ _ h1, State.reg_setReg_same]
  have hlo : (s.timerSet n hi).reg (R.TIM_TIMER_CMP_LO n) = s.reg (R.TIM_TIMER_CMP_LO n) := by
    rw [State.timerSet, State.reg_setBit_other _ _ _ h2, State.reg_setReg_other _ _ h3, State.reg_takeLo]
  have hnext : R.TIM_TIMER_CMP_LO n + 4 = R.TIM_TIMER_CMP_HI n := by simp only [R.TIM_TIMER_CMP_LO, R.TIM_TIMER_CMP_HI]; omega
  refine ⟨rfl, rfl, rfl, hhi, State.bit_setBit_same _ _ _ _ (by decide), ?_⟩
  rw [State.reg64, hnext, hhi, hlo]

theorem State.timerArm_eq (s : State) (n : Nat) (hi : BitVec 32) : s.timerArm n hi =
    if s.timeRunning = true ∧ (s.reg (R.TIM_TIMER_CMP_LO n)).toNat + 2 ^ 32 * hi.toNat ≤ s.time then (s.timerSet n hi).timerFire n else s.timerSet n hi := by
  obtain ⟨hrun, htime, -, -, -, hcount⟩ := s.timerSet_effect n hi
  have harm : s.timerArm n hi = if ((s.timerSet n hi).timeRunning && (s.timerSet n hi).reg64 (R.TIM_TIMER_CMP_LO n) ≤ (s.timerSet n hi).time) = true
      then (s.timerSet n hi).timerFire n else s.timerSet n hi := rfl
  rw [harm, hrun, htime, hcount]
  exact if_congr (by simp) rfl rfl

theorem State.takeLo_tim (s : State) (a : Nat) : (s.takeLo a).tim = s.tim := rfl

/-- Settles O44, command by command. -/
theorem timeCommands : Obligations.TimeCommands := by
  unfold Obligations.TimeCommands
  refine ⟨?slew, ?pulseOut, ?edge, ?measured, ?request, ?response, ?exchange, ?lost, ?role, ?pulseAt, ?pulse, ?arm, ?fire⟩
  case slew =>
    intro s hrun hrole hdue hleft
    have hexec := exec_timeSlew s
    rw [execTimeSlew, if_pos (by simp [hrun, hrole, hdue, hleft])] at hexec
    rcases Int.lt_or_gt_of_ne hleft with hneg | hpos
    · rw [if_neg (by omega)] at hexec
      exact ⟨_, hexec, rfl, rfl, fun h => absurd h (by omega), fun _ => ⟨rfl, rfl⟩, rfl, rfl⟩
    · rw [if_pos hpos] at hexec
      exact ⟨_, hexec, rfl, rfl, fun _ => ⟨rfl, rfl⟩, fun h => absurd h (by omega), rfl, rfl⟩
  case pulseOut =>
    intro s hrun hpin htime
    refine ⟨s.pulse, ?_, rfl, rfl⟩
    rw [Does, exec_syncPulseOut, execSyncPulseOut]
    exact when_true (by simpa [hrun, hpin, syncPeriod] using htime)
  case edge =>
    intro s hrun
    refine ⟨s.setReg64 R.TIM_CAPTURE_LO s.time, State.reg64_setReg64_same .., ?_⟩
    rw [Does, exec_tsyncInEdge, execTsyncInEdge, if_pos hrun]
  case measured =>
    intro s off hcur
    refine ⟨?last, fun ⟨hlow, hhigh⟩ => ?near, fun hfar hidle => ?idle, fun hfar hactive => ?active⟩
    case last =>
      by_cases hnear : -2000 ≤ off ∧ off ≤ 2000
      · rw [(State.measured_near hcur hnear.1 hnear.2).2.1]
      · by_cases hidle : s.fab.active = none
        · rw [(State.measured_far_idle hcur hnear hidle).2.1]
        · exact (State.measured_far_active hcur hnear hidle).2.1
    case near =>
      obtain ⟨htime, htim, hlock⟩ := State.measured_near hcur hlow hhigh
      exact ⟨htime, congrArg Tim.slewLeft htim, congrArg Tim.lockCount htim, hlock⟩
    case idle =>
      obtain ⟨htime, htim, hstepped⟩ := State.measured_far_idle hcur hfar hidle
      exact ⟨htime, congrArg Tim.slewLeft htim, congrArg Tim.lockCount htim, hstepped⟩
    case active =>
      obtain ⟨htime, -, hlock, hunlock⟩ := State.measured_far_active hcur hfar hactive
      exact ⟨htime, hlock, hunlock⟩
  case request =>
    intro s port t1 hrun
    refine ⟨{ s with ctrlOut := s.ctrlOut ++ [(port, .timeResp t1 (s.portTime port) (s.portTime port))] }, ?_, rfl, rfl⟩
    rw [Does, exec_timeReq, execTimeReq]
    exact when_true hrun
  case response =>
    intro s port t1 t2 t3 hrun hfollows
    rw [Does, exec_timeResp, execTimeResp]
    exact when_true (by simp [hrun, hfollows])
  case exchange =>
    intro s hrun hrole hport htime
    refine ⟨{ s with ctrlOut := s.ctrlOut ++ [(s.fld R.TIM_SYNC_CTL 11 7, .timeReq s.time)] }, ?_, rfl, rfl⟩
    rw [Does, exec_timeSyncExchange, execTimeSyncExchange]
    exact when_true (by simpa [hrun, hrole, hport, syncPeriod] using htime)
  case lost =>
    intro s hrole hcur hlate
    obtain ⟨hlock, hunlock⟩ := s.unlock_bits
    have hperiods : s.tim.lastSync + 4 * syncPeriod ≤ s.tim.cycles := hlate
    have htime : s.unlock.time = s.time := rfl
    have hexec := exec_syncSourceLost s
    rw [execSyncSourceLost, if_pos (by simp [hrole, hcur, hperiods])] at hexec
    generalize s.unlock = v at hexec hlock hunlock htime
    refine ⟨_, hexec, ?_, ?_, rfl, htime⟩
    · rw [← hlock]
      exact State.bit_of_reg (State.reg_of_regs rfl _) 1
    · rw [← hunlock]
      exact State.bit_of_reg (State.reg_of_regs rfl _) 3
  case role =>
    intro s a w ha
    have hexec := exec_timSyncCtlWrite a w s
    rw [execTimSyncCtlWrite, devWrite_granted ha] at hexec
    refine ⟨_, hexec, fun htakes => ?_, fun hfree => ?_⟩
    · rw [if_pos htakes]
    · rw [if_neg (by simp [hfree])]
      exact s.setRole_effect w
  case pulseAt =>
    intro s a hi ha
    have hexec := exec_timPulseAtWrite a hi s
    rw [execTimPulseAtWrite] at hexec
    dsimp only at hexec
    rw [openWrite_open ha] at hexec
    refine ⟨fun howns => ?_, fun howns hpin => ?_, fun howns hpin => ?_⟩
    · rw [Does, hexec, howns]
      rfl
    · rw [Does, hexec, howns, hpin]
      rfl
    · rw [howns, hpin] at hexec
      refine ⟨_, hexec, ?_, ?_⟩
      · simp only [Bool.not_true, Bool.false_eq_true, if_false, State.setReg_tim]
        have hnext : R.TIM_PULSE_AT_LO + 4 = R.TIM_PULSE_AT_HI := rfl
        rw [State.reg64, State.reg_setReg_other _ _ (by decide), State.reg_takeLo, hnext, State.reg_setReg_same, State.takeLo_tim]
      · exact (State.reg_of_regs rfl _).trans (State.reg_setReg_same _ _ _)
  case pulse =>
    intro s n hat hdue
    have hexec := exec_scheduledPulse s
    rw [execScheduledPulse, hat] at hexec
    dsimp only at hexec
    rw [if_pos hdue] at hexec
    exact ⟨_, hexec, rfl, rfl, rfl⟩
  case arm =>
    intro s a n hi hn ha
    have hexec := exec_timerArm a n hi s
    rw [execTimerArm, openWrite_open ha, if_pos hn, State.timerWrite, State.timerArm_eq] at hexec
    obtain ⟨-, -, hsites, hreg, harmed, -⟩ := s.timerSet_effect n hi
    refine ⟨_, hexec, fun howns => ?_, fun howns => by rw [howns]; rfl⟩
    rw [if_pos howns]
    refine ⟨?_, fun hwaits => ?_, fun hrun hpast => ?_⟩
    · split
      · rw [State.timerFire_eq, State.reg_timerAct hn (.inr rfl), State.timerDone, State.reg_setBit_other _ _ _ (timerCmpHi_ne_ctl n),
          State.reg_setBit_other _ _ _ (timerCmpHi_ne_ctl n), hreg]
      · exact hreg
    · rw [if_neg fun h => hwaits.elim (fun hstopped => by simp [hstopped] at h) (Nat.not_lt.mpr h.2)]
      exact ⟨harmed, hsites⟩
    · rw [if_pos ⟨hrun, hpast⟩]
      exact State.bits_timerFire _ hn
  case fire =>
    intro s n hn hrun harmed hdue ctl t core
    obtain ⟨h30, h31⟩ := s.bits_timerFire hn
    have hsites : (s.timerDone n).sites = s.sites := (s.timerDone_differs n).view State.sites fun _ _ => rfl
    have hact : (s.timerDone n).fld (R.TIM_TIMER_CTL n) 29 28 = s.fld ctl 29 28 := s.fld_timerDone n (by decide) (by decide)
    refine ⟨s.timerFire n, ?_, h30, h31, fun hnone => ?_, fun o howner htarget hup htwin => ⟨fun htoken hkind => ?_, fun hwake hcore hwait hexists => ?_⟩⟩
    · rw [Does, exec_timerFire, execTimerFire]
      exact when_true (by simp [hn, hrun, harmed, hdue])
    · rw [State.timerFire_eq, State.timerAct_none (by rw [hact, hnone]; decide) (by rw [hact, hnone]; decide), hsites]
    · intro k
      have hk : k < 16 := getBits_lt _ 25 22
      rw [State.timerFire_token howner htarget hup htwin htoken hkind, State.token_addToken _ _ _ hk,
        (s.timerDone_differs n).view (·.tokOut t _) fun _ _ => rfl, (s.timerDone_differs n).view (·.token t _) fun _ _ => rfl]
    · rw [State.timerFire_wake howner htarget hup htwin hwake hcore]
      refine State.event_setEvent (getBits_lt _ 27 26) ?_ ?_
      · rwa [(s.timerDone_differs n).view (·.coreState t core) fun _ _ => rfl, (s.timerDone_differs n).view (·.core t core) fun _ _ => rfl]
      · rwa [(s.timerDone_differs n).view (·.coreState t core) fun _ _ => rfl]

end Sys2Proof.Machine
end

section
/-! PROOFS. A write of a device register under its access codes (R6), and the commands of IDE and TDISP (R417, R418). -/

namespace Sys2Proof.Machine

/-! ### Fields of a device register that an agent writes (R6) -/

/-- The register has this field. -/
def hasField (a hi lo : Nat) (acc : Access) : Bool := (findReg devRegDefs a).any fun d => d.fields.contains ⟨hi, lo, acc, 0, []⟩

/-- R6: what a write makes of one bit of a field. -/
theorem State.bit_regWrite (s : State) {a hi lo i : Nat} {acc : Access} (w : BitVec 32) (hfield : hasField a hi lo acc = true)
    (hlo : lo ≤ i) (hhi : i ≤ hi) : (s.regWrite a w).bit a i = Field.writtenBit ⟨hi, lo, acc, 0, []⟩ w i (s.bit a i) := by
  rw [State.bit, State.bit, State.regWrite]
  unfold hasField at hfield
  split
  next d hd =>
    rw [hd, Option.any_some, List.contains_iff_mem] at hfield
    rw [State.reg_setReg_same, (wellFormed_of_mem_devRegDefs d (List.mem_of_find?_eq_some hd)).getLsbD_write hfield ⟨hlo, hhi⟩]
  next hd => simp [hd] at hfield

theorem hasField_inWord {a hi lo : Nat} {acc : Access} (hfield : hasField a hi lo acc = true) : lo ≤ hi ∧ hi < 32 := by
  unfold hasField at hfield
  cases hd : findReg devRegDefs a with
  | none => simp [hd] at hfield
  | some d =>
    rw [hd, Option.any_some, List.contains_iff_mem] at hfield
    exact (wellFormed_of_mem_devRegDefs d (List.mem_of_find?_eq_some hd)).1 _ hfield

theorem State.bit_regWrite_rw (s : State) {a hi lo i : Nat} (w : BitVec 32) (hfield : hasField a hi lo .rw = true) (hlo : lo ≤ i) (hhi : i ≤ hi) :
    (s.regWrite a w).bit a i = w.getLsbD i := s.bit_regWrite w hfield hlo hhi

theorem State.bit_regWrite_ro (s : State) {a hi lo i : Nat} (w : BitVec 32) (hfield : hasField a hi lo .ro = true) (hlo : lo ≤ i) (hhi : i ≤ hi) :
    (s.regWrite a w).bit a i = s.bit a i := s.bit_regWrite w hfield hlo hhi

/-- Two fields are alike if their bits are. -/
theorem getBits_congr {v w : BitVec 32} {hi lo : Nat} (h : ∀ i, lo ≤ i → i ≤ hi → v.getLsbD i = w.getLsbD i) (hl : lo ≤ hi) :
    getBits v hi lo = getBits w hi lo := by
  refine Nat.eq_of_testBit_eq fun i => ?_
  rw [testBit_getBits, testBit_getBits]
  by_cases hi' : i < hi - lo + 1
  · rw [h (lo + i) (Nat.le_add_right lo i) (by omega)]
  · simp [hi']

/-- R6: a field that is read and written takes the value written. -/
theorem State.fld_regWrite_rw (s : State) {a hi lo : Nat} (w : BitVec 32) (hfield : hasField a hi lo .rw = true) :
    (s.regWrite a w).fld a hi lo = getBits w hi lo :=
  getBits_congr (fun _ hlo hhi => s.bit_regWrite_rw w hfield hlo hhi) (hasField_inWord hfield).1

/-- R6: a field that is read only stays. -/
theorem State.fld_regWrite_ro (s : State) {a hi lo : Nat} (w : BitVec 32) (hfield : hasField a hi lo .ro = true) :
    (s.regWrite a w).fld a hi lo = s.fld a hi lo :=
  getBits_congr (fun _ hlo hhi => s.bit_regWrite_ro w hfield hlo hhi) (hasField_inWord hfield).1

theorem vfBind_fields : ∀ k < 64, hasField (R.HST_VF_BIND k) 31 31 .rw = true ∧ hasField (R.HST_VF_BIND k) 29 28 .ro = true ∧
    hasField (R.HST_VF_BIND k) 7 0 .rw = true := by
  decide +kernel

/-! ### The TDISP state of a VF (R418) -/

theorem hstVfBind_ne {j k : Nat} (h : j ≠ k) : R.HST_VF_BIND j ≠ R.HST_VF_BIND k := by simp only [R.HST_VF_BIND]; omega

theorem State.tdi_setTdi_same (s : State) (k : Nat) {v : Nat} (hv : v < 4) : (s.setTdi k v).tdi k = v := by
  rw [State.tdi, State.setTdi, State.fld_setFld_same _ _ _ _ _ (by decide) (by decide)]
  exact Nat.mod_eq_of_lt hv

theorem State.tdi_setTdi_other (s : State) {j k : Nat} (v : Nat) (h : j ≠ k) : (s.setTdi k v).tdi j = s.tdi j :=
  State.fld_of_reg (s.reg_setFld_other _ _ _ (hstVfBind_ne h)) 29 28

theorem State.tdi_of_regs {s u : State} (h : u.regs = s.regs) (k : Nat) : u.tdi k = s.tdi k := State.fld_of_reg (State.reg_of_regs h _) 29 28

theorem State.tdi_modHst (s : State) (f : Hst → Hst) (k : Nat) : (s.modHst f).tdi k = s.tdi k := State.tdi_of_regs rfl k

theorem State.setTdi_hst (s : State) (k v : Nat) : (s.setTdi k v).hst = s.hst := State.setReg_hst _ _ _

theorem State.tdi_tdiError_same (s : State) (k : Nat) : (s.tdiError k).tdi k = if s.tdi k = 1 ∨ s.tdi k = 2 then 3 else s.tdi k := by
  unfold State.tdiError
  by_cases h : s.tdi k = 1 ∨ s.tdi k = 2
  · rw [if_pos (by simpa using h), if_pos h, s.tdi_setTdi_same k (by decide)]
  · rw [if_neg (by simpa using h), if_neg h]

theorem State.tdi_tdiError_other (s : State) {j k : Nat} (h : k ≠ j) : (s.tdiError j).tdi k = s.tdi k := by
  unfold State.tdiError
  split
  · exact s.tdi_setTdi_other 3 h
  · rfl

/-- R417, R418: the TDIs of a list that are locked are in ERROR, and the others stay. -/
theorem State.tdi_tdiErrors (l : List Nat) (s : State) (k : Nat) :
    (l.foldl (fun s k => s.tdiError k) s).tdi k = if k ∈ l ∧ (s.tdi k = 1 ∨ s.tdi k = 2) then 3 else s.tdi k := by
  induction l generalizing s with
  | nil => simp
  | cons j l ih =>
    rw [List.foldl_cons, ih]
    by_cases hk : k = j
    · rw [← hk, s.tdi_tdiError_same k]
      by_cases hlocked : s.tdi k = 1 ∨ s.tdi k = 2 <;> simp [hlocked]
    · rw [s.tdi_tdiError_other hk]
      simp [hk]

theorem State.tdiErrors_hst (l : List Nat) (s : State) : (l.foldl (fun s k => s.tdiError k) s).hst = s.hst :=
  foldl_leaves State.hst (fun u k => by
    unfold State.tdiError
    split
    · exact u.setTdi_hst k 3
    · rfl) l s

/-! ### Streams (R417, R418) -/

theorem mem_streamVfs {s : State} {n k : Nat} (hk : 1 ≤ k) (h : (n, k) ∈ s.hst.streams) : k ∈ s.streamVfs n := by
  refine List.mem_map.mpr ⟨(n, k), List.mem_filter.mpr ⟨h, ?_⟩, rfl⟩
  simp only [beq_self_eq_true, Bool.true_and, bne_iff_ne, ne_eq]
  omega

/-- R417: the streams with a key set after one more was installed. -/
theorem any_stream_installed (l : List (Nat × Nat)) (n : Nat) :
    ((if l.any (fun e => e.1 == n) then l else l ++ [(n, 0)]).any fun e => e.1 == n) = true := by
  split
  next h => exact h
  next => simp

/-- R418: the stream is bound to the VF. -/
theorem mem_stream_bound {l : List (Nat × Nat)} {n b : Nat} (h : (n, b) ∈ l) (k : Nat) :
    (n, k) ∈ l.map fun e => if e.1 == n then (n, k) else e :=
  List.mem_map.mpr ⟨(n, b), h, by simp⟩

/-- R418: the state of a locked TDI. -/
def State.tdiLocked (s : State) (k n : Nat) : State :=
  ((s.modHst fun h => { h with streams := h.streams.map fun e => if e.1 == n then (n, k) else e }).setTdi k 1).mctpAnswer 0x06
    (Config.interfaceReport (s.reportItems k))

theorem State.tdiLocked_effect (s : State) (k n : Nat) :
    (s.tdiLocked k n).tdi k = 1 ∧ (s.tdiLocked k n).hst.streams = (s.hst.streams.map fun e => if e.1 == n then (n, k) else e) ∧
      (s.tdiLocked k n).hst.answers = s.hst.answers ++ [(6, Config.interfaceReport (s.reportItems k))] := by
  unfold State.tdiLocked
  generalize hu : s.modHst _ = u
  have hstreams : u.hst.streams = s.hst.streams.map fun e => if e.1 == n then (n, k) else e := by rw [← hu]; rfl
  have hanswers : u.hst.answers = s.hst.answers := by rw [← hu]; rfl
  refine ⟨(State.tdi_of_regs rfl k).trans (u.tdi_setTdi_same k (by decide)), ?_, ?_⟩
  · exact (congrArg Hst.streams (u.setTdi_hst k 1)).trans hstreams
  · rw [← hanswers, ← u.setTdi_hst k 1]
    rfl

/-- Settles O54, command by command. -/
theorem confidentialCommands : Obligations.ConfidentialCommands := by
  unfold Obligations.ConfidentialCommands
  refine ⟨?install, ?failure, ?bind, ?lock, ?interface⟩
  case install =>
    intro s n hsession hn hup
    have hexec := exec_ideKmKeyInstall n s
    rw [execIdeKmKeyInstall, when_true (by simp [hsession, streamExists, hn, hup])] at hexec
    refine ⟨_, hexec, any_stream_installed s.hst.streams n, ?_, fun m hm => ?_⟩
    · simp [State.modHst]
    · simp [State.modHst, hm]
  case failure =>
    intro s n hany
    have hexec := exec_ideIntegrityFailure n s
    rw [execIdeIntegrityFailure, when_true hany] at hexec
    refine ⟨_, hexec, ?_, fun k hk _ hmem hlocked => ?_⟩
    · rw [State.tdiErrors_hst]
      simp [State.modHst]
    · rw [State.tdi_tdiErrors, s.tdi_modHst, if_pos ⟨mem_streamVfs hk hmem, hlocked⟩]
  case bind =>
    intro s a k w hk hlt ha
    obtain ⟨hbound, hstate, hpart⟩ := vfBind_fields k hlt
    refine ⟨s.vfBind k w, ?_, fun hlocked => ?_, fun hunlocked => ?_⟩
    · rw [Does, exec_hstVfBindWrite, execHstVfBindWrite, Nat.mod_eq_of_lt hlt, devWrite_granted ha, if_neg (by simp; omega)]
    · rw [State.vfBind, if_pos (by simpa using hlocked)]
      exact ⟨State.bit_setBit_same _ _ _ _ (by decide), State.bit_setBit_other _ _ _ _ _ (by decide),
        State.fld_setBit_other _ _ _ _ _ _ (by decide) (by decide)⟩
    · rw [State.vfBind, if_neg (by simpa using hunlocked)]
      exact ⟨s.bit_regWrite_rw w hbound (by decide) (by decide), s.fld_regWrite_rw w hpart, (s.fld_regWrite_ro w hstate).trans hunlocked⟩
  case lock =>
    intro s k n p b hk hlt hup hunlocked hpart hidle hn hmem hfree hflows
    obtain ⟨htdi, hstreams, hanswers⟩ := s.tdiLocked_effect k n
    have hgiven : (s.hst.streams.any fun e => e.1 == n && (e.2 == 0 || e.2 == k)) = true :=
      List.any_eq_true.mpr ⟨(n, b), hmem, by simpa using hfree⟩
    refine ⟨s.tdiLocked k n, ?_, htdi, hstreams ▸ mem_stream_bound hmem k, hanswers⟩
    rw [Does, exec_lockInterface, execLockInterface]
    exact when_true (by simp [hk, hlt, hup, hunlocked, hpart, hidle, hn, hgiven, hflows])
  case interface =>
    intro s k hk hlt hup hsettled
    refine ⟨fun hlocked => ⟨s.setTdi k 2, ?_, s.tdi_setTdi_same k (by decide), fun j _ hj => s.tdi_setTdi_other 2 hj⟩,
      fun hlocked => ⟨s.unlockTdi k, ?_, fun hnone => ?_, fun p hsome => ?_⟩⟩
    · rw [Does, exec_startInterface, execStartInterface]
      exact when_true (by simp [hk, hlt, hup, hlocked, hsettled])
    · rw [Does, exec_stopInterface, execStopInterface]
      exact when_true (by simp [hk, hlt, hup, hlocked, hsettled])
    · have hnone' : (s.modHst fun h => { h with streams := h.streams.map fun e => if e.2 == k then (e.1, 0) else e }).vfPart k = none := hnone
      rw [State.unlockTdi, hnone']
      exact State.tdi_setTdi_same _ k (by decide)
    · have hsome' : (s.modHst fun h => { h with streams := h.streams.map fun e => if e.2 == k then (e.1, 0) else e }).vfPart k = some p := hsome
      rw [State.unlockTdi, hsome']
      simp [State.modHst]

end Sys2Proof.Machine
end

section
/-! PROOFS. Reports: what fault records and changes of the catalogue leave of the state. -/

namespace Sys2Proof.Machine

/-- The second state is the first after reports: it differs in the catalogue, in the fault ring and in the vectors raised, and its other registers are
the same. -/
def Reports (s u : State) : Prop :=
  (∃ regs cat faults msix, u = { s with regs := regs, cat := cat, faults := faults, msix := msix }) ∧
    ∀ a, a ≠ R.CAT_STATUS → a ∉ ringRegs → u.reg a = s.reg a

namespace Reports

theorem refl (s : State) : Reports s s := ⟨⟨_, _, _, _, rfl⟩, fun _ _ _ => rfl⟩

theorem trans {s u v : State} (h : Reports s u) (h' : Reports u v) : Reports s v := by
  obtain ⟨⟨_, _, _, _, rfl⟩, hreg⟩ := h
  obtain ⟨⟨_, _, _, _, rfl⟩, hreg'⟩ := h'
  exact ⟨⟨_, _, _, _, rfl⟩, fun a ha ha' => (hreg' a ha ha').trans (hreg a ha ha')⟩

theorem foldl {α : Type} {f : State → α → State} (h : ∀ u x, Reports u (f u x)) (l : List α) (s : State) : Reports s (l.foldl f s) :=
  List.foldlRecOn (motive := Reports s) l f (refl s) fun u hu x _ => hu.trans (h u x)

/-- A view of the state that shows no register, no catalogue, no record and no vector is the same. -/
theorem view {β : Type} (view : State → β)
    (hview : ∀ (u : State) regs cat faults msix, view { u with regs := regs, cat := cat, faults := faults, msix := msix } = view u)
    {s u : State} (h : Reports s u) : view u = view s := by
  obtain ⟨⟨regs, cat, faults, msix, rfl⟩, -⟩ := h
  exact hview s regs cat faults msix

theorem reg {s u : State} (h : Reports s u) {a : Nat} (ha : a ≠ R.CAT_STATUS) (ha' : a ∉ ringRegs) : u.reg a = s.reg a := h.2 a ha ha'

theorem fld {s u : State} (h : Reports s u) {a : Nat} (ha : a ≠ R.CAT_STATUS) (ha' : a ∉ ringRegs) (hi lo : Nat) : u.fld a hi lo = s.fld a hi lo :=
  State.fld_of_reg (h.reg ha ha') hi lo

theorem bit {s u : State} (h : Reports s u) {a : Nat} (ha : a ≠ R.CAT_STATUS) (ha' : a ∉ ringRegs) (i : Nat) : u.bit a i = s.bit a i :=
  State.bit_of_reg (h.reg ha ha') i

theorem fault (s : State) (code source : Nat) (part : Option Nat) (detail : List Nat) : Reports s (s.fault code source part detail) := by
  refine ⟨?_, fun a _ ha => s.reg_fault_other code source part detail ha⟩
  obtain ⟨regs, faults, msix, h⟩ := s.fault_differsInRing code source part detail
  exact ⟨regs, s.cat, faults, msix, h⟩

theorem curFault (s : State) (code : Nat) (detail : List Nat) : Reports s (s.curFault code detail) := fault s _ _ _ _

theorem catalogue (s : State) (cat : Cat) : Reports s { s with cat := cat } := ⟨⟨s.regs, cat, s.faults, s.msix, rfl⟩, fun a _ _ => State.reg_of_regs rfl a⟩

theorem catStatus (s : State) (i : Nat) (b : Bool) : Reports s (s.setBit R.CAT_STATUS i b) :=
  ⟨⟨_, s.cat, s.faults, s.msix, rfl⟩, fun _ ha _ => s.reg_setBit_other _ _ ha⟩

theorem catDirty (s : State) (dead : Bool) : Reports s (s.catDirty dead) := by
  have hcat : Reports s { s with cat := { s.cat with dirty := true, dirtyDead := s.cat.dirtyDead || dead } } := catalogue s _
  unfold State.catDirty
  dsimp only
  split
  · exact hcat.trans (catStatus _ _ _)
  · exact hcat

theorem setEntry (s : State) (t e origin detail : Nat) : Reports s (s.setEntry t e origin detail) := by
  unfold State.setEntry
  dsimp only
  split
  · exact refl s
  · exact (catalogue s _).trans (catDirty _ _)

theorem markSiteDead (s : State) (t reason origin detail : Nat) : Reports s (s.markSiteDead t reason origin detail) := by
  unfold State.markSiteDead
  split
  · exact refl s
  · exact setEntry s _ _ _ _

end Reports

end Sys2Proof.Machine
end

section
/-! PROOFS. The mailbox and its commands (R372, R389, R420, R421), MCTP and SPDM (R422, R423, R427). -/

namespace Sys2Proof.Machine

/-! ### A request and its answer (R420) -/

/-- R420: u is s with the request in service answered, but for what the command did. -/
def State.Answers (s u : State) (r : List (BitVec 8)) (result : Nat) (payload : List (BitVec 8)) : Prop :=
  let rsp := leBytes 2 (reqOp r) ++ leBytes 2 payload.length ++ leBytes 4 (reqTag r) ++ leBytes 4 result ++ payload
  u.hst.mbxWork = none ∧ u.mbxState = 1 ∧
  (∀ i, i < (rsp.length + 3) / 4 → Map.get (fun _ => 0) u.hst.mbxRsp i = BitVec.ofNat 32 (leNat ((rsp.drop (4 * i)).take 4))) ∧
  u.hst.answers = s.hst.answers ++ if s.fld R.HST_MBX_STATUS 9 9 = 1 then [(0x7E, rsp)] else []

/-- The words of the response area after a response. -/
def mbxRspWith (rsp : List (BitVec 8)) (m : List (Nat × BitVec 32)) : List (Nat × BitVec 32) :=
  (List.range ((rsp.length + 3) / 4)).foldl (fun m i => Map.set (fun _ => 0) m i (BitVec.ofNat 32 (leNat ((rsp.drop (4 * i)).take 4)))) m

theorem get_mbxRspWith (rsp : List (BitVec 8)) (m : List (Nat × BitVec 32)) {i : Nat} (hi : i < (rsp.length + 3) / 4) :
    Map.get (fun _ => 0) (mbxRspWith rsp m) i = BitVec.ofNat 32 (leNat ((rsp.drop (4 * i)).take 4)) :=
  Map.get_foldl_set_mem (fun _ => 0) (key := id) _ (fun _ _ _ _ h => h) (List.mem_range.mpr hi) m

section
variable (s : State) (r : List (BitVec 8)) (result : Nat) (payload : List (BitVec 8))

/-- R420: an answer changes the mailbox alone. -/
theorem State.mailboxAnswer_frame : s.mailboxAnswer r result payload = { s with hst := { s.hst with
    mbxWork := none, mbxRsp := mbxRspWith (response r result payload) s.hst.mbxRsp,
    answers := s.hst.answers ++ if s.fld R.HST_MBX_STATUS 9 9 = 1 then [(0x7E, response r result payload)] else [] } } := by
  unfold State.mailboxAnswer
  dsimp only
  by_cases h : s.fld R.HST_MBX_STATUS 9 9 = 1
  · rw [if_pos (by simpa using h), if_pos h]
    rfl
  · rw [if_neg (by simpa using h), if_neg h, List.append_nil]
    rfl

theorem State.mailboxAnswer_regs : (s.mailboxAnswer r result payload).regs = s.regs := by rw [State.mailboxAnswer_frame]
theorem State.mailboxAnswer_flash : (s.mailboxAnswer r result payload).flash = s.flash := by rw [State.mailboxAnswer_frame]

theorem State.mbxState_of_reg {s u : State} (h : u.reg R.HST_MBX_STATUS = s.reg R.HST_MBX_STATUS) : u.mbxState = s.mbxState := State.fld_of_reg h 1 0

end

/-- R420: a state whose mailbox is as that of s answers the request of s. -/
theorem State.answers_of_same {s v : State} (hhst : v.hst = s.hst) (hreg : v.reg R.HST_MBX_STATUS = s.reg R.HST_MBX_STATUS) (hbusy : s.mbxState = 1)
    (r : List (BitVec 8)) (result : Nat) (payload : List (BitVec 8)) : s.Answers (v.mailboxAnswer r result payload) r result payload := by
  refine ⟨by rw [State.mailboxAnswer_frame], ?_, fun i hi => ?_, ?_⟩
  · rw [State.mbxState_of_reg (State.reg_of_regs (v.mailboxAnswer_regs r result payload) _), State.mbxState_of_reg hreg, hbusy]
  · rw [State.mailboxAnswer_frame]
    exact get_mbxRspWith _ _ hi
  · rw [State.mailboxAnswer_frame]
    dsimp only
    rw [hhst, State.fld_of_reg hreg]
    rfl

/-- R420: an answer of s itself. -/
theorem State.answers_self {s : State} (hbusy : s.mbxState = 1) (r : List (BitVec 8)) (result : Nat) (payload : List (BitVec 8)) :
    s.Answers (s.mailboxAnswer r result payload) r result payload ∧ (s.mailboxAnswer r result payload).flash = s.flash :=
  ⟨State.answers_of_same rfl rfl hbusy r result payload, s.mailboxAnswer_flash r result payload⟩

section
variable {s : State} (hup : s.mailboxUp = true) (hbusy : s.mbxState = 1) {r : List (BitVec 8)} (hwork : s.hst.mbxWork = some r)
include hup hbusy hwork

theorem State.mailboxJob_eq {op : Nat} (hop : reqOp r = op) : s.mailboxJob op = some r := by
  simp [State.mailboxJob, hup, hbusy, hwork, hop]

/-- R421: a command without payload, by the three cases of its request. -/
theorem State.plainCommand_effect {op : Nat} (hop : reqOp r = op) (allowed : Bool) (run : List (BitVec 8) → State) :
    ∃ u : State, s.plainCommand op allowed run = .next u ∧ (reqLen r ≠ 0 → u = s.mailboxAnswer r 2 []) ∧
      (reqLen r = 0 → allowed = false → u = s.mailboxAnswer r 3 []) ∧ (reqLen r = 0 → allowed = true → u = run r) := by
  refine ⟨_, by rw [State.plainCommand, State.mailboxJob_eq hup hbusy hwork hop], fun h => ?_, fun h ha => ?_, fun h ha => ?_⟩
  · rw [if_pos (by simpa using h)]
  · rw [if_neg (by simpa using h), ha]
    rfl
  · rw [if_neg (by simpa using h), ha]
    rfl

/-- R421: what every command without payload does, where its run does `did`. -/
theorem State.plain_does {op : Nat} {allowed : Bool} {run : List (BitVec 8) → State} {c : Instr} {did : State → Prop}
    (hexec : exec c s = s.plainCommand op allowed run) (hdid : did (run r)) (hop : reqOp r = op) :
    ∃ u : State, Does c s u ∧ (reqLen r ≠ 0 → s.Answers u r 2 [] ∧ u.flash = s.flash) ∧
      (reqLen r = 0 → allowed = false → s.Answers u r 3 [] ∧ u.flash = s.flash) ∧ (reqLen r = 0 → allowed = true → did u) := by
  obtain ⟨u, hu, hlen, hbad, hrun⟩ := State.plainCommand_effect hup hbusy hwork hop allowed run
  refine ⟨u, hexec.trans hu, fun h => ?_, fun h ha => ?_, fun h ha => ?_⟩
  · rw [hlen h]
    exact State.answers_self hbusy r 2 []
  · rw [hbad h ha]
    exact State.answers_self hbusy r 3 []
  · rw [hrun h ha]
    exact hdid

end

/-! ### Firmware (R372, R421) -/

theorem State.otherSlot_le (s : State) : s.otherSlot ≤ 1 := by
  unfold State.otherSlot
  split <;> omega

/-- R421: the staged slot is a candidate for the ROM. -/
theorem State.fwCandidate_effect (s : State) :
    let u := s.fwCandidate
    u.hst = s.hst ∧ u.regs = s.regs ∧ u.flash.staged = [] ∧ (u.flash.slot s.otherSlot).version = (Config.firmware s.flash.staged).1 ∧
      (u.flash.slot s.otherSlot).secVersion = (Config.firmware s.flash.staged).2.1 ∧ (u.flash.slot s.otherSlot).signed = true := by
  have hle := s.otherSlot_le
  unfold State.fwCandidate
  dsimp only
  generalize s.otherSlot = i at hle
  obtain rfl | rfl : i = 0 ∨ i = 1 := by omega
  · exact ⟨rfl, rfl, rfl, rfl, rfl, rfl⟩
  · exact ⟨rfl, rfl, rfl, rfl, rfl, rfl⟩

/-- R372: what a committed slot shows. -/
def State.Candidate (s u : State) : Prop :=
  u.flash.staged = [] ∧ (u.flash.slot s.otherSlot).version = (Config.firmware s.flash.staged).1 ∧
    (u.flash.slot s.otherSlot).secVersion = (Config.firmware s.flash.staged).2.1 ∧ (u.flash.slot s.otherSlot).signed = true

theorem State.stagedOk_iff (s : State) :
    s.stagedOk = true ↔ (Config.firmware s.flash.staged).2.2 = true ∧ s.fuses.minSec ≤ (Config.firmware s.flash.staged).2.1 := by
  simp [State.stagedOk]

/-- R421: a commit, and what a verified one goes on with. -/
theorem State.fwCommit_effect {s : State} (hbusy : s.mbxState = 1) (r : List (BitVec 8)) (b boot : Bool) :
    let u := s.fwCommit r b boot
    (b = true → u = s.mailboxAnswer r 6 []) ∧ (b = false → ¬s.stagedOk = true → u = s.mailboxAnswer r 4 []) ∧
      (b = false → s.stagedOk = true → ∃ v, u = (if boot then v.bootFirmware else v) ∧ s.Answers v r 0 [] ∧ s.Candidate v) := by
  intro u
  refine ⟨fun hb => ?_, fun hb hno => ?_, fun hb hok => ?_⟩
  · simp only [u, State.fwCommit, hb, if_true]
  · simp only [u, State.fwCommit, hb, Bool.eq_false_iff.mpr hno, Bool.false_eq_true, if_false, Bool.not_false, if_true]
  · obtain ⟨hhst, hregs, hcandidate⟩ := s.fwCandidate_effect
    refine ⟨s.fwCandidate.mailboxAnswer r 0 [], ?_, State.answers_of_same hhst (State.reg_of_regs hregs _) hbusy r 0 [], ?_⟩
    · simp only [u, State.fwCommit, hb, hok, Bool.false_eq_true, if_false, Bool.not_true]
    · rw [State.Candidate, State.mailboxAnswer_flash]
      exact hcandidate

/-- R421: the bytes of a request lie in the staging area. -/
def State.fwStaged (s : State) (r : List (BitVec 8)) : State := { s with flash := { s.flash with
  staged := Map.setAll (fun _ => 0) s.flash.staged (leNat ((reqBody r).take 4)) ((reqBody r).drop 4) } }

/-- R421: what FW_WRITE leaves in the staging area. -/
theorem State.fwWrite_does {s : State} (hup : s.mailboxUp = true) (hbusy : s.mbxState = 1) {r : List (BitVec 8)} (hwork : s.hst.mbxWork = some r)
    (hop : reqOp r = 0x0010) (b : Bool) : ∃ u : State, Does (.fwWrite b) s u ∧
      let fits := 4 ≤ reqLen r ∧ reqLen r ≤ 4084
      let allowed := s.stage = 0 ∧ s.bootError = 1 ∨ s.stage = 5
      (¬fits → u = s.mailboxAnswer r 2 []) ∧ (fits → ¬allowed → u = s.mailboxAnswer r 3 []) ∧
        (fits → allowed → b = true → u = s.mailboxAnswer r 6 []) ∧
        (fits → allowed → b = false → u = (s.fwStaged r).mailboxAnswer r 0 []) := by
  have hexec := exec_fwWrite b s
  rw [execFwWrite, State.mailboxJob_eq hup hbusy hwork (op := opFwWrite) hop] at hexec
  dsimp only at hexec
  have hfits : (reqLen r < 4 || decide (4084 < reqLen r)) = true ↔ ¬(4 ≤ reqLen r ∧ reqLen r ≤ 4084) := by simp; omega
  have hallowed : s.fwAllowed = true ↔ (s.stage = 0 ∧ s.bootError = 1 ∨ s.stage = 5) := by simp [State.fwAllowed, State.fwNone]
  by_cases h1 : 4 ≤ reqLen r ∧ reqLen r ≤ 4084
  · rw [if_neg fun h => hfits.mp h h1] at hexec
    by_cases h2 : s.stage = 0 ∧ s.bootError = 1 ∨ s.stage = 5
    · rw [if_neg (by simpa using hallowed.mpr h2)] at hexec
      cases b with
      | true => exact ⟨_, hexec, fun h => absurd h1 h, fun _ h => absurd h2 h, fun _ _ _ => rfl, fun _ _ h => Bool.noConfusion h⟩
      | false => exact ⟨_, hexec, fun h => absurd h1 h, fun _ h => absurd h2 h, fun _ _ h => Bool.noConfusion h, fun _ _ _ => rfl⟩
    · rw [if_pos (by simpa using mt hallowed.mp h2)] at hexec
      exact ⟨_, hexec, fun h => absurd h1 h, fun _ _ => rfl, fun _ h => absurd h h2, fun _ h => absurd h h2⟩
  · rw [if_pos (hfits.mpr h1)] at hexec
    exact ⟨_, hexec, fun _ => rfl, fun h => absurd h h1, fun h => absurd h h1, fun h => absurd h h1⟩

/-! ### The VBRING test (R389) -/

/-- R389: one failing site of the test. -/
def State.vbringFail (s : State) (w t : Nat) : State :=
  let u := s.curFault 0x42 (le 1 0 ++ le 1 w ++ le 2 t)
  if u.wingDead w then u else u.markSiteDead t 2 1 u.time

theorem State.vbringFail_reports (s : State) (w t : Nat) : Reports s (s.vbringFail w t) := by
  have hfault := Reports.curFault s 0x42 (le 1 0 ++ le 1 w ++ le 2 t)
  rw [State.vbringFail]
  generalize s.curFault _ _ = u at hfault ⊢
  split
  · exact hfault
  · exact hfault.trans (.markSiteDead _ _ _ _ _)

theorem State.vbringFails_reports (s : State) (w : Nat) (l : List Nat) : Reports s (s.vbringFails w l) :=
  Reports.foldl (fun u t => u.vbringFail_reports w t) l s

theorem State.wings_markSiteDead (s : State) (t reason origin detail : Nat) :
    (s.markSiteDead t reason origin detail).cat.tables.wings = s.cat.tables.wings := by
  unfold State.markSiteDead
  split
  · rfl
  · exact s.wings_setEntry _ _ _ _

theorem State.wingDead_of_tables {s u : State} (h : u.cat.tables.wings = s.cat.tables.wings) (w : Nat) : u.wingDead w = s.wingDead w := by
  rw [State.wingDead, h, State.wingDead]

theorem State.wingDead_vbringFail (s : State) (w t v : Nat) : (s.vbringFail w t).wingDead v = s.wingDead v := by
  have hcat := s.curFault_cat 0x42 (le 1 0 ++ le 1 w ++ le 2 t)
  refine State.wingDead_of_tables ?_ v
  rw [State.vbringFail]
  generalize s.curFault _ _ = u at hcat ⊢
  rw [← hcat]
  split
  · rfl
  · exact u.wings_markSiteDead _ _ _ _

theorem State.dead_markSiteDead_same (s : State) (t reason origin detail : Nat) : (s.markSiteDead t reason origin detail).Dead t := by
  unfold State.markSiteDead
  split
  next h => exact beq_iff_eq.mp h
  next => exact s.dead_setEntry_same t _ _ _ _

theorem State.Dead.markSiteDead {s : State} {x : Nat} (h : s.Dead x) (t reason origin detail : Nat) : (s.markSiteDead t reason origin detail).Dead x := by
  unfold State.markSiteDead
  split
  · exact h
  · exact h.setEntry t _ _ _ _

/-- R389: a failing site of a wing that is not dead is dead after the test. -/
theorem State.dead_vbringFails {w t : Nat} (l : List Nat) {s : State} (halive : s.wingDead w = false) (h : s.Dead t ∨ t ∈ l) :
    (s.vbringFails w l).Dead t := by
  induction l generalizing s with
  | nil => exact h.resolve_right List.not_mem_nil
  | cons x l ih =>
    refine ih (s := s.vbringFail w x) ((s.wingDead_vbringFail w x w).trans halive) ?_
    have hstep : s.vbringFail w x = (s.curFault 0x42 (le 1 0 ++ le 1 w ++ le 2 x)).markSiteDead x 2 1 s.time := by
      have hcur : (s.curFault 0x42 (le 1 0 ++ le 1 w ++ le 2 x)).wingDead w = false := by
        rw [State.wingDead_of_tables (s := s) (by rw [State.curFault_cat]), halive]
      rw [State.vbringFail, hcur, if_neg Bool.false_ne_true, (Reports.curFault s _ _).view State.time fun _ _ _ _ _ => rfl]
    rw [hstep]
    rcases h with hdead | hmem
    · exact .inl ((hdead.curFault _ _).markSiteDead _ _ _ _)
    · rcases List.mem_cons.mp hmem with rfl | hl
      · exact .inl (State.dead_markSiteDead_same _ _ _ _ _)
      · exact .inr hl

/-- R389: the state that the VBRING test answers from. -/
def State.vbringTested (s : State) (w : Nat) (bad : List Nat) : State :=
  (s.vbringFails w bad).curFault 0x42 (le 1 1 ++ le 1 w ++ le 2 192 ++ le 2 bad.length)

theorem State.vbringTested_reports (s : State) (w : Nat) (bad : List Nat) : Reports s (s.vbringTested w bad) :=
  (s.vbringFails_reports w bad).trans (.curFault _ _ _)

theorem State.dead_vbringTested {s : State} {w t : Nat} {bad : List Nat} (halive : s.wingDead w = false) (ht : t ∈ bad) :
    (s.vbringTested w bad).Dead t :=
  (State.dead_vbringFails bad halive (.inr ht)).curFault _ _

theorem State.siteStatus_mailboxAnswer (s : State) (r : List (BitVec 8)) (result : Nat) (payload : List (BitVec 8)) (t : Nat) :
    (s.mailboxAnswer r result payload).siteStatus t = s.siteStatus t := by
  rw [State.mailboxAnswer_frame, State.siteStatus, State.siteStatus]

/-- R420: after reports the mailbox answers as it would have before them. -/
theorem Reports.answers {s v : State} (h : Reports s v) (hbusy : s.mbxState = 1) (r : List (BitVec 8)) (result : Nat) (payload : List (BitVec 8)) :
    s.Answers (v.mailboxAnswer r result payload) r result payload :=
  State.answers_of_same (h.view State.hst fun _ _ _ _ _ => rfl) (h.reg (by decide) (by decide)) hbusy r result payload

theorem State.vbringTest_answers {s : State} (hbusy : s.mbxState = 1) (r : List (BitVec 8)) (w : Nat) (bad : List Nat) :
    s.Answers ((s.vbringTested w bad).mailboxAnswer r 0 []) r 0 [] :=
  (s.vbringTested_reports w bad).answers hbusy r 0 []

theorem State.siteStatus_vbringTest {s : State} {w t : Nat} {bad : List Nat} (halive : s.wingDead w = false) (ht : t ∈ bad) (r : List (BitVec 8)) :
    ((s.vbringTested w bad).mailboxAnswer r 0 []).siteStatus t = 1 :=
  (State.siteStatus_mailboxAnswer _ _ _ _ _).trans (State.dead_vbringTested halive ht)

/-! ### Completion (R420) -/

/-- R420: a request that is taken is in service, and its source is kept. -/
theorem State.mailboxTake_effect (s : State) (req : List (BitVec 8)) {source : Nat} (hsource : source < 2) :
    let u := s.mailboxTake req source
    u.mbxState = 1 ∧ u.bit R.HST_MBX_STATUS 9 = decide (source = 1) ∧ u.hst.mbxWork = some req := by
  have hreg : (s.mailboxTake req source).reg R.HST_MBX_STATUS =
      ((s.setFld R.HST_MBX_STATUS 1 0 1).setFld R.HST_MBX_STATUS 9 9 source).reg R.HST_MBX_STATUS := State.reg_of_regs rfl _
  refine ⟨?_, ?_, rfl⟩
  · rw [State.mbxState_of_reg hreg, State.mbxState, State.fld_setFld_other _ _ _ _ _ _ _ (by decide) (by decide) (by decide),
      State.fld_setFld_same _ _ _ _ _ (by decide) (by decide)]
    rfl
  · rw [State.bit_of_reg hreg, State.bit_setFld_in _ _ _ _ _ _ (by decide) (by decide) (by decide)]
    obtain rfl | rfl : source = 0 ∨ source = 1 := by omega
    · rfl
    · rfl

/-- R420: the mailbox shows the result and is DONE, and vector 0 of PF0 is raised. -/
def State.mailboxDone (s : State) : State :=
  ((s.setFld R.HST_MBX_STATUS 31 16 (Map.get (fun _ => 0) s.hst.mbxRsp 2).toNat).setFld R.HST_MBX_STATUS 1 0 2).raiseVector 0 0

theorem State.mailboxDone_effect (s : State) :
    let u := s.mailboxDone
    u.mbxState = 2 ∧ u.hst = s.hst ∧ u.flash = s.flash ∧ u.fld R.HST_MBX_STATUS 31 16 = (Map.get (fun _ => 0) s.hst.mbxRsp 2).toNat % 65536 ∧
      u.msix = s.msix ++ (if s.hostUp then [(0, 0)] else []) := by
  intro u
  let v := (s.setFld R.HST_MBX_STATUS 31 16 (Map.get (fun _ => 0) s.hst.mbxRsp 2).toNat).setFld R.HST_MBX_STATUS 1 0 2
  have hu : u = { v with msix := v.msix ++ if v.hostUp then [(0, 0)] else [] } := State.raiseVector_frame _ _ _
  have hdiffers : DiffersInRegs s v := (DiffersInRegs.setFld s _ _ _ _).trans (.setFld _ _ _ _ _)
  have hreg : u.reg R.HST_MBX_STATUS = v.reg R.HST_MBX_STATUS := by rw [hu, reg_mk, reg_fold]
  have hup : v.hostUp = s.hostUp := State.bit_of_reg (by simp only [v, State.reg_setFld_other _ _ _ _ (show R.HST_LINK_STATUS ≠ R.HST_MBX_STATUS by decide)]) 8
  refine ⟨?_, ?_, ?_, ?_, ?_⟩
  · rw [State.mbxState_of_reg hreg, State.mbxState, State.fld_setFld_same _ _ _ _ _ (by decide) (by decide)]
    rfl
  · rw [hu]
    exact hdiffers.view State.hst fun _ _ => rfl
  · rw [hu]
    exact hdiffers.view State.flash fun _ _ => rfl
  · rw [State.fld_of_reg hreg, State.fld_setFld_other _ _ _ _ _ _ _ (by decide) (by decide) (by decide),
      State.fld_setFld_same _ _ _ _ _ (by decide) (by decide)]
    rfl
  · rw [hu]
    dsimp only
    rw [hup, hdiffers.view State.msix fun _ _ => rfl]

theorem word_result (r : List (BitVec 8)) : BitVec.ofNat 32 (leNat (((response r 1 []).drop (4 * 2)).take 4)) = 1 := rfl

/-- Settles O53, command by command. -/
theorem mailboxCommands : Obligations.MailboxCommands := by
  unfold Obligations.MailboxCommands
  intro answered
  refine ⟨?go, ?serve, ?complete, ?mctp, ?spdm⟩
  case go =>
    intro s a ha
    have hexec := exec_mailboxGo a s
    rw [execMailboxGo, devWrite_granted ha] at hexec
    refine ⟨_, hexec, fun hno => ?_, fun hhost hidle => ?_⟩
    · rw [State.mailboxGo, if_pos (by simpa using hno)]
      exact ⟨State.bit_setBit_same _ _ _ _ (by decide), State.setReg_hst _ _ _⟩
    · rw [State.mailboxGo, if_neg (by simpa [hhost] using hidle)]
      exact s.mailboxTake_effect s.mailboxArea (by decide)
  case serve =>
    intro s r b failed hup hbusy hwork plain candidate verifies commit
    have hself (result : Nat) (payload : List (BitVec 8)) := State.answers_self hbusy r result payload
    have hcommit (boot : Bool) : commit (if boot then State.bootFirmware else id) (s.fwCommit r b boot) := by
      obtain ⟨hflash, hauth, hok⟩ := State.fwCommit_effect hbusy r b boot
      refine ⟨fun hb => ?_, fun hb hno => ?_, fun hb hyes => ?_⟩
      · rw [hflash hb]
        exact hself 6 []
      · rw [hauth hb (mt s.stagedOk_iff.mp hno)]
        exact hself 4 []
      · obtain ⟨v, hv, hanswers, hcandidate⟩ := hok hb (s.stagedOk_iff.mpr hyes)
        refine ⟨v, hv.trans ?_, hanswers, hcandidate⟩
        cases boot <;> rfl
    refine ⟨?version, ?identity, ?fwCommit, ?recovery, ?vbring, ?fwWrite, ?unknown⟩
    case version => exact State.plain_does hup hbusy hwork (exec_getVersion s) (hself 0 _).1
    case identity => exact State.plain_does hup hbusy hwork (exec_getIdentity s) (hself 0 _).1
    case fwCommit => exact State.plain_does hup hbusy hwork (exec_fwCommit b s) (hcommit false)
    case recovery => exact State.plain_does hup hbusy hwork (exec_recoveryBoot b s) (hcommit true)
    case vbring => exact State.plain_does hup hbusy hwork (exec_vbringTest failed s) ⟨State.vbringTest_answers hbusy r _ _, fun t ht hfailed halive =>
      State.siteStatus_vbringTest halive (List.mem_filter.mpr ⟨ht, List.contains_iff_mem.mpr hfailed⟩) r⟩
    case fwWrite =>
      intro hop
      obtain ⟨u, hdoes, hlen, hstate, hflash, hok⟩ := State.fwWrite_does hup hbusy hwork hop b
      refine ⟨u, hdoes, fun h => ?_, fun h h' => ?_, fun h h' hb => ?_, fun h h' hb => ?_⟩
      · rw [hlen h]
        exact hself 2 []
      · rw [hstate h h']
        exact hself 3 []
      · rw [hflash h h' hb]
        exact hself 6 []
      · rw [hok h h' hb]
        refine ⟨State.answers_of_same (s := s) (v := s.fwStaged r) rfl (State.reg_of_regs rfl _) hbusy r 0 [], fun i v hv => ?_⟩
        obtain ⟨hi, hget⟩ := List.getElem?_eq_some_iff.mp hv
        rw [State.mailboxAnswer_flash]
        exact (Map.get_setAll_in _ _ _ hi).trans hget
    case unknown =>
      intro hop
      have hexec := exec_mailboxComplete s
      rw [execMailboxComplete, hwork] at hexec
      dsimp only at hexec
      rw [when_true (by simpa [hup, hbusy, mailboxOps, opGetVersion, opGetIdentity, opFwWrite, opFwCommit, opRecoveryBoot, opVbringTest] using hop)] at hexec
      obtain ⟨hdone, hhst, hflash, hresult, -⟩ := (s.mailboxAnswer r 1 []).mailboxDone_effect
      refine ⟨_, hexec, hdone, ?_, ?_, ?_⟩
      · exact (congrArg Hst.mbxWork hhst).trans (hself 1 []).1.1
      · refine hresult.trans ?_
        have hword := (State.answers_self hbusy r 1 []).1.2.2.1 2 (by simp [leBytes])
        exact (congrArg (fun v : BitVec 32 => v.toNat % 65536) (hword.trans (word_result r))).trans rfl
      · exact hflash.trans (hself 1 []).2
  case complete =>
    intro s hup hbusy hwork
    have hexec := exec_mailboxComplete s
    rw [execMailboxComplete, hwork] at hexec
    dsimp only at hexec
    rw [when_true (by simp [hup, hbusy])] at hexec
    obtain ⟨hdone, -, -, hresult, hmsix⟩ := s.mailboxDone_effect
    exact ⟨_, hexec, hdone, hresult, hmsix⟩
  case mctp =>
    intro s pcie body hup hlink told
    have hcond : (s.mailboxUp && (!pcie || s.hostUp)) = true := by cases pcie <;> simp_all
    have hexec (kind : Nat) := exec_mctpMessage pcie kind body s
    simp only [execMctpMessage, when_true hcond] at hexec
    refine ⟨⟨_, hexec 0, rfl, rfl⟩, ⟨_, hexec 1, rfl, rfl⟩, ⟨_, hexec 5, rfl, rfl⟩, ⟨_, hexec 6, rfl, rfl⟩, fun hbusy => ?_, fun hidle => ?_,
      fun kind hkind => ?_⟩
    · have htold : s.mctpMailbox body = s.mctpAnswer 0x7E (response body 5 []) := if_pos (by simpa using hbusy)
      exact ⟨_, (hexec 0x7E).trans (congrArg _ htold), rfl, rfl⟩
    · have htaken : s.mctpMailbox body = s.mailboxTake body 1 := if_neg (by simpa using hidle)
      exact ⟨_, (hexec 0x7E).trans (congrArg _ htaken), s.mailboxTake_effect body (by decide)⟩
    · obtain ⟨h0, h1, h5, h6, h7⟩ : kind ≠ 0 ∧ kind ≠ 1 ∧ kind ≠ 5 ∧ kind ≠ 6 ∧ kind ≠ 0x7E := by simpa using hkind
      rw [Does, hexec kind, if_neg (by simpa using h0), if_neg (by simpa using h1), if_neg (by simp [h5, h6]), if_neg (by simpa using h7)]
  case spdm =>
    intro s indices nonce body hup blocks
    have hmeas := exec_getMeasurements indices nonce s
    rw [execGetMeasurements, when_true hup] at hmeas
    have hkey := exec_keyExchange body s
    rw [execKeyExchange, when_true hup] at hkey
    exact ⟨⟨_, hmeas, rfl⟩, _, hkey, rfl⟩

end Sys2Proof.Machine
end

section
/-! PROOFS. Debug control of cores, traces, counter banks, rates of corrected errors and the comparison of pairs (R430-R433, R438, R440, R441, R447). -/

namespace Sys2Proof.Machine

/-! ### SEC_DEBUG_SEEN (R432) -/

/-- The registers that a debug event writes, but for those of the fault ring. -/
def seenRegs : List Nat := [R.SEC_DEBUG_SEEN, R.SEC_DEBUG_TIME_LO, R.SEC_DEBUG_TIME_HI]

/-- R432: what a debug event writes before its record. -/
def State.debugNoted (s : State) (i : Nat) : State :=
  (if s.reg R.SEC_DEBUG_SEEN == 0 then s.setReg64 R.SEC_DEBUG_TIME_LO s.time else s).setBit R.SEC_DEBUG_SEEN i true

theorem State.debugNoted_differs (s : State) (i : Nat) : DiffersInRegs s (s.debugNoted i) := by
  unfold State.debugNoted
  split
  · exact ((DiffersInRegs.setReg s _ _).trans (.setReg _ _ _)).trans (.setBit _ _ _ _)
  · exact .setBit _ _ _ _

theorem State.reg_debugNoted_other (s : State) (i : Nat) {a : Nat} (ha : a ∉ seenRegs) : (s.debugNoted i).reg a = s.reg a := by
  simp only [seenRegs, List.mem_cons, List.not_mem_nil, or_false, not_or] at ha
  obtain ⟨hseen, hlo, hhi⟩ := ha
  rw [State.debugNoted, State.reg_setBit_other _ _ _ hseen]
  split
  · exact s.reg_setReg64_other _ hlo hhi
  · rfl

theorem State.debugSeen_eq (s : State) (i : Nat) : s.debugSeen i = if s.bit R.SEC_DEBUG_SEEN i then s else
    (s.debugNoted i).curFault 0x52 (le 4 ((s.debugNoted i).reg R.SEC_DEBUG_SEEN).toNat) := rfl

section
variable (s : State) (i : Nat)

/-- A view of the state that shows no register, no record and no vector does not show a debug event. -/
theorem State.debugSeen_view {β : Type} (view : State → β)
    (h : ∀ (u : State) regs faults msix, view { u with regs := regs, faults := faults, msix := msix } = view u) : view (s.debugSeen i) = view s := by
  rw [State.debugSeen_eq]
  split
  · rfl
  · rw [State.curFault_view _ _ _ view h]
    exact (s.debugNoted_differs i).view view fun u regs => h u regs u.faults u.msix

theorem State.reg_debugSeen_other {a : Nat} (ha : a ∉ seenRegs) (ha' : a ∉ ringRegs) : (s.debugSeen i).reg a = s.reg a := by
  rw [State.debugSeen_eq]
  split
  · rfl
  · rw [State.reg_curFault_other _ _ _ ha', s.reg_debugNoted_other i ha]

/-- R432: the bit of the event is set. -/
theorem State.bit_debugSeen (hi : i < 32) : (s.debugSeen i).bit R.SEC_DEBUG_SEEN i = true := by
  rw [State.debugSeen_eq]
  split
  next h => exact h
  next => rw [State.bit_of_reg (State.reg_curFault_other _ _ _ (by decide)), State.debugNoted, State.bit_setBit_same _ _ _ _ hi]

/-- R432: the first event of all latches TIME. -/
theorem State.debugTime_debugSeen (h : s.reg R.SEC_DEBUG_SEEN = 0) : (s.debugSeen i).reg64 R.SEC_DEBUG_TIME_LO = s.time % 2 ^ 64 := by
  have hnot : ¬s.bit R.SEC_DEBUG_SEEN i = true := by simp [State.bit, h]
  have hreg (a : Nat) (ha : a ≠ R.SEC_DEBUG_SEEN) (ha' : a ∉ ringRegs) : (s.debugSeen i).reg a = (s.setReg64 R.SEC_DEBUG_TIME_LO s.time).reg a := by
    rw [State.debugSeen_eq, if_neg hnot, State.reg_curFault_other _ _ _ ha', State.debugNoted, State.reg_setBit_other _ _ _ ha,
      if_pos (by simp [h])]
  rw [State.reg64, hreg _ (by decide) (by decide), hreg _ (by decide) (by decide), ← State.reg64, State.reg64_setReg64_same]

end

/-! ### Cores under debug control (R431) -/

section
variable {s : State} {t c : Nat}

/-- R431: an ignored command sets reject and leaves the core and the debug unit. -/
def State.Refuses (s u : State) (t c : Nat) : Prop :=
  u.bit R.DBG_CORE_STATUS 31 = true ∧ u.dbg = s.dbg ∧ u.coreState t c = s.coreState t c ∧ u.core t c = s.core t c

theorem State.debugReject_refuses (s : State) (t c : Nat) : s.Refuses s.debugReject t c :=
  ⟨State.bit_setBit_same _ _ _ _ (by decide), rfl, rfl, rfl⟩

/-- R431: the core is there and under debug control. -/
def State.Mine (s : State) (t c : Nat) : Prop := s.coreThere t c = true ∧ s.attached t c = true

theorem State.dbgHalt_halts (hmine : s.Mine t c) (hruns : s.coreState t c = 1 ∨ s.coreState t c = 2) : s.dbgHalt t c =
    ({ s with dbg := { s.dbg with halting := s.dbg.halting.filter (· != coreId t c) ++ [coreId t c] } }).settle t c :=
  if_pos (by simpa [hmine.1, hmine.2] using hruns)

theorem State.dbgHalt_rejects (h : ¬s.Mine t c ∨ s.coreState t c ≠ 1 ∧ s.coreState t c ≠ 2) : s.dbgHalt t c = s.debugReject := by
  refine if_neg fun hcond => ?_
  simp only [Bool.and_eq_true, Bool.or_eq_true, beq_iff_eq] at hcond
  obtain ⟨hmine, hruns⟩ := hcond
  exact h.elim (fun hno => hno hmine) fun hno => hruns.elim hno.1 hno.2

theorem State.awake_halting : (s.awake t c).halting t c = s.halting t c := by
  unfold State.awake
  split
  · exact s.idleEnds_halting t c
  · rfl

theorem State.awake_accesses : ((s.awake t c).core t c).accesses = (s.core t c).accesses := by
  unfold State.awake
  split
  · rw [State.core_idleEnds]
  · rfl

theorem State.coreState_awake (hc : c < 4) (h : s.coreState t c = 1 ∨ s.coreState t c = 2) :
    (s.awake t c).coreState t c = 1 ∨ (s.awake t c).coreState t c = 2 := by
  unfold State.awake
  split
  · exact .inl (State.coreState_idleEnds s t hc)
  · exact h

theorem State.coreState_halted (s : State) (t : Nat) {c : Nat} (hc : c < 4) : (s.halted t c).coreState t c = 5 := by
  rw [State.halted, State.coreState_modCore, State.coreState_setCoreState_same _ _ _ _ hc (by decide)]

/-- R431: a halting core with no access left is HALTED. -/
theorem State.settle_halts (hc : c < 4) (hhalting : s.halting t c = true) (hruns : s.coreState t c = 1 ∨ s.coreState t c = 2)
    (hdone : (s.core t c).accesses = []) : (s.settle t c).coreState t c = 5 := by
  rw [State.settle_eq, if_neg (by simp [hdone]), if_pos ⟨State.awake_halting.trans hhalting, State.coreState_awake hc hruns⟩,
    State.coreState_halted _ _ hc]

/-- R431: a halting core with an access left goes on until it is complete. -/
theorem State.settle_waits (hbusy : (s.core t c).accesses ≠ []) :
    (s.settle t c).halting t c = s.halting t c ∧ ((s.settle t c).core t c).accesses = (s.core t c).accesses := by
  rw [State.settle_eq, if_pos (by simpa using hbusy)]
  exact ⟨State.awake_halting, State.awake_accesses⟩

theorem State.dbgHalted_iff : s.dbgHalted t c = true ↔ s.Mine t c ∧ s.coreState t c = 5 := by
  simp [State.dbgHalted, State.Mine]

theorem State.dbgHalted_rejects (h : ¬s.Mine t c ∨ s.coreState t c ≠ 5) : ¬s.dbgHalted t c = true := by
  rw [State.dbgHalted_iff]
  exact fun hboth => h.elim (fun hno => hno hboth.1) fun hno => hno hboth.2

theorem State.dbgRun_effect (s : State) (t : Nat) {c : Nat} (hc : c < 4) :
    (s.dbgRun t c).coreState t c = 1 ∧ (s.dbgRun t c).core t c = { s.core t c with issuable := (s.site t).cycle + 1 } := by
  unfold State.dbgRun
  rw [State.coreState_modCore, State.coreState_setCoreState_same _ _ _ _ hc (by decide), State.core_modCore_same, State.core_setCoreState]
  exact ⟨rfl, rfl⟩

theorem State.setCoreState_lists (s : State) (t c v : Nat) : (s.setCoreState t c v).dbg.attached = s.dbg.attached ∧
    (s.setCoreState t c v).dbg.halting = s.dbg.halting ∧ (s.setCoreState t c v).dbg.awaiting = s.dbg.awaiting := by
  obtain ⟨_, _, h⟩ := s.setCoreState_eq t c v
  rw [h]
  exact ⟨rfl, rfl, rfl⟩

theorem State.dbgRun_lists (s : State) (t c : Nat) : (s.dbgRun t c).dbg.attached = s.dbg.attached ∧ (s.dbgRun t c).dbg.halting = s.dbg.halting := by
  obtain ⟨hattached, hhalting, -⟩ := s.setCoreState_lists t c 1
  unfold State.dbgRun
  rw [State.modCore_dbg]
  exact ⟨hattached, hhalting⟩

/-- R431: a step lets the core issue at once, and waits for its instruction. -/
theorem State.dbgStep_effect (hc : c < 4) (h : s.dbgHalted t c = true) :
    (s.dbgStep t c).coreState t c = 1 ∧ (s.dbgStep t c).core t c = { s.core t c with issuable := 0 } ∧ coreId t c ∈ (s.dbgStep t c).dbg.awaiting := by
  let u : State := { s with dbg := { s.dbg with awaiting := s.dbg.awaiting ++ [coreId t c] } }
  have hstep : s.dbgStep t c = (u.setCoreState t c 1).modCore t c fun k => { k with issuable := 0 } := if_pos h
  rw [hstep, State.coreState_modCore, State.coreState_setCoreState_same _ _ _ _ hc (by decide), State.core_modCore_same, State.core_setCoreState,
    State.modCore_dbg, (u.setCoreState_lists t c 1).2.2]
  exact ⟨rfl, rfl, by simp [u]⟩

/-- R431: a core that is detached is under control no more, and runs if it was HALTED. -/
theorem State.dbgDetach_effect (hc : c < 4) (hmine : s.Mine t c) :
    let d := s.dbgDetach t c
    d.attached t c = false ∧ coreId t c ∉ d.dbg.halting ∧ d.coreState t c = if s.coreState t c = 5 then 1 else s.coreState t c := by
  let u := ({ s with dbg := { s.dbg with attached := s.dbg.attached.filter (· != coreId t c) } } : State).dbgForget (coreId t c)
  have hd : s.dbgDetach t c = if u.coreState t c == 5 then u.dbgRun t c else u := if_pos (by simp [hmine.1, hmine.2])
  have hstate : u.coreState t c = s.coreState t c := rfl
  have hattached : u.dbg.attached.contains (coreId t c) = false := by simp [u, State.dbgForget]
  have hhalting : coreId t c ∉ u.dbg.halting := by simp [u, State.dbgForget]
  intro d
  simp only [d, hd, hstate, beq_iff_eq]
  split
  next h =>
    obtain ⟨hsame, hsame'⟩ := u.dbgRun_lists t c
    refine ⟨?_, ?_, (u.dbgRun_effect t hc).1⟩
    · rw [State.attached, hsame, hattached]
    · rw [hsame']
      exact hhalting
  next h => exact ⟨hattached, hhalting, hstate⟩

theorem State.dbgDetach_rejects (h : ¬s.Mine t c) : s.dbgDetach t c = s.debugReject :=
  if_neg fun hcond => h (Bool.and_eq_true_iff.mp hcond)

end

/-! ### Attach (R431, R432) -/

section
variable (s : State) (t c : Nat)

theorem State.wingUp_debugSeen (i : Nat) {w : Nat} (hw : w < 16) : (s.debugSeen i).wingUp w = s.wingUp w := by
  have hring : R.PWR_RAIL w ∉ ringRegs := by
    simp only [ringRegs, List.mem_cons, List.not_mem_nil, or_false, R.PWR_RAIL, R.FLT_LOG_HEAD, R.FLT_LOG_TAIL, R.FLT_LOG_LOST]
    omega
  have hdebug : R.PWR_RAIL w ∉ seenRegs := by
    simp only [seenRegs, List.mem_cons, List.not_mem_nil, or_false, R.PWR_RAIL, R.SEC_DEBUG_SEEN, R.SEC_DEBUG_TIME_LO, R.SEC_DEBUG_TIME_HI]
    omega
  rw [State.wingUp, State.wingUp, State.railState, State.fld_of_reg (s.reg_debugSeen_other i hdebug hring), ← State.railState,
    s.debugSeen_view i (fun u => (u.wing w).clamped) fun _ _ _ _ => rfl]

theorem State.coreThere_debugSeen (i : Nat) (ht : t < 3072) : (s.debugSeen i).coreThere t c = s.coreThere t c := by
  rw [State.coreThere, State.coreThere, s.wingUp_debugSeen i (wingOf_lt ht), s.debugSeen_view i (·.live t) fun _ _ _ _ => rfl]

theorem State.dbgAttach_eq (ht : t < 3072) : s.dbgAttach t c = if s.coreThere t c && !s.attached t c then
    { s.debugSeen 1 with dbg := { (s.debugSeen 1).dbg with attached := (s.debugSeen 1).dbg.attached ++ [coreId t c] } } else (s.debugSeen 1).debugReject := by
  rw [State.dbgAttach, s.coreThere_debugSeen t c 1 ht, s.debugSeen_view 1 (·.attached t c) fun _ _ _ _ => rfl]

end

/-- R431: what an attach does. -/
theorem State.dbgAttach_effect {s : State} {t c : Nat} (ht : t < 3072) :
    let x := s.dbgAttach t c
    x.bit R.SEC_DEBUG_SEEN 1 = true ∧
      (s.coreThere t c = true → s.attached t c = false → x.attached t c = true ∧ x.core t c = s.core t c ∧ x.dbg.named = s.dbg.named) ∧
      (¬s.coreThere t c = true ∨ s.attached t c = true → s.Refuses x t c) := by
  have hseen := s.bit_debugSeen 1 (by decide)
  have hdbg : (s.debugSeen 1).dbg = s.dbg := s.debugSeen_view 1 State.dbg fun _ _ _ _ => rfl
  have hcore : (s.debugSeen 1).core t c = s.core t c := s.debugSeen_view 1 (·.core t c) fun _ _ _ _ => rfl
  have hstate : (s.debugSeen 1).coreState t c = s.coreState t c := s.debugSeen_view 1 (·.coreState t c) fun _ _ _ _ => rfl
  rw [s.dbgAttach_eq t c ht]
  generalize s.debugSeen 1 = u at hseen hdbg hcore hstate
  by_cases hcond : (s.coreThere t c && !s.attached t c) = true
  · rw [if_pos hcond]
    simp only [Bool.and_eq_true, Bool.not_eq_true'] at hcond
    obtain ⟨hthere, hfree⟩ := hcond
    refine ⟨?_, fun _ _ => ⟨?_, ?_, ?_⟩, fun h => ?_⟩
    · rw [← hseen]
      exact State.bit_of_reg (State.reg_of_regs rfl _) 1
    · simp [State.attached]
    · exact hcore
    · rw [← hdbg]
    · exact h.elim (fun hno => absurd hthere hno) fun hyes => absurd hyes (by simp [hfree])
  · rw [if_neg hcond]
    obtain ⟨hreject, hdbg', hstate', hcore'⟩ := u.debugReject_refuses t c
    refine ⟨?_, fun hthere hfree => absurd (by simp [hthere, hfree]) hcond, fun _ => ⟨hreject, hdbg'.trans hdbg, hstate'.trans hstate, hcore'.trans hcore⟩⟩
    rw [← hseen]
    exact State.bit_setBit_ne _ _ _ _ (by decide)

/-! ### Trace buffers (R433, R449) -/

/-- R433: the word that arms a buffer for the site and the classes. -/
def traceWord (t classes : Nat) : BitVec 32 := BitVec.ofNat 32 (2 ^ 31 + t % 4096 * 32 + classes % 16)

theorem traceWord_fields {t classes : Nat} (ht : t < 3072) (hclasses : classes < 16) :
    (traceWord t classes).getLsbD 31 = true ∧ getBits (traceWord t classes) 16 5 = t ∧ getBits (traceWord t classes) 3 0 = classes := by
  have hword : (traceWord t classes).toNat = 2 ^ 31 + t * 32 + classes := by
    rw [traceWord, BitVec.toNat_ofNat]
    omega
  refine ⟨?_, ?_, ?_⟩
  · rw [BitVec.getLsbD, hword, Nat.testBit_eq_decide_div_mod_eq]
    simp only [decide_eq_true_eq]
    omega
  · rw [getBits, hword]
    omega
  · rw [getBits, hword]
    omega

theorem traceCtl_fields : ∀ n < 8, hasField (R.DBG_TRACE_CTL n) 31 31 .rw = true ∧ hasField (R.DBG_TRACE_CTL n) 16 5 .rw = true ∧
    hasField (R.DBG_TRACE_CTL n) 3 0 .rw = true := by
  decide +kernel

theorem traceCtl_not_seen {n : Nat} (hn : n < 8) : R.DBG_TRACE_CTL n ∉ seenRegs ∧ R.DBG_TRACE_CTL n ∉ ringRegs := by
  simp only [seenRegs, ringRegs, List.mem_cons, List.not_mem_nil, or_false, R.DBG_TRACE_CTL, R.SEC_DEBUG_SEEN, R.SEC_DEBUG_TIME_LO,
    R.SEC_DEBUG_TIME_HI, R.FLT_LOG_HEAD, R.FLT_LOG_TAIL, R.FLT_LOG_LOST]
  omega

section
variable {s : State} {a : Agent} {n : Nat}

theorem State.armSeen_frame (s : State) (a : Agent) (t : Nat) (hn : n < 8) :
    (s.armSeen a t).dbg = s.dbg ∧ (s.armSeen a t).reg (R.DBG_TRACE_CTL n) = s.reg (R.DBG_TRACE_CTL n) := by
  have hseen : (s.debugSeen 3).dbg = s.dbg ∧ (s.debugSeen 3).reg (R.DBG_TRACE_CTL n) = s.reg (R.DBG_TRACE_CTL n) :=
    ⟨s.debugSeen_view 3 State.dbg fun _ _ _ _ => rfl, s.reg_debugSeen_other 3 (traceCtl_not_seen hn).1 (traceCtl_not_seen hn).2⟩
  unfold State.armSeen
  split
  · split
    · exact ⟨rfl, rfl⟩
    · exact hseen
  · exact ⟨rfl, rfl⟩

/-- R433: a buffer that is armed, before SEC_DEBUG_SEEN. -/
def State.traceArmed (s : State) (n : Nat) (w : BitVec 32) : State :=
  let u := s.regWrite (R.DBG_TRACE_CTL n) w
  (({ u with dbg := { u.dbg with trace := Map.erase n u.dbg.trace } }).setBit (R.DBG_TRACE_CTL n) 30 false).setFld (R.DBG_TRACE_CTL n) 29 17 0

theorem State.traceArmed_effect (s : State) (hn : n < 8) (w : BitVec 32) :
    let u := s.traceArmed n w
    Map.get (fun _ => []) u.dbg.trace n = [] ∧ u.bit (R.DBG_TRACE_CTL n) 31 = w.getLsbD 31 ∧ u.bit (R.DBG_TRACE_CTL n) 30 = false ∧
      u.fld (R.DBG_TRACE_CTL n) 29 17 = 0 ∧ u.fld (R.DBG_TRACE_CTL n) 16 5 = getBits w 16 5 ∧ u.fld (R.DBG_TRACE_CTL n) 3 0 = getBits w 3 0 := by
  obtain ⟨harm, hsite, hclasses⟩ := traceCtl_fields n hn
  have h31 := s.bit_regWrite_rw w harm (Nat.le_refl 31) (Nat.le_refl 31)
  have h16 := s.fld_regWrite_rw w hsite
  have h3 := s.fld_regWrite_rw w hclasses
  unfold State.traceArmed
  generalize s.regWrite (R.DBG_TRACE_CTL n) w = v at h31 h16 h3
  dsimp only
  generalize hu : ({ v with dbg := { v.dbg with trace := Map.erase n v.dbg.trace } } : State) = u
  have hreg (b : Nat) : u.reg b = v.reg b := by rw [← hu]; exact State.reg_of_regs rfl b
  rw [← State.bit_of_reg (hreg _) 31] at h31
  rw [← State.fld_of_reg (hreg _) 16 5] at h16
  rw [← State.fld_of_reg (hreg _) 3 0] at h3
  have htrace : Map.get (fun _ => []) u.dbg.trace n = [] := by
    rw [← hu]
    exact Map.get_erase_same _ _ _
  refine ⟨?_, ?_, ?_, ?_, ?_, ?_⟩
  · rw [State.setFld_eq, State.setReg_dbg, State.setBit_eq, State.setFld_eq, State.setReg_dbg, htrace]
  · rw [State.bit_setFld_other _ _ _ _ _ _ (by decide) (by decide), State.bit_setBit_other _ _ _ _ _ (by decide), h31]
  · rw [State.bit_setFld_other _ _ _ _ _ _ (by decide) (by decide), State.bit_setBit_same _ _ _ _ (by decide)]
  · rw [State.fld_setFld_same _ _ _ _ _ (by decide) (by decide), Nat.zero_mod]
  · rw [State.fld_setFld_other _ _ _ _ _ _ _ (by decide) (by decide) (by decide), State.fld_setBit_other _ _ _ _ _ _ (by decide) (by decide), h16]
  · rw [State.fld_setFld_other _ _ _ _ _ _ _ (by decide) (by decide) (by decide), State.fld_setBit_other _ _ _ _ _ _ (by decide) (by decide), h3]

theorem State.traceCtl_arms {w : BitVec 32} (howns : s.owns a 1 n = true) (hname : s.mayName a (getBits w 16 5) = true) (harm : w.getLsbD 31 = true) :
    s.traceCtl a n w = (s.traceArmed n w).armSeen a (getBits w 16 5) := by
  rw [State.traceCtl, if_neg (by simp [howns, hname]), if_pos harm, State.traceArmed]

theorem State.traceCtl_rejects {w : BitVec 32} (h : s.owns a 1 n = false ∨ s.mayName a (getBits w 16 5) = false) :
    s.traceCtl a n w = s.setBit (R.DBG_TRACE_CTL n) 4 true := by
  rw [State.traceCtl, if_pos (by rcases h with h | h <;> simp [h])]

end

/-! ### Counter banks (R433) -/

section
variable (s : State) (n : Nat)

theorem State.tileRead_frame (a : Agent) (t off : Nat) : ∃ sites, (s.tileRead a t off).2 = { s with sites := sites } := by
  unfold State.tileRead
  split
  · exact ⟨_, rfl⟩
  · split
    · exact ⟨_, rfl⟩
    · exact ⟨s.sites, rfl⟩

/-- R433: one word of a sample. -/
def State.bankWord (t i : Nat) : State :=
  let r := s.tileRead (s.bankReader n) t ((s.reg (R.DBG_CNT_SEL n i)).toNat % 2 ^ 20)
  r.2.setReg (R.DBG_CNT_VAL n i) r.1

theorem State.bankWord_time (t i : Nat) : (s.bankWord n t i).time = s.time := by
  obtain ⟨sites, h⟩ := s.tileRead_frame (s.bankReader n) t ((s.reg (R.DBG_CNT_SEL n i)).toNat % 2 ^ 20)
  rw [State.bankWord, State.setReg_time, h]

theorem State.reg_bankWord_other (t : Nat) {i a : Nat} (h : a ≠ R.DBG_CNT_VAL n i) : (s.bankWord n t i).reg a = s.reg a := by
  obtain ⟨sites, hread⟩ := s.tileRead_frame (s.bankReader n) t ((s.reg (R.DBG_CNT_SEL n i)).toNat % 2 ^ 20)
  rw [State.bankWord, State.reg_setReg_other _ _ h, hread]
  exact State.reg_of_regs rfl a

theorem State.bankSample_eq {t : Nat} (ht : s.fld (R.DBG_CNT_CTL n) 27 16 = t) (hlt : t < 3072) (hlive : s.live t = true)
    (hup : s.wingUp (wingOf t) = true) : s.bankSample n =
      ((List.range 8).foldl (fun s i => s.bankWord n t i) s).setReg64 (R.DBG_CNT_TIME_LO n) ((List.range 8).foldl (fun s i => s.bankWord n t i) s).time := by
  rw [State.bankSample, ht, if_neg (by simp [hlt, hlive, hup])]
  rfl

/-- R433: a sample shows the first word and its TIME. -/
theorem State.bankSample_effect {t : Nat} (ht : s.fld (R.DBG_CNT_CTL n) 27 16 = t) (hlt : t < 3072) (hlive : s.live t = true)
    (hup : s.wingUp (wingOf t) = true) :
    (s.bankSample n).reg64 (R.DBG_CNT_TIME_LO n) = s.time % 2 ^ 64 ∧
      (s.bankSample n).reg (R.DBG_CNT_VAL n 0) = (s.tileRead (s.bankReader n) t ((s.reg (R.DBG_CNT_SEL n 0)).toNat % 2 ^ 20)).1 := by
  have htime : ((List.range 8).foldl (fun s i => s.bankWord n t i) s).time = s.time :=
    foldl_leaves State.time (fun u i => u.bankWord_time n t i) _ s
  have hlo : R.DBG_CNT_VAL n 0 ≠ R.DBG_CNT_TIME_LO n := by simp only [R.DBG_CNT_VAL, R.DBG_CNT_TIME_LO]; omega
  have hhi : R.DBG_CNT_VAL n 0 ≠ R.DBG_CNT_TIME_LO n + 4 := by simp only [R.DBG_CNT_VAL, R.DBG_CNT_TIME_LO]; omega
  rw [s.bankSample_eq n ht hlt hlive hup, State.reg64_setReg64_same, htime, State.reg_setReg64_other _ _ hlo hhi, List.range_succ_eq_map,
    List.foldl_cons, List.foldl_map]
  refine ⟨rfl, ?_⟩
  rw [foldl_leaves (State.reg · (R.DBG_CNT_VAL n 0)) (fun u i => u.reg_bankWord_other n t (by simp only [R.DBG_CNT_VAL]; omega)) _ _,
    State.bankWord, State.reg_setReg_same]

theorem State.nextSample_setSample (v : Nat) : Map.get (fun _ => 0) (s.setSample n (some v)).dbg.nextSample n = v :=
  Map.get_insert_same _ _ _ _ (Map.not_mem_erase _ _)

end

/-! ### Rates of corrected errors (R438) -/

/-- R438: a site above the threshold, and the record of it. -/
def State.rateReported (s : State) (t : Nat) : State :=
  (s.markDegraded t 3 3 0).fault 0x17 (s.sourceOf t 0) (s.partOf t) (le 4 (s.sec.eccSum t))

/-- R438: a site's history begins again. -/
def State.historyErased (s : State) (t : Nat) : State := s.modSec fun x => { x with ecc := x.ecc.map fun m => Map.erase t m }

theorem State.rateCheck_below {s : State} {t : Nat} (h : (s.reg R.SEC_ECC_THRESH).toNat = 0 ∨ s.sec.eccSum t ≤ (s.reg R.SEC_ECC_THRESH).toNat) :
    s.rateCheck t = s := by
  rw [State.rateCheck, if_pos (by simpa using h)]

theorem State.rateCheck_above {s : State} {t : Nat} (h : ¬((s.reg R.SEC_ECC_THRESH).toNat = 0 ∨ s.sec.eccSum t ≤ (s.reg R.SEC_ECC_THRESH).toNat)) :
    s.rateCheck t = (s.rateReported t).historyErased t := by
  rw [State.rateCheck, if_neg (by simpa using h), State.historyErased, State.rateReported]

theorem State.siteStatus_setEntry (s : State) (t x e origin detail : Nat) :
    (s.setEntry t e origin detail).siteStatus x = if x = t then entryStatus e else s.siteStatus x := by
  rw [State.siteStatus, State.site_setEntry]
  split
  · rfl
  · rfl

theorem State.siteStatus_of_cat {s u : State} (h : u.cat = s.cat) (t : Nat) : u.siteStatus t = s.siteStatus t := by
  rw [State.siteStatus, h, State.siteStatus]

section
variable (s : State) (t reason origin detail : Nat)

/-- R30: what marking a site degraded leaves. -/
theorem State.markDegraded_frame : (s.markDegraded t reason origin detail).sec = s.sec ∧
    (s.markDegraded t reason origin detail).reg R.SEC_ECC_THRESH = s.reg R.SEC_ECC_THRESH ∧
    ∀ x, x ≠ t → (s.markDegraded t reason origin detail).siteStatus x = s.siteStatus x := by
  unfold State.markDegraded
  split
  · have hentry := Reports.setEntry s t (withStatus (s.cat.tables.site t) 2 reason) origin detail
    exact ⟨hentry.view State.sec fun _ _ _ _ _ => rfl, hentry.reg (by decide) (by decide), fun x hx => (s.siteStatus_setEntry _ _ _ _ _).trans (if_neg hx)⟩
  · exact ⟨rfl, State.reg_of_regs rfl _, fun _ _ => rfl⟩
  · exact ⟨rfl, rfl, fun _ _ => rfl⟩

/-- R30: a good site becomes degraded. -/
theorem State.siteStatus_markDegraded (h : s.siteStatus t = 0) : (s.markDegraded t reason origin detail).siteStatus t = 2 := by
  rw [State.markDegraded, h]
  exact (s.siteStatus_setEntry t t _ _ _).trans ((if_pos rfl).trans (entryStatus_withStatus _ (by decide)))

end

section
variable (s : State) (t : Nat)

theorem State.rateReported_frame : (s.rateReported t).sec = s.sec ∧ (s.rateReported t).reg R.SEC_ECC_THRESH = s.reg R.SEC_ECC_THRESH ∧
    ∀ x, (s.rateReported t).siteStatus x = (s.markDegraded t 3 3 0).siteStatus x := by
  obtain ⟨hsec, hreg, -⟩ := s.markDegraded_frame t 3 3 0
  have hfault := Reports.fault (s.markDegraded t 3 3 0) 0x17 (s.sourceOf t 0) (s.partOf t) (le 4 (s.sec.eccSum t))
  exact ⟨(hfault.view State.sec fun _ _ _ _ _ => rfl).trans hsec, (hfault.reg (by decide) (by decide)).trans hreg,
    State.siteStatus_of_cat (State.fault_cat _ _ _ _ _)⟩

/-- What a check of another site leaves of a site: its status, the sum of its history, and the threshold. -/
theorem State.rateCheck_other {x : Nat} (h : x ≠ t) : (s.rateCheck t).siteStatus x = s.siteStatus x ∧
    (s.rateCheck t).sec.eccSum x = s.sec.eccSum x ∧ (s.rateCheck t).reg R.SEC_ECC_THRESH = s.reg R.SEC_ECC_THRESH := by
  by_cases hbelow : (s.reg R.SEC_ECC_THRESH).toNat = 0 ∨ s.sec.eccSum t ≤ (s.reg R.SEC_ECC_THRESH).toNat
  · rw [State.rateCheck_below hbelow]
    exact ⟨rfl, rfl, rfl⟩
  · obtain ⟨hsec, hreg, hstatus⟩ := s.rateReported_frame t
    rw [State.rateCheck_above hbelow]
    generalize s.rateReported t = v at hsec hreg hstatus
    refine ⟨(hstatus x).trans ((s.markDegraded_frame t 3 3 0).2.2 x h), ?_, (State.reg_of_regs rfl _).trans hreg⟩
    rw [← hsec, State.historyErased, State.modSec, Sec.eccSum, Sec.eccSum, List.map_map]
    exact congrArg List.sum (List.map_congr_left fun m _ => Map.get_erase_other _ _ h)

/-- What a check leaves of the minutes that are kept. -/
theorem State.rateCheck_minutes : (s.rateCheck t).sec.eccAt = s.sec.eccAt ∧ (s.rateCheck t).sec.ecc.length = s.sec.ecc.length := by
  by_cases hbelow : (s.reg R.SEC_ECC_THRESH).toNat = 0 ∨ s.sec.eccSum t ≤ (s.reg R.SEC_ECC_THRESH).toNat
  · rw [State.rateCheck_below hbelow]
    exact ⟨rfl, rfl⟩
  · obtain ⟨hsec, -, -⟩ := s.rateReported_frame t
    rw [State.rateCheck_above hbelow]
    generalize s.rateReported t = v at hsec
    rw [← hsec]
    exact ⟨rfl, List.length_map _⟩

/-- R438: a check of a site itself. -/
theorem State.rateCheck_same : let limit := (s.reg R.SEC_ECC_THRESH).toNat
    (limit ≠ 0 → limit < s.sec.eccSum t → s.siteStatus t = 0 → (s.rateCheck t).siteStatus t = 2) ∧
      (limit = 0 ∨ s.sec.eccSum t ≤ limit → (s.rateCheck t).siteStatus t = s.siteStatus t) := by
  refine ⟨fun hlimit habove hgood => ?_, fun hbelow => by rw [State.rateCheck_below hbelow]⟩
  obtain ⟨-, -, hstatus⟩ := s.rateReported_frame t
  rw [State.rateCheck_above (by omega)]
  generalize s.rateReported t = v at hstatus
  exact (hstatus t).trans (s.siteStatus_markDegraded t 3 3 0 hgood)

end

/-- R438: a check of every site of a list. -/
def State.rateChecks (s : State) (l : List Nat) : State := l.foldl (fun s t => s.rateCheck t) s

theorem State.rateChecks_other (s : State) {l : List Nat} {x : Nat} (h : x ∉ l) : (s.rateChecks l).siteStatus x = s.siteStatus x ∧
    (s.rateChecks l).sec.eccSum x = s.sec.eccSum x ∧ (s.rateChecks l).reg R.SEC_ECC_THRESH = s.reg R.SEC_ECC_THRESH := by
  refine List.foldlRecOn (motive := fun u : State => u.siteStatus x = s.siteStatus x ∧ u.sec.eccSum x = s.sec.eccSum x ∧
    u.reg R.SEC_ECC_THRESH = s.reg R.SEC_ECC_THRESH) l _ ⟨rfl, rfl, rfl⟩ fun u hu t ht => ?_
  obtain ⟨hstatus, hsum, hreg⟩ := hu
  obtain ⟨hstatus', hsum', hreg'⟩ := u.rateCheck_other t (x := x) fun hx => h (hx ▸ ht)
  exact ⟨hstatus'.trans hstatus, hsum'.trans hsum, hreg'.trans hreg⟩

/-- R438: a site that is checked once takes its status from that check. -/
theorem State.rateChecks_effect (s : State) {l : List Nat} (hnodup : l.Nodup) {t : Nat} (ht : t ∈ l) : let limit := (s.reg R.SEC_ECC_THRESH).toNat
    (limit ≠ 0 → limit < s.sec.eccSum t → s.siteStatus t = 0 → (s.rateChecks l).siteStatus t = 2) ∧
      (limit = 0 ∨ s.sec.eccSum t ≤ limit → (s.rateChecks l).siteStatus t = s.siteStatus t) := by
  obtain ⟨before, after, rfl⟩ := List.append_of_mem ht
  have hsplit := (List.nodup_middle.mp hnodup)
  rw [List.nodup_cons, List.mem_append, not_or] at hsplit
  obtain ⟨⟨hbefore, hafter⟩, -⟩ := hsplit
  obtain ⟨hstatus, hsum, hreg⟩ := s.rateChecks_other hbefore
  have hsame := (s.rateChecks before).rateCheck_same t
  have hall : (s.rateChecks (before ++ t :: after)).siteStatus t = ((s.rateChecks before).rateCheck t).siteStatus t := by
    rw [State.rateChecks, List.foldl_append, List.foldl_cons]
    exact (State.rateChecks_other _ hafter).1
  rw [hall, ← hstatus, ← hsum, ← hreg]
  exact hsame

theorem State.rateChecks_minutes (s : State) (l : List Nat) :
    (s.rateChecks l).sec.eccAt = s.sec.eccAt ∧ (s.rateChecks l).sec.ecc.length = s.sec.ecc.length :=
  ⟨foldl_leaves (fun u : State => u.sec.eccAt) (fun u t => (u.rateCheck_minutes t).1) l s,
    foldl_leaves (fun u : State => u.sec.ecc.length) (fun u t => (u.rateCheck_minutes t).2) l s⟩

/-- R438: the rise of a site in the last minute, with what its internal memories corrected. -/
def State.minuteRise (s : State) (internal : List (Nat × Nat)) (t : Nat) : Nat :=
  s.corrRise t + ((internal.filter fun e => e.1 == t).map (·.2)).sum

/-- R438: the last minute is put before the others. -/
def State.minuteNoted (s : State) (internal : List (Nat × Nat)) : State := s.modSec fun x => { x with
  ecc := ((allSites.filter s.live).foldl (fun m t => Map.set (fun _ => 0) m t (s.minuteRise internal t)) [] :: x.ecc).take 1440,
  eccLast := (allSites.filter s.live).foldl (fun m t => Map.set (fun _ => 0) m t (s.corrected t)) [], eccAt := s.time }

theorem State.minuteNoted_length (s : State) (internal : List (Nat × Nat)) :
    (s.minuteNoted internal).sec.ecc.length = min 1440 (s.sec.ecc.length + 1) := by
  rw [State.minuteNoted, State.modSec, List.length_take, List.length_cons]

theorem take_cons {α : Type} (x : α) (l : List α) : (x :: l).take 1440 = x :: l.take 1439 := List.take_succ_cons

/-- R438: the sum of a site over the minutes that are kept. -/
theorem State.eccSum_minuteNoted (s : State) (internal : List (Nat × Nat)) {t : Nat} (ht : t ∈ allSites.filter s.live) :
    (s.minuteNoted internal).sec.eccSum t =
      s.minuteRise internal t + ((s.sec.ecc.take 1439).map fun m => Map.get (fun _ => 0) m t).sum := by
  have hget : Map.get (fun _ => 0) ((allSites.filter s.live).foldl (fun m t => Map.set (fun _ => 0) m t (s.minuteRise internal t)) []) t =
      s.minuteRise internal t := Map.get_foldl_set_mem (fun _ => 0) (key := id) (s.minuteRise internal) (fun _ _ _ _ h => h) ht []
  rw [State.minuteNoted, State.modSec, Sec.eccSum, take_cons, List.map_cons, List.sum_cons, hget]

/-! ### Accesses of a pair (R440, R441) -/

/-- What the comparison of pairs asks of the state: the networks, and the test registers of the sites. -/
def State.pairView (s : State) : Net × (Nat → BitVec 32) := (s.net, fun x => s.treg x R.TILE_IFT_STATUS)

theorem State.pairView_of {u v : State} (hnet : u.net = v.net) (hsites : u.sites = v.sites) : u.pairView = v.pairView := by
  simp only [State.pairView, hnet, State.treg, State.site, hsites]

section
variable (s : State) (t : Nat)

theorem State.pairView_setTreg {a : Nat} (v : BitVec 32) (h : R.TILE_IFT_STATUS ≠ a) : (s.setTreg t a v).pairView = s.pairView :=
  Prod.ext rfl (funext fun _ => State.treg_setTreg_other _ _ (.inr h))

theorem State.pairView_setTbit {a : Nat} (i : Nat) (b : Bool) (h : R.TILE_IFT_STATUS ≠ a) : (s.setTbit t a i b).pairView = s.pairView :=
  s.pairView_setTreg t _ h

theorem State.pairView_setTreg64 {a : Nat} (n : Nat) (h : R.TILE_IFT_STATUS ≠ a) (h' : R.TILE_IFT_STATUS ≠ a + 4) :
    (s.setTreg64 t a n).pairView = s.pairView := by
  rw [State.setTreg64, State.pairView_setTreg _ _ _ h', State.pairView_setTreg _ _ _ h]

theorem State.pairView_modSite (f : Site → Site) (h : ∀ y : Site, (f y).regs = y.regs) : (s.modSite t f).pairView = s.pairView := by
  refine Prod.ext rfl (funext fun x => ?_)
  change (s.modSite t f).treg x R.TILE_IFT_STATUS = s.treg x R.TILE_IFT_STATUS
  by_cases hx : x = t
  · rw [hx, State.treg, State.site_modSite_same, h, State.treg]
  · rw [State.treg, State.site_modSite_other _ _ hx, State.treg]

theorem State.pairView_modCore (c : Nat) (f : Core → Core) : (s.modCore t c f).pairView = s.pairView := s.pairView_modSite t _ fun _ => rfl

theorem State.pairView_modXfer (id row : Nat) (f : XferRow → XferRow) : (s.modXfer t id row f).pairView = s.pairView :=
  s.pairView_modSite t _ fun _ => rfl

theorem State.pairView_answerLost : (s.answerLost t).pairView = s.pairView := by
  rw [State.answerLost, State.pairView_setTbit _ _ _ _ (by decide), State.tbump, State.pairView_setTreg _ _ _ (by decide)]

theorem State.pairView_reportStatus (core source pc status : Nat) : (s.reportStatus t core source pc status).pairView = s.pairView := by
  have hpend : R.TILE_IFT_STATUS ≠ R.S_EXT_PEND core := by simp only [R.TILE_IFT_STATUS, R.S_EXT_PEND]; omega
  have hcount : R.TILE_IFT_STATUS ≠ (if status == 1 then R.ENG_XFER_STALE else if status == 2 then R.ENG_XFER_CLOSED else R.ENG_XFER_UNREACH) := by
    split
    · decide
    · split <;> decide
  unfold State.reportStatus
  extract_lets u v
  have hu : u.pairView = s.pairView := s.pairView_setTreg t _ hcount
  have hv : v.pairView = s.pairView := by
    simp only [v]
    split
    · exact hu
    · rw [State.pairView_setTreg64 _ _ _ (by decide) (by decide), State.pairView_setTreg _ _ _ (by decide), State.pairView_setTbit _ _ _ _ (by decide), hu]
  split
  · rfl
  · split
    · rw [State.pairView_setTbit _ _ _ _ hpend, hv]
    · exact hv

theorem State.pairView_fault (code source : Nat) (part : Option Nat) (detail : List Nat) : (s.fault code source part detail).pairView = s.pairView :=
  (Reports.fault s code source part detail).view State.pairView fun _ _ _ _ _ => rfl

theorem State.pairView_modHst (f : Hst → Hst) : (s.modHst f).pairView = s.pairView := rfl

theorem State.pairView_fnErr (f addr status : Nat) : (s.fnErr f addr status).pairView = s.pairView := by
  unfold State.fnErr
  split
  · rfl
  · exact State.pairView_of rfl rfl

theorem State.pairView_hostDone (id status : Nat) (data : List (BitVec 8)) {u : State} (h : s.hostDone id status data = some u) :
    u.pairView = s.pairView := by
  unfold State.hostDone at h
  split at h
  · cases h
  · have herr (v : State) (f addr : Nat) (hv : v.pairView = s.pairView) : (if status == 0 then v else v.fnErr f addr status).pairView = s.pairView := by
      split
      · exact hv
      · rw [State.pairView_fnErr, hv]
    dsimp only at h
    cases h
    split
    · rw [State.pairView_modHst]
      exact herr _ _ _ rfl
    · exact herr _ _ _ rfl

theorem State.pairView_copyDone (f c id part status : Nat) (data : List (BitVec 8)) {u : State} (h : s.copyDone f c id part status data = some u) :
    u.pairView = s.pairView := by
  unfold State.copyDone at h
  dsimp only at h
  split at h
  · cases h
  · cases h
    rw [State.setChan, State.pairView_modHst]
    split
    · split
      · rfl
      · exact s.pairView_fnErr _ _ _
    · rfl

theorem State.pairView_debugDone (status : Nat) (data : List (BitVec 8)) : (s.debugDone status data).pairView = s.pairView := by
  unfold State.debugDone
  dsimp only
  split
  · split
    · rfl
    · rfl
  · split
    · rfl
    · rfl

theorem pairView_getD {s v : State} {o : Option State} (ho : ∀ u, o = some u → u.pairView = s.pairView) (hv : v.pairView = s.pairView) :
    (o.getD v).pairView = s.pairView := by
  cases o with
  | none => exact hv
  | some u => exact ho u rfl

/-- R273: the answer to a user leaves the networks and the test registers. -/
theorem State.pairView_netDone (u : NetUser) (status : Nat) (data : List (BitVec 8)) : (s.netDone u status data).pairView = s.pairView := by
  have hlost (t : Nat) := s.pairView_answerLost t
  cases u with
  | core t c id =>
    simp only [State.netDone]
    split
    · exact hlost t
    · exact s.pairView_modCore t c _
  | xfer t id row =>
    simp only [State.netDone]
    split
    · exact hlost t
    · refine (State.pairView_modXfer _ t _ _ _).trans ?_
      split
      · exact s.pairView_reportStatus t _ _ _ _
      · rfl
  | msg t id =>
    simp only [State.netDone]
    split
    · exact hlost t
    · refine (State.pairView_modXfer _ t _ _ _).trans ?_
      split
      · exact s.pairView_reportStatus t _ _ _ _
      · rfl
  | concWrite t slot =>
    have hstate : R.TILE_IFT_STATUS ≠ R.CONC_STATE slot := by simp only [R.TILE_IFT_STATUS, R.CONC_STATE]; omega
    simp only [State.netDone]
    split
    · exact hlost t
    · refine (State.pairView_modSite _ t _ ?_).trans ?_
      · exact fun _ => rfl
      split
      · rfl
      · rw [State.pairView_fault, State.pairView_setTbit _ _ _ _ hstate]
  | concNote t slot => rfl
  | ingress p h => rfl
  | fn f => rfl
  | host id =>
    simp only [State.netDone]
    split
    · exact pairView_getD (fun u hu => s.pairView_hostDone _ _ _ hu) (hlost _)
    · exact hlost _
  | copy f c id part =>
    simp only [State.netDone]
    split
    · exact pairView_getD (fun u hu => s.pairView_copyDone _ _ _ _ _ _ hu) (hlost _)
    · exact hlost _
  | debug => exact s.pairView_debugDone status data
  | fill t a =>
    simp only [State.netDone]
    split
    · exact hlost t
    · exact s.pairView_modSite t _ fun _ => rfl
  | spill t a =>
    simp only [State.netDone]
    split
    · exact hlost t
    · rw [foldl_leaves State.pairView fun u c => u.pairView_modCore t c _]
      exact s.pairView_modSite t _ fun _ => rfl
  | fetch t c b =>
    simp only [State.netDone]
    split
    · exact hlost t
    · exact s.pairView_modCore t c _

end

/-- R441: the access is answered UNREACH: the broken pairs and the test registers stay. -/
theorem State.heldUnreach_frame (s : State) (r : NetReq) : (s.heldUnreach r).net.broken = s.net.broken ∧
    ∀ x, (s.heldUnreach r).treg x R.TILE_IFT_STATUS = s.treg x R.TILE_IFT_STATUS := by
  have hview : (s.heldUnreach r).pairView = (s.modNet fun n => { n with outbox := n.outbox.erase r }).pairView := State.pairView_netDone _ _ _ _
  exact ⟨congrArg (fun v => v.1.broken) hview, fun x => congrFun (congrArg Prod.snd hview) x⟩

/-- R393: a site's test is due and overdue. -/
def State.OverdueNow (s : State) (t : Nat) : Prop := s.overdue t = true ∧ s.iftState t = 1

theorem State.overdueNow_of_treg {s u : State} {t : Nat} (h : u.treg t R.TILE_IFT_STATUS = s.treg t R.TILE_IFT_STATUS) (hs : s.OverdueNow t) :
    u.OverdueNow t := by
  rw [State.OverdueNow, State.overdue, State.iftState, State.tbit, State.tfld, h]
  exact hs

/-- R441: a test is made due, and overdue. -/
def State.makeOverdue (s : State) (t : Nat) : State := (s.setTbit t R.TILE_IFT_STATUS 29 true).setTfld t R.TILE_IFT_STATUS 31 30 1

theorem State.makeOverdue_same (s : State) (t : Nat) : (s.makeOverdue t).OverdueNow t := by
  unfold State.makeOverdue
  refine ⟨?_, ?_⟩
  · rw [State.overdue, State.tbit_setTfld_other _ _ _ _ _ _ _ (by decide) (by decide), State.tbit_setTbit_same _ _ _ _ _ (by decide)]
  · rw [State.iftState, State.tfld_setTfld_same _ _ _ _ _ _ (by decide) (by decide)]
    rfl

theorem State.makeOverdue_other {s : State} {t x : Nat} (h : x ≠ t) (hs : s.OverdueNow x) : (s.makeOverdue t).OverdueNow x := by
  refine State.overdueNow_of_treg ?_ hs
  rw [State.makeOverdue, State.treg_setTfld_ne _ _ _ _ (.inl h), State.setTbit_eq, State.treg_setTfld_ne _ _ _ _ (.inl h)]

theorem State.makeOverdue_both (s : State) (t u : Nat) :
    [t, u].foldl (fun s v => (s.setTbit v R.TILE_IFT_STATUS 29 true).setTfld v R.TILE_IFT_STATUS 31 30 1) s = (s.makeOverdue t).makeOverdue u := rfl

theorem State.partFail_net (s : State) (p cause : Nat) : (s.partFail p cause).net = s.net :=
  (Reports.fault _ _ _ _ _).view State.net fun _ _ _ _ _ => rfl

/-- R441: the pair is noted as broken. -/
def State.notedBroken (s : State) (t : Nat) : State :=
  s.modNet fun n => { n with broken := if n.broken.contains t then n.broken else n.broken ++ [t] }

theorem State.mem_notedBroken (s : State) (t : Nat) : t ∈ (s.notedBroken t).net.broken := by
  simp only [State.notedBroken, State.modNet]
  split
  next h => exact List.contains_iff_mem.mp h
  next => exact List.mem_append_right _ (List.mem_singleton_self t)

/-- R441, R442: the record of a broken pair, whose partition fails. -/
def State.reportBroken (s : State) (t u : Nat) (a b : BitVec 64) : State :=
  let v := s.fault 0x06 s.curatorSource (s.partOf t) (le 2 t ++ le 2 u ++ le 8 a.toNat ++ le 8 b.toNat)
  match v.partOf t with
  | some p => v.partFail p 0x06
  | none => v

theorem State.reportBroken_net (s : State) (t u : Nat) (a b : BitVec 64) : (s.reportBroken t u a b).net = s.net := by
  have hfault : (s.fault 0x06 s.curatorSource (s.partOf t) (le 2 t ++ le 2 u ++ le 8 a.toNat ++ le 8 b.toNat)).net = s.net :=
    (Reports.fault _ _ _ _ _).view State.net fun _ _ _ _ _ => rfl
  rw [State.reportBroken]
  generalize s.fault _ _ _ _ = v at hfault
  split
  · rw [State.partFail_net, hfault]
  · exact hfault

theorem State.breakPair_eq {s : State} {t u : Nat} (htwin : s.twin t = some u) (hlt : t < u) (a b : BitVec 64) :
    s.breakPair t a b = (((s.notedBroken t).reportBroken t u a b).makeOverdue t).makeOverdue u := by
  rw [State.breakPair, htwin, ← State.makeOverdue_both]
  simp only [Nat.min_eq_left (Nat.le_of_lt hlt), Nat.max_eq_right (Nat.le_of_lt hlt), State.reportBroken, State.notedBroken] <;> rfl

/-- R441: what breaking a pair leaves. -/
theorem State.breakPair_effect {s : State} {t u : Nat} (htwin : s.twin t = some u) (hlt : t < u) (a b : BitVec 64) :
    t ∈ (s.breakPair t a b).net.broken ∧ (s.breakPair t a b).OverdueNow t ∧ (s.breakPair t a b).OverdueNow u := by
  have hmem := s.mem_notedBroken t
  rw [← (s.notedBroken t).reportBroken_net t u a b] at hmem
  rw [State.breakPair_eq htwin hlt]
  generalize (s.notedBroken t).reportBroken t u a b = v at hmem
  exact ⟨hmem, State.makeOverdue_other (Nat.ne_of_lt hlt) (v.makeOverdue_same t), State.makeOverdue_same _ _⟩

/-- R441: what a mismatch leaves. -/
theorem State.mismatch_effect {s : State} {t u : Nat} (htwin : s.twin t = some u) (hlt : t < u) (a b : NetReq) :
    let v := ((s.breakPair t a.crc b.crc).heldUnreach a).heldUnreach b
    t ∈ v.net.broken ∧ v.OverdueNow t ∧ v.OverdueNow u := by
  have hbroken := State.breakPair_effect htwin hlt a.crc b.crc
  generalize s.breakPair t a.crc b.crc = x at hbroken
  obtain ⟨hmem, ht, hu⟩ := hbroken
  obtain ⟨hfirst, hfirst'⟩ := x.heldUnreach_frame a
  obtain ⟨hsecond, hsecond'⟩ := (x.heldUnreach a).heldUnreach_frame b
  refine ⟨hsecond ▸ hfirst ▸ hmem, State.overdueNow_of_treg ((hsecond' t).trans (hfirst' t)) ht,
    State.overdueNow_of_treg ((hsecond' u).trans (hfirst' u)) hu⟩

/-! ### The core commands (R431, R449) -/

/-- R449: DBG_CORE_STATUS names the core, and nothing else changes. -/
theorem State.nameCore_eq (s : State) {t c : Nat} (ht : t < 3072) (hc : c < 4) :
    s.nameCore t c = { s with dbg := { s.dbg with named := some (coreId t c) } } := by
  rw [State.nameCore, if_pos ht, Nat.mod_eq_of_lt hc]

section
variable {s : State} {a : Agent} {t c : Nat} (ht : t < 3072) (hc : c < 4) (ha : s.Granted a R.DBG_CORE_CMD)
include ht hc ha

theorem coreCmd_does :
    Does (.attach a t c) s ((s.nameCore t c).dbgAttach t c) ∧ Does (.halt a t c) s ((s.nameCore t c).dbgHalt t c) ∧
      Does (.resume a t c) s ((s.nameCore t c).dbgResume t c) ∧ Does (.step a t c) s ((s.nameCore t c).dbgStep t c) ∧
      Does (.detach a t c) s ((s.nameCore t c).dbgDetach t c) := by
  have ht' : t % 4096 = t := Nat.mod_eq_of_lt (by omega)
  have hc' : c % 4 = c := Nat.mod_eq_of_lt hc
  refine ⟨?_, ?_, ?_, ?_, ?_⟩
  · rw [Does, exec_attach, execAttach, ht', hc', devWrite_granted ha, State.coreCmd]
  · rw [Does, exec_halt, execHalt, ht', hc', devWrite_granted ha, State.coreCmd]
  · rw [Does, exec_resume, execResume, ht', hc', devWrite_granted ha, State.coreCmd]
  · rw [Does, exec_step, execStep, ht', hc', devWrite_granted ha, State.coreCmd]
  · rw [Does, exec_detach, execDetach, ht', hc', devWrite_granted ha, State.coreCmd]

end

/-- R431: an ignored command, as a state that differs from s in the core named sees it. -/
theorem State.Refuses.of_named {s v u : State} {t c n : Nat} (hv : v = { s with dbg := { s.dbg with named := some n } }) (h : v.Refuses u t c) :
    u.bit R.DBG_CORE_STATUS 31 = true ∧ u.dbg.attached = s.dbg.attached ∧ u.coreState t c = s.coreState t c ∧ u.core t c = s.core t c ∧
      u.dbg.named = some n := by
  obtain ⟨hreject, hdbg, hstate, hcore⟩ := h
  subst hv
  exact ⟨hreject, by rw [hdbg], hstate, hcore, by rw [hdbg]⟩

/-- Settles O55, command by command. -/
theorem debugCommands : Obligations.DebugCommands := by
  unfold Obligations.DebugCommands
  refine ⟨?tap, ?tapReset, ?core, ?trace, ?bank, ?rates, ?pair, ?head⟩
  case tap =>
    intro s i low hvaux hi
    have hmin : min i 3 = i := by omega
    have hexec := exec_tapInstruction i low s
    rw [execTapInstruction, hmin] at hexec
    refine ⟨fun h3 hlow => ?_, fun hok => ?_⟩
    · rw [Does, hexec, when_false (by simp [h3, hlow])]
    · rw [when_true (by simpa [hvaux] using hok)] at hexec
      generalize hu : s.modHst (fun h => { h with tap := i }) = u at hexec
      have hregs : u.regs = s.regs := by rw [← hu]; rfl
      have htap : u.hst.tap = i := by rw [← hu]; rfl
      have htime : u.time = s.time := by rw [← hu]; rfl
      refine ⟨_, hexec, ?_, fun hlow => ?_, fun hhigh => ⟨?_, fun hnone => ?_⟩⟩
      · split
        · exact (u.debugSeen_view 0 (fun v => v.hst.tap) fun _ _ _ _ => rfl).trans htap
        · exact htap
      · rw [if_neg (by omega), hregs]
      · rw [if_pos hhigh, State.bit_debugSeen _ _ (by decide)]
      · rw [if_pos hhigh, State.debugTime_debugSeen _ _ ((State.reg_of_regs hregs _).trans hnone), htime]
  case tapReset =>
    intro s ns hns
    have hexec := exec_tapReset ns s
    rw [execTapReset, when_true (by simpa using hns)] at hexec
    exact ⟨_, hexec, rfl, rfl⟩
  case core =>
    intro s a t c ht hc ha id there mine refuses
    obtain ⟨hattach, hhalt, hresume, hstep, hdetach⟩ := coreCmd_does ht hc ha
    have hnamed := s.nameCore_eq ht hc
    have hmine : (s.nameCore t c).Mine t c ↔ mine := by rw [hnamed]; exact Iff.rfl
    have hthere : (s.nameCore t c).coreThere t c = s.coreThere t c := by rw [hnamed]; rfl
    have hattached : (s.nameCore t c).attached t c = s.attached t c := by rw [hnamed]; rfl
    have hstate : (s.nameCore t c).coreState t c = s.coreState t c := by rw [hnamed]; rfl
    have hcore : (s.nameCore t c).core t c = s.core t c := by rw [hnamed]; rfl
    have hsite : (s.nameCore t c).site t = s.site t := by rw [hnamed]; rfl
    have hname : (s.nameCore t c).dbg.named = some id := by rw [hnamed]
    have hrefuses {u : State} (h : (s.nameCore t c).Refuses u t c) : refuses u := h.of_named hnamed
    generalize s.nameCore t c = v at *
    have hreject : refuses v.debugReject := hrefuses (v.debugReject_refuses t c)
    obtain ⟨hseen, hattaches, hattachNot⟩ := State.dbgAttach_effect (s := v) (c := c) ht
    refine ⟨_, _, _, _, _, hattach, hhalt, hresume, hstep, hdetach, hseen, fun h hfree => ?attach, fun h => ?attachNot, fun hm hruns => ?halt,
      fun h => ?haltNot, fun hm hhalted => ?run, fun h => ?runNot, fun hm => ?detach, fun h => ?detachNot⟩
    case attach =>
      obtain ⟨hyes, hcore', hname'⟩ := hattaches (hthere.trans h) (hattached.trans hfree)
      exact ⟨hyes, hcore'.trans hcore, hname'.trans hname⟩
    case attachNot => exact hrefuses (hattachNot (by rwa [hthere, hattached]))
    case halt =>
      rw [← hstate] at hruns
      rw [State.dbgHalt_halts (hmine.mpr hm) hruns, ← hcore]
      let u : State := { v with dbg := { v.dbg with halting := v.dbg.halting.filter (· != coreId t c) ++ [coreId t c] } }
      have hhalting : u.halting t c = true := by simp [State.halting, u]
      exact ⟨State.settle_halts (s := u) hc hhalting hruns, fun hbusy =>
        ⟨(State.settle_waits (s := u) hbusy).1.trans hhalting, (State.settle_waits (s := u) hbusy).2⟩⟩
    case haltNot =>
      rw [State.dbgHalt_rejects (by rwa [hmine, hstate])]
      exact hreject
    case run =>
      have hyes : v.dbgHalted t c = true := State.dbgHalted_iff.mpr ⟨hmine.mpr hm, hstate.trans hhalted⟩
      have hresumes : v.dbgResume t c = v.dbgRun t c := if_pos hyes
      obtain ⟨hrun, hrunCore⟩ := v.dbgRun_effect t hc
      obtain ⟨hstep', hstepCore, hawaits⟩ := State.dbgStep_effect hc hyes
      rw [hresumes, hrunCore, hstepCore, hcore, hsite]
      exact ⟨hrun, rfl, hstep', rfl, hawaits⟩
    case runNot =>
      have hno := State.dbgHalted_rejects (s := v) (t := t) (c := c) (by rwa [hmine, hstate])
      have hresumes : v.dbgResume t c = v.debugReject := if_neg hno
      have hsteps : v.dbgStep t c = v.debugReject := if_neg hno
      rw [hresumes, hsteps]
      exact ⟨hreject, hreject⟩
    case detach =>
      rw [← hstate]
      exact State.dbgDetach_effect hc (hmine.mpr hm)
    case detachNot =>
      rw [State.dbgDetach_rejects (mt hmine.mp h)]
      exact hreject
  case trace =>
    intro s a n t classes hn ht hclasses ha
    obtain ⟨harm, hsite, hcl⟩ := traceWord_fields ht hclasses
    have hexec := exec_traceArm a n t classes s
    rw [execTraceArm, Nat.mod_eq_of_lt hn, devWrite_granted ha, ← traceWord] at hexec
    refine ⟨_, hexec, fun howns hname => ?_, fun hno => ?_⟩
    · rw [State.traceCtl_arms howns (by rwa [hsite]) harm]
      obtain ⟨htrace, h31, h30, h29, h16, h3⟩ := s.traceArmed_effect hn (traceWord t classes)
      generalize s.traceArmed n (traceWord t classes) = v at htrace h31 h30 h29 h16 h3
      obtain ⟨hdbg, hreg⟩ := v.armSeen_frame a (getBits (traceWord t classes) 16 5) hn
      rw [hdbg, State.bit_of_reg hreg, State.bit_of_reg hreg, State.fld_of_reg hreg, State.fld_of_reg hreg, State.fld_of_reg hreg]
      exact ⟨htrace, h31.trans harm, h30, h29, h16.trans hsite, h3.trans hcl⟩
    · rw [State.traceCtl_rejects (by rwa [hsite])]
      exact ⟨State.bit_setBit_same _ _ _ _ (by decide), State.setReg_dbg _ _ _⟩
  case bank =>
    intro s n due hn harmed hfind hdue t
    have hexec := exec_counterBankSample n s
    rw [execCounterBankSample, hfind] at hexec
    dsimp only at hexec
    rw [when_true (by simp [hn, harmed, hdue])] at hexec
    refine ⟨_, hexec, State.nextSample_setSample _ _ _, fun ht hlive hup => ?_⟩
    exact s.bankSample_effect n rfl ht hlive hup
  case rates =>
    intro s internal hup hdue limit sum
    have hexec := exec_eccRateCheck internal s
    rw [execEccRateCheck, when_true (by simp [hup, hdue])] at hexec
    obtain ⟨hat, hlength⟩ := (s.minuteNoted internal).rateChecks_minutes (allSites.filter s.live)
    refine ⟨(s.minuteNoted internal).rateChecks (allSites.filter s.live), hexec, hat, hlength.trans (s.minuteNoted_length internal),
      fun t ht hlive => ?_⟩
    have hmem : t ∈ allSites.filter s.live := List.mem_filter.mpr ⟨List.mem_range.mpr ht, hlive⟩
    have hsum : (s.minuteNoted internal).sec.eccSum t = sum t := s.eccSum_minuteNoted internal hmem
    have hlimit : ((s.minuteNoted internal).reg R.SEC_ECC_THRESH).toNat = limit := congrArg BitVec.toNat (State.reg_of_regs rfl _)
    have heffect := (s.minuteNoted internal).rateChecks_effect ((List.nodup_range (n := 3072)).filter s.live) hmem
    rw [hsum, hlimit] at heffect
    exact heffect
  case pair =>
    intro s lead u a b htwin hbroken hheld hlt
    have hexec := exec_pairedAccessCompare lead s
    rw [execPairedAccessCompare, htwin] at hexec
    dsimp only at hexec
    rw [hbroken, if_neg Bool.false_ne_true, hheld] at hexec
    dsimp only at hexec
    rw [when_true (by simpa using hlt), when_true (by simpa using hlt)] at hexec
    by_cases hcrc : a.crc = b.crc
    · rw [if_pos (by simpa using hcrc)] at hexec
      exact ⟨_, hexec, fun _ => rfl, fun h => absurd hcrc h⟩
    · rw [if_neg (by simpa using hcrc)] at hexec
      obtain ⟨hmem, ht, hu⟩ := State.mismatch_effect htwin hlt a b
      exact ⟨_, hexec, fun h => absurd h hcrc, fun _ => ⟨hmem, ht.1, hu.1, ht.2, hu.2⟩⟩
  case head =>
    intro s a v ha back
    have hexec := exec_fltLogHeadWrite a v s
    rw [execFltLogHeadWrite, devWrite_granted ha] at hexec
    refine ⟨_, hexec, ?_⟩
    rw [State.logHead]
    split
    · exact ⟨State.setReg_faults _ _ _, State.reg_setReg_same _ _ _⟩
    · exact ⟨rfl, rfl⟩

end Sys2Proof.Machine
end

section
/-! PROOFS. The power cap, calibration, droop and voltage records, VBRING, ageing and the thermal commands (R346, R351-R355, R362-R367). -/

namespace Sys2Proof.Machine

/-! ### A step of the cap (R354, R357-R362) -/

/-- What the next step of the cap finds of this one. -/
def State.capView (s : State) : Nat × List Rat := (s.pwr.lastStep, s.pwr.estimates)

theorem State.capView_of_pwr {s u : State} (h : u.pwr = s.pwr) : u.capView = s.capView := by rw [State.capView, h, State.capView]

section
variable (s : State)

theorem State.capView_setReg (a : Nat) (v : BitVec 32) : (s.setReg a v).capView = s.capView := State.capView_of_pwr (State.setReg_pwr _ _ _)
theorem State.capView_setFld (a hi lo n : Nat) : (s.setFld a hi lo n).capView = s.capView := s.capView_setReg a _
theorem State.capView_setBit (a i : Nat) (b : Bool) : (s.setBit a i b).capView = s.capView := s.capView_setReg a _
theorem State.capView_setReg64 (a n : Nat) : (s.setReg64 a n).capView = s.capView := by
  rw [State.setReg64, State.capView_setReg, State.capView_setReg]
theorem State.capView_freed : s.freed.capView = s.capView := rfl
theorem State.capView_curFault (code : Nat) (detail : List Nat) : (s.curFault code detail).capView = s.capView :=
  s.curFault_view code detail State.capView fun _ _ _ _ => rfl

theorem State.requestSwitch_pwr (at_ target source : Nat) : (s.requestSwitch at_ target source).pwr = s.pwr := by
  unfold State.requestSwitch
  dsimp only
  split
  · rfl
  · split
    · rfl
    · split
      · exact (State.setReg_pwr _ _ _).trans ((State.rampTo_differs _ _).view State.pwr fun _ _ => rfl)
      · rfl

theorem State.capView_modeStep : s.modeStep.capView = s.capView := by
  unfold State.modeStep
  extract_lets skip was ask src pwr0 u
  have hu : u.capView = s.capView := rfl
  clear_value u
  split
  · rw [State.capView_setFld, hu]
  · split
    · rw [State.capView_of_pwr (u.requestSwitch_pwr _ _ _), hu]
    · exact hu

theorem State.capView_skipStep (e d : Rat) : (s.skipStep e d).capView = s.capView := by
  unfold State.skipStep
  dsimp only
  split
  · rfl
  · split
    · rfl
    · rfl

theorem State.capView_pointStep (ps : List Parts) : (s.pointStep ps).capView = s.capView := by
  unfold State.pointStep
  extract_lets cur target load canRaise ok pwr0 u overCap
  have hu : u.capView = s.capView := rfl
  clear_value u
  split
  · exact hu
  · split
    · rw [State.capView_of_pwr (u.requestSwitch_pwr _ _ _), hu]
    · split
      · rw [State.capView_of_pwr (u.requestSwitch_pwr _ _ _), hu]
      · exact hu

theorem State.capView_unheldStep (now : Bool) : (s.unheldStep now).capView = s.capView := by
  unfold State.unheldStep
  dsimp only
  split
  · split
    · exact s.capView_setBit _ _ _
    · exact State.capView_curFault _ _ _
  · rfl

/-- R362: the next interval of an episode begins. -/
def State.intervalStarts (s : State) : State :=
  { s.freed with pwr := { s.pwr with lastRecord := s.time, estSum := 0, estCount := 0, skipMax := s.skip, lostSum := 0 } }

theorem State.throttleRecord_eq (code : Nat) : s.throttleRecord code = (s.curFault code s.throttleDetail).intervalStarts := rfl

theorem State.capView_throttleRecord (code : Nat) : (s.throttleRecord code).capView = s.capView := by
  rw [State.throttleRecord_eq, ← s.capView_curFault code s.throttleDetail]
  rfl

/-- R362: a step adds to the sums of the interval. -/
def State.capCounted (s : State) (e : Rat) : State :=
  { s with pwr := { s.pwr with estSum := s.pwr.estSum + e, estCount := s.pwr.estCount + 1, skipMax := max s.pwr.skipMax s.skip,
                               lostSum := s.pwr.lostSum + (s.skip : Rat) / 16 } }

/-- R362: an episode begins. -/
def State.episodeBegun (s : State) (e : Rat) : State :=
  { s with pwr := { s.pwr with begin := some s.time, lastRecord := s.time, clearSteps := 0, estSum := e, estCount := 1, skipMax := s.skip,
                               lostSum := (s.skip : Rat) / 16 } }

/-- R362: the steps without a condition. -/
def State.clearStepsAre (s : State) (n : Nat) : State := { s with pwr := { s.pwr with clearSteps := n } }

/-- R362: an episode is over. -/
def State.episodeOver (s : State) : State := { s with pwr := { s.pwr with begin := none, clearSteps := 0 } }

theorem State.capView_capCounted (e : Rat) : (s.capCounted e).capView = s.capView := rfl
theorem State.capView_episodeBegun (e : Rat) : (s.episodeBegun e).capView = s.capView := rfl
theorem State.capView_clearStepsAre (n : Nat) : (s.clearStepsAre n).capView = s.capView := rfl
theorem State.capView_episodeOver : s.episodeOver.capView = s.capView := rfl

/-- R362: the time of an episode goes on. -/
def State.episodeGoesOn (s : State) : State :=
  let s := s.setReg64 R.PWR_THR_TIME_LO (s.reg64 R.PWR_THR_TIME_LO + 4000)
  if s.throttling then s.clearStepsAre 0
  else if s.pwr.clearSteps + 1 < 250 then s.clearStepsAre (s.pwr.clearSteps + 1)
  else ((s.throttleRecord 0x2A).setBit R.PWR_STATUS 17 false).episodeOver

theorem State.capView_episodeGoesOn : s.episodeGoesOn.capView = s.capView := by
  rw [State.episodeGoesOn, ← s.capView_setReg64 R.PWR_THR_TIME_LO (s.reg64 R.PWR_THR_TIME_LO + 4000)]
  generalize s.setReg64 R.PWR_THR_TIME_LO (s.reg64 R.PWR_THR_TIME_LO + 4000) = u
  split
  · exact u.capView_clearStepsAre _
  · split
    · exact u.capView_clearStepsAre _
    · rw [State.capView_episodeOver, State.capView_setBit, State.capView_throttleRecord]

/-- R362: what a step can do to the episode. -/
theorem State.episodeStep_cases (e : Rat) : s.episodeStep e = s.capCounted e ∨
    s.episodeStep e = (((s.capCounted e).episodeBegun e).setBit R.PWR_STATUS 17 true).throttleRecord 0x28 ∨
    s.episodeStep e = (s.capCounted e).episodeGoesOn := by
  have heq : s.episodeStep e = match (s.capCounted e).pwr.begin with
    | none => if (s.capCounted e).throttling then (((s.capCounted e).episodeBegun e).setBit R.PWR_STATUS 17 true).throttleRecord 0x28
      else s.capCounted e
    | some _ => (s.capCounted e).episodeGoesOn := rfl
  rw [heq]
  split
  · split
    · exact .inr (.inl rfl)
    · exact .inl rfl
  · exact .inr (.inr rfl)

theorem State.capView_episodeStep (e : Rat) : (s.episodeStep e).capView = s.capView := by
  rcases s.episodeStep_cases e with h | h | h
  · rw [h, State.capView_capCounted]
  · rw [h, State.capView_throttleRecord, State.capView_setBit, State.capView_episodeBegun, State.capView_capCounted]
  · rw [h, State.capView_episodeGoesOn, State.capView_capCounted]

/-- R354: the estimates are noted in the groups and their registers. -/
def State.groupNoted (s : State) (raw : List (Nat × Nat × Nat)) (ps : List Parts) (n : Nat) : State :=
  let g := s.group n
  let u := { s with pwr := { s.pwr with groups := Map.set (fun _ => PwrGroup.start) s.pwr.groups n { g with raws := g.raws ++ [(rawParts raw n).total] } } }
  u.setFld (R.PWR_EST n) 15 0 (u.watts (ps.getD n ⟨0, 0, 0⟩).total 16)

theorem State.capView_groupNoted (raw : List (Nat × Nat × Nat)) (ps : List Parts) (n : Nat) : (s.groupNoted raw ps n).capView = s.capView :=
  State.capView_setFld _ _ _ _ _

/-- R354: the estimate of a step is noted with its time, and 16 are kept. -/
def State.estimateNoted (s : State) (e : Rat) : State :=
  { s with pwr := { s.pwr with lastStep := s.time, estimates := (s.pwr.estimates ++ [e]).drop ((s.pwr.estimates.length + 1) - 16) } }

theorem getLast?_kept (l : List Rat) (e : Rat) : ((l ++ [e]).drop ((l.length + 1) - 16)).getLast? = some e := by
  rw [List.getLast?_drop, if_neg (by rw [List.length_append, List.length_singleton]; omega), List.getLast?_append]
  rfl

theorem length_kept (l : List Rat) (e : Rat) : ((l ++ [e]).drop ((l.length + 1) - 16)).length ≤ 16 := by
  rw [List.length_drop, List.length_append, List.length_singleton]
  omega

/-- R357, R358: the cap acts on the estimate. -/
def State.capActs (s : State) (ps : List Parts) (e d : Rat) : State :=
  if s.skipMode then s.skipStep e d else s.pointStep ps

/-- R360, R362: what the cap could not hold is noted, with the episode. -/
def State.capNoted (s : State) (ps : List Parts) (e d d0 : Rat) : State :=
  let s := s.unheldStep (if s.skipMode then s.skipUnheld e d d0 else s.pointUnheld ps)
  (s.setReg64 R.PWR_THR_LOST_LO (s.reg64 R.PWR_THR_LOST_LO + 250 * s.skip)).episodeStep e

/-- R354: the estimates of a step are noted and shown. -/
def State.capEstimates (s : State) (raw : List (Nat × Nat × Nat)) (ps : List Parts) (e : Rat) : State :=
  let s := groups17.foldl (fun s n => s.groupNoted raw ps n) (s.estimateNoted e)
  (s.setFld R.PWR_EST_W 15 0 (s.watts e 16)).freed

theorem State.capView_capActs (ps : List Parts) (e d : Rat) : (s.capActs ps e d).capView = s.capView := by
  unfold State.capActs
  split
  · exact s.capView_skipStep e d
  · exact s.capView_pointStep ps

theorem State.capView_capNoted (ps : List Parts) (e d d0 : Rat) : (s.capNoted ps e d d0).capView = s.capView := by
  unfold State.capNoted
  dsimp only
  rw [State.capView_episodeStep, State.capView_setReg64, State.capView_unheldStep]

theorem State.capView_capEstimates (raw : List (Nat × Nat × Nat)) (ps : List Parts) (e : Rat) :
    (s.capEstimates raw ps e).capView = (s.estimateNoted e).capView := by
  rw [State.capEstimates, State.capView_freed, State.capView_setFld]
  exact foldl_leaves State.capView (fun u n => u.capView_groupNoted raw ps n) _ _

theorem execCapStep_eq (raw : List (Nat × Nat × Nat)) : execCapStep raw s =
    if s.timeRunning && s.pwr.lastStep + 4000 ≤ s.time then
      let u := (s.capEstimates raw (s.parts raw) (estimate (s.parts raw))).modeStep
      .next ((u.capActs (s.parts raw) (estimate (s.parts raw)) (skippable (s.parts raw))).capNoted (s.parts raw) (estimate (s.parts raw))
        (skippable (s.parts raw)) (unskipped (skippable (s.parts raw)) u.skip))
    else .next s := rfl

/-- R354: a step that is due. -/
theorem capStep_does {s : State} (hrun : s.timeRunning = true) (hdue : s.pwr.lastStep + 4000 ≤ s.time) (raw : List (Nat × Nat × Nat)) :
    ∃ u : State, Does (.capStep raw) s u ∧ u.capView = (s.estimateNoted (estimate (s.parts raw))).capView := by
  have hexec := exec_capStep raw s
  rw [execCapStep_eq, if_pos (by simp [hrun, hdue])] at hexec
  refine ⟨_, hexec, ?_⟩
  rw [State.capView_capNoted, State.capView_capActs, State.capView_modeStep, State.capView_capEstimates]

/-! ### Throttle records (R362) -/

theorem State.throttleRecord_effect (code : Nat) :
    (s.throttleRecord code).pwr = { s.pwr with lastRecord := s.time, estSum := 0, estCount := 0, skipMax := s.skip, lostSum := 0 } ∧
      (s.throttleRecord code).faults = (s.curFault code s.throttleDetail).faults := by
  have hreports := Reports.curFault s code s.throttleDetail
  have hpwr : (s.curFault code s.throttleDetail).pwr = s.pwr := hreports.view State.pwr fun _ _ _ _ _ => rfl
  have htime : (s.curFault code s.throttleDetail).time = s.time := hreports.view State.time fun _ _ _ _ _ => rfl
  have hskip : (s.curFault code s.throttleDetail).skip = s.skip := hreports.fld (by decide) (by decide) 7 4
  rw [State.throttleRecord_eq]
  generalize s.curFault code s.throttleDetail = v at hpwr htime hskip
  refine ⟨?_, rfl⟩
  rw [State.intervalStarts, hpwr, htime, hskip]

end

/-! ### Calibration (R355) -/

/-- R355: one group takes the pair of the millisecond. -/
def State.groupCalibrated (s : State) (m : List Nat) (n : Nat) : State :=
  let g := calibrateGroup (s.group n) (m.getD n 0 : Rat)
  let u := { s with pwr := { s.pwr with groups := Map.set (fun _ => PwrGroup.start) s.pwr.groups n g } }
  let u := u.setFld (R.PWR_EST n) 31 16 (m.getD n 0)
  let u := u.setFld (R.PWR_CAL n) 31 16 (u.watts (g.gain * 16384) 16)
  (u.setFld (R.PWR_CAL n) 15 0 (twos 16 (g.offset.floor + (if g.offset.den == 1 then 0 else ((u.free.toNat % 2 : Nat) : Int))))).freed

theorem State.groupCalibrated_pwr (s : State) (m : List Nat) (n : Nat) : (s.groupCalibrated m n).pwr =
    { s.pwr with groups := Map.set (fun _ => PwrGroup.start) s.pwr.groups n (calibrateGroup (s.group n) (m.getD n 0 : Rat)) } := by
  unfold State.groupCalibrated State.freed
  simp only [State.setFld_eq, State.setReg_pwr]

theorem State.group_of_pwr {s u : State} (h : u.pwr = s.pwr) (n : Nat) : u.group n = s.group n := by rw [State.group, h, State.group]

theorem raws_calibrateGroup (g : PwrGroup) (y : Rat) : (calibrateGroup g y).raws = [] := by
  unfold calibrateGroup
  extract_lets ps g'
  have hraws : g'.raws = [] := rfl
  split
  · unfold fit
    dsimp only
    split
    · exact hraws
    · exact hraws
  · exact hraws

theorem State.raws_groupCalibrated_same (s : State) (m : List Nat) (n : Nat) : ((s.groupCalibrated m n).group n).raws = [] := by
  rw [State.group, State.groupCalibrated_pwr, Map.get_set_same, raws_calibrateGroup]

theorem State.group_groupCalibrated_other (s : State) (m : List Nat) {n j : Nat} (h : j ≠ n) : (s.groupCalibrated m n).group j = s.group j := by
  rw [State.group, State.groupCalibrated_pwr, Map.get_set_other _ _ _ h, State.group]

/-- R355: every group begins a new millisecond. -/
theorem State.raws_calibrated (s : State) (m : List Nat) {n : Nat} (hn : n < 17) :
    ((groups17.foldl (fun (s : State) n => s.groupCalibrated m n) s).group n).raws = [] := by
  refine foldl_establishes (P := fun u => (u.group n).raws = []) (List.mem_range.mpr hn) (fun u => u.raws_groupCalibrated_same m n) (fun u j hu => ?_) s
  by_cases hj : n = j
  · exact hj ▸ u.raws_groupCalibrated_same m n
  · rwa [u.group_groupCalibrated_other m hj]

theorem State.calAt_calibrated (s : State) (m : List Nat) : (groups17.foldl (fun (s : State) n => s.groupCalibrated m n) s).pwr.calAt = s.pwr.calAt :=
  foldl_leaves (fun u : State => u.pwr.calAt) (f := fun (u : State) n => u.groupCalibrated m n) (fun u n => by rw [u.groupCalibrated_pwr m n]) _ s

theorem calibration_does {s : State} (hrun : s.timeRunning = true) (hcur : s.cur.restarting = false) (hdue : s.pwr.calAt + 1000000 ≤ s.time)
    (m : List Nat) : Does (.calibration m) s
      ((groups17.foldl (fun (s : State) n => s.groupCalibrated m n) { s with pwr := { s.pwr with calAt := s.time } }).setFld R.PWR_MEAS_W 15 0 m.sum) := by
  rw [Does, exec_calibration, execCalibration, if_pos (by simp [hrun, hcur, hdue])]
  rfl

/-! ### Droop and the lowest voltage (R351, R352) -/

theorem State.droopFor_eq {s : State} {w mv : Nat} (h : s.droopFor w mv ≠ 0) :
    s.droopFor w mv = if mv + 2 * s.droopMv < s.fld (R.PWR_RAIL w) 9 0 then 12 else 8 := by
  unfold State.droopFor at h ⊢
  dsimp only at h ⊢
  split
  · rfl
  next h1 =>
    rw [if_neg h1] at h
    split
    · rfl
    next h2 => exact absurd (if_neg h2) h

/-- R351: the record of the lowest reading. -/
def State.vminNoted (s : State) (w i v at_ : Nat) : State :=
  ((s.setFld (R.PWR_VMIN w) 9 0 v).setFld (R.PWR_VMIN w) 21 16 i).setReg64 (R.PWR_VMIN_TS_LO w) at_

theorem State.vminNoted_effect (s : State) (w : Nat) {i v : Nat} (at_ : Nat) (hi : i < 64) (hv : v < 1024) :
    let u := s.vminNoted w i v at_
    u.fld (R.PWR_VMIN w) 9 0 = v ∧ u.fld (R.PWR_VMIN w) 21 16 = i ∧ u.reg64 (R.PWR_VMIN_TS_LO w) = at_ % 2 ^ 64 := by
  have hlo : R.PWR_VMIN w ≠ R.PWR_VMIN_TS_LO w := by simp only [R.PWR_VMIN, R.PWR_VMIN_TS_LO]; omega
  have hhi : R.PWR_VMIN w ≠ R.PWR_VMIN_TS_LO w + 4 := by simp only [R.PWR_VMIN, R.PWR_VMIN_TS_LO]; omega
  have hreg : (s.vminNoted w i v at_).reg (R.PWR_VMIN w) = ((s.setFld (R.PWR_VMIN w) 9 0 v).setFld (R.PWR_VMIN w) 21 16 i).reg (R.PWR_VMIN w) :=
    State.reg_setReg64_other _ _ hlo hhi
  refine ⟨?_, ?_, State.reg64_setReg64_same _ _ _⟩
  · rw [State.fld_of_reg hreg, State.fld_setFld_other _ _ _ _ _ _ _ (by decide) (by decide) (by decide),
      State.fld_setFld_same _ _ _ _ _ (by decide) (by decide)]
    exact Nat.mod_eq_of_lt hv
  · rw [State.fld_of_reg hreg, State.fld_setFld_same _ _ _ _ _ (by decide) (by decide)]
    exact Nat.mod_eq_of_lt hi

/-- R351: a reading below the record replaces it, whatever the droop does. -/
theorem voltageSensorSample_does {s : State} {w i v : Nat} {r : List Nat} (hr : lowestReading r = some (i, v))
    (hv : v < s.fld (R.PWR_VMIN w) 9 0) (hrail : s.railState w = 1 ∨ s.railState w = 2) :
    ∃ u : State, Does (.voltageSensorSample w r) s u ∧ u.regs = (s.vminNoted w i v s.time).regs := by
  have hexec := exec_voltageSensorSample w r s
  rw [execVoltageSensorSample, hr] at hexec
  dsimp only at hexec
  rw [if_pos (by rcases hrail with h | h <;> simp [h]), if_pos hv, ← State.vminNoted] at hexec
  generalize s.vminNoted w i v s.time = t at hexec
  have hmod (f : WingPower → WingPower) : (t.modWing w f).regs = t.regs := rfl
  split at hexec
  · exact ⟨_, hexec, rfl⟩
  · split at hexec
    · exact ⟨_, hexec, hmod _⟩
    · split at hexec
      · exact ⟨_, hexec, hmod _⟩
      · exact ⟨_, hexec, rfl⟩

/-! ### VBRING (R346) -/

theorem State.openBring_bits (s : State) : s.openBring.bit R.PWR_BRING_CTL 8 = false ∧ s.openBring.bit R.PWR_BRING_STATUS 0 = false ∧
    s.openBring.fld R.PWR_BRING_STATUS 31 16 = 0 ∧ s.openBring.fld R.PWR_BRING_CTL 3 0 = s.fld R.PWR_BRING_CTL 3 0 := by
  unfold State.openBring
  refine ⟨?_, ?_, ?_, ?_⟩
  · rw [State.bit_setFld_ne _ _ _ _ _ (by decide), State.bit_setBit_ne _ _ _ _ (by decide), State.bit_setBit_same _ _ _ _ (by decide)]
  · rw [State.bit_setFld_other _ _ _ _ _ _ (by decide) (by decide), State.bit_setBit_same _ _ _ _ (by decide)]
  · rw [State.fld_setFld_same _ _ _ _ _ (by decide) (by decide), Nat.zero_mod]
  · rw [State.fld_setFld_ne _ _ _ _ _ _ (by decide), State.fld_setBit_ne _ _ _ _ _ (by decide), State.fld_setBit_other _ _ _ _ _ _ (by decide) (by decide)]

/-- R346: VBRING is connected. -/
def State.bringConnected (s : State) (w : Nat) : State :=
  ((s.setFld R.PWR_BRING_CTL 3 0 w).setBit R.PWR_BRING_CTL 8 true).setBit R.PWR_BRING_STATUS 0 true

theorem State.bringConnected_effect (s : State) {w : Nat} (hw : w < 16) :
    let v := s.bringConnected w
    v.vbringOn w = true ∧ v.fld R.PWR_BRING_CTL 3 0 = w ∧ v.bit R.PWR_BRING_CTL 8 = true ∧ v.bit R.PWR_BRING_STATUS 1 = s.bit R.PWR_BRING_STATUS 1 := by
  have hwing : (s.bringConnected w).fld R.PWR_BRING_CTL 3 0 = w := by
    rw [State.bringConnected, State.fld_setBit_ne _ _ _ _ _ (by decide), State.fld_setBit_other _ _ _ _ _ _ (by decide) (by decide),
      State.fld_setFld_same _ _ _ _ _ (by decide) (by decide)]
    exact Nat.mod_eq_of_lt hw
  have hon : (s.bringConnected w).bit R.PWR_BRING_STATUS 0 = true := State.bit_setBit_same _ _ _ _ (by decide)
  refine ⟨?_, hwing, ?_, ?_⟩
  · rw [State.vbringOn, hwing, hon]
    simp
  · rw [State.bringConnected, State.bit_setBit_ne _ _ _ _ (by decide), State.bit_setBit_same _ _ _ _ (by decide)]
  · rw [State.bringConnected, State.bit_setBit_other _ _ _ _ _ (by decide), State.bit_setBit_ne _ _ _ _ (by decide), State.bit_setFld_ne _ _ _ _ _ (by decide)]

/-- R346: BRING_EN is seen. -/
def State.bringSeen (s : State) (b : Bool) : State := { s.setBit R.PWR_BRING_STATUS 1 b with pins := { s.pins with bringEn := b } }

theorem State.bit_bringSeen (s : State) (b : Bool) : (s.bringSeen b).bit R.PWR_BRING_STATUS 1 = b :=
  (State.bit_of_reg (State.reg_of_regs rfl _) 1).trans (s.bit_setBit_same _ _ b (by decide))

theorem State.bit_bringSeen_eq (s : State) (b : Bool) (a i : Nat) : (s.bringSeen b).bit a i = (s.setBit R.PWR_BRING_STATUS 1 b).bit a i :=
  State.bit_of_reg (State.reg_of_regs rfl _) i

/-- R346: what a write of connect does. -/
def State.bringAsked (s : State) (w : Nat) (b : Bool) (mv : Nat) : State :=
  if s.bit R.PWR_BRING_CTL 8 then (if s.fld R.PWR_BRING_CTL 3 0 == w then s else s.bringFault)
  else if b && w < 16 && (s.railState w == 0 || s.railState w == 3) && mv < 100 then s.bringConnected w
  else s.bringFault

theorem State.bringAsked_connects {s : State} {w mv : Nat} (hoff : s.bit R.PWR_BRING_CTL 8 = false) (hw : w < 16)
    (hrail : s.railState w = 0 ∨ s.railState w = 3) (hmv : mv < 100) : s.bringAsked w true mv = s.bringConnected w := by
  rw [State.bringAsked, if_neg (by simp [hoff]), if_pos (by simp [hw, hrail, hmv])]

theorem State.bringAsked_faults {s : State} {w mv : Nat} {b : Bool} (hoff : s.bit R.PWR_BRING_CTL 8 = false) (hbad : b = false ∨ 100 ≤ mv) :
    s.bringAsked w b mv = s.bringFault := by
  rw [State.bringAsked, if_neg (by simp [hoff]), if_neg]
  rcases hbad with h | h <;> simp [h]

theorem vbringConnect_does {s : State} {a : Agent} {b : Bool} (ha : (s.bringSeen b).Granted a R.PWR_BRING_CTL) (w mv : Nat) :
    Does (.vbringConnect a w b mv) s ((s.bringSeen b).bringAsked w b mv) :=
  (exec_vbringConnect a w b mv s).trans (devWrite_granted ha _)

/-! ### Ageing (R353) -/

/-- R353: one trim entry is raised. -/
def State.trimRaised (s : State) (w p : Nat) : State :=
  let old := s.trim w p
  let new := old % 1024 + 1024 * min 40 (bitsOf old 15 10 + 5)
  let tb := s.cat.tables
  let r : CatRecord := { time := s.time, code := 6, target := w * 16 + p, origin := 5, old := old, new := new, detail := 0 }
  let tb := { tb with trims := Map.set trimReset tb.trims (w * 16 + p) new, records := addRecord s.time tb.records r }
  ({ s with cat := { s.cat with tables := tb } }).catDirty false

theorem State.trimRaised_reports (s : State) (w p : Nat) : Reports s (s.trimRaised w p) := (Reports.catalogue s _).trans (.catDirty _ _)

theorem State.trim_trimRaised_same (s : State) (w p : Nat) :
    (s.trimRaised w p).trim w p = s.trim w p % 1024 + 1024 * min 40 (bitsOf (s.trim w p) 15 10 + 5) := by
  rw [State.trim, State.trimRaised, State.catDirty_tables, Map.get_set_same]

theorem State.trim_trimRaised_other (s : State) (w : Nat) {p q : Nat} (h : q ≠ p) : (s.trimRaised w p).trim w q = s.trim w q := by
  rw [State.trim, State.trimRaised, State.catDirty_tables, Map.get_set_other _ _ _ (by omega), State.trim]

theorem State.raiseTrim_eq (s : State) (w : Nat) : s.raiseTrim w = (List.range 16).foldl (fun s p => s.trimRaised w p) s := rfl

/-- R353: every trim entry of the wing is raised, each from its own value. -/
theorem State.raiseTrim_effect (s : State) (w : Nat) : Reports s (s.raiseTrim w) ∧ (s.raiseTrim w).cat.dirty = true ∧
    ∀ p, p < 16 → (s.raiseTrim w).trim w p = s.trim w p % 1024 + 1024 * min 40 (bitsOf (s.trim w p) 15 10 + 5) := by
  rw [State.raiseTrim_eq]
  refine ⟨.foldl (fun u p => u.trimRaised_reports w p) _ s, ?_, fun p hp => ?_⟩
  · exact foldl_establishes (P := fun u => u.cat.dirty = true) (a := 0) (List.mem_range.mpr (by decide : 0 < 16)) (fun u => State.catDirty_dirty _ _) (fun u q _ => State.catDirty_dirty _ _) s
  · obtain ⟨before, after, hsplit⟩ := List.append_of_mem (List.mem_range.mpr hp)
    have hnodup := List.nodup_middle.mp (hsplit ▸ List.nodup_range (n := 16))
    rw [List.nodup_cons, List.mem_append, not_or] at hnodup
    obtain ⟨⟨hbefore, hafter⟩, -⟩ := hnodup
    have hother {l : List Nat} (hl : p ∉ l) (u : State) : (l.foldl (fun s p => s.trimRaised w p) u).trim w p = u.trim w p :=
      List.foldlRecOn (motive := fun v : State => v.trim w p = u.trim w p) l _ rfl fun v hv q hq =>
        (v.trim_trimRaised_other w fun h => hl (by rwa [h])).trans hv
    rw [hsplit, List.foldl_append, List.foldl_cons, hother hafter, State.trim_trimRaised_same, hother hbefore]

section
variable {s : State} {w : Nat} (hw : w < 16) (hrail : s.railState w = 2) (hhour : ∀ n, (s.wing w).monitorsAt = some n → n + hourCounts ≤ s.time)
  (hcur : s.cur.restarting = false)

/-- R353: the monitors of a wing report. -/
def State.monitored (s : State) (w : Nat) : State := s.modWing w fun x => { x with monitorsAt := some s.time }

/-- R353: what an hourly check does. -/
def State.aged (s : State) (w : Nat) (short recent : Bool) : State :=
  if !short then s.monitored w
  else if 40 ≤ bitsOf (s.trim w s.point) 15 10 then (s.monitored w).curFault 0x24 (le 1 w)
  else if recent then s.monitored w
  else ((s.monitored w).raiseTrim w).modWing w fun x => { x with ageingAt := some s.time }

include hw hrail hhour hcur in
/-- R353: a check that is due; it raises nothing only within 24 h of a raise. -/
theorem ageingCheck_does (short : Bool) : ∃ recent, Does (.ageingCheck w short) s (s.aged w short recent) ∧
    ((∀ n, (s.wing w).ageingAt = some n → n + 24 * hourCounts ≤ s.time) → recent = false) := by
  have hexec := exec_ageingCheck w short s
  unfold execAgeingCheck at hexec
  extract_lets lastRaise recent due u v at hexec
  have hdue : due = true := by
    simp only [due]
    split
    next n hn => exact decide_eq_true (hhour n hn)
    next => rfl
  rw [when_true (by simp [hw, hrail, hdue, hcur])] at hexec
  refine ⟨recent, hexec, fun hraise => ?_⟩
  simp only [recent, lastRaise]
  split
  next n hn => exact decide_eq_false (Nat.not_lt.mpr (hraise n hn))
  next => rfl

end

theorem State.wing_monitored (s : State) (w : Nat) : (s.monitored w).wing w = { s.wing w with monitorsAt := some s.time } := s.wing_modWing_same w _

theorem Reports.wing {s u : State} (h : Reports s u) (w : Nat) : u.wing w = s.wing w := h.view (fun v => v.wing w) fun _ _ _ _ _ => rfl

/-! ### Temperatures (R363-R366) -/

/-- R363: a wing has been measured. -/
def State.tempNoted (s : State) (w : Nat) : State :=
  { s with pwr := { s.pwr with tempSeen := if !s.pwr.tempSeen.contains w then w :: s.pwr.tempSeen else s.pwr.tempSeen } }

/-- R363: the hottest reading of a wing, and its peak, are shown. -/
def State.tempShown (s : State) (w : Nat) (temp : Int) (fresh : Bool) : State :=
  (s.setFld (R.THM w) 15 0 (twos 16 temp)).setFld (R.THM w) 31 16 (twos 16 (if fresh then temp else max (signed16 (s.fld (R.THM w) 31 16)) temp))

/-- R363: the first wing to reach warn raises an event. -/
def State.warnResult (s : State) (temp : Int) : Result :=
  let s := if s.belowWarn then { s with pwr := { s.pwr with warnArmed := true } } else s
  if (s.fld R.THM_CTL 15 8 : Int) * 16 ≤ temp && s.pwr.warnArmed then
    let s := { s with pwr := { s.pwr with warnArmed := false } }
    .next ((s.setBit R.THM_STATUS 2 true).raiseVector 0 1)
  else .next s

theorem execThermalSample_eq {w : Nat} (hw : w < 16) (temp : Int) (s : State) :
    execThermalSample w temp s = ((s.tempNoted w).tempShown w temp (!s.pwr.tempSeen.contains w)).warnResult temp := if_pos hw

theorem State.reg_raiseVector (s : State) (fn vec a : Nat) : (s.raiseVector fn vec).reg a = s.reg a :=
  State.reg_of_regs (congrArg State.regs (s.raiseVector_frame fn vec)) a

theorem State.warnResult_next (s : State) (temp : Int) :
    ∃ u : State, s.warnResult temp = .next u ∧ ∀ a, a ≠ R.THM_STATUS → u.reg a = s.reg a := by
  have hregs (v : State) (pwr : Pwr) (a : Nat) : ({ v with pwr := pwr } : State).reg a = v.reg a := State.reg_of_regs rfl a
  unfold State.warnResult
  generalize hu : (if s.belowWarn then { s with pwr := { s.pwr with warnArmed := true } } else s) = u
  have hu' : ∀ a, u.reg a = s.reg a := fun a => by
    rw [← hu]
    split
    · exact hregs s _ a
    · rfl
  dsimp only
  split
  · refine ⟨_, rfl, fun a ha => ?_⟩
    rw [State.reg_raiseVector, State.reg_setBit_other _ _ _ ha, hregs, hu']
  · exact ⟨_, rfl, fun a _ => hu' a⟩

theorem twos_lt (v : Int) : twos 16 v < 65536 := by
  unfold twos
  omega

theorem State.tempShown_effect (s : State) (w : Nat) (v : Int) (fresh : Bool) :
    (s.tempShown w v fresh).fld (R.THM w) 15 0 = twos 16 v ∧
      (s.tempShown w v fresh).fld (R.THM w) 31 16 = twos 16 (if fresh then v else max (signed16 (s.fld (R.THM w) 31 16)) v) := by
  constructor
  · rw [State.tempShown, State.fld_setFld_other _ _ _ _ _ _ _ (by decide) (by decide) (by decide),
      State.fld_setFld_same _ _ _ _ _ (by decide) (by decide)]
    exact Nat.mod_eq_of_lt (twos_lt v)
  · rw [State.tempShown, State.fld_setFld_same _ _ _ _ _ (by decide) (by decide)]
    exact Nat.mod_eq_of_lt (twos_lt _)

theorem thermalSample_does (s : State) {w : Nat} (v : Int) (hw : w < 16) : ∃ u : State, Does (.thermalSample w v) s u ∧
    u.fld (R.THM w) 15 0 = twos 16 v ∧
    u.fld (R.THM w) 31 16 = twos 16 (if w ∉ s.pwr.tempSeen then v else max (signed16 (s.fld (R.THM w) 31 16)) v) := by
  have hne : R.THM w ≠ R.THM_STATUS := by simp only [R.THM, R.THM_STATUS]; omega
  obtain ⟨u, hu, hreg⟩ := ((s.tempNoted w).tempShown w v (!s.pwr.tempSeen.contains w)).warnResult_next v
  obtain ⟨hlo, hhi⟩ := (s.tempNoted w).tempShown_effect w v (!s.pwr.tempSeen.contains w)
  have hpeak : (s.tempNoted w).fld (R.THM w) 31 16 = s.fld (R.THM w) 31 16 := State.fld_of_reg (State.reg_of_regs rfl _) 31 16
  refine ⟨u, (exec_thermalSample w v s).trans ((execThermalSample_eq hw v s).trans hu), ?_, ?_⟩
  · rw [State.fld_of_reg (hreg _ hne), hlo]
  · rw [State.fld_of_reg (hreg _ hne), hhi, hpeak]
    simp

/-- R365: the thermal cap after an adjustment. -/
def State.tcapAdjusted (s : State) : State :=
  { s with pwr := { s.pwr with tcap := s.tcapNext (s.pwr.estimates.getLastD 0), tcapAt := s.time } }

/-- R365: the thermal cap is shown. -/
def State.tcapShown (s : State) : State := (s.setFld R.PWR_TCAP_W 15 0 (s.watts s.pwr.tcap 16)).freed

theorem State.tcapShown_pwr (s : State) : s.tcapShown.pwr = s.pwr := by
  have hfreed (u : State) : u.freed.pwr = u.pwr := rfl
  rw [State.tcapShown, hfreed, State.setFld_eq, State.setReg_pwr]

theorem thermalCapAdjust_does {s : State} (hrun : s.timeRunning = true) (hcur : s.cur.restarting = false)
    (hdue : s.pwr.tcapAt + 1000000 ≤ s.time) : Does .thermalCapAdjust s s.tcapAdjusted.tcapShown :=
  (exec_thermalCapAdjust s).trans (when_true (by simp [hrun, hcur, hdue]))

/-- R366: a wing is in emergency. -/
def State.emergencyOf (s : State) (w : Nat) : State :=
  ((s.modWing w fun x => { x with emergency := true }).setBit R.THM_STATUS 1 true).setBit R.THM_STATUS 3 true

theorem State.emergencyOf_effect (s : State) (w : Nat) : ((s.emergencyOf w).wing w).emergency = true ∧
    (s.emergencyOf w).bit R.THM_STATUS 1 = true ∧ (s.emergencyOf w).bit R.THM_STATUS 3 = true := by
  refine ⟨?_, ?_, State.bit_setBit_same _ _ _ _ (by decide)⟩
  · have hwing : (s.emergencyOf w).wing w = (s.modWing w fun x => { x with emergency := true }).wing w := rfl
    rw [hwing, State.wing_modWing_same]
  · rw [State.emergencyOf, State.bit_setBit_other _ _ _ _ _ (by decide), State.bit_setBit_same _ _ _ _ (by decide)]

theorem State.wingTemp_emergencyOf (s : State) {w : Nat} (hw : w < 16) : (s.emergencyOf w).wingTemp w = s.wingTemp w := by
  have hne : R.THM w ≠ R.THM_STATUS := by simp only [R.THM, R.THM_STATUS]; omega
  rw [State.wingTemp, State.emergencyOf, State.fld_setBit_ne _ _ _ _ _ hne, State.fld_setBit_ne _ _ _ _ _ hne, State.fld_modWing, State.wingTemp]

theorem thermalEmergency_does {s : State} {w : Nat} (hw : w < 16) (hhot : 115 * 16 ≤ s.wingTemp w) (hcalm : (s.wing w).emergency = false) :
    Does (.thermalEmergency w) s ((s.emergencyOf w).curFault 0x22 (le 1 w ++ le 2 (twos 16 (s.wingTemp w)))) := by
  have heq : execThermalEmergency w s = if w < 16 && 115 * 16 ≤ s.wingTemp w && !(s.wing w).emergency then
      .next ((s.emergencyOf w).curFault 0x22 (le 1 w ++ le 2 (twos 16 ((s.emergencyOf w).wingTemp w)))) else .next s := rfl
  have hhot' : 1840 ≤ s.wingTemp w := hhot
  rw [if_pos (by simp [hw, hhot', hcalm]), s.wingTemp_emergencyOf hw] at heq
  exact (exec_thermalEmergency w s).trans heq

/-! ### The thermal trip (R367) -/

/-- R350, R367: the stage is off. -/
def State.stageDown (s : State) : State := s.stageOff.tripped.linkNarrow

theorem State.reg_stageDown (s : State) {a : Nat} (ha : ¬ OffSupply a) :
    s.stageDown.reg a = ((s.railsOff.setReg R.PWR_WING_STATUS 0).setFld R.CLK_WING_RUN 15 0 0).reg a := by
  rw [State.stageDown, reg_of_supply s.stageOff.tripped.linkNarrow_supply ha, State.reg_tripped, reg_of_supply s.stageOff_supply ha]

/-- R350: a stage that is off: no rail is on, no wing runs, and a cold start is called for. -/
theorem State.stageDown_effect (s : State) : s.stageDown.cur.tripSince = true ∧
    (∀ w, w < 16 → s.stageDown.railState w = 0 ∧ s.stageDown.wingRuns w = false) ∧
    s.stageDown.reg R.CUR_BOOT_STATUS = s.reg R.CUR_BOOT_STATUS ∧ s.stageDown.cur.restarting = s.cur.restarting := by
  have ht : s.stageDown.supply = s.stageOff.tripped.supply := s.stageOff.tripped.linkNarrow_supply
  obtain ⟨hcur, hboot⟩ := s.railsOff_frame
  refine ⟨?_, fun w hw => ⟨?_, ?_⟩, ?_, ?_⟩
  · rw [tripSince_of_supply ht, State.tripped]
  · rw [State.railState, State.fld, s.reg_stageDown (onSupply_pwrRail hw), State.reg_setFld_other _ _ _ _ (clkWingRun_ne_pwrRail w).symm,
      State.reg_setReg_other _ _ (pwrWingStatus_ne_pwrRail w).symm]
    exact s.railState_railsOff hw
  · rw [State.wingRuns, State.bit, s.reg_stageDown (by decide), ← State.bit, State.bit_setFld_in _ _ _ _ _ _ (Nat.zero_le w) (by omega) (by omega),
      Nat.zero_testBit]
  · rw [s.reg_stageDown (by decide), State.reg_setFld_other _ _ _ _ (by decide), State.reg_setReg_other _ _ (by decide), hboot]
  · rw [restarting_of_supply ht, State.tripped, restarting_of_supply s.stageOff_supply, State.setFld_eq, State.setReg_cur, State.setReg_cur, hcur]

/-- R367: the trip is latched with its wing, sensor and TIME. -/
def State.tripLatch (s : State) (wing sensor at_ : Nat) : State :=
  let u := { s with pins := { s.pins with tripLatched := true } }
  let u := ((u.setBit R.THM_TRIP_STATUS 31 true).setFld R.THM_TRIP_STATUS 12 8 sensor).setFld R.THM_TRIP_STATUS 3 0 wing
  (u.setReg64 R.THM_TRIP_TIME_LO at_).assertFault

theorem State.tripLatch_pins (s : State) (w n at_ : Nat) : (s.tripLatch w n at_).pins = { s.pins with tripLatched := true, faultLatched := true } := by
  unfold State.tripLatch State.assertFault State.setReg64
  simp only [State.setBit_eq, State.setFld_eq, State.setReg_pins]

theorem State.tripLatch_cur (s : State) (w n at_ : Nat) : (s.tripLatch w n at_).cur = s.cur := by
  unfold State.tripLatch State.assertFault State.setReg64
  simp only [State.setBit_eq, State.setFld_eq, State.setReg_cur]

theorem State.reg_tripLatch_other (s : State) (w n at_ : Nat) {a : Nat} (h : a ≠ R.THM_TRIP_STATUS) (hlo : a ≠ R.THM_TRIP_TIME_LO)
    (hhi : a ≠ R.THM_TRIP_TIME_LO + 4) : (s.tripLatch w n at_).reg a = s.reg a := by
  unfold State.tripLatch
  dsimp only
  rw [State.reg_assertFault, State.reg_setReg64_other _ _ hlo hhi, State.reg_setFld_other _ _ _ _ h, State.reg_setFld_other _ _ _ _ h,
    State.reg_setBit_other _ _ _ h]
  exact State.reg_of_regs rfl a

theorem State.tripLatch_shows (s : State) {w n : Nat} (at_ : Nat) (hw : w < 16) (hn : n < 32) :
    (s.tripLatch w n at_).bit R.THM_TRIP_STATUS 31 = true ∧ (s.tripLatch w n at_).fld R.THM_TRIP_STATUS 12 8 = n ∧
      (s.tripLatch w n at_).fld R.THM_TRIP_STATUS 3 0 = w ∧ (s.tripLatch w n at_).reg64 R.THM_TRIP_TIME_LO = at_ % 2 ^ 64 := by
  unfold State.tripLatch
  generalize ({ s with pins := { s.pins with tripLatched := true } } : State) = u
  dsimp only
  have hreg (v : State) : (v.setReg64 R.THM_TRIP_TIME_LO at_).assertFault.reg R.THM_TRIP_STATUS = v.reg R.THM_TRIP_STATUS := by
    rw [State.reg_assertFault, State.reg_setReg64_other _ _ (by decide) (by decide)]
  refine ⟨?_, ?_, ?_, ?_⟩
  · rw [State.bit_of_reg (hreg _), State.bit_setFld_other _ _ _ _ _ _ (by decide) (by decide),
      State.bit_setFld_other _ _ _ _ _ _ (by decide) (by decide), State.bit_setBit_same _ _ _ _ (by decide)]
  · rw [State.fld_of_reg (hreg _), State.fld_setFld_other _ _ _ _ _ _ _ (by decide) (by decide) (by decide),
      State.fld_setFld_same _ _ _ _ _ (by decide) (by decide)]
    exact Nat.mod_eq_of_lt hn
  · rw [State.fld_of_reg (hreg _), State.fld_setFld_same _ _ _ _ _ (by decide) (by decide)]
    exact Nat.mod_eq_of_lt hw
  · rw [State.reg64, State.reg_assertFault, State.reg_assertFault]
    exact State.reg64_setReg64_same _ _ _

theorem thermalTrip_does {s : State} {w n : Nat} {v : Int} (hw : w < 16) (hn : n < 32) (hv : 125 * 16 ≤ v) (hon : s.stageOn = true) :
    Does (.thermalTrip w n v) s ((s.stageDown.tripLatch w n s.time).startFails 3) := by
  have hv' : 2000 ≤ v := hv
  exact (exec_thermalTrip w n v s).trans (when_true (by simp [hw, hn, hv', hon]))

theorem State.thermalTrip_effect (s : State) {w n : Nat} (hw : w < 16) (hn : n < 32) :
    let u := (s.stageDown.tripLatch w n s.time).startFails 3
    u.pins.tripLatched = true ∧ u.pins.faultLatched = true ∧ u.cur.tripSince = true ∧ u.bit R.THM_TRIP_STATUS 31 = true ∧
      u.fld R.THM_TRIP_STATUS 12 8 = n ∧ u.fld R.THM_TRIP_STATUS 3 0 = w ∧ u.reg64 R.THM_TRIP_TIME_LO = s.time % 2 ^ 64 ∧
      (∀ x, x < 16 → u.railState x = 0 ∧ u.wingRuns x = false) ∧
      (s.fld R.CUR_BOOT_STATUS 2 0 < 5 → s.cur.restarting = false → u.fld R.CUR_BOOT_STATUS 31 28 = 3) := by
  obtain ⟨htrip, hwings, hboot, hrestart⟩ := s.stageDown_effect
  generalize s.stageDown = d at htrip hwings hboot hrestart
  generalize s.time = at_
  have hpins := d.tripLatch_pins w n at_
  have hcur := d.tripLatch_cur w n at_
  have hother {a : Nat} := d.reg_tripLatch_other w n at_ (a := a)
  obtain ⟨hbit, hsensor, hwing, htime⟩ := d.tripLatch_shows at_ hw hn
  generalize d.tripLatch w n at_ = v at hpins hcur hother hbit hsensor hwing htime
  intro u
  have hupins : u.pins = v.pins := v.startFails_pins 3 (by rw [hpins])
  have hreg {a : Nat} (h : a ≠ R.CUR_BOOT_STATUS) : u.reg a = v.reg a := v.reg_startFails_other 3 h
  have hrail (x : Nat) (hx : x < 16) : u.reg (R.PWR_RAIL x) = d.reg (R.PWR_RAIL x) := by
    rw [hreg (by simp only [R.PWR_RAIL, R.CUR_BOOT_STATUS]; omega), hother] <;>
      simp only [R.PWR_RAIL, R.THM_TRIP_STATUS, R.THM_TRIP_TIME_LO] <;> omega
  refine ⟨?_, ?_, ?_, ?_, ?_, ?_, ?_, fun x hx => ⟨?_, ?_⟩, fun hstage hc => ?_⟩
  · rw [hupins, hpins]
  · rw [hupins, hpins]
  · rw [show u.cur = v.cur from v.startFails_cur 3, hcur, htrip]
  · rw [State.bit_of_reg (hreg (by decide)), hbit]
  · rw [State.fld_of_reg (hreg (by decide)), hsensor]
  · rw [State.fld_of_reg (hreg (by decide)), hwing]
  · rw [State.reg64, hreg (by decide), hreg (by decide), ← State.reg64, htime]
  · rw [State.railState, State.fld_of_reg (hrail x hx)]
    exact (hwings x hx).1
  · have hrun : u.reg R.CLK_WING_RUN = d.reg R.CLK_WING_RUN := (hreg (by decide)).trans (hother (by decide) (by decide) (by decide))
    rw [State.wingRuns, State.bit_of_reg hrun]
    exact (hwings x hx).2
  · have hstatus : v.reg R.CUR_BOOT_STATUS = s.reg R.CUR_BOOT_STATUS := (hother (by decide) (by decide) (by decide)).trans hboot
    exact v.bootError_startFails (by decide) (by rwa [State.fld_of_reg hstatus]) (by rw [hcur, hrestart, hc])

/-! ### The obligation -/

theorem State.vminRearmed_effect (s : State) {w : Nat} :
    (s.vminNoted w 0 0x3FF 0).fld (R.PWR_VMIN w) 9 0 = 0x3FF ∧ (s.vminNoted w 0 0x3FF 0).fld (R.PWR_VMIN w) 21 16 = 0 ∧
      (s.vminNoted w 0 0x3FF 0).reg64 (R.PWR_VMIN_TS_LO w) = 0 :=
  s.vminNoted_effect w 0 (by decide) (by decide)

/-- Settles O46, clause by clause: each command answers a state named above, and its effect lemma reads the registers off it. -/
theorem powerAndThermalCommands : Obligations.PowerAndThermalCommands := by
  unfold Obligations.PowerAndThermalCommands
  refine ⟨⟨?cap, ?status, ?calib, ?onset, ?droopEnd, ?vsample, ?rearm, ?connect, ?disconnect, ?amperes, ?deassert, ?ageing⟩,
    ⟨?sample, ?tcap, ?emergency, ?calm, ?trip⟩⟩
  case cap =>
    intro s raw hrun hdue
    obtain ⟨u, hu, hview⟩ := capStep_does hrun hdue raw
    obtain ⟨hstep, hest⟩ := Prod.mk.inj hview
    exact ⟨u, hu, hstep, (congrArg List.getLast? hest).trans (getLast?_kept _ _), hest ▸ length_kept _ _⟩
  case status =>
    intro s hbegin hstep hdue
    exact ⟨_, (exec_throttleStatus s).trans (when_true (by simp [hbegin, hstep, hdue])), s.throttleRecord_effect 0x29⟩
  case calib =>
    intro s m hrun hcur hdue
    refine ⟨_, calibration_does hrun hcur hdue m, ?_, fun n hn => ?_, ?_⟩
    · rw [State.setFld_eq, State.setReg_pwr, State.calAt_calibrated]
    · rw [State.setFld_eq, State.group_of_pwr (State.setReg_pwr _ _ _), State.raws_calibrated _ _ hn]
    · exact State.fld_setFld_same _ _ _ _ _ (by decide) (by decide)
  case onset =>
    intro s w mv hrail hfor hcalm
    have hexec := exec_droopOnset w mv s
    rw [execDroopOnset, if_pos (by simp [hrail, hfor, hcalm]), s.droopFor_eq hfor] at hexec
    have hwing (u : State) : (u.bump (R.PWR_DROOP w) 1).wing w = u.wing w := rfl
    refine ⟨_, hexec, ?_, ?_, ?_⟩
    · rw [hwing, State.wing_modWing_same]
    · rw [hwing, State.wing_modWing_same]
    · rw [State.bump, State.reg_setReg_same, State.reg_modWing]
  case droopEnd =>
    intro s w c hrec hdroop hdue
    have hexec := exec_droopEnd w s
    rw [execDroopEnd, hrec] at hexec
    dsimp only at hexec
    rw [when_true (by simp [hdroop, hdue])] at hexec
    refine ⟨_, hexec, s.wing_modWing_same w _, ?_, rfl⟩
    rw [State.routerLevel, State.wing_modWing_same]
  case vsample =>
    intro s w i v r hw hr hi hv hrail
    obtain ⟨u, hu, hregs⟩ := voltageSensorSample_does hr hv hrail
    have hlt : v < 1024 := lt_of_lt_of_le hv (Nat.le_of_lt (getBits_lt _ 9 0))
    obtain ⟨hv', hi', ht'⟩ := s.vminNoted_effect w s.time hi hlt
    exact ⟨u, hu, (State.fld_of_reg (State.reg_of_regs hregs _) 9 0).trans hv', (State.fld_of_reg (State.reg_of_regs hregs _) 21 16).trans hi',
      by rw [State.reg64, State.reg_of_regs hregs, State.reg_of_regs hregs, ← State.reg64, ht']⟩
  case rearm =>
    intro s a w hw ha
    have hexec := exec_vminRearm a w s
    rw [execVminRearm, devWrite_granted ha, if_pos hw] at hexec
    exact ⟨_, hexec, s.vminRearmed_effect⟩
  case connect =>
    intro s a w mv b u ha (hoff : (s.bringSeen b).bit R.PWR_BRING_CTL 8 = false)
    have hdoes := vbringConnect_does ha w mv
    refine ⟨fun hb hw (hrail : (s.bringSeen b).railState w = 0 ∨ (s.bringSeen b).railState w = 3) hmv => ?_, fun hbad => ?_⟩
    · obtain rfl := hb
      obtain ⟨hon, hwing, hconn, hen⟩ := (s.bringSeen true).bringConnected_effect hw
      rw [State.bringAsked_connects hoff hw hrail hmv] at hdoes
      exact ⟨_, hdoes, hon, hwing, hconn, hen.trans (s.bit_bringSeen true)⟩
    · rw [State.bringAsked_faults hoff hbad] at hdoes
      exact hdoes
  case disconnect =>
    intro s a w ha hw
    obtain ⟨hconn, hon, -, hwing⟩ := (s.setFld R.PWR_BRING_CTL 3 0 w).openBring_bits
    refine ⟨_, (exec_vbringDisconnect (a, w) s).trans (devWrite_granted ha _), ?_, hconn, hon, fun v => ?_⟩
    · rw [hwing, State.fld_setFld_same _ _ _ _ _ (by decide) (by decide)]
      exact Nat.mod_eq_of_lt hw
    · rw [State.vbringOn, hon, Bool.false_and]
  case amperes =>
    intro s amps hon hamps
    obtain ⟨hconn, hon', hamp, -⟩ := s.openBring_bits
    refine ⟨s.openBring.bringFault, (exec_vbringOvercurrent amps s).trans (when_true (by simp [hon, hamps])), ?_, ?_, State.bit_setBit_same _ _ _ _ (by decide), ?_⟩
    · rw [State.bringFault, State.bit_setBit_ne _ _ _ _ (by decide), hconn]
    · rw [State.bringFault, State.bit_setBit_other _ _ _ _ _ (by decide), hon']
    · rw [State.bringFault, State.fld_setBit_other _ _ _ _ _ _ (by decide) (by decide), hamp]
  case deassert =>
    intro s
    obtain ⟨hconn, hon, -, -⟩ := s.openBring_bits
    refine ⟨s.openBring.bringSeen false, exec_bringEnDeassert s, ?_, ?_, State.bit_bringSeen _ _, rfl⟩
    · rw [State.bit_bringSeen_eq, State.bit_setBit_ne _ _ _ _ (by decide), hconn]
    · rw [State.bit_bringSeen_eq, State.bit_setBit_other _ _ _ _ _ (by decide), hon]
  case ageing =>
    intro s w hw hrail hhour hcur
    refine ⟨?_, fun hlimit => ?_, fun hroom hday => ?_⟩
    · obtain ⟨recent, hdoes, -⟩ := ageingCheck_does hw hrail hhour hcur false
      exact ⟨_, hdoes, s.wing_monitored w, rfl⟩
    · obtain ⟨recent, hdoes, -⟩ := ageingCheck_does hw hrail hhour hcur true
      rw [State.aged, if_neg (by decide), if_pos hlimit] at hdoes
      exact ⟨_, hdoes, rfl⟩
    · obtain ⟨recent, hdoes, hrecent⟩ := ageingCheck_does hw hrail hhour hcur true
      rw [State.aged, if_neg (by decide), if_neg (Nat.not_le.mpr hroom), hrecent hday, if_neg (by decide)] at hdoes
      obtain ⟨hreports, hdirty, htrims⟩ := (s.monitored w).raiseTrim_effect w
      refine ⟨_, hdoes, ?_, hdirty, fun p hp _ => htrims p hp⟩
      rw [State.wing_modWing_same, hreports.wing, State.wing_monitored]
  case sample => exact fun s w v hw => thermalSample_does s v hw
  case tcap =>
    intro s hrun hcur hdue
    refine ⟨_, thermalCapAdjust_does hrun hcur hdue, ?_, ?_⟩
    · rw [State.tcapShown_pwr, State.tcapAdjusted]
    · rw [State.tcapShown_pwr, State.tcapAdjusted]
      rfl
  case emergency =>
    intro s w hw hhot hcalm
    exact ⟨_, thermalEmergency_does hw hhot hcalm, s.emergencyOf_effect w⟩
  case calm =>
    intro s w hcool hem
    have hexec := exec_emergencyEnd w s
    have hcool' : s.wingTemp w < 1760 := hcool
    rw [execEmergencyEnd, if_pos (by simp [hcool', hem])] at hexec
    generalize hv : (s.modWing w fun x => { x with emergency := false }) = v at hexec
    refine ⟨_, hexec, ?_, State.bit_setBit_same _ _ _ _ (by decide)⟩
    have hwing (b : Bool) : (v.setBit R.THM_STATUS 1 b).wing w = v.wing w := rfl
    rw [hwing, ← hv, State.wing_modWing_same]
  case trip =>
    intro s w n v hw hn hv hon
    exact ⟨_, thermalTrip_does hw hn hv hon, s.thermalTrip_effect hw hn⟩

end Sys2Proof.Machine
end

section
/-! PROOFS. What work at the sites and on the memory leaves of the state: resets and scrubs of sites, zeroing, and answers that the networks send
(R385, R434-R436). -/

namespace Sys2Proof.Machine

/-- The control registers of the trace buffers. -/
abbrev TraceReg (a : Nat) : Prop := 0xa00100 ≤ a ∧ a < 0xa00120

/-- The second state is the first after the reset of sites: it differs in the sites, the networks and the debug state, and its other registers are the
same. -/
def SiteReset (s u : State) : Prop :=
  (∃ regs sites net dbg, u = { s with regs := regs, sites := sites, net := net, dbg := dbg }) ∧ ∀ a, ¬ TraceReg a → u.reg a = s.reg a

namespace SiteReset

theorem refl (s : State) : SiteReset s s := ⟨⟨_, _, _, _, rfl⟩, fun _ _ => rfl⟩

theorem trans {s u v : State} (h : SiteReset s u) (h' : SiteReset u v) : SiteReset s v := by
  obtain ⟨⟨_, _, _, _, rfl⟩, hreg⟩ := h
  obtain ⟨⟨_, _, _, _, rfl⟩, hreg'⟩ := h'
  exact ⟨⟨_, _, _, _, rfl⟩, fun a ha => (hreg' a ha).trans (hreg a ha)⟩

theorem foldl_mem {α : Type} {f : State → α → State} {l : List α} (h : ∀ u, ∀ x ∈ l, SiteReset u (f u x)) (s : State) :
    SiteReset s (l.foldl f s) :=
  List.foldlRecOn (motive := SiteReset s) l f (refl s) fun u hu x hx => hu.trans (h u x hx)

theorem foldl {α : Type} {f : State → α → State} (h : ∀ u x, SiteReset u (f u x)) (l : List α) (s : State) : SiteReset s (l.foldl f s) :=
  foldl_mem (fun u x _ => h u x) s

/-- A view of the state that shows none of these parts is the same. -/
theorem view {β : Type} (view : State → β)
    (hview : ∀ (u : State) regs sites net dbg, view { u with regs := regs, sites := sites, net := net, dbg := dbg } = view u)
    {s u : State} (h : SiteReset s u) : view u = view s := by
  obtain ⟨⟨regs, sites, net, dbg, rfl⟩, -⟩ := h
  exact hview s regs sites net dbg

theorem reg {s u : State} (h : SiteReset s u) {a : Nat} (ha : ¬ TraceReg a) : u.reg a = s.reg a := h.2 a ha

section
variable (s : State)

theorem modSite (t : Nat) (f : Site → Site) : SiteReset s (s.modSite t f) := ⟨⟨s.regs, _, s.net, s.dbg, rfl⟩, fun a _ => State.reg_of_regs rfl a⟩
theorem modNet (f : Net → Net) : SiteReset s (s.modNet f) := ⟨⟨s.regs, s.sites, _, s.dbg, rfl⟩, fun a _ => State.reg_of_regs rfl a⟩
theorem setDbg (dbg : Dbg) : SiteReset s { s with dbg := dbg } := ⟨⟨s.regs, s.sites, s.net, _, rfl⟩, fun a _ => State.reg_of_regs rfl a⟩
theorem modCore (t c : Nat) (f : Core → Core) : SiteReset s (s.modCore t c f) := modSite s t _
theorem setTreg (t a : Nat) (v : BitVec 32) : SiteReset s (s.setTreg t a v) := modSite s t _
theorem setTfld (t a hi lo n : Nat) : SiteReset s (s.setTfld t a hi lo n) := setTreg s t a _
theorem setTbit (t a i : Nat) (b : Bool) : SiteReset s (s.setTbit t a i b) := setTreg s t a _
theorem tbump (t a n : Nat) : SiteReset s (s.tbump t a n) := setTreg s t a _

theorem setRing (t q : Nat) (l : List QEnt) : SiteReset s (s.setRing t q l) :=
  (modSite s t _).trans (setTfld _ t _ _ _ _)

theorem setReg {a : Nat} (ha : TraceReg a) (v : BitVec 32) : SiteReset s (s.setReg a v) :=
  ⟨⟨_, s.sites, s.net, s.dbg, rfl⟩, fun _ hb => s.reg_setReg_other _ fun h => hb (h ▸ ha)⟩
theorem setBit {a : Nat} (ha : TraceReg a) (i : Nat) (b : Bool) : SiteReset s (s.setBit a i b) := setReg s ha _
theorem setFld {a : Nat} (ha : TraceReg a) (hi lo n : Nat) : SiteReset s (s.setFld a hi lo n) := setReg s ha _

theorem traceEvent (t unit k data : Nat) : SiteReset s (s.traceEvent t unit k data) := by
  unfold State.traceEvent
  refine foldl_mem (fun u n hn => ?_) s
  have ha : TraceReg (R.DBG_TRACE_CTL n) := by
    have := List.mem_range.mp hn
    simp only [TraceReg, R.DBG_TRACE_CTL]
    omega
  dsimp only
  split
  · exact ((setDbg u _).trans (setFld _ ha _ _ _)).trans (setBit _ ha _ _)
  · exact refl u

theorem setCoreState (t c v : Nat) : SiteReset s (s.setCoreState t c v) := by
  unfold State.setCoreState
  dsimp only
  split
  · exact setTfld s t _ _ _ _
  · exact (setTfld s t _ _ _ _).trans (traceEvent _ _ _ _ _)

theorem countStatus (t status : Nat) : SiteReset s (s.countStatus t status) := by
  unfold State.countStatus
  split
  · exact tbump s t _ _
  · exact tbump s t _ _
  · exact refl s

theorem launch (h : Hdr) (data : List (BitVec 8)) (agent : Agent) (target router port : Nat) (back : Option Nat) :
    SiteReset s (s.launch h data agent target router port back) := by
  unfold State.launch
  split
  · exact modNet s _
  · exact refl s

theorem answerLost (t : Nat) : SiteReset s (s.answerLost t) :=
  (tbump s t _ _).trans (setTbit _ t _ _ _)

theorem answer (p : Packet) (t status : Nat) (data : List (BitVec 8)) : SiteReset s (s.answer p t status data) := by
  unfold State.answer
  dsimp only
  split
  · exact launch s _ _ _ _ _ _ _
  · split
    · exact launch s _ _ _ _ _ _ _
    · exact answerLost s t

theorem unreach (p : Packet) (t : Nat) : SiteReset s (s.unreach p t) := by
  unfold State.unreach
  split
  · exact answerLost s t
  · exact (tbump s t _ _).trans (answer _ _ _ _ _)

/-! ### The reset and the scrub of a site -/

theorem emptyRing (t q : Nat) : SiteReset s (s.emptyRing t q) := by
  unfold State.emptyRing
  dsimp only
  exact ((modNet s _).trans (foldl (fun u v => (countStatus u _ _).trans (answer _ _ _ _ _)) _ _)).trans ((setRing _ t q _).trans (modSite _ t _))

theorem dropConc (t : Nat) : SiteReset s (s.dropConc t) := by
  unfold State.dropConc
  refine foldl (fun u p => ?_) _ s
  split
  · exact refl u
  · exact (countStatus u _ _).trans (answer _ _ _ _ _)

theorem closeQueues (t : Nat) : SiteReset s (s.closeQueues t) := by
  unfold State.closeQueues
  refine foldl (fun u q => ?_) _ s
  split
  · exact refl u
  · exact (emptyRing u t q).trans (setTfld _ _ _ _ _ _)

theorem concReset (t : Nat) : SiteReset s (s.concReset t) := by
  unfold State.concReset
  exact (modSite s t _).trans (foldl (fun u n => setTfld u _ _ _ _ _) _ _)

theorem stopCores (t : Nat) : SiteReset s (s.stopCores t) := by
  unfold State.stopCores
  exact ((foldl (fun u c => setCoreState u t c 0) _ s).trans (foldl (fun u c => setDbg u _) _ _)).trans (setTfld _ _ _ _ _ _)

theorem resetSite (t : Nat) (net : Bool) : SiteReset s (s.resetSite t net) := by
  unfold State.resetSite
  exact ((((dropConc s t).trans (closeQueues _ t)).trans (concReset _ t)).trans (stopCores _ t)).trans ((modSite _ _ _).trans (setTbit _ _ _ _ _))

theorem scrubCaches (t : Nat) : SiteReset s (s.scrubCaches t) := by
  unfold State.scrubCaches
  exact ((foldl (fun u c => modCore u t c _) _ s).trans (modSite _ t _)).trans ((setTfld _ _ _ _ _ _).trans (setTbit _ _ _ _ _))

end

end SiteReset

/-- The registers that work at a site writes: the controls of the trace buffers, the states of the stacks, and the scrubs in progress. -/
abbrev SiteWorkReg (a : Nat) : Prop := (0x500040 ≤ a ∧ a < 0x500060) ∨ (0x600100 ≤ a ∧ a < 0x600900) ∨ 0xa00100 ≤ a ∧ a < 0xa00120

/-- The second state is the first after work at sites: it differs in the sites, the networks, the memory, the debug and the scrub state, and its other
registers are the same. -/
def SiteWork (s u : State) : Prop :=
  (∃ regs sites net dbg dram sec, u = { s with regs := regs, sites := sites, net := net, dbg := dbg, dram := dram, sec := sec }) ∧
    ∀ a, ¬ SiteWorkReg a → u.reg a = s.reg a

namespace SiteWork

theorem refl (s : State) : SiteWork s s := ⟨⟨_, _, _, _, _, _, rfl⟩, fun _ _ => rfl⟩

theorem trans {s u v : State} (h : SiteWork s u) (h' : SiteWork u v) : SiteWork s v := by
  obtain ⟨⟨_, _, _, _, _, _, rfl⟩, hreg⟩ := h
  obtain ⟨⟨_, _, _, _, _, _, rfl⟩, hreg'⟩ := h'
  exact ⟨⟨_, _, _, _, _, _, rfl⟩, fun a ha => (hreg' a ha).trans (hreg a ha)⟩

theorem foldl_mem {α : Type} {f : State → α → State} {l : List α} (h : ∀ u, ∀ x ∈ l, SiteWork u (f u x)) (s : State) :
    SiteWork s (l.foldl f s) :=
  List.foldlRecOn (motive := SiteWork s) l f (refl s) fun u hu x hx => hu.trans (h u x hx)

theorem foldl {α : Type} {f : State → α → State} (h : ∀ u x, SiteWork u (f u x)) (l : List α) (s : State) : SiteWork s (l.foldl f s) :=
  foldl_mem (fun u x _ => h u x) s

/-- A view of the state that shows none of these parts is the same. -/
theorem view {β : Type} (view : State → β)
    (hview : ∀ (u : State) regs sites net dbg dram sec,
      view { u with regs := regs, sites := sites, net := net, dbg := dbg, dram := dram, sec := sec } = view u)
    {s u : State} (h : SiteWork s u) : view u = view s := by
  obtain ⟨⟨regs, sites, net, dbg, dram, sec, rfl⟩, -⟩ := h
  exact hview s regs sites net dbg dram sec

theorem reg {s u : State} (h : SiteWork s u) {a : Nat} (ha : ¬ SiteWorkReg a) : u.reg a = s.reg a := h.2 a ha

section
variable (s : State)

/-- Work at sites takes in their reset. -/
theorem of_reset {s u : State} (h : SiteReset s u) : SiteWork s u := by
  obtain ⟨⟨regs, sites, net, dbg, rfl⟩, hreg⟩ := h
  exact ⟨⟨regs, sites, net, dbg, s.dram, s.sec, rfl⟩, fun a ha => hreg a fun h => ha (.inr (.inr h))⟩

theorem modDram (f : Dram → Dram) : SiteWork s (s.modDram f) := ⟨⟨s.regs, s.sites, s.net, s.dbg, _, s.sec, rfl⟩, fun a _ => State.reg_of_regs rfl a⟩
theorem modSec (f : Sec → Sec) : SiteWork s (s.modSec f) := ⟨⟨s.regs, s.sites, s.net, s.dbg, s.dram, _, rfl⟩, fun a _ => State.reg_of_regs rfl a⟩
theorem modNet (f : Net → Net) : SiteWork s (s.modNet f) := of_reset (.modNet s f)

theorem setReg {a : Nat} (ha : SiteWorkReg a) (v : BitVec 32) : SiteWork s (s.setReg a v) :=
  ⟨⟨_, s.sites, s.net, s.dbg, s.dram, s.sec, rfl⟩, fun _ hb => s.reg_setReg_other _ fun h => hb (h ▸ ha)⟩
theorem setBit {a : Nat} (ha : SiteWorkReg a) (i : Nat) (b : Bool) : SiteWork s (s.setBit a i b) := setReg s ha _

theorem unreach (p : Packet) (t : Nat) : SiteWork s (s.unreach p t) := of_reset (.unreach s p t)

theorem scrubBegin (t : Nat) : SiteWork s (s.scrubBegin t) := by
  unfold State.scrubBegin
  exact (of_reset (((SiteReset.resetSite s t false).trans (.scrubCaches _ t)).trans ((SiteReset.modSite _ t _).trans
    (.foldl (fun u n => .setTfld u _ _ _ _ _) _ _)))).trans (modSec _ _)

theorem scrubSite (t : Nat) : SiteWork s (s.scrubSite t) := by
  unfold State.scrubSite
  split
  · exact modSec s _
  · exact scrubBegin s t

end

end SiteWork

/-! ### Zeroing and the scrub of a partition -/

/-- R242: a tract lies in one of the 32 stacks. -/
theorem tractRole_stack_lt (img : Option Image) {t : Nat} (ht : t < 1024) : (tractRole img t).2.1 < 32 := by
  have hbits (r : Nat) : bitsOf r 29 25 < 32 := by simp only [bitsOf]; omega
  unfold tractRole
  split
  · simp only; omega
  · dsimp only
    split
    · exact hbits _
    · split <;> simp

theorem State.unitBands_lt (s : State) (u : Nat) : ∀ b ∈ s.unitBands u, b.1 < 32 := by
  unfold State.unitBands
  intro b hb
  split at hb
  next h =>
    obtain rfl := List.mem_singleton.mp hb
    exact tractRole_stack_lt _ h
  next =>
    obtain ⟨k, hk, rfl⟩ := List.mem_map.mp hb
    exact List.mem_range.mp hk

namespace SiteWork

section
variable (s : State)

theorem zeroStart (u : Nat) : SiteWork s (s.zeroStart u) := by
  unfold State.zeroStart
  refine ((modDram s _).trans (modDram _ _)).trans (foldl_mem (fun v b hb => ?_) _)
  refine setBit v ?_ _ _
  have := State.unitBands_lt _ u b hb
  simp only [SiteWorkReg, R.MEM_STK_STATE]
  omega

theorem closeWindow (w : Nat) : SiteWork s (s.closeWindow w) := by
  unfold State.closeWindow
  dsimp only
  split
  · exact refl s
  · exact modNet s _

theorem writeBlock (stack off addr : Nat) (data : BitVec 512) : SiteWork s (s.writeBlock stack off addr data) :=
  (modDram s fun d => { d with blocks := Map.set s.blockDefault d.blocks (blockKey stack off) _ }).trans
    (modDram _ fun d => { d with rewrites := Map.erase (blockKey stack off) d.rewrites })

theorem zeroBlocks (m : Image) (p : Nat) (units : List Nat) : SiteWork s (s.zeroBlocks m p units) := by
  unfold State.zeroBlocks
  refine foldl (fun u e => ?_) _ s
  have hwrite (c : Bool) (stack off a : Nat) : SiteWork u (if c then u.writeBlock stack off a 0 else u) := by
    split
    · exact writeBlock u _ _ _ _
    · exact refl u
  dsimp only
  split
  · exact hwrite _ _ _ _
  · exact refl u

theorem openJob {part : Option Nat} (hpart : ∀ p, part = some p → p < 256) (sites units : List Nat) : SiteWork s (s.openJob part sites units) := by
  unfold State.openJob
  dsimp only
  split
  · exact refl s
  · split
    next p =>
      have ha : SiteWorkReg (R.SEC_SCRUBBING (p / 32)) := by
        have := hpart p rfl
        simp only [SiteWorkReg, R.SEC_SCRUBBING]
        omega
      exact (modSec s _).trans (setBit _ ha _ _)
    next => exact modSec s _

theorem scrubPartition {p : Nat} (hp : p < 256) : SiteWork s (s.scrubPartition p) := by
  unfold State.scrubPartition
  split
  · exact refl s
  next m hm =>
    exact (((foldl (fun u w => closeWindow u w) _ s).trans (foldl (fun u t => scrubSite u t) _ _)).trans
      (foldl (fun u v => zeroStart u v) _ _)).trans ((zeroBlocks _ m p _).trans (openJob _ (fun q hq => by cases hq; exact hp) _ _))

end

end SiteWork

end Sys2Proof.Machine
end

section
/-! PROOFS. The PCIe link, PERST_N, the loss of a reference, and the requests of the host (R325, R410-R413, R418, R419). -/

namespace Sys2Proof.Machine

/-! ### The link trains (R410) -/

/-- R410: the width, the rate and Flit mode are shown. -/
def State.linkShows (s : State) (width rate : Nat) : State :=
  let s := if width == 16 then (s.setFld R.HST_LINK_STATUS 3 0 (s.free.toNat % 16)).freed else s.setFld R.HST_LINK_STATUS 3 0 width
  (s.setFld R.HST_LINK_STATUS 7 4 rate).setBit R.HST_LINK_STATUS 9 (rate == 6)

theorem State.linkTrained_on {s : State} (h : s.stageOn = true) (width rate : Nat) : s.linkTrained width rate = s.linkShows width rate := by
  have hon : s.vlinkOn = true := h
  simp only [State.linkTrained, hon, if_true]
  rfl

theorem State.linkTrained_off {s : State} (h : s.stageOn = false) (width rate : Nat) : s.linkTrained width rate = s.linkShows 1 (min 3 rate) := by
  have hoff : s.vlinkOn = false := h
  simp only [State.linkTrained, hoff]
  rfl

theorem State.linkShows_effect (s : State) {width rate : Nat} (hwidth : width ≤ 16) (hrate : rate < 16) :
    let u := s.linkShows width rate
    (width ≠ 16 → u.fld R.HST_LINK_STATUS 3 0 = width) ∧ u.fld R.HST_LINK_STATUS 7 4 = rate ∧ u.bit R.HST_LINK_STATUS 9 = decide (rate = 6) ∧
      u.hostUp = s.hostUp ∧ u.msix = s.msix ∧ u.hst = s.hst := by
  unfold State.linkShows
  generalize hv : (if width == 16 then (s.setFld R.HST_LINK_STATUS 3 0 (s.free.toNat % 16)).freed else s.setFld R.HST_LINK_STATUS 3 0 width) = v
  have hfreed (u : State) (a i : Nat) : u.freed.bit a i = u.bit a i := State.bit_of_reg (State.reg_of_regs rfl a) i
  have hv' : (width ≠ 16 → v.fld R.HST_LINK_STATUS 3 0 = width) ∧ v.hostUp = s.hostUp ∧ v.msix = s.msix ∧ v.hst = s.hst := by
    rw [← hv]
    split
    next h => exact ⟨fun hne => absurd (beq_iff_eq.mp h) hne, (hfreed _ _ _).trans (State.bit_setFld_other _ _ _ _ _ _ (by decide) (by decide)), rfl, rfl⟩
    next =>
      refine ⟨fun hne => ?_, State.bit_setFld_other _ _ _ _ _ _ (by decide) (by decide), rfl, rfl⟩
      rw [State.fld_setFld_same _ _ _ _ _ (by decide) (by decide)]
      exact Nat.mod_eq_of_lt (by omega)
  clear hv
  obtain ⟨hw, hup, hmsix, hhst⟩ := hv'
  refine ⟨fun hne => ?_, ?_, ?_, ?_, (State.setBit_msix _ _ _ _).trans ((State.setFld_msix _ _ _ _ _).trans hmsix),
    (State.setBit_hst _ _ _ _).trans ((State.setFld_hst _ _ _ _ _).trans hhst)⟩
  · rw [State.fld_setBit_other _ _ _ _ _ _ (by decide) (by decide), State.fld_setFld_other _ _ _ _ _ _ _ (by decide) (by decide) (by decide), hw hne]
  · rw [State.fld_setBit_other _ _ _ _ _ _ (by decide) (by decide), State.fld_setFld_same _ _ _ _ _ (by decide) (by decide)]
    exact Nat.mod_eq_of_lt hrate
  · rw [State.bit_setBit_same _ _ _ _ (by decide)]
    rfl
  · rw [State.hostUp, State.bit_setBit_other _ _ _ _ _ (by decide), State.bit_setFld_other _ _ _ _ _ _ (by decide) (by decide), ← State.hostUp, hup]

/-- R410: what a link that trained shows. -/
def LinkRule (s u : State) (width rate : Nat) : Prop :=
  (s.stageOn = true → width ≠ 16 → u.fld R.HST_LINK_STATUS 3 0 = width) ∧
  (s.stageOn = true → u.fld R.HST_LINK_STATUS 7 4 = rate ∧ u.bit R.HST_LINK_STATUS 9 = decide (rate = 6)) ∧
  (s.stageOn = false → u.fld R.HST_LINK_STATUS 3 0 = 1 ∧ u.fld R.HST_LINK_STATUS 7 4 = min 3 rate ∧ u.bit R.HST_LINK_STATUS 9 = false) ∧
  u.hostUp = true ∧ u.msix = s.msix ∧ u.hst = s.hst

theorem linkRule_linkTrained {s : State} (hup : s.hostUp = true) {width rate : Nat} (hwidth : width ≤ 16) (hrate : rate ≤ 6) :
    LinkRule s (s.linkTrained width rate) width rate := by
  cases hon : s.stageOn with
  | true =>
    rw [State.linkTrained_on hon]
    obtain ⟨hw, hr, hflit, hup', hmsix, hhst⟩ := s.linkShows_effect (rate := rate) hwidth (by omega)
    exact ⟨fun _ => hw, fun _ => ⟨hr, hflit⟩, fun h => absurd (hon.symm.trans h) (by decide), hup'.trans hup, hmsix, hhst⟩
  | false =>
    rw [State.linkTrained_off hon]
    obtain ⟨hw, hr, hflit, hup', hmsix, hhst⟩ := s.linkShows_effect (width := 1) (rate := min 3 rate) (by decide) (by omega)
    have hnot : min 3 rate ≠ 6 := by omega
    exact ⟨fun h => absurd (hon.symm.trans h) (by decide), fun h => absurd (hon.symm.trans h) (by decide),
      fun _ => ⟨hw (by decide), hr, hflit.trans (decide_eq_false hnot)⟩, hup'.trans hup, hmsix, hhst⟩

/-- Link up, shown after the training, is as well shown before it. -/
theorem linkRule_up (s : State) {width rate : Nat} (hwidth : width ≤ 16) (hrate : rate ≤ 6) :
    LinkRule s ((s.linkTrained width rate).setBit R.HST_LINK_STATUS 8 true) width rate := by
  have hup (u : State) : (u.setBit R.HST_LINK_STATUS 8 true).hostUp = true := State.bit_setBit_same _ _ _ _ (by decide)
  have hfld (u : State) (hi lo : Nat) (h : hi < 8) (hlo : lo ≤ hi) : (u.setBit R.HST_LINK_STATUS 8 true).fld R.HST_LINK_STATUS hi lo = u.fld R.HST_LINK_STATUS hi lo :=
    State.fld_setBit_other _ _ _ _ _ _ (by omega) hlo
  have hbit (u : State) : (u.setBit R.HST_LINK_STATUS 8 true).bit R.HST_LINK_STATUS 9 = u.bit R.HST_LINK_STATUS 9 :=
    State.bit_setBit_other _ _ _ _ _ (by decide)
  cases hon : s.stageOn with
  | true =>
    rw [State.linkTrained_on hon]
    obtain ⟨hw, hr, hflit, -, hmsix, hhst⟩ := s.linkShows_effect (rate := rate) hwidth (by omega)
    generalize s.linkShows width rate = v at hw hr hflit hmsix hhst
    refine ⟨fun _ hne => (hfld v _ _ (by decide) (by decide)).trans (hw hne), fun _ => ⟨(hfld v _ _ (by decide) (by decide)).trans hr, (hbit v).trans hflit⟩,
      fun h => absurd (hon.symm.trans h) (by decide), hup v, hmsix, hhst⟩
  | false =>
    rw [State.linkTrained_off hon]
    obtain ⟨hw, hr, hflit, -, hmsix, hhst⟩ := s.linkShows_effect (width := 1) (rate := min 3 rate) (by decide) (by omega)
    generalize s.linkShows 1 (min 3 rate) = v at hw hr hflit hmsix hhst
    have hnot : min 3 rate ≠ 6 := by omega
    exact ⟨fun h => absurd (hon.symm.trans h) (by decide), fun h => absurd (hon.symm.trans h) (by decide),
      fun _ => ⟨(hfld v _ _ (by decide) (by decide)).trans (hw (by decide)), (hfld v _ _ (by decide) (by decide)).trans hr,
        (hbit v).trans (hflit.trans (decide_eq_false hnot))⟩, hup v, hmsix, hhst⟩

theorem linkWidth_of {w : Nat} (h : w = 1 ∨ w = 2 ∨ w = 4 ∨ w = 8 ∨ w = 16) : linkWidth w = true ∧ w ≤ 16 := by
  rcases h with rfl | rfl | rfl | rfl | rfl <;> decide

/-! ### A surprise down (R419) -/

theorem State.chan_setChan_other (s : State) {f c g d : Nat} (l : List CopyJob) (hd : d < 4) (hc : c < 4) (h : (g, d) ≠ (f, c)) :
    (s.setChan f c l).chan g d = s.chan g d := by
  refine Map.get_set_other _ _ _ fun hkey => h ?_
  simp only [chanKey] at hkey
  rw [Prod.mk.injEq]
  omega

/-- R419: one channel stops. -/
def State.channelStopped (s : State) (e : Nat × Nat) : State :=
  ((s.setBit (R.FN_CH_STATUS e.1 e.2) 31 true).setBit (R.FN_CH_STATUS e.1 e.2) 30 false).setChan e.1 e.2 []

/-- R419: a channel shows that the link went down. -/
def State.ChannelDown (s : State) (f c : Nat) : Prop :=
  s.bit (R.FN_CH_STATUS f c) 31 = true ∧ s.bit (R.FN_CH_STATUS f c) 30 = false ∧ s.chan f c = []

theorem State.channelStopped_same (s : State) (f c : Nat) : (s.channelStopped (f, c)).ChannelDown f c := by
  refine ⟨?_, ?_, State.chan_setChan _ _ _ _⟩
  · rw [State.channelStopped, State.bit_of_reg (State.reg_setChan _ _ _ _ _), State.bit_setBit_other _ _ _ _ _ (by decide),
      State.bit_setBit_same _ _ _ _ (by decide)]
  · rw [State.channelStopped, State.bit_of_reg (State.reg_setChan _ _ _ _ _), State.bit_setBit_same _ _ _ _ (by decide)]

theorem State.reg_channelStopped (s : State) (e : Nat × Nat) {a : Nat} (h : a ≠ R.FN_CH_STATUS e.1 e.2) : (s.channelStopped e).reg a = s.reg a := by
  rw [State.channelStopped, State.reg_setChan, State.reg_setBit_other _ _ _ h, State.reg_setBit_other _ _ _ h]

theorem mem_runningChannels {s : State} {f c : Nat} : (f, c) ∈ s.runningChannels ↔
    f < 64 ∧ c < 4 ∧ (s.bit (R.FN_CH_CFG f c) 31 = true ∨ s.chan f c ≠ []) := by
  simp [State.runningChannels, and_assoc]

theorem fnChStatus_ne {f c g d : Nat} (hc : c < 4) (hd : d < 4) (h : (g, d) ≠ (f, c)) :
    R.FN_CH_STATUS g d ≠ R.FN_CH_STATUS f c := by
  simp only [R.FN_CH_STATUS, ne_eq, Prod.mk.injEq] at h ⊢
  omega

/-- R419: every channel that runs, or has a descriptor in progress, shows that the link went down. -/
theorem State.stopChannels_effect (s : State) : (∀ a, a < 0x10000000 → s.stopChannels.reg a = s.reg a) ∧ s.stopChannels.hst.reqs = s.hst.reqs ∧
    ∀ e ∈ s.runningChannels, s.stopChannels.ChannelDown e.1 e.2 := by
  have heq : s.stopChannels = s.runningChannels.foldl State.channelStopped s := rfl
  rw [heq]
  refine ⟨fun a ha => ?_, foldl_leaves (f := State.channelStopped) (fun u : State => u.hst.reqs) (fun u e => rfl) _ s, fun e he => ?_⟩
  · refine foldl_leaves (fun u : State => u.reg a) (fun u e => u.reg_channelStopped e ?_) _ s
    simp only [R.FN_CH_STATUS]
    omega
  · obtain ⟨before, after, hsplit⟩ := List.append_of_mem he
    have hmem : ∀ x ∈ after, x.2 < 4 := fun x hx => by
      have hx' : x ∈ s.runningChannels := hsplit ▸ List.mem_append_right _ (List.mem_cons_of_mem _ hx)
      exact (mem_runningChannels.mp hx').2.1
    obtain ⟨-, hc, -⟩ := mem_runningChannels.mp he
    rw [hsplit, List.foldl_append, List.foldl_cons]
    refine List.foldlRecOn (motive := fun u : State => u.ChannelDown e.1 e.2) after _ (State.channelStopped_same _ _ _) fun u hu x hx => ?_
    by_cases hxe : e = x
    · exact hxe ▸ u.channelStopped_same e.1 e.2
    · have hxc := hmem x hx
      have hreg := u.reg_channelStopped x (fnChStatus_ne hxc hc hxe)
      obtain ⟨h31, h30, hchan⟩ := hu
      refine ⟨(State.bit_of_reg hreg 31).trans h31, (State.bit_of_reg hreg 30).trans h30, ?_⟩
      rw [State.channelStopped, State.chan_setChan_other _ _ hc hxc hxe]
      exact (State.chan_of_hst rfl _ _).trans hchan

/-- R419: the link is down. -/
theorem State.linkOff_effect (s : State) : s.linkOff.hostUp = false ∧ s.linkOff.hst = { s.hst with reqs := [] } ∧
    ∀ a, a ≠ R.HST_LINK_STATUS → s.linkOff.reg a = s.reg a := by
  have hreg (u : State) (f : Hst → Hst) (a : Nat) : (u.modHst f).reg a = u.reg a := State.reg_of_regs rfl a
  refine ⟨?_, rfl, fun a ha => ?_⟩
  · rw [State.linkOff, State.hostUp, State.bit_of_reg (hreg _ _ _), State.bit_setFld_in _ _ _ _ _ _ (by decide) (by decide) (by decide), Nat.zero_testBit]
  · rw [State.linkOff, hreg, State.reg_setFld_other _ _ _ _ ha]

theorem State.surpriseDown_down {s : State} (h : s.hostUp = false) : s.surpriseDown = s := if_neg (ne_true_of_eq_false h)

theorem State.surpriseDown_up {s : State} (h : s.hostUp = true) : s.surpriseDown.hostUp = false ∧ s.surpriseDown.bit R.HST_LINK_STATUS 11 = true ∧
    s.surpriseDown.hst.reqs = [] ∧ (∀ a, a < 0x10000000 → a ≠ R.HST_LINK_STATUS → s.surpriseDown.reg a = s.reg a) ∧
    ∀ f c, f < 64 → c < 4 → (s.bit (R.FN_CH_CFG f c) 31 = true ∨ s.chan f c ≠ []) → s.surpriseDown.ChannelDown f c := by
  obtain ⟨hoff, hhst, hother⟩ := s.linkOff_effect
  rw [State.surpriseDown, if_pos h]
  obtain ⟨hreg, hreqs, hdown⟩ := (s.linkOff.setBit R.HST_LINK_STATUS 11 true).stopChannels_effect
  have hstatus := hreg R.HST_LINK_STATUS (by decide)
  refine ⟨?_, ?_, ?_, fun a ha hne => ?_, fun f c hf hc hrun => hdown (f, c) (mem_runningChannels.mpr ⟨hf, hc, ?_⟩)⟩
  · rw [State.hostUp, State.bit_of_reg hstatus, State.bit_setBit_other _ _ _ _ _ (by decide), ← State.hostUp, hoff]
  · rw [State.bit_of_reg hstatus, State.bit_setBit_same _ _ _ _ (by decide)]
  · rw [hreqs, State.setBit_hst, hhst]
  · rw [hreg a ha, State.reg_setBit_other _ _ _ hne, hother a hne]
  · have hne : R.FN_CH_CFG f c ≠ R.HST_LINK_STATUS := by simp only [R.FN_CH_CFG, R.HST_LINK_STATUS]; omega
    have hchan : (s.linkOff.setBit R.HST_LINK_STATUS 11 true).chan f c = s.chan f c := by
      rw [State.chan, State.setBit_hst, hhst, State.chan]
    rw [hchan, State.bit_setBit_ne _ _ _ _ hne, State.bit_of_reg (hother _ hne)]
    exact hrun

end Sys2Proof.Machine
end

section
/-! PROOFS. PERST_N and the loss of a reference (R325, R417-R419). -/

namespace Sys2Proof.Machine

/-! ### PERST_N (R417-R419) -/

/-- R419: what the pin clears before the bindings. -/
def State.pagesCleared (s : State) : State :=
  { s with pins := { s.pins with perstN := false }, msix := [],
           regs := s.regs.filter fun e => e.1 < 0x10000000, hiLatch := s.hiLatch.filter fun e => e.1 < 0x10000000,
           loHeld := s.loHeld.filter fun e => e.1 < 0x10000000 }

/-- R419: nobody waits any longer for the answers to the messages of the pages. -/
def State.waitersCleared (s : State) : State :=
  s.modNet fun n =>
    { n with outbox := n.outbox.map fun r => { r with user := r.user.afterPerst s.hst.nextId },
             joins := n.joins.map fun j => { j with user := j.user.afterPerst s.hst.nextId } }

/-- R417, R419: the configuration, the BARs, the channels and the key sets are reset. -/
def State.configCleared (s : State) : State :=
  s.modHst fun h => { h with numVfs := 0, bars := [], nextId := h.nextId + 1, chans := [], streams := [], stopped := [] }

/-- R419: everything but the bindings is cleared. -/
def State.perstCleared (s : State) : State := ((s.pagesCleared.linkOff.setBit R.HST_LINK_STATUS 10 true).waitersCleared).configCleared

theorem State.perst_eq (s : State) : s.perst = ((List.range 63).map (· + 1)).foldl State.perstVf s.perstCleared := rfl

theorem devReset_page : ∀ f < 64, devReset (R.FN_MSG_STATUS f) = 0 ∧ devReset (R.FN_APER_BASE f) = 0 := by decide

theorem State.reg_pagesCleared_page (s : State) {a : Nat} (h : 0x10000000 ≤ a) : s.pagesCleared.reg a = devReset a :=
  (Map.get_filter devReset (fun k => decide (k < 0x10000000)) s.regs a).trans (if_neg (by simp; omega))

theorem State.perstCleared_reg (s : State) {a : Nat} (h : a ≠ R.HST_LINK_STATUS) : s.perstCleared.reg a = s.pagesCleared.reg a := by
  have hreg : s.perstCleared.reg a = (s.pagesCleared.linkOff.setBit R.HST_LINK_STATUS 10 true).reg a := State.reg_of_regs rfl a
  rw [hreg, State.reg_setBit_other _ _ _ h, (s.pagesCleared.linkOff_effect).2.2 a h]

theorem State.perstCleared_status (s : State) : s.perstCleared.hostUp = false ∧ s.perstCleared.bit R.HST_LINK_STATUS 10 = true := by
  have hreg : s.perstCleared.reg R.HST_LINK_STATUS = (s.pagesCleared.linkOff.setBit R.HST_LINK_STATUS 10 true).reg R.HST_LINK_STATUS :=
    State.reg_of_regs rfl _
  constructor
  · rw [State.hostUp, State.bit_of_reg hreg, State.bit_setBit_other _ _ _ _ _ (by decide), ← State.hostUp, (s.pagesCleared.linkOff_effect).1]
  · rw [State.bit_of_reg hreg, State.bit_setBit_same _ _ _ _ (by decide)]

/-- What a change of the bindings alone, with scrubs of partitions, leaves of PERST_N's view: the pins, the vectors, and the configuration. -/
def State.perstView (s : State) : Pins × List (Nat × Nat) × Nat × List (Nat × Nat) × List (Nat × Nat) × List HostReq × List (Nat × List CopyJob) :=
  (s.pins, s.msix, s.hst.numVfs, s.hst.bars, s.hst.streams, s.hst.reqs, s.hst.chans)

theorem State.perstCleared_view (s : State) : s.perstCleared.perstView = ({ s.pins with perstN := false }, [], 0, [], [], [], []) := rfl

theorem State.vfPart_lt {s : State} {k p : Nat} (h : s.vfPart k = some p) : p < 256 := by
  unfold State.vfPart at h
  split at h
  next m q _ howner =>
    split at h
    · obtain rfl := Option.some.inj h
      simp only [State.ownerOf, Option.ite_none_right_eq_some, Option.some.injEq] at howner
      rw [← howner.2]
      exact Nat.lt_of_lt_of_le (getBits_lt _ 7 0) (by decide)
    · exact absurd h (by simp)
  next => exact absurd h (by simp)

/-- R418: what the binding of one VF that PERST_N clears leaves. -/
theorem State.perstVf_effect (s : State) (k : Nat) : (s.perstVf k).perstView = s.perstView ∧ (s.perstVf k).bit (R.HST_VF_BIND k) 31 = false ∧
    ∀ a, ¬ SiteWorkReg a → a ≠ R.HST_VF_BIND k → (s.perstVf k).reg a = s.reg a := by
  have hzero (u : State) : (u.setReg (R.HST_VF_BIND k) 0).bit (R.HST_VF_BIND k) 31 = false := by rw [State.bit, State.reg_setReg_same]; rfl
  have hbit (u : State) : (u.setBit (R.HST_VF_BIND k) 31 false).bit (R.HST_VF_BIND k) 31 = false := State.bit_setBit_same _ _ _ _ (by decide)
  unfold State.perstVf
  split
  · exact ⟨rfl, hzero s, fun a _ ha => s.reg_setReg_other _ ha⟩
  · split
    next p hp =>
      generalize hu : (if s.hst.unlocking.contains k then s else s.scrubPartition p) = u
      have hwork : SiteWork s u := by
        rw [← hu]
        split
        · exact .refl s
        · exact .scrubPartition s (State.vfPart_lt hp)
      have hview : u.perstView = s.perstView := hwork.view State.perstView fun _ _ _ _ _ _ _ => rfl
      have hreg (f : Hst → Hst) (a : Nat) : (u.modHst f).reg a = u.reg a := State.reg_of_regs rfl a
      refine ⟨Eq.trans ?_ hview, hbit _, fun a hsite ha => ?_⟩
      · rfl
      · rw [State.reg_setBit_other _ _ _ ha, hreg, hwork.reg hsite]
    next =>
      split
      · exact ⟨rfl, hbit s, fun a _ ha => s.reg_setBit_other _ _ ha⟩
      · exact ⟨rfl, hzero s, fun a _ ha => s.reg_setReg_other _ ha⟩

theorem hstVfBind_free {k : Nat} (hk : k < 64) {a : Nat} (ha : a < 0x400100 ∨ 0x400200 ≤ a) : a ≠ R.HST_VF_BIND k := by
  simp only [R.HST_VF_BIND]
  omega

/-- R419: what PERST_N leaves. -/
theorem State.perst_effect (s : State) : s.perst.perstView = ({ s.pins with perstN := false }, [], 0, [], [], [], []) ∧ s.perst.hostUp = false ∧
    s.perst.bit R.HST_LINK_STATUS 10 = true ∧ (∀ f, f < 64 → s.perst.reg (R.FN_MSG_STATUS f) = 0 ∧ s.perst.reg (R.FN_APER_BASE f) = 0) ∧
    ∀ k, 1 ≤ k → k < 64 → s.perst.bit (R.HST_VF_BIND k) 31 = false := by
  have hlt : ∀ k ∈ (List.range 63).map (· + 1), k < 64 := fun k hk => by
    obtain ⟨j, hj, rfl⟩ := List.mem_map.mp hk
    have := List.mem_range.mp hj
    omega
  have hreg : ∀ a, ¬ SiteWorkReg a → (a < 0x400100 ∨ 0x400200 ≤ a) → s.perst.reg a = s.perstCleared.reg a := fun a hsite ha =>
    List.foldlRecOn (motive := fun u : State => u.reg a = s.perstCleared.reg a) _ _ rfl fun u hu k hk =>
      ((u.perstVf_effect k).2.2 a hsite (hstVfBind_free (hlt k hk) ha)).trans hu
  obtain ⟨hup, hperst⟩ := s.perstCleared_status
  have hstatus := hreg R.HST_LINK_STATUS (by decide) (by decide)
  refine ⟨?_, ?_, ?_, fun f hf => ?_, fun k hk hk' => ?_⟩
  · rw [s.perst_eq, foldl_leaves State.perstView (fun u k => (u.perstVf_effect k).1), s.perstCleared_view]
  · rw [State.hostUp, State.bit_of_reg hstatus]
    exact hup
  · rw [State.bit_of_reg hstatus, hperst]
  · obtain ⟨hmsg, haper⟩ := devReset_page f hf
    have hpage {a : Nat} (ha : 0x10000000 ≤ a) (hne : a ≠ R.HST_LINK_STATUS) (hz : devReset a = 0) : s.perst.reg a = 0 := by
      rw [hreg a (by simp only [SiteWorkReg]; omega) (by omega), s.perstCleared_reg hne, s.reg_pagesCleared_page ha, hz]
    refine ⟨hpage ?_ ?_ hmsg, hpage ?_ ?_ haper⟩ <;> simp only [R.FN_MSG_STATUS, R.FN_APER_BASE, R.HST_LINK_STATUS] <;> omega
  · rw [s.perst_eq]
    have hmem : k ∈ (List.range 63).map (· + 1) := List.mem_map.mpr ⟨k - 1, List.mem_range.mpr (by omega), by omega⟩
    refine foldl_establishes (P := fun u => u.bit (R.HST_VF_BIND k) 31 = false) hmem (fun u => (u.perstVf_effect k).2.1) (fun u j hu => ?_) _
    by_cases hj : k = j
    · exact hj ▸ (u.perstVf_effect k).2.1
    · have hne : R.HST_VF_BIND k ≠ R.HST_VF_BIND j := by simp only [R.HST_VF_BIND]; omega
      have hsite : ¬ SiteWorkReg (R.HST_VF_BIND k) := by simp only [SiteWorkReg, R.HST_VF_BIND]; omega
      rw [State.bit_of_reg ((u.perstVf_effect j).2.2 _ hsite hne), hu]

/-! ### A port goes down (R405) -/

/-- R405: the registers that a port's going down writes. -/
def portDownRegs (p : Nat) : List Nat := [R.LNK_PORT_STATUS p, R.LNK_PORT_DROPPED p]

/-- R405: the port shows its new state with the reason. -/
def State.portShows (s : State) (p reason new : Nat) : State :=
  let st := R.LNK_PORT_STATUS p
  (((s.setFld st 31 28 new).setFld st 27 24 reason).setFld st 22 17 0).setFld st 8 0 0

/-- R405: the packets of the port are taken out. -/
def State.portEmptied (s : State) (p : Nat) : State :=
  let s := s.modNet fun n => { n with portOut := n.portOut.filter fun e => e.1 != p }
  { s with ctrlOut := s.ctrlOut.filter fun e => e.1 != p }

/-- R405, R398: the port begins anew. -/
def State.portAnew (s : State) (p : Nat) : State :=
  s.modPort p fun q => { Port.start with nextTry := s.time + 10000000000, tries := q.tries, counted := q.counted, changed := some s.time }

/-- R405: the packets that the port holds. -/
def State.packetsAt (s : State) (p : Nat) : List Packet :=
  (((s.port p).sent.map (·.1)) ++ (s.port p).current.toList) ++ (s.net.portOut.filter fun e => e.1 == p).map (·.2)

/-- R405: the port is down, and what it held is discarded. -/
def State.portDiscards (s : State) (p reason new : Nat) : State :=
  (s.packetsAt p).foldl (fun s k => s.discardPacket k) (((s.portEmptied p).portShows p reason new).portAnew p)

theorem State.portDown_eq (s : State) (p reason new : Nat) : s.portDown p reason new =
    if s.portState p == 1 then s.portDiscards p reason new
    else ((s.portDiscards p reason new).bump (R.LNK_PORT_DROPPED p) (s.packetsAt p).length).curFault 0x30
      (le 1 p ++ le 1 reason ++ le 4 (s.packetsAt p).length) := rfl

theorem State.portShows_effect (s : State) (p : Nat) {reason new : Nat} (hr : reason < 16) (hn : new < 16) :
    (s.portShows p reason new).portState p = new ∧ (s.portShows p reason new).fld (R.LNK_PORT_STATUS p) 27 24 = reason ∧
      (s.portShows p reason new).fld (R.LNK_PORT_STATUS p) 22 17 = 0 ∧ (s.portShows p reason new).fld (R.LNK_PORT_STATUS p) 8 0 = 0 := by
  unfold State.portShows State.portState
  refine ⟨?_, ?_, ?_, ?_⟩
  · rw [State.fld_setFld_other _ _ _ _ _ _ _ (by decide) (by decide) (by decide), State.fld_setFld_other _ _ _ _ _ _ _ (by decide) (by decide) (by decide),
      State.fld_setFld_other _ _ _ _ _ _ _ (by decide) (by decide) (by decide), State.fld_setFld_same _ _ _ _ _ (by decide) (by decide)]
    exact Nat.mod_eq_of_lt hn
  · rw [State.fld_setFld_other _ _ _ _ _ _ _ (by decide) (by decide) (by decide), State.fld_setFld_other _ _ _ _ _ _ _ (by decide) (by decide) (by decide),
      State.fld_setFld_same _ _ _ _ _ (by decide) (by decide)]
    exact Nat.mod_eq_of_lt hr
  · rw [State.fld_setFld_other _ _ _ _ _ _ _ (by decide) (by decide) (by decide), State.fld_setFld_same _ _ _ _ _ (by decide) (by decide), Nat.zero_mod]
  · rw [State.fld_setFld_same _ _ _ _ _ (by decide) (by decide), Nat.zero_mod]

theorem State.reg_portShows_other (s : State) (p reason new : Nat) {a : Nat} (h : a ≠ R.LNK_PORT_STATUS p) :
    (s.portShows p reason new).reg a = s.reg a := by
  unfold State.portShows
  dsimp only
  rw [State.reg_setFld_other _ _ _ _ h, State.reg_setFld_other _ _ _ _ h, State.reg_setFld_other _ _ _ _ h, State.reg_setFld_other _ _ _ _ h]

theorem SiteWork.discardPacket (s : State) (k : Packet) : SiteWork s (s.discardPacket k) := unreach s k k.router

theorem SiteWork.portDiscards (s : State) (p reason new : Nat) :
    SiteWork (((s.portEmptied p).portShows p reason new).portAnew p) (s.portDiscards p reason new) :=
  foldl (f := fun (u : State) k => u.discardPacket k) (fun u k => discardPacket u k) (s.packetsAt p) _

theorem State.reg_modPort (s : State) (p a : Nat) (f : Port → Port) : (s.modPort p f).reg a = s.reg a := State.reg_of_regs rfl a

theorem State.reg_portAnew (s : State) (p a : Nat) : (s.portAnew p).reg a = s.reg a := s.reg_modPort p a _

theorem State.reg_portDiscards (s : State) (p reason new : Nat) {a : Nat} (h : ¬ SiteWorkReg a) :
    (s.portDiscards p reason new).reg a = ((s.portEmptied p).portShows p reason new).reg a := by
  rw [(SiteWork.portDiscards s p reason new).reg h, State.reg_portAnew]

theorem lnkPort_offRing {p : Nat} (hp : p < 32) : R.LNK_PORT_STATUS p ∉ ringRegs := by
  simp only [ringRegs, R.LNK_PORT_STATUS, R.FLT_LOG_HEAD, R.FLT_LOG_TAIL, R.FLT_LOG_LOST, List.mem_cons, List.not_mem_nil, or_false]
  omega

theorem not_mem_portDownRegs {a p : Nat} (h : a ≠ R.LNK_PORT_STATUS p) (h' : a ≠ R.LNK_PORT_DROPPED p) : a ∉ portDownRegs p := by
  simp [portDownRegs, h, h']

theorem lnkPort_offSites {p : Nat} (hp : p < 32) : ¬ SiteWorkReg (R.LNK_PORT_STATUS p) := by
  simp only [SiteWorkReg, R.LNK_PORT_STATUS]
  omega

/-- R405: the registers of a port that goes down. -/
theorem State.portDown_effect (s : State) {p reason new : Nat} (hp : p < 32) (hr : reason < 16) (hn : new < 16) :
    (s.portDown p reason new).portState p = new ∧ (s.portDown p reason new).fld (R.LNK_PORT_STATUS p) 27 24 = reason ∧
      ∀ a, ¬ SiteWorkReg a → a ∉ ringRegs → a ∉ portDownRegs p → (s.portDown p reason new).reg a = s.reg a := by
  have hreg : ∀ a, ¬ SiteWorkReg a → a ∉ ringRegs → a ≠ R.LNK_PORT_DROPPED p →
      (s.portDown p reason new).reg a = ((s.portEmptied p).portShows p reason new).reg a := fun a hsite hring hne => by
    rw [s.portDown_eq]
    split
    · exact s.reg_portDiscards p reason new hsite
    · rw [State.reg_curFault_other _ _ _ hring, State.bump, State.reg_setReg_other _ _ hne, s.reg_portDiscards p reason new hsite]
  have hstatus := hreg (R.LNK_PORT_STATUS p) (lnkPort_offSites hp)
    (lnkPort_offRing hp)
    (by simp only [R.LNK_PORT_STATUS, R.LNK_PORT_DROPPED]; omega)
  obtain ⟨hstate, hreason, -, -⟩ := (s.portEmptied p).portShows_effect p hr hn
  refine ⟨(State.fld_of_reg hstatus 31 28).trans hstate, (State.fld_of_reg hstatus 27 24).trans hreason, fun a hsite hring hport => ?_⟩
  rw [portDownRegs, List.mem_cons, List.mem_singleton, not_or] at hport
  rw [hreg a hsite hring hport.2, State.reg_portShows_other _ _ _ _ hport.1]
  exact State.reg_of_regs rfl a

/-! ### The loss of a reference (R325, R341) -/

/-- R341: the registers and the views that the record of a lost reference leaves. -/
theorem State.refLost_effect (s : State) {n : Nat} (hn : n < 3) : (s.refLost n).bit R.CLK_REF_STATUS n = false ∧
    (s.refLost n).bit R.CLK_REF_STATUS (3 + n) = true ∧ (s.refLost n).cur = s.cur ∧
    ∀ a, a ≠ R.CLK_REF_STATUS → a ∉ ringRegs → (s.refLost n).reg a = s.reg a := by
  have heq : s.refLost n = ((s.setBit R.CLK_REF_STATUS n false).setBit R.CLK_REF_STATUS (3 + n) true).curFault 0x26
    (le 4 (((s.setBit R.CLK_REF_STATUS n false).setBit R.CLK_REF_STATUS (3 + n) true).reg R.CLK_REF_STATUS).toNat) := rfl
  have hlost : ((s.setBit R.CLK_REF_STATUS n false).setBit R.CLK_REF_STATUS (3 + n) true).bit R.CLK_REF_STATUS n = false := by
    rw [State.bit_setBit_other _ _ _ _ _ (by omega), State.bit_setBit_same _ _ _ _ (by omega)]
  have hshown : ((s.setBit R.CLK_REF_STATUS n false).setBit R.CLK_REF_STATUS (3 + n) true).bit R.CLK_REF_STATUS (3 + n) = true :=
    State.bit_setBit_same _ _ _ _ (by omega)
  have hreg (a : Nat) (ha : a ≠ R.CLK_REF_STATUS) : ((s.setBit R.CLK_REF_STATUS n false).setBit R.CLK_REF_STATUS (3 + n) true).reg a = s.reg a := by
    rw [State.reg_setBit_other _ _ _ ha, State.reg_setBit_other _ _ _ ha]
  have hcur : ((s.setBit R.CLK_REF_STATUS n false).setBit R.CLK_REF_STATUS (3 + n) true).cur = s.cur := rfl
  rw [heq]
  generalize (s.setBit R.CLK_REF_STATUS n false).setBit R.CLK_REF_STATUS (3 + n) true = v at hlost hshown hreg hcur
  have hreports := Reports.curFault v 0x26 (le 4 (v.reg R.CLK_REF_STATUS).toNat)
  refine ⟨?_, ?_, ?_, fun a ha hr => ?_⟩
  · rw [hreports.bit (by decide) (by decide), hlost]
  · rw [hreports.bit (by decide) (by decide), hshown]
  · rw [hreports.view State.cur fun _ _ _ _ _ => rfl, hcur]
  · rw [State.reg_curFault_other _ _ _ hr, hreg a ha]

/-- R325: CLKT moves to the internal oscillator. -/
def State.oscillates (s : State) : State := { s with clk := { s.clk with oscillator := true }, cur := { s.cur with tripSince := true } }

/-- R337: a follower unlocks. -/
def State.followerUnlocks (s : State) : State := if s.fld R.TIM_SYNC_CTL 1 0 == 2 then s.unlock else s

/-- R325: no wing clock is to start. -/
def State.startForgotten (s : State) (w : Nat) : State := s.modWing w fun x => { x with clockAt := none }
def State.startsForgotten (s : State) : State := allWings.foldl State.startForgotten s

theorem State.sysLost_eq (s : State) : s.sysLost = ((s.oscillates.followerUnlocks.setFld R.CLK_WING_RUN 15 0 0).startsForgotten).assertFault := rfl

theorem State.followerUnlocks_effect (s : State) : s.followerUnlocks.clk = s.clk ∧ s.followerUnlocks.cur = s.cur ∧
    ∀ a, a ≠ R.TIM_SYNC_STATUS → s.followerUnlocks.reg a = s.reg a := by
  unfold State.followerUnlocks
  split
  · exact ⟨rfl, rfl, fun a ha => by rw [State.unlock, State.reg_setBit_other _ _ _ ha, State.reg_setBit_other _ _ _ ha]⟩
  · exact ⟨rfl, rfl, fun _ _ => rfl⟩

theorem State.startsForgotten_effect (s : State) : s.startsForgotten.clk = s.clk ∧ s.startsForgotten.cur = s.cur ∧
    ∀ a, s.startsForgotten.reg a = s.reg a :=
  ⟨foldl_leaves (f := State.startForgotten) State.clk (fun _ _ => rfl) allWings s,
    foldl_leaves (f := State.startForgotten) State.cur (fun _ _ => rfl) allWings s,
    fun a => foldl_leaves (f := State.startForgotten) (fun u : State => u.reg a) (fun u n => u.reg_modWing n a _) allWings s⟩

theorem State.sysLost_effect (s : State) : s.sysLost.clk.oscillator = true ∧ s.sysLost.fld R.CLK_WING_RUN 15 0 = 0 ∧
    s.sysLost.pins.faultLatched = true ∧ s.sysLost.cur.restarting = s.cur.restarting ∧
    ∀ a, a ≠ R.CLK_WING_RUN → a ≠ R.TIM_SYNC_STATUS → s.sysLost.reg a = s.reg a := by
  have hosc : s.oscillates.clk.oscillator = true ∧ s.oscillates.cur.restarting = s.cur.restarting ∧ s.oscillates.regs = s.regs := ⟨rfl, rfl, rfl⟩
  have hassert (u : State) : u.assertFault.clk = u.clk ∧ u.assertFault.cur = u.cur ∧ u.assertFault.pins.faultLatched = true := ⟨rfl, rfl, rfl⟩
  have hset (u : State) : (u.setFld R.CLK_WING_RUN 15 0 0).clk = u.clk ∧ (u.setFld R.CLK_WING_RUN 15 0 0).cur = u.cur := ⟨rfl, rfl⟩
  rw [s.sysLost_eq]
  generalize s.oscillates = u at hosc
  obtain ⟨hosc, hcur, hregs⟩ := hosc
  obtain ⟨hclkv, hcurv, hregv⟩ := u.followerUnlocks_effect
  generalize u.followerUnlocks = v at hclkv hcurv hregv
  obtain ⟨hclkw, hcurw⟩ := hset v
  have hrun : (v.setFld R.CLK_WING_RUN 15 0 0).fld R.CLK_WING_RUN 15 0 = 0 := by
    rw [State.fld_setFld_same _ _ _ _ _ (by decide) (by decide), Nat.zero_mod]
  have hregw (a : Nat) (ha : a ≠ R.CLK_WING_RUN) := State.reg_setFld_other v 15 0 0 ha
  generalize v.setFld R.CLK_WING_RUN 15 0 0 = w at hclkw hcurw hrun hregw
  obtain ⟨hclkx, hcurx, hregx⟩ := w.startsForgotten_effect
  generalize w.startsForgotten = x at hclkx hcurx hregx
  obtain ⟨hclky, hcury, hfault⟩ := hassert x
  refine ⟨?_, ?_, hfault, ?_, fun a ha ha' => ?_⟩
  · rw [hclky, hclkx, hclkw, hclkv, hosc]
  · rw [State.fld_of_reg (State.reg_assertFault _ _), State.fld_of_reg (hregx _), hrun]
  · rw [hcury, hcurx, hcurw, hcurv, hcur]
  · rw [State.reg_assertFault, hregx, hregw a ha, hregv a ha', State.reg_of_regs hregs]

theorem State.startFails_clk (s : State) (error : Nat) : (s.startFails error).clk = s.clk := by
  unfold State.startFails
  split
  · rfl
  · rfl

theorem State.portsDown_effect (s : State) {ps : List Nat} (hps : ∀ p ∈ ps, p < 32) :
    (∀ a, ¬ SiteWorkReg a → a ∉ ringRegs → (a < 0x301000 ∨ 0x301800 ≤ a) → (ps.foldl (fun s p => s.portDown p 6 1) s).reg a = s.reg a) ∧
    ∀ p ∈ ps, (ps.foldl (fun s p => s.portDown p 6 1) s).portState p = 1 ∧
      (ps.foldl (fun s p => s.portDown p 6 1) s).fld (R.LNK_PORT_STATUS p) 27 24 = 6 := by
  refine ⟨fun a hsite hring ha => ?_, fun p hp => ?_⟩
  · refine List.foldlRecOn (motive := fun u : State => u.reg a = s.reg a) ps _ rfl fun u hu p hp => ?_
    have hlt := hps p hp
    refine ((u.portDown_effect hlt (by decide) (by decide)).2.2 a hsite hring ?_).trans hu
    refine not_mem_portDownRegs ?_ ?_ <;> simp only [R.LNK_PORT_STATUS, R.LNK_PORT_DROPPED] <;> omega
  · obtain ⟨before, after, hsplit⟩ := List.append_of_mem hp
    rw [hsplit, List.foldl_append, List.foldl_cons]
    have hset (u : State) : (u.portDown p 6 1).portState p = 1 ∧ (u.portDown p 6 1).fld (R.LNK_PORT_STATUS p) 27 24 = 6 := by
      obtain ⟨hstate, hreason, -⟩ := u.portDown_effect (hps p hp) (by decide : 6 < 16) (by decide : 1 < 16)
      exact ⟨hstate, hreason⟩
    refine List.foldlRecOn (motive := fun u : State => u.portState p = 1 ∧ u.fld (R.LNK_PORT_STATUS p) 27 24 = 6) after _ (hset _) fun u hu q hq => ?_
    by_cases hpq : p = q
    · exact hpq ▸ hset u
    · have hq' : q < 32 := hps q (hsplit ▸ List.mem_append_right _ (List.mem_cons_of_mem _ hq))
      have hreg := (u.portDown_effect hq' (by decide : 6 < 16) (by decide : 1 < 16)).2.2 (R.LNK_PORT_STATUS p) (lnkPort_offSites (hps p hp))
        (lnkPort_offRing (hps p hp))
        (by refine not_mem_portDownRegs ?_ ?_ <;> simp only [R.LNK_PORT_STATUS, R.LNK_PORT_DROPPED] <;> omega)
      exact ⟨(State.fld_of_reg hreg 31 28).trans hu.1, (State.fld_of_reg hreg 27 24).trans hu.2⟩

end Sys2Proof.Machine
end

section
/-! PROOFS. The requests of the host: configuration and memory (R411-R413, R418), and the commands of the PCIe link. -/

namespace Sys2Proof.Machine

/-! ### Configuration (R411) -/

/-- R412: a request is answered with its number, an outcome and data. -/
def State.Told (s u : State) (outcome : Nat) (data : List (BitVec 8)) : Prop :=
  u.hst.done = s.hst.done ++ [{ id := s.hst.nextId, outcome := outcome, data := data }]

theorem State.hostReply_effect (s : State) (outcome : Nat) (data : List (BitVec 8)) : s.Told (s.hostReply outcome data) outcome data ∧
    (s.hostReply outcome data).regs = s.regs ∧ (s.hostReply outcome data).net = s.net ∧
    (s.hostReply outcome data).hst.numVfs = s.hst.numVfs ∧ (s.hostReply outcome data).hst.bars = s.hst.bars := ⟨rfl, rfl, rfl, rfl, rfl⟩

theorem configWord_id {f reg : Nat} (h : reg < 4) : getBits (configWord f reg) 31 16 = 0x1648 := by
  have hreg : reg / 4 = 0 := by omega
  simp only [configWord, hreg, beq_self_eq_true, if_true]
  rw [getBits_putBits_same _ _ _ _ (by decide) (by decide)]
  rfl

theorem configWord_class {f reg : Nat} (h : reg / 4 = 2) : getBits (configWord f reg) 31 16 = if f = 64 then 0x0880 else 0x1200 := by
  have hword : configWord f reg = putBits (Config.pcieConfig f reg) 31 16 (if f == 64 then 0x0880 else 0x1200) := by
    simp [configWord, h]
  rw [hword, getBits_putBits_same _ _ _ _ (by decide) (by decide)]
  simp only [beq_iff_eq]
  split
  · rfl
  · rfl

theorem State.configDone_read {s : State} {f : Nat} (h : f = 64 ∨ f ≤ s.hst.numVfs) (reg value : Nat) :
    s.configDone f 0 reg value = s.hostReply 0 (leBytes 4 (configWord f reg).toNat) :=
  if_pos (by simpa [State.fnPresent] using h)

theorem State.configDone_absent {s : State} {f : Nat} (h64 : f ≠ 64) (h : s.hst.numVfs < f) (reg value : Nat) :
    s.configDone f 0 reg value = s.hostReply 1 [] :=
  if_neg (by simp [State.fnPresent, h64, h])

/-- R411: SR-IOV enables VFs. -/
def State.vfsEnabled (s : State) (value : Nat) : State := s.modHst fun h => { h with numVfs := value }

/-- R411: a BAR is programmed. -/
def State.barProgrammed (s : State) (k value : Nat) : State := s.modHst fun h => { h with bars := Map.set (fun _ => 0) h.bars k value }

theorem State.configDone_vfs {s : State} {value : Nat} (h : value < 64) (reg : Nat) :
    s.configDone 0 1 reg value = (s.vfsEnabled value).hostReply 0 [] := by
  rw [State.configDone, if_pos (by simp [h])]
  rfl

theorem barKey_of {f bar : Nat} (hf : f = 0 ∨ f = 64 ∨ f = 65) (hbar : bar = 0 ∨ bar = 2) : barKey f bar = some (f * 8 + bar) :=
  if_pos (by simp [hf, hbar, or_assoc])

theorem State.configDone_bar {s : State} {f bar : Nat} (hf : f = 0 ∨ f = 64 ∨ f = 65) (hbar : bar = 0 ∨ bar = 2) (value : Nat) :
    s.configDone f 2 bar value = (s.barProgrammed (f * 8 + bar) value).hostReply 0 [] := by
  rw [State.configDone, barKey_of hf hbar]
  rfl

/-! ### Memory requests (R411-R413, R418) -/

/-- R411: an offset lies within the largest BAR. -/
theorem State.barHit_lt {s : State} {addr f bar o : Nat} (h : s.barHit addr = some (f, bar, o)) : o < 2 ^ 36 := by
  obtain ⟨e, he, heq⟩ := Option.map_eq_some_iff.mp h
  have hin := List.find?_some he
  have hsize : e.2.2.2 ≤ 2 ^ 36 := by
    have hmem := List.mem_of_find?_eq_some he
    simp only [State.barRanges, List.mem_append, List.mem_cons, List.not_mem_nil, or_false, List.mem_filter, List.mem_flatMap, List.mem_range] at hmem
    rcases hmem with (rfl | rfl | rfl | rfl) | ⟨⟨i, -, rfl | rfl⟩, -⟩ <;> simp
  simp only [Bool.and_eq_true, decide_eq_true_eq] at hin
  simp only [Prod.mk.injEq] at heq
  omega

theorem State.servesMemory_of {s : State} (f : Nat) (hstage : 3 ≤ s.stage) : s.servesMemory f = true := by simp [State.servesMemory, hstage]

section
variable {s : State} {addr f bar o : Nat} (hhit : s.barHit addr = some (f, bar, o)) (write : Bool) (len : Nat) (data : List (BitVec 8))
  (stream : Option Nat)

theorem State.hostRequest_nowhere (h : s.barHit addr = none) : s.hostRequest write addr len data stream = s.hostReply 1 [] := by
  rw [State.hostRequest, h]

include hhit

theorem State.hostRequest_early (h64 : f ≠ 64) (hstage : s.stage < 3) (hcur : s.cur.restarting = false) :
    s.hostRequest write addr len data stream = s.hostReply 1 [] := by
  rw [State.hostRequest, hhit]
  exact if_pos (by simp [State.servesMemory, h64, hcur, hstage])

theorem State.hostRequest_unprotected (hstage : 3 ≤ s.stage) (hun : s.unprotected f stream = true) :
    s.hostRequest write addr len data stream = (s.setTdi f 3).hostReply 1 [] := by
  rw [State.hostRequest, hhit]
  exact (if_neg (by simp [State.servesMemory_of f hstage])).trans (if_pos hun)

theorem State.hostRequest_aperture (hstage : 3 ≤ s.stage) (hun : s.unprotected f stream = false) (h64 : f ≠ 64) (hbar : bar = 0) :
    s.hostRequest write addr len data stream = s.hostMemory f write (2 ^ 36 * s.fld (R.FN_APER_BASE f) 5 0 + o) len data := by
  rw [State.hostRequest, hhit]
  exact (if_neg (by simp [State.servesMemory_of f hstage])).trans ((if_neg (by simp [hun])).trans ((if_neg (by simp [h64])).trans (if_neg (by simp [hbar]))))

end

theorem State.hostMemory_out {s : State} {f : Nat} (hout : s.vfOut (fnAgent f) = true) (write : Bool) (a len : Nat) (data : List (BitVec 8)) :
    s.hostMemory f write a len data = (s.fnErr f a 3).hostEnd write len 3 [] := if_pos hout

/-- R412: the request that leaves for the network. -/
def State.hostAsks (s : State) (f : Nat) (write : Bool) (a len : Nat) (data : List (BitVec 8)) : State :=
  let h : Hdr := { Hdr.blank with dev := s.deviceId, kind := if write then 9 else 8, len := len, src := s.agentSource (fnAgent f), addr := a }
  (s.modHst fun h => { h with nextId := s.hst.nextId + 1, reqs := h.reqs ++ [{ id := s.hst.nextId, fn := f, addr := a, len := len, read := !write }] }).post
    5000 (fnAgent f) h (if write then data else []) (.host s.hst.nextId)

theorem State.hostMemory_asks {s : State} {f a : Nat} (hin : s.vfOut (fnAgent f) = false) (htile : ∀ t i, s.place a ≠ .tileCsr t i)
    (hdev : ∀ i, s.place a ≠ .devCsr i) (write : Bool) (len : Nat) (data : List (BitVec 8)) :
    s.hostMemory f write a len data = s.hostAsks f write a len data := by
  unfold State.hostMemory
  dsimp only
  rw [if_neg (by simp [hin])]
  split
  next t i h => exact absurd h (htile t i)
  next i h => exact absurd h (hdev i)
  next => rfl

/-- R412: what a request that leaves is. -/
theorem State.hostAsks_effect (s : State) (f : Nat) (write : Bool) (a len : Nat) (data : List (BitVec 8)) :
    ∃ r : NetReq, (s.hostAsks f write a len data).net.outbox = s.net.outbox ++ [r] ∧ r.origin = 5000 ∧ r.agent = fnAgent f ∧
      r.hdr.kind = (if write then 9 else 8) ∧ r.hdr.addr = a ∧ r.hdr.len = len ∧ r.data = (if write then data else []) ∧
      (s.hostAsks f write a len data).regs = s.regs ∧ (s.hostAsks f write a len data).hst.done = s.hst.done :=
  ⟨_, rfl, rfl, rfl, rfl, rfl, rfl, rfl, rfl, rfl⟩

/-! ### The latch of a function (R412, R425) -/

theorem State.fnErr_latched (s : State) (f addr : Nat) : (s.fnErr f addr 3).bit (R.FN_ERR f) 31 = true := by
  have hlo : R.FN_ERR f ≠ R.FN_ERR_ADDR_LO f := by simp only [R.FN_ERR, R.FN_ERR_ADDR_LO]; omega
  have hhi : R.FN_ERR f ≠ R.FN_ERR_ADDR_LO f + 4 := by simp only [R.FN_ERR, R.FN_ERR_ADDR_LO]; omega
  unfold State.fnErr
  split
  next h => exact h
  next =>
    rw [State.bit, State.reg_setReg64_other _ _ hlo hhi, State.reg_setReg_same]
    decide

theorem State.fnErr_shows {s : State} {f : Nat} (h : s.bit (R.FN_ERR f) 31 = false) (addr : Nat) :
    (s.fnErr f addr 3).fld (R.FN_ERR f) 1 0 = 3 ∧ (s.fnErr f addr 3).reg64 (R.FN_ERR_ADDR_LO f) = addr % 2 ^ 64 := by
  have hlo : R.FN_ERR f ≠ R.FN_ERR_ADDR_LO f := by simp only [R.FN_ERR, R.FN_ERR_ADDR_LO]; omega
  have hhi : R.FN_ERR f ≠ R.FN_ERR_ADDR_LO f + 4 := by simp only [R.FN_ERR, R.FN_ERR_ADDR_LO]; omega
  rw [State.fnErr, if_neg (by simp [h])]
  refine ⟨?_, State.reg64_setReg64_same _ _ _⟩
  rw [State.fld, State.reg_setReg64_other _ _ hlo hhi, State.reg_setReg_same]
  decide

theorem State.hostEnd_regs (s : State) (write : Bool) (len status : Nat) (data : List (BitVec 8)) :
    (s.hostEnd write len status data).regs = s.regs ∧ (s.hostEnd write len status data).net = s.net := by
  unfold State.hostEnd
  split
  · exact ⟨rfl, rfl⟩
  · exact ⟨rfl, rfl⟩

theorem pcieMemoryRequest_does {s : State} {write : Bool} {addr len : Nat} {data : List (BitVec 8)} {stream : Option Nat} (hup : s.hostUp = true)
    (hlen : 0 < len) (hwrite : write = true → len ≤ 512 ∧ data.length = len) (hread : write = false → len ≤ 4096)
    (hflow : ∀ n, stream = some n → (s.hst.streams.any fun e => e.1 == n) = true ∧ n ∉ s.hst.stopped) :
    Does (.pcieMemoryRequest write addr len data stream) s (s.hostRequest write addr len data stream) := by
  have hexec := exec_pcieMemoryRequest write addr len data stream s
  unfold execPcieMemoryRequest at hexec
  extract_lets flows at hexec
  have hflows : flows = true := by
    simp only [flows]
    split
    next n =>
      obtain ⟨hkeys, hstop⟩ := hflow n rfl
      simp only [hkeys, Bool.true_and, Bool.not_eq_true', List.contains_eq_mem, decide_eq_false hstop]
    next => rfl
  refine hexec.trans (when_true ?_)
  cases write with
  | true =>
    obtain ⟨hle, hdata⟩ := hwrite rfl
    simp [hup, hlen, hle, hdata, hflows]
  | false => simp [hup, hlen, hread rfl, hflows]

/-! ### The obligation -/

/-- R412, R418: what a memory request of the host leaves, by the BAR it hits. -/
theorem State.hostRequest_effect (s : State) (write : Bool) (addr len : Nat) (data : List (BitVec 8)) (stream : Option Nat) {f bar o : Nat}
    (hhit : s.barHit addr = some (f, bar, o)) :
    let u := s.hostRequest write addr len data stream
    let a := 2 ^ 36 * s.fld (R.FN_APER_BASE f) 5 0 + o
    (f ≠ 64 → s.stage < 3 → s.cur.restarting = false → s.Told u 1 [] ∧ u.regs = s.regs ∧ u.net = s.net) ∧
    (3 ≤ s.stage → s.unprotected f stream = true → s.Told u 1 [] ∧ u.tdi f = 3 ∧ u.net = s.net) ∧
    (3 ≤ s.stage → s.unprotected f stream = false → f ≠ 64 → bar = 0 → s.vfOut (fnAgent f) = true →
      (write = false → s.Told u 0 (List.replicate len 0xFF)) ∧ u.bit (R.FN_ERR f) 31 = true ∧ u.net = s.net ∧
      (s.bit (R.FN_ERR f) 31 = false → u.fld (R.FN_ERR f) 1 0 = 3 ∧ u.reg64 (R.FN_ERR_ADDR_LO f) = a)) := by
  intro u a
  refine ⟨fun h64 hstage hcur => ?_, fun hstage hun => ?_, fun hstage hun h64 hbar hout => ?_⟩
  · simp only [u]
    rw [State.hostRequest_early hhit write len data stream h64 hstage hcur]
    exact ⟨rfl, rfl, rfl⟩
  · simp only [u]
    rw [State.hostRequest_unprotected hhit write len data stream hstage hun]
    exact ⟨rfl, (State.tdi_of_regs rfl f).trans (s.tdi_setTdi_same f (by decide)), rfl⟩
  · have ha : a < 2 ^ 64 := by
      have ho := State.barHit_lt hhit
      have hbase : s.fld (R.FN_APER_BASE f) 5 0 < 2 ^ 6 := getBits_lt _ 5 0
      simp only [a]
      omega
    have hu : u = (s.fnErr f a 3).hostEnd write len 3 [] :=
      (State.hostRequest_aperture hhit write len data stream hstage hun h64 hbar).trans (State.hostMemory_out hout write a len data)
    rw [hu]
    clear_value a
    obtain ⟨hhst, hnet⟩ := s.fnErr_leaves f a 3
    obtain ⟨hregs, hnet'⟩ := (s.fnErr f a 3).hostEnd_regs write len 3 []
    refine ⟨fun hw => ?_, ?_, hnet'.trans hnet, fun hclear => ?_⟩
    · obtain rfl := hw
      have htold := ((s.fnErr f a 3).hostReply_effect 0 (ones len)).1
      rw [State.Told, hhst] at htold
      exact htold
    · rw [State.bit_of_reg (State.reg_of_regs hregs _), s.fnErr_latched f a]
    · obtain ⟨hcode, haddr⟩ := State.fnErr_shows hclear a
      rw [Nat.mod_eq_of_lt ha] at haddr
      refine ⟨(State.fld_of_reg (State.reg_of_regs hregs _) 1 0).trans hcode, ?_⟩
      rw [State.reg64, State.reg_of_regs hregs, State.reg_of_regs hregs, ← State.reg64, haddr]

/-- R325: what the loss of a reference leaves. -/
theorem refclkLoss_effect {s : State} {n : Nat} (hn : n < 3) (haux : s.pins.vaux5 = true) (href : s.bit R.CLK_REF_STATUS n = true) :
    ∃ u : State, Does (.refclkLoss n) s u ∧ u.bit R.CLK_REF_STATUS n = false ∧ u.bit R.CLK_REF_STATUS (3 + n) = true ∧
      (n = 0 → u.clk.oscillator = true ∧ u.fld R.CLK_WING_RUN 15 0 = 0 ∧ u.pins.faultLatched = true ∧
        (s.stage ≠ 0 → s.stage < 5 → s.cur.restarting = false → u.fld R.CUR_BOOT_STATUS 31 28 = 4)) ∧
      (n = 1 → u.hostUp = false ∧ (s.hostUp = true → u.bit R.HST_LINK_STATUS 11 = true)) ∧
      (n = 2 → ∀ p, p < 32 → 2 ≤ s.portState p → u.portState p = 1 ∧ u.fld (R.LNK_PORT_STATUS p) 27 24 = 6) := by
  have hexec := (exec_refclkLoss n s).trans (when_true (by simp [hn, haux, href]))
  obtain ⟨hlost, hshown, hcur, hreg⟩ := s.refLost_effect hn
  generalize s.refLost n = l at hexec hlost hshown hcur hreg
  match n, hn with
  | 0, _ =>
    obtain ⟨hosc, hrun, hfault, hrestart, hother⟩ := l.sysLost_effect
    have hboot : l.sysLost.reg R.CUR_BOOT_STATUS = s.reg R.CUR_BOOT_STATUS := (hother _ (by decide) (by decide)).trans (hreg _ (by decide) (by decide))
    have hclk : l.sysLost.reg R.CLK_REF_STATUS = l.reg R.CLK_REF_STATUS := hother _ (by decide) (by decide)
    rw [hcur] at hrestart
    generalize l.sysLost = y at hexec hosc hrun hfault hrestart hboot hclk
    by_cases hstage : s.stage = 0
    · rw [if_pos (by simp [hstage])] at hexec
      exact ⟨y, hexec, (State.bit_of_reg hclk 0).trans hlost, (State.bit_of_reg hclk 3).trans hshown,
        fun _ => ⟨hosc, hrun, hfault, fun h => absurd hstage h⟩, nofun, nofun⟩
    · rw [if_neg (by simp [hstage])] at hexec
      have hfails {a : Nat} (ha : a ≠ R.CUR_BOOT_STATUS) : (y.startFails 4).reg a = y.reg a := y.reg_startFails_other 4 ha
      refine ⟨y.startFails 4, hexec, ?_, ?_, fun _ => ⟨?_, ?_, ?_, fun _ hlt hc => ?_⟩, nofun, nofun⟩
      · rw [State.bit_of_reg (hfails (by decide)), State.bit_of_reg hclk, hlost]
      · rw [State.bit_of_reg (hfails (by decide)), State.bit_of_reg hclk, hshown]
      · rw [y.startFails_clk 4, hosc]
      · rw [State.fld_of_reg (hfails (by decide)), hrun]
      · rw [y.startFails_pins 4 hfault, hfault]
      · exact y.bootError_startFails (by decide) (by rwa [State.fld_of_reg hboot]) (hrestart.trans hc)
  | 1, _ =>
    have hup : l.hostUp = s.hostUp := State.bit_of_reg (hreg _ (by decide) (by decide)) 8
    cases hlink : s.hostUp with
    | false =>
      have hsame := State.surpriseDown_down (hup.trans hlink)
      rw [hsame] at hexec
      exact ⟨l, hexec, hlost, hshown, nofun, fun _ => ⟨hup.trans hlink, nofun⟩, nofun⟩
    | true =>
      obtain ⟨hdown, hflag, -, hother, -⟩ := State.surpriseDown_up (hup.trans hlink)
      have hclk := hother R.CLK_REF_STATUS (by decide) (by decide)
      exact ⟨_, hexec, (State.bit_of_reg hclk 1).trans hlost, (State.bit_of_reg hclk 4).trans hshown, nofun, fun _ => ⟨hdown, fun _ => hflag⟩, nofun⟩
  | 2, _ =>
    obtain ⟨hother, hports⟩ := l.portsDown_effect (ps := (List.range 32).filter fun p => 2 ≤ s.portState p)
      fun p hp => List.mem_range.mp (List.mem_filter.mp hp).1
    have hclk := hother R.CLK_REF_STATUS (by decide) (by decide) (by decide)
    exact ⟨_, hexec, (State.bit_of_reg hclk 2).trans hlost, (State.bit_of_reg hclk 5).trans hshown, nofun, nofun,
      fun _ p hp hstate => hports p (List.mem_filter.mpr ⟨List.mem_range.mpr hp, decide_eq_true hstate⟩)⟩

/-- Settles O51, clause by clause: each command answers a state named above, and the effect lemmas read the link, the bindings and the answers off it. -/
theorem hostLinkCommands : Obligations.HostLinkCommands := by
  unfold Obligations.HostLinkCommands
  refine ⟨?train, ?surprise, ?perst, ?reference, ?config, ?memory⟩
  case train =>
    intro s width rate hwidth hlo hhi rule
    obtain ⟨hw, hle⟩ := linkWidth_of hwidth
    have hr : linkRate rate = true := by simp [linkRate, hlo, hhi]
    exact ⟨fun haux hperst href hdown => ⟨_, (exec_hostLinkUp width rate s).trans (when_true (by simp [haux, hperst, href, hdown, hw, hr])), linkRule_up s hle hhi⟩,
      fun hup => ⟨_, (exec_hostLinkRetrain width rate s).trans (when_true (by simp [hup, hw, hr])), linkRule_linkTrained hup hle hhi⟩⟩
  case surprise =>
    intro s
    have hexec := exec_surpriseDown s
    refine ⟨fun hdown => ?_, fun hup => ?_⟩
    · rw [execSurpriseDown, State.surpriseDown_down hdown] at hexec
      exact hexec
    · obtain ⟨hdown, hflag, hreqs, -, hchans⟩ := State.surpriseDown_up hup
      exact ⟨_, hexec, hdown, hflag, hreqs, hchans⟩
  case perst =>
    intro s
    refine ⟨fun hhigh => ⟨?_, s.perst, ?_, ?_⟩, fun hlow => ⟨?_, { s with pins := { s.pins with perstN := true } }.setBit R.HST_LINK_STATUS 10 false, ?_, rfl, ?_, rfl⟩⟩
    · exact (exec_perstN false s).trans (congrArg Host.Outcome.next (if_pos hhigh))
    · exact (exec_perstN true s).trans (congrArg Host.Outcome.next (if_pos hhigh))
    · obtain ⟨hview, hup, hbit, hpages, hbind⟩ := s.perst_effect
      simp only [State.perstView, Prod.mk.injEq] at hview
      obtain ⟨hpins, hmsix, hvfs, hbars, hstreams, hreqs, hchans⟩ := hview
      exact ⟨by rw [hpins], hup, hbit, hmsix, hvfs, hbars, hstreams, hreqs, fun f c => by rw [State.chan, hchans]; rfl, hpages, hbind⟩
    · exact (exec_perstN true s).trans (congrArg Host.Outcome.next (if_neg (ne_true_of_eq_false hlow)))
    · exact (exec_perstN false s).trans (congrArg Host.Outcome.next (if_neg (ne_true_of_eq_false hlow)))
    · exact State.bit_setBit_same _ _ _ _ (by decide)
  case reference => exact fun s n hn haux href => refclkLoss_effect hn haux href
  case config =>
    intro s f op reg value since hup told
    have hexec := (exec_pcieConfigRequest f op reg value since s).trans (when_true hup)
    refine ⟨_, hexec, fun hearly => ?_, fun hlate hop => ⟨fun hf => ⟨configWord f reg, ?_, configWord_id, configWord_class⟩, fun h64 hf => ?_⟩,
      fun hlate hop hf hv => ?_, fun hlate hop hf hr => ?_⟩
    · rw [if_pos hearly]
      exact ⟨⟨rfl, rfl⟩, rfl, rfl⟩
    · obtain rfl := hop
      rw [if_neg (Nat.not_lt.mpr hlate), State.configDone_read hf]
      exact ⟨rfl, rfl⟩
    · obtain rfl := hop
      rw [if_neg (Nat.not_lt.mpr hlate), State.configDone_absent h64 hf]
      exact ⟨rfl, rfl⟩
    · obtain rfl := hop
      obtain rfl := hf
      rw [if_neg (Nat.not_lt.mpr hlate), State.configDone_vfs hv]
      exact ⟨⟨rfl, rfl⟩, rfl⟩
    · obtain rfl := hop
      rw [if_neg (Nat.not_lt.mpr hlate), State.configDone_bar hf hr]
      exact ⟨⟨rfl, rfl⟩, Map.get_set_same _ _ _ _⟩
  case memory =>
    intro s write addr len data stream hup hlen hwrite hread hflow told
    refine ⟨_, pcieMemoryRequest_does hup hlen hwrite hread hflow, fun hnone => ?_, fun f bar o hhit _ => ?_⟩
    · rw [State.hostRequest_nowhere write len data stream hnone]
      exact ⟨rfl, rfl, rfl⟩
    · obtain ⟨hearly, hun, hout⟩ := s.hostRequest_effect write addr len data stream hhit
      refine ⟨hearly, hun, hout, fun hstage hprot h64 hbar hin htile hdev => ?_⟩
      rw [State.hostRequest_aperture hhit write len data stream hstage hprot h64 hbar, State.hostMemory_asks hin htile hdev]
      exact s.hostAsks_effect f write _ len data

end Sys2Proof.Machine
end

section
/-! PROOFS. What the reset and the scrub of a site leave of the site itself, and of the scrubs in progress (R385, R434-R436). -/

namespace Sys2Proof.Machine

/-! ### The registers of a site outside the network (R385) -/

section
variable (s : State) (t : Nat) {a : Nat} (ha : a < 0xC00)
include ha

theorem State.treg_closedAnswer_low (p : Packet) : ((s.countStatus t 2).answer p t 2 []).treg t a = s.treg t a := by
  have hcount : (s.countStatus t 2).treg t a = s.treg t a :=
    s.treg_setTreg_other _ (.inr (by simp only [R.NET_DROP_CLOSED]; omega))
  rw [State.treg_answer_ne _ _ _ _ _ (by simp only [R.NET_COMPL_LOST]; omega) (by simp only [R.NET_STATUS]; omega), hcount]

theorem State.treg_emptyRing_low (q : Nat) : (s.emptyRing t q).treg t a = s.treg t a := by
  unfold State.emptyRing
  extract_lets mine dropped answered
  have hanswered : answered.treg t a = s.treg t a :=
    foldl_leaves (fun u : State => u.treg t a) (fun u v => u.treg_closedAnswer_low t ha v.pkt) mine dropped
  rw [State.treg, State.site_modSite_same, ← hanswered]
  exact answered.treg_setRing_ne t q [] (by simp only [R.NET_Q_STATE]; omega)

/-- R385: the queues, the concord slots and the cores wind down without the registers below the network's, but for TILE_STATE. -/
theorem State.treg_windDown_low (hne : a ≠ R.TILE_STATE) : (s.windDown t).treg t a = s.treg t a := by
  have hconc : ∀ u : State, (u.dropConc t).treg t a = u.treg t a := fun u =>
    foldl_leaves (fun u : State => u.treg t a) (fun u p => by split <;> [rfl; exact u.treg_closedAnswer_low t ha p]) _ u
  have hclose : ∀ u : State, (u.closeQueues t).treg t a = u.treg t a := fun u =>
    foldl_leaves (fun u : State => u.treg t a) (fun u q => by
      split
      · rfl
      · rw [State.queueClose, State.treg_setTfld_ne _ _ _ _ (.inr (by simp only [R.NET_Q_STATE]; omega)), u.treg_emptyRing_low t ha]) _ u
  have hslots : ∀ u : State, (u.concReset t).treg t a = u.treg t a := fun u => by
    unfold State.concReset
    extract_lets v
    have hv : v.treg t a = u.treg t a := u.treg_modSite_same t a rfl
    exact (foldl_leaves (fun u : State => u.treg t a)
      (fun u n => u.treg_setTfld_ne _ _ _ (.inr (by simp only [R.CONC_STATE]; omega))) _ v).trans hv
  rw [State.windDown, State.treg_stopCores_ne _ _ hne, hslots, hclose, hconc]

end

theorem keptByReset_low {a : Nat} (ha : a < 0x100) (h : a ∉ [R.TILE_START, R.TILE_ENTRY_LO, R.TILE_ENTRY_HI, R.TILE_ARG_LO, R.TILE_ARG_HI]) (net : Bool) :
    keptByReset net a = true := by
  rw [keptByReset, if_pos ha]
  simp only [List.contains_eq_mem, decide_eq_false h, Bool.not_false]

section
variable (s : State) (t : Nat) (net : Bool)

theorem State.treg_resetSite {a : Nat} (h : a ≠ R.TILE_RESET) : (s.resetSite t net).treg t a = (s.resetBegin t net).treg t a := by
  rw [State.resetBegin, State.setTbit, State.treg_setTfld_ne _ _ _ _ (.inr h)]

theorem State.beyondCores_resetSite (x : Nat) : (s.resetSite t net).beyondCores x = (s.resetBegin t net).beyondCores x :=
  (State.beyondCores_setTbit _ _ _ _ _ _).symm

theorem State.iftState_resetSite : (s.resetSite t net).iftState t = s.iftState t := by
  rw [State.iftState, State.tfld_congr ((s.treg_resetSite t net (by decide)).trans ((s.treg_resetBegin t net (keptByReset_low (by decide) (by decide) net)
    (by decide) (by decide)).trans (s.treg_windDown_low t (by decide) (by decide)))), State.iftState]

theorem State.qState_resetSite {q : Nat} (hq : q < 64) : (s.resetSite t net).qState t q ≠ 1 := by
  rw [State.qState_congr (s.treg_resetSite t net (queueState_ne q (by decide)).symm)]
  exact s.qState_resetBegin t net hq

theorem State.acc_resetSite : ((s.resetSite t net).site t).acc = [] := by
  obtain ⟨-, -, hacc, -, -⟩ := s.discarded_resetBegin t net
  exact (congrArg Site.acc (s.beyondCores_resetSite t net t) :).trans hacc

theorem State.site_resetSite_other {x : Nat} (h : x ≠ t) : (s.resetSite t net).site x = s.site x := by
  rw [← s.site_resetBegin_other h net, State.resetBegin, State.site_setTbit_other _ _ _ _ h]

end

/-! ### The scrub of a site (R435) -/

/-- R435: the tile registers that a scrub sets to their reset values, besides VIT_SEG_STATE. -/
def wipedRegs : List Nat := [R.TILE_EXC_CAUSE, R.TILE_EXC_PC_LO, R.TILE_EXC_PC_HI, R.TILE_EXC_VAL_LO, R.TILE_EXC_VAL_HI]

/-- R435: a tile register that a scrub keeps. -/
def keptByScrub (a : Nat) : Bool := !wipedRegs.contains a && a != R.VIT_SEG_STATE

/-- R143, R435: what a scrub sets at a site. -/
def Site.wiped (x : Site) : Site :=
  { x with regs := x.regs.filter fun e => keptByScrub e.1, prog := [], vit := [], vitBad := [], segEnd := [], acts := [], writebacks := [], rings := [] }

/-- R435: a concord slot is closed, and all of a site. -/
def State.slotClosed (s : State) (t n : Nat) : State := s.setTfld t (R.CONC_STATE n) 29 28 0
def State.slotsClosed (s : State) (t : Nat) : State := (List.range 16).foldl (fun s n => s.slotClosed t n) s

/-- R435: the scrub of a site is in progress. -/
def State.scrubNoted (s : State) (t : Nat) : State :=
  s.modSec fun x => { x with sites := if x.sites.contains t then x.sites else x.sites ++ [t], waiting := x.waiting.filter (· != t) }

theorem State.scrubBegin_eq (s : State) (t : Nat) :
    s.scrubBegin t = ((((s.resetSite t false).scrubCaches t).modSite t Site.wiped).slotsClosed t).scrubNoted t := rfl

section
variable (s : State) (t : Nat)

theorem State.site_scrubNoted (x : Nat) : (s.scrubNoted t).site x = s.site x := rfl

theorem State.treg_slotsClosed {a : Nat} (h : ∀ n, a ≠ R.CONC_STATE n) : (s.slotsClosed t).treg t a = s.treg t a :=
  foldl_leaves (fun u : State => u.treg t a) (f := fun (u : State) n => u.slotClosed t n) (fun u n => u.treg_setTfld_ne _ _ _ (.inr (h n))) _ s

theorem State.beyondCores_slotsClosed (x : Nat) : (s.slotsClosed t).beyondCores x = s.beyondCores x :=
  foldl_leaves (fun u : State => u.beyondCores x) (f := fun (u : State) n => u.slotClosed t n) (fun u _ => u.beyondCores_setTfld t _ _ _ _ x) _ s

theorem State.site_slotClosed_other (n : Nat) {x : Nat} (h : x ≠ t) : (s.slotClosed t n).site x = s.site x := s.site_modSite_other _ h

theorem State.site_slotsClosed_other {x : Nat} (h : x ≠ t) : (s.slotsClosed t).site x = s.site x :=
  foldl_leaves (f := fun (u : State) n => u.slotClosed t n) (fun u : State => u.site x) (fun u n => u.site_slotClosed_other t n h) _ s

theorem State.treg_scrubCaches {a : Nat} (h : a ≠ R.S_L2_CFG) : (s.scrubCaches t).treg t a = s.treg t a := by
  unfold State.scrubCaches
  dsimp only
  rw [State.setTbit, State.treg_setTfld_ne _ _ _ _ (.inr h), State.treg_setTfld_ne _ _ _ _ (.inr h), State.treg_modSite_same _ _ _ rfl]
  exact foldl_leaves (fun u : State => u.treg t a) (fun u c => u.treg_modCore t c t a _) _ s

theorem State.acc_scrubCaches : ((s.scrubCaches t).site t).acc = (s.site t).acc := by
  have hcores : (cores4.foldl (fun s c => s.modCore t c fun k => { k with cache := .empty }) s).beyondCores t = s.beyondCores t :=
    foldl_leaves (fun u : State => u.beyondCores t) (fun u c => u.beyondCores_modCore t c _ t) _ s
  unfold State.scrubCaches
  dsimp only
  generalize cores4.foldl (fun s c => s.modCore t c fun k => { k with cache := .empty }) s = u at hcores
  have hset (v : State) : (((v.setTfld t R.S_L2_CFG 4 0 0).setTbit t R.S_L2_CFG 17 false).site t).acc = (v.site t).acc :=
    (congrArg Site.acc ((State.beyondCores_setTbit _ _ _ _ _ _).trans (v.beyondCores_setTfld t _ _ _ _ t)) :)
  rw [hset, State.site_modSite_same]
  exact (congrArg Site.acc hcores :)

theorem State.site_scrubCaches_other {x : Nat} (h : x ≠ t) : (s.scrubCaches t).site x = s.site x := by
  unfold State.scrubCaches
  dsimp only
  rw [State.site_setTbit_other _ _ _ _ h, State.setTfld, State.setTreg, State.site_modSite_other _ _ h, State.site_modSite_other _ _ h]
  exact foldl_leaves (fun u : State => u.site x) (fun u c => u.site_modCore_other _ _ h) _ s

theorem State.site_scrubBegin_other {x : Nat} (h : x ≠ t) : (s.scrubBegin t).site x = s.site x := by
  rw [s.scrubBegin_eq, State.site_scrubNoted, State.site_slotsClosed_other _ _ h, State.site_modSite_other _ _ h, State.site_scrubCaches_other _ _ h,
    State.site_resetSite_other _ _ _ h]

/-- R435: the registers that a scrub keeps. -/
theorem State.treg_scrubBegin {a : Nat} (hkept : keptByScrub a = true) (hslot : ∀ n, a ≠ R.CONC_STATE n) (hl2 : a ≠ R.S_L2_CFG) :
    (s.scrubBegin t).treg t a = (s.resetSite t false).treg t a := by
  have hnoted (u : State) : (u.scrubNoted t).treg t a = u.treg t a := rfl
  rw [s.scrubBegin_eq, hnoted, State.treg_slotsClosed _ _ hslot, ← State.treg_scrubCaches (s.resetSite t false) t hl2]
  generalize (s.resetSite t false).scrubCaches t = u
  rw [State.treg, State.site_modSite_same]
  exact (Map.get_filter _ keptByScrub _ a).trans (if_pos hkept)

theorem State.beyondCores_scrubBegin : (s.scrubBegin t).beyondCores t = (((s.resetSite t false).scrubCaches t).modSite t Site.wiped).beyondCores t := by
  have hnoted (u : State) : (u.scrubNoted t).beyondCores t = u.beyondCores t := rfl
  rw [s.scrubBegin_eq, hnoted, State.beyondCores_slotsClosed]

/-- R435: what the scrub of a site has done to the site. -/
def State.Scrubbed (s : State) (t : Nat) : Prop :=
  t ∈ s.sec.sites ∧ (s.site t).vit = [] ∧ (s.site t).prog = [] ∧ (s.site t).acc = [] ∧ ∀ q, q < 64 → s.qState t q ≠ 1

theorem State.sec_scrubBegin : (s.scrubBegin t).sec = (s.scrubNoted t).sec := by
  have hreset : SiteReset s ((((s.resetSite t false).scrubCaches t).modSite t Site.wiped).slotsClosed t) :=
    (((SiteReset.resetSite s t false).trans (.scrubCaches _ t)).trans (.modSite _ t _)).trans (.foldl (fun u _ => .setTfld u _ _ _ _ _) _ _)
  rw [s.scrubBegin_eq]
  have hsec := hreset.view State.sec fun _ _ _ _ _ => rfl
  generalize (((s.resetSite t false).scrubCaches t).modSite t Site.wiped).slotsClosed t = u at hsec
  rw [State.scrubNoted, State.modSec, hsec, State.scrubNoted, State.modSec]

theorem State.mem_scrubNoted : t ∈ (s.scrubNoted t).sec.sites := by
  have heq : (s.scrubNoted t).sec.sites = if s.sec.sites.contains t then s.sec.sites else s.sec.sites ++ [t] := rfl
  rw [heq]
  split
  next h => simpa using h
  next => simp

theorem State.sites_scrubNoted {x : Nat} (h : x ∈ s.sec.sites) : x ∈ (s.scrubNoted t).sec.sites := by
  have heq : (s.scrubNoted t).sec.sites = if s.sec.sites.contains t then s.sec.sites else s.sec.sites ++ [t] := rfl
  rw [heq]
  split
  · exact h
  · exact List.mem_append_left _ h

theorem State.waiting_scrubNoted {x : Nat} (hx : x ≠ t) (h : x ∈ s.sec.waiting) : x ∈ (s.scrubNoted t).sec.waiting :=
  List.mem_filter.mpr ⟨h, bne_iff_ne.mpr hx⟩

theorem State.scrubbed_scrubBegin : (s.scrubBegin t).Scrubbed t := by
  have hsite := s.beyondCores_scrubBegin t
  have hwiped : (((s.resetSite t false).scrubCaches t).modSite t Site.wiped).site t = (((s.resetSite t false).scrubCaches t).site t).wiped :=
    State.site_modSite_same _ _ _
  have hacc : ((s.scrubBegin t).site t).acc = [] := by
    have h : ((s.scrubBegin t).site t).acc = ((((s.resetSite t false).scrubCaches t).modSite t Site.wiped).site t).acc := (congrArg Site.acc hsite :)
    rw [h, hwiped]
    exact (State.acc_scrubCaches _ t).trans (s.acc_resetSite t false)
  refine ⟨?_, ?_, ?_, hacc, fun q hq => ?_⟩
  · rw [s.sec_scrubBegin]
    exact s.mem_scrubNoted t
  · exact (congrArg Site.vit hsite :).trans (congrArg Site.vit hwiped)
  · exact (congrArg Site.prog hsite :).trans (congrArg Site.prog hwiped)
  · have hne (b : Nat) (hb : b < 0x1000) : R.NET_Q_STATE q ≠ b := by simp only [R.NET_Q_STATE]; omega
    have hreg := s.treg_scrubBegin t (a := R.NET_Q_STATE q)
      (by simp [keptByScrub, wipedRegs, hne, R.TILE_EXC_CAUSE, R.TILE_EXC_PC_LO, R.TILE_EXC_PC_HI, R.TILE_EXC_VAL_LO, R.TILE_EXC_VAL_HI, R.VIT_SEG_STATE])
      (fun n => concState_ne_queueState n q) (hne _ (by decide))
    rw [State.qState_congr hreg]
    exact s.qState_resetSite t false hq

theorem State.iftState_scrubBegin : (s.scrubBegin t).iftState t = s.iftState t := by
  have hreg := s.treg_scrubBegin t (a := R.TILE_IFT_STATUS) (by decide) (fun n => by simp only [R.TILE_IFT_STATUS, R.CONC_STATE]; omega) (by decide)
  rw [State.iftState, State.tfld_congr hreg, ← State.iftState, s.iftState_resetSite]

/-- R435: the scrub of one site leaves what the scrub of another did. -/
theorem State.Scrubbed.of_site {s u : State} {t : Nat} (h : s.Scrubbed t) (hsite : u.site t = s.site t) (hmem : t ∈ s.sec.sites → t ∈ u.sec.sites) :
    u.Scrubbed t := by
  obtain ⟨hin, hvit, hprog, hacc, hq⟩ := h
  refine ⟨hmem hin, by rw [hsite, hvit], by rw [hsite, hprog], by rw [hsite, hacc], fun q hlt => ?_⟩
  have hreg : u.treg t (R.NET_Q_STATE q) = s.treg t (R.NET_Q_STATE q) := by rw [State.treg, hsite, State.treg]
  rw [State.qState_congr hreg]
  exact hq q hlt

theorem State.scrubSite_testing {s : State} {t : Nat} (h : s.iftState t = 2) : s.scrubSite t = s.modSec fun x => { x with waiting := x.waiting ++ [t] } :=
  if_pos (beq_iff_eq.mpr h)

theorem State.scrubSite_begins {s : State} {t : Nat} (h : s.iftState t ≠ 2) : s.scrubSite t = s.scrubBegin t := if_neg (mt beq_iff_eq.mp h)

theorem State.site_scrubSite_other {x : Nat} (h : x ≠ t) : (s.scrubSite t).site x = s.site x := by
  by_cases hift : s.iftState t = 2
  · rw [State.scrubSite_testing hift]
    rfl
  · rw [State.scrubSite_begins hift, s.site_scrubBegin_other t h]

theorem State.iftState_scrubSite (x : Nat) : (s.scrubSite t).iftState x = s.iftState x := by
  by_cases hx : x = t
  · subst hx
    by_cases hift : s.iftState x = 2
    · rw [State.scrubSite_testing hift]
      rfl
    · rw [State.scrubSite_begins hift, s.iftState_scrubBegin]
  · rw [State.iftState, State.tfld, State.treg, s.site_scrubSite_other t hx, State.iftState, State.tfld, State.treg]

theorem State.sites_scrubSite {x : Nat} (h : x ∈ s.sec.sites) : x ∈ (s.scrubSite t).sec.sites := by
  by_cases hift : s.iftState t = 2
  · rw [State.scrubSite_testing hift]
    exact h
  · rw [State.scrubSite_begins hift, s.sec_scrubBegin]
    exact s.sites_scrubNoted t h

theorem State.waiting_scrubSite {x : Nat} (hx : s.iftState x = 2) (h : x ∈ s.sec.waiting) : x ∈ (s.scrubSite t).sec.waiting := by
  by_cases hift : s.iftState t = 2
  · rw [State.scrubSite_testing hift]
    exact List.mem_append_left _ h
  · rw [State.scrubSite_begins hift, s.sec_scrubBegin]
    exact s.waiting_scrubNoted t (fun hxt => hift (hxt ▸ hx)) h

/-- R434, R435: every site of a list is scrubbed, or waits for its test to end. -/
theorem State.scrubSites_effect {ts : List Nat} (ht : t ∈ ts) :
    (s.iftState t ≠ 2 → (ts.foldl (fun s t => s.scrubSite t) s).Scrubbed t) ∧
    (s.iftState t = 2 → t ∈ (ts.foldl (fun s t => s.scrubSite t) s).sec.waiting) := by
  obtain ⟨before, after, hsplit⟩ := List.append_of_mem ht
  rw [hsplit, List.foldl_append, List.foldl_cons]
  have hift : (before.foldl (fun s t => s.scrubSite t) s).iftState t = s.iftState t :=
    foldl_leaves (fun u : State => u.iftState t) (fun u x => u.iftState_scrubSite x t) before s
  generalize before.foldl (fun s t => s.scrubSite t) s = u at hift
  refine ⟨fun hne => ?_, fun htest => ?_⟩
  · rw [State.scrubSite_begins (hift ▸ hne)]
    refine (List.foldlRecOn (motive := fun v : State => v.Scrubbed t ∧ v.iftState t ≠ 2) after _
      ⟨u.scrubbed_scrubBegin t, by rw [u.iftState_scrubBegin, hift]; exact hne⟩ fun v hv x _ => ⟨?_, by rw [v.iftState_scrubSite]; exact hv.2⟩).1
    by_cases hx : t = x
    · obtain rfl := hx
      rw [State.scrubSite_begins hv.2]
      exact v.scrubbed_scrubBegin t
    · exact hv.1.of_site (v.site_scrubSite_other x hx) (v.sites_scrubSite x)
  · rw [State.scrubSite_testing (hift.trans htest)]
    have hmem : t ∈ u.sec.waiting ++ [t] := List.mem_append_right _ (List.mem_singleton.mpr rfl)
    have hwait : (u.modSec fun x => { x with waiting := x.waiting ++ [t] }).sec.waiting = u.sec.waiting ++ [t] ∧
        (u.modSec fun x => { x with waiting := x.waiting ++ [t] }).iftState t = u.iftState t := ⟨rfl, rfl⟩
    generalize (u.modSec fun x => { x with waiting := x.waiting ++ [t] }) = w at hwait
    refine (List.foldlRecOn (motive := fun v : State => t ∈ v.sec.waiting ∧ v.iftState t = 2) after _
      ⟨hwait.1 ▸ hmem, hwait.2.trans (hift.trans htest)⟩ fun v hv x _ => ⟨v.waiting_scrubSite x hv.2 hv.1, ?_⟩).1
    rw [v.iftState_scrubSite, hv.2]

/-! ### The memory of a scrub (R435) -/

/-- What a scrub of memory leaves: the sites, and the scrubs of sites in progress. -/
def State.scrubSitesView (s : State) : List (Nat × Site) × List Nat × List Nat := (s.sites, s.sec.sites, s.sec.waiting)

theorem State.zeroStart_effect (u : Nat) : (s.zeroStart u).scrubSitesView = s.scrubSitesView ∧ u ∈ (s.zeroStart u).dram.zeroing ∧
    ∀ v ∈ s.dram.zeroing, v ∈ (s.zeroStart u).dram.zeroing := by
  unfold State.zeroStart
  extract_lets z
  have hview : z.scrubSitesView = s.scrubSitesView := rfl
  have hzero : z.dram.zeroing = if s.dram.zeroing.contains u then s.dram.zeroing else s.dram.zeroing ++ [u] := rfl
  clear_value z
  have hdram : ((z.unitBands u).foldl (fun s b => s.setBit (R.MEM_STK_STATE b.1) 0 true) z).dram = z.dram :=
    foldl_leaves (f := fun (s : State) (b : Nat × Nat) => s.setBit (R.MEM_STK_STATE b.1) 0 true) State.dram (fun _ _ => rfl) _ z
  have hsites : ((z.unitBands u).foldl (fun s b => s.setBit (R.MEM_STK_STATE b.1) 0 true) z).scrubSitesView = z.scrubSitesView :=
    foldl_leaves (f := fun (s : State) (b : Nat × Nat) => s.setBit (R.MEM_STK_STATE b.1) 0 true) State.scrubSitesView (fun _ _ => rfl) _ z
  refine ⟨hsites.trans hview, ?_, fun v hv => ?_⟩
  · rw [hdram, hzero]
    split
    next h => simpa using h
    next => simp
  · rw [hdram, hzero]
    split
    · exact hv
    · exact List.mem_append_left _ hv

/-- R435: the zeroing of every unit of a list begins. -/
theorem State.zeroStarts_effect (units : List Nat) : (units.foldl (fun s u => s.zeroStart u) s).scrubSitesView = s.scrubSitesView ∧
    ∀ i ∈ units, i ∈ (units.foldl (fun s u => s.zeroStart u) s).dram.zeroing :=
  ⟨foldl_leaves State.scrubSitesView (fun u x => (u.zeroStart_effect x).1) units s, fun _ hi =>
    foldl_establishes (P := fun u => _ ∈ u.dram.zeroing) hi (fun u => (u.zeroStart_effect _).2.1) (fun u x hu => (u.zeroStart_effect x).2.2 _ hu) s⟩

theorem State.zeroBlocks_effect (m : Image) (p : Nat) (units : List Nat) : (s.zeroBlocks m p units).scrubSitesView = s.scrubSitesView ∧
    (s.zeroBlocks m p units).dram.zeroing = s.dram.zeroing := by
  have hwrite (u : State) (c : Bool) (stack off a : Nat) : (if c then u.writeBlock stack off a 0 else u).scrubSitesView = u.scrubSitesView ∧
      (if c then u.writeBlock stack off a 0 else u).dram.zeroing = u.dram.zeroing := by
    split
    · exact ⟨rfl, rfl⟩
    · exact ⟨rfl, rfl⟩
  unfold State.zeroBlocks
  refine List.foldlRecOn (motive := fun u : State => u.scrubSitesView = s.scrubSitesView ∧ u.dram.zeroing = s.dram.zeroing) _ _ ⟨rfl, rfl⟩ fun u hu e _ => ?_
  dsimp only
  split
  · exact ⟨(hwrite _ _ _ _ _).1.trans hu.1, (hwrite _ _ _ _ _).2.trans hu.2⟩
  · exact hu

theorem State.openJob_effect (part : Option Nat) (sites units : List Nat) : (s.openJob part sites units).scrubSitesView = s.scrubSitesView ∧
    (s.openJob part sites units).dram = s.dram := by
  unfold State.openJob
  dsimp only
  split
  · exact ⟨rfl, rfl⟩
  · split
    · exact ⟨rfl, rfl⟩
    · exact ⟨rfl, rfl⟩

theorem State.scrubbing_openJob {p : Nat} {sites units : List Nat} (h : sites ++ units ≠ []) : (s.openJob (some p) sites units).scrubbing p = true := by
  have hsome : (sites.isEmpty && units.isEmpty) = false := by
    cases sites with
    | cons => rfl
    | nil =>
      cases units with
      | cons => rfl
      | nil => exact absurd rfl h
  rw [State.openJob, hsome]
  exact State.bit_setBit_same _ _ _ _ (Nat.mod_lt _ (by decide))

end

theorem State.Scrubbed.of_view {s u : State} {t : Nat} (h : s.Scrubbed t) (hview : u.scrubSitesView = s.scrubSitesView) : u.Scrubbed t := by
  simp only [State.scrubSitesView, Prod.mk.injEq] at hview
  obtain ⟨hsites, hsec, -⟩ := hview
  exact h.of_site (by rw [State.site, hsites, State.site]) fun hmem => by rwa [hsec]

end Sys2Proof.Machine
end

section
/-! PROOFS. The in-field test, the polls over the CN, and the scrubs (R390-R393, R434-R436, R443, R444). -/

namespace Sys2Proof.Machine

/-! ### Due and overdue (R390, R393) -/

section
variable (s : State) (t : Nat)

theorem State.iftState_setIft {v : Nat} (hv : v < 4) : (s.setIft t v).iftState t = v :=
  (State.tfld_setTfld_same _ _ _ _ _ _ (by decide) (by decide)).trans (Nat.mod_eq_of_lt hv)

theorem State.overdue_setIft (v : Nat) : (s.setIft t v).overdue t = s.overdue t := State.tbit_setTfld_other _ _ _ _ _ _ _ (by decide) (by decide)

theorem State.site_setIft_other {x : Nat} (v : Nat) (h : x ≠ t) : (s.setIft t v).site x = s.site x := s.site_modSite_other _ h

/-- R390: a due test is noted. -/
def State.dueNoted (s : State) (t : Nat) : State := if s.iftState t == 0 then s.setIft t 1 else s

theorem State.dueNoted_effect : (s.dueNoted t).iftState t = (if s.iftState t = 0 then 1 else s.iftState t) ∧
    ∀ x, x ≠ t → (s.dueNoted t).site x = s.site x := by
  unfold State.dueNoted
  by_cases h : s.iftState t = 0
  · rw [if_pos (by simp [h]), if_pos h]
    exact ⟨s.iftState_setIft t (by decide), fun x hx => s.site_setIft_other t 1 hx⟩
  · rw [if_neg (by simp [h]), if_neg h]
    exact ⟨rfl, fun _ _ => rfl⟩

theorem iftOverdue_does {s : State} {t : Nat} (htest : s.testable t = true) (hup : s.curatorUp = true) (hdue : s.overdueAt t ≤ s.time)
    (hnew : s.overdue t = false) : Does (.iftOverdue t) s (((s.dueNoted t).setTbit t R.TILE_IFT_STATUS 29 true).curFault 0x41 (le 2 t)) :=
  (exec_iftOverdue t s).trans (when_true (by simp [htest, hup, hdue, hnew]))

/-! ### A test begins (R391, R392) -/

/-- R392: the L1 caches of an S-tile are empty, what was dirty in the level below. -/
theorem SiteReset.flushL1 : SiteReset s (s.flushL1 t) := by
  have hlower (u : State) (l : CLine) : SiteReset u (u.lower t l) := by
    unfold State.lower
    split
    · exact modSite u t _
    · exact modSite u t _
  have hsync (u : State) (a : Nat) : SiteReset u (u.syncLine t a) := by
    unfold State.syncLine
    refine foldl (fun v c => ?_) _ u
    split
    next l _ =>
      split
      · exact (hlower v l).trans (modCore _ t c _)
      · exact refl v
    next => exact refl v
  unfold State.flushL1
  split
  · exact (foldl (fun u c => foldl (fun v l => hsync v _) _ u) _ s).trans (foldl (fun u c => modCore u t c _) _ _)
  · exact refl s

/-- R392: the site is in the tile-reset state. -/
def State.testReady (s : State) (t : Nat) : State := ((s.flushL1 t).resetSite t true).modSite t fun x => { x with acts := [] }

/-- R392: the test is in progress. -/
def State.testNoted (s : State) (t : Nat) : State := { s with cur := { s.cur with tests := s.cur.tests ++ [(t, s.time)] } }

theorem State.testBegin_eq : s.testBegin t = ((s.testReady t).setIft t 2).testNoted t := rfl

theorem SiteReset.testReady : SiteReset s (s.testReady t) := ((flushL1 s t).trans (resetSite _ t true)).trans (modSite _ t _)

theorem State.testReady_effect : (∀ c, c < (kindOf t).cores → (s.testReady t).coreState t c = 0 ∧ (s.testReady t).event t c = false) ∧
    (∀ e, ((s.testReady t).site t).queue e = [] ∧ ((s.testReady t).site t).issued e = []) ∧ ((s.testReady t).site t).acc = [] ∧
    ((s.testReady t).site t).acts = [] ∧ ∀ q, q < 64 → (s.testReady t).qState t q ≠ 1 := by
  rw [State.testReady]
  generalize s.flushL1 t = u
  have hreg (a : Nat) : ((u.resetSite t true).modSite t fun x => { x with acts := [] }).treg t a = (u.resetSite t true).treg t a :=
    State.treg_modSite_same _ _ _ rfl
  have hsite : ((u.resetSite t true).modSite t fun x => { x with acts := [] }).site t = { (u.resetSite t true).site t with acts := [] } :=
    State.site_modSite_same _ _ _
  have hstate := (hreg R.TILE_STATE).trans (u.treg_resetSite t true (by decide))
  obtain ⟨hengines, -, -, -, -⟩ := u.discarded_resetBegin t true
  have hbeyond := u.beyondCores_resetSite t true t
  refine ⟨fun c hc => ?_, fun e => ?_, ?_, ?_, fun q hq => ?_⟩
  · have hc4 : c < 4 := Nat.lt_of_lt_of_le hc (by cases kindOf t <;> decide)
    refine ⟨(State.coreState_congr hstate c).trans ((u.coreState_resetBegin t true hc4).trans (if_pos hc)), ?_⟩
    rw [State.event, State.tbit, hstate]
    exact u.event_resetBegin t true hc4
  · rw [hsite]
    exact ⟨(queue_of_beyondCores hbeyond e).trans (hengines e).1, (issued_of_beyondCores hbeyond e).trans (hengines e).2⟩
  · rw [hsite]
    exact u.acc_resetSite t true
  · rw [hsite]
  · rw [State.qState_congr (hreg _)]
    exact u.qState_resetSite t true hq

/-- R391, R392: what the beginning of a test leaves. -/
theorem State.testBegin_effect : (s.testBegin t).iftState t = 2 ∧ (s.testBegin t).cur.tests = s.cur.tests ++ [(t, s.time)] ∧
    (∀ c, c < (kindOf t).cores → (s.testBegin t).coreState t c = 0 ∧ (s.testBegin t).event t c = false) ∧
    (∀ e, ((s.testBegin t).site t).queue e = [] ∧ ((s.testBegin t).site t).issued e = []) ∧ ((s.testBegin t).site t).acc = [] ∧
    ((s.testBegin t).site t).acts = [] ∧ ∀ q, q < 64 → (s.testBegin t).qState t q ≠ 1 := by
  have hready := SiteReset.testReady s t
  have hcur : (s.testReady t).cur = s.cur := hready.view State.cur fun _ _ _ _ _ => rfl
  have htime : (s.testReady t).time = s.time := hready.view State.time fun _ _ _ _ _ => rfl
  obtain ⟨hcores, hengines, hacc, hacts, hqueues⟩ := s.testReady_effect t
  rw [s.testBegin_eq]
  generalize s.testReady t = v at hcur htime hcores hengines hacc hacts hqueues
  have hnoted (u : State) (x : Nat) : (u.testNoted t).site x = u.site x ∧ (u.testNoted t).cur.tests = u.cur.tests ++ [(t, u.time)] := ⟨rfl, rfl⟩
  have hreg {a : Nat} (ha : a ≠ R.TILE_IFT_STATUS) : ((v.setIft t 2).testNoted t).treg t a = v.treg t a := by
    rw [State.treg, (hnoted _ _).1, ← State.treg, State.setIft, State.treg_setTfld_ne _ _ _ _ (.inr ha)]
  have hbeyond : ((v.setIft t 2).testNoted t).beyondCores t = v.beyondCores t := by
    rw [State.beyondCores_of_site (hnoted _ _).1, State.setIft, State.beyondCores_setTfld]
  have hset : (v.setIft t 2).cur = v.cur ∧ (v.setIft t 2).time = v.time := ⟨rfl, rfl⟩
  refine ⟨?_, ?_, fun c hc => ⟨?_, ?_⟩, fun e => ⟨?_, ?_⟩, (congrArg Site.acc hbeyond :).trans hacc, (congrArg Site.acts hbeyond :).trans hacts,
    fun q hq => ?_⟩
  · rw [State.iftState, State.tfld, State.treg, (hnoted _ _).1]
    exact v.iftState_setIft t (by decide)
  · rw [(hnoted _ t).2, hset.1, hset.2, hcur, htime]
  · exact (State.coreState_congr (hreg (by decide)) c).trans (hcores c hc).1
  · rw [State.event, State.tbit, hreg (by decide)]
    exact (hcores c hc).2
  · exact (queue_of_beyondCores hbeyond e).trans (hengines e).1
  · exact (issued_of_beyondCores hbeyond e).trans (hengines e).2
  · rw [State.qState_congr (hreg (queueState_ne q (by decide)).symm)]
    exact hqueues q hq

/-! ### A test ends (R392) -/

/-- R392: the test is forgotten, and the site is idle. -/
def State.testCleared (s : State) (t : Nat) : State :=
  ({ s with cur := { s.cur with tests := s.cur.tests.filter fun e => e.1 != t, testRetry := s.cur.testRetry.filter (· != t) } }).setIft t 0

theorem State.testOver_eq : s.testOver t = if (s.testCleared t).sec.waiting.contains t then (s.testCleared t).scrubBegin t else s.testCleared t := rfl

theorem State.testCleared_effect : (s.testCleared t).iftState t = 0 ∧ (∀ e ∈ (s.testCleared t).cur.tests, e.1 ≠ t) ∧ (s.testCleared t).fab = s.fab :=
  ⟨State.iftState_setIft _ t (by decide), fun _ he => bne_iff_ne.mp (List.mem_filter.mp he).2, rfl⟩

/-- R392: what the end of a test leaves. -/
theorem State.testOver_effect : (s.testOver t).iftState t = 0 ∧ (∀ e ∈ (s.testOver t).cur.tests, e.1 ≠ t) ∧ (s.testOver t).fab = s.fab := by
  obtain ⟨hift, htests, hfab⟩ := s.testCleared_effect t
  rw [s.testOver_eq]
  generalize s.testCleared t = v at hift htests hfab
  split
  · have hcur : (v.scrubBegin t).cur = v.cur := (SiteWork.scrubBegin v t).view State.cur fun _ _ _ _ _ _ _ => rfl
    exact ⟨(v.iftState_scrubBegin t).trans hift, hcur ▸ htests, (fab_of_fabric (v.scrubBegin_fabric t)).trans hfab⟩
  · exact ⟨hift, htests, hfab⟩

theorem State.partOf_of_fab {s u : State} (h : u.fab = s.fab) (t : Nat) : u.partOf t = s.partOf t := by rw [State.partOf, h, State.partOf]

/-- R390: the time of the test, and overdue, are noted at a site. -/
theorem State.passed_effect (begun : Nat) : let u := (s.tested t begun).setTbit t R.TILE_IFT_STATUS 29 false
    u.iftState t = s.iftState t ∧ u.overdue t = false ∧ u.treg64 t R.TILE_IFT_LAST_LO = begun % 2 ^ 64 ∧ u.cur = s.cur := by
  have hreg (v : State) {a : Nat} (ha : a ≠ R.TILE_IFT_STATUS) : (v.setTbit t R.TILE_IFT_STATUS 29 false).treg t a = v.treg t a :=
    v.treg_setTfld_ne _ _ _ (.inr ha)
  refine ⟨?_, State.tbit_setTbit_same _ _ _ _ _ (by decide), ?_, rfl⟩
  · rw [State.iftState, State.tfld_setTbit_other _ _ _ _ _ _ _ (by decide) (by decide), State.tested,
      State.tfld_congr (State.treg_setTreg64_ne _ _ _ (by decide) (by decide)), State.iftState]
  · rw [State.treg64, hreg _ (by decide), hreg _ (by decide), ← State.treg64]
    exact s.treg64_tested_same t begun

/-- R392, R442, R443: Curator records that a site died. -/
def State.deathRecorded (s : State) (part : Option Nat) (detail : List Nat) : State :=
  match part with
  | some p => (s.curFault 0x08 detail).partFail p 0x08
  | none => s.curFault 0x08 detail

theorem State.deathRecorded_effect (part : Option Nat) (detail : List Nat) : (part = none → s.deathRecorded part detail = s.curFault 0x08 detail) ∧
    ∀ p, part = some p → s.deathRecorded part detail = (s.curFault 0x08 detail).partFail p 0x08 := by
  refine ⟨fun h => ?_, fun p h => ?_⟩
  · rw [h, State.deathRecorded]
  · rw [h, State.deathRecorded]

theorem State.testFails_eq : s.testFails t = ((s.curFault 0x40 (le 2 t)).markSiteDead t 2 2 (s.curFault 0x40 (le 2 t)).time).deathRecorded (s.partOf t)
    (le 2 t ++ le 1 2) := by
  unfold State.testFails
  generalize s.partOf t = part
  cases part with
  | none => rfl
  | some p => rfl

theorem State.cnLost_eq : s.cnLost t = ((s.modSec fun x => { x with silent := x.silent.filter fun e => e.1 != t }).markSiteDead t 3 3 s.time).deathRecorded
    (s.partOf t) (le 2 t ++ le 1 1) := by
  unfold State.cnLost
  generalize s.partOf t = part
  cases part with
  | none => rfl
  | some p => rfl

/-- R392: the site that failed its test is dead. -/
theorem State.failed_effect : let x := (s.curFault 0x40 (le 2 t)).markSiteDead t 2 2 (s.curFault 0x40 (le 2 t)).time
    x.siteStatus t = 1 ∧ x.iftState t = s.iftState t ∧ x.cur = s.cur := by
  have hreports := Reports.curFault s 0x40 (le 2 t)
  intro x
  have hall : Reports s x := hreports.trans (.markSiteDead _ _ _ _ _)
  refine ⟨State.dead_markSiteDead_same _ t _ _ _, ?_, hall.view State.cur fun _ _ _ _ _ => rfl⟩
  have hsite : x.site t = s.site t := hall.view (fun u => u.site t) fun _ _ _ _ _ => rfl
  rw [State.iftState, State.tfld, State.treg, hsite, State.iftState, State.tfld, State.treg]

/-! ### The spare column (R392) -/

theorem repairs_mkEntry {n reason status kind : Nat} (hr : reason < 4) (hs : status < 4) (hk : kind < 16) : mkEntry n reason status kind / 256 = min 255 n := by
  unfold mkEntry
  omega

theorem entryStatus_mkEntry {n reason status kind : Nat} (hs : status < 4) (hk : kind < 16) :
    entryStatus (mkEntry n reason status kind) = status := by
  simp only [entryStatus, bitsOf, mkEntry, Nat.shiftRight_eq_div_pow]
  omega

theorem bitsOf_two_lt (e lo : Nat) : bitsOf e (lo + 1) lo < 4 := by
  simp only [bitsOf, Nat.add_sub_cancel_left]
  exact Nat.mod_lt _ (by decide)

/-- R36: a repair is counted. -/
theorem State.countRepair_effect (origin : Nat) : (s.countRepair t origin).cat.tables.site t / 256 = min 255 (s.cat.tables.site t / 256 + 1) ∧
    (s.countRepair t origin).siteStatus t = s.siteStatus t := by
  have hkind : s.cat.tables.site t % 16 < 16 := Nat.mod_lt _ (by decide)
  rw [State.siteStatus, State.countRepair, State.site_setEntry, if_pos rfl]
  exact ⟨repairs_mkEntry (bitsOf_two_lt _ 6) (bitsOf_two_lt _ 4) hkind, entryStatus_mkEntry (bitsOf_two_lt _ 4) hkind⟩

theorem State.repairs_markDegraded {reason : Nat} (hr : reason < 4) (origin detail : Nat) (h : s.cat.tables.site t / 256 ≤ 255) :
    (s.markDegraded t reason origin detail).cat.tables.site t / 256 = s.cat.tables.site t / 256 := by
  unfold State.markDegraded
  split
  · rw [State.site_setEntry, if_pos rfl, withStatus, repairs_mkEntry hr (by decide) (Nat.mod_lt _ (by decide))]
    omega
  · rfl
  · rfl

theorem State.cur_countRepair (origin : Nat) : (s.countRepair t origin).cur = s.cur :=
  (Reports.setEntry s t _ origin 0).view State.cur fun _ _ _ _ _ => rfl

theorem State.cur_markDegraded (reason origin detail : Nat) : (s.markDegraded t reason origin detail).cur = s.cur := by
  unfold State.markDegraded
  split
  · exact (Reports.setEntry s t _ origin detail).view State.cur fun _ _ _ _ _ => rfl
  · rfl
  · rfl

/-- R392: the spare column of a site is in use. -/
theorem State.useSpare_effect (origin : Nat) : (s.useSpare t origin).cat.tables.site t / 256 = min 255 (s.cat.tables.site t / 256 + 1) ∧
    (s.siteStatus t = 0 → (s.useSpare t origin).siteStatus t = 2) ∧ (s.useSpare t origin).cur = s.cur := by
  obtain ⟨hcount, hstatus⟩ := s.countRepair_effect t origin
  have hcur := s.cur_countRepair t origin
  rw [State.useSpare]
  generalize s.countRepair t origin = v at hcount hstatus hcur
  refine ⟨?_, fun h => v.siteStatus_markDegraded t 2 origin 0 (hstatus.trans h), (v.cur_markDegraded t 2 origin 0).trans hcur⟩
  rw [v.repairs_markDegraded t (by decide) origin 0 (by rw [hcount]; omega), hcount]

end

/-- R392: the test of the site begins again. -/
def State.testRetried (s : State) (t : Nat) : State :=
  { s with cur := { s.cur with tests := s.cur.tests.map fun x => if x.1 == t then (t, s.time) else x, testRetry := s.cur.testRetry ++ [t] } }

section
variable {s : State} {t begun : Nat} (hfind : s.cur.tests.find? (fun e => e.1 == t) = some (t, begun))
include hfind

theorem iftEnd_passes : Does (.iftEnd t 0) s (((s.testOver t).tested t begun).setTbit t R.TILE_IFT_STATUS 29 false) := by
  have hexec := exec_iftEnd t 0 s
  rw [execIftEnd, hfind] at hexec
  exact hexec

theorem iftEnd_repairs (hkind : kindOf t = .m) (hretry : t ∉ s.cur.testRetry) : Does (.iftEnd t 1) s ((s.testRetried t).useSpare t 2) := by
  have hexec := exec_iftEnd t 1 s
  rw [execIftEnd, hfind] at hexec
  exact hexec.trans ((if_neg (by decide)).trans (if_pos (by simp [hkind, hretry])))

theorem iftEnd_fails {x : Nat} (hx : 2 ≤ x ∨ x = 1 ∧ (kindOf t ≠ .m ∨ t ∈ s.cur.testRetry)) : Does (.iftEnd t x) s ((s.testOver t).testFails t) := by
  have hexec := exec_iftEnd t x s
  rw [execIftEnd, hfind] at hexec
  have h0 : (x == 0) = false := by
    rw [beq_eq_false_iff_ne]
    omega
  have h1 : (x == 1 && kindOf t = .m && !s.cur.testRetry.contains t) = false := by
    rcases hx with hx | ⟨hx, hk | hm⟩
    · have : (x == 1) = false := by
        rw [beq_eq_false_iff_ne]
        omega
      simp [this]
    · simp [hk]
    · simp [hm]
  exact hexec.trans ((if_neg (by simp [h0])).trans (if_neg (by simp only [h1]; decide)))

theorem State.retried_mem : (t, s.time) ∈ (s.testRetried t).cur.tests := by
  refine List.mem_map.mpr ⟨(t, begun), List.mem_of_find?_eq_some hfind, ?_⟩
  exact if_pos (beq_iff_eq.mpr rfl)

end

/-! ### The records of a site after its scrub (R435) -/

section
variable (s : State) (t : Nat)

/-- R279, R435: a queue takes its record with an accession. -/
theorem State.installQueue_effect (q acc : Nat) : (s.installQueue t q (some acc)).qState t q = qRecState (s.queueRec t q) ∧
    (s.installQueue t q (some acc)).qAcc t q = if qRecState (s.queueRec t q) = 0 then 0 else acc % 1024 := by
  have hlt : qRecState (s.queueRec t q) < 4 := bitsOf_two_lt _ 62
  have hreg : (s.installQueue t q (some acc)).treg t (R.NET_Q_STATE q) =
      BitVec.ofNat 32 (2 ^ 30 * qRecState (s.queueRec t q) + 2 ^ 20 * ((if qRecState (s.queueRec t q) == 0 then 0 else acc) % 1024)) := by
    rw [State.installQueue, State.treg_setTreg_ne _ _ _ (queueDrop_ne q q), State.treg_setTreg_same]
  generalize qRecState (s.queueRec t q) = r at hlt hreg
  have hacc : (if r == 0 then 0 else acc) % 1024 = if r = 0 then 0 else acc % 1024 := by
    by_cases h : r = 0
    · simp [h]
    · simp [h]
  rw [hacc] at hreg
  have hacclt : (if r = 0 then 0 else acc % 1024) < 1024 := by
    split
    · decide
    · exact Nat.mod_lt _ (by decide)
  rw [State.qState, State.qAcc, State.tfld, State.tfld, hreg]
  generalize (if r = 0 then 0 else acc % 1024) = a at hacclt
  simp only [getBits, BitVec.toNat_ofNat, Nat.shiftRight_eq_div_pow]
  omega

theorem State.treg_installQueue_other {q r : Nat} (h : r ≠ q) (acc : Option Nat) :
    (s.installQueue t q acc).treg t (R.NET_Q_STATE r) = s.treg t (R.NET_Q_STATE r) := by
  unfold State.installQueue
  dsimp only
  rw [State.treg_setTreg_ne _ _ _ (queueDrop_ne q r), State.treg_setTreg_ne _ _ _ (queueState_injective h),
    State.treg_emptyRing _ _ _ (by simp only [R.NET_Q_STATE]; omega) (queueState_injective h)]

theorem State.vit_installQueue (q : Nat) (acc : Option Nat) : ((s.installQueue t q acc).site t).vit = (s.site t).vit := by
  unfold State.installQueue
  dsimp only
  rw [vit_of_beyondCores _ t (State.beyondCores_setTreg _ _ _ _ _), vit_of_beyondCores _ t (State.beyondCores_setTreg _ _ _ _ _),
    s.vit_emptyRing t q]

theorem State.sec_installQueue (q : Nat) (acc : Option Nat) : (s.installQueue t q acc).sec = s.sec :=
  (((SiteReset.emptyRing s t q).trans (.setTreg _ _ _ _)).trans (.setTreg _ _ _ _)).view State.sec fun _ _ _ _ _ => rfl

/-- R292, R312: a slot takes its record: registers of the slot alone. -/
theorem State.installSlot_leaves (m : Image) (n : Nat) (acc : Option Nat) (hn : n < 16) :
    (∀ q, (s.installSlot m t n acc).treg t (R.NET_Q_STATE q) = s.treg t (R.NET_Q_STATE q)) ∧
      ((s.installSlot m t n acc).site t).vit = (s.site t).vit ∧ (s.installSlot m t n acc).sec = s.sec := by
  have hheld (u : State) (f : List (Nat × BitVec 32) → List (Nat × BitVec 32)) :
      ((u.modSite t fun x => { x with loHeld := f x.loHeld }).site t).vit = (u.site t).vit := by rw [State.site_modSite_same]
  unfold State.installSlot
  dsimp only
  refine ⟨fun q => ?_, ?_, ?_⟩
  · rw [State.treg_setTreg_ne _ _ _ (by simp only [R.NET_Q_STATE, R.CONC_STATE]; omega),
      State.treg_setTreg_ne _ _ _ (by simp only [R.NET_Q_STATE, R.CONC_NOTIFY]; omega),
      State.treg_setTreg64_ne _ _ _ (by simp only [R.NET_Q_STATE, R.CONC_DEST_LO]; omega) (by simp only [R.NET_Q_STATE, R.CONC_DEST_LO]; omega),
      State.treg_modSite_same _ _ _ rfl, State.treg_setTreg_ne _ _ _ (by simp only [R.NET_Q_STATE, R.CONC_ALLOC]; omega),
      State.treg_setTreg_ne _ _ _ (by simp only [R.NET_Q_STATE, R.CONC_CFG]; omega)]
  · rw [vit_of_beyondCores _ t (State.beyondCores_setTreg _ _ _ _ _), vit_of_beyondCores _ t (State.beyondCores_setTreg _ _ _ _ _), State.setTreg64,
      vit_of_beyondCores _ t (State.beyondCores_setTreg _ _ _ _ _), vit_of_beyondCores _ t (State.beyondCores_setTreg _ _ _ _ _), hheld,
      vit_of_beyondCores _ t (State.beyondCores_setTreg _ _ _ _ _), vit_of_beyondCores _ t (State.beyondCores_setTreg _ _ _ _ _)]
  · exact ((((((SiteReset.setTreg _ _ _ _).trans (.setTreg _ _ _ _)).trans (.modSite _ _ _)).trans (.setTreg _ _ _ _)).trans (.setTreg _ _ _ _)).trans
      ((SiteReset.setTreg _ _ _ _).trans (.setTreg _ _ _ _))).view State.sec fun _ _ _ _ _ => rfl

/-- R435: the queues of a site take their records, each with the accession one above its own. -/
def State.queuesInstalled (s : State) (t : Nat) : State := (List.range 64).foldl (fun s q => s.installQueue t q (some (s.qAcc t q + 1))) s

theorem State.queuesInstalled_effect : (s.queuesInstalled t).fab = s.fab ∧ (s.queuesInstalled t).sec = s.sec ∧
    ((s.queuesInstalled t).site t).vit = (s.site t).vit ∧ ∀ q, q < 64 → (s.queuesInstalled t).qState t q = qRecState (s.queueRec t q) ∧
      (s.queuesInstalled t).qAcc t q = if qRecState (s.queueRec t q) = 0 then 0 else (s.qAcc t q + 1) % 1024 := by
  have hfab (l : List Nat) (u : State) : (l.foldl (fun s q => s.installQueue t q (some (s.qAcc t q + 1))) u).fab = u.fab :=
    foldl_leaves (f := fun (s : State) q => s.installQueue t q (some (s.qAcc t q + 1))) State.fab (fun v q => v.installQueue_fab t q _) l u
  refine ⟨hfab _ s, foldl_leaves (f := fun (s : State) q => s.installQueue t q (some (s.qAcc t q + 1))) State.sec (fun u q => u.sec_installQueue t q _) _ s,
    foldl_leaves (f := fun (s : State) q => s.installQueue t q (some (s.qAcc t q + 1))) (fun u : State => (u.site t).vit) (fun u q => u.vit_installQueue t q _) _ s,
    fun q hq => ?_⟩
  obtain ⟨before, after, hsplit⟩ := List.append_of_mem (List.mem_range.mpr hq)
  have hnodup := List.nodup_middle.mp (hsplit ▸ List.nodup_range (n := 64))
  rw [List.nodup_cons, List.mem_append, not_or] at hnodup
  obtain ⟨⟨hbefore, hafter⟩, -⟩ := hnodup
  have hother {l : List Nat} (hl : q ∉ l) (u : State) :
      (l.foldl (fun s q => s.installQueue t q (some (s.qAcc t q + 1))) u).treg t (R.NET_Q_STATE q) = u.treg t (R.NET_Q_STATE q) :=
    List.foldlRecOn (motive := fun v : State => v.treg t (R.NET_Q_STATE q) = u.treg t (R.NET_Q_STATE q)) l _ rfl fun v hv r hr =>
      (v.treg_installQueue_other t (fun h => hl (by rwa [h])) _).trans hv
  rw [State.queuesInstalled, hsplit, List.foldl_append, List.foldl_cons]
  have hfab' := hfab before s
  have hreg := hother hbefore s
  generalize before.foldl (fun s q => s.installQueue t q (some (s.qAcc t q + 1))) s = u at hfab' hreg
  obtain ⟨hstate, hacc⟩ := u.installQueue_effect t q (u.qAcc t q + 1)
  have huacc : u.qAcc t q = s.qAcc t q := State.tfld_congr hreg 29 20
  rw [State.queueRec_of_fab hfab', huacc] at hacc
  rw [State.queueRec_of_fab hfab'] at hstate
  rw [huacc] at hstate ⊢
  exact ⟨(State.qState_congr (hother hafter _)).trans hstate, (State.tfld_congr (hother hafter _) 29 20).trans hacc⟩

/-- R292, R435: the concord slots of a site take their records. -/
def State.slotsInstalled (s : State) (m : Image) (t : Nat) : State :=
  if kindOf t = .m || kindOf t = .v then (List.range 16).foldl (fun s n => s.installSlot m t n (some (s.concAcc t n + 1))) s else s

theorem State.slotsInstalled_leaves (m : Image) : (∀ q, (s.slotsInstalled m t).treg t (R.NET_Q_STATE q) = s.treg t (R.NET_Q_STATE q)) ∧
    ((s.slotsInstalled m t).site t).vit = (s.site t).vit ∧ (s.slotsInstalled m t).sec = s.sec := by
  unfold State.slotsInstalled
  split
  · refine List.foldlRecOn (motive := fun u : State => (∀ q, u.treg t (R.NET_Q_STATE q) = s.treg t (R.NET_Q_STATE q)) ∧
      (u.site t).vit = (s.site t).vit ∧ u.sec = s.sec) _ _ ⟨fun _ => rfl, rfl, rfl⟩ fun u hu n hn => ?_
    obtain ⟨hreg, hvit, hsec⟩ := u.installSlot_leaves t m n (some (u.concAcc t n + 1)) (List.mem_range.mp hn)
    exact ⟨fun q => (hreg q).trans (hu.1 q), hvit.trans hu.2.1, hsec.trans hu.2.2⟩
  · exact ⟨fun _ => rfl, rfl, rfl⟩

theorem State.reinstallSite_cases : s.reinstallSite t = s.queuesInstalled t ∨ ∃ m, s.reinstallSite t = (s.queuesInstalled t).slotsInstalled m t := by
  unfold State.reinstallSite
  dsimp only
  rw [← State.queuesInstalled]
  split
  next m _ => exact .inr ⟨m, rfl⟩
  next => exact .inl rfl

/-- R435: what the end of a site's scrub leaves at the site. -/
theorem State.reinstallSite_effect : (s.reinstallSite t).sec = s.sec ∧ ((s.reinstallSite t).site t).vit = (s.site t).vit ∧
    ∀ q, q < 64 → (s.reinstallSite t).qState t q = qRecState (s.queueRec t q) ∧
      (s.reinstallSite t).qAcc t q = if qRecState (s.queueRec t q) = 0 then 0 else (s.qAcc t q + 1) % 1024 := by
  obtain ⟨-, hsec, hvit, hqueues⟩ := s.queuesInstalled_effect t
  rcases s.reinstallSite_cases t with h | ⟨m, h⟩
  · rw [h]
    exact ⟨hsec, hvit, hqueues⟩
  · obtain ⟨hreg, hvit', hsec'⟩ := (s.queuesInstalled t).slotsInstalled_leaves t m
    rw [h]
    refine ⟨hsec'.trans hsec, hvit'.trans hvit, fun q hq => ?_⟩
    rw [State.qState_congr (hreg q), State.qAcc, State.tfld_congr (hreg q), ← State.qAcc]
    exact hqueues q hq

end

end Sys2Proof.Machine
end

section
/-! PROOFS. The commands of the in-field test and of the scrubs (R390-R393, R434-R436, R443, R444). -/

namespace Sys2Proof.Machine

/-! ### The end of a scrub (R418, R436) -/

/-- R418: the end of a partition's scrub makes a TDI that waited CONFIG_UNLOCKED. -/
def State.tdiUnlocks (s : State) (p k : Nat) : State :=
  if s.fld (R.HST_VF_BIND k) 7 0 == p then
    let s := s.modHst fun h => { h with unlocking := h.unlocking.filter (· != k) }
    if s.bit (R.HST_VF_BIND k) 31 then s.setTdi k 0 else s.setReg (R.HST_VF_BIND k) 0
  else s

/-- R436: a partition's windows take their records. -/
def State.windowInstalled (s : State) (w : Nat) : State := s.installWindow w (some ((s.winLast w).2 + 1))

theorem State.jobEnd_eq (s : State) (p : Nat) : s.jobEnd p =
    let u := ((s.setBit (R.SEC_SCRUBBING (p / 32)) (p % 32) false).windowsOf p).foldl (fun s w => s.windowInstalled w)
      (s.setBit (R.SEC_SCRUBBING (p / 32)) (p % 32) false)
    u.hst.unlocking.foldl (fun s k => s.tdiUnlocks p k) u := rfl

section
variable (s : State)

theorem State.bit_setFld_zero {a b i hi lo : Nat} (hlo : lo ≤ hi) (hhi : hi < 32) (h : s.bit b i = false) : (s.setFld a hi lo 0).bit b i = false := by
  by_cases hab : b = a
  · subst hab
    by_cases hi' : lo ≤ i ∧ i ≤ hi
    · rw [State.bit_setFld_in _ _ _ _ _ _ hi'.1 hi'.2 hhi, Nat.zero_testBit]
    · rwa [State.bit_setFld_other _ _ _ _ _ _ (by omega) hlo]
  · rwa [State.bit_setFld_ne _ _ _ _ _ hab]

theorem State.bit_setReg_zero {a b i : Nat} (h : s.bit b i = false) : (s.setReg a 0).bit b i = false := by
  by_cases hab : b = a
  · rw [State.bit, hab, State.reg_setReg_same]
    exact BitVec.getLsbD_zero
  · rwa [State.bit_setReg_ne _ _ _ hab]

/-- R418: the TDIs only clear bits of the device registers. -/
theorem State.tdiUnlocks_effect (p k : Nat) {b i : Nat} (h : s.bit b i = false) : (s.tdiUnlocks p k).bit b i = false ∧ (s.tdiUnlocks p k).sec = s.sec := by
  have hmod (f : Hst → Hst) : (s.modHst f).bit b i = s.bit b i := rfl
  unfold State.tdiUnlocks
  split
  · dsimp only
    split
    · exact ⟨State.bit_setFld_zero _ (by decide) (by decide) ((hmod _).trans h), rfl⟩
    · exact ⟨State.bit_setReg_zero _ ((hmod _).trans h), rfl⟩
  · exact ⟨h, rfl⟩

theorem State.windowInstalled_leaves (w : Nat) : (s.windowInstalled w).regs = s.regs ∧ (s.windowInstalled w).sec = s.sec := by
  have hfold (l : List WinCmd) (u : State) : (l.foldl (fun s c => s.setTbit c.tile R.NET_WIN_STATUS 31 false) u).regs = u.regs ∧
      (l.foldl (fun s c => s.setTbit c.tile R.NET_WIN_STATUS 31 false) u).sec = u.sec :=
    ⟨foldl_leaves (f := fun (s : State) (c : WinCmd) => s.setTbit c.tile R.NET_WIN_STATUS 31 false) State.regs (fun _ _ => rfl) l u,
      foldl_leaves (f := fun (s : State) (c : WinCmd) => s.setTbit c.tile R.NET_WIN_STATUS 31 false) State.sec (fun _ _ => rfl) l u⟩
  exact hfold (s.net.winCmds.filter fun c => c.win == w) s

/-- R436: the end of a partition's scrub. -/
theorem State.jobEnd_effect (p : Nat) : (s.jobEnd p).scrubbing p = false ∧ (s.jobEnd p).sec = s.sec := by
  have hbit : (s.setBit (R.SEC_SCRUBBING (p / 32)) (p % 32) false).scrubbing p = false := State.bit_setBit_same _ _ _ _ (Nat.mod_lt _ (by decide))
  have hsec : (s.setBit (R.SEC_SCRUBBING (p / 32)) (p % 32) false).sec = s.sec := rfl
  rw [s.jobEnd_eq]
  generalize s.setBit (R.SEC_SCRUBBING (p / 32)) (p % 32) false = u at hbit hsec
  have hregs : ((u.windowsOf p).foldl (fun s w => s.windowInstalled w) u).regs = u.regs := foldl_leaves State.regs (fun v w => (v.windowInstalled_leaves w).1) _ u
  have hsec' : ((u.windowsOf p).foldl (fun s w => s.windowInstalled w) u).sec = u.sec := foldl_leaves State.sec (fun v w => (v.windowInstalled_leaves w).2) _ u
  generalize (u.windowsOf p).foldl (fun s w => s.windowInstalled w) u = v at hregs hsec'
  have hv : v.scrubbing p = false := (State.bit_of_reg (State.reg_of_regs hregs _) _).trans hbit
  dsimp only
  refine List.foldlRecOn (motive := fun x : State => x.scrubbing p = false ∧ x.sec = s.sec) _ _ ⟨hv, hsec'.trans hsec⟩ fun x hx k _ => ?_
  obtain ⟨hbit', hsec''⟩ := x.tdiUnlocks_effect p k hx.1
  exact ⟨hbit', hsec''.trans hx.2⟩

/-- R436: a scrub is forgotten. -/
def State.jobGone (s : State) (j : ScrubJob) : State := s.modSec fun x => { x with jobs := x.jobs.erase j }

/-- R436: the last site and unit of a scrub have finished. -/
def State.jobOver (s : State) (p : Nat) (j : ScrubJob) : State :=
  match (if p == 255 then none else some p : Option Nat) with
  | some q => if (s.jobGone j).sec.jobs.any fun j => j.part == (if p == 255 then none else some p) then s.jobGone j else (s.jobGone j).jobEnd q
  | none => s.jobGone j

theorem scrubDone_does {s : State} {p : Nat} {j : ScrubJob} (hfind : s.sec.jobs.find? (fun j => j.part == if p == 255 then none else some p) = some j)
    (hdone : s.jobDone j = true) : Does (.scrubDone p) s ((s.jobOver p j).fault 0x51 (s.jobOver p j).curatorSource (if p == 255 then none else some p)
      (le 2 j.nSites ++ le 2 j.nUnits ++ le 4 ((s.time - j.since) / 1000))) := by
  have hexec := exec_scrubDone p s
  rw [execScrubDone] at hexec
  dsimp only at hexec
  rw [hfind] at hexec
  exact hexec.trans (when_true hdone)

theorem State.jobOver_effect (p : Nat) (j : ScrubJob) : (s.jobOver p j).sec.jobs = s.sec.jobs.erase j ∧
    (p ≠ 255 → (∀ k ∈ s.sec.jobs.erase j, k.part ≠ some p) → (s.jobOver p j).scrubbing p = false) := by
  have hgone : (s.jobGone j).sec.jobs = s.sec.jobs.erase j := rfl
  unfold State.jobOver
  by_cases hp : p = 255
  · rw [if_pos (by simp [hp])]
    exact ⟨hgone, fun h => absurd hp h⟩
  · simp only [if_neg (mt beq_iff_eq.mp hp)]
    obtain ⟨hbit, hsec⟩ := (s.jobGone j).jobEnd_effect p
    split
    next hmore =>
      refine ⟨hgone, fun _ hnone => ?_⟩
      obtain ⟨k, hk, hpart⟩ := List.any_eq_true.mp hmore
      exact absurd (beq_iff_eq.mp hpart) (hnone k (hgone ▸ hk))
    next => exact ⟨hsec ▸ hgone, fun _ _ => hbit⟩

/-! ### The scrub of a partition and of the idle resources (R434, R435) -/

theorem State.closeWindows_leaves (ws : List Nat) : (ws.foldl (fun s w => s.closeWindow w) s).sites = s.sites := by
  refine foldl_leaves State.sites (fun u w => ?_) ws s
  unfold State.closeWindow
  dsimp only
  split
  · rfl
  · rfl

/-- R434, R435: what the scrub of a list of sites and of memory leaves. -/
theorem State.scrubAll_effect (sites units : List Nat) : let u := units.foldl (fun s u => s.zeroStart u) (sites.foldl (fun s t => s.scrubSite t) s)
    (∀ t ∈ sites, s.iftState t ≠ 2 → u.Scrubbed t) ∧ (∀ t ∈ sites, s.iftState t = 2 → t ∈ u.sec.waiting) ∧ ∀ i ∈ units, i ∈ u.dram.zeroing := by
  have hsites (t : Nat) (ht : t ∈ sites) := s.scrubSites_effect t ht
  generalize sites.foldl (fun s t => s.scrubSite t) s = v at hsites
  obtain ⟨hview, hunits⟩ := v.zeroStarts_effect units
  refine ⟨fun t ht h => ((hsites t ht).1 h).of_view hview, fun t ht h => ?_, hunits⟩
  simp only [State.scrubSitesView, Prod.mk.injEq] at hview
  rw [hview.2.2]
  exact (hsites t ht).2 h

theorem State.scrubPartition_effect {m : Image} (p : Nat) (hactive : s.fab.active = some m) : let u := s.scrubPartition p
    let sites := (m.sitesOf p).filter s.live
    let units := (m.unitsOfPart p).filter (m.unitWithin p)
    (sites ++ units ≠ [] → u.scrubbing p = true) ∧ (∀ t ∈ sites, s.iftState t ≠ 2 → u.Scrubbed t) ∧
      (∀ t ∈ sites, s.iftState t = 2 → t ∈ u.sec.waiting) ∧ ∀ i ∈ units, i ∈ u.dram.zeroing := by
  unfold State.scrubPartition
  rw [hactive]
  dsimp only
  generalize (m.sitesOf p).filter s.live = sites
  generalize (m.unitsOfPart p).filter (m.unitWithin p) = units
  have hclosed := s.closeWindows_leaves (s.windowsOf p)
  generalize (s.windowsOf p).foldl (fun s w => s.closeWindow w) s = c at hclosed
  have hift (t : Nat) : c.iftState t = s.iftState t := by
    rw [State.iftState, State.tfld, State.treg, State.site, hclosed, State.iftState, State.tfld, State.treg, State.site]
  obtain ⟨hscrubbed, hwaiting, hzeroing⟩ := c.scrubAll_effect sites units
  generalize units.foldl (fun s u => s.zeroStart u) (sites.foldl (fun s t => s.scrubSite t) c) = u at hscrubbed hwaiting hzeroing
  obtain ⟨hview, hdram⟩ := u.zeroBlocks_effect m p units
  obtain ⟨hview', hdram'⟩ := (u.zeroBlocks m p units).openJob_effect (some p) sites units
  refine ⟨State.scrubbing_openJob _, fun t ht h => (hscrubbed t ht (by rwa [hift])).of_view (hview'.trans hview), fun t ht h => ?_, fun i hi => ?_⟩
  · have hw := hview'.trans hview
    simp only [State.scrubSitesView, Prod.mk.injEq] at hw
    rw [hw.2.2]
    exact hwaiting t ht (by rwa [hift])
  · rw [hdram', hdram]
    exact hzeroing i hi

/-- R434: what a scrub command that is ignored leaves. -/
theorem State.scrubReject_effect : s.scrubReject.bit R.SEC_SCRUB_CTL 31 = true ∧ s.scrubReject.sec = s.sec ∧ s.scrubReject.sites = s.sites :=
  ⟨State.bit_setBit_same _ _ _ _ (by decide), rfl, rfl⟩

end

theorem fromHost_iff (a : Agent) : fromHost a = true ↔ a = .host ∨ a = .pf1 := by
  cases a <;> simp [fromHost]

theorem scrubPartition_clause (s : State) (a : Agent) (p : Nat) (m : Image) (hp : p < 256) (ha : s.Granted a R.SEC_SCRUB_CTL) (hactive : s.fab.active = some m) :
    let may := (a = .host ∨ a = .pf1) ∧ s.fence p none = 0 ∧ s.noSwap = true ∧ s.scrubbing p = false
    let sites := (m.sitesOf p).filter s.live
    let units := (m.unitsOfPart p).filter (m.unitWithin p)
    (¬may → ∃ u : State, Does (.scrubPartition a p) s u ∧ u.bit R.SEC_SCRUB_CTL 31 = true ∧ u.sec = s.sec ∧ u.sites = s.sites) ∧
    (may → ∃ u : State, Does (.scrubPartition a p) s u ∧ (sites ++ units ≠ [] → u.scrubbing p = true) ∧
      (∀ t ∈ sites, s.iftState t ≠ 2 → t ∈ u.sec.sites ∧ (u.site t).vit = [] ∧ (u.site t).prog = [] ∧ (u.site t).acc = [] ∧
        ∀ q, q < 64 → u.qState t q ≠ 1) ∧
      (∀ t ∈ sites, s.iftState t = 2 → t ∈ u.sec.waiting) ∧ ∀ i ∈ units, i ∈ u.dram.zeroing) := by
  intro may sites units
  have hexec : exec (.scrubPartition a p) s = .next (s.scrubPartCmd a p) := by
    rw [exec_scrubPartition, execScrubPartition, devWrite_granted ha, Nat.mod_eq_of_lt hp]
  have hcond : (fromHost a && s.fence p none == 0 && s.noSwap && !s.scrubbing p) = true ↔ may := by
    simp only [Bool.and_eq_true, beq_iff_eq, Bool.not_eq_true', fromHost_iff, may]
    tauto
  refine ⟨fun h => ⟨s.scrubReject, ?_, s.scrubReject_effect⟩, fun h => ⟨s.scrubPartition p, ?_, s.scrubPartition_effect p hactive⟩⟩
  · exact hexec.trans (congrArg Host.Outcome.next (if_neg (mt hcond.mp h)))
  · exact hexec.trans (congrArg Host.Outcome.next (if_pos (hcond.mpr h)))

theorem scrubIdle_clause (s : State) (a : Agent) (ha : s.Granted a R.SEC_SCRUB_CTL) : let may := (a = .host ∨ a = .pf1) ∧ s.noSwap = true
    ∃ u : State, Does (.scrubIdle a) s u ∧ (¬may → u.bit R.SEC_SCRUB_CTL 31 = true ∧ u.sec = s.sec ∧ u.sites = s.sites) ∧
      (may → ∀ t, t < 3072 → s.partOf t = none → s.live t = true → kindOf t ≠ .mi → s.iftState t ≠ 2 →
        t ∈ u.sec.sites ∧ (u.site t).vit = [] ∧ (u.site t).prog = []) := by
  intro may
  refine ⟨s.scrubIdleCmd a, (exec_scrubIdle a s).trans (devWrite_granted ha _), fun h => ?_, fun h t ht hpart hlive hkind hift => ?_⟩
  · have hcmd : s.scrubIdleCmd a = s.scrubReject := if_neg fun hc => h (by
      rw [Bool.and_eq_true, fromHost_iff] at hc
      exact hc)
    rw [hcmd]
    exact s.scrubReject_effect
  · rw [State.scrubIdleCmd, if_pos (by rw [Bool.and_eq_true, fromHost_iff]; exact h)]
    have hmem : t ∈ allSites.filter fun t => (s.partOf t).isNone && s.live t && kindOf t != .mi := by
      refine List.mem_filter.mpr ⟨List.mem_range.mpr ht, ?_⟩
      simp [hpart, hlive, hkind]
    dsimp only
    generalize (allSites.filter fun t => (s.partOf t).isNone && s.live t && kindOf t != .mi) = sites at hmem
    generalize ((unitsOf s.fab.active).filter fun u => !unitCovered s.fab.active u) = units
    obtain ⟨hscrubbed, -, -⟩ := s.scrubAll_effect sites units
    generalize units.foldl (fun s u => s.zeroStart u) (sites.foldl (fun s t => s.scrubSite t) s) = u at hscrubbed
    obtain ⟨hin, hvit, hprog, -, -⟩ := (hscrubbed t hmem hift).of_view (u.openJob_effect none sites units).1
    exact ⟨hin, hvit, hprog⟩

/-! ### The windows of the in-field test (R391) -/

theorem iftGrant_clause (s : State) (p ms : Nat) (hp : p < 256) (hms : ms < 2 ^ 24) : ∃ opened ignored : State,
    opened.cur.windows = (s.cur.windows.filter fun e => e.1 != p) ++ (if ms = 0 then [] else [(p, s.time + 1000000 * ms)]) ∧
    opened.regs = s.regs ∧ ignored.bit R.CUR_IFT_STATUS 31 = true ∧ ignored.cur = s.cur ∧
    (∀ t c, s.OpenTo (.core t c) → Does (.iftGrant (.core t c) p ms) s (if s.partOf t = some p then opened else ignored)) ∧
    (∀ a, (∀ t c, a ≠ .core t c) → (∀ k, a ≠ .vf k) → s.Granted a R.CUR_IFT_GRANT → Does (.iftGrant a p ms) s opened) ∧
    (∀ k, s.Granted (.vf k) R.CUR_IFT_GRANT → Does (.iftGrant (.vf k) p ms) s (if s.vfPart k = some p then opened else ignored)) := by
  have hpm : p % 256 = p := Nat.mod_eq_of_lt hp
  have hmm : ms % 2 ^ 24 = ms := Nat.mod_eq_of_lt hms
  refine ⟨s.grant p ms, s.setBit R.CUR_IFT_STATUS 31 true, ?_, rfl, State.bit_setBit_same _ _ _ _ (by decide), rfl, fun t c ha => ?_,
    fun a hcore hvf ha => ?_, fun k ha => ?_⟩
  · have hwindows : (s.grant p ms).cur.windows =
        if ms == 0 then s.cur.windows.filter fun e => e.1 != p else (s.cur.windows.filter fun e => e.1 != p) ++ [(p, s.time + 1000000 * ms)] := rfl
    rw [hwindows]
    by_cases h : ms = 0
    · simp [h]
    · simp [h]
  · rw [Does, exec_iftGrant, execIftGrant, hpm, hmm, openWrite_open ha]
    simp only [beq_iff_eq]
  · rw [Does, exec_iftGrant, execIftGrant, hpm, hmm, devWrite_granted ha]
    · exact hcore
    · exact hvf
  · rw [Does, exec_iftGrant, execIftGrant, hpm, hmm, devWrite_granted ha]
    simp only [beq_iff_eq]

/-! ### The ends of a test, and the polls -/

theorem State.testFails_effect (s : State) (t : Nat) : ∃ v : State, (s.partOf t = none → s.testFails t = v) ∧ (∀ p, s.partOf t = some p → s.testFails t = v.partFail p 0x08) ∧
    ∃ x : State, v = x.curFault 0x08 (le 2 t ++ le 1 2) ∧ x.siteStatus t = 1 ∧ x.iftState t = s.iftState t ∧ x.cur = s.cur := by
  obtain ⟨hnone, hsome⟩ := ((s.curFault 0x40 (le 2 t)).markSiteDead t 2 2 (s.curFault 0x40 (le 2 t)).time).deathRecorded_effect (s.partOf t) (le 2 t ++ le 1 2)
  have hx := s.failed_effect t
  rw [s.testFails_eq]
  exact ⟨_, hnone, hsome, _, rfl, hx⟩

theorem State.cnLost_effect (s : State) (t : Nat) : ∃ v : State, (s.partOf t = none → s.cnLost t = v) ∧ (∀ p, s.partOf t = some p → s.cnLost t = v.partFail p 0x08) ∧
    ∃ x : State, v = x.curFault 0x08 (le 2 t ++ le 1 1) ∧ x.siteStatus t = 1 ∧ ∀ e ∈ x.sec.silent, e.1 ≠ t := by
  have hsilent : (s.modSec fun x => { x with silent := x.silent.filter fun e => e.1 != t }).sec.silent = s.sec.silent.filter fun e => e.1 != t := rfl
  rw [s.cnLost_eq]
  generalize (s.modSec fun x => { x with silent := x.silent.filter fun e => e.1 != t }) = u at hsilent
  obtain ⟨hnone, hsome⟩ := (u.markSiteDead t 3 3 s.time).deathRecorded_effect (s.partOf t) (le 2 t ++ le 1 1)
  refine ⟨_, hnone, hsome, _, rfl, State.dead_markSiteDead_same _ t _ _ _, fun e he => ?_⟩
  rw [(Reports.markSiteDead u t 3 3 s.time).view State.sec fun _ _ _ _ _ => rfl, hsilent] at he
  exact bne_iff_ne.mp (List.mem_filter.mp he).2

theorem iftEnd_clause (s : State) (t begun : Nat) (hfind : s.cur.tests.find? (fun e => e.1 == t) = some (t, begun)) :
    (∃ u : State, Does (.iftEnd t 0) s u ∧ u.iftState t = 0 ∧ u.overdue t = false ∧ u.treg64 t R.TILE_IFT_LAST_LO = begun % 2 ^ 64 ∧
      ∀ e ∈ u.cur.tests, e.1 ≠ t) ∧
    (∃ v w : State, (∀ x, 2 ≤ x → Does (.iftEnd t x) s w) ∧ (kindOf t ≠ .m ∨ t ∈ s.cur.testRetry → Does (.iftEnd t 1) s w) ∧
      (s.partOf t = none → w = v) ∧ (∀ p, s.partOf t = some p → w = v.partFail p 0x08) ∧
      ∃ x : State, v = x.curFault 0x08 (le 2 t ++ le 1 2) ∧ x.siteStatus t = 1 ∧ x.iftState t = 0 ∧ ∀ e ∈ x.cur.tests, e.1 ≠ t) ∧
    (kindOf t = .m → t ∉ s.cur.testRetry → ∃ u : State, Does (.iftEnd t 1) s u ∧ u.cur.testRetry = s.cur.testRetry ++ [t] ∧
      u.cat.tables.site t / 256 = min 255 (s.cat.tables.site t / 256 + 1) ∧ (∃ e ∈ u.cur.tests, e = (t, s.time)) ∧
      (s.siteStatus t = 0 → u.siteStatus t = 2)) := by
  obtain ⟨hift, htests, hfab⟩ := s.testOver_effect t
  refine ⟨?_, ?_, fun hkind hretry => ?_⟩
  · obtain ⟨hpift, hoverdue, hlast, hcur⟩ := (s.testOver t).passed_effect t begun
    exact ⟨_, iftEnd_passes hfind, hpift.trans hift, hoverdue, hlast, hcur ▸ htests⟩
  · obtain ⟨v, hnone, hsome, x, hv, hdead, hxift, hxcur⟩ := (s.testOver t).testFails_effect t
    rw [State.partOf_of_fab hfab] at hnone hsome
    exact ⟨v, _, fun x hx => iftEnd_fails hfind (.inl hx), fun h => iftEnd_fails hfind (.inr ⟨rfl, h⟩), hnone, hsome, x, hv, hdead, hxift.trans hift,
      hxcur ▸ htests⟩
  · obtain ⟨hcount, hstatus, hcur⟩ := (s.testRetried t).useSpare_effect t 2
    have hkept : (s.testRetried t).cat = s.cat ∧ (s.testRetried t).cur.testRetry = s.cur.testRetry ++ [t] ∧
        (s.testRetried t).siteStatus t = s.siteStatus t := ⟨rfl, rfl, rfl⟩
    obtain ⟨hcat, hretries, hsame⟩ := hkept
    rw [hcat] at hcount
    refine ⟨_, iftEnd_repairs hfind hkind hretry, by rw [hcur, hretries], hcount, ⟨_, ?_, rfl⟩, fun h => hstatus (hsame.trans h)⟩
    rw [hcur]
    exact State.retried_mem hfind

theorem cnPollTimeout_clause (s : State) (t : Nat) (ht : t < 3072) (hlive : s.live t = true) (hwing : s.wingUp (wingOf t) = true) (hup : s.curatorUp = true) :
    (s.sec.silent.find? (fun e => e.1 == t) = none → ∃ u : State, Does (.cnPollTimeout t) s u ∧ u.cat = s.cat ∧
      u.sec.silent = s.sec.silent ++ [(t, s.time)]) ∧
    (∀ n, s.sec.silent.find? (fun e => e.1 == t) = some (t, n) → n + 1000000 ≤ s.time → ∃ v w : State, Does (.cnPollTimeout t) s w ∧
      (s.partOf t = none → w = v) ∧ (∀ p, s.partOf t = some p → w = v.partFail p 0x08) ∧
      ∃ x : State, v = x.curFault 0x08 (le 2 t ++ le 1 1) ∧ x.siteStatus t = 1 ∧ ∀ e ∈ x.sec.silent, e.1 ≠ t) := by
  have hexec := exec_cnPollTimeout t s
  rw [execCnPollTimeout] at hexec
  refine ⟨fun hfind => ⟨s.modSec fun x => { x with silent := x.silent ++ [(t, s.time)] }, ?_, rfl, rfl⟩, fun n hfind htime => ?_⟩
  · rw [hfind] at hexec
    exact hexec.trans (when_true (by simp [ht, hlive, hwing, hup]))
  · obtain ⟨v, hnone, hsome, hx⟩ := s.cnLost_effect t
    rw [hfind] at hexec
    refine ⟨v, s.cnLost t, ?_, hnone, hsome, hx⟩
    exact (hexec.trans (when_true (by simp [ht, hlive, hwing, hup]))).trans (congrArg Host.Outcome.next (if_pos htime))

theorem secFenceCheck_does {s : State} {a : Agent} {p : Nat} (hp : p < 256) (ha : s.Granted a R.SEC_FENCE_CHECK) : ∃ r, (∀ t c, a = .core t c →
    r = s.fence p (some (t, c))) ∧ ((∀ t c, a ≠ .core t c) → r = s.fence p none) ∧ Does (.secFenceCheck a p) s
      { s with sec := { s.sec with fences := Map.set (fun _ => 0) s.sec.fences (s.fenceAgent a) (2 ^ 31 + r) } } := by
  have hexec := exec_secFenceCheck a p s
  unfold execSecFenceCheck at hexec
  dsimp only at hexec
  rw [devWrite_granted ha, Nat.mod_eq_of_lt hp] at hexec
  refine ⟨_, fun t c h => ?_, fun h => ?_, hexec⟩
  · subst h
    rfl
  · split
    next t c => exact absurd rfl (h t c)
    next => rfl

theorem siteScrubEnd_clause (s : State) (t : Nat) (ht : t ∈ s.sec.sites) : ∃ u : State, Does (.siteScrubEnd t) s u ∧ t ∉ u.sec.sites ∧
    (u.site t).vit = (s.site t).vit ∧ ∀ q, q < 64 → u.qState t q = qRecState (s.queueRec t q) ∧
      u.qAcc t q = if qRecState (s.queueRec t q) = 0 then 0 else (s.qAcc t q + 1) % 1024 := by
  obtain ⟨-, hvit, hqueues⟩ := s.reinstallSite_effect t
  have hdoes : Does (.siteScrubEnd t) s ((s.reinstallSite t).modSec fun x => { x with sites := x.sites.filter (· != t) }) :=
    (exec_siteScrubEnd t s).trans (when_true (by simpa using ht))
  generalize s.reinstallSite t = u at hvit hqueues hdoes
  refine ⟨_, hdoes, fun h => ?_, hvit, hqueues⟩
  exact absurd rfl (bne_iff_ne.mp (List.mem_filter.mp h).2)

/-- Settles O49, from what the reset and the scrub of a site leave of it (`testBegin_effect`, `scrubSites_effect`, `reinstallSite_effect`). -/
theorem testAndScrubCommands : Obligations.TestAndScrubCommands := by
  unfold Obligations.TestAndScrubCommands
  refine ⟨fun s t htest hup hdue hift => ?_, fun s t htest hup hdue hnew => ?_, iftGrant_clause, fun s t hnext => ?_, iftEnd_clause, fun s t hup => ?_,
    cnPollTimeout_clause, fun s a p hp ha => ?_, scrubPartition_clause, scrubIdle_clause, siteScrubEnd_clause, fun s p j hfind hdone => ?_⟩
  · exact ⟨s.setIft t 1, (exec_iftDue t s).trans (when_true (by simp [htest, hup, hdue, hift])), s.iftState_setIft t (by decide), s.overdue_setIft t 1,
      fun x hx => s.site_setIft_other t 1 hx⟩
  · obtain ⟨hstate, hother⟩ := s.dueNoted_effect t
    refine ⟨_, iftOverdue_does htest hup hdue hnew, State.tbit_setTbit_same _ _ _ _ _ (by decide), ?_, fun x hx => ?_⟩
    · exact (State.tfld_setTbit_other _ _ _ _ _ _ _ (by decide) (by decide)).trans hstate
    · rw [State.site_setTbit_other _ _ _ _ hx, hother x hx]
  · exact ⟨s.testBegin t, (exec_iftStart t s).trans (when_true (by simp [hnext])), s.testBegin_effect t⟩
  · exact ⟨_, (exec_cnPoll t s).trans (when_true hup), rfl⟩
  · obtain ⟨r, hcore, hother, hdoes⟩ := secFenceCheck_does hp ha
    refine ⟨_, hdoes, (Map.get_set_same _ _ _ _).trans (congrArg (2 ^ 31 + ·) ?_)⟩
    split
    next t c => exact hcore t c rfl
    next h => exact hother h
  · obtain ⟨hjobs, hbit⟩ := s.jobOver_effect p j
    exact ⟨_, scrubDone_does hfind hdone, hjobs, fun _ => hbit⟩

end Sys2Proof.Machine
end

section
/-! PROOFS. The supplies, the boot of the firmware, the resets and the end of a start (R372, R379, R381-R384, R462). -/

namespace Sys2Proof.Machine

/-! ### The firmware (R372) -/

section
variable (s : State)

/-- R372: the firmware runs, and an error of no firmware is gone. -/
def State.firmwareRuns (s : State) : State :=
  let s := { s with cur := { s.cur with running := true } }
  if s.bootError == 1 then s.setFld R.CUR_BOOT_STATUS 31 28 0 else s

/-- R372: the ROM shows the slot that it runs. -/
def State.slotShown (s : State) (i version : Nat) : State := (s.setBit R.CUR_BOOT_STATUS 7 (i == 1)).setFld R.CUR_BOOT_STATUS 23 8 version

/-- R372: the ROM finds no slot that it may run. -/
def State.noFirmware (s : State) : State :=
  (({ s with cur := { s.cur with running := false } }.setFld R.CUR_BOOT_STATUS 31 28 1).setFld R.CUR_BOOT_STATUS 23 7 0).assertFault

theorem State.firmwareRuns_effect : s.firmwareRuns.cur.running = true ∧ s.firmwareRuns.flash = s.flash ∧ s.firmwareRuns.stage = s.stage := by
  unfold State.firmwareRuns
  dsimp only
  split
  · exact ⟨rfl, rfl, State.fld_setFld_other _ _ _ _ _ _ _ (by decide) (by decide) (by decide)⟩
  · exact ⟨rfl, rfl, rfl⟩

theorem State.slotShown_effect {i : Nat} (hi : i < 2) (version : Nat) : (s.slotShown i version).cur = s.cur ∧ (s.slotShown i version).runningSlot = i ∧
    (s.slotShown i version).fld R.CUR_BOOT_STATUS 23 8 = version % 65536 ∧ (s.slotShown i version).stage = s.stage := by
  refine ⟨rfl, ?_, State.fld_setFld_same _ _ _ _ _ (by decide) (by decide), ?_⟩
  · refine (State.fld_setFld_other _ _ _ _ _ _ _ (by decide) (by decide) (by decide)).trans
      ((State.fld_setFld_same _ _ _ _ _ (by decide) (by decide)).trans ?_)
    interval_cases i
    · rfl
    · rfl
  · exact (State.fld_setFld_other _ _ _ _ _ _ _ (by decide) (by decide) (by decide)).trans (State.fld_setBit_other _ _ _ _ _ _ (by decide) (by decide))

theorem State.bootFirmware_of_slot {i : Nat} (h : s.bootSlot = some i) : s.bootFirmware = s.firmwareRuns.slotShown i (s.firmwareRuns.flash.slot i).version := by
  unfold State.bootFirmware
  rw [h]
  rfl

theorem State.bootFirmware_of_none (h : s.bootSlot = none) : s.bootFirmware = s.noFirmware := by
  unfold State.bootFirmware
  rw [h]
  rfl

theorem State.noFirmware_effect : s.noFirmware.cur.running = false ∧ s.noFirmware.bootError = 1 ∧ s.noFirmware.pins.faultLatched = true ∧
    s.noFirmware.stage = s.stage := by
  have hshown (u : State) (hi lo : Nat) : u.assertFault.fld R.CUR_BOOT_STATUS hi lo = u.fld R.CUR_BOOT_STATUS hi lo :=
    State.fld_of_reg (u.reg_assertFault _) hi lo
  have hstage (u : State) : (u.setFld R.CUR_BOOT_STATUS 23 7 0).fld R.CUR_BOOT_STATUS 2 0 = u.fld R.CUR_BOOT_STATUS 2 0 ∧
      (u.setFld R.CUR_BOOT_STATUS 23 7 0).fld R.CUR_BOOT_STATUS 31 28 = u.fld R.CUR_BOOT_STATUS 31 28 :=
    ⟨State.fld_setFld_other _ _ _ _ _ _ _ (by decide) (by decide) (by decide), State.fld_setFld_other _ _ _ _ _ _ _ (by decide) (by decide) (by decide)⟩
  have hnone (u : State) : (u.setFld R.CUR_BOOT_STATUS 31 28 1).fld R.CUR_BOOT_STATUS 31 28 = 1 ∧
      (u.setFld R.CUR_BOOT_STATUS 31 28 1).fld R.CUR_BOOT_STATUS 2 0 = u.fld R.CUR_BOOT_STATUS 2 0 :=
    ⟨State.fld_setFld_same _ _ _ _ _ (by decide) (by decide), State.fld_setFld_other _ _ _ _ _ _ _ (by decide) (by decide) (by decide)⟩
  refine ⟨rfl, ?_, rfl, ?_⟩
  · rw [State.bootError, State.noFirmware, hshown, (hstage _).2, (hnone _).1]
  · rw [State.stage, State.noFirmware, hshown, (hstage _).1, (hnone _).2]
    rfl

/-- R372: the slot that the ROM runs is one that it may run. -/
theorem State.bootSlot_valid {i : Nat} (h : s.bootSlot = some i) : i < 2 ∧ s.slotValid i = true := by
  unfold State.bootSlot at h
  split at h
  next h0 h1 =>
    obtain rfl := Option.some.inj h
    split
    · exact ⟨by decide, h1⟩
    · exact ⟨by decide, h0⟩
  next h0 _ =>
    obtain rfl := Option.some.inj h
    exact ⟨by decide, h0⟩
  next _ h1 =>
    obtain rfl := Option.some.inj h
    exact ⟨by decide, h1⟩
  next => cases h

theorem bootFirmware_clause : let u := s.bootFirmware
    (∀ i, s.bootSlot = some i → i < 2 ∧ s.slotValid i = true ∧ u.cur.running = true ∧ u.runningSlot = i ∧
      u.fld R.CUR_BOOT_STATUS 23 8 = (s.flash.slot i).version % 65536 ∧ u.stage = s.stage) ∧
    (s.bootSlot = none → u.cur.running = false ∧ u.bootError = 1 ∧ u.pins.faultLatched = true ∧ u.stage = s.stage) := by
  refine ⟨fun i h => ?_, fun h => ?_⟩
  · obtain ⟨hi, hvalid⟩ := s.bootSlot_valid h
    obtain ⟨hruns, hflash, hstage⟩ := s.firmwareRuns_effect
    obtain ⟨hcur, hslot, hversion, hstage'⟩ := s.firmwareRuns.slotShown_effect hi (s.firmwareRuns.flash.slot i).version
    rw [s.bootFirmware_of_slot h]
    exact ⟨hi, hvalid, hcur ▸ hruns, hslot, by rw [hversion, hflash], hstage'.trans hstage⟩
  · rw [s.bootFirmware_of_none h]
    exact s.noFirmware_effect

/-! ### The supplies (R382, R462) -/

/-- R462: everything but the fuses, the flash and the other pins in its unpowered state. -/
def State.unpowered (s : State) : State :=
  { State.reset with
    pending := s.pending, freeCtr := s.freeCtr, fuses := s.fuses, flash := s.flash, regs := [],
    pins := { State.reset.pins with vaux5 := false, vin48 := s.pins.vin48, perstN := s.pins.perstN, bringEn := s.pins.bringEn },
    cur := { State.reset.cur with running := false } }

/-- R382: everything in its reset state, before the ROM runs. -/
def State.powered (s : State) : State :=
  ({ State.reset with
      pending := s.pending, freeCtr := s.freeCtr, fuses := s.fuses, flash := s.flash,
      pins := { State.reset.pins with vin48 := s.pins.vin48, perstN := s.pins.perstN, bringEn := s.pins.bringEn } }.setReg R.CUR_BOOT_STATUS 0).setFld
    R.CUR_BOOT_CTL 31 16 s.flash.hours

theorem vaux5Loss_does : Does .vaux5Loss s s.unpowered := exec_vaux5Loss s

theorem vaux5Apply_does {s : State} (h : s.pins.vaux5 = false) : Does .vaux5Apply s s.powered.bootFirmware :=
  (exec_vaux5Apply s).trans (when_true (by simp [h]))

theorem State.unpowered_effect : s.unpowered.pins.vaux5 = false ∧ s.unpowered.cur.running = false ∧ s.unpowered.fuses = s.fuses ∧
    s.unpowered.flash = s.flash ∧ s.unpowered.sites = State.reset.sites ∧ s.unpowered.net = State.reset.net ∧ s.unpowered.dram = State.reset.dram ∧
    s.unpowered.fab = State.reset.fab ∧ s.unpowered.faults = [] := ⟨rfl, rfl, rfl, rfl, rfl, rfl, rfl, rfl, rfl⟩

theorem State.powered_effect : s.powered.pins.vaux5 = true ∧ s.powered.fuses = s.fuses ∧ s.powered.flash = s.flash ∧
    s.powered.sites = State.reset.sites ∧ s.powered.time = 0 ∧ s.powered.timeRunning = false := ⟨rfl, rfl, rfl, rfl, rfl, rfl⟩

/-! ### Other firmware, and the hours (R372, R381) -/

/-- R372: the slot of the running firmware is refused. -/
def State.slotRefused (s : State) : State := { s with cur := { s.cur with slotsRefused := s.cur.slotsRefused ++ [s.runningSlot] } }

theorem State.slotValid_slotRefused (i : Nat) : s.slotRefused.slotValid i = (s.slotValid i && i != s.runningSlot) := by
  have hkept : s.slotRefused.flash = s.flash ∧ s.slotRefused.fuses = s.fuses ∧ s.slotRefused.cur.slotsRefused = s.cur.slotsRefused ++ [s.runningSlot] :=
    ⟨rfl, rfl, rfl⟩
  obtain ⟨hflash, hfuses, hrefused⟩ := hkept
  rw [State.slotValid, hflash, hfuses, hrefused, State.slotValid, List.contains_append]
  simp only [List.contains_cons, List.contains_nil, Bool.or_false, Bool.not_or, Bool.and_assoc]
  rfl

theorem fwAliveTimeout_clause (hvaux : s.pins.vaux5 = true) (hstage : s.stage = 0) (hruns : s.cur.running = true) :
    ∃ u : State, Does .fwAliveTimeout s u.bootFirmware ∧ u.slotValid s.runningSlot = false ∧ ∀ i, i ≠ s.runningSlot → u.slotValid i = s.slotValid i := by
  refine ⟨s.slotRefused, (exec_fwAliveTimeout s).trans (when_true (by simp [hvaux, hstage, hruns])), ?_, fun i hi => ?_⟩
  · rw [s.slotValid_slotRefused]
    simp
  · rw [s.slotValid_slotRefused]
    simp [hi]

theorem hoursTick_clause (hvaux : s.pins.vaux5 = true) (hvin : s.pins.vin48 = true) : ∃ u : State, Does .hoursSinceColdTick s u ∧
    u.flash.hours = min 65535 (s.flash.hours + 1) ∧ u.fld R.CUR_BOOT_CTL 31 16 = min 65535 (s.flash.hours + 1) := by
  refine ⟨_, (exec_hoursSinceColdTick s).trans (when_true (by simp [hvaux, hvin])), rfl, ?_⟩
  refine (State.fld_setFld_same _ _ _ _ _ (by decide) (by decide)).trans (Nat.mod_eq_of_lt ?_)
  omega

/-! ### The end of a start (R379, R381, R384) -/

/-- R379: Curator has completed a start. -/
def State.startNoted (s : State) : State := { s with cur := { s.cur with reachedS5 := true, tripSince := false } }

/-- R381: hours_since_cold is 0. -/
def State.hoursZero (s : State) : State := { s with flash := { s.flash with hours := 0 } }.setFld R.CUR_BOOT_CTL 31 16 0

theorem State.startDone_eq : s.startDone = (if s.startNoted.warm then s.startNoted else s.startNoted.hoursZero).setFld R.CUR_BOOT_STATUS 2 0 5 := rfl

theorem State.startDone_effect : s.startDone.stage = 5 ∧ s.startDone.cur.reachedS5 = true ∧ s.startDone.cur.tripSince = false ∧
    (s.warm = false → s.startDone.flash.hours = 0 ∧ s.startDone.fld R.CUR_BOOT_CTL 31 16 = 0) ∧ (s.warm = true → s.startDone.flash = s.flash) := by
  have hwarm : s.startNoted.warm = s.warm := rfl
  have hcur (u : State) : (u.setFld R.CUR_BOOT_STATUS 2 0 5).cur = u.cur ∧ (u.setFld R.CUR_BOOT_STATUS 2 0 5).flash = u.flash := ⟨rfl, rfl⟩
  have hstage (u : State) : (u.setFld R.CUR_BOOT_STATUS 2 0 5).stage = 5 := State.fld_setFld_same _ _ _ _ _ (by decide) (by decide)
  rw [s.startDone_eq, hwarm, (hcur _).1, (hcur _).2]
  refine ⟨hstage _, ?_, ?_, fun h => ?_, fun h => ?_⟩
  · split
    · rfl
    · rfl
  · split
    · rfl
    · rfl
  · rw [if_neg (by simp [h])]
    refine ⟨rfl, (State.fld_setFld_ne _ _ _ _ _ _ (by decide)).trans ((State.fld_setFld_same _ _ _ _ _ (by decide) (by decide)).trans rfl)⟩
  · rw [if_pos h]
    rfl

theorem stageS5_clause : (s.cur.restarting = false → s.inStage 4 = true → ∃ u : State, Does .stageS5 s u ∧ u.stage = 5 ∧ u.cur.reachedS5 = true ∧
      u.cur.tripSince = false ∧ (s.warm = false → u.flash.hours = 0 ∧ u.fld R.CUR_BOOT_CTL 31 16 = 0) ∧ (s.warm = true → u.flash = s.flash)) ∧
    (s.cur.restarting = true → s.stage = 0 → s.cur.running = true → s.pins.vaux5 = true →
      ∃ u : State, Does .stageS5 s u ∧ u.stage = 5 ∧ u.cur.restarting = false) := by
  refine ⟨fun hrestart hin => ⟨s.startDone, ?_, s.startDone_effect⟩, fun hrestart hstage hruns hvaux => ?_⟩
  · exact (exec_stageS5 s).trans ((if_neg (by simp [hrestart])).trans (when_true hin))
  · refine ⟨_, (exec_stageS5 s).trans ((if_pos hrestart).trans (when_true (by simp [hstage, hruns, hvaux]))), ?_, rfl⟩
    exact State.fld_setFld_same _ _ _ _ _ (by decide) (by decide)

/-! ### A module reset (R383) -/

/-- R383: what a module reset keeps of a state whose stage is off, before the loss of references is forgotten. -/
def State.domainsReset (s : State) : State :=
  { State.reset with
    pending := s.pending, freeCtr := s.freeCtr, fuses := s.fuses, flash := s.flash, msix := s.msix, faults := s.faults,
    regs := (s.regs.filter fun e => keptByModuleReset e.1),
    pins := { s.pins with faultLatched := false, tripLatched := false, stageTripped := false, tsyncOutUntil := 0 },
    cur := { State.reset.cur with afterVaux := false, reachedS5 := s.cur.reachedS5, tripSince := s.cur.tripSince,
                                  infieldLostSinceCold := s.cur.infieldLostSinceCold, starts := s.cur.starts },
    net := Net.start,
    hst := { s.hst with mbxReq := [], mbxRsp := [], mbxWork := none, session := false, unlocking := [] } }

/-- R383: the module before the ROM runs. -/
def State.moduleCleared (s : State) : State := s.stageOff.linkNarrow.domainsReset.setFld R.CLK_REF_STATUS 31 3 0

theorem State.moduleReset_eq : s.moduleReset = s.moduleCleared.bootFirmware := rfl

theorem State.stage_domainsReset : s.domainsReset.stage = 0 := by
  have hreg : s.domainsReset.reg R.CUR_BOOT_STATUS = devReset R.CUR_BOOT_STATUS :=
    (Map.get_filter _ keptByModuleReset _ R.CUR_BOOT_STATUS).trans (if_neg (by decide))
  rw [State.stage, State.fld, hreg]
  decide

theorem State.moduleCleared_effect : s.moduleCleared.sites = [] ∧ s.moduleCleared.fab = State.reset.fab ∧ s.moduleCleared.dram = State.reset.dram ∧
    s.moduleCleared.timeRunning = false ∧ s.moduleCleared.stage = 0 ∧ s.moduleCleared.fuses = s.fuses ∧ s.moduleCleared.pins.faultLatched = false ∧
    s.moduleCleared.pins.tripLatched = false ∧ s.moduleCleared.pins.stageTripped = false ∧ s.moduleCleared.pending = s.pending := by
  have hkept : s.stageOff.linkNarrow.kept = s.kept := (State.linkNarrow_kept _).trans s.stageOff_kept
  have hset (u : State) : (u.domainsReset.setFld R.CLK_REF_STATUS 31 3 0).stage = u.domainsReset.stage :=
    State.fld_setFld_ne _ _ _ _ _ _ (by decide)
  unfold State.moduleCleared
  generalize s.stageOff.linkNarrow = u at hkept
  exact ⟨rfl, rfl, rfl, rfl, (hset u).trans u.stage_domainsReset, congrArg Prod.snd hkept, rfl, rfl, rfl, congrArg Prod.fst hkept⟩

/-! ### Curator alone (R384) -/

/-- R384: an armed swap is cancelled. -/
def State.disarmed (s : State) : State := if s.armed then s.disarm 2 else s

/-- R384: the tests in progress are aborted. -/
def State.testsAborted (s : State) : State := s.cur.tests.foldl (fun s e => s.abortTest e.1) s

/-- R384: what Curator forgets. -/
def State.forgets (s : State) (again : Bool) : State :=
  (({ s with cur := { s.cur with restarting := again, slotsRefused := [] },
             hst := { s.hst with mbxWork := none, session := false, unlocking := [] } }.setFld R.HST_MBX_STATUS 1 0 0).modSec
    fun x => { x with silent := [] }).setFld R.CUR_BOOT_STATUS 2 0 0

/-- R384: Curator before the ROM runs again. -/
def State.curatorCleared (s : State) : State :=
  s.disarmed.testsAborted.forgets (s.disarmed.testsAborted.stage == 5 || s.disarmed.testsAborted.cur.restarting)

theorem State.restart_eq : s.restart = s.curatorCleared.bootFirmware := rfl

theorem State.disarmed_effect : s.disarmed.armed = false ∧ s.disarmed.cur = s.cur ∧ s.disarmed.fab = s.fab ∧ s.disarmed.stage = s.stage := by
  unfold State.disarmed
  split
  · have hstage : (s.disarm 2).stage = s.stage :=
      (State.fld_setBit_ne _ _ _ _ _ (by decide)).trans ((State.fld_setFld_ne _ _ _ _ _ _ (by decide)).trans (State.fld_setBit_ne _ _ _ _ _ (by decide)))
    have harmed : (s.disarm 2).armed = false :=
      (State.bit_setBit_ne _ _ _ _ (by decide)).trans ((State.bit_setFld_other _ _ _ _ _ _ (by decide) (by decide)).trans
        (State.bit_setBit_same _ _ _ _ (by decide)))
    exact ⟨harmed, rfl, rfl, hstage⟩
  next h => exact ⟨by simpa using h, rfl, rfl, rfl⟩

/-- R384: a test is aborted. -/
theorem State.abortTest_effect (t : Nat) : (s.abortTest t).cur = { s.cur with tests := s.cur.tests.filter fun e => e.1 != t } ∧
    (s.abortTest t).reg R.CUR_BOOT_STATUS = s.reg R.CUR_BOOT_STATUS := by
  refine ⟨?_, reg_of_supply (s.abortTest_supply t) (by decide)⟩
  unfold State.abortTest
  dsimp only
  split
  · exact (SiteWork.scrubBegin _ t).view State.cur fun _ _ _ _ _ _ _ => rfl
  · rfl

theorem State.testsAborted_effect : s.testsAborted.cur.tests = [] ∧ s.testsAborted.cur.restarting = s.cur.restarting ∧
    s.testsAborted.fabric = s.fabric ∧ s.testsAborted.stage = s.stage := by
  have hkept := List.foldlRecOn (motive := fun u : State => u.cur.restarting = s.cur.restarting ∧ u.fabric = s.fabric ∧
      u.stage = s.stage ∧ ∀ e ∈ u.cur.tests, e ∈ s.cur.tests) s.cur.tests (fun s e => s.abortTest e.1) ⟨rfl, rfl, rfl, fun _ h => h⟩
    fun u ⟨hrestart, hfabric, hstage, hmem⟩ e _ => by
      obtain ⟨hcur, hreg⟩ := u.abortTest_effect e.1
      refine ⟨by rw [hcur]; exact hrestart, (u.abortTest_fabric e.1).trans hfabric, (State.fld_of_reg hreg 2 0).trans hstage, fun x hx => hmem x ?_⟩
      rw [hcur] at hx
      exact (List.mem_filter.mp hx).1
  obtain ⟨hrestart, hfabric, hstage, hmem⟩ := hkept
  refine ⟨List.eq_nil_iff_forall_not_mem.mpr fun e he => ?_, hrestart, hfabric, hstage⟩
  refine foldl_establishes (P := fun u : State => e ∉ u.cur.tests) (hmem e he) (fun u => ?_) (fun u x hu => ?_) s he
  · rw [(u.abortTest_effect e.1).1]
    exact fun h => absurd rfl (bne_iff_ne.mp (List.mem_filter.mp h).2)
  · rw [(u.abortTest_effect x.1).1]
    exact fun h => hu (List.mem_filter.mp h).1

theorem State.forgets_effect (again : Bool) : (s.forgets again).stage = 0 ∧ (s.forgets again).armed = s.armed ∧
    (s.forgets again).cur.tests = s.cur.tests ∧ (s.forgets again).cur.restarting = again ∧ (s.forgets again).hst.mbxWork = none ∧
    (s.forgets again).fab = s.fab :=
  ⟨(State.fld_setFld_same _ _ _ _ _ (by decide) (by decide)).trans rfl,
    (State.bit_setFld_ne _ _ _ _ _ (by decide)).trans (State.bit_setFld_ne _ _ _ _ _ (by decide)), rfl, rfl, rfl, rfl⟩

theorem State.curatorCleared_effect : s.curatorCleared.stage = 0 ∧ s.curatorCleared.armed = false ∧ s.curatorCleared.cur.tests = [] ∧
    (s.curatorCleared.cur.restarting = true ↔ s.stage = 5 ∨ s.cur.restarting = true) ∧ s.curatorCleared.hst.mbxWork = none ∧
    s.curatorCleared.fab = s.fab := by
  obtain ⟨harmed, hcur, hfab, hstage⟩ := s.disarmed_effect
  obtain ⟨htests, hrestart, hfabric, hstage'⟩ := s.disarmed.testsAborted_effect
  unfold State.curatorCleared
  generalize s.disarmed = u at harmed hcur hfab hstage htests hrestart hfabric hstage'
  generalize u.testsAborted = v at htests hrestart hfabric hstage'
  obtain ⟨hzero, harmed', htests', hagain, hmbx, hfab'⟩ := v.forgets_effect (v.stage == 5 || v.cur.restarting)
  refine ⟨hzero, harmed'.trans ((armed_of_fabric hfabric).trans harmed), htests'.trans htests, ?_, hmbx, hfab'.trans ((fab_of_fabric hfabric).trans hfab)⟩
  rw [hagain, hstage', hstage, hrestart, hcur]
  simp

theorem resets_clause (a : Agent) : ∃ m r : State,
    (∀ n, s.pins.vaux5 = true → 10000 ≤ n → Does (.modReset n) s m.bootFirmware) ∧
    (s.Granted a R.CUR_RESET_CMD → Does (.moduleResetCommand a) s m.bootFirmware ∧ Does (.curatorRestart a) s r.bootFirmware) ∧
    (∀ n, s.pins.vaux5 = true → s.cur.running = true → 2000 ≤ n → Does (.watchdogRestart n) s r.bootFirmware) ∧
    m.sites = [] ∧ m.fab = State.reset.fab ∧ m.dram = State.reset.dram ∧ m.timeRunning = false ∧ m.stage = 0 ∧ m.fuses = s.fuses ∧
    m.pins.faultLatched = false ∧ m.pins.tripLatched = false ∧ m.pins.stageTripped = false ∧ m.pending = s.pending ∧
    r.stage = 0 ∧ r.armed = false ∧ r.cur.tests = [] ∧ (r.cur.restarting = true ↔ s.stage = 5 ∨ s.cur.restarting = true) ∧
    r.hst.mbxWork = none ∧ r.fab = s.fab := by
  obtain ⟨hsites, hfab, hdram, htime, hstage, hfuses, hfault, htrip, htripped, hpending⟩ := s.moduleCleared_effect
  refine ⟨s.moduleCleared, s.curatorCleared, fun n hvaux hn => ?_, fun ha => ⟨?_, ?_⟩, fun n hvaux hruns hn => ?_, hsites, hfab, hdram, htime, hstage, hfuses,
    hfault, htrip, htripped, hpending, s.curatorCleared_effect⟩
  · exact (exec_modReset n s).trans (when_true (by simp [hvaux, hn]))
  · exact (exec_moduleResetCommand a s).trans (devWrite_granted ha _)
  · exact (exec_curatorRestart a s).trans (devWrite_granted ha _)
  · exact (exec_watchdogRestart n s).trans (when_true (by simp [hvaux, hruns, hn]))

end

end Sys2Proof.Machine
end

section
/-! PROOFS. What answers of the networks, and the loss of a wing and of its rail, leave of a start that is under way (R13, R273, R349, R373). -/

namespace Sys2Proof.Machine

/-- The second state is the first after answers of the networks: it differs in the registers, the sites, the networks, the fault ring, the vectors, the
debug state and the host attachment. -/
def Answered (s u : State) : Prop :=
  ∃ freeCtr regs sites net dbg faults msix hst,
    u = { s with freeCtr := freeCtr, regs := regs, sites := sites, net := net, dbg := dbg, faults := faults, msix := msix, hst := hst }

namespace Answered

theorem refl (s : State) : Answered s s := ⟨_, _, _, _, _, _, _, _, rfl⟩

theorem trans {s u v : State} (h : Answered s u) (h' : Answered u v) : Answered s v := by
  obtain ⟨_, _, _, _, _, _, _, _, rfl⟩ := h
  obtain ⟨_, _, _, _, _, _, _, _, rfl⟩ := h'
  exact ⟨_, _, _, _, _, _, _, _, rfl⟩

theorem foldl {α : Type} {f : State → α → State} (h : ∀ u x, Answered u (f u x)) (l : List α) (s : State) : Answered s (l.foldl f s) :=
  List.foldlRecOn (motive := Answered s) l f (refl s) fun u hu x _ => hu.trans (h u x)

/-- A view of the state that shows none of these parts is the same. -/
theorem view {β : Type} (view : State → β)
    (hview : ∀ (u : State) freeCtr regs sites net dbg faults msix hst,
      view { u with freeCtr := freeCtr, regs := regs, sites := sites, net := net, dbg := dbg, faults := faults, msix := msix, hst := hst } = view u)
    {s u : State} (h : Answered s u) : view u = view s := by
  obtain ⟨freeCtr, regs, sites, net, dbg, faults, msix, hst, rfl⟩ := h
  exact hview s freeCtr regs sites net dbg faults msix hst

/-- The reset of sites is no more. -/
theorem of_reset {s u : State} (h : SiteReset s u) : Answered s u := by
  obtain ⟨⟨regs, sites, net, dbg, rfl⟩, -⟩ := h
  exact ⟨s.freeCtr, regs, sites, net, dbg, s.faults, s.msix, s.hst, rfl⟩

section
variable (s : State)

theorem setReg (a : Nat) (v : BitVec 32) : Answered s (s.setReg a v) := ⟨s.freeCtr, _, s.sites, s.net, s.dbg, s.faults, s.msix, s.hst, rfl⟩
theorem setBit (a i : Nat) (b : Bool) : Answered s (s.setBit a i b) := setReg s a _
theorem setFld (a hi lo n : Nat) : Answered s (s.setFld a hi lo n) := setReg s a _
theorem setReg64 (a n : Nat) : Answered s (s.setReg64 a n) := (setReg s a _).trans (setReg _ _ _)
theorem modHst (f : Hst → Hst) : Answered s (s.modHst f) := ⟨s.freeCtr, s.regs, s.sites, s.net, s.dbg, s.faults, s.msix, _, rfl⟩
theorem modNet (f : Net → Net) : Answered s (s.modNet f) := of_reset (.modNet s f)
theorem modSite (t : Nat) (f : Site → Site) : Answered s (s.modSite t f) := of_reset (.modSite s t f)
theorem modCore (t c : Nat) (f : Core → Core) : Answered s (s.modCore t c f) := of_reset (.modCore s t c f)
theorem setTreg (t a : Nat) (v : BitVec 32) : Answered s (s.setTreg t a v) := of_reset (.setTreg s t a v)
theorem setTbit (t a i : Nat) (b : Bool) : Answered s (s.setTbit t a i b) := setTreg s t a _
theorem modXfer (t id row : Nat) (f : XferRow → XferRow) : Answered s (s.modXfer t id row f) := modSite s t _
theorem freed : Answered s s.freed := ⟨_, s.regs, s.sites, s.net, s.dbg, s.faults, s.msix, s.hst, rfl⟩

theorem fault (code source : Nat) (part : Option Nat) (detail : List Nat) : Answered s (s.fault code source part detail) := by
  obtain ⟨regs, faults, msix, h⟩ := s.fault_differsInRing code source part detail
  exact ⟨s.freeCtr, regs, s.sites, s.net, s.dbg, faults, msix, s.hst, h⟩

theorem reportStatus (t core source pc status : Nat) : Answered s (s.reportStatus t core source pc status) := by
  have hpc (u : State) (n : Nat) : Answered u (u.setTreg64 t R.ENG_XFER_PC_LO n) := (setTreg u t _ _).trans (setTreg _ t _ _)
  have hshown (u : State) : Answered u (if u.tbit t R.ENG_STATUS 13 then u else
      ((u.setTbit t R.ENG_STATUS 13 true).setTreg t R.ENG_XFER_STATUS (BitVec.ofNat 32 (core * 256 + source * 16 + status))).setTreg64 t R.ENG_XFER_PC_LO pc) := by
    split
    · exact refl u
    · exact ((setTbit u t _ _ _).trans (setTreg _ t _ _)).trans (hpc _ _)
  unfold State.reportStatus
  dsimp only
  split
  · exact refl s
  · split
    · exact (setTreg s t _ _).trans ((hshown _).trans (setTbit _ t _ _ _))
    · exact (setTreg s t _ _).trans (hshown _)

theorem fnErr (f addr status : Nat) : Answered s (s.fnErr f addr status) := by
  unfold State.fnErr
  split
  · exact refl s
  · exact (setReg s _ _).trans (setReg64 _ _ _)

theorem hostDone (id status : Nat) (data : List (BitVec 8)) : ∀ u, s.hostDone id status data = some u → Answered s u := by
  have herr (v : State) (f addr : Nat) : Answered v (if status == 0 then v else v.fnErr f addr status) := by
    split
    · exact refl v
    · exact fnErr v f addr status
  unfold State.hostDone
  intro u h
  split at h
  · cases h
  · dsimp only at h
    cases h
    split
    · exact ((modHst s _).trans (herr _ _ _)).trans (modHst _ _)
    · exact (modHst s _).trans (herr _ _ _)

theorem copyDone (f c id part status : Nat) (data : List (BitVec 8)) : ∀ u, s.copyDone f c id part status data = some u → Answered s u := by
  unfold State.copyDone
  intro u h
  dsimp only at h
  split at h
  · cases h
  · cases h
    refine trans ?_ (modHst _ _)
    split
    · split
      · exact refl s
      · exact fnErr s _ _ _
    · exact refl s

theorem debugDone (status : Nat) (data : List (BitVec 8)) : Answered s (s.debugDone status data) := by
  unfold State.debugDone
  dsimp only
  refine (setBit s R.DBG_ACC_CMD 31 false).trans ?_
  generalize s.setBit R.DBG_ACC_CMD 31 false = u
  split
  · split
    · exact refl u
    · exact setReg u _ _
  · refine (setBit u R.DBG_ACC_CMD 30 true).trans ?_
    split
    · exact (setReg _ _ _).trans (freed _)
    · exact refl _

theorem getD {s d : State} {o : Option State} (ho : ∀ u, o = some u → Answered s u) (hd : Answered s d) : Answered s (o.getD d) := by
  cases o with
  | none => exact hd
  | some u => exact ho u rfl

/-- R273: a user has its answer. -/
theorem netDone (u : NetUser) (status : Nat) (data : List (BitVec 8)) : Answered s (s.netDone u status data) := by
  have hlost (t : Nat) : Answered s (s.answerLost t) := of_reset (.answerLost s t)
  have hreport (t source : Nat) (x : Option Xfer) : Answered s (match x with
      | some q => s.reportStatus t q.instr.core source q.instr.pc status
      | none => s) := by
    cases x with
    | none => exact refl s
    | some q => exact reportStatus s t _ _ _ _
  cases u with
  | core t c id =>
    simp only [State.netDone]
    split
    · exact hlost t
    · exact modCore s t c _
  | xfer t id row =>
    simp only [State.netDone]
    split
    · exact hlost t
    · exact (hreport t 1 _).trans (modXfer _ t _ _ _)
  | msg t id =>
    simp only [State.netDone]
    split
    · exact hlost t
    · exact (hreport t 2 _).trans (modXfer _ t _ _ _)
  | concWrite t slot =>
    simp only [State.netDone]
    split
    · exact hlost t
    · refine trans ?_ (modSite _ t _)
      split
      · exact refl s
      · exact (setTbit s t _ _ _).trans (fault _ _ _ _ _)
  | concNote t slot => exact refl s
  | ingress p h => exact refl s
  | fn f => exact (setBit s _ _ _).trans (setFld _ _ _ _ _)
  | host id =>
    simp only [State.netDone]
    split
    · exact getD (hostDone s _ _ _) (hlost _)
    · exact hlost _
  | copy f c id part =>
    simp only [State.netDone]
    split
    · exact getD (copyDone s _ _ _ _ _ _) (hlost _)
    · exact hlost _
  | debug => exact debugDone s status data
  | fill t a =>
    simp only [State.netDone]
    split
    · exact hlost t
    · exact modSite s t _
  | spill t a =>
    simp only [State.netDone]
    split
    · exact hlost t
    · exact (modSite s t _).trans (foldl (fun u c => modCore u t c _) _ _)
  | fetch t c b =>
    simp only [State.netDone]
    split
    · exact hlost t
    · exact modCore s t c _

/-- R273: a piece of a combined access has its answer. -/
theorem joinPiece (id status : Nat) (data : List (Nat × BitVec 8)) : Answered s (s.joinPiece id status data) := by
  unfold State.joinPiece
  split
  · exact refl s
  · dsimp only
    split
    · refine (modNet s fun n => { n with joins := n.joins.filter fun k => k.id != id }).trans ?_
      generalize s.modNet (fun n => { n with joins := n.joins.filter fun k => k.id != id }) = v
      have htwin (w : State) (o : Option NetUser) (st : Nat) (bytes : List (BitVec 8)) : Answered w (match o with
          | some u => w.netDone u st bytes
          | none => w) := by
        cases o with
        | none => exact refl w
        | some u => exact netDone w u st bytes
      refine trans ?_ (htwin _ _ _ _)
      split
      · split
        · exact of_reset (.launch v _ _ _ _ _ _ _)
        · exact of_reset (.answerLost v _)
      · exact netDone v _ _ _
    · exact modNet s _

theorem lostPacket (p : Packet) : Answered s (s.lostPacket p) := by
  unfold State.lostPacket
  dsimp only
  split
  · exact (modNet s _).trans (joinPiece _ _ _ _)
  · split
    · split
      · exact refl s
      · exact of_reset (.answer s _ _ _ _)
    · exact refl s

/-- R13: what is in the networks of a wing is lost. -/
theorem loseNet (w : Nat) : Answered s (s.loseNet w) := by
  unfold State.loseNet
  dsimp only
  exact (((modNet s _).trans (modNet _ _)).trans ((foldl (fun u p => lostPacket u p) _ _).trans (foldl (fun u p => lostPacket u p) _ _))).trans
    (foldl (fun u v => lostPacket u _) _ _)

end

end Answered

end Sys2Proof.Machine
end

section
/-! PROOFS. Stage S1 (R24, R31, R373, R381). -/

namespace Sys2Proof.Machine

/-- What stage S1 fixes and its work keeps: TIME, the starts counted, the stage with its kind, and the point. -/
def State.startView (s : State) : Nat × Bool × Nat × BitVec 32 × BitVec 32 :=
  (s.time, s.timeRunning, s.cur.starts, s.reg R.CUR_BOOT_STATUS, s.reg R.CLK_OP_STATUS)

/-- The part of it that no register shows. -/
def State.startClock (s : State) : Nat × Bool × Nat := (s.time, s.timeRunning, s.cur.starts)

section
variable {s u : State}

theorem startView_of (hclock : u.startClock = s.startClock) (hboot : u.reg R.CUR_BOOT_STATUS = s.reg R.CUR_BOOT_STATUS)
    (hpoint : u.reg R.CLK_OP_STATUS = s.reg R.CLK_OP_STATUS) : u.startView = s.startView := by
  simp only [State.startClock, Prod.mk.injEq] at hclock
  obtain ⟨htime, hruns, hstarts⟩ := hclock
  rw [State.startView, htime, hruns, hstarts, hboot, hpoint, State.startView]

theorem startView_of_supply (hclock : u.startClock = s.startClock) (h : u.supply = s.supply) : u.startView = s.startView :=
  startView_of hclock (reg_of_supply h (by decide)) (reg_of_supply h (by decide))

theorem startView_of_reports (h : Reports s u) : u.startView = s.startView :=
  startView_of (h.view State.startClock fun _ _ _ _ _ => rfl) (h.reg (by decide) (by decide)) (h.reg (by decide) (by decide))

theorem startView_of_regs (hclock : u.startClock = s.startClock) (h : u.regs = s.regs) : u.startView = s.startView :=
  startView_of hclock (State.reg_of_regs h _) (State.reg_of_regs h _)

end

section
variable (s : State)

theorem State.startView_setReg {a : Nat} (v : BitVec 32) (ha : R.CUR_BOOT_STATUS ≠ a) (hb : R.CLK_OP_STATUS ≠ a) : (s.setReg a v).startView = s.startView :=
  startView_of rfl (s.reg_setReg_other v ha) (s.reg_setReg_other v hb)

theorem State.startView_setFld {a : Nat} (hi lo n : Nat) (ha : R.CUR_BOOT_STATUS ≠ a) (hb : R.CLK_OP_STATUS ≠ a) : (s.setFld a hi lo n).startView = s.startView :=
  s.startView_setReg _ ha hb

theorem State.startView_setBit {a : Nat} (i : Nat) (b : Bool) (ha : R.CUR_BOOT_STATUS ≠ a) (hb : R.CLK_OP_STATUS ≠ a) : (s.setBit a i b).startView = s.startView :=
  s.startView_setReg _ ha hb

theorem State.startView_foldl {α : Type} {f : State → α → State} (h : ∀ u x, (f u x).startView = u.startView) (l : List α) : (l.foldl f s).startView = s.startView :=
  foldl_leaves State.startView h l s

theorem bootStatus_ne_pwrRail (w : Nat) : R.CUR_BOOT_STATUS ≠ R.PWR_RAIL w ∧ R.CLK_OP_STATUS ≠ R.PWR_RAIL w := by
  simp only [R.CUR_BOOT_STATUS, R.CLK_OP_STATUS, R.PWR_RAIL]
  omega

theorem bootStatus_ne_memStkUsable (k : Nat) : R.CUR_BOOT_STATUS ≠ R.MEM_STK_USABLE k ∧ R.CLK_OP_STATUS ≠ R.MEM_STK_USABLE k := by
  simp only [R.CUR_BOOT_STATUS, R.CLK_OP_STATUS, R.MEM_STK_USABLE]
  omega

/-! ### The loss of a wing and of its rail -/

theorem State.startView_abortTest (t : Nat) : (s.abortTest t).startView = s.startView := by
  refine startView_of_supply ?_ (s.abortTest_supply t)
  unfold State.abortTest
  dsimp only
  split
  · exact (SiteWork.scrubBegin _ t).view State.startClock fun _ _ _ _ _ _ _ => rfl
  · rfl

theorem State.startView_modWing (w : Nat) (f : WingPower → WingPower) : (s.modWing w f).startView = s.startView := startView_of_regs rfl rfl

theorem State.startView_loseStack (k : Nat) : (s.loseStack k).startView = s.startView := startView_of_regs rfl rfl

theorem State.startView_loseWing (w : Nat) : (s.loseWing w).startView = s.startView := by
  have hsites (u : State) : ({ u with sites := u.sites.filter fun e => wingOf e.1 != w } : State).startView = u.startView := startView_of_regs rfl rfl
  have hnet (u : State) : (u.loseNet w).startView = u.startView :=
    startView_of_supply ((Answered.loseNet u w).view State.startClock fun _ _ _ _ _ _ _ _ _ => rfl) (u.loseNet_supply w)
  have htest (u : State) (e : Nat × Nat) : (if wingOf e.1 == w then u.abortTest e.1 else u).startView = u.startView := by
    split
    · exact u.startView_abortTest e.1
    · rfl
  unfold State.loseWing
  dsimp only
  rw [State.startView_loseStack, State.startView_loseStack, hsites, hnet, State.startView_foldl _ htest, State.startView_modWing,
    State.startView_setBit _ _ _ (by decide) (by decide), State.startView_setBit _ _ _ (by decide) (by decide)]

theorem State.startView_railOff (w n : Nat) : (s.railOff w n).startView = s.startView := by
  obtain ⟨hboot, hpoint⟩ := bootStatus_ne_pwrRail w
  have hfreed (u : State) : u.freed.startView = u.startView := startView_of_regs rfl rfl
  unfold State.railOff
  dsimp only
  rw [State.startView_setFld _ _ _ _ hboot hpoint]
  split
  · rw [hfreed, State.startView_setFld _ _ _ _ hboot hpoint]
  · rfl

theorem State.startView_withdrawStack (k : Nat) : (s.withdrawStack k).startView = s.startView := by
  obtain ⟨hboot, hpoint⟩ := bootStatus_ne_memStkUsable k
  have hcat (u : State) (c : Cat) : ({ u with cat := c } : State).startView = u.startView := startView_of_reports (.catalogue u c)
  unfold State.withdrawStack
  dsimp only
  rw [startView_of_reports (Reports.catDirty _ _), hcat, State.startView_setFld _ _ _ _ hboot hpoint]

theorem Reports.markWingDead (w origin detail : Nat) : Reports s (s.markWingDead w origin detail) := by
  unfold State.markWingDead
  dsimp only
  exact ((Reports.catalogue s _).trans (.catDirty _ _)).trans (.foldl (fun u t => .setEntry u _ _ _ _) _ _)

theorem State.startView_partFail (p cause : Nat) : (s.partFail p cause).startView = s.startView := by
  have hboot : R.CUR_BOOT_STATUS ≠ R.SEC_PART_FAILED (p / 32) := by simp only [R.CUR_BOOT_STATUS, R.SEC_PART_FAILED]; omega
  have hpoint : R.CLK_OP_STATUS ≠ R.SEC_PART_FAILED (p / 32) := by simp only [R.CLK_OP_STATUS, R.SEC_PART_FAILED]; omega
  rw [State.partFail, State.partFailAt, startView_of_reports (Reports.fault _ _ _ _ _), State.startView_setBit _ _ _ hboot hpoint]

/-- R349: the trip of a rail leaves the start. -/
theorem State.startView_railTrip (w amps mv : Nat) : (s.railTrip w amps mv).startView = s.startView := by
  obtain ⟨hboot, hpoint⟩ := bootStatus_ne_pwrRail w
  have htokens (u : State) (c : Bool) (n : Nat) : (if c then u.setTokens n else u).startView = u.startView := by
    split
    · exact u.startView_setFld _ _ _ (by decide) (by decide)
    · rfl
  have hramp (u : State) (c : Bool) :
      (if c then (u.setBit R.PWR_WING_STATUS 20 false).setFld R.PWR_WING_STATUS 19 16 0 else u).startView = u.startView := by
    split
    · rw [State.startView_setFld _ _ _ _ (by decide) (by decide), State.startView_setBit _ _ _ (by decide) (by decide)]
    · rfl
  unfold State.railTrip
  dsimp only
  rw [State.startView_foldl _ fun u p => u.startView_partFail p 0x20, startView_of_reports (Reports.foldl (fun u t => .curFault u _ _) _ _),
    State.startView_withdrawStack, State.startView_withdrawStack, startView_of_reports (Reports.markWingDead _ w _ _),
    startView_of_reports (Reports.curFault _ _ _), State.startView_setFld _ _ _ _ hboot hpoint, State.startView_railOff, State.startView_loseWing, hramp, htokens]

/-! ### The work of S1 -/

/-- R373: the wing's entry in the start. -/
theorem State.startView_wingAtStart (w : Nat) : (s.wingAtStart w).startView = s.startView := by
  obtain ⟨hboot, hpoint⟩ := bootStatus_ne_pwrRail w
  unfold State.wingAtStart
  dsimp only
  rw [State.startView_modWing, State.startView_setBit _ _ _ (by decide) (by decide), State.startView_setBit _ _ _ (by decide) (by decide),
    State.startView_setFld _ _ _ _ hboot hpoint, State.startView_setFld _ _ _ _ hboot hpoint]

theorem State.startView_wingsS1 (dead : List (Nat × Nat × Nat)) : (s.wingsS1 dead).startView = s.startView := by
  unfold State.wingsS1
  refine s.startView_foldl (fun u w => ?_) _
  dsimp only
  split
  · rfl
  · split
    · exact (State.startView_railTrip _ _ _ _).trans (u.startView_wingAtStart w)
    · exact u.startView_wingAtStart w

theorem State.startView_startTables : s.startTables.startView = s.startView := by
  have hcat (u : State) (c : Cat) : ({ u with cat := c } : State).startView = u.startView := startView_of_reports (.catalogue u c)
  have hlost (u : State) (c : Cat) (b : Bool) : ({ u with cat := c, cur := { u.cur with infieldLostSinceCold := b } } : State).startView = u.startView :=
    startView_of_regs rfl rfl
  unfold State.startTables
  split
  · exact hcat s _
  · dsimp only
    rw [startView_of_reports (Reports.curFault _ _ _), State.startView_setBit _ _ _ (by decide) (by decide), hlost]

theorem Reports.noteSpares (w : Nat) : Reports s (s.noteSpares w) := by
  unfold State.noteSpares
  dsimp only
  split
  · exact .refl s
  · exact (Reports.catalogue s _).trans (.catDirty _ _)

theorem Reports.seamFails (i : Nat) : Reports s (s.seamFails i) := by
  unfold State.seamFails
  dsimp only
  split
  · exact .refl s
  · exact (Reports.catalogue s _).trans (.catDirty _ _)

theorem Reports.startDead (t : Nat) : Reports s (s.startDead t) := by
  unfold State.startDead
  split
  · exact .refl s
  · exact (Reports.markSiteDead s _ _ _ _).trans (.curFault _ _ _)

theorem State.startView_seamsS1 (wires : List (Nat × Nat × Nat × Nat)) (cold : Bool) : (s.seamsS1 wires cold).startView = s.startView := by
  have hwires : ({ s with wires := wiresUsed wires } : State).startView = s.startView := startView_of_regs rfl rfl
  have hbroken := startView_of_reports (Reports.foldl (fun u i => .seamFails u i) (brokenSeams wires) { s with wires := wiresUsed wires })
  unfold State.seamsS1
  dsimp only
  split
  · exact (startView_of_reports (.foldl (fun u w => .noteSpares u w) _ _)).trans (hbroken.trans hwires)
  · exact hbroken.trans hwires

/-- R373: the routers that fail their self-test. -/
def State.routersS1 (s : State) (deadRouters : List Nat) : State :=
  (deadRouters.filter fun t => t < 3072 && s.wingUp (wingOf t)).foldl (fun s t => s.startDead t) s

/-- R262, R332: the seams are aligned and the routes built. -/
def State.routesS1 (s : State) : State := (s.alignSeams fun _ => true).buildRoutes

theorem State.routesS1_frame : ∃ net, s.routesS1 = { s with net := net } := by
  obtain ⟨net, h⟩ := s.alignSeams_frame fun _ => true
  unfold State.routesS1
  rw [h]
  exact ⟨_, rfl⟩

theorem State.startView_routesS1 : s.routesS1.startView = s.startView := by
  obtain ⟨net, h⟩ := s.routesS1_frame
  rw [h]
  exact startView_of_regs rfl rfl

/-! ### The failed seam links (R24) -/

theorem State.seams_setEntry (t e origin detail : Nat) : (s.setEntry t e origin detail).cat.tables.seams = s.cat.tables.seams := by
  unfold State.setEntry
  dsimp only
  split
  · rfl
  · rw [State.catDirty_tables]

theorem State.seams_noteSpares (w : Nat) : (s.noteSpares w).cat.tables.seams = s.cat.tables.seams := by
  unfold State.noteSpares
  dsimp only
  split
  · rfl
  · rw [State.catDirty_tables]

theorem State.seams_startDead (t : Nat) : (s.startDead t).cat.tables.seams = s.cat.tables.seams := by
  unfold State.startDead State.markSiteDead
  split
  · rfl
  · rw [State.curFault_cat, State.seams_setEntry]

theorem State.mem_seamFails {i : Nat} (hi : i < 336) : i ∈ (s.seamFails i).cat.tables.seams := by
  unfold State.seamFails
  dsimp only
  split
  next h =>
    rw [Bool.or_eq_true, decide_eq_true_eq, List.contains_iff_mem] at h
    exact h.resolve_left (by omega)
  next =>
    rw [State.catDirty_tables]
    exact List.mem_append_right _ (List.mem_singleton.mpr rfl)

theorem State.seams_seamFails_sub (j : Nat) {i : Nat} (h : i ∈ s.cat.tables.seams) : i ∈ (s.seamFails j).cat.tables.seams := by
  unfold State.seamFails
  dsimp only
  split
  · exact h
  · rw [State.catDirty_tables]
    exact List.mem_append_left _ h

theorem State.mem_seamsS1 {wires : List (Nat × Nat × Nat × Nat)} (cold : Bool) {i : Nat} (hmem : i ∈ brokenSeams wires) (hi : i < 336) :
    i ∈ (s.seamsS1 wires cold).cat.tables.seams := by
  have hbroken := foldl_establishes (P := fun u => i ∈ u.cat.tables.seams) (f := fun s i => s.seamFails i) hmem (fun u => u.mem_seamFails hi)
    (fun u j hu => u.seams_seamFails_sub j hu) { s with wires := wiresUsed wires }
  unfold State.seamsS1
  dsimp only
  split
  · rw [foldl_leaves (fun u : State => u.cat.tables.seams) fun u w => u.seams_noteSpares w]
    exact hbroken
  · exact hbroken

/-! ### The stage -/

/-- R373, R381: the kind of the start and its stage are shown. -/
def State.kindShown (s : State) (reason : Nat) : State :=
  ((s.setFld R.CUR_BOOT_STATUS 27 24 reason).setBit R.CUR_BOOT_STATUS 6 (reason == 0)).setFld R.CUR_BOOT_STATUS 2 0 1

/-- R373: a cold start forgets which debug agents were seen. -/
def State.seenCleared (s : State) (reason : Nat) : State :=
  if reason == 0 then s else (s.setReg R.SEC_DEBUG_SEEN 0).setReg64 R.SEC_DEBUG_TIME_LO 0

/-- R373: TIME starts, and the start is counted. -/
def State.timeStarts (s : State) : State :=
  { s with time := 0, timeRunning := true, sites := [],
           cur := { s.cur with starts := s.cur.starts + 1, reachedS5 := false, infieldLostSinceCold := s.cur.infieldLostSinceCold && s.coldReason == 0 } }

/-- R326, R373: no switch is pending. -/
def State.switchForgotten (s : State) : State :=
  { s with clk := { s.clk with window := none, raise := false, lower := false, checked := false, settleStart := none } }

/-- R326, R373: every wing is to come up at P4. -/
def State.pointStarts (s : State) : State :=
  let s := { s with cat := .start, pwr := .start }
  (s.setReg R.CLK_OP_STATUS 0x44).switchForgotten

theorem State.bootS1_eq : s.bootS1 = ((s.timeStarts.kindShown s.coldReason).seenCleared s.coldReason).pointStarts := rfl

theorem State.coldReason_lt : s.coldReason < 16 := by
  unfold State.coldReason
  repeat' split
  all_goals decide

theorem State.kindShown_effect {reason : Nat} (h : reason < 16) : (s.kindShown reason).startClock = s.startClock ∧ (s.kindShown reason).stage = 1 ∧
    (s.kindShown reason).fld R.CUR_BOOT_STATUS 27 24 = reason ∧ (s.kindShown reason).warm = (reason == 0) := by
  refine ⟨rfl, State.fld_setFld_same _ _ _ _ _ (by decide) (by decide), ?_, ?_⟩
  · rw [State.kindShown, State.fld_setFld_other _ _ _ _ _ _ _ (by decide) (by decide) (by decide), State.fld_setBit_other _ _ _ _ _ _ (by decide) (by decide),
      State.fld_setFld_same _ _ _ _ _ (by decide) (by decide)]
    exact Nat.mod_eq_of_lt h
  · rw [State.warm, State.kindShown, State.bit_setFld_other _ _ _ _ _ _ (by decide) (by decide), State.bit_setBit_same _ _ _ _ (by decide)]

theorem State.seenCleared_effect (reason : Nat) : (s.seenCleared reason).startClock = s.startClock ∧
    (s.seenCleared reason).reg R.CUR_BOOT_STATUS = s.reg R.CUR_BOOT_STATUS := by
  unfold State.seenCleared
  split
  · exact ⟨rfl, rfl⟩
  · exact ⟨rfl, (State.reg_setReg64_other _ _ (by decide) (by decide)).trans (State.reg_setReg_other _ _ (by decide))⟩

theorem State.pointStarts_effect : s.pointStarts.startClock = s.startClock ∧ s.pointStarts.reg R.CUR_BOOT_STATUS = s.reg R.CUR_BOOT_STATUS ∧
    s.pointStarts.reg R.CLK_OP_STATUS = 0x44 := by
  have hforgotten (u : State) (a : Nat) : u.switchForgotten.reg a = u.reg a := State.reg_of_regs rfl a
  have hboth (u : State) (a : Nat) : ({ u with cat := .start, pwr := .start } : State).reg a = u.reg a := State.reg_of_regs rfl a
  refine ⟨rfl, ?_, ?_⟩
  · rw [State.pointStarts, hforgotten, State.reg_setReg_other _ _ (by decide), hboth]
  · rw [State.pointStarts, hforgotten, State.reg_setReg_same]

/-- R373: what the beginning of S1 fixes. -/
structure StartFixed (s u : State) : Prop where
  stage : u.stage = 1
  runs : u.timeRunning = true
  time : u.time = 0
  point : u.point = 4
  starts : u.cur.starts = s.cur.starts + 1
  reason : u.fld R.CUR_BOOT_STATUS 27 24 = s.coldReason
  warm : u.warm = decide (s.coldReason = 0)

theorem StartFixed.of_view {s u v : State} (h : StartFixed s u) (hview : v.startView = u.startView) : StartFixed s v := by
  simp only [State.startView, Prod.mk.injEq] at hview
  obtain ⟨htime, hruns, hstarts, hboot, hpoint⟩ := hview
  exact ⟨(State.fld_of_reg hboot 2 0).trans h.stage, hruns.trans h.runs, htime.trans h.time, (State.fld_of_reg hpoint 3 0).trans h.point,
    hstarts.trans h.starts, (State.fld_of_reg hboot 27 24).trans h.reason, (State.bit_of_reg hboot 6).trans h.warm⟩

theorem State.bootS1_fixes : StartFixed s s.bootS1 := by
  have hstarts : s.timeStarts.startClock = (0, true, s.cur.starts + 1) := rfl
  obtain ⟨hclock, hstage, hreason, hwarm⟩ := s.timeStarts.kindShown_effect s.coldReason_lt
  obtain ⟨hclock', hboot⟩ := (s.timeStarts.kindShown s.coldReason).seenCleared_effect s.coldReason
  obtain ⟨hclock'', hboot', hpoint⟩ := ((s.timeStarts.kindShown s.coldReason).seenCleared s.coldReason).pointStarts_effect
  rw [s.bootS1_eq]
  generalize s.timeStarts.kindShown s.coldReason = k at hclock hstage hreason hwarm hclock' hboot hclock'' hboot' hpoint ⊢
  generalize k.seenCleared s.coldReason = v at hclock' hboot hclock'' hboot' hpoint ⊢
  generalize v.pointStarts = u at hclock'' hboot' hpoint ⊢
  have hall := hclock''.trans (hclock'.trans (hclock.trans hstarts))
  simp only [State.startClock, Prod.mk.injEq] at hall
  obtain ⟨htime, hruns, hcount⟩ := hall
  have hreg := hboot'.trans hboot
  refine ⟨(State.fld_of_reg hreg 2 0).trans hstage, hruns, htime, ?_, hcount, (State.fld_of_reg hreg 27 24).trans hreason, ?_⟩
  · rw [State.point, State.fld, hpoint]
    decide
  · rw [State.warm, State.bit_of_reg hreg 6]
    exact hwarm

/-- R373: the work of S1 before the check that a site is left. -/
def State.workS1 (s : State) (dead : List (Nat × Nat × Nat)) (wires : List (Nat × Nat × Nat × Nat)) (routers : List Nat) : State :=
  (((s.bootS1.startTables.wingsS1 dead).seamsS1 wires (s.coldReason != 0)).routersS1 routers).routesS1

theorem State.stageS1_eq (dead : List (Nat × Nat × Nat)) (wires : List (Nat × Nat × Nat × Nat)) (routers : List Nat) : s.stageS1 dead wires routers =
    if allSites.any fun t => (s.workS1 dead wires routers).live t && (s.workS1 dead wires routers).wingUp (wingOf t) then s.workS1 dead wires routers
    else (s.workS1 dead wires routers).startFails 5 := rfl

theorem State.workS1_effect (dead : List (Nat × Nat × Nat)) (wires : List (Nat × Nat × Nat × Nat)) (routers : List Nat) :
    StartFixed s (s.workS1 dead wires routers) ∧ ∀ i ∈ brokenSeams wires, i < 336 → i ∈ (s.workS1 dead wires routers).cat.tables.seams := by
  have hseams (u : State) : u.routesS1.cat = u.cat := by
    obtain ⟨net, h⟩ := u.routesS1_frame
    rw [h]
  unfold State.workS1
  refine ⟨s.bootS1_fixes.of_view ?_, fun i hmem hi => ?_⟩
  · rw [State.startView_routesS1, State.routersS1, startView_of_reports (Reports.foldl (fun u t => .startDead u t) _ _), State.startView_seamsS1,
      State.startView_wingsS1, State.startView_startTables]
  · rw [hseams, State.routersS1, foldl_leaves (fun u : State => u.cat.tables.seams) fun u t => u.seams_startDead t]
    exact State.mem_seamsS1 _ _ hmem hi

theorem StartFixed.startFails {s u : State} (h : StartFixed s u) (error : Nat) : StartFixed s (u.startFails error) := by
  have hrun : (u.startFails error).startClock = u.startClock := by
    unfold State.startFails
    split
    · rfl
    · rfl
  simp only [State.startClock, Prod.mk.injEq] at hrun
  obtain ⟨htime, hruns, hstarts⟩ := hrun
  have hfld (hi lo : Nat) (hhi : hi < 28) (hlo : lo ≤ hi) : (u.startFails error).fld R.CUR_BOOT_STATUS hi lo = u.fld R.CUR_BOOT_STATUS hi lo := by
    unfold State.startFails
    split
    · rw [State.fld_setFld_other _ _ _ _ _ _ _ (.inl hhi) (by decide) hlo]
      exact State.fld_of_reg (u.reg_assertFault _) hi lo
    · rfl
  have hwarm : (u.startFails error).warm = u.warm := by
    unfold State.startFails
    split
    · rw [State.warm, State.bit_setFld_other _ _ _ _ _ _ (by decide) (by decide)]
      exact State.bit_of_reg (u.reg_assertFault _) 6
    · rfl
  exact ⟨(hfld 2 0 (by decide) (by decide)).trans h.stage, hruns.trans h.runs, htime.trans h.time,
    (State.fld_of_reg (u.reg_startFails_other error (by decide)) 3 0).trans h.point, hstarts.trans h.starts,
    (hfld 27 24 (by decide) (by decide)).trans h.reason, hwarm.trans h.warm⟩

theorem State.startFails_cat (error : Nat) : (s.startFails error).cat = s.cat := by
  unfold State.startFails
  split
  · rfl
  · rfl

theorem stageS1_clause (dead : List (Nat × Nat × Nat)) (wires : List (Nat × Nat × Nat × Nat)) (routers : List Nat) (h : s.leavesS0 = true) :
    ∃ u : State, Does (.stageS1 dead wires routers) s u ∧ u.stage = 1 ∧ u.timeRunning = true ∧ u.time = 0 ∧ u.point = 4 ∧
      u.cur.starts = s.cur.starts + 1 ∧ u.fld R.CUR_BOOT_STATUS 27 24 = s.coldReason ∧ u.warm = decide (s.coldReason = 0) ∧
      ∀ i ∈ brokenSeams wires, i < 336 → i ∈ u.cat.tables.seams := by
  obtain ⟨hfixed, hseams⟩ := s.workS1_effect dead wires routers
  have hstage : StartFixed s (s.stageS1 dead wires routers) ∧ ∀ i ∈ brokenSeams wires, i < 336 → i ∈ (s.stageS1 dead wires routers).cat.tables.seams := by
    rw [s.stageS1_eq]
    split
    · exact ⟨hfixed, hseams⟩
    · exact ⟨hfixed.startFails 5, fun i hmem hi => by rw [State.startFails_cat]; exact hseams i hmem hi⟩
  obtain ⟨⟨hs, hruns, htime, hpoint, hstarts, hreason, hwarm⟩, hbroken⟩ := hstage
  exact ⟨_, (exec_stageS1 dead wires routers s).trans (when_true h), hs, hruns, htime, hpoint, hstarts, hreason, hwarm, hbroken⟩

end

end Sys2Proof.Machine
end

section
/-! PROOFS. Stages S2 to S4 (R31, R375-R378, R398). -/

namespace Sys2Proof.Machine

/-- The second state is the first after work on the catalogue in a start: Curator's state, TIME and the stage are the same, and no dead site is good
again. -/
structure CatalogueWork (s u : State) : Prop where
  cur : u.cur = s.cur
  time : u.time = s.time
  boot : u.reg R.CUR_BOOT_STATUS = s.reg R.CUR_BOOT_STATUS
  dead : ∀ x, s.Dead x → u.Dead x

namespace CatalogueWork

theorem refl (s : State) : CatalogueWork s s := ⟨rfl, rfl, rfl, fun _ h => h⟩

theorem trans {s u v : State} (h : CatalogueWork s u) (h' : CatalogueWork u v) : CatalogueWork s v :=
  ⟨h'.cur.trans h.cur, h'.time.trans h.time, h'.boot.trans h.boot, fun x hx => h'.dead x (h.dead x hx)⟩

theorem foldl {α : Type} {f : State → α → State} (h : ∀ u x, CatalogueWork u (f u x)) (l : List α) (s : State) : CatalogueWork s (l.foldl f s) :=
  List.foldlRecOn (motive := CatalogueWork s) l f (refl s) fun u hu x _ => hu.trans (h u x)

theorem of_reports {s u : State} (h : Reports s u) (dead : ∀ x, s.Dead x → u.Dead x) : CatalogueWork s u :=
  ⟨h.view State.cur fun _ _ _ _ _ => rfl, h.view State.time fun _ _ _ _ _ => rfl, h.reg (by decide) (by decide), dead⟩

/-- Work that keeps the entries of all sites, and writes no register of the start. -/
theorem of_sites {s u : State} (cur : u.cur = s.cur) (time : u.time = s.time) (boot : u.reg R.CUR_BOOT_STATUS = s.reg R.CUR_BOOT_STATUS)
    (sites : u.cat.tables.sites = s.cat.tables.sites) : CatalogueWork s u := ⟨cur, time, boot, fun _ hx => hx.of_tables sites⟩

theorem warm {s u : State} (h : CatalogueWork s u) : u.warm = s.warm := State.bit_of_reg h.boot 6

section
variable (s : State)

theorem startDead (t : Nat) : CatalogueWork s (s.startDead t) := of_reports (.startDead s t) fun _ hx => hx.startDead t

theorem catDirty (dead : Bool) : CatalogueWork s (s.catDirty dead) := of_reports (.catDirty s dead) fun _ hx => hx.of_tables (by rw [State.catDirty_tables])

/-- The catalogue's tables change, but for the entries of sites. -/
theorem tables (tb : CatTables) (h : tb.sites = s.cat.tables.sites) : CatalogueWork s { s with cat := { s.cat with tables := tb } } :=
  of_sites rfl rfl (State.reg_of_regs rfl _) h

theorem setReg {a : Nat} (v : BitVec 32) (h : R.CUR_BOOT_STATUS ≠ a) : CatalogueWork s (s.setReg a v) := of_sites rfl rfl (s.reg_setReg_other v h) rfl
theorem setFld {a : Nat} (hi lo n : Nat) (h : R.CUR_BOOT_STATUS ≠ a) : CatalogueWork s (s.setFld a hi lo n) := setReg s _ h
theorem setBit {a : Nat} (i : Nat) (b : Bool) (h : R.CUR_BOOT_STATUS ≠ a) : CatalogueWork s (s.setBit a i b) := setReg s _ h

theorem modSite (t : Nat) (f : Site → Site) : CatalogueWork s (s.modSite t f) := of_sites rfl rfl (State.reg_of_regs rfl _) rfl
theorem setTreg (t a : Nat) (v : BitVec 32) : CatalogueWork s (s.setTreg t a v) := modSite s t _
theorem tested (t at_ : Nat) : CatalogueWork s (s.tested t at_) := (setTreg s t _ _).trans (setTreg _ t _ _)
theorem modFlash (flash : Flash) : CatalogueWork s { s with flash := flash } := of_sites rfl rfl (State.reg_of_regs rfl _) rfl

theorem withdrawStack (k : Nat) : CatalogueWork s (s.withdrawStack k) := by
  unfold State.withdrawStack
  dsimp only
  refine (setFld s 15 0 0 (bootStatus_ne_memStkUsable k).1).trans ((tables _ _ ?_).trans (catDirty _ _))
  rfl

/-- An entry that changes, but not its status. -/
theorem setEntry {t e : Nat} (h : entryStatus e = s.siteStatus t) (origin detail : Nat) : CatalogueWork s (s.setEntry t e origin detail) := by
  refine of_reports (.setEntry s _ _ _ _) fun x hx => ?_
  rw [State.Dead, State.siteStatus, State.site_setEntry]
  split
  next hxt => exact h.trans (hxt ▸ hx)
  next => exact hx

theorem markDegraded (t reason origin detail : Nat) : CatalogueWork s (s.markDegraded t reason origin detail) := by
  unfold State.markDegraded
  split
  next hgood =>
    refine of_reports (.setEntry s _ _ _ _) fun x hx => ?_
    rw [State.Dead, State.siteStatus, State.site_setEntry, if_neg]
    · exact hx
    · rintro rfl
      exact absurd (hgood.symm.trans hx) (by decide)
  next => exact of_sites rfl rfl (State.reg_of_regs rfl _) rfl
  next => exact refl s

theorem entryStatus_lt (e : Nat) : entryStatus e < 4 := bitsOf_two_lt e 4

theorem useSpare (t origin : Nat) : CatalogueWork s (s.useSpare t origin) := by
  have hstatus : entryStatus (mkEntry (s.cat.tables.site t / 256 + 1) (bitsOf (s.cat.tables.site t) 7 6) (entryStatus (s.cat.tables.site t))
      (s.cat.tables.site t % 16)) = s.siteStatus t := entryStatus_mkEntry (entryStatus_lt _) (Nat.mod_lt _ (by decide))
  exact (setEntry s hstatus origin 0).trans (markDegraded _ _ _ _ _)

theorem softRepair (t n : Nat) (full : Bool) : CatalogueWork s (s.softRepair t n full) := by
  unfold State.softRepair
  dsimp only
  have hentry : CatalogueWork s (s.setEntry t (mkEntry (max (s.cat.tables.site t / 256) (Map.get (fun _ => 0) s.fuses.sites t / 256 + n))
      (bitsOf (s.cat.tables.site t) 7 6) (entryStatus (s.cat.tables.site t)) (s.cat.tables.site t % 16)) 1 0) :=
    setEntry s (entryStatus_mkEntry (entryStatus_lt _) (Nat.mod_lt _ (by decide))) 1 0
  split
  · exact (hentry.trans (modFlash _ _)).trans (markDegraded _ _ _ _ _)
  · exact hentry.trans (modFlash _ _)

theorem retireRow (e origin : Nat) : CatalogueWork s (s.retireRow e origin) := by
  unfold State.retireRow
  dsimp only
  split
  · exact refl s
  · refine (tables s _ ?_).trans (catDirty _ _)
    rfl

theorem retireBanks : CatalogueWork s s.retireBanks := by
  unfold State.retireBanks
  refine foldl (fun u k => foldl (fun u ch => foldl (fun u b => ?_) _ u) _ u) _ s
  split
  · exact retireRow u _ _
  · exact refl u

theorem stackAtStart (k : Nat) (dies : List Nat) : CatalogueWork s (s.stackAtStart k dies) := by
  have hstate : R.CUR_BOOT_STATUS ≠ R.MEM_STK_STATE k := by simp only [R.CUR_BOOT_STATUS, R.MEM_STK_STATE]; omega
  have husable := (bootStatus_ne_memStkUsable k).1
  unfold State.stackAtStart
  dsimp only
  refine (tables s _ ?_).trans (((setFld _ _ _ _ hstate).trans (setFld _ _ _ _ hstate)).trans ((setFld _ _ _ _ husable).trans (setFld _ _ _ _ husable)))
  rfl

theorem publishPort (p origin : Nat) : CatalogueWork s (s.publishPort p origin) := by
  have hport (f : Port → Port) : CatalogueWork s (s.modPort p f) := of_sites rfl rfl (State.reg_of_regs rfl _) rfl
  unfold State.publishPort
  dsimp only
  split
  · exact hport _
  · refine (hport _).trans ((tables _ _ ?_).trans (catDirty _ _))
    rfl

end

end CatalogueWork

section
variable (s : State)

/-! ### Stage S2 (R375-R377) -/

/-- R375: the sites that fail their tests. -/
def State.deadS2 (s : State) (dead : List Nat) : State := (dead.filter fun t => t < 3072 && kindOf t != .mi).foldl (fun s t => s.startDead t) s

/-- R375: a cold start repairs the arrays anew. -/
def State.arraysS2 (s : State) (repairs : List (Nat × Nat × Bool)) : State :=
  (repairs.filter fun e => e.1 < 3072 && kindOf e.1 != .mi && s.live e.1 && s.wingUp (wingOf e.1)).foldl (fun s e => s.softRepair e.1 e.2.1 e.2.2)
    { s with flash := { s.flash with softRepairs := [] } }

/-- R257, R376: a cold start retires the rows that wait and those found. -/
def State.rowsS2 (s : State) (retired : List (BitVec 64)) : State :=
  ((s.flash.pendingRows ++ retired.map fun (e : BitVec 64) => e.toNat / 2 ^ 28 * 2 ^ 28).foldl (fun (s : State) e => s.retireRow e 1) s).retireBanks

/-- R376: no row waits. -/
def State.rowsDone (s : State) : State := { s with flash := { s.flash with pendingRows := [] } }

/-- R375-R377: a cold start repairs the arrays and retires rows. -/
def State.repairedS2 (s : State) (repairs : List (Nat × Nat × Bool)) (retired : List (BitVec 64)) : State := ((s.arraysS2 repairs).rowsS2 retired).rowsDone

/-- R251, R256: every stack takes its capacity. -/
def State.stackS2 (s : State) (failedDies : List (Nat × Nat)) (k : Nat) : State :=
  s.stackAtStart k (if s.warm then [] else (failedDies.filter fun e => e.1 == k).map (·.2))
def State.stacksS2 (s : State) (failedDies : List (Nat × Nat)) : State := (List.range 32).foldl (fun s k => s.stackS2 failedDies k) s

/-- R376: stacks are withdrawn. -/
def State.withdrawnS2 (s : State) (withdrawn : List Nat) : State := (withdrawn.filter (· < 32)).foldl (fun s k => s.withdrawStack k) s

/-- R377: every stack is zeroed. -/
def State.zeroedS2 (s : State) : State :=
  { s with dram := { Dram.start with zeroedAt := s.cur.starts, zeroedEpochs := s.dram.epochs, epochs := s.dram.epochs,
                                     remaps := s.cat.tables.remaps } }

/-- The work of S2 on the sites. -/
def State.sitesS2 (s : State) (dead : List Nat) (repairs : List (Nat × Nat × Bool)) (retired : List (BitVec 64)) : State :=
  if (s.deadS2 dead).warm then s.deadS2 dead else (s.deadS2 dead).repairedS2 repairs retired

theorem State.stageS2_eq (dead withdrawn : List Nat) (repairs : List (Nat × Nat × Bool)) (retired : List (BitVec 64)) (dies : List (Nat × Nat)) :
    s.stageS2 dead withdrawn repairs retired dies =
      (((s.sitesS2 dead repairs retired).stacksS2 dies).withdrawnS2 withdrawn).zeroedS2.setFld R.CUR_BOOT_STATUS 2 0 2 := by
  unfold State.stageS2
  extract_lets dead' here flash' cleared arrays rows banks flash'' sites' stacks' withdrawn' start' dram'
  have hdead : dead' = s.deadS2 dead := rfl
  have harrays : arrays = dead'.arraysS2 repairs := rfl
  have hsites : sites' = if dead'.warm then dead' else banks.rowsDone := rfl
  clear_value dead'
  have hbanks : banks = arrays.rowsS2 retired := rfl
  clear_value arrays
  clear_value banks
  have hstacks : stacks' = sites'.stacksS2 dies := rfl
  clear_value sites'
  have hwithdrawn : withdrawn' = stacks'.withdrawnS2 withdrawn := rfl
  clear_value stacks'
  have hzeroed : ({ withdrawn' with dram := dram' } : State) = withdrawn'.zeroedS2 := rfl
  rw [hzeroed, hwithdrawn, hstacks, hsites, hbanks, harrays, hdead]
  rfl

theorem CatalogueWork.deadS2 (dead : List Nat) : CatalogueWork s (s.deadS2 dead) := .foldl (fun u t => .startDead u t) _ s

theorem CatalogueWork.repairedS2 (repairs : List (Nat × Nat × Bool)) (retired : List (BitVec 64)) : CatalogueWork s (s.repairedS2 repairs retired) := by
  have harrays : CatalogueWork s (s.arraysS2 repairs) := (CatalogueWork.modFlash s _).trans (.foldl (fun u e => .softRepair u _ _ _) _ _)
  have hrows (u : State) : CatalogueWork u (u.rowsS2 retired) := (CatalogueWork.foldl (fun u e => .retireRow u e 1) _ u).trans (.retireBanks _)
  have hdone (u : State) : CatalogueWork u u.rowsDone := .modFlash u _
  exact (harrays.trans (hrows _)).trans (hdone _)

theorem CatalogueWork.stacksS2 (dies : List (Nat × Nat)) : CatalogueWork s (s.stacksS2 dies) := by
  have hstack (u : State) (k : Nat) : CatalogueWork u (u.stackS2 dies k) := .stackAtStart u k _
  exact .foldl hstack _ s

theorem CatalogueWork.withdrawnS2 (withdrawn : List Nat) : CatalogueWork s (s.withdrawnS2 withdrawn) := .foldl (fun u k => .withdrawStack u k) _ s

theorem State.dead_deadS2 {dead : List Nat} {t : Nat} (hmem : t ∈ dead) (ht : t < 3072) (hkind : kindOf t ≠ .mi) : (s.deadS2 dead).Dead t :=
  foldl_establishes (P := fun u => u.Dead t) (f := fun s t => s.startDead t) (List.mem_filter.mpr ⟨hmem, by simp [ht, hkind]⟩)
    (fun u => u.dead_startDead_same t) (fun _ x hu => hu.startDead x) s

theorem State.flash_stackAtStart (k : Nat) (dies : List Nat) : (s.stackAtStart k dies).flash = s.flash := by
  have hset (u : State) (a hi lo n : Nat) : (u.setFld a hi lo n).flash = u.flash := rfl
  unfold State.stackAtStart
  dsimp only
  rw [hset, hset, hset, hset]

theorem State.flash_withdrawStack (k : Nat) : (s.withdrawStack k).flash = s.flash :=
  (Reports.catDirty _ _).view State.flash fun _ _ _ _ _ => rfl

theorem State.sitesS2_effect (dead : List Nat) (repairs : List (Nat × Nat × Bool)) (retired : List (BitVec 64)) :
    CatalogueWork s (s.sitesS2 dead repairs retired) ∧
      (∀ t ∈ dead, t < 3072 → kindOf t ≠ .mi → (s.sitesS2 dead repairs retired).Dead t) ∧
      (s.warm = false → (s.sitesS2 dead repairs retired).flash.pendingRows = []) := by
  have hdead := CatalogueWork.deadS2 s dead
  have hmark (t : Nat) (hmem : t ∈ dead) (ht : t < 3072) (hkind : kindOf t ≠ .mi) := s.dead_deadS2 hmem ht hkind
  unfold State.sitesS2
  generalize s.deadS2 dead = u at hdead hmark ⊢
  rw [hdead.warm]
  split
  next h => exact ⟨hdead, hmark, fun hcold => absurd (h.symm.trans hcold) (by decide)⟩
  next =>
    have hwork := CatalogueWork.repairedS2 u repairs retired
    exact ⟨hdead.trans hwork, fun t hmem ht hkind => hwork.dead t (hmark t hmem ht hkind), fun _ => rfl⟩

/-- R375-R377: what S2 leaves. -/
theorem State.stageS2_effect (dead withdrawn : List Nat) (repairs : List (Nat × Nat × Bool)) (retired : List (BitVec 64)) (dies : List (Nat × Nat)) :
    let u := s.stageS2 dead withdrawn repairs retired dies
    u.stage = 2 ∧ u.dram.blocks = [] ∧ u.dram.zeroedAt = s.cur.starts ∧ (∀ t ∈ dead, t < 3072 → kindOf t ≠ .mi → u.siteStatus t = 1) ∧
      (∀ k ∈ withdrawn, k < 32 → u.fld (R.MEM_STK_USABLE k) 15 0 = 0) ∧ (s.warm = false → u.flash.pendingRows = []) := by
  obtain ⟨hsites, hdead, hrows⟩ := s.sitesS2_effect dead repairs retired
  rw [s.stageS2_eq]
  generalize s.sitesS2 dead repairs retired = v at hsites hdead hrows ⊢
  have hstacks := CatalogueWork.stacksS2 v dies
  have hflash : (v.stacksS2 dies).flash = v.flash :=
    foldl_leaves (f := fun (s : State) k => s.stackS2 dies k) State.flash (fun u k => u.flash_stackAtStart k _) _ v
  generalize v.stacksS2 dies = w at hstacks hflash ⊢
  have hwork := hstacks.trans (CatalogueWork.withdrawnS2 w withdrawn)
  have hflash' : (w.withdrawnS2 withdrawn).flash = w.flash := foldl_leaves (f := fun (s : State) k => s.withdrawStack k) State.flash
    (fun u k => u.flash_withdrawStack k) _ w
  have husable (k : Nat) (hmem : k ∈ withdrawn) (hk : k < 32) : (w.withdrawnS2 withdrawn).fld (R.MEM_STK_USABLE k) 15 0 = 0 :=
    foldl_establishes (P := fun u => u.fld (R.MEM_STK_USABLE k) 15 0 = 0) (f := fun s k => s.withdrawStack k) (List.mem_filter.mpr ⟨hmem, by simp [hk]⟩)
      (fun u => u.usable_withdrawStack_same hk) (fun u j hu => u.usable_withdrawStack_of_withdrawn hu hk j) w
  generalize w.withdrawnS2 withdrawn = x at hwork hflash' husable ⊢
  have hzeroed : x.zeroedS2.dram.blocks = [] ∧ x.zeroedS2.dram.zeroedAt = x.cur.starts ∧ x.zeroedS2.cat = x.cat ∧ x.zeroedS2.flash = x.flash ∧
      x.zeroedS2.regs = x.regs := ⟨rfl, rfl, rfl, rfl, rfl⟩
  obtain ⟨hblocks, hat, hcat, hflash'', hregs⟩ := hzeroed
  generalize x.zeroedS2 = y at hblocks hat hcat hflash'' hregs ⊢
  have hset : (y.setFld R.CUR_BOOT_STATUS 2 0 2).dram = y.dram ∧ (y.setFld R.CUR_BOOT_STATUS 2 0 2).cat = y.cat ∧
      (y.setFld R.CUR_BOOT_STATUS 2 0 2).flash = y.flash := ⟨rfl, rfl, rfl⟩
  obtain ⟨hset1, hset2, hset3⟩ := hset
  refine ⟨State.fld_setFld_same _ _ _ _ _ (by decide) (by decide), by rw [hset1, hblocks], by rw [hset1, hat, hwork.cur, hsites.cur],
    fun t hmem ht hkind => ?_, fun k hmem hk => ?_, fun hcold => by rw [hset3, hflash'', hflash', hflash, hrows hcold]⟩
  · exact (hwork.dead t (hdead t hmem ht hkind)).of_tables (by rw [hset2, hcat])
  · rw [State.fld_setFld_ne _ _ _ _ _ _ (bootStatus_ne_memStkUsable k).1.symm, State.fld_of_reg (State.reg_of_regs hregs _)]
    exact husable k hmem hk

theorem stageS2_clause (dead withdrawn : List Nat) (repairs : List (Nat × Nat × Bool)) (retired : List (BitVec 64)) (dies : List (Nat × Nat))
    (hin : s.inStage 1 = true) : ∃ u : State, Does (.stageS2 (dead, repairs) withdrawn retired dies) s u ∧ u.stage = 2 ∧ u.dram.blocks = [] ∧
      u.dram.zeroedAt = s.cur.starts ∧ (∀ t ∈ dead, t < 3072 → kindOf t ≠ .mi → u.siteStatus t = 1) ∧
      (∀ k ∈ withdrawn, k < 32 → u.fld (R.MEM_STK_USABLE k) 15 0 = 0) ∧ (s.warm = false → u.flash.pendingRows = []) :=
  ⟨s.stageS2 dead withdrawn repairs retired dies, (exec_stageS2 (dead, repairs) withdrawn retired dies s).trans (when_true hin),
    s.stageS2_effect dead withdrawn repairs retired dies⟩

/-! ### Stage S3 (R371, R398) -/

/-- R398: a port may begin its attempts. -/
def State.portBegins (s : State) (p : Nat) : State := (s.setPortState p 1).modPort p fun _ => { Port.start with nextTry := s.time }

/-- R398: the port is DOWN, with no attempt made and the next one now. -/
def State.PortFresh (s : State) (p : Nat) : Prop := s.portState p = 1 ∧ (s.port p).tries = 0 ∧ (s.port p).nextTry = s.time

theorem lnkPortStatus_injective {p q : Nat} (h : p ≠ q) : R.LNK_PORT_STATUS p ≠ R.LNK_PORT_STATUS q := by
  simp only [R.LNK_PORT_STATUS]
  omega

theorem State.port_modPort_same (p : Nat) (f : Port → Port) : (s.modPort p f).port p = f (s.port p) := Map.get_modify_same _ _ _ _

theorem State.port_modPort_other {p q : Nat} (f : Port → Port) (h : p ≠ q) : (s.modPort q f).port p = s.port p := Map.get_modify_other _ _ _ h

theorem State.portFresh_portBegins_same (p : Nat) : (s.portBegins p).PortFresh p := by
  have hport : (s.portBegins p).port p = { Port.start with nextTry := s.time } := State.port_modPort_same _ _ _
  have htime : (s.portBegins p).time = s.time := rfl
  refine ⟨?_, by rw [hport]; rfl, by rw [hport, htime]⟩
  exact (State.fld_of_reg (reg_modPort _ p _ _) 31 28).trans (State.fld_setFld_same _ _ _ _ _ (by decide) (by decide))

theorem State.PortFresh.portBegins {s : State} {p : Nat} (h : s.PortFresh p) (q : Nat) : (s.portBegins q).PortFresh p := by
  by_cases hpq : p = q
  · exact hpq ▸ s.portFresh_portBegins_same p
  · obtain ⟨hstate, htries, hnext⟩ := h
    have hset : (s.setPortState q 1).port p = s.port p := rfl
    have hport : (s.portBegins q).port p = s.port p := (State.port_modPort_other _ _ hpq).trans hset
    have htime : (s.portBegins q).time = s.time := rfl
    refine ⟨?_, by rw [hport, htries], by rw [hport, htime, hnext]⟩
    exact ((State.fld_of_reg (reg_modPort _ q _ _) 31 28).trans (State.fld_setFld_ne _ _ _ _ _ _ (lnkPortStatus_injective hpq))).trans hstate

/-- R398: every port may begin its attempts. -/
def State.portsBegin (s : State) : State := allPorts.foldl (fun s p => s.portBegins p) s

theorem State.portsBegin_effect : s.portsBegin.time = s.time ∧ ∀ p, p < 32 → s.portsBegin.PortFresh p :=
  ⟨foldl_leaves (f := fun (s : State) p => s.portBegins p) State.time (fun _ _ => rfl) _ s, fun p hp =>
    foldl_establishes (P := fun u => u.PortFresh p) (f := fun s p => s.portBegins p) (List.mem_range.mpr hp) (fun u => u.portFresh_portBegins_same p)
      (fun _ q hu => hu.portBegins q) s⟩

theorem State.port_setFld (a hi lo n p : Nat) : (s.setFld a hi lo n).port p = s.port p := rfl

theorem execStageS3_eq : execStageS3 s = s.when (s.inStage 2) (s.portsBegin.setFld R.CUR_BOOT_STATUS 2 0 3) := rfl

theorem stageS3_clause (hin : s.inStage 2 = true) : ∃ u : State, Does .stageS3 s u ∧ u.stage = 3 ∧
    ∀ p, p < 32 → u.portState p = 1 ∧ (u.port p).tries = 0 ∧ (u.port p).nextTry = s.time := by
  have hdoes : Does .stageS3 s (s.portsBegin.setFld R.CUR_BOOT_STATUS 2 0 3) := (exec_stageS3 s).trans ((execStageS3_eq s).trans (when_true hin))
  obtain ⟨htime, hfresh⟩ := s.portsBegin_effect
  generalize s.portsBegin = v at hfresh htime hdoes
  refine ⟨_, hdoes, State.fld_setFld_same _ _ _ _ _ (by decide) (by decide), fun p hp => ?_⟩
  obtain ⟨hstate, htries, hnext⟩ := hfresh p hp
  rw [State.port_setFld]
  refine ⟨(State.fld_setFld_ne _ _ _ _ _ _ ?_).trans hstate, htries, hnext.trans htime⟩
  simp only [R.LNK_PORT_STATUS, R.CUR_BOOT_STATUS]
  omega

/-! ### Stage S4 (R378, R379) -/

/-- R378: a site that S4 tests. -/
def State.testedS4 (s : State) (t : Nat) : Bool := t < 3072 && s.live t && s.wingUp (wingOf t)

/-- R378: the repaired arrays use their spare columns. -/
def State.sparesS4 (s : State) (repaired : List Nat) : State :=
  (repaired.filter fun t => s.testedS4 t && kindOf t = .m).foldl (fun s t => s.useSpare t 1) s

/-- R378: the sites that fail are dead, and the stacks of memory interfaces among them are withdrawn. -/
def State.deadS4 (s : State) (bad : List Nat) : State :=
  (bad.filter fun t => kindOf t = .mi).foldl (fun s t => s.withdrawStack (miStack t).1) (bad.foldl (fun s t => s.startDead t) s)

/-- R390: every good site takes the time of its test. -/
def State.timesS4 (s : State) : State :=
  (allSites.filter fun t => s.live t && s.wingUp (wingOf t) && kindOf t != .mi).foldl (fun s t => s.tested t s.time) s

/-- R31, R378: the catalogue that S4 publishes. -/
def State.readyS4 (s : State) (repaired bad : List Nat) : State := ((s.sparesS4 repaired).deadS4 bad).timesS4

theorem State.stageS4_eq (repaired dead crc : List Nat) : s.stageS4 repaired dead crc =
    let v := s.readyS4 repaired ((dead ++ crc).filter s.testedS4).eraseDups
    (v.portsAtStart.setBit R.CAT_STATUS 3 v.warm).publish.setFld R.CUR_BOOT_STATUS 2 0 4 := rfl

theorem CatalogueWork.deadS4 (bad : List Nat) : CatalogueWork s (s.deadS4 bad) :=
  (CatalogueWork.foldl (fun u t => .startDead u t) _ s).trans (.foldl (fun u _ => .withdrawStack u _) _ _)

theorem CatalogueWork.readyS4 (repaired bad : List Nat) : CatalogueWork s (s.readyS4 repaired bad) :=
  ((CatalogueWork.foldl (fun u t => .useSpare u t 1) _ s).trans (.deadS4 _ bad)).trans (.foldl (fun u t => .tested u t _) _ _)

theorem CatalogueWork.portsAtStart : CatalogueWork s s.portsAtStart := .foldl (fun u p => .publishPort u p 1) _ s

theorem State.dead_readyS4 (repaired : List Nat) {bad : List Nat} {t : Nat} (hmem : t ∈ bad) : (s.readyS4 repaired bad).Dead t := by
  unfold State.readyS4
  generalize s.sparesS4 repaired = u
  refine (CatalogueWork.foldl (fun v t => .tested v t _) _ _).dead t ?_
  refine (CatalogueWork.foldl (fun v _ => .withdrawStack v _) _ _).dead t ?_
  exact foldl_establishes (P := fun u => u.Dead t) (f := fun s t => s.startDead t) hmem (fun v => v.dead_startDead_same t) (fun _ x hv => hv.startDead x) u

/-- R41: a publication leaves warm of CAT_STATUS. -/
theorem State.warmBit_publish : s.publish.bit R.CAT_STATUS 3 = s.bit R.CAT_STATUS 3 := by
  suffices h : ∃ (v : State) (below : Bool), s.publish = v.publishFollows below ∧ v.bit R.CAT_STATUS 3 = s.bit R.CAT_STATUS 3 by
    obtain ⟨v, below, hpublish, hbit⟩ := h
    rw [hpublish, State.bit_of_reg (v.reg_publishFollows below (by decide) (by decide) (by decide)), hbit]
  unfold State.publish
  extract_lets below s1 s2 status gen flags p toA cat3 buffer s6 s7 s8 regs stored flash s10 cat10 v _
  have hstatus : status.bit R.CAT_STATUS 3 = s.bit R.CAT_STATUS 3 := by
    simp only [status, s2, s1]
    rw [State.bit_setBit_other _ _ _ _ _ (by decide), State.bit_setBit_other _ _ _ _ _ (by decide), State.bit_setBit_other _ _ _ _ _ (by decide)]
  clear_value status
  have hbuffer (a : Nat) : buffer.reg a = status.reg a := by
    simp only [buffer]; cases toA <;> rfl
  clear_value buffer
  have hregs : RegsPublished buffer regs toA p := buffer.publishRegs_effect toA p
  clear_value regs
  have hv (a : Nat) : v.reg a = regs.reg a := by unfold State.reg; rfl
  refine ⟨v, below, rfl, ?_⟩
  rw [State.bit, hv, hregs.other _ (by simp), hbuffer]
  exact hstatus

theorem stageS4_clause (repaired dead crc : List Nat) (hin : s.inStage 3 = true) (hports : s.portsSettled = true) :
    ∃ u : State, Does (.stageS4 repaired dead crc) s u ∧ u.stage = 4 ∧ u.cat.dirty = false ∧ u.cat.lastPub = some s.time ∧ u.bit R.CAT_STATUS 0 = true ∧
      u.bit R.CAT_STATUS 3 = s.warm ∧ ∀ t ∈ dead ++ crc, t < 3072 → s.live t = true → s.wingUp (wingOf t) = true → u.siteStatus t = 1 := by
  refine ⟨_, (exec_stageS4 repaired dead crc s).trans (when_true (by rw [hin, hports]; rfl)), ?_⟩
  have hready := CatalogueWork.readyS4 s repaired ((dead ++ crc).filter s.testedS4).eraseDups
  have hdead (t : Nat) (hmem : t ∈ dead ++ crc) (ht : s.testedS4 t = true) :=
    s.dead_readyS4 repaired (List.mem_eraseDups.mpr (List.mem_filter.mpr ⟨hmem, ht⟩))
  rw [s.stageS4_eq]
  dsimp only
  generalize s.readyS4 repaired ((dead ++ crc).filter s.testedS4).eraseDups = v at hready hdead ⊢
  have hpublished := (CatalogueWork.portsAtStart v).trans (.setBit v.portsAtStart 3 v.warm (by decide : R.CUR_BOOT_STATUS ≠ R.CAT_STATUS))
  have hbit : (v.portsAtStart.setBit R.CAT_STATUS 3 v.warm).bit R.CAT_STATUS 3 = v.warm := State.bit_setBit_same _ _ _ _ (by decide)
  generalize v.portsAtStart.setBit R.CAT_STATUS 3 v.warm = w at hpublished hbit ⊢
  obtain ⟨hdirty, -, hlast, htables, -, hvalid, -, -, -⟩ := w.publish_effect
  have hwarm := w.warmBit_publish
  generalize w.publish = x at hdirty hlast htables hvalid hwarm ⊢
  have hcat : (x.setFld R.CUR_BOOT_STATUS 2 0 4).cat = x.cat := rfl
  have hstatus (i : Nat) : (x.setFld R.CUR_BOOT_STATUS 2 0 4).bit R.CAT_STATUS i = x.bit R.CAT_STATUS i := State.bit_setFld_ne _ _ _ _ _ (by decide)
  refine ⟨State.fld_setFld_same _ _ _ _ _ (by decide) (by decide), by rw [hcat, hdirty], by rw [hcat, hlast, hpublished.time, hready.time],
    by rw [hstatus, hvalid], by rw [hstatus, hwarm, hbit, hready.warm], fun t hmem ht hlive hwing => ?_⟩
  exact (hpublished.dead t (hdead t hmem (by simp [State.testedS4, ht, hlive, hwing]))).of_tables (by rw [hcat, htables])

/-- Settles O47, from what each stage keeps of the work before it (`StartFixed`, `CatalogueWork`) and from what the resets clear. -/
theorem startStages : Obligations.StartStages := by
  unfold Obligations.StartStages
  refine ⟨fun s => ⟨_, vaux5Loss_does s, s.unpowered_effect⟩, fun s h => ⟨_, vaux5Apply_does h, s.powered_effect⟩, bootFirmware_clause, fun s b hoff => ?_,
    stageS1_clause, fun s x y r z v => stageS2_clause s x y r z v, stageS3_clause, stageS4_clause, stageS5_clause, resets_clause, fwAliveTimeout_clause,
    hoursTick_clause⟩
  exact ⟨_, (exec_vin48Change b s).trans (when_true (by simp [hoff])), rfl, rfl⟩

end

end Sys2Proof.Machine
end

section
/-! PROOFS. The training of a Wyldex port, its going down, and the commands of a port (R397-R400, R405, R409). -/

namespace Sys2Proof.Machine

/-! ### Ports and their registers -/

section
variable (s : State)

theorem State.port_laneTest (p lanes q : Nat) : (s.laneTest p lanes).port q = s.port q := rfl

theorem State.port_of_ports {s u : State} (h : u.ports = s.ports) (p : Nat) : u.port p = s.port p := by rw [State.port, h, State.port]

theorem lnkPortLanes_ne_status (p : Nat) : R.LNK_PORT_STATUS p ≠ R.LNK_PORT_LANES p := by
  simp only [R.LNK_PORT_STATUS, R.LNK_PORT_LANES]
  omega

theorem State.fld_laneTest (p lanes hi lo : Nat) : (s.laneTest p lanes).fld (R.LNK_PORT_STATUS p) hi lo = s.fld (R.LNK_PORT_STATUS p) hi lo :=
  State.fld_setReg_ne _ _ _ _ (lnkPortLanes_ne_status p)

/-- R409: the result of a lane test. -/
theorem State.lanes_laneTest (p lanes : Nat) : ((s.laneTest p lanes).reg (R.LNK_PORT_LANES p)).toNat = lanes % 512 := by
  rw [State.laneTest, State.reg_setReg_same, BitVec.toNat_ofNat]
  omega

theorem State.stage_setReg_ne {a : Nat} (v : BitVec 32) (h : R.CUR_BOOT_STATUS ≠ a) : (s.setReg a v).stage = s.stage := State.fld_setReg_ne _ _ _ _ h

/-! ### A training begins (R398) -/

theorem State.trainBegin_effect (p : Nat) : (s.trainBegin p).portState p = 2 ∧
    (s.trainBegin p).port p = { s.port p with trainAt := some s.time, policy := (s.reg R.LNK_CTL).toNat } := by
  have hport : (s.setPortState p 2).port p = s.port p := rfl
  rw [State.trainBegin]
  refine ⟨(State.fld_of_reg (State.reg_modPort _ p _ _) 31 28).trans (State.fld_setFld_same _ _ _ _ _ (by decide) (by decide)), ?_⟩
  rw [State.port_modPort_same, hport, State.linkPolicy]

theorem trainBegin_clause (p : Nat) (hp : p < 32) (hpowered : s.portPowered = true) (hdown : s.portState p = 1) (hnext : (s.port p).nextTry ≤ s.time) :
    ∃ u : State, u.portState p = 2 ∧ u.port p = { s.port p with trainAt := some s.time, policy := (s.reg R.LNK_CTL).toNat } ∧
      (s.stage = 3 → (s.port p).tries < 5 → Does (.portTraining p) s u) ∧
      (4 ≤ s.stage ∨ s.cur.restarting = true → Does (.trainingRetry p) s u) := by
  obtain ⟨hstate, hport⟩ := s.trainBegin_effect p
  refine ⟨s.trainBegin p, hstate, hport, fun hstage htries => ?_, fun hlater => ?_⟩
  · exact (exec_portTraining p s).trans (when_true (by simp [hp, hpowered, hdown, hnext, hstage, htries]))
  · exact (exec_trainingRetry p s).trans (when_true (by simp [hp, hpowered, hdown, hnext, hlater]))

/-! ### A port goes down (R405) -/

theorem lnkPortDropped_ne_status (p : Nat) : R.LNK_PORT_STATUS p ≠ R.LNK_PORT_DROPPED p := by
  simp only [R.LNK_PORT_STATUS, R.LNK_PORT_DROPPED]
  omega

theorem State.status_portDown {p : Nat} (hp : p < 32) (reason new : Nat) :
    (s.portDown p reason new).reg (R.LNK_PORT_STATUS p) = ((s.portEmptied p).portShows p reason new).reg (R.LNK_PORT_STATUS p) := by
  rw [s.portDown_eq]
  split
  · exact s.reg_portDiscards p reason new (lnkPort_offSites hp)
  · rw [State.reg_curFault_other _ _ _ (lnkPort_offRing hp), State.bump, State.reg_setReg_other _ _ (lnkPortDropped_ne_status p),
      s.reg_portDiscards p reason new (lnkPort_offSites hp)]

/-- R405: a view of the state that shows no register, site, network, memory, debug or scrub state, record and vector shows the port emptied and anew. -/
theorem State.portDown_view {β : Type} (view : State → β)
    (hwork : ∀ (u : State) regs sites net dbg dram sec,
      view { u with regs := regs, sites := sites, net := net, dbg := dbg, dram := dram, sec := sec } = view u)
    (hreport : ∀ (u : State) regs cat faults msix, view { u with regs := regs, cat := cat, faults := faults, msix := msix } = view u)
    (hreg : ∀ (u : State) (regs : List (Nat × BitVec 32)), view { u with regs := regs } = view u) (p reason new : Nat) :
    view (s.portDown p reason new) = view (((s.portEmptied p).portShows p reason new).portAnew p) := by
  have hdiscards := (SiteWork.portDiscards s p reason new).view view hwork
  rw [s.portDown_eq]
  split
  · exact hdiscards
  · exact ((Reports.curFault _ _ _).view view hreport).trans ((hreg _ _).trans hdiscards)

/-- R398, R405: the port that has gone down. -/
theorem State.port_portDown (p reason new : Nat) : (s.portDown p reason new).port p =
    { Port.start with nextTry := s.time + 10000000000, tries := (s.port p).tries, counted := (s.port p).counted, changed := some s.time } := by
  have hports := s.portDown_view State.ports (fun _ _ _ _ _ _ _ => rfl) (fun _ _ _ _ _ => rfl) (fun _ _ => rfl) p reason new
  have hemptied : (s.portEmptied p).port p = s.port p ∧ (s.portEmptied p).time = s.time := ⟨rfl, rfl⟩
  have hshows (u : State) : (u.portShows p reason new).port p = u.port p ∧ (u.portShows p reason new).time = u.time := ⟨rfl, rfl⟩
  rw [State.port_of_ports hports, State.portAnew, State.port_modPort_same, (hshows _).1, (hshows _).2, hemptied.1, hemptied.2]

theorem State.ctrlOut_portDown (p reason new : Nat) : ∀ f ∈ (s.portDown p reason new).ctrlOut, f.1 ≠ p := by
  have hout := s.portDown_view State.ctrlOut (fun _ _ _ _ _ _ _ => rfl) (fun _ _ _ _ _ => rfl) (fun _ _ => rfl) p reason new
  have hkept : (((s.portEmptied p).portShows p reason new).portAnew p).ctrlOut = s.ctrlOut.filter fun e => e.1 != p := rfl
  rw [hout, hkept]
  exact fun f hf => bne_iff_ne.mp (List.mem_filter.mp hf).2

theorem State.portShows_kept (p reason new : Nat) : (s.portShows p reason new).fld (R.LNK_PORT_STATUS p) 16 9 = s.fld (R.LNK_PORT_STATUS p) 16 9 ∧
    (s.portShows p reason new).fld (R.LNK_PORT_STATUS p) 19 18 = 0 := by
  unfold State.portShows
  dsimp only
  refine ⟨?_, ?_⟩
  · rw [State.fld_setFld_other _ _ _ _ _ _ _ (by decide) (by decide) (by decide), State.fld_setFld_other _ _ _ _ _ _ _ (by decide) (by decide) (by decide),
      State.fld_setFld_other _ _ _ _ _ _ _ (by decide) (by decide) (by decide), State.fld_setFld_other _ _ _ _ _ _ _ (by decide) (by decide) (by decide)]
  · rw [State.fld_setFld_other _ _ _ _ _ _ _ (by decide) (by decide) (by decide)]
    generalize (s.setFld (R.LNK_PORT_STATUS p) 31 28 new).setFld (R.LNK_PORT_STATUS p) 27 24 reason = u
    have h := State.fld_setFld_same u (R.LNK_PORT_STATUS p) 22 17 0 (by decide) (by decide)
    rw [State.fld] at h ⊢
    generalize ((u.setFld (R.LNK_PORT_STATUS p) 22 17 0).reg (R.LNK_PORT_STATUS p)) = v at h
    simp only [getBits, Nat.shiftRight_eq_div_pow] at h ⊢
    omega

/-- R405: the state of a port that goes down. -/
theorem State.portDown_status {p reason new : Nat} (hp : p < 32) (hr : reason < 16) (hn : new < 16) : (s.portDown p reason new).portState p = new ∧
    (s.portDown p reason new).fld (R.LNK_PORT_STATUS p) 27 24 = reason ∧
    (s.portDown p reason new).fld (R.LNK_PORT_STATUS p) 16 9 = s.fld (R.LNK_PORT_STATUS p) 16 9 ∧
    (s.portDown p reason new).fld (R.LNK_PORT_STATUS p) 19 18 = 0 := by
  have hreg := s.status_portDown hp reason new
  obtain ⟨hstate, hreason, -, -⟩ := (s.portEmptied p).portShows_effect p hr hn
  obtain ⟨hcount, hversion⟩ := (s.portEmptied p).portShows_kept p reason new
  have hemptied : (s.portEmptied p).regs = s.regs := rfl
  exact ⟨(State.fld_of_reg hreg 31 28).trans hstate, (State.fld_of_reg hreg 27 24).trans hreason,
    (State.fld_of_reg hreg 16 9).trans (hcount.trans (State.fld_of_reg (State.reg_of_regs hemptied _) 16 9)),
    (State.fld_of_reg hreg 19 18).trans hversion⟩

/-- R405: a register of a port that its going down leaves. -/
theorem State.reg_portDown_lnk {p a : Nat} (hp : p < 32) (reason new : Nat) (hr : reason < 16) (hn : new < 16) (ha : 0x301000 ≤ a ∧ a < 0x301800)
    (hstatus : a ≠ R.LNK_PORT_STATUS p) (hdropped : a ≠ R.LNK_PORT_DROPPED p) : (s.portDown p reason new).reg a = s.reg a := by
  obtain ⟨-, -, hreg⟩ := s.portDown_effect hp hr hn
  refine hreg a (by simp only [SiteWorkReg]; omega) ?_ (not_mem_portDownRegs hstatus hdropped)
  simp only [ringRegs, R.FLT_LOG_HEAD, R.FLT_LOG_TAIL, R.FLT_LOG_LOST, List.mem_cons, List.not_mem_nil, or_false]
  omega

/-! ### A training fails (R398) -/

/-- R398: what the end of a training with a reason leaves. -/
def TrainingFailed (s u : State) (p reason : Nat) (counted : Bool) : Prop :=
  let n := s.fld (R.LNK_PORT_STATUS p) 16 9
  u.fld (R.LNK_PORT_STATUS p) 16 9 = (if counted then min 255 (n + 1) else n) ∧
  (s.portState p = 2 → u.portState p = 1 ∧ u.fld (R.LNK_PORT_STATUS p) 27 24 = reason ∧ (u.port p).trainAt = none ∧
    (u.port p).tries = (s.port p).tries + 1 ∧
    (u.port p).nextTry = (s.port p).trainAt.getD s.time + if s.stage = 3 then 1000000000 else 10000000000) ∧
  (s.portState p = 4 → (s.port p).failed < 4 → u.portState p = 4 ∧ u.fld (R.LNK_PORT_STATUS p) 27 24 = reason ∧
    (u.port p).failed = (s.port p).failed + 1 ∧ (u.port p).trainAt = some s.time ∧ (u.port p).replay = (s.port p).replay) ∧
  (s.portState p = 4 → 4 ≤ (s.port p).failed → u.portState p = 1 ∧ u.fld (R.LNK_PORT_STATUS p) 27 24 = 5 ∧ (u.port p).replay = [])

/-- R398: the reason is shown, and the failure counted. -/
def State.failShown (s : State) (p reason : Nat) (counted : Bool) : State :=
  let s := s.setFld (R.LNK_PORT_STATUS p) 27 24 reason
  if counted then s.setFld (R.LNK_PORT_STATUS p) 16 9 (min 255 (s.fld (R.LNK_PORT_STATUS p) 16 9 + 1)) else s

/-- R398: a failed retrain is tried again. -/
def State.retrainAgain (s : State) (p : Nat) : State :=
  s.modPort p fun q => { q with failed := (s.port p).failed + 1, trainAt := some s.time, policy := s.linkPolicy }

/-- R398: an attempt is over, and the next one is due some time after it began. -/
def Port.attemptOver (q : Port) (now wait : Nat) : Port := { q with trainAt := none, tries := q.tries + 1, nextTry := q.trainAt.getD now + wait }

/-- R398: a failed training waits for the next attempt. -/
def State.attemptWaits (s : State) (p : Nat) : State :=
  (s.setPortState p 1).modPort p fun q => q.attemptOver s.time (if s.stage == 3 then 1000000000 else 10000000000)

theorem State.trainFails_eq (p reason : Nat) (counted : Bool) : s.trainFails p reason counted =
    let v := s.failShown p reason counted
    if v.portState p == 4 then (if 5 ≤ (v.port p).failed + 1 then v.portDown p 5 1 else v.retrainAgain p) else v.attemptWaits p := rfl

theorem State.failShown_effect (p : Nat) {reason : Nat} (hr : reason < 16) (counted : Bool) :
    (s.failShown p reason counted).fld (R.LNK_PORT_STATUS p) 16 9 =
      (if counted then min 255 (s.fld (R.LNK_PORT_STATUS p) 16 9 + 1) else s.fld (R.LNK_PORT_STATUS p) 16 9) ∧
    (s.failShown p reason counted).portState p = s.portState p ∧ (s.failShown p reason counted).fld (R.LNK_PORT_STATUS p) 27 24 = reason ∧
    (s.failShown p reason counted).ports = s.ports ∧ (s.failShown p reason counted).time = s.time ∧
    ∀ a, a ≠ R.LNK_PORT_STATUS p → (s.failShown p reason counted).reg a = s.reg a := by
  have hcount : (s.setFld (R.LNK_PORT_STATUS p) 27 24 reason).fld (R.LNK_PORT_STATUS p) 16 9 = s.fld (R.LNK_PORT_STATUS p) 16 9 :=
    State.fld_setFld_other _ _ _ _ _ _ _ (by decide) (by decide) (by decide)
  have hstate : (s.setFld (R.LNK_PORT_STATUS p) 27 24 reason).portState p = s.portState p :=
    State.fld_setFld_other _ _ _ _ _ _ _ (by decide) (by decide) (by decide)
  have hreason : (s.setFld (R.LNK_PORT_STATUS p) 27 24 reason).fld (R.LNK_PORT_STATUS p) 27 24 = reason :=
    (State.fld_setFld_same _ _ _ _ _ (by decide) (by decide)).trans (Nat.mod_eq_of_lt hr)
  have hreg (a : Nat) (ha : a ≠ R.LNK_PORT_STATUS p) := s.reg_setFld_other 27 24 reason ha
  have hkept : (s.setFld (R.LNK_PORT_STATUS p) 27 24 reason).ports = s.ports ∧ (s.setFld (R.LNK_PORT_STATUS p) 27 24 reason).time = s.time := ⟨rfl, rfl⟩
  unfold State.failShown
  dsimp only
  generalize s.setFld (R.LNK_PORT_STATUS p) 27 24 reason = u at hcount hstate hreason hreg hkept
  obtain ⟨hports, htime⟩ := hkept
  cases counted with
  | false => exact ⟨hcount, hstate, hreason, hports, htime, hreg⟩
  | true =>
    refine ⟨?_, (State.fld_setFld_other _ _ _ _ _ _ _ (by decide) (by decide) (by decide)).trans hstate,
      (State.fld_setFld_other _ _ _ _ _ _ _ (by decide) (by decide) (by decide)).trans hreason, hports, htime, fun a ha => ?_⟩
    · refine (State.fld_setFld_same _ _ _ _ _ (by decide) (by decide)).trans ?_
      rw [hcount]
      exact Nat.mod_eq_of_lt (by omega)
    · rw [if_pos rfl, State.reg_setFld_other _ _ _ _ ha, hreg a ha]

theorem lnkPortStatus_ne_boot (p : Nat) : R.CUR_BOOT_STATUS ≠ R.LNK_PORT_STATUS p := by
  simp only [R.CUR_BOOT_STATUS, R.LNK_PORT_STATUS]
  omega

theorem State.attemptWaits_effect (p : Nat) : (s.attemptWaits p).portState p = 1 ∧
    (∀ hi lo, hi < 28 → lo ≤ hi → (s.attemptWaits p).fld (R.LNK_PORT_STATUS p) hi lo = s.fld (R.LNK_PORT_STATUS p) hi lo) ∧
    (s.attemptWaits p).port p = (s.port p).attemptOver (s.time) (if s.stage == 3 then 1000000000 else 10000000000) := by
  have hport : (s.setPortState p 1).port p = s.port p := rfl
  rw [State.attemptWaits]
  refine ⟨(State.fld_of_reg (State.reg_modPort _ p _ _) 31 28).trans (State.fld_setFld_same _ _ _ _ _ (by decide) (by decide)), fun hi lo hhi hlo => ?_, ?_⟩
  · exact (State.fld_of_reg (State.reg_modPort _ p _ _) hi lo).trans (State.fld_setFld_other _ _ _ _ _ _ _ (.inl hhi) (by decide) hlo)
  · rw [State.port_modPort_same, hport]

theorem State.retrainAgain_effect (p : Nat) : (s.retrainAgain p).reg (R.LNK_PORT_STATUS p) = s.reg (R.LNK_PORT_STATUS p) ∧
    (s.retrainAgain p).port p = { s.port p with failed := (s.port p).failed + 1, trainAt := some s.time, policy := s.linkPolicy } :=
  ⟨State.reg_modPort _ _ _ _, State.port_modPort_same _ _ _⟩

theorem State.trainFails_effect {p reason : Nat} (hp : p < 32) (hr : reason < 16) (counted : Bool) :
    TrainingFailed s (s.trainFails p reason counted) p reason counted := by
  obtain ⟨hcount, hstate, hreason, hports, htime, hreg⟩ := s.failShown_effect p hr counted
  rw [s.trainFails_eq]
  generalize s.failShown p reason counted = v at hcount hstate hreason hports htime hreg
  have hport := State.port_of_ports hports p
  have hstage : v.stage = s.stage := State.fld_of_reg (hreg _ (lnkPortStatus_ne_boot p)) 2 0
  dsimp only
  by_cases h4 : s.portState p = 4
  · have hv : (v.portState p == 4) = true := by rw [hstate, h4]; rfl
    rw [if_pos hv]
    by_cases hfailed : 4 ≤ (s.port p).failed
    · rw [if_pos (by rw [hport]; omega)]
      obtain ⟨hdown, hdownReason, hdownCount, -⟩ := v.portDown_status hp (by decide : 5 < 16) (by decide : 1 < 16)
      refine ⟨hdownCount.trans hcount, fun h2 => absurd (h4.symm.trans h2) (by decide), fun _ hlt => absurd hfailed (by omega), fun _ _ => ⟨hdown, hdownReason, ?_⟩⟩
      rw [State.port_portDown]
      rfl
    · rw [if_neg (by rw [hport]; omega)]
      obtain ⟨hagainReg, hagainPort⟩ := v.retrainAgain_effect p
      refine ⟨(State.fld_of_reg hagainReg 16 9).trans hcount, fun h2 => absurd (h4.symm.trans h2) (by decide), fun _ _ =>
        ⟨(State.fld_of_reg hagainReg 31 28).trans (hstate.trans h4), (State.fld_of_reg hagainReg 27 24).trans hreason, ?_, ?_, ?_⟩,
        fun _ hge => absurd hge hfailed⟩
      · rw [hagainPort, hport]
      · rw [hagainPort, htime]
      · rw [hagainPort, hport]
  · have hv : ¬ (v.portState p == 4) = true := by rw [hstate, beq_iff_eq]; exact h4
    rw [if_neg hv]
    obtain ⟨hone, hfld, hwaits⟩ := v.attemptWaits_effect p
    refine ⟨(hfld 16 9 (by decide) (by decide)).trans hcount, fun _ => ⟨hone, (hfld 27 24 (by decide) (by decide)).trans hreason, ?_, ?_, ?_⟩,
      fun h => absurd h h4, fun h => absurd h h4⟩
    · rw [hwaits]
      rfl
    · rw [hwaits, hport]
      rfl
    · rw [hwaits, hport, htime, hstage, Port.attemptOver]
      simp only [beq_iff_eq]

/-- R398, R409: a failure after the lane test is one of the training itself. -/
theorem TrainingFailed.of_laneTest {s u : State} {p lanes reason : Nat} {counted : Bool} (h : TrainingFailed (s.laneTest p lanes) u p reason counted) :
    TrainingFailed s u p reason counted := by
  have hfld := s.fld_laneTest p lanes
  have hstate : (s.laneTest p lanes).portState p = s.portState p := hfld 31 28
  have hport := s.port_laneTest p lanes p
  have htime : (s.laneTest p lanes).time = s.time := rfl
  have hstage : (s.laneTest p lanes).stage = s.stage := s.stage_setReg_ne _ (by simp only [R.CUR_BOOT_STATUS, R.LNK_PORT_LANES]; omega)
  unfold TrainingFailed at h
  dsimp only at h
  rw [hfld, hstate, hport, htime, hstage] at h
  exact h

theorem State.lanes_trainFails {p : Nat} (hp : p < 32) {reason : Nat} (hr : reason < 16) (counted : Bool) :
    (s.trainFails p reason counted).reg (R.LNK_PORT_LANES p) = s.reg (R.LNK_PORT_LANES p) := by
  have hne := (lnkPortLanes_ne_status p).symm
  have hdropped : R.LNK_PORT_LANES p ≠ R.LNK_PORT_DROPPED p := by simp only [R.LNK_PORT_LANES, R.LNK_PORT_DROPPED]; omega
  have hlnk : 0x301000 ≤ R.LNK_PORT_LANES p ∧ R.LNK_PORT_LANES p < 0x301800 := by simp only [R.LNK_PORT_LANES]; omega
  obtain ⟨-, -, -, -, -, hreg⟩ := s.failShown_effect p hr counted
  rw [s.trainFails_eq]
  dsimp only
  rw [← hreg _ hne]
  generalize s.failShown p reason counted = v
  split
  · split
    · exact v.reg_portDown_lnk hp 5 1 (by decide) (by decide) hlnk hne hdropped
    · exact v.reg_modPort _ _ _
  · exact (State.reg_modPort _ _ _ _).trans (v.reg_setFld_other _ _ _ hne)

/-- R398: the reason of a step that times out. -/
theorem stepReason_eq {step : Nat} (auth : Bool) (h : step = 1 ∨ step = 3 ∨ step = 4 ∨ step = 5) :
    stepReason step auth = some (if step = 1 then 1 else if step = 3 then 2 else if step = 4 ∧ auth = false then 3 else 4) := by
  rcases h with rfl | rfl | rfl | rfl
  · rfl
  · rfl
  · cases auth <;> rfl
  · rfl

theorem stepTimeout_clause (p step lanes : Nat) (auth : Bool) (t : Nat) (hp : p < 32) (htrain : (s.port p).trainAt = some t)
    (hstep : step = 1 ∧ s.portState p = 2 ∧ t + 10000000 ≤ s.time ∨
      (step = 3 ∨ step = 4 ∨ step = 5) ∧ (s.portState p = 2 ∨ s.portState p = 4) ∧ (step = 3 ↔ goodLanes lanes < 2)) :
    ∃ u : State, Does (.trainingStepTimeout p step (lanes, auth)) s u ∧
      TrainingFailed s u p (if step = 1 then 1 else if step = 3 then 2 else if step = 4 ∧ auth = false then 3 else 4) (step != 1) ∧
      (step ≠ 1 → (u.reg (R.LNK_PORT_LANES p)).toNat = lanes % 512) := by
  have hreason := stepReason_eq auth (show step = 1 ∨ step = 3 ∨ step = 4 ∨ step = 5 by tauto)
  have hlt : (if step = 1 then 1 else if step = 3 then 2 else if step = 4 ∧ auth = false then 3 else 4) < 16 := by
    repeat' split
    all_goals decide
  generalize (if step = 1 then 1 else if step = 3 then 2 else if step = 4 ∧ auth = false then 3 else 4) = r at hreason hlt
  have hexec := exec_trainingStepTimeout p step (lanes, auth) s
  unfold execTrainingStepTimeout at hexec
  dsimp only at hexec
  rw [hreason] at hexec
  dsimp only at hexec
  rcases hstep with ⟨rfl, hstate, htime⟩ | ⟨hstep, hstate, hlanes⟩
  · refine ⟨s.trainFails p r false, ?_, s.trainFails_effect hp hlt false, fun h => absurd rfl h⟩
    exact hexec.trans (when_true (by simp [hp, hstate, htrain, htime]))
  · have hne : step ≠ 1 := by omega
    have hfew : (step == 3) = decide (goodLanes lanes < 2) := by
      rw [Bool.eq_iff_iff, beq_iff_eq, decide_eq_true_eq]
      exact hlanes
    have hbne : (step != 1) = true := bne_iff_ne.mpr hne
    refine ⟨(s.laneTest p lanes).trainFails p r true, ?_, ?_, fun _ => ?_⟩
    · rw [if_neg (by simpa using hne)] at hexec
      refine (hexec.trans (when_true ?_)).trans (by rw [hbne])
      rw [hfew]
      rcases hstate with hstate | hstate
      · simp [hp, hstate, htrain, hne]
      · simp [hp, hstate, htrain, hne]
    · rw [hbne]
      exact (State.trainFails_effect _ hp hlt true).of_laneTest
    · rw [State.lanes_trainFails _ hp hlt, State.lanes_laneTest]

/-! ### The commands of a port (R405, R409) -/

theorem State.retrain_effect (p : Nat) : (s.retrain p).portState p = 4 ∧ (s.retrain p).reg (R.LNK_PORT_RETRAINS p) = satAdd (s.reg (R.LNK_PORT_RETRAINS p)) 1 ∧
    ((s.retrain p).port p).trainAt = some s.time ∧ ((s.retrain p).port p).replay = (s.port p).replay ∧
    ((s.retrain p).port p).expect = (s.port p).expect := by
  have hne : R.LNK_PORT_STATUS p ≠ R.LNK_PORT_RETRAINS p := by simp only [R.LNK_PORT_STATUS, R.LNK_PORT_RETRAINS]; omega
  have hstate : ((s.setPortState p 4).bump (R.LNK_PORT_RETRAINS p) 1).portState p = 4 :=
    (State.fld_setReg_ne _ _ _ _ hne).trans (State.fld_setFld_same _ _ _ _ _ (by decide) (by decide))
  have hcount : ((s.setPortState p 4).bump (R.LNK_PORT_RETRAINS p) 1).reg (R.LNK_PORT_RETRAINS p) = satAdd (s.reg (R.LNK_PORT_RETRAINS p)) 1 := by
    rw [State.bump, State.reg_setReg_same, State.setPortState, State.reg_setFld_other _ _ _ _ hne.symm]
  have hkept : ((s.setPortState p 4).bump (R.LNK_PORT_RETRAINS p) 1).port p = s.port p ∧
      ((s.setPortState p 4).bump (R.LNK_PORT_RETRAINS p) 1).time = s.time := ⟨rfl, rfl⟩
  unfold State.retrain
  dsimp only
  generalize (s.setPortState p 4).bump (R.LNK_PORT_RETRAINS p) 1 = v at hstate hcount hkept
  obtain ⟨hport, htime⟩ := hkept
  refine ⟨(State.fld_of_reg (State.reg_modPort _ p _ _) 31 28).trans hstate, (State.reg_modPort _ p _ _).trans hcount, ?_, ?_, ?_⟩
  · rw [State.port_modPort_same, htime]
  · rw [State.port_modPort_same, hport]
  · rw [State.port_modPort_same, hport]

theorem State.portReject_effect (p : Nat) : (s.portReject p).bit (R.LNK_PORT_CTL p) 16 = true ∧ (s.portReject p).ports = s.ports ∧
    (s.portReject p).portState p = s.portState p :=
  ⟨State.bit_setBit_same _ _ _ _ (by decide), rfl, State.fld_setBit_ne _ _ _ _ _ (by simp only [R.LNK_PORT_STATUS, R.LNK_PORT_CTL]; omega)⟩

/-- R409: a DISABLED port is enabled. -/
def State.portEnabled (s : State) (p : Nat) : State := if s.portPowered then s.trainBegin p else s.setPortState p 1

theorem State.portEnabled_state (p : Nat) : (s.portEnabled p).portState p = if s.portPowered then 2 else 1 := by
  unfold State.portEnabled
  split
  · exact (s.trainBegin_effect p).1
  · exact State.fld_setFld_same _ _ _ _ _ (by decide) (by decide)

theorem portCommands_clause (a : Agent) (p : Nat) (hp : p < 32) (ha : s.Granted a (R.LNK_PORT_CTL p)) :
    ∃ no r d e : State, no.bit (R.LNK_PORT_CTL p) 16 = true ∧ no.ports = s.ports ∧ no.portState p = s.portState p ∧
      Does (.retrain a p) s (if s.portState p = 3 then r else no) ∧ Does (.disable a p) s (if s.portState p = 0 then no else d) ∧
      Does (.enable a p) s (if s.portState p = 0 then e else no) ∧
      r.portState p = 4 ∧ r.reg (R.LNK_PORT_RETRAINS p) = satAdd (s.reg (R.LNK_PORT_RETRAINS p)) 1 ∧
      (r.port p).trainAt = some s.time ∧ (r.port p).replay = (s.port p).replay ∧ (r.port p).expect = (s.port p).expect ∧
      d.portState p = 0 ∧ d.fld (R.LNK_PORT_STATUS p) 27 24 = 7 ∧ (d.port p).replay = [] ∧ (∀ f ∈ d.ctrlOut, f.1 ≠ p) ∧
      e.portState p = if s.portPowered then 2 else 1 := by
  have hpm : p % 32 = p := Nat.mod_eq_of_lt hp
  obtain ⟨hbit, hports, hsame⟩ := s.portReject_effect p
  obtain ⟨hr, hcount, htrain, hreplay, hexpect⟩ := s.retrain_effect p
  obtain ⟨hd, hreason, -, -⟩ := s.portDown_status hp (by decide : 7 < 16) (by decide : 0 < 16)
  refine ⟨s.portReject p, s.retrain p, s.portDown p 7 0, s.portEnabled p, hbit, hports, hsame, ?_, ?_, ?_, hr, hcount, htrain, hreplay, hexpect, hd, hreason,
    by rw [State.port_portDown]; rfl, s.ctrlOut_portDown p 7 0, s.portEnabled_state p⟩
  · rw [Does, exec_retrain, execRetrain, hpm, devWrite_granted ha]
    simp only [beq_iff_eq]
  · rw [Does, exec_disable, execDisable, hpm, devWrite_granted ha]
    simp only [beq_iff_eq]
  · rw [Does, exec_enable, execEnable, hpm, devWrite_granted ha, State.portEnabled]
    by_cases h : s.portState p = 0
    · simp [h]
    · simp [h]

/-! ### Down, and the publication of a port (R37, R400, R405) -/

theorem portDown_clause (p : Nat) (hp : p < 32) (hlow : 2 ≤ s.portState p) (hhigh : s.portState p ≤ 4) (hlost : s.bit R.CLK_REF_STATUS 2 = false) :
    ∃ u : State, Does (.portDown p) s u ∧ u.portState p = 1 ∧ u.fld (R.LNK_PORT_STATUS p) 27 24 = 6 ∧
      u.fld (R.LNK_PORT_STATUS p) 19 18 = 0 ∧ (u.port p).replay = [] ∧ (∀ f ∈ u.ctrlOut, f.1 ≠ p) ∧ (u.port p).changed = some s.time := by
  obtain ⟨hstate, hreason, -, hversion⟩ := s.portDown_status hp (by decide : 6 < 16) (by decide : 1 < 16)
  refine ⟨s.portDown p 6 1, ?_, hstate, hreason, hversion, by rw [State.port_portDown]; rfl, s.ctrlOut_portDown p 6 1, by rw [State.port_portDown]⟩
  have hexec := exec_portDown p s
  rw [execPortDown, hlost] at hexec
  exact hexec.trans (when_true (by simp [hp, hlow, hhigh]))

theorem portEntry_mod {a b c : Nat} (hb : b < 512) (hc : c < 8) : (a * 2 ^ 12 + b * 8 + c) % 8 = c ∧ (a * 2 ^ 12 + b * 8 + c) / 8 % 512 = b := by omega

theorem State.portEntry_fields (p fails : Nat) : s.portEntry p fails % 8 = (if s.portUp p then s.fld (R.LNK_PORT_STATUS p) 22 20 else 0) ∧
    s.portEntry p fails / 8 % 512 = s.fld (R.LNK_PORT_LANES p) 8 0 := by
  have hlanes : s.fld (R.LNK_PORT_LANES p) 8 0 < 512 := getBits_lt _ 8 0
  have hwidth : s.fld (R.LNK_PORT_STATUS p) 22 20 < 8 := getBits_lt _ 22 20
  unfold State.portEntry
  refine portEntry_mod hlanes ?_
  split
  · exact hwidth
  · decide

/-- R37: the entry of a port that is published. -/
theorem State.publishPort_effect (p origin : Nat) : (∃ fails, Map.get (fun _ => 0) (s.publishPort p origin).cat.tables.ports p = s.portEntry p fails) ∧
    (s.publishPort p origin).port p = { s.port p with counted := s.fld (R.LNK_PORT_STATUS p) 16 9 } := by
  have hcounted (v : State) : ((v.modPort p fun q => { q with counted := s.fld (R.LNK_PORT_STATUS p) 16 9 }).port p) =
      { v.port p with counted := s.fld (R.LNK_PORT_STATUS p) 16 9 } := State.port_modPort_same _ _ _
  have hcat (v : State) (f : Port → Port) : (v.modPort p f).cat = v.cat := rfl
  unfold State.publishPort
  dsimp only
  split
  next h => exact ⟨⟨_, (beq_iff_eq.mp h).symm⟩, hcounted s⟩
  next =>
    refine ⟨⟨bitsOf (Map.get (fun _ => 0) s.cat.tables.ports p) 19 12 + (s.fld (R.LNK_PORT_STATUS p) 16 9 - (s.port p).counted), ?_⟩, ?_⟩
    · rw [State.catDirty_tables]
      exact Map.get_set_same _ _ _ _
    · refine (State.port_of_ports ((Reports.catDirty _ _).view State.ports fun _ _ _ _ _ => rfl) p).trans ?_
      exact hcounted s

theorem portPublish_clause (p t : Nat) (hp : p < 32) (hchanged : (s.port p).changed = some t) (hup : s.curatorUp = true)
    (htime : t + 10000000000 ≤ s.time) (h2 : s.portState p ≠ 2) (h4 : s.portState p ≠ 4) :
    ∃ u : State, Does (.portStatePublish p) s u ∧ (u.port p).changed = none ∧ (u.port p).counted = s.fld (R.LNK_PORT_STATUS p) 16 9 ∧
      let e := Map.get (fun _ => 0) u.cat.tables.ports p
      e % 8 = (if s.portState p = 3 then s.fld (R.LNK_PORT_STATUS p) 22 20 else 0) ∧ e / 8 % 512 = s.fld (R.LNK_PORT_LANES p) 8 0 := by
  obtain ⟨⟨fails, hentry⟩, hport⟩ := s.publishPort_effect p 3
  obtain ⟨hwidth, hlanes⟩ := s.portEntry_fields p fails
  have hexec := exec_portStatePublish p s
  rw [execPortStatePublish, hchanged] at hexec
  have hdoes : Does (.portStatePublish p) s ((s.publishPort p 3).modPort p fun q => { q with changed := none }) :=
    hexec.trans (when_true (by simp [hp, hup, htime, h2, h4]))
  generalize s.publishPort p 3 = v at hentry hport hdoes
  have hcat : (v.modPort p fun q => { q with changed := none }).cat = v.cat := rfl
  have hportUp : s.portUp p = (s.portState p == 3) := by
    have hne : (s.portState p == 4) = false := beq_eq_false_iff_ne.mpr h4
    rw [State.portUp, ← State.portState, hne, Bool.or_false]
  refine ⟨_, hdoes, ?_, ?_, ?_, ?_⟩
  · rw [State.port_modPort_same]
  · rw [State.port_modPort_same, hport]
  · rw [hcat, hentry, hwidth, hportUp]
    simp only [beq_iff_eq]
  · rw [hcat, hentry, hlanes]

end

end Sys2Proof.Machine
end

section
/-! PROOFS. A Wyldex port comes up (R397-R399, R405, R406, R408). -/

namespace Sys2Proof.Machine

/-! ### Lanes and widths (R397) -/

theorem goodLanes_list_mod (lanes : Nat) : (List.range 9).filter (lanes % 512).testBit = (List.range 9).filter lanes.testBit := by
  refine List.filter_congr fun i hi => ?_
  have hlt : i < 9 := List.mem_range.mp hi
  rw [show (512 : Nat) = 2 ^ 9 from rfl, Nat.testBit_mod_two_pow]
  simp [hlt]

/-- R397: a mask of lanes has nine bits. -/
theorem maskOf_lt_of_lanes {ws : List Nat} (h : ∀ w ∈ ws, w < 9) : maskOf ws < 512 := by
  suffices hmask : ∀ n, (List.range n).foldl (fun m w => if ws.contains w then m + 2 ^ w else m) 0 < 2 ^ min n 9 from hmask 64
  intro n
  induction n with
  | zero => simp
  | succ n ih =>
    rw [List.range_succ, List.foldl_append, List.foldl_cons, List.foldl_nil]
    split
    next hmem =>
      have hlt : n < 9 := h n (by simpa using hmem)
      rw [Nat.min_eq_left hlt]
      rw [Nat.min_eq_left (Nat.le_of_lt hlt)] at ih
      have hpow : 2 ^ (n + 1) = 2 ^ n + 2 ^ n := by rw [Nat.pow_succ]; omega
      omega
    next => exact Nat.lt_of_lt_of_le ih (Nat.pow_le_pow_right (by decide) (by omega))

theorem lanesUsed_lt (mask width : Nat) : lanesUsed mask width < 512 :=
  maskOf_lt_of_lanes fun _ hw => List.mem_range.mp (List.mem_filter.mp (List.mem_of_mem_take hw)).1

theorem maxWidthCode_le (m : Nat) : maxWidthCode m ≤ 3 := by
  unfold maxWidthCode
  repeat' split
  all_goals decide

/-! ### The port is UP (R398, R405) -/

section
variable (s : State)

/-- R409: the status of a port that comes up. -/
def State.upShown (s : State) (p width version lanes : Nat) (enc : Bool) : State :=
  let st := R.LNK_PORT_STATUS p
  ((((s.setFld st 31 28 3).setFld st 22 20 width).setFld st 19 18 version).setBit st 17 enc).setFld st 8 0 lanes

/-- R404, R405: the port after a retrain keeps its numbers, and every unacknowledged frame is to be sent again. -/
def Port.resumed (q : Port) (now : Nat) : Port :=
  { q with trainAt := none, failed := 0, epoch := 0, frames := 0, rxEpoch := 0, nakOut := false, ackAt := now,
           replay := q.replay.map fun f => { f with replays := 0 }, resend := q.replay.map (·.seq), changed := some now }

/-- R398: the port after a training begins anew. -/
def Port.anew (q : Port) (now : Nat) : Port := { Port.start with tries := q.tries, counted := q.counted, changed := some now }

/-- R398, R405: the state of a port that comes up. -/
def State.portResumes (s : State) (p : Nat) (again : Bool) : State := s.modPort p fun q => if again then q.resumed s.time else q.anew s.time

/-- R408: this device names itself to the peer. -/
def State.peerTold (s : State) (p : Nat) : State := { s with ctrlOut := s.ctrlOut ++ [(p, s.peerIdFrame)] }

theorem State.portIsUp_eq (p : Nat) (r : Peer) (version width : Nat) : s.portIsUp p r version width =
    (((s.upShown p width version (lanesUsed r.lanes width) ((s.port p).policy.testBit 0)).setReg64 (R.LNK_PORT_PEER_LO p) r.serial).portResumes p
      (s.portState p == 4)).peerTold p := rfl

theorem State.upShown_effect (p : Nat) {width version lanes : Nat} (hw : width < 8) (hv : version < 4) (hl : lanes < 512) (enc : Bool) :
    let u := s.upShown p width version lanes enc
    u.portState p = 3 ∧ u.fld (R.LNK_PORT_STATUS p) 22 20 = width ∧ u.fld (R.LNK_PORT_STATUS p) 19 18 = version ∧ u.encOn p = enc ∧
      u.fld (R.LNK_PORT_STATUS p) 8 0 = lanes := by
  unfold State.upShown State.portState State.encOn
  dsimp only
  refine ⟨?_, ?_, ?_, ?_, ?_⟩
  · rw [State.fld_setFld_other _ _ _ _ _ _ _ (by decide) (by decide) (by decide), State.fld_setBit_other _ _ _ _ _ _ (by decide) (by decide),
      State.fld_setFld_other _ _ _ _ _ _ _ (by decide) (by decide) (by decide), State.fld_setFld_other _ _ _ _ _ _ _ (by decide) (by decide) (by decide),
      State.fld_setFld_same _ _ _ _ _ (by decide) (by decide)]
    rfl
  · rw [State.fld_setFld_other _ _ _ _ _ _ _ (by decide) (by decide) (by decide), State.fld_setBit_other _ _ _ _ _ _ (by decide) (by decide),
      State.fld_setFld_other _ _ _ _ _ _ _ (by decide) (by decide) (by decide), State.fld_setFld_same _ _ _ _ _ (by decide) (by decide)]
    exact Nat.mod_eq_of_lt hw
  · rw [State.fld_setFld_other _ _ _ _ _ _ _ (by decide) (by decide) (by decide), State.fld_setBit_other _ _ _ _ _ _ (by decide) (by decide),
      State.fld_setFld_same _ _ _ _ _ (by decide) (by decide)]
    exact Nat.mod_eq_of_lt hv
  · rw [State.bit_setFld_other _ _ _ _ _ _ (by decide) (by decide), State.bit_setBit_same _ _ _ _ (by decide)]
  · rw [State.fld_setFld_same _ _ _ _ _ (by decide) (by decide)]
    exact Nat.mod_eq_of_lt hl

theorem State.upShown_kept (p width version lanes : Nat) (enc : Bool) : let u := s.upShown p width version lanes enc
    u.ports = s.ports ∧ u.time = s.time ∧ u.ctrlOut = s.ctrlOut ∧ u.fab = s.fab ∧ ∀ a, a ≠ R.LNK_PORT_STATUS p → u.reg a = s.reg a := by
  have hset (u : State) (a hi lo n : Nat) : (u.setFld a hi lo n).ports = u.ports ∧ (u.setFld a hi lo n).time = u.time ∧
      (u.setFld a hi lo n).ctrlOut = u.ctrlOut ∧ (u.setFld a hi lo n).fab = u.fab := ⟨rfl, rfl, rfl, rfl⟩
  unfold State.upShown State.setBit
  dsimp only
  simp only [hset, true_and]
  intro a ha
  rw [State.reg_setFld_other _ _ _ _ ha, State.reg_setFld_other _ _ _ _ ha, State.reg_setFld_other _ _ _ _ ha, State.reg_setFld_other _ _ _ _ ha,
    State.reg_setFld_other _ _ _ _ ha]

theorem State.peerIdFrame_of_fab {s u : State} (h : u.fab = s.fab) : u.peerIdFrame = s.peerIdFrame := by
  unfold State.peerIdFrame State.deviceId
  rw [h]

theorem lnkPortPeer_ne (p : Nat) : R.LNK_PORT_STATUS p ≠ R.LNK_PORT_PEER_LO p ∧ R.LNK_PORT_STATUS p ≠ R.LNK_PORT_PEER_LO p + 4 ∧
    R.LNK_PORT_LANES p ≠ R.LNK_PORT_PEER_LO p ∧ R.LNK_PORT_LANES p ≠ R.LNK_PORT_PEER_LO p + 4 := by
  simp only [R.LNK_PORT_STATUS, R.LNK_PORT_LANES, R.LNK_PORT_PEER_LO]
  omega

/-- R398, R405, R408: what a port that comes up shows. -/
structure PortUp (s u : State) (p : Nat) (r : Peer) (version width : Nat) : Prop where
  state : u.portState p = 3
  shownWidth : u.fld (R.LNK_PORT_STATUS p) 22 20 = width
  shownVersion : u.fld (R.LNK_PORT_STATUS p) 19 18 = version
  enc : u.encOn p = (s.port p).policy.testBit 0
  used : u.fld (R.LNK_PORT_STATUS p) 8 0 = lanesUsed r.lanes width
  peer : u.reg64 (R.LNK_PORT_PEER_LO p) = r.serial
  told : u.ctrlOut = s.ctrlOut ++ [(p, s.peerIdFrame)]
  port : u.port p = if s.portState p == 4 then (s.port p).resumed s.time else (s.port p).anew s.time
  tested : u.reg (R.LNK_PORT_LANES p) = s.reg (R.LNK_PORT_LANES p)

theorem State.portIsUp_effect (p : Nat) (r : Peer) {version width : Nat} (hv : version < 4) (hw : width < 8) (hserial : r.serial < 2 ^ 64) :
    PortUp s (s.portIsUp p r version width) p r version width := by
  obtain ⟨hlo, hhi, hlanesLo, hlanesHi⟩ := lnkPortPeer_ne p
  obtain ⟨hstate, hwidth, hversion, henc, hused⟩ := s.upShown_effect p hw hv (lanesUsed_lt r.lanes width) ((s.port p).policy.testBit 0)
  obtain ⟨hports, htime, hctrl, hfab, hreg⟩ := s.upShown_kept p width version (lanesUsed r.lanes width) ((s.port p).policy.testBit 0)
  rw [s.portIsUp_eq]
  generalize s.upShown p width version (lanesUsed r.lanes width) ((s.port p).policy.testBit 0) = v at hstate hwidth hversion henc hused hports htime hctrl hfab hreg
  have hset : (v.setReg64 (R.LNK_PORT_PEER_LO p) r.serial).ports = v.ports ∧ (v.setReg64 (R.LNK_PORT_PEER_LO p) r.serial).time = v.time ∧
      (v.setReg64 (R.LNK_PORT_PEER_LO p) r.serial).ctrlOut = v.ctrlOut ∧ (v.setReg64 (R.LNK_PORT_PEER_LO p) r.serial).fab = v.fab := ⟨rfl, rfl, rfl, rfl⟩
  have hserial' : (v.setReg64 (R.LNK_PORT_PEER_LO p) r.serial).reg64 (R.LNK_PORT_PEER_LO p) = r.serial :=
    (v.reg64_setReg64_same _ _).trans (Nat.mod_eq_of_lt hserial)
  have hstatus : (v.setReg64 (R.LNK_PORT_PEER_LO p) r.serial).reg (R.LNK_PORT_STATUS p) = v.reg (R.LNK_PORT_STATUS p) := v.reg_setReg64_other _ hlo hhi
  have hlanes : (v.setReg64 (R.LNK_PORT_PEER_LO p) r.serial).reg (R.LNK_PORT_LANES p) = v.reg (R.LNK_PORT_LANES p) :=
    v.reg_setReg64_other _ hlanesLo hlanesHi
  generalize v.setReg64 (R.LNK_PORT_PEER_LO p) r.serial = w at hset hserial' hstatus hlanes
  obtain ⟨hports', htime', hctrl', hfab'⟩ := hset
  have hport : (w.portResumes p (s.portState p == 4)).port p = if s.portState p == 4 then (w.port p).resumed w.time else (w.port p).anew w.time :=
    State.port_modPort_same _ _ _
  have hresumes : (w.portResumes p (s.portState p == 4)).regs = w.regs ∧ (w.portResumes p (s.portState p == 4)).ctrlOut = w.ctrlOut ∧
      (w.portResumes p (s.portState p == 4)).fab = w.fab := ⟨rfl, rfl, rfl⟩
  generalize w.portResumes p (s.portState p == 4) = x at hport hresumes
  obtain ⟨hregs, hctrl'', hfab''⟩ := hresumes
  have htold : (x.peerTold p).regs = x.regs ∧ (x.peerTold p).ports = x.ports ∧ (x.peerTold p).ctrlOut = x.ctrlOut ++ [(p, x.peerIdFrame)] := ⟨rfl, rfl, rfl⟩
  generalize x.peerTold p = y at htold
  obtain ⟨htregs, htports, htctrl⟩ := htold
  have hall (a : Nat) : y.reg a = w.reg a := (State.reg_of_regs htregs a).trans (State.reg_of_regs hregs a)
  have hst := (hall (R.LNK_PORT_STATUS p)).trans hstatus
  refine ⟨(State.fld_of_reg hst 31 28).trans hstate, (State.fld_of_reg hst 22 20).trans hwidth, (State.fld_of_reg hst 19 18).trans hversion,
    (State.bit_of_reg hst 17).trans henc, (State.fld_of_reg hst 8 0).trans hused, ?_, ?_, ?_, ?_⟩
  · rw [State.reg64, hall, hall, ← State.reg64, hserial']
  · rw [htctrl, hctrl'', hctrl', hctrl, State.peerIdFrame_of_fab (hfab''.trans (hfab'.trans hfab))]
  · rw [State.port_of_ports htports, hport, State.port_of_ports hports', State.port_of_ports hports, htime', htime]
  · rw [hall, hlanes, hreg _ (lnkPortLanes_ne_status p).symm]

/-! ### The exchange (R397-R399) -/

theorem State.agreeVersion_eq (p : Nat) (r : Peer) : s.agreeVersion p r =
    if 1 ≤ min ((s.port p).policy / 4 % 4) r.high ∧ r.low ≤ min ((s.port p).policy / 4 % 4) r.high then some (min ((s.port p).policy / 4 % 4) r.high) else none := by
  have hbits : bitsOf (s.port p).policy 3 2 = (s.port p).policy / 4 % 4 := by
    simp only [bitsOf, Nat.shiftRight_eq_div_pow]
    omega
  unfold State.agreeVersion
  rw [hbits]
  simp only [Bool.and_eq_true, decide_eq_true_eq]

/-- R399: the exchange of a port with at least two good lanes. -/
theorem portUp_does {p lanes maxWidth low high serial : Nat} {enc auth : Bool} (hp : p < 32) (hpowered : s.portPowered = true)
    (hstate : s.portState p = 2 ∨ s.portState p = 4) (htrain : (s.port p).trainAt.isSome = true) {u : State}
    (hu : (if goodLanes (lanes % 512) < 2 then (s.laneTest p (lanes % 512)).trainFails p 2 true
      else match s.agreeVersion p { lanes := lanes % 512, maxWidth := maxWidth, low := low, high := high, serial := serial, enc := enc } with
        | none => (s.laneTest p (lanes % 512)).trainFails p 3 true
        | some v =>
          if (s.port p).policy.testBit 0 != enc || ((s.port p).policy.testBit 0 && !s.fuses.linkKey) || ((s.port p).policy.testBit 0 && !auth) then
            (s.laneTest p (lanes % 512)).trainFails p 4 true
          else (s.laneTest p (lanes % 512)).portIsUp p { lanes := lanes % 512, maxWidth := maxWidth, low := low, high := high, serial := serial, enc := enc } v
            (min (widthCode (goodLanes (lanes % 512))) (min (maxWidthCode (s.fld (R.LNK_PORT_CTL p) 9 8)) (maxWidthCode maxWidth)))) = u) :
    Does (.portUp p lanes maxWidth low high serial enc auth) s u := by
  have hcond : (decide (p < 32) && s.portPowered && (s.portState p == 2 || s.portState p == 4) && (s.port p).trainAt.isSome) = true := by
    rcases hstate with hstate | hstate
    · simp [hp, hpowered, hstate, htrain]
    · simp [hp, hpowered, hstate, htrain]
  exact (exec_portUp p lanes maxWidth low high serial enc auth s).trans ((when_true hcond).trans (congrArg Host.Outcome.next hu))

theorem portUp_clause (p lanes maxWidth low high serial : Nat) (enc auth : Bool) (hp : p < 32) (hpowered : s.portPowered = true)
    (hstate : s.portState p = 2 ∨ s.portState p = 4) (htrain : (s.port p).trainAt.isSome = true) (hserial : serial < 2 ^ 64) :
    let good := (List.range 9).filter lanes.testBit
    let v := min ((s.port p).policy / 4 % 4) high
    let mine := (s.port p).policy.testBit 0
    let agreed := 1 ≤ v ∧ low ≤ v
    let safe := mine = enc ∧ (mine = true → s.fuses.linkKey = true ∧ auth = true)
    let width := min (if 8 ≤ good.length then 3 else if 4 ≤ good.length then 2 else 1)
      (min (maxWidthCode (s.fld (R.LNK_PORT_CTL p) 9 8)) (maxWidthCode maxWidth))
    ∃ u : State, Does (.portUp p lanes maxWidth low high serial enc auth) s u ∧
      (u.reg (R.LNK_PORT_LANES p)).toNat = lanes % 512 ∧
      (good.length < 2 → TrainingFailed s u p 2 true) ∧ (2 ≤ good.length → ¬agreed → TrainingFailed s u p 3 true) ∧
      (2 ≤ good.length → agreed → ¬safe → TrainingFailed s u p 4 true) ∧
      (2 ≤ good.length → agreed → safe →
        u.portState p = 3 ∧ u.fld (R.LNK_PORT_STATUS p) 22 20 = width ∧ u.fld (R.LNK_PORT_STATUS p) 19 18 = v ∧
        u.encOn p = mine ∧ u.fld (R.LNK_PORT_STATUS p) 8 0 = maskOf (good.take (2 ^ width)) ∧
        u.reg64 (R.LNK_PORT_PEER_LO p) = serial ∧ u.ctrlOut = s.ctrlOut ++ [(p, s.peerIdFrame)] ∧
        (s.portState p = 2 → u.port p = { Port.start with tries := (s.port p).tries, counted := (s.port p).counted, changed := some s.time }) ∧
        (s.portState p = 4 → (u.port p).nextSeq = (s.port p).nextSeq ∧ (u.port p).expect = (s.port p).expect ∧
          (u.port p).credit = (s.port p).credit ∧ (u.port p).failed = 0 ∧ (u.port p).resend = (s.port p).replay.map (·.seq))) := by
  intro good v mine agreed safe width
  have hgood : goodLanes (lanes % 512) = good.length := by rw [goodLanes, goodLanes_list_mod]
  have htested : (((s.laneTest p (lanes % 512)).reg (R.LNK_PORT_LANES p)).toNat) = lanes % 512 :=
    (s.lanes_laneTest p _).trans (Nat.mod_eq_of_lt (Nat.mod_lt _ (by decide)))
  have hfailed (reason : Nat) (hr : reason < 16) : TrainingFailed s ((s.laneTest p (lanes % 512)).trainFails p reason true) p reason true ∧
      ((((s.laneTest p (lanes % 512)).trainFails p reason true).reg (R.LNK_PORT_LANES p)).toNat) = lanes % 512 :=
    ⟨(State.trainFails_effect _ hp hr true).of_laneTest, by rw [State.lanes_trainFails _ hp hr, htested]⟩
  have hversion := s.agreeVersion_eq p { lanes := lanes % 512, maxWidth := maxWidth, low := low, high := high, serial := serial, enc := enc }
  by_cases hfew : good.length < 2
  · obtain ⟨hfails, hlanes⟩ := hfailed 2 (by decide)
    exact ⟨_, portUp_does s hp hpowered hstate htrain (if_pos (by rw [hgood]; exact hfew)), hlanes, fun _ => hfails, fun h => absurd h (by omega),
      fun h => absurd h (by omega), fun h => absurd h (by omega)⟩
  by_cases hagreed : agreed
  · rw [if_pos hagreed] at hversion
    by_cases hsafe : safe
    · have hv : v < 4 := Nat.lt_of_le_of_lt (Nat.min_le_left _ _) (Nat.mod_lt _ (by decide))
      have hcode : widthCode (goodLanes (lanes % 512)) = if 8 ≤ good.length then 3 else if 4 ≤ good.length then 2 else 1 := by
        rw [hgood, widthCode, if_pos (show 2 ≤ good.length by omega)]
      have hw : width < 8 := by
        have := maxWidthCode_le maxWidth
        simp only [width]
        omega
      have hallowed : ¬ (mine != enc || (mine && !s.fuses.linkKey) || (mine && !auth)) = true := by
        obtain ⟨hsame, hkey⟩ := hsafe
        cases hmine : mine with
        | false => simp [← hsame, hmine]
        | true => simp [← hsame, hmine, (hkey hmine).1, (hkey hmine).2]
      have hup := State.portIsUp_effect (s.laneTest p (lanes % 512)) p
        { lanes := lanes % 512, maxWidth := maxWidth, low := low, high := high, serial := serial, enc := enc } hv hw hserial
      have hsame : (s.laneTest p (lanes % 512)).portState p = s.portState p ∧ (s.laneTest p (lanes % 512)).ctrlOut = s.ctrlOut ∧
          (s.laneTest p (lanes % 512)).time = s.time ∧ (s.laneTest p (lanes % 512)).fab = s.fab := ⟨s.fld_laneTest p _ 31 28, rfl, rfl, rfl⟩
      obtain ⟨hsameState, hsameCtrl, hsameTime, hsameFab⟩ := hsame
      obtain ⟨hst, hwidth, hver, henc, hused, hpeer, htold, hport, hlanes⟩ := hup
      rw [State.port_laneTest] at henc hport
      rw [hsameState, hsameTime] at hport
      rw [hsameCtrl, State.peerIdFrame_of_fab hsameFab] at htold
      refine ⟨_, portUp_does s hp hpowered hstate htrain ?_, ?_, fun h => absurd h hfew, fun _ h => absurd hagreed h, fun _ _ h => absurd hsafe h,
        fun _ _ _ => ⟨hst, hwidth, hver, henc, ?_, hpeer, htold, fun h2 => ?_, fun h4 => ?_⟩⟩
      · rw [if_neg (by rw [hgood]; exact hfew), hversion, hcode]
        exact if_neg hallowed
      · rw [hlanes, htested]
      · rw [hused, lanesUsed, goodLanes_list_mod]
      · rw [hport, h2]
        rfl
      · rw [hport, h4]
        exact ⟨rfl, rfl, rfl, rfl, rfl⟩
    · obtain ⟨hfails, hlanes⟩ := hfailed 4 (by decide)
      have hrefused : (mine != enc || (mine && !s.fuses.linkKey) || (mine && !auth)) = true := by
        by_contra hnot
        simp only [Bool.or_eq_true, bne_iff_ne, Bool.and_eq_true, Bool.not_eq_true', not_or, not_and, not_not, Bool.not_eq_false] at hnot
        obtain ⟨⟨hsame, hkey⟩, hauth⟩ := hnot
        exact hsafe ⟨hsame, fun hmine => ⟨hkey hmine, hauth hmine⟩⟩
      refine ⟨_, portUp_does s hp hpowered hstate htrain ?_, hlanes, fun h => absurd h hfew, fun _ h => absurd hagreed h, fun _ _ _ => hfails,
        fun _ _ h => absurd h hsafe⟩
      rw [if_neg (by rw [hgood]; exact hfew), hversion]
      exact if_pos hrefused
  · obtain ⟨hfails, hlanes⟩ := hfailed 3 (by decide)
    rw [if_neg hagreed] at hversion
    refine ⟨_, portUp_does s hp hpowered hstate htrain ?_, hlanes, fun h => absurd h hfew, fun _ _ => hfails, fun _ h => absurd h hagreed,
      fun _ h => absurd h hagreed⟩
    rw [if_neg (by rw [hgood]; exact hfew), hversion]

end

end Sys2Proof.Machine
end

section
/-! PROOFS. The frames of a Wyldex port: what a received frame leaves of the port and of its counters (R336, R401-R404, R407, R408). -/

namespace Sys2Proof.Machine

/-- The registers of the ports. -/
abbrev LinkReg (a : Nat) : Prop := 0x301000 ≤ a ∧ a < 0x301800

/-- The second state has the ports of the first, and their registers. -/
structure LinkIdle (s u : State) : Prop where
  ports : u.ports = s.ports
  reg : ∀ a, LinkReg a → u.reg a = s.reg a

namespace LinkIdle

theorem refl (s : State) : LinkIdle s s := ⟨rfl, fun _ _ => rfl⟩

theorem trans {s u v : State} (h : LinkIdle s u) (h' : LinkIdle u v) : LinkIdle s v :=
  ⟨h'.ports.trans h.ports, fun a ha => (h'.reg a ha).trans (h.reg a ha)⟩

theorem foldl {α : Type} {f : State → α → State} (h : ∀ u x, LinkIdle u (f u x)) (l : List α) (s : State) : LinkIdle s (l.foldl f s) :=
  List.foldlRecOn (motive := LinkIdle s) l f (refl s) fun u hu x _ => hu.trans (h u x)

/-- A change outside the registers and the ports. -/
theorem of_regs {s u : State} (hports : u.ports = s.ports) (hregs : u.regs = s.regs) : LinkIdle s u := ⟨hports, fun a _ => State.reg_of_regs hregs a⟩

theorem of_reset {s u : State} (h : SiteReset s u) : LinkIdle s u :=
  ⟨h.view State.ports fun _ _ _ _ _ => rfl, fun _ ha => h.reg (by simp only [TraceReg]; omega)⟩

section
variable (s : State)

theorem setReg {a : Nat} (v : BitVec 32) (h : ¬ LinkReg a) : LinkIdle s (s.setReg a v) := ⟨rfl, fun _ hb => s.reg_setReg_other v fun hba => h (hba ▸ hb)⟩
theorem setFld {a : Nat} (hi lo n : Nat) (h : ¬ LinkReg a) : LinkIdle s (s.setFld a hi lo n) := setReg s _ h
theorem setBit {a : Nat} (i : Nat) (b : Bool) (h : ¬ LinkReg a) : LinkIdle s (s.setBit a i b) := setReg s _ h

theorem ring_off_links {a : Nat} (h : LinkReg a) : a ∉ ringRegs := by
  simp only [ringRegs, R.FLT_LOG_HEAD, R.FLT_LOG_TAIL, R.FLT_LOG_LOST, List.mem_cons, List.not_mem_nil, or_false]
  omega

theorem curFault (code : Nat) (detail : List Nat) : LinkIdle s (s.curFault code detail) :=
  ⟨State.curFault_view _ _ _ State.ports fun _ _ _ _ => rfl, fun _ ha => State.reg_curFault_other _ _ _ (ring_off_links ha)⟩

theorem modNet (f : Net → Net) : LinkIdle s (s.modNet f) := of_regs rfl rfl
theorem setTim (tim : Tim) : LinkIdle s { s with tim := tim } := of_regs rfl rfl
theorem sendCtrl (p : Nat) (f : CtrlFrame) : LinkIdle s (s.sendCtrl p f) := of_regs rfl rfl

/-! ### Control and time frames (R299, R336, R408) -/

theorem release (m : Image) (c : Nat) : LinkIdle s (s.release m c) := by
  have hset (u : State) (x : SnCtx) : LinkIdle u (u.setSn c x) := modNet u _
  have hwaves (u : State) : LinkIdle u (u.sendWaves m c true false) := of_regs rfl rfl
  have hstall (u : State) (t : Nat) : LinkIdle u (u.endStall t c) := of_reset (.modSite u t _)
  unfold State.release
  dsimp only
  exact ((foldl (fun u p => sendCtrl u p _) _ s).trans (foldl hstall _ _)).trans ((hset _ _).trans (hwaves _))

theorem barArrive (p c round : Nat) : LinkIdle s (s.barArrive p c round) := by
  unfold State.barArrive
  split
  · exact refl s
  · dsimp only
    split
    · exact modNet s _
    · exact refl s

theorem barRelease (p c round : Nat) : LinkIdle s (s.barRelease p c round) := by
  unfold State.barRelease
  split
  · exact refl s
  · dsimp only
    split
    · exact release s _ c
    · exact refl s

theorem showOffset (off : Int) : LinkIdle s (s.showOffset off) := by
  have hfreed (u : State) : LinkIdle u u.freed := of_regs rfl rfl
  exact (setFld s _ _ _ (by decide)).trans (hfreed _)

theorem stepTime (off : Int) : LinkIdle s (s.stepTime off) := by
  have htime (n : Nat) : LinkIdle s { s with time := n } := of_regs rfl rfl
  exact ((htime _).trans (setBit _ 2 true (by decide))).trans (curFault _ _ _)

theorem unlock : LinkIdle s s.unlock := (setBit s _ _ (by decide)).trans (setBit _ _ _ (by decide))

/-- R337: a measured offset leaves the ports. -/
theorem measured (off : Int) : LinkIdle s (s.measured off) := by
  unfold State.measured
  split
  · exact setTim s _
  · refine (showOffset s off).trans ?_
    generalize s.showOffset off = u
    dsimp only
    split
    · exact ((setTim u _).trans (stepTime _ _)).trans (setTim _ _)
    · split
      · exact (((setTim u _).trans (setTim _ _)).trans ((setTim _ _).trans (unlock _))).trans (curFault _ _ _)
      · split
        · split
          · exact (((setTim u _).trans (setTim _ _)).trans (setTim _ _)).trans (setBit _ _ _ (by decide))
          · exact ((setTim u _).trans (setTim _ _)).trans (setTim _ _)
        · exact ((setTim u _).trans (setTim _ _)).trans (setTim _ _)

theorem takeTime (p : Nat) (b : List (BitVec 8)) : LinkIdle s (s.takeTime p b) := by
  unfold State.takeTime
  split
  · exact sendCtrl s _ _
  · split
    · exact measured s _
    · exact refl s
  · exact refl s

end

end LinkIdle

/-! ### What a frame leaves of its port (R402-R404, R408) -/

/-- What the reception of frames keeps at a port: the number expected, whether a NAK is out, the frames to be acknowledged, and the receiver's epoch. -/
def Port.received (q : Port) : Nat × Bool × List TxFrame × Nat := (q.expect, q.nakOut, q.replay, q.rxEpoch)

/-- The second state has the counters of the codewords of a port, and what its reception keeps, as the first. -/
structure FrameKept (p : Nat) (s u : State) : Prop where
  corr : u.reg (R.LNK_PORT_FEC_CORR p) = s.reg (R.LNK_PORT_FEC_CORR p)
  uncorr : u.reg (R.LNK_PORT_FEC_UNCORR p) = s.reg (R.LNK_PORT_FEC_UNCORR p)
  received : (u.port p).received = (s.port p).received

namespace FrameKept

section
variable {p : Nat}

theorem refl (s : State) : FrameKept p s s := ⟨rfl, rfl, rfl⟩

theorem trans {s u v : State} (h : FrameKept p s u) (h' : FrameKept p u v) : FrameKept p s v :=
  ⟨h'.corr.trans h.corr, h'.uncorr.trans h.uncorr, h'.received.trans h.received⟩

theorem foldl {α : Type} {f : State → α → State} (h : ∀ u x, FrameKept p u (f u x)) (l : List α) (s : State) : FrameKept p s (l.foldl f s) :=
  List.foldlRecOn (motive := FrameKept p s) l f (refl s) fun u hu x _ => hu.trans (h u x)

theorem modPort (s : State) (r : Nat) {f : Port → Port} (h : ∀ q, (f q).received = q.received) : FrameKept p s (s.modPort r f) := by
  refine ⟨State.reg_modPort _ _ _ _, State.reg_modPort _ _ _ _, ?_⟩
  by_cases hpr : p = r
  · rw [← hpr, State.port_modPort_same, h]
  · rw [State.port_modPort_other _ _ hpr]

variable (hp : p < 32)
include hp

theorem of_idle {s u : State} (h : LinkIdle s u) : FrameKept p s u :=
  ⟨h.reg _ (by simp only [LinkReg, R.LNK_PORT_FEC_CORR]; omega), h.reg _ (by simp only [LinkReg, R.LNK_PORT_FEC_UNCORR]; omega),
    by rw [State.port_of_ports h.ports]⟩

theorem ingress (s : State) (r : Nat) (k : Packet) : FrameKept p s (s.ingress r k) := by
  unfold State.ingress
  dsimp only
  split
  · have howe (vc n : Nat) : FrameKept p s (s.owe r vc n) := modPort s r fun _ => rfl
    exact (howe _ _).trans (of_idle hp (.of_reset (.unreach _ _ _)))
  · have hpost (origin : Nat) (agent : Agent) (h : Hdr) (data : List (BitVec 8)) (x : NetUser) : LinkIdle s (s.post origin agent h data x) := .of_regs rfl rfl
    exact of_idle hp (hpost _ _ _ _ _)

theorem takeData (s : State) (r first : Nat) (body : List (BitVec 8)) : FrameKept p s (s.takeData r first body) := by
  have hrx (rx : List (BitVec 8)) : FrameKept p s (s.modPort r fun q => { q with rx := rx }) := modPort s r fun _ => rfl
  unfold State.takeData
  dsimp only
  exact (hrx _).trans (foldl (fun u k => ingress hp u r k) _ _)

theorem takeCtrl (s : State) (r : Nat) (b : List (BitVec 8)) : FrameKept p s (s.takeCtrl r b) := by
  have hcorr : R.LNK_PORT_FEC_CORR p ≠ R.LNK_PORT_PEER_ID r := by simp only [R.LNK_PORT_FEC_CORR, R.LNK_PORT_PEER_ID]; omega
  have huncorr : R.LNK_PORT_FEC_UNCORR p ≠ R.LNK_PORT_PEER_ID r := by simp only [R.LNK_PORT_FEC_UNCORR, R.LNK_PORT_PEER_ID]; omega
  unfold State.takeCtrl
  split
  · exact of_idle hp (.barArrive s _ _ _)
  · exact of_idle hp (.barRelease s _ _ _)
  · exact ⟨s.reg_setReg_other _ hcorr, s.reg_setReg_other _ huncorr, rfl⟩
  · exact of_idle hp (.sendCtrl s _ _)
  · exact refl s

end

end FrameKept

section
variable (s : State)

/-! ### A frame is discarded (R404) -/

/-- R404: what discarding a frame leaves. -/
structure FrameDiscarded (p : Nat) (s u : State) : Prop where
  regs : u.regs = s.regs
  net : u.net = s.net
  received : (u.port p).received = ((s.port p).expect, true, (s.port p).replay, (s.port p).rxEpoch)

theorem State.sendFrame_effect (p kind seq first : Nat) (body : List (BitVec 8)) : (s.sendFrame p kind seq first body).regs = s.regs ∧
    (s.sendFrame p kind seq first body).net = s.net ∧ ((s.sendFrame p kind seq first body).port p).received = (s.port p).received := by
  unfold State.sendFrame
  dsimp only
  refine ⟨rfl, rfl, ?_⟩
  rw [State.port_modPort_same]
  rfl

theorem State.discardFrame_effect {p : Nat} (hheld : s.portHeld p = false) : FrameDiscarded p s (s.discardFrame p) := by
  unfold State.discardFrame
  rw [hheld, Bool.or_false]
  split
  next hnak => exact ⟨rfl, rfl, by rw [Port.received, hnak]⟩
  next =>
    have hout : (s.modPort p fun q => { q with nakOut := true }).regs = s.regs ∧ (s.modPort p fun q => { q with nakOut := true }).net = s.net := ⟨rfl, rfl⟩
    have hport : ((s.modPort p fun q => { q with nakOut := true }).port p).received = ((s.port p).expect, true, (s.port p).replay, (s.port p).rxEpoch) := by
      rw [State.port_modPort_same]
      rfl
    generalize (s.modPort p fun q => { q with nakOut := true }) = u at hout hport
    obtain ⟨hregs, hnet, hreceived⟩ := u.sendFrame_effect p 3 (s.port p).nextSeq 0 []
    exact ⟨hregs.trans hout.1, hnet.trans hout.2, hreceived.trans hport⟩

/-! ### Acknowledged frames (R404) -/

/-- R404: the frames that are left once one of them is acknowledged. -/
def unacknowledged (l : List TxFrame) (ack : Nat) : List TxFrame :=
  if l.any fun f => f.seq == ack then l.filter fun f => !((l.takeWhile fun g => g.seq != ack).map (·.seq) ++ [ack]).contains f.seq else l

theorem State.acked_effect (p ack : Nat) : ((s.acked p ack).port p).received =
    ((s.port p).expect, (s.port p).nakOut, unacknowledged (s.port p).replay ack, (s.port p).rxEpoch) ∧
    (s.acked p ack).regs = s.regs ∧ (s.acked p ack).time = s.time := by
  unfold State.acked unacknowledged
  dsimp only
  cases hany : (s.port p).replay.any fun f => f.seq == ack with
  | false => exact ⟨rfl, rfl, rfl⟩
  | true =>
    refine ⟨?_, rfl, rfl⟩
    rw [if_neg (by decide), State.port_modPort_same]
    rfl

theorem State.replay_acked (p ack : Nat) : ((s.acked p ack).port p).replay = unacknowledged (s.port p).replay ack :=
  congrArg (fun x => x.2.2.1) (s.acked_effect p ack).1

/-- R404: a frame in order, before what it carries is taken. -/
def State.frameAcked (s : State) (p header : Nat) : State := (s.acked p (bitsOf header 43 32)).credited p header

theorem State.frameAcked_effect (p header : Nat) : ((s.frameAcked p header).port p).received =
    ((s.port p).expect, (s.port p).nakOut, unacknowledged (s.port p).replay (bitsOf header 43 32), (s.port p).rxEpoch) ∧
    (s.frameAcked p header).regs = s.regs := by
  obtain ⟨hreceived, hregs, -⟩ := s.acked_effect p (bitsOf header 43 32)
  have hcredited (u : State) : (u.credited p header).regs = u.regs := rfl
  have hport (u : State) : ((u.credited p header).port p).received = (u.port p).received := by
    rw [State.credited, State.port_modPort_same]
    rfl
  exact ⟨(hport _).trans hreceived, (hcredited _).trans hregs⟩

/-- R404: what a frame in order leaves of its port. -/
structure FrameTaken (p header : Nat) (s u : State) : Prop where
  corr : u.reg (R.LNK_PORT_FEC_CORR p) = s.reg (R.LNK_PORT_FEC_CORR p)
  uncorr : u.reg (R.LNK_PORT_FEC_UNCORR p) = s.reg (R.LNK_PORT_FEC_UNCORR p)
  received : (u.port p).received = (if bitsOf header 63 60 = 1 ∨ bitsOf header 63 60 = 2 then ((s.port p).expect + 1) % 4096 else (s.port p).expect, false,
    unacknowledged (s.port p).replay (bitsOf header 43 32), (s.port p).rxEpoch)

theorem State.takeFrame_discards {p header : Nat} (body : List (BitVec 8)) (h : bitsOf header 55 44 ≠ (s.port p).expect) :
    s.takeFrame p header body = s.discardFrame p :=
  if_pos (by simp [h])

theorem State.takeFrame_ignores {p header : Nat} (body : List (BitVec 8)) (h : bitsOf header 55 44 = (s.port p).expect) (hkind : 5 ≤ bitsOf header 63 60) :
    s.takeFrame p header body = s := by
  unfold State.takeFrame
  dsimp only
  rw [if_neg (by simp [h])]
  generalize bitsOf header 63 60 = kind at hkind
  obtain ⟨n, rfl⟩ := Nat.exists_eq_add_of_le' hkind
  rfl

theorem State.takeFrame_effect {p header : Nat} (hp : p < 32) (body : List (BitVec 8)) (h : bitsOf header 55 44 = (s.port p).expect)
    (hkind : bitsOf header 63 60 < 5) : FrameTaken p header s (s.takeFrame p header body) := by
  have hacked := s.frameAcked_effect p header
  have hinOrder : ¬ (!(bitsOf header 55 44 == (s.port p).expect)) = true := by simp [h]
  have hplain (u : State) : ((u.modPort p fun q => { q with nakOut := false }).port p).received =
      ((u.port p).expect, false, (u.port p).replay, (u.port p).rxEpoch) := by
    rw [State.port_modPort_same]
    rfl
  have hstep (u : State) : ((u.modPort p fun q => { q with expect := (q.expect + 1) % 4096, nakOut := false, ackDue := true }).port p).received =
      (((u.port p).expect + 1) % 4096, false, (u.port p).replay, (u.port p).rxEpoch) := by
    rw [State.port_modPort_same]
    rfl
  have hreg (u : State) (f : Port → Port) (a : Nat) : (u.modPort p f).reg a = u.reg a := State.reg_modPort _ _ _ _
  have hreplays (u : State) : FrameKept p u (u.replayAll p) := .modPort u p fun _ => rfl
  unfold State.takeFrame
  dsimp only
  rw [if_neg hinOrder, ← State.frameAcked]
  generalize s.frameAcked p header = v at hacked
  obtain ⟨hv, hregs⟩ := hacked
  simp only [Port.received, Prod.mk.injEq] at hv
  obtain ⟨hexpect, -, hreplay, hrx⟩ := hv
  have hvreg (a : Nat) : v.reg a = s.reg a := State.reg_of_regs hregs a
  generalize hk : bitsOf header 63 60 = kind at hkind
  have hnumbered {u : State} (hu : FrameKept p (v.modPort p fun q => { q with expect := (q.expect + 1) % 4096, nakOut := false, ackDue := true }) u)
      (h12 : kind = 1 ∨ kind = 2) : FrameTaken p header s u :=
    ⟨by rw [hu.corr, hreg, hvreg], by rw [hu.uncorr, hreg, hvreg], by rw [hu.received, hstep, hexpect, hreplay, hrx, hk, if_pos h12]⟩
  have hother {u : State} (hu : FrameKept p (v.modPort p fun q => { q with nakOut := false }) u) (h12 : ¬(kind = 1 ∨ kind = 2)) :
      FrameTaken p header s u :=
    ⟨by rw [hu.corr, hreg, hvreg], by rw [hu.uncorr, hreg, hvreg], by rw [hu.received, hplain, hexpect, hreplay, hrx, hk, if_neg h12]⟩
  interval_cases kind
  · exact hother (.refl _) (by decide)
  · exact hnumbered (.takeData hp _ _ _ _) (by decide)
  · exact hnumbered (.takeCtrl hp _ _ _) (by decide)
  · exact hother (hreplays _) (by decide)
  · exact hother (.of_idle hp (.takeTime _ _ _)) (by decide)

/-! ### A tag that fails (R407) -/

/-- R407: the failed tags of a port within the last second, this one among them. -/
def State.tagNoted (s : State) (p : Nat) : State :=
  (s.bump (R.LNK_PORT_AUTH_FAIL p) 1).modPort p fun q => { q with authAt := ((s.port p).authAt.filter fun t => s.time < t + 1000000000) ++ [s.time] }

theorem State.tagFails_eq (p : Nat) : s.tagFails p =
    let n := (((s.port p).authAt.filter fun t => s.time < t + 1000000000) ++ [s.time]).length
    if 4 ≤ n then ((s.tagNoted p).curFault 0x31 (le 1 p ++ le 4 n)).portDown p 4 1 else (s.tagNoted p).discardFrame p := rfl

theorem State.tagNoted_effect (p : Nat) : (s.tagNoted p).reg (R.LNK_PORT_AUTH_FAIL p) = satAdd (s.reg (R.LNK_PORT_AUTH_FAIL p)) 1 ∧
    (∀ a, a ≠ R.LNK_PORT_AUTH_FAIL p → (s.tagNoted p).reg a = s.reg a) ∧ (s.tagNoted p).net = s.net ∧ (s.tagNoted p).fab = s.fab ∧
    ((s.tagNoted p).port p).received = (s.port p).received := by
  have hkept : (s.bump (R.LNK_PORT_AUTH_FAIL p) 1).port p = s.port p ∧ (s.bump (R.LNK_PORT_AUTH_FAIL p) 1).net = s.net ∧
      (s.bump (R.LNK_PORT_AUTH_FAIL p) 1).fab = s.fab := ⟨rfl, rfl, rfl⟩
  obtain ⟨hport, hnet, hfab⟩ := hkept
  refine ⟨(State.reg_modPort _ _ _ _).trans (State.reg_setReg_same _ _ _), fun a ha => (State.reg_modPort _ _ _ _).trans (State.reg_setReg_other _ _ ha), hnet,
    hfab, ?_⟩
  rw [State.tagNoted, State.port_modPort_same, hport]
  rfl

theorem State.portHeld_of {s u : State} {p : Nat} (hfab : u.fab = s.fab) (hreg : ∀ a, ¬ LinkReg a → u.reg a = s.reg a) : u.portHeld p = s.portHeld p := by
  unfold State.portHeld
  rw [hfab]
  split
  next q _ =>
    refine State.bit_of_reg (hreg _ ?_) _
    simp only [LinkReg, R.SEC_SCRUBBING]
    omega
  next => rfl

end

end Sys2Proof.Machine
end

section
/-! PROOFS. The reception of a frame, the acknowledgements and the other commands of an UP port (R401-R404, R407, R408); O50 is settled. -/

namespace Sys2Proof.Machine

section
variable (s : State) (p : Nat)

/-! ### The counters of the codewords (R401) -/

/-- R401: the codewords that the FEC corrected, and those it could not, are counted. -/
def State.fecCounted (corr uncorr : Nat) : State := (s.bump (R.LNK_PORT_FEC_CORR p) corr).bump (R.LNK_PORT_FEC_UNCORR p) uncorr

theorem lnkPortFec_ne : R.LNK_PORT_FEC_CORR p ≠ R.LNK_PORT_FEC_UNCORR p ∧ R.LNK_PORT_FEC_CORR p ≠ R.LNK_PORT_AUTH_FAIL p ∧
    R.LNK_PORT_FEC_UNCORR p ≠ R.LNK_PORT_AUTH_FAIL p ∧ R.LNK_PORT_STATUS p ≠ R.LNK_PORT_FEC_CORR p ∧
    R.LNK_PORT_STATUS p ≠ R.LNK_PORT_FEC_UNCORR p ∧ R.LNK_PORT_STATUS p ≠ R.LNK_PORT_AUTH_FAIL p := by
  simp only [R.LNK_PORT_FEC_CORR, R.LNK_PORT_FEC_UNCORR, R.LNK_PORT_AUTH_FAIL, R.LNK_PORT_STATUS]
  omega

theorem lnkPortFec_linkReg {p : Nat} (hp : p < 32) : LinkReg (R.LNK_PORT_FEC_CORR p) ∧ LinkReg (R.LNK_PORT_FEC_UNCORR p) ∧
    LinkReg (R.LNK_PORT_AUTH_FAIL p) := by
  simp only [LinkReg, R.LNK_PORT_FEC_CORR, R.LNK_PORT_FEC_UNCORR, R.LNK_PORT_AUTH_FAIL]
  omega

/-- What counting the codewords of a frame leaves. -/
structure FecCounted (s : State) (p corr uncorr : Nat) (u : State) : Prop where
  corr : u.reg (R.LNK_PORT_FEC_CORR p) = satAdd (s.reg (R.LNK_PORT_FEC_CORR p)) corr
  uncorr : u.reg (R.LNK_PORT_FEC_UNCORR p) = satAdd (s.reg (R.LNK_PORT_FEC_UNCORR p)) uncorr
  others : ∀ a, a ≠ R.LNK_PORT_FEC_CORR p → a ≠ R.LNK_PORT_FEC_UNCORR p → u.reg a = s.reg a
  ports : u.ports = s.ports
  net : u.net = s.net
  fab : u.fab = s.fab
  time : u.time = s.time

theorem State.fecCounted_effect (corr uncorr : Nat) : FecCounted s p corr uncorr (s.fecCounted p corr uncorr) where
  corr := (State.reg_setReg_other _ _ (lnkPortFec_ne p).1).trans (State.reg_setReg_same _ _ _)
  uncorr := by
    refine (State.reg_setReg_same _ _ _).trans ?_
    rw [State.bump, State.reg_setReg_other _ _ (lnkPortFec_ne p).1.symm]
  others := fun _ hcorr huncorr => (State.reg_setReg_other _ _ huncorr).trans (State.reg_setReg_other _ _ hcorr)
  ports := rfl
  net := rfl
  fab := rfl
  time := rfl

/-! ### The receiver's epoch (R407) -/

/-- R407: a flipped epoch bit moves the receiver to the next epoch. -/
def State.epochSeen (flip : Bool) : State := if flip then s.modPort p fun q => { q with rxEpoch := q.rxEpoch + 1 } else s

theorem State.epochSeen_effect (flip : Bool) : (s.epochSeen p flip).regs = s.regs ∧ (s.epochSeen p flip).net = s.net ∧ (s.epochSeen p flip).fab = s.fab ∧
    (s.epochSeen p flip).time = s.time ∧ ((s.epochSeen p flip).port p).received =
      ((s.port p).expect, (s.port p).nakOut, (s.port p).replay, (s.port p).rxEpoch + if flip then 1 else 0) := by
  cases flip with
  | false => exact ⟨rfl, rfl, rfl, rfl, rfl⟩
  | true =>
    refine ⟨rfl, rfl, rfl, rfl, ?_⟩
    rw [State.epochSeen, if_pos rfl, State.port_modPort_same]
    rfl

theorem Port.received_eq {q : Port} {expect rxEpoch : Nat} {nakOut : Bool} {replay : List TxFrame} :
    q.received = (expect, nakOut, replay, rxEpoch) ↔ q.expect = expect ∧ q.nakOut = nakOut ∧ q.replay = replay ∧ q.rxEpoch = rxEpoch := by
  simp only [Port.received, Prod.mk.injEq]

/-! ### The three ends of a frame (R404, R407) -/

/-- R407: what a failed tag leaves of its port: it is counted, and either the frame is discarded or the port is DOWN for AUTH. -/
structure TagFailed (s : State) (p : Nat) (u : State) : Prop where
  corr : u.reg (R.LNK_PORT_FEC_CORR p) = s.reg (R.LNK_PORT_FEC_CORR p)
  uncorr : u.reg (R.LNK_PORT_FEC_UNCORR p) = s.reg (R.LNK_PORT_FEC_UNCORR p)
  auth : u.reg (R.LNK_PORT_AUTH_FAIL p) = satAdd (s.reg (R.LNK_PORT_AUTH_FAIL p)) 1
  few : ((s.port p).authAt.filter fun t => s.time < t + 1000000000).length < 3 → u.portState p = s.portState p ∧ u.net = s.net ∧
    (u.port p).expect = (s.port p).expect ∧ (u.port p).nakOut = true
  many : 3 ≤ ((s.port p).authAt.filter fun t => s.time < t + 1000000000).length → u.portState p = 1 ∧ u.fld (R.LNK_PORT_STATUS p) 27 24 = 4

theorem State.tagFails_effect {p : Nat} (hp : p < 32) (hheld : s.portHeld p = false) : TagFailed s p (s.tagFails p) := by
  obtain ⟨hcorrNe, hcorrAuth, huncorrAuth, hstatusCorr, hstatusUncorr, hstatusAuth⟩ := lnkPortFec_ne p
  obtain ⟨hcorrLink, huncorrLink, hauthLink⟩ := lnkPortFec_linkReg hp
  obtain ⟨hauth, hothers, hnet, hfab, hreceived⟩ := s.tagNoted_effect p
  rw [s.tagFails_eq, List.length_append, List.length_singleton]
  generalize hn : ((s.port p).authAt.filter fun t => s.time < t + 1000000000).length = n
  generalize s.tagNoted p = v at hauth hothers hnet hfab hreceived
  dsimp only
  by_cases hmany : 3 ≤ n
  · rw [if_pos (by omega)]
    generalize le 1 p ++ le 4 (n + 1) = detail
    have hcur (a : Nat) (ha : LinkReg a) : (v.curFault 0x31 detail).reg a = v.reg a := State.reg_curFault_other _ _ _ (LinkIdle.ring_off_links ha)
    generalize v.curFault 0x31 detail = w at hcur
    obtain ⟨hstate, hreason, -, -⟩ := w.portDown_status hp (by decide : 4 < 16) (by decide : 1 < 16)
    have hdown (a : Nat) (ha : LinkReg a) (hstatus : a ≠ R.LNK_PORT_STATUS p) (hdropped : a ≠ R.LNK_PORT_DROPPED p) : (w.portDown p 4 1).reg a = v.reg a :=
      (w.reg_portDown_lnk hp 4 1 (by decide) (by decide) ha hstatus hdropped).trans (hcur a ha)
    have hdropped : R.LNK_PORT_FEC_CORR p ≠ R.LNK_PORT_DROPPED p ∧ R.LNK_PORT_FEC_UNCORR p ≠ R.LNK_PORT_DROPPED p ∧
        R.LNK_PORT_AUTH_FAIL p ≠ R.LNK_PORT_DROPPED p := by
      simp only [R.LNK_PORT_FEC_CORR, R.LNK_PORT_FEC_UNCORR, R.LNK_PORT_AUTH_FAIL, R.LNK_PORT_DROPPED]
      omega
    exact ⟨(hdown _ hcorrLink hstatusCorr.symm hdropped.1).trans (hothers _ hcorrAuth),
      (hdown _ huncorrLink hstatusUncorr.symm hdropped.2.1).trans (hothers _ huncorrAuth),
      (hdown _ hauthLink hstatusAuth.symm hdropped.2.2).trans hauth, fun hfew => absurd hmany (by omega), fun _ => ⟨hstate, hreason⟩⟩
  · rw [if_neg (by omega)]
    have hvheld : v.portHeld p = false := (State.portHeld_of hfab fun a ha => hothers a fun hauthReg => ha (hauthReg ▸ hauthLink)).trans hheld
    obtain ⟨hregs, hdnet, hport⟩ := v.discardFrame_effect hvheld
    obtain ⟨hexpect, -, -, -⟩ := Port.received_eq.mp hreceived
    obtain ⟨hdexpect, hnak, -, -⟩ := Port.received_eq.mp hport
    have hreg (a : Nat) : (v.discardFrame p).reg a = v.reg a := State.reg_of_regs hregs a
    exact ⟨(hreg _).trans (hothers _ hcorrAuth), (hreg _).trans (hothers _ huncorrAuth), (hreg _).trans hauth,
      fun _ => ⟨State.fld_of_reg ((hreg _).trans (hothers _ hstatusAuth)) 31 28, hdnet.trans hnet, hdexpect.trans hexpect, hnak⟩,
      fun hge => absurd hge (by omega)⟩

/-- R404: what a frame that passed its checks leaves of its port. -/
structure FramePassed (s : State) (p header : Nat) (u : State) : Prop where
  corr : u.reg (R.LNK_PORT_FEC_CORR p) = s.reg (R.LNK_PORT_FEC_CORR p)
  uncorr : u.reg (R.LNK_PORT_FEC_UNCORR p) = s.reg (R.LNK_PORT_FEC_UNCORR p)
  epoch : (u.port p).rxEpoch = (s.port p).rxEpoch
  discarded : bitsOf header 55 44 ≠ (s.port p).expect → (u.port p).expect = (s.port p).expect ∧ (u.port p).nakOut = true ∧
    (u.port p).replay = (s.port p).replay ∧ u.net = s.net
  taken : bitsOf header 55 44 = (s.port p).expect → bitsOf header 63 60 < 5 → (u.port p).nakOut = false ∧
    (u.port p).replay = unacknowledged (s.port p).replay (bitsOf header 43 32) ∧
    (u.port p).expect = if bitsOf header 63 60 = 1 ∨ bitsOf header 63 60 = 2 then ((s.port p).expect + 1) % 4096 else (s.port p).expect

theorem State.takeFrame_passes {p : Nat} (hp : p < 32) (hheld : s.portHeld p = false) (header : Nat) (body : List (BitVec 8)) :
    FramePassed s p header (s.takeFrame p header body) := by
  by_cases horder : bitsOf header 55 44 = (s.port p).expect
  · by_cases hkind : bitsOf header 63 60 < 5
    · obtain ⟨hcorr, huncorr, hport⟩ := s.takeFrame_effect hp body horder hkind
      obtain ⟨hexpect, hnak, hreplay, hepoch⟩ := Port.received_eq.mp hport
      exact ⟨hcorr, huncorr, hepoch, fun h => absurd horder h, fun _ _ => ⟨hnak, hreplay, hexpect⟩⟩
    · rw [s.takeFrame_ignores body horder (by omega)]
      exact ⟨rfl, rfl, rfl, fun h => absurd horder h, fun _ h => absurd h hkind⟩
  · rw [s.takeFrame_discards body horder]
    obtain ⟨hregs, hnet, hport⟩ := s.discardFrame_effect hheld
    obtain ⟨hexpect, hnak, hreplay, hepoch⟩ := Port.received_eq.mp hport
    exact ⟨State.reg_of_regs hregs _, State.reg_of_regs hregs _, hepoch, fun _ => ⟨hexpect, hnak, hreplay, hnet⟩, fun h => absurd h horder⟩

/-! ### A frame arrives (R401, R402, R404, R407) -/

/-- R401, R402: the frame is whole, and its CRC-64 is right. -/
def frameCrcOk (frame : List (BitVec 8)) : Bool := frame.length == 256 && crc64 0 (frame.take 248) == BitVec.ofNat 64 (leNat (frame.drop 248))

/-- R407: whether a frame of this header is encrypted. -/
def State.frameSealed (header : Nat) : Bool := s.encOn p && bitsOf header 63 60 != 3

/-- R401, R404, R407: what becomes of a frame once its codewords are counted. -/
def State.frameChecked (frame plain : List (BitVec 8)) (tagOk crcOk enc : Bool) : State :=
  if !crcOk then s.discardFrame p
  else if enc && !tagOk then s.tagFails p
  else (s.epochSeen p (enc && bitsOf (leNat (frame.take 8)) 59 59 != (s.port p).rxEpoch % 2)).takeFrame p (leNat (frame.take 8))
    (if enc then padTo plain 224 else (frame.drop 8).take 240)

theorem frameReceive_does (frame plain : List (BitVec 8)) (tagOk : Bool) (corr uncorr : Nat) (hp : p < 32) (hstate : s.portState p = 3) :
    Does (.frameReceive p frame plain tagOk corr uncorr) s
      ((s.fecCounted p corr uncorr).frameChecked p frame plain tagOk (frameCrcOk frame) (s.frameSealed p (leNat (frame.take 8)))) :=
  (exec_frameReceive p frame plain tagOk corr uncorr s).trans (when_true (by simp [hp, hstate]))

theorem frameReceive_clause (corr uncorr : Nat) (frame plain : List (BitVec 8)) (tagOk : Bool) (hp : p < 32) (hstate : s.portState p = 3)
    (hheld : s.portHeld p = false) :
    let header := leNat (frame.take 8)
    let kind := bitsOf header 63 60
    let good := frame.length = 256 ∧ crc64 0 (frame.take 248) = BitVec.ofNat 64 (leNat (frame.drop 248))
    let sealed := s.encOn p = true ∧ kind ≠ 3
    let recent := (s.port p).authAt.filter fun t => s.time < t + 1000000000
    let expected := bitsOf header 55 44 = (s.port p).expect
    ∃ u : State, Does (.frameReceive p frame plain tagOk corr uncorr) s u ∧
      u.reg (R.LNK_PORT_FEC_CORR p) = satAdd (s.reg (R.LNK_PORT_FEC_CORR p)) corr ∧
      u.reg (R.LNK_PORT_FEC_UNCORR p) = satAdd (s.reg (R.LNK_PORT_FEC_UNCORR p)) uncorr ∧
      (¬good → (u.port p).expect = (s.port p).expect ∧ (u.port p).nakOut = true ∧ (u.port p).replay = (s.port p).replay ∧ u.net = s.net) ∧
      (good → sealed → tagOk = false → u.reg (R.LNK_PORT_AUTH_FAIL p) = satAdd (s.reg (R.LNK_PORT_AUTH_FAIL p)) 1 ∧
        (recent.length < 3 → u.portState p = 3 ∧ (u.port p).expect = (s.port p).expect ∧ (u.port p).nakOut = true ∧ u.net = s.net) ∧
        (3 ≤ recent.length → u.portState p = 1 ∧ u.fld (R.LNK_PORT_STATUS p) 27 24 = 4)) ∧
      (good → (sealed → tagOk = true) →
        (u.port p).rxEpoch = (s.port p).rxEpoch + (if sealed ∧ bitsOf header 59 59 ≠ (s.port p).rxEpoch % 2 then 1 else 0) ∧
        (¬expected → (u.port p).expect = (s.port p).expect ∧ (u.port p).nakOut = true ∧ (u.port p).replay = (s.port p).replay ∧
          u.net = s.net) ∧
        (expected → kind < 5 → (u.port p).nakOut = false ∧ (u.port p).replay = ((s.acked p (bitsOf header 43 32)).port p).replay ∧
          (u.port p).expect = if kind = 1 ∨ kind = 2 then ((s.port p).expect + 1) % 4096 else (s.port p).expect)) := by
  intro header kind good sealed recent expected
  have hgood : frameCrcOk frame = true ↔ good := by simp only [frameCrcOk, Bool.and_eq_true, beq_iff_eq, good]
  have hsealed : s.frameSealed p header = true ↔ sealed := by simp only [State.frameSealed, Bool.and_eq_true, bne_iff_ne, sealed, kind, ne_eq]
  obtain ⟨-, hcorrAuth, huncorrAuth, hstatusCorr, hstatusUncorr, -⟩ := lnkPortFec_ne p
  obtain ⟨hcorrLink, huncorrLink, -⟩ := lnkPortFec_linkReg hp
  obtain ⟨hcorr, huncorr, hothers, hports, hnet, hfab, htime⟩ := s.fecCounted_effect p corr uncorr
  refine ⟨_, frameReceive_does s p frame plain tagOk corr uncorr hp hstate, ?_⟩
  generalize s.fecCounted p corr uncorr = v at hcorr huncorr hothers hports hnet hfab htime
  have hport : v.port p = s.port p := State.port_of_ports hports p
  have hvstate : v.portState p = 3 := (State.fld_of_reg (hothers _ hstatusCorr hstatusUncorr) 31 28).trans hstate
  have hvheld : v.portHeld p = false :=
    (State.portHeld_of hfab fun a ha => hothers a (fun h => ha (h ▸ hcorrLink)) fun h => ha (h ▸ huncorrLink)).trans hheld
  unfold State.frameChecked
  by_cases hg : good
  · rw [if_neg (by rw [hgood.mpr hg]; decide)]
    by_cases htag : (s.frameSealed p header && !tagOk) = true
    · rw [if_pos htag]
      rw [Bool.and_eq_true, Bool.not_eq_true'] at htag
      obtain ⟨hs, hbad⟩ := htag
      obtain ⟨htcorr, htuncorr, hauth, hfew, hmany⟩ := v.tagFails_effect hp hvheld
      rw [hport, htime] at hfew hmany
      refine ⟨htcorr.trans hcorr, htuncorr.trans huncorr, fun h => absurd hg h, fun _ _ _ => ⟨?_, fun hlt => ?_, hmany⟩, fun _ h => ?_⟩
      · rw [hauth, hothers _ hcorrAuth.symm huncorrAuth.symm]
      · obtain ⟨hst, hn, hexpect, hnak⟩ := hfew hlt
        exact ⟨hst.trans hvstate, hexpect, hnak, hn.trans hnet⟩
      · exact absurd (h (hsealed.mp hs)) (by rw [hbad]; decide)
    · rw [if_neg htag]
      generalize hbody : (if s.frameSealed p header then padTo plain 224 else (frame.drop 8).take 240) = body
      generalize hflip : (s.frameSealed p header && bitsOf header 59 59 != (v.port p).rxEpoch % 2) = flip
      have hflips : flip = true ↔ sealed ∧ bitsOf header 59 59 ≠ (s.port p).rxEpoch % 2 := by
        rw [← hflip, Bool.and_eq_true, hsealed, bne_iff_ne, hport]
      obtain ⟨heregs, henet, hefab, hetime, heport⟩ := v.epochSeen_effect p flip
      generalize v.epochSeen p flip = w at heregs henet hefab hetime heport
      have hwreg (a : Nat) : w.reg a = v.reg a := State.reg_of_regs heregs a
      have hwheld : w.portHeld p = false := (State.portHeld_of hefab fun a _ => hwreg a).trans hvheld
      obtain ⟨hwexpect, -, hwreplay, hwepoch⟩ := Port.received_eq.mp heport
      rw [hport] at hwexpect hwreplay hwepoch
      obtain ⟨hpcorr, hpuncorr, hepoch, hdiscarded, htaken⟩ := w.takeFrame_passes hp hwheld header body
      rw [hwexpect, hwreplay] at hdiscarded htaken
      refine ⟨(hpcorr.trans (hwreg _)).trans hcorr, (hpuncorr.trans (hwreg _)).trans huncorr, fun h => absurd hg h, fun _ hs hbad => ?_, fun _ _ =>
        ⟨?_, fun hne => ?_, fun heq hkind => ?_⟩⟩
      · exact absurd (by rw [hsealed.mpr hs, hbad]; rfl) htag
      · rw [hepoch, hwepoch]
        simp only [hflips]
      · obtain ⟨hexpect, hnak, hreplay, hn⟩ := hdiscarded hne
        exact ⟨hexpect, hnak, hreplay, hn.trans (henet.trans hnet)⟩
      · obtain ⟨hnak, hreplay, hexpect⟩ := htaken heq hkind
        exact ⟨hnak, hreplay.trans (s.replay_acked p _).symm, hexpect⟩
  · have hcrc : frameCrcOk frame = false := Bool.eq_false_iff.mpr fun h => hg (hgood.mp h)
    rw [if_pos (by rw [hcrc]; rfl)]
    obtain ⟨hregs, hdnet, hdport⟩ := v.discardFrame_effect hvheld
    obtain ⟨hexpect, hnak, hreplay, -⟩ := Port.received_eq.mp hdport
    rw [hport] at hexpect hreplay
    exact ⟨(State.reg_of_regs hregs _).trans hcorr, (State.reg_of_regs hregs _).trans huncorr, fun _ => ⟨hexpect, hnak, hreplay, hdnet.trans hnet⟩,
      fun h => absurd h hg, fun h => absurd h hg⟩

/-! ### Acknowledgements, replays, epochs and identities (R404, R407, R408) -/

theorem State.port_replayAll : (s.replayAll p).port p = { s.port p with resend := (s.port p).replay.map (·.seq), ackAt := s.time } :=
  State.port_modPort_same _ _ _

theorem upPort_clause (ack : Nat) (hp : p < 32) (hstate : s.portState p = 3) :
    (∃ u : State, Does (.nak p ack) s u ∧ (u.port p).replay = ((s.acked p (ack % 4096)).port p).replay ∧
      (u.port p).resend = (u.port p).replay.map (·.seq) ∧ (u.port p).ackAt = s.time) ∧
    ((s.port p).replay ≠ [] → (s.port p).ackAt + 4000 ≤ s.time → ∃ u : State, Does (.ackTimeout p) s u ∧
      u.port p = { s.port p with resend := (s.port p).replay.map (·.seq), ackAt := s.time }) ∧
    (s.encOn p = true → 2 ^ 32 ≤ (s.port p).frames → ∃ u : State, Does (.keyEpochAdvance p) s u ∧
      u.port p = { s.port p with epoch := (s.port p).epoch + 1, frames := 0 }) ∧
    ∃ u : State, Does (.peerIdReq p) s u ∧ u.ctrlOut = s.ctrlOut ++ [(p, s.peerIdFrame)] ∧ u.ports = s.ports := by
  refine ⟨⟨(s.acked p (ack % 4096)).replayAll p, ?_, ?_⟩, fun hreplay htime => ⟨s.replayAll p, ?_, s.port_replayAll p⟩, fun henc hframes =>
    ⟨s.modPort p fun q => { q with epoch := q.epoch + 1, frames := 0 }, ?_, State.port_modPort_same _ _ _⟩, ⟨s.sendCtrl p s.peerIdFrame, ?_, rfl, rfl⟩⟩
  · exact (exec_nak p ack s).trans (when_true (by simp [hp, hstate]))
  · rw [State.port_replayAll]
    exact ⟨rfl, rfl, (s.acked_effect p (ack % 4096)).2.2⟩
  · exact (exec_ackTimeout p s).trans (when_true (by simp [hp, hstate, hreplay, htime]))
  · exact (exec_keyEpochAdvance p s).trans (when_true (by simp [hp, hstate, henc, show 4294967296 ≤ (s.port p).frames from hframes]))
  · exact (exec_peerIdReq p s).trans (when_true (by simp [hp, hstate]))

theorem peerIdWord_fields {d : Nat} (hd : d < 65536) (valid : Bool) :
    (BitVec.ofNat 32 (2 ^ 31 * valid.toNat + d % 65536)).getLsbD 31 = valid ∧
    getBits (BitVec.ofNat 32 (2 ^ 31 * valid.toNat + d % 65536)) 15 0 = d := by
  have hlt := Bool.toNat_lt valid
  have htop : (2 ^ 31 * valid.toNat + d % 65536) % 2 ^ 32 / 2 ^ 31 % 2 = valid.toNat := by omega
  refine ⟨?_, ?_⟩
  · rw [BitVec.getLsbD, BitVec.toNat_ofNat, Nat.testBit_eq_decide_div_mod_eq, htop]
    cases valid with
    | false => rfl
    | true => rfl
  · simp only [getBits, BitVec.toNat_ofNat, Nat.shiftRight_eq_div_pow]
    omega

theorem peerId_clause (d : Nat) (valid : Bool) (hp : p < 32) (hstate : s.portState p = 3) (hd : d < 65536) :
    ∃ u : State, Does (.peerId p d valid) s u ∧ u.bit (R.LNK_PORT_PEER_ID p) 31 = valid ∧ u.fld (R.LNK_PORT_PEER_ID p) 15 0 = d ∧ u.ports = s.ports := by
  obtain ⟨hbit, hdevice⟩ := peerIdWord_fields hd valid
  have hreg : (s.peerId p d valid).reg (R.LNK_PORT_PEER_ID p) = BitVec.ofNat 32 (2 ^ 31 * valid.toNat + d % 65536) := State.reg_setReg_same _ _ _
  exact ⟨s.peerId p d valid, (exec_peerId p d valid s).trans (when_true (by simp [hp, hstate])), by rw [State.bit, hreg, hbit],
    by rw [State.fld, hreg, hdevice], rfl⟩

theorem acked_clause (ack : Nat) (h : ((s.port p).replay.any fun f => f.seq == ack) = true) :
    ((s.acked p ack).port p).replay = (s.port p).replay.filter fun f =>
      !(((s.port p).replay.takeWhile fun g => g.seq != ack).map (·.seq) ++ [ack]).contains f.seq := by
  rw [s.replay_acked, unacknowledged, if_pos h]

end

/-- Settles O50, by a clause for each command of a port: the training and its ends, the reception of a frame, and the acknowledgements. -/
theorem linkCommands : Obligations.LinkCommands := by
  unfold Obligations.LinkCommands
  exact ⟨⟨trainBegin_clause, stepTimeout_clause, portUp_clause, portPublish_clause, portCommands_clause⟩,
    ⟨fun s p corr uncorr frame plain tagOk => frameReceive_clause s p corr uncorr frame plain tagOk, upPort_clause, peerId_clause,
      portDown_clause, fun s p ack _ => acked_clause s p ack⟩⟩

end Sys2Proof.Machine
end
